-- ==== Sys2Proof/Word.lean ====
section
/-! DEFINITION. The word types of the Corildy N512 cache node (00 R3 to R5). -/

namespace Sys2Proof

/-- One byte. -/
abbrev Byte := BitVec 8

/-- A 32-bit word: an instruction of a jet, a header word, an FP32 value's bits. -/
abbrev Word32 := BitVec 32

/-- A 64-bit word: a register of BAR0, a time stamp. -/
abbrev Word64 := BitVec 64

/-- A SHA-384 digest (11 R364). -/
abbrev Digest := BitVec 384

/-- An AES-256 key (11 R371). -/
abbrev Key := BitVec 256

end Sys2Proof
end

