-- ==== Sys2Proof/Syntax.lean ====
section
/-! DEFINITION. The commands of the node, one constructor per row of spec/opcode_table.json, and their operands.
Indices (port, jet, channel, partition, request) are plain numbers; WellFormed.lean gives their ranges. -/

namespace Sys2Proof

/-- A PCIe function: the physical function, or virtual function p + 1, which belongs to partition p (11 R351). -/
inductive Fn where
  | pf
  | vf (part : Nat)
  deriving DecidableEq, Repr

/-- An SPDM responder endpoint: DOE of a function, or MCTP (11 R363). -/
inductive SpdmEp where
  | fn (f : Fn)
  | mctp
  deriving DecidableEq, Repr

/-- The path by which a mailbox command came, with what its response needs (14 R449). -/
inductive Path where
  /-- Writes to the command area, then MB_DOORBELL by a function: VEC and IRQ of the doorbell (R446). -/
  | bar0 (fn : Fn) (vec : BitVec 12) (irq : Bool)
  /-- A VENDOR_DEFINED_REQUEST of an SPDM session. -/
  | spdm (ep : SpdmEp) (session : BitVec 32)
  /-- A class 0 WRITE_IMM from a source node; its key slot, window and immediate are copied. -/
  | wt (src : BitVec 13) (keySlot : BitVec 10) (window : BitVec 20) (imm : BitVec 32)
  /-- An MCTP vendor-defined message. -/
  | mctp
  /-- A command the twin forwarded (10 R326): as `wt`, and not forwarded again. -/
  | fwd (src : BitVec 13) (keySlot : BitVec 10) (window : BitVec 20) (imm : BitVec 32)
  deriving DecidableEq, Repr

/-- A mailbox command in its turn: mailbox, path, SEQ as rung, and of the header of 14 R451 LEN, PART and the
RsvdZ bits ([31:26] low, [127:36] above), then the body. The opcode is the row. -/
structure AgtanCmd where
  mb   : Nat
  path : Path
  seq  : BitVec 16
  len  : BitVec 10
  part : BitVec 4
  rsvd : BitVec 98
  body : List Byte
  deriving DecidableEq, Repr

/-- The strap balls (15 R479). -/
structure Straps where
  brdId   : BitVec 8
  brdPos  : BitVec 3
  smbAddr : BitVec 3
  deriving DecidableEq, Repr

/-- The reference clocks (15 R474). -/
inductive RefClk where
  | pe | sd0 | sd1 | sys
  deriving DecidableEq, Repr

/-- The FATAL faults that the fault collector raises on its own (12 R396, R401). -/
inductive FatalCode where
  | lockstep | gateMismatch | fhMem
  deriving DecidableEq, Repr

/-- What the boot ROM finds of a firmware image (13 R414). -/
structure ImageCheck where
  signatureOk : Bool
  svn         : BitVec 16
  digest      : Digest
  deriving DecidableEq, Repr

/-- A row that failed the memory test (13 R418): pair of the die, bank of the pair, row. -/
structure BadRow where
  pair : Nat
  bank : Nat
  row  : Nat
  deriving DecidableEq, Repr

/-- The Briond link identity a peer sends in training (13 R421, 10 R349): board identity, board position, sending
port, its bin's maximum lane rate. -/
structure LinkId where
  brdId   : BitVec 8
  brdPos  : BitVec 3
  port    : Nat
  maxGbps : Nat
  deriving DecidableEq, Repr

/-- What a PTP clock announces of its grandmaster and its distance to it (IEEE 1588 clause 9.3, 07 R212). -/
structure PtpClock where
  priority1 : Nat
  clockClass : Nat
  accuracy  : Nat
  variance  : Nat
  priority2 : Nat
  identity  : Nat
  steps     : Nat
  deriving DecidableEq, Repr

/-- An IEEE 1588 message that a slave-only ordinary clock takes (07 R212), times in ns of PTP time with their correction
added: Announce; Sync, of a two-step master without its time; Follow_Up; Delay_Resp to a request of this node. -/
inductive PtpMsg where
  | announce (c : PtpClock)
  | sync (seq : Nat) (twoStep : Bool) (originNs : Nat)
  | followUp (seq : Nat) (originNs : Nat)
  | delayResp (seq : Nat) (receiveNs : Nat)
  deriving DecidableEq, Repr

/-- The algorithms an SPDM requester offers, as far as the node supports them (11 R363). -/
structure SpdmAlgs where
  ecdsaP384 : Bool
  sha384    : Bool
  secp384r1 : Bool
  aes256gcm : Bool
  deriving DecidableEq, Repr

/-- The numeric sensors of PLDM (15 R483). -/
inductive PldmSensor where
  | basin | cistern | power
  | railVolt (rail : Nat)
  | railAmp (rail : Nat)
  deriving DecidableEq, Repr

/-- An IDE_KM message (11 R370): program a key of a stream, activate it, stop it. -/
inductive IdeKm where
  | keyProg (stream : Nat) (key : Key)
  | setGo (stream : Nat)
  | setStop (stream : Nat)
  deriving DecidableEq, Repr

/-- What the hardware's checks report of a command's accesses: the columns that the on-die ECC corrects or finds
uncorrectable, as 16 × grain + column (12 R390, assumption 7); the grains whose write fails (07 R210); the entries of a
request whose two page-list lookups differ (12 R392). -/
structure EccReport where
  ce : List Nat
  ue : List Nat
  writeFails : List Nat := []
  differ : List Nat := []
  deriving DecidableEq, Repr

/-- The kinds of ordinary access to a bank pair (03, Sharing the bank pair). -/
inductive OrdKind where
  | pageWrite | migration | mirrorWrite | hostRead | scrub | refresh
  deriving DecidableEq, Repr

/-- An ordinary access: kind, 5-bit partition tag (11 R356), grain, columns, and the grain's new bytes for a write. -/
structure OrdAccess where
  kind  : OrdKind
  tag   : BitVec 5
  grain : Nat
  cols  : Nat
  bytes : List Byte
  deriving DecidableEq, Repr

/-- A partitionable resource (11 R353). -/
inductive Resource where
  | channelGroup (g : Nat)
  | slice (s : Nat)
  | cluster (c : Nat)
  | windowBlock (b : Nat)
  | keySlot (k : Nat)
  | sessionBlock (b : Nat)
  deriving DecidableEq, Repr

/-- A page: of a session, or of a base sequence of a partition (02 R78). -/
structure PageRef where
  base  : Bool
  part  : Nat
  owner : Nat
  layer : Nat
  head  : Nat
  page  : Nat
  deriving DecidableEq, Repr

/-- A place under self-test (12 R397). -/
inductive Place where
  | row (grain : Nat)
  | jet (jet : Nat)
  | tsv (ch : Nat)
  | lane (port lane : Nat)
  | portLink (port : Nat)
  | subBank (slice n : Nat)
  | array (cluster k : Nat)
  deriving DecidableEq, Repr

/-- What degrades a lane (12 R397). -/
inductive LaneCause where
  | ber | lossOfLock | codewords
  deriving DecidableEq, Repr

/-- Where a register write goes: BAR0 of a function (14 R442), the register space of a jet (03 R90), or the
JET_SCHED_CFG or JET_READYV of a channel (03 R90, R103), or WT_TWIN_STAT, for which the spec gives access codes and no
offset (10 R329, assumption 148). -/
inductive RegTarget where
  | bar0 (fn : Fn) (off : BitVec 26)
  | jet (jet : Nat) (off : BitVec 18)
  | jetSched (ch : Nat)
  | jetReadyV (ch : Nat)
  | twinStat
  deriving DecidableEq, Repr

/-- The Woarnys transport header (08 R238). `rsvd` holds every RsvdZ bit of the twelve words, lowest word first. -/
structure Hdr where
  status  : BitVec 8
  first   : Bool
  last    : Bool
  acknow  : Bool
  void    : Bool
  sync    : Bool
  fwd     : Bool
  opcode  : BitVec 8
  rclass  : BitVec 2
  ver     : BitVec 4
  dst     : BitVec 13
  src     : BitVec 13
  seq     : BitVec 24
  keySlot : BitVec 10
  attempt : BitVec 16
  window  : BitVec 20
  offset  : BitVec 40
  gen     : BitVec 16
  imm     : BitVec 32
  stamp   : BitVec 64
  ptag    : BitVec 32
  ctlCtr  : BitVec 32
  rsvd    : BitVec 44
  deriving DecidableEq, Repr

/-- The UDP checksum of a frame (08 R233). -/
inductive UdpSum where
  | zero | good | bad
  deriving DecidableEq, Repr

/-- A frame as a port receives it (08 R233, R235): its size from the MAC destination to the FCS, the fields of the
encapsulation, the transport header, the ciphertext and the GCM tag. -/
structure Frame where
  port     : Nat
  size     : Nat
  fcsOk    : Bool
  macOk    : Bool
  tpid     : BitVec 16
  vid      : BitVec 12
  ipVer    : BitVec 4
  ipNext   : BitVec 8
  ipDst    : BitVec 128
  udpDst   : BitVec 16
  udpSum   : UdpSum
  hdr      : Hdr
  body     : List Byte
  tag      : BitVec 128
  deriving DecidableEq, Repr

/-- The commands: one constructor per row of spec/opcode_table.json, in its order. `now` is the fabric time, in ns,
at which the step happens: the clock moves to it and never back (assumption 2). -/
inductive Instr where
  /-- POWER_ON (R412): Once the rails are in limits, power-on starts a NODE_FULL bring-up that runs the six stages in order. -/
  | powerOn (straps : Straps)
  /-- RESET_BALL (R473): RST_N held low for at least 1 ms, sampled on SYSCLK_25M, resets the node at NODE_FULL scope; a shorter low pulse has no effect. -/
  | resetBall (lowNs : Nat)
  /-- PERST (R426): PE_RST_N resets only the PCIe functions: admitted HOST requests end CANCELLED with no completion entry, and every HOST and COMPLETION queue goes to TYPE 0. -/
  | perst
  /-- RAIL_OUT_OF_RANGE (R472): A rail out of range for more than 10 us while RST_N is high squelches the transmitters, drives FAULT_N low and holds the node in reset. -/
  | railOutOfRange (rail : Nat) (ns : Nat)
  /-- RAILS_RECOVERED (R472): When every rail has been in range for 1 ms after a rail fault, the node performs NODE_FULL with LAST_RESET 0. -/
  | railsRecovered (ns : Nat)
  /-- CLOCK_ABSENT (R475): A reference clock outside 1,000 ppm over 100 us is absent, with an outcome that depends on the clock and on the stage. -/
  | clockAbsent (clk : RefClk)
  /-- THERMAL_TRIP (R490): A sensor at 112 C or more for 100 us trips the node: transmitters squelched, cisterns in self-refresh, alerts driven, clocks stopped. -/
  | thermalTrip (degC : Nat) (ns : Nat)
  /-- THERMAL_TRIP_RELEASE (R490): RST_N held low for 1 ms with every sensor below 95 C ends a trip, and the node performs NODE_FULL. -/
  | thermalTripRelease (lowNs : Nat) (hottestC : Nat)
  /-- DRAM_HOT (R489): A DRAM die above 85 C has its refresh doubled by the channel scheduler. -/
  | dramHot (ch : Nat) (degC : Nat)
  /-- WATCHDOG_EXPIRY (R401): A watchdog not refreshed for 100 ms makes both independent paths silence the node and apply NODE_RETAIN. -/
  | watchdogExpiry (now : Nat)
  /-- FATAL_EVENT (R394): A LOCKSTEP, GATE_MISMATCH or FH_MEM fault silences the node and applies NODE_RETAIN; the third such event within one hour leaves the node HELD. -/
  | fatalEvent (code : FatalCode) (srcIndex : Nat) (now : Nat)
  /-- FIRMWARE_VERIFY (R414): Stage 1 completes when the boot ROM accepts firmware image A or B, or enters FAILED when neither verifies. -/
  | firmwareVerify (a : ImageCheck) (b : ImageCheck) (now : Nat)
  /-- CLOCKS_LOCKED (R412): Stage 2 completes when the PLLs have locked and the network-on-chip and the PCIe controller have started. -/
  | clocksLocked (now : Nat)
  /-- CHANNEL_TRAINING_DONE (R417): A channel ends training; after three failures it is lost, raising CHANNEL_LOST and setting LOST. -/
  | channelTrainingDone (ch : Nat) (passed : Bool)
  /-- MEMORY_TEST_DONE (R418): At NODE_FULL, a channel completes its pattern, address and zeroing passes and applies spare rows and spare pairs. -/
  | memoryTestDone (ch : Nat) (badRows : List BadRow)
  /-- LANE_TRAINING_DONE (R421): A port's link trains up in direct-link mode or in standard mode, according to the link identities of its two ends. -/
  | laneTrainingDone (port : Nat) (up : Bool) (peer : Option LinkId)
  /-- LANE_RETRY_TIMER (R420): A port still down after stage 4 retries training in the background once every second. -/
  | laneRetryTimer (port : Nat) (now : Nat)
  /-- COMPUTE_STAGE_DONE (R412): Stage 5 completes when the jet stores are loaded and checked, the jet self-tests have run and the confluence arrays are tested. -/
  | computeStageDone (failedJets : List Nat) (failedArrays : List Nat) (now : Nat)
  /-- STAGE_OVERRUN (R415): A stage past its bound restarts bring-up at step 1 with the same scope, or enters FAILED on a second overrun. -/
  | stageOverrun (now : Nat)
  /-- SERVICE_OPEN (R423): Service opens once fabric time has locked, or 10 s after the bound of step 4, and the pre-service epoch is applied. -/
  | serviceOpen (now : Nat)
  /-- PTP_MESSAGE (R212): An IEEE 1588 event or general message is stamped at the PHY and used to steer fabric time. -/
  | ptpMessage (port : Nat) (msg : PtpMsg)
  /-- MASTER_LOST (R213): When every master is lost, the node sets HOLDOVER and keeps fabric time on its 25 MHz reference. -/
  | masterLost
  /-- PPS_IN_EDGE (R476): A rising edge on PPS_IN is stamped on fabric time and reported in PPS_IN. -/
  | ppsInEdge
  /-- PPS_OUT_SECOND (R476): At each whole second of PTP time, while LOCKED or HOLDOVER is set, PPS_OUT rises for 100 ms. -/
  | ppsOutSecond (now : Nat)
  /-- POWER_SAMPLE (R428): Every 10 us the power manager samples package power and moves the clock level up or down. -/
  | powerSample (watts : Nat) (tjC : Nat) (tcisC : Nat) (now : Nat)
  /-- AVSBUS_NO_ACK (R470): After three consecutive unacknowledged AVSBus writes, the node raises its clocks no further until the next reset. -/
  | avsbusNoAck
  /-- NODE_STATUS (R456): Returns FH_BOOT_STAT, the epoch registers, the power status and WT_TWIN_STAT. -/
  | nodeStatus (c : AgtanCmd)
  /-- ATTEST_REPORT (R365): Returns the signed 1,920-byte report block for the supplied nonce. -/
  | attestReport (c : AgtanCmd)
  /-- NODE_RESET (R427): Answers, then resets the node at FULL or RETAIN scope 1 ms later; refused in SOLO or RESYNC_SRC unless FORCE is set. -/
  | nodeReset (c : AgtanCmd)
  /-- PARTITION_RESET (R294): Resets one partition: its jets and requests end with CANCELLED, its rings are emptied, and its keys and its fixed area are cleared; the command is parked. -/
  | partitionReset (c : AgtanCmd)
  /-- PARTITION_RESET_END (R406): The partition reset completes, and the parked PARTITION_RESET command completes with OK. -/
  | partitionResetEnd (part : Nat) (now : Nat)
  /-- LANE_RETRAIN (R422): Moves a lane's traffic to the spare lane and retrains it, or retrains a whole standard-mode port. -/
  | laneRetrain (c : AgtanCmd)
  /-- LANE_RETRAIN_DONE (R398): A lane retrained with PRBS31 becomes the port's new spare lane. -/
  | laneRetrainDone (port : Nat) (lane : Nat) (passed : Bool)
  /-- FAULT_READ (R456): Returns FLT_FIRST and up to 32 history records, filtered by partition for a tenant. -/
  | faultRead (c : AgtanCmd)
  /-- PEER_CLEAR (R263): Clears a peer's UNREACHABLE mark. -/
  | peerClear (c : AgtanCmd)
  /-- CFG_COMMIT (R432): Checks the mailbox's staging set and commit time, and accepts the set as the pending epoch, sealing the set. -/
  | cfgCommit (c : AgtanCmd)
  /-- CFG_ABORT (R438): Withdraws the pending epoch of the mailbox's set when it arrives at least 10 us before its commit time. -/
  | cfgAbort (c : AgtanCmd)
  /-- CFG_STATUS (R456): Returns the epoch registers and whether the mailbox's set is OPEN or SEALED. -/
  | cfgStatus (c : AgtanCmd)
  /-- CFG_DISCARD (R456): Empties the staged changes of an OPEN set. -/
  | cfgDiscard (c : AgtanCmd)
  /-- PART_MAP_STAGE (R352): Stages one partition map entry, refused with FORMAT under the ownership rules. -/
  | partMapStage (c : AgtanCmd)
  /-- PART_CFG_STAGE (R203): Stages TIER_PCFG, SLC_PCFG, PROV_HOLD and OWIN for a partition. -/
  | partCfgStage (c : AgtanCmd)
  /-- PART_STATUS (R456): Returns the owner and the FREE, SCRUBBING or assigned state of every partitionable resource. -/
  | partStatus (c : AgtanCmd)
  /-- LOCK_STAGE (R360): Stages SEC_LOCK; a commit that would clear a set bit is refused. -/
  | lockStage (c : AgtanCmd)
  /-- ADMIT_WEIGHTS_STAGE (R297): A tenant stages its partition's SLC_ADMIT_WEIGHTS. -/
  | admitWeightsStage (c : AgtanCmd)
  /-- NODE_CFG_STAGE (R237): Stages WT_NODE_CFG and WT_PREFIX. -/
  | nodeCfgStage (c : AgtanCmd)
  /-- TWIN_CFG_STAGE (R314): Stages WT_TWIN_CFG, with its checks on the twin node and the mirror ports. -/
  | twinCfgStage (c : AgtanCmd)
  /-- ROUTE_STAGE (R461): Stages route masks for up to 126 destinations. -/
  | routeStage (c : AgtanCmd)
  /-- TWIN_STATUS (R456): Returns WT_TWIN_STAT. -/
  | twinStatus (c : AgtanCmd)
  /-- DIR_READ (R456): Returns the directory epoch and membership or reserved-table records from a stated index. -/
  | dirRead (c : AgtanCmd)
  /-- WINDOW_STAGE (R458): Stages one window entry of the issuing partition. -/
  | windowStage (c : AgtanCmd)
  /-- WINDOW_READ (R456): Returns a window's committed entry with its GEN and STAMP. -/
  | windowRead (c : AgtanCmd)
  /-- WINDOW_REVOKE (R274): Raises the window's GEN at once, closes it when CLOSE is set, and parks until the drain completes. -/
  | windowRevoke (c : AgtanCmd)
  /-- WINDOW_REVOKE_DRAINED (R275): Every access checked under the older generation has completed, and the parked revoke answers. -/
  | windowRevokeDrained (window : Nat) (now : Nat)
  /-- SRCSET_STAGE (R461): Stages one half of a source set. -/
  | srcsetStage (c : AgtanCmd)
  /-- WEIR_STAGE (R461): Stages part of a port's weir list, with the checks of R302. -/
  | weirStage (c : AgtanCmd)
  /-- SHAPER_STAGE (R298): Stages the shaper of a queue group or of a port class. -/
  | shaperStage (c : AgtanCmd)
  /-- PORT_WEIGHTS_STAGE (R297): Stages SLC_PORT_WEIGHTS for a port. -/
  | portWeightsStage (c : AgtanCmd)
  /-- QUEUE_SET (R281): Writes a queue context while the queue's TYPE is 0, and takes the grains of a FABRIC ring from allocation. -/
  | queueSet (c : AgtanCmd)
  /-- QUEUE_STOP (R281): Stops the queue from landing or reading new entries, and parks until it has drained. -/
  | queueStop (c : AgtanCmd)
  /-- QUEUE_STOPPED (R281): The queue holds no landed message and ADMITTED reads 0; TYPE becomes 0 and the parked QUEUE_STOP completes. -/
  | queueStopped (queue : Nat)
  /-- QUEUE_READ (R456): Returns one queue context. -/
  | queueRead (c : AgtanCmd)
  /-- KEY_INSTALL (R374): Unwraps a key blob and installs it in a slot in ACTIVE, NEXT_RX or NEXT_TX. -/
  | keyInstall (c : AgtanCmd)
  /-- KEY_SWITCH (R374): Moves a slot from NEXT_RX to NEXT_TX. -/
  | keySwitch (c : AgtanCmd)
  /-- KEY_DROP (R374): Moves a slot from NEXT_TX to ACTIVE at the new epoch and erases the old key. -/
  | keyDrop (c : AgtanCmd)
  /-- KEY_RETIRE (R375): Stops authentication under the slot at once, enters RETIRING and parks. -/
  | keyRetire (c : AgtanCmd)
  /-- KEY_RETIRED (R375): The slot's admitted work has drained or its bound has passed; the key is erased, the slot becomes RETIRED and the parked KEY_RETIRE completes. -/
  | keyRetired (slot : Nat) (now : Nat)
  /-- KEY_STATUS (R493): Returns the state, epoch, install time and AGE_WARN of up to 62 slots. -/
  | keyStatus (c : AgtanCmd)
  /-- KEY_AGE_WARN (R376): At 80% of a key's lifetime, AGE_WARN is set and an event is recorded. -/
  | keyAgeWarn (slot : Nat) (now : Nat)
  /-- KEY_LIFETIME_EXPIRY (R376): At the end of its lifetime a key is neither used to send nor accepted on receive. -/
  | keyLifetimeExpiry (slot : Nat) (now : Nat)
  /-- SESSION_OPEN (R60): Opens a session index with its parameters, or forwards the command to its writer or to its pair. -/
  | sessionOpen (c : AgtanCmd)
  /-- SESSION_CLOSE (R75): Sets the session's STATE to closing, mirrors the change and completes under R327. -/
  | sessionClose (c : AgtanCmd)
  /-- SESSION_CLOSE_RELEASE (R75): Once the admitted requests naming the session have completed, its runs, SRAM and list grains are released and STATE becomes 0. -/
  | sessionCloseRelease (session : Nat)
  /-- SESSION_READ (R456): Returns the session entry and committed counts. -/
  | sessionRead (c : AgtanCmd)
  /-- BASE_BEGIN (R460): Reserves resident page indices and draws a seed for a base sequence being loaded. -/
  | baseBegin (c : AgtanCmd)
  /-- BASE_END (R460): Completes a base sequence load when every declared page is sealed. -/
  | baseEnd (c : AgtanCmd)
  /-- BASE_UNLOAD (R80): Unloads a base sequence that no open or closing session names. -/
  | baseUnload (c : AgtanCmd)
  /-- POSTAB_LOAD (R462): Copies a verified position table from the partition's grains into the node's own allocation. -/
  | postabLoad (c : AgtanCmd)
  /-- POSTAB_UNLOAD (R80): Unloads a position table that no session names. -/
  | postabUnload (c : AgtanCmd)
  /-- PROG_STAGE (R462): Verifies a partition kernel library image against its digest and stages it. -/
  | progStage (c : AgtanCmd)
  /-- STATS_READ (R463): Returns, and optionally clears in one step, the statistics header, the compression counters and layer records. -/
  | statsRead (c : AgtanCmd)
  /-- HIST_READ (R456): Returns up to 15 scale history records from an index. -/
  | histRead (c : AgtanCmd)
  /-- REBALANCE (R206): Starts moving a page to a target pair by rebalance migration. -/
  | rebalance (c : AgtanCmd)
  /-- MB_DOORBELL (R447): A write to MB_DOORBELL accepts the command in the command area, or repeats the kept response for a repeated SEQ. -/
  | mbDoorbell (fn : Fn) (mb : Nat) (value : BitVec 64)
  /-- MAILBOX_TURN (R448): The fountainhead serves the next mailbox in round robin and executes one command from it. -/
  | mailboxTurn
  /-- SPDM_GET_VERSION (R363): An SPDM GET_VERSION request is answered. -/
  | spdmGetVersion (ep : SpdmEp)
  /-- SPDM_GET_CAPABILITIES (R363): An SPDM GET_CAPABILITIES request is answered. -/
  | spdmGetCapabilities (ep : SpdmEp) (version : BitVec 8)
  /-- SPDM_NEGOTIATE_ALGORITHMS (R363): An SPDM NEGOTIATE_ALGORITHMS request is answered. -/
  | spdmNegotiateAlgorithms (ep : SpdmEp) (algs : SpdmAlgs)
  /-- SPDM_GET_DIGESTS (R363): An SPDM GET_DIGESTS request is answered. -/
  | spdmGetDigests (ep : SpdmEp)
  /-- SPDM_GET_CERTIFICATE (R362): Serves the slot 0 certificate chain. -/
  | spdmGetCertificate (ep : SpdmEp) (slot : Nat) (offset : Nat) (length : Nat)
  /-- SPDM_CHALLENGE (R363): An SPDM CHALLENGE request is signed with the device key. -/
  | spdmChallenge (ep : SpdmEp) (slot : Nat) (nonce : BitVec 256)
  /-- SPDM_GET_MEASUREMENTS (R364): Returns the measurement indices visible to the function. -/
  | spdmGetMeasurements (ep : SpdmEp) (index : Nat) (signed : Bool) (nonce : BitVec 256)
  /-- SPDM_KEY_EXCHANGE (R363): An SPDM KEY_EXCHANGE request starts a secured session, with mutual authentication when TENANT_KEY is set. -/
  | spdmKeyExchange (ep : SpdmEp) (reqSession : BitVec 16) (exchange : List Byte)
  /-- SPDM_FINISH (R363): An SPDM FINISH request completes session establishment. -/
  | spdmFinish (ep : SpdmEp) (verified : Bool) (reqKeyDigest : BitVec 384)
  /-- SPDM_KEY_UPDATE (R363): An SPDM KEY_UPDATE request updates the session keys. -/
  | spdmKeyUpdate (ep : SpdmEp) (session : BitVec 32) (op : Nat) (tag : BitVec 8)
  /-- SPDM_HEARTBEAT (R363): An SPDM HEARTBEAT request keeps the session alive. -/
  | spdmHeartbeat (ep : SpdmEp) (session : BitVec 32)
  /-- SPDM_END_SESSION (R363): An SPDM END_SESSION request ends the session. -/
  | spdmEndSession (ep : SpdmEp) (session : BitVec 32)
  /-- VENDOR_DEFINED_REQUEST (R449): A secured VENDOR_DEFINED_REQUEST carries a mailbox command on the SPDM path. -/
  | vendorDefinedRequest (ep : SpdmEp) (session : BitVec 32) (payload : List Byte)
  /-- MCTP_MAILBOX_MESSAGE (R449): An MCTP vendor-defined message carries a mailbox 0 command. -/
  | mctpMailboxMessage (payload : List Byte)
  /-- PLDM_REQUEST (R483): A PLDM Platform Monitoring and Control request reads the numeric sensors. -/
  | pldmRequest (sensor : PldmSensor)
  /-- SMBUS_TIMEOUT (R483): SCL low for more than 35 ms makes the target release SDA and reset its SMBus state. -/
  | smbusTimeout (lowNs : Nat)
  /-- IDE_INTEGRITY_FAIL (R370): A TLP that fails IDE integrity is discarded, its stream goes Insecure, and a node-scope CONTAINED fault is recorded. -/
  | ideIntegrityFail (stream : Nat)
  /-- BAR2_READ (R385): A BAR2 read returns grain bytes, poisoned when the tag or write generation fails. -/
  | bar2Read (fn : Fn) (addr : BitVec 39) (len : Nat) (ecc : EccReport)
  /-- BAR2_WRITE (R444): A BAR2 write to a window or unallocated grain is applied and mirrored; any other grain, or BAR2_OFF, draws Unsupported Request. -/
  | bar2Write (fn : Fn) (addr : BitVec 39) (bytes : List Byte) (ecc : EccReport)
  /-- HOST_DOORBELL (R285): A doorbell write gives a HOST queue its new producer index, or is ignored and counted. -/
  | hostDoorbell (fn : Fn) (queue : Nat) (db : BitVec 32)
  /-- COMPLETION_DOORBELL (R285): A doorbell write gives a COMPLETION queue its new consumer index, freeing entries. -/
  | completionDoorbell (fn : Fn) (queue : Nat) (db : BitVec 32)
  /-- HOST_SUBMISSION_READ (R286): The node reads a HOST submission entry and its message, which lands as a request of the queue's class, or acts as a host CANCEL. -/
  | hostSubmissionRead (queue : Nat) (entry : BitVec 512) (msg : List Byte)
  /-- FIRST_CLR (R403): Writing FIRST_CLR clears FLT_FIRST and FIRST_VALID. -/
  | firstClr (fn : Fn)
  /-- HIST_CLR (R403): Writing HIST_CLR empties the fault history queue. -/
  | histClr (fn : Fn)
  /-- REGISTER_WRITE (R6): A write to a register without a row of its own takes effect by its access code, including RWL staging and W1C clearing. -/
  | registerWrite (tgt : RegTarget) (value : BitVec 64)
  /-- GO (R92): Writing a GO bit of JET_CTL moves a FREE slot to QUEUED, or sets the protocol bit for a slot that is not FREE. -/
  | go (jet : Nat) (slot : Nat)
  /-- STOP (R97): Writing a STOP bit of JET_CTL stops a slot according to its state. -/
  | stop (jet : Nat) (slot : Nat)
  /-- READY_CLEAR (R99): Clearing a READY bit frees the slot and releases the accumulator that holds its partial. -/
  | readyClear (jet : Nat) (slot : Nat)
  /-- MICROPROGRAM_WRITE (R110): The node writes a jet's microprogram store while the jet is idle, and sets PROG_OK once the digest matches. -/
  | microprogramWrite (jet : Nat)
  /-- SLOT_START (R92): The jet starts the oldest QUEUED slot, or ends it at once with FORMAT under R95. -/
  | slotStart (jet : Nat)
  /-- NOP (R113): Does nothing. -/
  | nop (jet : Nat)
  /-- LI (R113): Loads a sign-extended immediate into a register. -/
  | li (jet : Nat) (a : BitVec 4) (imm : BitVec 18)
  /-- ADD (R113): Adds a sign-extended immediate to a register into a register. -/
  | add (jet : Nat) (a : BitVec 4) (b : BitVec 4) (imm : BitVec 18)
  /-- GETS (R113): Reads a slot value into a register. -/
  | gets (jet : Nat) (a : BitVec 4) (imm : BitVec 18)
  /-- GETE (R113): Reads an entry field into a register. -/
  | gete (jet : Nat) (a : BitVec 4) (b : BitVec 4) (imm : BitVec 18)
  /-- BEQ (R113): Branches if two registers are equal. -/
  | beq (jet : Nat) (a : BitVec 4) (b : BitVec 4) (imm : BitVec 18)
  /-- BNE (R113): Branches if two registers differ. -/
  | bne (jet : Nat) (a : BitVec 4) (b : BitVec 4) (imm : BitVec 18)
  /-- JMP (R113): Branches unconditionally, ending the slot with ILLEGAL for a forbidden target. -/
  | jmp (jet : Nat) (imm : BitVec 18)
  /-- STOPB (R113): Branches and takes STOP when a STOP is pending for the running slot. -/
  | stopb (jet : Nat) (imm : BitVec 18)
  /-- END (R113): Writes STATUS and BADMASK and sets READY. -/
  | endSlot (jet : Nat)
  /-- FAIL (R113): Ends the slot with RESULT FORMAT and no partial. -/
  | failSlot (jet : Nat)
  /-- CLRP (R113): Clears the row maxima, the row sums, BADMASK and PAGES_DONE. -/
  | clrp (jet : Nat)
  /-- CLRA (R113): Waits for ACC_BUSY to clear, then clears the accumulator. -/
  | clra (jet : Nat)
  /-- RDK (R115): Starts reading an entry's K segment, checking ECC, write generation and tags. -/
  | rdk (jet : Nat) (a : BitVec 4)
  /-- RDV (R115): Starts reading an entry's V segment, checking ECC, write generation and tags. -/
  | rdv (jet : Nat) (a : BitVec 4)
  /-- RDBK (R113): Reads a base entry's K half into the base area. -/
  | rdbk (jet : Nat) (a : BitVec 4)
  /-- RDBV (R113): Reads a base entry's V half into the base area. -/
  | rdbv (jet : Nat) (a : BitVec 4)
  /-- SEGMENT_READ_DONE (R113): A segment read completes, releasing the instruction waiting on it, or fails the entry under SKIPBAD. -/
  | segmentReadDone (jet : Nat) (ecc : EccReport)
  /-- QK (R86): Scores an entry's columns and updates the row maxima. -/
  | qk (jet : Nat) (a : BitVec 4)
  /-- EXPS (R113): Exponentiates an entry's scores in place and adds them to the row sums. -/
  | exps (jet : Nat) (a : BitVec 4)
  /-- PV (R87): Accumulates an entry's weighted V into the accumulator and increments PAGES_DONE. -/
  | pv (jet : Nat) (a : BitVec 4)
  /-- EMIT (R108): Runs the residue check and emits the partial, or ends the slot with RESIDUE. -/
  | emit (jet : Nat) (residueOk : Bool)
  /-- CPYROW (R113): Copies a row of both banks to a spare row, verifying carry tags. -/
  | cpyrow (jet : Nat) (a : BitVec 4) (b : BitVec 4)
  /-- PATW (R113): Writes a pattern over a row of both banks. -/
  | patw (jet : Nat) (a : BitVec 4) (imm : BitVec 18)
  /-- PATR (R113): Reads a row and compares it with a pattern, ending with BIST on a mismatch. -/
  | patr (jet : Nat) (a : BitVec 4) (imm : BitVec 18) (stuck : Bool)
  /-- ARRT (R113): Runs an array test vector set against its ROM expectations. -/
  | arrt (jet : Nat) (imm : BitVec 18) (passed : Bool)
  /-- YREQ_RAISE (R100): The channel scheduler raises YREQ for a waiting ordinary access, and the jet drops OWN at the end of its segment. -/
  | yreqRaise (jet : Nat)
  /-- YREQ_DROP (R102): After YIELD_COLS ordinary columns the scheduler drops YREQ. -/
  | yreqDrop (jet : Nat)
  /-- ORDINARY_ACCESS (R101): A page write, migration, mirror write, host read, scrub or refresh reaches a bank pair when OWN is low. -/
  | ordinaryAccess (jet : Nat) (acc : OrdAccess)
  /-- OWN_LIMIT_EXPIRY (R123): OWN high past OWN_LIMIT after YREQ makes the scheduler isolate the jet. -/
  | ownLimitExpiry (jet : Nat) (cycles : Nat)
  /-- SWEEP_LIMIT_EXPIRY (R123): A slot RUNNING longer than SWEEP_LIMIT makes the scheduler isolate the jet. -/
  | sweepLimitExpiry (jet : Nat) (cycles : Nat)
  /-- JET_RESPONSE_TIMEOUT (R123): A jet not answering a register access within 1 us is isolated. -/
  | jetResponseTimeout (jet : Nat) (ns : Nat)
  /-- JET_RESET (R125): Clears the jet's memories, reloads its store and runs kernels 14 and 15. -/
  | jetReset (jet : Nat) (arrayPass : Bool) (bankPass : Bool)
  /-- WRITE (R267): A WRITE frame is checked and its bytes are written into the window, visible in flow order. -/
  | write (f : Frame)
  /-- WRITE_IMM (R268): A WRITE_IMM frame to a window writes its data and delivers the immediate at the LAST frame. -/
  | writeImm (f : Frame)
  /-- WRITE_IMM_MAILBOX (R450): A single-frame class 0 WRITE_IMM to a mailbox submits a command or repeats the kept response. -/
  | writeImmMailbox (f : Frame)
  /-- CQ_HOLD_EXPIRY (R288): A WRITE_IMM held 1 ms for a full completion queue is refused with NO_RESOURCE. -/
  | cqHoldExpiry (port : Nat) (now : Nat)
  /-- FORWARD_COMPLETION (R326): The twin's completion of a forwarded message is relayed to the original source. -/
  | forwardCompletion (f : Frame)
  /-- READ_REQ (R242): A READ_REQ lands on a FABRIC queue to be answered with READ_RESP frames. -/
  | readReq (f : Frame)
  /-- READ_DEADLINE (R220): At a read's deadline, the READ_RESP ends with a last frame carrying DEADLINE. -/
  | readDeadline (req : Nat) (now : Nat)
  /-- ATTEND (R127): An ATTEND message lands on a FABRIC queue once its LAST frame passes the checks. -/
  | attend (f : Frame)
  /-- APPEND (R71): An APPEND message lands and, once admitted, quantises and writes its tokens and advances the counts. -/
  | append (f : Frame)
  /-- INGEST (R72): An INGEST message lands and, once admitted, writes whole pages as sealed pages and the rest as tail tokens. -/
  | ingest (f : Frame)
  /-- COMMIT (R150): A COMMIT message lands and is checked against the held provisional sets. -/
  | commit (f : Frame)
  /-- COMMIT_APPLY (R151): Once the ATTENDs carrying the set have completed, the accepted path is appended and the sets are discarded. -/
  | commitApply (req : Nat)
  /-- CANCEL (R245): A CANCEL stops the matching admitted ATTENDs of its source. -/
  | cancel (f : Frame)
  /-- SRAM_COPY_RELEASE (R68): A sealed or demoted page's SRAM copy is freed once no request that resolved it still reads it. -/
  | sramCopyRelease (pg : PageRef)
  /-- APPEND_DEADLINE (R219): A deadline passing before the atomic step begins ends an APPEND, INGEST or COMMIT with DEADLINE. -/
  | appendDeadline (req : Nat) (now : Nat)
  /-- LANDING_RESUME (R283): When a ring entry or landing room frees, a held class 3 frame lands. -/
  | landingResume (port : Nat)
  /-- ADMISSION_STEP (R291): The sluice chooses a class and queue and admits or refuses its oldest landed message, reserving response space. -/
  | admissionStep (part : Nat) (now : Nat) (ecc : EccReport)
  /-- ADMIT_WAIT_EXPIRY (R291): A landed message that has waited ADMIT_WAIT ticks, or past its admission limit, ends with NO_RESOURCE. -/
  | admitWaitExpiry (queue : Nat) (now : Nat)
  /-- SLOT_COLLECT (R140): The sluice reads a ready slot, gathers its m and l, and maps its RESULT under the error policy. -/
  | slotCollect (jet : Nat) (slot : Nat)
  /-- ENTRY_MERGE (R140): With every partial of an entry gathered, the confluence drains and merges o and forms the ATTEND_RESP. -/
  | entryMerge (req : Nat) (entry : Nat) (now : Nat) (ecc : EccReport) (residueOk : Bool)
  /-- CUT_TIME (R223): At a command's cut time, a slot not yet DONE is stopped under the request's deadline policy. -/
  | cutTime (jet : Nat) (slot : Nat) (now : Nat)
  /-- CONFLUENCE_DEADLINE (R225): A confluence part not complete at DL_NS minus MERGE_RES ends the entry with DEADLINE. -/
  | confluenceDeadline (req : Nat) (entry : Nat) (now : Nat)
  /-- PROV_SET_EXPIRY (R146): A provisional set is discarded at the end of its hold time. -/
  | provSetExpiry (session : Nat) (pset : Nat) (now : Nat)
  /-- HEDGE_EVALUATE (R336): At admission and at each tick boundary, the node predicts completion and sends a HEDGE when it will miss DL_NS. -/
  | hedgeEvaluate (req : Nat) (now : Nat)
  /-- HEDGE (R338): The twin admits a hedged request with its own reservation, or declines it. -/
  | hedge (f : Frame)
  /-- HEDGE_CLAIM (R341): A claim, reply, DONE or decline message updates the entry state at either end. -/
  | hedgeClaim (f : Frame)
  /-- MIRROR (R322): The twin applies its partner's mirror records in stamp order. -/
  | mirror (f : Frame)
  /-- MIRROR_ACK (R327): An APPLIED advance delivers the completions of the changes it covers. -/
  | mirrorAck (f : Frame)
  /-- MIRROR_KEEPALIVE (R317): After 5 us without class 1 traffic, an empty MIRROR message is sent. -/
  | mirrorKeepalive (now : Nat)
  /-- WRITER_APPLY_TIMEOUT (R327): APPLIED not covering a change within 4,540 us makes the writer enter SOLO and complete. -/
  | writerApplyTimeout (now : Nat)
  /-- TWIN_SILENCE_TIMEOUT (R330): After 20 us of silence, with the bond down and no DIR_QUERY reply within 50 us, the node enters SOLO. -/
  | twinSilenceTimeout (boardSilent : Bool) (queryAnswered : Bool) (now : Nat)
  /-- JOINING_TIMEOUT (R329): A JOINING node whose twin is silent for 100 ms after service would open enters SOLO. -/
  | joiningTimeout (now : Nat)
  /-- REJOIN (R333): The digests and stamp are exchanged and the resync copy begins. -/
  | rejoin (peerDigest : BitVec 384) (peerStamp : Nat) (accepted : Bool)
  /-- RESYNC_COMPLETE (R333): Every record up to s0 is applied and both nodes enter PAIRED. -/
  | resyncComplete
  /-- DIR_UPDATE (R346): A directory change is checked as its own configuration commit. -/
  | dirUpdate (f : Frame)
  /-- DIR_QUERY (R348): A directory query is answered with placements, or a reply is taken. -/
  | dirQuery (f : Frame)
  /-- VOID_SYNC (R253): A VOID frame with SYNC synchronises the receiver flow and records the sender's incarnation. -/
  | voidSync (f : Frame)
  /-- VOID (R253): A VOID frame without SYNC takes a sequence number and discards the open message. -/
  | void (f : Frame)
  /-- ACK (R258): An ACK releases descriptors, completes messages and restarts or stops the timer. -/
  | ack (f : Frame)
  /-- NAK (R258): A NAK goes back, completes a refused message, voids on the second key NAK, or resynchronises on SYNC. -/
  | nak (f : Frame)
  /-- ACK_TIMER_EXPIRY (R255): 2 us after the oldest unacknowledged accepted frame, the receiver sends an ACK. -/
  | ackTimerExpiry (src : Nat) (rclass : BitVec 2) (now : Nat)
  /-- RETRANSMIT_TIMER_EXPIRY (R258): A sender timer expiry goes back to UNA, moves the flow at expiry 3, and fails the flow at expiry 8. -/
  | retransmitTimerExpiry (dst : Nat) (rclass : BitVec 2) (now : Nat)
  /-- PEER_PROBE (R263): Once per millisecond while a peer is UNREACHABLE, a VOID probe with SYNC is sent. -/
  | peerProbe (peer : Nat) (now : Nat)
  /-- LINK_DOWN (R265): A port link lost raises LINK_DOWN and moves every flow pinned to the port. -/
  | linkDown (port : Nat)
  /-- PFC_FRAME (R266): A received PFC frame pauses or resumes egress of a priority. -/
  | pfcFrame (port : Nat) (pcps : BitVec 8) (xoff : Bool) (now : Nat)
  /-- NEIGHBOR_SOLICITATION (R236): An ICMPv6 Neighbor Solicitation for the node's address is answered. -/
  | neighborSolicitation (port : Nat) (target : BitVec 128) (src : BitVec 128)
  /-- ECHO_REQUEST (R236): An ICMPv6 Echo Request to the node's address is answered. -/
  | echoRequest (port : Nat) (target : BitVec 128) (src : BitVec 128) (ident : BitVec 16) (seq : BitVec 16) (data : List Byte)
  /-- OTHER_FRAME (R236): Any other frame is dropped and counted in WT_OTHER. -/
  | otherFrame (port : Nat) (size : Nat)
  /-- PORT_TRANSMIT (R296): The port scheduler picks the next eligible frame, assigns its SEQ and sends it. -/
  | portTransmit (port : Nat) (now : Nat)
  /-- WEIR_TAKEOVER (R304): At its take-over time, a new weir list replaces the old one. -/
  | weirTakeover (port : Nat) (now : Nat)
  /-- WEIR_ENTRY_ADVANCE (R303): The next weir list entry takes effect and opens or closes the gates. -/
  | weirEntryAdvance (port : Nat) (now : Nat)
  /-- EPOCH_COMMIT_TIME (R436): At the pending epoch's commit time, its settings take effect and the configuration image is written. -/
  | epochCommitTime (now : Nat)
  /-- EPOCH_DRAIN_END (R433): The older epoch stops being live once its requests have completed, and released resources enter SCRUBBING. -/
  | epochDrainEnd (now : Nat)
  /-- RESOURCE_SCRUB_DONE (R353): A released resource's scrub completes and the resource becomes FREE. -/
  | resourceScrubDone (res : Resource)
  /-- PROMOTE (R206): A hot page is copied into the dynamic area and its descriptor swapped with IN_SRAM 1. -/
  | promote (pg : PageRef) (ecc : EccReport)
  /-- DEMOTE_TIMEOUT (R204): A promoted page unswept for DEMOTE_TICKS ticks is demoted. -/
  | demoteTimeout (pg : PageRef) (now : Nat)
  /-- MIGRATION_SWAP (R206): After the copy and once no jet command names the old run, the descriptor is swapped. -/
  | migrationSwap (pg : PageRef) (ecc : EccReport)
  /-- OLD_RUN_RELEASE (R206): The old run is released after the last request that resolved the old descriptor completes. -/
  | oldRunRelease (pg : PageRef)
  /-- SCRUB_PASS (R389): The background scrub verifies grains and marks failures CONTAINED for repair. -/
  | scrubPass (grain : Nat) (ecc : EccReport)
  /-- SELF_TEST_VERDICT (R398): A self-test ends with a TRANSIENT or LASTING verdict, which returns the place to service or brings in its spare. -/
  | selfTestVerdict (place : Place) (passed : Bool) (now : Nat)
  /-- PAIR_SPARING (R399): A spare pair is tested, written in parallel, filled by copy and then switched in. -/
  | pairSparing (ch : Nat) (pair : Nat) (sparePasses : List Bool) (ecc : EccReport)
  /-- PAIR_SPARE_SWITCH (R399): Once the copy is done and the running commands have ended, the logical pair switches to the spare in one step. -/
  | pairSpareSwitch (ch : Nat) (pair : Nat)
  /-- LANE_DEGRADE (R397): A lane's BER above limit, loss of lock or uncorrectable codewords start its test. -/
  | laneDegrade (port : Nat) (lane : Nat) (cause : LaneCause)
  /-- TSV_FAULT (R397): Errors at one bit position in three banks within 1 ms start a TSV test and spare switch. -/
  | tsvFault (ch : Nat) (banks : Nat) (ns : Nat)
  /-- SB_COMMAND_WORD (R485): A complete SPI command word moves the target to DATA and latches a read value. -/
  | sbCommandWord (word : BitVec 32) (clocks : Nat) (now : Nat)
  /-- SB_DATA_WORD (R485): A complete SPI data word applies a write or shifts out the latched read. -/
  | sbDataWord (word : BitVec 32) (clocks : Nat) (now : Nat)
  /-- SB_WORD_DISCARDED (R487): SB_CS_N rising after 1 to 31 clocks discards the word and abandons a transaction in DATA. -/
  | sbWordDiscarded (clocks : Nat)
  /-- SB_DATA_TIMEOUT (R487): No data word within 1 ms of a command word abandons the transaction. -/
  | sbDataTimeout (now : Nat)
  /-- RESET_KEY (R486): Writing 0x0000_A5C3 requests NODE_RETAIN, in every stage. -/
  | resetKey (value : BitVec 32)
  /-- ERR_CLR (R486): Writing 1 zeroes the sideband error counters. -/
  | errClr (value : BitVec 32)
  /-- BYPASS (R488): The JTAG BYPASS instruction. -/
  | bypass
  /-- IDCODE (R488): The JTAG IDCODE instruction returns 0x1051_296F. -/
  | idcode
  /-- SAMPLE_PRELOAD (R488): The JTAG SAMPLE/PRELOAD instruction. -/
  | samplePreload
  /-- EXTEST (R488): The JTAG EXTEST instruction, loaded only while RST_N is low. -/
  | extest
  /-- EXTEST_PULSE (R488): The IEEE 1149.6 EXTEST_PULSE instruction, loaded only while RST_N is low. -/
  | extestPulse
  /-- EXTEST_TRAIN (R488): The IEEE 1149.6 EXTEST_TRAIN instruction, loaded only while RST_N is low. -/
  | extestTrain
  /-- RESERVED_OPCODE (R111): A jet instruction whose opcode is reserved ends the slot with RESULT ILLEGAL. -/
  | reservedOpcode (jet : Nat) (opc : BitVec 6)
  /-- UNDEFINED_OPCODE (R240): A received Woarnys transport frame with an undefined opcode, including OPCODE 0x00 with VOID clear, advances E, is refused with FORMAT at step 10, counts in WT_BAD_OPCODE and draws a refusal NAK. -/
  | undefinedOpcode (f : Frame)
  /-- MALFORMED_FRAME (R235): A received frame that is a runt, oversize, fails its FCS, lacks the tag, is malformed or is misdelivered is dropped and counted at steps 1, 3 or 4 of R239. -/
  | malformedFrame (f : Frame)
  /-- CLOCK_RETURN (R475): A reference clock that was absent comes back into range, and the ports of its half retrain. -/
  | clockReturn (clk : RefClk)
  /-- PCIE_CONFIG_REQUEST (R416): A PCIe configuration request is answered with Request Retry Status until step 2 of bring-up ends, and served normally after it. -/
  | pcieConfigRequest (fn : Fn)
  /-- IDE_KM_MESSAGE (R370): An IDE_KM key management message over the physical function's SPDM session programs or activates the keys of an IDE stream. -/
  | ideKmMessage (ep : SpdmEp) (msg : IdeKm)
  /-- NODE_RESET_DELAY_EXPIRY (R456): 1 ms after a NODE_RESET command has been answered, the node resets at the FULL or RETAIN scope that the command named. -/
  | nodeResetDelayExpiry (now : Nat)
  deriving DecidableEq, Repr

end Sys2Proof
end

