-- ==== Sys2Proof/Decode.lean ====
section
/-! DEFINITION. The node takes commands, not words: no row of spec/opcode_table.json gives bits. So no word spells a
command (assumption 28). -/

namespace Sys2Proof

/-- The command that a word of the opcode table spells: none, since the table gives no row any bits. -/
def decodeTableWord (_nbits _w : Nat) : Option Instr := none

end Sys2Proof
end

