-- ==== Sys2Proof/Config.lean ====
section
/-! DEFINITION. What the spec leaves to the implementation or leaves open: free values. None has a body, so no
proof can see a value, and a statement that mentions one holds for every value of it. A value that is drawn anew
each time is a function of the model's own counter `State.draws` (assumption 3). -/

namespace Sys2Proof.Config

/-- The n-th random word the node draws: STRIPE_SEED (02 R59), a base sequence's seed (14 R460), the incarnation
(08 R252). DESIGN CHOICE (assumption 3), safe: nothing constrains it. -/
opaque freeWord : Nat → BitVec 64

/-- The n-th choice of the allocator among the places the rules allow (02 R61, R66). DESIGN CHOICE
(assumption 11), safe. -/
opaque freePick : Nat → Nat

/-- Instruction k of the Agtan standard library, 64 to 1,023, outside kernel 0's listing (03 R109, R114); the spec gives
no words. DESIGN CHOICE (assumption 9), safe. -/
opaque stdLib : Nat → BitVec 32

/-- Where the code of standard kernel k begins in the library (03 R109): the spec gives no address. DESIGN CHOICE
(assumption 9), safe. -/
opaque stdStart : Nat → Nat

/-- Measurement 1, the boot ROM's digest (11 R364). -/
opaque bootRomDigest : BitVec 384

/-- The n-th signature of the device key over a digest (11 R362, R365): the private key never leaves the part. -/
opaque deviceSign : BitVec 384 → Nat → BitVec 768

/-- The certificate chain of slot 0, in DER form (11 R362). -/
opaque certChain : List Byte

/-- The n-th ephemeral public key of an SPDM KEY_EXCHANGE (11 R363). -/
opaque spdmExchange : Nat → BitVec 768

/-- The export master secret of the n-th SPDM session (11 R373), of the key schedule of DSP0277. -/
opaque exportMasterSecret : Nat → BitVec 384

/-- The fused voltage table: the VDD_CORE target in mV for the jet clock, the confluence clock and the junction
temperature (15 R470). -/
opaque vddTarget : Nat → Nat → Nat → Nat

/-- The MAC address of port p, and of the next hop of port p (08 R233): the spec gives neither. -/
opaque portMac : Nat → BitVec 48

/-- The check bits of the on-die code for a column's 32 data bytes and its side word (02 R43, 12 R390): the code's
generator is not given. DESIGN CHOICE (assumption 7), safe. -/
opaque eccCheck : List Byte → BitVec 16 → BitVec 16

/-- The syndrome bytes that the on-die ECC reports for column c (12 R390, R404): the code's generator is not given. -/
opaque eccSyndrome : Nat → BitVec 64

/-- The voltage in mV and current in mA of rail n as the monitors read them (15 R483). -/
opaque railReading : Nat → Nat → Nat

/-- The two residues of a failed residue check (12 R404). -/
opaque residueSyndrome : Nat → BitVec 64

/-- The word at an offset of a jet's partial window when no slot holds a partial (03 R90, R108): the spec gives none. DESIGN
CHOICE (assumption 147), safe. -/
opaque idleWindow : Nat → BitVec 64

/-- The fault code of the event that R376 records with AGE_WARN: the table of 12 R396 has none for it. DESIGN CHOICE
(assumption 73), safe: nothing constrains it. -/
opaque ageWarnCode : Nat

end Sys2Proof.Config
end

