-- ==== Sys2Proof/Machine/Bits.lean ====
section
/-! DEFINITION. Byte order, bit fields and sparse tables: the helpers that the structure layouts of the spec share
(00 R3 little-endian, R4 most significant byte first for headers, [hi:lo] fields with bit 0 lowest). -/

namespace Sys2Proof.Machine

/-- Field [lo + w - 1 : lo] of a value (00, Bit fields). -/
def field (v lo w : Nat) : Nat := (v >>> lo) % 2 ^ w

/-- Bit n of a value. -/
def bit (v n : Nat) : Bool := v.testBit n

/-- A Bool as a bit. -/
def b2n (b : Bool) : Nat := if b then 1 else 0

/-- Does field [lo + w - 1 : lo] read zero (00 R8, R9)? -/
def fieldZero (v lo w : Nat) : Bool := field v lo w == 0

/-- The value of bytes, little-endian (00 R3). -/
def leNat : List Byte → Nat
  | [] => 0
  | b :: t => b.toNat + 256 * leNat t

/-- n bytes of a value, little-endian (00 R3). -/
def leBytes : Nat → Nat → List Byte
  | 0, _ => []
  | n + 1, v => BitVec.ofNat 8 v :: leBytes n (v / 256)

/-- The value of bytes, most significant first (00 R4). -/
def beNat (l : List Byte) : Nat := leNat l.reverse

/-- n bytes of a value, most significant first (00 R4). -/
def beBytes (n v : Nat) : List Byte := (leBytes n v).reverse

/-- n bytes from byte i of a list, absent bytes zero. -/
def slice (l : List Byte) (i n : Nat) : List Byte :=
  let x := (l.drop i).take n
  x ++ List.replicate (n - x.length) 0

/-- The little-endian value of n bytes from byte i. -/
def leAt (l : List Byte) (i n : Nat) : Nat := leNat (slice l i n)

/-- Replace the bytes from i by b, within the list's length. -/
def patch (l : List Byte) (i : Nat) (b : List Byte) : List Byte :=
  l.take i ++ b.take (l.length - i) ++ l.drop (i + b.length)

/-- The bytes padded with zeros to n. -/
def padTo (n : Nat) (l : List Byte) : List Byte := l ++ List.replicate (n - l.length) 0

/-- The bytes padded with zeros to a multiple of m (m not 0). -/
def padMul (m : Nat) (l : List Byte) : List Byte := padTo ((l.length + m - 1) / m * m) l

/-- Sign extension of a w-bit value to 32 bits (03 R113). -/
def sext18 (v : BitVec 18) : Word32 := v.signExtend 32

/-- Cut a list into pieces of n (n not 0), `fuel` bounding the pieces. -/
def chunks {α : Type} (n : Nat) : Nat → List α → List (List α)
  | 0, _ => []
  | fuel + 1, l => if l.isEmpty then [] else l.take n :: chunks n fuel (l.drop n)

/-- The pieces of n of a list. -/
def pieces {α : Type} (n : Nat) (l : List α) : List (List α) := chunks n l.length l

/-- Saturating addition of a counter of w bits (05 R181, 08 R278, 12 R405). -/
def satAdd (w a n : Nat) : Nat := min (a + n) (2 ^ w - 1)

/-- Ceiling of a / b. -/
def cdiv (a b : Nat) : Nat := (a + b - 1) / b

/-! ### Sparse tables -/

/-- A table indexed by numbers, in rising order of the index; what it does not list has its default. -/
abbrev Tbl (α : Type) := List (Nat × α)

/-- The entry at k, if listed. -/
def Tbl.get? {α : Type} : Tbl α → Nat → Option α
  | [], _ => none
  | (i, v) :: t, k => if i = k then some v else Tbl.get? t k

/-- The entry at k, or the default. -/
def Tbl.getD {α : Type} (t : Tbl α) (k : Nat) (d : α) : α := (Tbl.get? t k).getD d

/-- Write the entry at k. -/
def Tbl.set {α : Type} : Tbl α → Nat → α → Tbl α
  | [], k, v => [(k, v)]
  | (i, w) :: t, k, v =>
    if i = k then (k, v) :: t
    else if k < i then (k, v) :: (i, w) :: t
    else (i, w) :: Tbl.set t k v

/-- Remove the entry at k. -/
def Tbl.erase {α : Type} : Tbl α → Nat → Tbl α
  | [], _ => []
  | (i, w) :: t, k => if i = k then Tbl.erase t k else (i, w) :: Tbl.erase t k

/-- Change the entry at k, starting from the default. -/
def Tbl.modify {α : Type} (t : Tbl α) (k : Nat) (d : α) (f : α → α) : Tbl α := Tbl.set t k (f (Tbl.getD t k d))

/-- Change every listed entry. -/
def Tbl.mapVals {α : Type} (t : Tbl α) (f : Nat → α → α) : Tbl α := t.map fun p => (p.1, f p.1 p.2)

/-- Keep the entries that satisfy a test. -/
def Tbl.filterKeys {α : Type} (t : Tbl α) (f : Nat → Bool) : Tbl α := t.filter fun p => f p.1

end Sys2Proof.Machine
end

