-- ==== Sys2Proof/Machine/Crc.lean ====
section
/-! DEFINITION. The check codes: CRC-32C (12 R381) and the column check's CRC-16 (02 R43). -/

namespace Sys2Proof.Machine

/-- One bit of the reflected CRC-32C register, polynomial 0x1EDC_6F41 reflected to 0x82F6_3B78. -/
def crc32cBit (c : Word32) : Word32 :=
  if c.getLsbD 0 then (c >>> 1) ^^^ 0x82F63B78#32 else c >>> 1

/-- One byte into the CRC-32C register. -/
def crc32cByte (c : Word32) (b : Byte) : Word32 :=
  crc32cBit (crc32cBit (crc32cBit (crc32cBit (crc32cBit (crc32cBit (crc32cBit (crc32cBit
    (c ^^^ b.setWidth 32))))))))

/-- CRC-32C of bytes in order: initial value and final exclusive-or 0xFFFF_FFFF (12 R381). -/
def crc32c (l : List Byte) : Word32 := (l.foldl crc32cByte 0xFFFFFFFF#32) ^^^ 0xFFFFFFFF#32

/-- One bit of the CRC-16 register, polynomial 0x1021, not reflected. -/
def crc16Bit (c : BitVec 16) : BitVec 16 :=
  if c.getMsbD 0 then (c <<< 1) ^^^ 0x1021#16 else c <<< 1

/-- One byte into the CRC-16 register. -/
def crc16Byte (c : BitVec 16) (b : Byte) : BitVec 16 :=
  crc16Bit (crc16Bit (crc16Bit (crc16Bit (crc16Bit (crc16Bit (crc16Bit (crc16Bit
    (c ^^^ (b.setWidth 16 <<< 8)))))))))

/-- The column check of a column's 32 bytes (02 R43): initial value 0xFFFF, no final exclusive-or. -/
def columnCheck (l : List Byte) : BitVec 16 := l.foldl crc16Byte 0xFFFF#16

/-- The carry tag of a grain of 512 zero bytes, which the memory test leaves everywhere (13 R418). -/
def zeroGrainTag : Word32 := 0x30FCEDC0#32

/-- The CRC-32C of carry tags, each as 4 bytes little-endian, in order: TAG_ROOT (02 R56), DTAG (06 R187),
GRAINS AUX (10 R320). -/
def tagRoot (tags : List Word32) : Word32 := crc32c (tags.flatMap fun t => leBytes 4 t.toNat)

end Sys2Proof.Machine
end

