-- ==== Sys2Proof/Machine/Fp.lean ====
section
/-! DEFINITION. The number formats of 05 R159: FP32 (binary32), BF16, E4M3 and FP64, with the conversions of R160,
the arithmetic rounding of R161, the flush of R162, the saturation of R163 and the exponential of R164. A finite
FP32 value is m × 2^-149 for an integer m, its fixed-point value here; the exact result of an operation is such an
integer over a larger power of two, and is rounded once. -/

namespace Sys2Proof.Machine

/-- An FP32 value as its bits. -/
abbrev F32 := BitVec 32

/-- How a value halfway between two neighbours rounds: conversions away from zero (R160), arithmetic to even (R161). -/
inductive Ties where
  | away | even
  deriving DecidableEq, Repr

/-- Round mag × 2^-sc to p bits: mantissa q of p bits and exponent x, the value being q × 2^x (mag not 0). -/
def roundMag (ties : Ties) (p mag sc : Nat) : Nat × Int :=
  let l := mag.log2
  if l < p then (mag <<< (p - 1 - l), (l : Int) - (p - 1 : Nat) - sc)
  else
    let sh := l + 1 - p
    let q := mag >>> sh
    let rem := mag % 2 ^ sh
    let half := 2 ^ (sh - 1)
    let up := match ties with
      | .away => decide (half ≤ rem)
      | .even => decide (half < rem) || (rem == half && q % 2 == 1)
    let q' := if up then q + 1 else q
    if q' = 2 ^ p then (2 ^ (p - 1), (sh : Int) + 1 - sc) else (q', (sh : Int) - sc)

/-- Largest finite FP32, as a magnitude. -/
def f32Max : Nat := 0x7F7FFFFF

/-- Minus infinity: the m of a row with no attended key (03 R107). -/
def f32NegInf : F32 := 0xFF800000#32

/-- 1.0. -/
def f32One : F32 := 0x3F800000#32

/-- The smallest normal value, 2^-126. -/
def f32MinNormal : F32 := 0x00800000#32

/-- Sign bit on a magnitude. -/
def f32Sign (neg : Bool) (m : Nat) : F32 := BitVec.ofNat 32 (if neg then m + 2 ^ 31 else m)

/-- Round mag × 2^-sc to FP32 with sign `neg`: flushed to zero of the same sign below 2^-126 (R162), held at the
largest finite value above it (R163). The Bool is true when the result saturated. -/
def f32RoundSat (ties : Ties) (neg : Bool) (mag sc : Nat) : F32 × Bool :=
  if mag = 0 then (f32Sign neg 0, false)
  else
    let (q, x) := roundMag ties 24 mag sc
    let e := x + 23
    if e < -126 then (f32Sign neg 0, false)
    else if 127 < e then (f32Sign neg f32Max, true)
    else (f32Sign neg ((e + 127).toNat * 2 ^ 23 + (q - 2 ^ 23)), false)

/-- As `f32RoundSat`, the value alone. -/
def f32Round (ties : Ties) (neg : Bool) (mag sc : Nat) : F32 := (f32RoundSat ties neg mag sc).1

/-- Exponent field of an FP32 value. -/
def f32Exp (x : F32) : Nat := field x.toNat 23 8

/-- The sign of an FP32 value. -/
def f32Neg (x : F32) : Bool := x.getLsbD 31

/-- NaN or infinity (R163). -/
def f32Special (x : F32) : Bool := f32Exp x == 255

/-- Magnitude of a finite value in units of 2^-149, subnormals taken as zero (R162). -/
def f32Mag (x : F32) : Nat :=
  let e := f32Exp x
  if e = 0 then 0 else (2 ^ 23 + field x.toNat 0 23) <<< (e - 1)

/-- The value in units of 2^-149. -/
def f32Fix (x : F32) : Int := if f32Neg x then -(f32Mag x : Int) else f32Mag x

/-- Flush a subnormal to zero of the same sign (R162). -/
def f32Flush (x : F32) : F32 := if f32Exp x = 0 then f32Sign (f32Neg x) 0 else x

/-- Round an exact fixed-point result over 2^-sc, by R161. A zero result is +0. -/
def f32OfInt (v : Int) (sc : Nat) : F32 := f32Round .even (decide (v < 0)) v.natAbs sc

/-- Numeric zero. -/
def f32IsZero (x : F32) : Bool := f32Mag x == 0 && !f32Special x

/-- The sign of a sum v of a and b: a sum of two negative zeros is −0, any other zero sum +0 (R159: binary32). -/
def sumNeg (a b : F32) (v : Int) : Bool := decide (v < 0) || (v == 0 && f32Neg a && f32Neg b)

/-- a + b (R161 to R163). -/
def f32Add (a b : F32) : F32 :=
  let v := f32Fix a + f32Fix b
  f32Round .even (sumNeg a b v) v.natAbs 149

/-- -a. -/
def f32Negate (a : F32) : F32 := a ^^^ 0x80000000#32

/-- a - b. -/
def f32Sub (a b : F32) : F32 := f32Add a (f32Negate b)

/-- a × b. -/
def f32Mul (a b : F32) : F32 :=
  f32Round .even (xor (f32Neg a) (f32Neg b)) (f32Mag a * f32Mag b) 298

/-- a / b with the exact quotient rounded once. A division by zero does not arise from the rules: scales are at
least 2^-126 (R165, R166, R170). It saturates here (R163), and 0 / 0 is 0. -/
def f32DivTies (t : Ties) (a b : F32) : F32 :=
  let n := f32Mag a
  let d := f32Mag b
  let s := xor (f32Neg a) (f32Neg b)
  if n = 0 then f32Sign s 0
  else if d = 0 then f32Sign s f32Max
  else
    let q := (n <<< 320) / d
    let st := if (n <<< 320) % d = 0 then 0 else 1
    f32Round t s (2 * q + st) 321

/-- a / b (R161). -/
def f32Div (a b : F32) : F32 := f32DivTies .even a b

/-- An integer as FP32 (R161). -/
def f32OfZ (v : Int) : F32 := f32OfInt v 0

/-- A natural number as FP32. -/
def f32OfNat (n : Nat) : F32 := f32OfZ n

/-- a < b as numbers, minus infinity below everything. -/
def f32Lt (a b : F32) : Bool :=
  if a = f32NegInf then b != f32NegInf
  else if b = f32NegInf then false
  else decide (f32Fix a < f32Fix b)

/-- The greater of two values. -/
def f32MaxOf (a b : F32) : F32 := if f32Lt a b then b else a

/-- The lesser of two values. -/
def f32MinOf (a b : F32) : F32 := if f32Lt b a then b else a

/-- |a|. -/
def f32Abs (a : F32) : F32 := f32Sign false (a.toNat % 2 ^ 31)

/-- Numerically equal, so +0 and -0 are equal (R165). -/
def f32NumEq (a b : F32) : Bool := f32Fix a == f32Fix b && f32Special a == f32Special b

/-- round(y) of R160: sign(y) × floor(|y| + 0.5), exact. -/
def f32RoundInt (y : F32) : Int :=
  let r : Nat := (f32Mag y + 2 ^ 148) / 2 ^ 149
  if f32Neg y then -(r : Int) else r

/-! ### BF16 -/

/-- A BF16 value as FP32, exact after the flush (R162). -/
def bf16Widen (x : BitVec 16) : F32 := f32Flush (BitVec.ofNat 32 (x.toNat * 65536))

/-- FP32 to BF16, ties away (R160), flushed and saturated: the Bool is true when it saturated. -/
def bf16OfF32Sat (x : F32) : BitVec 16 × Bool :=
  let m := f32Mag x
  if m = 0 then (BitVec.ofNat 16 (if f32Neg x then 0x8000 else 0), false)
  else
    let (q, e) := roundMag .away 8 m 149
    let e' := e + 7
    let s := if f32Neg x then 0x8000 else 0
    if e' < -126 then (BitVec.ofNat 16 s, false)
    else if 127 < e' then (BitVec.ofNat 16 (s + 0x7F7F), true)
    else (BitVec.ofNat 16 (s + (e' + 127).toNat * 128 + (q - 128)), false)

/-- FP32 to BF16. -/
def bf16OfF32 (x : F32) : BitVec 16 := (bf16OfF32Sat x).1

/-- NaN or infinity in BF16 (R163). -/
def bf16Special (x : BitVec 16) : Bool := field x.toNat 7 8 == 255

/-- Flush a BF16 subnormal (R162). -/
def bf16Flush (x : BitVec 16) : BitVec 16 :=
  if field x.toNat 7 8 = 0 then BitVec.ofNat 16 (x.toNat / 32768 * 32768) else x

/-! ### E4M3 -/

/-- The value of an E4M3 code as FP32: bias 7, subnormals kept (R162). Code 0x7F is NaN in the OCP format and is
never produced (R163). -/
def e4m3Value (c : Byte) : F32 :=
  let e := field c.toNat 3 4
  let m := field c.toNat 0 3
  let mag := if e = 0 then m else (8 + m) <<< (e - 1)
  f32Round .even (c.getLsbD 7) mag 9

/-- FP32 to E4M3, ties away, subnormal codes down to 2^-9, held at ±448. The Bool is true when the magnitude is
464 or more (R166, R174). -/
def e4m3OfF32 (x : F32) : Byte × Bool :=
  let m := f32Mag x
  let s := if f32Neg x then 128 else 0
  let big := decide (464 * 2 ^ 149 ≤ m)
  if m = 0 then (BitVec.ofNat 8 s, false)
  else
    let l := m.log2
    let sh := max (l - 3) 140
    let n := (m + 2 ^ (sh - 1)) / 2 ^ sh
    -- the value is n × 2^(sh - 149), n at most 16
    let (n', sh') := if n = 16 then (8, sh + 1) else (n, sh)
    if big || 154 < sh' || (sh' == 154 && 14 < n') then (BitVec.ofNat 8 (s + 0x7E), big)
    else if n' < 8 then (BitVec.ofNat 8 (s + n'), false)
    else (BitVec.ofNat 8 (s + (sh' - 139) * 8 + (n' - 8)), false)

/-! ### The exponential -/

/-- Terms of e^y for y = yn × 2^-320, summed over `fuel` terms from the k-th, `t` the term before. -/
def expTerms (yn : Nat) : Nat → Nat → Nat → Nat
  | 0, _, _ => 0
  | fuel + 1, k, t =>
    let t' := (t * yn) >>> 320
    let u := t' / k
    u + expTerms yn fuel (k + 1) u

/-- n squarings of a number over 2^-320. -/
def squareN : Nat → Nat → Nat
  | 0, v => v
  | n + 1, v => squareN n ((v * v) >>> 320)

/-- e^x for FP32 x at most 0: the nearest FP32 value to the true exponential, flushed below 2^-126 (R164). The
exponential is taken to 320 fractional bits, far finer than any FP32 value lies to a rounding boundary. -/
def f32ExpFn (x : F32) : F32 :=
  if x = f32NegInf then f32Sign false 0
  else
    let m := f32Mag x
    if m = 0 then f32One
    else if 104 * 2 ^ 149 ≤ m then f32Sign false 0
    else
      let yn := m <<< (320 - 149 - 10)
      let e := squareN 10 (2 ^ 320 + expTerms yn 60 1 (2 ^ 320))
      f32Round .even false (2 ^ 640 / e) 320

/-! ### FP64, for the conversion statistics (R178) -/

/-- Magnitude of an FP64 value in units of 2^-1074; the sums here are never negative. -/
def f64Mag (x : Word64) : Nat :=
  let e := field x.toNat 52 11
  if e = 0 then field x.toNat 0 52 else (2 ^ 52 + field x.toNat 0 52) <<< (e - 1)

/-- Round mag × 2^-sc to FP64, ties to even, held at the largest finite value (R181). -/
def f64Round (mag sc : Nat) : Word64 :=
  if mag = 0 then 0
  else
    let (q, x) := roundMag .even 53 mag sc
    let e := x + 52
    if e < -1022 then 0
    else if 1023 < e then 0x7FEFFFFFFFFFFFFF#64
    else BitVec.ofNat 64 ((e + 1023).toNat * 2 ^ 52 + (q - 2 ^ 52))

/-- The sum of two non-negative FP64 values. -/
def f64Add (a b : Word64) : Word64 := f64Round (f64Mag a + f64Mag b) 1074

/-- (x - y)^2 in FP64 from FP32 values: the difference rounded, then its square (R161, R178). -/
def f64SqDiff (x y : F32) : Word64 :=
  let d := (f32Fix x - f32Fix y).natAbs
  let r := f64Mag (f64Round d 149)
  f64Round (r * r) 2148

/-- x^2 in FP64. -/
def f64Sq (x : F32) : Word64 := f64Round (f32Mag x * f32Mag x) 298

end Sys2Proof.Machine
end

