-- ==== Sys2Proof/Machine/State.lean ====
section
/-! DEFINITION. The state of the node: every register, table, queue, memory and pin the spec gives it, as plain
data. Registers that software reads and writes whole are bit vectors, read by named accessors (Operands.lean).
Sparse tables list only what differs from their default. INVENTORY.md gives each field's rule and reset value. -/

namespace Sys2Proof.Machine

/-! ### What leaves the node -/

/-- What a command sends out of the node (model's own field `State.out`; assumption 4). -/
inductive Out where
  /-- A transport frame on a port: header, ciphertext, GCM tag, and the bytes of its Ethernet, IPv6 and UDP headers in wire
  order (R4, R233). The MAC appends the FCS. -/
  | frame (port : Nat) (hdr : Hdr) (body : List Byte) (tag : BitVec 128) (lower : List Byte)
  /-- A priority flow control frame: PCPs and pause or resume (R308). -/
  | pfc (port : Nat) (pcp : Nat) (xoff : Bool)
  /-- An IEEE 1588 Delay_Req on a port (R212). -/
  | delayReq (port : Nat) (seq : Nat)
  /-- The answer to a Neighbor Solicitation (R236). -/
  | neighborAdvert (port : Nat) (dst target : BitVec 128)
  /-- The answer to an Echo Request (R236). -/
  | echoReply (port : Nat) (dst : BitVec 128) (ident seq : BitVec 16) (data : List Byte)
  /-- A write to host memory with the requester ID of a function (R287, R354). -/
  | hostWrite (fn : Fn) (addr : Nat) (bytes : List Byte)
  /-- An MSI-X signal. -/
  | msix (fn : Fn) (vec : Nat)
  /-- The completion of a BAR2 read: data, and whether it is poisoned (R385). -/
  | bar2Data (bytes : List Byte) (poisoned : Bool)
  /-- A completion with Unsupported Request (R360, R444). -/
  | unsupportedRequest
  /-- A configuration request answered with Request Retry Status, or normally (R416). -/
  | retryStatus
  | configDone
  /-- An SPDM response: its name, payload and signature. -/
  | spdm (ep : SpdmEp) (name : String) (payload : List Byte) (signature : BitVec 768)
  /-- An SPDM ERROR response. -/
  | spdmError (ep : SpdmEp)
  /-- An MCTP vendor-defined response: response header and body. -/
  | mctp (bytes : List Byte)
  /-- A PLDM sensor reading. -/
  | pldm (value : Nat)
  /-- The word shifted out on SB_MISO (R485). -/
  | miso (word : Word32)
  /-- What the JTAG instruction loaded gives: the IDCODE, or nothing. -/
  | jtag (word : Word32)
  /-- A negative or positive answer of IDE_KM. -/
  | ideKm (ok : Bool)
  deriving DecidableEq, Repr

/-! ### Node: fuses, pins, boot, time, power -/

/-- The fuse state (R369). -/
structure Fuses where
  prod          : Bool
  secureBoot    : Bool
  jtagRestrict  : Bool
  debugUnlocked : Bool
  bin           : BitVec 8
  fwSvnMin      : BitVec 16
  serial        : BitVec 64
  deriving DecidableEq, Repr

/-- Pins, clocks and sensors (15_package); `ppsRise` is the time in `Clk.up` at which PPS_OUT last rose. -/
structure Pins where
  straps     : Straps
  latched    : Straps
  rstLow     : Bool
  railOk     : BitVec 7
  railHold   : Bool
  tripped    : Bool
  clkPe      : Bool
  clkSd0     : Bool
  clkSd1     : Bool
  clkSys     : Bool
  squelched  : Bool
  ppsRise    : Option Nat
  hotDies    : List Nat
  tjMax      : Nat
  tcisMax    : Nat
  vddMv      : Nat
  deriving DecidableEq, Repr

/-- The scope of a node reset (R406). -/
inductive NodeScope where
  | full | retain
  deriving DecidableEq, Repr

/-- Bring-up: FH_BOOT_STAT (R413) and what the stages keep. `stageStart`, `resetAt` and `step4At` are values of
`Clk.up`. -/
structure Boot where
  stage       : Nat
  lastReset   : Nat
  retained    : Bool
  fwImage     : Bool
  cfgRestored : Bool
  failCause   : Nat
  chLost      : Nat
  bootMs      : Nat
  scope       : NodeScope
  overruns    : Nat
  stageStart  : Nat
  resetAt     : Nat
  fwDigest    : Digest
  chTrained   : List Nat
  chTested    : List Nat
  chFails     : Tbl Nat
  portsTried  : List Nat
  selfRefresh : Bool
  pcieUp      : Bool
  step4At     : Nat
  computeDone : Bool
  resetDue    : Option (NodeScope × Nat)
  fatalTimes  : List Nat
  failedJets  : List Nat
  deriving DecidableEq, Repr

/-- A Sync of the selected master: its number, when it came on the node's PTP time, and when it left on the master's, not
yet known of a two-step master (07 R212). -/
structure PtpSync where
  seq      : Nat
  cameNs   : Nat
  originNs : Option Nat
  deriving DecidableEq, Repr

/-- The fabric time unit (R212 to R215): `ftime` in ns, `epochSec` the FABRIC_EPOCH_S in force, `slewNs` the offset
still to slew out; `heard` the clock announced at each port, `sync` the last Sync of the selected master, `delayReq` the
outstanding Delay_Req with its sending time, `pathNs` the measured path delay, `synced` whether the node has locked since
reset; `up` counts the ns that have passed at all, through resets (for the hours of R394, R398). -/
structure Clk where
  ftime       : Nat
  epochSec    : Nat
  locked      : Bool
  holdover    : Bool
  syncFault   : Bool
  ppsInAt     : Option Nat
  heard       : Tbl PtpClock
  sync        : Option PtpSync
  delayReq    : Option (Nat × Nat)
  delaySeq    : Nat
  pathNs      : Option Int
  synced      : Bool
  ptpPort     : Nat
  offsetNs    : Int
  slewNs      : Int
  dlLate      : Nat
  up          : Nat
  deriving DecidableEq, Repr

/-- The power manager (R428 to R430, R470). -/
structure Pwr where
  cfg        : Word64
  level      : Nat
  samples    : List Nat
  avg        : Nat
  tj         : Nat
  loweredAt  : Option Nat
  lowSince   : Option Nat
  noRaise    : Bool
  deriving DecidableEq, Repr

/-! ### Faults and spares -/

/-- A history record (R404); `detail` is the half and the failed check of a DECODE record (R192), which the layout of R404
does not show: 16 for a V half, plus the number of the check. -/
structure FltRec where
  stamp    : Nat
  srcIndex : Nat
  srcKind  : Nat
  cls      : Nat
  scope    : Nat
  verdict  : Nat
  part     : Option Nat
  code     : Nat
  repeats  : Nat
  addr     : Nat
  syndrome : Word64
  detail   : Nat := 0
  deriving DecidableEq, Repr

/-- A self-test that runs: its place, the code that started it, the slot of its record (R397). -/
structure TestRun where
  place : Place
  code  : Nat
  slot  : Nat
  deriving DecidableEq, Repr

/-- The fault block (R403 to R405). -/
structure Flt where
  first       : Option FltRec
  hist        : Tbl FltRec
  next        : Nat
  newest      : Option Nat
  ctl         : Word64
  fatalReset  : Bool
  nodeCtr     : Tbl Nat
  portCtr     : Tbl Nat
  partCtr     : Tbl Nat
  tests       : List TestRun
  passed      : List (Place × Nat × Nat)
  ceSeen      : List (Place × Nat)
  deriving DecidableEq, Repr

/-- Spare state (R399, R403) and the spare map (R402, R482). `rowCopy` gives the spare row that CPYROW put in the place of a
row under test (R113, R397), keyed as `rowMap` by the row's first grain in its bank. -/
structure Spares where
  pairsUsed   : Tbl Nat
  rowsUsed    : Tbl Nat
  tsvsUsed    : Tbl Nat
  lost        : List Nat
  spareLane   : Tbl Nat
  laneNoSpare : List Nat
  laneTests   : Tbl Nat
  portsOut    : List Nat
  clusterUsed : Tbl Nat
  subBanks    : Tbl Nat
  pairMap     : Tbl Nat
  rowMap      : Tbl Nat
  deadPairs   : List Nat
  sparing     : Tbl Nat
  rowCopy     : Tbl Nat
  flashCount  : Tbl Nat
  flashMap    : Tbl (Tbl Nat × Tbl Nat)
  deriving DecidableEq, Repr

/-! ### Cistern memory -/

/-- What an allocated run of grains holds (R61, R81, R281, R283, R58, R462). -/
inductive Use where
  | run (pg : PageRef)
  | table (block : Nat)
  | dir (session : Nat)
  | index (session : Nat)
  | list (session layer head n : Nat)
  | ring (queue : Nat)
  | landing (part : Nat)
  | posTable (part n : Nat)
  deriving DecidableEq, Repr

/-- An allocated run of grains. -/
structure Alloc where
  first : Nat
  len   : Nat
  use   : Use
  deriving DecidableEq, Repr

/-! ### Sessions and pages -/

/-- A page descriptor (R54). -/
structure Desc where
  grain     : Nat
  pfmt      : Nat
  validM1   : Nat
  hdim      : Nat
  cstate    : Nat
  tail      : Bool
  inSram    : Bool
  contained : Bool
  wgen      : BitVec 16
  tagRoot   : Word32
  baseIdx   : Nat
  stamp     : Nat
  tokenPos  : Nat
  deriving DecidableEq, Repr

/-- A K or V row as quantised: its code bytes and its scale record (R52). -/
structure QRow where
  codes : List Byte
  srec  : List Byte
  deriving DecidableEq, Repr

/-- A quantised token: K row, V row, its token tag (R382). -/
structure Token where
  k   : QRow
  v   : QRow
  tag : Word32
  deriving DecidableEq, Repr

/-- The SRAM copy of a page: the tokens of a tail page, or the grains of a promoted page with their write generation
and their carry tags (R44). -/
inductive Copy where
  | tail (toks : List Token)
  | promoted (bytes : List Byte) (wgen : BitVec 16) (tags : List Word32)
  deriving DecidableEq, Repr

/-- A migration of a page in progress (R205, R206): its new run with its write generation, whether the copy is made, and
for a repair the descriptor that the twin's copy came with (R207, R395). -/
structure Migr where
  newRun : Nat
  wgen   : BitVec 16
  copied : Bool
  repair : Option Desc
  deriving DecidableEq, Repr

/-- A page: descriptor, SRAM copy, copies and runs waiting for their last reader, sweep counts. -/
structure Page where
  desc      : Desc
  copy      : Option Copy
  oldCopy   : Option Copy
  oldRuns   : List (Nat × Nat)
  migr      : Option Migr
  sweepTick : Nat
  sweeps    : Nat
  lastSweep : Nat
  deriving DecidableEq, Repr

/-- One (layer, KV head) of a session: committed tokens, pages, the grains of its index levels (R61). -/
structure LHead where
  count   : Nat
  pages   : Tbl Page
  top     : Option Nat
  second  : Tbl Nat
  lists   : Tbl Nat
  stamp   : Nat
  deriving DecidableEq, Repr

/-- A session entry (R59) with its (layer, KV head) pairs, keyed 64 × layer + head. -/
structure Session where
  skey      : Word64
  part      : Nat
  pfmt      : Nat
  hdim      : Nat
  group     : Nat
  state     : Nat
  layersM1  : Nat
  kvhM1     : Nat
  windowLen : Nat
  baseSeq   : Nat
  dpfmt     : Nat
  posTable  : Nat
  dirGrain  : Nat
  seed      : Word32
  stamp     : Nat
  heads     : Tbl LHead
  deriving DecidableEq, Repr

/-- A base sequence (R78, R460): loading or loaded. -/
structure BaseSeq where
  loaded   : Bool
  pfmt     : Nat
  hdim     : Nat
  layersM1 : Nat
  kvhM1    : Nat
  npages   : Nat
  seed     : Word32
  firstIdx : Nat
  stamp    : Nat
  heads    : Tbl LHead
  deriving DecidableEq, Repr

/-- A loaded position table (R81): its first grain, grains, query heads, entries per head. -/
structure PosTab where
  first  : Nat
  grains : Nat
  qheads : Nat
  log2e  : Nat
  root   : Word32
  stamp  : Nat
  deriving DecidableEq, Repr

/-- A held provisional set (R146), with the local request that carried it, if one did. -/
structure ProvSet where
  session : Nat
  pset    : Nat
  layer   : Nat
  head    : Nat
  tree    : Word64
  qpos    : Nat
  toks    : List Token
  expiry  : Nat
  req     : Option Nat
  stamp   : Nat
  deriving DecidableEq, Repr

/-! ### Settings that an epoch commits (R436) -/

/-- A weir list (R301): header and entries. -/
structure Weir where
  hdr     : BitVec 128
  entries : List Word64
  deriving DecidableEq, Repr

/-- The session directory (R343 to R347): epoch, membership records, reserved table. -/
structure Dir where
  epoch    : Nat
  members  : List Word64
  reserved : List (Word64 × Nat)
  deriving DecidableEq, Repr

/-- A partition kernel library: instructions 16 to 63, then 1,024 to 2,047 (R462). -/
structure Lib where
  words  : List Word32
  digest : Digest
  deriving DecidableEq, Repr

/-- The settings in force: the configuration image holds them (R425, R436). -/
structure Settings where
  maps      : Tbl (BitVec 1024)
  tier      : Tbl Word64
  slc       : Tbl Word64
  provHold  : Tbl Nat
  owin      : Tbl Nat
  admitW    : Tbl Word64
  lock      : Word64
  nodeCfg   : Word64
  wtPrefix  : Word64
  twinCfg   : Word64
  routes    : Tbl (BitVec 24)
  windows   : Tbl (BitVec 256)
  srcSets   : Tbl (BitVec 8192)
  weirs     : Tbl Weir
  shapers   : Tbl Word64
  portW     : Tbl Word64
  period    : Nat
  origin    : Nat
  fepoch    : Nat
  libs      : Tbl Lib
  dir       : Dir
  deriving DecidableEq, Repr

/-- One staged change (R431, R456). -/
inductive Staged where
  | map (p : Nat) (v : BitVec 1024)
  | pcfg (p : Nat) (tier slc : Word64) (provHold owin : Nat)
  | lock (v : Word64)
  | admitW (p : Nat) (v : Word64)
  | nodeCfg (v pfx : Word64)
  | twinCfg (v : Word64)
  | route (dst : Nat) (mask : BitVec 24)
  | window (id : Nat) (v : BitVec 256)
  | srcHalf (set half : Nat) (v : BitVec 4096)
  | weir (port first : Nat) (hdr : BitVec 128) (entries : List Word64)
  | shaper (target : Nat) (v : Word64)
  | portW (port : Nat) (v : Word64)
  | period (v : Nat)
  | origin (v : Nat)
  | fepoch (v : Nat)
  | lib (p : Nat) (l : Lib)
  deriving DecidableEq, Repr

/-- A staging set (R431). -/
structure StageSet where
  isSealed : Bool
  items    : List Staged
  deriving DecidableEq, Repr

/-- The change of a directory commit (R346). -/
structure DirChange where
  epoch   : Nat
  kind    : Nat
  records : List (List Byte)
  deriving DecidableEq, Repr

/-- The pending commit: a staging set, or a directory change. -/
inductive PendWhat where
  | set (n : Nat)
  | dir (c : DirChange)
  deriving DecidableEq, Repr

/-- The pending epoch. -/
structure Pend where
  what   : PendWhat
  time   : Nat
  weirAt : Tbl Nat
  deriving DecidableEq, Repr

/-- One copy of the configuration image (R425). -/
structure Image where
  settings : Settings
  epoch    : Nat
  digestOk : Bool
  deriving DecidableEq, Repr

/-- Configuration epochs (R431 to R439). -/
structure Epochs where
  epoch        : Nat
  pend         : Option Pend
  early        : List Pend
  draining     : Bool
  releasing    : List (Resource × Nat)
  sets         : Tbl StageSet
  tickRejected : Bool
  images       : Tbl Image
  libWait      : List Nat
  deriving DecidableEq, Repr

/-! ### Messages, queues, requests -/

/-- Where a request message came from, with what its answer needs. -/
inductive Origin where
  /-- A fabric source: source node, key slot, window, generation, immediate, FWD, and the receiving frame's flow. -/
  | fabric (src : BitVec 13) (keySlot : BitVec 10) (window : BitVec 20) (gen : BitVec 16) (imm : BitVec 32) (fwd : Bool)
  /-- A HOST queue: completion queue, response address and length, tag. -/
  | host (queue cq respAddr respLen : Nat) (tag : BitVec 32)
  /-- A hedge of the twin: the origin's source, claim record, deadline, mask (R337). -/
  | hedge (src : BitVec 13) (keySlot : BitVec 10) (window : BitVec 20) (gen : BitVec 16) (claim dl : Nat) (mask : BitVec 256)
  deriving DecidableEq, Repr

/-- A request message: opcode, partition, queue and its ring entry, payload, OFFSET of a READ_REQ. -/
structure Msg where
  id      : Nat
  origin  : Origin
  opcode  : BitVec 8
  part    : Nat
  queue   : Nat
  ring    : Nat
  payload : List Byte
  offset  : Nat
  landAt  : Nat
  waitAt  : Option Nat
  dlNs    : Option Nat
  deriving DecidableEq, Repr

/-- A queue context's class, ring and indices (R281), its ring entries between CONS and PROD (entry number,
released), its landed messages, and whether a QUEUE_STOP waits. -/
structure Queue where
  ctx      : BitVec 256
  ring     : List (Nat × Bool)
  nextId   : Nat
  landed   : List Msg
  stopping : Bool
  deriving DecidableEq, Repr

/-- One gathered partial: m and l per row, o per row as FP32 (R140), the newest position it covers. -/
structure Part where
  newest : Nat
  m      : List F32
  l      : List F32
  o      : List (List F32)
  deriving DecidableEq, Repr

/-- A page an entry sweeps: the page, its number of attended tokens, the descriptor resolved, and for a delta page its
base page with the descriptor resolved (07 R202, R211). -/
structure Swept where
  pg   : PageRef
  toks : Nat
  desc : Desc
  base : Option (PageRef × Desc)
  deriving DecidableEq, Repr

/-- The parsed length-table entry and tree record (R129, R131). -/
structure EntrySpec where
  session : Nat
  layer   : Nat
  head    : Nat
  cands   : Nat
  prov    : Bool
  hdim    : Nat
  group   : Nat
  valid   : Nat
  qpos    : Nat
  tree    : Word64
  rsvd    : Bool
  deriving DecidableEq, Repr

/-- An ATTEND entry in progress; `omitDl` and `omitErr` give the tokens of each omitted page,
`reissue` the pages given to the confluence with the TAG of the command they come from, their first row and its rows (09
R293). -/
structure Entry where
  spec     : EntrySpec
  queries  : List (List (BitVec 16))
  prov     : List Token
  own      : List Swept
  jetPages : List Swept
  waiting  : Nat
  parts    : List Part
  reissue  : List (Nat × Nat × Nat × Swept)
  omitDl   : Tbl Nat
  omitErr  : Tbl Nat
  ended    : Option Nat
  sent     : Bool
  provHeld : Bool
  provReq  : Bool
  hedge    : Option Nat
  formed   : List Byte
  resv     : Nat
  deriving DecidableEq, Repr

/-- An admitted request (R291): message, epoch, deadline, policies of its epoch, entries, reservation; `revAt` is how often
its window had been revoked at its admission (08 R274, R275). -/
structure Req where
  msg      : Msg
  epoch    : Nat
  admitAt  : Nat
  dlNs     : Nat
  dlp      : Nat
  ofmt     : Nat
  bias     : Bool
  scale    : F32
  pset     : Nat
  respSlot : Word32
  reqTag   : Word32
  erp      : Bool
  owin     : Nat
  clusters : Nat
  entries  : Tbl Entry
  bytes    : Nat
  descs    : Nat
  readLeft : Nat
  readAt   : Nat
  winAddr  : Nat
  revAt    : Nat
  waitAck  : Nat
  atomic   : Bool
  complete : Bool
  hedged   : Bool
  claim    : Option Nat
  deriving DecidableEq, Repr

/-- A jet command of the sluice, keyed by its TAG (R137): request, jet, slot, its page entries with the request entry
they serve, the request entries of its sessions with their first row, and what placing it writes. -/
structure JetCmd where
  req     : Nat
  jet     : Nat
  slot    : Option Nat
  word    : BitVec 512
  pages   : List (Nat × Swept)
  sess    : List (Nat × Nat)
  rows    : Nat
  query   : List Byte
  bias    : List Byte
  rowFile : List (BitVec 64)
  deriving DecidableEq, Repr

/-- A piece of a partition's landing area that a frame of a landing message took (09 R283): the message by its queue and
ring entry, and the bytes of the area. -/
structure LandExt where
  part  : Nat
  queue : Nat
  ring  : Nat
  off   : Nat
  len   : Nat
  deriving DecidableEq, Repr

/-- The sluice (09). Requests keyed by number, commands by TAG, commands waiting for a free slot per jet; `land` holds what
is taken of the landing areas, `revokes` counts the revocations of each window, and `revWait` gives each parked
WINDOW_REVOKE the number of its own (08 R274, R275). -/
structure Sluice where
  queues   : Tbl Queue
  reqs     : Tbl Req
  nextReq  : Nat
  nextMsg  : Nat
  cmds     : Tbl JetCmd
  nextTag  : Nat
  waitCmds : Tbl (List Nat)
  land     : List LandExt
  revokes  : Tbl Nat
  revWait  : List (AgtanCmd × Nat)
  shareUse : Tbl (Nat × Nat)
  admDef   : Tbl Nat
  admPtr   : Tbl Nat
  admArr   : List Nat
  lastQ    : Tbl Nat
  buckets  : Tbl (Int × Nat)
  deriving DecidableEq, Repr

/-! ### Transport -/

/-- What becomes of a sent message when it is acknowledged, or fails: what the node does then. -/
inductive OnDone where
  | none
  /-- Release reserved bytes and a descriptor of request r (R292). -/
  | release (req bytes : Nat)
  /-- Release a ring entry of a queue (an answer without reservation, R291, R281). -/
  | ringFree (queue ring : Nat)
  /-- A MIRROR message; `again` when it has been formed again after a refusal (R324). -/
  | mirror (again : Bool)
  /-- A mailbox response. -/
  | response
  /-- A forwarded message (R326): the ring entry stays until the twin's completion. -/
  | forward (id : Nat)
  /-- A HEDGE of a claim record (R337). -/
  | hedge (claim : Nat)
  deriving DecidableEq, Repr

/-- A mirror record to send (R320): its header's fields and what its body is built from at transmission (R251). -/
structure MRec where
  kind    : Nat
  count   : Nat
  stamp   : Nat
  session : Nat
  layer   : Nat
  head    : Nat
  page    : Nat
  aux     : Nat
  base    : Bool
  part    : Nat
  body    : List Byte
  deriving DecidableEq, Repr

/-- The payload of a frame to send (R251): bytes held; window bytes re-read, with the count of the window's revocations at
the read's admission (R274); mirror records re-read. -/
inductive Pay where
  | bytes (l : List Byte)
  | window (id rev addr len : Nat)
  | mirror (part : Nat) (recs : List MRec)
  deriving DecidableEq, Repr

/-- A frame queued to a port class (R295): its header's fields but those fixed at transmission (R249); `voided` when it
is sent as a VOID frame (R258). -/
structure TxFrame where
  dst     : BitVec 13
  rclass  : BitVec 2
  pclass  : Nat
  opcode  : BitVec 8
  first   : Bool
  last    : Bool
  fwd     : Bool
  status  : BitVec 8
  keySlot : BitVec 10
  window  : BitVec 20
  gen     : BitVec 16
  offset  : BitVec 40
  imm     : BitVec 32
  pay     : Pay
  msg     : Nat
  voided  : Bool
  done    : OnDone
  deriving DecidableEq, Repr

/-- A frame transmitted and not yet acknowledged (R250): extended sequence, last ATTEMPT, key NAKs. -/
structure Sent where
  seq     : Nat
  attempt : Nat
  keyNaks : Nat
  fr      : TxFrame
  deriving DecidableEq, Repr

/-- A sender flow (R248, R258): extended sequences UNA and NEXT, the next frame a go-back resends and the go-back's
start, whether it was a timer's, whether a VOID frame with SYNC comes next and its ATTEMPT (R263); `syncNow` when that frame
goes out at once, whether a new frame follows it or not (R258). -/
structure TxFlow where
  una      : Nat
  next     : Nat
  sent     : List Sent
  timerAt  : Option Nat
  expiries : Nat
  entropy  : BitVec 14
  port     : Option Nat
  goBack   : Option Nat
  backFrom : Option (Nat × Nat)
  needSync : Bool
  syncNow  : Bool
  backTimer : Bool
  syncAttempt : Nat
  deriving DecidableEq, Repr

/-- A message being received (R241): its FIRST frame's header, its payload, for a request its queue and ring entry, and
whether a frame's PTAG failed. -/
structure OpenMsg where
  hdr     : Hdr
  payload : List Byte
  queue   : Nat
  ring    : Nat
  tagBad  : Bool
  deriving DecidableEq, Repr

/-- A refusal NAK to send (R257). -/
structure NakDue where
  status : BitVec 8
  seq    : BitVec 24
  imm    : BitVec 32
  deriving DecidableEq, Repr

/-- A receiver flow (R248, R252): what is due of each kind of NAK (R253, R256, R257), the sequence that a SYNC or key NAK
names, and when the last one of the kind was sent; `since` and `ackAfter` tell of frames accepted after a refused one: the
time of the first, and whether an ACK is due for them (R255). -/
structure RxFlow where
  synced   : Bool
  e        : Nat
  inc      : Word32
  msg      : Option OpenMsg
  discard  : Bool
  unacked  : Nat
  oldest   : Option Nat
  ackDue   : Bool
  since    : Option Nat
  ackAfter : Bool
  refusal  : Option NakDue
  syncDue  : Option (BitVec 24)
  keyDue   : Option (BitVec 24)
  oosDue   : Bool
  oosNak   : Option (Nat × Nat)
  syncNak  : Option Nat
  keyNak   : Option Nat
  deriving DecidableEq, Repr

/-- A port (08, 09, 13). -/
structure Port where
  up        : Bool
  direct    : Bool
  gbps      : Nat
  peer      : Option LinkId
  held      : List Frame
  heldSince : Option Nat
  ingress   : Tbl Nat
  xoffSent  : Tbl Bool
  paused    : Tbl Nat
  classes   : Tbl (List TxFrame)
  deficit   : Tbl Nat
  pointer   : Nat
  arrived   : Bool
  buckets   : Tbl (Int × Nat)
  weir      : Option (Weir × Nat)
  weirNext  : Option (Option Weir × Nat)
  gateIdx   : Nat
  gateCycle : Nat
  gates     : BitVec 12
  gateUntil : Option Nat
  deriving DecidableEq, Repr

/-- The transport engine (08). Flows keyed 4 × node + class. Port 24 holds the frames of flows without a port, port 25
the class 1 frames of the mirror bond (R316); `reorder` is the bond's reorder window. -/
structure Wt where
  tx          : Tbl TxFlow
  rx          : Tbl RxFlow
  incarnation : Word32
  ctlCtr      : Tbl Nat
  unreachable : Tbl Nat
  probes      : Tbl Nat
  ports       : Tbl Port
  bondTurn    : Nat
  reorder     : List Frame
  deriving DecidableEq, Repr

/-! ### Jets -/

/-- A row of a segment as the array takes it: a CONST value, or codes with scale and zero point (R84 to R88). -/
structure ORow where
  isConst : Bool
  cval    : F32
  codes   : List Int
  scale   : F32
  zp      : Int
  deriving DecidableEq, Repr

/-- A segment in flight or held (R113): entry, K or V, base half, read done, its rows. -/
structure Seg where
  entry  : Nat
  isV    : Bool
  isBase : Bool
  done   : Bool
  rows   : List ORow
  deriving DecidableEq, Repr

/-- JET_FAULT (R90, R92). -/
structure JetFault where
  slot     : Nat
  entry    : Nat
  result   : Nat
  grain    : Nat
  syndrome : Word64
  protocol : Bool
  deriving DecidableEq, Repr

/-- A jet (R83, R90 to R118), with the scheduler's view of its pair (R100 to R102, R124). `causes` is keyed 8 × slot +
entry; `refused` counts the GO and slot writes refused while the jet is isolated. -/
structure Jet where
  slots      : Tbl (BitVec 512)
  ready      : BitVec 16
  queue      : List Nat
  running    : Option Nat
  own        : Bool
  yielded    : Bool
  accBusy    : Bool
  isolated   : Bool
  progOk     : Bool
  pc         : BitVec 11
  fault      : JetFault
  store      : Tbl Word32
  pool       : Tbl F32
  acc        : Tbl F32
  staging    : List Host.Cell
  rowFile    : Tbl (BitVec 64)
  rowMax     : Tbl F32
  rowSum     : Tbl F32
  regs       : Tbl Word32
  segs       : List Seg
  bases      : List Seg
  stopPend   : Bool
  stopTaken  : Bool
  badMask    : BitVec 8
  pagesDone  : Nat
  causes     : Tbl Nat
  accSlot    : Option Nat
  outM       : Tbl F32
  outL       : Tbl F32
  startAt    : Nat
  yreq       : Bool
  colsLeft   : Nat
  segSince   : Bool
  pats       : Tbl Nat
  refused    : Nat
  deriving DecidableEq, Repr

/-! ### Security -/

/-- The states of a key slot (R372), in the code of R493. -/
inductive KeyState where
  | empty | active | nextRx | nextTx | retiring | retired
  deriving DecidableEq, Repr

/-- A key slot (R372 to R376): `kNew` is K[e + 1] in NEXT_RX and NEXT_TX, `kOld` is K[e]; in ACTIVE the key is `kOld`.
`epoch` is the epoch e of `kOld`. -/
structure KeySlot where
  st      : KeyState
  part    : Nat
  job     : Word32
  epoch   : BitVec 8
  kOld    : Key
  kNew    : Key
  atOld   : Nat
  atNew   : Nat
  ageWarn : Bool
  oldDead : Bool
  newDead : Bool
  retireAt : Nat
  deriving DecidableEq, Repr

/-- The SPDM responder at one endpoint (R363): how far its negotiation has come, and its session. -/
structure Spdm where
  phase   : Nat
  session : Option (BitVec 32)
  isOpen  : Bool
  mutualAuth : Bool
  secret  : Digest
  kept    : Option (BitVec 16 × List Byte)
  deriving DecidableEq, Repr

/-- An IDE stream (R370). -/
structure IdeStream where
  key      : Option Key
  secure   : Bool
  insecure : Bool
  deriving DecidableEq, Repr

/-- Keys, SPDM, IDE, gates (11). Gate n: channel n, 128 + slice, 144 + cluster (R404). -/
structure Sec where
  keys      : Tbl KeySlot
  spdm      : Tbl Spdm
  ide       : Tbl IdeStream
  gates     : Tbl Word64
  scrubbing : List Resource
  fenced    : List Nat
  resetting : List Nat
  deriving DecidableEq, Repr

/-! ### Partition runtime -/

/-- A layer's conversion statistics (R180). -/
structure LayerStat where
  kSse : Word64
  kSsq : Word64
  kCnt : Nat
  kClamp : Nat
  vSse : Word64
  vSsq : Word64
  vCnt : Nat
  vClamp : Nat
  deriving DecidableEq, Repr

/-- A scale history record (R172) with its last use. -/
structure ScaleRec where
  session : Nat
  layer   : Nat
  newest  : Nat
  slots   : List F32
  lastUse : Nat
  deriving DecidableEq, Repr

/-- What the node keeps for a partition beside its settings (R172, R180, R198, R201). -/
structure PartState where
  clearStamp  : Nat
  arithSat    : Nat
  osat        : Nat
  layers      : Tbl LayerStat
  codedPages  : Nat
  rawFallback : Nat
  rawBytes    : Nat
  codedBytes  : Nat
  escapes     : Nat
  decodeFails : Nat
  coderFaults : Nat
  scales      : Tbl ScaleRec
  useClock    : Nat
  bases       : Tbl BaseSeq
  posTabs     : Tbl PosTab
  deriving DecidableEq, Repr

/-! ### Mailboxes -/

/-- A mailbox slot of BAR0 (R445, R446). -/
structure Mbox where
  cmd      : List Host.Cell
  resp     : List Host.Cell
  state    : Nat
  overrun  : Bool
  result   : BitVec 8
  seqDone  : BitVec 16
  seqTaken : BitVec 16
  accepted : List (BitVec 16 × AgtanCmd)
  parked   : List (BitVec 16 × AgtanCmd)
  kept     : List (Nat × BitVec 16 × List Byte)
  mctpSeq  : Option (BitVec 16 × List Byte)
  deriving DecidableEq, Repr

/-! ### Twins -/

/-- The answer owed for a change once it is committed (R244, R327). -/
inductive Reply where
  /-- The completion of request r with a status. -/
  | request (req : Nat) (status : Nat)
  /-- The response to a mailbox command. -/
  | mailbox (opcode : BitVec 16) (c : AgtanCmd) (status : Nat) (body : List Byte)
  deriving DecidableEq, Repr

/-- A change waiting for the twin's APPLIED (R327). -/
structure Change where
  stamp  : Nat
  sentAt : Nat
  reply  : Reply
  deriving DecidableEq, Repr

/-- A COMPLETION record of the partner without a RETIRE (R320, R331). -/
structure PartnerDone where
  part   : Nat
  src    : BitVec 13
  tag    : BitVec 24
  status : BitVec 8
  window : BitVec 20
  gen    : BitVec 16
  slot   : BitVec 10
  deriving DecidableEq, Repr

/-- A message forwarded to the twin (R326). -/
structure Fwd where
  id    : Nat
  msg   : Option Msg
  cmd   : Option (BitVec 16 × AgtanCmd)
  deriving DecidableEq, Repr

/-- The twin (10). -/
structure Twin where
  state       : Nat
  cfgMismatch : Bool
  lastApplied : Nat
  applied     : Nat
  lastChange  : Nat
  changes     : List Change
  partner     : List PartnerDone
  forwards    : List Fwd
  nextFwd     : Nat
  refusals    : Nat
  heardAt     : Nat
  sentAt      : Nat
  joinAt      : Nat
  s0          : Nat
  resyncA     : Nat
  repairs     : List PageRef
  repairGr    : List Nat
  grainStamps : Tbl Nat
  unloads     : List (Nat × Nat × Bool × Nat)
  claims      : Tbl (Tbl Nat)
  claimReq    : Tbl Nat
  ackDue      : Option Nat
  ackAt       : Nat
  deriving DecidableEq, Repr

/-! ### Sideband -/

/-- The sideband SPI target (R485, R486), JTAG's instruction register (R488), the SMBus target (R483). -/
structure Sideband where
  inData   : Bool
  cmd      : Word32
  latched  : Word32
  cmdAt    : Nat
  last     : BitVec 5
  errs     : Word32
  irq      : BitVec 3
  scratch  : Word32
  jtagIr   : Nat
  smbBusy  : Bool
  deriving DecidableEq, Repr

/-! ### The node -/

/-- The state of the node. `pending` is the queue of waiting commands, first in front; `draws` counts the free values
drawn; `out` holds what the last command sent out. -/
structure State where
  pending   : List Instr
  draws     : Nat
  out       : List Out
  fuses     : Fuses
  pins      : Pins
  boot      : Boot
  clk       : Clk
  pwr       : Pwr
  flt       : Flt
  spares    : Spares
  mem       : List Host.Cell
  side      : Tbl (List (BitVec 16))
  allocCtr  : Tbl Nat
  allocs    : List Alloc
  badGrains : List Nat
  sessions  : Tbl Session
  provs     : List ProvSet
  parts     : Tbl PartState
  cfg       : Settings
  ep        : Epochs
  slc       : Sluice
  wt        : Wt
  jets      : Tbl Jet
  jetSched  : Tbl Word64
  sec       : Sec
  mboxes    : Tbl Mbox
  mbNext    : Nat
  twin      : Twin
  sb        : Sideband
  deriving DecidableEq, Repr

/-- Why the machine could stop with a fault. No command of this block does: every error of the node is a status, a
record, a counter or a reset, all of them next states (INVENTORY, Faults). -/
inductive Fault where
  /-- Raised by no meaning: the node has no fault that stops it. Safe. -/
  | none
  deriving DecidableEq, Repr

/-- Why a command could be refused. -/
inductive Refusal where
  /-- A command without a meaning, by its mnemonic; raised only by an arm of `exec`. Safe. -/
  | notModelled (mnemonic : String)
  deriving DecidableEq, Repr

/-! ### The state after reset

NODE_FULL, RST_N still low: POWER_ON releases it (R412, R471). The Reset columns give the values; where there is no
Reset column the value is named in INVENTORY.md and notes/assumptions. -/

/-- The node limits by bin (R28, R31): power limit in W, jet MHz, confluence MHz, lane Gb/s. -/
def binLimits (bin : BitVec 8) : Nat × Nat × Nat × Nat :=
  if bin = 2#8 then (900, 1000, 1700, 448) else if bin = 3#8 then (650, 800, 1400, 224) else (1200, 1250, 2000, 448)

/-- PWR_CFG at reset: LIMIT_W the bin limit, TJ_STEP_C 100, MARGIN_W 20 (R430). -/
def pwrCfgReset (bin : BitVec 8) : Word64 := BitVec.ofNat 64 ((binLimits bin).1 + 100 * 2 ^ 16 + 20 * 2 ^ 24)

/-- FLT_CTL at reset: CE_THRESH 4, REPEAT_H 24, SCRUB_H 24 (R403). -/
def fltCtlReset : Word64 := 0x181804#64

/-- TIER_PCFG at reset (R203): PROMOTE 1, HOT_SWEEPS 8, DEMOTE_TICKS 1,000, LIST_CACHE_MIB 2. -/
def tierReset : Word64 := 0x203E80802#64

/-- SLC_PCFG at reset (R284): RESP_SHARE 12, LAND_MIB 64, ADMIT_WAIT 2. -/
def slcReset : Word64 := 0x200400000000C#64

/-- WT_NODE_CFG at reset (R237): UDP_PORT 49,731, PCPs 7, 6, 5, 4. -/
def nodeCfgReset : Word64 := 0x977C2430000#64

/-- WT_TWIN_CFG at reset (R314): MIRROR_PORTS P7 and P8. -/
def twinCfgReset : Word64 := 0x18000000000#64

/-- A weights word at reset (R297): 32 in each of its eight fields. -/
def weightsReset : Word64 := 0x2020202020202020#64

/-- JET_SCHED_CFG at reset (R103): YIELD_COLS 64, OWN_LIMIT 1,024, SWEEP_LIMIT 131,072. -/
def jetSchedReset : Word64 := 0x2000004000040#64

/-- A queue context at reset (R281): CLASS 4. -/
def queueCtxReset : BitVec 256 := 0x40#256

/-- `Fuses` after NODE_FULL. -/
def Fuses.init : Fuses :=
  { prod := true, secureBoot := true, jtagRestrict := true, debugUnlocked := false, bin := 1#8, fwSvnMin := 0#16,
    serial := 0#64 }

/-- `Straps` after NODE_FULL. -/
def Straps.init : Straps := { brdId := 0#8, brdPos := 0#3, smbAddr := 0#3 }

/-- `Pins` after NODE_FULL. -/
def Pins.init : Pins :=
  { straps := Straps.init, latched := Straps.init, rstLow := true, railOk := 0#7, railHold := false, tripped := false,
    clkPe := true, clkSd0 := true, clkSd1 := true, clkSys := true, squelched := false,
    ppsRise := none, hotDies := [], tjMax := 0, tcisMax := 0, vddMv := 800 }

/-- `Boot` after NODE_FULL. -/
def Boot.init : Boot :=
  { stage := 0, lastReset := 0, retained := false, fwImage := false, cfgRestored := false, failCause := 0, chLost := 0,
    bootMs := 0, scope := .full, overruns := 0, stageStart := 0, resetAt := 0, fwDigest := 0#384, chTrained := [],
    chTested := [], chFails := [], portsTried := [], selfRefresh := false, pcieUp := false, step4At := 0,
    computeDone := false, resetDue := none,
    fatalTimes := [], failedJets := [] }

/-- `Clk` after NODE_FULL. -/
def Clk.init : Clk :=
  { ftime := 0, epochSec := 0, locked := false, holdover := false, syncFault := false, ppsInAt := none,
    heard := [], sync := none, delayReq := none, delaySeq := 0, pathNs := none, synced := false, ptpPort := 0,
    offsetNs := 0, slewNs := 0, dlLate := 0, up := 0 }

/-- `Pwr` after NODE_FULL. -/
def Pwr.init (bin : BitVec 8) : Pwr :=
  { cfg := pwrCfgReset bin, level := 0, samples := [], avg := 0, tj := 0, loweredAt := none, lowSince := none,
    noRaise := false }

/-- `Flt` after NODE_FULL. -/
def Flt.init : Flt :=
  { first := none, hist := [], next := 0, newest := none, ctl := fltCtlReset, fatalReset := false, nodeCtr := [],
    portCtr := [], partCtr := [], tests := [], passed := [], ceSeen := [] }

/-- `Spares` after NODE_FULL. -/
def Spares.init : Spares :=
  { pairsUsed := [], rowsUsed := [], tsvsUsed := [], lost := [], spareLane := [], laneNoSpare := [], laneTests := [],
    portsOut := [], clusterUsed := [], subBanks := [], pairMap := [], rowMap := [], deadPairs := [], sparing := [],
    rowCopy := [], flashCount := [],
    flashMap := [] }

/-- `Dir` after NODE_FULL. -/
def Dir.init : Dir := { epoch := 0, members := [], reserved := [] }

/-- `Settings` after NODE_FULL. -/
def Settings.init : Settings :=
  { maps := [], tier := [], slc := [], provHold := [], owin := [], admitW := [], lock := 0#64, nodeCfg := nodeCfgReset,
    wtPrefix := 0#64, twinCfg := twinCfgReset, routes := [], windows := [], srcSets := [], weirs := [], shapers := [],
    portW := [], period := 10000, origin := 0, fepoch := 0, libs := [], dir := Dir.init }

/-- `Epochs` after NODE_FULL. -/
def Epochs.init : Epochs :=
  { epoch := 0, pend := none, early := [], draining := false, releasing := [], sets := [], tickRejected := false,
    images := [], libWait := [] }

/-- `Queue` after NODE_FULL. -/
def Queue.init : Queue := { ctx := queueCtxReset, ring := [], nextId := 0, landed := [], stopping := false }

/-- `Sluice` after NODE_FULL. -/
def Sluice.init : Sluice :=
  { queues := [], reqs := [], nextReq := 0, nextMsg := 0, cmds := [], nextTag := 0, waitCmds := [], land := [], revokes := [], revWait := [],
    shareUse := [], admDef := [], admPtr := [], admArr := [], lastQ := [], buckets := [] }

/-- `Port` after NODE_FULL. -/
def Port.init : Port :=
  { up := false, direct := false, gbps := 0, peer := none, held := [], heldSince := none, ingress := [],
    xoffSent := [], paused := [], classes := [], deficit := [], pointer := 0, arrived := false,
    buckets := [], weir := none, weirNext := none, gateIdx := 0, gateCycle := 0, gates := 0xFFF#12, gateUntil := none }

/-- `Wt` after NODE_FULL. -/
def Wt.init : Wt :=
  { tx := [], rx := [], incarnation := 0#32, ctlCtr := [], unreachable := [], probes := [], ports := [],
    bondTurn := 0, reorder := [] }

/-- `JetFault` after NODE_FULL. -/
def JetFault.init : JetFault :=
  { slot := 0, entry := 0, result := 0, grain := 0, syndrome := 0#64, protocol := false }

/-- `Jet` after NODE_FULL. -/
def Jet.init : Jet :=
  { slots := [], ready := 0#16, queue := [], running := none, own := false, yielded := false, accBusy := false,
    isolated := false, progOk := false, pc := 0#11, fault := JetFault.init, store := [], pool := [], acc := [],
    staging := [], rowFile := [], rowMax := [], rowSum := [], regs := [], segs := [], bases := [], stopPend := false,
    stopTaken := false, badMask := 0#8, pagesDone := 0, causes := [], accSlot := none, outM := [],
    outL := [], startAt := 0, yreq := false, colsLeft := 0, segSince := true, pats := [], refused := 0 }

/-- `KeySlot` after NODE_FULL. -/
def KeySlot.init : KeySlot :=
  { st := .empty, part := 0, job := 0#32, epoch := 0#8, kOld := 0#256, kNew := 0#256, atOld := 0, atNew := 0,
    ageWarn := false, oldDead := false, newDead := false, retireAt := 0 }

/-- `Spdm` after NODE_FULL. -/
def Spdm.init : Spdm :=
  { phase := 0, session := none, isOpen := false, mutualAuth := false, secret := 0#384, kept := none }

/-- `Sec` after NODE_FULL. -/
def Sec.init : Sec :=
  { keys := [], spdm := [], ide := [], gates := [], scrubbing := [], fenced := [], resetting := [] }

/-- `LayerStat` after NODE_FULL. -/
def LayerStat.init : LayerStat :=
  { kSse := 0#64, kSsq := 0#64, kCnt := 0, kClamp := 0, vSse := 0#64, vSsq := 0#64, vCnt := 0, vClamp := 0 }

/-- `PartState` after NODE_FULL. -/
def PartState.init : PartState :=
  { clearStamp := 0, arithSat := 0, osat := 0, layers := [], codedPages := 0, rawFallback := 0, rawBytes := 0,
    codedBytes := 0, escapes := 0, decodeFails := 0, coderFaults := 0, scales := [], useClock := 0, bases := [],
    posTabs := [] }

/-- `Mbox` after NODE_FULL. -/
def Mbox.init : Mbox :=
  { cmd := [], resp := [], state := 0, overrun := false, result := 0#8, seqDone := 0#16, seqTaken := 0#16,
    accepted := [], parked := [], kept := [], mctpSeq := none }

/-- `Twin` after NODE_FULL. -/
def Twin.init : Twin :=
  { state := 0, cfgMismatch := false, lastApplied := 0, applied := 0, lastChange := 0, changes := [], partner := [],
    forwards := [], nextFwd := 0, refusals := 0, heardAt := 0, sentAt := 0, joinAt := 0, s0 := 0, resyncA := 0,
    repairs := [], repairGr := [], grainStamps := [], unloads := [], claims := [], claimReq := [],
    ackDue := none, ackAt := 0 }

/-- `Sideband` after NODE_FULL. -/
def Sideband.init : Sideband :=
  { inData := false, cmd := 0#32, latched := 0#32, cmdAt := 0, last := 0#5, errs := 0#32, irq := 0#3, scratch := 0#32,
    jtagIr := 0, smbBusy := false }

/-- The machine right after reset (R7, R494): NODE_FULL, with RST_N still low. -/
def State.reset : State :=
  { pending := [], draws := 0, out := [], fuses := Fuses.init, pins := Pins.init, boot := Boot.init, clk := Clk.init,
    pwr := Pwr.init 1#8, flt := Flt.init, spares := Spares.init, mem := [], side := [], allocCtr := [], allocs := [],
    badGrains := [], sessions := [], provs := [], parts := [], cfg := Settings.init, ep := Epochs.init,
    slc := Sluice.init, wt := Wt.init, jets := [], jetSched := [], sec := Sec.init, mboxes := [], mbNext := 0,
    twin := Twin.init, sb := Sideband.init }

end Sys2Proof.Machine
end

