-- ==== Sys2Proof/Machine/Ops.lean ====
section
/-! DEFINITION. The operations every family shares: how a command runs, time, free values, output, memory and side
bytes (02 R40 to R56), and access to the sparse tables of State. -/

namespace Sys2Proof.Machine

/-! ### Running a command -/

/-- Run a command's effect: `out` starts empty and holds what the command sends; the queue is the step's alone. -/
def run (s : State) (f : State → State) : Host.Outcome State Fault Refusal :=
  .next { f { s with out := [] } with pending := s.pending }

/-- Send something out of the node. -/
def State.emit (s : State) (o : Out) : State := { s with out := s.out ++ [o] }

/-- Send several things out of the node. -/
def State.emits (s : State) (l : List Out) : State := { s with out := s.out ++ l }

/-- Apply a step to every element of a list, in order. -/
def State.each {α : Type} (s : State) (l : List α) (f : State → α → State) : State := l.foldl f s

/-! ### Time (07 R213) -/

/-- d ns pass: the offset still to slew shrinks by at most 1,000 ppm of them (R213). -/
def Clk.pass (c : Clk) (d : Nat) : Clk :=
  { c with
    ftime := c.ftime + d
    up := c.up + d
    slewNs := if c.slewNs < 0 then min 0 (c.slewNs + (d / 1000 : Nat)) else max 0 (c.slewNs - (d / 1000 : Nat)) }

/-- A step that happens at fabric time `now`: the clock moves to it and never back (R213). -/
def State.upTo (s : State) (now : Nat) : State := { s with clk := s.clk.pass (now - s.clk.ftime) }

/-- Fabric time in ns. -/
def State.now (s : State) : Nat := s.clk.ftime

/-- Has a time come? -/
def State.due (s : State) (t : Nat) : Bool := decide (t ≤ s.clk.ftime)

/-- TICK_INDEX of a fabric time under ORIGIN and PERIOD_NS, before ORIGIN too (R214). -/
def State.tickOf (s : State) (t : Nat) : Nat := ((((t : Int) - s.cfg.origin) / s.cfg.period) % 2 ^ 48).toNat

/-- The fabric time at which the current tick began (R214). -/
def State.tickBegin (s : State) : Int := s.clk.ftime - ((s.clk.ftime : Int) - s.cfg.origin) % s.cfg.period

/-- The fabric time at which the tick d ticks after the current one begins (R214). -/
def State.tickAhead (s : State) (d : Nat) : Nat := (s.tickBegin + d * s.cfg.period).toNat

/-- a − b of tick indices (05 R173). -/
def tickSub (a b : Nat) : Nat := (a + 2 ^ 48 - b % 2 ^ 48) % 2 ^ 48

/-! ### Free values -/

/-- Draw a random word (assumption 3). -/
def State.draw (s : State) : Word64 × State := (Config.freeWord s.draws, { s with draws := s.draws + 1 })

/-- Draw a choice of the allocator (assumption 11). -/
def State.pick (s : State) : Nat × State := (Config.freePick s.draws, { s with draws := s.draws + 1 })

/-! ### Memory

Cells in rising order of address; an unlisted address reads 0, which the memory test leaves (13 R418). -/

/-- The canonical form of memory: addresses strictly rising, no cell that reads as an unlisted address does. -/
abbrev Memory.wf (m : List Host.Cell) : Prop := m.Pairwise (fun a b => a.1 < b.1) ∧ ∀ c ∈ m, c.2 ≠ 0#8

/-- The byte at an address. -/
def Memory.readByte (m : List Host.Cell) (a : Nat) : Byte :=
  match m.find? (fun c => c.1 == a) with
  | some c => c.2
  | none => 0#8

/-- The cells of n addresses from a. -/
def Memory.window (m : List Host.Cell) (a n : Nat) : List Host.Cell :=
  m.filter fun c => decide (a ≤ c.1) && decide (c.1 < a + n)

/-- n bytes from address a. -/
def Memory.read (m : List Host.Cell) (a n : Nat) : List Byte :=
  let w := Memory.window m a n
  (List.range n).map fun i => Memory.readByte w (a + i)

/-- The cells of bytes laid from address a, without those that read as unlisted. -/
def Memory.cells : Nat → List Byte → List Host.Cell
  | _, [] => []
  | a, b :: t => if b = 0#8 then Memory.cells (a + 1) t else (a, b) :: Memory.cells (a + 1) t

/-- Write bytes from address a. -/
def Memory.write (m : List Host.Cell) (a : Nat) (l : List Byte) : List Host.Cell :=
  (m.filter fun c => decide (c.1 < a)) ++ Memory.cells a l ++ (m.filter fun c => decide (a + l.length ≤ c.1))

/-- Drop every cell whose address satisfies a test: those addresses read 0. -/
def Memory.clear (m : List Host.Cell) (p : Nat → Bool) : List Host.Cell := m.filter fun c => !p c.1

/-- The byte of the grain range at an address (02 R40). -/
def State.readByte (s : State) (a : Nat) : Byte := Memory.readByte s.mem a

/-- Bytes of the grain range. -/
def State.readBytes (s : State) (a n : Nat) : List Byte := Memory.read s.mem a n

/-! ### Grains and side bytes (R40 to R43) -/

/-- The grains of the range (R40). -/
def grainCount : Nat := 2 ^ 30

/-- The jet, bank pair of the whole node, of a grain: bits [29:17] (R40). -/
def grainJet (g : Nat) : Nat := g / 2 ^ 17

/-- BANK of a grain (R40). -/
def grainBank (g : Nat) : Nat := g % 2

/-- ROW of a grain (R40). -/
def grainRow (g : Nat) : Nat := field g 3 14

/-- GROUP of a jet (R40). -/
def jetGroup (j : Nat) : Nat := j / 512

/-- CIS of a jet (R40). -/
def jetCis (j : Nat) : Nat := j / 64 % 8

/-- The channel of a jet: n = 16 × CIS + GROUP (R41). -/
def jetChannel (j : Nat) : Nat := 16 * jetCis j + jetGroup j

/-- PAIR of a jet (R40). -/
def jetPair (j : Nat) : Nat := j % 64

/-- The jet of a pair of a channel. -/
def jetOf (ch pair : Nat) : Nat := ch % 16 * 512 + ch / 16 * 64 + pair

/-- The channel of a grain. -/
def grainChannel (g : Nat) : Nat := jetChannel (grainJet g)

/-- The channel group of a grain: GROUP. -/
def grainGroup (g : Nat) : Nat := g / 2 ^ 26

/-- The side words (side bytes 2–3 of the 16 columns) of a grain as the memory test leaves it (R43, R418). -/
def zeroSide : List (BitVec 16) := 0xEDC0#16 :: 0x30FC#16 :: List.replicate 14 0#16

/-- The key in the table of side words, beyond the grains, of a bank pair: the words of its grains that nothing has
written since their last scrub (11 R353); without it, since the memory test. -/
def pairKey (j : Nat) : Nat := grainCount + j

/-- The bank pair of a key of the table. -/
def keyJet (k : Nat) : Nat := if k < grainCount then grainJet k else k - grainCount

/-- The side words of a grain that nothing has written since its last scrub or memory test. -/
def blankSide (t : Tbl (List (BitVec 16))) (g : Nat) : List (BitVec 16) := Tbl.getD t (pairKey (grainJet g)) zeroSide

/-- The side words of a grain. -/
def State.sideOf (s : State) (g : Nat) : List (BitVec 16) := Tbl.getD s.side g (blankSide s.side g)

/-- Put side words of a grain into the table. -/
def sidePut (t : Tbl (List (BitVec 16))) (g : Nat) (w : List (BitVec 16)) : Tbl (List (BitVec 16)) :=
  if w = blankSide t g then Tbl.erase t g else Tbl.set t g w

/-- The 512 bytes of a grain. -/
def State.grain (s : State) (g : Nat) : List Byte := Memory.read s.mem (512 * g) 512

/-- Side word n of a list of side words. -/
def sideWord (w : List (BitVec 16)) (n : Nat) : BitVec 16 := w.getD n 0#16

/-- The carry tag among side words: column 0 the low half, column 1 the high half (R43). -/
def sideTag (w : List (BitVec 16)) : Word32 := sideWord w 1 ++ sideWord w 0

/-- The stored carry tag of a grain. -/
def State.tagOf (s : State) (g : Nat) : Word32 := sideTag (s.sideOf g)

/-- Column c of a grain's bytes. -/
def column (b : List Byte) (c : Nat) : List Byte := (b.drop (32 * c)).take 32

/-- The side words of a grain with bytes b, tag and write generation: in a meta grain with column checks (R43). -/
def sideWords (isMeta : Bool) (b : List Byte) (tag : Word32) (wgen : BitVec 16) : List (BitVec 16) :=
  if isMeta then
    tag.setWidth 16 :: (tag >>> 16).setWidth 16 :: (wgen ^^^ columnCheck (column b 2)) ::
      ((List.range 13).map fun i => columnCheck (column b (i + 3)))
  else tag.setWidth 16 :: (tag >>> 16).setWidth 16 :: wgen :: List.replicate 13 0#16

/-- The 64 side bytes of a grain (R43): beside each column the check bits of the on-die code and the column's side word.
The code is not given, so its check bits are a free function of what they protect (assumption 7). They lie outside the
grain range, and nothing that leaves the node shows them (R44). -/
def State.sideBytes (s : State) (g : Nat) : List Byte :=
  (List.range 16).flatMap fun c =>
    let w := sideWord (s.sideOf g) c
    leBytes 2 (Config.eccCheck (column (s.grain g) c) w).toNat ++ leBytes 2 w.toNat

/-- Write a grain with its carry tag (12 R381) and write generation. -/
def State.putGrain (s : State) (g : Nat) (isMeta : Bool) (wgen : BitVec 16) (b : List Byte) : State :=
  { s with
    mem := Memory.write s.mem (512 * g) (b.take 512)
    side := sidePut s.side g (sideWords isMeta b (crc32c b) wgen) }

/-- Write consecutive grains from g with one write generation, the bytes in order; the last is the meta grain when
asked (R48). -/
def State.putRun (s : State) (g : Nat) (wgen : BitVec 16) (isRun : Bool) (bytes : List Byte) : State :=
  let gs := pieces 512 bytes
  (List.range gs.length).foldl
    (fun t i => t.putGrain (g + i) (isRun && i + 1 == gs.length) wgen (padTo 512 (gs.getD i []))) s

/-- Zero a range of grains: their bytes, tags and side bytes are as the last scrub or memory test of their pair leaves
them, and none of them is CONTAINED. -/
def State.zeroGrains (s : State) (g n : Nat) : State :=
  let inside (k : Nat) : Bool := decide (g ≤ k ∧ k < g + n)
  { s with
    mem := Memory.clear s.mem fun a => inside (a / 512)
    side := Tbl.filterKeys s.side fun k => !inside k
    badGrains := s.badGrains.filter fun k => !inside k }

/-- Write zeros into every grain of a channel group under a fresh write generation of each bank pair, the next value of the
pair's allocation counter (R55, 11 R353; assumption 61). -/
def State.zeroGroup (s : State) (g : Nat) : State :=
  let t := s.zeroGrains (g * 2 ^ 26) (2 ^ 26)
  let jets := (List.range 512).map (512 * g + ·)
  let next (j : Nat) : Nat := (Tbl.getD s.allocCtr j 0 + 1) % 65536
  { t with
    side := jets.foldl (fun x j => Tbl.set x (pairKey j) (zeroSide.set 2 (BitVec.ofNat 16 (next j)))) t.side
    allocCtr := jets.foldl (fun x j => Tbl.set x j (next j)) t.allocCtr }

/-- The write generation that a grain's side bytes give; a meta grain's is recovered from column 2 (R43). -/
def State.wgenOf (s : State) (g : Nat) (isMeta : Bool) : BitVec 16 :=
  let w := sideWord (s.sideOf g) 2
  if isMeta then w ^^^ columnCheck (column (s.grain g) 2) else w

/-- Does the ECC report an uncorrectable column of a grain (12 R390)? -/
def eccBad (e : EccReport) (g : Nat) : Option Nat := e.ue.find? fun c => c / 16 == g

/-- The corrected columns of a grain. -/
def eccCorrected (e : EccReport) (g : Nat) : List Nat := e.ce.filter fun c => c / 16 == g

/-- The ECC reports nothing. -/
def eccNone : EccReport := { ce := [], ue := [] }

/-- What the checks of a grain find, in the order ECC, write generation, carry tag: a fault code of 12 R396 and its
syndrome (R404). In a meta grain the column checks and column 2's combined value are TAG failures. -/
def State.checkGrain (s : State) (ecc : EccReport) (g : Nat) (isMeta : Bool) (wgen : BitVec 16) :
    Option (Nat × Word64) :=
  let b := s.grain g
  let w := s.sideOf g
  let tag := crc32c b
  match eccBad ecc g with
  | some c => some (0x02, Config.eccSyndrome c)
  | none =>
    if !isMeta && sideWord w 2 != wgen then
      some (0x04, ((sideWord w 2).setWidth 32 : Word32) ++ (wgen.setWidth 32 : Word32))
    else if sideTag w != tag || (isMeta && w != sideWords true b tag wgen) then
      some (0x03, tag ++ sideTag w)
    else none

/-- Is a grain on a lost channel (13 R417), or of a pair out of service (12 R400)? -/
def State.grainLost (s : State) (g : Nat) : Bool :=
  s.spares.lost.contains (grainChannel g) || s.spares.deadPairs.contains (grainJet g)

/-! ### Access to the tables -/

/-- The jet. -/
def State.jet (s : State) (j : Nat) : Jet := Tbl.getD s.jets j Jet.init
/-- Write the jet. -/
def State.setJet (s : State) (j : Nat) (x : Jet) : State := { s with jets := Tbl.set s.jets j x }
/-- Change the jet. -/
def State.updJet (s : State) (j : Nat) (f : Jet → Jet) : State := s.setJet j (f (s.jet j))

/-- The port. -/
def State.port (s : State) (p : Nat) : Port := Tbl.getD s.wt.ports p Port.init
/-- Write the port. -/
def State.setPort (s : State) (p : Nat) (x : Port) : State :=
  { s with wt := { s.wt with ports := Tbl.set s.wt.ports p x } }
/-- Change the port. -/
def State.updPort (s : State) (p : Nat) (f : Port → Port) : State := s.setPort p (f (s.port p))

/-- The queue. -/
def State.queue (s : State) (q : Nat) : Queue := Tbl.getD s.slc.queues q Queue.init
/-- Write the queue. -/
def State.setQueue (s : State) (q : Nat) (x : Queue) : State :=
  { s with slc := { s.slc with queues := Tbl.set s.slc.queues q x } }
/-- Change the queue. -/
def State.updQueue (s : State) (q : Nat) (f : Queue → Queue) : State := s.setQueue q (f (s.queue q))

/-- The admitted request. -/
def State.req? (s : State) (r : Nat) : Option Req := Tbl.get? s.slc.reqs r
/-- Write the admitted request. -/
def State.setReq (s : State) (r : Nat) (x : Req) : State :=
  { s with slc := { s.slc with reqs := Tbl.set s.slc.reqs r x } }
/-- Remove the admitted request. -/
def State.dropReq (s : State) (r : Nat) : State := { s with slc := { s.slc with reqs := Tbl.erase s.slc.reqs r } }
/-- Change the admitted request. -/
def State.updReq (s : State) (r : Nat) (f : Req → Req) : State :=
  match s.req? r with
  | some x => s.setReq r (f x)
  | none => s

/-- The key slot. -/
def State.key (s : State) (k : Nat) : KeySlot := Tbl.getD s.sec.keys k KeySlot.init
/-- Write the key slot. -/
def State.setKey (s : State) (k : Nat) (x : KeySlot) : State :=
  { s with sec := { s.sec with keys := Tbl.set s.sec.keys k x } }

/-- The mailbox. -/
def State.mbox (s : State) (m : Nat) : Mbox := Tbl.getD s.mboxes m Mbox.init
/-- Write the mailbox. -/
def State.setMbox (s : State) (m : Nat) (x : Mbox) : State := { s with mboxes := Tbl.set s.mboxes m x }
/-- Change the mailbox. -/
def State.updMbox (s : State) (m : Nat) (f : Mbox → Mbox) : State := s.setMbox m (f (s.mbox m))

/-- The partition runtime. -/
def State.part (s : State) (p : Nat) : PartState := Tbl.getD s.parts p PartState.init
/-- Write the partition runtime. -/
def State.setPart (s : State) (p : Nat) (x : PartState) : State := { s with parts := Tbl.set s.parts p x }
/-- Change the partition runtime. -/
def State.updPart (s : State) (p : Nat) (f : PartState → PartState) : State := s.setPart p (f (s.part p))

/-- The session entry. -/
def State.session? (s : State) (x : Nat) : Option Session := Tbl.get? s.sessions x
/-- Write the session entry. -/
def State.setSession (s : State) (x : Nat) (v : Session) : State := { s with sessions := Tbl.set s.sessions x v }
/-- Change the session entry. -/
def State.updSession (s : State) (x : Nat) (f : Session → Session) : State :=
  match s.session? x with
  | some v => s.setSession x (f v)
  | none => s

/-- The staging set. -/
def State.stageSet (s : State) (m : Nat) : StageSet := Tbl.getD s.ep.sets m { isSealed := false, items := [] }
/-- Write the staging set. -/
def State.setStageSet (s : State) (m : Nat) (x : StageSet) : State :=
  { s with ep := { s.ep with sets := Tbl.set s.ep.sets m x } }

/-- The receiver flow of a source and class (08 R248). -/
def State.rx (s : State) (src : Nat) (c : Nat) : RxFlow :=
  Tbl.getD s.wt.rx (4 * src + c)
    { synced := false, e := 0, inc := 0#32, msg := none, discard := false, unacked := 0, oldest := none, ackDue := false,
      since := none, ackAfter := false, refusal := none, syncDue := none, keyDue := none, oosDue := false,
      oosNak := none, syncNak := none, keyNak := none }
/-- Write the receiver flow. -/
def State.setRx (s : State) (src c : Nat) (x : RxFlow) : State :=
  { s with wt := { s.wt with rx := Tbl.set s.wt.rx (4 * src + c) x } }

end Sys2Proof.Machine
end

