-- ==== Sys2Proof/Machine/Flags.lean ====
section
/-! DEFINITION. Status codes and their order (00 R10 to R15), the fault codes and the fault block's recording
(12 R393 to R405), the counters, the interrupt flags, and which parts of the node serve in which stage. -/

namespace Sys2Proof.Machine

/-! ### Completion status (R10) -/

/-- OK. -/
def stOk : Nat := 0x00
/-- OK_TRUNCATED. -/
def stTruncated : Nat := 0x01
/-- OK_SOLO. -/
def stSolo : Nat := 0x02
/-- OK_SATURATED. -/
def stSaturated : Nat := 0x03
/-- DEADLINE. -/
def stDeadline : Nat := 0x10
/-- CONTAINED_ERROR. -/
def stContained : Nat := 0x11
/-- TAG_MISMATCH. -/
def stTag : Nat := 0x12
/-- DECODE_FAIL. -/
def stDecode : Nat := 0x13
/-- WINDOW_REVOKED. -/
def stRevoked : Nat := 0x14
/-- WINDOW_BOUNDS. -/
def stBounds : Nat := 0x15
/-- NO_SESSION. -/
def stNoSession : Nat := 0x16
/-- FORMAT. -/
def stFormat : Nat := 0x17
/-- PARTITION_FENCED. -/
def stFenced : Nat := 0x18
/-- UNREACHABLE. -/
def stUnreach : Nat := 0x19
/-- EPOCH_BUSY. -/
def stBusy : Nat := 0x1A
/-- PAST_TIME. -/
def stPast : Nat := 0x1B
/-- KEY_INVALID. -/
def stKey : Nat := 0x1C
/-- CANCELLED. -/
def stCancelled : Nat := 0x1D
/-- NO_RESOURCE. -/
def stNoRes : Nat := 0x1E

/-- The order in which the first applicable failure is reported (R14). -/
def failureOrder : List Nat :=
  [stKey, stFenced, stRevoked, stBounds, stFormat, stPast, stBusy, stNoSession, stNoRes, stCancelled, stTag, stDecode,
   stContained, stDeadline, stUnreach]

/-- The status of several failures: the first of them in R14's order; OK when there is none. -/
def firstFailure (l : List Nat) : Nat := (failureOrder.find? fun c => l.contains c).getD stOk

/-- The first check that fails gives the status; OK when all hold. -/
def checks : List (Bool × Nat) → Nat
  | [] => stOk
  | (ok, st) :: t => if ok then checks t else st

/-! ### Stages -/

/-- The node runs: RST_N high, no rail fault, no thermal trip (15 R472, R473, R490). -/
def State.awake (s : State) : Bool := !s.pins.rstLow && !s.pins.railHold && !s.pins.tripped

/-- Service is open (13 R412). -/
def State.serving (s : State) : Bool := s.awake && s.boot.stage == 5

/-- Node status page, fault block and owner mailbox are served: from the end of step 2 (13 R416), and in HELD and
FAILED over PCIe when it is up (R394, R415). -/
def State.ownerServed (s : State) : Bool := s.awake && s.boot.pcieUp

/-- FAULT_N is low (15 R472, R490). -/
def State.faultN (s : State) : Bool :=
  s.pins.railHold || s.pins.tripped || s.boot.stage == 6 || s.boot.stage == 7

/-- The junction threshold TJ_STEP_C (13 R430). -/
def State.tjStep (s : State) : Nat := field s.pwr.cfg.toNat 16 7

/-- TJ_HOT: junction above TJ_STEP_C (13 R430). -/
def State.tjHot (s : State) : Bool := decide (s.tjStep < s.pwr.tj)

/-- SMB_ALERT_N is low while FIRST_VALID is 1 (15 R483). -/
def State.smbAlert (s : State) : Bool := s.flt.first.isSome

/-- THERM_ALERT_N is low while TJ_HOT is 1, or tripped (15 R489, R490). -/
def State.thermAlert (s : State) : Bool := s.tjHot || s.pins.tripped

/-- SB_IRQ_N is low while a bit of register 0x009 is 1 (15 R486). -/
def State.sbIrq (s : State) : Bool := s.sb.irq != 0#3

/-- Set a bit of sideband register 0x009 (15 R486): 0 STAGE_CHG, 1 RAIL_WARN, 2 TJ_WARN. -/
def State.raiseIrq (s : State) (n : Nat) : State :=
  { s with sb := { s.sb with irq := s.sb.irq ||| BitVec.ofNat 3 (2 ^ n) } }

/-- Enter a stage (13 R413). -/
def State.toStage (s : State) (n : Nat) : State :=
  let t := if s.boot.stage = n then s else s.raiseIrq 0
  { t with boot := { s.boot with stage := n, stageStart := s.clk.up } }

/-- Enter FAILED with its cause: transmitters squelched, cisterns with content in self-refresh (13 R415). -/
def State.toFailed (s : State) (cause : Nat) : State :=
  let t := s.toStage 7
  { t with boot := { t.boot with failCause := cause, selfRefresh := true }, pins := { t.pins with squelched := true } }

/-! ### Counters (12 R405) -/

/-- Add to a node counter, saturating at 64 bits. -/
def State.count (s : State) (i n : Nat) : State :=
  { s with flt := { s.flt with nodeCtr := Tbl.modify s.flt.nodeCtr i 0 fun v => satAdd 64 v n } }

/-- Add to counter i of port p. -/
def State.countPort (s : State) (p i n : Nat) : State :=
  { s with flt := { s.flt with portCtr := Tbl.modify s.flt.portCtr (64 * p + i) 0 fun v => satAdd 64 v n } }

/-- Add to counter i of partition q. -/
def State.countPart (s : State) (q i n : Nat) : State :=
  { s with flt := { s.flt with partCtr := Tbl.modify s.flt.partCtr (64 * q + i) 0 fun v => satAdd 64 v n } }

/-- FLT_LOCK_VIOL (R6). -/
def cLockViol : Nat := 4
/-- FLT_TRANSIENT. -/
def cTransient : Nat := 5
/-- FLT_LASTING. -/
def cLasting : Nat := 6
/-- FLT_REPAIRED. -/
def cRepaired : Nat := 7
/-- FLT_PARTIAL_REFUSED. -/
def cPartialRefused : Nat := 8
/-- WT_AUTH_FAIL. -/
def cAuthFail : Nat := 16
/-- WT_BAD_OPCODE. -/
def cBadOpcode : Nat := 17
/-- WT_OOS. -/
def cOos : Nat := 18
/-- WT_DUP. -/
def cDup : Nat := 19
/-- WT_UNSYNC_DROP. -/
def cUnsync : Nat := 20
/-- WT_REFUSED. -/
def cRefused : Nat := 21
/-- WT_RETX_TIMER. -/
def cRetxTimer : Nat := 22
/-- WT_RETX_NAK. -/
def cRetxNak : Nat := 23
/-- WT_PATH_MOVE. -/
def cPathMove : Nat := 24
/-- WT_FLOW_FAIL. -/
def cFlowFail : Nat := 25
/-- WT_BAD_ACK. -/
def cBadAck : Nat := 26
/-- WT_RESP_LOST. -/
def cRespLost : Nat := 27
/-- WT_CANCEL_MISS. -/
def cCancelMiss : Nat := 28
/-- WT_MIRROR_BAD. -/
def cMirrorBad : Nat := 32
/-- WT_FWD. -/
def cFwd : Nat := 33
/-- WT_SOLO_ENTRY. -/
def cSoloEntry : Nat := 34
/-- WT_RESYNC_BYTES. -/
def cResyncBytes : Nat := 35
/-- WT_DIR_STALE. -/
def cDirStale : Nat := 36
/-- SLC_HEDGE_SENT. -/
def cHedgeSent : Nat := 40
/-- SLC_HEDGE_ORIGIN. -/
def cHedgeOrigin : Nat := 41
/-- SLC_HEDGE_TWIN. -/
def cHedgeTwin : Nat := 42
/-- SLC_HEDGE_CLOSED. -/
def cHedgeClosed : Nat := 43
/-- SLC_HEDGE_DECLINED. -/
def cHedgeDeclined : Nat := 44
/-- SEC_GATE_REFUSE. -/
def cGateRefuse : Nat := 48
/-- SEC_BAR2_BLOCKED. -/
def cBar2Blocked : Nat := 49
/-- SEC_OLD_KEY_RX. -/
def cOldKeyRx : Nat := 50
/-- SLC_DB_IGNORED, of a partition. -/
def pDbIgnored : Nat := 0
/-- SLC_ADMIT_NORES, of a partition. -/
def pAdmitNores : Nat := 1
/-- SLC_ADMIT_WAIT_NS, of a partition. -/
def pAdmitWait : Nat := 2
/-- SLC_REISSUE, of a partition. -/
def pReissue : Nat := 3
/-- FLT_PAGES_CONTAINED, of a partition. -/
def pPagesContained : Nat := 10

/-! ### Fault codes (12 R396) -/

/-- The class of a fault code: 0 CORRECTED, 1 CONTAINED, 2 FATAL (R396). -/
def faultClass (code : Nat) : Nat :=
  if [0x01, 0x08, 0x09, 0x15, 0x17, 0x19, 0x1A, 0x30, 0x31].contains code then 0
  else if [0x21, 0x22, 0x23, 0x24].contains code then 2 else 1

/-- The scope of a fault code (R396): 0 NONE, 1 REQUEST, 2 PAGE, 3 JET, 4 PARTITION, 5 NODE, 6 LANE. -/
def faultScope (code : Nat) : Nat :=
  if [0x02, 0x03, 0x04, 0x05, 0x06, 0x07, 0x0A, 0x16, 0x18].contains code then 2
  else if [0x10, 0x11, 0x12].contains code then 3
  else if [0x0B, 0x20].contains code then 4
  else if [0x13, 0x14].contains code then 1
  else if [0x1B, 0x21, 0x22, 0x23, 0x24].contains code then 5
  else if [0x19, 0x1A].contains code then 6
  else 0

/-- Nanoseconds of an hour. -/
def hourNs : Nat := 3600000000000

/-- CE_THRESH (R403). -/
def State.ceThresh (s : State) : Nat := field s.flt.ctl.toNat 0 8

/-- REPEAT_H in ns (R403). -/
def State.repeatNs (s : State) : Nat := field s.flt.ctl.toNat 8 8 * hourNs

/-- A fault event before it is recorded: code, source, partition, address, syndrome, the place a self-test takes, and for
DECODE the half and the check that failed (06 R192). -/
structure Event where
  code     : Nat
  srcKind  : Nat
  srcIndex : Nat
  part     : Option Nat
  addr     : Nat
  syndrome : Word64
  place    : Option Place
  detail   : Nat := 0
  deriving DecidableEq, Repr

/-- Does an event start a self-test of its place (R397)? A CORRECTED DRAM_CE or SRAM_CE does on the CE_THRESH-th such
event of the place within REPEAT_H; every other event with a place does; never while the place is under test (R411). -/
def State.startsTest (s : State) (e : Event) : Bool :=
  match e.place with
  | none => false
  | some p =>
    !(s.flt.tests.any fun t => decide (t.place = p)) &&
    (if e.code == 0x01 || e.code == 0x15 then
      decide (s.ceThresh ≤ 1 + (s.flt.ceSeen.filter fun c => decide (c.1 = p ∧ s.clk.up < c.2 + s.repeatNs)).length)
    else true)

/-- The record of the self-test that runs at an event's place: a second event there folds into it (R411). -/
def State.testSlot (s : State) (e : Event) : Option Nat :=
  (e.place.bind fun p => s.flt.tests.find? fun t => decide (t.place = p)).bind fun t =>
    match Tbl.get? s.flt.hist t.slot with
    | some r => if r.code = t.code && r.verdict = 0 then some t.slot else none
    | none => none

/-- The newest record, when an event has its source, code and address and its self-test still runs (R405). -/
def State.newestSlot (s : State) (e : Event) : Option Nat :=
  s.flt.newest.bind fun n =>
    match Tbl.get? s.flt.hist n with
    | none => none
    | some r =>
      if r.srcKind == e.srcKind && r.srcIndex == e.srcIndex && r.code == e.code && r.addr == e.addr && r.verdict == 0
      then some n else none

/-- The record an event folds into (R405, R411). -/
def State.foldSlot (s : State) (e : Event) : Option Nat := s.testSlot e <|> s.newestSlot e

/-- The record of an event (R404). -/
def State.recordOf (s : State) (e : Event) : FltRec :=
  { stamp := s.clk.ftime, srcIndex := e.srcIndex, srcKind := e.srcKind, cls := faultClass e.code,
    scope := faultScope e.code, verdict := if s.startsTest e then 0 else 3, part := e.part, code := e.code, repeats := 0,
    addr := e.addr, syndrome := e.syndrome, detail := e.detail }

/-- The fault block after an event: the history, FLT_FIRST, the tests (R397, R405). -/
def Flt.enter (f : Flt) (r : FltRec) (starts : Bool) (place : Option Place) : Flt :=
  { f with
    hist := Tbl.set f.hist f.next r
    newest := some f.next
    next := (f.next + 1) % 32
    first := match f.first with
      | some x => some x
      | none => if r.cls = 0 then none else some r
    tests := match starts, place with
      | true, some p => f.tests ++ [{ place := p, code := r.code, slot := f.next }]
      | _, _ => f.tests }

/-- Count an event by class, at the node and at its partition (R405). -/
def State.countEvent (s : State) (e : Event) : State :=
  let t := (s.count 0 1).count (1 + faultClass e.code) 1
  match e.part with
  | some q => if faultClass e.code = 2 then t else t.countPart q (8 + faultClass e.code) 1
  | none => t

/-- Note a corrected event of a place for CE_THRESH (R397). -/
def State.noteCe (s : State) (e : Event) : State :=
  match e.place with
  | some p => if e.code == 0x01 || e.code == 0x15 then
      { s with flt := { s.flt with ceSeen := s.flt.ceSeen ++ [(p, s.clk.up)] } } else s
  | none => s

/-- Record a fault event (R405): fold it into a record's REPEAT, or write it into slot HIST_NEXT. -/
def State.fault (s : State) (e : Event) : State :=
  match s.foldSlot e with
  | some n =>
    let t := s.countEvent e
    { t with flt := { t.flt with
        hist := t.flt.hist.map fun p => if p.1 = n then (p.1, { p.2 with repeats := satAdd 16 p.2.repeats 1 }) else p } }
  | none =>
    let t := { s with flt := s.flt.enter (s.recordOf e) (s.startsTest e) e.place }
    (t.countEvent e).noteCe e

/-- SRC_INDEX of a jet: 68 × channel + physical pair (R404): the spare pair that stands for it, or its own. -/
def State.jetSource (s : State) (j : Nat) : Nat :=
  68 * jetChannel j + Tbl.getD s.spares.pairMap j (jetPair j)

/-- The partition that owns a grain: the one whose map entry holds its channel group (11 R351, 02 R40). -/
def State.groupOwner (s : State) (g : Nat) : Option Nat :=
  (List.range 16).find? fun p => (Tbl.getD s.cfg.maps p 0#1024).getLsbD g

/-- Record that a spare was brought in, or that none is left (R396: 0x30 SPARE_IN, 0x31 NO_SPARE). -/
def State.spareEvent (s : State) (ok : Bool) (kind idx : Nat) : State :=
  s.fault { code := if ok then 0x30 else 0x31, srcKind := kind, srcIndex := idx, part := none, addr := 0,
            syndrome := 0#64, place := none }

/-- Write the spare map into the half of the flash repair area with the lower write count (12 R402, 15 R482). -/
def State.writeSpareMap (s : State) : State :=
  let a := Tbl.getD s.spares.flashCount 0 0
  let b := Tbl.getD s.spares.flashCount 1 0
  let h := if a ≤ b then 0 else 1
  { s with spares := { s.spares with
      flashCount := Tbl.set s.spares.flashCount h (max a b + 1)
      flashMap := Tbl.set s.spares.flashMap h (s.spares.pairMap, s.spares.rowMap) } }

/-- A spare has been brought in: the event, and the map in flash (12 R396, R402). -/
def State.sparedIn (s : State) (kind idx : Nat) : State := (s.spareEvent true kind idx).writeSpareMap

/-- Fence a partition (11 R359, 12 R386). -/
def State.fence (s : State) (p : Nat) : State :=
  { s with sec := { s.sec with fenced := if s.sec.fenced.contains p then s.sec.fenced else s.sec.fenced ++ [p] } }

/-- Is a partition fenced or under reset (R10, PARTITION_FENCED)? -/
def State.isFenced (s : State) (p : Nat) : Bool := s.sec.fenced.contains p || s.sec.resetting.contains p

end Sys2Proof.Machine
end

