-- ==== Sys2Proof/Machine/Operands.lean ====
section
/-! DEFINITION. Layouts: the transport header (08 R238), the partition map (11 R351), windows (08 R270), queue
contexts (09 R281), the settings words, page descriptors, page headers and session entries (02 R47 to R61). -/

namespace Sys2Proof.Machine

/-! ### Fields of wide words -/

/-- Write field [lo + w - 1 : lo] of a word. -/
def setField {n : Nat} (v : BitVec n) (lo w x : Nat) : BitVec n :=
  let m := (BitVec.ofNat n (2 ^ w - 1)) <<< lo
  (v &&& ~~~m) ||| ((BitVec.ofNat n (x % 2 ^ w)) <<< lo)

/-- Field [lo + w - 1 : lo] of a word. -/
def fld {n : Nat} (v : BitVec n) (lo w : Nat) : Nat := field v.toNat lo w

/-- The set bits below n of a mask, rising. -/
def bitsOf {w : Nat} (v : BitVec w) (n : Nat) : List Nat := (List.range n).filter fun i => v.getLsbD i

/-! ### The transport header (R238) -/

/-- The twelve words of a header, W0 most significant, so that its bytes leave most significant first (R4, R238). -/
def encodeHdr (h : Hdr) : BitVec 384 :=
  let w0 : Word32 := h.ver ++ h.rclass ++ (h.rsvd.extractLsb' 2 2) ++ h.opcode ++ (h.rsvd.extractLsb' 0 2) ++
    BitVec.ofBool h.fwd ++ BitVec.ofBool h.sync ++ BitVec.ofBool h.void ++ BitVec.ofBool h.acknow ++
    BitVec.ofBool h.last ++ BitVec.ofBool h.first ++ h.status
  let w1 : Word32 := h.rsvd.extractLsb' 7 3 ++ h.src ++ h.rsvd.extractLsb' 4 3 ++ h.dst
  let w2 : Word32 := h.seq ++ h.rsvd.extractLsb' 10 8
  let w3 : Word32 := h.attempt ++ h.rsvd.extractLsb' 18 6 ++ h.keySlot
  let w4 : Word32 := h.window ++ h.rsvd.extractLsb' 24 12
  let w5 : Word32 := h.gen ++ h.rsvd.extractLsb' 36 8 ++ h.offset.extractLsb' 32 8
  let w6 : Word32 := h.offset.extractLsb' 0 32
  w0 ++ w1 ++ w2 ++ w3 ++ w4 ++ w5 ++ w6 ++ h.imm ++ h.stamp ++ h.ptag ++ h.ctlCtr

/-- Read a header from its 384 bits (R238). -/
def decodeHdr (v : BitVec 384) : Hdr :=
  let w (n : Nat) : Word32 := v.extractLsb' (32 * (11 - n)) 32
  { status := (w 0).extractLsb' 0 8, first := (w 0).getLsbD 8, last := (w 0).getLsbD 9, acknow := (w 0).getLsbD 10,
    void := (w 0).getLsbD 11, sync := (w 0).getLsbD 12, fwd := (w 0).getLsbD 13, opcode := (w 0).extractLsb' 16 8,
    rclass := (w 0).extractLsb' 26 2, ver := (w 0).extractLsb' 28 4, dst := (w 1).extractLsb' 0 13,
    src := (w 1).extractLsb' 16 13, seq := (w 2).extractLsb' 8 24, keySlot := (w 3).extractLsb' 0 10,
    attempt := (w 3).extractLsb' 16 16, window := (w 4).extractLsb' 12 20,
    offset := (w 5).extractLsb' 0 8 ++ w 6, gen := (w 5).extractLsb' 16 16, imm := w 7, stamp := w 8 ++ w 9,
    ptag := w 10, ctlCtr := w 11,
    rsvd := (w 5).extractLsb' 8 8 ++ (w 4).extractLsb' 0 12 ++ (w 3).extractLsb' 10 6 ++ (w 2).extractLsb' 0 8 ++
      (w 1).extractLsb' 29 3 ++ (w 1).extractLsb' 13 3 ++ (w 0).extractLsb' 24 2 ++ (w 0).extractLsb' 14 2 }

/-- The header's 48 bytes in wire order: the GCM associated data (R379). -/
def hdrBytes (h : Hdr) : List Byte := beBytes 48 (encodeHdr h).toNat

/-! ### Opcodes (R240) -/

/-- VOID. -/
def opVoid : BitVec 8 := 0x00#8
/-- WRITE. -/
def opWrite : BitVec 8 := 0x01#8
/-- WRITE_IMM. -/
def opWriteImm : BitVec 8 := 0x02#8
/-- READ_REQ. -/
def opReadReq : BitVec 8 := 0x03#8
/-- READ_RESP. -/
def opReadResp : BitVec 8 := 0x04#8
/-- ATTEND. -/
def opAttend : BitVec 8 := 0x10#8
/-- ATTEND_RESP. -/
def opAttendResp : BitVec 8 := 0x11#8
/-- APPEND. -/
def opAppend : BitVec 8 := 0x12#8
/-- COMMIT. -/
def opCommit : BitVec 8 := 0x13#8
/-- INGEST. -/
def opIngest : BitVec 8 := 0x14#8
/-- CANCEL. -/
def opCancel : BitVec 8 := 0x15#8
/-- HEDGE. -/
def opHedge : BitVec 8 := 0x16#8
/-- HEDGE_CLAIM. -/
def opHedgeClaim : BitVec 8 := 0x17#8
/-- MIRROR. -/
def opMirror : BitVec 8 := 0x20#8
/-- MIRROR_ACK. -/
def opMirrorAck : BitVec 8 := 0x21#8
/-- ACK. -/
def opAck : BitVec 8 := 0x30#8
/-- NAK. -/
def opNak : BitVec 8 := 0x31#8
/-- DIR_UPDATE. -/
def opDirUpdate : BitVec 8 := 0x40#8
/-- DIR_QUERY. -/
def opDirQuery : BitVec 8 := 0x41#8

/-- The opcodes of R240 that a receiver may take with VOID clear. -/
def definedOpcodes : List (BitVec 8) :=
  [opWrite, opWriteImm, opReadReq, opReadResp, opAttend, opAttendResp, opAppend, opCommit, opIngest, opCancel, opHedge,
   opHedgeClaim, opMirror, opMirrorAck, opAck, opNak, opDirUpdate, opDirQuery]

/-- The classes an opcode is permitted on (R240). -/
def opcodeClasses (op : BitVec 8) : List Nat :=
  if op = opWriteImm then [0, 2, 3]
  else if [opWrite, opReadReq, opAttend, opAppend, opCommit, opIngest, opCancel].contains op then [3]
  else if [opReadResp, opAttendResp].contains op then [2]
  else if [opMirror, opMirrorAck].contains op then [1]
  else if [opHedge, opHedgeClaim, opDirUpdate, opDirQuery].contains op then [0]
  else []

/-- The request opcodes that land on a queue and are checked once, at LAST (R239, R282): READ_REQ lands too and is a
single frame. -/
def requestOpcodes : List (BitVec 8) := [opAttend, opAppend, opCommit, opIngest]

/-- Opcodes that R240 defines with a window field. -/
def windowedOpcodes : List (BitVec 8) :=
  [opWrite, opWriteImm, opReadReq, opReadResp, opAttend, opAttendResp, opAppend, opCommit, opIngest, opCancel, opHedge]

/-- A header with every field zero but VER. -/
def Hdr.zero : Hdr :=
  { status := 0#8, first := false, last := false, acknow := false, void := false, sync := false, fwd := false,
    opcode := 0#8, rclass := 0#2, ver := 1#4, dst := 0#13, src := 0#13, seq := 0#24, keySlot := 0#10, attempt := 0#16,
    window := 0#20, offset := 0#40, gen := 0#16, imm := 0#32, stamp := 0#64, ptag := 0#32, ctlCtr := 0#32,
    rsvd := 0#44 }

/-! ### Node and twin settings -/

/-- NODE_ID (R237). -/
def State.nodeId (s : State) : Nat := fld s.cfg.nodeCfg 0 13
/-- ID_VALID (R237). -/
def State.idValid (s : State) : Bool := s.cfg.nodeCfg.getLsbD 13
/-- UDP_PORT (R237). -/
def State.udpPort (s : State) : Nat := fld s.cfg.nodeCfg 16 16
/-- The PCP of a class (R237). -/
def State.pcp (s : State) (c : Nat) : Nat := fld s.cfg.nodeCfg (32 + 3 * c) 3
/-- VID (R237). -/
def State.vid (s : State) : Nat := fld s.cfg.nodeCfg 44 12
/-- The node's IPv6 address (R234): UNI_PREFIX, 51 zero bits, NODE_ID. -/
def State.address (s : State) : BitVec 128 :=
  s.cfg.wtPrefix ++ (BitVec.ofNat 64 s.nodeId)
/-- The IPv6 address of node n, requester or node (R234). -/
def State.addressOf (s : State) (n : Nat) : BitVec 128 := s.cfg.wtPrefix ++ (BitVec.ofNat 64 n)
/-- The headers before the Woarnys header, in wire order, of a frame with a payload of n bytes (R4, R233): MAC addresses,
802.1Q tag, EtherType; IPv6 with DSCP 8 × PCP, flow label and hop limit 64; UDP with checksum 0. -/
def State.lowerBytes (s : State) (p dst pcp n : Nat) (entropy : BitVec 14) : List Byte :=
  let e := entropy.toNat
  beBytes 6 (Config.portMac (24 + p)).toNat ++ beBytes 6 (Config.portMac p).toNat ++
    beBytes 4 (0x8100 * 2 ^ 16 + pcp * 2 ^ 13 + s.vid) ++ beBytes 2 0x86DD ++
    beBytes 4 (6 * 2 ^ 28 + 8 * pcp * 2 ^ 22 + e) ++ beBytes 4 ((n + 72) * 2 ^ 16 + 17 * 2 ^ 8 + 64) ++
    beBytes 16 s.address.toNat ++ beBytes 16 (s.addressOf dst).toNat ++
    beBytes 8 ((0xC000 + e) * 2 ^ 48 + s.udpPort * 2 ^ 32 + (n + 72) * 2 ^ 16)
/-- TWIN_NODE (R314). -/
def State.twinNode (s : State) : Nat := fld s.cfg.twinCfg 0 13
/-- PAIR_EN (R314). -/
def State.pairEn (s : State) : Bool := s.cfg.twinCfg.getLsbD 13
/-- PAIR_ID (R314). -/
def State.pairId (s : State) : Nat := fld s.cfg.twinCfg 16 12
/-- MIRROR_PORTS (R314). -/
def State.mirrorPorts (s : State) : List Nat := bitsOf (s.cfg.twinCfg >>> 32) 24

/-! ### The partition map (R351) -/

/-- The map entry of a partition in force. -/
def State.pmap (s : State) (p : Nat) : BitVec 1024 := Tbl.getD s.cfg.maps p 0#1024
/-- GROUPS. -/
def mapGroups (m : BitVec 1024) : List Nat := bitsOf m 16
/-- SLICES. -/
def mapSlices (m : BitVec 1024) : List Nat := bitsOf (m >>> 16) 16
/-- CLUSTERS. -/
def mapClusters (m : BitVec 1024) : List Nat := bitsOf (m >>> 32) 16
/-- WBLOCKS. -/
def mapWblocks (m : BitVec 1024) : List Nat := bitsOf (m >>> 48) 16
/-- KEY_FIRST. -/
def mapKeyFirst (m : BitVec 1024) : Nat := fld m 64 10
/-- KEY_COUNT. -/
def mapKeyCount (m : BitVec 1024) : Nat := fld m 74 10
/-- ENABLE. -/
def mapEnable (m : BitVec 1024) : Bool := m.getLsbD 84
/-- SBLOCKS. -/
def mapSblocks (m : BitVec 1024) : List Nat := bitsOf (m >>> 256) 256
/-- TENANT_KEY. -/
def mapTenantKey (m : BitVec 1024) : Digest := m.extractLsb' 512 384
/-- Are the RsvdZ bits of a map entry zero? -/
def mapRsvdOk (m : BitVec 1024) : Bool := m.extractLsb' 85 171 == 0#171 && m.extractLsb' 896 128 == 0#128

/-- The partition that owns a resource bit: the one whose entry has bit n set. -/
def State.ownerOfBit (s : State) (n : Nat) : Option Nat := (List.range 16).find? fun p => (s.pmap p).getLsbD n
/-- The owner of a channel group. -/
def State.ownerOfGroup (s : State) (g : Nat) : Option Nat := s.ownerOfBit g
/-- The owner of an SRAM slice. -/
def State.ownerOfSlice (s : State) (n : Nat) : Option Nat := s.ownerOfBit (16 + n)
/-- The owner of a window's block. -/
def State.ownerOfWindow (s : State) (w : Nat) : Option Nat := s.ownerOfBit (48 + w / 4096)
/-- The owner of a session index's block (R58). -/
def State.ownerOfSession (s : State) (x : Nat) : Option Nat := s.ownerOfBit (256 + x / 65536)
/-- The owner of a queue: of the slice that holds its group (R279). -/
def State.ownerOfQueue (s : State) (q : Nat) : Option Nat := s.ownerOfSlice (q / 65536)
/-- The owner of a grain. -/
def State.ownerOfGrain (s : State) (g : Nat) : Option Nat := s.ownerOfGroup (grainGroup g)
/-- The partition a key slot belongs to (R371): none for slot 0 and for slots in no range. -/
def State.ownerOfKey (s : State) (k : Nat) : Option Nat :=
  if k = 0 then none
  else if k ≤ 16 then some (k - 1)
  else (List.range 16).find? fun p =>
    decide (mapKeyFirst (s.pmap p) ≤ k ∧ k < mapKeyFirst (s.pmap p) + mapKeyCount (s.pmap p))

/-- Is a partition open to requests: enabled, not fenced, not under reset (R272 item 1, R351)? -/
def State.partOpen (s : State) (p : Nat) : Bool := mapEnable (s.pmap p) && !s.isFenced p

/-! ### Windows (R270) -/

/-- The committed entry of a window. -/
def State.window (s : State) (w : Nat) : BitVec 256 := Tbl.getD s.cfg.windows w 0#256
/-- BASE. -/
def winBase (v : BitVec 256) : Nat := fld v 0 30
/-- The number of grains, LEN_M1 + 1. -/
def winLen (v : BitVec 256) : Nat := fld v 32 30 + 1
/-- GEN. -/
def winGen (v : BitVec 256) : BitVec 16 := v.extractLsb' 64 16
/-- PART. -/
def winPart (v : BitVec 256) : Nat := fld v 80 4
/-- RD. -/
def winRd (v : BitVec 256) : Bool := v.getLsbD 84
/-- WR. -/
def winWr (v : BitVec 256) : Bool := v.getLsbD 85
/-- AT. -/
def winAt (v : BitVec 256) : Bool := v.getLsbD 86
/-- VALID. -/
def winValid (v : BitVec 256) : Bool := v.getLsbD 87
/-- SRCSET. -/
def winSrcset (v : BitVec 256) : Nat := fld v 88 8
/-- CQ. -/
def winCq (v : BitVec 256) : Nat := fld v 96 20
/-- STAMP. -/
def winStamp (v : BitVec 256) : Nat := fld v 128 64
/-- Raise GEN by one and set STAMP (R273, R274). -/
def winRaise (v : BitVec 256) (now : Nat) : BitVec 256 :=
  setField (setField v 64 16 ((winGen v).toNat + 1)) 128 64 now
/-- Does a window hold a grain? -/
def winHolds (v : BitVec 256) (g : Nat) : Bool :=
  winValid v && decide (winBase v ≤ g ∧ g < winBase v + winLen v)
/-- The windows of the table that are open and hold a grain. -/
def State.windowsOf (s : State) (g : Nat) : List Nat := (s.cfg.windows.filter fun p => winHolds p.2 g).map Prod.fst

/-! ### Queue contexts (R281) -/

/-- TYPE: 0 OFF, 1 FABRIC, 2 HOST, 3 COMPLETION. -/
def qType (v : BitVec 256) : Nat := fld v 0 2
/-- CLASS. -/
def qClass (v : BitVec 256) : Nat := fld v 4 4
/-- LOG2_N. -/
def qLog2 (v : BitVec 256) : Nat := fld v 8 4
/-- VECTOR. -/
def qVector (v : BitVec 256) : Nat := fld v 16 12
/-- IRQ. -/
def qIrq (v : BitVec 256) : Bool := v.getLsbD 28
/-- RING. -/
def qRing (v : BitVec 256) : Nat := fld v 32 64
/-- PROD. -/
def qProd (v : BitVec 256) : Nat := fld v 96 16
/-- CONS. -/
def qCons (v : BitVec 256) : Nat := fld v 112 16
/-- ADMITTED. -/
def qAdmitted (v : BitVec 256) : Nat := fld v 128 16
/-- OVERFLOW. -/
def qOverflow (v : BitVec 256) : Nat := fld v 144 32
/-- Entries in the ring between CONS and PROD, modulo 2^16. -/
def qUsed (v : BitVec 256) : Nat := (qProd v + 65536 - qCons v) % 65536

/-! ### Partition settings -/

/-- TIER_PCFG of a partition in force (R203). -/
def State.tierCfg (s : State) (p : Nat) : Word64 := Tbl.getD s.cfg.tier p tierReset
/-- SLC_PCFG of a partition in force (R284). -/
def State.slcCfg (s : State) (p : Nat) : Word64 := Tbl.getD s.cfg.slc p slcReset
/-- ERP, the lower-tier error policy: TRUNCATE_ON_ERROR when set (R203). -/
def State.erp (s : State) (p : Nat) : Bool := (s.tierCfg p).getLsbD 0
/-- RESP_SHARE in bytes: RESP_SHARE × 64 KiB (R290). -/
def State.respShare (s : State) (p : Nat) : Nat := fld (s.slcCfg p) 0 8 * 65536
/-- The descriptor quota: floor(32,768 × RESP_SHARE / 192) (R290). -/
def State.descQuota (s : State) (p : Nat) : Nat := 32768 * fld (s.slcCfg p) 0 8 / 192
/-- The FABRIC queue of a source node (R282). -/
def State.fabricQueue (s : State) (p src : Nat) : Nat :=
  256 * fld (s.slcCfg p) 8 12 + src % (256 * (fld (s.slcCfg p) 20 8 + 1))
/-- LAND_MIB in grains (R283). -/
def State.landGrains (s : State) (p : Nat) : Nat := fld (s.slcCfg p) 32 10 * 2048
/-- ADMIT_WAIT (R284). -/
def State.admitWait (s : State) (p : Nat) : Nat := fld (s.slcCfg p) 48 8
/-- PROV_HOLD of a partition (R146). -/
def State.provHold (s : State) (p : Nat) : Nat := Tbl.getD s.cfg.provHold p 256
/-- OWIN of a partition (R176). -/
def State.owin (s : State) (p : Nat) : Nat := Tbl.getD s.cfg.owin p 4

/-! ### Pages and sessions (R45 to R61) -/

/-- Elements of a head dimension code (R46). -/
def dimOf (hdim : Nat) : Nat := [64, 96, 128, 160, 192, 256].getD hdim 0

/-- Grains of one half of a page, k (R47), by format and head dimension code. -/
def halfGrains (pfmt hdim : Nat) : Nat :=
  if pfmt = 0 then [4, 6, 8, 10, 12, 16].getD hdim 0
  else if pfmt = 1 then [3, 5, 6, 7, 9, 11].getD hdim 0
  else if pfmt = 4 || pfmt = 5 then [1, 2, 2, 3, 3, 4].getD hdim 0
  else [2, 3, 4, 5, 6, 8].getD hdim 0

/-- Grains of a run: 2k + 1 (R47). -/
def runLen (pfmt hdim : Nat) : Nat := 2 * halfGrains pfmt hdim + 1

/-- Bytes of a row's code area (R45, R49). -/
def rowBytes (pfmt dim : Nat) : Nat :=
  if pfmt = 0 || pfmt = 1 then 2 * dim else if pfmt = 4 || pfmt = 5 then dim / 2 else dim

/-- Grains of the K half of a run from its first grain: bank A, without the meta grain (R48). -/
def kGrains (first len : Nat) : List Nat :=
  (List.range (len - 1)).map (first + ·) |>.filter fun g => g % 2 == 0

/-- Grains of the V half: bank B, without the meta grain (R48). -/
def vGrains (first len : Nat) : List Nat :=
  (List.range (len - 1)).map (first + ·) |>.filter fun g => g % 2 == 1

/-- A page descriptor's 32 bytes (R54). -/
def descBytes (d : Desc) : List Byte :=
  leBytes 32 (d.grain + d.pfmt * 2 ^ 30 + d.validM1 * 2 ^ 34 + d.hdim * 2 ^ 38 + d.cstate * 2 ^ 41 +
    b2n d.tail * 2 ^ 43 + b2n d.inSram * 2 ^ 44 + b2n d.contained * 2 ^ 45 + d.wgen.toNat * 2 ^ 48 +
    d.tagRoot.toNat * 2 ^ 64 + d.baseIdx * 2 ^ 96 + d.stamp * 2 ^ 128 + d.tokenPos * 2 ^ 192)

/-- Read a page descriptor (R54). -/
def descOf (l : List Byte) : Desc :=
  let v := leAt l 0 32
  { grain := field v 0 30, pfmt := field v 30 4, validM1 := field v 34 4, hdim := field v 38 3, cstate := field v 41 2,
    tail := bit v 43, inSram := bit v 44, contained := bit v 45, wgen := BitVec.ofNat 16 (field v 48 16),
    tagRoot := BitVec.ofNat 32 (field v 64 32), baseIdx := field v 96 20, stamp := field v 128 64,
    tokenPos := field v 192 32 }

/-- BASE_IDX of a page without a link (R54). -/
def noBase : Nat := 0xFFFFF

/-- The page header's 64 bytes (R51). -/
def pageHeader (d : Desc) (owner : Nat) (isBase : Bool) (layer head : Nat) : List Byte :=
  leBytes 64 (1 + d.pfmt * 2 ^ 8 + d.hdim * 2 ^ 12 + d.validM1 * 2 ^ 16 + owner * 2 ^ 32 + b2n isBase * 2 ^ 56 +
    layer * 2 ^ 64 + head * 2 ^ 72 + d.tokenPos * 2 ^ 96 + d.wgen.toNat * 2 ^ 128 + d.baseIdx * 2 ^ 160 +
    d.stamp * 2 ^ 192)

/-- Does a meta grain's page header belong to the page a descriptor names (R50): version, format, head dimension, valid
tokens, owner, layer, KV head and position? WGEN, BASE_IDX and STAMP have checks of their own (assumption 134). -/
def headerFits (mg : List Byte) (d : Desc) (owner : Nat) (isBase : Bool) (layer head : Nat) : Bool :=
  slice mg 0 16 == (pageHeader d owner isBase layer head).take 16

/-- A session entry's 64 bytes (R59). -/
def sessionBytes (x : Session) : List Byte :=
  leBytes 64 (x.skey.toNat + x.part * 2 ^ 64 + x.pfmt * 2 ^ 68 + x.hdim * 2 ^ 72 + x.group * 2 ^ 75 +
    x.state * 2 ^ 78 + x.layersM1 * 2 ^ 80 + x.kvhM1 * 2 ^ 88 + x.windowLen * 2 ^ 96 + x.baseSeq * 2 ^ 128 +
    x.dpfmt * 2 ^ 144 + x.posTable * 2 ^ 160 + x.dirGrain * 2 ^ 192 + x.seed.toNat * 2 ^ 224 + x.stamp * 2 ^ 256)

/-- BASE_SEQ or POS_TABLE of a session without one (R59). -/
def noneId : Nat := 0xFFFF

/-- mix32 (R63). -/
def mix32 (x : Nat) : Nat :=
  let x := x * 0x9E3779B1 % 2 ^ 32
  let x := Nat.xor x (x >>> 15)
  let x := x * 0x85EBCA77 % 2 ^ 32
  Nat.xor x (x >>> 13)

/-- The home jet of page n of (session, layer, KV head), for the partition's groups G in rising order (R63). -/
def homeJet (groups : List Nat) (seed : Word32) (layer head n : Nat) : Nat :=
  let j0 := 512 * groups.length
  let j := (mix32 (Nat.xor (Nat.xor seed.toNat (layer <<< 16)) head) % j0 + n) % j0
  let cis := j % 8
  let group := groups.getD (j / 8 % groups.length) 0
  let pair := j / (8 * groups.length)
  group * 512 + cis * 64 + pair

/-! ### FH_BOOT_STAT and the status registers (13 R413, R430, R439, 07 R215, 10 R329) -/

/-- Ports with link up. -/
def State.portsUp (s : State) : Nat := ((List.range 24).filter fun p => (s.port p).up).length

/-- Milliseconds from reset release, frozen at service open (R413). -/
def State.bootMsNow (s : State) : Nat :=
  if s.boot.stage = 5 then s.boot.bootMs else (s.clk.up - s.boot.resetAt) / 1000000

/-- FH_BOOT_STAT (R413). -/
def State.bootStat (s : State) : Nat :=
  s.boot.stage + s.boot.lastReset * 2 ^ 4 + b2n s.boot.retained * 2 ^ 7 + b2n s.boot.fwImage * 2 ^ 8 +
    b2n s.boot.cfgRestored * 2 ^ 9 + s.boot.failCause * 2 ^ 10 + min s.boot.chLost 255 * 2 ^ 16 +
    s.portsUp * 2 ^ 24 + (s.bootMsNow % 2 ^ 32) * 2 ^ 32

/-- The bin's limits (R28). -/
def State.limits (s : State) : Nat × Nat × Nat × Nat := binLimits s.fuses.bin

/-- LIMIT_W in force: clamped to 300 and the bin limit (R430). -/
def State.limitW (s : State) : Nat := min (max (fld s.pwr.cfg 0 11) 300) s.limits.1

/-- MARGIN_W (R430). -/
def State.marginW (s : State) : Nat := fld s.pwr.cfg 24 8

/-- The jet clock in force in MHz (R428). -/
def State.jetMhz (s : State) : Nat := max (s.limits.2.1 - 25 * s.pwr.level) (s.limits.2.1 / 2)

/-- The confluence clock in force in MHz (R428). -/
def State.cnfMhz (s : State) : Nat := max (s.limits.2.2.1 - 25 * s.pwr.level) (s.limits.2.2.1 / 2)

/-- The power status word at 0x0001_F028 (R430). -/
def State.pwrStat (s : State) : Nat :=
  s.pwr.level + s.jetMhz * 2 ^ 8 + s.cnfMhz * 2 ^ 19 + (s.pwr.avg % 2 ^ 11) * 2 ^ 32 + b2n s.tjHot * 2 ^ 43

/-- Requests still stamped with an older epoch. -/
def State.drainReqs (s : State) : Nat := (s.slc.reqs.filter fun p => decide (p.2.epoch < s.ep.epoch)).length

/-- The pending epoch (R439): before service opens, the commit accepted most recently. -/
def State.pendingNow (s : State) : Option Pend :=
  match s.ep.pend with
  | some p => some p
  | none => s.ep.early.getLast?

/-- Live epochs (R433, R439): the one in force, with a pending or a draining one beside it. -/
def State.liveEpochs (s : State) : Nat := if s.pendingNow.isSome || s.ep.draining then 2 else 1

/-- PEND_SET (R439). -/
def State.pendSet (s : State) : Nat :=
  match s.pendingNow with
  | some p => (match p.what with | .set n => n | .dir _ => 0)
  | none => 0

/-- The word at 0x0001_F018 (R439). -/
def State.epochStat (s : State) : Nat :=
  s.liveEpochs + b2n s.pendingNow.isSome * 2 ^ 2 + b2n s.ep.draining * 2 ^ 3 + s.pendSet * 2 ^ 4 +
    min s.drainReqs (2 ^ 23 - 1) * 2 ^ 9 + b2n s.ep.tickRejected * 2 ^ 32

/-- PEND_TIME (R439). -/
def State.pendTime (s : State) : Nat := match s.ep.pend with | some p => p.time | none => 0

/-- LAG_NS (10 R329): time between the newest local change and APPLIED from the twin, saturating. -/
def State.lagNs (s : State) : Nat := min (s.twin.lastChange - s.twin.applied) (2 ^ 32 - 1)

/-- WT_TWIN_STAT (10 R329). -/
def State.twinStat (s : State) : Nat :=
  s.twin.state + b2n s.twin.cfgMismatch * 2 ^ 3 + s.lagNs * 2 ^ 32 + s.twin.lastApplied * 2 ^ 64

/-- A history record's 32 bytes (12 R404). -/
def recordBytes (r : FltRec) : List Byte :=
  leBytes 32 (r.stamp + r.srcIndex * 2 ^ 64 + r.srcKind * 2 ^ 84 + r.cls * 2 ^ 88 + r.scope * 2 ^ 90 +
    r.verdict * 2 ^ 93 + b2n r.part.isSome * 2 ^ 95 + r.part.getD 0 * 2 ^ 96 + r.code * 2 ^ 104 + r.repeats * 2 ^ 112 +
    r.addr * 2 ^ 128 + r.syndrome.toNat * 2 ^ 192)

/-- FLT_FIRST's 32 bytes, zero without a record. -/
def State.firstBytes (s : State) : List Byte :=
  match s.flt.first with | some r => recordBytes r | none => List.replicate 32 0#8

/-- The fuse state, 16 bytes (11 R369). -/
def State.fuseBytes (s : State) : List Byte :=
  let f := s.fuses
  leBytes 16 (b2n f.prod + b2n f.secureBoot * 2 + b2n f.jtagRestrict * 4 + b2n f.debugUnlocked * 8 +
    f.bin.toNat * 2 ^ 8 + f.fwSvnMin.toNat * 2 ^ 16 + f.serial.toNat * 2 ^ 32)

/-- BAR2_OFF (11 R360). -/
def State.bar2Off (s : State) : Bool := s.cfg.lock.getLsbD 0
/-- OWNER_READ_OFF (11 R360). -/
def State.ownerReadOff (s : State) : Bool := s.cfg.lock.getLsbD 1

/-- The partition of a function: none for the physical function (R354). -/
def fnPart : Fn → Option Nat
  | .pf => none
  | .vf p => some p

end Sys2Proof.Machine
end

