-- ==== Sys2Proof/Machine/Sat.lean ====
section
/-! DEFINITION. FP32 arithmetic that counts the results that saturate (05 R163): each operation rounds once (R161),
flushes (R162), and adds 1 to a count when its magnitude exceeded the largest finite value. -/

namespace Sys2Proof.Machine

/-- A computation that counts saturated results. -/
abbrev Sat (α : Type) : Type := StateM Nat α

/-- Count a result. -/
def satOf (r : F32 × Bool) : Sat F32 := fun n => (r.1, n + b2n r.2)

/-- Run a computation: its value and the number of saturated results. -/
def Sat.go {α : Type} (c : Sat α) : α × Nat := c 0

/-- a + b. -/
def sAdd (a b : F32) : Sat F32 :=
  let v := f32Fix a + f32Fix b
  satOf (f32RoundSat .even (sumNeg a b v) v.natAbs 149)

/-- a − b. -/
def sSub (a b : F32) : Sat F32 := sAdd a (f32Negate b)

/-- a × b. -/
def sMul (a b : F32) : Sat F32 :=
  satOf (f32RoundSat .even (xor (f32Neg a) (f32Neg b)) (f32Mag a * f32Mag b) 298)

/-- a / b; scales are never zero (R165, R166, R170). -/
def sDiv (a b : F32) : Sat F32 :=
  let n := f32Mag a
  let d := f32Mag b
  let s := xor (f32Neg a) (f32Neg b)
  if n = 0 || d = 0 then satOf (f32Div a b, false)
  else
    let q := (n <<< 320) / d
    satOf (f32RoundSat .even s (2 * q + (if (n <<< 320) % d = 0 then 0 else 1)) 321)

/-- An integer as FP32. -/
def sOfInt (v : Int) : Sat F32 := satOf (f32RoundSat .even (decide (v < 0)) v.natAbs 0)

/-- FP32 to BF16 by R160, counting a saturated result. -/
def sBf16 (x : F32) : Sat (BitVec 16) := fun n =>
  let r := bf16OfF32Sat x
  (r.1, n + b2n r.2)

/-- Apply a computation to every element, in order. -/
def sMap {α β : Type} (f : α → Sat β) : List α → Sat (List β)
  | [], n => ([], n)
  | a :: t, n =>
    let (b, n1) := f a n
    let (r, n2) := sMap f t n1
    (b :: r, n2)

/-- Fold a computation over a list, in order. -/
def sFold {α β : Type} (f : β → α → Sat β) : β → List α → Sat β
  | b, [], n => (b, n)
  | b, a :: t, n =>
    let (b1, n1) := f b a n
    sFold f b1 t n1

end Sys2Proof.Machine
end

