-- ==== Sys2Proof/Machine/Quant.lean ====
section
/-! DEFINITION. Quantisation and decoding of K and V rows (05 R165 to R169), the conversion statistics (R178 to R181),
and the FP8 output scale (R172 to R175). -/

namespace Sys2Proof.Machine

/-- The least scale, 2^−126, in BF16. -/
def bf16MinScale : BitVec 16 := 0x0080#16

/-- Clamp an integer to 0..n: the value, and whether it changed. -/
def clampTo (n : Nat) (v : Int) : Nat × Bool :=
  if v < 0 then (0, true) else if (n : Int) < v then (n, true) else (v.toNat, false)

/-- The scale record's 4 bytes (02 R52). -/
def scaleRecord (scale : BitVec 16) (zp flags : Nat) : List Byte :=
  leBytes 2 scale.toNat ++ [BitVec.ofNat 8 zp, BitVec.ofNat 8 flags]

/-- Pack codes of b bits into bytes: element 2i in the low nibble of a 4-bit format (02 R49). -/
def packCodes (b : Nat) (l : List Nat) : List Byte :=
  if b = 4 then (pieces 2 l).map fun p => BitVec.ofNat 8 (p.getD 0 0 + 16 * p.getD 1 0)
  else l.map (BitVec.ofNat 8 ·)

/-- The codes of a row's bytes. -/
def unpackCodes (b : Nat) (l : List Byte) : List Nat :=
  if b = 4 then l.flatMap fun x => [x.toNat % 16, x.toNat / 16] else l.map BitVec.toNat

/-- Is every value of a row numerically equal (R165)? -/
def rowConst (x : List F32) : Bool := match x with | [] => true | a :: t => t.all fun b => f32NumEq a b

/-- A CONST row (02 R53): SCALE 0, ZP 0, the common value as BF16 in bytes 0–1 of the code area. -/
def constRow (bytes : Nat) (v : F32) : Sat QRow := do
  let c ← sBf16 v
  return { codes := padTo bytes (leBytes 2 c.toNat), srec := scaleRecord 0#16 0 1 }

/-- The scale of a row: BF16 of s32, at least 2^−126. -/
def rowScale (s32 : F32) : Sat (BitVec 16) := do
  let c ← sBf16 s32
  return if c.toNat < bf16MinScale.toNat then bf16MinScale else c

/-- Quantise a row of FP32 values to unsigned b-bit codes (R165). -/
def quantInt (b : Nat) (x : List F32) : Sat QRow := do
  let bytes := if b = 4 then x.length / 2 else x.length
  if rowConst x then constRow bytes (x.getD 0 0)
  else
    let lo := x.foldl f32MinOf 0#32
    let hi := x.foldl f32MaxOf 0#32
    let n := 2 ^ b - 1
    let d ← sSub hi lo
    let s32 ← sDiv d (f32OfNat n)
    let scale ← rowScale s32
    let sc := bf16Widen scale
    let zq ← sDiv (f32Negate lo) sc
    let zp := clampTo n (f32RoundInt zq)
    let qs ← sMap (fun v => sDiv v sc) x
    let cs := qs.map fun q => clampTo n (f32RoundInt q + zp.1)
    let clamped := zp.2 || cs.any Prod.snd
    return { codes := packCodes b (cs.map Prod.fst), srec := scaleRecord scale zp.1 (if clamped then 2 else 0) }

/-- Quantise a row to FP8 (R166). -/
def quantFp8 (x : List F32) : Sat QRow := do
  if rowConst x then constRow x.length (x.getD 0 0)
  else
    let a := x.foldl (fun m v => f32MaxOf m (f32Abs v)) 0#32
    let s32 ← sDiv a (f32OfNat 448)
    let scale ← rowScale s32
    let sc := bf16Widen scale
    let qs ← sMap (fun v => sDiv v sc) x
    let cs := qs.map e4m3OfF32
    return { codes := cs.map Prod.fst, srec := scaleRecord scale 0 (if cs.any Prod.snd then 2 else 0) }

/-- Store a row as BF16: no scale record (R168). -/
def quantBf16 (x : List (BitVec 16)) : QRow :=
  { codes := x.flatMap fun v => leBytes 2 (bf16Flush v).toNat, srec := List.replicate 4 0#8 }

/-- FLAGS of a scale record: CONST, CLAMP (02 R52). -/
def recConst (r : List Byte) : Bool := (r.getD 3 0#8).getLsbD 0
/-- CLAMP of a scale record. -/
def recClamp (r : List Byte) : Bool := (r.getD 3 0#8).getLsbD 1
/-- SCALE of a scale record as FP32. -/
def recScale (r : List Byte) : F32 := bf16Widen (BitVec.ofNat 16 (leAt r 0 2))
/-- ZP of a scale record. -/
def recZp (r : List Byte) : Nat := (r.getD 2 0#8).toNat

/-- Decode a row of a format (R167, 02 R53): BF16 elements as they stand; a CONST row to its value in every element. -/
def decodeRow (pfmt dim : Nat) (r : QRow) : Sat (List F32) := do
  let bf (i : Nat) : F32 := bf16Widen (BitVec.ofNat 16 (leAt r.codes (2 * i) 2))
  if pfmt = 0 || pfmt = 1 then return (List.range dim).map bf
  else if recConst r.srec then return List.replicate dim (bf 0)
  else if pfmt = 2 then sMap (fun c => sMul (recScale r.srec) (e4m3Value c)) (r.codes.take dim)
  else
    let b := if pfmt = 4 || pfmt = 5 then 4 else 8
    sMap (fun (c : Nat) => do
      let v ← sOfInt ((c : Int) - recZp r.srec)
      sMul (recScale r.srec) v) ((unpackCodes b r.codes).take dim)

/-- A row as quantised, with the values it decodes to and whether it counts with zero error (R178). -/
structure Quantised where
  row   : QRow
  back  : List F32
  exact : Bool
  deriving DecidableEq, Repr

/-- Quantise a source row into a page format, against a base row's decoded values within base coverage (R165 to R169):
codes, and the values the elements decode to, reconstructed for a delta format (06 R194). -/
def quantRow (pfmt dim : Nat) (base : List F32) (src : List (BitVec 16)) : Sat Quantised := do
  let x := src.map bf16Widen
  if pfmt = 0 || pfmt = 1 then return { row := quantBf16 src, back := x, exact := true }
  else if pfmt = 2 then
    let r ← quantFp8 x
    let y ← decodeRow 2 dim r
    return { row := r, back := y, exact := recConst r.srec }
  else if pfmt = 3 || pfmt = 4 then
    let r ← quantInt (if pfmt = 4 then 4 else 8) x
    let y ← decodeRow pfmt dim r
    return { row := r, back := y, exact := recConst r.srec }
  else
    let d ← sMap (fun (p : F32 × F32) => sSub p.1 p.2) (x.zip base)
    let r ← quantInt (if pfmt = 5 then 4 else 8) d
    let e ← decodeRow pfmt dim r
    let y ← sMap (fun (p : F32 × F32) => sAdd p.1 p.2) (base.zip e)
    return { row := r, back := y, exact := recConst r.srec }

/-- Does a source row hold a NaN or an infinity (R163)? -/
def rowSpecial (src : List (BitVec 16)) : Bool := src.any bf16Special

/-- The BF16 values of little-endian bytes. -/
def bf16List (l : List Byte) : List (BitVec 16) := (pieces 2 l).map fun p => BitVec.ofNat 16 (leNat p)

/-! ### Conversion statistics (R178 to R181) -/

/-- The squared terms of one row's elements added to a pair of FP64 sums (R178). -/
def rowTerms (exact : Bool) (x y : List F32) (sse ssq : Word64) : Word64 × Word64 :=
  (x.zip y).foldl (fun a p => (if exact then a.1 else f64Add a.1 (f64SqDiff p.1 p.2), f64Add a.2 (f64Sq p.1)))
    (sse, ssq)

/-- Count one row in a layer's record (R178). -/
def LayerStat.addRow (l : LayerStat) (isV : Bool) (q : Quantised) (src : List (BitVec 16)) : LayerStat :=
  let x := src.map bf16Widen
  let cl := if recClamp q.row.srec then 1 else 0
  if isV then
    let t := rowTerms q.exact x q.back l.vSse l.vSsq
    { l with vSse := t.1, vSsq := t.2, vCnt := satAdd 64 l.vCnt x.length, vClamp := satAdd 64 l.vClamp cl }
  else
    let t := rowTerms q.exact x q.back l.kSse l.kSsq
    { l with kSse := t.1, kSsq := t.2, kCnt := satAdd 64 l.kCnt x.length, kClamp := satAdd 64 l.kClamp cl }

/-- Count one row of a partition and layer. -/
def PartState.addRow (p : PartState) (layer : Nat) (isV : Bool) (q : Quantised) (src : List (BitVec 16)) : PartState :=
  { p with layers := Tbl.modify p.layers layer LayerStat.init fun l => l.addRow isV q src }

/-- Add saturated results to ARITH_SAT (R163). -/
def State.addSat (s : State) (p n : Nat) : State :=
  if n = 0 then s else s.updPart p fun x => { x with arithSat := satAdd 64 x.arithSat n }

/-- A per-layer record's 64 bytes (R180). -/
def layerBytes (l : LayerStat) : List Byte :=
  leBytes 8 l.kSse.toNat ++ leBytes 8 l.kSsq.toNat ++ leBytes 8 l.kCnt ++ leBytes 8 l.kClamp ++ leBytes 8 l.vSse.toNat ++
    leBytes 8 l.vSsq.toNat ++ leBytes 8 l.vCnt ++ leBytes 8 l.vClamp

/-- The statistics header's 64 bytes (R180). -/
def statHeader (p : PartState) : List Byte :=
  leBytes 8 p.clearStamp ++ leBytes 8 p.arithSat ++ leBytes 8 p.osat ++ List.replicate 40 0#8

/-- The compression counters' 64 bytes (06 R198). -/
def compBytes (p : PartState) : List Byte :=
  leBytes 8 p.codedPages ++ leBytes 8 p.rawFallback ++ leBytes 8 p.rawBytes ++ leBytes 8 p.codedBytes ++
    leBytes 8 p.escapes ++ leBytes 8 p.decodeFails ++ leBytes 8 p.coderFaults ++ List.replicate 8 0#8

/-! ### Returned o (R171 to R175) -/

/-- a ≤ b between tick indices (R173). -/
def tickLe (a b : Nat) : Bool := decide ((b + 2 ^ 48 - a % 2 ^ 48) % 2 ^ 48 < 2 ^ 47)

/-- a < b between tick indices (R173). -/
def tickLt (a b : Nat) : Bool := tickLe a b && a % 2 ^ 48 != b % 2 ^ 48

/-- The index of a session's layer in the scale history. -/
def PartState.findScale (p : PartState) (session layer : Nat) : Option (Nat × ScaleRec) :=
  p.scales.find? fun r => r.2.session == session && r.2.layer == layer

/-- The largest |o| that a record's window of OWIN ticks before T holds (R173). -/
def ScaleRec.windowMax (r : ScaleRec) (t owin : Nat) : F32 :=
  (List.range owin).foldl (fun h k =>
    let i := tickSub t (owin - k)
    if tickLe i r.newest && tickLt (tickSub r.newest 16) i then f32MaxOf h (r.slots.getD (i % 16) 0#32) else h) 0#32

/-- OSCALE (R173): from the window's maximum, or the entry's own, at least 2^−126. -/
def chooseOscale (r : Option ScaleRec) (t owin : Nat) (m : F32) : Sat F32 := do
  let h := match r with | some x => x.windowMax t owin | none => 0#32
  let o ← if f32Lt 0#32 h then sDiv h (f32OfNat 448)
          else if f32Lt 0#32 m then sDiv m (f32OfNat 448) else (pure f32One : Sat F32)
  return if f32Lt o f32MinNormal then f32MinNormal else o

/-- A record after an entry with maximum M was quantised in tick T (R175, R177). -/
def ScaleRec.update (r : ScaleRec) (t : Nat) (m : F32) (use : Nat) : ScaleRec :=
  let ahead := tickSub t r.newest
  let r1 := if tickLt r.newest t then
      { r with
        newest := t
        slots := if 16 ≤ ahead then List.replicate 16 0#32
          else (List.range ahead).foldl (fun l k => l.set ((r.newest + 1 + k) % 16) 0#32) r.slots }
    else r
  if tickLt (tickSub r1.newest 16) t then
    { r1 with slots := r1.slots.set (t % 16) (f32MaxOf (r1.slots.getD (t % 16) 0#32) m), lastUse := use }
  else { r1 with lastUse := use }

/-- A closed session's records are no longer valid (R177). -/
def PartState.dropScales (p : PartState) (session : Nat) : PartState :=
  { p with scales := p.scales.filter fun r => r.2.session != session }

/-- The slot a new record takes: the first of 32,768 not in use, else the one used longest ago (R172). -/
def PartState.newScaleSlot (p : PartState) : Nat :=
  if p.scales.length < 32768 then
    ((List.range (p.scales.length + 1)).find? fun i => (Tbl.get? p.scales i).isNone).getD 0
  else
    (p.scales.foldl (fun (b : Nat × Nat) r => if r.2.lastUse < b.2 then (r.1, r.2.lastUse) else b)
      (0, p.useClock + 1)).1

/-- Record an entry's use of the scale history (R172, R175). -/
def PartState.useScale (p : PartState) (session layer t : Nat) (m : F32) : PartState :=
  let p1 := { p with useClock := p.useClock + 1 }
  match p.findScale session layer with
  | some (i, r) => { p1 with scales := Tbl.set p1.scales i (r.update t m p1.useClock) }
  | none =>
    let r : ScaleRec := { session := session, layer := layer, newest := t, slots := List.replicate 16 0#32,
                          lastUse := p1.useClock }
    { p1 with scales := Tbl.set p1.scales p.newScaleSlot (r.update t m p1.useClock) }

/-- A scale history record's 128 bytes (R172). -/
def scaleBytes (r : ScaleRec) : List Byte :=
  leBytes 16 (r.session + r.layer * 2 ^ 24 + (r.newest % 2 ^ 48) * 2 ^ 32 + 2 ^ 80) ++
    padTo 112 (r.slots.flatMap fun v => leBytes 4 v.toNat)

end Sys2Proof.Machine
end

