-- ==== Sys2Proof/Machine/Bf16x.lean ====
section
/-! DEFINITION. The BF16X coder and decoder (06 R185 to R191). A half is 16 × dim BF16 values in token order. -/

namespace Sys2Proof.Machine

/-- The exponent field of a BF16 value. -/
def bfExp (x : BitVec 16) : Nat := field x.toNat 7 8

/-- The sign-mantissa byte of a BF16 value (R185). -/
def bfPlane (x : BitVec 16) : Byte := BitVec.ofNat 8 (x.toNat / 32768 * 128 + x.toNat % 128)

/-- BEXP: the last of the bases with the most exponents in its window of 15 (R189). -/
def chooseBexp (es : List Nat) : Nat :=
  ((List.range 241).foldl (fun (best : Int × Nat) b =>
    let n : Int := (es.filter fun e => decide (b ≤ e ∧ e ≤ b + 14)).length
    if best.1 ≤ n then (n, b) else best) (-1, 0)).2

/-- The symbol of an exponent field under BEXP (R186). -/
def symbolOf (bexp e : Nat) : Nat := if bexp ≤ e ∧ e ≤ bexp + 14 then e - bexp else 15

/-- Insert an item before every element of greater weight, after those not greater. -/
def insertItem (x : Nat × List Nat) : List (Nat × List Nat) → List (Nat × List Nat)
  | [] => [x]
  | y :: t => if x.1 < y.1 then x :: y :: t else y :: insertItem x t

/-- Packages of elements 0 and 1, 2 and 3, and so on; an unpaired last element is dropped (R189). -/
def packagesOf : List (Nat × List Nat) → List (Nat × List Nat)
  | a :: b :: t => (a.1 + b.1, a.2 ++ b.2) :: packagesOf t
  | _ => []

/-- Merge items with packages by weight, an item before a package of equal weight (R189). -/
def mergeItems (items pkgs : List (Nat × List Nat)) : List (Nat × List Nat) :=
  pkgs.foldl (fun l p => insertItem p l) items

/-- The code lengths of the 16 symbols (R189): package-merge, limited to 8 bits. -/
def codeLengths (counts : List Nat) : List Nat :=
  let items := (List.range 16).foldl (fun l i => insertItem (counts.getD i 0 + 1, [i]) l) []
  let final := (List.range 7).foldl (fun l _ => mergeItems items (packagesOf l)) items
  let occ := (final.take 30).flatMap Prod.snd
  (List.range 16).map fun i => occ.count i

/-- The canonical codes (R186): symbols sorted by length then number; each code the previous plus one, shifted by the
difference in length. Entries are (length, code, symbol). -/
def canonicalCodes (lens : List Nat) : List (Nat × Nat × Nat) :=
  let syms := ((List.range 8).map (· + 1)).flatMap fun n =>
    ((List.range 16).filter fun i => lens.getD i 0 == n).map fun i => (n, i)
  (syms.foldl (fun (a : List (Nat × Nat × Nat) × Option (Nat × Nat)) s =>
    let code := match a.2 with
      | none => 0
      | some (n, c) => (c + 1) <<< (s.1 - n)
    (a.1 ++ [(s.1, code, s.2)], some (s.1, code))) ([], none)).1

/-- The n bits of a value, most significant first. -/
def msbBits (n v : Nat) : List Bool := (List.range n).map fun i => v.testBit (n - 1 - i)

/-- The bits of one element: its symbol's code, and the raw field after an escape (R185). -/
def elementBits (codes : List (Nat × Nat × Nat)) (bexp e : Nat) : List Bool :=
  let s := symbolOf bexp e
  match codes.find? fun c => c.2.2 == s with
  | some (n, c, _) => msbBits n c ++ (if s = 15 then msbBits 8 e else [])
  | none => []

/-- Bits packed into bytes, the first bit in bit 7 (R185). -/
def packBits (l : List Bool) : List Byte :=
  (pieces 8 l).map fun p =>
    BitVec.ofNat 8 ((List.range 8).foldl (fun v i => 2 * v + b2n (p.getD i false)) 0)

/-- The bits of bytes, bit 7 first. -/
def unpackBits (l : List Byte) : List Bool := l.flatMap fun b => msbBits 8 b.toNat

/-- DTAG of an uncoded half (R187): over the carry tags of its grains in the layout of 02 R49. -/
def dtagOf (hdim : Nat) (vals : List (BitVec 16)) : Word32 :=
  let raw := padTo (512 * halfGrains 0 hdim) (vals.flatMap fun v => leBytes 2 v.toNat)
  tagRoot ((pieces 512 raw).map crc32c)

/-- A coded half: its stream's bytes, coding header, coded length in bytes, escapes. -/
structure Coded where
  stream  : List Byte
  header  : List Byte
  length  : Nat
  escapes : Nat
  deriving DecidableEq, Repr

/-- The coding header's 64 bytes (R187). -/
def codingHeader (bexp : Nat) (lens : List Nat) (bits : Nat) (tokidx : List Nat) (dtag : Word32) : List Byte :=
  leBytes 64 (1 + bexp * 2 ^ 8 +
    (((List.range 16).foldl (fun v i => v + (lens.getD i 0) * 2 ^ (4 * i)) 0) * 2 ^ 32) + bits * 2 ^ 96 +
    (((List.range 16).foldl (fun v t => v + (tokidx.getD t 0 % 65536) * 2 ^ (16 * t)) 0) * 2 ^ 128) +
    dtag.toNat * 2 ^ 384)

/-- Code a half (R185, R189). -/
def encodeHalf (hdim : Nat) (vals : List (BitVec 16)) : Coded :=
  let dim := dimOf hdim
  let es := vals.map bfExp
  let bexp := chooseBexp es
  let counts := (List.range 16).map fun i => (es.filter fun e => symbolOf bexp e == i).length
  let lens := codeLengths counts
  let codes := canonicalCodes lens
  let toks := (pieces dim es).map fun t => t.flatMap (elementBits codes bexp)
  let starts := (List.range 16).map fun t => ((toks.take t).map List.length).foldl (· + ·) 0
  let bits := toks.flatten
  let exp := packBits bits
  { stream := vals.map bfPlane ++ exp
    header := codingHeader bexp lens bits.length starts (dtagOf hdim vals)
    length := 16 * dim + exp.length
    escapes := counts.getD 15 0 }

/-- Does a coded half fit its slot (R188)? -/
def halfFits (hdim : Nat) (c : Coded) : Bool := decide (c.length ≤ 22 * dimOf hdim)

/-- Read one symbol from a bit list: the symbol and the rest. -/
def readSymbol (codes : List (Nat × Nat × Nat)) : Nat → Nat → Nat → List Bool → Option (Nat × List Bool)
  | 0, _, _, _ => none
  | _ + 1, _, _, [] => none
  | fuel + 1, n, v, b :: t =>
    let v' := 2 * v + b2n b
    match codes.find? fun c => c.1 == n + 1 && c.2.1 == v' with
    | some c => some (c.2.2, t)
    | none => readSymbol codes fuel (n + 1) v' t

/-- Decode n exponent fields from a bit list; none when the stream ends early or an escape carries 255 (R191). -/
def readExps (codes : List (Nat × Nat × Nat)) (bexp : Nat) : Nat → List Bool → Option (List Nat × List Bool)
  | 0, l => some ([], l)
  | n + 1, l =>
    match readSymbol codes 8 0 0 l with
    | none => none
    | some (15, t) =>
      let e := (t.take 8).foldl (fun v b => 2 * v + b2n b) 0
      if t.length < 8 || e == 255 then none
      else match readExps codes bexp n (t.drop 8) with
        | none => none
        | some (r, u) => some (e :: r, u)
    | some (i, t) =>
      match readExps codes bexp n t with
      | none => none
      | some (r, u) => some ((bexp + i) :: r, u)

/-- The values of decoded exponents and the plane's bytes. -/
def joinHalf (plane : List Byte) (es : List Nat) : List (BitVec 16) :=
  (plane.zip es).map fun p => BitVec.ofNat 16 (p.1.toNat / 128 * 32768 + p.2 * 128 + p.1.toNat % 128)

/-- Header check of R191. -/
def headerOk (h : List Byte) (dim : Nat) : Bool :=
  let v := leAt h 0 64
  let lens := (List.range 16).map fun i => field v (32 + 4 * i) 4
  field v 0 8 == 1 && fieldZero v 16 16 && fieldZero v 416 96 && decide (field v 8 8 ≤ 240) &&
    lens.all (fun n => decide (1 ≤ n ∧ n ≤ 8)) &&
    (lens.map fun n => 2 ^ (8 - n)).foldl (· + ·) 0 == 256 && field v 128 16 == 0 &&
    decide (field v 96 32 ≤ 48 * dim)

/-- Decode a half and apply every check of R191: its values, or the check that fails, 1 Header, 2 Count, 3 Boundary,
4 Tag. -/
def decodeHalf (hdim : Nat) (stream header : List Byte) : Except Nat (List (BitVec 16)) :=
  let dim := dimOf hdim
  let v := leAt header 0 64
  if !headerOk header dim then .error 1
  else
    let lens := (List.range 16).map fun i => field v (32 + 4 * i) 4
    let codes := canonicalCodes lens
    let bexp := field v 8 8
    let nbits := field v 96 32
    let all := unpackBits ((stream.drop (16 * dim)).take (cdiv nbits 8))
    let bits := all.take nbits
    let starts := ((List.range 16).map fun t => field v (128 + 16 * t) 16) ++ [nbits]
    let toks := (List.range 16).map fun t => readExps codes bexp dim (bits.drop (starts.getD t 0))
    let ends := (List.range 16).all fun t =>
      match toks.getD t none with
      | some r => bits.length - r.2.length == starts.getD (t + 1) 0
      | none => false
    if bits.length != nbits || (all.drop nbits).any id || toks.any Option.isNone then .error 2
    else if !ends then .error 3
    else
      let vals := joinHalf (stream.take (16 * dim)) (toks.flatMap fun t => (t.map Prod.fst).getD [])
      if dtagOf hdim vals = BitVec.ofNat 32 (field v 384 32) then .ok vals else .error 4

end Sys2Proof.Machine
end

