-- ==== Sys2Proof/Machine/Aes.lean ====
section
/-! DEFINITION. AES-256 in Galois/Counter Mode (FIPS 197, SP 800-38D): the protection of Woarnys transport frames
(08 R233, 11 R379) and the wrap of key blobs (11 R373). Bytes are numbers below 256 inside this file. -/

namespace Sys2Proof.Machine

/-- The S-box, byte x at bits [8x + 7 : 8x]. -/
def aesSboxTable : Nat := 0x16bb54b00f2d99416842e6bf0d89a18cdf2855cee9871e9b948ed9691198f8e19e1dc186b95735610ef6034866b53e708a8bbd4b1f74dde8c6b4a61c2e2578ba08ae7a65eaf4566ca94ed58d6d37c8e779e4959162acd3c25c2406490a3a32e0db0b5ede14b8ee4688902a22dc4f816073195d643d7ea7c41744975fec130ccdd2f3ff1021dab6bcf5389d928f40a351a89f3c507f02f94585334d43fbaaefd0cf584c4a39becb6a5bb1fc20ed00d153842fe329b3d63b52a05a6e1b1a2c830975b227ebe28012079a059618c323c7041531d871f1e5a534ccf73f362693fdb7c072a49cafa2d4adf04759fa7dc982ca76abd7fe2b670130c56f6bf27b777c63

/-- Doubling in GF(2^8), byte x at bits [8x + 7 : 8x]. -/
def aesDoubleTable : Nat := 0xe5e7e1e3edefe9ebf5f7f1f3fdfff9fbc5c7c1c3cdcfc9cbd5d7d1d3dddfd9dba5a7a1a3adafa9abb5b7b1b3bdbfb9bb858781838d8f898b959791939d9f999b656761636d6f696b757771737d7f797b454741434d4f494b555751535d5f595b252721232d2f292b353731333d3f393b050701030d0f090b151711131d1f191bfefcfaf8f6f4f2f0eeeceae8e6e4e2e0dedcdad8d6d4d2d0cecccac8c6c4c2c0bebcbab8b6b4b2b0aeacaaa8a6a4a2a09e9c9a98969492908e8c8a88868482807e7c7a78767472706e6c6a68666462605e5c5a58565452504e4c4a48464442403e3c3a38363432302e2c2a28262422201e1c1a18161412100e0c0a0806040200

/-- The S-box of a byte. -/
def aesSbox (x : Nat) : Nat := (aesSboxTable >>> (8 * x)) % 256

/-- Twice a byte in GF(2^8). -/
def aesDouble (x : Nat) : Nat := (aesDoubleTable >>> (8 * x)) % 256

/-- Exclusive-or of two lists of bytes. -/
def xorBytes (a b : List Nat) : List Nat := List.zipWith Nat.xor a b

/-- ShiftRows on the sixteen bytes in column order. -/
def aesShiftRows (s : List Nat) : List Nat :=
  [0, 5, 10, 15, 4, 9, 14, 3, 8, 13, 2, 7, 12, 1, 6, 11].map fun i => s.getD i 0

/-- MixColumns on one column. -/
def aesMixColumn (c : List Nat) : List Nat :=
  match c with
  | [a, b, d, e] =>
    let t := a ^^^ b ^^^ d ^^^ e
    [a ^^^ t ^^^ aesDouble (a ^^^ b), b ^^^ t ^^^ aesDouble (b ^^^ d),
     d ^^^ t ^^^ aesDouble (d ^^^ e), e ^^^ t ^^^ aesDouble (e ^^^ a)]
  | _ => c

/-- One full round with its round key. -/
def aesRound (s rk : List Nat) : List Nat :=
  xorBytes ((pieces 4 (aesShiftRows (s.map aesSbox))).flatMap aesMixColumn) rk

/-- The next words of the key schedule: from the last eight words, newest last, eight more; rc is the round
constant. -/
def aesExpandStep (w : List (List Nat)) (rc : Nat) : List (List Nat) :=
  let g := fun i => w.getD i []
  let t := match g 7 with
    | [a, b, c, d] => [aesSbox b ^^^ rc, aesSbox c, aesSbox d, aesSbox a]
    | x => x
  let w0 := xorBytes (g 0) t
  let w1 := xorBytes (g 1) w0
  let w2 := xorBytes (g 2) w1
  let w3 := xorBytes (g 3) w2
  let w4 := xorBytes (g 4) (w3.map aesSbox)
  let w5 := xorBytes (g 5) w4
  let w6 := xorBytes (g 6) w5
  [w0, w1, w2, w3, w4, w5, w6, xorBytes (g 7) w6]

/-- The key schedule over the round constants. -/
def aesExpand : List Nat → List (List Nat) → List (List Nat)
  | [], w => w
  | rc :: rcs, w => w ++ aesExpand rcs (aesExpandStep w rc)

/-- The fifteen round keys of AES-256. -/
def aesKeys (key : Key) : List (List Nat) :=
  let w := pieces 4 ((beBytes 32 key.toNat).map (·.toNat))
  ((pieces 4 (aesExpand [1, 2, 4, 8, 16, 32, 64] w)).map (·.flatten)).take 15

/-- The rounds after the first key. -/
def aesRounds : List (List Nat) → List Nat → List Nat
  | [], s => s
  | [rk], s => xorBytes (aesShiftRows (s.map aesSbox)) rk
  | rk :: rks, s => aesRounds rks (aesRound s rk)

/-- AES-256 of one block under expanded round keys. -/
def aesBlock (rks : List (List Nat)) (blk : List Nat) : List Nat :=
  match rks with
  | [] => blk
  | rk :: rest => aesRounds rest (xorBytes blk rk)

/-- AES-256 of a 128-bit block, most significant byte first. -/
def aes256 (rks : List (List Nat)) (x : Nat) : Nat :=
  (aesBlock rks ((beBytes 16 x).map (·.toNat))).foldl (fun a b => 256 * a + b) 0

/-- Multiplication in GF(2^128), the steps from bit n - 1 of x down: z accumulates, v doubles. -/
def ghashMulGo : Nat → Nat → Nat → Nat → Nat
  | 0, _, z, _ => z
  | n + 1, x, z, v =>
    ghashMulGo n x (if x.testBit n then z ^^^ v else z)
      (if v % 2 = 1 then (v >>> 1) ^^^ 0xE1000000000000000000000000000000 else v >>> 1)

/-- Multiplication in GF(2^128) in GCM's bit order. -/
def ghashMul (x y : Nat) : Nat := ghashMulGo 128 x 0 y

/-- GHASH over bytes, zero-padded to blocks, from a start value. -/
def ghashBytes (h y : Nat) (l : List Byte) : Nat :=
  (pieces 16 l).foldl (fun y b => ghashMul (y ^^^ beNat (slice b 0 16)) h) y

/-- Counter mode over bytes: block i of the stream is the cipher of J0's nonce with counter 2 + i. -/
def gcmCtr (rks : List (List Nat)) (nonce : BitVec 96) : Nat → List (List Byte) → List Byte
  | _, [] => []
  | i, b :: t =>
    List.zipWith (· ^^^ ·) b (beBytes 16 (aes256 rks (nonce.toNat * 2 ^ 32 + i))) ++ gcmCtr rks nonce (i + 1) t

/-- The GCM tag of associated data and ciphertext. -/
def gcmTag (rks : List (List Nat)) (nonce : BitVec 96) (aad ct : List Byte) : BitVec 128 :=
  let h := aes256 rks 0
  let y := ghashBytes h (ghashBytes h 0 aad) ct
  let s := ghashMul (y ^^^ (8 * aad.length * 2 ^ 64 + 8 * ct.length)) h
  BitVec.ofNat 128 (s ^^^ aes256 rks (nonce.toNat * 2 ^ 32 + 1))

/-- Encrypt and tag: ciphertext and tag. -/
def gcmSeal (key : Key) (nonce : BitVec 96) (aad pt : List Byte) : List Byte × BitVec 128 :=
  let rks := aesKeys key
  let ct := gcmCtr rks nonce 2 (pieces 16 pt)
  (ct, gcmTag rks nonce aad ct)

/-- Verify and decrypt: the plaintext when the tag verifies. -/
def gcmOpen (key : Key) (nonce : BitVec 96) (aad ct : List Byte) (tag : BitVec 128) : Option (List Byte) :=
  let rks := aesKeys key
  if gcmTag rks nonce aad ct = tag then some (gcmCtr rks nonce 2 (pieces 16 ct)) else none

end Sys2Proof.Machine
end

