-- ==== Sys2Proof/Machine/Sha.lean ====
section
/-! DEFINITION. SHA-384 (FIPS 180-4), HMAC and HKDF-Expand over it, as 11 R364 to R368 and R373 name them. -/

namespace Sys2Proof.Machine

/-- Round constants 0 to 7 of SHA-512. -/
def shaK0 : List Word64 := [0x428A2F98D728AE22#64, 0x7137449123EF65CD#64, 0xB5C0FBCFEC4D3B2F#64, 0xE9B5DBA58189DBBC#64, 0x3956C25BF348B538#64, 0x59F111F1B605D019#64, 0x923F82A4AF194F9B#64, 0xAB1C5ED5DA6D8118#64]

/-- Round constants 8 to 15 of SHA-512. -/
def shaK1 : List Word64 := [0xD807AA98A3030242#64, 0x12835B0145706FBE#64, 0x243185BE4EE4B28C#64, 0x550C7DC3D5FFB4E2#64, 0x72BE5D74F27B896F#64, 0x80DEB1FE3B1696B1#64, 0x9BDC06A725C71235#64, 0xC19BF174CF692694#64]

/-- Round constants 16 to 23 of SHA-512. -/
def shaK2 : List Word64 := [0xE49B69C19EF14AD2#64, 0xEFBE4786384F25E3#64, 0x0FC19DC68B8CD5B5#64, 0x240CA1CC77AC9C65#64, 0x2DE92C6F592B0275#64, 0x4A7484AA6EA6E483#64, 0x5CB0A9DCBD41FBD4#64, 0x76F988DA831153B5#64]

/-- Round constants 24 to 31 of SHA-512. -/
def shaK3 : List Word64 := [0x983E5152EE66DFAB#64, 0xA831C66D2DB43210#64, 0xB00327C898FB213F#64, 0xBF597FC7BEEF0EE4#64, 0xC6E00BF33DA88FC2#64, 0xD5A79147930AA725#64, 0x06CA6351E003826F#64, 0x142929670A0E6E70#64]

/-- Round constants 32 to 39 of SHA-512. -/
def shaK4 : List Word64 := [0x27B70A8546D22FFC#64, 0x2E1B21385C26C926#64, 0x4D2C6DFC5AC42AED#64, 0x53380D139D95B3DF#64, 0x650A73548BAF63DE#64, 0x766A0ABB3C77B2A8#64, 0x81C2C92E47EDAEE6#64, 0x92722C851482353B#64]

/-- Round constants 40 to 47 of SHA-512. -/
def shaK5 : List Word64 := [0xA2BFE8A14CF10364#64, 0xA81A664BBC423001#64, 0xC24B8B70D0F89791#64, 0xC76C51A30654BE30#64, 0xD192E819D6EF5218#64, 0xD69906245565A910#64, 0xF40E35855771202A#64, 0x106AA07032BBD1B8#64]

/-- Round constants 48 to 55 of SHA-512. -/
def shaK6 : List Word64 := [0x19A4C116B8D2D0C8#64, 0x1E376C085141AB53#64, 0x2748774CDF8EEB99#64, 0x34B0BCB5E19B48A8#64, 0x391C0CB3C5C95A63#64, 0x4ED8AA4AE3418ACB#64, 0x5B9CCA4F7763E373#64, 0x682E6FF3D6B2B8A3#64]

/-- Round constants 56 to 63 of SHA-512. -/
def shaK7 : List Word64 := [0x748F82EE5DEFB2FC#64, 0x78A5636F43172F60#64, 0x84C87814A1F0AB72#64, 0x8CC702081A6439EC#64, 0x90BEFFFA23631E28#64, 0xA4506CEBDE82BDE9#64, 0xBEF9A3F7B2C67915#64, 0xC67178F2E372532B#64]

/-- Round constants 64 to 71 of SHA-512. -/
def shaK8 : List Word64 := [0xCA273ECEEA26619C#64, 0xD186B8C721C0C207#64, 0xEADA7DD6CDE0EB1E#64, 0xF57D4F7FEE6ED178#64, 0x06F067AA72176FBA#64, 0x0A637DC5A2C898A6#64, 0x113F9804BEF90DAE#64, 0x1B710B35131C471B#64]

/-- Round constants 72 to 79 of SHA-512. -/
def shaK9 : List Word64 := [0x28DB77F523047D84#64, 0x32CAAB7B40C72493#64, 0x3C9EBE0A15C9BEBC#64, 0x431D67C49C100D4C#64, 0x4CC5D4BECB3E42B6#64, 0x597F299CFC657E2A#64, 0x5FCB6FAB3AD6FAEC#64, 0x6C44198C4A475817#64]

/-- The 80 round constants. -/
def shaK : List Word64 := shaK0 ++ shaK1 ++ shaK2 ++ shaK3 ++ shaK4 ++ shaK5 ++ shaK6 ++ shaK7 ++ shaK8 ++ shaK9

/-- The initial hash value of SHA-384. -/
def sha384Init : List Word64 := [0xCBBB9D5DC1059ED8#64, 0x629A292A367CD507#64, 0x9159015A3070DD17#64, 0x152FECD8F70E5939#64, 0x67332667FFC00B31#64, 0x8EB44A8768581511#64, 0xDB0C2E0D64F98FA7#64, 0x47B5481DBEFA4FA4#64]

/-- The working variables a to h. -/
structure ShaVars where
  a : Word64
  b : Word64
  c : Word64
  d : Word64
  e : Word64
  f : Word64
  g : Word64
  h : Word64

/-- One round, with the sum of its constant and its schedule word. -/
def shaRound (v : ShaVars) (kw : Word64) : ShaVars :=
  let s1 := v.e.rotateRight 14 ^^^ v.e.rotateRight 18 ^^^ v.e.rotateRight 41
  let ch := (v.e &&& v.f) ^^^ (~~~v.e &&& v.g)
  let t1 := v.h + s1 + ch + kw
  let s0 := v.a.rotateRight 28 ^^^ v.a.rotateRight 34 ^^^ v.a.rotateRight 39
  let mj := (v.a &&& v.b) ^^^ (v.a &&& v.c) ^^^ (v.b &&& v.c)
  { a := t1 + (s0 + mj), b := v.a, c := v.b, d := v.c, e := v.d + t1, f := v.e, g := v.f, h := v.g }

/-- The next schedule word from the last sixteen, oldest first. -/
def shaNext (w : List Word64) : Word64 :=
  let x := fun i => w.getD i 0
  let s0 := (x 1).rotateRight 1 ^^^ (x 1).rotateRight 8 ^^^ (x 1) >>> 7
  let s1 := (x 14).rotateRight 19 ^^^ (x 14).rotateRight 61 ^^^ (x 14) >>> 6
  x 0 + s0 + x 9 + s1

/-- The rounds over the round constants, with the sliding window of sixteen schedule words. -/
def shaRounds : List Word64 → List Word64 → ShaVars → ShaVars
  | [], _, v => v
  | k :: ks, w, v => shaRounds ks (w.drop 1 ++ [shaNext w]) (shaRound v (k + w.headD 0))

/-- One block of 128 bytes into the hash value. -/
def shaBlock (h : List Word64) (blk : List Byte) : List Word64 :=
  let x := fun i => h.getD i 0
  let v := shaRounds shaK ((pieces 8 blk).map fun b => BitVec.ofNat 64 (beNat b))
    { a := x 0, b := x 1, c := x 2, d := x 3, e := x 4, f := x 5, g := x 6, h := x 7 }
  [x 0 + v.a, x 1 + v.b, x 2 + v.c, x 3 + v.d, x 4 + v.e, x 5 + v.f, x 6 + v.g, x 7 + v.h]

/-- The padding of SHA-512: a 1 bit, zeros, the length in bits in 16 bytes. -/
def shaPad (l : List Byte) : List Byte :=
  let n := l.length
  let z := (239 - n % 128) % 128
  l ++ (0x80#8 :: List.replicate z 0) ++ beBytes 16 (8 * n)

/-- The 48 output bytes of SHA-384, in order. -/
def sha384Bytes (l : List Byte) : List Byte :=
  (((pieces 128 (shaPad l)).foldl shaBlock sha384Init).take 6).flatMap fun w => beBytes 8 w.toNat

/-- SHA-384 as a number, its first byte most significant. -/
def sha384 (l : List Byte) : Digest := BitVec.ofNat 384 (beNat (sha384Bytes l))

/-- The bytes of a digest, in output order (11 R365). -/
def digestBytes (d : Digest) : List Byte := beBytes 48 d.toNat

/-- HMAC with SHA-384, for keys of at most 128 bytes. -/
def hmac384 (key msg : List Byte) : List Byte :=
  let k := padTo 128 key
  sha384Bytes (k.map (· ^^^ 0x5C#8) ++ sha384Bytes (k.map (· ^^^ 0x36#8) ++ msg))

/-- HKDF-Expand to 32 bytes: the first block suffices (11 R373). -/
def hkdfExpand32 (prk info : List Byte) : List Byte := (hmac384 prk (info ++ [1#8])).take 32

end Sys2Proof.Machine
end

