-- ==== Sys2Proof/Machine/Tx.lean ====
section
/-! DEFINITION. What the node sends over Woarnys transport: flows and their paths (08 R265, 10 R316), queueing frames
to port classes (09 R295), and the release of ring entries and reservations (09 R281, R292). -/

namespace Sys2Proof.Machine

/-! ### Paths (R265, R316, R349) -/

/-- The position of the twin that P7 and P8 report, when both report the same one, not the node's own (R349). -/
def State.twinPosition (s : State) : Option (BitVec 3) :=
  match (s.port 7).peer, (s.port 8).peer with
  | some a, some b => if a.brdPos = b.brdPos && a.brdPos != s.pins.latched.brdPos then some a.brdPos else none
  | _, _ => none

/-- Does port p meet the twin wiring (R349): its peer reports the same port number at the twin's position? -/
def State.twinWired (s : State) (p : Nat) : Bool :=
  match (s.port p).peer, s.twinPosition with
  | some l, some j => l.port == p && l.brdPos == j
  | _, _ => false

/-- The members of the mirror bond (R314, R316): mirror ports up in direct-link mode to the twin. -/
def State.bond (s : State) : List Nat :=
  s.mirrorPorts.filter fun p => (s.port p).up && (s.port p).direct && s.twinWired p

/-- The ports of a destination's route mask whose link is up: its staged mask, or by default every port up in standard
mode (R265). -/
def State.routePorts (s : State) (dst : Nat) : List Nat :=
  let m := Tbl.getD s.cfg.routes dst 0#24
  (List.range 24).filter fun p => (s.port p).up && (if m = 0#24 then !(s.port p).direct else m.getLsbD p)

/-- The initial entropy value of a flow (R265). -/
def State.entropy0 (s : State) (dst c : Nat) : BitVec 14 :=
  BitVec.ofNat 14 (mix32 (Nat.xor (Nat.xor (s.nodeId <<< 15) (dst <<< 2)) c))

/-- The port an entropy value chooses for a destination: none when no port to it is up (R265). -/
def State.choosePort (s : State) (dst : Nat) (e : BitVec 14) : Option Nat :=
  let l := s.routePorts dst
  if l.isEmpty then none else l[e.toNat % l.length]?

/-- The sender flow to a destination in a class: unused, it begins at sequence 0 with a VOID frame with SYNC (R249). -/
def State.tx (s : State) (dst c : Nat) : TxFlow :=
  Tbl.getD s.wt.tx (4 * dst + c)
    { una := 0, next := 0, sent := [], timerAt := none, expiries := 0, entropy := s.entropy0 dst c, port := none,
      goBack := none, backFrom := none, needSync := true, syncNow := false, backTimer := false, syncAttempt := 0 }

/-- Write a sender flow. -/
def State.setTx (s : State) (dst c : Nat) (x : TxFlow) : State :=
  { s with wt := { s.wt with tx := Tbl.set s.wt.tx (4 * dst + c) x } }

/-- Does the flow run over the mirror bond: class 1 to the twin with a member up (R316)? -/
def State.onBond (s : State) (dst c : Nat) : Bool := c == 1 && dst == s.twinNode && s.pairEn && !s.bond.isEmpty

/-- The queue index of the mirror bond's class 1 frames. -/
def bondPort : Nat := 25
/-- The queue index of frames whose flow has no port. -/
def noPort : Nat := 24

/-- Where a flow queues its frames: the bond, its pinned port while its link is up, or the port its entropy value
chooses. -/
def State.flowPort (s : State) (dst c : Nat) : Nat :=
  if s.onBond dst c then bondPort
  else
    let f := s.tx dst c
    match f.port with
    | some p => if (s.port p).up then p else noPort
    | none => (s.choosePort dst f.entropy).getD noPort

/-- Pin a flow to the port it queues to. -/
def State.pin (s : State) (dst c : Nat) : State :=
  let p := s.flowPort dst c
  if p < 24 then s.setTx dst c { s.tx dst c with port := some p } else s

/-- A queued frame's bytes in the egress buffer (R233, 09 R306). -/
def TxFrame.bytes (f : TxFrame) : Nat :=
  134 + (if f.voided then 0 else match f.pay with | .bytes l => l.length | .window _ _ _ n => n | .mirror _ _ => 8192)

/-- The share of the egress buffer of classes 3 to 11 (09 R306). -/
def egressShare : Nat := 2944 * 1024

/-- The index in `classes` of the frames that wait for room in that share, in the order in which they were queued. -/
def waitClass : Nat := 12

/-- The bytes that classes 3 to 11 of a port hold. -/
def Port.sharedBytes (x : Port) : Nat :=
  ((x.classes.filter fun q => decide (3 ≤ q.1 ∧ q.1 < waitClass)).flatMap fun q => q.2.map TxFrame.bytes).foldl (· + ·) 0

/-- Append a frame to its class; one of classes 3 to 11 waits while their share has no room for it (09 R306, R311). Class 0
and class 1 have a share of their own, so that a frame of theirs leaves in its order whether it waits or not; class 2 takes
from the pool that admission reserved (09 R307). -/
def Port.enqueue1 (x : Port) (f : TxFrame) : Port :=
  let waits := decide (3 ≤ f.pclass) &&
    (!(Tbl.getD x.classes waitClass []).isEmpty || decide (egressShare < x.sharedBytes + f.bytes))
  { x with classes := Tbl.modify x.classes (if waits then waitClass else f.pclass) [] (· ++ [f]) }

/-- Append frames to the classes of a port, in order. -/
def Port.enqueue (x : Port) (l : List TxFrame) : Port := l.foldl Port.enqueue1 x

/-- The frames that wait take the room that has come free (09 R306). -/
def Port.refill (x : Port) : Port :=
  let l := Tbl.getD x.classes waitClass []
  if l.isEmpty then x else { x with classes := Tbl.erase x.classes waitClass }.enqueue l

/-- Is a frame of the flow to dst in class c? -/
def TxFrame.ofFlow (f : TxFrame) (dst c : Nat) : Bool := f.dst.toNat == dst && f.rclass.toNat == c

/-- Every queued frame of a flow, port by port and class by class. -/
def State.queuedOf (s : State) (dst c : Nat) : List TxFrame :=
  s.wt.ports.flatMap fun p => p.2.classes.flatMap fun q => q.2.filter fun f => f.ofFlow dst c

/-- Take every queued frame of a flow out of the port classes. -/
def State.unqueueFlow (s : State) (dst c : Nat) : State :=
  { s with wt := { s.wt with ports := Tbl.mapVals s.wt.ports fun _ x =>
      { x with classes := Tbl.mapVals x.classes fun _ l => l.filter fun f => !f.ofFlow dst c } } }

/-- Queue a flow's frames again at the port it now uses: a move copies nothing (09 R307). -/
def State.requeueFlow (s : State) (dst c : Nat) : State :=
  let l := s.queuedOf dst c
  let t := (s.unqueueFlow dst c).pin dst c
  t.updPort (t.flowPort dst c) fun x => x.enqueue l

/-- Move a flow (R265): e becomes mix32(e + 1) mod 2^14 and the port is chosen again. -/
def State.moveFlow (s : State) (dst c : Nat) : State :=
  let f := s.tx dst c
  let e := BitVec.ofNat 14 (mix32 (f.entropy.toNat + 1))
  let t := s.setTx dst c { f with entropy := e, port := none }
  (t.requeueFlow dst c).count cPathMove 1

/-- The flows whose egress port is p. -/
def State.flowsOn (s : State) (p : Nat) : List (Nat × Nat) :=
  (s.wt.tx.filter fun f => f.2.port == some p).map fun f => (f.1 / 4, f.1 % 4)

/-- A port's link has come up: flows without a port choose one, and the bond takes its class 1 flow back (R316). -/
def State.linkCameUp (s : State) (p : Nat) : State :=
  let waiting := ((s.port noPort).classes.flatMap fun q => q.2).map fun f => (f.dst.toNat, f.rclass.toNat)
  let t := s.each waiting.eraseDups fun t f => t.requeueFlow f.1 f.2
  if t.bond.contains p then t.requeueFlow t.twinNode 1 else t

/-! ### Release (09 R281, R292) -/

/-- Free an entry of a FABRIC ring: CONS advances past the entries released in order (R281). -/
def Queue.release (q : Queue) (ring : Nat) : Queue :=
  let l := q.ring.map fun e => if e.1 = ring then (e.1, true) else e
  let n := (l.takeWhile fun e => e.2).length
  { q with ring := l.drop n, ctx := setField q.ctx 112 16 (qCons q.ctx + n) }

/-- Free a ring entry of queue q. -/
def State.freeRing (s : State) (q ring : Nat) : State := s.updQueue q fun x => x.release ring

/-- Give bytes and descriptors back to a partition's response share (R290, R292). -/
def State.giveBack (s : State) (p bytes descs : Nat) : State :=
  { s with slc := { s.slc with
      shareUse := Tbl.modify s.slc.shareUse p (0, 0) fun u => (u.1 - bytes, u.2 - descs) } }

/-- Take bytes and descriptors from a partition's response share. -/
def State.takeShare (s : State) (p bytes descs : Nat) : State :=
  { s with slc := { s.slc with
      shareUse := Tbl.modify s.slc.shareUse p (0, 0) fun u => (u.1 + bytes, u.2 + descs) } }

/-- A request whose last answer is acknowledged or written leaves the sluice: the rest of its reservation and its ring
entry are released and ADMITTED falls by one (R292). -/
def State.settleReq (s : State) (r : Nat) : State :=
  match s.req? r with
  | none => s
  | some x =>
    if x.complete && x.waitAck == 0 then
      let t := (s.giveBack x.msg.part x.bytes x.descs).dropReq r
      match x.msg.origin with
      | .fabric .. =>
        (t.freeRing x.msg.queue x.msg.ring).updQueue x.msg.queue fun q =>
          { q with ctx := setField q.ctx 128 16 (qAdmitted q.ctx - 1) }
      | .host q .. => t.updQueue q fun q => { q with ctx := setField q.ctx 128 16 (qAdmitted q.ctx - 1) }
      | .hedge .. => t
    else s

/-- A response frame of request r is acknowledged or dropped: its bytes and descriptor are released (R292). -/
def State.releaseFrame (s : State) (r bytes : Nat) : State :=
  match s.req? r with
  | none => s
  | some x =>
    let t := s.giveBack x.msg.part (min bytes x.bytes) (min 1 x.descs)
    (t.setReq r { x with bytes := x.bytes - bytes, descs := x.descs - 1, waitAck := x.waitAck - 1 }).settleReq r

/-- The end of a sent frame whose answer is the node's own: acknowledged, or dropped; a response that is dropped under R261
or R376 counts as lost with its LAST frame (R292). Forwarded messages and mirror messages have more to do (Flow.lean). -/
def State.endFrame (s : State) (f : TxFrame) (drop : Bool) : State :=
  let lost := drop && f.last
  match f.done with
  | .release r b => let t := s.releaseFrame r b; if lost then t.count cRespLost 1 else t
  | .ringFree q e =>
    let t := if f.last then s.freeRing q e else s
    if lost then t.count cRespLost 1 else t
  | .none => if lost && f.rclass = 2#2 then s.count cRespLost 1 else s
  | _ => s

/-! ### Sending -/

/-- Is a peer marked UNREACHABLE (R261)? -/
def State.unreachable (s : State) (n : Nat) : Bool := (Tbl.get? s.wt.unreachable n).isSome

/-- Queue a frame to its flow's port class, or drop it when its peer is UNREACHABLE (R261). -/
def State.queueFrame (s : State) (f : TxFrame) : State :=
  if s.unreachable f.dst.toNat then s.endFrame f true
  else
    let t := s.pin f.dst.toNat f.rclass.toNat
    t.updPort (t.flowPort f.dst.toNat f.rclass.toNat) fun x => x.enqueue [f]

/-- Queue frames in order. -/
def State.queueFrames (s : State) (l : List TxFrame) : State := s.each l fun t f => t.queueFrame f

/-- The fields of a message that all its frames share. -/
structure MsgHead where
  dst     : BitVec 13
  rclass  : BitVec 2
  pclass  : Nat
  opcode  : BitVec 8
  fwd     : Bool
  keySlot : BitVec 10
  window  : BitVec 20
  gen     : BitVec 16
  offset  : Nat
  imm     : BitVec 32
  deriving DecidableEq, Repr

/-- The frames of a message with a payload: pieces of 8,192 bytes, FIRST on the first and LAST on the last, OFFSET
counting on from the head's (R241). IMM stands in the LAST frame of a WRITE_IMM and in every frame otherwise (R240). -/
def msgFrames (h : MsgHead) (msg : Nat) (payload : List Byte) (done : Nat → OnDone) : List TxFrame :=
  let ps := if payload.isEmpty then [[]] else pieces 8192 payload
  (List.range ps.length).map fun i =>
    let b := ps.getD i []
    { dst := h.dst, rclass := h.rclass, pclass := h.pclass, opcode := h.opcode, first := i == 0,
      last := i + 1 == ps.length, fwd := h.fwd, status := 0#8, keySlot := h.keySlot, window := h.window, gen := h.gen,
      offset := BitVec.ofNat 40 (h.offset + 8192 * i),
      imm := if h.opcode = opWriteImm && i + 1 != ps.length then 0#32 else h.imm, pay := .bytes b, msg := msg, voided := false,
      done := done b.length }

/-- Send a message: number it and queue its frames. `done` says what each frame's acknowledgement releases, by its
payload bytes. -/
def State.sendMsg (s : State) (h : MsgHead) (payload : List Byte) (done : Nat → OnDone) : State :=
  let t := { s with slc := { s.slc with nextMsg := s.slc.nextMsg + 1 } }
  t.queueFrames (msgFrames h s.slc.nextMsg payload done)

/-- The head of a response to a request (R240): class 2, the request's KEY_SLOT, WINDOW and GEN. -/
def respHead (dst : BitVec 13) (op : BitVec 8) (keySlot : BitVec 10) (window : BitVec 20) (gen : BitVec 16)
    (imm : BitVec 32) : MsgHead :=
  { dst := dst, rclass := 2#2, pclass := 2, opcode := op, fwd := false, keySlot := keySlot, window := window, gen := gen,
    offset := 0, imm := imm }

/-- The completion WRITE_IMM of an APPEND, INGEST or COMMIT (R244): no payload; IMM[7:0] the status, IMM[31:8] the
request's. -/
def State.sendCompletion (s : State) (dst : BitVec 13) (keySlot : BitVec 10) (window : BitVec 20) (gen : BitVec 16)
    (imm : BitVec 32) (st : Nat) (done : OnDone) : State :=
  s.sendMsg (respHead dst opWriteImm keySlot window gen (BitVec.ofNat 32 (imm.toNat / 256 * 256 + st)))
    [] fun _ => done

end Sys2Proof.Machine
end

