-- ==== Sys2Proof/Machine/Crypto.lean ====
section
/-! DEFINITION. Key slots in use (11 R371 to R376), the GCM nonce (R379), and the sealing and opening of transport
frames (08 R233). -/

namespace Sys2Proof.Machine

/-- A key's lifetime in ns: 60 s for the mirror slots 1–16, 300 s for slot 0 and the job slots (R376). -/
def keyLife (k : Nat) : Nat := if 1 ≤ k ∧ k ≤ 16 then 60000000000 else 300000000000

/-- Is a key of slot k, installed at a time, within its lifetime? -/
def State.keyLives (s : State) (k at0 : Nat) (dead : Bool) : Bool := !dead && decide (s.clk.ftime < at0 + keyLife k)

/-- The send key of a slot with its epoch (R372): K[e], or K[e + 1] in NEXT_TX; none once its lifetime has ended. -/
def State.sendKey (s : State) (k : Nat) : Option (Key × BitVec 8) :=
  let x := s.key k
  match x.st with
  | .active | .nextRx | .retiring => if s.keyLives k x.atOld x.oldDead then some (x.kOld, x.epoch) else none
  | .nextTx => if s.keyLives k x.atNew x.newDead then some (x.kNew, x.epoch + 1#8) else none
  | .empty | .retired => none

/-- The keys a slot accepts on receive, in the order they are tried (R372): key, epoch, whether it is the older of
two. -/
def State.recvKeys (s : State) (k : Nat) : List (Key × BitVec 8 × Bool) :=
  let x := s.key k
  let old (b : Bool) := if s.keyLives k x.atOld x.oldDead then [(x.kOld, x.epoch, b)] else []
  let new := if s.keyLives k x.atNew x.newDead then [(x.kNew, x.epoch + 1#8, false)] else []
  match x.st with
  | .active => old false
  | .nextRx | .nextTx => new ++ old true
  | .empty | .retiring | .retired => []

/-- Does slot 0 hold a key, so that the node sends and accepts frames (R371)? -/
def State.slot0 (s : State) : Bool := (s.sendKey 0).isSome

/-- Does the mirror slot of a partition hold a key (R371)? -/
def State.mirrorKey (s : State) (p : Nat) : Bool := (s.sendKey (p + 1)).isSome

/-- The GCM nonce of a data frame (R379). -/
def nonceData (src dst : BitVec 13) (rclass : BitVec 2) (ext : BitVec 40) (attempt : BitVec 16) (epoch : BitVec 8) :
    BitVec 96 :=
  src ++ dst ++ rclass ++ 0#1 ++ ext ++ attempt ++ epoch ++ 0#3

/-- The GCM nonce of an ACK or NAK (R379): CTL_CTR in place of the sequence. -/
def nonceCtl (src dst : BitVec 13) (ctr : BitVec 40) (epoch : BitVec 8) : BitVec 96 :=
  src ++ dst ++ 0#2 ++ 1#1 ++ ctr ++ 0#16 ++ epoch ++ 0#3

/-- The extended sequence a receiver gives a SEQ from E: the 40-bit value with the same low 24 bits for which
(v − E) mod 2^40 is below 2^23 or at least 2^40 − 2^23 (08 R254). -/
def extendSeq (e : Nat) (seq : BitVec 24) : Nat :=
  let d := (seq.toNat + 2 ^ 24 - e % 2 ^ 24) % 2 ^ 24
  if d < 2 ^ 23 then (e + d) % 2 ^ 40 else (e + d + 2 ^ 40 - 2 ^ 24) % 2 ^ 40

/-- d of a SEQ against E (08 R253): (SEQ − E) mod 2^24. -/
def seqAhead (e : Nat) (seq : BitVec 24) : Nat := (seq.toNat + 2 ^ 24 - e % 2 ^ 24) % 2 ^ 24

/-- Try the keys of a slot on a received frame: its plaintext and whether the older of two keys verified it. -/
def tryKeys (nonce : BitVec 8 → BitVec 96) (aad ct : List Byte) (tag : BitVec 128) :
    List (Key × BitVec 8 × Bool) → Option (List Byte × Bool)
  | [] => none
  | (k, e, old) :: t =>
    match gcmOpen k (nonce e) aad ct tag with
    | some pt => some (pt, old)
    | none => tryKeys nonce aad ct tag t

/-- Open a received frame under its slot, with the extended sequence ext (or CTL_CTR for ACK and NAK). -/
def State.openFrame (s : State) (f : Frame) (ext : Nat) : Option (List Byte × Bool) :=
  let h := f.hdr
  let ctl := (h.opcode = opAck || h.opcode = opNak) && !h.void
  let nonce (e : BitVec 8) :=
    if ctl then nonceCtl h.src h.dst (h.offset.extractLsb' 32 8 ++ h.ctlCtr) e
    else nonceData h.src h.dst h.rclass (BitVec.ofNat 40 ext) h.attempt e
  tryKeys nonce (hdrBytes h) f.body f.tag (s.recvKeys h.keySlot.toNat)

/-- The ciphertext and tag of a data frame under its slot's send key. -/
def State.sealData (s : State) (h : Hdr) (ext : Nat) (pt : List Byte) : Option (List Byte × BitVec 128) :=
  match s.sendKey h.keySlot.toNat with
  | none => none
  | some (k, e) => some (gcmSeal k (nonceData h.src h.dst h.rclass (BitVec.ofNat 40 ext) h.attempt e) (hdrBytes h) pt)

/-- The ciphertext and tag of an ACK or NAK under slot 0's send key. -/
def State.sealCtl (s : State) (h : Hdr) (ctr : BitVec 40) : Option (List Byte × BitVec 128) :=
  match s.sendKey 0 with
  | none => none
  | some (k, e) => some (gcmSeal k (nonceCtl h.src h.dst ctr e) (hdrBytes h) [])

end Sys2Proof.Machine
end

