-- ==== Sys2Proof/Machine/HostQ.lean ====
section
/-! DEFINITION. Completion queues in host memory (09 R287, R288) and the functions' DMA (11 R354). -/

namespace Sys2Proof.Machine

/-- Entries of a ring: 2^LOG2_N. -/
def qSize (v : BitVec 256) : Nat := 2 ^ qLog2 v

/-- Completion entries of queue q that admitted HOST requests have reserved (R290). -/
def State.cqReserved (s : State) (q : Nat) : Nat :=
  (s.slc.reqs.filter fun p => match p.2.msg.origin with
    | .host _ cq _ _ _ => cq == q && !p.2.complete
    | _ => false).length

/-- Free entries of a completion queue beyond those reserved. -/
def State.cqFree (s : State) (q : Nat) : Nat :=
  let v := (s.queue q).ctx
  if qType v = 3 then qSize v - qUsed v - s.cqReserved q else 0

/-- A completion entry's 32 bytes (R287). -/
def completionEntry (st : Nat) (phase : Bool) (kind : Nat) (src window : Nat) (value : BitVec 32) (stamp : Nat) :
    List Byte :=
  leBytes 32 (st + b2n phase * 2 ^ 8 + kind * 2 ^ 9 + src * 2 ^ 16 + window * 2 ^ 32 + value.toNat * 2 ^ 64 +
    stamp * 2 ^ 128)

/-- Write a completion entry: one 32-byte write with the requester ID of the queue's function, then PROD advances, then
VECTOR is signalled when IRQ is set (R281, R287, 11 R354). A queue that is no COMPLETION queue any more takes none. -/
def State.writeCompletion (s : State) (q st kind src window : Nat) (value : BitVec 32) : State :=
  let v := (s.queue q).ctx
  if qType v != 3 then s
  else
  let n := qSize v
  let fn : Fn := match s.ownerOfQueue q with | some p => .vf p | none => .pf
  let phase := (qProd v / n) % 2 == 0
  let t := s.emit (.hostWrite fn (qRing v + 32 * (qProd v % n))
    (completionEntry st phase kind src window value s.clk.ftime))
  let t := t.updQueue q fun x => { x with ctx := setField x.ctx 96 16 (qProd v + 1) }
  if qIrq v then t.emit (.msix fn (qVector v)) else t

/-- Signal a vector of a function. -/
def State.signal (s : State) (fn : Fn) (vec : BitVec 12) : State := s.emit (.msix fn vec.toNat)

end Sys2Proof.Machine
end

