-- ==== Sys2Proof/Machine/Pages.lean ====
section
/-! DEFINITION. Storage of pages: allocation of runs and table grains (02 R55, R61, R66), the four levels of a session's
metadata in grains (R58 to R61), tail pages with write-through (12 R387), sealing (R68), and reading rows back. -/

namespace Sys2Proof.Machine

/-! ### Allocation -/

/-- The ranges of grains that are taken: allocations, and open windows, whose grains the tenant writes. R61 leaves the
places to the allocator; that it keeps out of open windows is a DESIGN CHOICE (assumption 128). -/
def State.taken (s : State) : List (Nat × Nat) :=
  (s.allocs.map fun a => (a.first, a.len)) ++
    ((s.cfg.windows.filter fun p => winValid p.2).map fun p => (winBase p.2, winLen p.2))

/-- The first start from a on, below hi, at which len grains overlap no taken range; `fuel` bounds the jumps. -/
def fitFrom (busy : List (Nat × Nat)) (hi len : Nat) : Nat → Nat → Option Nat
  | 0, _ => none
  | fuel + 1, a =>
    if hi < a + len then none
    else match busy.find? fun r => decide (r.1 < a + len ∧ a < r.1 + r.2) with
      | none => some a
      | some r => fitFrom busy hi len fuel (r.1 + r.2)

/-- A free place for len grains in [lo, hi): searched from a drawn start, then from lo. It finds one if there is one. -/
def State.freePlace (s : State) (lo hi len start : Nat) : Option Nat :=
  let busy := s.taken.filter fun r => decide (r.1 < hi ∧ lo < r.1 + r.2)
  let a := lo + start % (hi - lo)
  match fitFrom busy hi len (busy.length + 1) a with
  | some g => some g
  | none => fitFrom busy hi len (busy.length + 1) lo

/-- Note an allocation. -/
def State.addAlloc (s : State) (a : Alloc) : State := { s with allocs := s.allocs ++ [a] }

/-- Release every allocation that satisfies a test. -/
def State.freeAllocs (s : State) (p : Alloc → Bool) : State := { s with allocs := s.allocs.filter fun a => !p a }

/-- Is a jet's bank pair in use: its channel not lost, the pair not retired (12 R400, 13 R417)? -/
def State.pairLive (s : State) (j : Nat) : Bool :=
  !s.spares.lost.contains (jetChannel j) && !s.spares.deadPairs.contains j

/-- Zero bytes of a run. -/
def zeroRun (len : Nat) : List Byte := List.replicate (512 * len) 0#8

/-- Allocate a run of len grains in a bank pair: the pair's counter gives its WGEN (R55), and every grain is written
with zeros, their tag and that write generation (R66). The first grain and the WGEN. -/
def State.allocRun (s : State) (j len : Nat) (use : Use) : Option (Nat × BitVec 16 × State) :=
  if !s.pairLive j then none
  else
    let (k, t) := s.pick
    match t.freePlace (j * 2 ^ 17) ((j + 1) * 2 ^ 17) len k with
    | none => none
    | some g =>
      let c := (Tbl.getD t.allocCtr j 0 + 1) % 65536
      let w := BitVec.ofNat 16 c
      let t := { t with allocCtr := Tbl.set t.allocCtr j c }
      some (g, w, (t.addAlloc { first := g, len := len, use := use }).putRun g w true (zeroRun len))

/-- Allocate len consecutive grains in some channel group of a partition, for tables and lists (R61): the groups are
tried from a drawn one on. The grains are written with zeros and, as R55 gives a counter to runs alone, with write
generation 0: DESIGN CHOICE (assumption 129). -/
def State.allocGrains (s : State) (p len : Nat) (use : Use) : Option (Nat × State) :=
  let gs := mapGroups (s.pmap p)
  let (k, t) := s.pick
  let order := (List.range gs.length).map fun i => gs.getD ((i + k) % gs.length) 0
  match order.findSome? fun g => t.freePlace (g * 2 ^ 26) ((g + 1) * 2 ^ 26) len k with
  | none => none
  | some g => some (g, (t.addAlloc { first := g, len := len, use := use }).putRun g 0#16 false (zeroRun len))

/-! ### Metadata grains (R58, R61) -/

/-- Replace bytes of a grain and tag it again; its write generation stays. -/
def State.patchGrain (s : State) (g off : Nat) (b : List Byte) : State :=
  s.putGrain g false (s.wgenOf g false) (patch (s.grain g) off b)

/-- The first grain of a session index block's table (R58). -/
def State.tableOf (s : State) (block : Nat) : Option Nat :=
  (s.allocs.find? fun a => decide (a.use = Use.table block)).map (·.first)

/-- Take len consecutive grains of a partition, the first that are free, zeroed. R58 and 09 R283 state no content of such
an area at its assignment: DESIGN CHOICE (assumption 131). -/
def State.placeIn (s : State) (p len : Nat) (use : Use) : State :=
  match (mapGroups (s.pmap p)).findSome? fun g => s.freePlace (g * 2 ^ 26) ((g + 1) * 2 ^ 26) len 0 with
  | some g => (s.addAlloc { first := g, len := len, use := use }).zeroGrains g len
  | none => s

/-- Take len grains of a partition for an area that need not be contiguous: where they do not fit in one piece, each half on
its own. `fuel` bounds the halvings. -/
def State.placePieces (s : State) (p : Nat) (use : Use) : Nat → Nat → State
  | 0, _ => s
  | fuel + 1, len =>
    if len = 0 then s
    else match (mapGroups (s.pmap p)).findSome? fun g => s.freePlace (g * 2 ^ 26) ((g + 1) * 2 ^ 26) len 0 with
      | some g => (s.addAlloc { first := g, len := len, use := use }).zeroGrains g len
      | none => if len = 1 then s else (s.placePieces p use fuel (len / 2)).placePieces p use fuel (len - len / 2)

/-- Put a session's entry into the table that starts at a grain (R59). -/
def State.entryAt (s : State) (g x : Nat) (v : Session) : State :=
  s.patchGrain (g + x % 65536 / 8) (x % 8 * 64) (sessionBytes v)

/-- The table of a session index block is placed, if it is not, with the entries of the block's sessions: at the block's
assignment, and again when an entry is to be stored and there was no room before (R58, assumption 131). -/
def State.needTable (s : State) (p block : Nat) : State :=
  if (s.tableOf block).isSome then s
  else
    let t := s.placeIn p 8192 (.table block)
    match t.tableOf block with
    | none => t
    | some g => t.each (s.sessions.filter fun x => x.1 / 65536 == block) fun t x => t.entryAt g x.1 x.2

/-- Write a session's entry into its block's table (R58, R59). -/
def State.writeEntry (s : State) (x : Nat) (v : Session) : State :=
  let t := s.needTable v.part (x / 65536)
  match t.tableOf (x / 65536) with
  | none => t
  | some g => t.entryAt g x v

/-- Store a session's entry, in State and in its table. -/
def State.putSession (s : State) (x : Nat) (v : Session) : State := (s.setSession x v).writeEntry x v

/-- The key of a (layer, KV head). -/
def lhKey (layer head : Nat) : Nat := 64 * layer + head

/-- An empty (layer, KV head). -/
def LHead.init : LHead := { count := 0, pages := [], top := none, second := [], lists := [], stamp := 0 }

/-- A (layer, KV head) of a session. -/
def Session.head (v : Session) (layer h : Nat) : LHead := Tbl.getD v.heads (lhKey layer h) LHead.init

/-- Is a (layer, KV head) inside a session? -/
def Session.has (v : Session) (layer h : Nat) : Bool := decide (layer ≤ v.layersM1 ∧ h ≤ v.kvhM1)

/-- The (layer, KV head) pairs of a session, in layer-major order. -/
def Session.pairs (v : Session) : List (Nat × Nat) :=
  (List.range (v.layersM1 + 1)).flatMap fun l => (List.range (v.kvhM1 + 1)).map fun h => (l, h)

/-- Write a (layer, KV head)'s directory entry (R61): top index grain and committed count. -/
def State.writeDir (s : State) (v : Session) (layer h : Nat) (x : LHead) : State :=
  let i := layer * (v.kvhM1 + 1) + h
  s.patchGrain (v.dirGrain + i / 64) (i % 64 * 8) (leBytes 4 (x.top.getD 0) ++ leBytes 4 x.count)

/-- Change a (layer, KV head) of a session, in State and in its directory entry. -/
def State.putHead (s : State) (sx layer h : Nat) (x : LHead) : State :=
  match s.session? sx with
  | none => s
  | some v =>
    let v' := { v with heads := Tbl.set v.heads (lhKey layer h) x }
    (s.setSession sx v').writeDir v' layer h x

/-- A grain of an index or a list, allocated when it is first needed. -/
def State.needGrain (s : State) (have_ : Option Nat) (p : Nat) (use : Use) : Option (Nat × Bool × State) :=
  match have_ with
  | some g => some (g, false, s)
  | none => (s.allocGrains p 1 use).map fun r => (r.1, true, r.2)

/-- Make sure that the list grain of page n exists, with the index grains above it (R61). -/
def State.needList (s : State) (sx layer h n : Nat) : Option State :=
  match s.session? sx with
  | none => none
  | some v =>
    let x := v.head layer h
    match s.needGrain x.top v.part (.index sx) with
    | none => none
    | some (top, _, s1) =>
      match s1.needGrain (Tbl.get? x.second (n / 2048)) v.part (.index sx) with
      | none => none
      | some (sec, newSec, s2) =>
        match s2.needGrain (Tbl.get? x.lists (n / 16)) v.part (.list sx layer h (n / 16)) with
        | none => none
        | some (lst, newLst, s3) =>
          let s4 := if newSec then s3.patchGrain top (n / 2048 * 4) (leBytes 4 sec) else s3
          let s5 := if newLst then s4.patchGrain sec (n / 16 % 128 * 4) (leBytes 4 lst) else s4
          some (s5.putHead sx layer h { x with
            top := some top
            second := Tbl.set x.second (n / 2048) sec
            lists := Tbl.set x.lists (n / 16) lst })

/-! ### Pages -/

/-- A page, by its reference. -/
def State.page? (s : State) (r : PageRef) : Option Page :=
  if r.base then
    match Tbl.get? (s.part r.part).bases r.owner with
    | none => none
    | some b => Tbl.get? (Tbl.getD b.heads (lhKey r.layer r.head) LHead.init).pages r.page
  else
    match s.session? r.owner with
    | none => none
    | some v => Tbl.get? (v.head r.layer r.head).pages r.page

/-- Store a page; a session page's descriptor goes into its list grain as one 32-byte write (R54). -/
def State.putPage (s : State) (r : PageRef) (pg : Page) : State :=
  if r.base then
    s.updPart r.part fun p => { p with bases := p.bases.map fun b =>
      if b.1 = r.owner then (b.1, { b.2 with heads := Tbl.modify b.2.heads (lhKey r.layer r.head) LHead.init fun x =>
        { x with pages := Tbl.set x.pages r.page pg } }) else b }
  else
    match s.session? r.owner with
    | none => s
    | some v =>
      let x := v.head r.layer r.head
      let x' := { x with pages := Tbl.set x.pages r.page pg }
      let v' := { v with heads := Tbl.set v.heads (lhKey r.layer r.head) x' }
      let t := s.setSession r.owner v'
      match Tbl.get? x.lists (r.page / 16) with
      | some g => t.patchGrain g (r.page % 16 * 32) (descBytes pg.desc)
      | none => t

/-- Change a page. -/
def State.updPage (s : State) (r : PageRef) (f : Page → Page) : State :=
  match s.page? r with
  | some p => s.putPage r (f p)
  | none => s

/-- A page without copies, from its descriptor. -/
def pageOf (d : Desc) : Page :=
  { desc := d, copy := none, oldCopy := none, oldRuns := [], migr := none, sweepTick := 0, sweeps := 0,
    lastSweep := 0 }

/-- The reference of the base page that page n of a (layer, KV head) of a session links to (R79). -/
def Session.baseRef (v : Session) (layer h n : Nat) : PageRef :=
  { base := true, part := v.part, owner := v.baseSeq, layer := layer, head := h, page := n }

/-- The base sequence of a session, when it names one. -/
def State.baseOf (s : State) (v : Session) : Option BaseSeq :=
  if v.baseSeq = noneId then none else Tbl.get? (s.part v.part).bases v.baseSeq

/-- The resident page index of a base page (R78): the sequence's first index on, in layer-major order. -/
def BaseSeq.index (b : BaseSeq) (layer h n : Nat) : Nat :=
  b.firstIdx + (layer * (b.kvhM1 + 1) + h) * b.npages + n

/-- BASE_IDX of page n of a session: its base page's resident index within base coverage, else no link (R54, R79). -/
def State.linkOf (s : State) (v : Session) (layer h n : Nat) : Nat :=
  match s.baseOf v with
  | some b => if n < b.npages then b.index layer h n else noBase
  | none => noBase

/-- Does page n lie within base coverage (R79)? -/
def State.inCoverage (s : State) (v : Session) (n : Nat) : Bool :=
  match s.baseOf v with | some b => decide (n < b.npages) | none => false

/-- The format of page n of a session: DPFMT within base coverage, else PFMT (R79). -/
def State.fmtOf (s : State) (v : Session) (n : Nat) : Nat := if s.inCoverage v n then v.dpfmt else v.pfmt

/-- The live jet at or after home j in the partition's order; a retired pair is never used again (12 R400). -/
def State.liveJet (s : State) (groups : List Nat) (j : Nat) : Option Nat :=
  let all := groups.flatMap fun g => (List.range 512).map fun i => 512 * g + i
  if s.pairLive j then some j
  else (all.filter fun k => decide (j < k) && s.pairLive k).head? <|> (all.filter s.pairLive).head?

/-- The jet at which page n of a session opens: its base page's pair within base coverage (R64), else R63. -/
def State.pageHome (s : State) (v : Session) (layer h n : Nat) : Option Nat :=
  if s.inCoverage v n then
    (s.page? (v.baseRef layer h n)).bind fun p => s.liveJet (mapGroups (s.pmap v.part)) (grainJet p.desc.grain)
  else
    let gs := mapGroups (s.pmap v.part)
    if gs.isEmpty then none else s.liveJet gs (homeJet gs v.seed layer h n)

/-- The carry tags of a run, in ascending order. -/
def State.runTags (s : State) (d : Desc) : List Word32 :=
  (List.range (runLen d.pfmt d.hdim)).map fun i => s.tagOf (d.grain + i)

/-- The TAG_ROOT of the run a descriptor names (R56). -/
def runRoot (s : State) (d : Desc) : Word32 := tagRoot (s.runTags d)

/-- Open page n of a (layer, KV head): list grain, run at its home jet, descriptor with TAIL and IN_SRAM (R66). For
BF16X the raw BF16 run is reserved, and the tail is held raw. VALID_M1 has no code for a page without a token: 0 until the
first token is in (DESIGN CHOICE, assumption 130). -/
def State.openPage (s : State) (sx layer h n : Nat) : Option State :=
  match s.needList sx layer h n with
  | none => none
  | some s1 =>
    match s1.session? sx with
    | none => none
    | some v =>
      let fmt := s1.fmtOf v n
      let stored := if fmt = 1 then 0 else fmt
      match s1.pageHome v layer h n with
      | none => none
      | some j =>
        let r : PageRef := { base := false, part := v.part, owner := sx, layer := layer, head := h, page := n }
        match s1.allocRun j (runLen stored v.hdim) (.run r) with
        | none => none
        | some (g, w, s2) =>
          let d : Desc :=
            { grain := g, pfmt := stored, validM1 := 0, hdim := v.hdim, cstate := if fmt = 1 then 2 else 0,
              tail := true, inSram := true, contained := false, wgen := w, tagRoot := 0#32,
              baseIdx := s1.linkOf v layer h n, stamp := s2.clk.ftime, tokenPos := 16 * n }
          let d := { d with tagRoot := runRoot s2 d }
          some (s2.putPage r { pageOf d with copy := some (.tail []) })

/-! ### The content of a run (R47 to R53) -/

/-- The bytes of one half of a run. -/
def State.halfBytes (s : State) (d : Desc) (isV : Bool) : List Byte :=
  let l := runLen d.pfmt d.hdim
  (if isV then vGrains d.grain l else kGrains d.grain l).flatMap s.grain

/-- The meta grain's address. -/
def metaGrain (d : Desc) : Nat := d.grain + runLen d.pfmt d.hdim - 1

/-- A row t of an uncoded half, from its bytes and the meta grain's (R49, R50). -/
def rowAt (d : Desc) (half mg : List Byte) (isV : Bool) (t : Nat) : QRow :=
  let n := rowBytes d.pfmt (dimOf d.hdim)
  { codes := slice half (n * t) n, srec := slice mg ((if isV then 128 else 64) + 4 * t) 4 }

/-- The 16 rows of a half as stored; a BF16X half is decoded, or the check of 06 R191 that fails. -/
def halfRows (d : Desc) (half mg : List Byte) (isV : Bool) : Except Nat (List QRow) :=
  if d.pfmt = 1 then
    (decodeHalf d.hdim half (slice mg (if isV then 256 else 192) 64)).map fun vals =>
      (pieces (dimOf d.hdim) vals).map fun r => quantBf16 r
  else .ok ((List.range 16).map fun t => rowAt d half mg isV t)

/-- A failing check as the readers of pages pass it on: fault code, grain, syndrome. Of a decode failure the syndrome
holds the failed check of the K half in [3:0] and of the V half in [7:4], 0 where none failed. -/
abbrev Failing := Nat × Nat × Word64

/-- The rows of both halves of a page, or the decode failure of one half or of both (06 R192). -/
def bothHalves (d : Desc) (k v mg : List Byte) : Except Failing (List QRow × List QRow) :=
  match halfRows d k mg false, halfRows d v mg true with
  | .ok a, .ok b => .ok (a, b)
  | .error i, .ok _ => .error (0x05, d.grain, BitVec.ofNat 64 i)
  | .ok _, .error j => .error (0x05, d.grain, BitVec.ofNat 64 (16 * j))
  | .error i, .error j => .error (0x05, d.grain, BitVec.ofNat 64 (i + 16 * j))

/-- The bytes of a half from its rows, zero after the last (R49). -/
def layHalf (pfmt hdim : Nat) (rows : List QRow) : List Byte :=
  padTo (512 * halfGrains pfmt hdim) (rows.flatMap QRow.codes)

/-- The bytes of the meta grain (R50): page header, scale records of the valid tokens, coding headers. -/
def layMeta (hdr : List Byte) (ks vs : List QRow) (kc vc : List Byte) : List Byte :=
  padTo 512 (hdr ++ padTo 64 (ks.flatMap QRow.srec) ++ padTo 64 (vs.flatMap QRow.srec) ++ padTo 64 kc ++ padTo 64 vc)

/-- The grains of a run in ascending order from its halves and meta grain: bank by bank (R48). -/
def layRun (first len : Nat) (k v mg : List Byte) : List Byte :=
  let ks := pieces 512 k
  let vs := pieces 512 v
  ((List.range (len - 1)).flatMap fun i =>
    let n := ((List.range i).filter fun m => (first + m) % 2 == (first + i) % 2).length
    if (first + i) % 2 == 0 then padTo 512 (ks.getD n []) else padTo 512 (vs.getD n [])) ++ mg

/-- The bytes of a whole run. -/
def State.runBytes (s : State) (d : Desc) : List Byte :=
  (List.range (runLen d.pfmt d.hdim)).flatMap fun i => s.grain (d.grain + i)

/-- What the checks of a run find: the first failing grain's code and address; then TAG_ROOT (12 R382). A CONTAINED
page, and a lost place, fail too. -/
def State.checkRun (s : State) (ecc : EccReport) (d : Desc) : Option (Nat × Nat × Word64) :=
  let n := runLen d.pfmt d.hdim
  match (List.range n).findSome? fun i =>
      (s.checkGrain ecc (d.grain + i) (i + 1 == n) d.wgen).map fun c => (c.1, d.grain + i, c.2) with
  | some r => some r
  | none =>
    if s.grainLost d.grain then some (0x02, d.grain, 0#64)
    else if !d.tail && tagRoot (s.runTags d) != d.tagRoot then
      some (0x03, metaGrain d, tagRoot (s.runTags d) ++ d.tagRoot)
    else none

/-- The status that a failed check gives a request (07 R227): TAG and WGEN TAG_MISMATCH, ECC CONTAINED_ERROR, DECODE
DECODE_FAIL. -/
def statusOfCode (code : Nat) : Nat :=
  if code = 0x03 || code = 0x04 then stTag else if code = 0x05 then stDecode else stContained

/-! ### Tail pages -/

/-- The carry tag of a token in SRAM: over its codes and scale records (12 R382). -/
def tokenTag (k v : QRow) : Word32 := crc32c (k.codes ++ v.codes ++ k.srec ++ v.srec)

/-- A token with its tag. -/
def mkToken (k v : QRow) : Token := { k := k, v := v, tag := tokenTag k v }

/-- SRAM bytes of a token: K row, V row and two scale records, none for BF16 (R66, R148). -/
def tokenBytes (pfmt dim : Nat) : Nat := 2 * rowBytes pfmt dim + (if pfmt = 0 || pfmt = 1 then 0 else 8)

/-- The tokens of a tail page. -/
def Page.tailToks (p : Page) : List Token := match p.copy with | some (.tail l) => l | _ => []

/-- The run of a tail page with these tokens, as write-through leaves it: header, codes, scale records (12 R387). -/
def tailRun (d : Desc) (owner layer h : Nat) (toks : List Token) : List Byte :=
  let d' := { d with validM1 := toks.length - 1 }
  layRun d.grain (runLen d.pfmt d.hdim) (layHalf d.pfmt d.hdim (toks.map (·.k)))
    (layHalf d.pfmt d.hdim (toks.map (·.v)))
    (layMeta (pageHeader d' owner false layer h) (toks.map (·.k)) (toks.map (·.v)) [] [])

/-- Write tail tokens through to the page's reserved run, verifying each grain first (12 R384, R387): the new state, or
the failing check. -/
def State.writeThrough (s : State) (ecc : EccReport) (r : PageRef) (d : Desc) (toks : List Token) :
    Except (Nat × Nat × Word64) State :=
  match s.checkRun ecc d with
  | some e => .error e
  | none => .ok (s.putRun d.grain d.wgen true (tailRun d r.owner r.layer r.head toks))

/-- Append tokens to a tail page: SRAM copy, run, descriptor (R71). At most 16 tokens in all. -/
def State.addTokens (s : State) (ecc : EccReport) (r : PageRef) (toks : List Token) :
    Except (Nat × Nat × Word64) State :=
  match s.page? r with
  | none => .ok s
  | some p =>
    let all := p.tailToks ++ toks
    let d := { p.desc with validM1 := all.length - 1, stamp := s.clk.ftime }
    match s.writeThrough ecc r d all with
    | .error e => .error e
    | .ok t => .ok (t.putPage r { p with copy := some (.tail all), desc := { d with tagRoot := runRoot t d } })

/-! ### Sealing (R68) -/

/-- What sealing makes of a page's halves: stored format, coding state, run bytes, length, counters to add. -/
structure Sealed where
  pfmt    : Nat
  cstate  : Nat
  bytes   : List Byte
  coded   : Nat
  escapes : Nat
  fault   : Bool
  deriving DecidableEq, Repr

/-- Form the run of a sealed page (R68, 06 R188, R190): a BF16X page coded when both halves fit and decode back. -/
def sealForm (d : Desc) (wantX : Bool) (owner : Nat) (isBase : Bool) (layer h : Nat) (ks vs : List QRow) : Sealed :=
  let raw (cst : Nat) (f : Bool) : Sealed :=
    let d' := { d with validM1 := 15, tail := false, cstate := cst }
    { pfmt := d.pfmt, cstate := cst, coded := 0, escapes := 0, fault := f,
      bytes := layRun d.grain (runLen d.pfmt d.hdim) (layHalf d.pfmt d.hdim ks) (layHalf d.pfmt d.hdim vs)
        (layMeta (pageHeader d' owner isBase layer h) ks vs [] []) }
  if !wantX then raw d.cstate false
  else
    let kv := bf16List (ks.flatMap QRow.codes)
    let vv := bf16List (vs.flatMap QRow.codes)
    let kc := encodeHalf d.hdim kv
    let vc := encodeHalf d.hdim vv
    if !(halfFits d.hdim kc && halfFits d.hdim vc) then raw 2 false
    else if (decodeHalf d.hdim (padTo (512 * halfGrains 1 d.hdim) kc.stream) kc.header).toOption != some kv ||
        (decodeHalf d.hdim (padTo (512 * halfGrains 1 d.hdim) vc.stream) vc.header).toOption != some vv then raw 2 true
    else
      let d' := { d with pfmt := 1, cstate := 1, validM1 := 15, tail := false }
      { pfmt := 1, cstate := 1, coded := kc.length + vc.length, escapes := kc.escapes + vc.escapes, fault := false,
        bytes := layRun d.grain (runLen 1 d.hdim) (padTo (512 * halfGrains 1 d.hdim) kc.stream)
          (padTo (512 * halfGrains 1 d.hdim) vc.stream)
          (layMeta (pageHeader d' owner isBase layer h) [] [] kc.header vc.header) }

/-- The compression counters after a page was sealed (06 R190, R198). -/
def PartState.countSeal (p : PartState) (wantX : Bool) (hdim : Nat) (z : Sealed) : PartState :=
  if !wantX then p
  else if z.fault then { p with coderFaults := satAdd 64 p.coderFaults 1 }
  else if z.cstate = 1 then
    { p with
      codedPages := satAdd 64 p.codedPages 1
      codedBytes := satAdd 64 p.codedBytes z.coded
      rawBytes := satAdd 64 p.rawBytes (2 * 32 * dimOf hdim)
      escapes := satAdd 64 p.escapes z.escapes }
  else { p with rawFallback := satAdd 64 p.rawFallback 1 }

/-- Write a sealed page into its run: the run, its descriptor, the surplus grains released, the counters (R68). The
SRAM copy stays as `oldCopy` until no request reads it (SRAM_COPY_RELEASE). -/
def State.sealPage (s : State) (r : PageRef) (p : Page) (wantX : Bool) (ks vs : List QRow) : State :=
  let z := sealForm { p.desc with stamp := s.clk.ftime } wantX r.owner r.base r.layer r.head ks vs
  let s1 := s.putRun p.desc.grain p.desc.wgen true z.bytes
  let d := { p.desc with
    pfmt := z.pfmt, cstate := z.cstate, tail := false, inSram := false, validM1 := 15, stamp := s.clk.ftime }
  let d := { d with tagRoot := runRoot s1 d }
  let n := runLen z.pfmt p.desc.hdim
  let s2 := { s1 with allocs := s1.allocs.map fun (a : Alloc) => if a.first = p.desc.grain then { a with len := n } else a }
  let s3 := s2.updPart r.part fun x => x.countSeal wantX p.desc.hdim z
  let s4 := if z.fault then
      s3.fault
        { code := 0x08, srcKind := 7, srcIndex := 0, part := some r.part, addr := p.desc.grain, syndrome := 0#64,
          place := none }
    else s3
  s4.putPage r { p with desc := d, copy := none, oldCopy := p.copy }

/-! ### SRAM use (07 R201, R202) -/

/-- Does any (layer, KV head) of a session want BF16X for page n? -/
def State.wantsX (s : State) (v : Session) (n : Nat) : Bool := s.fmtOf v n == 1

/-- SRAM bytes of a copy of a page. -/
def copyBytes (d : Desc) : Option Copy → Nat
  | none => 0
  | some (.tail l) => l.length * tokenBytes d.pfmt (dimOf d.hdim)
  | some (.promoted b _ _) => b.length

/-- Every page of a partition: its sessions' and its base sequences'. -/
def State.pagesOf (s : State) (p : Nat) : List (PageRef × Page) :=
  let ofHeads (base : Bool) (owner : Nat) (hs : Tbl LHead) : List (PageRef × Page) :=
    hs.flatMap fun h => h.2.pages.map fun g =>
      ({ base := base, part := p, owner := owner, layer := h.1 / 64, head := h.1 % 64, page := g.1 }, g.2)
  ((s.sessions.filter fun x => x.2.part == p).flatMap fun x => ofHeads false x.1 x.2.heads) ++
    ((s.part p).bases.flatMap fun b => ofHeads true b.1 b.2.heads)

/-- The parent nibble of candidate i (04 R131). -/
def parentOf (tree : Word64) (i : Nat) : Nat := fld tree (4 * i) 4

/-- The ancestors of candidate i, itself first; `fuel` bounds them. -/
def treePath (tree : Word64) : Nat → Nat → List Nat
  | 0, _ => []
  | fuel + 1, i => i :: (if parentOf tree i < i then treePath tree fuel (parentOf tree i) else [])

/-- The depth of candidate i (04 R131). -/
def depthOf (tree : Word64) (i : Nat) : Nat := (treePath tree 16 i).length - 1

/-- The format in which SRAM holds tokens of page n: BF16X tokens are held raw (02 R66). -/
def State.tokenFmt (s : State) (v : Session) (n : Nat) : Nat := if s.fmtOf v n = 1 then 0 else s.fmtOf v n

/-- SRAM bytes of a provisional set: each candidate in the format of its own position's page (04 R148). -/
def State.provBytes (s : State) (x : ProvSet) : Nat :=
  match s.session? x.session with
  | some v => ((List.range x.toks.length).map fun i =>
      tokenBytes (s.tokenFmt v ((x.qpos + depthOf x.tree i) / 16)) (dimOf v.hdim)).foldl (· + ·) 0
  | none => 0

/-- Is a provisional set held: none whose hold has ended counts (04 R146, R147, R158)? -/
def State.holdsSet (s : State) (x pset layer h : Nat) : Bool :=
  s.provs.any fun z => z.session == x && z.pset == pset && z.layer == layer && z.head == h && decide (s.clk.ftime < z.expiry)

/-- Dynamic-area bytes in use by a partition. -/
def State.sramUsed (s : State) (p : Nat) : Nat :=
  ((s.pagesOf p).map fun g => copyBytes g.2.desc g.2.copy + copyBytes g.2.desc g.2.oldCopy).foldl (· + ·) 0 +
    ((s.provs.filter fun x => (s.session? x.session).any fun v => v.part == p).map s.provBytes).foldl (· + ·) 0

/-- Bytes that the sub-banks lost without a spare take from a slice: 64 KiB each (12 R399, R400). -/
def State.lostBytes (s : State) (slice : Nat) : Nat := (Tbl.getD s.spares.subBanks slice 0 - 20) * 65536

/-- The dynamic area of a partition in bytes (R201). -/
def State.sramSize (s : State) (p : Nat) : Nat :=
  (mapSlices (s.pmap p)).length * 22 * 1048576 - (4 * 1048576 + 65536) - fld (s.tierCfg p) 32 4 * 1048576 -
    ((mapSlices (s.pmap p)).map s.lostBytes).foldl (· + ·) 0

/-- Does a slice of a partition still hold its queue contexts, and the lowest-numbered one the fixed area (R201, 12 R400)? -/
def State.sliceHolds (s : State) (p slice : Nat) : Bool :=
  decide ((if (mapSlices (s.pmap p)).head? = some slice then 6 * 1048576 + 65536 else 2 * 1048576) + s.lostBytes slice ≤
    24 * 1048576)

/-- A sub-bank is lost with no spare left: the slice runs on what remains, and its partition is fenced when its fixed area or
queue contexts no longer fit (12 R400). -/
def State.loseSubBank (s : State) (slice idx : Nat) : State :=
  let t := s.spareEvent false 2 idx
  let t := { t with spares := { t.spares with subBanks := Tbl.modify t.spares.subBanks slice 20 (· + 1) } }
  match (List.range 16).find? fun p => (mapSlices (t.pmap p)).contains slice with
  | some p => if t.sliceHolds p slice then t else t.fence p
  | none => t

/-- Free bytes of a partition's dynamic area. -/
def State.sramFree (s : State) (p : Nat) : Nat := s.sramSize p - s.sramUsed p

/-- Is a page promoted? -/
def Page.promoted (p : Page) : Bool := !p.desc.tail && p.desc.inSram

/-- Did a page of an entry resolve the SRAM copy of page r, as its own or as its base page? -/
def Swept.readsCopy (w : Swept) (r : PageRef) : Bool :=
  (decide (w.pg = r) && w.desc.inSram) || w.base.any fun b => decide (b.1 = r) && b.2.inSram

/-- Does an admitted request still read a page with IN_SRAM as it resolved it: it resolved that descriptor and has not
completed (02 R68, R75, 07 R202, R211)? -/
def State.readBy (s : State) (r : PageRef) : Bool :=
  s.slc.reqs.any fun x => !x.2.complete && x.2.entries.any fun e =>
    (e.2.own ++ e.2.jetPages).any fun w => w.readsCopy r

/-- Demote a promoted page (07 R204, R205): the descriptor's IN_SRAM falls; the copy stays while a request reads it. -/
def State.demote (s : State) (r : PageRef) : State :=
  match s.page? r with
  | none => s
  | some p =>
    if p.promoted then
      s.putPage r { p with
        desc := { p.desc with inSram := false }
        copy := none
        oldCopy := if s.readBy r then p.oldCopy <|> p.copy else none }
    else s

/-- May the tier manager move a page: not CONTAINED, its session not in STATE 2, no migration under way (R207)? -/
def State.mayMove (s : State) (r : PageRef) (p : Page) : Bool :=
  !p.desc.contained && p.migr.isNone &&
    (r.base || match s.session? r.owner with | some v => v.state == 1 | none => false)

/-- Demote promoted pages, least recently swept first, until n bytes are free; `fuel` bounds them (R202). -/
def State.makeRoom (s : State) (p n : Nat) : Nat → State
  | 0 => s
  | fuel + 1 =>
    if n ≤ s.sramFree p then s
    else
      match ((s.pagesOf p).filter fun g => g.2.promoted && s.mayMove g.1 g.2).foldl (fun (b : Option (PageRef × Page)) g =>
          match b with
          | none => some g
          | some c => if g.2.lastSweep < c.2.lastSweep then some g else b) none with
      | none => s
      | some g => (s.demote g.1).makeRoom p n fuel

/-- Take n bytes of dynamic space: none when they are neither free nor reclaimable (R67, R202). -/
def State.takeSram (s : State) (p n : Nat) : Option State :=
  let t := s.makeRoom p n (s.pagesOf p).length
  if n ≤ t.sramFree p then some t else none

/-- Does a queued or running jet command name the run at a grain (R206)? -/
def State.runNamed (s : State) (g : Nat) : Bool :=
  s.slc.cmds.any fun c =>
    (c.2.slot.any fun n => (s.jet c.2.jet).queue.contains n || (s.jet c.2.jet).running == some n) &&
      c.2.pages.any fun p => p.2.desc.grain == g

/-- Abandon the migration of a page: its new run is released (R210, R211). -/
def State.abandonMigr (s : State) (r : PageRef) : State :=
  match s.page? r with
  | none => s
  | some p =>
    match p.migr with
    | none => s
    | some m => (s.freeAllocs fun a => a.first == m.newRun).putPage r { p with migr := none }

/-! ### Reading rows back -/

/-- One half of a promoted copy: the grains of its bank without the meta grain (R48). -/
def copyHalf (d : Desc) (b : List Byte) (isV : Bool) : List Byte :=
  (List.range (runLen d.pfmt d.hdim - 1)).flatMap fun i =>
    if (d.grain + i) % 2 == (if isV then 1 else 0) then slice b (512 * i) 512 else []

/-- Does a copy pass its checks: token tags, or a promoted copy's write generation and the tags of its grains
(02 R44, 12 R382)? -/
def Copy.ok (wgen : BitVec 16) : Copy → Bool
  | .tail l => l.all fun t => t.tag == tokenTag t.k t.v
  | .promoted b w tags => w == wgen && (pieces 512 b).map crc32c == tags

/-- Does a meta grain's header name the page whose descriptor this is (R50)? -/
def Page.headerFits (p : Page) (r : PageRef) (mg : List Byte) : Bool :=
  Machine.headerFits mg p.desc r.owner r.base r.layer r.head

/-- The SRAM copy that a descriptor of a page, resolved earlier or now, stands for, with the descriptor that gives its
form: a tail page sealed since has its tail copy in `oldCopy`, and so has a page demoted since (02 R75, 07 R202). -/
def Page.copyAt (p : Page) (d : Desc) : Option (Copy × Desc) :=
  if d.tail && !p.desc.tail then p.oldCopy.map fun c => (c, d)
  else if p.desc.inSram then p.copy.map fun c => (c, p.desc)
  else p.oldCopy.map fun c => (c, d)

/-- The rows of a run, checked. -/
def State.runRows (s : State) (ecc : EccReport) (d : Desc) : Except Failing (List QRow × List QRow) :=
  match s.checkRun ecc d with
  | some e => .error e
  | none => bothHalves d (s.halfBytes d false) (s.halfBytes d true) (s.grain (metaGrain d))

/-- The rows of an SRAM copy. -/
def copyRows (d : Desc) : Copy → Except Failing (List QRow × List QRow)
  | .tail l => .ok (l.map (·.k), l.map (·.v))
  | .promoted b _ _ =>
    bothHalves d (copyHalf d b false) (copyHalf d b true) (slice b (512 * (runLen d.pfmt d.hdim - 1)) 512)

/-- The K and V rows of a page as a descriptor of it was resolved, with what the read finds wrong: from the SRAM copy when
the descriptor says so and the copy passes its tags, else from the run (02 R75, 07 R209 to R211, 12 R382, R387). -/
def State.rowsAt (s : State) (ecc : EccReport) (p : Page) (d : Desc) : Except Failing (List QRow × List QRow) :=
  let run := if p.desc.grain = d.grain then p.desc else d
  match (if d.inSram then p.copyAt d else none) with
  | some (c, e) => if c.ok e.wgen then copyRows e c else s.runRows ecc run
  | none => s.runRows ecc run

/-- The K and V rows of a page as it stands now. -/
def State.pageRows (s : State) (ecc : EccReport) (p : Page) : Except Failing (List QRow × List QRow) :=
  s.rowsAt ecc p p.desc

/-- A copy that fails its tags is recovered: a promoted copy is dropped, a tail page's tokens are read again from the
run, when that passes its checks; the event is CORRECTED (07 R210, 12 R387). -/
def State.recoverCopy (s : State) (ecc : EccReport) (r : PageRef) : State :=
  match s.page? r with
  | none => s
  | some p =>
    match p.copy with
    | none => s
    | some c =>
      if c.ok p.desc.wgen then s
      else
        let t := s.fault
          { code := 0x09, srcKind := 7, srcIndex := 0, part := some r.part, addr := p.desc.grain, syndrome := 0#64,
            place := none }
        match c with
        | .promoted _ _ _ => t.putPage r { p with copy := none, desc := { p.desc with inSram := false } }
        | .tail l =>
          match t.runRows ecc p.desc with
          | .ok (k, v) =>
            let toks := (List.range l.length).map fun i =>
              mkToken (k.getD i { codes := [], srec := [] }) (v.getD i { codes := [], srec := [] })
            t.putPage r { p with copy := some (.tail toks) }
          | .error _ => t

end Sys2Proof.Machine
end

