-- ==== Sys2Proof/Machine/JetArith.lean ====
section
/-! DEFINITION. The arithmetic that the jets and the confluence share (03 R84 to R88, R106, R107; 05 R170; 06 R194,
R195): query operands, page operands, scores, weights, and the sums over a row. -/

namespace Sys2Proof.Machine

/-- The array modes (R84): BF16, FP8, unsigned integer codes, and reconstructed delta rows as signed codes. -/
inductive AMode where
  | bf16 | fp8 | int | delta
  deriving DecidableEq, Repr

/-- The mode of a page format (R84). -/
def modeOf (pfmt : Nat) : AMode :=
  if pfmt = 0 || pfmt = 1 then .bf16 else if pfmt = 2 then .fp8 else if pfmt = 5 || pfmt = 6 then .delta else .int

/-- An operand code's value in FP32: BF16 bits, an E4M3 code, or an integer. -/
def codeValue (m : AMode) (c : Int) : F32 :=
  match m with
  | .bf16 => bf16Widen (BitVec.ofInt 16 c)
  | .fp8 => e4m3Value (BitVec.ofInt 8 c)
  | _ => f32OfZ c

/-- A sum of FP32 terms in order, starting from the first (R84). -/
def sSum : List F32 → Sat F32
  | [] => pure 0#32
  | a :: t => sFold sAdd a t

/-- A sum of products of codes: exact in 32-bit integers, or term by term in FP32 (R84). -/
def codeDot (m : AMode) (a b : List Int) : Sat F32 :=
  match m with
  | .int | .delta => sOfInt ((List.zipWith (· * ·) a b).foldl (· + ·) 0)
  | _ => do
    let ps ← sMap (fun (p : Int × Int) => sMul (codeValue m p.1) (codeValue m p.2)) (a.zip b)
    sSum ps

/-- A sum of codes. -/
def codeSum (m : AMode) (a : List Int) : Sat F32 :=
  match m with
  | .int | .delta => sOfInt (a.foldl (· + ·) 0)
  | _ => sSum (a.map (codeValue m))

/-! ### Query operands (05 R170) -/

/-- A query row as operand codes with its operand scale. -/
structure QOp where
  codes : List Int
  scale : F32
  deriving DecidableEq, Repr

/-- The operand scale a / n, at least 2^-126 unless a is 0. -/
def operandScale (a : F32) (n : Nat) : Sat F32 := do
  if f32IsZero a then return 0#32
  else
    let s ← sDiv a (f32OfNat n)
    return if f32Lt s f32MinNormal then f32MinNormal else s

/-- The largest magnitude of a row. -/
def rowMag (x : List F32) : F32 := x.foldl (fun m v => f32MaxOf m (f32Abs v)) 0#32

/-- Clamp an integer to -n..n. -/
def clampSym (n : Int) (v : Int) : Int := max (-n) (min n v)

/-- A row of FP32 values as signed 8-bit codes with a scale; all codes 0 with the scale 0. -/
def signedOp (x : List F32) (scale : F32) : Sat QOp := do
  let s := scale
  if f32IsZero s then return { codes := x.map fun _ => 0, scale := 0#32 }
  else
    let qs ← sMap (fun v => sDiv v s) x
    return { codes := qs.map fun q => clampSym 127 (f32RoundInt q), scale := s }

/-- Convert a query row for a mode (R170). -/
def queryOp (m : AMode) (q : List (BitVec 16)) : Sat QOp := do
  match m with
  | .bf16 => return { codes := q.map fun v => ((bf16Flush v).toNat : Int), scale := f32One }
  | .fp8 =>
    let x := q.map bf16Widen
    let s ← operandScale (rowMag x) 448
    if f32IsZero s then return { codes := x.map fun _ => 0, scale := 0#32 }
    else
      let qs ← sMap (fun v => sDiv v s) x
      return { codes := qs.map fun v => ((e4m3OfF32 v).1.toNat : Int), scale := s }
  | _ => do
    let x := q.map bf16Widen
    let s ← operandScale (rowMag x) 127
    signedOp x s

/-! ### Page operands -/

/-- A row of a page as the array takes it, from its stored form in an uncoded or decoded format. -/
def opRow (pfmt dim : Nat) (r : QRow) : ORow :=
  let m := modeOf pfmt
  if m = .bf16 then
    { isConst := false, cval := 0#32, codes := (List.range dim).map fun i => (leAt r.codes (2 * i) 2 : Int),
      scale := f32One, zp := 0 }
  else
    { isConst := recConst r.srec, cval := bf16Widen (BitVec.ofNat 16 (leAt r.codes 0 2)),
      codes := ((unpackCodes (if pfmt = 4 || pfmt = 5 then 4 else 8) r.codes).take dim).map fun c => (c : Int),
      scale := recScale r.srec, zp := if pfmt = 2 then 0 else (recZp r.srec : Int) }

/-- A delta row reconstructed against its base row's decoded values, as signed codes (06 R194, R195): σr is a / 127 in FP32,
flushed as 05 R162 says; a σr flushed to 0 takes all codes 0 (assumption 135). -/
def deltaRow (pfmt dim : Nat) (base : List F32) (r : QRow) : Sat ORow := do
  let d ← decodeRow pfmt dim r
  let y ← sMap (fun (p : F32 × F32) => sAdd p.1 p.2) (base.zip d)
  let s ← sDiv (rowMag y) (f32OfNat 127)
  let o ← signedOp y s
  return { isConst := false, cval := 0#32, codes := o.codes, scale := o.scale, zp := 0 }

/-! ### Scores (R86, R88) -/

/-- The score of a query row for one token: its operand codes, its query factor QF, the token's K row, the bias. -/
def scoreOf (m : AMode) (q : List Int) (qf : F32) (k : ORow) (bias : F32) : Sat F32 := do
  let sq ← codeSum m q
  if k.isConst then
    let a ← sMul qf k.cval
    let b ← sMul a sq
    sAdd b bias
  else
    let f ← sMul qf k.scale
    let dot ← codeDot m q k.codes
    let z ← sOfInt k.zp
    let zs ← sMul z sq
    let d ← sSub dot zs
    let v ← sMul f d
    sAdd v bias

/-- The greater of two row maxima; -infinity is below every value. -/
def maxRow (a b : F32) : F32 := if a = f32NegInf then b else if b = f32NegInf then a else f32MaxOf a b

/-- p = e^(s - m) for a score and a row maximum; a masked score gives 0 (R107, R113). -/
def expScore (s m : F32) : Sat F32 := do
  if s = f32NegInf then return 0#32
  else
    let d ← sSub s m
    return f32ExpFn d

/-! ### The weighted sum (R87, R88) -/

/-- A token as PV takes it: its exponential p, whether it is attended, its V row. -/
structure VTok where
  p    : F32
  on   : Bool
  v    : ORow
  deriving DecidableEq, Repr

/-- The array's term for one row and one entry: (W / n) times the sums over the attended tokens whose V row is not
CONST; none when no weight is above 0. -/
def arrayTerm (m : AMode) (dim : Nat) (toks : List VTok) : Sat (Option (List F32)) := do
  let ts := toks.filter fun t => t.on && !t.v.isConst
  let col (d : Nat) := ts.map fun t => t.v.codes.getD d 0
  match m with
  | .bf16 =>
    if !ts.any (fun t => f32Lt 0#32 t.p) then return none
    else
      let us ← sMap (fun (t : VTok) => do let b ← sBf16 t.p; return (b.toNat : Int)) ts
      let r ← sMap (fun d => codeDot .bf16 us (col d)) (List.range dim)
      return some r
  | _ =>
    let ws ← sMap (fun (t : VTok) => sMul t.p t.v.scale) ts
    let w := ws.foldl f32MaxOf 0#32
    if !f32Lt 0#32 w then return none
    else
      let n := if m = .fp8 then 448 else 255
      let us ← sMap (fun x => do
        let a ← sMul (f32OfNat n) x
        let b ← sDiv a w
        return if m = .fp8 then ((e4m3OfF32 b).1.toNat : Int) else f32RoundInt b) ws
      let f ← sDiv w (f32OfNat n)
      let zs ← sOfInt ((List.zipWith (fun u (t : VTok) => u * t.v.zp) us ts).foldl (· + ·) 0)
      let r ← sMap (fun d => do
        let a ← codeDot m us (col d)
        let b ← (if m = .fp8 then (pure a : Sat F32) else sSub a zs)
        sMul f b) (List.range dim)
      return some r

/-- Add one entry to a row of the accumulator: the array's term, then each CONST row in ascending token order. -/
def accEntry (m : AMode) (dim : Nat) (acc : List F32) (toks : List VTok) : Sat (List F32) := do
  let t ← arrayTerm m dim toks
  let a1 ← (match t with
    | some l => sMap (fun (p : F32 × F32) => sAdd p.1 p.2) (acc.zip l)
    | none => (pure acc : Sat (List F32)))
  sFold (fun a (t : VTok) => do
    let x ← sMul t.p t.v.cval
    sMap (fun v => sAdd v x) a) a1 (toks.filter fun t => t.on && t.v.isConst)

/-! ### Rows and masks (R96, R106) -/

/-- The group size of a GROUP code (02 R59). -/
def groupOf (code : Nat) : Nat := 2 ^ code

/-- Is a token outside the sliding window of a row: d >= WINLEN, d the distance of the row from the token? -/
def outOfWindow (rowpos tokpos winlen : Nat) : Bool := decide (winlen ≤ rowpos - tokpos)

/-- FP32 o of a row as the partial carries it: BF16 by R160 when OFMT is 0 (R108). -/
def roundO (ofmt : Nat) (x : F32) : Sat F32 := do
  if ofmt = 0 then
    let b ← sBf16 x
    return bf16Widen b
  else return x

end Sys2Proof.Machine
end

