-- ==== Sys2Proof/Machine/Mirror.lean ====
section
/-! DEFINITION. Mirror records and their transmission (10 R318 to R325), and what a failed check does to the object it
is found in: the event, CONTAINED, the repair request (12 R384 to R388, R393, R395). -/

namespace Sys2Proof.Machine

/-! ### Twin states (R329) -/

/-- UNPAIRED. -/
def twUnpaired : Nat := 0
/-- PAIRED. -/
def twPaired : Nat := 1
/-- SOLO. -/
def twSolo : Nat := 2
/-- JOINING. -/
def twJoining : Nat := 3
/-- RESYNC_SRC. -/
def twSrc : Nat := 4
/-- RESYNC_DST. -/
def twDst : Nat := 5

/-- Does the node serve requests (R329)? -/
def State.twinServes (s : State) : Bool := s.twin.state != twJoining && s.twin.state != twDst

/-- Does the node act alone (R331): SOLO or RESYNC_SRC? -/
def State.solo (s : State) : Bool := s.twin.state == twSolo || s.twin.state == twSrc

/-- Does the node mirror its changes: PAIRED, or RESYNC_SRC, which mirrors changes after s0 as usual (R333)? -/
def State.mirrors (s : State) : Bool := s.twin.state == twPaired || s.twin.state == twSrc

/-- Is the node the one of the pair with the lower node ID? -/
def State.isLower (s : State) : Bool := decide (s.nodeId < s.twinNode)

/-- Is the node the writer of a session index (R325)? An UNPAIRED node has no twin and writes everything. -/
def State.writes (s : State) (x : Nat) : Bool :=
  s.solo || s.twin.state == twUnpaired || (if x % 2 == 0 then s.isLower else !s.isLower)

/-- Is the node the writer of base sequences and position tables (R325)? -/
def State.writesBases (s : State) : Bool := s.solo || s.twin.state == twUnpaired || s.isLower

/-! ### Records (R319, R320) -/

/-- PAGE. -/
def mkPage : Nat := 0x01
/-- TOKENS. -/
def mkTokens : Nat := 0x02
/-- COUNT. -/
def mkCount : Nat := 0x03
/-- SESSION. -/
def mkSession : Nat := 0x04
/-- PROVSET. -/
def mkProvset : Nat := 0x05
/-- GRAINS. -/
def mkGrains : Nat := 0x06
/-- POSTABLE. -/
def mkPostable : Nat := 0x07
/-- UNLOAD. -/
def mkUnload : Nat := 0x08
/-- COMPLETION. -/
def mkCompletion : Nat := 0x09
/-- RETIRE. -/
def mkRetire : Nat := 0x0A
/-- REPAIR_REQ. -/
def mkRepair : Nat := 0x0B

/-- A record with every field zero but its kind, partition and stamp. -/
def State.mrec (s : State) (kind part : Nat) : MRec :=
  { kind := kind, count := 0, stamp := s.clk.ftime, session := 0, layer := 0, head := 0, page := 0, aux := 0,
    base := false, part := part, body := [] }

/-- A record's header (R319). -/
def recHeader (r : MRec) (len : Nat) : List Byte :=
  leBytes 32 (r.kind + r.count * 2 ^ 8 + len * 2 ^ 32 + r.stamp * 2 ^ 64 + r.session * 2 ^ 128 + r.layer * 2 ^ 152 +
    r.head * 2 ^ 160 + r.page * 2 ^ 168 + r.aux * 2 ^ 192)

/-- The page a record names. -/
def MRec.ref (r : MRec) : PageRef :=
  { base := r.base, part := r.part, owner := r.session, layer := r.layer, head := r.head, page := r.page }

/-- A record's body as it is formed at transmission (R251, R320): pages, grains and tables are read then. -/
def State.recBody (s : State) (r : MRec) : List Byte :=
  if r.kind = mkPage then
    match s.page? r.ref with
    | some p =>
      let d := if p.desc.tail then { p.desc with tagRoot := tagRoot (s.runTags p.desc) } else p.desc
      descBytes d ++ s.runBytes p.desc
    | none => []
  else if r.kind = mkGrains then
    r.body ++ (List.range r.count).flatMap fun i => s.grain (leAt r.body 0 4 + i)
  else if r.kind = mkPostable then
    match Tbl.get? (s.part r.part).posTabs r.session with
    | some t => (List.range t.grains).flatMap fun i => s.grain (t.first + i)
    | none => []
  else r.body

/-- AUX as it is formed at transmission: the CRC of the carry tags of a GRAINS record (R320). -/
def State.recAux (s : State) (r : MRec) : Nat :=
  if r.kind = mkGrains then
    (tagRoot ((List.range r.count).map fun i => s.tagOf (leAt r.body 0 4 + i))).toNat
  else r.aux

/-- A record's bytes. -/
def State.recBytes (s : State) (r : MRec) : List Byte :=
  let b := padMul 32 (s.recBody r)
  recHeader { r with aux := s.recAux r } b.length ++ b

/-- The payload of a MIRROR message. -/
def State.mirrorPayload (s : State) (l : List MRec) : List Byte := l.flatMap s.recBytes

/-- Queue a MIRROR message of a partition's records, an empty one for R317: class 1, under its mirror slot. -/
def State.sendMirror (s : State) (p : Nat) (l : List MRec) : State :=
  let h : MsgHead :=
    { dst := BitVec.ofNat 13 s.twinNode, rclass := 1#2, pclass := 1, opcode := opMirror, fwd := false,
      keySlot := BitVec.ofNat 10 (p + 1), window := 0#20, gen := 0#16, offset := 0, imm := 0#32 }
  let n := s.slc.nextMsg
  let t := { s with
    slc := { s.slc with nextMsg := n + 1 }
    twin := { s.twin with sentAt := s.clk.ftime } }
  t.queueFrames ((msgFrames h n (s.mirrorPayload l) fun _ => .mirror false).map fun f => { f with pay := .mirror p l })

/-- Records in messages of at most 1 MiB (08 R241). -/
def State.packRecs (s : State) : List MRec → List MRec → Nat → List (List MRec)
  | [], cur, _ => if cur.isEmpty then [] else [cur]
  | r :: t, cur, n =>
    let k := (s.recBytes r).length
    if cur.isEmpty || n + k ≤ 1048576 then s.packRecs t (cur ++ [r]) (n + k)
    else cur :: s.packRecs t [r] k

/-- Send records of a partition, in as many MIRROR messages as they take. A record that no message may hold, of a position
table of more than 1 MiB, is not sent (08 R241, assumption 38). -/
def State.sendRecs (s : State) (p : Nat) (l : List MRec) : State :=
  s.each (s.packRecs (l.filter fun r => decide ((s.recBytes r).length ≤ 1048576)) [] 0) fun t m => t.sendMirror p m

/-- Mirror a change's records, when the node mirrors (R319, R327). -/
def State.mirror (s : State) (p : Nat) (l : List MRec) : State :=
  if s.mirrors && !l.isEmpty then s.sendRecs p l else s

/-- The records of session x's entry: DIR_GRAIN is RsvdZ in the body (R320). -/
def State.sessionRec (s : State) (x : Nat) (v : Session) : MRec :=
  { s.mrec mkSession v.part with session := x, body := sessionBytes { v with dirGrain := 0 } }

/-- A PAGE record of a page (R320). -/
def State.pageRec (s : State) (r : PageRef) : MRec :=
  { s.mrec mkPage r.part with
    session := r.owner, layer := r.layer, head := r.head, page := r.page, base := r.base
    aux := if r.base then ((Tbl.get? (s.part r.part).bases r.owner).map fun b => b.index r.layer r.head r.page).getD 0
      else 0 }

/-- A token as a TOKENS record carries it (R320): four parts, each padded to 32 bytes. -/
def tokenRec (t : Token) : List Byte :=
  padMul 32 t.k.codes ++ padMul 32 t.v.codes ++ padMul 32 t.k.srec ++ padMul 32 t.v.srec

/-- A TOKENS record: tokens of one (layer, KV head) from a position on (R320). -/
def State.tokensRec (s : State) (part x layer h pos : Nat) (l : List Token) : MRec :=
  { s.mrec mkTokens part with
    session := x, layer := layer, head := h, page := pos / 16, count := l.length, aux := pos
    body := l.flatMap tokenRec }

/-- A COUNT record (R320). -/
def State.countRec (s : State) (part x layer h n : Nat) : MRec :=
  { s.mrec mkCount part with session := x, layer := layer, head := h, aux := n }

/-- A GRAINS record (R320). -/
def State.grainsRec (s : State) (part g n : Nat) : MRec :=
  { s.mrec mkGrains part with count := n, body := leBytes 32 g }

/-- A COMPLETION or RETIRE record (R320). -/
def State.doneRec (s : State) (kind part src tag st : Nat) : MRec :=
  { s.mrec kind part with aux := tag, body := if kind = mkCompletion then padTo 32 (leBytes 2 src ++ leBytes 1 st) else [] }

/-! ### Failed checks -/

/-- The DRAM row of a grain, as the address of its first grain in the row's bank (12 R397). -/
def rowPlace (g : Nat) : Nat := g / 8 * 8 + g % 2

/-- The event of a grain that fails a check, found by a source. -/
def State.grainEvent (s : State) (code kind idx g : Nat) (syn : Word64) : State :=
  let place := if code = 0x01 || code = 0x02 || code = 0x03 || code = 0x04 then some (Place.row (rowPlace g)) else none
  s.fault { code := code, srcKind := kind, srcIndex := idx, part := s.ownerOfGrain g, addr := g, syndrome := syn,
            place := place }

/-- Record the corrected columns that a read of a grain met (12 R390, R393). -/
def State.noteCorrected (s : State) (ecc : EccReport) (kind idx g : Nat) : State :=
  s.each (eccCorrected ecc g) fun t c => t.grainEvent 0x01 kind idx g (Config.eccSyndrome c)

/-- Ask the twin for an object, when PAIRED (12 R395). The request for a grain carries COUNT 1 and its address in AUX
(assumption 14). -/
def State.askRepair (s : State) (r : MRec) : State :=
  if s.twin.state = twPaired then s.sendMirror r.part [r] else s

/-- The REPAIR_REQ record of a page; COUNT 2 says that it is a base page (assumption 14). -/
def State.repairPage (s : State) (r : PageRef) : MRec :=
  { s.mrec mkRepair r.part with
    count := if r.base then 2 else 0, session := r.owner, layer := r.layer, head := r.head, page := r.page, base := r.base }

/-- The REPAIR_REQ record of a grain. -/
def State.repairGrain (s : State) (g : Nat) : MRec :=
  { s.mrec mkRepair ((s.ownerOfGrain g).getD 0) with count := 1, aux := g }

/-- Set CONTAINED in a page's descriptor, count it, and ask the twin for it (12 R395, R405). Once per page. -/
def State.containPage (s : State) (r : PageRef) : State :=
  match s.page? r with
  | none => s
  | some p =>
    if p.desc.contained then s
    else
      let t := s.putPage r { p with desc := { p.desc with contained := true } }
      let t := t.countPart r.part pPagesContained 1
      let t := { t with twin := { t.twin with repairs := t.twin.repairs ++ [r] } }
      t.askRepair (t.repairPage r)

/-- Enter a grain that holds no page in the table of 4,096 CONTAINED grains; a full table fences the owner (12 R386). -/
def State.containGrain (s : State) (g : Nat) : State :=
  if s.badGrains.contains g then s
  else if s.badGrains.length < 4096 then
    let t := { s with
      badGrains := s.badGrains ++ [g]
      twin := { s.twin with repairGr := s.twin.repairGr ++ [g] } }
    t.askRepair (t.repairGrain g)
  else
    let t := s.fault { code := 0x0B, srcKind := 7, srcIndex := 0, part := s.ownerOfGrain g, addr := g, syndrome := 0#64,
                       place := none }
    match s.ownerOfGrain g with
    | some p => t.fence p
    | none => t

/-- A grain leaves CONTAINED: a full-grain write or a repair (12 R386). -/
def State.clearGrain (s : State) (g : Nat) : State :=
  { s with
    badGrains := s.badGrains.filter (· != g)
    twin := { s.twin with repairGr := s.twin.repairGr.filter (· != g) } }

/-- The allocation that holds a grain. -/
def State.allocOf (s : State) (g : Nat) : Option Alloc :=
  s.allocs.find? fun a => decide (a.first ≤ g ∧ g < a.first + a.len)

/-- The pages of a session for which a test of (layer, KV head, page) holds. -/
def Session.refs (v : Session) (x : Nat) (p : Nat → Nat → Nat → Bool) : List PageRef :=
  v.heads.flatMap fun h => (h.2.pages.filter fun g => p (h.1 / 64) (h.1 % 64) g.1).map fun g =>
    { base := false, part := v.part, owner := x, layer := h.1 / 64, head := h.1 % 64, page := g.1 }

/-- Abandon every migration of a session's pages: SESSION_CLOSE is committed (07 R211). -/
def State.abandonSession (s : State) (x : Nat) : State :=
  match s.session? x with
  | none => s
  | some v => s.each (v.refs x fun _ _ _ => true) fun t r => t.abandonMigr r

/-- The pages that a metadata grain names, directly or through lower levels (12 R388). -/
def State.namedBy (s : State) (u : Use) : List PageRef :=
  match u with
  | .table b => (s.sessions.filter fun x => x.1 / 65536 == b).flatMap fun x => x.2.refs x.1 fun _ _ _ => true
  | .dir x | .index x => match s.session? x with
      | some v => v.refs x fun _ _ _ => true
      | none => []
  | .list x l h n => match s.session? x with
      | some v => v.refs x fun l' h' g => l' == l && h' == h && g / 16 == n
      | none => []
  | _ => []

/-- The failed halves of a decode failure: whether V, and the check (06 R192). -/
def failedHalves (syn : Word64) : List (Bool × Nat) :=
  ([(false, field syn.toNat 0 4), (true, field syn.toNat 4 4)]).filter fun h => h.2 != 0

/-- Half by half, a decode failure of a run: its page by the address of the half's first grain, the half and the check
recorded, DECODE_FAILS counted (06 R192, R198). -/
def State.decodeEvents (s : State) (kind idx g : Nat) (syn : Word64) : State :=
  s.each (failedHalves syn) fun t h =>
    let a := if g % 2 == b2n h.1 then g else g + 1
    let u := t.fault { code := 0x05, srcKind := kind, srcIndex := idx, part := t.ownerOfGrain g, addr := a,
                       syndrome := 0#64, place := none, detail := 16 * b2n h.1 + h.2 }
    match t.ownerOfGrain g with
    | some p => u.updPart p fun q => { q with decodeFails := satAdd 64 q.decodeFails 1 }
    | none => u

/-- What a failed check of a grain does (12 R384 to R388): the event; then the page of its run, the pages its metadata
names with META, or the grain itself becomes CONTAINED. -/
def State.failGrain (s : State) (code kind idx g : Nat) (syn : Word64) : State :=
  let t := if code = 0x05 then s.decodeEvents kind idx g syn else s.grainEvent code kind idx g syn
  match t.allocOf g with
  | some a =>
    match a.use with
    | .run r => t.containPage r
    | .table _ | .dir _ | .index _ | .list .. =>
      (t.grainEvent 0x0A 7 0 g 0#64).each (t.namedBy a.use) fun u r => u.containPage r
    | _ => t.containGrain g
  | none => t.containGrain g

/-- A failed check found by a channel's own accesses. -/
def State.failCheck (s : State) (e : Nat × Nat × Word64) : State :=
  s.failGrain e.1 1 (grainChannel e.2.1) e.2.1 e.2.2

/-- The failing check of a page read by the tier manager or the confluence; code 0 stands for a page that was CONTAINED
already. -/
def State.failPage (s : State) (r : PageRef) (e : Nat × Nat × Word64) : State :=
  (if e.1 = 0 then s else s.failCheck e).containPage r

/-- The fault of a grain that a partial write or a read meets: a listed grain fails as TAG (12 R386), else its checks. A
grain of a run has the run's write generation; elsewhere the stored one stands. -/
def State.grainFault (s : State) (ecc : EccReport) (g : Nat) : Option (Nat × Word64) :=
  if s.badGrains.contains g || s.grainLost g then some (0x03, 0#64)
  else
    match s.allocOf g with
    | some a =>
      match a.use with
      | .run r =>
        match s.page? r with
        | some p => s.checkGrain ecc g (g + 1 == a.first + a.len) p.desc.wgen
        | none => s.checkGrain ecc g false (s.wgenOf g false)
      | _ => s.checkGrain ecc g false (s.wgenOf g false)
    | none => s.checkGrain ecc g false (s.wgenOf g false)

/-- The first grain that fails its checks among those a record's body is read from (08 R251): the run of a page, the grains
of a window, a position table. -/
def State.recFault (s : State) (r : MRec) : Option (Nat × Nat × Word64) :=
  let gs := if r.kind = mkPage then
      (match s.page? r.ref with
       | some p => (List.range (runLen p.desc.pfmt p.desc.hdim)).map (p.desc.grain + ·)
       | none => [])
    else if r.kind = mkGrains then (List.range r.count).map (leAt r.body 0 4 + ·)
    else if r.kind = mkPostable then
      (match Tbl.get? (s.part r.part).posTabs r.session with
       | some t => (List.range t.grains).map (t.first + ·)
       | none => [])
    else []
  gs.findSome? fun g => (s.grainFault eccNone g).map fun e => (e.1, g, e.2)

/-- A record with the stamp of its object as it stands, when that is later: what a retransmission carries (08 R251). -/
def State.restamp (s : State) (r : MRec) : MRec :=
  let now := if r.kind = mkPage then (match s.page? r.ref with | some p => p.desc.stamp | none => 0)
    else if r.kind = mkGrains then
      ((List.range r.count).map fun i => Tbl.getD s.twin.grainStamps (leAt r.body 0 4 + i) 0).foldl max 0
    else 0
  { r with stamp := max r.stamp now }

/-- Is a grain a meta grain: the last of a run (R48)? -/
def State.isMeta (s : State) (g : Nat) : Bool :=
  match s.allocOf g with
  | some a => (match a.use with | .run _ => g + 1 == a.first + a.len | _ => false)
  | none => false

/-- The parts of a write, grain by grain: grain, offset in it, bytes. -/
def writeParts (addr : Nat) (b : List Byte) : List (Nat × Nat × List Byte) :=
  let first := min b.length (512 - addr % 512)
  let rest := pieces 512 (b.drop first)
  (if b.isEmpty then [] else [(addr / 512, addr % 512, b.take first)]) ++
    (List.range rest.length).map fun i => (addr / 512 + 1 + i, 0, rest.getD i [])

/-- The first grain of a write whose partial write is refused (12 R384): its address, code and syndrome. -/
def State.writeRefused (s : State) (ecc : EccReport) (addr : Nat) (b : List Byte) : Option (Nat × Nat × Word64) :=
  (writeParts addr b).findSome? fun w =>
    if w.2.2.length = 512 then none else (s.grainFault ecc w.1).map fun c => (c.1, w.1, c.2)

/-- A refused partial write: PARTIAL_REFUSED is recorded, the owner CONTAINED, repair asked for (12 R384). -/
def State.partialRefused (s : State) (e : Nat × Nat × Word64) : State :=
  (s.failGrain 0x06 1 (grainChannel e.2.1) e.2.1 e.2.2).count cPartialRefused 1

/-- Write bytes into grains that passed: each is merged and tagged again; a full grain leaves CONTAINED (12 R384). -/
def State.writeGrains (s : State) (addr : Nat) (b : List Byte) : State :=
  s.each (writeParts addr b) fun t w =>
    let u := t.putGrain w.1 (t.isMeta w.1) (t.wgenOf w.1 (t.isMeta w.1)) (patch (t.grain w.1) w.2.1 w.2.2)
    if w.2.2.length = 512 then u.clearGrain w.1 else u

/-- Mirror grains of a partition written through a window or BAR2, and keep the stamp of the write for resync (R318,
R334): records of at most 16 grains. -/
def State.mirrorGrains (s : State) (p addr len : Nat) : State :=
  if len = 0 then s
  else
    let g0 := addr / 512
    let n := (addr + len - 1) / 512 - g0 + 1
    let t := { s with twin := { s.twin with
      grainStamps := (List.range n).foldl (fun m i => Tbl.set m (g0 + i) s.clk.ftime) s.twin.grainStamps
      lastChange := s.clk.ftime } }
    t.mirror p ((List.range (cdiv n 16)).map fun i => t.grainsRec p (g0 + 16 * i) (min 16 (n - 16 * i)))

end Sys2Proof.Machine
end

