-- ==== Sys2Proof/Machine/Jet.lean ====
section
/-! DEFINITION. The jets: slots, the register space, sharing of the bank pair, isolation, and the checks of a segment
read (03 R82 to R107, R115 to R125), with the commands of the channel scheduler. -/

namespace Sys2Proof.Machine

/-! ### RESULT codes (R116) -/

/-- OK. -/
def rsOk : Nat := 0
/-- STOPPED. -/
def rsStopped : Nat := 1
/-- TAG. -/
def rsTag : Nat := 2
/-- ECC. -/
def rsEcc : Nat := 3
/-- DECODE. -/
def rsDecode : Nat := 4
/-- RESIDUE. -/
def rsResidue : Nat := 5
/-- FORMAT. -/
def rsFormat : Nat := 6
/-- ILLEGAL. -/
def rsIllegal : Nat := 7
/-- ABORTED. -/
def rsAborted : Nat := 8
/-- BIST. -/
def rsBist : Nat := 9

/-- The RESULT of a failed check, by its fault code (R116). -/
def resultOfCode (code : Nat) : Nat := if code = 0x02 then rsEcc else if code = 0x05 then rsDecode else rsTag

/-! ### Slot fields (R93, R94) -/

/-- A slot's 512 bits. -/
def Jet.slot (x : Jet) (n : Nat) : BitVec 512 := Tbl.getD x.slots n 0#512

/-- KERNEL. -/
def slKernel (v : BitVec 512) : Nat := fld v 0 6
/-- PFMT. -/
def slPfmt (v : BitVec 512) : Nat := fld v 8 4
/-- HDIM. -/
def slHdim (v : BitVec 512) : Nat := fld v 12 3
/-- OFMT in force: kernel 4 emits FP32 whatever OFMT says (R114). -/
def slOfmt (v : BitVec 512) : Nat := if slKernel v = 4 then 1 else fld v 15 1
/-- Rows. -/
def slRows (v : BitVec 512) : Nat := fld v 16 7 + 1
/-- Page entries. -/
def slNent (v : BitVec 512) : Nat := fld v 23 3 + 1
/-- Sessions. -/
def slNsess (v : BitVec 512) : Nat := fld v 26 3 + 1
/-- GROUP. -/
def slGroup (v : BitVec 512) : Nat := fld v 29 3
/-- WINDOW. -/
def slWindow (v : BitVec 512) : Bool := v.getLsbD 32
/-- BIAS. -/
def slBias (v : BitVec 512) : Bool := v.getLsbD 33
/-- SKIPBAD. -/
def slSkipbad (v : BitVec 512) : Bool := v.getLsbD 34
/-- QOFF. -/
def slQoff (v : BitVec 512) : Nat := fld v 40 6
/-- BOFF. -/
def slBoff (v : BitVec 512) : Nat := fld v 48 6
/-- RFOFF. -/
def slRfoff (v : BitVec 512) : Nat := fld v 56 9
/-- PART. -/
def slPart (v : BitVec 512) : Nat := fld v 68 4
/-- TAG. -/
def slTag (v : BitVec 512) : Nat := fld v 72 16
/-- BADMASK. -/
def slBad (v : BitVec 512) : Nat := fld v 88 8
/-- WINLEN. -/
def slWinlen (v : BitVec 512) : Nat := fld v 96 24
/-- PAGES_DONE. -/
def slDone (v : BitVec 512) : Nat := fld v 120 4
/-- RESULT. -/
def slResult (v : BitVec 512) : Nat := fld v 124 4
/-- ENTRY j. -/
def slEntry (v : BitVec 512) (j : Nat) : BitVec 48 := v.extractLsb' (128 + 48 * j) 48

/-- RUN. -/
def enRun (e : BitVec 48) : Nat := fld e 0 17
/-- VALID_M1; of kind 2 the PFMT of the base page. -/
def enValid (e : BitVec 48) : Nat := fld e 17 4
/-- WGEN. -/
def enWgen (e : BitVec 48) : BitVec 16 := e.extractLsb' 21 16
/-- KIND. -/
def enKind (e : BitVec 48) : Nat := fld e 37 2
/-- BSEL. -/
def enBsel (e : BitVec 48) : Nat := fld e 39 3
/-- SESS. -/
def enSess (e : BitVec 48) : Nat := fld e 42 3

/-- The entries of a command. -/
def slEntries (v : BitVec 512) : List (BitVec 48) := (List.range (slNent v)).map (slEntry v)

/-- The stored format of an entry's run: a base entry's in VALID_M1, the command's PFMT otherwise. -/
def enPfmt (v : BitVec 512) (e : BitVec 48) : Nat := if enKind e = 2 then enValid e else slPfmt v

/-- Bytes of a base half in the base area: element codes, then 64 bytes (06 R196). -/
def baseHalfBytes (pfmt dim : Nat) : Nat := 16 * rowBytes pfmt dim + 64

/-- The rows a command may carry (R89): accumulator and query space, halved by BIAS or base entries. -/
def rowLimit (pfmt dim : Nat) (shared : Bool) : Nat :=
  let w := if pfmt = 0 || pfmt = 1 then 2 else 1
  min 128 (min (16384 / dim) ((if shared then 8192 else 16384) / (w * dim)))

/-- Does a format belong to the delta formats? -/
def isDelta (pfmt : Nat) : Bool := pfmt == 5 || pfmt == 6

/-- Has a command BIAS or base entries? -/
def slShared (v : BitVec 512) : Bool := slBias v || (slEntries v).any fun e => enKind e == 2

/-- Bytes of a command's bias block (R105). -/
def biasBytes (v : BitVec 512) : Nat :=
  if slBias v then ((slEntries v).filter fun e => enKind e < 2).length * groupOf (slGroup v) * 64 else 0

/-- Where the base area begins in staging: after the bias block, 32-byte aligned (R105). -/
def baseStart (v : BitVec 512) : Nat := 256 * slBoff v + (biasBytes v + 31) / 32 * 32

/-- The end of a command's bias block and base area in staging. -/
def sharedEnd (v : BitVec 512) : Nat :=
  baseStart v + (((slEntries v).filter fun e => enKind e == 2).map fun e =>
    baseHalfBytes (enValid e) (dimOf (slHdim v))).foldl (· + ·) 0

/-- The query buffer's bytes (R105). -/
def queryBytes (v : BitVec 512) : Nat :=
  (if modeOf (slPfmt v) = .bf16 then 2 else 1) * dimOf (slHdim v) * slRows v

/-- Row file entries of a command: rows, and positions when WINDOW or BIAS is set (R105). -/
def rowFileCount (v : BitVec 512) : Nat := slRows v + (if slWindow v || slBias v then slNent v else 0)

/-- Is an entry of a command well formed (R94, R95)? A base entry's VALID_M1 is the PFMT of a base page; R95 names no
condition for one that gives a delta format, which no base page has (R78): it ends with FORMAT as a PFMT outside R45 does,
DESIGN CHOICE (assumption 137). -/
def entryOk (v : BitVec 512) (e : BitVec 48) : Bool :=
  enKind e != 3 && fieldZero e.toNat 45 3 && decide (enSess e < slNsess v) &&
    (if enKind e = 1 then
      isDelta (slPfmt v) && decide (enBsel e < slNent v) && enKind (slEntry v (enBsel e)) == 2
     else enBsel e == 0) &&
    (enKind e != 0 || !isDelta (slPfmt v)) &&
    (if enKind e = 2 then decide (enValid e ≤ 4) else true) &&
    decide (enRun e + runLen (enPfmt v e) (slHdim v) ≤ 2 ^ 17)

/-- The conditions on a command that end its slot at its start (R95): true when none of them holds. -/
def commandOk (v : BitVec 512) (loaded : Bool) (owner : Option Nat) : Bool :=
  fieldZero v.toNat 6 2 && fieldZero v.toNat 35 5 && fieldZero v.toNat 46 2 && fieldZero v.toNat 54 2 &&
    fieldZero v.toNat 65 3 && ((List.range 8).all fun j => decide (j < slNent v) || slEntry v j == 0#48) &&
    decide (slPfmt v ≤ 6) && decide (slHdim v ≤ 5) && loaded &&
    decide (slRows v ≤ rowLimit (slPfmt v) (dimOf (slHdim v)) (slShared v)) && slRows v % slNsess v == 0 &&
    ((slEntries v).all (entryOk v)) &&
    decide (256 * slQoff v + queryBytes v ≤ (if slShared v then 8192 else 16384)) &&
    (!slShared v || (decide (sharedEnd v ≤ 16384) &&
      decide (256 * slQoff v + queryBytes v ≤ 256 * slBoff v ∨ sharedEnd v ≤ 256 * slQoff v))) &&
    decide (slRfoff v + rowFileCount v ≤ 512) && owner == some (slPart v)

/-! ### The microprogram store (R109 to R111, R114) -/

/-- The word of FAIL, which an unloaded kernel's entry holds (R109, R112). -/
def failWord : Word32 := 0x28000000#32

/-- An instruction word of its fields (R112). -/
def jetWord (opc a b imm : Nat) : Word32 := BitVec.ofNat 32 (opc * 2 ^ 26 + a * 2 ^ 22 + b * 2 ^ 18 + imm)

/-- The code of kernel 0 at an address (R114). -/
def attendCode (at_ : Nat) : List Word32 :=
  [jetWord 0x10 0 0 0, jetWord 0x03 1 0 0, jetWord 0x01 2 0 0, jetWord 0x12 2 0 0, jetWord 0x16 2 0 0, jetWord 0x02 2 2 1,
   jetWord 0x08 0 0 (at_ + 8), jetWord 0x06 2 1 (at_ + 3), jetWord 0x02 1 2 0, jetWord 0x11 0 0 0, jetWord 0x01 2 0 0,
   jetWord 0x13 2 0 0, jetWord 0x17 2 0 0, jetWord 0x18 2 0 0, jetWord 0x02 2 2 1, jetWord 0x08 0 0 (at_ + 17),
   jetWord 0x06 2 1 (at_ + 11), jetWord 0x19 0 0 0, jetWord 0x09 0 0 0]

/-- Where standard kernel k begins; kernel 0's 19 instructions lie within the library. -/
def stdStart (k : Nat) : Nat := 64 + Config.stdStart k % (if k = 0 then 942 else 960)

/-- Instruction k of the Agtan standard library (R109, R114): the entries, FAIL for 5 to 13, and the code. -/
def stdWord (k : Nat) : Word32 :=
  if k < 16 then (if k ≤ 4 || 14 ≤ k then jetWord 0x07 0 0 (stdStart k) else failWord)
  else if stdStart 0 ≤ k && k < stdStart 0 + 19 then (attendCode (stdStart 0)).getD (k - stdStart 0) failWord
  else Config.stdLib k

/-- Instruction k of a store that holds these words: the standard library's elsewhere, and FAIL at the entries and in the
region of partition kernels that are not loaded (R109). -/
def wordOf (store : Tbl Word32) (k : Nat) : Word32 :=
  Tbl.getD store k (if k < 16 || (64 ≤ k && k < 1024) then stdWord k else failWord)

/-- Instruction k of a jet's store. -/
def Jet.word (x : Jet) (k : Nat) : Word32 := wordOf x.store k

/-- Do the words of a store match those it is to hold, as its digest says (R110)? -/
def storeOk (store want : Tbl Word32) : Bool :=
  ((store ++ want).map Prod.fst).all fun k => wordOf store k == wordOf want k

/-- Is a kernel loaded: 0 to 4, 14 and 15 of the standard library, or one whose entry the partition library filled
(R95, R109, R114)? -/
def Jet.kernelLoaded (x : Jet) (k : Nat) : Bool :=
  x.progOk && (k ≤ 4 || k == 14 || k == 15 || (16 ≤ k && x.word k != failWord))

/-- Is the jet idle: no slot QUEUED, RUNNING or DONE (R110)? -/
def Jet.idle (x : Jet) : Bool := x.queue.isEmpty && x.running.isNone && x.ready == 0#16

/-- The store of a partition library: entries 16 to 63, then 1,024 to 2,047 (R109, 14 R462). -/
def libStore (l : Lib) : Tbl Word32 :=
  (List.range 48).map (fun i => (16 + i, l.words.getD i failWord)) ++
    (List.range 1024).map fun i => (1024 + i, l.words.getD (48 + i) failWord)

/-- The store of a jet, by the library of the partition that owns its channel group. -/
def State.jetStore (s : State) (j : Nat) : Tbl Word32 :=
  match s.ownerOfGroup (jetGroup j) with
  | some p => (match Tbl.get? s.cfg.libs p with | some l => libStore l | none => [])
  | none => []

/-- The jets of a partition's channel groups. -/
def State.partJets (s : State) (p : Nat) : List Nat :=
  (mapGroups (s.pmap p)).flatMap fun g => (List.range 512).map fun i => 512 * g + i

/-! ### Ends of slots (R91, R92, R97, R116, R124) -/

/-- Set bit n of READY. -/
def readyBit (n : Nat) : BitVec 16 := BitVec.ofNat 16 (2 ^ n)

/-- Is a slot FREE (R91)? -/
def Jet.slotFree (x : Jet) (n : Nat) : Bool := !x.queue.contains n && x.running != some n && !x.ready.getLsbD n

/-- Write STATUS and BADMASK of a slot and set READY (R91, R93). -/
def Jet.toDone (x : Jet) (n result pages : Nat) (bad : BitVec 8) : Jet :=
  let v := setField (setField (setField (x.slot n) 88 8 bad.toNat) 120 4 pages) 124 4 result
  { x with slots := Tbl.set x.slots n v, ready := x.ready ||| readyBit n }

/-- The running slot ends with a RESULT: no partial of it stays when the RESULT carries none (R116). -/
def Jet.finish (x : Jet) (n result : Nat) : Jet :=
  let y := x.toDone n result x.pagesDone x.badMask
  let keeps := result == rsOk || result == rsStopped
  { y with
    running := none, own := false, segs := [], bases := [], stopPend := false
    accBusy := y.accBusy && (keeps || y.accSlot != some n)
    accSlot := if keeps || y.accSlot != some n then y.accSlot else none }

/-- The jet is cut off (R124): every QUEUED, RUNNING and DONE slot ends ABORTED, and the scheduler owns the pair, so that no
yield stands and ordinary accesses are served at once. -/
def Jet.isolate (x : Jet) : Jet :=
  let ns := (List.range 16).filter fun n => !x.slotFree n
  let y := ns.foldl (fun y n => y.toDone n rsAborted 0 0#8) x
  { y with
    queue := [], running := none, own := false, accBusy := false, accSlot := none, segs := [], bases := [],
    stopPend := false, yreq := false, colsLeft := 0, segSince := true, isolated := true }

/-- A jet's memories cleared and its store as the node reloads it, PROG_OK by its digest (R83, R110, R125). -/
def State.clearedJet (s : State) (j : Nat) : Jet :=
  { Jet.init with store := s.jetStore j, progOk := storeOk (s.jetStore j) (s.jetStore j) }

/-- The channel scheduler's settings for a jet (R103). -/
def State.schedCfg (s : State) (j : Nat) : Word64 := Tbl.getD s.jetSched (jetChannel j) jetSchedReset
/-- YIELD_COLS: 0 counts as 1 (R103). -/
def State.yieldCols (s : State) (j : Nat) : Nat := max 1 (fld (s.schedCfg j) 0 8)
/-- OWN_LIMIT. R103 gives its range, 600 to 65,535, and no outcome of a value below it: the value counts as written, DESIGN
CHOICE (assumption 100). -/
def State.ownLimit (s : State) (j : Nat) : Nat := fld (s.schedCfg j) 16 16
/-- SWEEP_LIMIT. -/
def State.sweepLimit (s : State) (j : Nat) : Nat := fld (s.schedCfg j) 32 32

/-- Open a jet's isolation switch (R123, R124). -/
def State.isolateJet (s : State) (j : Nat) : State := s.updJet j Jet.isolate

/-- Isolate a jet for a hang, with its event and self-test (R123, 12 R396). -/
def State.hangJet (s : State) (j : Nat) : State :=
  (s.isolateJet j).fault
    { code := 0x11, srcKind := 0, srcIndex := s.jetSource j, part := s.ownerOfGroup (jetGroup j), addr := 0,
      syndrome := 0#64, place := some (.jet j) }

/-- End the running slot of a jet with a RESULT, noting JET_FAULT for a failure (R90, R116). When YREQ is high the pair
is the scheduler's for YIELD_COLS columns (R102). -/
def State.endJet (s : State) (j n result : Nat) (f : JetFault) : State :=
  s.updJet j fun x =>
    let y := x.finish n result
    let y := if result == rsOk || result == rsStopped then y
      else { y with fault := { f with slot := n, result := result, protocol := x.fault.protocol } }
    if y.yreq && x.own then { y with colsLeft := s.yieldCols j } else y

/-- JET_FAULT of a failure without a grain. -/
def faultAt (entry : Nat) : JetFault := { JetFault.init with entry := entry }

/-- Run a step of the running slot of a jet that is not isolated; nothing happens otherwise. -/
def State.jetRun (s : State) (j : Nat) (f : Jet → Nat → State) : State :=
  if s.awake && j < 8192 && !(s.jet j).isolated then
    match (s.jet j).running with
    | some n => f (s.jet j) n
    | none => s
  else s

/-! ### The register space (R90, R98, R99) -/

/-- Write a GO bit (R91, R92); to an isolated jet it is refused at the scheduler and counted (R124). -/
def Jet.goSlot (x : Jet) (n : Nat) : Jet :=
  if x.isolated then { x with refused := satAdd 64 x.refused 1 }
  else if x.slotFree n then { x with queue := x.queue ++ [n] }
  else { x with fault := { x.fault with protocol := true } }

/-- Write a STOP bit (R97). -/
def Jet.stopSlot (x : Jet) (n : Nat) : Jet :=
  if x.queue.contains n then { x.toDone n rsStopped 0 0#8 with queue := x.queue.filter (· != n) }
  else if x.running == some n && !x.stopTaken then { x with stopPend := true }
  else x

/-- Clear a READY bit (R99): the slot is FREE, and the accumulator that holds its partial is released. -/
def Jet.clearReady (x : Jet) (n : Nat) : Jet :=
  if x.ready.getLsbD n then
    { x with
      ready := x.ready &&& ~~~ readyBit n
      accBusy := x.accBusy && x.accSlot != some n
      accSlot := if x.accSlot == some n then none else x.accSlot }
  else x

/-- The 64-bit word at a slot offset written; BADMASK and STATUS are read-only (R90, R93). -/
def Jet.writeSlotWord (x : Jet) (off : Nat) (v : Word64) : Jet :=
  let n := off / 64
  let old := x.slot n
  let new := setField old (off % 64 / 8 * 64) 64 v.toNat
  { x with slots := Tbl.set x.slots n (setField (setField new 88 8 (slBad old)) 120 8 (fld old 120 8)) }

/-- A 64-bit write to a jet's register space (R90). Of several bits in one JET_CTL write, the GO bits act in ascending
order, then the STOP bits: R98 gives no order, DESIGN CHOICE (assumption 138). -/
def Jet.writeReg (x : Jet) (off : Nat) (v : Word64) : Jet :=
  if off % 8 != 0 then x
  else if off < 0x400 then
    (if x.isolated then { x with refused := satAdd 64 x.refused 1 } else x.writeSlotWord off v)
  else if off = 0x400 then
    let y := (bitsOf v 16).foldl Jet.goSlot x
    (bitsOf (v >>> 16) 16).foldl Jet.stopSlot y
  else if off = 0x408 then (bitsOf v 16).foldl Jet.clearReady x
  else if 0x1000 ≤ off && off < 0x2000 then { x with rowFile := Tbl.set x.rowFile ((off - 0x1000) / 8) v }
  else if 0x4000 ≤ off && off < 0x8000 then
    { x with staging := Memory.write x.staging (off - 0x4000) (leBytes 8 v.toNat) }
  else if 0x20000 ≤ off && off < 0x22000 && x.idle then
    let k := (off - 0x20000) / 4
    { x with store := Tbl.set (Tbl.set x.store k (v.extractLsb' 0 32)) (k + 1) (v.extractLsb' 32 32) }
  else x

/-! ### Reading a segment (R115) -/

/-- The bytes of a half that a jet reads (R119): the uncoded rows, or the plane and the coded bits. -/
def halfUsed (pfmt dim : Nat) (isV : Bool) (mg : List Byte) : Nat :=
  if pfmt = 1 then 16 * dim + cdiv (leAt mg ((if isV then 256 else 192) + 12) 4) 8 else 16 * rowBytes pfmt dim

/-- The columns of the meta grain that a segment needs: scale records, or the coding header (R115). -/
def metaCols (pfmt : Nat) (isV : Bool) : List Nat :=
  if pfmt = 0 then []
  else if pfmt = 1 then (if isV then [8, 9] else [6, 7])
  else if isV then [4, 5] else [2, 3]

/-- The checks of one code grain read by a jet: ECC, write generation, carry tag, with the bytes beyond the half taken as
zeros (R115). -/
def State.checkCode (s : State) (ecc : EccReport) (g : Nat) (wgen : BitVec 16) (used : Nat) :
    Option (Nat × Nat × Word64) :=
  let w := s.sideOf g
  let tag := crc32c (padTo 512 ((s.grain g).take used))
  if s.grainLost g then some (0x02, g, 0#64)
  else match ecc.ue.find? fun c => c / 16 == g && decide (32 * (c % 16) < used) with
  | some c => some (0x02, g, Config.eccSyndrome c)
  | none =>
    if sideWord w 2 != wgen then some (0x04, g, ((sideWord w 2).setWidth 32 : Word32) ++ (wgen.setWidth 32 : Word32))
    else if sideTag w != tag then some (0x03, g, tag ++ sideTag w)
    else none

/-- The checks of the meta grain's columns that a segment needs (R115). -/
def State.checkMetaCols (s : State) (ecc : EccReport) (g : Nat) (wgen : BitVec 16) (cols : List Nat) :
    Option (Nat × Nat × Word64) :=
  let w := s.sideOf g
  let b := s.grain g
  match ecc.ue.find? fun c => c / 16 == g && cols.contains (c % 16) with
  | some c => some (0x02, g, Config.eccSyndrome c)
  | none =>
    match cols.find? fun c =>
        sideWord w c != (if c = 2 then wgen ^^^ columnCheck (column b 2) else columnCheck (column b c)) with
    | some _ => some (0x03, g, 0#64)
    | none => none

/-- Read a half as a jet does: its rows as stored or decoded, or the failing check (R115, 06 R191). -/
def State.readHalf (s : State) (ecc : EccReport) (first pfmt hdim : Nat) (wgen : BitVec 16) (isV : Bool) :
    Except (Nat × Nat × Word64) (List QRow) :=
  let len := runLen pfmt hdim
  let mg := first + len - 1
  let mb := s.grain mg
  let used := halfUsed pfmt (dimOf hdim) isV mb
  let gs := if isV then vGrains first len else kGrains first len
  match (List.range gs.length).findSome? fun i =>
      let u := min 512 (used - 512 * i)
      if u = 0 then none else s.checkCode ecc (gs.getD i 0) wgen u with
  | some e => .error e
  | none =>
    match s.checkMetaCols ecc mg wgen (metaCols pfmt isV) with
    | some e => .error e
    | none =>
      let d : Desc :=
        { grain := first, pfmt := pfmt, validM1 := 15, hdim := hdim, cstate := 0, tail := false, inSram := false,
          contained := false, wgen := wgen, tagRoot := 0#32, baseIdx := noBase, stamp := 0, tokenPos := 0 }
      let bytes := padTo (512 * gs.length) ((gs.flatMap s.grain).take used)
      match halfRows d bytes mb isV with
      | .ok r => .ok r
      | .error i => .error (0x05, first, BitVec.ofNat 64 (if isV then 16 * i else i))

/-- The first segment whose read is still under way. -/
def Jet.inFlight (x : Jet) : Option Seg := x.segs.find? fun g => !g.done

/-- Replace the first segment under way. -/
def replaceFlight (l : List Seg) (g : Option Seg) : List Seg :=
  match l with
  | [] => []
  | a :: t => if a.done then a :: replaceFlight t g else (match g with | some b => b :: t | none => t)

/-- The pair after a segment's read has ended (R100, R102): OWN stays while another read is under way and YREQ is low. -/
def Jet.afterRead (x : Jet) (cols : Nat) : Jet :=
  let more := x.inFlight.isSome
  if x.yreq then { x with own := false, yielded := true, segSince := true, colsLeft := cols }
  else { x with own := more, segSince := true }

/-- Where the half of base entry b lies in staging (R105): behind those of the base entries before it. -/
def baseHalfAt (v : BitVec 512) (b : Nat) : Nat :=
  baseStart v + (((List.range b).filter fun i => enKind (slEntry v i) == 2).map fun i =>
    baseHalfBytes (enValid (slEntry v i)) (dimOf (slHdim v))).foldl (· + ·) 0

/-- The bytes of a base half in the base area (06 R196): element codes, decoded for BF16X, then 64 bytes of scale records,
zero for BF16 and BF16X. -/
def baseHalf (pfmt : Nat) (rows : List QRow) : List Byte :=
  rows.flatMap QRow.codes ++ (if pfmt = 0 || pfmt = 1 then List.replicate 64 0#8 else padTo 64 (rows.flatMap QRow.srec))

/-- Row t of the half of base entry b, as the base area holds it. -/
def Jet.baseRow (x : Jet) (v : BitVec 512) (b t : Nat) : QRow :=
  let n := rowBytes (enValid (slEntry v b)) (dimOf (slHdim v))
  { codes := Memory.read x.staging (baseHalfAt v b + n * t) n,
    srec := Memory.read x.staging (baseHalfAt v b + 16 * n + 4 * t) 4 }

/-- The rows of a segment as the array takes them: a delta row is reconstructed against its base half in the base area
(06 R194). -/
def Jet.segRows (x : Jet) (v : BitVec 512) (e : BitVec 48) (rows : List QRow) : Sat (List ORow) :=
  let dim := dimOf (slHdim v)
  if enKind e = 1 then
    sMap (fun (p : QRow × Nat) => do
      let b ← decodeRow (enValid (slEntry v (enBsel e))) dim (x.baseRow v (enBsel e) p.2)
      deltaRow (slPfmt v) dim b p.1) (rows.zip (List.range rows.length))
  else pure (rows.map (opRow (enPfmt v e) dim))

/-- A segment's read ends well: the rows stand for the instruction waiting for them, a base half in the base area. -/
def State.segOk (s : State) (j n : Nat) (g : Seg) (rows : List QRow) : State :=
  let x := s.jet j
  let v := x.slot n
  let e := slEntry v g.entry
  if g.isBase then
    let y := { x with
      segs := replaceFlight x.segs none
      bases := (x.bases.filter fun (b : Seg) => b.entry != g.entry) ++ [{ g with done := true }]
      staging := Memory.write x.staging (baseHalfAt v g.entry) (baseHalf (enValid e) rows) }
    s.setJet j (y.afterRead (s.yieldCols j))
  else
    let r := (x.segRows v e rows).go
    let y := { x with segs := replaceFlight x.segs (some { g with done := true, rows := r.1 }) }
    (s.setJet j (y.afterRead (s.yieldCols j))).addSat (slPart v) r.2

/-- The entries that fail with entry e: itself, or for a base entry every delta entry that names it (R117). -/
def failedEntries (v : BitVec 512) (e : Nat) : List Nat :=
  if enKind (slEntry v e) = 2 then
    e :: (List.range (slNent v)).filter fun i => enKind (slEntry v i) == 1 && enBsel (slEntry v i) == e
  else [e]

/-- The syndrome of a record: none for a decode failure (12 R404). -/
def recordedSyn (c : Failing) : Word64 := if c.1 = 0x05 then 0#64 else c.2.2

/-- The record of a delta entry omitted because its base entry failed: the base's cause, by the run of the entry (R117). -/
def State.recordOmitted (s : State) (j n : Nat) (c : Failing) (e : Nat) : State :=
  s.fault { code := c.1, srcKind := 0, srcIndex := s.jetSource j, part := s.ownerOfGroup (jetGroup j),
            addr := j * 2 ^ 17 + enRun (slEntry ((s.jet j).slot n) e), syndrome := recordedSyn c, place := none }

/-- A segment's read fails (R115 to R117): the fault collector and JET_FAULT record each entry that fails with it, JET_FAULT
the last; SKIPBAD omits them, and otherwise the slot ends. -/
def State.segFail (s : State) (j n : Nat) (g : Seg) (c : Failing) : State :=
  let t := s.failGrain c.1 0 (s.jetSource j) c.2.1 c.2.2
  let v := (s.jet j).slot n
  let es := failedEntries v g.entry
  let f : JetFault :=
    { slot := n, entry := g.entry, result := resultOfCode c.1, grain := c.2.1, syndrome := recordedSyn c,
      protocol := (s.jet j).fault.protocol }
  if slSkipbad v then
    let t := t.each (es.filter (· != g.entry)) fun u e => u.recordOmitted j n c e
    t.updJet j fun x =>
      let y := { x with
        fault := { f with entry := es.getLast?.getD g.entry }
        badMask := es.foldl (fun m i => m ||| BitVec.ofNat 8 (2 ^ i)) x.badMask
        causes := es.foldl (fun m i => Tbl.set m (8 * n + i) (resultOfCode c.1)) x.causes
        segs := replaceFlight x.segs (if g.isBase then none else some { g with done := true, rows := [] }) }
      y.afterRead (s.yieldCols j)
  else t.endJet j n (resultOfCode c.1) f

/-- The grains a segment's read touches. -/
def segGrains (first pfmt hdim : Nat) (isV : Bool) : List Nat :=
  let len := runLen pfmt hdim
  (if isV then vGrains first len else kGrains first len) ++ [first + len - 1]

/-- Does a segment's read take in column c (16 × grain + column): of its code grains those that hold the half, of the meta
grain those of the segment's records (R115)? -/
def State.segReads (s : State) (first pfmt hdim : Nat) (isV : Bool) (c : Nat) : Bool :=
  let len := runLen pfmt hdim
  let mg := first + len - 1
  let used := halfUsed pfmt (dimOf hdim) isV (s.grain mg)
  if c / 16 = mg then (metaCols pfmt isV).contains (c % 16)
  else match (if isV then vGrains first len else kGrains first len).idxOf? (c / 16) with
    | some i => decide (512 * i + 32 * (c % 16) < used)
    | none => false

/-- The first grain of a segment's read that fails when every grain is read in full, as kernel 2, VERIFY, reads them (R114,
R115). -/
def State.verifyFails (s : State) (ecc : EccReport) (gs : List Nat) (mg : Nat) (wgen : BitVec 16) : Option Failing :=
  gs.findSome? fun g => (s.checkGrain ecc g (g == mg) wgen).map fun c => (c.1, g, c.2)

/-- SEGMENT_READ_DONE (R113, R115). -/
def doSegmentReadDone (j : Nat) (ecc : EccReport) (s : State) : State :=
  s.jetRun j fun x n =>
    match x.inFlight with
    | none => s
    | some g =>
      if !x.own then s
      else
        let v := x.slot n
        let e := slEntry v g.entry
        let first := j * 2 ^ 17 + enRun e
        let full := slKernel v == 2
        let gs := segGrains first (enPfmt v e) (slHdim v) g.isV
        let seen := if full then ecc
          else { ecc with ce := ecc.ce.filter (s.segReads first (enPfmt v e) (slHdim v) g.isV) }
        let t := s.each gs fun u k => u.noteCorrected seen 0 (s.jetSource j) k
        match (if full then t.verifyFails ecc gs (first + runLen (enPfmt v e) (slHdim v) - 1) (enWgen e) else none) with
        | some c => t.segFail j n g c
        | none =>
          match t.readHalf ecc first (enPfmt v e) (slHdim v) (enWgen e) g.isV with
          | .ok rows => t.segOk j n g rows
          | .error c => t.segFail j n g c

/-- SEGMENT_READ_DONE. -/
def execSegmentReadDone (jet : Nat) (ecc : EccReport) (s : State) : Host.Outcome State Fault Refusal :=
  run s (doSegmentReadDone jet ecc)

/-! ### Slot commands -/

/-- A command of the sluice or the scheduler to a jet. -/
def State.onJet (s : State) (j : Nat) (f : Jet → Jet) : State :=
  if s.awake && j < 8192 then s.updJet j f else s

/-- GO: a GO bit of JET_CTL (R92). -/
def execGo (jet slot : Nat) (s : State) : Host.Outcome State Fault Refusal :=
  run s fun t => t.onJet jet fun x => x.goSlot (slot % 16)

/-- STOP: a STOP bit of JET_CTL (R97). -/
def execStop (jet slot : Nat) (s : State) : Host.Outcome State Fault Refusal :=
  run s fun t => t.onJet jet fun x => x.stopSlot (slot % 16)

/-- READY_CLEAR: a READY bit of JET_STAT (R99). -/
def execReadyClear (jet slot : Nat) (s : State) : Host.Outcome State Fault Refusal :=
  run s fun t => t.onJet jet fun x => x.clearReady (slot % 16)

/-- The jet starts a slot: registers cleared, the kernel's entry address in PC (R92, R112). BADMASK and PAGES_DONE stay
until CLRP, the instruction that R113 gives for clearing them: DESIGN CHOICE (assumption 139). -/
def Jet.begin (x : Jet) (n up : Nat) : Jet :=
  { x with
    queue := x.queue.filter (· != n), running := some n, regs := [], segs := [], bases := [], stopPend := false,
    stopTaken := false, causes := Tbl.filterKeys x.causes fun k => k / 8 != n, pc := BitVec.ofNat 11 (slKernel (x.slot n)), startAt := up }

/-- SLOT_START: the oldest QUEUED slot starts, or ends at once with FORMAT (R92, R95). -/
def doSlotStart (j : Nat) (s : State) : State :=
  if s.awake && j < 8192 && !(s.jet j).isolated && (s.jet j).running.isNone then
    match (s.jet j).queue with
    | [] => s
    | n :: rest =>
      let x := s.jet j
      let v := x.slot n
      if commandOk v (x.kernelLoaded (slKernel v)) (s.ownerOfGroup (jetGroup j)) then s.setJet j (x.begin n s.clk.up)
      else
        s.setJet j { x.toDone n rsFormat 0 0#8 with
          queue := rest
          fault := { JetFault.init with slot := n, result := rsFormat, protocol := x.fault.protocol } }
  else s

/-- SLOT_START. -/
def execSlotStart (jet : Nat) (s : State) : Host.Outcome State Fault Refusal := run s (doSlotStart jet)

/-! ### Sharing the bank pair (R100 to R104) -/

/-- YREQ rises, when the jet has completed a segment since the last yield (R102): with no read under way OWN is low. -/
def doYreqRaise (j : Nat) (s : State) : State :=
  s.onJet j fun x =>
    if x.yreq || x.isolated || !x.segSince then x
    else { x with yreq := true, colsLeft := if x.own then x.colsLeft else s.yieldCols j }

/-- YREQ_RAISE. -/
def execYreqRaise (jet : Nat) (s : State) : Host.Outcome State Fault Refusal := run s (doYreqRaise jet)

/-- YREQ falls once OWN has fallen: the jet regains the pair for the reads it has issued, and YIELDED falls when it does
(R99, R100, R102). -/
def doYreqDrop (j : Nat) (s : State) : State :=
  s.onJet j fun x =>
    if x.yreq && !x.own then
      { x with
        yreq := false, yielded := x.yielded && x.inFlight.isNone, segSince := false, colsLeft := 0
        own := x.inFlight.isSome }
    else x

/-- YREQ_DROP. -/
def execYreqDrop (jet : Nat) (s : State) : Host.Outcome State Fault Refusal := run s (doYreqDrop jet)

/-- SEC_GATE of a gate (11 R357): channel n, 128 + slice, 144 + cluster. -/
def State.gate (s : State) (n : Nat) : Word64 := Tbl.getD s.sec.gates n 0#64

/-- Does an owner gate let through an access with a partition tag (11 R357)? -/
def State.gateAdmits (s : State) (n : Nat) (tag : BitVec 5) (isHost : Bool) : Bool :=
  if tag.getLsbD 4 then !isHost || !s.bar2Off
  else (s.gate n).getLsbD 4 && fld (s.gate n) 0 4 == tag.toNat % 16

/-- A refused access: counted, recorded, the tag's partition fenced (11 R359). -/
def State.gateRefuse (s : State) (n p : Nat) : State :=
  ((s.fault { code := 0x20, srcKind := 12, srcIndex := n, part := some p, addr := 0, syndrome := 0#64,
              place := none }).count cGateRefuse 1).fence p

/-- Is an access of a kind a write? -/
def ordWrites : OrdKind → Bool
  | .pageWrite => true
  | .mirrorWrite => true
  | .migration => true
  | .hostRead => false
  | .scrub => false
  | .refresh => false

/-- An ordinary access reaches the pair while OWN is low, within the yield's columns, through the channel's gate
(R100 to R102, 11 R357). -/
def doOrdinaryAccess (j : Nat) (a : OrdAccess) (s : State) : State :=
  let x := s.jet j
  if s.awake && j < 8192 && grainJet a.grain == j && !x.own && (!x.yreq || decide (a.cols ≤ x.colsLeft)) then
    if !s.gateAdmits (jetChannel j) a.tag (decide (a.kind = .hostRead)) then s.gateRefuse (jetChannel j) (a.tag.toNat % 16)
    else
      let t := if ordWrites a.kind && !a.bytes.isEmpty then
          s.putGrain a.grain (s.isMeta a.grain) (s.wgenOf a.grain (s.isMeta a.grain)) (patch (s.grain a.grain) 0 a.bytes)
        else s
      t.updJet j fun y => { y with colsLeft := y.colsLeft - a.cols }
  else s

/-- ORDINARY_ACCESS. -/
def execOrdinaryAccess (jet : Nat) (acc : OrdAccess) (s : State) : Host.Outcome State Fault Refusal :=
  run s (doOrdinaryAccess jet acc)

/-- OWN_LIMIT_EXPIRY: OWN high more than OWN_LIMIT cycles after YREQ (R123). -/
def execOwnLimitExpiry (jet cycles : Nat) (s : State) : Host.Outcome State Fault Refusal :=
  run s fun t =>
    if t.awake && jet < 8192 && (t.jet jet).own && (t.jet jet).yreq && t.ownLimit jet < cycles then t.hangJet jet else t

/-- SWEEP_LIMIT_EXPIRY: a slot RUNNING longer than SWEEP_LIMIT (R123). -/
def execSweepLimitExpiry (jet cycles : Nat) (s : State) : Host.Outcome State Fault Refusal :=
  run s fun t =>
    if t.awake && jet < 8192 && (t.jet jet).running.isSome && t.sweepLimit jet < cycles then t.hangJet jet else t

/-- JET_RESPONSE_TIMEOUT: no answer to a register access within 1 µs (R123). -/
def execJetResponseTimeout (jet ns : Nat) (s : State) : Host.Outcome State Fault Refusal :=
  run s fun t => if t.awake && jet < 8192 && 1000 < ns then t.hangJet jet else t

end Sys2Proof.Machine
end

