-- ==== Sys2Proof/Machine/Answer.lean ====
section
/-! DEFINITION. Answers: ATTEND_RESPs and their hand-over (04 R154 to R157, 09 R292), completions of the other requests
(08 R244), answers to refused messages (04 R134), and the responses of mailbox commands (14 R449 to R452). -/

namespace Sys2Proof.Machine

/-! ### ATTEND messages (04 R127 to R131) -/

/-- Entries of an ATTEND payload. -/
def atNent (p : List Byte) : Nat := leAt p 1 1 + 1
/-- DLP. -/
def atDlp (p : List Byte) : Nat := field (leAt p 2 1) 0 2
/-- OFMT. -/
def atOfmt (p : List Byte) : Nat := field (leAt p 2 1) 2 2
/-- BIAS. -/
def atBias (p : List Byte) : Bool := bit (leAt p 2 1) 4
/-- SCALE. -/
def atScale (p : List Byte) : F32 := BitVec.ofNat 32 (leAt p 4 4)
/-- DEADLINE. -/
def atDeadline (p : List Byte) : Nat := leAt p 8 6
/-- PSET. -/
def atPset (p : List Byte) : Nat := leAt p 14 2
/-- RESP_SLOT. -/
def atRespSlot (p : List Byte) : Word32 := BitVec.ofNat 32 (leAt p 16 4)
/-- REQ_TAG. -/
def atReqTag (p : List Byte) : Word32 := BitVec.ofNat 32 (leAt p 20 4)

/-! ### ATTEND_RESP (R155) -/

/-- The fields of an ATTEND_RESP header that vary. -/
structure RespInfo where
  status    : Nat
  truncDl   : Bool
  truncErr  : Bool
  solo      : Bool
  sat       : Bool
  hedged    : Bool
  provHeld  : Bool
  entry     : Nat
  ofmt      : Nat
  rowsM1    : Nat
  oscale    : F32
  omitDl    : Nat
  omitErr   : Nat
  reqTag    : Word32
  pset      : Nat
  deriving DecidableEq, Repr

/-- The 32 bytes of an ATTEND_RESP header (R155). -/
def respHeader (i : RespInfo) : List Byte :=
  leBytes 32 (i.status + b2n i.truncDl * 2 ^ 8 + b2n i.truncErr * 2 ^ 9 + b2n i.solo * 2 ^ 10 + b2n i.sat * 2 ^ 11 +
    b2n i.hedged * 2 ^ 12 + b2n i.provHeld * 2 ^ 13 + i.entry * 2 ^ 16 + i.ofmt * 2 ^ 24 + i.rowsM1 * 2 ^ 32 +
    i.oscale.toNat * 2 ^ 64 + i.omitDl * 2 ^ 96 + i.omitErr * 2 ^ 128 + i.reqTag.toNat * 2 ^ 160 + i.pset * 2 ^ 192)

/-- The header of an entry that ends with a failure status: no body, ROWS_M1 0 (R155, R156, R230). -/
def failInfo (st entry ofmt : Nat) (tag : Word32) (pset : Nat) (solo hedged : Bool) : RespInfo :=
  { status := st, truncDl := false, truncErr := false, solo := solo, sat := false, hedged := hedged, provHeld := false,
    entry := entry, ofmt := ofmt, rowsM1 := 0, oscale := f32One, omitDl := 0, omitErr := 0, reqTag := tag, pset := pset }

/-- Is a message of a HOST queue? -/
def Msg.isHost (m : Msg) : Bool := match m.origin with | .host .. => true | _ => false

/-- Is the request a hedge of the twin? -/
def Req.isHedge (x : Req) : Bool := match x.msg.origin with | .hedge .. => true | _ => false

/-- An entry of a request. -/
def Req.entry? (x : Req) (e : Nat) : Option Entry := Tbl.get? x.entries e

/-- Change an entry of a request. -/
def State.updEntry (s : State) (r e : Nat) (f : Entry → Entry) : State :=
  s.updReq r fun x => { x with entries := x.entries.map fun p => if p.1 = e then (p.1, f p.2) else p }

/-- Is an entry still live: its answer neither formed nor settled? -/
def Entry.live (e : Entry) : Bool := !e.sent && e.ended.isNone

/-- Provisional sets dropped by a test. -/
def State.dropProvs (s : State) (p : ProvSet → Bool) : State := { s with provs := s.provs.filter fun x => !p x }

/-- Deliver an entry of a HOST request's completion entry: KIND 1, VALUE the TAG (09 R287). -/
def State.hostDone (s : State) (cq st : Nat) (tag : BitVec 32) : State := s.writeCompletion cq st 1 0 0 tag

/-- Success statuses in the order of R13, with OK last. -/
def successOrder : List Nat := [stTruncated, stSaturated, stSolo]

/-- The status of a HOST ATTEND's completion entry: the first failure of its entries by R14, else the first success
condition by R13 (assumption 15). -/
def combinedStatus (l : List Nat) : Nat :=
  let f := firstFailure l
  if f = stOk then (successOrder.find? fun c => l.contains c).getD stOk else f

/-- The status that an ATTEND_RESP's bytes carry. -/
def respStatus (b : List Byte) : Nat := leAt b 0 1

/-- The ATTEND_RESPs of a HOST request as they are written at RESP_ADDR, each beginning on a 64-byte boundary; nothing is
written beyond RESP_LEN (09 R286, assumption 142). -/
def hostResps (l : List (List Byte)) (len : Nat) : List Byte := (l.flatMap (padMul 64)).take len

/-- The function that owns a queue, whose requester ID the node's writes for it carry (R354). -/
def State.queueFn (s : State) (q : Nat) : Fn := match s.ownerOfQueue q with | some p => .vf p | none => .pf

/-- The last ATTEND_RESP of a request has been handed over: the request is complete; a HOST request's responses and
completion entry are written (07 R219, R220; 09 R286). -/
def State.completeAttend (s : State) (r : Nat) : State :=
  match s.req? r with
  | none => s
  | some x =>
    if x.complete || x.entries.any (fun e => !e.2.sent) then s
    else
      let t := s.setReq r { x with complete := true }
      match x.msg.origin with
      | .host q cq addr len tag =>
        ((t.emit (.hostWrite (t.queueFn q) addr (hostResps (x.entries.map fun e => e.2.formed) len))).hostDone cq
          (combinedStatus (x.entries.map fun e => respStatus e.2.formed)) tag).settleReq r
      | _ => t.settleReq r

/-- Hand an entry's ATTEND_RESP over: its frames to the flow's port, or its bytes to the HOST request's answer. What the
entry reserved beyond them is given back (09 R292); a hand-over after DL_NS counts in DL_LATE (07 R222). -/
def State.handEntry (s : State) (r e : Nat) (b : List Byte) : State :=
  match s.req? r with
  | none => s
  | some x =>
    let resv := (x.entry? e).elim 0 (·.resv)
    let n := max 1 (cdiv b.length 8192)
    let extra := resv - b.length
    let extraD := cdiv resv 8192 - n
    let late := if x.dlNs < s.clk.ftime then 1 else 0
    let t := { s with clk := { s.clk with dlLate := satAdd 64 s.clk.dlLate late } }
    let t := t.updEntry r e fun y => { y with sent := true, formed := b, resv := min resv b.length }
    let send (t : State) (dst : BitVec 13) (k : BitVec 10) (w : BitVec 20) (g : BitVec 16) : State :=
      let t := t.giveBack x.msg.part extra extraD
      let t := t.updReq r fun y =>
        { y with bytes := y.bytes - extra, descs := y.descs - extraD, waitAck := y.waitAck + n }
      t.sendMsg (respHead dst opAttendResp k w g 0#32) b fun m => .release r m
    let t := match x.msg.origin with
      | .fabric src k w g _ _ => send t src k w g
      | .hedge src k w g _ _ _ => send t src k w g
      | .host .. => t
    t.completeAttend r

/-! ### Hedge claims (10 R339 to R341) -/

/-- Send a HEDGE_CLAIM to the twin. -/
def State.sendClaim (s : State) (k : BitVec 10) (claim entry : Nat) (reply granted done decline all : Bool) : State :=
  let imm := claim + entry * 2 ^ 16 + b2n reply * 2 ^ 24 + b2n granted * 2 ^ 25 + b2n done * 2 ^ 26 + b2n decline * 2 ^ 27 +
    b2n all * 2 ^ 28
  s.sendMsg
    { dst := BitVec.ofNat 13 s.twinNode, rclass := 0#2, pclass := 0, opcode := opHedgeClaim, fwd := false, keySlot := k,
      window := 0#20, gen := 0#16, offset := 0, imm := BitVec.ofNat 32 imm } [] fun _ => .none

/-- OPEN. -/
def clOpen : Nat := 0
/-- ORIGIN. -/
def clOrigin : Nat := 1
/-- TWIN. -/
def clTwin : Nat := 2
/-- CLOSED. -/
def clClosed : Nat := 3
/-- TWIN with its DONE (the record retires when every entry is settled). -/
def clTwinDone : Nat := 4

/-- The state of entry e of a claim record. -/
def State.claimOf (s : State) (c e : Nat) : Nat := Tbl.getD (Tbl.getD s.twin.claims c []) e clClosed

/-- Retire a claim record when no entry is OPEN and every TWIN entry has its DONE (R339). -/
def State.retireClaim (s : State) (c : Nat) : State :=
  match Tbl.get? s.twin.claims c with
  | some t =>
    if t.all fun p => p.2 != clOpen && p.2 != clTwin then
      let u := s.updReq (Tbl.getD s.twin.claimReq c 0) fun x => if x.claim == some c then { x with claim := none } else x
      { u with twin := { u.twin with claims := Tbl.erase u.twin.claims c, claimReq := Tbl.erase u.twin.claimReq c } }
    else s
  | none => s

/-- Set the state of entry e of a claim record, counting the entries settled (R350). -/
def State.setClaim (s : State) (c e v : Nat) : State :=
  let t := { s with twin := { s.twin with claims := Tbl.modify s.twin.claims c [] fun m => Tbl.set m e v } }
  let t := if v = clOrigin then t.count cHedgeOrigin 1 else if v = clTwin then t.count cHedgeTwin 1
    else if v = clClosed then t.count cHedgeClosed 1 else t
  t.retireClaim c

/-- An entry's answer is formed: it goes to its source, waits for the claim, or is claimed or declined at the origin
(R341). -/
def State.answerEntry (s : State) (r e : Nat) (b : List Byte) (ok : Bool) : State :=
  match s.req? r with
  | none => s
  | some x =>
    match x.msg.origin with
    | .hedge _ k _ _ c _ _ =>
      if ok then (s.updEntry r e fun y => { y with formed := b }).sendClaim k c e false false false false false
      else
        let t := s.sendClaim k c e false false false true false
        let t := t.giveBack x.msg.part ((x.entry? e).elim 0 (·.resv)) (cdiv ((x.entry? e).elim 0 (·.resv)) 8192)
        let t := t.updReq r fun y => { y with
          bytes := y.bytes - (x.entry? e).elim 0 (·.resv)
          descs := y.descs - cdiv ((x.entry? e).elim 0 (·.resv)) 8192 }
        (t.updEntry r e fun y => { y with sent := true, resv := 0 }).completeAttend r
    | _ =>
      match x.claim with
      | some c =>
        if s.claimOf c e = clOpen then
          (if ok then (s.setClaim c e clOrigin).handEntry r e b
           else s.updEntry r e fun y => { y with formed := b })
        else if s.claimOf c e = clTwin || s.claimOf c e = clTwinDone then s
        else s.handEntry r e b
      | none => s.handEntry r e b

/-- The commands of a request that serve an entry. -/
def JetCmd.serves (c : JetCmd) (e : Nat) : Bool := c.pages.any fun p => p.1 == e

/-- Stop every slot of an entry that holds no page of another live entry of the request; a command not yet in a slot is
dropped (07 R223). -/
def State.stopEntry (s : State) (r e : Nat) : State :=
  match s.req? r with
  | none => s
  | some x =>
    let only (c : JetCmd) : Bool := c.req == r && c.serves e &&
      c.pages.all fun p => p.1 == e || !((x.entry? p.1).elim false Entry.live)
    let l := s.slc.cmds.filter fun c => only c.2
    let t := s.each l fun t c => match c.2.slot with
      | some n => t.updJet c.2.jet fun y => y.stopSlot n
      | none => t
    let gone := (l.filter fun c => c.2.slot.isNone).map Prod.fst
    { t with slc := { t.slc with
        cmds := t.slc.cmds.filter fun c => !gone.contains c.1
        waitCmds := Tbl.mapVals t.slc.waitCmds fun _ w => w.filter fun n => !gone.contains n } }

/-- An entry ends with a failure status: its provisional set is discarded (04 R146), its own slots are stopped, and its
ATTEND_RESP carries no body. An entry that has ended already keeps its first failure. -/
def State.failEntry (s : State) (r e st : Nat) : State :=
  match s.req? r with
  | none => s
  | some x =>
    match x.entry? e with
    | none => s
    | some y =>
      if !y.live then s
      else
        let t := s.updEntry r e fun y => { y with ended := some st, provHeld := false }
        let t := if y.provHeld then
            t.dropProvs fun z => z.req == some r && z.session == y.spec.session && z.layer == y.spec.layer &&
              z.head == y.spec.head
          else t
        let t := t.stopEntry r e
        t.answerEntry r e (respHeader (failInfo st e x.ofmt x.reqTag x.pset s.solo x.isHedge)) false

/-- End every live entry of a request with a failure status (04 R158). -/
def State.failEntries (s : State) (r st : Nat) : State :=
  match s.req? r with
  | none => s
  | some x => s.each x.entries fun t e => t.failEntry r e.1 st

/-- Send the held failure of an entry, once its claim is settled for the origin (R341). -/
def State.releaseHeld (s : State) (r e : Nat) : State :=
  match s.req? r with
  | none => s
  | some x =>
    match x.entry? e with
    | some y => if y.ended.isSome && !y.sent then s.handEntry r e y.formed else s
    | none => s

/-! ### Completions of APPEND, INGEST and COMMIT (08 R244) -/

/-- A success status of a node that acts alone (10 R331). -/
def State.okStatus (s : State) : Nat := if s.solo then stSolo else stOk

/-- Deliver the completion of an APPEND, INGEST or COMMIT, and retire its COMPLETION record at the twin when one was
sent (10 R320). -/
def State.finishReq (s : State) (r st : Nat) : State :=
  match s.req? r with
  | none => s
  | some x =>
    if x.complete then s
    else
      match x.msg.origin with
      | .fabric src k w g imm _ =>
        let t := s.setReq r { x with complete := true, waitAck := x.waitAck + 1 }
        let t := t.sendCompletion src k w g imm st (.release r 0)
        if x.atomic then t.mirror x.msg.part [t.doneRec mkRetire x.msg.part src.toNat (imm.toNat / 256) 0] else t
      | .host _ cq _ _ tag => ((s.setReq r { x with complete := true }).hostDone cq st tag).settleReq r
      | .hedge .. => s

/-! ### Refused messages (04 R134, 09 R291) -/

/-- The ATTEND_RESP of entry e of an ATTEND refused whole (R134). -/
def State.refusedResp (s : State) (m : Msg) (st e : Nat) : List Byte :=
  respHeader (failInfo st e (atOfmt m.payload) (atReqTag m.payload) (atPset m.payload) s.solo false)

/-- The ATTEND_RESPs of a fabric ATTEND refused whole, one per entry; the last frees the ring entry. -/
def State.refuseAttend (s : State) (m : Msg) (src : BitVec 13) (k : BitVec 10) (w : BitVec 20) (g : BitVec 16)
    (st : Nat) : State :=
  let n := atNent m.payload
  s.each (List.range n) fun t e =>
    t.sendMsg (respHead src opAttendResp k w g 0#32) (s.refusedResp m st e) fun _ =>
      if e + 1 = n then .ringFree m.queue m.ring else .none

/-- The last frame of a READ_RESP, at a byte of the read, with a failure status and no payload (08 R242). -/
def State.refuseRead (s : State) (at_ : Nat) (src : BitVec 13) (k : BitVec 10) (w : BitVec 20) (g : BitVec 16)
    (imm : BitVec 32) (st : Nat) (done : OnDone) : State :=
  let f := (msgFrames { respHead src opReadResp k w g imm with offset := at_ } s.slc.nextMsg [] fun _ => done).map
    fun f => { f with status := BitVec.ofNat 8 st, first := at_ == 0 }
  ({ s with slc := { s.slc with nextMsg := s.slc.nextMsg + 1 } }).queueFrames f

/-- Answer a HOST message that is refused: an ATTEND by an ATTEND_RESP per entry (R134, R154); then its completion entry,
when its queue has a free one (assumption 16). -/
def State.refuseHost (s : State) (m : Msg) (st q cq addr len : Nat) (tag : BitVec 32) : State :=
  let t := if m.opcode = opAttend then
      s.emit (.hostWrite (s.queueFn q) addr (hostResps ((List.range (atNent m.payload)).map (s.refusedResp m st)) len))
    else s
  if 0 < t.cqFree cq then t.hostDone cq st tag else t

/-- Answer a landed message that is refused: headers formed from its ring entry (R134, 09 R291). -/
def State.refuseMsg (s : State) (m : Msg) (st : Nat) : State :=
  match m.origin with
  | .fabric src k w g imm _ =>
    if m.opcode = opAttend then s.refuseAttend m src k w g st
    else if m.opcode = opReadReq then s.refuseRead 0 src k w g imm st (.ringFree m.queue m.ring)
    else s.sendCompletion src k w g imm st (.ringFree m.queue m.ring)
  | .host q cq addr len tag => s.refuseHost m st q cq addr len tag
  | .hedge _ k _ _ c _ _ => s.sendClaim k c 0 false false false true true

/-- End an admitted request of any kind with a failure status (04 R158, 09 R294). -/
def State.endReq (s : State) (r st : Nat) : State :=
  match s.req? r with
  | none => s
  | some x =>
    if x.complete then s
    else if x.msg.opcode = opAttend then
      let t := match x.claim with
        | some c => s.each x.entries fun t e => if t.claimOf c e.1 = clOpen then t.setClaim c e.1 clClosed else t
        | none => s
      let t := t.failEntries r st
      t.each x.entries fun t e => t.releaseHeld r e.1
    else if x.msg.opcode = opReadReq then
      match x.msg.origin with
      | .fabric src k w g imm _ =>
        let t := s.setReq r { x with complete := true, readLeft := 0, waitAck := x.waitAck + 1 }
        t.refuseRead (x.readAt - x.msg.offset) src k w g imm st (.release r 0)
      | _ => s
    else s.finishReq r st

/-! ### Reads (08 R242, 09 R290) -/

/-- Queue the next READ_RESP frames of a read, up to its reservation; `retake` takes a released frame's share again.
`fuel` bounds the frames. -/
def State.pumpRead (s : State) (r : Nat) (retake : Bool) : Nat → State
  | 0 => s
  | fuel + 1 =>
    match s.req? r with
    | none => s
    | some x =>
      match x.msg.origin with
      | .fabric src k w g imm _ =>
        let total := leAt x.msg.payload 0 4
        if x.readLeft = 0 || cdiv (min total 65536) 8192 ≤ x.waitAck then s
        else
          let n := min 8192 x.readLeft
          let f : TxFrame :=
            { dst := src, rclass := 2#2, pclass := 2, opcode := opReadResp, first := x.readAt == x.msg.offset,
              last := x.readLeft ≤ 8192, fwd := false, status := 0#8, keySlot := k, window := w, gen := g,
              offset := BitVec.ofNat 40 (x.readAt - x.msg.offset), imm := imm, pay := .window w.toNat x.revAt (x.winAddr + x.readAt) n,
              msg := x.msg.id, voided := false, done := .release r n }
          let t := if retake then s.takeShare x.msg.part n 1 else s
          let x := if retake then { x with bytes := x.bytes + n, descs := x.descs + 1 } else x
          let t := t.setReq r { x with
            readLeft := x.readLeft - n, readAt := x.readAt + n, waitAck := x.waitAck + 1
            complete := x.readLeft ≤ 8192 }
          (t.queueFrame f).pumpRead r retake fuel
      | _ => s

/-! ### Mailbox responses (14 R449, R452) -/

/-- A response's header and body (R452): the body is empty when STATUS is 0x10 or above. -/
def State.respBytes (s : State) (op seq : BitVec 16) (st : Nat) (body : List Byte) : List Byte :=
  let b := if 0x10 ≤ st then [] else body
  leBytes 16 (st + op.toNat * 2 ^ 16 + b.length * 2 ^ 32 + seq.toNat * 2 ^ 48 + s.clk.ftime * 2 ^ 64) ++ b

/-- The index of an SPDM endpoint: function p + 1's DOE at 1 + p, the physical function's at 0, MCTP at 17. -/
def spdmIndex : SpdmEp → Nat
  | .fn .pf => 0
  | .fn (.vf p) => 1 + p
  | .mctp => 17

/-- Keep a transport response for its source: the 64 most recently served (R450). -/
def keepResp (l : List (Nat × BitVec 16 × List Byte)) (src : Nat) (seq : BitVec 16) (b : List Byte) :
    List (Nat × BitVec 16 × List Byte) :=
  let k := (l.filter fun p => p.1 != src) ++ [(src, seq, b)]
  k.drop (k.length - 64)

/-- Send response bytes as a WRITE_IMM on class 0 (08 R246). -/
def State.sendResp (s : State) (src : BitVec 13) (k : BitVec 10) (w : BitVec 20) (imm : BitVec 32) (b : List Byte) :
    State :=
  s.sendMsg
    { dst := src, rclass := 0#2, pclass := 0, opcode := opWriteImm, fwd := false, keySlot := k, window := w, gen := 0#16,
      offset := 0, imm := imm } b fun _ => .response

/-- Answer a mailbox command on its own path (R447, R449, R450). -/
def State.respond (s : State) (op : BitVec 16) (c : AgtanCmd) (st : Nat) (body : List Byte) : State :=
  let b := s.respBytes op c.seq st body
  match c.path with
  | .bar0 fn vec irq =>
    let t := s.updMbox c.mb fun m => { m with
      resp := Memory.cells 0 (padTo 2048 b), result := BitVec.ofNat 8 st, seqDone := c.seq, state := 2 }
    if irq then t.signal fn vec else t
  | .spdm ep _ =>
    let i := spdmIndex ep
    let t := { s with sec := { s.sec with
      spdm := Tbl.modify s.sec.spdm i Spdm.init fun x => { x with kept := some (c.seq, b) } } }
    t.emit (.spdm ep "VENDOR_DEFINED_RESPONSE" b 0)
  | .wt src k w imm =>
    (s.updMbox c.mb fun m => { m with kept := keepResp m.kept src.toNat c.seq b }).sendResp src k w imm b
  | .fwd src k w imm => s.sendResp src k w imm b
  | .mctp => (s.updMbox c.mb fun m => { m with mctpSeq := some (c.seq, b) }).emit (.mctp b)

end Sys2Proof.Machine
end

