-- ==== Sys2Proof/Machine/Twin.lean ====
section
/-! DEFINITION. The writer's completions, forwarding to the twin, and solo mode (10 R325 to R332). -/

namespace Sys2Proof.Machine

/-! ### A change's completion (R327) -/

/-- A success status as a node that acts alone reports it (R331): OK becomes OK_SOLO. -/
def State.soloStatus (s : State) (st : Nat) : Nat := if st = stOk && s.solo then stSolo else st

/-- The addressed partition, when a command has passed its checks. -/
def cmdPart (c : AgtanCmd) : Nat := if 1 ≤ c.mb then c.mb - 1 else c.part.toNat

/-- The code of SESSION_CLOSE (14 R456). -/
def sessionCloseCode : BitVec 16 := 0x0081

/-- What completes with a mailbox command's answer: a SESSION_CLOSE clears the session's scale records (05 R177). -/
def State.completes (s : State) (op : BitVec 16) (c : AgtanCmd) : State :=
  if op = sessionCloseCode then s.updPart (cmdPart c) fun p => p.dropScales (leNat c.body) else s

/-- Retire the COMPLETION record of a command that a fabric source sent, as its answer goes out (R320). -/
def State.retireCmd (s : State) (c : AgtanCmd) : State :=
  match c.path with
  | .wt src _ _ imm => s.mirror (cmdPart c) [s.doneRec mkRetire (cmdPart c) src.toNat (imm.toNat / 256) 0]
  | .fwd src _ _ imm => s.mirror (cmdPart c) [s.doneRec mkRetire (cmdPart c) src.toNat (imm.toNat / 256) 0]
  | _ => s

/-- Deliver a change's answer. -/
def State.deliver (s : State) : Reply → State
  | .request r st => s.finishReq r (s.soloStatus st)
  | .mailbox op c st body => ((s.completes op c).respond op c (s.soloStatus st) body).retireCmd c

/-- The COMPLETION record of a reply that goes to a fabric source (R318, R320): none for a host's own commands. -/
def State.completionRec (s : State) (p : Nat) : Reply → List MRec
  | .request r st =>
    match s.req? r with
    | some x => (match x.msg.origin with
        | .fabric src _ _ _ imm _ => [s.doneRec mkCompletion p src.toNat (imm.toNat / 256) st]
        | _ => [])
    | none => []
  | .mailbox _ c st _ =>
    match c.path with
    | .wt src _ _ imm => [s.doneRec mkCompletion p src.toNat (imm.toNat / 256) st]
    | .fwd src _ _ imm => [s.doneRec mkCompletion p src.toNat (imm.toNat / 256) st]
    | _ => []

/-- A change has been applied locally: its records are mirrored with the completion's own, and the answer waits for
APPLIED when PAIRED; otherwise it is delivered at once (R327). -/
def State.commitChange (s : State) (p : Nat) (recs : List MRec) (reply : Reply) : State :=
  let now := s.clk.ftime
  let t := { s with twin := { s.twin with lastChange := now } }
  let t := t.mirror p (recs ++ t.completionRec p reply)
  let c : Change := { stamp := now, sentAt := now, reply := reply }
  if t.twin.state = twPaired then { t with twin := { t.twin with changes := t.twin.changes ++ [c] } }
  else t.deliver reply

/-- Deliver the changes that APPLIED covers (R327). -/
def State.coverChanges (s : State) (applied : Nat) : State :=
  let done := s.twin.changes.filter fun c => decide (c.stamp ≤ applied)
  let t := { s with twin := { s.twin with
    applied := max s.twin.applied applied
    changes := s.twin.changes.filter fun c => decide (applied < c.stamp) } }
  t.each done fun t c => t.deliver c.reply

/-! ### Forwarding (R326) -/

/-- Take a forward out of the table. -/
def State.dropForward (s : State) (id : Nat) : State :=
  { s with twin := { s.twin with forwards := s.twin.forwards.filter fun f => f.id != id } }

/-- A forwarded message is completed at its source with a status: the twin's, or that of the failed forward (R326). -/
def State.settleForward (s : State) (f : Fwd) (st : Nat) (body : List Byte) : State :=
  let t := s.dropForward f.id
  match f.msg, f.cmd with
  | some m, _ => (match m.origin with
      | .fabric src k w g imm _ => t.sendCompletion src k w g imm st (.ringFree m.queue m.ring)
      | _ => t)
  | _, some (op, c) => t.respond op c st body
  | _, _ => t

/-- A forward has failed before the twin took it. -/
def State.failForward (s : State) (id st : Nat) : State :=
  match s.twin.forwards.find? fun f => f.id == id with
  | some f => s.settleForward f st []
  | none => s

/-- A forward whose peer is marked UNREACHABLE completes so at once (08 R261). -/
def State.checkForward (s : State) (dst id : Nat) : State :=
  if s.unreachable dst then s.failForward id stUnreach else s

/-- Forward a landed message once to the twin: FWD set, WINDOW, GEN and KEY_SLOT kept; the ring entry stays. A message
keeps the class of the queue it landed on (09 R295). -/
def State.forwardMsg (s : State) (m : Msg) : State :=
  match m.origin with
  | .fabric _ k w g imm _ =>
    let id := s.twin.nextFwd
    let f : Fwd := { id := id, msg := some m, cmd := none }
    let t := { s with twin := { s.twin with nextFwd := id + 1, forwards := s.twin.forwards ++ [f] } }
    ((t.count cFwd 1).sendMsg
      { dst := BitVec.ofNat 13 s.twinNode, rclass := 3#2, pclass := qClass (s.queue m.queue).ctx, opcode := m.opcode,
        fwd := true, keySlot := k, window := w, gen := g, offset := 0, imm := imm } m.payload fun _ => .forward id).checkForward
      s.twinNode id
  | _ => s

/-- A mailbox command's bytes: header and body (14 R451). -/
def cmdBytes (op : BitVec 16) (c : AgtanCmd) : List Byte :=
  leBytes 16 (op.toNat + c.len.toNat * 2 ^ 16 + fld c.rsvd 0 6 * 2 ^ 26 + c.part.toNat * 2 ^ 32 +
    (c.rsvd.toNat / 64) * 2 ^ 36) ++ c.body

/-- The key slot, window and immediate under which a forwarded mailbox command travels: its own, or, for a command of
another path, the partition's mirror slot, the mailbox's window and the number of the forward (assumption 17). -/
def fwdFields (c : AgtanCmd) (id : Nat) : BitVec 10 × BitVec 20 × BitVec 32 :=
  match c.path with
  | .wt _ k w imm => (k, w, imm)
  | .fwd _ k w imm => (k, w, imm)
  | _ => (BitVec.ofNat 10 (c.mb - 1 + 1), BitVec.ofNat 20 (0x10000 + c.mb), BitVec.ofNat 32 (id % 65536))

/-- Forward a session or resident-set command once to the twin, or a SESSION_OPEN to the pair its key belongs to (R326,
R345, 14 R456). -/
def State.forwardCmd (s : State) (dst : Nat) (op : BitVec 16) (c : AgtanCmd) : State :=
  let id := s.twin.nextFwd
  let f := fwdFields c id
  let w : Fwd := { id := id, msg := none, cmd := some (op, c) }
  let t := { s with twin := { s.twin with nextFwd := id + 1, forwards := s.twin.forwards ++ [w] } }
  ((t.count cFwd 1).sendMsg
    { dst := BitVec.ofNat 13 dst, rclass := 0#2, pclass := 0, opcode := opWriteImm, fwd := true, keySlot := f.1,
      window := f.2.1, gen := 0#16, offset := 0, imm := f.2.2 } (cmdBytes op c) fun _ => .forward id).checkForward dst id

/-- Land a message again at its queue, or give a command back to its mailbox: a node that has become the writer of
everything completes what it had forwarded (14 R464). -/
def State.takeBack (s : State) (f : Fwd) : State :=
  let t := s.dropForward f.id
  match f.msg, f.cmd with
  | some m, _ => t.updQueue m.queue fun q => { q with landed := m :: q.landed }
  | _, some (op, c) => t.updMbox c.mb fun x => { x with accepted := (op, c) :: x.accepted }
  | _, _ => t

/-! ### Solo mode (R330, R331, R342) -/

/-- Drop every MIRROR message outstanding to the twin: queued, and transmitted without acknowledgement (R331). -/
def State.dropMirror (s : State) : State :=
  let t := s.unqueueFlow s.twinNode 1
  let f := t.tx t.twinNode 1
  t.setTx t.twinNode 1 { f with
    sent := [], una := f.next, timerAt := none, expiries := 0, goBack := none, needSync := true, syncNow := false }

/-- The entries of a request's claim record when the node turns solo (R342): OPEN becomes CLOSED and a held failure goes
out; an entry that the twin had claimed without DONE ends with CANCELLED. -/
def State.soloClaim (s : State) (c r : Nat) : State :=
  s.each (Tbl.getD s.twin.claims c []) fun t p =>
    if p.2 = clOpen then (t.setClaim c p.1 clClosed).releaseHeld r p.1
    else if p.2 = clTwin then
      match t.req? r with
      | none => t
      | some x =>
        let u := t.setClaim c p.1 clTwinDone
        let b := respHeader (failInfo stCancelled p.1 x.ofmt x.reqTag x.pset true false)
        match x.msg.origin with
        | .fabric src k w g _ _ => u.sendMsg (respHead src opAttendResp k w g 0#32) b fun _ => .none
        | _ => u
    else t

/-- The completions of the partner's COMPLETION records without RETIRE (R331): to the record's source, or, for what
this node had forwarded itself, to the source of the forward. -/
def State.partnerDones (s : State) : State :=
  let l := s.twin.partner
  let t := { s with twin := { s.twin with partner := [] } }
  t.each l fun t d =>
    if d.src.toNat == t.nodeId then
      match t.twin.forwards.find? fun f => match f.msg, f.cmd with
          | some m, _ => (match m.origin with
              | .fabric _ _ _ _ imm _ => imm.toNat / 256 == d.tag.toNat
              | _ => false)
          | _, some (_, c) => (fwdFields c f.id).2.2.toNat / 256 == d.tag.toNat
          | _, _ => false with
      | some f => t.settleForward f d.status.toNat []
      | none => t
    else
      t.sendCompletion d.src d.slot d.window d.gen (BitVec.ofNat 32 (d.tag.toNat * 256)) d.status.toNat .none

/-- A hedge of the twin that this node holds: its slots are stopped, its reservation given back, and nothing is sent
(R342). -/
def State.dropHedge (s : State) (r : Nat) : State :=
  match s.req? r with
  | none => s
  | some x =>
    let t := s.each x.entries fun t e => (t.updEntry r e.1 fun y => { y with ended := some stCancelled }).stopEntry r e.1
    (t.updReq r fun y => { y with
      complete := true
      entries := y.entries.map fun e => (e.1, { e.2 with sent := true }) }).settleReq r

/-- Enter SOLO (R330, R331, R342). -/
def State.enterSolo (s : State) : State :=
  if s.twin.state = twPaired || s.twin.state = twJoining || s.twin.state = twSrc then
    let t := { s with twin := { s.twin with state := twSolo } }
    let t := (t.count cSoloEntry 1).dropMirror
    let ch := t.twin.changes
    let t := { t with twin := { t.twin with changes := [] } }
    let t := t.each ch fun t c => t.deliver c.reply
    let t := t.partnerDones
    let t := t.each t.twin.forwards fun t f => t.takeBack f
    let t := t.each t.twin.claimReq fun t p => t.soloClaim p.1 p.2
    t.each (t.slc.reqs.filter fun x => x.2.isHedge && !x.2.complete) fun t x => t.dropHedge x.1
  else s

end Sys2Proof.Machine
end

