-- ==== Sys2Proof/Machine/Flow.lean ====
section
/-! DEFINITION. The sender side of Woarnys transport: acknowledgement, go-back-N, refusals, flow failure, probes, paths
(08 R250, R258 to R265), and the timers of both sides. -/

namespace Sys2Proof.Machine

/-! ### Ports' counters (12 R405) -/

/-- WT_RUNT. -/
def pcRunt : Nat := 0
/-- WT_OVERSIZE. -/
def pcOversize : Nat := 1
/-- WT_FCS. -/
def pcFcs : Nat := 2
/-- WT_UNTAGGED. -/
def pcUntagged : Nat := 3
/-- WT_OTHER. -/
def pcOther : Nat := 4
/-- WT_MALFORMED. -/
def pcMalformed : Nat := 5
/-- WT_MISDELIVERED. -/
def pcMisdelivered : Nat := 6
/-- SLC_LAND_STALL. -/
def pcLandStall : Nat := 7
/-- FLT_LINK_DOWN. -/
def pcLinkDown : Nat := 8
/-- FLT_LANE_SWAP. -/
def pcLaneSwap : Nat := 9

/-! ### Outcomes of messages -/

/-- What of a message's end each of its frames holds on its own: a reservation, a ring entry. -/
def OnDone.held : OnDone → OnDone
  | .release r b => .release r b
  | .ringFree q e => .ringFree q e
  | _ => .none

/-- The claims of a record are over: OPEN entries become CLOSED and their held failures go out (10 R341, R342). -/
def State.closeClaims (s : State) (c : Nat) : State :=
  let r := Tbl.getD s.twin.claimReq c 0
  s.each (Tbl.getD s.twin.claims c []) fun t p =>
    if p.2 = clOpen then (t.setClaim c p.1 clClosed).releaseHeld r p.1 else t

/-- Stop the frames of a read that are still to be formed (08 R242): the request waits only for its acknowledgements. -/
def State.stopRead (s : State) (r : Nat) : State :=
  s.updReq r fun x => if x.msg.opcode = opReadReq then { x with readLeft := 0, complete := true } else x

/-- A MIRROR message was refused: it is formed again and sent once more; three refusals in succession are a failed flow
(10 R324). -/
def State.mirrorRefused (s : State) (f : TxFrame) (again : Bool) : State :=
  let t := { s with twin := { s.twin with refusals := s.twin.refusals + 1 } }
  if 3 ≤ t.twin.refusals then t.enterSolo
  else if again then t
  else match f.pay with
    | .mirror p l =>
      let h : MsgHead :=
        { dst := f.dst, rclass := f.rclass, pclass := f.pclass, opcode := f.opcode, fwd := false, keySlot := f.keySlot,
          window := 0#20, gen := 0#16, offset := 0, imm := f.imm }
      let n := t.slc.nextMsg
      let u := { t with slc := { t.slc with nextMsg := n + 1 } }
      u.queueFrames ((msgFrames h n (u.mirrorPayload l) fun _ => .mirror true).map fun g => { g with pay := .mirror p l })
    | _ => t

/-- A message ends, once for all its frames: a status of the peer, or of the transport (R258, R261). -/
def State.endMsg (s : State) (f : TxFrame) (st : Nat) (refused : Bool) : State :=
  match f.done with
  | .mirror again =>
    if st = stOk then { s with twin := { s.twin with refusals := 0 } }
    else if refused then s.mirrorRefused f again else s
  | .forward id => if st = stOk then s else s.failForward id st
  | .hedge c => if st = stOk then s else s.closeClaims c
  | .release r _ => if st = stOk then s else s.stopRead r
  | _ => s

/-- A frame ends with its message's status: what it holds is released; the message ends with its last frame. `drop`: a
response so ended is lost (R261, 11 R376). -/
def State.endSent (s : State) (f : TxFrame) (st : Nat) (drop : Bool) : State :=
  let t := s.endFrame f drop
  if f.last then t.endMsg f st false else t

/-- The reads among some frames whose LAST frame is still to be formed end with their flow (R258, R261): nothing more of
them is formed, and one that is dropped under R261 counts as lost. -/
def State.cutReads (s : State) (l : List TxFrame) (drop : Bool) : State :=
  let ids := (l.filterMap fun f => match f.done with | .release r _ => some r | _ => none).eraseDups
  s.each ids fun t r =>
    match t.req? r with
    | some x => if x.msg.opcode = opReadReq && !x.complete then
        (let u := t.stopRead r; if drop then u.count cRespLost 1 else u) else t
    | none => t

/-- Outstanding and queued messages of a failed or forgotten flow end with UNREACHABLE. -/
def State.endAll (s : State) (l : List TxFrame) (drop : Bool) : State :=
  (s.cutReads l drop).each l fun t x => t.endSent x stUnreach drop

/-- Change every frame of a message: transmitted, or still queued. -/
def State.mapMsg (s : State) (dst c msg : Nat) (g : TxFrame → TxFrame) : State :=
  let f := s.tx dst c
  let h (x : TxFrame) : TxFrame := if x.ofFlow dst c && x.msg == msg then g x else x
  let t := s.setTx dst c { f with sent := f.sent.map fun x => { x with fr := h x.fr } }
  { t with wt := { t.wt with ports := Tbl.mapVals t.wt.ports fun _ p =>
      { p with classes := Tbl.mapVals p.classes fun _ l => l.map h } } }

/-! ### Acknowledgement (R258) -/

/-- The extended sequence that a received SEQ names on a sender flow. -/
def TxFlow.named (f : TxFlow) (seq : BitVec 24) : Nat :=
  let d := (seq.toNat + 2 ^ 24 - f.una % 2 ^ 24) % 2 ^ 24
  if d < 2 ^ 23 then f.una + d else f.una - (2 ^ 24 - d)

/-- Release everything below a sequence: UNA, expiry count, timer (R258). -/
def State.ackTo (s : State) (dst c seq : Nat) : State :=
  let f := s.tx dst c
  if seq ≤ f.una || f.next < seq then s
  else
    let gone := f.sent.filter fun x => decide (x.seq < seq)
    let left := f.sent.filter fun x => decide (seq ≤ x.seq)
    let t := s.setTx dst c { f with
      una := seq
      sent := left
      expiries := 0
      timerAt := if left.isEmpty then none else some (s.clk.ftime + 20000)
      goBack := match f.goBack with
        | some g => if seq < f.next then some (max g seq) else none
        | none => none }
    t.each gone fun t x =>
      let u := t.endSent x.fr stOk false
      match x.fr.done with
      | .release r _ => u.pumpRead r true 128
      | _ => u

/-! ### Flow failure (R261, R264) -/

/-- Fail one flow to a peer: every outstanding and queued message ends with UNREACHABLE. -/
def State.failFlow (s : State) (dst c : Nat) : State :=
  let f := s.tx dst c
  let l := f.sent.map (·.fr) ++ s.queuedOf dst c
  let t := (s.unqueueFlow dst c).setTx dst c { f with
    una := f.next, sent := [], timerAt := none, expiries := 0, goBack := none, backFrom := none, needSync := true,
    syncNow := false }
  (t.count cFlowFail 1).endAll l true

/-- A flow fails: its peer is UNREACHABLE and every flow to it fails; with the twin a node that serves beside it enters
solo mode (R264, 10 R330; one that is still JOINING or RESYNC_DST leaves by 10 R329 only). -/
def State.failPeer (s : State) (dst : Nat) : State :=
  let t := { s with wt := { s.wt with
    unreachable := Tbl.set s.wt.unreachable dst s.clk.ftime
    probes := Tbl.set s.wt.probes dst s.clk.ftime } }
  let t := t.each [0, 1, 2, 3] fun t c => t.failFlow dst c
  if t.pairEn && dst == t.twinNode && (t.twin.state == twPaired || t.twin.state == twSrc) then t.enterSolo else t

/-- Clear a peer's UNREACHABLE mark (R263): each flow to it begins with a VOID frame with SYNC at its NEXT. -/
def State.clearUnreachable (s : State) (dst : Nat) : State :=
  if s.unreachable dst then
    let t := { s with wt := { s.wt with
      unreachable := Tbl.erase s.wt.unreachable dst
      probes := Tbl.erase s.wt.probes dst } }
    t.each [0, 1, 2, 3] fun t c =>
      if (Tbl.get? t.wt.tx (4 * dst + c)).isSome then t.setTx dst c { t.tx dst c with needSync := true } else t
  else s

/-! ### Go-back (R258, R260) -/

/-- Go back to a sequence: every frame from it to NEXT − 1 is sent again; ATTEMPT 65,535 fails the flow. -/
def State.goBackTo (s : State) (dst c seq : Nat) (timer : Bool) : State :=
  let f := s.tx dst c
  if f.sent.any fun x => decide (seq ≤ x.seq ∧ 65534 ≤ x.attempt) then s.failPeer dst
  else if f.sent.isEmpty then s
  else s.setTx dst c { f with
    goBack := some (max seq f.una), backFrom := some (seq, s.clk.ftime), backTimer := timer }

/-- The frame at an outstanding sequence. -/
def TxFlow.at? (f : TxFlow) (seq : Nat) : Option Sent := f.sent.find? fun x => x.seq == seq

/-- A NAK with SYNC: the receiver holds no state (R258): every outstanding message ends with UNREACHABLE, and a VOID frame
with SYNC at NEXT is due. -/
def State.nakSync (s : State) (dst c : Nat) : State :=
  let f := s.tx dst c
  let ids := (f.sent.map fun x => x.fr.msg).eraseDups
  let mine (x : TxFrame) : Bool := x.ofFlow dst c && ids.contains x.msg
  let l := f.sent.map (·.fr) ++ (s.queuedOf dst c).filter mine
  let t := { s with wt := { s.wt with ports := Tbl.mapVals s.wt.ports fun _ p =>
      { p with classes := Tbl.mapVals p.classes fun _ q => q.filter fun x => !mine x } } }
  let t := t.setTx dst c { f with
    una := f.next, sent := [], timerAt := none, expiries := 0, goBack := none, backFrom := none, needSync := true,
    syncNow := true }
  t.endAll l false

/-- A refusal NAK: acts as the ACK and ends the message that holds the named frame with its status (R258). -/
def State.nakRefusal (s : State) (dst c seq named st : Nat) : State :=
  match (s.tx dst c).at? named with
  | none => s.ackTo dst c seq
  | some x =>
    let t := s.mapMsg dst c x.fr.msg fun g => { g with done := g.done.held }
    (t.ackTo dst c seq).endMsg x.fr st true

/-- A key NAK of an outstanding sequence (R256, R258): the first goes back; the second ends the message with KEY_INVALID
and sends its frames again as VOID frames. -/
def State.nakKey (s : State) (dst c seq named : Nat) : State :=
  match (s.tx dst c).at? named with
  | none => s.count cBadAck 1
  | some x =>
    let t := s.ackTo dst c seq
    if x.keyNaks = 0 then
      let f := t.tx dst c
      let u := t.setTx dst c { f with
        sent := f.sent.map fun y => if y.seq = named then { y with keyNaks := 1 } else y }
      u.goBackTo dst c seq false
    else
      let u := t.mapMsg dst c x.fr.msg fun g => { g with done := g.done.held, voided := true }
      (u.endMsg x.fr stKey false).goBackTo dst c seq false

/-- Is a received SEQ beyond NEXT? A probe's own acknowledgement is not (R263). -/
def TxFlow.beyond (f : TxFlow) (seq : Nat) : Bool :=
  decide (f.next < seq) && !(0 < f.syncAttempt && seq == f.next + 1)

/-- An ACK of a flow to a peer (R258). -/
def State.takeAck (s : State) (src c : Nat) (h : Hdr) : State :=
  let f := s.tx src c
  let q := f.named h.seq
  if f.beyond q then s.count cBadAck 1 else s.ackTo src c q

/-- A NAK of a flow to a peer (R258). -/
def State.takeNak (s : State) (src c : Nat) (h : Hdr) : State :=
  let f := s.tx src c
  let q := f.named h.seq
  let named := f.named (h.imm.extractLsb' 0 24)
  if f.beyond q then s.count cBadAck 1
  else if h.sync then s.nakSync src c
  else if h.status = 0#8 then
    let t := s.ackTo src c q
    let recent := match f.backFrom with
      | some (b, at_) => b == q && decide (s.clk.ftime < at_ + 20000)
      | none => false
    if recent then t else t.goBackTo src c q false
  else if h.status.toNat = stKey then s.nakKey src c q named
  else s.nakRefusal src c q named h.status.toNat

/-! ### Timers -/

/-- RETRANSMIT_TIMER_EXPIRY (R258, R259). -/
def doRetransmitTimerExpiry (dst c : Nat) (s : State) : State :=
  let f := s.tx dst c
  match f.timerAt with
  | none => s
  | some at_ =>
    if !s.serving || s.clk.ftime < at_ || f.sent.isEmpty then s
    else
      let k := f.expiries + 1
      if 8 ≤ k then s.failPeer dst
      else
        let t := s.setTx dst c { f with
          expiries := k, timerAt := some (s.clk.ftime + 1000 * min (20 * 2 ^ k) 2000) }
        let t := if k = 3 then t.moveFlow dst c else t
        t.goBackTo dst c f.una true

/-- RETRANSMIT_TIMER_EXPIRY. -/
def execRetransmitTimerExpiry (dst : Nat) (rclass : BitVec 2) (now : Nat) (s : State) :
    Host.Outcome State Fault Refusal :=
  run s fun t => doRetransmitTimerExpiry dst rclass.toNat (t.upTo now)

/-- ACK_TIMER_EXPIRY: 2 µs after the oldest accepted frame not yet acknowledged (R255). -/
def doAckTimerExpiry (src c : Nat) (s : State) : State :=
  let f := s.rx src c
  match f.oldest with
  | some at_ => if s.serving && decide (at_ + 2000 ≤ s.clk.ftime) then s.setRx src c { f with ackDue := true } else s
  | none => s

/-- ACK_TIMER_EXPIRY. -/
def execAckTimerExpiry (src : Nat) (rclass : BitVec 2) (now : Nat) (s : State) : Host.Outcome State Fault Refusal :=
  run s fun t => doAckTimerExpiry src rclass.toNat (t.upTo now)

/-! ### Probes (R263) -/

/-- The incarnation that SYNC frames carry (R252). -/
def State.incarnation (s : State) : Word32 := s.wt.incarnation

/-- The header of a VOID frame with SYNC of a flow at an extended sequence (R492). -/
def State.syncHdr (s : State) (dst c ext attempt : Nat) : Hdr :=
  { Hdr.zero with
    first := true, last := true, acknow := true, void := true, sync := true, rclass := BitVec.ofNat 2 c,
    dst := BitVec.ofNat 13 dst, src := BitVec.ofNat 13 s.nodeId, seq := BitVec.ofNat 24 ext,
    attempt := BitVec.ofNat 16 attempt, offset := BitVec.ofNat 40 ext, imm := s.wt.incarnation,
    stamp := BitVec.ofNat 64 s.clk.ftime }

/-- A port on which a flow's own frames leave now: its port, or a member of the bond. -/
def State.egressOf (s : State) (dst c : Nat) : Option Nat :=
  let p := s.flowPort dst c
  if p = bondPort then s.bond[s.wt.bondTurn % s.bond.length]? else if p < 24 then some p else none

/-- Is the egress of a flow's class paused by the peer of its port (R266)? -/
def State.pausedFor (s : State) (dst c : Nat) : Bool :=
  match s.egressOf dst c with
  | some p => (Tbl.get? (s.port p).paused (s.pcp c)).isSome
  | none => false

/-- PEER_PROBE: a VOID frame with SYNC on class 0 at that flow's NEXT, each with ATTEMPT one greater (R263). The port waits
while the peer pauses the class's priority (R266). -/
def doPeerProbe (peer : Nat) (s : State) : State :=
  match Tbl.get? s.wt.probes peer with
  | none => s
  | some last =>
    if !s.serving || !s.idValid || !s.slot0 || !s.unreachable peer || s.clk.ftime < last + 1000000 ||
        s.pausedFor peer 0 then s
    else
      let t := { s with wt := { s.wt with probes := Tbl.set s.wt.probes peer s.clk.ftime } }
      let t := t.pin peer 0
      let f := t.tx peer 0
      let h := t.syncHdr peer 0 f.next f.syncAttempt
      let g := if 65534 ≤ f.syncAttempt then { f with una := f.next + 1, next := f.next + 1, syncAttempt := 0 }
        else { f with syncAttempt := f.syncAttempt + 1 }
      match t.egressOf peer 0, t.sealData h f.next [] with
      | some p, some (ct, tag) =>
        (t.setTx peer 0 g).emit (.frame p h ct tag (t.lowerBytes p peer (t.pcp 0) 0 f.entropy))
      | _, _ => t

/-- PEER_PROBE. -/
def execPeerProbe (peer now : Nat) (s : State) : Host.Outcome State Fault Refusal :=
  run s fun t => doPeerProbe peer (t.upTo now)

/-! ### Links -/

/-- A port's link is lost: counted and recorded, and every flow pinned to the port moves (R265, 12 R396). -/
def State.linkLost (s : State) (p : Nat) : State :=
  if (s.port p).up then
    let t := s.updPort p fun x => { x with up := false, direct := false, peer := none }
    let t := (t.countPort p pcLinkDown 1).fault
      { code := 0x1A, srcKind := 4, srcIndex := 9 * p, part := none, addr := 0, syndrome := 0#64, place := none }
    let t := t.each (t.flowsOn p) fun t f => t.moveFlow f.1 f.2
    if t.bond.isEmpty && !s.bond.isEmpty then t.requeueFlow t.twinNode 1 else t
  else s

/-- LINK_DOWN. -/
def execLinkDown (port : Nat) (s : State) : Host.Outcome State Fault Refusal :=
  run s fun t => if t.awake && port < 24 then t.linkLost port else t

end Sys2Proof.Machine
end

