-- ==== Sys2Proof/Machine/Attend.lean ====
section
/-! DEFINITION. ATTEND requests: parsing (04 R127 to R134), resolution of an entry into the pages it sweeps (R135, R136,
R146 to R148, 07 R228), and the jet commands that sweep them (R137, R153, 03 R93 to R95, R105, R106). -/

namespace Sys2Proof.Machine

/-! ### Parsing (R127 to R133) -/

/-- Entry e of the length table with its tree record. -/
def entrySpec (p : List Byte) (e : Nat) : EntrySpec :=
  let v := leAt p (64 + 16 * e) 16
  { session := field v 0 24, layer := field v 24 8, head := field v 32 6, cands := field v 38 4 + 1, prov := bit v 42,
    hdim := field v 43 3, group := field v 46 3, valid := field v 64 23, qpos := field v 96 32,
    tree := BitVec.ofNat 64 (leAt p (64 + 16 * atNent p + 8 * e) 8), rsvd := !(fieldZero v 49 15 && fieldZero v 87 9) }

/-- The entries of a request. -/
def entrySpecs (p : List Byte) : List EntrySpec := (List.range (atNent p)).map (entrySpec p)

/-- Rows of an entry: G × C (R130). -/
def EntrySpec.rows (x : EntrySpec) : Nat := groupOf x.group * x.cands
/-- Elements of a row. -/
def EntrySpec.dim (x : EntrySpec) : Nat := dimOf x.hdim
/-- Bytes of an entry's query rows (R132). -/
def EntrySpec.queryLen (x : EntrySpec) : Nat := x.rows * x.dim * 2
/-- Bytes of an entry's provisional rows (R132). -/
def EntrySpec.provLen (x : EntrySpec) : Nat := if x.prov then x.cands * x.dim * 4 else 0
/-- Bytes of an entry's ATTEND_RESP (R156, 09 R290). -/
def EntrySpec.respLen (x : EntrySpec) (ofmt : Nat) : Nat :=
  32 + x.rows * (8 + x.dim * (if ofmt = 0 then 4 else if ofmt = 1 then 2 else 1))

/-- The bytes before entry e in a block whose parts have given lengths. -/
def before (l : List EntrySpec) (f : EntrySpec → Nat) (e : Nat) : Nat := ((l.take e).map f).foldl (· + ·) 0

/-- Where the query block begins. -/
def queryStart (p : List Byte) : Nat := 64 + 24 * atNent p

/-- The query rows of entry e. -/
def queryRows (p : List Byte) (l : List EntrySpec) (e : Nat) : List (List (BitVec 16)) :=
  match l[e]? with
  | none => []
  | some x => pieces x.dim (bf16List (slice p (queryStart p + before l EntrySpec.queryLen e) x.queryLen))

/-- The provisional K and V rows of entry e, candidate by candidate. -/
def provRows (p : List Byte) (l : List EntrySpec) (e : Nat) : List (List (BitVec 16) × List (BitVec 16)) :=
  match l[e]? with
  | none => []
  | some x =>
    let q := queryStart p + before l EntrySpec.queryLen l.length + before l EntrySpec.provLen e
    (pieces (2 * x.dim) (bf16List (slice p q x.provLen))).map fun r => (r.take x.dim, r.drop x.dim)

/-- Is SCALE finite and greater than 0? A subnormal counts as 0 (05 R162). -/
def scaleOk (f : F32) : Bool := !f32Neg f && !f32IsZero f && decide (fld f 23 8 ≠ 255)

/-- The checks of a whole ATTEND: header, HDIM and GROUP codes, length, no NaN or infinity (R127, R128, 05 R163). -/
def attendOk (p : List Byte) : Bool :=
  let l := entrySpecs p
  decide (64 ≤ p.length ∧ p.length ≤ 1048576) && leAt p 0 1 == 1 && atDlp p != 3 && atOfmt p != 3 &&
    fieldZero (leAt p 2 2) 5 11 && (slice p 24 40).all (· == 0#8) && scaleOk (atScale p) &&
    l.all (fun x => decide (x.hdim ≤ 5 ∧ x.group ≤ 4)) &&
    p.length == queryStart p + before l EntrySpec.queryLen l.length + before l EntrySpec.provLen l.length &&
    !rowSpecial (bf16List (p.drop (queryStart p)))

/-- The position of row r's candidate (R137). -/
def EntrySpec.rowpos (x : EntrySpec) (r : Nat) : Nat := x.qpos + depthOf x.tree (r / groupOf x.group)

/-- Is a tree record well formed for C candidates (R133)? -/
def treeOk (tree : Word64) (c : Nat) : Bool :=
  (List.range 16).all fun i =>
    if i < c then parentOf tree i == 15 || decide (parentOf tree i < i) else parentOf tree i == 15

/-- The conditions of R133 that need no session. -/
def EntrySpec.ok (x : EntrySpec) : Bool :=
  decide (x.valid ≤ 4194304) && (x.valid != 0 || x.prov) && decide (x.rows ≤ 128) && treeOk x.tree x.cands &&
    !x.rsvd && (x.valid == 0 || decide (x.valid - 1 < x.qpos) || (x.valid - 1 == x.qpos && !x.prov)) &&
    decide (x.qpos + ((List.range x.cands).map (depthOf x.tree)).foldl max 0 ≤ 0xFFFFFFFF)

/-- Do two entries name the same (SESSION, LAYER, KVHEAD)? -/
def EntrySpec.same (x y : EntrySpec) : Bool := x.session == y.session && x.layer == y.layer && x.head == y.head

/-- The open session an entry names, in the request's partition (R133, R74; 02 R58). -/
def State.openSession (s : State) (p x : Nat) : Option Session :=
  match s.session? x with
  | some v => if v.part == p && v.state == 1 && s.ownerOfSession x == some p then some v else none
  | none => none

/-! ### Base rows (07 R209) -/

/-- The decoded K and V rows of a base page, and the saturations of the decoding (05 R163). -/
structure BaseRows where
  k   : List (List F32)
  v   : List (List F32)
  sat : Nat
  deriving DecidableEq, Repr

/-- No base rows: the page has none. -/
def BaseRows.none : BaseRows := { k := [], v := [], sat := 0 }

/-- The rows of a base page under a descriptor of it as FP32 values: from its SRAM copy or its run. -/
def State.baseRowsAt (s : State) (ecc : EccReport) (r : PageRef) (d : Desc) : Except (PageRef × Failing) BaseRows :=
  match s.page? r with
  | none => .ok BaseRows.none
  | some p =>
    match s.rowsAt ecc p d with
    | .error e => .error (r, e)
    | .ok (k, w) =>
      let dec (l : List QRow) := (sMap (decodeRow d.pfmt (dimOf d.hdim)) l).go
      .ok { k := (dec k).1, v := (dec w).1, sat := (dec k).2 + (dec w).2 }

/-- The rows of the base page of page n of a session, as it stands now. -/
def State.baseRows (s : State) (ecc : EccReport) (v : Session) (layer h n : Nat) : Except (PageRef × Failing) BaseRows :=
  match s.page? (v.baseRef layer h n) with
  | none => .ok BaseRows.none
  | some p => s.baseRowsAt ecc (v.baseRef layer h n) p.desc

/-- The rows of a base page to quantise against: a page already CONTAINED is refused, without an event of its own
(06 R197). -/
def State.quantBase (s : State) (ecc : EccReport) (v : Session) (layer h n : Nat) : Except (PageRef × Failing) BaseRows :=
  match s.page? (v.baseRef layer h n) with
  | some p => if p.desc.contained then .error (v.baseRef layer h n, (0, p.desc.grain, 0#64)) else s.baseRows ecc v layer h n
  | none => .ok BaseRows.none

/-- A token quantised at a position: K and V with what the statistics need, counting saturations (02 R71, R73, R79). -/
def quantToken (pfmt dim : Nat) (bk bv : List F32) (k v : List (BitVec 16)) : (Quantised × Quantised) × Nat :=
  Sat.go do
    let a ← quantRow pfmt dim bk k
    let b ← quantRow pfmt dim bv v
    return (a, b)

/-- Quantise tokens from a position on in a (layer, KV head) of a session, base rows read within coverage. -/
def State.quantTokens (s : State) (ecc : EccReport) (v : Session) (layer h : Nat)
    (toks : List (Nat × List (BitVec 16) × List (BitVec 16))) :
    Except (PageRef × Failing) (List (Quantised × Quantised) × Nat) :=
  toks.foldlM (fun (acc : List (Quantised × Quantised) × Nat) t => do
    let n := t.1 / 16
    let fmt := s.fmtOf v n
    let b ← if isDelta fmt then s.quantBase ecc v layer h n else .ok BaseRows.none
    let r := quantToken fmt (dimOf v.hdim) (b.k.getD (t.1 % 16) []) (b.v.getD (t.1 % 16) []) t.2.1 t.2.2
    .ok (acc.1 ++ [r.1], acc.2 + r.2 + b.sat)) ([], 0)

/-- The base pages that quantising tokens at positions reads. -/
def State.basesOf (s : State) (v : Session) (layer h : Nat) (pos : List Nat) : List PageRef :=
  (((pos.map (· / 16)).eraseDups).filter fun n => isDelta (s.fmtOf v n)).map (v.baseRef layer h)

/-! ### Resolution (R135, R136, R392) -/

/-- The metadata grains that resolving an entry reads: table, directory, index, lists (02 R58, R61). -/
def State.metaGrains (s : State) (v : Session) (x : EntrySpec) : List Nat :=
  let hd := v.head x.layer x.head
  let i := x.layer * (v.kvhM1 + 1) + x.head
  let ls := (hd.lists.filter fun l => decide (16 * l.1 * 16 < x.valid)).map (·.2)
  ((s.tableOf (x.session / 65536)).map (· + x.session % 65536 / 8)).toList ++ [v.dirGrain + i / 64] ++ hd.top.toList ++
    hd.second.map (·.2) ++ ls

/-- Read the metadata grains: each failing one raises META (12 R388). -/
def State.readMeta (s : State) (ecc : EccReport) (v : Session) (x : EntrySpec) : State :=
  s.each (s.metaGrains v x) fun t g =>
    match t.grainFault ecc g with
    | some c => t.failGrain c.1 7 0 g c.2
    | none => t

/-- Is page n left out because every token of it within VALID is outside the window for every row (R135)? -/
def leftOut (v : Session) (x : EntrySpec) (n : Nat) : Bool :=
  v.windowLen != 0 && outOfWindow x.qpos (min (16 * n + 15) (x.valid - 1)) v.windowLen

/-- The base page of a delta page with its descriptor, as they stand (02 R79). -/
def State.baseNow (s : State) (v : Session) (r : PageRef) (d : Desc) : Option (PageRef × Desc) :=
  if isDelta d.pfmt then
    (s.page? (v.baseRef r.layer r.head r.page)).map fun p => (v.baseRef r.layer r.head r.page, p.desc)
  else none

/-- The pages an entry sweeps, by page number, with the tokens attended in each (R135). -/
def State.sweptPages (s : State) (v : Session) (x : EntrySpec) : List Swept :=
  (List.range (cdiv x.valid 16)).filterMap fun n =>
    let r : PageRef := { base := false, part := v.part, owner := x.session, layer := x.layer, head := x.head, page := n }
    if leftOut v x n then none
    else (s.page? r).map fun p =>
      { pg := r, toks := min 16 (x.valid - 16 * n), desc := p.desc, base := s.baseNow v r p.desc }

/-- Is a swept page not to be read: CONTAINED, or the base page it links to is (06 R197, 07 R228)? -/
def Swept.barred (w : Swept) : Bool := w.desc.contained || w.base.any fun b => b.2.contained

/-- The status of an entry before its pages are looked at (R74, R133, R147): OK, FORMAT or NO_SESSION. -/
def State.entryStatus (s : State) (p : Nat) (bias : Bool) (pset : Nat) (l : List EntrySpec) (e : Nat) (x : EntrySpec)
    (own : Bool) : Nat :=
  let v := s.openSession p x.session
  let held := x.prov && own && s.holdsSet x.session pset x.layer x.head
  checks
    [(x.ok, stFormat), (!(l.take e).any x.same, stFormat), (!held, stFormat),
     (match v with | some v => v.hdim == x.hdim && v.group == x.group && !(bias && v.posTable == noneId) | none => true,
      stFormat),
     (match v with | some v => v.has x.layer x.head && decide (x.valid ≤ (v.head x.layer x.head).count) | none => false,
      stNoSession)]

/-- An entry that waits for nothing yet. -/
def Entry.ofSpec (x : EntrySpec) (q : List (List (BitVec 16))) : Entry :=
  { spec := x, queries := q, prov := [], own := [], jetPages := [], waiting := 0, parts := [], reissue := [], omitDl := [],
    omitErr := [], ended := none, sent := false, provHeld := false, provReq := x.prov, hedge := none, formed := [],
    resv := 0 }

/-- Note a page's sweep, or a base page's read for quantisation, for the tier manager (07 R204). -/
def State.noteSweep (s : State) (r : PageRef) : State :=
  let now := s.tickOf s.clk.ftime
  let note (p : Page) : Page :=
    { p with sweepTick := now, sweeps := if p.sweepTick = now then p.sweeps + 1 else 1, lastSweep := s.clk.ftime }
  match s.page? r with
  | none => s
  | some p =>
    if r.base then s.putPage r (note p)
    else match s.session? r.owner with
      | none => s
      | some v =>
        let hs := Tbl.modify v.heads (lhKey r.layer r.head) LHead.init fun h =>
          { h with pages := Tbl.set h.pages r.page (note p) }
        s.setSession r.owner { v with heads := hs }

/-- Note the base pages that quantising tokens at these positions reads (07 R204, R209). -/
def State.noteBaseReads (s : State) (v : Session) (layer h : Nat) (pos : List Nat) : State :=
  s.each (s.basesOf v layer h pos) fun t r => t.noteSweep r

/-- Recover the promoted copies of the base pages that quantising tokens at these positions reads (07 R209, R210). -/
def State.recoverBases (s : State) (ecc : EccReport) (v : Session) (layer h : Nat) (pos : List Nat) : State :=
  s.each (s.basesOf v layer h pos) fun t r => t.recoverCopy ecc r

/-- Quantise an entry's provisional rows and, at the node that admits the request, hold them as a set and mirror it
(R146 to R148). The tokens, or the status that ends the entry. -/
def State.takeProv (s : State) (ecc : EccReport) (v : Session) (x : EntrySpec)
    (rows : List (List (BitVec 16) × List (BitVec 16))) (pset req expiry : Nat) (own : Bool) :
    State × Except Nat (List Token) :=
  let toks := (List.range rows.length).map fun i =>
    let r := rows.getD i ([], [])
    (x.qpos + depthOf x.tree i, r.1, r.2)
  let s := s.recoverBases ecc v x.layer x.head (toks.map (·.1))
  match s.quantTokens ecc v x.layer x.head toks with
  | .error e => (s.failPage e.1 e.2, .error (statusOfCode e.2.1))
  | .ok (qs, sat) =>
    let s := s.noteBaseReads v x.layer x.head (toks.map (·.1))
    let ts := qs.map fun q => mkToken q.1.row q.2.row
    if !own then (s.addSat v.part sat, .ok ts)
    else
      let z : ProvSet :=
        { session := x.session, pset := pset, layer := x.layer, head := x.head, tree := x.tree, qpos := x.qpos,
          toks := ts, expiry := expiry, req := some req, stamp := s.clk.ftime }
      let s := s.dropProvs fun y => y.session == z.session && y.pset == z.pset && y.layer == z.layer && y.head == z.head
      match s.takeSram v.part (s.provBytes z) with
      | none => (s, .error stNoRes)
      | some t =>
        let t := { t with provs := t.provs ++ [z] }
        let t := (t.addSat v.part sat).updPart v.part fun p =>
          (List.range qs.length).foldl (fun p i =>
            let src := rows.getD i ([], [])
            match qs[i]? with
            | some q => (p.addRow x.layer false q.1 src.1).addRow x.layer true q.2 src.2
            | none => p) p
        let body := leBytes 8 x.tree.toNat ++ leBytes 8 x.qpos ++ leBytes 16 expiry ++ ts.flatMap tokenRec
        let r : MRec := { t.mrec mkProvset v.part with
          session := x.session, layer := x.layer, head := x.head, count := ts.length, aux := pset, body := body }
        (t.mirror v.part [r], .ok ts)

/-- Does the confluence compute a page: TAIL, IN_SRAM, or its jet isolated (R136, 09 R293)? -/
def State.toConfluence (s : State) (d : Desc) : Bool := d.tail || d.inSram || (s.jet (grainJet d.grain)).isolated

/-- Resolve entry e of a request: status, provisional set, pages for the confluence and for jets, omitted pages. Where the
two lookups of its page list differ (12 R392), the entry ends. -/
def State.resolveEntry (s : State) (ecc : EccReport) (m : Msg) (req expiry : Nat) (own erp : Bool) (l : List EntrySpec)
    (e : Nat) (x : EntrySpec) : State × Entry × Nat :=
  let y := Entry.ofSpec x (queryRows m.payload l e)
  let pset := atPset m.payload
  let st := s.entryStatus m.part (atBias m.payload) pset l e x own
  match s.openSession m.part x.session with
  | none => (s, y, st)
  | some v =>
    if st != stOk then (s, y, st)
    else
      let s1 := s.readMeta ecc v x
      if ecc.differ.contains e then
        (s1.fault { code := 0x14, srcKind := 7, srcIndex := 0, part := some m.part, addr := 0, syndrome := 0#64,
                    place := none }, y, stContained)
      else
      let (s2, pr) := if x.prov then s1.takeProv ecc v x (provRows m.payload l e) pset req expiry own
        else (s1, .ok [])
      match pr with
      | .error c => (s2, y, c)
      | .ok toks =>
        let v := (s2.session? x.session).getD v
        let ps := s2.sweptPages v x
        let bad := ps.filter fun w => w.barred
        let good := ps.filter fun w => !w.barred
        let y := { y with
          prov := toks
          provHeld := x.prov && own
          own := good.filter fun w => s2.toConfluence w.desc
          jetPages := good.filter fun w => !s2.toConfluence w.desc
          omitErr := bad.map fun w => (w.pg.page, w.toks) }
        if !bad.isEmpty && !erp then (s2, y, stContained)
        else
          (s2.each good fun t w => t.noteSweep w.pg, y, stOk)

/-! ### Position tables (02 R81, R145) -/

/-- The bias of query head h at distance d from a position table's grains. -/
def State.biasAt (s : State) (t : PosTab) (h d : Nat) : F32 :=
  bf16Widen (BitVec.ofNat 16 (leNat (s.readBytes (512 * (t.first + 1) + 2 * (h * 2 ^ t.log2e + min d (2 ^ t.log2e - 1))) 2)))

/-- The position table of a session. -/
def State.posTab (s : State) (v : Session) : Option PosTab := Tbl.get? (s.part v.part).posTabs v.posTable

/-! ### Jet commands (R137, R153) -/

/-- A command being packed: its first row within an entry, the least and greatest ROWPOS of its rows, format, dimension,
group, window, rows of each session, its sessions as (entry, first row), its entries as (kind, SESS, BSEL, entry of the
request, page). -/
structure Draft where
  jet    : Nat
  lo     : Nat
  low    : Nat
  high   : Nat
  pfmt   : Nat
  hdim   : Nat
  group  : Nat
  wlen   : Nat
  rows   : Nat
  bias   : Bool
  ofmt   : Nat
  part   : Nat
  units  : List (Nat × Nat)
  ents   : List (Nat × Nat × Nat × Nat × Swept)
  deriving DecidableEq, Repr

/-- A page entry's 48 bits (03 R94). -/
def entBits (k sess bsel : Nat) (w : Swept) : Nat :=
  w.desc.grain % 2 ^ 17 + (if k = 2 then w.desc.pfmt else w.toks - 1) * 2 ^ 17 + w.desc.wgen.toNat * 2 ^ 21 + k * 2 ^ 37 +
    bsel * 2 ^ 39 + sess * 2 ^ 42

/-- The slot's 512 bits (03 R93), with BOFF just past the query buffer; placing adds the offsets. -/
def Draft.word (d : Draft) (tag : Nat) : BitVec 512 :=
  let n := d.ents.length
  BitVec.ofNat 512 ((if isDelta d.pfmt then 1 else 0) + d.pfmt * 2 ^ 8 + d.hdim * 2 ^ 12 + d.ofmt * 2 ^ 15 +
    (d.rows * d.units.length - 1) * 2 ^ 16 + (n - 1) * 2 ^ 23 + (d.units.length - 1) * 2 ^ 26 + d.group * 2 ^ 29 +
    b2n (d.wlen != 0) * 2 ^ 32 + b2n d.bias * 2 ^ 33 + 2 ^ 34 + d.part * 2 ^ 68 + tag * 2 ^ 72 + d.wlen * 2 ^ 96 +
    ((List.range n).map fun j => match d.ents[j]? with
      | some (k, u, b, _, w) => entBits k u b w * 2 ^ (128 + 48 * j)
      | none => 0).foldl (· + ·) 0)

/-- Units of 256 bytes that a command's query buffer takes. -/
def queryUnits (v : BitVec 512) : Nat := cdiv (queryBytes v) 256

/-- Does a draft stay within the limits of R89, R95 and R137, and with BIAS within the 32 steps of a bias block, which reach
16 positions beyond the lowest row's (03 R106)? -/
def Draft.fits (d : Draft) : Bool :=
  let v := d.word 0
  let v := setField v 48 6 (queryUnits v)
  decide (d.ents.length ≤ 8 ∧ d.units.length ≤ 8) &&
    decide (d.rows * d.units.length ≤ rowLimit d.pfmt (dimOf d.hdim) (slShared v)) &&
    (!slShared v || decide (queryBytes v ≤ 8192 ∧ sharedEnd v ≤ 16384)) &&
    decide (d.rows * d.units.length + d.ents.length ≤ 512) && (!d.bias || decide (d.high ≤ d.low + 16))

/-- The index of x in a list, appended when it is new. -/
def indexIn {α : Type} [BEq α] (l : List α) (x : α) : Nat × List α :=
  match l.idxOf? x with
  | some i => (i, l)
  | none => (l.length, l ++ [x])

/-- A base page as an entry of kind 2 names it. -/
def Swept.baseEntry (w : Swept) : Option Swept := w.base.map fun b => { pg := b.1, toks := 16, desc := b.2, base := none }

/-- A page with the entry that sweeps it, and what a command's sessions must share: no session or entry in it yet. -/
structure Job where
  entry : Nat
  w     : Swept
  draft : Draft
  deriving DecidableEq, Repr

/-- Add a job's page to a draft, with its base entry (R153), if it stays within the limits. -/
def Draft.add (d : Draft) (j : Job) : Option Draft :=
  let (u, us) := indexIn d.units (j.entry, j.draft.lo)
  let d0 : Draft := { d with
    units := us, low := min d.low j.draft.low, high := max d.high j.draft.high }
  let d1 : Draft := match j.w.baseEntry with
    | none => { d0 with ents := d.ents ++ [(0, u, 0, j.entry, j.w)] }
    | some b =>
      match d.ents.findIdx? fun x => x.1 == 2 && decide (x.2.2.2.2.pg = b.pg) with
      | some i => { d0 with ents := d.ents ++ [(1, u, i, j.entry, j.w)] }
      | none => { d0 with ents := d.ents ++ [(2, 0, 0, j.entry, b), (1, u, d.ents.length, j.entry, j.w)] }
  if d1.fits then some d1 else none

/-- Do two drafts share format, dimension, group, window, rows and bias (R137), and the rows' place in their entries? -/
def Draft.alike (a b : Draft) : Bool :=
  a.jet == b.jet && a.lo == b.lo && a.pfmt == b.pfmt && a.hdim == b.hdim && a.group == b.group && a.wlen == b.wlen &&
    a.rows == b.rows && a.bias == b.bias

/-- Jobs that one command is to hold when it can: the delta pages of one base page (R153), or a page alone. -/
def groupJobs (l : List Job) : List (List Job) :=
  l.foldl (fun (gs : List (List Job)) j =>
    match (if j.w.base.isSome then gs.findIdx? fun g => g.any fun i =>
        decide (i.w.base.map Prod.fst = j.w.base.map Prod.fst) && i.draft.alike j.draft else none) with
    | some i => gs.set i (gs.getD i [] ++ [j])
    | none => gs ++ [[j]]) []

/-- Put jobs that no command holds together one after the other: each into the command begun last while it fits. -/
def packApart (g : List Job) (done : List Draft) : List Draft :=
  g.foldl (fun (l : List Draft) j =>
    match (if l.length ≤ done.length then none else l.getLast?.bind fun d => d.add j) with
    | some d => l.dropLast ++ [d]
    | none => l ++ (j.draft.add j).toList) done

/-- Put a group of jobs into the last command of their kind, or into a new one, or into several (R137, R153). -/
def packGroup (done : List Draft) (g : List Job) : List Draft :=
  match g with
  | [] => done
  | j :: _ =>
    let all (d : Draft) : Option Draft := g.foldlM Draft.add d
    let last := (List.range done.length).reverse.find? fun i => (done[i]?).any fun d => d.alike j.draft
    match last.bind fun i => (done[i]?).bind fun d => (all d).map fun d1 => (i, d1) with
    | some (i, d1) => done.set i d1
    | none =>
      match all j.draft with
      | some d1 => done ++ [d1]
      | none => packApart g done

/-- Pack the pages of one jet, in order, into commands. -/
def packJobs (l : List Job) : List Draft := (groupJobs l).foldl packGroup []

/-- The most rows, a multiple of the group, that one page of an entry may carry in a command. -/
def rowChunk (j : Job) (rows g : Nat) : Nat :=
  g * (((List.range (rows / g + 1)).reverse.find? fun k =>
    decide (0 < k) && (({ j.draft with rows := g * k } : Draft).add j).isSome).getD 1)

/-- The jobs of an entry: each jet page, once for each chunk of rows (03 R89). -/
def State.jobsOf (s : State) (bias : Bool) (ofmt : Nat) (e : Nat) (y : Entry) : List Job :=
  match s.session? y.spec.session with
  | none => []
  | some v =>
    y.jetPages.flatMap fun w =>
      let d : Draft :=
        { jet := grainJet w.desc.grain, lo := 0, low := y.spec.qpos, high := y.spec.qpos, pfmt := w.desc.pfmt,
          hdim := v.hdim, group := v.group, wlen := v.windowLen, rows := 0, bias := bias,
          ofmt := if ofmt = 0 then 1 else 0, part := v.part, units := [], ents := [] }
      let n := rowChunk { entry := e, w := w, draft := d } y.spec.rows (groupOf v.group)
      (List.range (cdiv y.spec.rows n)).map fun i =>
        let k := min n (y.spec.rows - n * i)
        let pos := (List.range k).map fun r => y.spec.rowpos (n * i + r)
        { entry := e, w := w, draft := { d with
            lo := n * i, rows := k, low := pos.foldl min (pos.headD 0), high := pos.foldl max 0 } }

/-- Insert a job by token position, newest first, after those of its position. -/
def insertJob (j : Job) : List Job → List Job
  | [] => [j]
  | a :: t => if a.w.desc.tokenPos < j.w.desc.tokenPos then j :: a :: t else a :: insertJob j t

/-- The commands of a request: per jet, pages newest first. -/
def State.draftsOf (s : State) (bias : Bool) (ofmt : Nat) (entries : Tbl Entry) : List Draft :=
  let jobs := entries.flatMap fun p => if p.2.live then s.jobsOf bias ofmt p.1 p.2 else []
  let jets := (jobs.map (·.draft.jet)).eraseDups
  jets.flatMap fun j => packJobs ((jobs.filter fun x => x.draft.jet == j).foldl (fun l x => insertJob x l) [])

/-- The query operands of a command's rows and their factors QF (03 R85, 05 R170), with the saturations. -/
def draftQuery (d : Draft) (scale : F32) (entries : Tbl Entry) : (List (List Int × F32) × Nat) :=
  Sat.go <| sMap (fun (r : List (BitVec 16)) => do
    let q ← queryOp (modeOf d.pfmt) r
    let f ← if modeOf d.pfmt = .bf16 then (pure scale : Sat F32) else sMul scale q.scale
    return (q.codes, f)) (d.units.flatMap fun u =>
      match Tbl.get? entries u.1 with
      | some y => (List.range d.rows).map fun i => y.queries.getD (u.2 + i) []
      | none => [])

/-- An operand code's bytes in staging. -/
def codeBytes (m : AMode) (c : Int) : List Byte :=
  if m = .bf16 then leBytes 2 c.toNat else [BitVec.ofInt 8 c]

/-- The positions of a command's rows. -/
def draftPos (d : Draft) (entries : Tbl Entry) : List Nat :=
  d.units.flatMap fun u => match Tbl.get? entries u.1 with
    | some y => (List.range d.rows).map fun i => y.spec.rowpos (u.2 + i)
    | none => []

/-- The bias block of a command (03 R105, R106). -/
def State.draftBias (s : State) (d : Draft) (entries : Tbl Entry) : List Byte :=
  if !d.bias then []
  else
    let low := (draftPos d entries).foldl min ((draftPos d entries).headD 0)
    (d.ents.filter fun x => x.1 < 2).flatMap fun x =>
      let w := x.2.2.2.2
      match s.session? w.pg.owner with
      | none => []
      | some v =>
        (List.range (groupOf d.group)).flatMap fun h => (List.range 32).flatMap fun st =>
          let dist := low + st - (w.desc.tokenPos + 15)
          match s.posTab v with
          | some t => (s.readBytes (512 * (t.first + 1) + 2 * ((w.pg.head * groupOf d.group + h) * 2 ^ t.log2e +
              min dist (2 ^ t.log2e - 1))) 2)
          | none => [0#8, 0#8]

/-- The jet command of a draft: its slot word, and what placing it writes to staging and the row file. -/
def State.cmdOf (s : State) (req tag : Nat) (scale : F32) (entries : Tbl Entry) (d : Draft) : JetCmd × Nat :=
  let (qs, sat) := draftQuery d scale entries
  let pos := draftPos d entries
  let rowE := (List.range qs.length).map fun i =>
    (BitVec.ofNat 64 ((qs.getD i ([], 0#32)).2.toNat + pos.getD i 0 * 2 ^ 32) : BitVec 64)
  let posE := if d.wlen != 0 || d.bias then d.ents.map fun x => (BitVec.ofNat 64 x.2.2.2.2.desc.tokenPos : BitVec 64)
    else []
  ({ req := req, jet := d.jet, slot := none, word := d.word tag,
     pages := d.ents.map fun x => (x.2.2.2.1, x.2.2.2.2), sess := d.units, rows := d.rows,
     query := qs.flatMap fun q => q.1.flatMap (codeBytes (modeOf d.pfmt)), bias := s.draftBias d entries,
     rowFile := rowE ++ posE }, sat)

/-! ### Placing commands in slots -/

/-- The 256-byte units of staging that occupied slots use, as (start, length). -/
def Jet.stagingBusy (x : Jet) : List (Nat × Nat) :=
  ((List.range 16).filter fun n => !x.slotFree n).flatMap fun n =>
    let v := x.slot n
    (slQoff v, queryUnits v) ::
      (if slShared v then [(slBoff v, cdiv (sharedEnd v - 256 * slBoff v) 256)] else [])

/-- The row file entries that occupied slots use. -/
def Jet.rowFileBusy (x : Jet) : List (Nat × Nat) :=
  ((List.range 16).filter fun n => !x.slotFree n).map fun n => (slRfoff (x.slot n), rowFileCount (x.slot n))

/-- Place a command in slot n: offsets that no occupied slot uses; none when there is no room. The slot, staging and row
file are written and the GO bit set (03 R85, R93, R105). -/
def Jet.place (x : Jet) (n : Nat) (c : JetCmd) : Option Jet :=
  let v := c.word
  let busy := x.stagingBusy
  let hi := if slShared v then 32 else 64
  match fitFrom busy hi (queryUnits v) (busy.length + 1) 0 with
  | none => none
  | some q =>
    let busy2 := (q, queryUnits v) :: busy
    let need := cdiv (sharedEnd v - 256 * slBoff v) 256
    let b := if slShared v then fitFrom busy2 64 need (busy2.length + 1) (q + queryUnits v) else some 0
    match b, fitFrom x.rowFileBusy 512 c.rowFile.length (x.rowFileBusy.length + 1) 0 with
    | some b, some f =>
      let w := setField (setField (setField v 40 6 q) 48 6 b) 56 9 f
      let w := setField (setField w 88 8 (slBad (x.slot n))) 120 8 (fld (x.slot n) 120 8)
      let st := Memory.write (Memory.write x.staging (256 * q) c.query) (256 * b) c.bias
      let y := { x with
        slots := Tbl.set x.slots n w
        staging := if c.bias.isEmpty then Memory.write x.staging (256 * q) c.query else st
        rowFile := (List.range c.rowFile.length).foldl (fun t i => Tbl.set t (f + i) (c.rowFile.getD i 0#64)) x.rowFile }
      some (y.goSlot n)
    | _, _ => none

/-- Place a jet's waiting commands in order while there is room; none while the partition waits for its library (R110), the
pair waits for its spare (12 R399), or the jet is isolated.
`fuel` bounds the commands. -/
def State.placeCmds (s : State) (j : Nat) : Nat → State
  | 0 => s
  | fuel + 1 =>
    match Tbl.getD s.slc.waitCmds j [] with
    | [] => s
    | tag :: rest =>
      match Tbl.get? s.slc.cmds tag with
      | none => State.placeCmds { s with slc := { s.slc with waitCmds := Tbl.set s.slc.waitCmds j rest } } j fuel
      | some c =>
        if s.ep.libWait.contains (slPart c.word) || (Tbl.get? s.spares.sparing j).isSome || (s.jet j).isolated then s
        else
          match (List.range 16).find? fun n => (s.jet j).slotFree n with
          | none => s
          | some n =>
            match (s.jet j).place n c with
            | none => s
            | some x =>
              State.placeCmds { s.setJet j x with slc := { s.slc with
                waitCmds := Tbl.set s.slc.waitCmds j rest
                cmds := Tbl.set s.slc.cmds tag { c with slot := some n } } } j fuel

/-- A partition whose jets all hold its library waits no longer: the commands held back are placed (R110). -/
def State.libDone (s : State) (j : Nat) : State :=
  match s.ownerOfGroup (jetGroup j) with
  | none => s
  | some p =>
    if s.ep.libWait.contains p && ((s.partJets p).all fun k => (s.jet k).progOk && storeOk (s.jet k).store (s.jetStore k)) then
      let t := { s with ep := { s.ep with libWait := s.ep.libWait.filter (· != p) } }
      t.each (t.partJets p) fun t k => t.placeCmds k 16
    else s

/-- MICROPROGRAM_WRITE: the node writes an idle jet's store, and PROG_OK is 1 again (R110). -/
def doMicroprogramWrite (j : Nat) (s : State) : State :=
  if s.awake && j < 8192 && (s.jet j).idle then
    (s.updJet j fun x => { x with store := s.jetStore j, progOk := storeOk (s.jetStore j) (s.jetStore j) }).libDone j
  else s

/-- MICROPROGRAM_WRITE. -/
def execMicroprogramWrite (jet : Nat) (s : State) : Host.Outcome State Fault Refusal :=
  run s (doMicroprogramWrite jet)

/-- A jet command's TAG that is not in use, from the counter on. -/
def State.freeTag (s : State) : Nat :=
  ((List.range 65536).find? fun i => (Tbl.get? s.slc.cmds ((s.slc.nextTag + i) % 65536)).isNone).getD 0 + s.slc.nextTag

/-- Form and release a request's commands (R137); each entry counts the commands that serve it. -/
def State.releaseCmds (s : State) (r : Nat) : State :=
  match s.req? r with
  | none => s
  | some x =>
    let ds := s.draftsOf x.bias x.ofmt x.entries
    let t := s.each ds fun t d =>
      let tag := t.freeTag % 65536
      let (c, sat) := t.cmdOf r tag x.scale x.entries d
      let t := t.addSat x.msg.part sat
      let t := { t with slc := { t.slc with
        nextTag := (tag + 1) % 65536
        cmds := Tbl.set t.slc.cmds tag c
        waitCmds := Tbl.modify t.slc.waitCmds d.jet [] (· ++ [tag]) } }
      t.each (d.units.map Prod.fst).eraseDups fun t e => t.updEntry r e fun y => { y with waiting := y.waiting + 1 }
    t.each (ds.map (·.jet)).eraseDups fun t j => t.placeCmds j 16

end Sys2Proof.Machine
end

