-- ==== Sys2Proof/Machine/JetInstr.lean ====
section
/-! DEFINITION. The jet instructions (03 R111 to R114): each acts on the running slot of its jet, and PC moves on. An
instruction that waits (a segment not read yet, two segments held, the accumulator busy, YREQ high) changes nothing. -/

namespace Sys2Proof.Machine

/-! ### What every instruction shares -/

/-- Register i; S0 reads as 0 (R112). -/
def Jet.reg (x : Jet) (i : BitVec 4) : Word32 := if i = 0#4 then 0#32 else Tbl.getD x.regs i.toNat 0#32

/-- Write register i; S0 ignores writes (R112). -/
def Jet.setReg (x : Jet) (i : BitVec 4) (v : Word32) : Jet :=
  if i = 0#4 then x else { x with regs := Tbl.set x.regs i.toNat v }

/-- The next instruction address. R111 speaks of transfers of control alone: a kernel that runs on past its region, or past
2,047, goes on at the next address modulo 2,048. DESIGN CHOICE (assumption 140). -/
def Jet.step (x : Jet) : Jet := { x with pc := x.pc + 1#11 }

/-- Does the slot run a partition kernel: one of entries 16 to 63 (R109)? -/
def Jet.partKernel (x : Jet) (n : Nat) : Bool := decide (16 ≤ slKernel (x.slot n))

/-- An instruction that changes only the jet and moves on. -/
def State.jetOp (s : State) (j : Nat) (f : Jet → Jet) : State := s.jetRun j fun x _ => s.setJet j (f x).step

/-- The running slot ends with FORMAT (R116). -/
def State.jetFormat (s : State) (j n : Nat) : State := s.endJet j n rsFormat (faultAt 0)

/-- Transfer control to IMM[10:0], or end with ILLEGAL where R111 forbids it. -/
def State.jetGoto (s : State) (j n : Nat) (imm : BitVec 18) : State :=
  let x := s.jet j
  let t := imm.setWidth 11
  let ok := if x.partKernel n then decide (1024 ≤ t.toNat) || t.toNat == slKernel (x.slot n) else decide (t.toNat < 1024)
  if ok then s.setJet j { x with pc := t } else s.endJet j n rsIllegal (faultAt 0)

/-- Run an instruction of the self-test opcodes 0x30 to 0x3F: a partition kernel ends with ILLEGAL (R111), and so does every
kernel but those that may execute it (R82, R113; assumption 141). -/
def State.jetTest (s : State) (j : Nat) (kernels : List Nat) (f : Jet → Nat → State) : State :=
  s.jetRun j fun x n =>
    if x.partKernel n || !kernels.contains (slKernel (x.slot n)) then s.endJet j n rsIllegal (faultAt 0) else f x n

/-- The bank self-test kernel, which alone writes its pair (R82). -/
def bankTest : List Nat := [15]
/-- The self-test kernels (R114). -/
def selfTests : List Nat := [14, 15]
/-- The standard kernels. -/
def stdKernels : List Nat := List.range 16

/-! ### Control and registers -/

/-- NOP. -/
def execNop (jet : Nat) (s : State) : Host.Outcome State Fault Refusal := run s fun t => t.jetOp jet id

/-- LI: SA = IMM sign-extended. -/
def execLi (jet : Nat) (a : BitVec 4) (imm : BitVec 18) (s : State) : Host.Outcome State Fault Refusal :=
  run s fun t => t.jetOp jet fun x => x.setReg a (sext18 imm)

/-- ADD: SA = SB + IMM sign-extended. -/
def execAdd (jet : Nat) (a b : BitVec 4) (imm : BitVec 18) (s : State) : Host.Outcome State Fault Refusal :=
  run s fun t => t.jetOp jet fun x => x.setReg a (x.reg b + sext18 imm)

/-- The slot values of GETS (R113). -/
def slotValue (v : BitVec 512) (i : Nat) : Option Nat :=
  [slNent v, slRows v, slNsess v, slPfmt v, slHdim v, slGroup v, fld v 32 3][i]?

/-- GETS: SA = slot value IMM; another IMM ends the slot with FORMAT. -/
def doGets (j : Nat) (a : BitVec 4) (imm : BitVec 18) (s : State) : State :=
  s.jetRun j fun x n =>
    match slotValue (x.slot n) imm.toNat with
    | some v => s.setJet j (x.setReg a (BitVec.ofNat 32 v)).step
    | none => s.jetFormat j n

/-- GETS. -/
def execGets (jet : Nat) (a : BitVec 4) (imm : BitVec 18) (s : State) : Host.Outcome State Fault Refusal :=
  run s (doGets jet a imm)

/-- The entry fields of GETE (R113). -/
def entryValue (e : BitVec 48) (i : Nat) : Option Nat := [enKind e, enValid e, enBsel e, enSess e][i]?

/-- The entry a register names, when the command has it. -/
def Jet.entryAt (x : Jet) (n : Nat) (i : BitVec 4) : Option Nat :=
  if (x.reg i).toNat < slNent (x.slot n) then some (x.reg i).toNat else none

/-- GETE: SA = field IMM of entry SB. An entry or a field that is not there is misuse of an operand: FORMAT. -/
def doGete (j : Nat) (a b : BitVec 4) (imm : BitVec 18) (s : State) : State :=
  s.jetRun j fun x n =>
    match x.entryAt n b with
    | none => s.jetFormat j n
    | some e =>
      match entryValue (slEntry (x.slot n) e) imm.toNat with
      | some v => s.setJet j (x.setReg a (BitVec.ofNat 32 v)).step
      | none => s.jetFormat j n

/-- GETE. -/
def execGete (jet : Nat) (a b : BitVec 4) (imm : BitVec 18) (s : State) : Host.Outcome State Fault Refusal :=
  run s (doGete jet a b imm)

/-- BEQ: branch if SA = SB. -/
def execBeq (jet : Nat) (a b : BitVec 4) (imm : BitVec 18) (s : State) : Host.Outcome State Fault Refusal :=
  run s fun t => t.jetRun jet fun x n => if x.reg a = x.reg b then t.jetGoto jet n imm else t.setJet jet x.step

/-- BNE: branch if SA differs from SB. -/
def execBne (jet : Nat) (a b : BitVec 4) (imm : BitVec 18) (s : State) : Host.Outcome State Fault Refusal :=
  run s fun t => t.jetRun jet fun x n => if x.reg a = x.reg b then t.setJet jet x.step else t.jetGoto jet n imm

/-- JMP. -/
def execJmp (jet : Nat) (imm : BitVec 18) (s : State) : Host.Outcome State Fault Refusal :=
  run s fun t => t.jetRun jet fun _ n => t.jetGoto jet n imm

/-- STOPB: branch if STOP is set and not yet taken; the branch takes it (R113). -/
def doStopb (j : Nat) (imm : BitVec 18) (s : State) : State :=
  s.jetRun j fun x n =>
    if x.stopPend && !x.stopTaken then (s.setJet j { x with stopPend := false, stopTaken := true }).jetGoto j n imm
    else s.setJet j x.step

/-- STOPB. -/
def execStopb (jet : Nat) (imm : BitVec 18) (s : State) : Host.Outcome State Fault Refusal := run s (doStopb jet imm)

/-- END: RESULT OK, or STOPPED if STOP was taken (R113). -/
def execEndSlot (jet : Nat) (s : State) : Host.Outcome State Fault Refusal :=
  run s fun t => t.jetRun jet fun x n => t.endJet jet n (if x.stopTaken then rsStopped else rsOk) (faultAt 0)

/-- FAIL: the slot ends with FORMAT and no partial. -/
def execFailSlot (jet : Nat) (s : State) : Host.Outcome State Fault Refusal :=
  run s fun t => t.jetRun jet fun _ n => t.jetFormat jet n

/-- CLRP: row maxima to -infinity, row sums to 0, BADMASK and PAGES_DONE to 0. -/
def execClrp (jet : Nat) (s : State) : Host.Outcome State Fault Refusal :=
  run s fun t => t.jetOp jet fun x =>
    { x with rowMax := (List.range 128).map fun r => (r, f32NegInf), rowSum := [], badMask := 0#8, pagesDone := 0 }

/-- CLRA: wait for ACC_BUSY = 0, then clear the accumulator. -/
def execClra (jet : Nat) (s : State) : Host.Outcome State Fault Refusal :=
  run s fun t => t.jetRun jet fun x _ => if x.accBusy then t else t.setJet jet (Jet.step { x with acc := [] })

/-! ### Segment reads -/

/-- Start the read of a segment: it waits while two segments are in flight or held, and while YREQ is high (R100,
R113). -/
def State.startRead (s : State) (j : Nat) (x : Jet) (g : Seg) : State :=
  if 2 ≤ x.segs.length || x.yreq then s
  else s.setJet j { x with segs := x.segs ++ [g], own := true, yielded := false }.step

/-- RDK and RDV: the K or V segment of entry SA. A base entry is misuse; a delta entry needs its base half; an entry
already omitted is not read (R113, R117). -/
def doRead (isV : Bool) (j : Nat) (a : BitVec 4) (s : State) : State :=
  s.jetRun j fun x n =>
    let v := x.slot n
    match x.entryAt n a with
    | none => s.jetFormat j n
    | some e =>
      let b := enBsel (slEntry v e)
      if enKind (slEntry v e) = 2 then s.jetFormat j n
      else if x.badMask.getLsbD e then
        (if 2 ≤ x.segs.length then s
         else
          let g : Seg := { entry := e, isV := isV, isBase := false, done := true, rows := [] }
          s.setJet j { x with segs := x.segs ++ [g] }.step)
      else if enKind (slEntry v e) = 1 && !(x.bases.any fun g => g.entry == b && g.isV == isV) then
        (if x.segs.any fun g => g.isBase && g.entry == b && g.isV == isV then s
         else s.endJet j n rsFormat (faultAt e))
      else s.startRead j x { entry := e, isV := isV, isBase := false, done := false, rows := [] }

/-- RDBK and RDBV: the K or V half of base entry SA into the base area. -/
def doReadBase (isV : Bool) (j : Nat) (a : BitVec 4) (s : State) : State :=
  s.jetRun j fun x n =>
    match x.entryAt n a with
    | none => s.jetFormat j n
    | some e =>
      if enKind (slEntry (x.slot n) e) != 2 then s.endJet j n rsFormat (faultAt e)
      else s.startRead j x { entry := e, isV := isV, isBase := true, done := false, rows := [] }

/-- RDK. -/
def execRdk (jet : Nat) (a : BitVec 4) (s : State) : Host.Outcome State Fault Refusal := run s (doRead false jet a)

/-- RDV. -/
def execRdv (jet : Nat) (a : BitVec 4) (s : State) : Host.Outcome State Fault Refusal := run s (doRead true jet a)

/-- RDBK. -/
def execRdbk (jet : Nat) (a : BitVec 4) (s : State) : Host.Outcome State Fault Refusal := run s (doReadBase false jet a)

/-- RDBV. -/
def execRdbv (jet : Nat) (a : BitVec 4) (s : State) : Host.Outcome State Fault Refusal := run s (doReadBase true jet a)

/-! ### Scores, exponentials, the weighted sum -/

/-- A row file entry. -/
def Jet.rfile (x : Jet) (i : Nat) : BitVec 64 := Tbl.getD x.rowFile i 0#64

/-- QF of row r (R105). -/
def Jet.qf (x : Jet) (v : BitVec 512) (r : Nat) : F32 := (x.rfile (slRfoff v + r)).setWidth 32
/-- ROWPOS of row r. -/
def Jet.rowpos (x : Jet) (v : BitVec 512) (r : Nat) : Nat := fld (x.rfile (slRfoff v + r)) 32 32
/-- TOKEN_POS of entry e. -/
def Jet.tokpos (x : Jet) (v : BitVec 512) (e : Nat) : Nat := fld (x.rfile (slRfoff v + slRows v + e)) 0 32

/-- The operand codes of row r in staging (R105). -/
def Jet.qcodes (x : Jet) (v : BitVec 512) (r : Nat) : List Int :=
  let dim := dimOf (slHdim v)
  let m := modeOf (slPfmt v)
  let w := if m = .bf16 then 2 else 1
  let l := Memory.read x.staging (256 * slQoff v + w * dim * r) (w * dim)
  match m with
  | .bf16 => (pieces 2 l).map fun p => (leNat p : Int)
  | .fp8 => l.map fun b => (b.toNat : Int)
  | _ => l.map BitVec.toInt

/-- Rows of one session (R96). -/
def rowsPerSess (v : BitVec 512) : Nat := slRows v / slNsess v

/-- Is token t of entry e attended by row r: same session, within VALID_M1, inside the window (R96, R106)? -/
def Jet.attends (x : Jet) (v : BitVec 512) (e r t : Nat) : Bool :=
  enSess (slEntry v e) == r / rowsPerSess v && decide (t ≤ enValid (slEntry v e)) &&
    !(slWindow v && outOfWindow (x.rowpos v r) (x.tokpos v e + t) (slWinlen v))

/-- The rank of entry e among the entries of kinds 0 and 1 (R105). -/
def rankOf (v : BitVec 512) (e : Nat) : Nat := ((List.range e).filter fun i => enKind (slEntry v i) < 2).length

/-- The bias of row r and token t of entry e (R105, R106). -/
def Jet.biasOf (x : Jet) (v : BitVec 512) (e r t : Nat) : F32 :=
  if slBias v then
    let low := ((List.range (slRows v)).map (x.rowpos v)).foldl min (x.rowpos v 0)
    let st := x.rowpos v r - low + (15 - t)
    let g := groupOf (slGroup v)
    let a := 256 * slBoff v + 2 * ((rankOf v e * g + r % rowsPerSess v % g) * 32 + st)
    bf16Widen (BitVec.ofNat 16 (leNat (Memory.read x.staging a 2)))
  else 0#32

/-- Pool value of row r, column c. -/
def Jet.poolAt (x : Jet) (r c : Nat) : F32 := Tbl.getD x.pool (128 * r + c) 0#32
/-- Row maximum. -/
def Jet.maxAt (x : Jet) (r : Nat) : F32 := Tbl.getD x.rowMax r 0#32
/-- Row sum. -/
def Jet.sumAt (x : Jet) (r : Nat) : F32 := Tbl.getD x.rowSum r 0#32
/-- Accumulator row. -/
def Jet.accRow (x : Jet) (dim r : Nat) : List F32 := (List.range dim).map fun d => Tbl.getD x.acc (dim * r + d) 0#32

/-- The scores of row r in entry e's columns: -infinity where masked (R86, R107). -/
def Jet.rowScores (x : Jet) (v : BitVec 512) (e : Nat) (rows : List ORow) (r : Nat) : Sat (List F32) :=
  sMap (fun t =>
    match rows[t]? with
    | some k =>
      if x.attends v e r t then scoreOf (modeOf (slPfmt v)) (x.qcodes v r) (x.qf v r) k (x.biasOf v e r t)
      else pure f32NegInf
    | none => pure f32NegInf) (List.range 16)

/-- Put 16 columns of row r of entry e into the pool. -/
def poolPut (p : Tbl F32) (e r : Nat) (l : List F32) : Tbl F32 :=
  (List.range 16).foldl (fun p t => Tbl.set p (128 * r + 16 * e + t) (l.getD t 0#32)) p

/-- Score every row of an entry and update the row maxima (R86, R113). -/
def Jet.score (x : Jet) (v : BitVec 512) (e : Nat) (rows : List ORow) : Sat Jet :=
  sFold (fun (y : Jet) r => do
    let l ← x.rowScores v e rows r
    return { y with
      pool := poolPut y.pool e r l
      rowMax := Tbl.set y.rowMax r (l.foldl maxRow (y.maxAt r)) }) x (List.range (slRows v))

/-- Take a held segment out. -/
def Jet.takeSeg (x : Jet) (g : Seg) : Jet := { x with segs := x.segs.erase g }

/-- Find the segment an instruction uses: held and read, or still to wait for, or not there. -/
def Jet.findSeg (x : Jet) (e : Nat) (isV : Bool) : Option Seg :=
  x.segs.find? fun g => g.entry == e && g.isV == isV && !g.isBase

/-- QK: score entry SA's columns (R86). An omitted entry's columns are masked. -/
def doQk (j : Nat) (a : BitVec 4) (s : State) : State :=
  s.jetRun j fun x n =>
    match x.entryAt n a with
    | none => s.jetFormat j n
    | some e =>
      match x.findSeg e false with
      | none => s.endJet j n rsFormat (faultAt e)
      | some g =>
        if !g.done then s
        else
          let v := x.slot n
          let r := (x.score v e (if x.badMask.getLsbD e then [] else g.rows)).go
          (s.setJet j (r.1.takeSeg g).step).addSat (slPart v) r.2

/-- QK. -/
def execQk (jet : Nat) (a : BitVec 4) (s : State) : Host.Outcome State Fault Refusal := run s (doQk jet a)

/-- Exponentiate every row of an entry in place and add to the row sums in column order (R113). -/
def Jet.exponentiate (x : Jet) (v : BitVec 512) (e : Nat) (bad : Bool) : Sat Jet :=
  sFold (fun (y : Jet) r => do
    let l ← sMap (fun t => if bad then (pure 0#32 : Sat F32) else expScore (x.poolAt r (16 * e + t)) (x.maxAt r))
      (List.range 16)
    let sum ← sFold sAdd (y.sumAt r) l
    return { y with pool := poolPut y.pool e r l, rowSum := Tbl.set y.rowSum r sum }) x (List.range (slRows v))

/-- EXPS: p = e^(s - m) for entry SA's columns. It waits while the entry's V segment is being read, so that an entry
omitted for it adds nothing to l (R117). -/
def doExps (j : Nat) (a : BitVec 4) (s : State) : State :=
  s.jetRun j fun x n =>
    match x.entryAt n a with
    | none => s.jetFormat j n
    | some e =>
      let v := x.slot n
      if enKind (slEntry v e) = 2 then s.endJet j n rsFormat (faultAt e)
      else if x.segs.any fun g => g.entry == e && g.isV && !g.done then s
      else
        let r := (x.exponentiate v e (x.badMask.getLsbD e)).go
        (s.setJet j r.1.step).addSat (slPart v) r.2

/-- EXPS. -/
def execExps (jet : Nat) (a : BitVec 4) (s : State) : Host.Outcome State Fault Refusal := run s (doExps jet a)

/-- Put a row of the accumulator. -/
def accPut (acc : Tbl F32) (dim r : Nat) (l : List F32) : Tbl F32 :=
  (List.range dim).foldl (fun p d => Tbl.set p (dim * r + d) (l.getD d 0#32)) acc

/-- Add an entry's weighted V to the rows of its session (R87, R88). -/
def Jet.accumulate (x : Jet) (v : BitVec 512) (e : Nat) (rows : List ORow) : Sat Jet :=
  let dim := dimOf (slHdim v)
  sFold (fun (y : Jet) r => do
    let toks : List VTok := (List.range rows.length).filterMap fun t => (rows[t]?).map fun o =>
      { p := x.poolAt r (16 * e + t), on := x.attends v e r t, v := o }
    let l ← accEntry (modeOf (slPfmt v)) dim (y.accRow dim r) toks
    return { y with acc := accPut y.acc dim r l }) x
    ((List.range (slRows v)).filter fun r => enSess (slEntry v e) == r / rowsPerSess v)

/-- PV: accumulate entry SA and increment PAGES_DONE; it waits while the accumulator holds a partial (R108). -/
def doPv (j : Nat) (a : BitVec 4) (s : State) : State :=
  s.jetRun j fun x n =>
    match x.entryAt n a with
    | none => s.jetFormat j n
    | some e =>
      match x.findSeg e true with
      | none => s.endJet j n rsFormat (faultAt e)
      | some g =>
        if !g.done || x.accBusy then s
        else
          let v := x.slot n
          let r := (x.accumulate v e (if x.badMask.getLsbD e then [] else g.rows)).go
          (s.setJet j { (r.1.takeSeg g).step with pagesDone := x.pagesDone + 1 }).addSat (slPart v) r.2

/-- PV. -/
def execPv (jet : Nat) (a : BitVec 4) (s : State) : Host.Outcome State Fault Refusal := run s (doPv jet a)

/-- EMIT: the residue check, then each row's m and l beside the accumulator and ACC_BUSY set; a failed check ends the slot
with RESIDUE, which JET_FAULT keeps, and is reported; the fault collector then has the jet isolated (R108, R118, R123). -/
def doEmit (j : Nat) (residueOk : Bool) (s : State) : State :=
  s.jetRun j fun x n =>
    if x.accBusy then s
    else if residueOk then
      let rs := List.range (slRows (x.slot n))
      s.setJet j { x with
        accBusy := true
        accSlot := some n
        outM := rs.map fun r => (r, x.maxAt r)
        outL := rs.map fun r => (r, x.sumAt r) }.step
    else
      let syn := Config.residueSyndrome s.draws
      let t := { s with draws := s.draws + 1 }.fault
        { code := 0x10, srcKind := 0, srcIndex := s.jetSource j, part := s.ownerOfGroup (jetGroup j), addr := 0,
          syndrome := syn, place := some (.jet j) }
      (t.endJet j n rsResidue { faultAt 0 with syndrome := syn }).isolateJet j

/-- EMIT. -/
def execEmit (jet : Nat) (residueOk : Bool) (s : State) : Host.Outcome State Fault Refusal := run s (doEmit jet residueOk)

/-! ### Self-test opcodes -/

/-- The grains of row r of a pair: both banks (02 R40). -/
def rowGrains (j r : Nat) : List Nat := (List.range 8).map fun i => j * 2 ^ 17 + r * 8 + i

/-- Is row r of a pair out of the address space: copied to a spare row by CPYROW, under a row test, or replaced (12 R397,
R399)? A spare serves its addresses. -/
def State.rowHidden (s : State) (j r : Nat) : Bool :=
  r ≥ 16384 || (Tbl.get? s.spares.rowMap (j * 2 ^ 17 + 8 * r)).isSome ||
    (Tbl.get? s.spares.rowMap (j * 2 ^ 17 + 8 * r + 1)).isSome ||
    (Tbl.get? s.spares.rowCopy (j * 2 ^ 17 + 8 * r)).isSome ||
    s.flt.tests.any fun t => match t.place with
      | .row g => g / 8 == j * 16384 + r
      | _ => false

/-- CPYROW: copy row SA of both banks to spare row SB, verifying carry tags. From then on the spare row serves the row's
addresses, whose content is the copy's (12 R397); a grain that fails is copied as it stands and reported. A row or spare
row that the bank does not have is misuse of an operand (R116). -/
def doCpyrow (j : Nat) (a b : BitVec 4) (s : State) : State :=
  s.jetTest j bankTest fun x n =>
    let r := (x.reg a).toNat
    let k := (x.reg b).toNat
    if 16384 ≤ r || 8 ≤ k then s.jetFormat j n
    else
      let t := s.each (rowGrains j r) fun u g =>
        if sideTag (u.sideOf g) = crc32c (u.grain g) then u
        else u.failGrain 0x03 0 (s.jetSource j) g (crc32c (u.grain g) ++ sideTag (u.sideOf g))
      let place := j * 2 ^ 17 + 8 * r
      let t := { t with spares := { t.spares with
        rowCopy := Tbl.set (Tbl.set t.spares.rowCopy place k) (place + 1) k } }
      t.updJet j Jet.step

/-- CPYROW. -/
def execCpyrow (jet : Nat) (a b : BitVec 4) (s : State) : Host.Outcome State Fault Refusal := run s (doCpyrow jet a b)

/-- The side words of a patterned grain. -/
def patSide (p : Byte) : List (BitVec 16) := List.replicate 16 (p ++ p)

/-- PATW: write a pattern over row SA of both banks. A row out of the address space keeps the pattern in the jet's
record of it. -/
def doPatw (j : Nat) (a : BitVec 4) (imm : BitVec 18) (s : State) : State :=
  s.jetTest j bankTest fun x _ =>
    let r := (x.reg a).toNat
    let p := imm.toNat % 256
    if s.rowHidden j r then s.setJet j { x with pats := Tbl.set x.pats r p }.step
    else
      let b := List.replicate 512 (BitVec.ofNat 8 p)
      let t := s.each (rowGrains j r) fun u g =>
        { u with mem := Memory.write u.mem (512 * g) b, side := sidePut u.side g (patSide (BitVec.ofNat 8 p)) }
      t.updJet j Jet.step

/-- PATW. -/
def execPatw (jet : Nat) (a : BitVec 4) (imm : BitVec 18) (s : State) : Host.Outcome State Fault Refusal :=
  run s (doPatw jet a imm)

/-- The slot ends with BIST; a jet under self-test that fails one stays isolated (R123, R125). -/
def State.endBist (s : State) (j n : Nat) : State :=
  let t := s.endJet j n rsBist (faultAt 0)
  if s.flt.tests.any fun x => decide (x.place = .jet j) then t.isolateJet j else t

/-- PATR: read row SA and compare with a pattern; a mismatch, or cells that read back wrong, end with BIST. -/
def doPatr (j : Nat) (a : BitVec 4) (imm : BitVec 18) (stuck : Bool) (s : State) : State :=
  s.jetTest j selfTests fun x n =>
    let r := (x.reg a).toNat
    let p := imm.toNat % 256
    let same := if s.rowHidden j r then Tbl.get? x.pats r == some p
      else (rowGrains j r).all fun g => s.grain g == List.replicate 512 (BitVec.ofNat 8 p)
    if same && !stuck then s.setJet j x.step else s.endBist j n

/-- PATR. -/
def execPatr (jet : Nat) (a : BitVec 4) (imm : BitVec 18) (stuck : Bool) (s : State) : Host.Outcome State Fault Refusal :=
  run s (doPatr jet a imm stuck)

/-- ARRT: run an array test vector set against its ROM expectations; a mismatch ends with BIST. -/
def doArrt (j : Nat) (_imm : BitVec 18) (passed : Bool) (s : State) : State :=
  s.jetTest j stdKernels fun x n => if passed then s.setJet j x.step else s.endBist j n

/-- ARRT. -/
def execArrt (jet : Nat) (imm : BitVec 18) (passed : Bool) (s : State) : Host.Outcome State Fault Refusal :=
  run s (doArrt jet imm passed)

/-- The opcodes of R113. -/
def jetOpcodes : List Nat :=
  [0x00, 0x01, 0x02, 0x03, 0x04, 0x05, 0x06, 0x07, 0x08, 0x09, 0x0A, 0x10, 0x11, 0x12, 0x13, 0x14, 0x15, 0x16, 0x17, 0x18,
   0x19, 0x30, 0x31, 0x32, 0x33]

/-- RESERVED_OPCODE: a reserved opcode ends the slot with ILLEGAL (R111). An opcode of R113 is not reserved. -/
def doReservedOpcode (j : Nat) (opc : BitVec 6) (s : State) : State :=
  s.jetRun j fun _ n => if jetOpcodes.contains opc.toNat then s else s.endJet j n rsIllegal (faultAt 0)

/-- RESERVED_OPCODE. -/
def execReservedOpcode (jet : Nat) (opc : BitVec 6) (s : State) : Host.Outcome State Fault Refusal :=
  run s (doReservedOpcode jet opc)

/-! ### Instruction words (R112) -/

/-- OPC. -/
def jwOpc (w : Word32) : BitVec 6 := w.extractLsb' 26 6
/-- Register A. -/
def jwA (w : Word32) : BitVec 4 := w.extractLsb' 22 4
/-- Register B. -/
def jwB (w : Word32) : BitVec 4 := w.extractLsb' 18 4
/-- IMM. -/
def jwImm (w : Word32) : BitVec 18 := w.extractLsb' 0 18

/-- The instruction that a word of a jet's store spells (R112, R113), as the command that executes it; `ok` is what the
hardware finds where the instruction has an outcome of its own: EMIT's residue check, PATR's cells, ARRT's vectors. -/
def jetInstr (j : Nat) (w : Word32) (ok : Bool) : Instr :=
  match (jwOpc w).toNat with
  | 0x00 => .nop j
  | 0x01 => .li j (jwA w) (jwImm w)
  | 0x02 => .add j (jwA w) (jwB w) (jwImm w)
  | 0x03 => .gets j (jwA w) (jwImm w)
  | 0x04 => .gete j (jwA w) (jwB w) (jwImm w)
  | 0x05 => .beq j (jwA w) (jwB w) (jwImm w)
  | 0x06 => .bne j (jwA w) (jwB w) (jwImm w)
  | 0x07 => .jmp j (jwImm w)
  | 0x08 => .stopb j (jwImm w)
  | 0x09 => .endSlot j
  | 0x0A => .failSlot j
  | 0x10 => .clrp j
  | 0x11 => .clra j
  | 0x12 => .rdk j (jwA w)
  | 0x13 => .rdv j (jwA w)
  | 0x14 => .rdbk j (jwA w)
  | 0x15 => .rdbv j (jwA w)
  | 0x16 => .qk j (jwA w)
  | 0x17 => .exps j (jwA w)
  | 0x18 => .pv j (jwA w)
  | 0x19 => .emit j ok
  | 0x30 => .cpyrow j (jwA w) (jwB w)
  | 0x31 => .patw j (jwA w) (jwImm w)
  | 0x32 => .patr j (jwA w) (jwImm w) (!ok)
  | 0x33 => .arrt j (jwImm w) ok
  | _ => .reservedOpcode j (jwOpc w)

/-- The instruction that a jet's running kernel executes next: the word at PC. -/
def State.nextInstr (s : State) (j : Nat) (ok : Bool) : Instr := jetInstr j ((s.jet j).word (s.jet j).pc.toNat) ok

end Sys2Proof.Machine
end

