-- ==== Sys2Proof/Machine/Merge.lean ====
section
/-! DEFINITION. From slots to answers: collecting ready slots under the error policy (07 R227, 09 R293), cut times and
the confluence's deadline (07 R221 to R226), the confluence's own part (R225, 04 R136), the merge (R140), the returned o
(05 R171 to R175) and the ATTEND_RESP (04 R155, R156, 07 R230). -/

namespace Sys2Proof.Machine

/-! ### Cut times (07 R221, R222; 03 R119 to R122) -/

/-- Read cycles of the K or V segment of the run at a grain (R119): a BF16X segment is its coded length, which its coding
header gives, and its 64-byte header. -/
def State.readCycles (s : State) (pfmt hdim first : Nat) (isV : Bool) : Nat :=
  let used := halfUsed pfmt (dimOf hdim) isV (s.grain (first + runLen pfmt hdim - 1))
  cdiv (used + (if pfmt = 0 then 0 else 64)) 32

/-- Arithmetic cycles of a segment for a session's rows (R121). -/
def arithCycles (pfmt hdim rows : Nat) : Nat :=
  cdiv rows 4 * (if pfmt = 0 || pfmt = 1 then dimOf hdim else if pfmt = 4 then dimOf hdim / 16 else dimOf hdim / 4)

/-- The K term and the V term of a command's entry (R122): arithmetic by the rows of its session, exponentiation by the
rows of the command; a base entry only reads. -/
def State.entryTerms (s : State) (c : JetCmd) (j : Nat) : Nat × Nat :=
  let e := slEntry c.word j
  let f := enPfmt c.word e
  let h := slHdim c.word
  let first := c.jet * 2 ^ 17 + enRun e
  let k := s.readCycles f h first false
  let v := s.readCycles f h first true
  if enKind e = 2 then (k, v)
  else (max k (arithCycles (slPfmt c.word) h c.rows),
    max v (max (arithCycles (slPfmt c.word) h c.rows) (cdiv (slRows c.word) 2)))

/-- Cycles of a command without yields (R122). -/
def State.sweepCycles (s : State) (c : JetCmd) : Nat :=
  12 + ((List.range (slNent c.word)).map fun j => (s.entryTerms c j).1 + (s.entryTerms c j).2).foldl (· + ·) 0

/-- The stop lead in ns at the jet clock in force (R221). -/
def State.lead (s : State) (c : JetCmd) : Nat :=
  let js := List.range (slNent c.word)
  let cycles := 12 + (js.map fun j => (s.entryTerms c j).1).foldl max 0 +
    (js.map fun j => (s.entryTerms c j).2).foldl (· + ·) 0 + (slNent c.word + 1) * s.yieldCols c.jet
  cdiv (cycles * 1000) s.jetMhz

/-- MERGE_RES of an entry in ns at the confluence clock in force (R221). -/
def State.mergeRes (s : State) (x : Req) (y : Entry) : Nat :=
  let jets := ((y.jetPages.map fun w => grainJet w.desc.grain).eraseDups).length
  300 + cdiv (jets * y.spec.rows * y.spec.dim * 1000) (512 * max 1 x.clusters * s.cnfMhz)

/-- The cut time of a command (R221). -/
def State.cutTime (s : State) (x : Req) (c : JetCmd) : Nat :=
  let res := (c.sess.map fun u => match x.entry? u.1 with | some y => s.mergeRes x y | none => 0).foldl max 0
  x.dlNs - res - s.lead c

/-! ### Ends of commands -/

/-- The request entries that a command serves. -/
def JetCmd.entries (c : JetCmd) : List Nat := (c.sess.map Prod.fst).eraseDups

/-- A command is over: it leaves the sluice, and each entry it serves waits for one less. -/
def State.dropCmd (s : State) (tag : Nat) (c : JetCmd) : State :=
  let t := { s with slc := { s.slc with
    cmds := Tbl.erase s.slc.cmds tag
    waitCmds := Tbl.mapVals s.slc.waitCmds fun _ l => l.filter (· != tag) } }
  t.each c.entries fun t e => t.updEntry c.req e fun y => { y with waiting := y.waiting - 1 }

/-- Omit a page of an entry by deadline. -/
def State.omitDl (s : State) (r e : Nat) (w : Swept) : State :=
  s.updEntry r e fun y => { y with omitDl := Tbl.set y.omitDl w.pg.page w.toks }

/-- The tokens of the pages omitted. -/
def omitted (t : Tbl Nat) : Nat := (t.map Prod.snd).foldl (· + ·) 0

/-- Omit a page of an entry by error, or end the entry, by the policy of the request's epoch (07 R227). -/
def State.errPage (s : State) (r e : Nat) (w : Swept) (st : Nat) : State :=
  match s.req? r with
  | none => s
  | some x =>
    if x.erp then
      s.updEntry r e fun y => if y.live then { y with omitErr := Tbl.set y.omitErr w.pg.page w.toks } else y
    else s.failEntry r e st

/-- The status of a RESULT that names a failed check (07 R227). -/
def statusOfResult (r : Nat) : Nat := if r = rsTag then stTag else if r = rsDecode then stDecode else stContained

/-- The page entries of a command with their index in the slot, without base entries. -/
def JetCmd.live (c : JetCmd) : List (Nat × Nat × Swept) :=
  ((List.range c.pages.length).filterMap fun j => (c.pages[j]?).map fun p => (j, p.1, p.2)).filter fun p =>
    enKind (slEntry c.word p.1) != 2

/-- The page entries of one of a command's sessions. -/
def JetCmd.ofUnit (c : JetCmd) (u : Nat) : List (Nat × Nat × Swept) := c.live.filter fun p =>
  enSess (slEntry c.word p.1) == u

/-- The rows of a session in the partial window as a partial of its entry; rows the command did not carry have none
(03 R108). -/
def partOf (x : Jet) (c : JetCmd) (u lo rows newest : Nat) : Sat Part := do
  let dim := dimOf (slHdim c.word)
  let o ← sMap (fun r => sMap (roundO (slOfmt c.word)) (x.accRow dim (u * c.rows + r))) (List.range c.rows)
  let put {α : Type} (d : α) (f : Nat → α) : List α :=
    (List.range rows).map fun r => if lo ≤ r && r < lo + c.rows then f (r - lo) else d
  return { newest := newest, m := put f32NegInf fun r => Tbl.getD x.outM (u * c.rows + r) f32NegInf,
           l := put 0#32 fun r => Tbl.getD x.outL (u * c.rows + r) 0#32,
           o := put (List.replicate dim 0#32) fun r => o.getD r [] }

/-- Take the partial of a session of a finished slot into its entry: pages covered, omitted by error, and not reached
(03 R97, R117; 04 R157). -/
def State.takePart (s : State) (x : Jet) (n : Nat) (c : JetCmd) (u e lo : Nat) : State :=
  let v := x.slot n
  match (s.req? c.req).bind fun r => r.entry? e with
  | none => s
  | some y =>
    if !y.live then s
    else
      let ps := c.ofUnit u
      let order := c.live.map Prod.fst
      let covered (j : Nat) : Bool := slResult v == rsOk || decide (order.idxOf j < slDone v)
      let bad (j : Nat) : Bool := v.getLsbD (88 + j)
      let got := ps.filter fun p => covered p.1 && !bad p.1
      let t := s.each (ps.filter fun p => !covered p.1 && !bad p.1) fun t p => t.omitDl c.req e p.2.2
      let t := t.each (ps.filter fun p => bad p.1) fun t p =>
        t.errPage c.req e p.2.2 (statusOfResult (Tbl.getD x.causes (8 * n + p.1) rsTag))
      if got.isEmpty then t
      else
        let newest := (got.map fun p => p.2.2.desc.tokenPos).foldl max 0
        let r := (partOf x c u lo y.spec.rows newest).go
        (t.addSat (slPart c.word) r.2).updEntry c.req e fun y =>
          if y.live then { y with parts := y.parts ++ [r.1] } else y

/-- Reissue a page of a command to the confluence once, or take the error policy (09 R293). -/
def State.reissuePage (s : State) (tag : Nat) (x : Req) (c : JetCmd) (e lo : Nat) (w : Swept) : State :=
  let contained := match s.page? w.pg with | some p => p.desc.contained | none => true
  match (s.req? c.req).bind fun q => q.entry? e with
  | none => s
  | some y =>
    if !y.live then s
    else if decide (s.cutTime x c ≤ s.clk.ftime) || contained then s.errPage c.req e w stContained
    else
      (s.updEntry c.req e fun y => { y with reissue := y.reissue ++ [(tag, lo, c.rows, w)] }).countPart (slPart c.word)
        pReissue 1

/-- Reissue a command's page entries (09 R293). -/
def State.reissueCmd (s : State) (tag : Nat) (c : JetCmd) : State :=
  match s.req? c.req with
  | some x => s.each c.live fun t p =>
      t.reissuePage tag x c p.2.1 (c.sess.getD (enSess (slEntry c.word p.1)) (0, 0)).2 p.2.2
  | none => s

/-- The commands that wait for an isolated jet go to the confluence (09 R293). -/
def State.divert (s : State) (j : Nat) : State :=
  if !(s.jet j).isolated then s
  else
    let t := s.each (Tbl.getD s.slc.waitCmds j []) fun t tag =>
      match Tbl.get? t.slc.cmds tag with
      | none => t
      | some c => (t.reissueCmd tag c).dropCmd tag c
    { t with slc := { t.slc with waitCmds := Tbl.set t.slc.waitCmds j [] } }

/-- The commands that wait for any isolated jet go to the confluence (09 R293). -/
def State.divertAll (s : State) : State := s.each (s.slc.waitCmds.map Prod.fst) fun t j => t.divert j

/-- SLOT_COLLECT (04 R140, 07 R227, 09 R293). -/
def doSlotCollect (j n : Nat) (s : State) : State :=
  let x := s.jet j
  if !(s.serving && x.ready.getLsbD n) then s
  else
    let v := x.slot n
    let tag := slTag v
    let done (t : State) : State := ((t.updJet j fun y => y.clearReady n).placeCmds j 16).divert j
    match Tbl.get? s.slc.cmds tag with
    | none => done s
    | some c =>
      if c.jet != j || c.slot != some n then done s
      else
        let res := slResult v
        let us := List.range c.sess.length
        let t :=
          if res = rsOk || res = rsStopped then
            s.each us fun t u => let p := c.sess.getD u (0, 0); t.takePart x n c u p.1 p.2
          else if res = rsResidue || res = rsAborted then s.reissueCmd tag c
          else if res = rsTag || res = rsEcc || res = rsDecode then
            s.each c.live fun t p => t.errPage c.req p.2.1 p.2.2 (statusOfResult res)
          else s.each c.entries fun t e => t.failEntry c.req e stContained
        done (t.dropCmd tag c)

/-- SLOT_COLLECT. -/
def execSlotCollect (jet slot : Nat) (s : State) : Host.Outcome State Fault Refusal := run s (doSlotCollect jet slot)

/-! ### Cuts (07 R223 to R226) -/

/-- An entry's cut under STRICT or HEDGE: an open claim closes first (R226, 10 R341). -/
def State.cutEntry (s : State) (r e : Nat) : State :=
  match s.req? r with
  | none => s
  | some x =>
    match x.claim with
    | some c =>
      if s.claimOf c e = clOpen then ((s.setClaim c e clClosed).releaseHeld r e).failEntry r e stDeadline
      else if s.claimOf c e = clTwin || s.claimOf c e = clTwinDone then s
      else s.failEntry r e stDeadline
    | none => s.failEntry r e stDeadline

/-- A command's cut time has come with its slot not DONE (R223). A command not yet in a slot omits every page. -/
def State.cutCmd (s : State) (tag : Nat) (c : JetCmd) : State :=
  match s.req? c.req with
  | none => s
  | some x =>
    if s.clk.ftime < s.cutTime x c then s
    else if x.dlp = 1 then
      match c.slot with
      | some n => s.updJet c.jet fun y => y.stopSlot n
      | none =>
        let t := s.each c.live fun t p => t.omitDl c.req p.2.1 p.2.2
        t.dropCmd tag c
    else s.each c.entries fun t e => t.cutEntry c.req e

/-- CUT_TIME of a slot of a jet, and of the jet's commands that wait for a slot. -/
def doCutTime (j n : Nat) (s : State) : State :=
  if !s.serving then s
  else
    let l := s.slc.cmds.filter fun c => c.2.jet == j &&
      (match c.2.slot with | some k => k == n && !(s.jet j).ready.getLsbD n | none => true)
    s.each l fun t c => if (Tbl.get? t.slc.cmds c.1).isSome then t.cutCmd c.1 c.2 else t

/-- CUT_TIME. -/
def execCutTime (jet slot now : Nat) (s : State) : Host.Outcome State Fault Refusal :=
  run s fun t => doCutTime jet slot (t.upTo now)

/-- Has an entry a part of the confluence's own: tail, promoted or provisional (R225)? -/
def Entry.hasOwn (y : Entry) : Bool := !y.own.isEmpty || !y.prov.isEmpty

/-- CONFLUENCE_DEADLINE: the own part is not complete at DL_NS − MERGE_RES (R225). -/
def doConfluenceDeadline (r e : Nat) (s : State) : State :=
  match s.req? r with
  | none => s
  | some x =>
    match x.entry? e with
    | none => s
    | some y =>
      if s.serving && y.live && y.formed.isEmpty && y.hasOwn && decide (x.dlNs - s.mergeRes x y ≤ s.clk.ftime) then
        s.failEntry r e stDeadline
      else s

/-- CONFLUENCE_DEADLINE. -/
def execConfluenceDeadline (req entry now : Nat) (s : State) : Host.Outcome State Fault Refusal :=
  run s fun t => doConfluenceDeadline req entry (t.upTo now)

/-! ### The confluence's own part -/

/-- A token as the confluence takes it: position, the candidate it belongs to when provisional, K and V. -/
structure OTok where
  pos  : Nat
  cand : Option Nat
  k    : ORow
  v    : ORow
  deriving DecidableEq, Repr

/-- A page of the own part: its mode and tokens. -/
structure OPage where
  mode : AMode
  toks : List OTok
  deriving DecidableEq, Repr

/-- Operand rows of a format: delta rows reconstructed against base rows (07 R209). -/
def opRows (pfmt dim : Nat) (base : List (List F32)) (rows : List QRow) (from_ : Nat) : Sat (List ORow) :=
  sMap (fun (i : Nat) =>
    let r := rows.getD i { codes := [], srec := [] }
    if isDelta pfmt then deltaRow pfmt dim (base.getD (from_ + i) []) r else pure (opRow pfmt dim r))
    (List.range rows.length)

/-- What fails in the confluence's own part: a check of a page, or the token tag of a provisional token. -/
abbrev OwnFailing := Option PageRef × Failing

/-- A swept page as the confluence takes it, under the descriptors of it and of its base page that the entry resolved
(06 R200), or the failing check. -/
def State.ownPage (s : State) (ecc : EccReport) (v : Session) (w : Swept) : Except OwnFailing (OPage × Nat) := do
  match s.page? w.pg with
  | none => .error (some w.pg, (0x02, w.desc.grain, 0#64))
  | some p =>
    match s.rowsAt ecc p w.desc with
    | .error e => .error (some w.pg, e)
    | .ok (ks, vs) =>
      match (match w.base with | some b => s.baseRowsAt ecc b.1 b.2 | none => .ok BaseRows.none) with
      | .error e => .error (some e.1, e.2)
      | .ok b =>
        let dim := dimOf v.hdim
        let k := (opRows w.desc.pfmt dim b.k (ks.take w.toks) 0).go
        let x := (opRows w.desc.pfmt dim b.v (vs.take w.toks) 0).go
        let toks := (k.1.zip x.1).zip (List.range w.toks)
        .ok ({ mode := modeOf w.desc.pfmt, toks := toks.map fun t =>
          { pos := 16 * w.pg.page + t.2, cand := none, k := t.1.1, v := t.1.2 } }, k.2 + x.2 + b.sat)

/-- The provisional tokens of an entry as one page for each format; each token's tag is checked (07 R229, 12 R382). -/
def State.provPages (s : State) (ecc : EccReport) (v : Session) (y : Entry) :
    Except OwnFailing (List OPage × Nat) := do
  let x := y.spec
  let dim := dimOf v.hdim
  let items ← (List.range y.prov.length).mapM fun i => do
    let pos := x.qpos + depthOf x.tree i
    let n := pos / 16
    let fmt := s.fmtOf v n
    let b ← match (if isDelta fmt then s.baseRows ecc v x.layer x.head n else .ok BaseRows.none) with
      | .error e => .error (some e.1, e.2)
      | .ok b => .ok b
    let q : QRow := { codes := [], srec := [] }
    let t := y.prov.getD i (mkToken q q)
    if t.tag != tokenTag t.k t.v then .error (none, (0x03, 0, tokenTag t.k t.v ++ t.tag))
    let k := (opRows fmt dim b.k [t.k] (pos % 16)).go
    let w := (opRows fmt dim b.v [t.v] (pos % 16)).go
    let z : ORow := { isConst := true, cval := 0#32, codes := [], scale := 0#32, zp := 0 }
    .ok (modeOf fmt, ({ pos := pos, cand := some i, k := k.1.headD z, v := w.1.headD z } : OTok), k.2 + w.2 + b.sat)
  let modes := (items.map fun i => i.1).eraseDups
  .ok (modes.map fun m => { mode := m, toks := (items.filter fun i => decide (i.1 = m)).map fun i => i.2.1 },
    (items.map fun i => i.2.2).foldl (· + ·) 0)

/-- Does row r attend a token (04 R144)? -/
def rowAttends (v : Session) (x : EntrySpec) (r : Nat) (t : OTok) : Bool :=
  (match t.cand with
   | none => true
   | some c => (treePath x.tree 16 (r / groupOf x.group)).contains c) &&
    !(v.windowLen != 0 && outOfWindow (x.rowpos r) t.pos v.windowLen)

/-- One row's partial over pages taken in order (03 R86 to R88, R106, R107). -/
def rowPartial (v : Session) (x : EntrySpec) (scale : F32) (bias : Nat → F32) (dim r : Nat) (q : List (BitVec 16))
    (pages : List OPage) : Sat (F32 × F32 × List F32) := do
  let ss ← sMap (fun (p : OPage) => do
    let o ← queryOp p.mode q
    let qf ← if p.mode = .bf16 then (pure scale : Sat F32) else sMul scale o.scale
    sMap (fun (t : OTok) => if rowAttends v x r t then scoreOf p.mode o.codes qf t.k (bias t.pos) else pure f32NegInf)
      p.toks) pages
  let m := (ss.flatMap id).foldl maxRow f32NegInf
  let ps ← sMap (sMap fun a => expScore a m) ss
  let l ← sFold sAdd 0#32 (ps.flatMap id)
  let o ← sFold (fun (acc : List F32) (pp : OPage × List F32) =>
    accEntry pp.1.mode dim acc ((pp.1.toks.zip pp.2).map fun t =>
      { p := t.2, on := rowAttends v x r t.1, v := t.1.v })) (List.replicate dim 0#32) (pages.zip ps)
  return (m, l, o)

/-- The partial of an entry over pages the confluence computes; o is rounded as the jets' (04 R137). -/
def State.ownPartial (s : State) (v : Session) (x : Req) (y : Entry) (pages : List OPage) (newest : Nat) : Sat Part := do
  let dim := y.spec.dim
  let g := groupOf y.spec.group
  let tab := s.posTab v
  let rs ← sMap (fun (r : Nat) => do
    let bias (pos : Nat) : F32 := match x.bias, tab with
      | true, some t => s.biasAt t (y.spec.head * g + r % g) (y.spec.rowpos r - pos)
      | _, _ => 0#32
    let p ← rowPartial v y.spec x.scale bias dim r (y.queries.getD r []) pages
    let o ← sMap (roundO (if x.ofmt = 0 then 1 else 0)) p.2.2
    return (p.1, p.2.1, o)) (List.range y.spec.rows)
  return { newest := newest, m := rs.map (·.1), l := rs.map (·.2.1), o := rs.map (·.2.2) }

/-- A partial for rows lo to lo + n − 1 only: the others have no attended key. -/
def Part.onRows (p : Part) (lo n dim : Nat) : Part :=
  let keep {α : Type} (d : α) (l : List α) : List α :=
    (List.range l.length).map fun r => if lo ≤ r && r < lo + n then l.getD r d else d
  { p with m := keep f32NegInf p.m, l := keep 0#32 p.l, o := keep (List.replicate dim 0#32) p.o }

/-! ### The merge (04 R140) -/

/-- Merge the partials of row r, in order. -/
def mergeRow (parts : List Part) (dim r : Nat) : Sat (F32 × F32 × List F32) := do
  let m := (parts.map fun p => p.m.getD r f32NegInf).foldl maxRow f32NegInf
  if m = f32NegInf then return (f32NegInf, 0#32, List.replicate dim 0#32)
  else
    let fs ← sMap (fun (p : Part) => expScore (p.m.getD r f32NegInf) m) parts
    let ls ← sMap (fun (p : Part × F32) => sMul (p.1.l.getD r 0#32) p.2) (parts.zip fs)
    let l ← sSum ls
    let os ← sMap (fun (d : Nat) => do
      let ts ← sMap (fun (p : Part × F32) => sMul ((p.1.o.getD r []).getD d 0#32) p.2) (parts.zip fs)
      sSum ts) (List.range dim)
    return (m, l, os)

/-- Insert a partial by its newest page, newest first, after those as new (R140). -/
def insertPart (p : Part) : List Part → List Part
  | [] => [p]
  | a :: t => if a.newest < p.newest then p :: a :: t else a :: insertPart p t

/-- An o record's bytes in OFMT, with the codes that saturate as FP8 (04 R156, 05 R171, R174). -/
def oBytes (ofmt : Nat) (oscale : F32) (o : List F32) : Sat (List Byte × Nat) := do
  if ofmt = 0 then return (o.flatMap fun x => leBytes 4 x.toNat, 0)
  else if ofmt = 1 then
    let b ← sMap sBf16 o
    return (b.flatMap fun x => leBytes 2 x.toNat, 0)
  else
    let q ← sMap (fun x => sDiv x oscale) o
    let c := q.map fun x => ((e4m3OfF32 x).1, decide (f32OfNat 464 ≤ f32Abs x))
    return (c.map Prod.fst, (c.filter Prod.snd).length)

/-! ### ENTRY_MERGE -/

/-- A failure in the confluence's own part is recorded; a page or base page that fails becomes CONTAINED. -/
def State.failOwn (s : State) (p : Nat) (e : OwnFailing) : State :=
  match e.1 with
  | some r => s.failPage r e.2
  | none => s.fault { code := e.2.1, srcKind := 7, srcIndex := 0, part := some p, addr := 0, syndrome := e.2.2.2,
                      place := none }

/-- The failing checks of a list, and what passed. -/
def splitChecks {α : Type} (l : List (Except OwnFailing α)) : List OwnFailing × List α :=
  (l.filterMap fun x => match x with | .error e => some e | .ok _ => none,
    l.filterMap fun x => match x with | .ok a => some a | .error _ => none)

/-- The reissued pages of an entry, those of one command and its rows together (09 R293): one partial in the place of the
jet's, and the pages that fail with their status. -/
def State.reissuedParts (s : State) (ecc : EccReport) (v : Session) (x : Req) (y : Entry) :
    State × List Part × List (Swept × Nat) :=
  let keys := (y.reissue.map fun w => (w.1, w.2.1, w.2.2.1)).eraseDups
  keys.foldl (fun (acc : State × List Part × List (Swept × Nat)) k =>
    let ws := y.reissue.filterMap fun w => if decide ((w.1, w.2.1, w.2.2.1) = k) then some w.2.2.2 else none
    let ps := ws.foldl (fun (a : State × List OPage × Nat × List (Swept × Nat)) w =>
      match a.1.ownPage ecc v w with
      | .error e => (a.1.failOwn v.part e, a.2.1, a.2.2.1, a.2.2.2 ++ [(w, statusOfCode e.2.1)])
      | .ok (p, n) => (a.1, a.2.1 ++ [p], a.2.2.1 + n, a.2.2.2)) (acc.1, [], 0, [])
    if ps.2.1.isEmpty then (ps.1, acc.2.1, acc.2.2 ++ ps.2.2.2)
    else
      let newest := (ws.map fun w => w.desc.tokenPos).foldl max 0
      let r := (ps.1.ownPartial v x y ps.2.1 newest).go
      (ps.1.addSat v.part (ps.2.2.1 + r.2), acc.2.1 ++ [r.1.onRows k.2.1 k.2.2 y.spec.dim], acc.2.2 ++ ps.2.2.2))
    (s, [], [])

/-- The own part and the reissued pages of an entry, as partials in merge order's first and last places; pages that fail
with their status. A failure of the own part ends the entry, and of several failures R14 names the one reported. The state
carries the faults found and the saturations. -/
def State.confluenceParts (s : State) (ecc : EccReport) (v : Session) (x : Req) (y : Entry) :
    State × Except Nat (List Part × List Part × List (Swept × Nat)) :=
  let order := y.own.foldr (fun w l =>
    let rec_ := l.takeWhile fun a => decide (w.pg.page < a.pg.page)
    rec_ ++ [w] ++ l.drop rec_.length) []
  let prov := splitChecks [s.provPages ecc v y]
  let ps := splitChecks (order.map (s.ownPage ecc v))
  let fails := prov.1 ++ ps.1
  if fails.isEmpty then
    let pp := prov.2.flatMap Prod.fst
    let sat := ((prov.2.map Prod.snd) ++ (ps.2.map Prod.snd)).foldl (· + ·) 0
    let own := if y.hasOwn then
        let r := (s.ownPartial v x y (pp ++ ps.2.map Prod.fst) 0).go
        ([r.1], r.2)
      else ([], 0)
    let re := (s.addSat v.part (sat + own.2)).reissuedParts ecc v x y
    (re.1, .ok (own.1, re.2.1, re.2.2))
  else (s.each fails fun t e => t.failOwn v.part e, .error (firstFailure (fails.map fun e => statusOfCode e.2.1)))

/-- The status of an answered entry (00 R13, 07 R230). -/
def answerStatus (trunc sat solo : Bool) : Nat :=
  if trunc then stTruncated else if sat then stSaturated else if solo then stSolo else stOk

/-- Form the ATTEND_RESP of an entry from its partials in order (R140, R155, R156; 05 R171 to R175). -/
def State.formResp (s : State) (x : Req) (e : Nat) (y : Entry) (parts : List Part) : State × List Byte :=
  let p := x.msg.part
  let dim := y.spec.dim
  let rows := (sMap (mergeRow parts dim) (List.range y.spec.rows)).go
  let s1 := s.addSat p rows.2
  let mx := (rows.1.flatMap fun r => r.2.2).foldl (fun a v => f32MaxOf a (f32Abs v)) 0#32
  let tick := s.tickOf s.clk.ftime
  let ps := s1.part p
  let sc := (chooseOscale ((ps.findScale y.spec.session y.spec.layer).map Prod.snd) tick x.owin mx).go
  let oscale := if x.ofmt = 2 then sc.1 else f32One
  let body := (sMap (fun (r : F32 × F32 × List F32) => do
    let o ← oBytes x.ofmt oscale r.2.2
    return (leBytes 4 r.1.toNat ++ leBytes 4 r.2.1.toNat ++ o.1, o.2)) rows.1).go
  let nsat := (body.1.map Prod.snd).foldl (· + ·) 0
  let s2 := (s1.addSat p body.2).updPart p fun q =>
    if x.ofmt = 2 then
      { q.useScale y.spec.session y.spec.layer tick mx with osat := satAdd 64 q.osat nsat }
    else q
  let i : RespInfo :=
    { status := answerStatus (!y.omitDl.isEmpty || !y.omitErr.isEmpty) (decide (0 < nsat)) s.solo,
      truncDl := !y.omitDl.isEmpty, truncErr := !y.omitErr.isEmpty, solo := s.solo, sat := decide (0 < nsat),
      hedged := x.isHedge,
      provHeld := y.provReq && s.holdsSet y.spec.session x.pset y.spec.layer y.spec.head,
      entry := e, ofmt := x.ofmt, rowsM1 := y.spec.rows - 1, oscale := oscale, omitDl := omitted y.omitDl, omitErr := omitted y.omitErr, reqTag := x.reqTag, pset := x.pset }
  (s2, respHeader i ++ body.1.flatMap Prod.fst)

/-- The pages that fail as reissued ones: under the policy that ends an entry, with R14's first failure among them, else
each omitted (07 R227, 09 R293). -/
def State.errPages (s : State) (x : Req) (r e : Nat) (bad : List (Swept × Nat)) : State :=
  if x.erp || bad.isEmpty then s.each bad fun t b => t.errPage r e b.1 b.2
  else s.failEntry r e (firstFailure (bad.map Prod.snd))

/-- The merge of an entry whose partials are all gathered; the confluence computes its own part first, merges and answers
(R140, R225, 07 R229, 12 R391). -/
def State.mergeEntry (s : State) (r e : Nat) (ecc : EccReport) (residueOk : Bool) : State :=
  match s.req? r with
  | none => s
  | some x =>
    match x.entry? e with
    | none => s
    | some y =>
      if !(y.live && y.formed.isEmpty && y.waiting == 0) then s
      else
        match s.session? y.spec.session with
        | none => s.failEntry r e stNoSession
        | some v =>
          let s := s.each (y.own ++ y.reissue.map fun w => w.2.2.2) fun t w =>
            (w.base.map Prod.fst).toList.foldl (fun t r => t.recoverCopy ecc r) (t.recoverCopy ecc w.pg)
          match s.confluenceParts ecc v x y with
          | (t, .error st) => t.failEntry r e st
          | (t, .ok (own, re, bad)) =>
            if !residueOk then
              ({ t with draws := t.draws + 1 }.fault
                { code := 0x13, srcKind := 3, srcIndex := 0, part := some x.msg.part, addr := 0,
                  syndrome := Config.residueSyndrome t.draws,
                  place := (mapClusters (t.pmap x.msg.part)).head?.map fun c => .array c 0 }).failEntry r e stContained
            else
              let t := t.errPages x r e bad
              match (t.req? r).bind fun x => x.entry? e with
              | none => t
              | some y =>
                if !y.live then t
                else
                  let parts := own ++ (y.parts ++ re).foldl (fun l p => insertPart p l) []
                  let (u, b) := t.formResp x e y parts
                  u.answerEntry r e b true

/-- ENTRY_MERGE: what waits for an isolated jet goes to the confluence first (09 R293); an entry with every partial
gathered is merged. -/
def doEntryMerge (r e : Nat) (ecc : EccReport) (residueOk : Bool) (s : State) : State :=
  if s.serving then s.divertAll.mergeEntry r e ecc residueOk else s

/-- ENTRY_MERGE. -/
def execEntryMerge (req entry now : Nat) (ecc : EccReport) (residueOk : Bool) (s : State) :
    Host.Outcome State Fault Refusal :=
  run s fun t => doEntryMerge req entry ecc residueOk (t.upTo now)

end Sys2Proof.Machine
end

