-- ==== Sys2Proof/Machine/Cache.lean ====
section
/-! DEFINITION. APPEND, INGEST and COMMIT: their messages (08 R243, 04 R149), checks (02 R69, R70, 04 R150), application
in one step (02 R71, R72, 04 R151), and what is mirrored (10 R320). -/

namespace Sys2Proof.Machine

/-! ### Messages -/

/-- A record of an APPEND or INGEST (R243): layer, KV head, position, tokens as K and V source rows. -/
structure CRec where
  layer : Nat
  head  : Nat
  pos   : Nat
  toks  : List (List (BitVec 16) × List (BitVec 16))
  deriving DecidableEq, Repr

/-- SESSION of an APPEND or INGEST header; with BASE, the base sequence. -/
def ciSession (p : List Byte) : Nat := leAt p 0 3
/-- BASE. -/
def ciBase (p : List Byte) : Bool := bit (leAt p 0 4) 24
/-- HAS_DL. -/
def ciHasDl (p : List Byte) : Bool := bit (leAt p 0 4) 25
/-- NREC. -/
def ciRecs (p : List Byte) : Nat := field (leAt p 4 4) 0 14 + 1
/-- DEADLINE. -/
def ciDeadline (p : List Byte) : Nat := leAt p 8 6
/-- The message size in bytes (R286). -/
def msgLimit : Nat := 1048576

/-- The header's own checks (R243). -/
def ciHeaderOk (p : List Byte) (ingest : Bool) : Bool :=
  decide (32 ≤ p.length ∧ p.length ≤ msgLimit) && fieldZero (leAt p 0 4) 26 6 && fieldZero (leAt p 4 4) 14 18 &&
    (ingest || !ciBase p) && (!(ciBase p) || fieldZero (leAt p 0 4) 8 16) && (slice p 14 18).all (· == 0#8)

/-- The records of a payload after its header, of a head dimension; none when they do not fill it exactly or a field is
wrong (R243). `n` records remain. -/
def ciParse (dim : Nat) : Nat → List Byte → Option (List CRec)
  | 0, l => if l.isEmpty then some [] else none
  | n + 1, l =>
    let v := leAt l 0 16
    let k := field v 16 16
    if l.length < 16 + 4 * dim * k || k = 0 || !fieldZero v 14 2 || !fieldZero v 64 64 then none
    else
      let rows := (pieces (2 * dim) (bf16List (slice l 16 (4 * dim * k)))).map fun r => (r.take dim, r.drop dim)
      (ciParse dim n (l.drop (16 + 4 * dim * k))).map fun t =>
        { layer := field v 0 8, head := field v 8 6, pos := field v 32 32, toks := rows } :: t

/-- The records of an APPEND or INGEST: none when the message is refused with FORMAT (R243, 05 R163). -/
def ciRecords (p : List Byte) (dim : Nat) : Option (List CRec) :=
  match ciParse dim (ciRecs p) (p.drop 32) with
  | none => none
  | some l =>
    if (l.map fun r => (r.layer, r.head)).Nodup ∧ !(l.any fun r => r.toks.any fun t => rowSpecial t.1 || rowSpecial t.2)
    then some l else none

/-- SESSION of a COMMIT. -/
def cmSession (p : List Byte) : Nat := leAt p 0 3
/-- PATH_LEN. -/
def cmLen (p : List Byte) : Nat := field (leAt p 0 4) 24 5
/-- PSET. -/
def cmPset (p : List Byte) : Nat := leAt p 4 2
/-- POS. -/
def cmPos (p : List Byte) : Nat := leAt p 8 4
/-- PATH[k]. -/
def cmPath (p : List Byte) (k : Nat) : Nat := field (leAt p 16 8) (4 * k) 4

/-- The fields of a COMMIT (R149). -/
def commitOk (p : List Byte) : Bool :=
  p.length == 32 && decide (cmLen p ≤ 16) && fieldZero (leAt p 0 4) 29 3 && fieldZero (leAt p 4 4) 16 16 &&
    fieldZero (leAt p 12 4) 0 32 && fieldZero (leAt p 24 8) 0 64 &&
    ((List.range 16).all fun k => decide (k < cmLen p) || cmPath p k == 0)

/-! ### Applying tokens -/

/-- Why a change is not applied: a status, or a failing check of the page's run, of a base page to quantise against
(06 R197), or of metadata. -/
inductive NoApply where
  | st (code : Nat)
  | page (r : PageRef) (e : Failing)
  | base (r : PageRef) (e : Failing)
  | grain (e : Failing)
  deriving DecidableEq, Repr

/-- Do something at a fabric time that stands for the stamp of a change, and go on at the present one. -/
def State.stampedAt (s : State) (stamp : Nat) (f : State → State) : State :=
  let t := f { s with clk := { s.clk with ftime := stamp } }
  { t with clk := { t.clk with ftime := s.clk.ftime } }

/-- The metadata grains that a change of a (layer, KV head) updates: directory, and the list grain of page n
(12 R384). -/
def State.headGrains (_s : State) (v : Session) (layer h n : Nat) : List Nat :=
  (v.dirGrain + (layer * (v.kvhM1 + 1) + h) / 64) :: (Tbl.get? (v.head layer h).lists (n / 16)).toList

/-- The first failing metadata grain of a change. -/
def State.headFault (s : State) (ecc : EccReport) (v : Session) (layer h n : Nat) : Option (Nat × Nat × Word64) :=
  (s.headGrains v layer h n).findSome? fun g => (s.grainFault ecc g).map fun c => (c.1, g, c.2)

/-- Pages per (session, layer, KV head) (02 R57). -/
def pageLimit : Nat := 262144

/-- A page just opened, sealed at once with its 16 tokens: no SRAM copy (02 R72). -/
def State.sealWhole (s : State) (r : PageRef) (wantX : Bool) (toks : List Token) : State :=
  match s.page? r with
  | some p => s.sealPage r { p with copy := none } wantX (toks.map (·.k)) (toks.map (·.v))
  | none => s

/-- Add up to 16 tokens to one page, opening it at its first token and sealing it at its sixteenth (02 R66, R68, R71). A
whole page of an INGEST (`direct`) is written as a sealed page without passing through SRAM (R72). A page beyond the
limit of R57 is refused with FORMAT. -/
def State.addChunk (s : State) (ecc : EccReport) (direct : Bool) (x layer h pos : Nat) (toks : List Token) :
    Except NoApply State :=
  match s.session? x with
  | none => .error (.st stNoSession)
  | some v =>
    let n := pos / 16
    let r : PageRef := { base := false, part := v.part, owner := x, layer := layer, head := h, page := n }
    match s.headFault ecc v layer h n with
    | some e => .error (.grain e)
    | none =>
      if pageLimit ≤ n then .error (.st stFormat)
      else match (if pos % 16 = 0 then s.openPage x layer h n else some s) with
      | none => .error (.st stNoRes)
      | some s1 =>
        if direct && pos % 16 == 0 && toks.length == 16 then .ok (s1.sealWhole r (s1.wantsX v n) toks)
        else match s1.addTokens ecc r toks with
        | .error e => .error (.page r e)
        | .ok s2 =>
          if pos % 16 + toks.length = 16 then
            match s2.page? r with
            | some p =>
              .ok (s2.sealPage r p (s2.wantsX v n) (p.tailToks.map (·.k)) (p.tailToks.map (·.v)))
            | none => .ok s2
          else .ok s2

/-- Add tokens from a position on, page by page; `fuel` bounds the pages. -/
def State.addAll (s : State) (ecc : EccReport) (direct : Bool) (x layer h : Nat) : Nat → Nat → List Token → Except NoApply State
  | 0, _, _ => .ok s
  | fuel + 1, pos, toks =>
    if toks.isEmpty then .ok s
    else
      let k := min (16 - pos % 16) toks.length
      match s.addChunk ecc direct x layer h pos (toks.take k) with
      | .error e => .error e
      | .ok t => t.addAll ecc direct x layer h fuel (pos + k) (toks.drop k)

/-- Set the committed count of a (layer, KV head) (02 R71, R72). -/
def State.setCount (s : State) (x layer h n : Nat) : State :=
  match s.session? x with
  | none => s
  | some v => s.putHead x layer h { v.head layer h with count := n, stamp := s.clk.ftime }

/-- The committed count of a (layer, KV head). -/
def State.countOf (s : State) (x layer h : Nat) : Nat :=
  match s.session? x with | some v => (v.head layer h).count | none => 0

/-- TOKENS records of tokens from a position on: one for each page they touch. -/
def State.tokenRecs (s : State) (part x layer h : Nat) : Nat → Nat → List Token → List MRec
  | 0, _, _ => []
  | fuel + 1, pos, toks =>
    if toks.isEmpty then []
    else
      let k := min (16 - pos % 16) toks.length
      s.tokensRec part x layer h pos (toks.take k) :: s.tokenRecs part x layer h fuel (pos + k) (toks.drop k)

/-- How an INGEST's tokens fall: those that fill an open tail page, whole pages, the rest (02 R72). -/
def ingestSplit (pos n : Nat) : Nat × Nat × Nat :=
  let a := if pos % 16 = 0 then 0 else min (16 - pos % 16) n
  (a, (n - a) / 16, (n - a) % 16)

/-- The records of an INGEST's tokens: TOKENS for those that fill an open tail page, PAGE for whole pages, COUNT after
them, TOKENS for the rest. -/
def State.ingestRecs (s : State) (part x layer h pos : Nat) (toks : List Token) : List MRec :=
  let (a, whole, _) := ingestSplit pos toks.length
  let pages := (List.range whole).map fun i =>
    s.pageRec { base := false, part := part, owner := x, layer := layer, head := h, page := (pos + a) / 16 + i }
  let rest := toks.drop (a + 16 * whole)
  s.tokenRecs part x layer h a pos (toks.take a) ++ pages ++
    (if whole = 0 then [] else [s.countRec part x layer h (pos + a + 16 * whole)]) ++
    s.tokenRecs part x layer h rest.length (pos + a + 16 * whole) rest

/-- A failing change: a page or grain whose partial write is refused becomes CONTAINED and the request ends with
TAG_MISMATCH (12 R384, R387); a base page that cannot be read becomes CONTAINED, and the request ends by its cause
(06 R197). -/
def State.refuseApply (s : State) : NoApply → State × Nat
  | .st c => (s, c)
  | .page r e => ((s.partialRefused e).containPage r, stTag)
  | .base r e => (s.failPage r e, statusOfCode e.1)
  | .grain e => (s.partialRefused e, stTag)

/-- Tokens of a record quantised for a session. -/
def State.quantRec (s : State) (ecc : EccReport) (v : Session) (r : CRec) :
    Except NoApply (List (Quantised × Quantised) × Nat) :=
  match s.quantTokens ecc v r.layer r.head ((List.range r.toks.length).map fun i =>
      let t := r.toks.getD i ([], [])
      (r.pos + i, t.1, t.2)) with
  | .ok q => .ok q
  | .error (p, e) => .error (.base p e)

/-- Count a record's rows in the statistics (05 R178, R179). -/
def PartState.addRows (p : PartState) (layer : Nat) (toks : List (List (BitVec 16) × List (BitVec 16)))
    (qs : List (Quantised × Quantised)) : PartState :=
  (toks.zip qs).foldl (fun p t => (p.addRow layer false t.2.1 t.1.1).addRow layer true t.2.2 t.1.2) p

/-- SRAM bytes that tokens of a session take at positions from pos on (02 R66, 04 R148). -/
def State.tokensSram (s : State) (v : Session) (pos n : Nat) : Nat :=
  ((List.range n).map fun i => tokenBytes (s.tokenFmt v ((pos + i) / 16)) (dimOf v.hdim)).foldl (· + ·) 0

/-- SRAM bytes that the tokens of a record take: those that pass through SRAM (02 R70, R72). -/
def State.recSram (s : State) (v : Session) (ingest : Bool) (r : CRec) : Nat :=
  if ingest then
    let (a, whole, rest) := ingestSplit r.pos r.toks.length
    s.tokensSram v r.pos a + s.tokensSram v (r.pos + a + 16 * whole) rest
  else s.tokensSram v r.pos r.toks.length

/-- Apply the records of an APPEND or INGEST to a session, all or nothing: quantised, reserved, written, then counted
(02 R70 to R72). -/
def State.applyRecords (s : State) (ecc : EccReport) (x : Nat) (v : Session) (ingest : Bool) (l : List CRec) :
    Except NoApply (State × List MRec) := do
  let qs ← l.mapM fun r => s.quantRec ecc v r
  let need := (l.map (s.recSram v ingest)).foldl (· + ·) 0
  match s.takeSram v.part need with
  | none => .error (.st stNoRes)
  | some s0 =>
    let items := l.zip qs
    let toksOf (q : List (Quantised × Quantised)) : List Token := q.map fun p => mkToken p.1.row p.2.row
    let s1 ← items.foldlM (fun (t : State) i =>
      t.addAll ecc ingest x i.1.layer i.1.head (i.1.toks.length + 1) i.1.pos (toksOf i.2.1)) s0
    let s2 := items.foldl (fun (t : State) i => t.setCount x i.1.layer i.1.head (i.1.pos + i.1.toks.length)) s1
    let s3 := items.foldl (fun (t : State) i =>
      ((t.noteBaseReads v i.1.layer i.1.head ((List.range i.1.toks.length).map (i.1.pos + ·))).addSat v.part i.2.2).updPart v.part fun p => p.addRows i.1.layer i.1.toks i.2.1) s2
    .ok (s3, items.flatMap fun i =>
      let toks := toksOf i.2.1
      if ingest then s3.ingestRecs v.part x i.1.layer i.1.head i.1.pos toks
      else s3.tokenRecs v.part x i.1.layer i.1.head toks.length i.1.pos toks)

/-! ### Base sequences (02 R78, 14 R460) -/

/-- Write whole pages of a base sequence from a position on; `fuel` bounds the pages. -/
def State.addBasePages (s : State) (p seq : Nat) (b : BaseSeq) (layer h : Nat) :
    Nat → Nat → List (Quantised × Quantised) → Except NoApply State
  | 0, _, _ => .ok s
  | fuel + 1, n, qs =>
    if qs.isEmpty then .ok s
    else
      let r : PageRef := { base := true, part := p, owner := seq, layer := layer, head := h, page := n }
      let stored := if b.pfmt = 1 then 0 else b.pfmt
      let gs := mapGroups (s.pmap p)
      match (if gs.isEmpty then none else s.liveJet gs (homeJet gs b.seed layer h n)) with
      | none => .error (.st stNoRes)
      | some j =>
        match s.allocRun j (runLen stored b.hdim) (.run r) with
        | none => .error (.st stNoRes)
        | some (g, w, t) =>
          let d : Desc :=
            { grain := g, pfmt := stored, validM1 := 15, hdim := b.hdim, cstate := 0, tail := false, inSram := false,
              contained := false, wgen := w, tagRoot := 0#32, baseIdx := noBase, stamp := t.clk.ftime,
              tokenPos := 16 * n }
          let ks := (qs.take 16).map fun q => q.1.row
          let vs := (qs.take 16).map fun q => q.2.row
          let u := t.putPage r (pageOf d)
          (u.sealPage r (pageOf d) (b.pfmt == 1) ks vs).addBasePages p seq b layer h fuel (n + 1) (qs.drop 16)

/-- Change a base sequence of a partition. -/
def State.updBase (s : State) (p seq : Nat) (f : BaseSeq → BaseSeq) : State :=
  s.updPart p fun q => { q with bases := q.bases.map fun b => if b.1 = seq then (b.1, f b.2) else b }

/-- Apply an INGEST with BASE to a loading base sequence (02 R78). -/
def State.applyBase (s : State) (p seq : Nat) (b : BaseSeq) (l : List CRec) : Except NoApply (State × List MRec) := do
  let bad := b.loaded || l.any fun r => r.pos % 16 != 0 || r.toks.length % 16 != 0 || decide (b.layersM1 < r.layer) ||
    decide (b.kvhM1 < r.head) || decide (16 * b.npages < r.pos + r.toks.length) ||
    r.pos != (Tbl.getD b.heads (lhKey r.layer r.head) LHead.init).count
  if bad then .error (.st stFormat)
  else
    let dim := dimOf b.hdim
    let items := l.map fun r => (r, r.toks.map fun t => quantToken b.pfmt dim [] [] t.1 t.2)
    let s1 ← items.foldlM (fun (t : State) i =>
      t.addBasePages p seq b i.1.layer i.1.head (i.1.toks.length + 1) (i.1.pos / 16) (i.2.map Prod.fst)) s
    let s2 := items.foldl (fun (t : State) i =>
      let t := t.updBase p seq fun b => { b with
        stamp := t.clk.ftime
        heads := Tbl.modify b.heads (lhKey i.1.layer i.1.head) LHead.init fun h =>
          { h with count := i.1.pos + i.1.toks.length } }
      (t.addSat p ((i.2.map Prod.snd).foldl (· + ·) 0)).updPart p fun q =>
        q.addRows i.1.layer i.1.toks (i.2.map Prod.fst)) s1
    .ok (s2, items.flatMap fun i => (List.range (i.1.toks.length / 16)).map fun k =>
      s2.pageRec { base := true, part := p, owner := seq, layer := i.1.layer, head := i.1.head,
                   page := i.1.pos / 16 + k })

/-! ### Requests -/

/-- Apply an admitted APPEND or INGEST (R69 to R72): the state and records, or why not. -/
def State.applyCache (s : State) (ecc : EccReport) (m : Msg) : Except NoApply (State × List MRec) :=
  let p := m.payload
  let ingest := m.opcode == opIngest
  let x := ciSession p
  if ingest && ciBase p then
    match Tbl.get? (s.part m.part).bases (x % 256) with
    | none => .error (.st stFormat)
    | some b =>
      match ciRecords p (dimOf b.hdim) with
      | none => .error (.st stFormat)
      | some l => s.applyBase m.part (x % 256) b l
  else
    match s.openSession m.part x with
    | none => .error (.st stNoSession)
    | some v =>
      match ciRecords p (dimOf v.hdim) with
      | none => .error (.st stFormat)
      | some l =>
        if l.any fun r => v.has r.layer r.head && r.pos != (v.head r.layer r.head).count then .error (.st stFormat)
        else if l.any fun r => !v.has r.layer r.head then .error (.st stNoSession)
        else s.applyRecords ecc x v ingest l

/-- Recover the promoted copies of the base pages that an APPEND or INGEST quantises against (07 R209, R210). -/
def State.recoverFor (s : State) (ecc : EccReport) (m : Msg) : State :=
  if m.opcode == opIngest && ciBase m.payload then s
  else
    match s.openSession m.part (ciSession m.payload) with
    | none => s
    | some v => s.each ((ciRecords m.payload (dimOf v.hdim)).getD []) fun t r =>
        t.recoverBases ecc v r.layer r.head ((List.range r.toks.length).map (r.pos + ·))

/-- The writer's atomic step of an APPEND or INGEST: applied and committed, or refused whole (10 R327); DEADLINE, when the
deadline passed before it (07 R219). -/
def State.doCache (s : State) (ecc : EccReport) (r : Nat) (m : Msg) : State :=
  if (s.req? r).any fun x => decide (x.dlNs ≤ s.clk.ftime) then s.finishReq r stDeadline else
  let s := s.recoverFor ecc m
  match s.applyCache ecc m with
  | .ok (t, recs) => (t.updReq r fun x => { x with atomic := true }).commitChange m.part recs (.request r stOk)
  | .error e => let (t, st) := s.refuseApply e; t.finishReq r st

/-- The sets held for a (session, PSET): none whose hold has ended (R146, R158). -/
def State.setsOf (s : State) (x pset : Nat) : List ProvSet :=
  s.provs.filter fun z => z.session == x && z.pset == pset && decide (s.clk.ftime < z.expiry)

/-- The checks of a COMMIT against the held sets (R150). -/
def State.commitCheck (s : State) (x : Nat) (v : Session) (p : List Byte) : Bool :=
  let sets := s.setsOf x (cmPset p)
  let tree := match sets.head? with | some z => z.tree | none => 0#64
  v.pairs.all (fun lh => (v.head lh.1 lh.2).count == cmPos p &&
    sets.any fun z => z.layer == lh.1 && z.head == lh.2) &&
  sets.all (fun z => z.tree == tree && z.qpos == cmPos p) &&
  (List.range (cmLen p)).all fun k =>
    sets.all (fun z => decide (cmPath p k < z.toks.length)) && parentOf tree (cmPath p k) == (if k = 0 then 15 else cmPath p (k - 1))

/-- Append the accepted path to every (layer, KV head) (R151): the sets are discarded first, their SRAM goes to the
tail tokens. -/
def State.applyCommit (s : State) (ecc : EccReport) (x : Nat) (v : Session) (p : List Byte) :
    Except NoApply (State × List MRec) := do
  let sets := s.setsOf x (cmPset p)
  let path := (List.range (cmLen p)).map (cmPath p)
  let items := v.pairs.map fun lh =>
    let z := sets.find? fun z => z.layer == lh.1 && z.head == lh.2
    (lh, path.filterMap fun c => z.bind fun z => z.toks[c]?)
  let s0 := s.dropProvs fun z => z.session == x && z.pset == cmPset p
  let need := (v.pairs.length) * s.tokensSram v (cmPos p) (cmLen p)
  match s0.takeSram v.part need with
  | none => .error (.st stNoRes)
  | some s1 =>
    let s2 ← items.foldlM (fun (t : State) i => t.addAll ecc false x i.1.1 i.1.2 17 (cmPos p) i.2) s1
    let s3 := items.foldl (fun (t : State) i => t.setCount x i.1.1 i.1.2 (cmPos p + i.2.length)) s2
    .ok (s3, items.flatMap fun i => s3.tokenRecs v.part x i.1.1 i.1.2 17 (cmPos p) i.2)

/-- Does an admitted ATTEND carry a set of the (session, PSET) and still run (R151)? -/
def State.setInUse (s : State) (x pset : Nat) : Bool :=
  s.slc.reqs.any fun q => !q.2.complete && q.2.msg.opcode == opAttend && q.2.pset == pset &&
    q.2.entries.any fun e => !e.2.sent && e.2.spec.prov && e.2.spec.session == x

/-- COMMIT_APPLY (R151). -/
def doCommitApply (r : Nat) (s : State) : State :=
  match s.req? r with
  | none => s
  | some q =>
    let p := q.msg.payload
    let x := cmSession p
    if !s.serving || q.complete || q.atomic || q.msg.opcode != opCommit || s.setInUse x (cmPset p) then s
    else
      if q.dlNs ≤ s.clk.ftime then s.finishReq r stDeadline
      else match s.openSession q.msg.part x with
      | none => s.finishReq r stNoSession
      | some v =>
        if !s.commitCheck x v p then s.finishReq r stFormat
        else if cmLen p = 0 then
          ((s.dropProvs fun z => z.session == x && z.pset == cmPset p).updReq r fun q => { q with atomic := true }).commitChange
            v.part [] (.request r stOk)
        else
          match s.applyCommit eccNone x v p with
          | .ok (t, recs) => (t.updReq r fun q => { q with atomic := true }).commitChange v.part recs (.request r stOk)
          | .error e => let (t, st) := s.refuseApply e; t.finishReq r st

/-- COMMIT_APPLY. -/
def execCommitApply (req : Nat) (s : State) : Host.Outcome State Fault Refusal := run s (doCommitApply req)

/-- APPEND_DEADLINE: the deadline passes before the atomic step begins (07 R219, R220). -/
def doAppendDeadline (r : Nat) (s : State) : State :=
  match s.req? r with
  | none => s
  | some q =>
    if s.serving && !q.complete && !q.atomic && [opAppend, opIngest, opCommit].contains q.msg.opcode &&
        decide (q.dlNs ≤ s.clk.ftime) then s.finishReq r stDeadline
    else s

/-- APPEND_DEADLINE. -/
def execAppendDeadline (req now : Nat) (s : State) : Host.Outcome State Fault Refusal :=
  run s fun t => doAppendDeadline req (t.upTo now)

/-- PROV_SET_EXPIRY: a provisional set is discarded at the end of its hold (04 R146). -/
def doProvSetExpiry (x pset : Nat) (s : State) : State :=
  if s.serving then s.dropProvs fun z => z.session == x && z.pset == pset && decide (z.expiry ≤ s.clk.ftime) else s

/-- PROV_SET_EXPIRY. -/
def execProvSetExpiry (session pset now : Nat) (s : State) : Host.Outcome State Fault Refusal :=
  run s fun t => doProvSetExpiry session pset (t.upTo now)

end Sys2Proof.Machine
end

