-- ==== Sys2Proof/Machine/Sluice.lean ====
section
/-! DEFINITION. The sluice: window checks (08 R272), deadlines (07 R218), reservations and the admission step (09 R290,
R291), host queues and doorbells (09 R285, R286), cancels (08 R245). -/

namespace Sys2Proof.Machine

/-! ### Window checks (08 R270 to R272) -/

/-- Does an opcode's right hold in a window (R240)? -/
def rightOk (op : BitVec 8) (v : BitVec 256) : Bool :=
  if op = opWrite || op = opWriteImm then winWr v
  else if op = opReadReq then winRd v
  else if op = opAttend || op = opCancel || op = opHedge then winAt v
  else if op = opAppend || op = opCommit || op = opIngest then winAt v && winWr v
  else true

/-- The opcodes whose messages land on a queue (09 R282). -/
def landsOnQueue (op : BitVec 8) : Bool := requestOpcodes.contains op || op == opReadReq

/-- Step 8 of R239 for a window: its block's partition is open, and the twin state serves (R272 item 1, 10 R329). -/
def State.fenceCheck (s : State) (op : BitVec 8) (w : Nat) : Bool :=
  (match s.ownerOfWindow w with | some p => s.partOpen p | none => true) && (s.twinServes || !landsOnQueue op)

/-- Step 9 of R239 for a window: items 2 to 6 of R272; the range is offset and length in bytes, checked where given. -/
def State.rangeCheck (s : State) (src : Nat) (op : BitVec 8) (w : Nat) (gen : BitVec 16) (range : Option (Nat × Nat)) :
    Nat :=
  let v := s.window w
  checks
    [((s.ownerOfWindow w).isSome && winValid v, stRevoked), (winGen v == gen, stRevoked),
     ((Tbl.getD s.cfg.srcSets (winSrcset v) 0#8192).getLsbD src, stBounds), (rightOk op v, stBounds),
     (match range with | some (o, n) => decide (o + n ≤ 512 * winLen v) | none => true, stBounds)]

/-- Steps 8 and 9 for a frame or message that names a window: OK, or the status that refuses it. -/
def State.windowCheck (s : State) (src : Nat) (op : BitVec 8) (w : Nat) (gen : BitVec 16) (range : Option (Nat × Nat)) :
    Nat :=
  if s.fenceCheck op w then s.rangeCheck src op w gen range else stFenced

/-! ### Shapers (09 R298 to R300) -/

/-- The shaper of a queue group in the table of shapers. -/
def groupTarget (g : Nat) : Nat := g
/-- The shaper of a port class. -/
def portTarget (p c : Nat) : Nat := 4096 + 16 * p + c

/-- A shaper at reset: RATE 0, BURST 64. -/
def shaperReset : Word64 := 0x40000000#64

/-- The shaper in force. -/
def State.shaper (s : State) (t : Nat) : Word64 := Tbl.getD s.cfg.shapers t shaperReset

/-- A bucket's ceiling in units of 1/8000 byte: 512 × BURST bytes. -/
def bucketTop (v : Word64) : Int := (512 * fld v 24 16 * 8000 : Nat)

/-- A bucket now, filled at RATE since it was last written; a bucket never written is full (R299). In units of 1/8000
byte, RATE adds RATE per ns. -/
def bucketNow (v : Word64) (b : Option (Int × Nat)) (now : Nat) : Int :=
  match b with
  | some (n, at_) => min (bucketTop v) (n + (fld v 0 24 * (now - at_) : Nat))
  | none => bucketTop v

/-- May a shaped class or group go on: unshaped, or 0 tokens or more (R298, R299)? -/
def bucketOpen (v : Word64) (b : Option (Int × Nat)) (now : Nat) : Bool :=
  fld v 0 24 == 0 || decide (0 ≤ bucketNow v b now)

/-- A bucket after n bytes. -/
def bucketTake (v : Word64) (b : Option (Int × Nat)) (now n : Nat) : Int × Nat :=
  (bucketNow v b now - (n * 8000 : Nat), now)

/-! ### The class rule (09 R296) -/

/-- The weighted group's state: the pointer as class − 4, whether it has just arrived, the deficits. -/
structure Wrr where
  ptr     : Nat
  arrived : Bool
  deficit : Tbl Nat
  deriving DecidableEq, Repr

/-- The weighted round robin of R296 over classes 4 to 11; `fuel` bounds the visits. -/
def wrrPick (elig empty : Nat → Bool) (size weight : Nat → Nat) : Nat → Wrr → Option Nat × Wrr
  | 0, w => (none, w)
  | fuel + 1, w =>
    if !((List.range 8).any fun k => elig (4 + k)) then (none, w)
    else
      let c := 4 + w.ptr % 8
      if elig c then
        let w := if w.arrived then
            { w with deficit := Tbl.set w.deficit c (Tbl.getD w.deficit c 0 + weight c * 512), arrived := false }
          else w
        if size c ≤ Tbl.getD w.deficit c 0 then
          (some c, { w with deficit := Tbl.set w.deficit c (Tbl.getD w.deficit c 0 - size c) })
        else wrrPick elig empty size weight fuel { w with ptr := (w.ptr + 1) % 8, arrived := true }
      else
        let w := if empty c then { w with deficit := Tbl.set w.deficit c 0 } else w
        wrrPick elig empty size weight fuel { w with ptr := (w.ptr + 1) % 8, arrived := true }

/-- WEIGHT of class c, 4 to 11, in a weights word (R297). -/
def weightOf (v : Word64) (c : Nat) : Nat := fld v (8 * (c - 4)) 8

/-! ### Deadlines (07 R218) -/

/-- DL_NS of a deadline tick, or the status that refuses it. -/
def State.deadline (s : State) (dl : Nat) : Except Nat Nat :=
  let t := s.tickOf s.clk.ftime
  let d := tickSub dl t
  if d = 0 || 2 ^ 47 ≤ d then .error stPast
  else if d ≤ 64 then .ok (s.tickAhead d)
  else .error stFormat

/-- The tick 64 ticks after now, as a deadline time (R220, 08 R244). -/
def State.laterDeadline (s : State) : Nat := s.tickAhead 64

/-! ### Reservations (R290) -/

/-- What a message reserves: bytes and descriptors of the partition's share, for an ATTEND also each entry's bytes, and
whether it takes a completion entry. -/
structure Need where
  bytes : Nat
  descs : Nat
  each  : List Nat
  cq    : Option Nat
  deriving DecidableEq, Repr

/-- LEN of a READ_REQ (08 R242). -/
def rdLen (p : List Byte) : Nat := leAt p 0 4

/-- The bytes an ATTEND entry reserves: 32 when its session is not open. -/
def State.entryNeed (s : State) (m : Msg) (x : EntrySpec) : Nat :=
  match s.openSession m.part x.session with
  | some _ => x.respLen (atOfmt m.payload)
  | none => 32

/-- The reservation of a message. -/
def State.need (s : State) (m : Msg) : Need :=
  match m.origin with
  | .host _ cq _ _ _ => { bytes := 0, descs := 0, each := [], cq := some cq }
  | _ =>
    if m.opcode = opAttend then
      let l := (entrySpecs m.payload).map (s.entryNeed m)
      { bytes := l.foldl (· + ·) 0, descs := (l.map fun n => cdiv n 8192).foldl (· + ·) 0, each := l, cq := none }
    else if m.opcode = opReadReq then
      let n := min (rdLen m.payload) 65536
      { bytes := n, descs := cdiv n 8192, each := [], cq := none }
    else { bytes := 0, descs := 1, each := [], cq := none }

/-- Can a reservation never be taken (R290)? -/
def State.needTooBig (s : State) (p : Nat) (n : Need) : Bool :=
  decide (s.respShare p < n.bytes ∨ s.descQuota p < n.descs)

/-- Is a reservation free now? -/
def State.needFree (s : State) (p : Nat) (n : Need) : Bool :=
  let u := Tbl.getD s.slc.shareUse p (0, 0)
  decide (u.1 + n.bytes ≤ s.respShare p ∧ u.2 + n.descs ≤ s.descQuota p) &&
    (match n.cq with | some q => decide (0 < s.cqFree q) | none => true)

/-! ### Cancels (08 R245, 04 R158) -/

/-- Cancel every running ATTEND that a test names: whether one was found, and the state. -/
def State.cancelReqs (s : State) (p : Req → Bool) : Bool × State :=
  let l := s.slc.reqs.filter fun (x : Nat × Req) => !x.2.complete && x.2.msg.opcode == opAttend && !x.2.isHedge && p x.2
  (!l.isEmpty, s.each l fun t x => t.endReq x.1 stCancelled)

/-- A CANCEL frame of a source in a window's partition (R245). -/
def State.cancelFabric (s : State) (src : BitVec 13) (p : Nat) (tag : BitVec 32) : State :=
  let (hit, t) := s.cancelReqs fun x => x.msg.part == p && x.reqTag == tag &&
    (match x.msg.origin with | .fabric a _ _ _ _ _ => a == src | _ => false)
  if hit then t else t.count cCancelMiss 1

/-! ### Admission (R291) -/

/-- Take a landed message out of its queue; its landing space stays taken as long as 09 R291 and R292 say. -/
def State.unland (s : State) (m : Msg) : State :=
  s.updQueue m.queue fun q => { q with landed := q.landed.filter fun x => x.id != m.id }

/-- Refuse a landed message (R291). -/
def State.refuseLanded (s : State) (m : Msg) (st : Nat) : State :=
  let t := (s.unland m).refuseMsg m st
  if st = stNoRes then t.countPart m.part pAdmitNores 1 else t

/-- The checks that come before the message's content: windows again (13 R434), partitions agree (11 R356), the twin
serves, the mirror slot of a changing request holds a key (11 R371). -/
def State.admitChecks (s : State) (m : Msg) : Nat :=
  let changes := m.opcode == opAppend || m.opcode == opIngest || m.opcode == opCommit
  let keyOk := !changes || s.twin.state != twPaired || s.mirrorKey m.part
  match m.origin with
  | .fabric src k w g _ _ =>
    checks
      [(keyOk, stKey),
       (s.ownerOfWindow w.toNat == some m.part && s.ownerOfKey k.toNat == some m.part &&
          s.ownerOfQueue m.queue == some m.part && s.fenceCheck m.opcode w.toNat, stFenced),
       (s.rangeCheck src.toNat m.opcode w.toNat g
          (if m.opcode = opReadReq then some (m.offset, rdLen m.payload) else none) == stOk,
        s.rangeCheck src.toNat m.opcode w.toNat g
          (if m.opcode = opReadReq then some (m.offset, rdLen m.payload) else none))]
  | _ => checks [(keyOk, stKey), (s.partOpen m.part && s.twinServes, stFenced)]

/-- The checks of the message's own format. -/
def State.admitFormat (s : State) (m : Msg) : Bool :=
  if m.opcode = opAttend then
    attendOk m.payload &&
      (match m.origin with
       | .host _ _ _ len _ =>
         decide (((entrySpecs m.payload).map (s.entryNeed m)).foldl (· + ·) 0 ≤ len)
       | _ => true)
  else if m.opcode = opCommit then commitOk m.payload
  else if m.opcode = opReadReq || m.opcode = opCancel then true
  else ciHeaderOk m.payload (m.opcode == opIngest)

/-- The session, or base sequence, that a changing request changes is written here (10 R325). -/
def State.writesOf (s : State) (m : Msg) : Bool :=
  if m.opcode = opCommit then s.writes (cmSession m.payload)
  else if m.opcode = opIngest && ciBase m.payload then s.writesBases
  else if m.opcode = opAppend || m.opcode = opIngest then s.writes (ciSession m.payload)
  else true

/-- May a message be forwarded: one of the fabric that has not been forwarded (R326)? -/
def Msg.mayForward (m : Msg) : Bool := match m.origin with | .fabric _ _ _ _ _ f => !f | _ => false

/-- DL_NS of a message that carries a deadline, fixed at its first admission step, or the status that refuses it (R218,
R291); none of a message whose deadline its admission sets (R220, R244). -/
def State.msgDeadline (s : State) (m : Msg) : Except Nat (Option Nat) :=
  match m.dlNs with
  | some d => .ok (some d)
  | none =>
    if m.opcode = opAttend then (s.deadline (atDeadline m.payload)).map some
    else if (m.opcode = opAppend || m.opcode = opIngest) && ciHasDl m.payload then
      (s.deadline (ciDeadline m.payload)).map some
    else .ok none

/-- A message's admission limit (R291). -/
def admitLimit (m : Msg) (dl : Nat) : Option Nat :=
  if m.opcode = opAttend then some (dl - 300)
  else if (m.opcode = opAppend || m.opcode = opIngest) && ciHasDl m.payload then some dl
  else none

/-- Has a message waited ADMIT_WAIT ticks, or is it past its admission limit (R291)? -/
def State.waitedOut (s : State) (m : Msg) : Bool :=
  (match m.waitAt with
   | some w => decide (s.admitWait m.part ≤ tickSub (s.tickOf s.clk.ftime) (s.tickOf w))
   | none => false) ||
  (match m.dlNs.bind (admitLimit m) with | some l => decide (l < s.clk.ftime) | none => false)

/-- A request as it is admitted. -/
def State.newReq (s : State) (m : Msg) (dl : Nat) (n : Need) : Req :=
  let p := m.payload
  let isAt := m.opcode == opAttend
  { msg := m, epoch := s.ep.epoch, admitAt := s.clk.ftime, dlNs := dl,
    dlp := if isAt then (if atDlp p = 2 && s.solo then 0 else atDlp p) else 0,
    ofmt := if isAt then atOfmt p else 0, bias := isAt && atBias p, scale := if isAt then atScale p else 0#32,
    pset := if isAt then atPset p else 0, respSlot := if isAt then atRespSlot p else 0#32,
    reqTag := if isAt then atReqTag p else 0#32, erp := s.erp m.part, owin := s.owin m.part,
    clusters := (mapClusters (s.pmap m.part)).length, entries := [], bytes := n.bytes, descs := n.descs,
    readLeft := if m.opcode = opReadReq then rdLen p else 0, readAt := m.offset,
    winAddr := (match m.origin with | .fabric _ _ w _ _ _ => 512 * winBase (s.window w.toNat) | _ => 0),
    revAt := (match m.origin with
      | .fabric _ _ w _ _ _ | .hedge _ _ w _ _ _ _ => Tbl.getD s.slc.revokes w.toNat 0
      | _ => 0)
    waitAck := 0, atomic := false,
    complete := false, hedged := false, claim := none }

/-- Resolve the entries of an admitted ATTEND and release its commands; entries that a mask leaves out are not this
node's. The entries that fail at once are answered (R74, R133, R137). -/
def State.startAttend (s : State) (ecc : EccReport) (r : Nat) (n : Need) (mask : Nat → Bool) (own : Bool) : State :=
  match s.req? r with
  | none => s
  | some x =>
    let l := entrySpecs x.msg.payload
    let expiry := x.dlNs + s.provHold x.msg.part * s.cfg.period
    let res := (List.range l.length).foldl (fun (acc : State × List (Nat × Nat)) e =>
      match l[e]? with
      | none => acc
      | some sp =>
        if mask e then
          let (t, y, st) := acc.1.resolveEntry ecc x.msg r expiry own x.erp l e sp
          let y := { y with resv := n.each.getD e 0 }
          (t.updReq r fun q => { q with entries := Tbl.set q.entries e y }, acc.2 ++ [(e, st)])
        else
          let z : Entry := { Entry.ofSpec sp [] with sent := true, ended := some stOk }
          (acc.1.updReq r fun q => { q with entries := Tbl.set q.entries e z }, acc.2)) (s, [])
    let t := res.1.each (res.2.filter fun p => p.2 != stOk) fun t p => t.failEntry r p.1 p.2
    t.releaseCmds r

/-- A host CANCEL at its admission: the ATTENDs of its queue that bear its TARGET_TAG, which stands in `offset`, end; one
completion entry (R286). -/
def State.cancelHost (s : State) (m : Msg) : State :=
  match m.origin with
  | .host q cq _ _ tag =>
    let (hit, t) := s.cancelReqs fun r => r.reqTag.toNat == m.offset &&
      (match r.msg.origin with | .host q' _ _ _ _ => q' == q | _ => false)
    (if hit then t else t.count cCancelMiss 1).hostDone cq stOk tag
  | _ => s

/-- Admit a message whose reservation is free. -/
def State.admitMsg (s : State) (ecc : EccReport) (m : Msg) (dl : Nat) (n : Need) : State :=
  let r := s.slc.nextReq
  let t := (s.unland m).takeShare m.part n.bytes n.descs
  let g := m.queue / 256
  let v := t.shaper (groupTarget g)
  let waited := match m.waitAt with | some w => s.clk.ftime - w | none => 0
  let t := { t with slc := { t.slc with
    nextReq := r + 1
    buckets := Tbl.set t.slc.buckets g (bucketTake v (Tbl.get? t.slc.buckets g) t.clk.ftime m.payload.length) } }
  let t := if waited = 0 then t else t.countPart m.part pAdmitWait waited
  if m.opcode = opCancel then t.cancelHost m
  else
  let t := t.updQueue m.queue fun q => { q with ctx := setField q.ctx 128 16 (qAdmitted q.ctx + 1) }
  let t := t.setReq r (t.newReq m dl n)
  if m.opcode = opAttend then t.startAttend ecc r n (fun _ => true) true
  else if m.opcode = opReadReq then t.pumpRead r false 128
  else if m.opcode = opCommit then t
  else t.doCache ecc r m

/-- One message at its admission step (R291): refused, forwarded, admitted, or kept at the head of its queue. -/
def State.admitStep (s : State) (ecc : EccReport) (m : Msg) : State :=
  let st := s.admitChecks m
  if st != stOk then s.refuseLanded m st
  else if !s.writesOf m && m.mayForward then (s.unland m).forwardMsg m
  else if !s.admitFormat m then s.refuseLanded m stFormat
  else if !s.writesOf m then s.refuseLanded m stNoSession
  else
    match s.msgDeadline m with
    | .error c => s.refuseLanded m c
    | .ok dl =>
      let n := s.need m
      if s.needTooBig m.part n then s.refuseLanded m stFormat
      else if s.needFree m.part n then s.admitMsg ecc m (dl.getD s.laterDeadline) n
      else if s.waitedOut { m with dlNs := dl } then s.refuseLanded m stNoRes
      else
        let m' := { m with dlNs := dl, waitAt := some (m.waitAt.getD s.clk.ftime) }
        s.updQueue m.queue fun q => { q with landed := q.landed.map fun (x : Msg) => if x.id = m.id then m' else x }

/-- May queue q's oldest message be taken at an admission step: its group's shaper is open, and it does not wait for a
reservation that is still not free? -/
def State.queueReady (s : State) (q : Nat) : Bool :=
  let x := s.queue q
  match x.landed.head? with
  | none => false
  | some m =>
    bucketOpen (s.shaper (groupTarget (q / 256))) (Tbl.get? s.slc.buckets (q / 256)) s.clk.ftime &&
      (m.waitAt.isNone || s.needFree m.part (s.need m) || s.waitedOut m)

/-- The queue of class c after the last admitted from, wrapping (R291). -/
def State.nextQueue (s : State) (p c : Nat) (ready : Nat → Bool) : Option Nat :=
  let qs := (s.slc.queues.filter fun q => s.ownerOfQueue q.1 == some p && qClass q.2.ctx == c && ready q.1).map Prod.fst
  let last := Tbl.getD s.slc.lastQ (16 * p + c) 0
  let used := (Tbl.get? s.slc.lastQ (16 * p + c)).isSome
  match qs.find? fun q => used && decide (last < q) with
  | some q => some q
  | none => qs.head?

/-- ADMISSION_STEP of a partition (R291). -/
def doAdmissionStep (p : Nat) (ecc : EccReport) (s : State) : State :=
  if !(s.serving && p < 16) then s
  else
    let held (q : Nat) : Bool := !(s.queue q).landed.isEmpty
    let elig (c : Nat) : Bool := (s.nextQueue p c s.queueReady).isSome
    let head (c : Nat) : Option (Nat × Msg) := (s.nextQueue p c s.queueReady).bind fun q =>
      ((s.queue q).landed.head?).map fun m => (q, m)
    let size (c : Nat) : Nat := match head c with | some (_, m) => m.payload.length | none => 0
    let w : Wrr := { ptr := Tbl.getD s.slc.admPtr p 0, arrived := s.slc.admArr.contains p,
                     deficit := (s.slc.admDef.filter fun (d : Nat × Nat) => d.1 / 16 == p).map fun (d : Nat × Nat) => (d.1 % 16, d.2) }
    let (c, w') := if elig 3 then (some 3, w)
      else wrrPick elig (fun c => (s.nextQueue p c held).isNone) size
        (weightOf (Tbl.getD s.cfg.admitW p weightsReset)) 20000 w
    let t := { s with slc := { s.slc with
      admPtr := Tbl.set s.slc.admPtr p w'.ptr
      admArr := if w'.arrived then (s.slc.admArr.filter (· != p)) ++ [p] else s.slc.admArr.filter (· != p)
      admDef := w'.deficit.foldl (fun (d : Tbl Nat) (x : Nat × Nat) => Tbl.set d (16 * p + x.1) x.2) s.slc.admDef } }
    match c.bind head with
    | none => s
    | some (q, m) =>
      let t := { t with slc := { t.slc with lastQ := Tbl.set t.slc.lastQ (16 * p + c.getD 0) q } }
      t.admitStep ecc m

/-- ADMISSION_STEP. -/
def execAdmissionStep (part now : Nat) (ecc : EccReport) (s : State) : Host.Outcome State Fault Refusal :=
  run s fun t => doAdmissionStep part ecc (t.upTo now)

/-- ADMIT_WAIT_EXPIRY: the oldest message of a queue has waited too long (R291). -/
def doAdmitWaitExpiry (q : Nat) (s : State) : State :=
  match (s.queue q).landed.head? with
  | some m => if s.serving && s.waitedOut m && !s.needFree m.part (s.need m) then s.refuseLanded m stNoRes else s
  | none => s

/-- ADMIT_WAIT_EXPIRY. -/
def execAdmitWaitExpiry (queue now : Nat) (s : State) : Host.Outcome State Fault Refusal :=
  run s fun t => doAdmitWaitExpiry queue (t.upTo now)

/-- READ_DEADLINE: the read ends with one frame carrying DEADLINE (07 R220). -/
def doReadDeadline (r : Nat) (s : State) : State :=
  match s.req? r with
  | none => s
  | some x =>
    if s.serving && !x.complete && x.msg.opcode == opReadReq && decide (x.dlNs ≤ s.clk.ftime) then s.endReq r stDeadline
    else s

/-- READ_DEADLINE. -/
def execReadDeadline (req now : Nat) (s : State) : Host.Outcome State Fault Refusal :=
  run s fun t => doReadDeadline req (t.upTo now)

/-! ### Host queues (R285, R286) -/

/-- Count an ignored doorbell at the function's partition, or the queue's owner. -/
def State.dbIgnored (s : State) (fn : Fn) (q : Nat) : State :=
  match fnPart fn, s.ownerOfQueue q with
  | some p, _ => s.countPart p pDbIgnored 1
  | none, some p => s.countPart p pDbIgnored 1
  | none, none => s

/-- A doorbell write (R285). -/
def doDoorbell (fn : Fn) (q : Nat) (db : BitVec 32) (s : State) : State :=
  if !(s.serving && q < 1048576) then s
  else
    let v := (s.queue q).ctx
    let new := db.toNat % 65536
    let mine := match fnPart fn with | some p => s.ownerOfQueue q == some p | none => true
    let ahead (old : Nat) : Nat := (new + 65536 - old) % 65536
    if !mine then s.dbIgnored fn q
    else if qType v = 2 then
      if ahead (qProd v) ≤ qSize v then s.updQueue q fun x => { x with ctx := setField x.ctx 96 16 new }
      else s.dbIgnored fn q
    else if qType v = 3 then
      if ahead (qCons v) ≤ qSize v && ahead (qCons v) ≤ qUsed v then
        s.updQueue q fun x => { x with ctx := setField x.ctx 112 16 new }
      else s.dbIgnored fn q
    else s.dbIgnored fn q

/-- HOST_DOORBELL: a new producer index. -/
def execHostDoorbell (fn : Fn) (queue : Nat) (db : BitVec 32) (s : State) : Host.Outcome State Fault Refusal :=
  run s (doDoorbell fn queue db)

/-- COMPLETION_DOORBELL: a new consumer index. -/
def execCompletionDoorbell (fn : Fn) (queue : Nat) (db : BitVec 32) (s : State) : Host.Outcome State Fault Refusal :=
  run s (doDoorbell fn queue db)

/-- The fields of a submission entry (R286). -/
def subOp (e : BitVec 512) : BitVec 8 := e.extractLsb' 0 8
/-- CQ. -/
def subCq (e : BitVec 512) : Nat := fld e 8 20
/-- LEN. -/
def subLen (e : BitVec 512) : Nat := fld e 32 32
/-- TARGET_TAG. -/
def subTarget (e : BitVec 512) : BitVec 32 := e.extractLsb' 64 32
/-- RESP_ADDR. -/
def subAddr (e : BitVec 512) : Nat := fld e 128 64
/-- RESP_LEN. -/
def subRespLen (e : BitVec 512) : Nat := fld e 192 32
/-- TAG. -/
def subTag (e : BitVec 512) : BitVec 32 := e.extractLsb' 224 32

/-- The checks of a submission entry (R286). RESP_ADDR and RESP_LEN mean something for an ATTEND, and are RsvdZ of a CANCEL
alone. -/
def State.subOk (s : State) (p : Nat) (e : BitVec 512) (msg : List Byte) : Bool :=
  [opAttend, opAppend, opCommit, opIngest, opCancel].contains (subOp e) && fieldZero e.toNat 28 4 &&
    fieldZero e.toNat 256 256 && s.ownerOfQueue (subCq e) == some p && qType (s.queue (subCq e)).ctx == 3 &&
    (if subOp e = opCancel then
      fieldZero e.toNat 96 32 && subLen e == 0 && subAddr e == 0 && subRespLen e == 0
     else decide (subLen e ≤ msgLimit) && msg.length == subLen e)

/-- The message of a submission entry (R286): a CANCEL has no payload, its TARGET_TAG stands in `offset`. -/
def State.subMsg (s : State) (p q : Nat) (e : BitVec 512) (msg : List Byte) : Msg :=
  let cancel := subOp e == opCancel
  { id := s.slc.nextMsg, origin := .host q (subCq e) (subAddr e) (subRespLen e) (subTag e), opcode := subOp e,
    part := p, queue := q, ring := 0, payload := if cancel then [] else msg,
    offset := if cancel then (subTarget e).toNat else 0, landAt := s.clk.ftime, waitAt := none, dlNs := none }

/-- HOST_SUBMISSION_READ: the entry at CONS and its message, which lands as a request of the queue's class (R286, R290). An
entry that names no COMPLETION queue of its partition is dropped: there is nowhere to answer it. -/
def doHostSubmissionRead (q : Nat) (e : BitVec 512) (msg : List Byte) (s : State) : State :=
  let x := s.queue q
  let v := x.ctx
  match s.ownerOfQueue q with
  | none => s
  | some p =>
    if !(s.serving && qType v == 2 && !x.stopping && decide (0 < qUsed v)) || s.sec.resetting.contains p then s
    else
      let t := s.updQueue q fun y => { y with ctx := setField y.ctx 112 16 (qCons v + 1) }
      let m := t.subMsg p q e msg
      if !s.subOk p e msg then
        if s.ownerOfQueue (subCq e) == some p && qType (s.queue (subCq e)).ctx == 3 then t.refuseMsg m stFormat else t
      else
        let u := { t with slc := { t.slc with nextMsg := t.slc.nextMsg + 1 } }
        u.updQueue q fun y => { y with landed := y.landed ++ [m] }

/-- HOST_SUBMISSION_READ. -/
def execHostSubmissionRead (queue : Nat) (entry : BitVec 512) (msg : List Byte) (s : State) :
    Host.Outcome State Fault Refusal :=
  run s (doHostSubmissionRead queue entry msg)

end Sys2Proof.Machine
end

