-- ==== Sys2Proof/Machine/Agtan.lean ====
section
/-! DEFINITION. The Agtan mailbox interface: what every command is checked for before its own checks (14 R453, R454,
R456), parking (R448), and the commands that only read. A body that R456 gives as one value is read as 8 bytes with
the value at bit 0 (assumption 20). -/

namespace Sys2Proof.Machine

/-- What R456 says of an opcode: its code, From, Paths, the body sizes it takes, and how R453, R454, R360 and R363 treat
it. `part0` says whether the command is partition-scoped from mailbox 0. -/
structure AgtanOp where
  code    : BitVec 16
  owner   : Bool
  tenant  : Bool
  wt      : Bool
  mctp    : Bool
  len     : Nat → Bool
  rsvdOk  : List Byte → Bool
  part0   : List Byte → Bool
  exempt  : Bool
  early   : Bool
  mutual_ : Bool
  ownRead : Bool

/-- The opcode of a command for owner and tenants over BAR0, SPDM and Woarnys transport, with a body of n bytes. -/
def agtanOp (code n : Nat) : AgtanOp :=
  { code := BitVec.ofNat 16 code, owner := true, tenant := true, wt := true, mctp := false, len := (· == n)
    rsvdOk := fun _ => true, part0 := fun _ => false, exempt := false, early := false, mutual_ := false
    ownRead := false }

/-- As `agtanOp`, for the owner alone. -/
def ownerOp (code n : Nat) : AgtanOp := { agtanOp code n with tenant := false }
/-- As `agtanOp`, for tenants alone. -/
def tenantOp (code n : Nat) : AgtanOp := { agtanOp code n with owner := false }

/-- The RsvdZ bits [hi:lo] of a body are zero. -/
def zeroBits (lo hi : Nat) (b : List Byte) : Bool := fieldZero (leNat b) lo (hi + 1 - lo)

/-- The partition a command addresses (R454). -/
def AgtanOp.target (o : AgtanOp) (c : AgtanCmd) : Option Nat :=
  if 1 ≤ c.mb then some (c.mb - 1) else if o.part0 c.body then some c.part.toNat else none

/-- Is a path one that the opcode permits (R456), in the mailbox it came to (R449)? -/
def AgtanOp.pathOk (o : AgtanOp) (c : AgtanCmd) : Bool :=
  match c.path with
  | .bar0 .. | .spdm .. => true
  | .wt .. | .fwd .. => o.wt
  | .mctp => o.mctp && c.mb == 0

/-- Did a command come in the mutually authenticated session of its partition's function (11 R363)? -/
def State.inMutual (s : State) (c : AgtanCmd) (p : Nat) : Bool :=
  match c.path with
  | .spdm (.fn (.vf q)) _ => q == p && (Tbl.getD s.sec.spdm (1 + p) Spdm.init).isOpen &&
      (Tbl.getD s.sec.spdm (1 + p) Spdm.init).mutualAuth
  | _ => false

/-- The status of the checks that every command passes first, in the order of R453. -/
def State.agtanStatus (s : State) (o : AgtanOp) (c : AgtanCmd) : Nat :=
  let t := o.target c
  checks
    [(match t with
      | some p => !o.mutual_ || mapTenantKey (s.pmap p) == 0#384 || s.inMutual c p
      | none => true, stKey),
     ((match t with | some p => o.exempt || s.partOpen p | none => true) &&
        (s.boot.stage == 5 || (c.mb == 0 && (o.exempt || o.early) && (s.boot.stage != 6 || o.code == 0x0003#16))), stFenced),
     (decide (c.mb ≤ 16) && (if c.mb = 0 then o.owner else o.tenant) && o.pathOk c && o.len c.len.toNat &&
        c.body.length == c.len.toNat && c.rsvd == 0#98 && o.rsvdOk c.body &&
        (match t with | some p => c.part.toNat == p | none => c.part == 0#4) &&
        !(o.ownRead && c.mb == 0 && s.ownerReadOff), stFormat)]

/-- Are the mailboxes served on a path from the end of step 2: over PCIe while it is up, else by the fountainhead (13
R415, R416, 15 R475)? -/
def State.mailServed (s : State) (c : AgtanCmd) : Bool :=
  match c.path with
  | .bar0 .. | .spdm (.fn _) _ => s.ownerServed
  | _ => s.awake && decide (2 ≤ s.boot.stage)

/-- A mailbox command in its turn: refused by R453, or executed. Nothing is served while the owner mailbox is not; a node
in HELD accepts NODE_RESET alone (12 R394). -/
def State.agtan (s : State) (o : AgtanOp) (c : AgtanCmd) (f : State → State) : State :=
  if s.mailServed c then
    if s.agtanStatus o c = stOk then f s else s.respond o.code c (s.agtanStatus o c) []
  else s

/-- Park a command until a later event completes it (R448). -/
def State.park (s : State) (o : AgtanOp) (c : AgtanCmd) : State :=
  s.updMbox c.mb fun m => { m with parked := m.parked ++ [(o.code, c)] }

/-- Complete every parked command that a test names, with a status and a body formed for each. -/
def State.unpark (s : State) (p : BitVec 16 → AgtanCmd → Bool) (st : Nat) (body : State → AgtanCmd → List Byte) : State :=
  s.each (List.range 17) fun t m =>
    let l := (t.mbox m).parked.filter fun x => p x.1 x.2
    let u := if l.isEmpty then t
      else t.updMbox m fun x => { x with parked := x.parked.filter fun y => !p y.1 y.2 }
    u.each l fun u x => u.respond x.1 x.2 st (body u x.2)

/-! ### Commands that only read -/

/-- NODE_STATUS. -/
def opNodeStatus : AgtanOp := { agtanOp 0x0001 0 with mctp := true, exempt := true }
/-- NODE_STATUS: FH_BOOT_STAT, the epoch registers, the power status and WT_TWIN_STAT, in that order. -/
def doNodeStatus (c : AgtanCmd) (s : State) : State :=
  s.agtan opNodeStatus c fun t => t.respond opNodeStatus.code c stOk
    (leBytes 8 t.bootStat ++ leBytes 8 t.ep.epoch ++ leBytes 8 t.pendTime ++ leBytes 8 t.epochStat ++
      leBytes 8 t.pwrStat ++ leBytes 16 t.twinStat)
/-- NODE_STATUS. -/
def execNodeStatus (c : AgtanCmd) (s : State) : Host.Outcome State Fault Refusal := run s (doNodeStatus c)

/-- FAULT_READ. -/
def opFaultRead : AgtanOp := { agtanOp 0x0006 0 with mctp := true, exempt := true }
/-- May a mailbox see a record: the owner every one, a tenant its own (R456)? -/
def seesRecord (mb : Nat) (r : FltRec) : Bool := mb == 0 || r.part == some (mb - 1)
/-- The history, newest first (12 R405). -/
def State.history (s : State) : List FltRec :=
  (List.range 32).filterMap fun i => Tbl.get? s.flt.hist ((s.flt.next + 31 - i) % 32)
/-- FAULT_READ: FLT_FIRST, then the history records, newest first. -/
def doFaultRead (c : AgtanCmd) (s : State) : State :=
  s.agtan opFaultRead c fun t =>
    let first := match t.flt.first with
      | some r => if seesRecord c.mb r then recordBytes r else List.replicate 32 0#8
      | none => List.replicate 32 0#8
    t.respond opFaultRead.code c stOk (first ++ (t.history.filter (seesRecord c.mb)).flatMap recordBytes)
/-- FAULT_READ. -/
def execFaultRead (c : AgtanCmd) (s : State) : Host.Outcome State Fault Refusal := run s (doFaultRead c)

/-- PEER_CLEAR. -/
def opPeerClear : AgtanOp := { ownerOp 0x0007 8 with rsvdOk := zeroBits 13 63 }
/-- PEER_CLEAR: clear a peer's UNREACHABLE mark (08 R263). -/
def doPeerClear (c : AgtanCmd) (s : State) : State :=
  s.agtan opPeerClear c fun t => (t.clearUnreachable (leNat c.body)).respond opPeerClear.code c stOk []
/-- PEER_CLEAR. -/
def execPeerClear (c : AgtanCmd) (s : State) : Host.Outcome State Fault Refusal := run s (doPeerClear c)

/-- CFG_STATUS. -/
def opCfgStatus : AgtanOp := { agtanOp 0x0012 0 with mctp := true, exempt := true }
/-- CFG_STATUS: the epoch registers, then OPEN (0) or SEALED (1). -/
def doCfgStatus (c : AgtanCmd) (s : State) : State :=
  s.agtan opCfgStatus c fun t => t.respond opCfgStatus.code c stOk
    (leBytes 8 t.ep.epoch ++ leBytes 8 t.pendTime ++ leBytes 8 t.epochStat ++
      leBytes 8 (b2n (t.stageSet c.mb).isSealed))
/-- CFG_STATUS. -/
def execCfgStatus (c : AgtanCmd) (s : State) : Host.Outcome State Fault Refusal := run s (doCfgStatus c)

/-- TWIN_STATUS. -/
def opTwinStatus : AgtanOp := { agtanOp 0x0033 0 with mctp := true }
/-- TWIN_STATUS: WT_TWIN_STAT. -/
def doTwinStatus (c : AgtanCmd) (s : State) : State :=
  s.agtan opTwinStatus c fun t => t.respond opTwinStatus.code c stOk (leBytes 16 t.twinStat)
/-- TWIN_STATUS. -/
def execTwinStatus (c : AgtanCmd) (s : State) : Host.Outcome State Fault Refusal := run s (doTwinStatus c)

/-- DIR_READ. -/
def opDirRead : AgtanOp := { agtanOp 0x0034 8 with rsvdOk := zeroBits 33 63 }
/-- A reserved-table record (10 R347). -/
def reservedBytes (r : Word64 × Nat) : List Byte := leBytes 8 r.1.toNat ++ leBytes 8 r.2
/-- DIR_READ: the directory epoch, then records from the index in [31:0] of the body: membership records with [32] 0,
reserved-table records with [32] 1 (assumption 20). -/
def doDirRead (c : AgtanCmd) (s : State) : State :=
  s.agtan opDirRead c fun t =>
    let i := leAt c.body 0 4
    let d := t.cfg.dir
    t.respond opDirRead.code c stOk
      (leBytes 8 d.epoch ++
        (if bit (leNat c.body) 32 then ((d.reserved.drop i).take 63).flatMap reservedBytes
         else ((d.members.drop i).take 126).flatMap fun m => leBytes 8 m.toNat))
/-- DIR_READ. -/
def execDirRead (c : AgtanCmd) (s : State) : Host.Outcome State Fault Refusal := run s (doDirRead c)

/-- WINDOW_READ. -/
def opWindowRead : AgtanOp := { agtanOp 0x0041 8 with part0 := fun _ => true, rsvdOk := zeroBits 20 63 }
/-- A window ID that a command names: a window of the partition it addresses (R458)? -/
def State.ownWindow (s : State) (c : AgtanCmd) (w : Nat) : Bool :=
  decide (w < 65536) && s.ownerOfWindow w == some (cmdPart c)
/-- WINDOW_READ: the committed entry, with GEN and STAMP. -/
def doWindowRead (c : AgtanCmd) (s : State) : State :=
  s.agtan opWindowRead c fun t =>
    let w := leAt c.body 0 4
    if t.ownWindow c w then t.respond opWindowRead.code c stOk (leBytes 32 (t.window w).toNat)
    else t.respond opWindowRead.code c stFormat []
/-- WINDOW_READ. -/
def execWindowRead (c : AgtanCmd) (s : State) : Host.Outcome State Fault Refusal := run s (doWindowRead c)

/-- QUEUE_READ. -/
def opQueueRead : AgtanOp :=
  { agtanOp 0x0062 8 with wt := false, part0 := fun _ => true, rsvdOk := zeroBits 20 63 }
/-- Is a queue of the addressed partition's slices? -/
def State.ownQueue (s : State) (c : AgtanCmd) (q : Nat) : Bool := s.ownerOfQueue q == some (cmdPart c)
/-- QUEUE_READ: one queue context. -/
def doQueueRead (c : AgtanCmd) (s : State) : State :=
  s.agtan opQueueRead c fun t =>
    let q := leNat c.body
    if t.ownQueue c q then t.respond opQueueRead.code c stOk (leBytes 32 (t.queue q).ctx.toNat)
    else t.respond opQueueRead.code c stFormat []
/-- QUEUE_READ. -/
def execQueueRead (c : AgtanCmd) (s : State) : Host.Outcome State Fault Refusal := run s (doQueueRead c)

/-- STATS_READ. -/
def opStatsRead : AgtanOp :=
  { agtanOp 0x00B0 8 with part0 := fun _ => true, ownRead := true, rsvdOk := zeroBits 14 63 }
/-- A partition's statistics after a read with CLEAR: every returned field is zero (05 R182, 14 R463). -/
def PartState.cleared (p : PartState) (now first n : Nat) : PartState :=
  { p with
    clearStamp := now, arithSat := 0, osat := 0, codedPages := 0, rawFallback := 0, rawBytes := 0, codedBytes := 0
    escapes := 0, decodeFails := 0, coderFaults := 0
    layers := p.layers.filter fun l => !decide (first ≤ l.1 ∧ l.1 < first + n) }
/-- STATS_READ: the statistics header, the compression counters, the layer records (R463). -/
def doStatsRead (c : AgtanCmd) (s : State) : State :=
  s.agtan opStatsRead c fun t =>
    let v := leNat c.body
    let first := field v 0 8
    let n := field v 8 5 + 1
    if 29 < n || 256 < first + n then t.respond opStatsRead.code c stFormat []
    else
      let p := cmdPart c
      let x := t.part p
      let body := statHeader x ++ compBytes x ++
        (List.range n).flatMap fun i => layerBytes (Tbl.getD x.layers (first + i) LayerStat.init)
      let u := if bit v 13 then t.setPart p (x.cleared t.clk.ftime first n) else t
      u.respond opStatsRead.code c stOk body
/-- STATS_READ. -/
def execStatsRead (c : AgtanCmd) (s : State) : Host.Outcome State Fault Refusal := run s (doStatsRead c)

/-- HIST_READ. -/
def opHistRead : AgtanOp :=
  { agtanOp 0x00B1 8 with part0 := fun _ => true, ownRead := true, rsvdOk := zeroBits 24 63 }
/-- HIST_READ: scale history records from an index (R456). -/
def doHistRead (c : AgtanCmd) (s : State) : State :=
  s.agtan opHistRead c fun t =>
    let i := leAt c.body 0 2
    let n := leAt c.body 2 1
    if n = 0 || 15 < n || 32768 < i + n then t.respond opHistRead.code c stFormat []
    else t.respond opHistRead.code c stOk
      ((List.range n).flatMap fun k => match Tbl.get? (t.part (cmdPart c)).scales (i + k) with
        | some r => scaleBytes r
        | none => List.replicate 128 0#8)
/-- HIST_READ. -/
def execHistRead (c : AgtanCmd) (s : State) : Host.Outcome State Fault Refusal := run s (doHistRead c)

end Sys2Proof.Machine
end

