-- ==== Sys2Proof/Machine/Hedge.lean ====
section
/-! DEFINITION. Hedging (10 R336 to R342): the origin's prediction and its HEDGE, the twin's admission, the claims. -/

namespace Sys2Proof.Machine

/-! ### Prediction at the origin (R336) -/

/-- Nanoseconds of jet cycles at the jet clock in force. -/
def State.jetNs (s : State) (cycles : Nat) : Nat := cdiv (cycles * 1000) s.jetMhz

/-- When a jet's queued and running commands, and those that wait for a slot of it, will complete, in fabric time. -/
def State.jetDoneAt (s : State) (j : Nat) : Nat :=
  let x := s.jet j
  let open_ := s.slc.cmds.filter fun c => c.2.jet == j &&
    (match c.2.slot with | some n => !x.ready.getLsbD n | none => true)
  let cost (l : Tbl JetCmd) : Nat := s.jetNs ((l.map fun c => s.sweepCycles c.2).foldl (· + ·) 0)
  let running := open_.filter fun c => c.2.slot.isSome && c.2.slot == x.running
  let rest := open_.filter fun c => !(c.2.slot.isSome && c.2.slot == x.running)
  s.clk.ftime + (cost running - (s.clk.up - x.startAt)) + cost rest

/-- The commands of a request that serve an entry. -/
def State.cmdsOf (s : State) (r e : Nat) : Tbl JetCmd := s.slc.cmds.filter fun c => c.2.req == r && c.2.serves e

/-- The predicted completion time of an entry. -/
def State.predict (s : State) (r : Nat) (x : Req) (e : Nat) (y : Entry) : Nat :=
  (((s.cmdsOf r e).map fun c => s.jetDoneAt c.2.jet).foldl max s.clk.ftime) + s.mergeRes x y

/-- Has an entry's first cut time come? -/
def State.cutCome (s : State) (r e : Nat) (x : Req) : Bool :=
  (s.cmdsOf r e).any fun c => decide (s.cutTime x c.2 ≤ s.clk.ftime)

/-- A free claim record. -/
def State.freeClaim (s : State) : Option Nat :=
  (List.range 4096).find? fun c => (Tbl.get? s.twin.claims c).isNone

/-- A hedge's header (R337). -/
def hedgeHeader (src claim dl : Nat) (es : List Nat) : List Byte :=
  leBytes 64 (src + claim * 2 ^ 16 + dl * 2 ^ 32 + (es.foldl (fun m e => m + 2 ^ e) 0) * 2 ^ 128)

/-- HEDGE_EVALUATE: send one HEDGE for every incomplete entry when an entry will miss DL_NS (R336, R339). A HOST request
names no window, so its HEDGE could not be formed. -/
def doHedgeEvaluate (r : Nat) (s : State) : State :=
  match s.req? r with
  | none => s
  | some x =>
    match x.msg.origin with
    | .fabric src k w g _ _ =>
      let l := x.entries.filter fun e => e.2.live && e.2.formed.isEmpty
      let late := l.any fun e => !s.cutCome r e.1 x && decide (x.dlNs < s.predict r x e.1 e.2)
      if !(s.serving && x.msg.opcode == opAttend && x.dlp == 2 && !x.complete && !x.hedged && late &&
          s.twin.state == twPaired) then s
      else
        match s.freeClaim with
        | none => s
        | some c =>
          let es := l.map Prod.fst
          let t := (s.setReq r { x with hedged := true, claim := some c }).count cHedgeSent 1
          let t := { t with twin := { t.twin with
            claims := Tbl.set t.twin.claims c (es.map fun e => (e, clOpen))
            claimReq := Tbl.set t.twin.claimReq c r } }
          t.sendMsg
            { dst := BitVec.ofNat 13 s.twinNode, rclass := 0#2, pclass := 0, opcode := opHedge, fwd := false, keySlot := k,
              window := w, gen := g, offset := 0, imm := 0#32 }
            (hedgeHeader src.toNat c x.dlNs es ++ x.msg.payload) fun _ => .hedge c
    | _ => s

/-- HEDGE_EVALUATE. -/
def execHedgeEvaluate (req now : Nat) (s : State) : Host.Outcome State Fault Refusal :=
  run s fun t => doHedgeEvaluate req (t.upTo now)

/-! ### The twin's side (R338) -/

/-- ORIG_SRC of a HEDGE payload. -/
def hgSrc (p : List Byte) : BitVec 13 := BitVec.ofNat 13 (leAt p 0 2)
/-- CLAIM_ID. -/
def hgClaim (p : List Byte) : Nat := leAt p 2 2
/-- DL_NS. -/
def hgDl (p : List Byte) : Nat := leAt p 4 8
/-- HMASK. -/
def hgMask (p : List Byte) : BitVec 256 := BitVec.ofNat 256 (leAt p 16 32)
/-- Are the RsvdZ fields of a HEDGE payload zero, and its claim one of 4,096? -/
def hgOk (p : List Byte) : Bool :=
  decide (64 ≤ p.length) && fieldZero (leAt p 0 2) 13 3 && decide (hgClaim p < 4096) && (slice p 12 4).all (· == 0#8) &&
    (slice p 48 16).all (· == 0#8)

/-- The reservation of the entries that a mask names. -/
def Need.masked (n : Need) (mask : BitVec 256) : Need :=
  let es := (List.range n.each.length).map fun e => if mask.getLsbD e then n.each.getD e 0 else 0
  { n with bytes := es.foldl (· + ·) 0, descs := (es.map fun b => cdiv b 8192).foldl (· + ·) 0, each := es }

/-- A HEDGE message at the twin: it is admitted at once with its own reservation, or declined whole (R338). -/
def State.takeHedge (s : State) (h : Hdr) (p : List Byte) : State :=
  let w := h.window.toNat
  let src := hgSrc p
  let pl := p.drop 64
  let part := (s.ownerOfWindow w).getD 0
  let m : Msg :=
    { id := s.slc.nextMsg
      origin := .hedge src h.keySlot h.window h.gen (hgClaim p) (hgDl p) (hgMask p)
      opcode := opAttend, part := part, queue := 0, ring := 0, payload := pl, offset := 0, landAt := s.clk.ftime,
      waitAt := none, dlNs := some (hgDl p) }
  let t := { s with slc := { s.slc with nextMsg := s.slc.nextMsg + 1 } }
  let ok := s.twin.state == twPaired && s.windowCheck src.toNat opHedge w h.gen none == stOk &&
    s.ownerOfKey h.keySlot.toNat == some part && attendOk pl
  let n := (t.need m).masked (hgMask p)
  if ok && t.needFree part n then
    let r := t.slc.nextReq
    let u := t.takeShare part n.bytes n.descs
    let u := { u with slc := { u.slc with nextReq := r + 1 } }
    (u.setReq r (u.newReq m (hgDl p) n)).startAttend eccNone r n (fun e => (hgMask p).getLsbD e) false
  else t.sendClaim h.keySlot (hgClaim p) 0 false false false true true

/-! ### Claims (R340, R341) -/

/-- CLAIM_ID. -/
def hcClaim (v : BitVec 32) : Nat := fld v 0 16
/-- ENTRY. -/
def hcEntry (v : BitVec 32) : Nat := fld v 16 8
/-- REPLY. -/
def hcReply (v : BitVec 32) : Bool := v.getLsbD 24
/-- GRANTED. -/
def hcGranted (v : BitVec 32) : Bool := v.getLsbD 25
/-- DONE. -/
def hcDone (v : BitVec 32) : Bool := v.getLsbD 26
/-- DECLINE. -/
def hcDecline (v : BitVec 32) : Bool := v.getLsbD 27
/-- ALL. -/
def hcAll (v : BitVec 32) : Bool := v.getLsbD 28
/-- The RsvdZ fields of a HEDGE_CLAIM immediate, and ALL only with DECLINE. -/
def hcOk (v : BitVec 32) : Bool :=
  fld v 29 3 == 0 && (!hcAll v || (hcDecline v && hcEntry v == 0))

/-- A side loses an entry: its slots are stopped, its work and reservation discarded (R341). -/
def State.loseEntry (s : State) (r e : Nat) : State :=
  match s.req? r with
  | none => s
  | some x =>
    match x.entry? e with
    | none => s
    | some y =>
      if y.sent then s
      else
        let t := (s.updEntry r e fun z => { z with ended := some (z.ended.getD stCancelled) }).stopEntry r e
        let t := t.giveBack x.msg.part y.resv (cdiv y.resv 8192)
        let t := t.updReq r fun q => { q with bytes := q.bytes - y.resv, descs := q.descs - cdiv y.resv 8192 }
        (t.updEntry r e fun z => { z with sent := true, formed := [], resv := 0 }).completeAttend r

/-- The twin declines an entry: an open claim is over, and a held failure goes out (R341, R342). -/
def State.declined (s : State) (c e : Nat) : State :=
  let r := Tbl.getD s.twin.claimReq c 0
  let t := s.count cHedgeDeclined 1
  if t.claimOf c e = clOpen then (t.setClaim c e clClosed).releaseHeld r e else t

/-- A HEDGE_CLAIM at the origin (R341): a decline, the DONE of an entry, or a claim, decided in one step. -/
def State.originClaim (s : State) (h : Hdr) : State :=
  let c := hcClaim h.imm
  let e := hcEntry h.imm
  let r := Tbl.getD s.twin.claimReq c 0
  if hcDecline h.imm then
    let es := if hcAll h.imm then (Tbl.getD s.twin.claims c []).map Prod.fst else [e]
    s.each es fun t e => t.declined c e
  else if hcDone h.imm then
    if s.claimOf c e = clTwin then s.setClaim c e clTwinDone else s
  else if s.claimOf c e = clOpen then
    ((s.setClaim c e clTwin).sendClaim h.keySlot c e true true false false false).loseEntry r e
  else s.sendClaim h.keySlot c e true false false false false

/-- The hedge of claim record c that this node holds for its twin. -/
def State.hedgeReq (s : State) (c : Nat) : Option (Nat × Req) :=
  s.slc.reqs.find? fun x => !x.2.complete && (match x.2.msg.origin with | .hedge _ _ _ _ d _ _ => d == c | _ => false)

/-- The origin's reply at the twin: granted, the ATTEND_RESP goes out and DONE after it; denied, the work is discarded
(R341). -/
def State.claimReply (s : State) (h : Hdr) : State :=
  let c := hcClaim h.imm
  let e := hcEntry h.imm
  match s.hedgeReq c with
  | none => s
  | some (r, x) =>
    match x.entry? e with
    | none => s
    | some y =>
      if y.sent || y.formed.isEmpty then s
      else if hcGranted h.imm then
        (s.handEntry r e y.formed).sendClaim h.keySlot c e false false true false false
      else s.loseEntry r e

/-- A HEDGE_CLAIM message. -/
def State.takeClaim (s : State) (h : Hdr) : State := if hcReply h.imm then s.claimReply h else s.originClaim h

end Sys2Proof.Machine
end

