-- ==== Sys2Proof/Machine/Epochs.lean ====
section
/-! DEFINITION. Configuration epochs (13 R431 to R441): staged changes as settings, the commit checks, the commit, what
takes effect at the commit time, draining, and the commands that act on staging sets. -/

namespace Sys2Proof.Machine

/-! ### Staged changes as settings -/

/-- A staged window: GEN and STAMP are the committed ones until the commit raises them (08 R270, R273). -/
def stagedWindow (old v : BitVec 256) : BitVec 256 := setField (setField v 64 16 (winGen old).toNat) 128 64 (winStamp old)

/-- Settings with one staged change; parts of weir lists come together in `withWeirs`. -/
def Settings.stage (c : Settings) : Staged → Settings
  | .map p v => { c with maps := Tbl.set c.maps p v }
  | .pcfg p tier slc prov owin =>
    { c with
      tier := Tbl.set c.tier p tier, slc := Tbl.set c.slc p slc
      provHold := Tbl.set c.provHold p prov, owin := Tbl.set c.owin p owin }
  | .lock v => { c with lock := v }
  | .admitW p v => { c with admitW := Tbl.set c.admitW p v }
  | .nodeCfg v pfx => { c with nodeCfg := v, wtPrefix := pfx }
  | .twinCfg v => { c with twinCfg := v }
  | .route dst mask => { c with routes := Tbl.set c.routes dst mask }
  | .window id v => { c with windows := Tbl.set c.windows id (stagedWindow (Tbl.getD c.windows id 0#256) v) }
  | .srcHalf n half v =>
    let old := Tbl.getD c.srcSets n 0#8192
    let new : BitVec 8192 := if half = 0 then old.extractLsb' 4096 4096 ++ v else v ++ old.extractLsb' 0 4096
    { c with srcSets := Tbl.set c.srcSets n new }
  | .weir _ _ _ _ => c
  | .shaper t v => { c with shapers := Tbl.set c.shapers t v }
  | .portW p v => { c with portW := Tbl.set c.portW p v }
  | .period v => { c with period := v }
  | .origin v => { c with origin := v }
  | .fepoch v => { c with fepoch := v }
  | .lib p l => { c with libs := Tbl.set c.libs p l }

/-- BASE_TIME of a weir header (09 R301). -/
def weirBase (h : BitVec 128) : Nat := fld h 0 64
/-- CYCLE_NS. -/
def weirCycle (h : BitVec 128) : Nat := fld h 64 30
/-- NENT. -/
def weirNent (h : BitVec 128) : Nat := fld h 96 9
/-- GATES of an entry. -/
def entGates (e : Word64) : BitVec 12 := e.extractLsb' 0 12
/-- DURATION_NS of an entry. -/
def entNs (e : Word64) : Nat := fld e 32 32

/-- The parts of a port's weir list in a staging set: first entry, header, entries. -/
def weirParts (l : List Staged) (port : Nat) : List (Nat × BitVec 128 × List Word64) :=
  l.filterMap fun x => match x with
    | .weir p f h es => if p == port then some (f, h, es) else none
    | _ => none

/-- Entry i of the parts: the last part that covers it. -/
def weirEntry (parts : List (Nat × BitVec 128 × List Word64)) (i : Nat) : Option Word64 :=
  (parts.reverse.find? fun p => decide (p.1 ≤ i ∧ i < p.1 + p.2.2.length)).bind fun p => p.2.2[i - p.1]?

/-- The list that the parts make: none when their headers disagree or they do not cover it (14 R461). -/
def weirOf (parts : List (Nat × BitVec 128 × List Word64)) : Option Weir :=
  match parts.getLast? with
  | none => none
  | some last =>
    let h := last.2.1
    let es := (List.range (weirNent h)).filterMap (weirEntry parts)
    if parts.all (fun p => p.2.1 == h) && es.length == weirNent h then some { hdr := h, entries := es } else none

/-- The ports for which a staging set holds weir parts. -/
def weirPorts (l : List Staged) : List Nat := (List.range 24).filter fun p => !(weirParts l p).isEmpty

/-- Settings with every staged change of a list, in order. -/
def Settings.withItems (c : Settings) (l : List Staged) : Settings :=
  let d := l.foldl Settings.stage c
  { d with weirs := (weirPorts l).foldl (fun t p => match weirOf (weirParts l p) with
      | some w => if w.entries.isEmpty then Tbl.erase t p else Tbl.set t p w
      | none => t) d.weirs }

/-! ### Commit checks (R432) -/

/-- The gate runs of a cycle for one class: (open, ns) in order, the last entry held to the cycle's end (09 R303). -/
def gateRuns (w : Weir) (c : Nat) : List (Bool × Nat) :=
  let cut := w.entries.foldl (fun (a : List (Bool × Nat) × Nat) e =>
    let n := min (entNs e) (weirCycle w.hdr - a.2)
    if n = 0 then a else (a.1 ++ [((entGates e).getLsbD c, n)], a.2 + n)) ([], 0)
  match cut.1.getLast? with
  | some l => if cut.2 < weirCycle w.hdr then cut.1.dropLast ++ [(l.1, l.2 + (weirCycle w.hdr - cut.2))] else cut.1
  | none => cut.1

/-- The runs joined where neighbours agree. -/
def joinRuns : List (Bool × Nat) → List (Bool × Nat)
  | [] => []
  | (b, n) :: t =>
    match joinRuns t with
    | (c, m) :: u => if b = c then (b, n + m) :: u else (b, n) :: (c, m) :: u
    | [] => [(b, n)]

/-- The joined runs counted across the wrap. -/
def wrapRuns (l : List (Bool × Nat)) : List (Bool × Nat) :=
  match joinRuns l with
  | [] => []
  | (b, n) :: t =>
    match t.getLast? with
    | some (c, m) => if b = c then (b, n + m) :: t.dropLast else (b, n) :: t
    | none => [(b, n)]

/-- Is gate c of a list never closed for more than 10 µs, and open for at least 100 ns each time (09 R302)? -/
def gateOk (w : Weir) (c : Nat) : Bool :=
  let l := wrapRuns (gateRuns w c)
  l.all (fun r => if r.1 then decide (100 ≤ r.2) else decide (r.2 ≤ 10000)) &&
    (l.any (fun r => r.1) || decide (weirCycle w.hdr ≤ 10000 ∧ l.isEmpty))

/-- A whole weir list is in order (R301, R302); a list of no entries removes the port's. -/
def weirOk (w : Weir) : Bool :=
  w.entries.isEmpty ||
    (decide (1000 ≤ weirCycle w.hdr ∧ weirCycle w.hdr ≤ 1000000000 ∧ weirNent w.hdr ≤ 256) &&
      w.entries.all (fun e => decide (100 ≤ entNs e) && fld e 12 20 == 0) && gateOk w 0 && gateOk w 2)

/-- The resources of a map entry (11 R353). -/
def mapResources (m : BitVec 1024) : List Resource :=
  (mapGroups m).map .channelGroup ++ (mapSlices m).map .slice ++ (mapClusters m).map .cluster ++
    (mapWblocks m).map .windowBlock ++ ((List.range (mapKeyCount m)).map fun i => .keySlot (mapKeyFirst m + i)) ++
    (mapSblocks m).map .sessionBlock

/-- The entries of a whole map. -/
def Settings.mapOf (c : Settings) (p : Nat) : BitVec 1024 := Tbl.getD c.maps p 0#1024

/-- No resource bit and no key slot stands in two entries (R352). -/
def mapsDisjoint (c : Settings) : Bool :=
  let bits (m : BitVec 1024) : BitVec 320 := m.extractLsb' 256 256 ++ m.extractLsb' 0 64
  (List.range 16).all fun p => (List.range p).all fun q =>
    (bits (c.mapOf p) &&& bits (c.mapOf q)) == 0#320 &&
      (let a := c.mapOf p
       let b := c.mapOf q
       mapKeyCount a == 0 || mapKeyCount b == 0 ||
         decide (mapKeyFirst a + mapKeyCount a ≤ mapKeyFirst b ∨ mapKeyFirst b + mapKeyCount b ≤ mapKeyFirst a))

/-- One entry of a staged map by itself (R352). -/
def mapEntryOk (m : BitVec 1024) : Bool :=
  decide (mapKeyFirst m + mapKeyCount m ≤ 1024) && (mapKeyCount m == 0 || decide (17 ≤ mapKeyFirst m)) &&
    (!mapEnable m || !((mapGroups m).isEmpty || (mapSlices m).isEmpty || (mapClusters m).isEmpty))

/-- May partition p lose a resource under R352? An enabled partition keeps the groups of its runs, and, since the model
does not place copies in slices (assumption 21), its slices while it holds anything in SRAM. -/
def State.mayLose (s : State) (p : Nat) : Resource → Bool
  | .channelGroup g => !mapEnable (s.pmap p) || !(s.allocs.any fun a => match a.use with
      | .run _ => grainGroup a.first == g
      | _ => false)
  | .slice _ => !mapEnable (s.pmap p) || s.sramUsed p == 0
  | .cluster _ => true
  | .windowBlock b => !(s.cfg.windows.any fun w => w.1 / 4096 == b && winValid w.2)
  | .keySlot k => (s.key k).st == .empty || (s.key k).st == .retired
  | .sessionBlock b => !(s.sessions.any fun x => x.1 / 65536 == b && x.2.state != 0)

/-- Is a resource free to be assigned to p: owned by no other partition in force, and not being released or scrubbed? -/
def State.assignable (s : State) (p : Nat) (r : Resource) : Bool :=
  (List.range 16).all (fun q => q == p || !(mapResources (s.pmap q)).contains r) &&
    !(s.ep.releasing.any fun x => x.1 == r) && !s.sec.scrubbing.contains r

/-- The checks of a staged partition map (R352). -/
def State.mapsOk (s : State) (new : Settings) : Bool :=
  mapsDisjoint new &&
    (List.range 16).all fun p =>
      let a := mapResources (s.pmap p)
      let b := mapResources (new.mapOf p)
      mapEntryOk (new.mapOf p) && (a.filter fun r => !b.contains r).all (s.mayLose p) &&
        (b.filter fun r => !a.contains r).all (s.assignable p) &&
        (!mapEnable (s.pmap p) || (mapSlices (s.pmap p)).head? == (mapSlices (new.mapOf p)).head?)

/-- WT_TWIN_CFG in order beside a node ID (10 R314). -/
def twinCfgOk (v : Word64) (node : Nat) : Bool :=
  let ports := bitsOf (v >>> 32) 24
  fld v 0 13 != node && decide (1 ≤ ports.length ∧ ports.length ≤ 4) && ports.all fun p => decide (p ≤ 8)

/-- RESP_SHARE values of all partitions add up to at most 192 (09 R284). -/
def sharesOk (c : Settings) : Bool :=
  decide (((List.range 16).map fun p => fld (Tbl.getD c.slc p slcReset) 0 8).foldl (· + ·) 0 ≤ 192)

/-- Is ORIGIN not later than the commit time (07 R215)? -/
def originOk (c : Settings) (time : Nat) : Bool := decide (c.origin ≤ time)

/-- Is PERIOD_NS in its range (07 R215)? -/
def periodOk (c : Settings) : Bool := decide (1000 ≤ c.period ∧ c.period ≤ 1000000)

/-- Does a list stage a change of a kind? -/
def stagesTwin (l : List Staged) : Bool := l.any fun x => match x with | .twinCfg _ => true | _ => false
/-- Does a list stage tick settings? -/
def isTick : Staged → Bool
  | .period _ | .origin _ | .fepoch _ => true
  | _ => false
/-- Does a list stage a partition map? -/
def stagesMap (l : List Staged) : Bool := l.any fun x => match x with | .map _ _ => true | _ => false

/-- The commit checks of a set's settings (R432): the time check of ORIGIN only where a time is given. -/
def State.commitOkItems (s : State) (base : Settings) (l : List Staged) (time : Option Nat) : Bool :=
  let new := base.withItems l
  (match time with | some t => !l.any isTick || originOk new t | none => true) && (!l.any isTick || periodOk new) &&
    sharesOk new &&
    (!stagesTwin l || twinCfgOk new.twinCfg (fld new.nodeCfg 0 13)) &&
    (!stagesMap l || s.mapsOk new) && (s.cfg.lock &&& ~~~new.lock) == 0#64 &&
    (weirPorts l).all fun p => match weirOf (weirParts l p) with | some w => weirOk w | none => false

/-! ### Weir take-over (09 R304) -/

/-- The take-over time of a list committed at time C. -/
def takeOver (h : BitVec 128) (c : Nat) : Nat :=
  if c + 10000 ≤ weirBase h then weirBase h
  else weirBase h + cdiv (c + 10000 - weirBase h) (weirCycle h) * weirCycle h

/-- The take-over times of the ports that a staging set gives a list. -/
def takeOvers (l : List Staged) (c : Nat) : Tbl Nat :=
  (weirPorts l).filterMap fun p => match weirOf (weirParts l p) with
    | some w => if w.entries.isEmpty then none else some (p, takeOver w.hdr c)
    | none => none

/-! ### What takes effect at the commit time (R436) -/

/-- The settings of a window that raise GEN when they change (08 R273). -/
def windowKey (v : BitVec 256) : BitVec 256 := setField (setField v 64 16 0) 128 64 0

/-- The window table after a commit: GEN and STAMP raised where a setting changed. -/
def raisedWindows (old new : Tbl (BitVec 256)) (now : Nat) : Tbl (BitVec 256) :=
  Tbl.mapVals new fun id v => if windowKey v == windowKey (Tbl.getD old id 0#256) then v else winRaise v now

/-- The gates of a resource (11 R404): gate n of channel n, 128 + slice, 144 + cluster. -/
def gatesOf : Resource → List Nat
  | .channelGroup g => (List.range 8).map fun c => 16 * c + g
  | .slice n => [128 + n]
  | .cluster c => [144 + c]
  | _ => []

/-- Write the owner gates of a resource (11 R357). -/
def State.writeGates (s : State) (r : Resource) (v : Word64) : State :=
  { s with sec := { s.sec with gates := (gatesOf r).foldl (fun t g => Tbl.set t g v) s.sec.gates } }

/-- SEC_GATE of a resource that partition p owns. -/
def gateOwned (p : Nat) : Word64 := BitVec.ofNat 64 (p + 16)
/-- SEC_GATE of a resource being scrubbed. -/
def gateScrub : Word64 := 0x20#64

/-- A session block that is assigned gets its table of 8,192 grains (02 R58). -/
def State.takeTable (s : State) (p : Nat) : Resource → State
  | .sessionBlock b => s.needTable p b
  | _ => s

/-- New assignments take effect; a released resource keeps its gate until its epoch has drained (R436). -/
def State.applyMap (s : State) (old new : Settings) (p : Nat) : State :=
  let a := mapResources (old.mapOf p)
  let b := mapResources (new.mapOf p)
  let t := s.each (b.filter fun r => !a.contains r) fun t r => (t.writeGates r (gateOwned p)).takeTable p r
  let t := { t with ep := { t.ep with
    releasing := t.ep.releasing ++ (a.filter fun r => !b.contains r).map fun r => (r, p) } }
  if mapEnable (old.mapOf p) && !mapEnable (new.mapOf p) then
    t.updPart p fun x => { (x.cleared t.clk.ftime 0 256) with scales := [] }
  else t

/-- The landing area of a partition is taken again when its map or its LAND_MIB changes (09 R283): LAND_MIB of grains, in
one piece or, where that has no room, in several (assumption 48). -/
def State.takeLanding (s : State) (old : Settings) (p : Nat) : State :=
  let changed := mapGroups (old.mapOf p) != mapGroups (s.pmap p) ||
    mapEnable (old.mapOf p) != mapEnable (s.pmap p) ||
    fld (Tbl.getD old.slc p slcReset) 32 10 != fld (s.slcCfg p) 32 10
  if !changed then s
  else
    let t := s.freeAllocs fun a => match a.use with | .landing q => q == p | _ => false
    if mapEnable (t.pmap p) then t.placePieces p (.landing p) 22 (t.landGrains p) else t

/-- A bucket at the commit of a shaper (09 R300): filled or emptied when RATE or BURST changes. -/
def shaperBucket (old new : Word64) (b : Option (Int × Nat)) (now : Nat) : Option (Int × Nat) :=
  if fld old 0 40 = fld new 0 40 then b
  else some (if new.getLsbD 40 then 0 else bucketTop new, now)

/-- A shaper's bucket after the commit. -/
def State.applyShaper (s : State) (old : Settings) (t : Nat) (v : Word64) : State :=
  let o := Tbl.getD old.shapers t shaperReset
  let put (m : Tbl (Int × Nat)) (k : Nat) : Tbl (Int × Nat) :=
    match shaperBucket o v (Tbl.get? m k) s.clk.ftime with
    | some b => Tbl.set m k b
    | none => m
  if t < 4096 then { s with slc := { s.slc with buckets := put s.slc.buckets t } }
  else s.updPort ((t - 4096) / 16) fun x => { x with buckets := put x.buckets ((t - 4096) % 16) }

/-- Pairing after a commit of WT_TWIN_CFG (10 R314, R329): a node that begins to pair, or pairs with another twin, is
JOINING; one that no longer pairs is UNPAIRED, and delivers what waited for its twin. -/
def State.applyTwin (s : State) (old : Settings) : State :=
  let was := old.twinCfg.getLsbD 13
  let other := fld old.twinCfg 0 13 != s.twinNode
  if s.pairEn && (!was || other) then
    { s with twin := { s.twin with state := twJoining, joinAt := s.clk.ftime } }
  else if was && !s.pairEn then
    let ch := s.twin.changes
    let t := { s with twin := { s.twin with state := twUnpaired, changes := [] } }
    t.each ch fun t c => t.deliver c.reply
  else s

/-- A weir list waits for its take-over time (09 R304, R305); a removed list leaves at once every gate open. -/
def State.applyWeir (s : State) (weirAt : Tbl Nat) (p : Nat) : State :=
  s.updPort p fun x => { x with weirNext := some (Tbl.get? s.cfg.weirs p, Tbl.getD weirAt p s.clk.ftime) }

/-- The configuration image: two copies, written one after the other (R425). -/
def State.writeImage (s : State) : State :=
  let i : Image := { settings := s.cfg, epoch := s.ep.epoch, digestOk := true }
  { s with ep := { s.ep with images := [(0, i), (1, i)] } }

/-- A directory after a change (10 R346, R347). -/
def Dir.apply (d : Dir) (c : DirChange) : Dir :=
  let key (r : List Byte) : Word64 := BitVec.ofNat 64 (leAt r 0 8)
  let keys := c.records.map key
  if c.kind = 0 then { d with epoch := c.epoch, members := keys }
  else if c.kind = 1 then
    { d with
      epoch := c.epoch
      reserved := (d.reserved.filter fun r => !keys.contains r.1) ++
        c.records.map fun r => (key r, field (leAt r 8 2) 0 12) }
  else { d with epoch := c.epoch, reserved := d.reserved.filter fun r => !keys.contains r.1 }

/-- The changes of a commit take effect (R436), and the image is written (R425). -/
def State.applyItems (s : State) (l : List Staged) (weirAt : Tbl Nat) : State :=
  let old := s.cfg
  let new := old.withItems l
  let new := { new with windows := raisedWindows old.windows new.windows s.clk.ftime }
  let t := { s with cfg := new }
  let t := t.each (List.range 16) fun t p => (t.applyMap old new p).takeLanding old p
  let t := t.each l fun t x => match x with
    | .shaper k v => t.applyShaper old k v
    | .route dst _ =>
      if Tbl.getD old.routes dst 0#24 = Tbl.getD new.routes dst 0#24 then t
      else t.each [0, 1, 2, 3] fun t c => if (Tbl.get? t.wt.tx (4 * dst + c)).isSome then t.moveFlow dst c else t
    | .lib p _ => { t with ep := { t.ep with
        libWait := if t.ep.libWait.contains p then t.ep.libWait else t.ep.libWait ++ [p] } }
    | _ => t
  let t := t.each (weirPorts l) fun t p => t.applyWeir weirAt p
  let t := if old.period = new.period && old.origin = new.origin then t
    else t.each (t.parts.map Prod.fst) fun t p => t.updPart p fun x => { x with scales := [] }
  t.applyTwin old

/-- The reopened staging sets of committed changes hold the committed values: nothing staged (R431). -/
def State.reopen (s : State) (n : Nat) : State := s.setStageSet n { isSealed := false, items := [] }

/-- The items of a commit. -/
def State.pendItems (s : State) (w : PendWhat) : List Staged :=
  match w with
  | .set n => (s.stageSet n).items
  | .dir _ => []

/-- Do new settings take a key slot from its partition that is neither EMPTY nor RETIRED (11 R352)? -/
def State.takesKeys (s : State) (new : Settings) : Bool :=
  (List.range 16).any fun p =>
    let b := mapResources (new.mapOf p)
    (mapResources (s.pmap p)).any fun r => match r with
      | .keySlot _ => !b.contains r && !s.mayLose p r
      | _ => false

/-- Is a pending epoch refused at its time: a key was installed meanwhile in a slot that it takes away (11 R380)? -/
def State.commitRefused (s : State) (p : Pend) : Bool :=
  match p.what with
  | .set _ => s.takesKeys (s.cfg.withItems (s.pendItems p.what))
  | .dir _ => false

/-- A pending epoch is withdrawn: its set is OPEN, as if the commit had not been accepted (R438). -/
def State.withdraw (s : State) (p : Pend) : State :=
  let t := { s with ep := { s.ep with pend := none } }
  match p.what with
  | .set n => t.setStageSet n { t.stageSet n with isSealed := false }
  | .dir _ => t

/-- EPOCH_COMMIT_TIME: the pending epoch is in force (R436); one that 11 R352 has come to refuse is withdrawn (11 R380,
assumption 154). -/
def doEpochCommitTime (s : State) : State :=
  match s.ep.pend with
  | none => s
  | some p =>
    if !(s.awake && s.boot.stage == 5 && decide (p.time ≤ s.clk.ftime)) then s
    else if s.commitRefused p then s.withdraw p
    else
      let t := { s with ep := { s.ep with epoch := s.ep.epoch + 1, pend := none, draining := true } }
      let t := match p.what with
        | .set n => (t.applyItems (s.pendItems p.what) p.weirAt).reopen n
        | .dir c => { t with cfg := { t.cfg with dir := t.cfg.dir.apply c } }
      t.writeImage

/-- EPOCH_COMMIT_TIME. -/
def execEpochCommitTime (now : Nat) (s : State) : Host.Outcome State Fault Refusal :=
  run s fun t => doEpochCommitTime (t.upTo now)

/-- EPOCH_DRAIN_END: no request of an older epoch is left; released resources are scrubbed (R433, R436). -/
def doEpochDrainEnd (s : State) : State :=
  if s.awake && s.ep.draining && s.drainReqs == 0 then
    let t := s.each s.ep.releasing fun t r => t.writeGates r.1 gateScrub
    { t with
      ep := { t.ep with draining := false, releasing := [] }
      sec := { t.sec with scrubbing := t.sec.scrubbing ++ s.ep.releasing.map Prod.fst } }
  else s

/-- EPOCH_DRAIN_END. -/
def execEpochDrainEnd (now : Nat) (s : State) : Host.Outcome State Fault Refusal :=
  run s fun t => doEpochDrainEnd (t.upTo now)

/-! ### Commands on staging sets (14 R456, R457) -/

/-- CFG_COMMIT. -/
def opCfgCommit : AgtanOp := { agtanOp 0x0010 16 with early := true }

/-- The status of a commit at a time, in R432's order from the check of its settings on; before service opens, R437. -/
def State.commitStatus (s : State) (settings : Nat → Bool) (time : Nat) : Nat :=
  if s.boot.stage = 5 then
    checks
      [(time == 0 || settings time, stFormat), (time == 0 || decide (time ≤ s.clk.ftime + 60000000000), stFormat),
       (decide (s.clk.ftime + 100000 ≤ time), stPast), (s.liveEpochs < 2, stBusy)]
  else checks [(time == 0 && settings 0, stFormat)]

/-- The response body of an accepted commit: epoch, COMMIT_TIME, take-over times of P0 to P23 (R457). -/
def commitBody (epoch time : Nat) (at_ : Tbl Nat) : List Byte :=
  leBytes 8 epoch ++ leBytes 8 time ++ (List.range 24).flatMap fun p => leBytes 8 (Tbl.getD at_ p 0)

/-- The settings that a commit's changes come on top of: before service opens, those of the commits accepted earlier
(R437). -/
def State.commitBase (s : State) : Settings :=
  s.ep.early.foldl (fun c p => c.withItems (s.pendItems p.what)) s.cfg

/-- CFG_COMMIT (R432, R437). -/
def doCfgCommit (c : AgtanCmd) (s : State) : State :=
  s.agtan opCfgCommit c fun t =>
    let time := leAt c.body 0 8
    let base := leAt c.body 8 8
    let x := t.stageSet c.mb
    let serving := t.boot.stage == 5
    let st := checks
      [(!x.items.isEmpty && !x.isSealed && (base == 0 || base == t.ep.epoch), stFormat),
       (t.commitStatus (fun at_ => t.commitOkItems t.commitBase x.items (if serving then some at_ else none)) time == stOk,
        t.commitStatus (fun at_ => t.commitOkItems t.commitBase x.items (if serving then some at_ else none)) time)]
    if st != stOk then t.respond opCfgCommit.code c st []
    else
      let p : Pend := { what := .set c.mb, time := time, weirAt := takeOvers x.items time }
      let t := t.setStageSet c.mb { x with isSealed := true }
      let t := if serving then { t with ep := { t.ep with pend := some p } }
        else { t with ep := { t.ep with early := t.ep.early ++ [p] } }
      t.respond opCfgCommit.code c stOk (commitBody (t.ep.epoch + 1) time p.weirAt)
/-- CFG_COMMIT. -/
def execCfgCommit (c : AgtanCmd) (s : State) : Host.Outcome State Fault Refusal := run s (doCfgCommit c)

/-- Is a pending epoch that of a mailbox's set? -/
def Pend.ofSet (p : Pend) (n : Nat) : Bool := match p.what with | .set m => m == n | .dir _ => false

/-- CFG_ABORT. -/
def opCfgAbort : AgtanOp := { agtanOp 0x0011 0 with early := true }
/-- CFG_ABORT: withdraw the pending epoch of the mailbox's own set, before service opens too (R438, assumption 153). -/
def doCfgAbort (c : AgtanCmd) (s : State) : State :=
  s.agtan opCfgAbort c fun t =>
    let x := t.stageSet c.mb
    let pend := match t.ep.pend with
      | some p => p.ofSet c.mb && decide (t.clk.ftime + 10000 ≤ p.time)
      | none => false
    if pend then
      (({ t with ep := { t.ep with pend := none } }).setStageSet c.mb { x with isSealed := false }).respond
        opCfgAbort.code c stOk []
    else if t.ep.early.any fun p => p.ofSet c.mb then
      (({ t with ep := { t.ep with early := t.ep.early.filter fun p => !p.ofSet c.mb } }).setStageSet c.mb
        { x with isSealed := false }).respond opCfgAbort.code c stOk []
    else t.respond opCfgAbort.code c stFormat []
/-- CFG_ABORT. -/
def execCfgAbort (c : AgtanCmd) (s : State) : Host.Outcome State Fault Refusal := run s (doCfgAbort c)

/-- CFG_DISCARD. -/
def opCfgDiscard : AgtanOp := agtanOp 0x0013 0
/-- CFG_DISCARD: empty the changes of an OPEN set (14 R456). -/
def doCfgDiscard (c : AgtanCmd) (s : State) : State :=
  s.agtan opCfgDiscard c fun t =>
    let x := t.stageSet c.mb
    if x.isSealed then t.respond opCfgDiscard.code c stFormat []
    else (t.setStageSet c.mb { x with items := [] }).respond opCfgDiscard.code c stOk []
/-- CFG_DISCARD. -/
def execCfgDiscard (c : AgtanCmd) (s : State) : Host.Outcome State Fault Refusal := run s (doCfgDiscard c)

/-- What a staged change replaces in its set: the same setting. -/
def Staged.sameAs : Staged → Staged → Bool
  | .map p _, .map q _ => p == q
  | .pcfg p _ _ _ _, .pcfg q _ _ _ _ => p == q
  | .lock _, .lock _ => true
  | .admitW p _, .admitW q _ => p == q
  | .nodeCfg _ _, .nodeCfg _ _ => true
  | .twinCfg _, .twinCfg _ => true
  | .route d _, .route e _ => d == e
  | .window a _, .window b _ => a == b
  | .srcHalf a h _, .srcHalf b k _ => a == b && h == k
  | .weir p f _ _, .weir q g _ _ => p == q && f == g
  | .shaper a _, .shaper b _ => a == b
  | .portW p _, .portW q _ => p == q
  | .period _, .period _ => true
  | .origin _, .origin _ => true
  | .fepoch _, .fepoch _ => true
  | .lib p _, .lib q _ => p == q
  | _, _ => false

/-- A set's changes with further ones, which take the place of those of the same object. -/
def StageSet.withItems (x : StageSet) (l : List Staged) : List Staged :=
  (x.items.filter fun a => !l.any fun b => a.sameAs b) ++ l

/-- Put changes into a staging set: false when it is SEALED, and the write is counted (R431, 00 R6). -/
def State.stageItems (s : State) (n : Nat) (l : List Staged) : Bool × State :=
  let x := s.stageSet n
  if x.isSealed then (false, s.count cLockViol 1)
  else (true, s.setStageSet n { x with items := x.withItems l })

/-- A staging command: FORMAT when its own check fails, EPOCH_BUSY when the set is SEALED, else staged (R431). -/
def State.stageCmd (s : State) (o : AgtanOp) (c : AgtanCmd) (ok : State → Bool) (l : List Staged) : State :=
  s.agtan o c fun t =>
    if !ok t then t.respond o.code c stFormat []
    else
      let (done, u) := t.stageItems c.mb l
      u.respond o.code c (if done then stOk else stBusy) []

/-! ### Directory commits (R435, 10 R346) -/

/-- A DIR_UPDATE payload in order: header, RsvdZ, NREC, records (10 R344, R346, R347). -/
def dirUpdateOk (p : List Byte) : Bool :=
  let v := leAt p 0 32
  let kind := field v 32 8
  let n := field v 128 17
  let size := if kind = 0 then 8 else 16
  decide (32 ≤ p.length ∧ kind ≤ 2 ∧ 1 ≤ n ∧ n ≤ (if kind = 0 then 4096 else 65536)) && fieldZero v 40 24 &&
    fieldZero v 145 111 && p.length == 32 + size * n &&
    (pieces size (p.drop 32)).all fun r =>
      let x := leNat r
      if kind = 0 then decide (field x 12 2 ≤ 1) && fieldZero x 14 2 && fieldZero x 29 3 && fieldZero x 45 19
      else fieldZero x 76 52

/-- A DIR_UPDATE message: a stale one is counted and ignored; it is refused, or becomes the pending epoch. -/
def State.takeDirUpdate (s : State) (p : List Byte) : State × Nat :=
  let v := leAt p 0 32
  let ep := field v 0 32
  if !dirUpdateOk p then (s, stFormat)
  else if ep ≤ s.cfg.dir.epoch then (s.count cDirStale 1, stOk)
  else
    let time := field v 64 64
    let st := s.commitStatus (fun _ => true) time
    if st != stOk then (s, st)
    else
      let c : DirChange := { epoch := ep, kind := field v 32 8,
                             records := pieces (if field v 32 8 = 0 then 8 else 16) (p.drop 32) }
      ({ s with ep := { s.ep with pend := some { what := .dir c, time := time, weirAt := [] } } }, stOk)

end Sys2Proof.Machine
end

