-- ==== Sys2Proof/Machine/Staging.lean ====
section
/-! DEFINITION. The staging commands (14 R456, R458, R461, R462), the partition status, window revocation (08 R274,
R275), and the commands on queue contexts (09 R281). -/

namespace Sys2Proof.Machine

/-- The settings as a mailbox's staging set would leave them, on top of the commits accepted before service. -/
def State.stagedView (s : State) (mb : Nat) : Settings := s.commitBase.withItems (s.stageSet mb).items

/-! ### Partitions -/

/-- PART_MAP_STAGE. -/
def opPartMapStage : AgtanOp := { ownerOp 0x0020 128 with part0 := fun _ => true, exempt := true, early := true }
/-- PART_MAP_STAGE: one map entry; what R352 says of the whole map is checked at the commit. -/
def doPartMapStage (c : AgtanCmd) (s : State) : State :=
  let m := BitVec.ofNat 1024 (leNat c.body)
  s.stageCmd opPartMapStage c (fun _ => mapRsvdOk m && mapEntryOk m) [.map (cmdPart c) m]
/-- PART_MAP_STAGE. -/
def execPartMapStage (c : AgtanCmd) (s : State) : Host.Outcome State Fault Refusal := run s (doPartMapStage c)

/-- TIER_PCFG in its ranges (07 R203). -/
def tierOk (v : Nat) : Bool :=
  fieldZero v 3 5 && fieldZero v 36 28 && field v 8 8 != 0 && field v 16 16 != 0 &&
    decide (1 ≤ field v 32 4 ∧ field v 32 4 ≤ 8)
/-- SLC_PCFG in its ranges, its queue groups of the partition's slices (09 R284). -/
def slcOk (v : Nat) (m : BitVec 1024) : Bool :=
  fieldZero v 28 4 && fieldZero v 42 6 && fieldZero v 56 8 && decide (1 ≤ field v 0 8 ∧ field v 0 8 ≤ 192) &&
    decide (1 ≤ field v 32 10) && decide (1 ≤ field v 48 8 ∧ field v 48 8 ≤ 64) &&
    (List.range (field v 20 8 + 1)).all fun i => (mapSlices m).contains ((field v 8 12 + i) / 256)

/-- PART_CFG_STAGE. -/
def opPartCfgStage : AgtanOp :=
  { ownerOp 0x0021 24 with part0 := fun _ => true, exempt := true, early := true, rsvdOk := zeroBits 152 191 }
/-- PART_CFG_STAGE (07 R203, 09 R284, 04 R146, 05 R176). -/
def doPartCfgStage (c : AgtanCmd) (s : State) : State :=
  let tier := leAt c.body 0 8
  let slc := leAt c.body 8 8
  let prov := leAt c.body 16 2
  let owin := leAt c.body 18 1
  let p := cmdPart c
  s.stageCmd opPartCfgStage c
    (fun t => tierOk tier && slcOk slc ((t.stagedView c.mb).mapOf p) && decide (1 ≤ prov ∧ prov ≤ 4096) &&
      decide (1 ≤ owin ∧ owin ≤ 16))
    [.pcfg p (BitVec.ofNat 64 tier) (BitVec.ofNat 64 slc) prov owin]
/-- PART_CFG_STAGE. -/
def execPartCfgStage (c : AgtanCmd) (s : State) : Host.Outcome State Fault Refusal := run s (doPartCfgStage c)

/-- PART_STATUS. -/
def opPartStatus : AgtanOp := { agtanOp 0x0022 0 with mctp := true, exempt := true }
/-- A resource's byte in PART_STATUS: owner in [3:0], and in [5:4] 0 FREE, 1 SCRUBBING, 2 assigned (assumption 20). A
resource being released is still assigned. -/
def State.resourceByte (s : State) (r : Resource) : Byte :=
  if s.sec.scrubbing.contains r then 0x10#8
  else match (List.range 16).find? fun p => (mapResources (s.pmap p)).contains r with
    | some p => BitVec.ofNat 8 (p + 0x20)
    | none => match s.ep.releasing.find? fun x => x.1 == r with
      | some x => BitVec.ofNat 8 (x.2 + 0x20)
      | none => 0x00#8
/-- PART_STATUS: groups, slices, clusters, window blocks, session blocks, key slots, a byte each. -/
def doPartStatus (c : AgtanCmd) (s : State) : State :=
  s.agtan opPartStatus c fun t =>
    let l := (List.range 16).map Resource.channelGroup ++ (List.range 16).map .slice ++ (List.range 16).map .cluster ++
      (List.range 16).map .windowBlock ++ (List.range 256).map .sessionBlock ++ (List.range 1024).map .keySlot
    t.respond opPartStatus.code c stOk (l.map t.resourceByte)
/-- PART_STATUS. -/
def execPartStatus (c : AgtanCmd) (s : State) : Host.Outcome State Fault Refusal := run s (doPartStatus c)

/-- LOCK_STAGE. -/
def opLockStage : AgtanOp := { ownerOp 0x0023 8 with early := true, rsvdOk := zeroBits 2 63 }
/-- LOCK_STAGE (11 R360). -/
def doLockStage (c : AgtanCmd) (s : State) : State :=
  s.stageCmd opLockStage c (fun _ => true) [.lock (BitVec.ofNat 64 (leNat c.body))]
/-- LOCK_STAGE. -/
def execLockStage (c : AgtanCmd) (s : State) : Host.Outcome State Fault Refusal := run s (doLockStage c)

/-- A weights word without a weight of 0 (09 R297). -/
def weightsOk (v : Nat) : Bool := (List.range 8).all fun k => field v (8 * k) 8 != 0

/-- ADMIT_WEIGHTS_STAGE. -/
def opAdmitWeightsStage : AgtanOp := { tenantOp 0x0024 8 with early := true }
/-- ADMIT_WEIGHTS_STAGE (09 R297). -/
def doAdmitWeightsStage (c : AgtanCmd) (s : State) : State :=
  s.stageCmd opAdmitWeightsStage c (fun _ => weightsOk (leNat c.body))
    [.admitW (cmdPart c) (BitVec.ofNat 64 (leNat c.body))]
/-- ADMIT_WEIGHTS_STAGE. -/
def execAdmitWeightsStage (c : AgtanCmd) (s : State) : Host.Outcome State Fault Refusal :=
  run s (doAdmitWeightsStage c)

/-! ### Node, twin, routes -/

/-- NODE_CFG_STAGE. -/
def opNodeCfgStage : AgtanOp :=
  { ownerOp 0x0030 16 with early := true, rsvdOk := fun b => zeroBits 14 15 b && zeroBits 56 63 b }
/-- The PCPs of the four classes differ (08 R237). -/
def pcpsOk (v : Nat) : Bool :=
  let l := (List.range 4).map fun c => field v (32 + 3 * c) 3
  l.eraseDups.length == 4
/-- NODE_CFG_STAGE (08 R237). -/
def doNodeCfgStage (c : AgtanCmd) (s : State) : State :=
  s.stageCmd opNodeCfgStage c (fun _ => pcpsOk (leAt c.body 0 8))
    [.nodeCfg (BitVec.ofNat 64 (leAt c.body 0 8)) (BitVec.ofNat 64 (leAt c.body 8 8))]
/-- NODE_CFG_STAGE. -/
def execNodeCfgStage (c : AgtanCmd) (s : State) : Host.Outcome State Fault Refusal := run s (doNodeCfgStage c)

/-- TWIN_CFG_STAGE. -/
def opTwinCfgStage : AgtanOp :=
  { ownerOp 0x0031 8 with
    early := true, rsvdOk := fun b => zeroBits 14 15 b && zeroBits 28 31 b && zeroBits 56 63 b }
/-- TWIN_CFG_STAGE (10 R314). -/
def doTwinCfgStage (c : AgtanCmd) (s : State) : State :=
  let v := BitVec.ofNat 64 (leNat c.body)
  s.stageCmd opTwinCfgStage c (fun t => twinCfgOk v (fld (t.stagedView c.mb).nodeCfg 0 13)) [.twinCfg v]
/-- TWIN_CFG_STAGE. -/
def execTwinCfgStage (c : AgtanCmd) (s : State) : Host.Outcome State Fault Refusal := run s (doTwinCfgStage c)

/-- ROUTE_STAGE. -/
def opRouteStage : AgtanOp :=
  { ownerOp 0x0032 8 with
    early := true, len := fun n => n % 8 == 0 && n != 0
    rsvdOk := fun b => (pieces 8 b).all fun r => zeroBits 13 15 r && zeroBits 40 63 r }
/-- ROUTE_STAGE: route masks of the destinations named (R461). -/
def doRouteStage (c : AgtanCmd) (s : State) : State :=
  s.stageCmd opRouteStage c (fun _ => true)
    ((pieces 8 c.body).map fun r => .route (field (leNat r) 0 13) (BitVec.ofNat 24 (field (leNat r) 16 24)))
/-- ROUTE_STAGE. -/
def execRouteStage (c : AgtanCmd) (s : State) : Host.Outcome State Fault Refusal := run s (doRouteStage c)

/-! ### Windows and source sets -/

/-- WINDOW_STAGE. -/
def opWindowStage : AgtanOp :=
  { agtanOp 0x0040 40 with
    part0 := fun _ => true, early := true, mutual_ := true
    rsvdOk := fun b =>
      let e := b.drop 8
      zeroBits 20 63 (b.take 8) && zeroBits 30 31 e && zeroBits 62 79 e && zeroBits 116 255 e }
/-- Does a range of grains lie in a partition's channel groups? -/
def inGroups (m : BitVec 1024) (first len : Nat) : Bool :=
  decide (first + len ≤ grainCount) && decide (0 < len) &&
    (List.range (grainGroup (first + len - 1) + 1 - grainGroup first)).all fun i =>
      (mapGroups m).contains (grainGroup first + i)
/-- Does a range meet a FABRIC ring or a landing area (08 R270)? -/
def State.meetsRing (s : State) (first len : Nat) : Bool :=
  s.allocs.any fun a => decide (a.first < first + len ∧ first < a.first + a.len) &&
    (match a.use with | .ring _ | .landing _ => true | _ => false)
/-- The checks of a staged window of partition p (08 R270). -/
def State.windowOk (s : State) (view : Settings) (p w : Nat) (v : BitVec 256) : Bool :=
  let m := view.mapOf p
  decide (w < 65536) && (mapWblocks m).contains (w / 4096) && winPart v == p && inGroups m (winBase v) (winLen v) &&
    (mapSlices m).contains (winCq v / 65536) && winSrcset v / 16 == p && !s.meetsRing (winBase v) (winLen v)
/-- WINDOW_STAGE (R458). -/
def doWindowStage (c : AgtanCmd) (s : State) : State :=
  let w := leAt c.body 0 4
  let v := BitVec.ofNat 256 (leNat (c.body.drop 8))
  s.stageCmd opWindowStage c (fun t => t.windowOk (t.stagedView c.mb) (cmdPart c) w v) [.window w v]
/-- WINDOW_STAGE. -/
def execWindowStage (c : AgtanCmd) (s : State) : Host.Outcome State Fault Refusal := run s (doWindowStage c)

/-- SRCSET_STAGE. -/
def opSrcsetStage : AgtanOp :=
  { agtanOp 0x0043 520 with
    part0 := fun _ => true, early := true, mutual_ := true, rsvdOk := fun b => zeroBits 9 63 (b.take 8) }
/-- SRCSET_STAGE: one half of a source set of the partition (R461, 08 R271). -/
def doSrcsetStage (c : AgtanCmd) (s : State) : State :=
  let n := leAt c.body 0 1
  s.stageCmd opSrcsetStage c (fun _ => n / 16 == cmdPart c)
    [.srcHalf n (leAt c.body 1 1) (BitVec.ofNat 4096 (leNat (c.body.drop 8)))]
/-- SRCSET_STAGE. -/
def execSrcsetStage (c : AgtanCmd) (s : State) : Host.Outcome State Fault Refusal := run s (doSrcsetStage c)

/-- Is a request of a window still running that was admitted before its n-th revocation (08 R275)? -/
def State.windowBusy (s : State) (w n : Nat) : Bool :=
  s.slc.reqs.any fun x => !x.2.complete && decide (x.2.revAt < n) && (match x.2.msg.origin with
    | .fabric _ _ v _ _ _ | .hedge _ _ v _ _ _ _ => v.toNat == w
    | _ => false)

/-- WINDOW_REVOKE. -/
def opWindowRevoke : AgtanOp := { agtanOp 0x0042 8 with part0 := fun _ => true, rsvdOk := zeroBits 21 63 }
/-- A window after a revocation: GEN raised, STAMP set, closed on demand (08 R274). -/
def revokedWindow (v : BitVec 256) (close : Bool) (now : Nat) : BitVec 256 :=
  let w := winRaise v now
  if close then setField w 87 1 0 else w
/-- WINDOW_REVOKE: GEN is raised on receipt; the command is parked until the older accesses have completed (R274,
R275). -/
def doWindowRevoke (c : AgtanCmd) (s : State) : State :=
  s.agtan opWindowRevoke c fun t =>
    let w := field (leNat c.body) 0 20
    let close := bit (leNat c.body) 20
    if !t.ownWindow c w then t.respond opWindowRevoke.code c stFormat []
    else
      let n := Tbl.getD t.slc.revokes w 0 + 1
      let t := { t with
        cfg := { t.cfg with windows := Tbl.set t.cfg.windows w (revokedWindow (t.window w) close t.clk.ftime) }
        slc := { t.slc with revokes := Tbl.set t.slc.revokes w n, revWait := t.slc.revWait ++ [(c, n)] } }
      let t := if close then t.writeImage else t
      t.park opWindowRevoke c
/-- WINDOW_REVOKE. -/
def execWindowRevoke (c : AgtanCmd) (s : State) : Host.Outcome State Fault Refusal := run s (doWindowRevoke c)

/-- The revocations of a window that no access admitted before them holds any more. -/
def State.drained (s : State) (w : Nat) : List (AgtanCmd × Nat) :=
  s.slc.revWait.filter fun x => field (leNat x.1.body) 0 20 == w && !s.windowBusy w x.2

/-- WINDOW_REVOKE_DRAINED: no access admitted before a revocation is left; each parked revoke of the window so drained
answers with GEN and STAMP (R275, R458). -/
def doWindowRevokeDrained (w : Nat) (s : State) : State :=
  if !s.serving then s
  else
    let l := s.drained w
    let t := { s with slc := { s.slc with revWait := s.slc.revWait.filter fun x => !l.contains x } }
    t.unpark (fun op c => op == opWindowRevoke.code && l.any fun x => decide (x.1 = c)) stOk fun t _ =>
      leBytes 8 (winGen (t.window w)).toNat ++ leBytes 8 (winStamp (t.window w))
/-- WINDOW_REVOKE_DRAINED. -/
def execWindowRevokeDrained (window now : Nat) (s : State) : Host.Outcome State Fault Refusal :=
  run s fun t => doWindowRevokeDrained window (t.upTo now)

/-! ### Weir lists, shapers, weights -/

/-- WEIR_STAGE. -/
def opWeirStage : AgtanOp :=
  { ownerOp 0x0050 24 with
    early := true, len := fun n => decide (24 ≤ n) && n % 8 == 0, rsvdOk := fun b => zeroBits 24 63 (b.take 8) }
/-- The header of a part. -/
def weirPartHdr (b : List Byte) : BitVec 128 := BitVec.ofNat 128 (leAt b 8 16)
/-- The entries of a part. -/
def weirPartEntries (b : List Byte) : List Word64 := (pieces 8 (b.drop 24)).map fun e => BitVec.ofNat 64 (leNat e)
/-- A part in its ranges (09 R301, R461). -/
def weirPartOk (b : List Byte) : Bool :=
  let h := weirPartHdr b
  let n := leAt b 2 1
  let es := weirPartEntries b
  decide (leAt b 0 1 < 24 ∧ n ≤ 123) && es.length == n && fld h 94 2 == 0 && fld h 105 23 == 0 &&
    decide (weirNent h ≤ 256) && (n == 0) == (weirNent h == 0) && decide (leAt b 1 1 + n ≤ max 1 (weirNent h)) &&
    (weirNent h == 0 || decide (1000 ≤ weirCycle h ∧ weirCycle h ≤ 1000000000)) &&
    es.all fun e => decide (100 ≤ entNs e) && fld e 12 20 == 0
/-- The change that a part stages. -/
def weirItem (b : List Byte) : Staged := .weir (leAt b 0 1) (leAt b 1 1) (weirPartHdr b) (weirPartEntries b)
/-- With a part added, is the port's list in the staging set in order, or not yet whole (R302)? -/
def StageSet.weirFits (x : StageSet) (b : List Byte) : Bool :=
  match weirOf (weirParts (x.withItems [weirItem b]) (leAt b 0 1)) with
  | some w => weirOk w
  | none => true
/-- WEIR_STAGE: a part of a port's list; the part that makes the list whole is refused with it where it breaks R302, and a
list that is not whole at the commit is refused there (R461). -/
def doWeirStage (c : AgtanCmd) (s : State) : State :=
  s.stageCmd opWeirStage c (fun t => weirPartOk c.body && (t.stageSet c.mb).weirFits c.body) [weirItem c.body]
/-- WEIR_STAGE. -/
def execWeirStage (c : AgtanCmd) (s : State) : Host.Outcome State Fault Refusal := run s (doWeirStage c)

/-- SHAPER_STAGE. -/
def opShaperStage : AgtanOp :=
  { ownerOp 0x0051 16 with early := true, rsvdOk := fun b => zeroBits 32 63 b && zeroBits 105 127 b }
/-- The table index of a target: a queue group, or 0x1_0000 + 12 × port + class (R456). -/
def shaperIndex (t : Nat) : Option Nat :=
  if t < 4096 then some (groupTarget t)
  else if 0x10000 ≤ t && t < 0x10000 + 288 then some (portTarget ((t - 0x10000) / 12) ((t - 0x10000) % 12))
  else none
/-- SHAPER_STAGE (09 R298). -/
def doShaperStage (c : AgtanCmd) (s : State) : State :=
  let v := leAt c.body 8 8
  s.stageCmd opShaperStage c (fun _ => (shaperIndex (leAt c.body 0 4)).isSome && field v 24 16 != 0)
    (match shaperIndex (leAt c.body 0 4) with | some k => [.shaper k (BitVec.ofNat 64 v)] | none => [])
/-- SHAPER_STAGE. -/
def execShaperStage (c : AgtanCmd) (s : State) : Host.Outcome State Fault Refusal := run s (doShaperStage c)

/-- PORT_WEIGHTS_STAGE. -/
def opPortWeightsStage : AgtanOp := { ownerOp 0x0052 16 with early := true }
/-- PORT_WEIGHTS_STAGE (09 R297). -/
def doPortWeightsStage (c : AgtanCmd) (s : State) : State :=
  s.stageCmd opPortWeightsStage c (fun _ => decide (leAt c.body 0 8 < 24) && weightsOk (leAt c.body 8 8))
    [.portW (leAt c.body 0 8) (BitVec.ofNat 64 (leAt c.body 8 8))]
/-- PORT_WEIGHTS_STAGE. -/
def execPortWeightsStage (c : AgtanCmd) (s : State) : Host.Outcome State Fault Refusal :=
  run s (doPortWeightsStage c)

/-! ### The partition library (R462) -/

/-- PROG_STAGE. -/
def opProgStage : AgtanOp :=
  { tenantOp 0x00A0 56 with early := true, rsvdOk := fun b => zeroBits 30 63 (b.take 8) }
/-- The first grain of a range that fails its checks. -/
def State.firstBad (s : State) (first n : Nat) : Option (Nat × Nat × Word64) :=
  (List.range n).findSome? fun i => (s.grainFault eccNone (first + i)).map fun c => (c.1, first + i, c.2)
/-- PROG_STAGE: a verified image whose digest agrees is staged (R462, 11 R366). A SEALED set answers EPOCH_BUSY before a
grain that fails its checks answers TAG_MISMATCH (00 R14). -/
def doProgStage (c : AgtanCmd) (s : State) : State :=
  s.agtan opProgStage c fun t =>
    let g := leAt c.body 0 4
    let p := cmdPart c
    if !inGroups (t.pmap p) g 9 then t.respond opProgStage.code c stFormat []
    else match t.firstBad g 9 with
      | some e =>
        let u := t.failCheck e
        if (u.stageSet c.mb).isSealed then (u.count cLockViol 1).respond opProgStage.code c stBusy []
        else u.respond opProgStage.code c stTag []
      | none =>
        let img := (t.readBytes (512 * g) 4608).take 4288
        let rest := (t.readBytes (512 * g) 4608).drop 4288
        let d := sha384 img
        if digestBytes d == c.body.drop 8 && rest.all (· == 0#8) then
          let l : Lib := { words := (pieces 4 img).map fun w => BitVec.ofNat 32 (leNat w), digest := d }
          let (done, u) := t.stageItems c.mb [.lib p l]
          u.respond opProgStage.code c (if done then stOk else stBusy) []
        else t.respond opProgStage.code c stFormat []
/-- PROG_STAGE. -/
def execProgStage (c : AgtanCmd) (s : State) : Host.Outcome State Fault Refusal := run s (doProgStage c)

/-! ### Queue contexts (09 R281) -/

/-- QUEUE_SET. -/
def opQueueSet : AgtanOp :=
  { agtanOp 0x0060 40 with wt := false, part0 := fun _ => true, rsvdOk := fun b => zeroBits 20 63 (b.take 8) }
/-- The grains of a FABRIC ring. -/
def ringGrains (v : BitVec 256) : Nat := cdiv (2 ^ qLog2 v * 64) 512
/-- A context in order by itself: RsvdZ fields zero, the fields in their ranges; its read-only fields are not looked at
(R281, 00 R6). -/
def contextOk (v : BitVec 256) : Bool :=
  fld v 2 2 == 0 && fld v 12 4 == 0 && fld v 29 3 == 0 && fld v 176 80 == 0 && qType v != 0 &&
    decide (4 ≤ qLog2 v) &&
    (if qType v = 3 then qClass v == 0 else decide (3 ≤ qClass v ∧ qClass v ≤ 11)) &&
    (if qType v = 1 then fld v 62 34 == 0 else qRing v % 64 == 0)
/-- Do a range's grains lie in an open window? -/
def State.inWindow (s : State) (first len : Nat) : Bool :=
  s.cfg.windows.any fun w => winValid w.2 && decide (winBase w.2 < first + len ∧ first < winBase w.2 + winLen w.2)
/-- Are any of a range's grains allocated? -/
def State.allocated (s : State) (first len : Nat) : Bool :=
  s.allocs.any fun a => decide (a.first < first + len ∧ first < a.first + a.len)
/-- The context a queue takes: PROD, CONS, ADMITTED and OVERFLOW are read-only and stay (R281). -/
def Queue.setCtx (q : Queue) (v : BitVec 256) : Queue :=
  { q with ctx := setField v 96 80 (fld q.ctx 96 80), stopping := false }
/-- QUEUE_SET: write a context while the queue's TYPE is 0; a FABRIC ring's grains leave allocation (R281). -/
def doQueueSet (c : AgtanCmd) (s : State) : State :=
  s.agtan opQueueSet c fun t =>
    let q := leAt c.body 0 4
    let v := BitVec.ofNat 256 (leNat (c.body.drop 8))
    let first := qRing v
    let n := ringGrains v
    let fabric := qType v == 1
    let st := checks
      [(t.ownQueue c q && qType (t.queue q).ctx == 0 && contextOk v, stFormat),
       (!fabric || (inGroups (t.pmap (cmdPart c)) first n && !t.inWindow first n), stFormat),
       (!fabric || !t.allocated first n, stNoRes)]
    if st != stOk then t.respond opQueueSet.code c st []
    else
      let t := t.updQueue q fun x => x.setCtx v
      let t := if fabric then t.addAlloc { first := first, len := n, use := .ring q } else t
      t.respond opQueueSet.code c stOk []
/-- QUEUE_SET. -/
def execQueueSet (c : AgtanCmd) (s : State) : Host.Outcome State Fault Refusal := run s (doQueueSet c)

/-- QUEUE_STOP. -/
def opQueueStop : AgtanOp :=
  { agtanOp 0x0061 8 with wt := false, part0 := fun _ => true, rsvdOk := zeroBits 20 63 }
/-- QUEUE_STOP: the queue lands and reads nothing new; the command is parked until it has drained. -/
def doQueueStop (c : AgtanCmd) (s : State) : State :=
  s.agtan opQueueStop c fun t =>
    let q := leNat c.body
    if t.ownQueue c q then (t.updQueue q fun x => { x with stopping := true }).park opQueueStop c
    else t.respond opQueueStop.code c stFormat []
/-- QUEUE_STOP. -/
def execQueueStop (c : AgtanCmd) (s : State) : Host.Outcome State Fault Refusal := run s (doQueueStop c)

/-- QUEUE_STOPPED: no landed message, ADMITTED 0 and every ring entry released: TYPE becomes 0, the ring's grains return
to allocation, and the parked commands complete (R281). -/
def doQueueStopped (q : Nat) (s : State) : State :=
  let x := s.queue q
  if s.serving && x.stopping && x.landed.isEmpty && qAdmitted x.ctx == 0 && x.ring.isEmpty then
    let t := (s.setQueue q { x with ctx := setField x.ctx 0 2 0, stopping := false }).freeAllocs fun a =>
      match a.use with | .ring r => r == q | _ => false
    t.unpark (fun op c => op == opQueueStop.code && leNat c.body == q) stOk fun _ _ => []
  else s
/-- QUEUE_STOPPED. -/
def execQueueStopped (queue : Nat) (s : State) : Host.Outcome State Fault Refusal := run s (doQueueStopped queue)

end Sys2Proof.Machine
end

