-- ==== Sys2Proof/Machine/Sessions.lean ====
section
/-! DEFINITION. The session directory (10 R343 to R348), and the session and resident-set commands (02 R58 to R60, R75,
R78 to R81; 14 R456, R459, R460, R462). -/

namespace Sys2Proof.Machine

/-! ### Placement (10 R343, R344) -/

/-- mix64 (R343). -/
def mix64 (x : Nat) : Nat :=
  let x := Nat.xor x (x >>> 31)
  let x := x * 0x7FB5D329728EA185 % 2 ^ 64
  let x := Nat.xor x (x >>> 27)
  let x := x * 0x81DADEF4BC2DD44D % 2 ^ 64
  Nat.xor x (x >>> 33)

/-- PAIR_ID of a membership record. -/
def memPair (m : Word64) : Nat := fld m 0 12
/-- STATE. -/
def memState (m : Word64) : Nat := fld m 12 2
/-- NODE_LO. -/
def memLo (m : Word64) : Nat := fld m 16 13
/-- NODE_HI. -/
def memHi (m : Word64) : Nat := fld m 32 13

/-- The weight of a pair for a key. -/
def placeWeight (k : Word64) (pair : Nat) : Nat := mix64 (Nat.xor k.toNat (pair * 0x9E3779B97F4A7C15 % 2 ^ 64))

/-- The better of two pairs for a key: the greater weight, the lower number on a tie. -/
def betterPair (k : Word64) (a b : Nat) : Nat :=
  if placeWeight k a < placeWeight k b || (placeWeight k a == placeWeight k b && decide (b < a)) then b else a

/-- The pair that the directory places a key on: none when no pair is active (R343). -/
def Dir.place (d : Dir) (k : Word64) : Option Nat :=
  match d.reserved.find? fun r => r.1 == k with
  | some r => some r.2
  | none =>
    match (d.members.filter fun m => memState m == 0).map memPair with
    | [] => none
    | p :: t => some (t.foldl (betterPair k) p)

/-- The membership record of a pair. -/
def Dir.pair? (d : Dir) (p : Nat) : Option Word64 := d.members.find? fun m => memPair m == p

/-- Is a node a member of some pair of the directory, or the twin? -/
def State.isPeerNode (s : State) (n : Nat) : Bool :=
  n == s.twinNode || s.cfg.dir.members.any fun m => memLo m == n || memHi m == n

/-- A DIR_QUERY in order: up to 64 keys in a query, its RsvdZ bits zero (R348). -/
def dirQueryOk (imm : BitVec 32) (p : List Byte) : Bool :=
  fld imm 1 7 == 0 && (imm.getLsbD 0 || (p.length % 8 == 0 && decide (p.length ≤ 512)))

/-- One key's 16 bytes of a reply: PAIR_ID, NODE_LO, NODE_HI, the reserved flag, the states of this node and of its twin
as last known, 2 bytes each but the states' one (assumption 22). -/
def State.dirAnswer (s : State) (k : Word64) : List Byte :=
  let p := s.cfg.dir.place k
  let m := (p.bind s.cfg.dir.pair?).getD 0#64
  leBytes 2 (p.getD 0) ++ leBytes 2 (memLo m) ++ leBytes 2 (memHi m) ++
    leBytes 2 (b2n (s.cfg.dir.reserved.any fun r => r.1 == k)) ++ leBytes 1 s.twin.state ++
    leBytes 1 (if s.twin.state = twPaired then twPaired else twUnpaired) ++ leBytes 6 0

/-- A DIR_QUERY message: a query is answered on class 0 under slot 0; a reply has no further effect (R348). -/
def State.takeDirQuery (s : State) (h : Hdr) (p : List Byte) : State :=
  if h.imm.getLsbD 0 then s
  else
    s.sendMsg
      { dst := h.src, rclass := 0#2, pclass := 0, opcode := opDirQuery, fwd := false, keySlot := 0#10, window := 0#20,
        gen := 0#16, offset := 0, imm := h.imm ||| 1#32 }
      (leBytes 8 s.cfg.dir.epoch ++ (pieces 8 p).flatMap fun k => s.dirAnswer (BitVec.ofNat 64 (leNat k))) fun _ => .none

/-! ### The writer (10 R325 to R327) -/

/-- Was a mailbox command forwarded to this node? -/
def cmdForwarded (c : AgtanCmd) : Bool := match c.path with | .fwd .. => true | _ => false

/-- Run a session or resident-set command at its writer: a node that serves no requests refuses it, one without the
partition's mirror key when `keyed` (11 R371), and one that is not the writer forwards it once (R326). -/
def State.asWriter (s : State) (o : AgtanOp) (c : AgtanCmd) (keyed writer : Bool) (f : State → State) : State :=
  if keyed && s.twin.state == twPaired && !s.mirrorKey (cmdPart c) then s.respond o.code c stKey []
  else if !s.twinServes then s.respond o.code c stFenced []
  else if writer then f s
  else if cmdForwarded c then s.respond o.code c stNoSession []
  else s.forwardCmd s.twinNode o.code c

/-! ### SESSION_OPEN (14 R459, 02 R60) -/

/-- SESSION_OPEN. -/
def opSessionOpen : AgtanOp :=
  { tenantOp 0x0080 32 with
    rsvdOk := fun b => zeroBits 31 31 b && zeroBits 35 39 b && zeroBits 54 63 b && zeroBits 180 191 b && zeroBits 208 255 b }

/-- The session entry that a SESSION_OPEN body asks for. -/
def openEntry (p : Nat) (b : List Byte) : Session :=
  let v := leNat b
  { skey := BitVec.ofNat 64 (field v 64 64), part := p, pfmt := field v 24 4, hdim := field v 28 3, group := field v 32 3,
    state := 1, layersM1 := field v 40 8, kvhM1 := field v 48 6, windowLen := field v 128 32, baseSeq := field v 160 16,
    dpfmt := field v 176 4, posTable := field v 192 16, dirGrain := 0, seed := 0#32, stamp := 0, heads := [] }

/-- The checks of R60. -/
def State.openOk (s : State) (x : Nat) (v : Session) : Bool :=
  ((s.session? x).map (·.state)).getD 0 == 0 && decide (v.pfmt ≤ 4 ∧ v.hdim ≤ 5 ∧ v.group ≤ 4) &&
    (if v.baseSeq = noneId then v.dpfmt == 0
     else (v.dpfmt == 5 || v.dpfmt == 6) &&
       (match Tbl.get? (s.part v.part).bases v.baseSeq with
        | some b => b.loaded && b.hdim == v.hdim && decide (v.layersM1 ≤ b.layersM1 ∧ v.kvhM1 ≤ b.kvhM1)
        | none => false)) &&
    (v.posTable == noneId ||
      (match Tbl.get? (s.part v.part).posTabs v.posTable with
       | some t => decide (groupOf v.group * (v.kvhM1 + 1) ≤ t.qheads)
       | none => false)) &&
    decide (v.windowLen ≤ 16777215)

/-- Open a session: its directory is allocated, its seed drawn, its entry written; none without room, be it for the
session table of its block. -/
def State.openNow (s : State) (x : Nat) (v : Session) : Option State :=
  let n := cdiv ((v.layersM1 + 1) * (v.kvhM1 + 1)) 64
  let s := s.needTable v.part (x / 65536)
  if (s.tableOf (x / 65536)).isNone then none
  else match s.allocGrains v.part n (.dir x) with
  | none => none
  | some (g, t) =>
    let (w, t) := t.draw
    let v := { v with dirGrain := g, seed := w.setWidth 32, stamp := t.clk.ftime }
    some (t.putSession x v)

/-- SESSION_OPEN: forwarded to the key's pair or to the writer, or opened here (R345, R326, R60). -/
def doSessionOpen (c : AgtanCmd) (s : State) : State :=
  s.agtan opSessionOpen c fun t =>
    let p := cmdPart c
    let x := leAt c.body 0 3
    let v := openEntry p c.body
    let home := t.cfg.dir.place v.skey
    let away := match home with | some q => q != t.pairId | none => false
    if t.ownerOfSession x != some p then t.respond opSessionOpen.code c stNoSession []
    else if away && (home.bind t.cfg.dir.pair?).isSome then
      if cmdForwarded c then t.respond opSessionOpen.code c stNoSession []
      else
        let m := (home.bind t.cfg.dir.pair?).getD 0#64
        t.forwardCmd (if x % 2 = 0 then memLo m else memHi m) opSessionOpen.code c
    else t.asWriter opSessionOpen c true (t.writes x) fun t =>
      if !t.openOk x v then t.respond opSessionOpen.code c stFormat []
      else match t.openNow x v with
        | none => t.respond opSessionOpen.code c stNoRes []
        | some u =>
          let v := (u.session? x).getD v
          u.commitChange p [u.sessionRec x v] (.mailbox opSessionOpen.code c stOk (leBytes 8 v.stamp))
/-- SESSION_OPEN. -/
def execSessionOpen (c : AgtanCmd) (s : State) : Host.Outcome State Fault Refusal := run s (doSessionOpen c)

/-! ### Closing (02 R75) -/

/-- SESSION_CLOSE. -/
def opSessionClose : AgtanOp := { tenantOp 0x0081 8 with rsvdOk := zeroBits 24 63 }
/-- SESSION_CLOSE: STATE becomes 2 and the change is mirrored (R75, 10 R327). -/
def doSessionClose (c : AgtanCmd) (s : State) : State :=
  s.agtan opSessionClose c fun t =>
    let x := leNat c.body
    t.asWriter opSessionClose c true (t.writes x) fun t =>
      match t.openSession (cmdPart c) x with
      | none => t.respond opSessionClose.code c stNoSession []
      | some v =>
        let t := t.abandonSession x
        let v := { (t.session? x).getD v with state := 2, stamp := t.clk.ftime }
        let u := t.putSession x v
        u.commitChange v.part [u.sessionRec x v] (.mailbox opSessionClose.code c stOk [])
/-- SESSION_CLOSE. -/
def execSessionClose (c : AgtanCmd) (s : State) : Host.Outcome State Fault Refusal := run s (doSessionClose c)

/-- Does an admitted request name a session? -/
def State.sessionBusy (s : State) (x : Nat) : Bool :=
  s.slc.reqs.any fun r => !r.2.complete &&
    (if r.2.msg.opcode = opAttend then r.2.entries.any fun e => e.2.spec.session == x
     else if r.2.msg.opcode = opCommit then cmSession r.2.msg.payload == x
     else (r.2.msg.opcode == opAppend || r.2.msg.opcode == opIngest) && !ciBase r.2.msg.payload &&
       ciSession r.2.msg.payload == x)

/-- Release what a session holds: runs, SRAM, lists, index and directory grains, provisional sets, scale records; STATE
becomes 0. -/
def State.releaseSession (s : State) (x : Nat) (v : Session) : State :=
  let t := s.freeAllocs fun a => match a.use with
    | .run r => !r.base && r.owner == x
    | .dir y | .index y => y == x
    | .list y _ _ _ => y == x
    | _ => false
  let t := (t.dropProvs fun z => z.session == x).updPart v.part fun p => p.dropScales x
  t.putSession x { v with state := 0, heads := [], dirGrain := 0, stamp := t.clk.ftime }

/-- SESSION_CLOSE_RELEASE: the requests naming the session have completed; a writer mirrors the entry with STATE 0
(R75, 10 R322). -/
def doSessionCloseRelease (x : Nat) (s : State) : State :=
  match s.session? x with
  | none => s
  | some v =>
    if s.awake && v.state == 2 && !s.sessionBusy x then
      if s.writes x then
        let t := s.releaseSession x v
        let t := { t with twin := { t.twin with lastChange := t.clk.ftime } }
        t.mirror v.part [t.sessionRec x ((t.session? x).getD v)]
      else s.stampedAt v.stamp fun t => t.releaseSession x v
    else s
/-- SESSION_CLOSE_RELEASE. -/
def execSessionCloseRelease (session : Nat) (s : State) : Host.Outcome State Fault Refusal :=
  run s (doSessionCloseRelease session)

/-- SESSION_READ. -/
def opSessionRead : AgtanOp := { tenantOp 0x0082 8 with rsvdOk := fun b => zeroBits 24 31 b && zeroBits 48 63 b }
/-- SESSION_READ: the entry, then the committed counts of up to 240 (layer, KV head) pairs from a pair, 8 bytes each
(R456, assumption 20). -/
def doSessionRead (c : AgtanCmd) (s : State) : State :=
  s.agtan opSessionRead c fun t =>
    let x := leAt c.body 0 3
    match t.session? x with
    | none => t.respond opSessionRead.code c stNoSession []
    | some v =>
      if v.part != cmdPart c || t.ownerOfSession x != some v.part || v.state == 0 then
        t.respond opSessionRead.code c stNoSession []
      else
        let l := (v.pairs.drop (leAt c.body 4 2)).take 240
        t.respond opSessionRead.code c stOk
          (sessionBytes v ++ l.flatMap fun q => leBytes 8 (v.head q.1 q.2).count)
/-- SESSION_READ. -/
def execSessionRead (c : AgtanCmd) (s : State) : Host.Outcome State Fault Refusal := run s (doSessionRead c)

/-! ### Base sequences (14 R460) -/

/-- BASE_BEGIN. -/
def opBaseBegin : AgtanOp :=
  { tenantOp 0x0090 16 with rsvdOk := fun b => zeroBits 15 15 b && zeroBits 30 31 b && zeroBits 52 127 b }
/-- The first resident page index of n contiguous free ones of a partition, at most 1,048,575 in all (R78). -/
def State.freeIndices (s : State) (p n : Nat) : Option Nat :=
  let busy := (s.part p).bases.map fun b => (b.2.firstIdx, (b.2.layersM1 + 1) * (b.2.kvhM1 + 1) * b.2.npages)
  fitFrom busy 1048575 n (busy.length + 1) 0
/-- BASE_BEGIN: reserve the indices, draw the seed, mark the sequence loading. -/
def doBaseBegin (c : AgtanCmd) (s : State) : State :=
  s.agtan opBaseBegin c fun t => t.asWriter opBaseBegin c false t.writesBases fun t =>
    let v := leNat c.body
    let p := cmdPart c
    let seq := field v 0 8
    let l := field v 16 8
    let h := field v 24 6
    let n := field v 32 20
    if (Tbl.get? (t.part p).bases seq).isSome || 4 < field v 8 4 || 5 < field v 12 3 || n = 0 || 262144 < n then
      t.respond opBaseBegin.code c stFormat []
    else match t.freeIndices p ((l + 1) * (h + 1) * n) with
      | none => t.respond opBaseBegin.code c stNoRes []
      | some i =>
        let (w, t) := t.draw
        let b : BaseSeq :=
          { loaded := false, pfmt := field v 8 4, hdim := field v 12 3, layersM1 := l, kvhM1 := h, npages := n,
            seed := w.setWidth 32, firstIdx := i, stamp := t.clk.ftime, heads := [] }
        (t.updPart p fun q => { q with bases := Tbl.set q.bases seq b }).respond opBaseBegin.code c stOk []
/-- BASE_BEGIN. -/
def execBaseBegin (c : AgtanCmd) (s : State) : Host.Outcome State Fault Refusal := run s (doBaseBegin c)

/-- BASE_END. -/
def opBaseEnd : AgtanOp := { tenantOp 0x0091 8 with rsvdOk := zeroBits 8 63 }
/-- Is every declared page of a base sequence sealed? -/
def BaseSeq.whole (b : BaseSeq) : Bool :=
  (List.range (b.layersM1 + 1)).all fun l => (List.range (b.kvhM1 + 1)).all fun h =>
    (Tbl.getD b.heads (lhKey l h) LHead.init).pages.length == b.npages
/-- BASE_END: the load is complete when every declared page is sealed. -/
def doBaseEnd (c : AgtanCmd) (s : State) : State :=
  s.agtan opBaseEnd c fun t => t.asWriter opBaseEnd c false t.writesBases fun t =>
    let seq := leNat c.body
    match Tbl.get? (t.part (cmdPart c)).bases seq with
    | none => t.respond opBaseEnd.code c stFormat []
    | some b =>
      if b.loaded || !b.whole then t.respond opBaseEnd.code c stFormat []
      else (t.updBase (cmdPart c) seq fun b => { b with loaded := true, stamp := t.clk.ftime }).respond opBaseEnd.code c
        stOk (leBytes 4 b.firstIdx)
/-- BASE_END. -/
def execBaseEnd (c : AgtanCmd) (s : State) : Host.Outcome State Fault Refusal := run s (doBaseEnd c)

/-- Does a session in STATE 1 or 2 of a partition satisfy a test? -/
def State.namedBySession (s : State) (p : Nat) (f : Session → Bool) : Bool :=
  s.sessions.any fun x => x.2.part == p && (x.2.state == 1 || x.2.state == 2) && f x.2

/-- Drop a base sequence with its runs. -/
def State.dropBase (s : State) (p seq : Nat) : State :=
  (s.freeAllocs fun a => match a.use with
    | .run r => r.base && r.part == p && r.owner == seq
    | _ => false).updPart p fun q => { q with bases := Tbl.erase q.bases seq }

/-- Drop a position table with its grains. -/
def State.dropTable (s : State) (p n : Nat) : State :=
  (s.freeAllocs fun a => decide (a.use = Use.posTable p n)).updPart p fun q => { q with posTabs := Tbl.erase q.posTabs n }

/-- The UNLOAD record of a base sequence or table, whose stamp is kept for resync (10 R320, R334). -/
def State.noteUnload (s : State) (p n : Nat) (table : Bool) : State :=
  { s with twin := { s.twin with unloads := s.twin.unloads ++ [(p, n, table, s.clk.ftime)] } }

/-- An UNLOAD record. -/
def State.unloadRec (s : State) (p n : Nat) (table : Bool) : MRec :=
  { s.mrec mkUnload p with session := n, aux := b2n table }

/-- BASE_UNLOAD. -/
def opBaseUnload : AgtanOp := { tenantOp 0x0092 8 with rsvdOk := zeroBits 8 63 }
/-- BASE_UNLOAD (02 R80). That a number which names no sequence is refused with FORMAT, and that a sequence which is still
loading is dropped like a loaded one, are DESIGN CHOICES (assumption 132). -/
def doBaseUnload (c : AgtanCmd) (s : State) : State :=
  s.agtan opBaseUnload c fun t => t.asWriter opBaseUnload c false t.writesBases fun t =>
    let seq := leNat c.body
    let p := cmdPart c
    if (Tbl.get? (t.part p).bases seq).isNone || t.namedBySession p fun v => v.baseSeq == seq then
      t.respond opBaseUnload.code c stFormat []
    else
      let u := (t.dropBase p seq).noteUnload p seq false
      u.commitChange p [u.unloadRec p seq false] (.mailbox opBaseUnload.code c stOk [])
/-- BASE_UNLOAD. -/
def execBaseUnload (c : AgtanCmd) (s : State) : Host.Outcome State Fault Refusal := run s (doBaseUnload c)

/-! ### Position tables (02 R81, 14 R462) -/

/-- POSTAB_LOAD. -/
def opPostabLoad : AgtanOp :=
  { tenantOp 0x0093 16 with rsvdOk := fun b => zeroBits 8 31 b && zeroBits 62 63 b && zeroBits 96 127 b }
/-- A table's header grain in order, for n grains in all (R81). A count other than header and arrays need is refused:
DESIGN CHOICE (assumption 133). -/
def tableOk (hdr : List Byte) (n : Nat) : Bool :=
  let q := leAt hdr 0 2
  let e := leAt hdr 2 1
  decide (1 ≤ q ∧ q ≤ 1024 ∧ 8 ≤ e ∧ e ≤ 16) && (hdr.drop 3).all (· == 0#8) && decide (2 * q * 2 ^ e ≤ 8388608) &&
    n == 1 + cdiv (2 * q * 2 ^ e) 512
/-- Put a table's grains into the node's own allocation: none without room. -/
def State.putTable (s : State) (p num : Nat) (b : List Byte) : Option State :=
  let n := b.length / 512
  match s.allocGrains p n (.posTable p num) with
  | none => none
  | some (g, t) =>
    let t := t.putRun g 0#16 false b
    let x : PosTab :=
      { first := g, grains := n, qheads := leAt b 0 2, log2e := leAt b 2 1
        root := tagRoot ((pieces 512 b).map crc32c), stamp := t.clk.ftime }
    some (t.updPart p fun q => { q with posTabs := Tbl.set q.posTabs num x })
/-- POSTAB_LOAD: a verified table is copied into the node's own allocation and mirrored. -/
def doPostabLoad (c : AgtanCmd) (s : State) : State :=
  s.agtan opPostabLoad c fun t => t.asWriter opPostabLoad c false t.writesBases fun t =>
    let num := leAt c.body 0 1
    let g := leAt c.body 4 4
    let n := leAt c.body 8 4
    let p := cmdPart c
    if 63 < num || n = 0 || 16385 < n || (Tbl.get? (t.part p).posTabs num).isSome || !inGroups (t.pmap p) g n then
      t.respond opPostabLoad.code c stFormat []
    else match t.firstBad g n with
      | some e => (t.failCheck e).respond opPostabLoad.code c stTag []
      | none =>
        if !tableOk (t.grain g) n then t.respond opPostabLoad.code c stFormat []
        else match t.putTable p num (t.readBytes (512 * g) (512 * n)) with
          | none => t.respond opPostabLoad.code c stNoRes []
          | some u => u.commitChange p [{ u.mrec mkPostable p with session := num }]
              (.mailbox opPostabLoad.code c stOk [])
/-- POSTAB_LOAD. -/
def execPostabLoad (c : AgtanCmd) (s : State) : Host.Outcome State Fault Refusal := run s (doPostabLoad c)

/-- POSTAB_UNLOAD. -/
def opPostabUnload : AgtanOp := { tenantOp 0x0094 8 with rsvdOk := zeroBits 8 63 }
/-- POSTAB_UNLOAD (02 R80). A number that names no table is refused with FORMAT: DESIGN CHOICE (assumption 132). -/
def doPostabUnload (c : AgtanCmd) (s : State) : State :=
  s.agtan opPostabUnload c fun t => t.asWriter opPostabUnload c false t.writesBases fun t =>
    let n := leNat c.body
    let p := cmdPart c
    if (Tbl.get? (t.part p).posTabs n).isNone || t.namedBySession p fun v => v.posTable == n then
      t.respond opPostabUnload.code c stFormat []
    else
      let u := (t.dropTable p n).noteUnload p n true
      u.commitChange p [u.unloadRec p n true] (.mailbox opPostabUnload.code c stOk [])
/-- POSTAB_UNLOAD. -/
def execPostabUnload (c : AgtanCmd) (s : State) : Host.Outcome State Fault Refusal := run s (doPostabUnload c)

end Sys2Proof.Machine
end

