-- ==== Sys2Proof/Machine/Measure.lean ====
section
/-! DEFINITION. Measurements and digests (11 R364, R366 to R368). -/

namespace Sys2Proof.Machine

/-- A block of the configuration digest: its number and length, 4 bytes each, then its bytes (R368). -/
def digestBlock (n : Nat) (b : List Byte) : List Byte := leBytes 4 n ++ leBytes 4 b.length ++ b

/-- A key slot as the configuration digest binds it (R368). -/
def KeySlot.binding (x : KeySlot) : List Byte :=
  if x.st = .empty || x.st = .retired then leBytes 8 0 else leBytes 4 x.part ++ leBytes 4 x.job.toNat

/-- A weir list's bytes: its header, then its entries (R368). -/
def weirBytes : Option Weir → List Byte
  | some w => leBytes 16 w.hdr.toNat ++ w.entries.flatMap fun e => leBytes 8 e.toNat
  | none => []

/-- What the configuration digest covers (R368). -/
def State.cfgBytes (s : State) : List Byte :=
  digestBlock 1 ((List.range 16).flatMap fun p => leBytes 128 (s.pmap p).toNat) ++
    digestBlock 2 ((List.range 65536).flatMap fun w => leBytes 32 (windowKey (s.window w)).toNat) ++
    digestBlock 3 ((List.range 256).flatMap fun n => leBytes 1024 (Tbl.getD s.cfg.srcSets n 0#8192).toNat) ++
    digestBlock 4 ((List.range 1024).flatMap fun k => (s.key k).binding) ++
    digestBlock 5 (leBytes 8 s.cfg.period ++ leBytes 8 s.cfg.origin ++ leBytes 8 s.cfg.fepoch) ++
    digestBlock 6 ((List.range 24).flatMap fun p => weirBytes (Tbl.get? s.cfg.weirs p)) ++
    digestBlock 7 (leBytes 8 s.cfg.dir.epoch) ++ digestBlock 8 (leBytes 8 s.cfg.lock.toNat)

/-- Measurement 4, the configuration digest (R368). -/
def State.cfgDigest (s : State) : Digest := sha384 s.cfgBytes

/-- Measurement 3, the standard library digest: instructions 0 to 15 and 64 to 1,023 (R366). -/
def stdLibDigest : Digest :=
  sha384 ((List.range 16 ++ (List.range 960).map (64 + ·)).flatMap fun i => leBytes 4 (stdWord i).toNat)

/-- Measurement 16 + p, the microprogram digest of a partition: of the empty string without a library (R366). -/
def State.progDigest (s : State) (p : Nat) : Digest :=
  match Tbl.get? s.cfg.libs p with
  | some l => l.digest
  | none => sha384 []

/-- A record of a resident-set digest (R367). -/
def residentRec (table : Bool) (n layer h page : Nat) (root : Word32) : List Byte :=
  leBytes 1 (b2n table) ++ leBytes 1 n ++ leBytes 1 layer ++ leBytes 1 h ++ leBytes 4 page ++ leBytes 4 root.toNat

/-- The records of a partition's resident set, base pages first (R367). -/
def PartState.residentBytes (p : PartState) : List Byte :=
  (p.bases.flatMap fun b => b.2.heads.flatMap fun h => h.2.pages.flatMap fun g =>
    residentRec false b.1 (h.1 / 64) (h.1 % 64) g.1 g.2.desc.tagRoot) ++
    p.posTabs.flatMap fun t => residentRec true t.1 0 0 0 t.2.root

/-- Measurement 32 + p, the resident-set digest of a partition (R367). -/
def State.residentDigest (s : State) (p : Nat) : Digest := sha384 (s.part p).residentBytes

end Sys2Proof.Machine
end

