-- ==== Sys2Proof/Machine/MirrorApply.lean ====
section
/-! DEFINITION. The twin's side of mirroring (10 R319 to R324): applying records, APPLIED, repair from the twin (12 R395);
rejoin and resync (10 R333 to R335); the events of the twin states (10 R317, R327, R329, R330). -/

namespace Sys2Proof.Machine

/-! ### Reading records (R319, R320) -/

/-- A record as it is received: its header's fields and its body. -/
def recOf (p : Nat) (h body : List Byte) : MRec :=
  let v := leNat h
  { kind := field v 0 8, count := field v 8 8, stamp := field v 64 64, session := field v 128 24, layer := field v 152 8,
    head := field v 160 6, page := field v 168 24, aux := field v 192 32, base := false, part := p, body := body }

/-- The RsvdZ bits of a record header are zero. -/
def recRsvdOk (h : List Byte) : Bool :=
  let v := leNat h
  fieldZero v 16 16 && fieldZero v 166 2 && fieldZero v 224 32

/-- The records of a MIRROR payload; none when one is malformed. `fuel` bounds them. -/
def parseRecs (p : Nat) : Nat → List Byte → Option (List MRec)
  | 0, b => if b.isEmpty then some [] else none
  | fuel + 1, b =>
    if b.isEmpty then some []
    else
      let h := b.take 32
      let n := leAt h 4 4
      if b.length < 32 || !recRsvdOk h || n % 32 != 0 || b.length < 32 + n then none
      else (parseRecs p fuel (b.drop (32 + n))).map fun t => recOf p h ((b.drop 32).take n) :: t

/-- The grains of a PAGE record, behind its descriptor. -/
def MRec.pageGrains (r : MRec) : List Byte := r.body.drop 32

/-- The page a PAGE record holds: its meta grain's header says whether it is a base page (02 R51). -/
def MRec.pageRef (r : MRec) : PageRef :=
  let d := descOf r.body
  let m := slice r.pageGrains (512 * (runLen d.pfmt d.hdim - 1)) 8
  { r.ref with base := bit (leNat m) 56 }

/-- The kinds, counts and body lengths of R320. -/
def recOk (r : MRec) : Bool :=
  if r.kind = mkPage then
    let d := descOf r.body
    decide (d.pfmt ≤ 6 ∧ d.hdim ≤ 5) && r.count == 0 && r.body.length == 32 + 512 * runLen d.pfmt d.hdim
  else if r.kind = mkTokens then decide (1 ≤ r.count ∧ r.count ≤ 16)
  else if r.kind = mkCount || r.kind = mkRetire then r.count == 0 && r.body.isEmpty
  else if r.kind = mkSession then r.count == 0 && r.body.length == 64
  else if r.kind = mkProvset then decide (1 ≤ r.count ∧ r.count ≤ 16 ∧ 32 ≤ r.body.length)
  else if r.kind = mkGrains then decide (1 ≤ r.count ∧ r.count ≤ 16) && r.body.length == 32 + 512 * r.count
  else if r.kind = mkPostable then r.count == 0 && decide (r.session < 64) && r.body.length % 512 == 0 &&
    tableOk (r.body.take 512) (r.body.length / 512)
  else if r.kind = mkUnload then r.count == 0 && decide (r.aux ≤ 1) && r.body.isEmpty
  else if r.kind = mkCompletion then r.count == 0 && r.body.length == 32
  else r.kind == mkRepair && decide (r.count ≤ 2) && r.body.isEmpty

/-- A token of a TOKENS or PROVSET record, from a byte on (R320). -/
def tokenAt (pfmt dim : Nat) (b : List Byte) (i : Nat) : Token :=
  let n := rowBytes pfmt dim
  let w := cdiv n 32 * 32
  let o := i * (2 * w + 64)
  mkToken { codes := slice b o n, srec := slice b (o + 2 * w) 4 }
    { codes := slice b (o + w) n, srec := slice b (o + 2 * w + 32) 4 }

/-- n tokens of a format. -/
def tokensOf (pfmt dim n : Nat) (b : List Byte) : List Token := (List.range n).map (tokenAt pfmt dim b)

/-- The bytes of n tokens in a record. -/
def tokensLen (pfmt dim n : Nat) : Nat := n * (2 * (cdiv (rowBytes pfmt dim) 32 * 32) + 64)

/-- The bytes of tokens that each have a format of their own, one after the other. -/
def mixedLen (fmts : List Nat) (dim : Nat) : Nat := (fmts.map fun f => tokensLen f dim 1).foldl (· + ·) 0

/-- Tokens that each have a format of their own: candidates whose positions lie on both sides of the end of base coverage
(04 R146). -/
def mixedToks (dim : Nat) : List Nat → List Byte → List Token
  | [], _ => []
  | f :: t, b => tokenAt f dim b 0 :: mixedToks dim t (b.drop (tokensLen f dim 1))

/-- A session entry's fields from its 64 bytes (02 R59). -/
def sessionOf (b : List Byte) : Session :=
  let v := leAt b 0 64
  { skey := BitVec.ofNat 64 (field v 0 64), part := field v 64 4, pfmt := field v 68 4, hdim := field v 72 3,
    group := field v 75 3, state := field v 78 2, layersM1 := field v 80 8, kvhM1 := field v 88 6,
    windowLen := field v 96 32, baseSeq := field v 128 16, dpfmt := field v 144 4, posTable := field v 160 16,
    dirGrain := 0, seed := BitVec.ofNat 32 (field v 224 32), stamp := field v 256 64, heads := [] }

/-! ### Applying records (R321, R322) -/

/-- A comparison of tags failed: the event, and the count (R321, R396). -/
def State.mirrorBad (s : State) (p addr : Nat) : State :=
  (s.fault { code := 0x07, srcKind := 7, srcIndex := 0, part := some p, addr := addr, syndrome := 0#64,
             place := none }).count cMirrorBad 1

/-- A page leaves the pages for which a repair is asked. -/
def State.repaired (s : State) (r : PageRef) : State :=
  { s with twin := { s.twin with repairs := s.twin.repairs.filter fun x => decide (x ≠ r) } }

/-- Does a received page pass: TAG_ROOT over its grains, and a header that names the page (02 R50, R321)? -/
def receivedOk (r : PageRef) (d : Desc) (grains : List Byte) : Bool :=
  tagRoot ((pieces 512 grains).map crc32c) == d.tagRoot &&
    headerFits (slice grains (512 * (runLen d.pfmt d.hdim - 1)) 512) d r.owner r.base r.layer r.head

/-- A received page is stored: a failed comparison, or a coded half that does not decode, makes it CONTAINED (R321,
06 R191, R192). -/
def State.judgePage (s : State) (r : PageRef) (g : Nat) (bad : Bool) : State :=
  if bad then (s.mirrorBad r.part g).containPage r
  else
    match s.page? r with
    | none => s
    | some p =>
      match (if p.desc.pfmt = 1 then s.runRows eccNone p.desc else .ok ([], [])) with
      | .error e => s.failPage r e
      | .ok _ => s.repaired r

/-- Put a received page into a run of this node: in the run of the tail page it seals, else in a new one; the page header
takes the run's write generation (R318, 02 R51). The repair of a CONTAINED sealed page is swapped in once no queued or
running jet command names the old run (07 R207). None without room. -/
def State.storePage (s : State) (r : PageRef) (home : Option Nat) (d : Desc) (grains : List Byte) : Option State :=
  let n := runLen d.pfmt d.hdim
  let s := match s.page? r with
    | some p => if p.migr.any (fun (m : Migr) => m.repair.isNone) then s.abandonMigr r else s
    | none => s
  let old := s.page? r
  let mg (w : BitVec 16) : List Byte := patch (slice grains (512 * (n - 1)) 512) 16 (leBytes 2 w.toNat)
  let body (w : BitVec 16) : List Byte := grains.take (512 * (n - 1)) ++ mg w
  let bad := !receivedOk r d grains
  let finish (t : State) (g : Nat) (w : BitVec 16) (oldRuns : List (Nat × Nat)) : State :=
    let t := t.putRun g w true (body w)
    let d' := { d with
      grain := g, wgen := w, inSram := d.tail, contained := false
      tagRoot := if d.tail then 0#32 else tagRoot ((List.range n).map fun i => t.tagOf (g + i)) }
    let copy := if d.tail then
        match halfRows d' (t.halfBytes d' false) (t.grain (metaGrain d')) false,
              halfRows d' (t.halfBytes d' true) (t.grain (metaGrain d')) true with
        | .ok k, .ok v => some (Copy.tail ((k.zip v).take (d.validM1 + 1) |>.map fun x => mkToken x.1 x.2))
        | _, _ => none
      else none
    let oc := match old with | some p => if s.readBy r then p.copy else none | none => none
    (t.putPage r { pageOf d' with copy := copy, oldCopy := oc, oldRuns := oldRuns }).judgePage r g bad
  let waits : Bool := match old with
    | some p => p.desc.contained && !p.desc.tail && !d.tail && s.runNamed p.desc.grain && !bad
    | none => false
  let hold (t : State) (g : Nat) (w : BitVec 16) : State :=
    let u := t.putRun g w true (body w)
    let root := tagRoot ((List.range n).map fun i => u.tagOf (g + i))
    u.updPage r fun p => { p with
      migr := some { newRun := g, wgen := w, copied := true, repair := some { d with tagRoot := root } } }
  let fresh : Option State :=
    match home with
    | none => none
    | some j =>
      match s.allocRun j n (.run r) with
      | none => none
      | some (g, w, t) =>
        if waits then some (hold t g w)
        else some (finish t g w (match old with
          | some p => p.oldRuns ++ [(p.desc.grain, runLen p.desc.pfmt p.desc.hdim)]
          | none => []))
  match old with
  | some p =>
    if p.migr.isSome then some s
    else
    let k := ((s.allocOf p.desc.grain).map (·.len)).getD 0
    if p.desc.tail && !p.desc.contained && !d.tail && decide (n ≤ k) && s.pairLive (grainJet p.desc.grain) then
      let t := { s with allocs := s.allocs.map fun (a : Alloc) =>
        if a.first = p.desc.grain then { a with len := n } else a }
      some (finish t p.desc.grain p.desc.wgen p.oldRuns)
    else fresh
  | none => fresh

/-- A base sequence as a PAGE record of it makes it known (R320): created loaded, and grown to hold the page
(assumption 23). -/
def State.growBase (s : State) (r : MRec) (d : Desc) : State :=
  let b := (Tbl.get? (s.part r.part).bases r.session).getD
    { loaded := true, pfmt := if d.cstate = 0 then d.pfmt else 1, hdim := d.hdim, layersM1 := 0, kvhM1 := 0, npages := 0,
      seed := 0#32, firstIdx := r.aux, stamp := r.stamp, heads := [] }
  let k := lhKey r.layer r.head
  let b := { b with
    layersM1 := max b.layersM1 r.layer, kvhM1 := max b.kvhM1 r.head, npages := max b.npages (r.page + 1)
    firstIdx := min b.firstIdx r.aux
    heads := Tbl.modify b.heads k LHead.init fun h => { h with count := max h.count (16 * (r.page + 1)) } }
  s.updPart r.part fun p => { p with bases := Tbl.set p.bases r.session b }

/-- Is a record newer than the page this node holds, or the repair of a CONTAINED one (R322, 12 R395)? -/
def State.newerPage (s : State) (ref : PageRef) (stamp : Nat) : Bool :=
  match s.page? ref with
  | none => true
  | some p => decide (p.desc.stamp < stamp) || (p.desc.contained && decide (p.desc.stamp ≤ stamp))

/-- Apply a PAGE record. -/
def State.applyPage (s : State) (r : MRec) : Option State :=
  let d := descOf r.body
  let ref := r.pageRef
  if !s.newerPage ref r.stamp || d.contained then some s
  else if ref.base then
    let t := s.growBase r d
    let gs := mapGroups (t.pmap r.part)
    let seed := ((Tbl.get? (t.part r.part).bases r.session).map (·.seed)).getD 0#32
    let home := match t.page? ref with
      | some p => t.liveJet gs (grainJet p.desc.grain)
      | none => if gs.isEmpty then none else t.liveJet gs (homeJet gs seed r.layer r.head r.page)
    t.storePage ref home d r.pageGrains
  else
    match s.session? r.session with
    | none => some s
    | some v =>
      if v.state = 0 || !v.has r.layer r.head then some s
      else
        match s.needList r.session r.layer r.head r.page with
        | none => none
        | some t => (t.session? r.session).bind fun v =>
            t.storePage ref (t.pageHome v r.layer r.head r.page) d r.pageGrains

/-- The sealing counters as another record of the partition has them: a twin that applies mirrored tokens counts no sealing
(06 R199). -/
def PartState.sealsOf (p q : PartState) : PartState :=
  { p with codedPages := q.codedPages, rawFallback := q.rawFallback, rawBytes := q.rawBytes, codedBytes := q.codedBytes,
           escapes := q.escapes, coderFaults := q.coderFaults }

/-- Apply a TOKENS record, in one atomic step (R320, 02 R71): the tokens that come next at the tail, or, in a resync, a
whole tail page in place of an older one. -/
def State.applyTokens (s : State) (r : MRec) : Option State :=
  match s.session? r.session with
  | none => some s
  | some v =>
    let n := r.aux / 16
    let ref := { r.ref with page := n }
    let f := s.tokenFmt v n
    if v.state = 0 || !v.has r.layer r.head || r.body.length != tokensLen f (dimOf v.hdim) r.count then some s
    else
      let old := s.page? ref
      let held := match old with | some p => p.tailToks.length | none => 0
      let isTail := match old with | some p => p.desc.tail | none => true
      let stamp := match old with | some p => p.desc.stamp | none => 0
      let next := isTail && r.aux == 16 * n + held && decide (stamp ≤ r.stamp)
      let again := r.aux % 16 == 0 && decide (stamp < r.stamp)
      if !(next || again) then some s
      else
        let s := if next then s else
          match old with
          | some p =>
            let t := s.freeAllocs fun a => a.first == p.desc.grain
            t.updSession r.session fun v => { v with heads := Tbl.modify v.heads (lhKey r.layer r.head) LHead.init fun h =>
              { h with pages := Tbl.erase h.pages n } }
          | none => s
        match s.takeSram v.part (s.tokensSram v r.aux r.count) with
        | none => none
        | some t =>
          let toks := tokensOf f (dimOf v.hdim) r.count r.body
          match t.addAll eccNone false r.session r.layer r.head (r.count + 1) r.aux toks with
          | .ok u => some ((u.setCount r.session r.layer r.head (r.aux + r.count)).updPart v.part fun q =>
              q.sealsOf (s.part v.part))
          | .error (.st _) => none
          | .error e => some (t.refuseApply e).1

/-- Apply a COUNT record. -/
def State.applyCount (s : State) (r : MRec) : State :=
  match s.session? r.session with
  | none => s
  | some v =>
    if v.has r.layer r.head && decide ((v.head r.layer r.head).stamp ≤ r.stamp) then
      s.setCount r.session r.layer r.head r.aux
    else s

/-- Apply a SESSION record: an open session's entry, a closing one's, or the release of its pages (R322, 02 R75). -/
def State.applySession (s : State) (r : MRec) : Option State :=
  let x := r.session
  let new := { sessionOf r.body with part := r.part, stamp := r.stamp }
  let old := s.session? x
  let held := match old with | some v => v.stamp | none => 0
  if r.stamp ≤ held then some s
  else
    let live := match old with | some v => v.state != 0 | none => false
    let same := match old with | some v => v.state != 0 && v.skey == new.skey && v.seed == new.seed | none => false
    if new.state = 0 then
      match old with
      | some v =>
        if !live then some (s.putSession x { v with stamp := r.stamp })
        else if s.sessionBusy x then
          let t := s.abandonSession x
          some (t.putSession x { (t.session? x).getD v with state := 2, stamp := r.stamp })
        else some (s.releaseSession x v)
      | none => some (s.putSession x new)
    else if same then
      match old with
      | some v =>
        let t := if new.state = 2 then s.abandonSession x else s
        some (t.putSession x { new with dirGrain := v.dirGrain, heads := ((t.session? x).getD v).heads })
      | none => some s
    else
      let s := match old with
        | some v => if live then s.releaseSession x v else s
        | none => s
      match s.allocGrains r.part (cdiv ((new.layersM1 + 1) * (new.kvhM1 + 1)) 64) (.dir x) with
      | none => none
      | some (g, t) => some (t.putSession x { new with dirGrain := g })

/-- Apply a PROVSET record (R320, 04 R146). -/
def State.applyProv (s : State) (r : MRec) : Option State :=
  match s.session? r.session with
  | none => some s
  | some v =>
    let qpos := leAt r.body 8 8
    let tree := BitVec.ofNat 64 (leAt r.body 0 8)
    let fmts := (List.range r.count).map fun i => s.tokenFmt v ((qpos + depthOf tree i) / 16)
    let mine (z : ProvSet) : Bool :=
      z.session == r.session && z.pset == r.aux && z.layer == r.layer && z.head == r.head
    if v.state = 0 || !v.has r.layer r.head || r.body.length != 32 + mixedLen fmts (dimOf v.hdim) ||
        s.provs.any (fun z => mine z && decide (r.stamp ≤ z.stamp)) then some s
    else
      let z : ProvSet :=
        { session := r.session, pset := r.aux, layer := r.layer, head := r.head, tree := tree,
          qpos := qpos, toks := mixedToks (dimOf v.hdim) fmts (r.body.drop 32), expiry := leAt r.body 16 16,
          req := none, stamp := r.stamp }
      let t := s.dropProvs mine
      (t.takeSram v.part (t.provBytes z)).map fun u => { u with provs := u.provs ++ [z] }

/-- Apply a GRAINS record: window grains, each when the record is newer, or is the repair of a CONTAINED grain (R321,
R322, 12 R395). -/
def State.applyGrains (s : State) (r : MRec) : State :=
  let g0 := leAt r.body 0 4
  let b := r.body.drop 32
  let bad := (tagRoot ((pieces 512 b).map crc32c)).toNat != r.aux
  let due (g : Nat) : Bool :=
    let held := Tbl.getD s.twin.grainStamps g 0
    s.ownerOfGrain g == some r.part && (s.allocOf g).isNone &&
      (decide (held < r.stamp) || (s.badGrains.contains g && decide (held ≤ r.stamp)))
  let l := (List.range r.count).filter fun i => due (g0 + i)
  let t := s.each l fun t i =>
    let t := (t.putGrain (g0 + i) false (t.wgenOf (g0 + i) false) (slice b (512 * i) 512)).clearGrain (g0 + i)
    { t with twin := { t.twin with grainStamps := Tbl.set t.twin.grainStamps (g0 + i) r.stamp } }
  if bad && !l.isEmpty then (t.mirrorBad r.part g0).each l fun t i => t.containGrain (g0 + i) else t

/-- Apply a POSTABLE record. -/
def State.applyTable (s : State) (r : MRec) : Option State :=
  match Tbl.get? (s.part r.part).posTabs r.session with
  | some x => if r.stamp ≤ x.stamp then some s else (s.dropTable r.part r.session).putTable r.part r.session r.body
  | none => s.putTable r.part r.session r.body

/-- Apply an UNLOAD record. -/
def State.applyUnload (s : State) (r : MRec) : State :=
  let t := s.noteUnload r.part r.session (r.aux == 1)
  if r.aux = 1 then
    match Tbl.get? (s.part r.part).posTabs r.session with
    | some x => if x.stamp < r.stamp then t.dropTable r.part r.session else s
    | none => s
  else
    match Tbl.get? (s.part r.part).bases r.session with
    | some b => if b.stamp < r.stamp then t.dropBase r.part r.session else s
    | none => s

/-- Keep a COMPLETION record until its RETIRE (R320, R331). What the record does not carry of the completion's frame is
the partition's first job slot and WINDOW and GEN zero (assumption 24). -/
def State.applyCompletion (s : State) (r : MRec) : State :=
  let d : PartnerDone :=
    { part := r.part, src := BitVec.ofNat 13 (leAt r.body 0 2), tag := BitVec.ofNat 24 r.aux,
      status := BitVec.ofNat 8 (leAt r.body 2 1), window := 0#20, gen := 0#16,
      slot := BitVec.ofNat 10 (mapKeyFirst (s.pmap r.part)) }
  { s with twin := { s.twin with partner := s.twin.partner ++ [d] } }

/-- A RETIRE record. -/
def State.applyRetire (s : State) (r : MRec) : State :=
  { s with twin := { s.twin with
    partner := s.twin.partner.filter fun d => !(d.part == r.part && d.tag == BitVec.ofNat 24 r.aux) } }

/-- Answer a REPAIR_REQ with the object as it stands, read with its tags verified (R321, 12 R395): a page whose check
fails becomes CONTAINED here and its record says so; the record carries the object's own stamp. -/
def State.answerRepair (s : State) (r : MRec) : State :=
  if r.count = 1 then
    match s.grainFault eccNone r.aux with
    | some e => s.failCheck (e.1, r.aux, e.2)
    | none => s.sendMirror r.part
        [{ s.grainsRec r.part r.aux 1 with stamp := Tbl.getD s.twin.grainStamps r.aux 0 }]
  else
    let ref := { r.ref with base := r.count == 2 }
    match s.page? ref with
    | none => s
    | some p =>
      let t := match s.runRows eccNone p.desc with | .error e => s.failPage ref e | .ok _ => s
      t.sendMirror r.part [{ t.pageRec ref with stamp := p.desc.stamp }]

/-- Apply one record: none when it finds no room. -/
def State.applyRec (s : State) (r : MRec) : Option State :=
  if r.kind = mkPage then s.applyPage r
  else if r.kind = mkTokens then s.applyTokens r
  else if r.kind = mkCount then some (s.applyCount r)
  else if r.kind = mkSession then s.applySession r
  else if r.kind = mkProvset then s.applyProv r
  else if r.kind = mkGrains then some (s.applyGrains r)
  else if r.kind = mkPostable then s.applyTable r
  else if r.kind = mkUnload then some (s.applyUnload r)
  else if r.kind = mkCompletion then some (s.applyCompletion r)
  else if r.kind = mkRetire then some (s.applyRetire r)
  else some (s.answerRepair r)

/-- A record is applied with its own stamp, and LAST_APPLIED advances (R329). A repair is asked for and answered at the
present time. -/
def State.applyStamped (s : State) (r : MRec) : Option State :=
  let t := if r.kind = mkRepair then s.applyRec r
    else ({ s with clk := { s.clk with ftime := r.stamp } }.applyRec r).map fun (u : State) =>
      { u with clk := { u.clk with ftime := s.clk.ftime } }
  t.map fun u => { u with twin := { u.twin with lastApplied := max u.twin.lastApplied r.stamp } }

/-- The states in which records are applied: the partner's changes in PAIRED, the resync copy in RESYNC_DST, and repairs
between both (R329, R333). -/
def State.appliesRecs (s : State) : Bool :=
  s.twin.state == twPaired || s.twin.state == twDst || s.twin.state == twSrc

/-- Send a MIRROR_ACK that is due: 8 bytes of APPLIED under the partition's mirror slot, at most once every 0.5 µs
(R323). -/
def State.flushMirrorAck (s : State) : State :=
  match s.twin.ackDue with
  | none => s
  | some p =>
    if s.clk.ftime < s.twin.ackAt + 500 && s.twin.ackAt != 0 then s
    else
      let t := { s with twin := { s.twin with ackDue := none, ackAt := s.clk.ftime, sentAt := s.clk.ftime } }
      t.sendMsg
        { dst := BitVec.ofNat 13 t.twinNode, rclass := 1#2, pclass := 1, opcode := opMirrorAck, fwd := false,
          keySlot := BitVec.ofNat 10 (p + 1), window := 0#20, gen := 0#16, offset := 0, imm := BitVec.ofNat 32 p }
        (leBytes 8 t.twin.lastApplied) fun _ => .none

/-- A MIRROR message of a partition: the status that refuses it, or its records applied in order (R320, R322, R323). -/
def State.takeMirror (s : State) (p : Nat) (payload : List Byte) : Nat × State :=
  match parseRecs p (payload.length / 32) payload with
  | none => (stFormat, s)
  | some l =>
    if l.isEmpty then (stOk, s)
    else if !l.all recOk then (stFormat, s)
    else if !s.appliesRecs then (stFenced, s)
    else
      match l.foldlM (fun (t : State) r => t.applyStamped r) s with
      | none => (stNoRes, s)
      | some t =>
        let t := if t.twin.state = twDst then t.count cResyncBytes payload.length else t
        if t.twin.lastApplied = s.twin.lastApplied then (stOk, t)
        else (stOk, ({ t with twin := { t.twin with ackDue := some p } }).flushMirrorAck)

/-- A MIRROR_ACK message (R323, R327). -/
def State.takeMirrorAck (s : State) (payload : List Byte) : State :=
  if s.mirrors then s.coverChanges (leAt payload 0 8) else s

/-! ### Rejoin and resync (R333 to R335) -/

/-- The newest stamp a such that this node applied every record of its partner up to a and the partner acknowledged every
record of this node up to a (R333). -/
def State.rejoinStamp (s : State) : Nat :=
  if s.twin.lastChange ≤ s.twin.applied then s.twin.lastApplied else min s.twin.lastApplied s.twin.applied

/-- A (layer, KV head) without what is stamped after a: its count covers the tokens that stay. -/
def LHead.upTo (h : LHead) (a : Nat) : LHead :=
  let pages := h.pages.filter fun g => decide (g.2.desc.stamp ≤ a)
  let held := (pages.map fun g => 16 * g.1 + g.2.desc.validM1 + 1).foldl max 0
  { h with pages := pages, count := min h.count held, stamp := min h.stamp a }

/-- Discard every object stamped after a (R333). -/
def State.discardAfter (s : State) (a : Nat) : State :=
  let late (r : PageRef) : Bool := match s.page? r with | some p => decide (a < p.desc.stamp) | none => false
  let t := s.freeAllocs fun x => match x.use with
    | .run r => late r
    | _ => false
  let t := t.each (t.sessions.filter fun x => decide (a < x.2.stamp)) fun t x => t.releaseSession x.1 x.2
  let keep (x : Nat × Session) : Option (Nat × Session) :=
    if a < x.2.stamp then none else some (x.1, { x.2 with heads := Tbl.mapVals x.2.heads fun _ h => h.upTo a })
  let t := { t with sessions := t.sessions.filterMap keep }
  let t := t.dropProvs fun z => decide (a < z.stamp)
  let t := { t with parts := Tbl.mapVals t.parts fun _ p => { p with
    bases := p.bases.filter (fun (x : Nat × BaseSeq) => decide (x.2.stamp ≤ a))
    posTabs := p.posTabs.filter (fun (x : Nat × PosTab) => decide (x.2.stamp ≤ a)) } }
  { t with
    allocs := t.allocs.filter fun x => match x.use with
      | .posTable p n => (Tbl.get? (t.part p).posTabs n).isSome
      | .run r => !r.base || (Tbl.get? (t.part r.part).bases r.owner).isSome
      | _ => true
    twin := { t.twin with changes := [], partner := [] } }

/-- The records of a session in the resync copy (R334). -/
def State.resyncSession (s : State) (a x : Nat) (v : Session) : List MRec :=
  let changed := decide (a < v.stamp) || v.heads.any fun h =>
    decide (a < h.2.stamp) || h.2.pages.any fun g => decide (a < g.2.desc.stamp)
  let entry := if a < v.stamp then [{ s.sessionRec x v with stamp := v.stamp }] else []
  if !changed || v.state = 0 then entry
  else
    entry ++ v.heads.flatMap fun h =>
      (h.2.pages.filterMap fun g =>
        let r : PageRef := { base := false, part := v.part, owner := x, layer := h.1 / 64, head := h.1 % 64, page := g.1 }
        if g.2.desc.tail then
          if g.2.tailToks.isEmpty then none
          else some { s.tokensRec v.part x (h.1 / 64) (h.1 % 64) (16 * g.1) g.2.tailToks with stamp := g.2.desc.stamp }
        else if a < g.2.desc.stamp then some { s.pageRec r with stamp := g.2.desc.stamp }
        else none) ++
      [{ s.countRec v.part x (h.1 / 64) (h.1 % 64) h.2.count with stamp := h.2.stamp }]

/-- The records of a partition's resident set, unloads and provisional sets in the resync copy (R334). -/
def State.resyncPart (s : State) (a p : Nat) : List MRec :=
  let q := s.part p
  (q.bases.flatMap fun b => b.2.heads.flatMap fun h => h.2.pages.filterMap fun g =>
    if a < g.2.desc.stamp then
      some { s.pageRec { base := true, part := p, owner := b.1, layer := h.1 / 64, head := h.1 % 64, page := g.1 } with
        stamp := g.2.desc.stamp }
    else none) ++
  (q.posTabs.filterMap fun x =>
    if a < x.2.stamp then some { s.mrec mkPostable p with session := x.1, stamp := x.2.stamp } else none) ++
  (s.twin.unloads.filterMap fun u =>
    if u.1 = p && a < u.2.2.2 then some { s.unloadRec p u.2.1 u.2.2.1 with stamp := u.2.2.2 } else none) ++
  (s.provs.filterMap fun z =>
    match s.session? z.session with
    | some v =>
      if v.part = p && s.clk.ftime < z.expiry then
        some { s.mrec mkProvset p with
          session := z.session, layer := z.layer, head := z.head, count := z.toks.length, aux := z.pset, stamp := z.stamp
          body := leBytes 8 z.tree.toNat ++ leBytes 8 z.qpos ++ leBytes 16 z.expiry ++ z.toks.flatMap tokenRec }
      else none
    | none => none) ++
  (s.twin.grainStamps.filterMap fun g =>
    if s.ownerOfGrain g.1 == some p && decide (a < g.2) then some { s.grainsRec p g.1 1 with stamp := g.2 } else none)

/-- Send the resync copy after a (R333, R334), partition by partition. -/
def State.sendResync (s : State) (a : Nat) : State :=
  s.each (List.range 16) fun t p =>
    let l := ((t.sessions.filter fun x => x.2.part == p).flatMap fun x => t.resyncSession a x.1 x.2) ++ t.resyncPart a p ++
      (t.twin.changes.flatMap fun c => t.completionRec p c.reply)
    let n := (l.map fun r => (t.recBytes r).length).foldl (· + ·) 0
    if l.isEmpty then t else (t.sendRecs p l).count cResyncBytes n

/-- Ask the twin for every CONTAINED object held, on entering PAIRED (12 R395). -/
def State.requestRepairs (s : State) : State :=
  (s.each s.twin.repairs fun t r => t.askRepair (t.repairPage r)).each s.twin.repairGr fun t g =>
    t.askRepair (t.repairGrain g)

/-- Enter PAIRED (R329). -/
def State.enterPaired (s : State) : State :=
  ({ s with twin := { s.twin with state := twPaired, heardAt := s.clk.ftime, refusals := 0 } }).requestRepairs

/-- REJOIN: digests and stamp are exchanged (R333, R315). A JOINING node whose twin accepts discards what is later than a
and becomes RESYNC_DST; the survivor becomes RESYNC_SRC and sends the copy. -/
def doRejoin (peerDigest : Digest) (peerStamp : Nat) (accepted : Bool) (s : State) : State :=
  if !(s.serving && s.pairEn) then s
  else if peerDigest != s.cfgDigest then
    if s.twin.state = twPaired then { s with twin := { s.twin with cfgMismatch := true } } else s
  else if !accepted then s
  else if s.twin.state = twJoining then
    let t := s.discardAfter s.rejoinStamp
    { t with twin := { t.twin with state := twDst } }
  else if s.twin.state = twSolo || s.twin.state = twSrc then
    let t := { s with twin := { s.twin with state := twSrc, s0 := s.clk.ftime, resyncA := peerStamp } }
    t.sendResync peerStamp
  else s
/-- REJOIN. -/
def execRejoin (peerDigest : BitVec 384) (peerStamp : Nat) (accepted : Bool) (s : State) :
    Host.Outcome State Fault Refusal :=
  run s (doRejoin peerDigest peerStamp accepted)

/-- Does class 1 to the twin hold a frame that is queued or not acknowledged? -/
def State.mirrorBusy (s : State) : Bool :=
  !(s.tx s.twinNode 1).sent.isEmpty || !(s.queuedOf s.twinNode 1).isEmpty

/-- RESYNC_COMPLETE: every record up to s0 is applied, and the node enters PAIRED (R333). -/
def doResyncComplete (s : State) : State :=
  if s.serving && (s.twin.state == twDst || (s.twin.state == twSrc && !s.mirrorBusy)) then s.enterPaired else s
/-- RESYNC_COMPLETE. -/
def execResyncComplete (s : State) : Host.Outcome State Fault Refusal := run s doResyncComplete

/-! ### Events of the twin states -/

/-- MIRROR_KEEPALIVE: nothing was sent on class 1 for 5 µs (R317). The message travels under the lowest partition whose
mirror slot holds a key (assumption 25). -/
def doMirrorKeepalive (s : State) : State :=
  if s.serving && s.twin.state == twPaired && decide (s.twin.sentAt + 5000 ≤ s.clk.ftime) then
    match (List.range 16).find? fun p => s.mirrorKey p with
    | some p => s.sendMirror p []
    | none => s
  else s
/-- MIRROR_KEEPALIVE. -/
def execMirrorKeepalive (now : Nat) (s : State) : Host.Outcome State Fault Refusal :=
  run s fun t => doMirrorKeepalive (t.upTo now)

/-- WRITER_APPLY_TIMEOUT: a change has waited 4,540 µs for APPLIED (R327). -/
def doWriterApplyTimeout (s : State) : State :=
  if s.serving && s.twin.state == twPaired &&
      s.twin.changes.any (fun c => decide (c.sentAt + 4540000 ≤ s.clk.ftime)) then s.enterSolo
  else s
/-- WRITER_APPLY_TIMEOUT. -/
def execWriterApplyTimeout (now : Nat) (s : State) : Host.Outcome State Fault Refusal :=
  run s fun t => doWriterApplyTimeout (t.upTo now)

/-- TWIN_SILENCE_TIMEOUT: 20 µs without class 1, the bond and the board link silent, and no DIR_QUERY reply in 50 µs
(R330). -/
def doTwinSilenceTimeout (boardSilent queryAnswered : Bool) (s : State) : State :=
  if s.serving && s.twin.state == twPaired && boardSilent && !queryAnswered &&
      decide (s.twin.heardAt + 70000 ≤ s.clk.ftime) then s.enterSolo
  else s
/-- TWIN_SILENCE_TIMEOUT. -/
def execTwinSilenceTimeout (boardSilent queryAnswered : Bool) (now : Nat) (s : State) :
    Host.Outcome State Fault Refusal :=
  run s fun t => doTwinSilenceTimeout boardSilent queryAnswered (t.upTo now)

/-- JOINING_TIMEOUT: the twin is silent for 100 ms after service would open (R329). -/
def doJoiningTimeout (s : State) : State :=
  if s.serving && s.twin.state == twJoining && decide (s.twin.joinAt + 100000000 ≤ s.clk.ftime) then s.enterSolo else s
/-- JOINING_TIMEOUT. -/
def execJoiningTimeout (now : Nat) (s : State) : Host.Outcome State Fault Refusal :=
  run s fun t => doJoiningTimeout (t.upTo now)

end Sys2Proof.Machine
end

