-- ==== Sys2Proof/Machine/Rx.lean ====
section
/-! DEFINITION. Receiving frames: the steps of 08 R239, the receiver's flows (R252 to R257), landing (09 R283), held
frames and pause (09 R288, R308), and what each opcode does (R242 to R246, R267 to R269). -/

namespace Sys2Proof.Machine

/-! ### Steps 1 to 4 (R235, R239) -/

/-- The port counter of the first check of steps 1 to 4 that a frame fails. -/
def State.wireFault (s : State) (f : Frame) : Option Nat :=
  let h := f.hdr
  if !f.fcsOk then some pcFcs
  else if f.size < 64 then some pcRunt
  else if 9216 < f.size then some pcOversize
  else if f.tpid != 0x8100#16 || f.vid.toNat != s.vid then some pcUntagged
  else if !f.macOk || f.ipVer != 6#4 || f.ipNext != 17#8 || f.ipDst != s.address || f.udpDst.toNat != s.udpPort then
    some pcOther
  else if f.size != 134 + f.body.length || 8192 < f.body.length || f.udpSum == .bad || h.ver != 1#4 ||
      (h.void && h.sync && h.offset.toNat % 2 ^ 24 != h.seq.toNat) then some pcMalformed
  else if !s.idValid || h.dst.toNat != s.nodeId || h.src.toNat == s.nodeId then some pcMisdelivered
  else none

/-! ### Step 5 (R239, R240, R254, R256) -/

/-- Is a frame an ACK or NAK? -/
def isCtl (h : Hdr) : Bool := !h.void && (h.opcode == opAck || h.opcode == opNak)

/-- Is a frame a VOID frame with SYNC? -/
def isVoidSync (h : Hdr) : Bool := h.void && h.sync

/-- Is a job slot bound to a partition (11 R371)? -/
def State.jobSlotOf (s : State) (k p : Nat) : Bool := decide (17 ≤ k) && s.ownerOfKey k == some p

/-- Is a frame's slot the one that R240 calls for? The mirror slot of a partition is bound to it too, and carries what its
twin forwards for a mailbox (11 R371, assumption 17). -/
def State.slotBound (s : State) (h : Hdr) : Bool :=
  let k := h.keySlot.toNat
  let w := h.window.toNat
  if h.void || [opAck, opNak, opDirUpdate, opDirQuery].contains h.opcode then k == 0
  else if h.opcode = opMirror || h.opcode = opMirrorAck then decide (1 ≤ k ∧ k ≤ 16)
  else if h.opcode = opHedgeClaim then decide (17 ≤ k) && (s.ownerOfKey k).isSome
  else if h.opcode = opWriteImm && 0x10000 ≤ w && w ≤ 0x10010 then
    (if w = 0x10000 then k == 0 else k == w - 0x10000 || s.jobSlotOf k (w - 0x10001))
  else if w < 0x10000 && winValid (s.window w) then
    (match s.ownerOfWindow w with | some p => s.jobSlotOf k p | none => true)
  else true

/-- At most once in 2 µs. -/
def restOver (last : Option Nat) (now : Nat) : Bool := match last with | some t => decide (t + 2000 ≤ now) | none => true

/-- A NAK with SYNC becomes due on an UNSYNCED flow, unless one is due already or left less than 2 µs ago (R253). -/
def State.nakSyncDue (s : State) (h : Hdr) : State :=
  let x := s.rx h.src.toNat h.rclass.toNat
  if x.syncDue.isNone && restOver x.syncNak s.clk.ftime then
    s.setRx h.src.toNat h.rclass.toNat { x with syncDue := some h.seq }
  else s

/-- A frame fails step 5: counted; a key NAK becomes due unless it is an ACK or NAK (R256). -/
def State.authFailed (s : State) (h : Hdr) : State :=
  let t := s.count cAuthFail 1
  let x := t.rx h.src.toNat h.rclass.toNat
  if isCtl h || x.keyDue.isSome || !restOver x.keyNak s.clk.ftime then t
  else t.setRx h.src.toNat h.rclass.toNat { x with keyDue := some h.seq }

/-- The extended sequence of a frame (R254). -/
def State.extOf (s : State) (h : Hdr) : Nat :=
  if isVoidSync h then h.offset.toNat else extendSeq (s.rx h.src.toNat h.rclass.toNat).e h.seq

/-- Step 5: the plaintext of a frame that passes. -/
def State.authenticate (s : State) (f : Frame) : State × Option (List Byte) :=
  let h := f.hdr
  let src := h.src.toNat
  if !(s.rx src h.rclass.toNat).synced && !isVoidSync h && !isCtl h then ((s.count cUnsync 1).nakSyncDue h, none)
  else if !s.slotBound h then (s.authFailed h, none)
  else
    match s.openFrame f (s.extOf h) with
    | none => (s.authFailed h, none)
    | some (pt, old) =>
      let t := if old then s.count cOldKeyRx 1 else s
      let t := t.clearUnreachable src
      let t := if h.rclass = 1#2 && src == t.twinNode then
          { t with twin := { t.twin with heardAt := t.clk.ftime } } else t
      (t, some pt)

/-! ### Steps 8 to 11 -/

/-- Steps 8 and 9 for what a WINDOW field names: a window, or a mailbox, which has the partition check alone (R272). -/
def State.namedCheck (s : State) (src : Nat) (op : BitVec 8) (w : Nat) (gen : BitVec 16) (range : Option (Nat × Nat)) :
    Nat :=
  if w < 0x10000 then s.windowCheck src op w gen range
  else if 0x10001 ≤ w && w ≤ 0x10010 && !s.partOpen (w - 0x10001) then stFenced
  else stOk

/-- Is an opcode's WINDOW on a class not one of this node's own: a response copies it from its request (R240)? -/
def copiesWindow (h : Hdr) : Bool :=
  h.opcode == opReadResp || h.opcode == opAttendResp || (h.opcode == opWriteImm && h.rclass == 2#2)

/-- Steps 8 and 9 of a frame (R239, R272). A response's WINDOW is one of its responder (assumption 113), a HEDGE is checked
under R338 with ORIG_SRC, and requests are checked at their LAST frame. -/
def State.frameWindow (s : State) (h : Hdr) (pt : List Byte) : Nat :=
  if requestOpcodes.contains h.opcode || h.opcode = opHedge || copiesWindow h ||
      (definedOpcodes.contains h.opcode && !windowedOpcodes.contains h.opcode) then stOk
  else
    s.namedCheck h.src.toNat h.opcode h.window.toNat h.gen
      (if h.opcode = opWrite || h.opcode = opWriteImm then some (h.offset.toNat, pt.length)
       else if h.opcode = opReadReq then some (h.offset.toNat, rdLen pt)
       else none)

/-- Opcodes whose OFFSET counts bytes within the message (R240, 10 R319, R337). -/
def countsOffset (op : BitVec 8) : Bool :=
  [opReadResp, opAttendResp, opAttend, opAppend, opIngest, opHedge, opMirror].contains op

/-- The WINDOW that an opcode admits at step 10 (R272). -/
def windowField (h : Hdr) : Bool :=
  let w := h.window.toNat
  if h.opcode = opWriteImm then
    (if h.rclass = 0#2 then decide (0x10000 ≤ w ∧ w ≤ 0x10010) else decide (w < 0x10000))
  else if windowedOpcodes.contains h.opcode then decide (w < 0x10000)
  else h.window == 0#20 && h.gen == 0#16

/-- The IMM that an opcode admits (R240, 10 R319, R323, R340, R348). -/
def immField (h : Hdr) : Bool :=
  if [opWrite, opAttend, opAttendResp, opHedge, opMirror].contains h.opcode then h.imm == 0#32
  else if h.opcode = opWriteImm then
    (h.last || h.imm == 0#32) && (h.rclass != 0#2 || h.imm.toNat / 65536 == 0)
  else if h.opcode = opAppend || h.opcode = opCommit || h.opcode = opIngest then fld h.imm 0 8 == 0
  else if h.opcode = opMirrorAck then decide (h.imm.toNat < 16)
  else if h.opcode = opHedgeClaim then hcOk h.imm
  else if h.opcode = opDirQuery then fld h.imm 1 7 == 0
  else true

/-- Single-frame messages and their payloads (R242, R245, R450; 10 R323, R340, R348). -/
def frameForm (h : Hdr) (pt : List Byte) : Bool :=
  let single := h.first && h.last
  if h.opcode = opReadReq then
    single && pt.length == 16 && decide (1 ≤ rdLen pt ∧ rdLen pt ≤ 1048576) && (pt.drop 8).all (· == 0#8)
  else if h.opcode = opCancel || h.opcode = opHedgeClaim then single && pt.isEmpty && h.offset == 0#40
  else if h.opcode = opMirrorAck then
    single && pt.length == 8 && h.offset == 0#40 && h.keySlot.toNat == h.imm.toNat % 16 + 1
  else if h.opcode = opDirQuery then single && dirQueryOk h.imm pt
  else if h.opcode = opWriteImm && h.rclass = 0#2 then single && decide (pt.length ≤ 1024) && h.offset == 0#40
  else if h.opcode = opCommit then h.offset == 0#40
  else true

/-- Twin-only opcodes (R240). -/
def twinOnly (op : BitVec 8) : Bool := [opHedge, opHedgeClaim, opMirror, opMirrorAck].contains op

/-- Opcodes that may carry FWD (10 R326). -/
def mayForward (h : Hdr) : Bool :=
  [opAppend, opCommit, opIngest].contains h.opcode || (h.opcode == opWriteImm && h.rclass == 0#2)

/-- Step 10, without framing: opcode, class, RsvdZ fields, flags, sender (R239, R240). -/
def State.frameFields (s : State) (h : Hdr) (pt : List Byte) : Bool :=
  definedOpcodes.contains h.opcode && (opcodeClasses h.opcode).contains h.rclass.toNat && h.rsvd == 0#44 && !h.sync &&
    (h.status == 0#8 || h.opcode == opReadResp) && h.ctlCtr == 0#32 && windowField h && immField h && frameForm h pt &&
    (!h.fwd || mayForward h) && (!twinOnly h.opcode || (s.pairEn && h.src.toNat == s.twinNode))

/-- The limit of a message's payload (R241). -/
def payloadLimit (op : BitVec 8) : Nat := if op = opDirUpdate then 1048608 else 1048576

/-- Framing (R241): a frame against the flow's open message. -/
def framingOk (h : Hdr) (pt : List Byte) : Option OpenMsg → Bool
  | none => h.first && (!countsOffset h.opcode || h.offset == 0#40) && decide (pt.length ≤ payloadLimit h.opcode)
  | some m =>
    !h.first && h.opcode == m.hdr.opcode && h.window == m.hdr.window && h.gen == m.hdr.gen &&
      h.keySlot == m.hdr.keySlot && decide (m.payload.length + pt.length ≤ payloadLimit h.opcode) &&
      (!countsOffset h.opcode || h.offset.toNat == m.payload.length)

/-- Does the PTAG stand for the payload (step 11)? -/
def ptagOk (h : Hdr) (pt : List Byte) : Bool := h.ptag == crc32c pt

/-! ### Landing (09 R282, R283) -/

/-- What becomes of a frame in steps 8 to 12: accepted, refused with a status, or held unaccepted. -/
inductive RxRes where
  | ok (t : State)
  | bad (st : Nat) (t : State)
  | hold

/-- The ring entry of an OpenMsg without a queue. -/
def noQueue : Nat := 1048576

/-- The open message of a flow is discarded: its ring entry and landing space are free (R253, R257, 09 R283). -/
def State.dropOpen (s : State) (src c : Nat) : State :=
  let x := s.rx src c
  match x.msg with
  | none => s
  | some m =>
    let t := s.setRx src c { x with msg := none }
    if m.queue = noQueue then t
    else
      t.freeRing m.queue m.ring

/-- Is a piece of a landing area still taken: until its message's ring entry is released, or, of an admitted message, until
its query block stands in staging, that is, until each of its jet commands has a slot (R291, R292)? -/
def State.landHeld (s : State) (x : LandExt) : Bool :=
  ((s.queue x.queue).ring.any fun e => e.1 == x.ring && !e.2) &&
    !(s.slc.reqs.any fun r => !r.2.msg.isHost && r.2.msg.queue == x.queue && r.2.msg.ring == x.ring &&
      !(s.slc.cmds.any fun c => c.2.req == r.1 && c.2.slot.isNone))

/-- The pieces of a partition's landing area that are taken. -/
def State.landTaken (s : State) (p : Nat) : List LandExt := s.slc.land.filter fun x => x.part == p && s.landHeld x

/-- The grains of a partition's landing area, as first grains and counts. -/
def State.landArea (s : State) (p : Nat) : List (Nat × Nat) :=
  (s.allocs.filter fun a => decide (a.use = Use.landing p)).map fun a => (a.first, a.len)

/-- The bytes of a partition's landing area. -/
def State.landSize (s : State) (p : Nat) : Nat := ((s.landArea p).map fun a => 512 * a.2).foldl (· + ·) 0

/-- Room in a partition's landing area. -/
def State.landRoom (s : State) (p n : Nat) : Bool :=
  decide (((s.landTaken p).map (·.len)).foldl (· + ·) 0 + n ≤ s.landSize p)

/-- Free pieces of an area for n bytes, lowest first, from a byte on; `fuel` bounds them. -/
def landFit (busy : List (Nat × Nat)) (size : Nat) : Nat → Nat → Nat → List (Nat × Nat)
  | 0, _, _ => []
  | fuel + 1, a, n =>
    if n = 0 || size ≤ a then []
    else match busy.find? fun r => decide (r.1 ≤ a ∧ a < r.1 + r.2) with
      | some r => landFit busy size fuel (r.1 + r.2) n
      | none =>
        let k := min n (((busy.map (·.1)).filter fun b => decide (a < b)).foldl min size - a)
        (a, k) :: landFit busy size fuel (a + k) (n - k)

/-- The addresses of the bytes of an area from an offset on, piece by piece with its length. -/
def areaPieces : List (Nat × Nat) → Nat → Nat → List (Nat × Nat)
  | [], _, _ => []
  | (g, n) :: t, off, len =>
    if len = 0 then []
    else if off < 512 * n then
      (512 * g + off, min len (512 * n - off)) :: areaPieces t 0 (len - min len (512 * n - off))
    else areaPieces t (off - 512 * n) len

/-- Write bytes into pieces of memory, in order. -/
def State.writePieces (s : State) : List (Nat × Nat) → List Byte → State
  | [], _ => s
  | p :: t, b => (s.writeGrains p.1 (b.take p.2)).writePieces t (b.drop p.2)

/-- Take landing room for a frame's payload and write it there, into the lowest free bytes of the area (R283, assumption
58). -/
def State.takeLand (s : State) (p q ring : Nat) (b : List Byte) : State :=
  let held := s.slc.land.filter s.landHeld
  let busy := (held.filter (·.part == p)).map fun x => (x.off, x.len)
  let new := landFit busy (s.landSize p) (2 * busy.length + 2) 0 b.length
  let ext (e : Nat × Nat) : LandExt := { part := p, queue := q, ring := ring, off := e.1, len := e.2 }
  let t := { s with slc := { s.slc with land := held ++ new.map ext } }
  t.writePieces (new.flatMap fun (e : Nat × Nat) => areaPieces (s.landArea p) e.1 e.2) b

/-- Does a queue land messages: FABRIC, not stopping (R281, R282)? -/
def Queue.lands (x : Queue) : Bool := qType x.ctx == 1 && !x.stopping

/-- Claim a ring entry of a queue: its number, and the state. -/
def State.claimRing (s : State) (q : Nat) : Nat × State :=
  let x := s.queue q
  (x.nextId, s.setQueue q { x with
    ctx := setField x.ctx 96 16 (qProd x.ctx + 1), ring := x.ring ++ [(x.nextId, false)], nextId := x.nextId + 1 })

/-- A landed message of a fabric source. -/
def State.landMsg (s : State) (h : Hdr) (m : OpenMsg) : State :=
  let msg : Msg :=
    { id := s.slc.nextMsg, origin := .fabric h.src m.hdr.keySlot m.hdr.window m.hdr.gen m.hdr.imm m.hdr.fwd,
      opcode := m.hdr.opcode, part := (s.ownerOfQueue m.queue).getD 0, queue := m.queue, ring := m.ring,
      payload := m.payload, offset := m.hdr.offset.toNat, landAt := s.clk.ftime, waitAt := none, dlNs := none }
  let t := { s with slc := { s.slc with nextMsg := s.slc.nextMsg + 1 } }
  t.updQueue m.queue fun x => { x with landed := x.landed ++ [msg] }

/-- The flow's open message. -/
def State.setOpen (s : State) (src c : Nat) (m : Option OpenMsg) : State := s.setRx src c { s.rx src c with msg := m }

/-- The checks of a whole request message, at its LAST frame: steps 8 and 9 under the FIRST frame's fields, its queue,
and its PTAGs (R239, R282). -/
def State.requestStatus (s : State) (src : Nat) (m : OpenMsg) : Nat :=
  let h := m.hdr
  checks
    [(s.namedCheck src h.opcode h.window.toNat h.gen none == stOk, s.namedCheck src h.opcode h.window.toNat h.gen none),
     (m.queue != noQueue, stFormat), (!m.tagBad, stTag)]

/-- A frame of a request message that fails step 10: its LAST frame meets steps 8 and 9 first (R239). -/
def State.badRequest (s : State) (h : Hdr) (o : Option OpenMsg) : Nat :=
  let w := match o with | some m => m.hdr | none => h
  let st := s.namedCheck h.src.toNat w.opcode w.window.toNat w.gen none
  if h.last && st != stOk then st else stFormat

/-- A frame of a request message (R239, R282, R283). -/
def State.rxRequest (s : State) (h : Hdr) (pt : List Byte) : RxRes :=
  let src := h.src.toNat
  let c := h.rclass.toNat
  let x := s.rx src c
  let bad := !ptagOk h pt
  if !s.frameFields h pt || !framingOk h pt x.msg then .bad (s.badRequest h x.msg) s
  else
    let finish (t : State) (m : OpenMsg) : RxRes :=
      if h.last then
        let st := t.requestStatus src m
        if st = stOk then .ok ((t.setOpen src c none).landMsg h m) else .bad st (t.setOpen src c (some m))
      else .ok (t.setOpen src c (some m))
    match x.msg with
    | some m =>
      let m' := { m with payload := m.payload ++ pt, tagBad := m.tagBad || bad }
      if m.queue = noQueue then finish s m'
      else
        let p := (s.ownerOfQueue m.queue).getD 0
        if s.landRoom p pt.length then finish (s.takeLand p m.queue m.ring pt) m' else .hold
    | none =>
      let m : OpenMsg := { hdr := h, payload := pt, queue := noQueue, ring := 0, tagBad := bad }
      match s.ownerOfWindow h.window.toNat with
      | none => finish s m
      | some p =>
        let q := s.fabricQueue p src
        let k := s.queue q
        if !k.lands || s.ownerOfQueue q != some p then
          (if h.last then finish s m else .bad stFormat s)
        else if !(decide (qUsed k.ctx < qSize k.ctx) && s.landRoom p pt.length) then .hold
        else
          let (r, t) := s.claimRing q
          finish (t.takeLand p q r pt) { m with queue := q, ring := r }

/-- A READ_REQ lands as a message of one frame, once its checks have passed (R242, R282). -/
def State.rxRead (s : State) (h : Hdr) (pt : List Byte) : RxRes :=
  match s.ownerOfWindow h.window.toNat with
  | none => .bad stRevoked s
  | some p =>
    let q := s.fabricQueue p h.src.toNat
    let k := s.queue q
    if !k.lands || s.ownerOfQueue q != some p then .bad stFormat s
    else if !ptagOk h pt then .bad stTag s
    else if !(decide (qUsed k.ctx < qSize k.ctx) && s.landRoom p pt.length) then .hold
    else
      let (r, t) := s.claimRing q
      .ok ((t.takeLand p q r pt).landMsg h { hdr := h, payload := pt, queue := q, ring := r, tagBad := false })

/-! ### Effects (step 12) -/

/-- The address in the grain range of a byte of a window. -/
def State.windowAddr (s : State) (w off : Nat) : Nat := 512 * winBase (s.window w) + off

/-- Write bytes into a window: refused whole when a partly written grain fails its checks, else visible and mirrored
(R267, 12 R384, 10 R318). -/
def State.writeWindow (s : State) (w off : Nat) (b : List Byte) : Option State :=
  let a := s.windowAddr w off
  match s.writeRefused eccNone a b with
  | some _ => none
  | none => some ((s.writeGrains a b).mirrorGrains ((s.ownerOfWindow w).getD 0) a b.length)

/-- What a write that is refused leaves: the event, the grain CONTAINED (12 R384). -/
def State.writeFailed (s : State) (w off : Nat) (b : List Byte) : State :=
  match s.writeRefused eccNone (s.windowAddr w off) b with
  | some e => s.partialRefused e
  | none => s

/-- Deliver a WRITE_IMM's immediate to its window's completion queue (R268). -/
def State.deliverImm (s : State) (h : Hdr) : State :=
  s.writeCompletion (winCq (s.window h.window.toNat)) stOk 0 h.src.toNat h.window.toNat h.imm

/-- A mailbox command from its bytes: opcode and header (14 R451). -/
def parseCmd (mb : Nat) (path : Path) (seq : BitVec 16) (b : List Byte) : BitVec 16 × AgtanCmd :=
  let v := leAt b 0 16
  (BitVec.ofNat 16 (field v 0 16),
   { mb := mb, path := path, seq := seq, len := BitVec.ofNat 10 (field v 16 10), part := BitVec.ofNat 4 (field v 32 4),
     rsvd := BitVec.ofNat 98 (field v 26 6 + field v 36 92 * 64), body := b.drop 16 })

/-- Is a command one of the transport path? -/
def onTransport (c : AgtanCmd) : Bool := match c.path with | .wt .. | .fwd .. => true | _ => false

/-- A mailbox command over transport (14 R450): the kept response again, NO_RESOURCE beyond 8 unanswered, or accepted. -/
def State.takeMailbox (s : State) (h : Hdr) (pt : List Byte) : RxRes :=
  let mb := h.window.toNat - 0x10000
  let seq := h.imm.extractLsb' 0 16
  let m := s.mbox mb
  let again := if h.fwd then none else m.kept.find? fun k => k.1 == h.src.toNat && k.2.1 == seq
  match again with
  | some k => .ok (s.sendResp h.src h.keySlot h.window h.imm k.2.2)
  | none =>
    if 8 ≤ ((m.accepted ++ m.parked).filter fun x => onTransport x.2).length then .bad stNoRes s
    else
      let path : Path := if h.fwd then .fwd h.src h.keySlot h.window h.imm else .wt h.src h.keySlot h.window h.imm
      .ok (s.setMbox mb { m with accepted := m.accepted ++ [parseCmd mb path seq pt] })

/-- The forward that a completion of the twin answers: its slot, window, and tag (10 R326). -/
def State.forwardOf (s : State) (h : Hdr) : Option Fwd :=
  s.twin.forwards.find? fun f =>
    match f.msg, f.cmd with
    | some m, _ => h.rclass == 2#2 && h.src.toNat == s.twinNode && (match m.origin with
        | .fabric _ k w _ imm _ => k == h.keySlot && w == h.window && imm.toNat / 256 == h.imm.toNat / 256
        | _ => false)
    | _, some (_, c) => h.rclass == 0#2 && !h.fwd && s.isPeerNode h.src.toNat &&
        fwdFields c f.id == (h.keySlot, h.window, h.imm)
    | _, _ => false

/-- Is a frame the completion of a message that this node forwarded? -/
def State.isForwardDone (s : State) (h : Hdr) : Bool :=
  !h.void && h.opcode == opWriteImm && (h.rclass == 2#2 || (h.rclass == 0#2 && (s.forwardOf h).isSome))

/-- Relay the completion of a forward to the original source (R326). -/
def State.relay (s : State) (h : Hdr) (pt : List Byte) : State :=
  match s.forwardOf h with
  | some f => s.settleForward f (if h.rclass = 2#2 then h.imm.toNat % 256 else leAt pt 0 1) (pt.drop 16)
  | none => s

/-- A WRITE_IMM whose PTAG has passed. -/
def State.rxWriteImm (s : State) (h : Hdr) (pt : List Byte) : RxRes :=
  if s.isForwardDone h then .ok (s.relay h pt)
  else if h.rclass = 0#2 then s.takeMailbox h pt
  else
    let w := h.window.toNat
    if h.last && s.cqFree (winCq (s.window w)) == 0 then
      (match s.writeWindow w h.offset.toNat pt with
       | some _ => .hold
       | none => .bad stTag (s.writeFailed w h.offset.toNat pt))
    else
      match s.writeWindow w h.offset.toNat pt with
      | none => .bad stTag (s.writeFailed w h.offset.toNat pt)
      | some t => .ok (if h.last then t.deliverImm h else t)

/-- A whole message of the other opcodes, at its LAST frame: its first frame's header, its payload. -/
def State.rxMessage (s : State) (h : Hdr) (payload : List Byte) : RxRes :=
  if h.opcode = opHedge then (if hgOk payload then .ok (s.takeHedge h payload) else .bad stFormat s)
  else if h.opcode = opHedgeClaim then .ok (s.takeClaim h)
  else if h.opcode = opMirror then
    let (st, t) := s.takeMirror (h.keySlot.toNat - 1) payload
    if st = stOk then .ok t else .bad st s
  else if h.opcode = opMirrorAck then .ok (s.takeMirrorAck payload)
  else if h.opcode = opDirUpdate then
    let (t, st) := s.takeDirUpdate payload
    if st = stOk then .ok t else .bad st t
  else if h.opcode = opDirQuery then .ok (s.takeDirQuery h payload)
  else if h.opcode = opCancel then
    match s.ownerOfWindow h.window.toNat with
    | some p => .ok (s.cancelFabric h.src p h.imm)
    | none => .ok s
  else .ok s

/-- Steps 8 to 12 of an accepted frame of a message. -/
def State.rxSteps (s : State) (h : Hdr) (pt : List Byte) : RxRes :=
  let src := h.src.toNat
  let c := h.rclass.toNat
  let st := s.frameWindow h pt
  if requestOpcodes.contains h.opcode then s.rxRequest h pt
  else if st != stOk then .bad st s
  else if !definedOpcodes.contains h.opcode then .bad stFormat (s.count cBadOpcode 1)
  else
    let o := (s.rx src c).msg
    if !s.frameFields h pt || !framingOk h pt o then .bad stFormat s
    else if h.opcode = opReadReq then s.rxRead h pt
    else if !ptagOk h pt then .bad stTag s
    else
      let m : OpenMsg := match o with
        | some m => { m with payload := m.payload ++ pt }
        | none => { hdr := h, payload := pt, queue := noQueue, ring := 0, tagBad := false }
      let next (t : State) : State := t.setOpen src c (if h.last then none else some m)
      let r :=
        if h.opcode = opWrite then
          (match s.writeWindow h.window.toNat h.offset.toNat pt with
           | some t => RxRes.ok t
           | none => .bad stTag (s.writeFailed h.window.toNat h.offset.toNat pt))
        else if h.opcode = opWriteImm then s.rxWriteImm h pt
        else if h.last then s.rxMessage m.hdr m.payload
        else .ok s
      match r with
      | .ok t => .ok (next t)
      | .bad st t => .bad st t
      | .hold => .hold

/-! ### Step 7 (R253 to R257) -/

/-- A frame is accepted: E advances, and an ACK becomes due at once or with the 2 µs timer (R255). -/
def State.acceptRx (s : State) (h : Hdr) (e : Nat) : State :=
  let x := s.rx h.src.toNat h.rclass.toNat
  let due := h.acknow || decide (16 ≤ x.unacked + 1)
  s.setRx h.src.toNat h.rclass.toNat { x with
    e := e
    unacked := x.unacked + 1
    oldest := x.oldest <|> some s.clk.ftime
    ackDue := x.ackDue || due
    since := if x.refusal.isSome then x.since <|> some s.clk.ftime else none
    ackAfter := x.refusal.isSome && (x.ackAfter || due) }

/-- A refusal (R257): E advances, the open message is discarded, later frames of it up to its LAST are skipped. -/
def State.refuseRx (s : State) (h : Hdr) (st : Nat) : State :=
  let src := h.src.toNat
  let c := h.rclass.toNat
  let t := s.dropOpen src c
  let e := ((t.rx src c).e + 1) % 2 ^ 40
  let u := t.acceptRx h e
  u.setRx src c { u.rx src c with
    discard := !h.last
    refusal := some { status := BitVec.ofNat 8 st, seq := BitVec.ofNat 24 e, imm := h.seq.setWidth 32 } }

/-- The frame at E: a VOID frame, a frame of a discarded message, or one for steps 8 to 12. None: held unaccepted. -/
def State.rxInOrder (s : State) (h : Hdr) (pt : List Byte) : Option State :=
  let src := h.src.toNat
  let c := h.rclass.toNat
  let x := s.rx src c
  let e := (x.e + 1) % 2 ^ 40
  if h.void then
    let t := s.dropOpen src c
    some ((t.setRx src c { t.rx src c with discard := x.discard && !h.last && !h.sync }).acceptRx h e)
  else if x.discard then some ((s.setRx src c { x with discard := !h.last }).acceptRx h e)
  else
    match s.rxSteps h pt with
    | .hold => none
    | .ok t => some (t.acceptRx h e)
    | .bad st t => some (if x.refusal.isSome then s else t.refuseRx h st)

/-- A VOID frame with SYNC synchronises the flow (R253); a NAK that says that it is not is due no longer (R247). -/
def State.syncRx (s : State) (h : Hdr) : State :=
  let src := h.src.toNat
  let c := h.rclass.toNat
  let t := s.dropOpen src c
  (t.setRx src c { t.rx src c with synced := true, inc := h.imm, discard := false, syncDue := none }).acceptRx h
    ((h.offset.toNat + 1) % 2 ^ 40)

/-- A frame beyond E: discarded; a NAK for E becomes due, unless one left for the same E less than 2 µs ago (R253). -/
def State.oosRx (s : State) (h : Hdr) : State :=
  let t := s.count cOos 1
  let x := t.rx h.src.toNat h.rclass.toNat
  let again := match x.oosNak with | some (e, at_) => e == x.e && decide (s.clk.ftime < at_ + 2000) | none => false
  if again then t else t.setRx h.src.toNat h.rclass.toNat { x with oosDue := true }

/-- A duplicate: discarded and acknowledged at once (R253). -/
def State.dupRx (s : State) (h : Hdr) : State :=
  let t := s.count cDup 1
  let x := t.rx h.src.toNat h.rclass.toNat
  t.setRx h.src.toNat h.rclass.toNat { x with ackDue := true, ackAfter := x.refusal.isSome }

/-- Does a frame wait in the bond's reorder window: class 1 of the twin on a member port, 1 to 63 ahead of E (10 R316)? -/
def State.reorders (s : State) (f : Frame) : Bool :=
  let h := f.hdr
  let d := seqAhead (s.rx h.src.toNat h.rclass.toNat).e h.seq
  h.rclass == 1#2 && h.src.toNat == s.twinNode && s.pairEn && s.bond.contains f.port && !isVoidSync h &&
    decide (1 ≤ d ∧ d < 64)

/-- Steps 6 and 7 of a frame that has passed step 5. None: held unaccepted. -/
def State.rxSeq (s : State) (f : Frame) (pt : List Byte) : Option State :=
  let h := f.hdr
  let src := h.src.toNat
  let c := h.rclass.toNat
  if isCtl h then some (if h.opcode = opAck then s.takeAck src c h else s.takeNak src c h)
  else
    let x := s.rx src c
    let d := seqAhead x.e h.seq
    if isVoidSync h && (!x.synced || x.inc != h.imm || decide (1 ≤ d ∧ d < 2 ^ 23)) then some (s.syncRx h)
    else if s.reorders f then
      some (if s.wt.reorder.any fun g => g.hdr.seq == h.seq then s
            else { s with wt := { s.wt with reorder := s.wt.reorder ++ [f] } })
    else if d = 0 then s.rxInOrder h pt
    else if d < 2 ^ 23 then some (s.oosRx h)
    else some (s.dupRx h)

/-- Steps 5 to 12 of a frame. None: held unaccepted. -/
def State.rxFrame (s : State) (f : Frame) : Option State :=
  match s.authenticate f with
  | (t, none) => some t
  | (t, some pt) => t.rxSeq f pt

/-- Give the frames of the reorder window that have come to E to the flow, in order; those below E are gone. `fuel`
bounds them. -/
def State.drainReorder (s : State) : Nat → State
  | 0 => s
  | fuel + 1 =>
    let e := (s.rx s.twinNode 1).e
    match s.wt.reorder.find? fun f => seqAhead e f.hdr.seq == 0 with
    | none =>
      let l := s.wt.reorder.filter fun f => decide (seqAhead e f.hdr.seq < 64)
      { s with wt := { s.wt with reorder := l } }
    | some f =>
      let l := s.wt.reorder.filter fun g => g.hdr.seq != f.hdr.seq
      let t := { s with wt := { s.wt with reorder := l } }
      match t.rxFrame f with
      | some u => u.drainReorder fuel
      | none => t

/-! ### Held frames and pause (09 R283, R288, R308) -/

/-- The bytes of frames. -/
def frameBytes (l : List Frame) : Nat := (l.map (·.size)).foldl (· + ·) 0

/-- The class 3 bytes that a port's ingress buffer holds. -/
def Port.heldBytes (x : Port) : Nat := frameBytes x.held

/-- The bytes that a class holds in a port's ingress buffer: class 3 the frames that wait to land, class 1 those of the
bond's reorder window that came by the port (assumption 143). -/
def State.ingressBytes (s : State) (p c : Nat) : Nat :=
  if c = 1 then frameBytes (s.wt.reorder.filter (·.port == p)) else (s.port p).heldBytes

/-- Pause and resume the peer by what a class holds (R308): XOFF above the first bound, XON below the second. -/
def State.paceClass (s : State) (p c xoff xon : Nat) : State :=
  let n := s.ingressBytes p c
  let off := Tbl.getD (s.port p).xoffSent c false
  let t := s.updPort p fun y => { y with ingress := Tbl.set y.ingress c n }
  if !off && decide (xoff < n) then
    ((t.updPort p fun y => { y with xoffSent := Tbl.set y.xoffSent c true }).countPort p (16 + c) 1).emit
      (.pfc p (s.pcp c) true)
  else if off && decide (n < xon) then
    (t.updPort p fun y => { y with xoffSent := Tbl.set y.xoffSent c false }).emit (.pfc p (s.pcp c) false)
  else t

/-- Class 3 of a port: XOFF above 1,536 KiB, XON below 1,024 KiB (R308). -/
def State.paceIngress (s : State) (p : Nat) : State := s.paceClass p 3 1572864 1048576

/-- Class 1 of the bond's ports: XOFF above 512 KiB, XON below 256 KiB (R308). -/
def State.paceMirror (s : State) : State := s.each s.mirrorPorts fun t p => t.paceClass p 1 524288 262144

/-- Does a frame at the head of a port's ingress buffer wait for a completion queue that is still full? -/
def State.waitsForCq (s : State) (f : Frame) : Bool :=
  let h := f.hdr
  !h.void && h.opcode == opWriteImm && h.rclass == 3#2 && h.last && s.cqFree (winCq (s.window h.window.toNat)) == 0 &&
    seqAhead (s.rx h.src.toNat 3).e h.seq == 0

/-- Hold a class 3 frame in the port's ingress buffer, behind those it holds (R283; assumption 26). SLC_LAND_STALL counts it
unless what holds it is an immediate that waits for a completion entry (R288, R312). -/
def State.holdFrame (s : State) (f : Frame) : State :=
  let t := s.updPort f.port fun x => { x with
    held := x.held ++ [f], heldSince := if x.held.isEmpty then some s.clk.ftime else x.heldSince }
  let t := if s.waitsForCq ((s.port f.port).held.head?.getD f) then t else t.countPort f.port pcLandStall 1
  t.paceIngress f.port

/-- Take the first frame out of a port's ingress buffer. -/
def State.unhold (s : State) (p : Nat) : State :=
  s.updPort p fun x => { x with
    held := x.held.tail, heldSince := if x.held.tail.isEmpty then none else some s.clk.ftime }

/-- Land the held frames of a port in order, as far as there is room; `fuel` bounds them. -/
def State.drainHeld (s : State) (p : Nat) : Nat → State
  | 0 => s
  | fuel + 1 =>
    match (s.port p).held with
    | [] => s
    | f :: _ =>
      match (s.unhold p).rxFrame f with
      | some t => t.drainHeld p fuel
      | none => s

/-- A frame arrives at a port in service (R239): dropped and counted, held, or processed. -/
def State.receive (s : State) (f : Frame) : State :=
  if !(s.serving && decide (f.port < 24) && (s.port f.port).up) then s
  else
    match s.wireFault f with
    | some n => s.countPort f.port n 1
    | none =>
      if f.hdr.rclass = 3#2 && !isCtl f.hdr && !(s.port f.port).held.isEmpty then s.holdFrame f
      else
        match s.rxFrame f with
        | none => s.holdFrame f
        | some t => if f.hdr.rclass = 1#2 then (t.drainReorder 64).paceMirror else t

/-- LANDING_RESUME: a ring entry or landing room has freed (R283). -/
def doLandingResume (p : Nat) (s : State) : State :=
  if s.serving && decide (p < 24) then (s.drainHeld p (s.port p).held.length).paceIngress p else s
/-- LANDING_RESUME. -/
def execLandingResume (port : Nat) (s : State) : Host.Outcome State Fault Refusal := run s (doLandingResume port)

/-- A held WRITE_IMM that has waited 1 ms is refused: its write stays visible, OVERFLOW counts it (R288). -/
def State.cqExpired (s : State) (f : Frame) : State :=
  match s.authenticate f with
  | (t, none) => t
  | (t, some pt) =>
    let h := f.hdr
    if (t.rx h.src.toNat h.rclass.toNat).refusal.isSome then t
    else
      let w := h.window.toNat
      let u := (t.writeWindow w h.offset.toNat pt).getD t
      let u := u.updQueue (winCq (t.window w)) fun q => { q with
        ctx := setField q.ctx 144 32 (satAdd 32 (qOverflow q.ctx) 1) }
      u.refuseRx h stNoRes

/-- CQ_HOLD_EXPIRY (R288). -/
def doCqHoldExpiry (p : Nat) (s : State) : State :=
  match (s.port p).held, (s.port p).heldSince with
  | f :: _, some at_ =>
    if s.serving && s.waitsForCq f && decide (at_ + 1000000 ≤ s.clk.ftime) then
      let t := (s.unhold p).cqExpired f
      (t.drainHeld p (t.port p).held.length).paceIngress p
    else s
  | _, _ => s
/-- CQ_HOLD_EXPIRY. -/
def execCqHoldExpiry (port now : Nat) (s : State) : Host.Outcome State Fault Refusal :=
  run s fun t => doCqHoldExpiry port (t.upTo now)

/-! ### The frame commands

Each takes the frames of its row: another frame changes nothing there (WellFormed.lean). -/

/-- The frames of an opcode's row. -/
def isFrameOf (op : BitVec 8) (f : Frame) : Bool := !f.hdr.void && f.hdr.opcode == op

/-- Receive a frame of a row. -/
def doFrame (mine : Bool) (f : Frame) (s : State) : State := if mine then s.receive f else s

/-- WRITE (R267). -/
def execWrite (f : Frame) (s : State) : Host.Outcome State Fault Refusal := run s (doFrame (isFrameOf opWrite f) f)
/-- WRITE_IMM to a window (R268). -/
def execWriteImm (f : Frame) (s : State) : Host.Outcome State Fault Refusal :=
  run s (doFrame (isFrameOf opWriteImm f && f.hdr.rclass == 3#2) f)
/-- WRITE_IMM to a mailbox (R246, 14 R450). -/
def execWriteImmMailbox (f : Frame) (s : State) : Host.Outcome State Fault Refusal :=
  run s (doFrame (isFrameOf opWriteImm f && f.hdr.rclass == 0#2) f)
/-- FORWARD_COMPLETION (10 R326): the twin's completion WRITE_IMM, or its mailbox response. -/
def execForwardCompletion (f : Frame) (s : State) : Host.Outcome State Fault Refusal :=
  run s (doFrame (s.isForwardDone f.hdr) f)
/-- READ_REQ (R242). -/
def execReadReq (f : Frame) (s : State) : Host.Outcome State Fault Refusal := run s (doFrame (isFrameOf opReadReq f) f)
/-- ATTEND (04 R127). -/
def execAttend (f : Frame) (s : State) : Host.Outcome State Fault Refusal := run s (doFrame (isFrameOf opAttend f) f)
/-- APPEND (R243). -/
def execAppend (f : Frame) (s : State) : Host.Outcome State Fault Refusal := run s (doFrame (isFrameOf opAppend f) f)
/-- INGEST (R243). -/
def execIngest (f : Frame) (s : State) : Host.Outcome State Fault Refusal := run s (doFrame (isFrameOf opIngest f) f)
/-- COMMIT (04 R149). -/
def execCommit (f : Frame) (s : State) : Host.Outcome State Fault Refusal := run s (doFrame (isFrameOf opCommit f) f)
/-- CANCEL (R245). -/
def execCancel (f : Frame) (s : State) : Host.Outcome State Fault Refusal := run s (doFrame (isFrameOf opCancel f) f)
/-- HEDGE (10 R338). -/
def execHedge (f : Frame) (s : State) : Host.Outcome State Fault Refusal := run s (doFrame (isFrameOf opHedge f) f)
/-- HEDGE_CLAIM (10 R341). -/
def execHedgeClaim (f : Frame) (s : State) : Host.Outcome State Fault Refusal :=
  run s (doFrame (isFrameOf opHedgeClaim f) f)
/-- MIRROR (10 R322). -/
def execMirror (f : Frame) (s : State) : Host.Outcome State Fault Refusal := run s (doFrame (isFrameOf opMirror f) f)
/-- MIRROR_ACK (10 R327). -/
def execMirrorAck (f : Frame) (s : State) : Host.Outcome State Fault Refusal :=
  run s (doFrame (isFrameOf opMirrorAck f) f)
/-- DIR_UPDATE (10 R346). -/
def execDirUpdate (f : Frame) (s : State) : Host.Outcome State Fault Refusal :=
  run s (doFrame (isFrameOf opDirUpdate f) f)
/-- DIR_QUERY (10 R348). -/
def execDirQuery (f : Frame) (s : State) : Host.Outcome State Fault Refusal := run s (doFrame (isFrameOf opDirQuery f) f)
/-- VOID_SYNC (R253). -/
def execVoidSync (f : Frame) (s : State) : Host.Outcome State Fault Refusal := run s (doFrame (isVoidSync f.hdr) f)
/-- VOID (R253). -/
def execVoid (f : Frame) (s : State) : Host.Outcome State Fault Refusal :=
  run s (doFrame (f.hdr.void && !f.hdr.sync) f)
/-- ACK (R258). -/
def execAck (f : Frame) (s : State) : Host.Outcome State Fault Refusal := run s (doFrame (isFrameOf opAck f) f)
/-- NAK (R258). -/
def execNak (f : Frame) (s : State) : Host.Outcome State Fault Refusal := run s (doFrame (isFrameOf opNak f) f)
/-- UNDEFINED_OPCODE (R240). -/
def execUndefinedOpcode (f : Frame) (s : State) : Host.Outcome State Fault Refusal :=
  run s (doFrame (!f.hdr.void && !definedOpcodes.contains f.hdr.opcode) f)
/-- MALFORMED_FRAME (R235): a frame that fails steps 1 to 4. -/
def execMalformedFrame (f : Frame) (s : State) : Host.Outcome State Fault Refusal :=
  run s (doFrame (s.wireFault f).isSome f)

/-! ### Other frames (R236, R266) -/

/-- NEIGHBOR_SOLICITATION for the node's own address is answered; another is dropped and counted. -/
def doNeighborSolicitation (p : Nat) (target src : BitVec 128) (s : State) : State :=
  if !(s.awake && decide (p < 24) && (s.port p).up) then s
  else if target = s.address then s.emit (.neighborAdvert p src target)
  else s.countPort p pcOther 1
/-- NEIGHBOR_SOLICITATION. -/
def execNeighborSolicitation (port : Nat) (target src : BitVec 128) (s : State) : Host.Outcome State Fault Refusal :=
  run s (doNeighborSolicitation port target src)

/-- ECHO_REQUEST to the node's own address is answered; another is dropped and counted. -/
def doEchoRequest (p : Nat) (target src : BitVec 128) (ident seq : BitVec 16) (data : List Byte) (s : State) : State :=
  if !(s.awake && decide (p < 24) && (s.port p).up) then s
  else if target = s.address then s.emit (.echoReply p src ident seq data)
  else s.countPort p pcOther 1
/-- ECHO_REQUEST. -/
def execEchoRequest (port : Nat) (target src : BitVec 128) (ident seq : BitVec 16) (data : List Byte) (s : State) :
    Host.Outcome State Fault Refusal :=
  run s (doEchoRequest port target src ident seq data)

/-- OTHER_FRAME: dropped; a runt and an oversize frame count as such (R235). -/
def doOtherFrame (p size : Nat) (s : State) : State :=
  if s.awake && decide (p < 24) && (s.port p).up then
    s.countPort p (if size < 64 then pcRunt else if 9216 < size then pcOversize else pcOther) 1
  else s
/-- OTHER_FRAME. -/
def execOtherFrame (port size : Nat) (s : State) : Host.Outcome State Fault Refusal := run s (doOtherFrame port size)

/-- The RCLASS whose PCP a port class uses. -/
def classOfPort (c : Nat) : Nat := min c 3

/-- A priority is paused from now, or resumed: the time it was paused counts for its port classes (09 R312). -/
def State.pausePcp (s : State) (p k : Nat) (xoff : Bool) : State :=
  let x := s.port p
  match Tbl.get? x.paused k, xoff with
  | none, true => s.updPort p fun y => { y with paused := Tbl.set y.paused k s.clk.ftime }
  | some at_, false =>
    let t := s.updPort p fun y => { y with paused := Tbl.erase y.paused k }
    t.each ((List.range 12).filter fun c => s.pcp (classOfPort c) == k) fun t c =>
      t.countPort p (32 + c) (s.clk.ftime - at_)
  | _, _ => s

/-- PFC_FRAME (R266). -/
def doPfcFrame (p : Nat) (pcps : BitVec 8) (xoff : Bool) (s : State) : State :=
  if s.awake && decide (p < 24) && (s.port p).up then s.each (bitsOf pcps 8) fun t k => t.pausePcp p k xoff else s
/-- PFC_FRAME. -/
def execPfcFrame (port : Nat) (pcps : BitVec 8) (xoff : Bool) (now : Nat) (s : State) :
    Host.Outcome State Fault Refusal :=
  run s fun t => doPfcFrame port pcps xoff (t.upTo now)

end Sys2Proof.Machine
end

