-- ==== Sys2Proof/Machine/PortSched.lean ====
section
/-! DEFINITION. The port scheduler (09 R295 to R300), weir lists (09 R301 to R305), and the transmission of frames: SEQ,
go-back, VOID frames with SYNC, ACK and NAK (08 R247 to R251, R255 to R258, R274). -/

namespace Sys2Proof.Machine

/-! ### Gates (09 R301 to R305) -/

/-- The start of entry i of cycle n of a list taken over at S (R303). -/
def entryStart (w : Weir) (at_ n i : Nat) : Nat := at_ + n * weirCycle w.hdr + ((w.entries.take i).map entNs).foldl (· + ·) 0

/-- The end of entry i: its duration, the cycle's end for the last one, and never beyond the cycle (R303). -/
def entryEnd (w : Weir) (at_ n i : Nat) : Nat :=
  let stop := at_ + (n + 1) * weirCycle w.hdr
  if i + 1 = w.entries.length then stop else min stop (entryStart w at_ n (i + 1))

/-- The entry after entry i of cycle n: the next one, unless the cycle has ended (R303). -/
def entryNext (w : Weir) (at_ n i : Nat) : Nat × Nat :=
  if i + 1 < w.entries.length && decide (entryStart w at_ n (i + 1) < at_ + (n + 1) * weirCycle w.hdr) then (n, i + 1)
  else (n + 1, 0)

/-- The gates of entry i. -/
def Weir.gatesAt (w : Weir) (i : Nat) : BitVec 12 := ((w.entries[i]?).map entGates).getD 0xFFF#12

/-- Is gate c open from the end of entry (n, i) until a time, through the entries that follow? `fuel` bounds them. -/
def openPast (w : Weir) (at_ c till : Nat) : Nat → Nat → Nat → Bool
  | 0, _, _ => false
  | fuel + 1, n, i =>
    if till ≤ entryEnd w at_ n i then true
    else
      let k := entryNext w at_ n i
      (w.gatesAt k.2).getLsbD c && openPast w at_ c till fuel k.1 k.2

/-- Does gate c stay open from now until a time, under the list in force at each moment (R303)? -/
def Port.openUntil (x : Port) (c till : Nat) : Bool :=
  let under (till : Nat) : Bool :=
    match x.weir with
    | some (w, at_) => openPast w at_ c till 512 x.gateCycle x.gateIdx
    | none => true
  x.gates.getLsbD c &&
    (match x.weirNext with
     | some (next, at_) =>
       if at_ < till then
         under at_ && (match next with
           | some w => (w.gatesAt 0).getLsbD c && openPast w at_ c till 512 0 0
           | none => true)
       else under till
     | none => under till)

/-- WEIR_TAKEOVER: the new list replaces the old one and starts its first entry (R304). -/
def doWeirTakeover (p : Nat) (s : State) : State :=
  match (s.port p).weirNext with
  | none => s
  | some (next, at_) =>
    if !(s.serving && decide (p < 24) && decide (at_ ≤ s.clk.ftime)) then s
    else s.updPort p fun x =>
      match next with
      | some w => { x with
          weir := some (w, at_), weirNext := none, gateIdx := 0, gateCycle := 0, gates := w.gatesAt 0,
          gateUntil := some (entryEnd w at_ 0 0) }
      | none => { x with
          weir := none, weirNext := none, gateIdx := 0, gateCycle := 0, gates := 0xFFF#12, gateUntil := none }
/-- WEIR_TAKEOVER. -/
def execWeirTakeover (port now : Nat) (s : State) : Host.Outcome State Fault Refusal :=
  run s fun t => doWeirTakeover port (t.upTo now)

/-- WEIR_ENTRY_ADVANCE: the next entry takes effect (R303). -/
def doWeirEntryAdvance (p : Nat) (s : State) : State :=
  match (s.port p).weir, (s.port p).gateUntil with
  | some (w, at_), some u =>
    if !(s.serving && decide (p < 24) && decide (u ≤ s.clk.ftime)) then s
    else s.updPort p fun x =>
      let k := entryNext w at_ x.gateCycle x.gateIdx
      { x with
        gateCycle := k.1, gateIdx := k.2, gates := w.gatesAt k.2, gateUntil := some (entryEnd w at_ k.1 k.2) }
  | _, _ => s
/-- WEIR_ENTRY_ADVANCE. -/
def execWeirEntryAdvance (port now : Nat) (s : State) : Host.Outcome State Fault Refusal :=
  run s fun t => doWeirEntryAdvance port (t.upTo now)

/-! ### ACK and NAK (08 R247, R255 to R257) -/

/-- Does a receiver flow have an ACK or NAK to send? -/
def RxFlow.ctlDue (x : RxFlow) : Bool :=
  x.ackDue || x.syncDue.isSome || x.keyDue.isSome || x.oosDue || x.refusal.isSome

/-- Do the frames of a sender flow leave by port p now? -/
def State.leavesBy (s : State) (dst c p : Nat) : Bool := s.egressOf dst c == some p

/-- What an ACK or NAK carries: whether it is a NAK, STATUS, SYNC, SEQ, IMM. -/
structure Ctl where
  isNak  : Bool
  status : BitVec 8
  sync   : Bool
  seq    : BitVec 24
  imm    : BitVec 32
  deriving DecidableEq, Repr

/-- A flow whose every accepted frame has been acknowledged (R255). -/
def RxFlow.acked (x : RxFlow) : RxFlow :=
  { x with ackDue := false, unacked := 0, oldest := none, since := none, ackAfter := false }

/-- The next ACK or NAK of a flow at a time, formed from the receiver table, and the flow after it (R247, R253 to R257). A
NAK that carries E acknowledges what an ACK would; a refusal NAK acknowledges up to the refused frame. -/
def RxFlow.ctlNext (x : RxFlow) (now : Nat) : Option (Ctl × RxFlow) :=
  let e := BitVec.ofNat 24 x.e
  match x.refusal with
  | some n =>
    some ({ isNak := true, status := n.status, sync := false, seq := n.seq, imm := n.imm },
          if n.seq = e then { x.acked with refusal := none }
          else { x with refusal := none, unacked := 0, oldest := x.since, ackDue := x.ackAfter, since := none,
                        ackAfter := false })
  | none =>
    match x.syncDue, x.keyDue with
    | some q, _ =>
      some ({ isNak := true, status := 0#8, sync := true, seq := q, imm := q.setWidth 32 },
            { x with syncDue := none, syncNak := some now })
    | none, some q =>
      some ({ isNak := true, status := BitVec.ofNat 8 stKey, sync := false, seq := e, imm := q.setWidth 32 },
            { x.acked with keyDue := none, keyNak := some now })
    | none, none =>
      if x.oosDue then
        some ({ isNak := true, status := 0#8, sync := false, seq := e, imm := e.setWidth 32 },
              { x.acked with oosDue := false, oosNak := some (x.e, now) })
      else if x.ackDue then some ({ isNak := false, status := 0#8, sync := false, seq := e, imm := 0#32 }, x.acked)
      else none

/-- The header of an ACK or NAK (R238, R240). -/
def State.ctlHdr (s : State) (dst c : Nat) (k : Ctl) (ctr : Nat) : Hdr :=
  { Hdr.zero with
    status := k.status, sync := k.sync, opcode := if k.isNak then opNak else opAck, rclass := BitVec.ofNat 2 c,
    dst := BitVec.ofNat 13 dst, src := BitVec.ofNat 13 s.nodeId, seq := k.seq,
    offset := BitVec.ofNat 40 (ctr / 2 ^ 32 * 2 ^ 32), imm := k.imm, stamp := BitVec.ofNat 64 s.clk.ftime,
    ctlCtr := BitVec.ofNat 32 ctr }

/-- Send the ACK or NAK of a flow on a port, on PCP_RC0 (R247). -/
def State.sendCtl (s : State) (p dst c : Nat) : State :=
  match (s.rx dst c).ctlNext s.clk.ftime with
  | none => s
  | some (k, x) =>
    let ctr := Tbl.getD s.wt.ctlCtr dst 0
    let h := s.ctlHdr dst c k ctr
    match s.sealCtl h (BitVec.ofNat 40 ctr) with
    | none => s
    | some (ct, tag) =>
      let refused := k.isNak && (s.rx dst c).refusal.isSome
      let t := s.setRx dst c x
      let t := { t with wt := { t.wt with ctlCtr := Tbl.set t.wt.ctlCtr dst (ctr + 1) } }
      let t := if refused then t.count cRefused 1 else t
      t.emit (.frame p h ct tag (t.lowerBytes p dst (t.pcp 0) 0 (t.tx dst c).entropy))

/-! ### Frames without a key (11 R376, 08 R258) -/

/-- Has a frame's slot no key to send it under? -/
def State.unkeyed (s : State) (f : TxFrame) : Bool := !f.voided && (s.sendKey f.keySlot.toNat).isNone

/-- Take every queued frame of a message out of the port classes. -/
def State.unqueueMsg (s : State) (dst c msg : Nat) : State :=
  { s with wt := { s.wt with ports := Tbl.mapVals s.wt.ports fun _ x =>
      { x with classes := Tbl.mapVals x.classes fun _ l => l.filter fun f => !(f.ofFlow dst c && f.msg == msg) } } }

/-- A frame whose slot has no key: a message that has not begun is dropped; one that has is sent on as VOID frames. It
ends with KEY_INVALID; a response is dropped and counted. -/
def State.endUnkeyed (s : State) (f : TxFrame) : State :=
  let dst := f.dst.toNat
  let c := f.rclass.toNat
  if f.first && !((s.tx dst c).sent.any fun x => x.fr.msg == f.msg) then
    let l := (s.queuedOf dst c).filter fun g => g.msg == f.msg
    (s.unqueueMsg dst c f.msg).each l fun t g => t.endSent g stKey true
  else
    let t := s.mapMsg dst c f.msg fun g => { g with done := g.done.held, voided := true }
    let t := if f.rclass = 2#2 then t.count cRespLost 1 else t
    t.endMsg f stKey false

/-- The frames queued for a port, its turn of the bond among them. -/
def State.queuedFor (s : State) (p c : Nat) : List TxFrame :=
  Tbl.getD (s.port p).classes c [] ++
    (if c = 1 && s.leavesBy s.twinNode 1 p && s.onBond s.twinNode 1 then Tbl.getD (s.port bondPort).classes 1 [] else [])

/-- End the messages at the heads of a port's queues, and those being sent again, that have no key. -/
def State.dropUnkeyed (s : State) (p : Nat) : State :=
  let l := (List.range 12).flatMap fun c => (s.queuedFor p c).filter s.unkeyed
  let t := s.each l fun t f => if (t.queuedOf f.dst.toNat f.rclass.toNat).any (fun g => decide (g = f)) then
    t.endUnkeyed f else t
  let again := t.wt.tx.flatMap fun f =>
    if f.2.goBack.isSome then (f.2.sent.map (·.fr)).filter t.unkeyed else []
  t.each again fun t f =>
    if (t.tx f.dst.toNat f.rclass.toNat).sent.any (fun x => decide (x.fr = f)) then t.endUnkeyed f else t

/-! ### Forming frames (08 R251, R242, R274) -/

/-- The first grain of a byte range that fails its checks. -/
def State.rangeFault (s : State) (addr len : Nat) : Option (Nat × Nat × Word64) :=
  let g0 := addr / 512
  (List.range ((addr + len - 1) / 512 - g0 + 1)).findSome? fun i =>
    (s.grainFault eccNone (g0 + i)).map fun e => (e.1, g0 + i, e.2)

/-- A read meets a grain that fails: this frame becomes its last, with TAG_MISMATCH and no payload; what was queued
behind it is dropped, what was sent behind it is void (R242). -/
def State.endReadFrame (s : State) (f : TxFrame) (seq : Nat) (e : Nat × Nat × Word64) : State × TxFrame :=
  let dst := f.dst.toNat
  let c := f.rclass.toNat
  let t := s.failCheck e
  let l := (t.queuedOf dst c).filter fun g => g.msg == f.msg && decide (g ≠ f)
  let t := (t.unqueueMsg dst c f.msg).each l fun t g => t.endFrame g false
  let x := t.tx dst c
  let t := t.setTx dst c { x with sent := x.sent.map fun y =>
    if y.fr.msg == f.msg && decide (seq < y.seq) then { y with fr := { y.fr with voided := true } } else y }
  let t := match f.done with | .release r _ => t.stopRead r | _ => t
  (t, { f with status := BitVec.ofNat 8 stTag, last := true, pay := .bytes [] })

/-- A MIRROR message meets content that fails its checks: the failing objects are CONTAINED, every frame of the message goes
on as a VOID frame, and the records that passed are sent in a message of their own (R251, assumption 144). -/
def State.endMirrorFrame (s : State) (f : TxFrame) (p : Nat) (recs : List MRec) : State × TxFrame :=
  let t := s.each recs fun t r => match t.recFault r with | some e => t.failCheck e | none => t
  let void (g : TxFrame) : TxFrame := { g with done := g.done.held, voided := true }
  let t := t.mapMsg f.dst.toNat f.rclass.toNat f.msg void
  let good := recs.filter fun r => (s.recFault r).isNone
  (if good.isEmpty then t else t.sendMirror p good, void f)

/-- Form a frame's content for a transmission: its data read and verified anew (R251). The state, the frame as it stands
from now on, its STATUS for this transmission, and its payload. A read's frame sent again after the window was revoked
carries WINDOW_REVOKED (R274). -/
def State.formFrame (s : State) (f : TxFrame) (seq attempt : Nat) : State × TxFrame × BitVec 8 × List Byte :=
  if f.voided then (s, f, 0#8, [])
  else
    match f.pay with
    | .bytes l => (s, f, f.status, l)
    | .mirror p recs =>
      if recs.any fun r => (s.recFault r).isSome then
        let (t, g) := s.endMirrorFrame f p recs
        (t, g, 0#8, [])
      else
        let b := s.mirrorPayload (if attempt = 0 then recs else recs.map s.restamp)
        (s, f, f.status, if f.last then (b.drop f.offset.toNat).take 8192 else slice b f.offset.toNat 8192)
    | .window id rev addr len =>
      if 0 < attempt && Tbl.getD s.slc.revokes id 0 != rev then (s, f, BitVec.ofNat 8 stRevoked, [])
      else
        match s.rangeFault addr len with
        | none => (s, f, f.status, s.readBytes addr len)
        | some e => let (t, g) := s.endReadFrame f seq e; (t, g, g.status, [])

/-- A data frame's header (R238, R492). -/
def State.dataHdr (s : State) (f : TxFrame) (ext attempt : Nat) (status : BitVec 8) (b : List Byte) : Hdr :=
  if f.voided && f.opcode = opVoid then s.syncHdr f.dst.toNat f.rclass.toNat ext attempt
  else
    { Hdr.zero with
      status := status, first := f.first, last := f.last, acknow := f.last, void := f.voided, fwd := !f.voided && f.fwd,
      opcode := f.opcode, rclass := f.rclass, dst := f.dst, src := BitVec.ofNat 13 s.nodeId, seq := BitVec.ofNat 24 ext,
      keySlot := if f.voided then 0#10 else f.keySlot, attempt := BitVec.ofNat 16 attempt,
      window := if f.voided then 0#20 else f.window, offset := if f.voided then 0#40 else f.offset,
      gen := if f.voided then 0#16 else f.gen, imm := if f.voided then 0#32 else f.imm,
      stamp := BitVec.ofNat 64 s.clk.ftime, ptag := if b.isEmpty then 0#32 else crc32c b }

/-- The bytes of a frame sent from a port class: off the class's shaper, but of class 0, which has none (09 R298, R299). -/
def State.meterPort (s : State) (p c n : Nat) : State :=
  if c = 0 then s
  else s.updPort p fun x => { x with
    buckets := Tbl.set x.buckets c (bucketTake (s.shaper (portTarget p c)) (Tbl.get? x.buckets c) s.clk.ftime n) }

/-- Put a frame on the wire, with the flow as it stands after it, and meter its bytes. -/
def State.putFrame (s : State) (p : Nat) (f : TxFrame) (ext attempt : Nat) (status : BitVec 8) (b : List Byte)
    (flow : TxFlow) : State :=
  let h := s.dataHdr f ext attempt status b
  match s.sealData h ext b with
  | none => s
  | some (ct, tag) =>
    let t := s.setTx f.dst.toNat f.rclass.toNat flow
    let t := if s.onBond f.dst.toNat f.rclass.toNat then { t with wt := { t.wt with bondTurn := t.wt.bondTurn + 1 } } else t
    (t.meterPort p f.pclass (134 + b.length)).emit
      (.frame p h ct tag (t.lowerBytes p f.dst.toNat (t.pcp f.rclass.toNat) b.length flow.entropy))

/-! ### Choosing a frame (09 R296) -/

/-- The descriptors of a class in use (08 R250). -/
def State.descsUsed (s : State) (c : Nat) : Nat :=
  ((s.wt.tx.filter fun f => f.1 % 4 == c).map fun f => f.2.sent.length).foldl (· + ·) 0

/-- The descriptors reserved for a class (08 R250). -/
def classDescs (c : Nat) : Nat := [8192, 16384, 32768, 73728].getD c 0

/-- May a new frame of a flow be sent: no go-back runs, and the flow and its class have descriptors (08 R250, R258)? -/
def State.flowFree (s : State) (dst c : Nat) : Bool :=
  let f := s.tx dst c
  f.goBack.isNone && decide (f.sent.length < 1024) && decide (s.descsUsed c < classDescs c)

/-- What a port class would send next: an outstanding frame of a go-back, the VOID frame with SYNC of a flow, or a queued
frame. -/
inductive Head where
  | again (dst c : Nat) (x : Sent)
  | sync (dst : BitVec 13) (c : BitVec 2) (pclass : Nat)
  | fresh (f : TxFrame)
  deriving DecidableEq, Repr

/-- The VOID frame with SYNC of a flow as it is held until acknowledged (R492). -/
def syncFrame (dst : BitVec 13) (c : BitVec 2) (pclass : Nat) : TxFrame :=
  { dst := dst, rclass := c, pclass := pclass, opcode := opVoid, first := true, last := true, fwd := false, status := 0#8,
    keySlot := 0#10, window := 0#20, gen := 0#16, offset := 0#40, imm := 0#32, pay := .bytes [], msg := 0, voided := true,
    done := .none }

/-- The frame of a head. -/
def Head.frame : Head → TxFrame
  | .again _ _ x => x.fr
  | .sync dst c pclass => syncFrame dst c pclass
  | .fresh f => f

/-- The frame of a go-back that class c of port p would send again. -/
def State.backOf (s : State) (p c : Nat) : Option Head :=
  s.wt.tx.findSome? fun f =>
    match f.2.goBack with
    | none => none
    | some g =>
      match f.2.at? g with
      | some x => if x.fr.pclass == c && s.leavesBy (f.1 / 4) (f.1 % 4) p then some (Head.again (f.1 / 4) (f.1 % 4) x)
          else none
      | none => none

/-- A flow of class c whose VOID frame with SYNC goes out at once by port p (08 R258). -/
def State.syncOf (s : State) (p c : Nat) : Option Head :=
  s.wt.tx.findSome? fun f =>
    if f.2.syncNow && f.1 % 4 == c && s.leavesBy (f.1 / 4) c p && s.flowFree (f.1 / 4) c then
      some (Head.sync (BitVec.ofNat 13 (f.1 / 4)) (BitVec.ofNat 2 c) c)
    else none

/-- The head of class c of port p: what is sent again first; else the frame queued earliest, whatever its flow, behind its
flow's VOID frame with SYNC when that is due. While its flow may send no new frame the class waits (R250, R296, assumption
66). -/
def State.headOf (s : State) (p c : Nat) : Option Head :=
  match s.backOf p c <|> s.syncOf p c with
  | some h => some h
  | none =>
    match (s.queuedFor p c).head? with
    | none => none
    | some f =>
      if !s.flowFree f.dst.toNat f.rclass.toNat then none
      else if (s.tx f.dst.toNat f.rclass.toNat).needSync then some (.sync f.dst f.rclass f.pclass)
      else some (.fresh f)

/-- Holds class c of port p no frame, queued or to be sent again? -/
def State.classEmpty (s : State) (p c : Nat) : Bool :=
  (s.queuedFor p c).isEmpty && (s.backOf p c).isNone && (s.syncOf p c).isNone

/-- A frame's size (08 R233). -/
def State.headSize (s : State) (h : Head) : Nat :=
  let f := h.frame
  if f.voided then 134
  else match f.pay with
    | .bytes l => 134 + l.length
    | .window _ _ _ n => 134 + n
    | .mirror _ recs => 134 + min 8192 ((s.mirrorPayload recs).length - f.offset.toNat)

/-- The time in ns that a frame takes on a port, with preamble and gap. -/
def Port.wireNs (x : Port) (size : Nat) : Nat := if x.gbps = 0 then 0 else cdiv ((size + 20) * 8) x.gbps

/-- Is class c of port p eligible (R296)? Its priority is not paused (08 R266). -/
def State.eligible (s : State) (p c : Nat) : Bool :=
  let x := s.port p
  match s.headOf p c with
  | none => false
  | some h =>
    (Tbl.get? x.paused (s.pcp (classOfPort c))).isNone && x.openUntil c (s.clk.ftime + x.wireNs (s.headSize h)) &&
      (c == 0 || bucketOpen (s.shaper (portTarget p c)) (Tbl.get? x.buckets c) s.clk.ftime)

/-- The class that a port serves next, and the weighted group's state (R296). -/
def State.pickClass (s : State) (p : Nat) : Option Nat × Wrr :=
  let x := s.port p
  let w : Wrr := { ptr := x.pointer, arrived := x.arrived, deficit := x.deficit }
  match (List.range 4).find? fun c => s.eligible p c with
  | some c => (some c, w)
  | none =>
    wrrPick (fun c => s.eligible p c) (fun c => s.classEmpty p c)
      (fun c => ((s.headOf p c).map s.headSize).getD 0)
      (fun c => weightOf (Tbl.getD s.cfg.portW p weightsReset) c) 512 w

/-- Remove a frame from the queues of a port. -/
def State.unqueue (s : State) (p : Nat) (f : TxFrame) : State :=
  let cut (x : Port) : Port := { x with classes := Tbl.modify x.classes f.pclass [] fun l => l.erase f }
  if (Tbl.getD (s.port p).classes f.pclass []).contains f then s.updPort p cut else s.updPort bondPort cut

/-- A flow after a new frame (R249, R258): NEXT advances, the timer starts when none was outstanding. -/
def TxFlow.afterNew (x : TxFlow) (f : TxFrame) (attempt now : Nat) : TxFlow :=
  { x with
    next := x.next + 1
    sent := x.sent ++ [{ seq := x.next, attempt := attempt, keyNaks := 0, fr := f }]
    timerAt := if x.sent.isEmpty then some (now + 20000) else x.timerAt }

/-- A flow after a frame of a go-back (R258, R260). -/
def TxFlow.afterAgain (x : TxFlow) (seq : Nat) (f : TxFrame) : TxFlow :=
  { x with
    sent := x.sent.map fun y => if y.seq = seq then { y with attempt := y.attempt + 1, fr := f } else y
    goBack := if seq + 1 < x.next then some (seq + 1) else none }

/-- Send a class's head. -/
def State.sendHead (s : State) (p : Nat) : Head → State
  | .again dst c x =>
    let (t, f, st, b) := s.formFrame x.fr x.seq (x.attempt + 1)
    let flow := t.tx dst c
    (t.putFrame p f x.seq (x.attempt + 1) st b (flow.afterAgain x.seq f)).count
      (if flow.backTimer then cRetxTimer else cRetxNak) 1
  | .sync dst c pclass =>
    let x := s.tx dst.toNat c.toNat
    let g := syncFrame dst c pclass
    s.putFrame p g x.next x.syncAttempt 0#8 []
      { x.afterNew g x.syncAttempt s.clk.ftime with needSync := false, syncNow := false, syncAttempt := 0 }
  | .fresh f =>
    let x := s.tx f.dst.toNat f.rclass.toNat
    let (t, g, st, b) := (s.unqueue p f).formFrame f x.next 0
    t.putFrame p g x.next 0 st b ((t.tx f.dst.toNat f.rclass.toNat).afterNew g 0 t.clk.ftime)

/-- PORT_TRANSMIT: an ACK or NAK that is due, else the next frame of the class rule (R296). -/
def doPortTransmit (p : Nat) (s : State) : State :=
  if !(s.serving && decide (p < 24) && (s.port p).up && s.idValid && s.slot0) then s
  else
    let s := s.flushMirrorAck
    match s.wt.rx.find? fun x => x.2.ctlDue && s.leavesBy (x.1 / 4) (x.1 % 4) p with
    | some x => (s.pin (x.1 / 4) (x.1 % 4)).sendCtl p (x.1 / 4) (x.1 % 4)
    | none =>
      let t := (s.dropUnkeyed p).updPort p Port.refill
      let (c, w) := t.pickClass p
      let t := t.updPort p fun x => { x with pointer := w.ptr, arrived := w.arrived, deficit := w.deficit }
      match c with
      | none => t
      | some c =>
        match t.headOf p c with
        | none => t
        | some h => t.sendHead p h
/-- PORT_TRANSMIT. -/
def execPortTransmit (port now : Nat) (s : State) : Host.Outcome State Fault Refusal :=
  run s fun t => doPortTransmit port (t.upTo now)

end Sys2Proof.Machine
end

