-- ==== Sys2Proof/Machine/Tiers.lean ====
section
/-! DEFINITION. The tier manager (07 R201 to R211): promotion, demotion, rebalancing, the release of old copies and runs;
and the background scrub (12 R388, R389). -/

namespace Sys2Proof.Machine

/-- The configuration of a page's partition says that it may be promoted: PROMOTE, and BASE_ONLY (R203, R204). -/
def State.mayPromote (s : State) (r : PageRef) : Bool :=
  let w := s.tierCfg r.part
  w.getLsbD 1 && (r.base || !w.getLsbD 2)

/-- Was a page swept by HOT_SWEEPS requests within one tick (R204)? -/
def State.hot (s : State) (r : PageRef) (p : Page) : Bool := decide (fld (s.tierCfg r.part) 8 8 ≤ p.sweeps)

/-- Note the corrected columns met while a run is copied. -/
def State.noteRun (s : State) (ecc : EccReport) (g n : Nat) : State :=
  s.each (List.range n) fun t i => t.noteCorrected ecc 1 (grainChannel (g + i)) (g + i)

/-! ### Promotion and demotion -/

/-- PROMOTE: copy a hot sealed page into the dynamic area, checking every grain and the tag root, and swap its descriptor
to IN_SRAM 1 (R204, R206). A failure abandons it and the page is CONTAINED (R210). -/
def doPromote (r : PageRef) (ecc : EccReport) (s : State) : State :=
  match s.page? r with
  | none => s
  | some p =>
    let n := runLen p.desc.pfmt p.desc.hdim
    if s.serving && !p.desc.tail && !p.desc.inSram && s.mayMove r p && s.mayPromote r && s.hot r p &&
        decide (512 * n ≤ s.sramFree r.part) then
      let t := s.noteRun ecc p.desc.grain n
      match s.checkRun ecc p.desc with
      | some e => t.failPage r e
      | none => t.putPage r { p with
          desc := { p.desc with inSram := true }
          copy := some (.promoted (s.runBytes p.desc) p.desc.wgen (s.runTags p.desc)) }
    else s
/-- PROMOTE. -/
def execPromote (pg : PageRef) (ecc : EccReport) (s : State) : Host.Outcome State Fault Refusal := run s (doPromote pg ecc)

/-- DEMOTE_TIMEOUT: a promoted page without a sweep for DEMOTE_TICKS ticks is demoted (R204). -/
def doDemoteTimeout (r : PageRef) (s : State) : State :=
  match s.page? r with
  | none => s
  | some p =>
    if s.serving && p.promoted && s.mayMove r p &&
        decide (fld (s.tierCfg r.part) 16 16 ≤ tickSub (s.tickOf s.clk.ftime) p.sweepTick) then s.demote r
    else s
/-- DEMOTE_TIMEOUT. -/
def execDemoteTimeout (pg : PageRef) (now : Nat) (s : State) : Host.Outcome State Fault Refusal :=
  run (s.upTo now) (doDemoteTimeout pg)

/-- SRAM_COPY_RELEASE: the SRAM copy of a sealed or demoted page is freed once no admitted request reads it (02 R68, 07
R202). -/
def doSramCopyRelease (r : PageRef) (s : State) : State :=
  if s.awake && !s.readBy r then s.updPage r fun p => { p with oldCopy := none } else s
/-- SRAM_COPY_RELEASE. -/
def execSramCopyRelease (pg : PageRef) (s : State) : Host.Outcome State Fault Refusal := run s (doSramCopyRelease pg)

/-! ### Rebalancing (R206 to R208) -/

/-- REBALANCE. Body: session in [23:0], layer [39:32], KV head [45:40], page [95:64], target pair (jet number) [108:96]
(assumption 20). -/
def opRebalance : AgtanOp :=
  { ownerOp 0x00C0 16 with
    part0 := fun _ => true
    rsvdOk := fun b => zeroBits 24 31 b && zeroBits 46 63 b && zeroBits 109 127 b }

/-- May a page be moved to a jet: a sealed page outside base coverage, to another live pair of its partition? -/
def State.mayRebalance (s : State) (v : Session) (r : PageRef) (p : Page) (j : Nat) : Bool :=
  !p.desc.tail && s.mayMove r p && p.oldRuns.isEmpty && !s.inCoverage v r.page && (mapGroups (s.pmap r.part)).contains (jetGroup j) &&
    grainJet p.desc.grain != j

/-- A rebalance that has its new run and copies nothing yet. -/
def Migr.ofRun (g : Nat) (w : BitVec 16) : Migr := { newRun := g, wgen := w, copied := false, repair := none }

/-- REBALANCE: allocate a run in the target pair; MIGRATION_SWAP copies and swaps (R206). -/
def doRebalance (c : AgtanCmd) (s : State) : State :=
  s.agtan opRebalance c fun t =>
    let x := leAt c.body 0 4
    let r : PageRef :=
      { base := false, part := cmdPart c, owner := x, layer := leAt c.body 4 1, head := leAt c.body 5 1, page := leAt c.body 8 4 }
    let j := leAt c.body 12 4
    match t.openSession (cmdPart c) x with
    | none => t.respond opRebalance.code c stNoSession []
    | some v =>
      match t.page? r with
      | none => t.respond opRebalance.code c stFormat []
      | some p =>
        if !t.mayRebalance v r p j then t.respond opRebalance.code c stFormat []
        else
          match t.allocRun j (runLen p.desc.pfmt p.desc.hdim) (.run r) with
          | none => t.respond opRebalance.code c stNoRes []
          | some (g, w, u) =>
            (u.putPage r { p with migr := some (Migr.ofRun g w) }).respond opRebalance.code c stOk []
/-- REBALANCE. -/
def execRebalance (c : AgtanCmd) (s : State) : Host.Outcome State Fault Refusal := run s (doRebalance c)

/-- Copy a page's run into the migration's new run: every byte and carry tag unchanged, the new write generation in the
side bytes (R206). -/
def State.copyRun (s : State) (d : Desc) (m : Migr) : State := s.putRun m.newRun m.wgen true (s.runBytes d)

/-- A promoted copy beside a run with a new write generation (02 R44, R206). -/
def Copy.regen (w : BitVec 16) : Copy → Copy
  | .promoted b _ tags => .promoted b w tags
  | c => c

/-- Swap a page's descriptor to the migration's new run; the old run waits for its last reader (R206, R207). A repair
brings the descriptor of the twin's copy, with CONTAINED clear. -/
def State.swapRun (s : State) (r : PageRef) (p : Page) (m : Migr) : State :=
  let old := (p.desc.grain, runLen p.desc.pfmt p.desc.hdim)
  match m.repair with
  | none =>
    s.putPage r { p with
      desc := { p.desc with grain := m.newRun, wgen := m.wgen, stamp := s.clk.ftime }
      copy := p.copy.map (Copy.regen m.wgen)
      migr := none
      oldRuns := p.oldRuns ++ [old] }
  | some d =>
    let t := s.putPage r { p with
      desc := { d with grain := m.newRun, wgen := m.wgen, contained := false, inSram := false }
      copy := none
      oldCopy := if s.readBy r then p.oldCopy <|> p.copy else none
      migr := none
      oldRuns := p.oldRuns ++ [old] }
    { t with twin := { t.twin with repairs := t.twin.repairs.filter fun x => decide (x ≠ r) } }

/-- The tier manager starts a rebalance of a page for load or wear (R205): into a pair it chooses among those that R207 and
R208 allow. -/
def State.startRebalance (s : State) (r : PageRef) (p : Page) : State :=
  match (if r.base then none else s.openSession r.part r.owner) with
  | none => s
  | some v =>
    let js := (s.partJets r.part).filter (s.mayRebalance v r p)
    let (k, t) := s.pick
    match js[k % js.length]? with
    | none => s
    | some j =>
      match t.allocRun j (runLen p.desc.pfmt p.desc.hdim) (.run r) with
      | none => s
      | some (g, w, u) => u.putPage r { p with migr := some (Migr.ofRun g w) }

/-- The copy of a page into its migration's new run: every grain and the tag root are checked (R206). A failing source
abandons it, the page CONTAINED; a failing write abandons it alone (R210). The state, the page, and whether the copy
stands. -/
def State.copyPage (s : State) (ecc : EccReport) (r : PageRef) (p : Page) (m : Migr) : State × Page × Bool :=
  if m.copied then (s, p, true)
  else
    let n := runLen p.desc.pfmt p.desc.hdim
    let u := s.noteRun ecc p.desc.grain n
    match s.checkRun ecc p.desc with
    | some e => ((u.abandonMigr r).failPage r e, p, false)
    | none =>
      if (List.range n).any fun i => ecc.writeFails.contains (m.newRun + i) then (u.abandonMigr r, p, false)
      else
        let q := { p with migr := some { m with copied := true } }
        ((u.copyRun p.desc m).putPage r q, q, true)

/-- Is a row under self-test that holds a grain of a page's run or of its migration's new run (12 R411)? -/
def State.rowTested (s : State) (p : Page) (m : Migr) : Bool :=
  let n := runLen p.desc.pfmt p.desc.hdim
  s.flt.tests.any fun x => match x.place with
    | .row r => (List.range n).any fun i => rowPlace (p.desc.grain + i) == r || rowPlace (m.newRun + i) == r
    | _ => false

/-- MIGRATION_SWAP: copy the page into its new run, once; then, when no queued or running jet command names the old run,
swap the descriptor (R206, R207, R210, R211). A page that is CONTAINED moves only by repair: its rebalance is abandoned, and so is one that is to copy a
grain of a row under self-test (12 R411). Of
a page without a migration, it is the tier manager's own rebalance that begins (assumption 136). -/
def doMigrationSwap (r : PageRef) (ecc : EccReport) (s : State) : State :=
  match s.page? r with
  | none => s
  | some p =>
    match p.migr with
    | none => if s.serving then s.startRebalance r p else s
    | some m =>
      if !s.serving then s
      else if m.repair.isNone && (p.desc.contained || !m.copied && s.rowTested p m) then s.abandonMigr r
      else
        let (t, q, ok) := s.copyPage ecc r p m
        if ok && !t.runNamed p.desc.grain then t.swapRun r q m else t
/-- MIGRATION_SWAP. -/
def execMigrationSwap (pg : PageRef) (ecc : EccReport) (s : State) : Host.Outcome State Fault Refusal :=
  run s (doMigrationSwap pg ecc)

/-- Does a request still read the run at a grain: one that resolved a descriptor of it and has not completed, or a jet
command (R206)? -/
def State.runRead (s : State) (g : Nat) : Bool :=
  (s.slc.reqs.any fun x => !x.2.complete && x.2.entries.any fun e =>
    (e.2.own ++ e.2.jetPages).any fun w => w.desc.grain == g) ||
  s.slc.cmds.any fun c => c.2.pages.any fun w => w.2.desc.grain == g

/-- OLD_RUN_RELEASE: an old run is released after the last request that resolved the old descriptor (R206, R207). -/
def doOldRunRelease (r : PageRef) (s : State) : State :=
  match s.page? r with
  | none => s
  | some p =>
    let gone := p.oldRuns.filter fun o => !s.runRead o.1
    if s.awake && !gone.isEmpty then
      (s.freeAllocs fun a => gone.any fun o => a.first == o.1).putPage r { p with
        oldRuns := p.oldRuns.filter fun o => s.runRead o.1 }
    else s
/-- OLD_RUN_RELEASE. -/
def execOldRunRelease (pg : PageRef) (s : State) : Host.Outcome State Fault Refusal := run s (doOldRunRelease pg)

/-! ### The background scrub (12 R388, R389) -/

/-- Does a page's state name the run at a grain: its run, an old run, a migration's new run? -/
def Page.names (p : Page) (g : Nat) : Bool :=
  p.desc.grain == g || (p.oldRuns.any fun o => o.1 == g) ||
    (match p.migr with | some m => m.newRun == g | none => false)

/-- Does a grain hold content: allocated, or of a window? -/
def State.hasContent (s : State) (g : Nat) : Bool := (s.allocOf g).isSome || !(s.windowsOf g).isEmpty

/-- Check one grain of the scrub: its ECC, write generation and tag; a failure makes its owner CONTAINED. -/
def State.scrubGrain (s : State) (g : Nat) (ecc : EccReport) : State :=
  let t := s.noteCorrected ecc 1 (grainChannel g) g
  match s.grainFault ecc g with
  | some c => t.failGrain c.1 1 (grainChannel g) g c.2
  | none => t

/-- What the pass finds at a run's meta grain that passes its checks: a header that names another page, and a half of a
sealed BF16X page that does not decode; either makes the page CONTAINED (02 R50, 06 R191). -/
def State.scrubHeader (s : State) (r : PageRef) (p : Page) (g : Nat) (ecc : EccReport) : State :=
  if g == metaGrain p.desc && (s.grainFault ecc g).isNone then
    if !p.headerFits r (s.grain g) then s.failGrain 0x03 1 (grainChannel g) g 0#64
    else if p.desc.pfmt = 1 && !p.desc.tail then
      match s.checkRun ecc p.desc, s.runRows ecc p.desc with
      | none, .error e => s.failGrain e.1 1 (grainChannel g) e.2.1 e.2.2
      | _, _ => s
    else s
  else s

/-- SCRUB_PASS: the scrub reads one grain. A run that no descriptor names is released (R388); what is CONTAINED already,
a migration's new run and an old run are left. -/
def doScrubPass (g : Nat) (ecc : EccReport) (s : State) : State :=
  if !(s.serving && decide (g < grainCount) && s.hasContent g && !s.badGrains.contains g) then s
  else
    match s.allocOf g with
    | none => s.scrubGrain g ecc
    | some a =>
      match a.use with
      | .run r =>
        match s.page? r with
        | none => s.freeAllocs fun b => b.first == a.first
        | some p =>
          if !p.names a.first then s.freeAllocs fun b => b.first == a.first
          else if p.desc.grain == a.first && !p.desc.contained then (s.scrubGrain g ecc).scrubHeader r p g ecc
          else s
      | _ => s.scrubGrain g ecc
/-- SCRUB_PASS. -/
def execScrubPass (grain : Nat) (ecc : EccReport) (s : State) : Host.Outcome State Fault Refusal :=
  run s (doScrubPass grain ecc)

end Sys2Proof.Machine
end

