-- ==== Sys2Proof/Machine/Spares.lean ====
section
/-! DEFINITION. Spares (12 R399, R400): rows, bank pairs, TSVs, lanes, sub-banks and arrays brought in, and what is lost
when none is left. -/

namespace Sys2Proof.Machine

/-! ### Pages of a place -/

/-- Every page whose run satisfies a test becomes CONTAINED and is repaired elsewhere (R400, 07 R205). -/
def State.containWhere (s : State) (f : Nat → Bool) : State :=
  s.each (List.range 16) fun t p =>
    t.each ((t.pagesOf p).filter fun x => f x.2.desc.grain) fun u x => u.containPage x.1

/-- Retire a bank pair that no spare replaces: NO_SPARE, and every page of it is CONTAINED (R400). -/
def State.retirePair (s : State) (j : Nat) : State :=
  if s.spares.deadPairs.contains j then s
  else
    let t := s.spareEvent false 1 (jetChannel j)
    let t := { t with spares := { t.spares with deadPairs := t.spares.deadPairs ++ [j] } }
    t.containWhere fun g => grainJet g == j

/-- A channel is lost: CHANNEL_LOST, LOST and CH_LOST (13 R417), and every page of it is CONTAINED (R396, R400). -/
def State.loseChannel (s : State) (ch : Nat) : State :=
  if s.spares.lost.contains ch then s
  else
    let t := s.fault { code := 0x18, srcKind := 1, srcIndex := ch, part := none, addr := 0, syndrome := 0#64, place := none }
    let t := { t with
      spares := { t.spares with lost := t.spares.lost ++ [ch] }
      boot := { t.boot with chLost := if t.boot.stage = 2 then t.boot.chLost + 1 else t.boot.chLost } }
    t.containWhere fun g => grainChannel g == ch

/-! ### Rows and pairs -/

/-- Spare rows in use in the bank of a row: 8 per bank (R399). -/
def State.spareRowsOf (s : State) (place : Nat) : List Nat :=
  (s.spares.rowMap.filter fun r => r.1 / 2 ^ 17 == place / 2 ^ 17 && r.1 % 2 == place % 2).map (·.2)

/-- Bring in a spare row for a row, given by its first grain: the one that holds its copy already, else the first free; none
when its bank has none left. -/
def State.takeSpareRow (s : State) (place : Nat) : Option State :=
  let free := (List.range 8).filter fun i => !(s.spareRowsOf place).contains i
  match (Tbl.get? s.spares.rowCopy place).filter free.contains <|> free.head? with
  | none => none
  | some i =>
    let ch := grainChannel place
    let t := { s with spares := { s.spares with
      rowCopy := Tbl.erase s.spares.rowCopy place
      rowMap := Tbl.set s.spares.rowMap place i
      rowsUsed := Tbl.modify s.spares.rowsUsed ch 0 (· + 1) } }
    some (t.sparedIn 1 ch)

/-- Replace a bank pair by spare pair k of its die: the logical pair keeps its grain addresses (R399, 02 R42). The rows
replaced in the old pair no longer count. -/
def State.mapPair (s : State) (j k : Nat) : State :=
  let t := { s with spares := { s.spares with
    pairMap := Tbl.set s.spares.pairMap j (64 + k)
    rowMap := s.spares.rowMap.filter fun r => r.1 / 2 ^ 17 != j
    rowCopy := s.spares.rowCopy.filter fun r => r.1 / 2 ^ 17 != j
    sparing := Tbl.erase s.spares.sparing j } }
  t.sparedIn 0 (t.jetSource j)

/-- Take the next spare pair of a die whose test passes; each one tried is used up (R399). The number taken. -/
def State.nextSparePair (s : State) (ch : Nat) (passes : List Bool) : Option Nat × State :=
  let used := Tbl.getD s.spares.pairsUsed ch 0
  let free := passes.take (4 - used)
  match (List.range free.length).find? fun i => free.getD i false with
  | some i =>
    (some (used + i), { s with spares := { s.spares with pairsUsed := Tbl.set s.spares.pairsUsed ch (used + i + 1) } })
  | none => (none, { s with spares := { s.spares with pairsUsed := Tbl.set s.spares.pairsUsed ch (used + free.length) } })

/-- The rows that the memory test of a channel found bad, in a pair: spare rows when each bank has enough, else a spare
pair, else the pair is retired (13 R418, R400). -/
def State.spareBadRows (s : State) (ch : Nat) (bad : List BadRow) (pair : Nat) : State :=
  let j := jetOf ch pair
  let mine := ((bad.filter fun b => b.pair == pair).map fun b => j * 2 ^ 17 + 8 * (b.row % 16384) + b.bank % 2).eraseDups
  let new := mine.filter fun r => (Tbl.get? s.spares.rowMap r).isNone
  let fits (bank : Nat) : Bool :=
    let l := new.filter fun r => r % 2 == bank
    match l with
    | [] => true
    | r :: _ => decide ((s.spareRowsOf r).length + l.length ≤ 8)
  if new.isEmpty || s.spares.deadPairs.contains j then s
  else if fits 0 && fits 1 then s.each new fun t r => (t.takeSpareRow r).getD t
  else
    match s.nextSparePair ch [true] with
    | (some k, t) => t.mapPair j k
    | (none, t) => t.retirePair j

/-! ### Resetting a jet (03 R123 to R125) -/

/-- A jet that failed its self-test is isolated: JET_BIST (R396, 03 R123). -/
def State.failJet (s : State) (j : Nat) : State :=
  (s.isolateJet j).fault
    { code := 0x12, srcKind := 0, srcIndex := s.jetSource j, part := s.ownerOfGroup (jetGroup j), addr := 0,
      syndrome := 0#64, place := none }

/-- The slots of a jet that hold commands of the sluice are collected (03 R124, assumption 51). -/
def State.collectJet (s : State) (j : Nat) : State :=
  s.each ((s.slc.cmds.filter fun c => c.2.jet == j).filterMap fun c => c.2.slot) fun u n => doSlotCollect j n u

/-- A JET reset (03 R124, R125): the switch opens, every slot ends ABORTED and is collected; memories are cleared, the store
is reloaded, and kernels 14 and 15 run: the switch closes only if both pass and PROG_OK is 1. -/
def State.resetJet (s : State) (j : Nat) (passed : Bool) : State :=
  let t := (s.isolateJet j).collectJet j
  let t := t.setJet j (t.clearedJet j)
  if passed && (t.jet j).progOk then t.placeCmds j 16 else t.failJet j

/-! ### Pair sparing (R399) -/

/-- The copy of a run's meta grain checks its page header against the descriptor (02 R50). -/
def State.spareHeader (s : State) (a : Alloc) (g : Nat) (ecc : EccReport) : State :=
  match a.use with
  | .run r => (match s.page? r with
      | some p => if p.desc.grain == a.first then s.scrubHeader r p g ecc else s
      | none => s)
  | _ => s

/-- PAIR_SPARING: take a spare pair of the die that passes its tests; from then on every write goes to both; copy every
allocated grain, checking ECC, write generation and tag (a failing grain is asked from the twin). PAIR_SPARE_SWITCH
switches. With no spare left, the pair is retired (R400). A sparing that runs already goes on with the next spare when
its spare fails (R411). -/
def doPairSparing (ch pair : Nat) (passes : List Bool) (ecc : EccReport) (s : State) : State :=
  let j := jetOf ch pair
  if !(s.serving && decide (ch < 128 ∧ pair < 64) && s.pairLive j) then s
  else
    match s.nextSparePair ch passes with
    | (none, t) => if 4 ≤ Tbl.getD t.spares.pairsUsed ch 0 then t.retirePair j else t
    | (some k, t) =>
      let t := { t with spares := { t.spares with sparing := Tbl.set t.spares.sparing j k } }
      t.each (t.allocs.filter fun a => grainJet a.first == j) fun u a =>
        u.each ((List.range a.len).map (a.first + ·)) fun v g =>
          let v := v.noteCorrected ecc 1 ch g
          if v.badGrains.contains g then v
          else match v.grainFault ecc g with
            | some c => v.failGrain c.1 1 ch g c.2
            | none => v.spareHeader a g ecc
/-- PAIR_SPARING. -/
def execPairSparing (ch pair : Nat) (sparePasses : List Bool) (ecc : EccReport) (s : State) :
    Host.Outcome State Fault Refusal :=
  run s (doPairSparing ch pair sparePasses ecc)

/-- PAIR_SPARE_SWITCH: once the pair's commands have ended, the logical pair switches to the spare; its jet is the
spare's, loaded and not isolated, and waiting commands go to it (R399). -/
def doPairSpareSwitch (ch pair : Nat) (s : State) : State :=
  let j := jetOf ch pair
  match Tbl.get? s.spares.sparing j with
  | none => s
  | some k =>
    if !(s.serving && decide (ch < 128 ∧ pair < 64) && (s.jet j).idle) then s
    else
      let t := (s.mapPair j k).setJet j (s.clearedJet j)
      let t := { t with flt := { t.flt with tests := t.flt.tests.filter fun x => match x.place with
        | .row g => grainJet g != j
        | .jet k => k != j
        | _ => true } }
      t.placeCmds j 16
/-- PAIR_SPARE_SWITCH. -/
def execPairSpareSwitch (ch pair : Nat) (s : State) : Host.Outcome State Fault Refusal := run s (doPairSpareSwitch ch pair)

end Sys2Proof.Machine
end

