-- ==== Sys2Proof/Machine/Reset.lean ====
section
/-! DEFINITION. Resets (12 R401, R406, R407; 13 R424 to R427, R494; 15 R472, R473, R490): what each scope clears and keeps,
the FATAL path, and the resets of one partition, one jet and the PCIe functions. -/

namespace Sys2Proof.Machine

/-! ### Node resets -/

/-- A page as NODE_RETAIN leaves it: its descriptor as last swapped, no SRAM copy, no migration (R406, 07 R211). -/
def Page.retained (p : Page) : Page := pageOf p.desc

/-- A (layer, KV head) after NODE_RETAIN. -/
def LHead.retained (h : LHead) : LHead := { h with pages := Tbl.mapVals h.pages fun _ p => p.retained }

/-- A partition after NODE_RETAIN: its resident set, in the cisterns, stays; its fixed area is cleared. -/
def PartState.retained (p : PartState) : PartState :=
  { PartState.init with
    posTabs := p.posTabs
    bases := Tbl.mapVals p.bases fun _ b => { b with heads := Tbl.mapVals b.heads fun _ h => h.retained } }

/-- Does an allocation stay across NODE_RETAIN: a run that a descriptor names, a table or an area in the cisterns; the
ring of a queue context does not. -/
def State.keepsAlloc (s : State) (a : Alloc) : Bool :=
  match a.use with
  | .run r => (match s.page? r with | some p => p.desc.grain == a.first | none => false)
  | .ring _ => false
  | _ => true

/-- The spare state as it is rebuilt from the spare map in flash at every boot: the valid half with the higher count (R402,
15 R482). -/
def Spares.rebuilt (x : Spares) : Spares :=
  let h := if Tbl.getD x.flashCount 1 0 < Tbl.getD x.flashCount 0 0 then 0 else 1
  let m := Tbl.getD x.flashMap h ([], [])
  { x with lost := [], sparing := [], laneTests := [], pairMap := m.1, rowMap := m.2 }

/-- The fault block after NODE_RETAIN: records, FATAL times and FLT_ counters stay; the WT_, SLC_ and SEC_ counters and
FLT_CTL take their Reset values (R403, R405). -/
def Flt.retained (x : Flt) (fatal : Bool) : Flt :=
  { x with
    ctl := fltCtlReset, fatalReset := fatal, tests := []
    nodeCtr := x.nodeCtr.filter fun c => decide (c.1 < 16)
    portCtr := x.portCtr.filter fun c => c.1 % 64 == pcLinkDown || c.1 % 64 == pcLaneSwap
    partCtr := x.partCtr.filter fun c => decide (8 ≤ c.1 % 64) }

/-- The twin after NODE_RETAIN: LAST_APPLIED and what a rejoin starts from stay (R494, 10 R333). -/
def Twin.retained (x : Twin) (repairs : List PageRef) : Twin :=
  { Twin.init with
    lastApplied := x.lastApplied, applied := x.applied, lastChange := x.lastChange, grainStamps := x.grainStamps
    unloads := x.unloads, repairs := repairs }

/-- The CONTAINED pages that the node holds. -/
def State.containedPages (s : State) : List PageRef :=
  (List.range 16).flatMap fun p => ((s.pagesOf p).filter fun x => x.2.desc.contained).map (·.1)

/-- Bring-up as a reset starts it (R412, R413). -/
def Boot.started (x : Boot) (scope : NodeScope) (last up : Nat) : Boot :=
  { Boot.init with
    lastReset := last, scope := scope, retained := scope == .retain, stageStart := up, resetAt := up
    selfRefresh := scope == .retain, fatalTimes := if scope == .retain then x.fatalTimes else [] }

/-- Pins at reset release: the straps are sampled, the transmitters are free again (15 R479, R490). -/
def Pins.released (x : Pins) : Pins :=
  { x with rstLow := false, railHold := false, tripped := false, squelched := false, ppsRise := none, latched := x.straps }

/-- The state that NODE_FULL leaves (R406): everything at its Reset value but fuses, pins, the spare map in flash, and
cistern content, which the memory test overwrites; a new incarnation (08 R252). -/
def State.afterFull (s : State) (last : Nat) : State :=
  let (w, t) := s.draw
  { State.reset with
    pending := s.pending, draws := t.draws, out := s.out, fuses := s.fuses, pins := s.pins.released
    boot := s.boot.started .full last s.clk.up, clk := { Clk.init with up := s.clk.up }, pwr := Pwr.init s.fuses.bin
    spares := s.spares.rebuilt, mem := s.mem, side := s.side
    wt := { Wt.init with incarnation := w.setWidth 32 } }

/-- The state that NODE_RETAIN leaves (R406, R494): as NODE_FULL, but cistern content and what describes it, the
allocation counters, the configuration image, the fault block, SEC_LOCK and LAST_APPLIED stay. -/
def State.afterRetain (s : State) (last : Nat) : State :=
  let t := s.afterFull last
  { t with
    boot := s.boot.started .retain last s.clk.up
    flt := s.flt.retained (last == 4)
    allocCtr := s.allocCtr
    allocs := s.allocs.filter s.keepsAlloc
    sessions := Tbl.mapVals s.sessions fun _ v => { v with heads := Tbl.mapVals v.heads fun _ h => h.retained }
    parts := Tbl.mapVals s.parts fun _ p => p.retained
    cfg := { Settings.init with lock := s.cfg.lock }
    ep := { Epochs.init with images := s.ep.images }
    sec := { Sec.init with scrubbing := (s.sec.scrubbing ++ s.ep.releasing.map Prod.fst).eraseDups }
    twin := s.twin.retained s.containedPages }

/-- Reset the node at a scope; bring-up starts at step 1 with LAST_RESET `last`. -/
def State.nodeReset (s : State) (scope : NodeScope) (last : Nat) : State :=
  match scope with
  | .full => s.afterFull last
  | .retain => s.afterRetain last

/-- The FATAL path (R394, R401): the event, the node silent, its cisterns in self-refresh, NODE_RETAIN; after the third
within an hour the node stays HELD, with its fountainhead answering the owner mailbox. -/
def State.fatal (s : State) (code kind idx : Nat) : State :=
  let t := s.fault { code := code, srcKind := kind, srcIndex := idx, part := none, addr := 0, syndrome := 0#64, place := none }
  let times := (t.boot.fatalTimes.filter fun x => decide (t.clk.up < x + hourNs)) ++ [t.clk.up]
  let t := { t with boot := { t.boot with fatalTimes := times } }
  let u := t.nodeReset .retain 4
  if times.length < 3 then u
  else
    let v := u.toStage 6
    { v with boot := { v.boot with pcieUp := true }, pins := { v.pins with squelched := true } }

/-- FATAL events in the last hour (R403). -/
def State.fatal1h (s : State) : Nat := (s.boot.fatalTimes.filter fun x => decide (s.clk.up < x + hourNs)).length

/-- WATCHDOG_EXPIRY (R401): in every stage of a powered node. -/
def doWatchdogExpiry (s : State) : State := if s.awake then s.fatal 0x23 10 0 else s
/-- WATCHDOG_EXPIRY. -/
def execWatchdogExpiry (now : Nat) (s : State) : Host.Outcome State Fault Refusal := run (s.upTo now) doWatchdogExpiry

/-- The code and the source kind of a FATAL event (R396, R404). -/
def fatalCode : FatalCode → Nat × Nat
  | .lockstep => (0x22, 9)
  | .gateMismatch => (0x21, 12)
  | .fhMem => (0x24, 9)

/-- FATAL_EVENT (R394). -/
def doFatalEvent (c : FatalCode) (idx : Nat) (s : State) : State :=
  if s.awake then s.fatal (fatalCode c).1 (fatalCode c).2 (if c == .gateMismatch then idx else 0) else s
/-- FATAL_EVENT. -/
def execFatalEvent (code : FatalCode) (srcIndex now : Nat) (s : State) : Host.Outcome State Fault Refusal :=
  run (s.upTo now) (doFatalEvent code srcIndex)

/-! ### Rails, the reset ball, thermal trips (15) -/

/-- POWER_ON: rails in limits, RST_N released: NODE_FULL with LAST_RESET 0 (13 R424, 15 R471). -/
def doPowerOn (straps : Straps) (s : State) : State :=
  if s.pins.rstLow then
    { s with pins := { s.pins with straps := straps, railOk := 0x7F#7 } }.nodeReset .full 0
  else s
/-- POWER_ON. -/
def execPowerOn (straps : Straps) (s : State) : Host.Outcome State Fault Refusal := run s (doPowerOn straps)

/-- RESET_BALL: a low level of 1 ms or longer resets at NODE_FULL; a shorter one has no effect (15 R473). A tripped node,
or one held by its rails, waits for its own release. -/
def doResetBall (lowNs : Nat) (s : State) : State :=
  if s.awake && decide (1000000 ≤ lowNs) then s.nodeReset .full 1 else s
/-- RESET_BALL. -/
def execResetBall (lowNs : Nat) (s : State) : Host.Outcome State Fault Refusal := run s (doResetBall lowNs)

/-- RAIL_OUT_OF_RANGE: RAIL_OK falls and RAIL_WARN is set; after more than 10 µs with RST_N high the transmitters are
squelched, FAULT_N is low, and the node holds itself in reset (15 R472, R486). -/
def doRailOutOfRange (rail ns : Nat) (s : State) : State :=
  if s.pins.rstLow || 7 ≤ rail then s
  else
    let ok := s.pins.railOk &&& ~~~(BitVec.ofNat 7 (2 ^ rail))
    let t := ({ s with pins := { s.pins with railOk := ok } }).raiseIrq 1
    if 10000 < ns then { t with pins := { t.pins with railHold := true, squelched := true } } else t
/-- RAIL_OUT_OF_RANGE. -/
def execRailOutOfRange (rail ns : Nat) (s : State) : Host.Outcome State Fault Refusal := run s (doRailOutOfRange rail ns)

/-- RAILS_RECOVERED: every rail is in range; after 1 ms of it a node held by its rails performs NODE_FULL with LAST_RESET 0
(15 R472). -/
def doRailsRecovered (ns : Nat) (s : State) : State :=
  if s.pins.rstLow then s
  else
    let t := { s with pins := { s.pins with railOk := 0x7F#7 } }
    if s.pins.railHold && !s.pins.tripped && decide (1000000 ≤ ns) then t.nodeReset .full 0 else t
/-- RAILS_RECOVERED. -/
def execRailsRecovered (ns : Nat) (s : State) : Host.Outcome State Fault Refusal := run s (doRailsRecovered ns)

/-- THERMAL_TRIP: 112 °C or more for 100 µs: transmitters squelched, cisterns in self-refresh, FAULT_N and THERM_ALERT_N
low, clocks stopped (15 R490). -/
def doThermalTrip (degC ns : Nat) (s : State) : State :=
  if s.awake && decide (112 ≤ degC ∧ 100000 ≤ ns) then
    { s with
      pins := { s.pins with tripped := true, squelched := true, ppsRise := none }
      boot := { s.boot with selfRefresh := true } }
  else s
/-- THERMAL_TRIP. -/
def execThermalTrip (degC ns : Nat) (s : State) : Host.Outcome State Fault Refusal := run s (doThermalTrip degC ns)

/-- THERMAL_TRIP_RELEASE: RST_N low for 1 ms with every sensor below 95 °C ends a trip with NODE_FULL; the reset ball was its
cause (15 R490, 13 R424). -/
def doThermalTripRelease (lowNs hottestC : Nat) (s : State) : State :=
  if s.pins.tripped && !s.pins.railHold && decide (1000000 ≤ lowNs ∧ hottestC < 95) then s.nodeReset .full 1 else s
/-- THERMAL_TRIP_RELEASE. -/
def execThermalTripRelease (lowNs hottestC : Nat) (s : State) : Host.Outcome State Fault Refusal :=
  run s (doThermalTripRelease lowNs hottestC)

/-- DRAM_HOT: above 85 °C the channel scheduler doubles the refresh of that die; at or below it, it does not (15 R489). -/
def doDramHot (ch degC : Nat) (s : State) : State :=
  if s.awake && decide (ch < 128) then
    let l := s.pins.hotDies.filter (· != ch)
    { s with pins := { s.pins with hotDies := if 85 < degC then l ++ [ch] else l } }
  else s
/-- DRAM_HOT. -/
def execDramHot (ch degC : Nat) (s : State) : Host.Outcome State Fault Refusal := run s (doDramHot ch degC)

/-! ### The command NODE_RESET (13 R427) -/

/-- NODE_RESET: body [0] scope (0 FULL, 1 RETAIN), [1] FORCE. -/
def opNodeReset : AgtanOp := { ownerOp 0x0003 8 with wt := false, mctp := true, early := true, rsvdOk := zeroBits 2 63 }

/-- NODE_RESET: refused in SOLO and RESYNC_SRC without FORCE; else answered, and the reset follows 1 ms later. -/
def doNodeReset (c : AgtanCmd) (s : State) : State :=
  s.agtan opNodeReset c fun t =>
    let v := leNat c.body
    if t.solo && !bit v 1 then t.respond opNodeReset.code c stFormat []
    else
      let scope : NodeScope := if bit v 0 then .retain else .full
      ({ t with boot := { t.boot with resetDue := some (scope, t.clk.up + 1000000) } }).respond opNodeReset.code c stOk []
/-- NODE_RESET. -/
def execNodeReset (c : AgtanCmd) (s : State) : Host.Outcome State Fault Refusal := run s (doNodeReset c)

/-- NODE_RESET_DELAY_EXPIRY: the reset that NODE_RESET named, 1 ms after its answer (14 R456); LAST_RESET 2 or 3. -/
def doNodeResetDelayExpiry (s : State) : State :=
  match s.boot.resetDue with
  | none => s
  | some r =>
    if s.awake && decide (r.2 ≤ s.clk.up) then s.nodeReset r.1 (if r.1 == .retain then 3 else 2) else s
/-- NODE_RESET_DELAY_EXPIRY. -/
def execNodeResetDelayExpiry (now : Nat) (s : State) : Host.Outcome State Fault Refusal :=
  run (s.upTo now) doNodeResetDelayExpiry

/-! ### PERST# (13 R426) -/

/-- The HOST and COMPLETION queues at TYPE 0, their landed messages gone (R426); the rest of a context stays, as at the end
of QUEUE_STOP (09 R281). -/
def State.closeHostQueues (s : State) : State :=
  let shut (_ : Nat) (q : Queue) : Queue := if qType q.ctx = 2 || qType q.ctx = 3 then
    { q with ctx := setField q.ctx 0 2 0, landed := [], stopping := false } else q
  { s with slc := { s.slc with queues := Tbl.mapVals s.slc.queues shut } }

/-- What PERST# does to the PCIe functions: HOST and COMPLETION queues to TYPE 0, admitted HOST requests end CANCELLED
without completion entries, mailbox response areas and MB_STATUS at their Reset values (R426, 14 R464), parked QUEUE_STOPs
of those queues complete. -/
def State.functionReset (s : State) : State :=
  let hosts := (s.slc.reqs.filter fun x => x.2.msg.isHost && !x.2.complete).map Prod.fst
  let stops := (s.slc.queues.filter fun q => (qType q.2.ctx == 2 || qType q.2.ctx == 3) && q.2.stopping).map Prod.fst
  let t := s.closeHostQueues
  let t := t.each hosts fun t r => t.endReq r stCancelled
  let t := t.unpark (fun op c => op == 0x0061#16 && stops.contains (leNat c.body)) stOk fun _ _ => []
  let fresh (_ : Nat) (m : Mbox) : Mbox :=
    { m with resp := [], state := 0, overrun := false, result := 0#8, seqDone := 0#16, seqTaken := 0#16 }
  let spdm := t.sec.spdm.filter fun (x : Nat × Spdm) => x.1 == 17
  { t with mboxes := Tbl.mapVals t.mboxes fresh, sec := { t.sec with spdm := spdm, ide := [] } }

/-- PERST: ignored until step 2 of bring-up has ended (15 R473). -/
def doPerst (s : State) : State := if s.awake && decide (2 ≤ s.boot.stage) then s.functionReset else s
/-- PERST. -/
def execPerst (s : State) : Host.Outcome State Fault Refusal := run s doPerst

/-! ### One jet (03 R125) -/

/-- JET_RESET (03 R125): a jet that fails stays isolated, and pair sparing follows (12 R396). -/
def doJetReset (j : Nat) (passed : Bool) (s : State) : State :=
  if s.awake && s.boot.computeDone && decide (j < 8192) then s.resetJet j passed else s
/-- JET_RESET. -/
def execJetReset (jet : Nat) (arrayPass bankPass : Bool) (s : State) : Host.Outcome State Fault Refusal :=
  run s (doJetReset jet (arrayPass && bankPass))

end Sys2Proof.Machine
end

