-- ==== Sys2Proof/Machine/PartReset.lean ====
section
/-! DEFINITION. The reset of one partition (12 R406, R407; 09 R294; 03 R126; 11 R375; 14 R464): it begins with the command
and ends with PARTITION_RESET_END, when the parked command completes; and the scrub of released resources (11 R353). -/

namespace Sys2Proof.Machine

/-- PARTITION_RESET: body [0] SCRUB. -/
def opPartitionReset : AgtanOp :=
  { agtanOp 0x0004 8 with part0 := fun _ => true, exempt := true, rsvdOk := zeroBits 1 63 }

/-- Every landed and admitted request of a partition, and every forward of one, ends with CANCELLED (R294). -/
def State.cancelRequests (s : State) (p : Nat) : State :=
  let t := s.each ((s.slc.reqs.filter fun x => x.2.msg.part == p && !x.2.complete).map Prod.fst) fun t r =>
    t.endReq r stCancelled
  let t := t.each (t.slc.queues.flatMap fun q => q.2.landed.filter fun m => m.part == p) fun t m =>
    t.refuseLanded m stCancelled
  t.each (t.twin.forwards.filter fun f => match f.msg with | some m => m.part == p | none => false) fun t f =>
    t.settleForward f stCancelled []

/-- The open messages on a partition's queues are discarded: its FABRIC rings are emptied (R294). -/
def State.dropOpens (s : State) (p : Nat) : State :=
  s.each (s.wt.rx.filter fun x => match x.2.msg with
    | some m => m.queue != noQueue && s.ownerOfQueue m.queue == some p
    | none => false) fun t x => t.dropOpen (x.1 / 4) (x.1 % 4)

/-- The outcome of kernels 14 and 15 in the reset of a jet, a free value: the command carries none (assumption 70). -/
def State.drawTest (s : State) : Bool × State :=
  let (w, t) := s.draw
  (w.getLsbD 0, t)

/-- A jet in the reset of its partition: memories cleared, store loaded, the switch closed only if its kernels pass; it
holds no command any more (03 R125, R126). -/
def State.resetJetOf (s : State) (j : Nat) : State :=
  let (ok, t) := s.drawTest
  t.resetJet j ok

/-- The commands of a partition's jets are gone, and the jets are isolated and reset together (03 R126). -/
def State.resetJets (s : State) (p : Nat) : State :=
  let mine := s.partJets p
  let gone := (s.slc.cmds.filter fun c => slPart c.2.word == p).map Prod.fst
  let t := { s with slc := { s.slc with
    cmds := s.slc.cmds.filter fun c => slPart c.2.word != p
    waitCmds := Tbl.mapVals s.slc.waitCmds fun _ l => l.filter fun n => !gone.contains n } }
  t.each ((t.jets.map Prod.fst).filter mine.contains) State.resetJetOf

/-- A page that loses its promoted copy and its migration (R406). -/
def Page.unpromoted (p : Page) : Page :=
  if p.promoted then { p with copy := none, oldCopy := none, desc := { p.desc with inSram := false } } else p

/-- The partition's promoted copies, migrations, provisional sets and fixed area are gone (R406); pages, tail tokens, queue
contexts, windows and the map stay. -/
def State.clearPart (s : State) (p : Nat) : State :=
  let t := s.dropProvs fun z => (s.session? z.session).elim true fun v => v.part == p
  let t := t.each (t.pagesOf p) fun t x => (t.abandonMigr x.1).updPage x.1 Page.unpromoted
  t.updPart p fun x => { (x.cleared t.clk.ftime 0 256) with scales := [] }

/-- Is a parked command one that a reset of partition p ends with CANCELLED (14 R464)? -/
def cutByReset (p : Nat) (op : BitVec 16) (c : AgtanCmd) : Bool := c.mb == p + 1 && op != opPartitionReset.code

/-- The parked commands of mailbox 1 + p end with CANCELLED; a queue whose last QUEUE_STOP ends so lands again. -/
def State.cancelParked (s : State) (p : Nat) : State :=
  let t := s.unpark (cutByReset p) stCancelled fun _ _ => []
  let held (q : Nat) : Bool := t.mboxes.any fun m => m.2.parked.any fun x => x.1 == opQueueStop.code && leNat x.2.body == q
  let free (k : Nat) (q : Queue) : Queue :=
    if q.stopping && t.ownerOfQueue k == some p && !held k then { q with stopping := false } else q
  { t with slc := { t.slc with queues := Tbl.mapVals t.slc.queues free } }

/-- The reset of a partition begins (R406). -/
def State.beginPartReset (s : State) (p : Nat) : State :=
  if s.sec.resetting.contains p then s
  else
    let t := { s with sec := { s.sec with resetting := s.sec.resetting ++ [p] } }
    ((((t.cancelRequests p).dropOpens p).resetJets p).clearPart p).cancelParked p

/-- PARTITION_RESET: the command is parked until the reset ends. -/
def doPartitionReset (c : AgtanCmd) (s : State) : State :=
  s.agtan opPartitionReset c fun t => (t.park opPartitionReset c).beginPartReset (cmdPart c)
/-- PARTITION_RESET. -/
def execPartitionReset (c : AgtanCmd) (s : State) : Host.Outcome State Fault Refusal := run s (doPartitionReset c)

/-- The key slots of a partition: its job slots and its mirror slot (11 R371). -/
def State.keysOf (s : State) (p : Nat) : List Nat :=
  (p + 1) :: (List.range (mapKeyCount (s.pmap p))).map (mapKeyFirst (s.pmap p) + ·)

/-- The scrub of a partition's groups that its reset was asked for: every grain zero, and with them the partition's pages,
sessions and resident set; its rings, session tables and landing area stay allocated, and read zero (assumption 71). -/
def State.scrubPart (s : State) (p : Nat) : State :=
  let t := s.each (mapGroups (s.pmap p)) State.zeroGroup
  let t := t.freeAllocs fun a => t.ownerOfGrain a.first == some p && (match a.use with
    | .ring _ | .landing _ | .table _ => false
    | _ => true)
  let t := { t with sessions := t.sessions.filter fun x => x.2.part != p }
  t.updPart p fun x => { x with bases := [], posTabs := [] }

/-- PARTITION_RESET_END: keys erased, the groups scrubbed when asked for, the fence lifted; KEY_RETIREs of those slots and
the parked PARTITION_RESET complete with OK (R406, R407, 11 R375, R380). -/
def doPartitionResetEnd (p : Nat) (s : State) : State :=
  if !(s.awake && s.sec.resetting.contains p) then s
  else
    let ks := s.keysOf p
    let scrub := s.mboxes.any fun m => m.2.parked.any fun x =>
      x.1 == opPartitionReset.code && cmdPart x.2 == p && bit (leNat x.2.body) 0
    let t := s.each ks fun t k => t.setKey k KeySlot.init
    let t := t.unpark (fun op c => op == 0x0073#16 && ks.contains (leNat c.body)) stOk fun _ _ => []
    let t := if scrub then t.scrubPart p else t
    let t := { t with sec := { t.sec with
      resetting := t.sec.resetting.filter (· != p), fenced := t.sec.fenced.filter (· != p) } }
    t.unpark (fun op c => op == opPartitionReset.code && cmdPart c == p) stOk fun _ _ => []
/-- PARTITION_RESET_END. -/
def execPartitionResetEnd (part now : Nat) (s : State) : Host.Outcome State Fault Refusal :=
  run s fun t => doPartitionResetEnd part (t.upTo now)

/-! ### Scrubbing (11 R353) -/

/-- A window entry at its Reset value with GEN raised by one (R353). -/
def scrubbedWindow (v : BitVec 256) : BitVec 256 := setField 0#256 64 16 ((winGen v).toNat + 1)

/-- The scrub of a resource. -/
def State.scrub (s : State) : Resource → State
  | .channelGroup g =>
    let t := (s.zeroGroup g).freeAllocs fun a => grainGroup a.first == g
    t.each ((t.jets.map Prod.fst).filter fun j => jetGroup j == g) State.resetJetOf
  | .slice n => { s with slc := { s.slc with queues := s.slc.queues.filter fun q => q.1 / 65536 != n } }
  | .cluster _ => s
  | .windowBlock b =>
    let ids := (List.range 4096).map fun i => 4096 * b + i
    let w := ids.foldl (fun t w => Tbl.set t w (scrubbedWindow (Tbl.getD t w 0#256))) s.cfg.windows
    { s with cfg := { s.cfg with windows := w } }
  | .keySlot k => s.setKey k KeySlot.init
  | .sessionBlock b =>
    ({ s with sessions := s.sessions.filter fun x => x.1 / 65536 != b }).freeAllocs fun a => match a.use with
      | .table k => k == b
      | _ => false

/-- RESOURCE_SCRUB_DONE: the resource is FREE (R353). -/
def doResourceScrubDone (r : Resource) (s : State) : State :=
  if s.awake && s.sec.scrubbing.contains r then
    let t := (s.scrub r).writeGates r 0#64
    { t with sec := { t.sec with scrubbing := t.sec.scrubbing.filter (· != r) } }
  else s

/-- RESOURCE_SCRUB_DONE. -/
def execResourceScrubDone (res : Resource) (s : State) : Host.Outcome State Fault Refusal :=
  run s (doResourceScrubDone res)

end Sys2Proof.Machine
end

