-- ==== Sys2Proof/Machine/Bringup.lean ====
section
/-! DEFINITION. Bring-up (13 R412 to R425, R437; 12 R387, R402; 10 R329, R349; 15 R475): the events that end its stages, its
overruns, service open, and the reference clocks. -/

namespace Sys2Proof.Machine

/-- Nanoseconds of a millisecond. -/
def msNs : Nat := 1000000

/-! ### Steps 1 and 2 -/

/-- Does the boot ROM accept an image (R414)? -/
def State.imageOk (s : State) (i : ImageCheck) : Bool :=
  (i.signatureOk || !s.fuses.secureBoot) && decide (s.fuses.fwSvnMin.toNat ≤ i.svn.toNat)

/-- Run an image: its digest is measurement 2, and step 2 begins. -/
def State.runImage (s : State) (b : Bool) (i : ImageCheck) : State :=
  { s with boot := { s.boot with fwImage := b, fwDigest := i.digest } }.toStage 1

/-- FIRMWARE_VERIFY: image A, else B, else FAILED (R414). -/
def doFirmwareVerify (a b : ImageCheck) (s : State) : State :=
  if !(s.awake && s.boot.stage == 0) then s
  else if s.imageOk a then s.runImage false a
  else if s.imageOk b then s.runImage true b
  else s.toFailed 1
/-- FIRMWARE_VERIFY. -/
def execFirmwareVerify (a b : ImageCheck) (now : Nat) (s : State) : Host.Outcome State Fault Refusal :=
  run s fun t => doFirmwareVerify a b (t.upTo now)

/-- Are all reference clocks in range (15 R475)? -/
def Pins.clocksOk (x : Pins) : Bool := x.clkPe && x.clkSd0 && x.clkSd1 && x.clkSys

/-- CLOCKS_LOCKED: PCIe is up, step 3 begins; a clock that is absent leaves the node FAILED (15 R475). -/
def doClocksLocked (s : State) : State :=
  if !(s.awake && s.boot.stage == 1) then s
  else if s.pins.clocksOk then { s with boot := { s.boot with pcieUp := true } }.toStage 2
  else s.toFailed 2
/-- CLOCKS_LOCKED. -/
def execClocksLocked (now : Nat) (s : State) : Host.Outcome State Fault Refusal :=
  run s fun t => doClocksLocked (t.upTo now)

/-! ### Step 3: the cisterns -/

/-- The owner gates of the map in force (11 R357); a resource still to be scrubbed is fenced. -/
def State.restoreGates (s : State) : State :=
  let t := s.each (List.range 16) fun t p =>
    t.each (mapResources (t.pmap p)) fun t r => t.writeGates r (gateOwned p)
  t.each t.sec.scrubbing fun t r => t.writeGates r gateScrub

/-- The newest copy of the configuration image whose digest verifies (R425). -/
def Epochs.newest (x : Epochs) : Option Image :=
  (x.images.filter fun i => i.2.digestOk).foldl (fun b i => match b with
    | none => some i.2
    | some v => if v.epoch < i.2.epoch then some i.2 else some v) none

/-- The configuration in force again after NODE_RETAIN; without a whole image, NODE_FULL with LAST_RESET 6 (R425). -/
def State.restoreImage (s : State) : State :=
  match s.ep.newest with
  | none => s.nodeReset .full 6
  | some i =>
    let t := { s with
      cfg := { i.settings with lock := s.cfg.lock ||| i.settings.lock }
      ep := { s.ep with epoch := i.epoch }
      clk := { s.clk with epochSec := i.settings.fepoch }
      boot := { s.boot with cfgRestored := true } }
    t.restoreGates

/-- Has a channel ended step 3? -/
def State.channelDone (s : State) (ch : Nat) : Bool :=
  s.spares.lost.contains ch ||
    (s.boot.chTrained.contains ch && (s.boot.scope == .retain || s.boot.chTested.contains ch))

/-- Step 3 ends when every channel has: links train next, and the bound of step 4 starts (R412). -/
def State.endStep3 (s : State) : State :=
  if !(List.range 128).all s.channelDone then s
  else
    let t := { s with boot := { s.boot with selfRefresh := false } }
    let t := if t.boot.scope == .retain then t.restoreImage else t
    if t.boot.stage = 2 then { t with boot := { t.boot with step4At := t.clk.up } }.toStage 3 else t

/-- Failures of training at which a channel is lost: three, after the short retrain at NODE_RETAIN (R417, R419). -/
def NodeScope.lossAt : NodeScope → Nat
  | .full => 3
  | .retain => 4

/-- CHANNEL_TRAINING_DONE (R417, R419). -/
def doChannelTrainingDone (ch : Nat) (passed : Bool) (s : State) : State :=
  if !(s.awake && s.boot.stage == 2 && decide (ch < 128)) || s.boot.chTrained.contains ch || s.spares.lost.contains ch then s
  else if passed then { s with boot := { s.boot with chTrained := s.boot.chTrained ++ [ch] } }.endStep3
  else
    let n := Tbl.getD s.boot.chFails ch 0 + 1
    let t := { s with boot := { s.boot with chFails := Tbl.set s.boot.chFails ch n } }
    if n < s.boot.scope.lossAt then t else (t.loseChannel ch).endStep3
/-- CHANNEL_TRAINING_DONE. -/
def execChannelTrainingDone (ch : Nat) (passed : Bool) (s : State) : Host.Outcome State Fault Refusal :=
  run s (doChannelTrainingDone ch passed)

/-- Every grain of a channel is zero, with its carry tag and write generation 0 (R418). -/
def State.zeroChannel (s : State) (ch : Nat) : State :=
  { s with
    mem := Memory.clear s.mem fun a => grainChannel (a / 512) == ch
    side := s.side.filter fun x => jetChannel (keyJet x.1) != ch }

/-- MEMORY_TEST_DONE: the channel's grains are zero; bad rows go to spare rows, pairs with too many of them to spare pairs
(R418). -/
def doMemoryTestDone (ch : Nat) (bad : List BadRow) (s : State) : State :=
  if !(s.awake && s.boot.stage == 2 && s.boot.scope == .full && s.boot.chTrained.contains ch) ||
      s.boot.chTested.contains ch then s
  else
    let t := s.zeroChannel ch
    let t := t.each (List.range 64) fun t pair => t.spareBadRows ch bad pair
    { t with boot := { t.boot with chTested := t.boot.chTested ++ [ch] } }.endStep3
/-- MEMORY_TEST_DONE. -/
def execMemoryTestDone (ch : Nat) (badRows : List BadRow) (s : State) : Host.Outcome State Fault Refusal :=
  run s (doMemoryTestDone ch badRows)

/-! ### Step 4: the links -/

/-- Does a peer's identity match the wiring of a parterre board at a port (10 R349)? -/
def wiredAs (me : Straps) (port : Nat) (peer : LinkId) : Bool :=
  if port ≤ 6 then peer.port == 6 - port && peer.brdPos.toNat == (me.brdPos.toNat + port + 1) % 8
  else if port ≤ 8 then peer.port == port && peer.brdPos != me.brdPos
  else false

/-- Does a port run in direct-link mode (R421): both ends send the identity of one board, wired as R349? A board identity of
0 names no board (15 R479). -/
def State.directLink (s : State) (port : Nat) (peer : LinkId) : Bool :=
  s.pins.latched.brdId != 0#8 && peer.brdId == s.pins.latched.brdId && wiredAs s.pins.latched port peer

/-- The reference clock of a port's half is in range (15 R474). -/
def State.portClock (s : State) (port : Nat) : Bool := if port < 12 then s.pins.clkSd0 else s.pins.clkSd1

/-- Step 4 ends when every port has trained (R420). -/
def State.endStep4 (s : State) : State :=
  if s.boot.stage = 3 && (List.range 24).all (fun p => s.boot.portsTried.contains p) then s.toStage 4 else s

/-- LANE_TRAINING_DONE: a port's link comes up in direct-link mode at the lower of both ends' rates on 8 lanes (01 R23), or in
standard mode at 8 × 224 Gb/s, or stays down (R421). A port that a lasting lane fault keeps down does not come up (12
R400). -/
def doLaneTrainingDone (port : Nat) (up : Bool) (peer : Option LinkId) (s : State) : State :=
  if !(s.awake && decide (3 ≤ s.boot.stage ∧ s.boot.stage ≤ 5 ∧ port < 24)) || s.boot.portsTried.contains port ||
      (s.port port).up then s
  else
    let t := { s with boot := { s.boot with portsTried := s.boot.portsTried ++ [port] } }
    if !up || t.spares.portsOut.contains port || !t.portClock port then t.endStep4
    else
      let direct := match peer with | some i => t.directLink port i | none => false
      let rate := match peer with
        | some i => if direct then min i.maxGbps t.limits.2.2.2 else 224
        | none => 224
      let t := t.updPort port fun x => { x with up := true, direct := direct, gbps := 8 * rate, peer := peer }
      (t.linkCameUp port).endStep4
/-- LANE_TRAINING_DONE. -/
def execLaneTrainingDone (port : Nat) (up : Bool) (peer : Option LinkId) (s : State) : Host.Outcome State Fault Refusal :=
  run s (doLaneTrainingDone port up peer)

/-- A port's training may run again. -/
def State.retrainPort (s : State) (port : Nat) : State :=
  { s with boot := { s.boot with portsTried := s.boot.portsTried.filter (· != port) } }

/-- LANE_RETRY_TIMER: a port still down after step 4 trains again in the background (R420). -/
def doLaneRetryTimer (port : Nat) (s : State) : State :=
  if s.awake && decide (4 ≤ s.boot.stage ∧ s.boot.stage ≤ 5) && !(s.port port).up then s.retrainPort port else s
/-- LANE_RETRY_TIMER. -/
def execLaneRetryTimer (port now : Nat) (s : State) : Host.Outcome State Fault Refusal :=
  run s fun t => doLaneRetryTimer port (t.upTo now)

/-! ### Step 5 -/

/-- A confluence array out of service (12 R399, R400): physical array 17 × cluster + k is replaced by the cluster's spare, or
nothing replaces it. -/
def State.loseArray (s : State) (a : Nat) : State :=
  match Tbl.get? s.spares.clusterUsed (a / 17) with
  | some k => if k = a % 17 then s else s.spareEvent false 3 a
  | none =>
    ({ s with spares := { s.spares with clusterUsed := Tbl.set s.spares.clusterUsed (a / 17) (a % 17) } }).sparedIn 3 a

/-- COMPUTE_STAGE_DONE: every jet's store is loaded and checked, and the jets and arrays that failed are out (R412). -/
def doComputeStageDone (failedJets failedArrays : List Nat) (s : State) : State :=
  if !(s.awake && s.boot.stage == 4) || s.boot.computeDone then s
  else
    let t := { s with
      jets := (List.range 8192).map fun j => (j, s.clearedJet j)
      boot := { s.boot with computeDone := true, failedJets := failedJets.filter (· < 8192) } }
    let t := t.each (failedJets.filter (· < 8192)) State.failJet
    t.each (failedArrays.filter (· < 272)) State.loseArray
/-- COMPUTE_STAGE_DONE. -/
def execComputeStageDone (failedJets failedArrays : List Nat) (now : Nat) (s : State) :
    Host.Outcome State Fault Refusal :=
  run s fun t => doComputeStageDone failedJets failedArrays (t.upTo now)

/-! ### Overruns (R415) -/

/-- The bound in ns of the stage that runs (R412); step 5 is over once the compute stage is done. -/
def State.stageBound (s : State) : Option Nat :=
  if s.boot.stage = 0 then some (200 * msNs)
  else if s.boot.stage = 1 then some (50 * msNs)
  else if s.boot.stage = 2 then some ((if s.boot.scope == .full then 1800 else 400) * msNs)
  else if s.boot.stage = 3 then some (500 * msNs)
  else if s.boot.stage = 4 && !s.boot.computeDone then some (300 * msNs)
  else none

/-- STAGE_OVERRUN: step 4 ends at its bound (R420); another step past its bound restarts bring-up with the same scope, and
the second time leaves the node FAILED (R415). -/
def doStageOverrun (s : State) : State :=
  match s.stageBound with
  | none => s
  | some b =>
    if !(s.awake && decide (s.boot.stageStart + b ≤ s.clk.up)) then s
    else if s.boot.stage = 3 then s.toStage 4
    else if s.boot.overruns = 0 then
      let t := s.nodeReset s.boot.scope 5
      { t with boot := { t.boot with overruns := 1 } }
    else s.toFailed 3
/-- STAGE_OVERRUN. -/
def execStageOverrun (now : Nat) (s : State) : Host.Outcome State Fault Refusal := run s fun t => doStageOverrun (t.upTo now)

/-! ### Service opens (R423, R437) -/

/-- May service open: step 5 has ended, and fabric time has locked or 10 s have passed since the bound of step 4? -/
def State.mayOpen (s : State) : Bool :=
  s.awake && s.boot.stage == 4 && s.boot.computeDone &&
    (s.clk.locked || decide (s.boot.step4At + 500 * msNs + 10000 * msNs ≤ s.clk.up))

/-- Fabric time under another FABRIC_EPOCH_S: a locked clock steps as service opens (07 R215). -/
def Clk.withEpoch (c : Clk) (sec : Nat) : Clk :=
  { c with
    epochSec := sec
    ftime := if c.locked then c.ftime + c.epochSec * 1000000000 - sec * 1000000000 else c.ftime }

/-- The pre-service epoch is applied (R437): all accepted commits together, without their tick settings when ORIGIN would be
later than the time at which they apply. -/
def State.openEpoch (s : State) : State :=
  let items := s.ep.early.flatMap fun p => s.pendItems p.what
  let sets := s.ep.early.filterMap fun p => match p.what with | .set n => some n | .dir _ => none
  let new := s.cfg.withItems items
  let ticks := items.any isTick
  let clk := s.clk.withEpoch new.fepoch
  let reject := ticks && !originOk new clk.ftime
  let items := if reject then items.filter fun x => !isTick x else items
  let t := { s with clk := if reject then s.clk.withEpoch s.cfg.fepoch else clk }
  if s.ep.early.isEmpty then t
  else
    let t := { t with ep := { t.ep with
      epoch := t.ep.epoch + 1, early := [], draining := true, tickRejected := t.ep.tickRejected || reject } }
    let t := (t.applyItems items (takeOvers items t.clk.ftime)).each sets State.reopen
    doEpochDrainEnd t

/-- Weir lists in force at service open take over from it (09 R304). -/
def State.openWeirs (s : State) : State :=
  s.each s.cfg.weirs fun t w => t.updPort w.1 fun x => { x with weirNext := some (some w.2, takeOver w.2.hdr s.clk.ftime) }

/-- A tail page's tokens, read again from its run after NODE_RETAIN, each grain verified (12 R387); a failing page is
CONTAINED. A sealed page has no SRAM copy. -/
def State.rebuildPage (s : State) (r : PageRef) (p : Page) (tokens : Nat) : State :=
  if !p.desc.tail then s.updPage r fun x => { x with desc := { x.desc with inSram := false } }
  else
    match s.pageRows eccNone { p with desc := { p.desc with inSram := false } } with
    | .ok (ks, vs) =>
      s.updPage r fun x => { x with copy := some (.tail (List.zipWith mkToken (ks.take tokens) (vs.take tokens))) }
    | .error e => s.failPage r e

/-- The tokens of page n of a (layer, KV head) with a count. -/
def tokensIn (count n : Nat) : Nat := min 16 (count - 16 * n)

/-- The tokens of the (layer, KV head) of a page. -/
def State.headCount (s : State) (r : PageRef) : Nat :=
  let h := lhKey r.layer r.head
  if r.base then ((Tbl.get? (s.part r.part).bases r.owner).elim LHead.init fun b => Tbl.getD b.heads h LHead.init).count
  else ((s.session? r.owner).elim LHead.init fun v => Tbl.getD v.heads h LHead.init).count

/-- Every page after NODE_RETAIN. -/
def State.rebuildPages (s : State) : State :=
  s.each (List.range 16) fun t p => t.each (t.pagesOf p) fun t x =>
    t.rebuildPage x.1 x.2 (tokensIn (t.headCount x.1) x.1.page)

/-- SERVICE_OPEN: HOLDOVER and SYNC_FAULT without a lock; the pre-service epoch; the image; a pair is JOINING (R423, R425,
R437, 10 R329). -/
def doServiceOpen (s : State) : State :=
  if !s.mayOpen then s
  else
    let t := if s.clk.locked then s else { s with clk := { s.clk with holdover := true, syncFault := true } }
    let early := t.ep.early.isEmpty
    let t := t.openEpoch.openWeirs
    let t := if t.boot.scope == .full || !early then t.writeImage else t
    let t := if t.boot.scope == .retain then t.rebuildPages else t
    let t := { t with twin := { t.twin with
      state := if t.pairEn then twJoining else twUnpaired, joinAt := t.clk.ftime } }
    { t with boot := { t.boot with bootMs := t.bootMsNow } }.toStage 5
/-- SERVICE_OPEN. -/
def execServiceOpen (now : Nat) (s : State) : Host.Outcome State Fault Refusal := run s fun t => doServiceOpen (t.upTo now)

/-! ### Reference clocks (15 R475) -/

/-- Mark a clock present or absent. -/
def Pins.withClock (x : Pins) (c : RefClk) (here : Bool) : Pins :=
  match c with
  | .pe => { x with clkPe := here }
  | .sd0 => { x with clkSd0 := here }
  | .sd1 => { x with clkSd1 := here }
  | .sys => { x with clkSys := here }

/-- The ports of a SerDes reference. -/
def halfPorts : RefClk → List Nat
  | .sd0 => List.range 12
  | .sd1 => (List.range 12).map (12 + ·)
  | _ => []

/-- CLOCK_ABSENT: at step 2 the node fails; in service the PCIe link falls, or a half's ports lose link; without SYSCLK_25M
the watchdog acts (WATCHDOG_EXPIRY). -/
def doClockAbsent (c : RefClk) (s : State) : State :=
  let t := { s with pins := s.pins.withClock c false }
  if !s.awake then t
  else if s.boot.stage = 1 then t.toFailed 2
  else if s.boot.stage != 5 then t
  else if c == .pe then
    let u := t.functionReset
    { u with boot := { u.boot with pcieUp := false } }
  else t.each (halfPorts c) State.linkLost
/-- CLOCK_ABSENT. -/
def execClockAbsent (clk : RefClk) (s : State) : Host.Outcome State Fault Refusal := run s (doClockAbsent clk)

/-- CLOCK_RETURN: the ports of the half retrain; PCIe is up again once step 2 has ended. -/
def doClockReturn (c : RefClk) (s : State) : State :=
  let t := { s with pins := s.pins.withClock c true }
  if !s.awake then t
  else if c == .pe then
    (if decide (2 ≤ s.boot.stage ∧ s.boot.stage ≤ 5) then { t with boot := { t.boot with pcieUp := true } } else t)
  else t.each ((halfPorts c).filter fun p => !(t.port p).up) State.retrainPort
/-- CLOCK_RETURN. -/
def execClockReturn (clk : RefClk) (s : State) : Host.Outcome State Fault Refusal := run s (doClockReturn clk)

/-- PCIE_CONFIG_REQUEST: Request Retry Status until step 2 has ended (R416); none while the link is down (15 R475). -/
def doPcieConfigRequest (s : State) : State :=
  if !s.awake then s
  else if s.boot.pcieUp then s.emit .configDone
  else if decide (2 ≤ s.boot.stage ∧ s.boot.stage ≤ 5) then s
  else s.emit .retryStatus
/-- PCIE_CONFIG_REQUEST. -/
def execPcieConfigRequest (_fn : Fn) (s : State) : Host.Outcome State Fault Refusal := run s doPcieConfigRequest

end Sys2Proof.Machine
end

