-- ==== Sys2Proof/Machine/Verdicts.lean ====
section
/-! DEFINITION. Self-tests, verdicts and the fault block's writes (12 R397 to R400, R403); lanes and TSVs (13 R422). -/

namespace Sys2Proof.Machine

/-! ### Lanes -/

/-- The lane of a port that is spare (R403). -/
def State.spareLane (s : State) (p : Nat) : Nat := Tbl.getD s.spares.spareLane p 8

/-- Has a direct link a spare lane that can take traffic: not used up, no lane of the port under test? -/
def State.hasSpareLane (s : State) (p : Nat) : Bool :=
  (s.port p).direct && !s.spares.laneNoSpare.contains p && (Tbl.get? s.spares.laneTests p).isNone

/-- A lane's traffic moves to the port's spare lane, and the lane retrains (R397, R422). -/
def State.swapLane (s : State) (p k : Nat) : State :=
  let t := if k = s.spareLane p then s else s.countPort p pcLaneSwap 1
  { t with spares := { t.spares with laneTests := Tbl.set t.spares.laneTests p k } }

/-- The whole port retrains: its link is lost, and flows move (08 R265). -/
def State.retrainWhole (s : State) (p : Nat) : State := (s.linkLost p).retrainPort p

/-- The test of a lane has ended: it is the port's new spare, or it stays out and the spare keeps its traffic (R398). -/
def State.laneTested (s : State) (p k : Nat) (good : Bool) : State :=
  let spare := s.spareLane p
  let t := { s with spares := { s.spares with
    laneTests := Tbl.erase s.spares.laneTests p, spareLane := Tbl.set s.spares.spareLane p k
    laneNoSpare := if good || s.spares.laneNoSpare.contains p then s.spares.laneNoSpare else s.spares.laneNoSpare ++ [p] } }
  if good then t else t.sparedIn 4 (9 * p + spare)

/-- A lasting lane fault without a spare: NO_SPARE, and the port stays down (R400). -/
def State.portOut (s : State) (p lane : Nat) : State :=
  let t := s.spareEvent false 4 lane
  let t := { t with spares := { t.spares with
    portsOut := if t.spares.portsOut.contains p then t.spares.portsOut else t.spares.portsOut ++ [p] } }
  t.linkLost p

/-- LANE_DEGRADE: on a direct link with a spare lane the traffic moves to it and the lane is tested; any other port is
retrained whole (R397). A lane already under test folds into its record (R411). -/
def doLaneDegrade (p k : Nat) (s : State) : State :=
  if !(s.awake && decide (p < 24 ∧ k < 9) && (s.port p).up) then s
  else
    let testing := Tbl.get? s.spares.laneTests p == some k
    let whole := !testing && !s.hasSpareLane p
    let t := s.fault
      { code := 0x19, srcKind := 4, srcIndex := 9 * p + k, part := none, addr := 0, syndrome := 0#64,
        place := some (if whole then .portLink p else .lane p k) }
    if testing then t else if whole then t.retrainWhole p else t.swapLane p k
/-- LANE_DEGRADE. -/
def execLaneDegrade (port lane : Nat) (_cause : LaneCause) (s : State) : Host.Outcome State Fault Refusal :=
  run s (doLaneDegrade port lane)

/-- LANE_RETRAIN: a body of lane L0 to L215. -/
def opLaneRetrain : AgtanOp := ownerOp 0x0005 8

/-- LANE_RETRAIN: a direct link moves the lane to its spare, and is refused without one; a standard-mode port retrains
whole (13 R422). -/
def doLaneRetrain (c : AgtanCmd) (s : State) : State :=
  s.agtan opLaneRetrain c fun t =>
    let n := leNat c.body
    let p := n / 9
    if 216 ≤ n then t.respond opLaneRetrain.code c stFormat []
    else if (t.port p).direct then
      (if t.hasSpareLane p then (t.swapLane p (n % 9)).respond opLaneRetrain.code c stOk []
       else t.respond opLaneRetrain.code c stNoRes [])
    else (t.retrainWhole p).respond opLaneRetrain.code c stOk []
/-- LANE_RETRAIN. -/
def execLaneRetrain (c : AgtanCmd) (s : State) : Host.Outcome State Fault Refusal := run s (doLaneRetrain c)

/-! ### Verdicts (R398) -/

/-- Did the place raise the code within the last REPEAT_H hours, with a test that passed? -/
def State.repeats (s : State) (p : Place) (code : Nat) : Bool :=
  s.flt.passed.any fun x => decide (x.1 = p) && x.2.1 == code && decide (s.clk.up < x.2.2 + s.repeatNs)

/-- Write a verdict into the record of a test, if the history still holds it. -/
def Flt.judge (f : Flt) (t : TestRun) (verdict : Nat) : Flt :=
  match Tbl.get? f.hist t.slot with
  | some r =>
    if r.verdict = 0 && r.code = t.code then { f with hist := Tbl.set f.hist t.slot { r with verdict := verdict } } else f
  | none => f

/-- What a LASTING verdict does at a place (R397, R399, R400): its spare comes in. A jet is isolated (03 R123) until
PAIR_SPARING replaces its pair, as it does a row's when its bank has no spare row left. -/
def State.lastingAt (s : State) : Place → State
  | .row g => (s.takeSpareRow g).getD s
  | .jet j => s.isolateJet j
  | .tsv ch =>
    let n := Tbl.getD s.spares.tsvsUsed ch 0
    if n < 16 then
      ({ s with spares := { s.spares with tsvsUsed := Tbl.set s.spares.tsvsUsed ch (n + 1) } }).sparedIn 1 ch
    else (s.spareEvent false 1 ch).loseChannel ch
  | .lane p k => s.laneTested p k false
  | .portLink p => s.portOut p (9 * p)
  | .subBank slice n =>
    let used := Tbl.getD s.spares.subBanks slice 0
    if used < 20 then
      ({ s with spares := { s.spares with subBanks := Tbl.set s.spares.subBanks slice (used + 1) } }).sparedIn 2 (404 * slice + n)
    else s.loseSubBank slice (404 * slice + n)
  | .array cluster k => s.loseArray (17 * cluster + k)

/-- What a TRANSIENT verdict does: the place returns to service. A row's content is copied back and its spare row released;
a jet's test is a JET reset (R397). -/
def State.transientAt (s : State) : Place → State
  | .lane p k => s.laneTested p k true
  | .portLink p => s.retrainPort p
  | .jet j => s.resetJet j true
  | .row g => { s with spares := { s.spares with rowCopy := Tbl.erase s.spares.rowCopy g } }
  | _ => s

/-- A self-test ends (R398). -/
def State.verdict (s : State) (x : TestRun) (passed : Bool) : State :=
  let lasting := !passed || s.repeats x.place x.code
  let f := s.flt.judge x (if lasting then 2 else 1)
  let f := { f with
    tests := f.tests.filter fun y => !decide (y.place = x.place)
    ceSeen := f.ceSeen.filter fun y => !decide (y.1 = x.place)
    passed := if passed then f.passed ++ [(x.place, x.code, s.clk.up)] else f.passed }
  let t := { s with flt := f }.count (if lasting then cLasting else cTransient) 1
  if lasting then t.lastingAt x.place else t.transientAt x.place

/-- Does the test of a place wait: a row's, while the jet of its pair is isolated (R411)? -/
def State.testWaits (s : State) : Place → Bool
  | .row g => (s.jet (grainJet g)).isolated
  | _ => false

/-- SELF_TEST_VERDICT: of a place that is under test. -/
def doSelfTestVerdict (p : Place) (passed : Bool) (s : State) : State :=
  match s.flt.tests.find? fun x => decide (x.place = p) with
  | some x => if s.awake && !s.testWaits p then s.verdict x passed else s
  | none => s
/-- SELF_TEST_VERDICT. -/
def execSelfTestVerdict (place : Place) (passed : Bool) (now : Nat) (s : State) : Host.Outcome State Fault Refusal :=
  run s fun t => doSelfTestVerdict place passed (t.upTo now)

/-- LANE_RETRAIN_DONE: the lane that retrains ends its PRBS31: the verdict of a test, or the outcome of LANE_RETRAIN (R398). -/
def doLaneRetrainDone (p k : Nat) (passed : Bool) (s : State) : State :=
  if !(s.awake && Tbl.get? s.spares.laneTests p == some k) then s
  else match s.flt.tests.find? fun x => decide (x.place = .lane p k) with
    | some x => s.verdict x passed
    | none => s.laneTested p k passed
/-- LANE_RETRAIN_DONE. -/
def execLaneRetrainDone (port lane : Nat) (passed : Bool) (s : State) : Host.Outcome State Fault Refusal :=
  run s (doLaneRetrainDone port lane passed)

/-- TSV_FAULT: one bit position failing in three banks of a channel within 1 ms starts the channel's test (R397). -/
def doTsvFault (ch banks ns : Nat) (s : State) : State :=
  if s.awake && decide (ch < 128 ∧ 3 ≤ banks ∧ ns ≤ 1000000) then
    s.fault { code := 0x17, srcKind := 1, srcIndex := ch, part := none, addr := 0, syndrome := 0#64, place := some (.tsv ch) }
  else s
/-- TSV_FAULT. -/
def execTsvFault (ch banks ns : Nat) (s : State) : Host.Outcome State Fault Refusal := run s (doTsvFault ch banks ns)

/-! ### The fault block's clears (R403) -/

/-- FLT_FIRST and FIRST_VALID are clear. -/
def State.clearFirst (s : State) : State := { s with flt := { s.flt with first := none } }

/-- The history queue is empty, and its next record takes slot 0 (assumption 72). -/
def State.clearHist (s : State) : State := { s with flt := { s.flt with hist := [], newest := none, next := 0 } }

/-- FIRST_CLR, by the physical function alone. -/
def execFirstClr (fn : Fn) (s : State) : Host.Outcome State Fault Refusal :=
  run s fun t => if t.ownerServed && fn == .pf then t.clearFirst else t

/-- HIST_CLR, by the physical function alone. -/
def execHistClr (fn : Fn) (s : State) : Host.Outcome State Fault Refusal :=
  run s fun t => if t.ownerServed && fn == .pf then t.clearHist else t

end Sys2Proof.Machine
end

