-- ==== Sys2Proof/Machine/Power.lean ====
section
/-! DEFINITION. The power manager (13 R428 to R430, 15 R470) and the fabric time unit (07 R212 to R215, 15 R476). -/

namespace Sys2Proof.Machine

/-! ### Power -/

/-- The level that a sample leads to (R428): package power p over the last 10 µs, its mean over the last 1 ms, whether the
junction is above TJ_STEP_C, and whether the level may fall. -/
def nextLevel (level p avg limit margin : Nat) (hot mayFall : Bool) : Nat :=
  if 5 * limit < 4 * p then min (level + 8) 40
  else if limit < avg + margin || hot then min (level + 1) 40
  else if mayFall then level - 1
  else level

/-- The mean of samples of power, in W. -/
def meanOf (l : List Nat) : Nat := l.foldl (· + ·) 0 / max 1 l.length

/-- VDD_CORE after one control step of 10 µs (15 R470): toward the target, in 5 mV steps within 650 to 850 mV, at most 1 mV
per µs. -/
def nextVdd (mv target : Nat) : Nat :=
  let t := min 850 (max 650 (target / 5 * 5))
  if mv + 5 ≤ t then min t (mv + 10) else if t + 5 ≤ mv then max t (mv - 10) else mv

/-- POWER_SAMPLE: the sensors' values, the average, the level, and VDD_CORE (R428, 15 R470, R486). After three AVSBus writes
without acknowledgement no clock rises (R470). The power manager runs from the end of step 1. -/
def doPowerSample (watts tjC tcisC : Nat) (s : State) : State :=
  if !(s.awake && decide (1 ≤ s.boot.stage)) then s
  else
    let x := s.pwr
    let up := s.clk.up
    let samples := ((x.samples ++ [watts]).drop ((x.samples.length + 1) - 100))
    let avg := meanOf samples
    let low := decide (avg + s.marginW + 40 < s.limitW) && decide (tjC + 5 < s.tjStep)
    let since := if low then some (x.lowSince.getD up) else none
    let mayFall := (match since with | some t => decide (t + 4000000 ≤ up) | none => false) &&
      (match x.loweredAt with | some t => decide (t + 1000000 ≤ up) | none => true) && !x.noRaise
    let level := nextLevel x.level watts avg s.limitW s.marginW (decide (s.tjStep < tjC)) mayFall
    let pwr : Pwr := { x with
      level := level, samples := samples, avg := avg, tj := tjC, lowSince := since
      loweredAt := if level < x.level then some up else x.loweredAt }
    let t := if !s.tjHot && decide (s.tjStep < tjC) then s.raiseIrq 2 else s
    let t := { t with pwr := pwr }
    { t with pins := { t.pins with
        tjMax := 4 * tjC, tcisMax := 4 * tcisC
        vddMv := nextVdd t.pins.vddMv (Config.vddTarget t.jetMhz t.cnfMhz tjC) } }
/-- POWER_SAMPLE. -/
def execPowerSample (watts tjC tcisC now : Nat) (s : State) : Host.Outcome State Fault Refusal :=
  run s fun t => doPowerSample watts tjC tcisC (t.upTo now)

/-- AVSBUS_NO_ACK: three consecutive AVSBus writes have gone without acknowledgement (15 R470). -/
def doAvsbusNoAck (s : State) : State :=
  if s.awake && decide (1 ≤ s.boot.stage) then { s with pwr := { s.pwr with noRaise := true } } else s
/-- AVSBUS_NO_ACK. -/
def execAvsbusNoAck (s : State) : Host.Outcome State Fault Refusal := run s doAvsbusNoAck

/-! ### Fabric time -/

/-- Nanoseconds of a second. -/
def secNs : Nat := 1000000000

/-- PTP time in ns: fabric time plus FABRIC_EPOCH_S (R212). -/
def Clk.ptp (c : Clk) : Nat := c.ftime + c.epochSec * secNs

/-- What the data set comparison of clause 9.3 compares of an announced clock, in order; a port breaks a tie (R212). -/
def clockKey (c : PtpClock) (port : Nat) : List Nat :=
  [c.priority1, c.clockClass, c.accuracy, c.variance, c.priority2, c.identity, c.steps, port]

/-- Does a list of numbers come before another, the first difference deciding? -/
def keyBefore : List Nat → List Nat → Bool
  | a :: s, b :: t => decide (a < b) || (decide (a = b) && keyBefore s t)
  | _, _ => false

/-- The port of the selected master: the best clock announced at a port whose link is up (R212). -/
def State.masterPort (s : State) : Option Nat :=
  ((s.clk.heard.filter fun x => (s.port x.1).up).foldl (fun (b : Option (Nat × PtpClock)) x =>
    match b with
    | none => some x
    | some y => if keyBefore (clockKey x.2 x.1) (clockKey y.2 y.1) then some x else b) none).map Prod.fst

/-- The clock with no measurement of a master in progress. -/
def Clk.unmeasured (c : Clk) : Clk := { c with sync := none, delayReq := none, pathNs := none }

/-- The clock after an offset from its master, its own time less the master's, is measured (R213): the first lock after
reset steps when service has not opened, fabric time never falling; any other offset is slewed out, and one beyond 1 ms after
service opened is a SYNC_FAULT. -/
def Clk.steer (c : Clk) (serving : Bool) (port : Nat) (off : Int) : Clk :=
  let c' := { c with locked := true, holdover := false, synced := true, ptpPort := port, offsetNs := off }
  if !c.synced && !serving then
    { c'.unmeasured with
      pathNs := c.pathNs, ftime := if off < 0 then c.ftime + off.natAbs else c.ftime, slewNs := max off 0 }
  else { c' with slewNs := off, syncFault := c.syncFault || (serving && decide (1000000 < off.natAbs)) }

/-- A Sync's times are both known: with the path delay measured the offset is steered on (R212). -/
def Clk.measure (c : Clk) (serving : Bool) (port : Nat) : Clk :=
  match c.sync.bind fun y => y.originNs.map fun t1 => (y.cameNs, t1), c.pathNs with
  | some (t2, t1), some d => c.steer serving port (t2 - t1 - d)
  | _, _ => c

/-- A Delay_Req goes to the master, unless one is outstanding (clause 11.3, R212). -/
def State.askDelay (s : State) (port : Nat) : State :=
  if s.clk.delayReq.isSome then s
  else
    let q := s.clk.delaySeq
    { s with clk := { s.clk with delayReq := some (q, s.clk.ptp), delaySeq := (q + 1) % 65536 } }.emit (.delayReq port q)

/-- A Sync of the master is complete: it is measured, and the path delay is measured again. -/
def State.syncDone (s : State) (port : Nat) : State :=
  ({ s with clk := s.clk.measure (s.boot.stage == 5) port } : State).askDelay port

/-- A message of the selected master (clause 11.3, R212): the path delay is half of what a Sync and a Delay_Req took
together. -/
def State.masterMessage (s : State) (port : Nat) : PtpMsg → State
  | .announce _ => s
  | .sync seq twoStep t1 =>
    let t := { s with clk := { s.clk with
      sync := some { seq := seq, cameNs := s.clk.ptp, originNs := if twoStep then none else some t1 } } }
    if twoStep then t else t.syncDone port
  | .followUp seq t1 =>
    match s.clk.sync with
    | some y =>
      if y.seq = seq && y.originNs.isNone then
        ({ s with clk := { s.clk with sync := some { y with originNs := some t1 } } } : State).syncDone port
      else s
    | none => s
  | .delayResp seq t4 =>
    match s.clk.delayReq, s.clk.sync.bind fun y => y.originNs.map fun t1 => (y.cameNs, t1) with
    | some (q, t3), some (t2, t1) =>
      if q = seq then
        let c := { s.clk with delayReq := none, pathNs := some ((((t2 : Int) - t1) + (t4 - t3)) / 2) }
        { s with clk := c.measure (s.boot.stage == 5) port }
      else s
    | _, _ => s

/-- An Announce is kept for its port, and another master selected by it is measured afresh. -/
def State.announced (s : State) (port : Nat) (c : PtpClock) : State :=
  let t := { s with clk := { s.clk with heard := Tbl.set s.clk.heard port c } }
  if t.masterPort = s.masterPort then t else { t with clk := t.clk.unmeasured }

/-- PTP_MESSAGE: from the start of step 4, over a port whose link is up; only the selected master's times are taken (R212,
13 R423). -/
def doPtpMessage (port : Nat) (m : PtpMsg) (s : State) : State :=
  if s.awake && decide (3 ≤ s.boot.stage ∧ s.boot.stage ≤ 5) && (s.port port).up then
    match m with
    | .announce c => s.announced port c
    | m => if s.masterPort = some port then s.masterMessage port m else s
  else s
/-- PTP_MESSAGE. -/
def execPtpMessage (port : Nat) (msg : PtpMsg) (s : State) : Host.Outcome State Fault Refusal := run s (doPtpMessage port msg)

/-- MASTER_LOST: no master is heard any more; HOLDOVER, on the 25 MHz reference (R213). -/
def doMasterLost (s : State) : State :=
  if s.awake && s.clk.locked then
    { s with clk := { s.clk.unmeasured with heard := [], locked := false, holdover := true } }
  else s
/-- MASTER_LOST. -/
def execMasterLost (s : State) : Host.Outcome State Fault Refusal := run s doMasterLost

/-- PPS_IN_EDGE: stamped on fabric time (15 R476). -/
def doPpsInEdge (s : State) : State := if s.awake then { s with clk := { s.clk with ppsInAt := some s.clk.ftime } } else s
/-- PPS_IN_EDGE. -/
def execPpsInEdge (s : State) : Host.Outcome State Fault Refusal := run s doPpsInEdge

/-- PPS_IN (R215): an edge was seen in the last second. -/
def Clk.ppsIn (c : Clk) : Bool := match c.ppsInAt with | some t => decide (c.ftime < t + secNs) | none => false

/-- PPS_OUT is high: for 100 ms from its rise (15 R476). -/
def State.ppsOut (s : State) : Bool :=
  match s.pins.ppsRise with | some t => s.serving && decide (s.clk.up < t + 100000000) | none => false

/-- PPS_OUT_SECOND: at a whole second of PTP time, from service open, while LOCKED or HOLDOVER is 1 (15 R476). -/
def doPpsOutSecond (s : State) : State :=
  if s.serving && (s.clk.locked || s.clk.holdover) && s.clk.ptp % secNs == 0 then
    { s with pins := { s.pins with ppsRise := some s.clk.up } }
  else s
/-- PPS_OUT_SECOND. -/
def execPpsOutSecond (now : Nat) (s : State) : Host.Outcome State Fault Refusal := run s fun t => doPpsOutSecond (t.upTo now)

end Sys2Proof.Machine
end

