-- ==== Sys2Proof/Machine/Keys.lean ====
section
/-! DEFINITION. Job key slots (11 R371 to R377, 14 R493): installs, switches, drops, retirement, lifetimes. -/

namespace Sys2Proof.Machine

/-! ### What a command may name -/

/-- Is a slot one that a mailbox may act on: the owner on slot 0, else a slot of the addressed partition (R371, R374)? -/
def State.slotOf (s : State) (c : AgtanCmd) (k : Nat) : Bool :=
  decide (k < 1024) && (if k = 0 then c.mb == 0 else s.ownerOfKey k == some (cmdPart c))

/-- A new key of slot 0 restarts every CTL_CTR (R379). -/
def State.newSendKey (s : State) (k : Nat) : State :=
  if k = 0 then { s with wt := { s.wt with ctlCtr := [] } } else s

/-! ### KEY_INSTALL -/

/-- SLOT of a blob's header (R373). -/
def kbSlot (b : List Byte) : Nat := field (leAt b 0 16) 0 10
/-- PART. -/
def kbPart (b : List Byte) : Nat := field (leAt b 0 16) 16 4
/-- MODE. -/
def kbMode (b : List Byte) : Nat := field (leAt b 0 16) 20 2
/-- JOB_ID. -/
def kbJob (b : List Byte) : Word32 := BitVec.ofNat 32 (field (leAt b 0 16) 32 32)
/-- EPOCH. -/
def kbEpoch (b : List Byte) : BitVec 8 := BitVec.ofNat 8 (field (leAt b 0 16) 64 8)
/-- The RsvdZ bits of the header. -/
def kbRsvdOk (b : List Byte) : Bool :=
  let v := leAt b 0 16
  fieldZero v 10 6 && fieldZero v 22 10 && fieldZero v 72 56

/-- The function a command came by: its requester, or the function of its SPDM session. -/
def cmdFn (c : AgtanCmd) : Option Fn :=
  match c.path with
  | .bar0 fn _ _ => some fn
  | .spdm (.fn fn) _ => some fn
  | _ => none

/-- A function's number (R373): 0 for the physical function, p + 1 for virtual function p + 1. -/
def fnNumber : Fn → Nat
  | .pf => 0
  | .vf p => p + 1

/-- The ASCII bytes of "corildy key wrap" (R373). -/
def wrapInfo : List Byte := leBytes 16 0x706172772079656b2079646c69726f63

/-- The wrap key of a function's SPDM session (R373). -/
def State.wrapKey (s : State) (fn : Fn) : Option Key :=
  let x := Tbl.getD s.sec.spdm (spdmIndex (.fn fn)) Spdm.init
  if x.isOpen then
    some (BitVec.ofNat 256 (beNat (hkdfExpand32 (digestBytes x.secret) (wrapInfo ++ leBytes 2 (fnNumber fn)))))
  else none

/-- K_NEW and K_OLD of a blob that verifies under its wrap key (R373). -/
def State.unwrap (s : State) (c : AgtanCmd) : Option (Key × Key) :=
  match (cmdFn c).bind s.wrapKey with
  | none => none
  | some k =>
    let b := c.body
    match gcmOpen k (BitVec.ofNat 96 (beNat (slice b 16 12))) (slice b 0 16) (slice b 28 64)
        (BitVec.ofNat 128 (beNat (slice b 92 16))) with
    | some pt => some (BitVec.ofNat 256 (beNat (slice pt 0 32)), BitVec.ofNat 256 (beNat (slice pt 32 32)))
    | none => none

/-- JOB_ID of a slot: 0 for slot 0, all ones for the mirror slots, any for a job slot (R373). -/
def jobOk (k : Nat) (job : Word32) : Bool :=
  if k = 0 then job == 0#32 else if k ≤ 16 then job == 0xFFFFFFFF#32 else true

/-- A slot after an install at a time, if R374 has the transition. -/
def KeySlot.install (x : KeySlot) (mode part : Nat) (job : Word32) (e : BitVec 8) (new old : Key) (now : Nat) :
    Option KeySlot :=
  let free := x.st == .empty || x.st == .retired
  let y : KeySlot := { KeySlot.init with part := part, job := job, atOld := now, atNew := now }
  if mode = 0 then (if free && old == 0#256 then some { y with st := .active, epoch := e, kOld := new } else none)
  else if mode = 2 then (if free then some { y with st := .nextTx, epoch := e - 1#8, kOld := old, kNew := new } else none)
  else if mode = 1 then
    (if x.st == .active && x.epoch + 1#8 == e && x.part == part && x.job == job && old == 0#256 then
      some { x with st := .nextRx, kNew := new, atNew := now, newDead := false } else none)
  else none

/-- KEY_INSTALL: the blob of R373. -/
def opKeyInstall : AgtanOp :=
  { agtanOp 0x0070 108 with wt := false, mutual_ := true, part0 := fun b => kbSlot b != 0, rsvdOk := kbRsvdOk }

/-- KEY_INSTALL: a blob that fails its tag is refused with KEY_INVALID, any transition or binding that R374 does not have
with FORMAT. -/
def doKeyInstall (c : AgtanCmd) (s : State) : State :=
  s.agtan opKeyInstall c fun t =>
    let k := kbSlot c.body
    match t.unwrap c with
    | none => t.respond opKeyInstall.code c stKey []
    | some (new, old) =>
      let ok := t.slotOf c k && kbPart c.body == (if k = 0 then 0 else cmdPart c) && jobOk k (kbJob c.body)
      match (t.key k).install (kbMode c.body) (kbPart c.body) (kbJob c.body) (kbEpoch c.body) new old t.clk.ftime with
      | none => t.respond opKeyInstall.code c stFormat []
      | some x =>
        if !ok then t.respond opKeyInstall.code c stFormat []
        else
          let u := t.setKey k x
          (if kbMode c.body = 1 then u else u.newSendKey k).respond opKeyInstall.code c stOk []
/-- KEY_INSTALL. -/
def execKeyInstall (c : AgtanCmd) (s : State) : Host.Outcome State Fault Refusal := run s (doKeyInstall c)

/-! ### KEY_SWITCH, KEY_DROP, KEY_RETIRE (R374, R375) -/

/-- A command on a slot in 8 bytes. -/
def slotOp (code : Nat) : AgtanOp :=
  { agtanOp code 8 with wt := false, part0 := fun b => field (leNat b) 0 10 != 0, rsvdOk := zeroBits 10 63 }

/-- A slot after KEY_SWITCH: it sends under the new key. -/
def KeySlot.switch (x : KeySlot) : KeySlot := { x with st := .nextTx, ageWarn := false }

/-- A slot after KEY_DROP: ACTIVE at the new epoch, the old key erased. -/
def KeySlot.drop (x : KeySlot) : KeySlot :=
  { x with
    st := .active, epoch := x.epoch + 1#8, kOld := x.kNew, kNew := 0#256, atOld := x.atNew, oldDead := x.newDead
    newDead := false }

/-- A slot in RETIRING: it keeps the key in force, to send under (R375). -/
def KeySlot.retire (x : KeySlot) (now : Nat) : KeySlot :=
  let y := if x.st == .nextTx then x.drop else { x with kNew := 0#256 }
  { y with st := .retiring, retireAt := now }

/-- A slot in RETIRED: its material is erased (R375). -/
def KeySlot.retired (x : KeySlot) : KeySlot := { KeySlot.init with st := .retired, part := x.part, job := x.job }

/-- KEY_SWITCH. -/
def opKeySwitch : AgtanOp := slotOp 0x0071
/-- KEY_SWITCH: NEXT_RX to NEXT_TX. -/
def doKeySwitch (c : AgtanCmd) (s : State) : State :=
  s.agtan opKeySwitch c fun t =>
    let k := leNat c.body
    if t.slotOf c k && (t.key k).st == .nextRx then
      ((t.setKey k (t.key k).switch).newSendKey k).respond opKeySwitch.code c stOk []
    else t.respond opKeySwitch.code c stFormat []
/-- KEY_SWITCH. -/
def execKeySwitch (c : AgtanCmd) (s : State) : Host.Outcome State Fault Refusal := run s (doKeySwitch c)

/-- KEY_DROP. -/
def opKeyDrop : AgtanOp := slotOp 0x0072
/-- KEY_DROP: NEXT_TX to ACTIVE at the new epoch. -/
def doKeyDrop (c : AgtanCmd) (s : State) : State :=
  s.agtan opKeyDrop c fun t =>
    let k := leNat c.body
    if t.slotOf c k && (t.key k).st == .nextTx then (t.setKey k (t.key k).drop).respond opKeyDrop.code c stOk []
    else t.respond opKeyDrop.code c stFormat []
/-- KEY_DROP. -/
def execKeyDrop (c : AgtanCmd) (s : State) : Host.Outcome State Fault Refusal := run s (doKeyDrop c)

/-- Does a slot hold keys to retire? -/
def KeySlot.inUse (x : KeySlot) : Bool := x.st == .active || x.st == .nextRx || x.st == .nextTx

/-- KEY_RETIRE. -/
def opKeyRetire : AgtanOp := slotOp 0x0073
/-- KEY_RETIRE: nothing is authenticated under the slot from now on; the command is parked until it has drained. -/
def doKeyRetire (c : AgtanCmd) (s : State) : State :=
  s.agtan opKeyRetire c fun t =>
    let k := leNat c.body
    if t.slotOf c k && (t.key k).inUse then (t.setKey k ((t.key k).retire t.clk.ftime)).park opKeyRetire c
    else t.respond opKeyRetire.code c stFormat []
/-- KEY_RETIRE. -/
def execKeyRetire (c : AgtanCmd) (s : State) : Host.Outcome State Fault Refusal := run s (doKeyRetire c)

/-- The key slot of a message's source. -/
def Origin.slot : Origin → Option Nat
  | .fabric _ k _ _ _ _ => some k.toNat
  | .hedge _ k _ _ _ _ _ => some k.toNat
  | .host .. => none

/-- Does work admitted under a slot still run, or a frame under it wait for its acknowledgement (R375)? -/
def State.slotBusy (s : State) (k : Nat) : Bool :=
  s.slc.reqs.any (fun x => x.2.msg.origin.slot == some k) ||
    s.wt.tx.any (fun f => f.2.sent.any fun y => y.fr.keySlot.toNat == k && !y.fr.voided) ||
    s.wt.ports.any (fun p => p.2.classes.any fun q => q.2.any fun f => f.keySlot.toNat == k && !f.voided)

/-- End every frame of a slot that has no key any more: what is queued, and what was sent without acknowledgement (R375,
R376). -/
def State.endSlotFrames (s : State) (k : Nat) : State :=
  let t := s.each (List.range 26) State.dropUnkeyed
  let l := (t.wt.tx.flatMap fun f => f.2.sent.map (·.fr)).filter fun f => f.keySlot.toNat == k && !f.voided
  t.each l fun t f =>
    if (t.tx f.dst.toNat f.rclass.toNat).sent.any (fun x => decide (x.fr = f)) then t.endUnkeyed f else t

/-- KEY_RETIRED: drained, or 64 ticks and 9,150 µs after receipt: the material is erased, what is unacknowledged is dropped,
and the parked commands complete (R375). -/
def doKeyRetired (k : Nat) (s : State) : State :=
  let x := s.key k
  if s.awake && x.st == .retiring &&
      (!s.slotBusy k || decide (x.retireAt + 64 * s.cfg.period + 9150000 ≤ s.clk.ftime)) then
    ((s.setKey k x.retired).endSlotFrames k).unpark (fun op c => op == opKeyRetire.code && leNat c.body == k) stOk
      fun _ _ => []
  else s
/-- KEY_RETIRED. -/
def execKeyRetired (slot now : Nat) (s : State) : Host.Outcome State Fault Refusal :=
  run s fun t => doKeyRetired slot (t.upTo now)

/-! ### KEY_STATUS (14 R493) -/

/-- The code of a state. -/
def KeyState.code : KeyState → Nat
  | .empty => 0
  | .active => 1
  | .nextRx => 2
  | .nextTx => 3
  | .retiring => 4
  | .retired => 5

/-- The 16 bytes of a slot. -/
def State.keyRecord (s : State) (k : Nat) : List Byte :=
  let x := s.key k
  let at_ := if x.st == .nextTx then x.atNew else x.atOld
  match s.sendKey k with
  | some (_, e) => leBytes 16 (x.st.code + e.toNat * 2 ^ 8 + b2n x.ageWarn * 2 ^ 16 + at_ * 2 ^ 64)
  | none => leBytes 16 (x.st.code + b2n x.ageWarn * 2 ^ 16)

/-- May a mailbox see a slot: the owner every one, a tenant slot 0 and its own? -/
def State.seesKey (s : State) (mb k : Nat) : Bool := mb == 0 || k == 0 || s.ownerOfKey k == some (mb - 1)

/-- KEY_STATUS. -/
def opKeyStatus : AgtanOp :=
  { agtanOp 0x0074 8 with
    part0 := fun b => field (leNat b) 0 10 != 0, rsvdOk := fun b => zeroBits 10 15 b && zeroBits 24 63 b }
/-- KEY_STATUS: 16 bytes for each of COUNT slots from FIRST_SLOT. -/
def doKeyStatus (c : AgtanCmd) (s : State) : State :=
  s.agtan opKeyStatus c fun t =>
    let first := field (leNat c.body) 0 10
    let n := field (leNat c.body) 16 8
    if n = 0 || 62 < n || 1024 < first + n then t.respond opKeyStatus.code c stFormat []
    else t.respond opKeyStatus.code c stOk ((List.range n).flatMap fun i =>
      if t.seesKey c.mb (first + i) then t.keyRecord (first + i) else List.replicate 16 0#8)
/-- KEY_STATUS. -/
def execKeyStatus (c : AgtanCmd) (s : State) : Host.Outcome State Fault Refusal := run s (doKeyStatus c)

/-! ### Lifetimes (R376) -/

/-- The time at which a slot's send key was installed. -/
def KeySlot.sendAt (x : KeySlot) : Option Nat :=
  match x.st with
  | .active | .nextRx | .retiring => some x.atOld
  | .nextTx => some x.atNew
  | .empty | .retired => none

/-- KEY_AGE_WARN: at 80% of its send key's lifetime a slot's AGE_WARN is set and an event is recorded (assumption 73). -/
def doKeyAgeWarn (k : Nat) (s : State) : State :=
  let x := s.key k
  match x.sendAt with
  | none => s
  | some at_ =>
    if s.awake && !x.ageWarn && decide (at_ + keyLife k * 4 / 5 ≤ s.clk.ftime) then
      (s.setKey k { x with ageWarn := true }).fault
        { code := Config.ageWarnCode, srcKind := 8, srcIndex := 0, part := s.ownerOfKey k, addr := 0, syndrome := 0#64,
          place := none }
    else s
/-- KEY_AGE_WARN. -/
def execKeyAgeWarn (slot now : Nat) (s : State) : Host.Outcome State Fault Refusal :=
  run s fun t => doKeyAgeWarn slot (t.upTo now)

/-- A slot whose keys' lifetimes have ended by a time. -/
def KeySlot.expire (x : KeySlot) (life now : Nat) : KeySlot :=
  { x with
    oldDead := x.oldDead || decide (x.atOld + life ≤ now)
    newDead := x.newDead || ((x.st == .nextRx || x.st == .nextTx) && decide (x.atNew + life ≤ now)) }

/-- KEY_LIFETIME_EXPIRY: a key at the end of its lifetime is neither sent under nor accepted; its own messages end with
KEY_INVALID and its responses are dropped (R376). -/
def doKeyLifetimeExpiry (k : Nat) (s : State) : State :=
  let x := s.key k
  if s.awake && (x.inUse || x.st == .retiring) then
    let t := s.setKey k (x.expire (keyLife k) s.clk.ftime)
    if (t.sendKey k).isNone then t.each (List.range 26) State.dropUnkeyed else t
  else s
/-- KEY_LIFETIME_EXPIRY. -/
def execKeyLifetimeExpiry (slot now : Nat) (s : State) : Host.Outcome State Fault Refusal :=
  run s fun t => doKeyLifetimeExpiry slot (t.upTo now)

end Sys2Proof.Machine
end

