-- ==== Sys2Proof/Machine/Identity.lean ====
section
/-! DEFINITION. Attestation, SPDM and IDE (11 R362 to R370), and the SPDM, MCTP and PLDM ways in (14 R449, 15 R483). The
layouts of SPDM responses are DSP0274's, which the spec names and does not give (assumption 74). -/

namespace Sys2Proof.Machine

/-! ### The report block (R365) -/

/-- Bytes 0 to 1,823 of a report for the owner, or for one partition. -/
def State.reportBody (s : State) (scope : Option Nat) (nonce : List Byte) : List Byte :=
  let filled (p : Nat) : Bool := match scope with | some q => p == q | none => mapEnable (s.pmap p)
  let mask := ((List.range 16).filter filled).foldl (fun a p => a + 2 ^ p) 0
  let rows (f : Nat → Digest) := (List.range 16).flatMap fun p =>
    if filled p then digestBytes (f p) else List.replicate 48 0#8
  leBytes 2 1 ++ leBytes 2 1920 ++ leBytes 2 s.nodeId ++ leBytes 1 s.fuses.bin.toNat ++
    leBytes 1 (scope.getD 0xFF) ++ leBytes 8 s.ep.epoch ++ leBytes 8 s.clk.ftime ++ slice nonce 0 32 ++
    leBytes 2 mask ++ leBytes 6 0 ++ digestBytes Config.bootRomDigest ++ digestBytes s.boot.fwDigest ++
    digestBytes stdLibDigest ++ digestBytes s.cfgDigest ++ s.fuseBytes ++ leBytes 8 s.cfg.lock.toNat ++ leBytes 8 0 ++
    rows s.progDigest ++ rows s.residentDigest

/-- A signature of the device key over bytes: r then s, 48 bytes each, big-endian. -/
def State.sign (s : State) (b : List Byte) : BitVec 768 × State :=
  (Config.deviceSign (sha384 b) s.draws, { s with draws := s.draws + 1 })

/-- ATTEST_REPORT: a 32-byte nonce. -/
def opAttestReport : AgtanOp := { agtanOp 0x0002 32 with mctp := true, exempt := true }
/-- ATTEST_REPORT: the signed 1,920 bytes: an owner report from mailbox 0, a tenant's from mailbox 1 + p. -/
def doAttestReport (c : AgtanCmd) (s : State) : State :=
  s.agtan opAttestReport c fun t =>
    let b := t.reportBody (if c.mb = 0 then none else some (c.mb - 1)) c.body
    let (sig, u) := t.sign b
    u.respond opAttestReport.code c stOk (b ++ beBytes 96 sig.toNat)
/-- ATTEST_REPORT. -/
def execAttestReport (c : AgtanCmd) (s : State) : Host.Outcome State Fault Refusal := run s (doAttestReport c)

/-! ### SPDM (R363) -/

/-- The responder of an endpoint. -/
def State.spdm (s : State) (ep : SpdmEp) : Spdm := Tbl.getD s.sec.spdm (spdmIndex ep) Spdm.init
/-- Write the responder of an endpoint. -/
def State.setSpdm (s : State) (ep : SpdmEp) (x : Spdm) : State :=
  { s with sec := { s.sec with spdm := Tbl.set s.sec.spdm (spdmIndex ep) x } }

/-- Is an endpoint served: a function's DOE while PCIe is up, MCTP over SMBus always (R363, 15 R483)? -/
def State.spdmServed (s : State) : SpdmEp → Bool
  | .fn .pf => s.ownerServed
  | .fn (.vf p) => s.ownerServed && decide (p < 16)
  | .mctp => s.awake

/-- An SPDM request: served, and answered with an error where its conditions do not hold. -/
def State.onSpdm (s : State) (ep : SpdmEp) (ok : Spdm → Bool) (f : Spdm → State) : State :=
  if !s.spdmServed ep then s
  else if ok (s.spdm ep) then f (s.spdm ep)
  else s.emit (.spdmError ep)

/-- Answer an SPDM request without a signature. -/
def State.spdmAnswer (s : State) (ep : SpdmEp) (name : String) (b : List Byte) : State := s.emit (.spdm ep name b 0)

/-- SPDM_GET_VERSION: versions 1.2 and 1.3; the negotiation starts again. -/
def doSpdmGetVersion (ep : SpdmEp) (s : State) : State :=
  s.onSpdm ep (fun _ => true) fun x =>
    (s.setSpdm ep { x with phase := 1 }).spdmAnswer ep "VERSION" [0x00#8, 0x12#8, 0x00#8, 0x13#8]
/-- SPDM_GET_VERSION. -/
def execSpdmGetVersion (ep : SpdmEp) (s : State) : Host.Outcome State Fault Refusal := run s (doSpdmGetVersion ep)

/-- The capabilities of R363 as DSP0274's flags: CERT, CHAL, MEAS with signature, ENCRYPT, MAC, MUT_AUTH, KEY_EX, HBEAT,
KEY_UPD; no PSK. -/
def spdmFlags : Nat := 0x63D6

/-- SPDM_GET_CAPABILITIES, under version 1.2 or 1.3. -/
def doSpdmGetCapabilities (ep : SpdmEp) (version : BitVec 8) (s : State) : State :=
  s.onSpdm ep (fun x => decide (1 ≤ x.phase) && (version == 0x12#8 || version == 0x13#8)) fun x =>
    (s.setSpdm ep { x with phase := 2 }).spdmAnswer ep "CAPABILITIES" (leBytes 4 spdmFlags)
/-- SPDM_GET_CAPABILITIES. -/
def execSpdmGetCapabilities (ep : SpdmEp) (version : BitVec 8) (s : State) : Host.Outcome State Fault Refusal :=
  run s (doSpdmGetCapabilities ep version)

/-- SPDM_NEGOTIATE_ALGORITHMS: the four algorithms of R363, and no others. -/
def doSpdmNegotiateAlgorithms (ep : SpdmEp) (a : SpdmAlgs) (s : State) : State :=
  s.onSpdm ep (fun x => decide (2 ≤ x.phase) && a.ecdsaP384 && a.sha384 && a.secp384r1 && a.aes256gcm) fun x =>
    (s.setSpdm ep { x with phase := 3 }).spdmAnswer ep "ALGORITHMS" []
/-- SPDM_NEGOTIATE_ALGORITHMS. -/
def execSpdmNegotiateAlgorithms (ep : SpdmEp) (algs : SpdmAlgs) (s : State) : Host.Outcome State Fault Refusal :=
  run s (doSpdmNegotiateAlgorithms ep algs)

/-- Has the negotiation come to its end? -/
def Spdm.ready (x : Spdm) : Bool := decide (3 ≤ x.phase)

/-- SPDM_GET_DIGESTS: of the chain in slot 0 (R362). -/
def doSpdmGetDigests (ep : SpdmEp) (s : State) : State :=
  s.onSpdm ep Spdm.ready fun _ => s.spdmAnswer ep "DIGESTS" (digestBytes (sha384 Config.certChain))
/-- SPDM_GET_DIGESTS. -/
def execSpdmGetDigests (ep : SpdmEp) (s : State) : Host.Outcome State Fault Refusal := run s (doSpdmGetDigests ep)

/-- SPDM_GET_CERTIFICATE: a portion of the chain in slot 0 (R362). -/
def doSpdmGetCertificate (ep : SpdmEp) (slot offset length : Nat) (s : State) : State :=
  s.onSpdm ep (fun x => x.ready && slot == 0) fun _ =>
    s.spdmAnswer ep "CERTIFICATE" ((Config.certChain.drop offset).take length)
/-- SPDM_GET_CERTIFICATE. -/
def execSpdmGetCertificate (ep : SpdmEp) (slot offset length : Nat) (s : State) : Host.Outcome State Fault Refusal :=
  run s (doSpdmGetCertificate ep slot offset length)

/-- Answer an SPDM request with a signature of the device key over what it signs. -/
def State.spdmSigned (s : State) (ep : SpdmEp) (name : String) (b : List Byte) : State :=
  let (sig, t) := s.sign b
  t.emit (.spdm ep name b sig)

/-- SPDM_CHALLENGE: signed with the device key. -/
def doSpdmChallenge (ep : SpdmEp) (slot : Nat) (nonce : BitVec 256) (s : State) : State :=
  s.onSpdm ep (fun x => x.ready && slot == 0) fun _ =>
    s.spdmSigned ep "CHALLENGE_AUTH" (digestBytes (sha384 Config.certChain) ++ beBytes 32 nonce.toNat)
/-- SPDM_CHALLENGE. -/
def execSpdmChallenge (ep : SpdmEp) (slot : Nat) (nonce : BitVec 256) (s : State) : Host.Outcome State Fault Refusal :=
  run s (doSpdmChallenge ep slot nonce)

/-- A measurement (R364). -/
def State.measurement (s : State) (i : Nat) : Option (List Byte) :=
  if i = 1 then some (digestBytes Config.bootRomDigest)
  else if i = 2 then some (digestBytes s.boot.fwDigest)
  else if i = 3 then some (digestBytes stdLibDigest)
  else if i = 4 then some (digestBytes s.cfgDigest)
  else if i = 5 then some s.fuseBytes
  else if i = 6 then some (leBytes 8 s.cfg.lock.toNat)
  else if 16 ≤ i && i < 32 then some (digestBytes (s.progDigest (i - 16)))
  else if 32 ≤ i && i < 48 then some (digestBytes (s.residentDigest (i - 32)))
  else none

/-- The partition an endpoint belongs to: none for the owner's. -/
def epPart : SpdmEp → Option Nat
  | .fn f => fnPart f
  | .mctp => none

/-- Does an endpoint see an index: a virtual function the common ones and its own partition's (R364)? -/
def seesIndex (ep : SpdmEp) (i : Nat) : Bool :=
  match epPart ep with
  | none => true
  | some p => decide (i ≤ 6) || i == 16 + p || i == 32 + p

/-- The indices of R364. -/
def measIndices : List Nat := [1, 2, 3, 4, 5, 6] ++ (List.range 32).map (16 + ·)

/-- Indices, each before its value: of one measurement, or of every visible one for index 0xFF. -/
def State.measBytes (s : State) (ep : SpdmEp) (i : Nat) : List Byte :=
  ((if i = 0xFF then measIndices else [i]).filter (seesIndex ep)).flatMap fun k =>
    (s.measurement k).elim [] fun b => leBytes 1 k ++ b

/-- SPDM_GET_MEASUREMENTS: index 0 asks how many there are, 0xFF for all, else for one. -/
def doSpdmGetMeasurements (ep : SpdmEp) (i : Nat) (signed : Bool) (nonce : BitVec 256) (s : State) : State :=
  s.onSpdm ep (fun x => x.ready && (i == 0 || i == 0xFF || (seesIndex ep i && (s.measurement i).isSome))) fun _ =>
    let b := if i = 0 then leBytes 1 (measIndices.filter (seesIndex ep)).length else s.measBytes ep i
    if signed then s.spdmSigned ep "MEASUREMENTS" (b ++ beBytes 32 nonce.toNat) else s.spdmAnswer ep "MEASUREMENTS" b
/-- SPDM_GET_MEASUREMENTS. -/
def execSpdmGetMeasurements (ep : SpdmEp) (index : Nat) (signed : Bool) (nonce : BitVec 256) (s : State) :
    Host.Outcome State Fault Refusal :=
  run s (doSpdmGetMeasurements ep index signed nonce)

/-- SPDM_KEY_EXCHANGE: a session begins, at most one per endpoint; its export master secret is of DSP0274's key schedule
(R363, R373). -/
def doSpdmKeyExchange (ep : SpdmEp) (reqSession : BitVec 16) (exchange : List Byte) (s : State) : State :=
  s.onSpdm ep (fun x => x.ready && x.session.isNone) fun x =>
    let (w, t) := s.draw
    let id : BitVec 32 := w.setWidth 16 ++ reqSession
    let y := { x with
      session := some id, isOpen := false, mutualAuth := false, secret := Config.exportMasterSecret s.draws, kept := none }
    (t.setSpdm ep y).spdmSigned ep "KEY_EXCHANGE_RSP"
      (leBytes 4 id.toNat ++ beBytes 96 (Config.spdmExchange s.draws).toNat ++ digestBytes (sha384 exchange))
/-- SPDM_KEY_EXCHANGE. -/
def execSpdmKeyExchange (ep : SpdmEp) (reqSession : BitVec 16) (exchange : List Byte) (s : State) :
    Host.Outcome State Fault Refusal :=
  run s (doSpdmKeyExchange ep reqSession exchange)

/-- TENANT_KEY of an endpoint's partition: zero for the owner's. -/
def State.tenantKey (s : State) (ep : SpdmEp) : Digest :=
  match epPart ep with
  | some p => mapTenantKey (s.pmap p)
  | none => 0#384

/-- SPDM_FINISH: the session is open once its verification holds; where TENANT_KEY is set, only for a requester whose public
key hashes to it (R363). A session that fails ends. -/
def doSpdmFinish (ep : SpdmEp) (verified : Bool) (digest : Digest) (s : State) : State :=
  s.onSpdm ep (fun x => x.session.isSome && !x.isOpen) fun x =>
    let key := s.tenantKey ep
    if verified && (key == 0#384 || digest == key) then
      (s.setSpdm ep { x with isOpen := true, mutualAuth := key != 0#384 }).spdmAnswer ep "FINISH_RSP" []
    else (s.setSpdm ep { x with session := none, secret := 0#384 }).emit (.spdmError ep)
/-- SPDM_FINISH. -/
def execSpdmFinish (ep : SpdmEp) (verified : Bool) (reqKeyDigest : BitVec 384) (s : State) :
    Host.Outcome State Fault Refusal :=
  run s (doSpdmFinish ep verified reqKeyDigest)

/-- Is a session the open one of its endpoint? -/
def Spdm.has (x : Spdm) (session : BitVec 32) : Bool := x.isOpen && x.session == some session

/-- SPDM_KEY_UPDATE: operations 1 to 3 of DSP0274. -/
def doSpdmKeyUpdate (ep : SpdmEp) (session : BitVec 32) (op : Nat) (tag : BitVec 8) (s : State) : State :=
  s.onSpdm ep (fun x => x.has session && decide (1 ≤ op ∧ op ≤ 3)) fun _ =>
    s.spdmAnswer ep "KEY_UPDATE_ACK" [BitVec.ofNat 8 op, tag]
/-- SPDM_KEY_UPDATE. -/
def execSpdmKeyUpdate (ep : SpdmEp) (session : BitVec 32) (op : Nat) (tag : BitVec 8) (s : State) :
    Host.Outcome State Fault Refusal :=
  run s (doSpdmKeyUpdate ep session op tag)

/-- SPDM_HEARTBEAT. -/
def doSpdmHeartbeat (ep : SpdmEp) (session : BitVec 32) (s : State) : State :=
  s.onSpdm ep (fun x => x.has session) fun _ => s.spdmAnswer ep "HEARTBEAT_ACK" []
/-- SPDM_HEARTBEAT. -/
def execSpdmHeartbeat (ep : SpdmEp) (session : BitVec 32) (s : State) : Host.Outcome State Fault Refusal :=
  run s (doSpdmHeartbeat ep session)

/-- SPDM_END_SESSION: the session and its secrets are gone. -/
def doSpdmEndSession (ep : SpdmEp) (session : BitVec 32) (s : State) : State :=
  s.onSpdm ep (fun x => x.has session) fun x =>
    (s.setSpdm ep { Spdm.init with phase := x.phase }).spdmAnswer ep "END_SESSION_ACK" []
/-- SPDM_END_SESSION. -/
def execSpdmEndSession (ep : SpdmEp) (session : BitVec 32) (s : State) : Host.Outcome State Fault Refusal :=
  run s (doSpdmEndSession ep session)

/-! ### Mailbox commands over SPDM and MCTP (14 R449) -/

/-- A command with its SEQ in the last 2 bytes of a message. -/
def messageCmd (mb : Nat) (path : Path) (b : List Byte) : BitVec 16 × AgtanCmd :=
  parseCmd mb path (BitVec.ofNat 16 (leAt b (b.length - 2) 2)) (b.take (b.length - 2))

/-- Accept a command at its mailbox. -/
def State.acceptCmd (s : State) (x : BitVec 16 × AgtanCmd) : State :=
  s.updMbox x.2.mb fun m => { m with accepted := m.accepted ++ [x] }

/-- VENDOR_DEFINED_REQUEST: a command of mailbox 0 on the physical function's DOE, of 1 + p on virtual function p + 1's; a
SEQ repeated draws its kept response again. -/
def doVendorDefinedRequest (ep : SpdmEp) (session : BitVec 32) (b : List Byte) (s : State) : State :=
  s.onSpdm ep (fun x => x.has session && decide (18 ≤ b.length) && (match ep with | .fn _ => true | .mctp => false))
    fun x =>
      let c := messageCmd (spdmIndex ep) (.spdm ep session) b
      match x.kept with
      | some (seq, r) => if seq = c.2.seq then s.spdmAnswer ep "VENDOR_DEFINED_RESPONSE" r else s.acceptCmd c
      | none => s.acceptCmd c
/-- VENDOR_DEFINED_REQUEST. -/
def execVendorDefinedRequest (ep : SpdmEp) (session : BitVec 32) (payload : List Byte) (s : State) :
    Host.Outcome State Fault Refusal :=
  run s (doVendorDefinedRequest ep session payload)

/-- MCTP_MAILBOX_MESSAGE: a command of mailbox 0; a SEQ repeated draws its kept response again. -/
def doMctpMailboxMessage (b : List Byte) (s : State) : State :=
  if !(s.awake && decide (2 ≤ s.boot.stage ∧ 18 ≤ b.length)) then s
  else
    let c := messageCmd 0 .mctp b
    match (s.mbox 0).mctpSeq with
    | some (seq, r) => if seq = c.2.seq then s.emit (.mctp r) else s.acceptCmd c
    | none => s.acceptCmd c
/-- MCTP_MAILBOX_MESSAGE. -/
def execMctpMailboxMessage (payload : List Byte) (s : State) : Host.Outcome State Fault Refusal :=
  run s (doMctpMailboxMessage payload)

/-! ### PLDM and SMBus (15 R483) -/

/-- PLDM_REQUEST: the numeric sensors; junctions in units of 0.25 °C, rails as the monitors read them. -/
def doPldmRequest (x : PldmSensor) (s : State) : State :=
  if !s.awake then s
  else match x with
    | .basin => s.emit (.pldm s.pins.tjMax)
    | .cistern => s.emit (.pldm s.pins.tcisMax)
    | .power => s.emit (.pldm s.pwr.avg)
    | .railVolt r =>
      if r < 7 then ({ s with draws := s.draws + 1 }).emit (.pldm (Config.railReading (2 * r) s.draws)) else s
    | .railAmp r =>
      if r < 7 then ({ s with draws := s.draws + 1 }).emit (.pldm (Config.railReading (2 * r + 1) s.draws)) else s
/-- PLDM_REQUEST. -/
def execPldmRequest (sensor : PldmSensor) (s : State) : Host.Outcome State Fault Refusal := run s (doPldmRequest sensor)

/-- SMBUS_TIMEOUT: SCL low for more than 35 ms: SDA is released and the SMBus state is reset. -/
def doSmbusTimeout (lowNs : Nat) (s : State) : State :=
  if 35000000 < lowNs then { s with sb := { s.sb with smbBusy := false } } else s
/-- SMBUS_TIMEOUT. -/
def execSmbusTimeout (lowNs : Nat) (s : State) : Host.Outcome State Fault Refusal := run s (doSmbusTimeout lowNs)

/-! ### IDE (R370) -/

/-- An IDE stream: the link stream 0, or a selective one, 1 to 8. -/
def State.ideStream (s : State) (n : Nat) : IdeStream :=
  Tbl.getD s.sec.ide n { key := none, secure := false, insecure := false }
/-- Write an IDE stream. -/
def State.setIde (s : State) (n : Nat) (x : IdeStream) : State := { s with sec := { s.sec with ide := Tbl.set s.sec.ide n x } }

/-- IDE_INTEGRITY_FAIL: the TLP is discarded, its stream is Insecure, and a CONTAINED fault is recorded at node scope. -/
def doIdeIntegrityFail (n : Nat) (s : State) : State :=
  if s.ownerServed && decide (n < 9) && (s.ideStream n).secure then
    (s.setIde n { s.ideStream n with secure := false, insecure := true }).fault
      { code := 0x1B, srcKind := 11, srcIndex := 0, part := none, addr := 0, syndrome := 0#64, place := none }
  else s
/-- IDE_INTEGRITY_FAIL. -/
def execIdeIntegrityFail (stream : Nat) (s : State) : Host.Outcome State Fault Refusal := run s (doIdeIntegrityFail stream)

/-- The effect of an IDE_KM message: a stream's key is programmed, its stream runs, or stops; whether it could be. -/
def State.ideKm (s : State) : IdeKm → State × Bool
  | .keyProg n k => if n < 9 then (s.setIde n { s.ideStream n with key := some k }, true) else (s, false)
  | .setGo n =>
    if n < 9 && (s.ideStream n).key.isSome then (s.setIde n { s.ideStream n with secure := true, insecure := false }, true)
    else (s, false)
  | .setStop n =>
    if n < 9 then (s.setIde n { key := none, secure := false, insecure := false }, true) else (s, false)

/-- IDE_KM_MESSAGE: over the open SPDM session of the physical function alone. -/
def doIdeKmMessage (ep : SpdmEp) (m : IdeKm) (s : State) : State :=
  s.onSpdm ep (fun x => x.isOpen && (match ep with | .fn .pf => true | _ => false)) fun _ =>
    let (t, ok) := s.ideKm m
    t.emit (.ideKm ok)
/-- IDE_KM_MESSAGE. -/
def execIdeKmMessage (ep : SpdmEp) (msg : IdeKm) (s : State) : Host.Outcome State Fault Refusal := run s (doIdeKmMessage ep msg)

end Sys2Proof.Machine
end

