-- ==== Sys2Proof/Machine/Mailbox.lean ====
section
/-! DEFINITION. The mailbox handshake and its round robin (14 R445 to R448), BAR2 (14 R444, 12 R384, R385) and the writes
to registers without a row of their own (00 R6). -/

namespace Sys2Proof.Machine

/-! ### The doorbell (R447) -/

/-- Mailbox slots that a function reaches: all, or slot 1 + p alone (R442). -/
def reaches (fn : Fn) (mb : Nat) : Bool :=
  match fn with
  | .pf => decide (mb ≤ 16)
  | .vf p => decide (mb = 1 + p ∧ p < 16)

/-- The command that stands in a command area: the header and LEN bytes of body (R451). -/
def areaCmd (mb : Nat) (path : Path) (seq : BitVec 16) (area : List Byte) : BitVec 16 × AgtanCmd :=
  let c := parseCmd mb path seq area
  (c.1, { c.2 with body := c.2.body.take c.2.len.toNat })

/-- A write to MB_DOORBELL: OVERRUN while BUSY; a repeated SEQ leaves the response area as it stands; else the command
area is copied and accepted. -/
def doMbDoorbell (fn : Fn) (mb : Nat) (value : BitVec 64) (s : State) : State :=
  if !(s.ownerServed && reaches fn mb) then s
  else
    let m := s.mbox mb
    let seq := value.extractLsb' 0 16
    if m.state = 1 then s.setMbox mb { m with overrun := true }
    else if seq = m.seqTaken then s.setMbox mb { m with state := 2 }
    else
      let c := areaCmd mb (.bar0 fn (value.extractLsb' 16 12) (value.getLsbD 28)) seq (Memory.read m.cmd 0 1024)
      s.setMbox mb { m with state := 1, seqTaken := seq, accepted := m.accepted ++ [c] }
/-- MB_DOORBELL. -/
def execMbDoorbell (fn : Fn) (mb : Nat) (value : BitVec 64) (s : State) : Host.Outcome State Fault Refusal :=
  run s (doMbDoorbell fn mb value)

/-! ### The turn of a mailbox (R448) -/

/-- The commands by opcode (R456). -/
def opcodes : List (Nat × (AgtanCmd → State → State)) :=
  [(0x0001, doNodeStatus), (0x0002, doAttestReport), (0x0003, doNodeReset), (0x0004, doPartitionReset),
   (0x0005, doLaneRetrain), (0x0006, doFaultRead), (0x0007, doPeerClear), (0x0010, doCfgCommit),
   (0x0011, doCfgAbort), (0x0012, doCfgStatus), (0x0013, doCfgDiscard), (0x0020, doPartMapStage),
   (0x0021, doPartCfgStage), (0x0022, doPartStatus), (0x0023, doLockStage), (0x0024, doAdmitWeightsStage)] ++
  [(0x0030, doNodeCfgStage), (0x0031, doTwinCfgStage), (0x0032, doRouteStage), (0x0033, doTwinStatus),
   (0x0034, doDirRead), (0x0040, doWindowStage), (0x0041, doWindowRead), (0x0042, doWindowRevoke),
   (0x0043, doSrcsetStage), (0x0050, doWeirStage), (0x0051, doShaperStage), (0x0052, doPortWeightsStage),
   (0x0060, doQueueSet), (0x0061, doQueueStop), (0x0062, doQueueRead)] ++
  [(0x0070, doKeyInstall), (0x0071, doKeySwitch), (0x0072, doKeyDrop), (0x0073, doKeyRetire), (0x0074, doKeyStatus),
   (0x0080, doSessionOpen), (0x0081, doSessionClose), (0x0082, doSessionRead), (0x0090, doBaseBegin),
   (0x0091, doBaseEnd), (0x0092, doBaseUnload), (0x0093, doPostabLoad), (0x0094, doPostabUnload),
   (0x00A0, doProgStage), (0x00B0, doStatsRead), (0x00B1, doHistRead), (0x00C0, doRebalance)]

/-- Is an opcode one of R456? -/
def opcodeDefined (op : Nat) : Bool := opcodes.any fun x => x.1 == op

/-- An opcode that R456 does not define: permitted from no mailbox (R453). -/
def opUndefined (op : BitVec 16) : AgtanOp := { agtanOp op.toNat 0 with owner := false, tenant := false }

/-- Execute one command. -/
def State.runCmd (s : State) (op : BitVec 16) (c : AgtanCmd) : State :=
  match opcodes.find? fun x => x.1 == op.toNat with
  | some x => x.2 c s
  | none => s.agtan (opUndefined op) c id

/-- The mailbox whose turn it is: the next, in round robin, that has a command to serve. -/
def State.turnOf (s : State) : Option (Nat × (BitVec 16 × AgtanCmd)) :=
  (List.range 17).findSome? fun i =>
    let m := (s.mbNext + i) % 17
    match (s.mbox m).accepted with
    | c :: _ => if s.mailServed c.2 then some (m, c) else none
    | [] => none

/-- MAILBOX_TURN: one command of the next mailbox, the oldest accepted on any of its paths. -/
def doMailboxTurn (s : State) : State :=
  match s.turnOf with
  | none => s
  | some (m, c) =>
    let t := s.updMbox m fun x => { x with accepted := x.accepted.tail }
    ({ t with mbNext := (m + 1) % 17 }).runCmd c.1 c.2
/-- MAILBOX_TURN. -/
def execMailboxTurn (s : State) : Host.Outcome State Fault Refusal := run s doMailboxTurn

/-! ### BAR2 (R444) -/

/-- The grains that a range of BAR2 touches. -/
def grainsOf (addr len : Nat) : List Nat :=
  if len = 0 then [] else (List.range ((addr + len - 1) / 512 - addr / 512 + 1)).map fun i => addr / 512 + i

/-- A BAR2 access that completes with Unsupported Request and is counted. -/
def State.bar2Blocked (s : State) : State := (s.emit .unsupportedRequest).count cBar2Blocked 1

/-- Is BAR2 there to be accessed: service open, PCIe up, the range within it? -/
def State.bar2Served (s : State) (addr len : Nat) : Bool :=
  s.serving && s.boot.pcieUp && decide (0 < len ∧ addr + len ≤ 2 ^ 39)

/-- The first failing check of the grains that a range touches. -/
def State.rangeFaults (s : State) (ecc : EccReport) (gs : List Nat) : List (Nat × Nat × Word64) :=
  gs.filterMap fun g => (s.grainFault ecc g).map fun c => (c.1, g, c.2)

/-- A BAR2 read: each grain touched is verified; where one fails it becomes CONTAINED and the data is poisoned (12
R385). -/
def doBar2Read (fn : Fn) (addr : BitVec 39) (len : Nat) (ecc : EccReport) (s : State) : State :=
  if !s.bar2Served addr.toNat len then s
  else if fn != .pf then s.emit .unsupportedRequest
  else if s.bar2Off then s.bar2Blocked
  else
    let gs := grainsOf addr.toNat len
    let bad := s.rangeFaults ecc gs
    let t := s.each gs fun t g => if (eccCorrected ecc g).isEmpty then t else t.noteCorrected ecc 1 (grainChannel g) g
    let t := t.each bad State.failCheck
    t.emit (.bar2Data (s.readBytes addr.toNat len) (!bad.isEmpty))
/-- BAR2_READ. -/
def execBar2Read (fn : Fn) (addr : BitVec 39) (len : Nat) (ecc : EccReport) (s : State) :
    Host.Outcome State Fault Refusal :=
  run s (doBar2Read fn addr len ecc)

/-- Mirror what a BAR2 write changed, under the partition that owns the grains; grains without an owner are not mirrored
(10 R318). -/
def State.mirrorBar2 (s : State) (addr len : Nat) : State :=
  let p := s.ownerOfGrain (addr / 512)
  let q := s.ownerOfGrain ((addr + len - 1) / 512)
  let one (t : State) (p : Option Nat) (a n : Nat) : State := match p with
    | some p => t.mirrorGrains p a n
    | none => t
  if p = q then one s p addr len
  else (grainsOf addr len).foldl (fun t g => one t (s.ownerOfGrain g) (512 * g) 512) s

/-- A BAR2 write: refused on grains that the node holds; else merged, or refused whole under 12 R384 with no answer. -/
def doBar2Write (fn : Fn) (addr : BitVec 39) (bytes : List Byte) (ecc : EccReport) (s : State) : State :=
  let a := addr.toNat
  if !s.bar2Served a bytes.length then s
  else if fn != .pf then s.emit .unsupportedRequest
  else if s.bar2Off || (grainsOf a bytes.length).any (fun g => (s.allocOf g).isSome) then s.bar2Blocked
  else
    match s.writeRefused ecc a bytes with
    | some e => s.partialRefused e
    | none => (s.writeGrains a bytes).mirrorBar2 a bytes.length
/-- BAR2_WRITE. -/
def execBar2Write (fn : Fn) (addr : BitVec 39) (bytes : List Byte) (ecc : EccReport) (s : State) :
    Host.Outcome State Fault Refusal :=
  run s (doBar2Write fn addr bytes ecc)

/-! ### Registers without a row of their own (00 R6) -/

/-- A write to a mailbox slot: the command area, MB_DOORBELL, OVERRUN of MB_STATUS (R445, R446). -/
def State.writeSlot (s : State) (fn : Fn) (mb off : Nat) (v : Word64) : State :=
  if !reaches fn mb then s
  else if off < 0x400 then s.updMbox mb fun m => { m with cmd := Memory.write m.cmd off (leBytes 8 v.toNat) }
  else if off = 0xC00 then doMbDoorbell fn mb v s
  else if off = 0xC08 && v.getLsbD 2 then s.updMbox mb fun m => { m with overrun := false }
  else s

/-- PWR_CFG without its RsvdZ bits (13 R430). -/
def pwrMask : Word64 := 0x00000000FF7F07FF#64

/-- A write to FLT_CTL: its three fields, then FIRST_CLR and HIST_CLR (12 R403). -/
def State.writeFltCtl (s : State) (v : Word64) : State :=
  let t := { s with flt := { s.flt with ctl := v &&& 0xFFFFFF#64 } }
  let t := if v.getLsbD 24 then t.clearFirst else t
  if v.getLsbD 25 then t.clearHist else t

/-- Stage a tick setting from the physical function: its set is mailbox 0's (R6, 07 R215). -/
def State.stageReg (s : State) (x : Staged) : State := (s.stageItems 0 [x]).2

/-- A write that only the physical function makes: PWR_CFG, FLT_CTL, the fabric time unit; RO and unlisted offsets
ignore it. -/
def State.writePf (s : State) (off : Nat) (v : Word64) : State :=
  if off = 0x1F020 then { s with pwr := { s.pwr with cfg := v &&& pwrMask } }
  else if off = 0x200008 then s.writeFltCtl v
  else if off = 0x300010 then s.stageReg (.period (fld v 0 20))
  else if off = 0x300018 then s.stageReg (.origin v.toNat)
  else if off = 0x300020 then s.stageReg (.fepoch (fld v 0 32))
  else if off = 0x300028 && v.getLsbD 2 then { s with clk := { s.clk with syncFault := false } }
  else s

/-- A 64-bit write to BAR0 of a function; a write that the function cannot make is ignored (R443). -/
def State.writeBar0 (s : State) (fn : Fn) (off : Nat) (v : Word64) : State :=
  if !(s.ownerServed && off % 8 = 0) then s
  else if off < 0x11000 then s.writeSlot fn (off / 0x1000) (off % 0x1000) v
  else if fn = .pf then s.writePf off v
  else s

/-- JET_SCHED_CFG without its RsvdZ bits (03 R103). -/
def schedMask : Word64 := 0xFFFFFFFFFFFF00FF#64

/-- A write to a jet's register space; one to its microprogram store leaves PROG_OK 1 only when the words match the
library (03 R90, R110). -/
def State.writeJet (s : State) (j off : Nat) (v : Word64) : State :=
  let t := s.onJet j fun x => x.writeReg off v
  if 0x20000 ≤ off && off < 0x22000 && s.awake && j < 8192 && (s.jet j).idle then
    (t.updJet j fun x => { x with progOk := storeOk x.store (s.jetStore j) }).libDone j
  else t

/-- REGISTER_WRITE: by where it goes. -/
def doRegisterWrite (tgt : RegTarget) (v : Word64) (s : State) : State :=
  match tgt with
  | .bar0 fn off => s.writeBar0 fn off.toNat v
  | .jet j off => s.writeJet j off.toNat v
  | .jetSched ch =>
    if s.awake && ch < 128 then { s with jetSched := Tbl.set s.jetSched ch (v &&& schedMask) } else s
  | .jetReadyV _ => s
  | .twinStat =>
    if s.ownerServed && v.getLsbD 3 then { s with twin := { s.twin with cfgMismatch := false } } else s
/-- REGISTER_WRITE. -/
def execRegisterWrite (tgt : RegTarget) (value : BitVec 64) (s : State) : Host.Outcome State Fault Refusal :=
  run s (doRegisterWrite tgt value)

end Sys2Proof.Machine
end

