-- ==== Sys2Proof/Machine/Sideband.lean ====
section
/-! DEFINITION. The sideband SPI target (15 R484 to R487) and JTAG (15 R488). -/

namespace Sys2Proof.Machine

/-! ### Registers (R486) -/

/-- The target runs on SYSCLK_25M, from reset release, in every stage, tripped too (R486, R490). -/
def State.sbOn (s : State) : Bool := !s.pins.rstLow && !s.pins.railHold && s.pins.clkSys

/-- Register 0x003: AVG_W, LEVEL, TJ_HOT. -/
def State.sbPower (s : State) : Nat := s.pwr.avg % 2 ^ 11 + s.pwr.level % 64 * 2 ^ 11 + b2n s.tjHot * 2 ^ 17

/-- The register value of an index, where it is decoded; WO registers read 0. -/
def State.sbRead (s : State) (i : Nat) : Option Nat :=
  [0x01000512 + s.fuses.bin.toNat * 2 ^ 16, s.bootStat % 2 ^ 32, s.bootStat / 2 ^ 32, s.sbPower,
    s.pins.tjMax % 2 ^ 10 + s.pins.tcisMax % 2 ^ 10 * 2 ^ 10, s.pins.railOk.toNat, s.sb.errs.toNat, 0, 0,
    s.sb.irq.toNat, s.sb.scratch.toNat][i]?

/-- Change the target's own state. -/
def State.updSb (s : State) (f : Sideband → Sideband) : State := { s with sb := f s.sb }

/-- Count in a byte of register 0x006, saturating: 0 DISCARD, 1 OVERCLK, 2 TIMEOUT, 3 BADADDR. -/
def Sideband.bump (x : Sideband) (n : Nat) : Sideband :=
  { x with errs := setField x.errs (8 * n) 8 (satAdd 8 (fld x.errs (8 * n) 8) 1) }

/-- Set a flag of SB_LAST: 0 OK, 1 DISCARDED, 2 OVERCLK, 3 TIMEOUT, 4 BADADDR. -/
def Sideband.flag (x : Sideband) (n : Nat) : Sideband := { x with last := x.last ||| BitVec.ofNat 5 (2 ^ n) }

/-- A write to RESET_KEY: 0x0000_A5C3 requests NODE_RETAIN, in every stage (R486); a tripped node stays tripped (R490). -/
def doResetKey (v : Word32) (s : State) : State :=
  if s.awake && v == 0xA5C3#32 then s.nodeReset .retain 3 else s

/-- A write to ERR_CLR. -/
def doErrClr (v : Word32) (s : State) : State :=
  if s.sbOn && v.getLsbD 0 then s.updSb fun x => { x with errs := 0#32 } else s

/-- A write to a decoded register; RO registers ignore it. -/
def State.sbWrite (s : State) (i : Nat) (v : Word32) : State :=
  if i = 7 then doErrClr v s
  else if i = 8 then doResetKey v s
  else if i = 9 then s.updSb fun x => { x with irq := x.irq &&& ~~~(v.setWidth 3) }
  else if i = 10 then s.updSb fun x => { x with scratch := v }
  else s

/-! ### Words (R485, R487) -/

/-- The first 32 bits of a word were used, and more clocks came (R487). -/
def Sideband.overclock (x : Sideband) (clocks : Nat) : Sideband := if 32 < clocks then (x.flag 2).bump 1 else x

/-- A whole command word: MISO carries SB_LAST of the transaction before; the target is in DATA, a read's value latched;
a nonzero RsvdZ field or an undecoded index is BADADDR. -/
def State.sbCommand (s : State) (word : Word32) (clocks : Nat) : State :=
  let t := s.emit (.miso (s.sb.last.setWidth 32))
  let v := if fld word 12 19 = 0 then s.sbRead (fld word 0 12) else none
  let x := { s.sb with
    inData := true, cmd := word, latched := BitVec.ofNat 32 (v.getD 0), cmdAt := s.clk.up, last := 0#5 }
  let x := x.overclock clocks
  t.updSb fun _ => if v.isNone then (x.flag 4).bump 3 else x

/-- A whole data word: a write applies it, a read shifts out what was latched; the transaction is complete. -/
def State.sbData (s : State) (word : Word32) (clocks : Nat) : State :=
  let good := !(s.sb.last.getLsbD 4)
  let x := { s.sb with inData := false }
  let x := (if good then x.flag 0 else x).overclock clocks
  let t := s.updSb fun _ => x
  if s.sb.cmd.getLsbD 31 then (if good then t.sbWrite (fld s.sb.cmd 0 12) word else t)
  else t.emit (.miso s.sb.latched)

/-- A word that SB_CS_N cut after 1 to 31 clocks: discarded, and a transaction in DATA abandoned (R487). -/
def State.sbDiscard (s : State) : State :=
  s.updSb fun x => ({ x with inData := false, last := if x.inData then x.last else 0#5 } : Sideband).flag 1 |>.bump 0

/-- A word of any length, by the state of the target. -/
def State.sbWord (s : State) (word : Word32) (clocks : Nat) : State :=
  if !s.sbOn || clocks = 0 then s
  else if clocks < 32 then s.sbDiscard
  else if s.sb.inData then s.sbData word clocks
  else s.sbCommand word clocks

/-- SB_COMMAND_WORD: a word sent as a command word; in DATA it is the data word. -/
def execSbCommandWord (word : BitVec 32) (clocks : Nat) (now : Nat) (s : State) : Host.Outcome State Fault Refusal :=
  run s fun t => (t.upTo now).sbWord word clocks

/-- SB_DATA_WORD: a word sent as a data word; in IDLE it is a command word. -/
def execSbDataWord (word : BitVec 32) (clocks : Nat) (now : Nat) (s : State) : Host.Outcome State Fault Refusal :=
  run s fun t => (t.upTo now).sbWord word clocks

/-- SB_WORD_DISCARDED: after 1 to 31 clocks; without a clock nothing happens, and with 32 it is no such word. -/
def execSbWordDiscarded (clocks : Nat) (s : State) : Host.Outcome State Fault Refusal :=
  run s fun t => if t.sbOn && decide (1 ≤ clocks ∧ clocks ≤ 31) then t.sbDiscard else t

/-- No data word within 1 ms of the command word: abandoned (R487). -/
def doSbDataTimeout (s : State) : State :=
  if s.sbOn && s.sb.inData && decide (s.sb.cmdAt + 1000000 ≤ s.clk.up) then
    s.updSb fun x => ({ x with inData := false } : Sideband).flag 3 |>.bump 2
  else s
/-- SB_DATA_TIMEOUT. -/
def execSbDataTimeout (now : Nat) (s : State) : Host.Outcome State Fault Refusal :=
  run s fun t => doSbDataTimeout (t.upTo now)

/-- RESET_KEY: register 0x008 written. -/
def execResetKey (value : BitVec 32) (s : State) : Host.Outcome State Fault Refusal :=
  run s fun t => if t.sbOn then doResetKey value t else t

/-- ERR_CLR: register 0x007 written. -/
def execErrClr (value : BitVec 32) (s : State) : Host.Outcome State Fault Refusal := run s (doErrClr value)

/-! ### JTAG (R488) -/

/-- The instruction register: IDCODE 0, BYPASS 1, SAMPLE/PRELOAD 2, EXTEST 3, EXTEST_PULSE 4, EXTEST_TRAIN 5. -/
def State.loadIr (s : State) (n : Nat) : State := s.updSb fun x => { x with jtagIr := n }

/-- An EXTEST-class instruction: loaded only while RST_N is low, and BYPASS in its place at any other time. -/
def State.loadExtest (s : State) (n : Nat) : State := s.loadIr (if s.pins.rstLow then n else 1)

/-- BYPASS. -/
def execBypass (s : State) : Host.Outcome State Fault Refusal := run s fun t => t.loadIr 1

/-- IDCODE: version 1, part 0x0512, manufacturer 0x4B7. -/
def execIdcode (s : State) : Host.Outcome State Fault Refusal :=
  run s fun t => (t.loadIr 0).emit (.jtag 0x1051296F#32)

/-- SAMPLE/PRELOAD. -/
def execSamplePreload (s : State) : Host.Outcome State Fault Refusal := run s fun t => t.loadIr 2

/-- EXTEST. -/
def execExtest (s : State) : Host.Outcome State Fault Refusal := run s fun t => t.loadExtest 3

/-- EXTEST_PULSE. -/
def execExtestPulse (s : State) : Host.Outcome State Fault Refusal := run s fun t => t.loadExtest 4

/-- EXTEST_TRAIN. -/
def execExtestTrain (s : State) : Host.Outcome State Fault Refusal := run s fun t => t.loadExtest 5

end Sys2Proof.Machine
end

