-- ==== Sys2Proof/Machine/Dispatch.lean ====
section
/-! DEFINITION. One arm per command, each one direct call of the command's meaning, in the opcode table's order. -/

namespace Sys2Proof.Machine

/-- The effect of a command on everything but the queue. -/
def exec (i : Instr) (s : State) : Host.Outcome State Fault Refusal :=
  match i with
  | .powerOn straps => Sys2Proof.Machine.execPowerOn straps s
  | .resetBall lowNs => Sys2Proof.Machine.execResetBall lowNs s
  | .perst => Sys2Proof.Machine.execPerst s
  | .railOutOfRange rail ns => Sys2Proof.Machine.execRailOutOfRange rail ns s
  | .railsRecovered ns => Sys2Proof.Machine.execRailsRecovered ns s
  | .clockAbsent clk => Sys2Proof.Machine.execClockAbsent clk s
  | .thermalTrip degC ns => Sys2Proof.Machine.execThermalTrip degC ns s
  | .thermalTripRelease lowNs hottestC => Sys2Proof.Machine.execThermalTripRelease lowNs hottestC s
  | .dramHot ch degC => Sys2Proof.Machine.execDramHot ch degC s
  | .watchdogExpiry now => Sys2Proof.Machine.execWatchdogExpiry now s
  | .fatalEvent code srcIndex now => Sys2Proof.Machine.execFatalEvent code srcIndex now s
  | .firmwareVerify a b now => Sys2Proof.Machine.execFirmwareVerify a b now s
  | .clocksLocked now => Sys2Proof.Machine.execClocksLocked now s
  | .channelTrainingDone ch passed => Sys2Proof.Machine.execChannelTrainingDone ch passed s
  | .memoryTestDone ch badRows => Sys2Proof.Machine.execMemoryTestDone ch badRows s
  | .laneTrainingDone port up peer => Sys2Proof.Machine.execLaneTrainingDone port up peer s
  | .laneRetryTimer port now => Sys2Proof.Machine.execLaneRetryTimer port now s
  | .computeStageDone failedJets failedArrays now => Sys2Proof.Machine.execComputeStageDone failedJets failedArrays now s
  | .stageOverrun now => Sys2Proof.Machine.execStageOverrun now s
  | .serviceOpen now => Sys2Proof.Machine.execServiceOpen now s
  | .ptpMessage port msg => Sys2Proof.Machine.execPtpMessage port msg s
  | .masterLost => Sys2Proof.Machine.execMasterLost s
  | .ppsInEdge => Sys2Proof.Machine.execPpsInEdge s
  | .ppsOutSecond now => Sys2Proof.Machine.execPpsOutSecond now s
  | .powerSample watts tjC tcisC now => Sys2Proof.Machine.execPowerSample watts tjC tcisC now s
  | .avsbusNoAck => Sys2Proof.Machine.execAvsbusNoAck s
  | .nodeStatus c => Sys2Proof.Machine.execNodeStatus c s
  | .attestReport c => Sys2Proof.Machine.execAttestReport c s
  | .nodeReset c => Sys2Proof.Machine.execNodeReset c s
  | .partitionReset c => Sys2Proof.Machine.execPartitionReset c s
  | .partitionResetEnd part now => Sys2Proof.Machine.execPartitionResetEnd part now s
  | .laneRetrain c => Sys2Proof.Machine.execLaneRetrain c s
  | .laneRetrainDone port lane passed => Sys2Proof.Machine.execLaneRetrainDone port lane passed s
  | .faultRead c => Sys2Proof.Machine.execFaultRead c s
  | .peerClear c => Sys2Proof.Machine.execPeerClear c s
  | .cfgCommit c => Sys2Proof.Machine.execCfgCommit c s
  | .cfgAbort c => Sys2Proof.Machine.execCfgAbort c s
  | .cfgStatus c => Sys2Proof.Machine.execCfgStatus c s
  | .cfgDiscard c => Sys2Proof.Machine.execCfgDiscard c s
  | .partMapStage c => Sys2Proof.Machine.execPartMapStage c s
  | .partCfgStage c => Sys2Proof.Machine.execPartCfgStage c s
  | .partStatus c => Sys2Proof.Machine.execPartStatus c s
  | .lockStage c => Sys2Proof.Machine.execLockStage c s
  | .admitWeightsStage c => Sys2Proof.Machine.execAdmitWeightsStage c s
  | .nodeCfgStage c => Sys2Proof.Machine.execNodeCfgStage c s
  | .twinCfgStage c => Sys2Proof.Machine.execTwinCfgStage c s
  | .routeStage c => Sys2Proof.Machine.execRouteStage c s
  | .twinStatus c => Sys2Proof.Machine.execTwinStatus c s
  | .dirRead c => Sys2Proof.Machine.execDirRead c s
  | .windowStage c => Sys2Proof.Machine.execWindowStage c s
  | .windowRead c => Sys2Proof.Machine.execWindowRead c s
  | .windowRevoke c => Sys2Proof.Machine.execWindowRevoke c s
  | .windowRevokeDrained window now => Sys2Proof.Machine.execWindowRevokeDrained window now s
  | .srcsetStage c => Sys2Proof.Machine.execSrcsetStage c s
  | .weirStage c => Sys2Proof.Machine.execWeirStage c s
  | .shaperStage c => Sys2Proof.Machine.execShaperStage c s
  | .portWeightsStage c => Sys2Proof.Machine.execPortWeightsStage c s
  | .queueSet c => Sys2Proof.Machine.execQueueSet c s
  | .queueStop c => Sys2Proof.Machine.execQueueStop c s
  | .queueStopped queue => Sys2Proof.Machine.execQueueStopped queue s
  | .queueRead c => Sys2Proof.Machine.execQueueRead c s
  | .keyInstall c => Sys2Proof.Machine.execKeyInstall c s
  | .keySwitch c => Sys2Proof.Machine.execKeySwitch c s
  | .keyDrop c => Sys2Proof.Machine.execKeyDrop c s
  | .keyRetire c => Sys2Proof.Machine.execKeyRetire c s
  | .keyRetired slot now => Sys2Proof.Machine.execKeyRetired slot now s
  | .keyStatus c => Sys2Proof.Machine.execKeyStatus c s
  | .keyAgeWarn slot now => Sys2Proof.Machine.execKeyAgeWarn slot now s
  | .keyLifetimeExpiry slot now => Sys2Proof.Machine.execKeyLifetimeExpiry slot now s
  | .sessionOpen c => Sys2Proof.Machine.execSessionOpen c s
  | .sessionClose c => Sys2Proof.Machine.execSessionClose c s
  | .sessionCloseRelease session => Sys2Proof.Machine.execSessionCloseRelease session s
  | .sessionRead c => Sys2Proof.Machine.execSessionRead c s
  | .baseBegin c => Sys2Proof.Machine.execBaseBegin c s
  | .baseEnd c => Sys2Proof.Machine.execBaseEnd c s
  | .baseUnload c => Sys2Proof.Machine.execBaseUnload c s
  | .postabLoad c => Sys2Proof.Machine.execPostabLoad c s
  | .postabUnload c => Sys2Proof.Machine.execPostabUnload c s
  | .progStage c => Sys2Proof.Machine.execProgStage c s
  | .statsRead c => Sys2Proof.Machine.execStatsRead c s
  | .histRead c => Sys2Proof.Machine.execHistRead c s
  | .rebalance c => Sys2Proof.Machine.execRebalance c s
  | .mbDoorbell fn mb value => Sys2Proof.Machine.execMbDoorbell fn mb value s
  | .mailboxTurn => Sys2Proof.Machine.execMailboxTurn s
  | .spdmGetVersion ep => Sys2Proof.Machine.execSpdmGetVersion ep s
  | .spdmGetCapabilities ep version => Sys2Proof.Machine.execSpdmGetCapabilities ep version s
  | .spdmNegotiateAlgorithms ep algs => Sys2Proof.Machine.execSpdmNegotiateAlgorithms ep algs s
  | .spdmGetDigests ep => Sys2Proof.Machine.execSpdmGetDigests ep s
  | .spdmGetCertificate ep slot offset length => Sys2Proof.Machine.execSpdmGetCertificate ep slot offset length s
  | .spdmChallenge ep slot nonce => Sys2Proof.Machine.execSpdmChallenge ep slot nonce s
  | .spdmGetMeasurements ep index signed nonce => Sys2Proof.Machine.execSpdmGetMeasurements ep index signed nonce s
  | .spdmKeyExchange ep reqSession exchange => Sys2Proof.Machine.execSpdmKeyExchange ep reqSession exchange s
  | .spdmFinish ep verified reqKeyDigest => Sys2Proof.Machine.execSpdmFinish ep verified reqKeyDigest s
  | .spdmKeyUpdate ep session op tag => Sys2Proof.Machine.execSpdmKeyUpdate ep session op tag s
  | .spdmHeartbeat ep session => Sys2Proof.Machine.execSpdmHeartbeat ep session s
  | .spdmEndSession ep session => Sys2Proof.Machine.execSpdmEndSession ep session s
  | .vendorDefinedRequest ep session payload => Sys2Proof.Machine.execVendorDefinedRequest ep session payload s
  | .mctpMailboxMessage payload => Sys2Proof.Machine.execMctpMailboxMessage payload s
  | .pldmRequest sensor => Sys2Proof.Machine.execPldmRequest sensor s
  | .smbusTimeout lowNs => Sys2Proof.Machine.execSmbusTimeout lowNs s
  | .ideIntegrityFail stream => Sys2Proof.Machine.execIdeIntegrityFail stream s
  | .bar2Read fn addr len ecc => Sys2Proof.Machine.execBar2Read fn addr len ecc s
  | .bar2Write fn addr bytes ecc => Sys2Proof.Machine.execBar2Write fn addr bytes ecc s
  | .hostDoorbell fn queue db => Sys2Proof.Machine.execHostDoorbell fn queue db s
  | .completionDoorbell fn queue db => Sys2Proof.Machine.execCompletionDoorbell fn queue db s
  | .hostSubmissionRead queue entry msg => Sys2Proof.Machine.execHostSubmissionRead queue entry msg s
  | .firstClr fn => Sys2Proof.Machine.execFirstClr fn s
  | .histClr fn => Sys2Proof.Machine.execHistClr fn s
  | .registerWrite tgt value => Sys2Proof.Machine.execRegisterWrite tgt value s
  | .go jet slot => Sys2Proof.Machine.execGo jet slot s
  | .stop jet slot => Sys2Proof.Machine.execStop jet slot s
  | .readyClear jet slot => Sys2Proof.Machine.execReadyClear jet slot s
  | .microprogramWrite jet => Sys2Proof.Machine.execMicroprogramWrite jet s
  | .slotStart jet => Sys2Proof.Machine.execSlotStart jet s
  | .nop jet => Sys2Proof.Machine.execNop jet s
  | .li jet a imm => Sys2Proof.Machine.execLi jet a imm s
  | .add jet a b imm => Sys2Proof.Machine.execAdd jet a b imm s
  | .gets jet a imm => Sys2Proof.Machine.execGets jet a imm s
  | .gete jet a b imm => Sys2Proof.Machine.execGete jet a b imm s
  | .beq jet a b imm => Sys2Proof.Machine.execBeq jet a b imm s
  | .bne jet a b imm => Sys2Proof.Machine.execBne jet a b imm s
  | .jmp jet imm => Sys2Proof.Machine.execJmp jet imm s
  | .stopb jet imm => Sys2Proof.Machine.execStopb jet imm s
  | .endSlot jet => Sys2Proof.Machine.execEndSlot jet s
  | .failSlot jet => Sys2Proof.Machine.execFailSlot jet s
  | .clrp jet => Sys2Proof.Machine.execClrp jet s
  | .clra jet => Sys2Proof.Machine.execClra jet s
  | .rdk jet a => Sys2Proof.Machine.execRdk jet a s
  | .rdv jet a => Sys2Proof.Machine.execRdv jet a s
  | .rdbk jet a => Sys2Proof.Machine.execRdbk jet a s
  | .rdbv jet a => Sys2Proof.Machine.execRdbv jet a s
  | .segmentReadDone jet ecc => Sys2Proof.Machine.execSegmentReadDone jet ecc s
  | .qk jet a => Sys2Proof.Machine.execQk jet a s
  | .exps jet a => Sys2Proof.Machine.execExps jet a s
  | .pv jet a => Sys2Proof.Machine.execPv jet a s
  | .emit jet residueOk => Sys2Proof.Machine.execEmit jet residueOk s
  | .cpyrow jet a b => Sys2Proof.Machine.execCpyrow jet a b s
  | .patw jet a imm => Sys2Proof.Machine.execPatw jet a imm s
  | .patr jet a imm stuck => Sys2Proof.Machine.execPatr jet a imm stuck s
  | .arrt jet imm passed => Sys2Proof.Machine.execArrt jet imm passed s
  | .yreqRaise jet => Sys2Proof.Machine.execYreqRaise jet s
  | .yreqDrop jet => Sys2Proof.Machine.execYreqDrop jet s
  | .ordinaryAccess jet acc => Sys2Proof.Machine.execOrdinaryAccess jet acc s
  | .ownLimitExpiry jet cycles => Sys2Proof.Machine.execOwnLimitExpiry jet cycles s
  | .sweepLimitExpiry jet cycles => Sys2Proof.Machine.execSweepLimitExpiry jet cycles s
  | .jetResponseTimeout jet ns => Sys2Proof.Machine.execJetResponseTimeout jet ns s
  | .jetReset jet arrayPass bankPass => Sys2Proof.Machine.execJetReset jet arrayPass bankPass s
  | .write f => Sys2Proof.Machine.execWrite f s
  | .writeImm f => Sys2Proof.Machine.execWriteImm f s
  | .writeImmMailbox f => Sys2Proof.Machine.execWriteImmMailbox f s
  | .cqHoldExpiry port now => Sys2Proof.Machine.execCqHoldExpiry port now s
  | .forwardCompletion f => Sys2Proof.Machine.execForwardCompletion f s
  | .readReq f => Sys2Proof.Machine.execReadReq f s
  | .readDeadline req now => Sys2Proof.Machine.execReadDeadline req now s
  | .attend f => Sys2Proof.Machine.execAttend f s
  | .append f => Sys2Proof.Machine.execAppend f s
  | .ingest f => Sys2Proof.Machine.execIngest f s
  | .commit f => Sys2Proof.Machine.execCommit f s
  | .commitApply req => Sys2Proof.Machine.execCommitApply req s
  | .cancel f => Sys2Proof.Machine.execCancel f s
  | .sramCopyRelease pg => Sys2Proof.Machine.execSramCopyRelease pg s
  | .appendDeadline req now => Sys2Proof.Machine.execAppendDeadline req now s
  | .landingResume port => Sys2Proof.Machine.execLandingResume port s
  | .admissionStep part now ecc => Sys2Proof.Machine.execAdmissionStep part now ecc s
  | .admitWaitExpiry queue now => Sys2Proof.Machine.execAdmitWaitExpiry queue now s
  | .slotCollect jet slot => Sys2Proof.Machine.execSlotCollect jet slot s
  | .entryMerge req entry now ecc residueOk => Sys2Proof.Machine.execEntryMerge req entry now ecc residueOk s
  | .cutTime jet slot now => Sys2Proof.Machine.execCutTime jet slot now s
  | .confluenceDeadline req entry now => Sys2Proof.Machine.execConfluenceDeadline req entry now s
  | .provSetExpiry session pset now => Sys2Proof.Machine.execProvSetExpiry session pset now s
  | .hedgeEvaluate req now => Sys2Proof.Machine.execHedgeEvaluate req now s
  | .hedge f => Sys2Proof.Machine.execHedge f s
  | .hedgeClaim f => Sys2Proof.Machine.execHedgeClaim f s
  | .mirror f => Sys2Proof.Machine.execMirror f s
  | .mirrorAck f => Sys2Proof.Machine.execMirrorAck f s
  | .mirrorKeepalive now => Sys2Proof.Machine.execMirrorKeepalive now s
  | .writerApplyTimeout now => Sys2Proof.Machine.execWriterApplyTimeout now s
  | .twinSilenceTimeout boardSilent queryAnswered now => Sys2Proof.Machine.execTwinSilenceTimeout boardSilent queryAnswered now s
  | .joiningTimeout now => Sys2Proof.Machine.execJoiningTimeout now s
  | .rejoin peerDigest peerStamp accepted => Sys2Proof.Machine.execRejoin peerDigest peerStamp accepted s
  | .resyncComplete => Sys2Proof.Machine.execResyncComplete s
  | .dirUpdate f => Sys2Proof.Machine.execDirUpdate f s
  | .dirQuery f => Sys2Proof.Machine.execDirQuery f s
  | .voidSync f => Sys2Proof.Machine.execVoidSync f s
  | .void f => Sys2Proof.Machine.execVoid f s
  | .ack f => Sys2Proof.Machine.execAck f s
  | .nak f => Sys2Proof.Machine.execNak f s
  | .ackTimerExpiry src rclass now => Sys2Proof.Machine.execAckTimerExpiry src rclass now s
  | .retransmitTimerExpiry dst rclass now => Sys2Proof.Machine.execRetransmitTimerExpiry dst rclass now s
  | .peerProbe peer now => Sys2Proof.Machine.execPeerProbe peer now s
  | .linkDown port => Sys2Proof.Machine.execLinkDown port s
  | .pfcFrame port pcps xoff now => Sys2Proof.Machine.execPfcFrame port pcps xoff now s
  | .neighborSolicitation port target src => Sys2Proof.Machine.execNeighborSolicitation port target src s
  | .echoRequest port target src ident seq data => Sys2Proof.Machine.execEchoRequest port target src ident seq data s
  | .otherFrame port size => Sys2Proof.Machine.execOtherFrame port size s
  | .portTransmit port now => Sys2Proof.Machine.execPortTransmit port now s
  | .weirTakeover port now => Sys2Proof.Machine.execWeirTakeover port now s
  | .weirEntryAdvance port now => Sys2Proof.Machine.execWeirEntryAdvance port now s
  | .epochCommitTime now => Sys2Proof.Machine.execEpochCommitTime now s
  | .epochDrainEnd now => Sys2Proof.Machine.execEpochDrainEnd now s
  | .resourceScrubDone res => Sys2Proof.Machine.execResourceScrubDone res s
  | .promote pg ecc => Sys2Proof.Machine.execPromote pg ecc s
  | .demoteTimeout pg now => Sys2Proof.Machine.execDemoteTimeout pg now s
  | .migrationSwap pg ecc => Sys2Proof.Machine.execMigrationSwap pg ecc s
  | .oldRunRelease pg => Sys2Proof.Machine.execOldRunRelease pg s
  | .scrubPass grain ecc => Sys2Proof.Machine.execScrubPass grain ecc s
  | .selfTestVerdict place passed now => Sys2Proof.Machine.execSelfTestVerdict place passed now s
  | .pairSparing ch pair sparePasses ecc => Sys2Proof.Machine.execPairSparing ch pair sparePasses ecc s
  | .pairSpareSwitch ch pair => Sys2Proof.Machine.execPairSpareSwitch ch pair s
  | .laneDegrade port lane cause => Sys2Proof.Machine.execLaneDegrade port lane cause s
  | .tsvFault ch banks ns => Sys2Proof.Machine.execTsvFault ch banks ns s
  | .sbCommandWord word clocks now => Sys2Proof.Machine.execSbCommandWord word clocks now s
  | .sbDataWord word clocks now => Sys2Proof.Machine.execSbDataWord word clocks now s
  | .sbWordDiscarded clocks => Sys2Proof.Machine.execSbWordDiscarded clocks s
  | .sbDataTimeout now => Sys2Proof.Machine.execSbDataTimeout now s
  | .resetKey value => Sys2Proof.Machine.execResetKey value s
  | .errClr value => Sys2Proof.Machine.execErrClr value s
  | .bypass => Sys2Proof.Machine.execBypass s
  | .idcode => Sys2Proof.Machine.execIdcode s
  | .samplePreload => Sys2Proof.Machine.execSamplePreload s
  | .extest => Sys2Proof.Machine.execExtest s
  | .extestPulse => Sys2Proof.Machine.execExtestPulse s
  | .extestTrain => Sys2Proof.Machine.execExtestTrain s
  | .reservedOpcode jet opc => Sys2Proof.Machine.execReservedOpcode jet opc s
  | .undefinedOpcode f => Sys2Proof.Machine.execUndefinedOpcode f s
  | .malformedFrame f => Sys2Proof.Machine.execMalformedFrame f s
  | .clockReturn clk => Sys2Proof.Machine.execClockReturn clk s
  | .pcieConfigRequest fn => Sys2Proof.Machine.execPcieConfigRequest fn s
  | .ideKmMessage ep msg => Sys2Proof.Machine.execIdeKmMessage ep msg s
  | .nodeResetDelayExpiry now => Sys2Proof.Machine.execNodeResetDelayExpiry now s

end Sys2Proof.Machine
end

