-- ==== Sys2Proof/Safety.lean ====
section
/-! DEFINITION. What counts as a legal state, in the terms statements use, and how a statement says that a command
answers a next state. -/

namespace Sys2Proof.Machine

/-- At `s`, command `i` answers a next state of which `P` holds. -/
def Answers (i : Instr) (s : State) (P : State → Prop) : Prop := ∃ t, exec i s = .next t ∧ P t

/-- The legal states: memory in canonical form, STAGE and WT_TWIN_STAT.STATE among their values (13 R413, 10 R329), LEVEL
at most 40 (13 R430), the RsvdZ fields of PWR_CFG and FLT_CTL zero (00 R8), HIST_NEXT a slot of the history (12 R403),
the next mailbox of the round robin a mailbox (14 R448). -/
structure State.Inv (s : State) : Prop where
  mem    : Memory.wf s.mem
  stage  : s.boot.stage ≤ 7
  twin   : s.twin.state ≤ 5
  level  : s.pwr.level ≤ 40
  pwrCfg : s.pwr.cfg &&& ~~~pwrMask = 0#64
  fltCtl : s.flt.ctl &&& 0xFFFFFFFFFF000000#64 = 0#64
  hist   : s.flt.next < 32
  turn   : s.mbNext < 17

/-- The parts of the state: its fields but for `out` (assumption 4). -/
inductive Region where
  | pending
  | draws
  | fuses
  | pins
  | boot
  | clk
  | pwr
  | flt
  | spares
  | mem
  | side
  | allocCtr
  | allocs
  | badGrains
  | sessions
  | provs
  | parts
  | cfg
  | ep
  | slc
  | wt
  | jets
  | jetSched
  | sec
  | mboxes
  | mbNext
  | twin
  | sb
  deriving DecidableEq, Repr

/-- Does a part of the state stand in `t` as in `s`? -/
def Region.same : Region → State → State → Prop
  | .pending, s, t => t.pending = s.pending
  | .draws, s, t => t.draws = s.draws
  | .fuses, s, t => t.fuses = s.fuses
  | .pins, s, t => t.pins = s.pins
  | .boot, s, t => t.boot = s.boot
  | .clk, s, t => t.clk = s.clk
  | .pwr, s, t => t.pwr = s.pwr
  | .flt, s, t => t.flt = s.flt
  | .spares, s, t => t.spares = s.spares
  | .mem, s, t => t.mem = s.mem
  | .side, s, t => t.side = s.side
  | .allocCtr, s, t => t.allocCtr = s.allocCtr
  | .allocs, s, t => t.allocs = s.allocs
  | .badGrains, s, t => t.badGrains = s.badGrains
  | .sessions, s, t => t.sessions = s.sessions
  | .provs, s, t => t.provs = s.provs
  | .parts, s, t => t.parts = s.parts
  | .cfg, s, t => t.cfg = s.cfg
  | .ep, s, t => t.ep = s.ep
  | .slc, s, t => t.slc = s.slc
  | .wt, s, t => t.wt = s.wt
  | .jets, s, t => t.jets = s.jets
  | .jetSched, s, t => t.jetSched = s.jetSched
  | .sec, s, t => t.sec = s.sec
  | .mboxes, s, t => t.mboxes = s.mboxes
  | .mbNext, s, t => t.mbNext = s.mbNext
  | .twin, s, t => t.twin = s.twin
  | .sb, s, t => t.sb = s.sb

/-- `t` differs from `s` in no part outside `m` (what a command sends out, `out`, apart). -/
structure Keeps (m : List Region) (s t : State) : Prop where
  same : ∀ p, p ∉ m → p.same s t

/-- What a command may change, by the parts of the state: its frame. No command changes a part that is not in its list. -/
def touches : Instr → List Region
  | .spdmGetDigests .. | .spdmGetCertificate .. | .spdmKeyUpdate .. | .spdmHeartbeat .. | .pcieConfigRequest .. =>
      []
  | .spdmChallenge .. | .spdmGetMeasurements .. | .pldmRequest .. =>
      [.draws]
  | .dramHot .. =>
      [.pins]
  | .ptpMessage .. | .masterLost | .ppsInEdge =>
      [.clk]
  | .avsbusNoAck =>
      [.pwr]
  | .firstClr .. | .histClr .. | .neighborSolicitation .. | .echoRequest .. | .otherFrame .. | .tsvFault .. =>
      [.flt]
  | .go .. | .stop .. | .readyClear .. | .slotStart .. | .nop .. | .li .. | .add .. | .gets .. | .gete .. | .beq ..
  | .bne .. | .jmp .. | .stopb .. | .endSlot .. | .failSlot .. | .clrp .. | .clra .. | .rdk .. | .rdv .. | .rdbk ..
  | .rdbv .. | .patr .. | .arrt .. | .yreqRaise .. | .yreqDrop .. | .reservedOpcode .. =>
      [.jets]
  | .spdmGetVersion .. | .spdmGetCapabilities .. | .spdmNegotiateAlgorithms .. | .spdmFinish ..
  | .spdmEndSession .. | .ideKmMessage .. =>
      [.sec]
  | .mbDoorbell .. | .vendorDefinedRequest .. | .mctpMailboxMessage .. =>
      [.mboxes]
  | .smbusTimeout .. | .sbWordDiscarded .. | .errClr .. | .bypass | .idcode | .samplePreload | .extest
  | .extestPulse | .extestTrain =>
      [.sb]
  | .spdmKeyExchange .. =>
      [.draws, .sec]
  | .thermalTrip .. | .clockReturn .. =>
      [.pins, .boot]
  | .ppsOutSecond .. =>
      [.pins, .clk]
  | .railOutOfRange .. =>
      [.pins, .sb]
  | .laneRetryTimer .. =>
      [.boot, .clk]
  | .provSetExpiry .. =>
      [.clk, .provs]
  | .ackTimerExpiry .. | .peerProbe .. | .weirTakeover .. | .weirEntryAdvance .. =>
      [.clk, .wt]
  | .sbDataTimeout .. =>
      [.clk, .sb]
  | .hostDoorbell .. | .completionDoorbell .. =>
      [.flt, .slc]
  | .linkDown .. =>
      [.flt, .wt]
  | .ownLimitExpiry .. | .sweepLimitExpiry .. | .jetResponseTimeout .. =>
      [.flt, .jets]
  | .ideIntegrityFail .. =>
      [.flt, .sec]
  | .qk .. | .exps .. | .pv .. =>
      [.parts, .jets]
  | .emit .. =>
      [.draws, .flt, .jets]
  | .laneTrainingDone .. =>
      [.boot, .wt, .sb]
  | .pfcFrame .. =>
      [.clk, .flt, .wt]
  | .keyAgeWarn .. =>
      [.clk, .flt, .sec]
  | .epochDrainEnd .. =>
      [.clk, .ep, .sec]
  | .hostSubmissionRead .. =>
      [.flt, .slc, .wt]
  | .patw .. =>
      [.mem, .side, .jets]
  | .microprogramWrite .. =>
      [.ep, .slc, .jets]
  | .firmwareVerify .. | .clocksLocked .. =>
      [.pins, .boot, .clk, .sb]
  | .powerSample .. =>
      [.pins, .clk, .pwr, .sb]
  | .laneDegrade .. =>
      [.boot, .flt, .spares, .wt]
  | .admitWaitExpiry .. =>
      [.clk, .flt, .slc, .wt]
  | .pairSpareSwitch .. =>
      [.flt, .spares, .slc, .jets]
  | .resyncComplete =>
      [.flt, .slc, .wt, .twin]
  | .sramCopyRelease .. =>
      [.mem, .side, .sessions, .parts]
  | .computeStageDone .. =>
      [.boot, .clk, .flt, .spares, .jets]
  | .appendDeadline .. | .hedgeEvaluate .. | .mirrorKeepalive .. =>
      [.clk, .flt, .slc, .wt, .twin]
  | .demoteTimeout .. =>
      [.clk, .mem, .side, .sessions, .parts]
  | .ordinaryAccess .. =>
      [.flt, .mem, .side, .jets, .sec]
  | .nodeStatus .. | .faultRead .. | .peerClear .. | .cfgStatus .. | .partStatus .. | .twinStatus .. | .dirRead ..
  | .windowRead .. | .queueStop .. | .queueRead .. | .keyInstall .. | .keySwitch .. | .keyDrop .. | .keyRetire ..
  | .keyStatus .. | .sessionRead .. | .histRead .. =>
      [.flt, .slc, .wt, .sec, .mboxes]
  | .oldRunRelease .. =>
      [.mem, .side, .allocs, .sessions, .parts]
  | .attestReport .. =>
      [.draws, .flt, .slc, .wt, .sec, .mboxes]
  | .nodeReset .. =>
      [.boot, .flt, .slc, .wt, .sec, .mboxes]
  | .windowRevokeDrained .. =>
      [.clk, .flt, .slc, .wt, .sec, .mboxes]
  | .queueSet .. | .queueStopped .. =>
      [.flt, .allocs, .slc, .wt, .sec, .mboxes]
  | .statsRead .. =>
      [.flt, .parts, .slc, .wt, .sec, .mboxes]
  | .cfgCommit .. | .cfgAbort .. | .cfgDiscard .. | .partMapStage .. | .partCfgStage .. | .lockStage ..
  | .admitWeightsStage .. | .nodeCfgStage .. | .twinCfgStage .. | .routeStage .. | .windowStage ..
  | .srcsetStage .. | .weirStage .. | .shaperStage .. | .portWeightsStage .. =>
      [.flt, .ep, .slc, .wt, .sec, .mboxes]
  | .laneRetrain .. =>
      [.boot, .flt, .spares, .slc, .wt, .sec, .mboxes]
  | .readDeadline .. | .cutTime .. | .confluenceDeadline .. =>
      [.clk, .flt, .provs, .slc, .wt, .jets, .twin]
  | .baseEnd .. =>
      [.flt, .parts, .slc, .wt, .sec, .mboxes, .twin]
  | .windowRevoke .. =>
      [.flt, .cfg, .ep, .slc, .wt, .sec, .mboxes]
  | .baseBegin .. =>
      [.draws, .flt, .parts, .slc, .wt, .sec, .mboxes, .twin]
  | .jetReset .. | .slotCollect .. =>
      [.clk, .flt, .provs, .parts, .slc, .wt, .jets, .twin]
  | .baseUnload .. | .postabUnload .. =>
      [.flt, .allocs, .parts, .slc, .wt, .sec, .mboxes, .twin]
  | .registerWrite .. =>
      [.clk, .pwr, .flt, .ep, .slc, .jets, .jetSched, .mboxes, .twin]
  | .perst =>
      [.clk, .flt, .provs, .slc, .wt, .jets, .sec, .mboxes, .twin]
  | .keyRetired .. | .keyLifetimeExpiry .. | .writerApplyTimeout .. | .twinSilenceTimeout .. | .joiningTimeout ..
  | .retransmitTimerExpiry .. =>
      [.clk, .flt, .parts, .slc, .wt, .jets, .sec, .mboxes, .twin]
  | .bar2Read .. | .bar2Write .. | .promote .. =>
      [.flt, .mem, .side, .badGrains, .sessions, .parts, .slc, .wt, .sec, .twin]
  | .pairSparing .. =>
      [.flt, .spares, .mem, .side, .badGrains, .sessions, .parts, .slc, .wt, .sec, .twin]
  | .rejoin .. =>
      [.flt, .mem, .side, .allocs, .badGrains, .sessions, .provs, .parts, .slc, .wt, .twin]
  | .scrubPass .. =>
      [.flt, .mem, .side, .allocs, .badGrains, .sessions, .parts, .slc, .wt, .sec, .twin]
  | .segmentReadDone .. =>
      [.flt, .mem, .side, .badGrains, .sessions, .parts, .slc, .wt, .jets, .sec, .twin]
  | .rebalance .. =>
      [.draws, .flt, .mem, .side, .allocCtr, .allocs, .sessions, .parts, .slc, .wt, .sec, .mboxes]
  | .clockAbsent .. =>
      [.pins, .boot, .clk, .flt, .provs, .slc, .wt, .jets, .sec, .mboxes, .twin, .sb]
  | .sessionCloseRelease .. =>
      [.clk, .flt, .mem, .side, .allocs, .badGrains, .sessions, .provs, .parts, .slc, .wt, .twin]
  | .cpyrow .. =>
      [.flt, .spares, .mem, .side, .badGrains, .sessions, .parts, .slc, .wt, .jets, .sec, .twin]
  | .sessionClose .. =>
      [.flt, .mem, .side, .allocs, .badGrains, .sessions, .parts, .slc, .wt, .sec, .mboxes, .twin]
  | .progStage .. =>
      [.flt, .mem, .side, .badGrains, .sessions, .parts, .ep, .slc, .wt, .sec, .mboxes, .twin]
  | .migrationSwap .. =>
      [.draws, .flt, .mem, .side, .allocCtr, .allocs, .badGrains, .sessions, .parts, .slc, .wt, .sec, .twin]
  | .sessionOpen .. | .postabLoad .. =>
      [.draws, .flt, .mem, .side, .allocs, .badGrains, .sessions, .parts, .slc, .wt, .sec, .mboxes, .twin]
  | .partitionResetEnd .. =>
      [.clk, .flt, .mem, .side, .allocCtr, .allocs, .badGrains, .sessions, .parts, .slc, .wt, .sec, .mboxes]
  | .entryMerge .. =>
      [.draws, .clk, .flt, .mem, .side, .badGrains, .sessions, .provs, .parts, .slc, .wt, .jets, .sec, .twin]
  | .portTransmit .. =>
      [.clk, .flt, .mem, .side, .badGrains, .sessions, .parts, .slc, .wt, .jets, .sec, .mboxes, .twin]
  | .laneRetrainDone .. | .selfTestVerdict .. =>
      [.boot, .clk, .flt, .spares, .mem, .side, .sessions, .provs, .parts, .slc, .wt, .jets, .sec, .twin]
  | .epochCommitTime .. =>
      [.clk, .flt, .mem, .side, .allocs, .badGrains, .parts, .cfg, .ep, .slc, .wt, .sec, .mboxes, .twin]
  | .partitionReset .. =>
      [.draws, .clk, .flt, .mem, .side, .allocs, .sessions, .provs, .parts, .slc, .wt, .jets, .sec, .mboxes, .twin]
  | .commitApply .. =>
      [.draws, .flt, .mem, .side, .allocCtr, .allocs, .badGrains, .sessions, .provs, .parts, .slc, .wt, .sec,
        .mboxes, .twin]
  | .resourceScrubDone .. =>
      [.draws, .clk, .flt, .mem, .side, .allocCtr, .allocs, .badGrains, .sessions, .provs, .parts, .cfg, .slc, .wt,
        .jets, .sec, .twin]
  | .admissionStep .. =>
      [.draws, .clk, .flt, .mem, .side, .allocCtr, .allocs, .badGrains, .sessions, .provs, .parts, .slc, .wt,
        .jets, .sec, .mboxes, .twin]
  | .serviceOpen .. =>
      [.boot, .clk, .flt, .mem, .side, .allocs, .badGrains, .sessions, .parts, .cfg, .ep, .slc, .wt, .sec, .mboxes,
        .twin, .sb]
  | .write .. | .writeImm .. | .writeImmMailbox .. | .cqHoldExpiry .. | .forwardCompletion .. | .readReq ..
  | .attend .. | .append .. | .ingest .. | .commit .. | .cancel .. | .landingResume .. | .hedge .. | .hedgeClaim ..
  | .mirror .. | .mirrorAck .. | .dirUpdate .. | .dirQuery .. | .voidSync .. | .void .. | .ack .. | .nak ..
  | .undefinedOpcode .. | .malformedFrame .. =>
      [.draws, .clk, .flt, .mem, .side, .allocCtr, .allocs, .badGrains, .sessions, .provs, .parts, .ep, .slc, .wt,
        .jets, .sec, .mboxes, .twin]
  | .mailboxTurn =>
      [.draws, .boot, .clk, .flt, .spares, .mem, .side, .allocCtr, .allocs, .badGrains, .sessions, .provs, .parts,
        .cfg, .ep, .slc, .wt, .jets, .sec, .mboxes, .mbNext, .twin]
  | .powerOn .. | .resetBall .. | .railsRecovered .. | .thermalTripRelease .. | .watchdogExpiry .. | .fatalEvent ..
  | .stageOverrun .. | .sbCommandWord .. | .sbDataWord .. | .resetKey .. | .nodeResetDelayExpiry .. =>
      [.draws, .pins, .boot, .clk, .pwr, .flt, .spares, .allocCtr, .allocs, .badGrains, .sessions, .provs, .parts,
        .cfg, .ep, .slc, .wt, .jets, .jetSched, .sec, .mboxes, .mbNext, .twin, .sb]
  | .channelTrainingDone .. | .memoryTestDone .. =>
      [.draws, .pins, .boot, .clk, .pwr, .flt, .spares, .mem, .side, .allocCtr, .allocs, .badGrains, .sessions,
        .provs, .parts, .cfg, .ep, .slc, .wt, .jets, .jetSched, .sec, .mboxes, .mbNext, .twin, .sb]

end Sys2Proof.Machine
end

