-- ==== Sys2Proof/Certificates/Slice0/Obligations.lean ====
section
/-! DEFINITION. The statements for the provers. Each says what its docstring says, for every state and operands that meet its
hypotheses; a value or a behaviour that the model chose is named there with its assumption. -/

open Sys2Proof Sys2Proof.Machine

/-- A step takes the command at the front of the queue: it is `exec` of it on the state with the queue's rest, and leaves that rest
in the queue. On an empty queue the block idles (the model's choice, assumption 29). -/
def Obligations.StepTakesFront : Prop :=
  (∀ (i : Instr) (l : List Instr) (s : State), step { s with pending := i :: l } = exec i { s with pending := l }) ∧
  (∀ s : State, s.pending = [] → step s = .next s) ∧
  (∀ (i : Instr) (l : List Instr) (s : State), ∃ t, step { s with pending := i :: l } = .next t ∧ t.pending = l)

/-- The state after reset is legal, its queue is empty, its memory lists nothing, and the boot has not begun.
The model's choices here: assumptions 5, 6. -/
def Obligations.ResetIsLegal : Prop :=
  State.reset.Inv ∧ State.reset.pending = [] ∧ State.reset.mem = [] ∧ State.reset.boot.stage = 0 ∧ State.reset.twin.state = twUnpaired

/-- Every step from a legal state answers a legal state: memory keeps its canonical form, STAGE, WT_TWIN_STAT.STATE and LEVEL stay among their
values (13 R413, R430, 10 R329), the RsvdZ fields of PWR_CFG and FLT_CTL stay zero (00 R8), HIST_NEXT stays a slot of the history
(12 R403), the mailbox turn a mailbox (14 R448). -/
def Obligations.StepKeepsInvariant : Prop := ∀ s t : State, s.Inv → step s = .next t → t.Inv

/-- Every command answers a next state, in every state, and changes no part of the state but those that `touches` names for it; the
queue is in no list, so no command changes it. -/
def Obligations.CommandFrames : Prop :=
  (∀ (i : Instr) (s : State), ∃ t, exec i s = .next t ∧ Keeps (touches i) s t) ∧ ∀ i : Instr, Region.pending ∉ touches i

/-- The transport header (08 R238) and the page descriptor (02 R54) are read back as they were written, with every field at every value
that its width admits. -/
def Obligations.HeaderAndDescriptorRoundTrip : Prop :=
  (∀ h : Hdr, decodeHdr (encodeHdr h) = h) ∧
  (∀ d : Desc, d.grain < 2 ^ 30 → d.pfmt < 16 → d.validM1 < 16 → d.hdim < 8 → d.cstate < 4 → d.baseIdx < 2 ^ 20 → d.stamp < 2 ^ 64 →
    d.tokenPos < 2 ^ 32 → descOf (descBytes d) = d)

/-- Writing grains (02 R40, R43; 12 R381, R383, R384). A grain that is written holds its bytes and passes its checks, as an ordinary
grain and as a meta grain; no byte outside it and no other grain's side words change. A write of a byte range reads back, and every byte
outside the range reads as before. -/
def Obligations.GrainWrites : Prop :=
  (∀ (s : State) (g : Nat) (m : Bool) (w : BitVec 16) (b : List Byte) (e : EccReport), b.length = 512 →
    (s.putGrain g m w b).grain g = b ∧ (eccBad e g = none → (s.putGrain g m w b).checkGrain e g m w = none) ∧
    (∀ x, x < 512 * g ∨ 512 * g + 512 ≤ x → (s.putGrain g m w b).readByte x = s.readByte x) ∧
    (∀ k, k ≠ g → (s.putGrain g m w b).sideOf k = s.sideOf k)) ∧
  (∀ (s : State) (a x : Nat) (b : List Byte),
    (s.writeGrains a b).readByte x = if a ≤ x ∧ x < a + b.length then b.getD (x - a) 0#8 else s.readByte x)

/-- The writer of a session index, of base sequences and of position tables (10 R325): of the two nodes of a pair, neither in solo mode,
the one with the lower node ID writes the even indices, the base sequences and the position tables, the other the odd indices. A node in solo
mode writes everything. -/
def Obligations.WritersOfAPair : Prop :=
  (∀ (s t : State) (x : Nat), s.twin.state ≠ twUnpaired → t.twin.state ≠ twUnpaired → s.solo = false → t.solo = false →
    s.twinNode = t.nodeId → t.twinNode = s.nodeId → s.nodeId < t.nodeId →
    (x % 2 = 0 → s.writes x = true ∧ t.writes x = false) ∧ (x % 2 = 1 → s.writes x = false ∧ t.writes x = true) ∧
    s.writesBases = true ∧ t.writesBases = false) ∧
  (∀ (s : State) (x : Nat), s.solo = true → s.writes x = true ∧ s.writesBases = true)

/-- Channels (02 R41): a jet's channel is 16 times its cistern plus its group, and channel group g consists of the channels g, 16 + g, 32 + g, up
to 112 + g. -/
def Obligations.ChannelNumbering : Prop :=
  (∀ j, jetChannel j = 16 * jetCis j + jetGroup j) ∧
  (∀ g c : Nat, g < 16 → ((∃ j < 8192, jetGroup j = g ∧ jetChannel j = c) ↔
    c ∈ [g, 16 + g, 32 + g, 48 + g, 64 + g, 80 + g, 96 + g, 112 + g]))

/-- What NODE_FULL leaves (12 R406): the Reset value everywhere, but for the fuses, the wiring of the pins, the queue of
commands, the random words drawn, cistern content (which the memory test overwrites) and the spare map in flash, which
is read back at every boot; the straps are sampled again, LAST_RESET is `last`, bring-up starts at stage 0. -/
def Claims.Full (s t : State) (last : Nat) : Prop :=
  ∃ w : Word32, t = { State.reset with
    pending := s.pending, draws := s.draws + 1, fuses := s.fuses, mem := s.mem, side := s.side
    pins := s.pins.released, spares := s.spares.rebuilt, pwr := Pwr.init s.fuses.bin
    clk := { Clk.init with up := s.clk.up }
    wt := { Wt.init with incarnation := w }
    boot := { Boot.init with lastReset := last, stageStart := s.clk.up, resetAt := s.clk.up } }

/-- NODE_FULL for each of its causes (12 R406, 13 R424, 15 R472, R473, R490): power-on and the end of a rail fault with
LAST_RESET 0, 1 ms of the reset ball or of it at the end of a thermal trip with 1, the command NODE_RESET with 2. A pulse of the reset ball shorter
than 1 ms does nothing.
The model's choices here: assumptions 82, 84, 85. -/
def Obligations.FullResetCauses : Prop :=
  (∀ (st : Straps) (s : State), s.pins.rstLow = true →
    Answers (.powerOn st) s fun t =>
      Claims.Full { s with pins := { s.pins with straps := st, railOk := 0x7F#7 } } t 0) ∧
  (∀ (n : Nat) (s : State), s.awake = true → 1000000 ≤ n → Answers (.resetBall n) s fun t => Claims.Full s t 1) ∧
  (∀ (n : Nat) (s : State), n < 1000000 → exec (.resetBall n) s = .next { s with out := [] }) ∧
  (∀ (n : Nat) (s : State), s.pins.rstLow = false → s.pins.railHold = true → s.pins.tripped = false → 1000000 ≤ n →
    Answers (.railsRecovered n) s fun t => Claims.Full { s with pins := { s.pins with railOk := 0x7F#7 } } t 0) ∧
  (∀ (n c : Nat) (s : State), s.pins.tripped = true → s.pins.railHold = false → 1000000 ≤ n → c < 95 →
    Answers (.thermalTripRelease n c) s fun t => Claims.Full s t 1) ∧
  (∀ (now at' : Nat) (s : State), s.awake = true → s.boot.resetDue = some (.full, at') → at' ≤ (s.upTo now).clk.up →
    Answers (.nodeResetDelayExpiry now) s fun t => Claims.Full (s.upTo now) t 2)

/-- What NODE_RETAIN keeps (12 R406, 13 R425, R494): cistern bytes and side bytes, the sessions that describe them, the
allocation counters, the configuration images, SEC_LOCK, the history and FLT_FIRST, LAST_APPLIED; keys, requests, flows, jets
and mailboxes are as NODE_FULL leaves them. -/
def Claims.Retained (s t : State) (last : Nat) : Prop :=
  t.mem = s.mem ∧ t.side = s.side ∧ t.allocCtr = s.allocCtr ∧ t.ep.images = s.ep.images ∧ t.cfg.lock = s.cfg.lock ∧
  t.flt.hist = s.flt.hist ∧ t.flt.first = s.flt.first ∧ t.twin.lastApplied = s.twin.lastApplied ∧
  t.fuses = s.fuses ∧ t.pending = s.pending ∧ t.clk = { Clk.init with up := s.clk.up } ∧
  (∀ x, (t.session? x).map (fun v => (v.skey, v.part, v.state, v.stamp)) =
    (s.session? x).map fun v => (v.skey, v.part, v.state, v.stamp)) ∧
  t.sec.keys = [] ∧ t.slc = Sluice.init ∧ t.jets = [] ∧ t.mboxes = [] ∧ t.ep.pend = none ∧ t.wt.tx = [] ∧ t.wt.rx = [] ∧
  t.boot.lastReset = last ∧ t.boot.scope = .retain ∧ t.boot.retained = true ∧ t.boot.selfRefresh = true ∧
  t.pins = s.pins.released

/-- NODE_RETAIN of a state whose history has just taken a FATAL record with a code. -/
def Claims.RetainedAfter (code : Nat) (s t : State) : Prop :=
  ∃ (f : Flt) (n : Nat) (r : FltRec), f.newest = some n ∧ Tbl.get? f.hist n = some r ∧ r.code = code ∧
    Claims.Retained { s with flt := f } t 4

/-- HELD: silent, with LAST_RESET 4, FATAL_RST set and cistern bytes as they were. -/
def Claims.Held (s t : State) : Prop :=
  t.boot.stage = 6 ∧ t.boot.pcieUp = true ∧ t.pins.squelched = true ∧ t.boot.lastReset = 4 ∧ t.flt.fatalReset = true ∧
  t.faultN = true ∧ t.mem = s.mem ∧ t.side = s.side ∧ t.fuses = s.fuses ∧ t.pending = s.pending ∧ t.sec.keys = [] ∧ t.slc = Sluice.init

/-- NODE_RETAIN for RESET_KEY (15 R486), the command NODE_RESET (13 R424) and the FATAL path (12 R394, R401): a watchdog
expiry records 0x23, a FATAL fault its own code, and after both LAST_RESET reads 4.
The model's choices here: assumptions 85, 86, 88. -/
def Obligations.RetainResetCauses : Prop :=
  (∀ (s : State), s.awake = true → s.sbOn = true →
    Answers (.resetKey 0x0000A5C3#32) s fun t => Claims.Retained s t 3 ∧ t.boot.stage = 0) ∧
  (∀ (v : BitVec 32) (s : State), v ≠ 0x0000A5C3#32 → exec (.resetKey v) s = .next { s with out := [] }) ∧
  (∀ (now at' : Nat) (s : State), s.awake = true → s.boot.resetDue = some (.retain, at') → at' ≤ (s.upTo now).clk.up →
    Answers (.nodeResetDelayExpiry now) s fun t => Claims.Retained (s.upTo now) t 3 ∧ t.boot.stage = 0) ∧
  (∀ (now : Nat) (s : State), s.awake = true → (s.upTo now).fatal1h < 2 →
    Answers (.watchdogExpiry now) s fun t => t.boot.stage = 0 ∧ Claims.RetainedAfter 0x23 (s.upTo now) t) ∧
  (∀ (c : FatalCode) (i now : Nat) (s : State), s.awake = true → (s.upTo now).fatal1h < 2 →
    Answers (.fatalEvent c i now) s fun t => t.boot.stage = 0 ∧ Claims.RetainedAfter (fatalCode c).1 (s.upTo now) t)

/-- The third FATAL event within an hour (12 R394): the node is HELD with its transmitters squelched, PCIe up for the owner
mailbox, its cisterns' bytes kept, LAST_RESET 4 and FATAL_RST set (12 R403).
The model's choices here: assumptions 83, 86. -/
def Obligations.ThirdFatalHeld : Prop :=
  ∀ (s : State) (now : Nat), s.awake = true → 2 ≤ (s.upTo now).fatal1h →
    (∀ (c : FatalCode) (i : Nat), Answers (.fatalEvent c i now) s (Claims.Held s)) ∧
    Answers (.watchdogExpiry now) s (Claims.Held s)

/-- A rail out of range (15 R472, R486): RAIL_OK falls, RAIL_WARN is set; past 10 µs the transmitters are squelched, FAULT_N
is low and the node holds itself in reset. Nothing else changes. A thermal trip (15 R490): 112 °C or more for 100 µs
squelches the transmitters, puts the cisterns in self-refresh, drives FAULT_N and THERM_ALERT_N low. A hot DRAM die (15
R489): above 85 °C its channel is among those refreshed at the doubled rate, else not; no other channel is concerned. -/
def Obligations.RailAndThermalEvents : Prop :=
  (∀ (rail ns : Nat) (s : State), s.pins.rstLow = false → rail < 7 →
    Answers (.railOutOfRange rail ns) s fun t =>
      t.pins.railOk = s.pins.railOk &&& ~~~(BitVec.ofNat 7 (2 ^ rail)) ∧ t.sb.irq = s.sb.irq ||| 2#3 ∧
      t.pins.railHold = (s.pins.railHold || decide (10000 < ns)) ∧
      t.pins.squelched = (s.pins.squelched || decide (10000 < ns)) ∧ (10000 < ns → t.faultN = true) ∧
      t = { s with out := [], sb := { s.sb with irq := t.sb.irq }, pins := { s.pins with
            railOk := t.pins.railOk, railHold := t.pins.railHold, squelched := t.pins.squelched } }) ∧
  (∀ (c ns : Nat) (s : State), s.awake = true → 112 ≤ c → 100000 ≤ ns →
    Answers (.thermalTrip c ns) s fun t =>
      t = { s with
        out := [], boot := { s.boot with selfRefresh := true }
        pins := { s.pins with tripped := true, squelched := true, ppsRise := none } } ∧
      t.faultN = true ∧ t.thermAlert = true ∧ t.awake = false) ∧
  (∀ (ch c : Nat) (s : State), s.awake = true → ch < 128 →
    Answers (.dramHot ch c) s fun t =>
      (ch ∈ t.pins.hotDies ↔ 85 < c) ∧ (∀ x, x ≠ ch → (x ∈ t.pins.hotDies ↔ x ∈ s.pins.hotDies)) ∧
      t = { s with out := [], pins := { s.pins with hotDies := t.pins.hotDies } })

/-- The reference clocks (15 R475, 13 R416, R420): one absent at step 2 of bring-up leaves the node FAILED with cause 2; the
PCIe clock absent in service takes the PCIe link down, its return brings it back; a SerDes clock's return lets each port of
its half that is down train again. A configuration request draws Request Retry Status until step 2 has ended and is served
when the link is up.
The model's choices here: assumptions 94, 122. -/
def Obligations.ReferenceClocks : Prop :=
  (∀ (c : RefClk) (s : State), s.awake = true → s.boot.stage = 1 →
    Answers (.clockAbsent c) s fun t => t.boot.stage = 7 ∧ t.boot.failCause = 2 ∧ t.pins.squelched = true ∧
      t.pins.clocksOk = false ∧ t.mem = s.mem) ∧
  (∀ (s : State), s.awake = true → s.boot.stage = 5 →
    Answers (.clockAbsent .pe) s fun t => t.boot.pcieUp = false ∧ t.pins.clkPe = false) ∧
  (∀ (s : State), s.awake = true → 2 ≤ s.boot.stage → s.boot.stage ≤ 5 →
    Answers (.clockReturn .pe) s fun t =>
      t = { s with out := [], pins := { s.pins with clkPe := true }, boot := { s.boot with pcieUp := true } }) ∧
  (∀ (s : State), s.awake = true →
    Answers (.clockReturn .sd1) s fun t => t.pins.clkSd1 = true ∧ t.boot.pcieUp = s.boot.pcieUp ∧
      ∀ p, p ∈ t.boot.portsTried ↔ p ∈ s.boot.portsTried ∧ ¬ (12 ≤ p ∧ p < 24 ∧ (s.port p).up = false)) ∧
  (∀ (f : Fn) (s : State), s.awake = true → s.boot.pcieUp = false → s.boot.stage < 2 →
    exec (.pcieConfigRequest f) s = .next { s with out := [.retryStatus] }) ∧
  (∀ (f : Fn) (s : State), s.awake = true → s.boot.pcieUp = true →
    exec (.pcieConfigRequest f) s = .next { s with out := [.configDone] })

/-- Command `i` answers the next state that `f` makes of `s`, with nothing sent before and the queue as it was. -/
def Claims.Does (i : Instr) (s : State) (f : State → State) : Prop :=
  exec i s = .next { f { s with out := [] } with pending := s.pending }

/-- A management command comes to its turn on a path that is served, and passes the checks of 14 R453. -/
def Claims.Accepted (o : AgtanOp) (c : AgtanCmd) (s : State) : Prop := s.mailServed c = true ∧ s.agtanStatus o c = stOk

/-- Where a response goes (14 R449, R450, R451): over BAR0 into the mailbox's response area, with RESULT, SEQ_DONE and STATE DONE
in MB_STATUS and an MSI-X signal where the doorbell asked for one; over SPDM and MCTP as a message; over Woarnys transport
as a class 0 WRITE_IMM to the source. Shown on TWIN_STATUS, accepted; nothing but the response changes. -/
def Obligations.ResponsePaths : Prop :=
  (∀ (c : AgtanCmd) (s : State) (f : Fn) (v : BitVec 12), Claims.Accepted opTwinStatus c s → c.path = .bar0 f v false →
    Answers (.twinStatus c) s fun t =>
      t = { s with out := [], mboxes := t.mboxes } ∧ (∀ m, m ≠ c.mb → t.mbox m = s.mbox m) ∧
      t.mbox c.mb = { s.mbox c.mb with
        state := 2, seqDone := c.seq, result := 0#8
        resp := Memory.cells 0 (padTo 2048 (s.respBytes 0x0033#16 c.seq 0 (leBytes 16 s.twinStat))) }) ∧
  (∀ (c : AgtanCmd) (s : State) (f : Fn) (v : BitVec 12), Claims.Accepted opTwinStatus c s → c.path = .bar0 f v true →
    Answers (.twinStatus c) s fun t => (t.mbox c.mb).state = 2 ∧ (t.mbox c.mb).seqDone = c.seq ∧ t.out = [.msix f v.toNat]) ∧
  (∀ (c : AgtanCmd) (s : State) (e : SpdmEp) (n : BitVec 32), Claims.Accepted opTwinStatus c s → c.path = .spdm e n →
    Answers (.twinStatus c) s fun t =>
      t.out = [.spdm e "VENDOR_DEFINED_RESPONSE" (s.respBytes 0x0033#16 c.seq 0 (leBytes 16 s.twinStat)) 0#768] ∧
      t.mboxes = s.mboxes) ∧
  (∀ (c : AgtanCmd) (s : State), Claims.Accepted opNodeStatus c s → c.path = .mctp →
    Answers (.nodeStatus c) s fun t => ∃ b, t.out = [.mctp b] ∧ (t.mbox c.mb).mctpSeq = some (c.seq, b)) ∧
  (∀ (c : AgtanCmd) (s : State) (src : BitVec 13) (k : BitVec 10) (w : BitVec 20) (imm : BitVec 32),
    Claims.Accepted opTwinStatus c s → c.path = .wt src k w imm →
    Claims.Does (.twinStatus c) s fun t =>
      let b := t.respBytes 0x0033#16 c.seq 0 (leBytes 16 t.twinStat)
      (t.updMbox c.mb fun m => { m with kept := keepResp m.kept src.toNat c.seq b }).sendResp src k w imm b)

/-- The checks of 14 R453, in their order, for every opcode's facts: a command that fails one is answered with KEY_INVALID,
PARTITION_FENCED or FORMAT, the first that applies, with an empty body, and has no effect of its own. Shown on the opcodes
that act at once, without a word of their own: CFG_ABORT, KEY_SWITCH, QUEUE_STOP and LOCK_STAGE.
The model's choices here: assumptions 27. -/
def Obligations.RefusalsInOrder : Prop :=
  (∀ (o : AgtanOp) (c : AgtanCmd) (s : State),
    s.agtanStatus o c = stOk ∨ s.agtanStatus o c = stKey ∨ s.agtanStatus o c = stFenced ∨ s.agtanStatus o c = stFormat) ∧
  (∀ (o : AgtanOp) (c : AgtanCmd) (s : State) (p : Nat), o.target c = some p → o.mutual_ = true →
    mapTenantKey (s.pmap p) ≠ 0#384 → s.inMutual c p = false → s.agtanStatus o c = stKey) ∧
  (∀ (c : AgtanCmd) (s : State), s.mailServed c = true → s.agtanStatus opCfgAbort c ≠ stOk →
    Claims.Does (.cfgAbort c) s fun t => t.respond 0x0011#16 c (s.agtanStatus opCfgAbort c) []) ∧
  (∀ (c : AgtanCmd) (s : State), s.mailServed c = true → s.agtanStatus opKeySwitch c ≠ stOk →
    Claims.Does (.keySwitch c) s fun t => t.respond 0x0071#16 c (s.agtanStatus opKeySwitch c) []) ∧
  (∀ (c : AgtanCmd) (s : State), s.mailServed c = true → s.agtanStatus opQueueStop c ≠ stOk →
    Claims.Does (.queueStop c) s fun t => t.respond 0x0061#16 c (s.agtanStatus opQueueStop c) []) ∧
  (∀ (c : AgtanCmd) (s : State), s.mailServed c = true → s.agtanStatus opLockStage c ≠ stOk →
    Claims.Does (.lockStage c) s fun t => t.respond 0x0023#16 c (s.agtanStatus opLockStage c) [])

/-- The commands that read the node (14 R456): their response is OK with the body that the opcode names, and nothing else
changes. The body layouts that R456 leaves to the reader are the model's (assumption 20). -/
def Obligations.NodeReads : Prop :=
  (∀ (c : AgtanCmd) (s : State), Claims.Accepted opNodeStatus c s →
    Claims.Does (.nodeStatus c) s fun t => t.respond 0x0001#16 c stOk
      (leBytes 8 t.bootStat ++ leBytes 8 t.ep.epoch ++ leBytes 8 t.pendTime ++ leBytes 8 t.epochStat ++
        leBytes 8 t.pwrStat ++ leBytes 16 t.twinStat)) ∧
  (∀ (c : AgtanCmd) (s : State), Claims.Accepted opCfgStatus c s →
    Claims.Does (.cfgStatus c) s fun t => t.respond 0x0012#16 c stOk
      (leBytes 8 t.ep.epoch ++ leBytes 8 t.pendTime ++ leBytes 8 t.epochStat ++
        leBytes 8 (if (t.stageSet c.mb).isSealed then 1 else 0))) ∧
  (∀ (c : AgtanCmd) (s : State), Claims.Accepted opTwinStatus c s →
    Claims.Does (.twinStatus c) s fun t => t.respond 0x0033#16 c stOk (leBytes 16 t.twinStat)) ∧
  (∀ (c : AgtanCmd) (s : State), Claims.Accepted opDirRead c s → bit (leNat c.body) 32 = false →
    Claims.Does (.dirRead c) s fun t => t.respond 0x0034#16 c stOk
      (leBytes 8 t.cfg.dir.epoch ++
        ((t.cfg.dir.members.drop (leAt c.body 0 4)).take 126).flatMap fun m => leBytes 8 m.toNat)) ∧
  (∀ (c : AgtanCmd) (s : State), Claims.Accepted opDirRead c s → bit (leNat c.body) 32 = true →
    Claims.Does (.dirRead c) s fun t => t.respond 0x0034#16 c stOk
      (leBytes 8 t.cfg.dir.epoch ++ ((t.cfg.dir.reserved.drop (leAt c.body 0 4)).take 63).flatMap fun r =>
        leBytes 8 r.1.toNat ++ leBytes 8 r.2)) ∧
  (∀ (c : AgtanCmd) (s : State), Claims.Accepted opWindowRead c s → leAt c.body 0 4 < 65536 →
    s.ownerOfWindow (leAt c.body 0 4) = some (cmdPart c) →
    Claims.Does (.windowRead c) s fun t => t.respond 0x0041#16 c stOk (leBytes 32 (t.window (leAt c.body 0 4)).toNat)) ∧
  (∀ (c : AgtanCmd) (s : State), Claims.Accepted opQueueRead c s → s.ownerOfQueue (leNat c.body) = some (cmdPart c) →
    Claims.Does (.queueRead c) s fun t => t.respond 0x0062#16 c stOk (leBytes 32 (t.queue (leNat c.body)).ctx.toNat)) ∧
  (∀ (c : AgtanCmd) (s : State), Claims.Accepted opPartStatus c s →
    Claims.Does (.partStatus c) s fun t => t.respond 0x0022#16 c stOk
      (((List.range 16).map Resource.channelGroup ++ (List.range 16).map Resource.slice ++
        (List.range 16).map Resource.cluster ++ (List.range 16).map Resource.windowBlock ++
        (List.range 256).map Resource.sessionBlock ++ (List.range 1024).map Resource.keySlot).map t.resourceByte))

/-- Command `i` stages the changes `l` in its mailbox's set (13 R431, 14 R456): on an OPEN set each replaces what the set held for
the same setting, and the response is OK; a SEALED set stays as it is, the write counts in FLT_LOCK_VIOL (00 R6), and the
response is EPOCH_BUSY. Nothing else changes. -/
def Claims.Stages (i : Instr) (c : AgtanCmd) (s : State) (op : BitVec 16) (l : List Staged) : Prop :=
  ((s.stageSet c.mb).isSealed = false →
    Claims.Does i s fun t => (t.setStageSet c.mb
      { isSealed := false, items := ((t.stageSet c.mb).items.filter fun a => !l.any fun b => a.sameAs b) ++ l }).respond
        op c stOk []) ∧
  ((s.stageSet c.mb).isSealed = true → Claims.Does i s fun t => (t.count 4 1).respond op c stBusy [])

/-- The owner's staging commands of the node (14 R456, R461): partition map, partition settings, lock, node and twin settings,
routes. Each stages what its body says when its own checks hold.
The model's choices here: assumptions 32, 124. -/
def Obligations.OwnerStaging : Prop :=
  (∀ (c : AgtanCmd) (s : State), Claims.Accepted opPartMapStage c s →
    mapRsvdOk (BitVec.ofNat 1024 (leNat c.body)) = true → mapEntryOk (BitVec.ofNat 1024 (leNat c.body)) = true →
    Claims.Stages (.partMapStage c) c s 0x0020#16 [.map (cmdPart c) (BitVec.ofNat 1024 (leNat c.body))]) ∧
  (∀ (c : AgtanCmd) (s : State), Claims.Accepted opPartCfgStage c s → tierOk (leAt c.body 0 8) = true →
    slcOk (leAt c.body 8 8) ((s.stagedView c.mb).mapOf (cmdPart c)) = true →
    1 ≤ leAt c.body 16 2 → leAt c.body 16 2 ≤ 4096 → 1 ≤ leAt c.body 18 1 → leAt c.body 18 1 ≤ 16 →
    Claims.Stages (.partCfgStage c) c s 0x0021#16
      [.pcfg (cmdPart c) (BitVec.ofNat 64 (leAt c.body 0 8)) (BitVec.ofNat 64 (leAt c.body 8 8)) (leAt c.body 16 2)
        (leAt c.body 18 1)]) ∧
  (∀ (c : AgtanCmd) (s : State), Claims.Accepted opLockStage c s →
    Claims.Stages (.lockStage c) c s 0x0023#16 [.lock (BitVec.ofNat 64 (leNat c.body))]) ∧
  (∀ (c : AgtanCmd) (s : State), Claims.Accepted opNodeCfgStage c s → pcpsOk (leAt c.body 0 8) = true →
    Claims.Stages (.nodeCfgStage c) c s 0x0030#16
      [.nodeCfg (BitVec.ofNat 64 (leAt c.body 0 8)) (BitVec.ofNat 64 (leAt c.body 8 8))]) ∧
  (∀ (c : AgtanCmd) (s : State), Claims.Accepted opTwinCfgStage c s →
    twinCfgOk (BitVec.ofNat 64 (leNat c.body)) (fld (s.stagedView c.mb).nodeCfg 0 13) = true →
    Claims.Stages (.twinCfgStage c) c s 0x0031#16 [.twinCfg (BitVec.ofNat 64 (leNat c.body))]) ∧
  (∀ (c : AgtanCmd) (s : State), Claims.Accepted opRouteStage c s →
    Claims.Stages (.routeStage c) c s 0x0032#16 ((pieces 8 c.body).map fun r =>
      .route (field (leNat r) 0 13) (BitVec.ofNat 24 (field (leNat r) 16 24))))

/-- The other staging commands (14 R456, R458, R461; 09 R297, R298): admission weights and port weights, none of them 0; a
window that its checks allow; one half of a source set of the partition; a part of a weir list in its ranges; a shaper of a
queue group or a port class with a nonzero burst.
The model's choices here: assumptions 32. -/
def Obligations.TransportStaging : Prop :=
  (∀ (c : AgtanCmd) (s : State), Claims.Accepted opAdmitWeightsStage c s →
    (∀ k, k < 8 → field (leNat c.body) (8 * k) 8 ≠ 0) →
    Claims.Stages (.admitWeightsStage c) c s 0x0024#16 [.admitW (cmdPart c) (BitVec.ofNat 64 (leNat c.body))]) ∧
  (∀ (c : AgtanCmd) (s : State), Claims.Accepted opWindowStage c s →
    s.windowOk (s.stagedView c.mb) (cmdPart c) (leAt c.body 0 4) (BitVec.ofNat 256 (leNat (c.body.drop 8))) = true →
    Claims.Stages (.windowStage c) c s 0x0040#16
      [.window (leAt c.body 0 4) (BitVec.ofNat 256 (leNat (c.body.drop 8)))]) ∧
  (∀ (c : AgtanCmd) (s : State), Claims.Accepted opSrcsetStage c s → leAt c.body 0 1 / 16 = cmdPart c →
    Claims.Stages (.srcsetStage c) c s 0x0043#16
      [.srcHalf (leAt c.body 0 1) (leAt c.body 1 1) (BitVec.ofNat 4096 (leNat (c.body.drop 8)))]) ∧
  (∀ (c : AgtanCmd) (s : State), Claims.Accepted opWeirStage c s → weirPartOk c.body = true →
    Claims.Stages (.weirStage c) c s 0x0050#16
      [.weir (leAt c.body 0 1) (leAt c.body 1 1) (weirPartHdr c.body) (weirPartEntries c.body)]) ∧
  (∀ (c : AgtanCmd) (s : State) (k : Nat), Claims.Accepted opShaperStage c s → shaperIndex (leAt c.body 0 4) = some k →
    field (leAt c.body 8 8) 24 16 ≠ 0 →
    Claims.Stages (.shaperStage c) c s 0x0051#16 [.shaper k (BitVec.ofNat 64 (leAt c.body 8 8))]) ∧
  (∀ (c : AgtanCmd) (s : State), Claims.Accepted opPortWeightsStage c s → leAt c.body 0 8 < 24 →
    (∀ k, k < 8 → field (leAt c.body 8 8) (8 * k) 8 ≠ 0) →
    Claims.Stages (.portWeightsStage c) c s 0x0052#16 [.portW (leAt c.body 0 8) (BitVec.ofNat 64 (leAt c.body 8 8))])

/-- CFG_COMMIT in service (13 R431, R432): with changes in an OPEN set, the right base epoch, settings in order, a commit time
between 100 µs and 60 s ahead and one live epoch, the set is SEALED and becomes the pending epoch; nearer than 100 µs the
answer is PAST_TIME, and with another epoch pending or draining it is EPOCH_BUSY. CFG_ABORT withdraws the pending epoch of the mailbox's own set 10 µs
or more before its time and reopens the set (R438). CFG_DISCARD empties an OPEN set and refuses a SEALED one (14 R456).
The model's choices here: assumptions 32, 115. -/
def Obligations.CommitCommands : Prop :=
  (∀ (c : AgtanCmd) (s : State), Claims.Accepted opCfgCommit c s → s.boot.stage = 5 →
    (s.stageSet c.mb).items ≠ [] → (s.stageSet c.mb).isSealed = false →
    leAt c.body 8 8 = 0 ∨ leAt c.body 8 8 = s.ep.epoch →
    s.commitOkItems s.commitBase (s.stageSet c.mb).items (some (leAt c.body 0 8)) = true →
    leAt c.body 0 8 ≤ s.clk.ftime + 60000000000 → s.clk.ftime + 100000 ≤ leAt c.body 0 8 → s.liveEpochs < 2 →
    Claims.Does (.cfgCommit c) s fun t =>
      let p : Pend := { what := .set c.mb, time := leAt c.body 0 8,
                        weirAt := takeOvers (t.stageSet c.mb).items (leAt c.body 0 8) }
      let u := t.setStageSet c.mb { isSealed := true, items := (t.stageSet c.mb).items }
      ({ u with ep := { u.ep with pend := some p } }).respond 0x0010#16 c stOk
        (commitBody (s.ep.epoch + 1) p.time p.weirAt)) ∧
  (∀ (c : AgtanCmd) (s : State), Claims.Accepted opCfgCommit c s → s.boot.stage = 5 →
    (s.stageSet c.mb).items ≠ [] → (s.stageSet c.mb).isSealed = false → leAt c.body 8 8 = 0 →
    s.commitOkItems s.commitBase (s.stageSet c.mb).items (some (leAt c.body 0 8)) = true →
    leAt c.body 0 8 < s.clk.ftime + 100000 →
    Claims.Does (.cfgCommit c) s fun t => t.respond 0x0010#16 c stPast []) ∧
  (∀ (c : AgtanCmd) (s : State), Claims.Accepted opCfgCommit c s → s.boot.stage = 5 →
    (s.stageSet c.mb).items ≠ [] → (s.stageSet c.mb).isSealed = false → leAt c.body 8 8 = 0 →
    s.commitOkItems s.commitBase (s.stageSet c.mb).items (some (leAt c.body 0 8)) = true →
    leAt c.body 0 8 ≤ s.clk.ftime + 60000000000 → s.clk.ftime + 100000 ≤ leAt c.body 0 8 → 2 ≤ s.liveEpochs →
    Claims.Does (.cfgCommit c) s fun t => t.respond 0x0010#16 c stBusy []) ∧
  (∀ (c : AgtanCmd) (s : State) (p : Pend), Claims.Accepted opCfgAbort c s → s.ep.pend = some p →
    p.what = .set c.mb → s.clk.ftime + 10000 ≤ p.time →
    Claims.Does (.cfgAbort c) s fun t =>
      (({ t with ep := { t.ep with pend := none } }).setStageSet c.mb
        { isSealed := false, items := (t.stageSet c.mb).items }).respond 0x0011#16 c stOk []) ∧
  (∀ (c : AgtanCmd) (s : State), Claims.Accepted opCfgDiscard c s → (s.stageSet c.mb).isSealed = false →
    Claims.Does (.cfgDiscard c) s fun t =>
      (t.setStageSet c.mb { isSealed := false, items := [] }).respond 0x0013#16 c stOk []) ∧
  (∀ (c : AgtanCmd) (s : State), Claims.Accepted opCfgDiscard c s → (s.stageSet c.mb).isSealed = true →
    Claims.Does (.cfgDiscard c) s fun t => t.respond 0x0013#16 c stFormat [])

/-- At its commit time the pending epoch takes effect (13 R425, R433, R436): a staging set's changes are in the settings, windows
whose settings change get a higher GEN, the set is OPEN and empty again; a directory change is in the directory; both
copies of the configuration image hold the new settings and epoch. A set that would take away a key slot whose key is installed by then
(11 R380) is withdrawn instead, and OPEN again.
The model's choices here: assumptions 32, 48, 154. -/
def Obligations.CommitTakesEffect : Prop :=
  (∀ (now n : Nat) (s : State) (p : Pend), s.serving = true → s.ep.pend = some p → p.what = .set n →
    p.time ≤ (s.upTo now).clk.ftime → s.takesKeys (s.cfg.withItems (s.stageSet n).items) = true →
    Claims.Does (.epochCommitTime now) s fun t =>
      ({ t.upTo now with ep := { t.ep with pend := none } }).setStageSet n
        { isSealed := false, items := (t.stageSet n).items }) ∧
  (∀ (now n : Nat) (s : State) (p : Pend), s.serving = true → s.ep.pend = some p → p.what = .set n →
    p.time ≤ (s.upTo now).clk.ftime → s.takesKeys (s.cfg.withItems (s.stageSet n).items) = false →
    Answers (.epochCommitTime now) s fun t =>
      t.cfg = { s.cfg.withItems (s.stageSet n).items with
        windows := raisedWindows s.cfg.windows (s.cfg.withItems (s.stageSet n).items).windows (s.upTo now).clk.ftime } ∧
      t.stageSet n = { isSealed := false, items := [] } ∧ t.ep.epoch = s.ep.epoch + 1 ∧ t.ep.pend = none ∧
      t.ep.images = [(0, { settings := t.cfg, epoch := t.ep.epoch, digestOk := true }),
        (1, { settings := t.cfg, epoch := t.ep.epoch, digestOk := true })]) ∧
  (∀ (now : Nat) (s : State) (p : Pend) (d : DirChange), s.serving = true → s.ep.pend = some p → p.what = .dir d →
    p.time ≤ (s.upTo now).clk.ftime →
    Answers (.epochCommitTime now) s fun t =>
      t.ep.epoch = s.ep.epoch + 1 ∧ t.ep.pend = none ∧ t.ep.draining = true ∧
      t.cfg = { s.cfg with dir := s.cfg.dir.apply d } ∧
      t = { s.upTo now with out := [], cfg := t.cfg, ep := { s.ep with
        epoch := s.ep.epoch + 1, pend := none, draining := true
        images := [(0, { settings := t.cfg, epoch := s.ep.epoch + 1, digestOk := true }),
          (1, { settings := t.cfg, epoch := s.ep.epoch + 1, digestOk := true })] } })

/-- When the last request of the older epoch has ended, that epoch is live no more and what it released is SCRUBBING (13 R433,
R436). A scrub that is done leaves the resource FREE: a channel group whose jets hold no command reads zero throughout, nothing is
allocated in it, and no other byte has changed (11 R353).
The model's choices here: assumptions 61, 152. -/
def Obligations.DrainAndScrub : Prop :=
  (∀ (now : Nat) (s : State), s.awake = true → s.ep.draining = true → (s.upTo now).drainReqs = 0 →
    Answers (.epochDrainEnd now) s fun t =>
      t.ep = { s.ep with draining := false, releasing := [] } ∧
      t.sec.scrubbing = s.sec.scrubbing ++ s.ep.releasing.map Prod.fst ∧ t.mem = s.mem ∧ t.cfg = s.cfg) ∧
  (∀ (r : Resource) (s : State), s.awake = true → r ∈ s.sec.scrubbing →
    Answers (.resourceScrubDone r) s fun t => ∀ x, x ∈ t.sec.scrubbing ↔ x ∈ s.sec.scrubbing ∧ x ≠ r) ∧
  (∀ (g : Nat) (s : State), s.awake = true → .channelGroup g ∈ s.sec.scrubbing →
    (∀ c ∈ s.slc.cmds, jetGroup c.2.jet ≠ g) → (∀ j, jetGroup j = g → Tbl.getD s.slc.waitCmds j [] = []) →
    Answers (.resourceScrubDone (.channelGroup g)) s fun t =>
      (∀ a, t.readByte a = if grainGroup (a / 512) = g then 0#8 else s.readByte a) ∧
      ∀ x ∈ t.allocs, grainGroup x.first ≠ g)

/-- Steps 1 to 3 of bring-up (13 R412, R414, R417 to R419; 15 R475): the boot ROM runs image A, else image B, else the node is
FAILED with cause 1; with every reference clock in range PCIe is up and step 3 begins, else the node is FAILED with cause 2; a
channel that trains, or is tested, is done with the step; a channel that fails often enough is lost; a tested channel's grains
read zero.
The model's choices here: assumptions 18, 87. -/
def Obligations.BootSteps : Prop :=
  (∀ (a b : ImageCheck) (now : Nat) (s : State), s.awake = true → s.boot.stage = 0 → s.imageOk a = true →
    Claims.Does (.firmwareVerify a b now) s fun t =>
      ({ t.upTo now with boot := { t.boot with fwImage := false, fwDigest := a.digest } }).toStage 1) ∧
  (∀ (a b : ImageCheck) (now : Nat) (s : State), s.awake = true → s.boot.stage = 0 → s.imageOk a = false →
    s.imageOk b = true →
    Claims.Does (.firmwareVerify a b now) s fun t =>
      ({ t.upTo now with boot := { t.boot with fwImage := true, fwDigest := b.digest } }).toStage 1) ∧
  (∀ (a b : ImageCheck) (now : Nat) (s : State), s.awake = true → s.boot.stage = 0 → s.imageOk a = false →
    s.imageOk b = false →
    Answers (.firmwareVerify a b now) s fun t => t.boot.stage = 7 ∧ t.boot.failCause = 1 ∧ t.faultN = true) ∧
  (∀ (now : Nat) (s : State), s.awake = true → s.boot.stage = 1 →
    (s.pins.clkPe && s.pins.clkSd0 && s.pins.clkSd1 && s.pins.clkSys) = true →
    Answers (.clocksLocked now) s fun t => t.boot.stage = 2 ∧ t.boot.pcieUp = true ∧ t.boot.stageStart = t.clk.up) ∧
  (∀ (now : Nat) (s : State), s.awake = true → s.boot.stage = 1 →
    (s.pins.clkPe && s.pins.clkSd0 && s.pins.clkSd1 && s.pins.clkSys) = false →
    Answers (.clocksLocked now) s fun t => t.boot.stage = 7 ∧ t.boot.failCause = 2) ∧
  (∀ (ch : Nat) (s : State) (k : Nat), s.awake = true → s.boot.stage = 2 → ch < 128 → ch ∉ s.boot.chTrained →
    ch ∉ s.spares.lost → k < 128 → k ≠ ch → s.channelDone k = false →
    Claims.Does (.channelTrainingDone ch true) s fun t =>
      { t with boot := { t.boot with chTrained := t.boot.chTrained ++ [ch] } }) ∧
  (∀ (ch : Nat) (s : State), s.awake = true → s.boot.stage = 2 → ch < 128 → ch ∉ s.boot.chTrained → ch ∉ s.spares.lost →
    Tbl.getD s.boot.chFails ch 0 + 1 < s.boot.scope.lossAt →
    Claims.Does (.channelTrainingDone ch false) s fun t =>
      { t with boot := { t.boot with chFails := Tbl.set t.boot.chFails ch (Tbl.getD t.boot.chFails ch 0 + 1) } }) ∧
  (∀ (ch : Nat) (s : State) (k : Nat), s.awake = true → s.boot.stage = 2 → ch < 128 → ch ∉ s.boot.chTrained →
    ch ∉ s.spares.lost → s.boot.scope.lossAt ≤ Tbl.getD s.boot.chFails ch 0 + 1 → k < 128 → k ≠ ch →
    s.channelDone k = false →
    Claims.Does (.channelTrainingDone ch false) s fun t =>
      ({ t with boot := { t.boot with
        chFails := Tbl.set t.boot.chFails ch (Tbl.getD t.boot.chFails ch 0 + 1) } }).loseChannel ch) ∧
  (∀ (ch : Nat) (s : State), s.awake = true → s.boot.stage = 2 → s.boot.scope = .full → ch < 128 →
    ch ∉ s.boot.chTested → ch ∉ s.spares.lost → ch ∉ s.boot.chTrained →
    Answers (.channelTrainingDone ch true) s fun t => t.boot.stage = 2 ∧ t.channelDone ch = false) ∧
  (∀ (ch : Nat) (bad : List BadRow) (s : State), s.awake = true → s.boot.stage = 2 → s.boot.scope = .full →
    ch ∈ s.boot.chTrained → ch ∉ s.boot.chTested →
    Claims.Does (.memoryTestDone ch bad) s fun t =>
      let u := (t.zeroChannel ch).each (List.range 64) fun u pair => u.spareBadRows ch bad pair
      ({ u with boot := { u.boot with chTested := u.boot.chTested ++ [ch] } }).endStep3) ∧
  (∀ (ch : Nat) (s : State), s.awake = true → s.boot.stage = 2 → s.boot.scope = .full →
    ch ∈ s.boot.chTrained → ch ∉ s.boot.chTested → (∀ k < 128, k ≠ ch → s.channelDone k = true) →
    Answers (.memoryTestDone ch []) s fun t =>
      t.boot.stage = 3 ∧ t.boot.selfRefresh = false ∧ ch ∈ t.boot.chTested ∧
      ∀ a, t.readByte a = if grainChannel (a / 512) = ch then 0#8 else s.readByte a)

/-- Steps 4 and 5 (13 R415, R420, R421; 01 R23; 10 R349): a port whose peer sends this board's identity, wired as R349 says, comes up
direct at the lower of both ends' rates on 8 lanes, another at 8 × 224 Gb/s; a port may stay down and train again later; the
stage ends when all ports have trained, or at its bound of 500 ms. Step 5 loads every jet and isolates those that failed.
Another stage past its bound restarts bring-up once with LAST_RESET 5, then leaves the node FAILED with cause 3.
The model's choices here: assumptions 18, 89, 105. -/
def Obligations.LinksAndCompute : Prop :=
  (∀ (p : Nat) (x : Option LinkId) (s : State), s.awake = true → 3 ≤ s.boot.stage → s.boot.stage ≤ 5 → p < 24 →
    p ∉ s.boot.portsTried → (s.port p).up = false →
    Claims.Does (.laneTrainingDone p false x) s fun t =>
      let u := { t with boot := { t.boot with portsTried := t.boot.portsTried ++ [p] } }
      if u.boot.stage = 3 && (List.range 24).all fun q => u.boot.portsTried.contains q then u.toStage 4 else u) ∧
  (∀ (p : Nat) (x : LinkId) (s : State), s.awake = true → 3 ≤ s.boot.stage → s.boot.stage ≤ 5 → p < 24 →
    p ∉ s.boot.portsTried → (s.port p).up = false → p ∉ s.spares.portsOut → s.portClock p = true →
    s.directLink p x = true →
    Claims.Does (.laneTrainingDone p true (some x)) s fun t =>
      let u := { t with boot := { t.boot with portsTried := t.boot.portsTried ++ [p] } }
      ((u.updPort p fun y => { y with
        up := true, direct := true, gbps := 8 * min x.maxGbps t.limits.2.2.2, peer := some x }).linkCameUp p).endStep4) ∧
  (∀ (p : Nat) (x : Option LinkId) (s : State), s.awake = true → 3 ≤ s.boot.stage → s.boot.stage ≤ 5 → p < 24 →
    p ∉ s.boot.portsTried → (s.port p).up = false → p ∉ s.spares.portsOut → s.portClock p = true →
    (∀ y, x = some y → s.directLink p y = false) →
    Claims.Does (.laneTrainingDone p true x) s fun t =>
      let u := { t with boot := { t.boot with portsTried := t.boot.portsTried ++ [p] } }
      ((u.updPort p fun y => { y with up := true, direct := false, gbps := 1792, peer := x }).linkCameUp p).endStep4) ∧
  (∀ (p now : Nat) (s : State), s.awake = true → 4 ≤ s.boot.stage → s.boot.stage ≤ 5 → (s.port p).up = false →
    Answers (.laneRetryTimer p now) s fun t =>
      p ∉ t.boot.portsTried ∧ (∀ q, q ≠ p → (q ∈ t.boot.portsTried ↔ q ∈ s.boot.portsTried)) ∧ t.wt = s.wt) ∧
  (∀ (jets arrays : List Nat) (now : Nat) (s : State), s.awake = true → s.boot.stage = 4 → s.boot.computeDone = false →
    Answers (.computeStageDone jets arrays now) s fun t =>
      t.boot.computeDone = true ∧ t.boot.stage = 4 ∧ t.mem = s.mem ∧ (∀ j ∈ jets, j < 8192 → (t.jet j).isolated = true) ∧
      ∀ j < 8192, j ∉ jets → t.jet j = s.clearedJet j) ∧
  (∀ (now : Nat) (s : State), s.awake = true → s.boot.stage = 3 → s.boot.stageStart + 500000000 ≤ (s.upTo now).clk.up →
    Claims.Does (.stageOverrun now) s fun t => (t.upTo now).toStage 4) ∧
  (∀ (now b : Nat) (s : State), s.awake = true → s.boot.stage ≠ 3 → s.stageBound = some b → s.boot.overruns = 0 →
    s.boot.stageStart + b ≤ (s.upTo now).clk.up →
    Answers (.stageOverrun now) s fun t =>
      t.boot.stage = 0 ∧ t.boot.lastReset = 5 ∧ t.boot.scope = s.boot.scope ∧ t.boot.overruns = 1) ∧
  (∀ (now b : Nat) (s : State), s.awake = true → s.boot.stage ≠ 3 → s.stageBound = some b → s.boot.overruns ≠ 0 →
    s.boot.stageStart + b ≤ (s.upTo now).clk.up →
    Answers (.stageOverrun now) s fun t => t.boot.stage = 7 ∧ t.boot.failCause = 3 ∧ t.faultN = true)

/-- Service may open (13 R423): the node is awake in step 5, step 5 is over, and fabric time has locked or 10 s have passed since the bound of
step 4, 500 ms after it began. -/
def Claims.Opens (u : State) : Prop :=
  u.awake = true ∧ u.boot.stage = 4 ∧ u.boot.computeDone = true ∧ (u.clk.locked = true ∨ u.boot.step4At + 10500000000 ≤ u.clk.up)

/-- Fabric time as service opens (07 R213, 13 R423): without a lock it is in HOLDOVER with SYNC_FAULT; it counts from FABRIC_EPOCH as it is
in force then (assumption 95). -/
def Claims.timed (u : State) : State :=
  { u with clk := ({ u.clk with
      holdover := u.clk.holdover || !u.clk.locked, syncFault := u.clk.syncFault || !u.clk.locked }).withEpoch u.cfg.fepoch }

/-- A node that enters stage 5 (10 R329, 13 R413, R423): its twin state is JOINING where PAIR_EN is 1, else UNPAIRED, FH_BOOT_STAT gets the time
that bring-up took, and STAGE becomes 5. -/
def Claims.inService (t : State) : State :=
  ({ t with
    twin := { t.twin with state := if t.pairEn then twJoining else twUnpaired, joinAt := t.clk.ftime }
    boot := { t.boot with bootMs := t.bootMsNow } }).toStage 5

/-- The changes that epochs accepted before service bring as service opens (13 R425): those of their staging sets, in the order
in which they were accepted, without the tick settings where the new ORIGIN lies after fabric time (07 R215). -/
def Claims.opening (u : State) : List Staged :=
  let items := u.ep.early.flatMap fun p => u.pendItems p.what
  let new := u.cfg.withItems items
  if items.any isTick && !originOk new (u.clk.withEpoch new.fepoch).ftime then items.filter fun x => !isTick x else items

/-- Service opens (13 R423, R425, R437; 10 R329) at SERVICE_OPEN once step 5 is over and fabric time has locked, or 10 s after the bound of
step 4: without a lock in HOLDOVER with SYNC_FAULT; a board with PAIR_EN is JOINING from then, another UNPAIRED; until then only time passes.
With no commit accepted before it, settings and epoch stay, the weir lists in force take over, and a full reset writes both copies of the
configuration image, where NODE_RETAIN rebuilds its pages instead; with commits accepted before it, their changes are in force together as
one further epoch, which both copies hold. PERST# (13 R426) from stage 2 on resets the PCIe functions, not the node: the contexts of HOST and
COMPLETION queues are disabled and what waits in them is dropped, the host's requests that have not completed end CANCELLED, a QUEUE_STOP that waits
for such a queue is answered, DOE sessions and IDE streams end, mailboxes take their Reset values, and memory, sessions, partitions, settings and
bring-up stay; before stage 2 it does nothing.
The model's choices here: assumptions 90, 95, 101, 145. -/
def Obligations.ServiceAndPerst : Prop :=
  (∀ (now : Nat) (s : State), ¬ Claims.Opens (s.upTo now) → Claims.Does (.serviceOpen now) s fun t => t.upTo now) ∧
  (∀ (now : Nat) (s : State), Claims.Opens (s.upTo now) → s.ep.early = [] → s.boot.scope = .full →
    Claims.Does (.serviceOpen now) s fun t => Claims.inService (Claims.timed (t.upTo now)).openWeirs.writeImage) ∧
  (∀ (now : Nat) (s : State), Claims.Opens (s.upTo now) → s.ep.early = [] → s.boot.scope = .retain →
    Claims.Does (.serviceOpen now) s fun t => Claims.inService (Claims.timed (t.upTo now)).openWeirs.rebuildPages) ∧
  (∀ (now : Nat) (s : State), Claims.Opens (s.upTo now) → s.ep.early ≠ [] →
    Answers (.serviceOpen now) s fun t =>
      t.cfg = { s.cfg.withItems (Claims.opening (s.upTo now)) with
        windows := raisedWindows s.cfg.windows (s.cfg.withItems (Claims.opening (s.upTo now))).windows t.clk.ftime } ∧
      t.ep.epoch = s.ep.epoch + 1 ∧ t.ep.early = [] ∧
      t.ep.images = [(0, { settings := t.cfg, epoch := t.ep.epoch, digestOk := true }),
        (1, { settings := t.cfg, epoch := t.ep.epoch, digestOk := true })]) ∧
  (∀ (now : Nat) (s : State), Claims.Opens (s.upTo now) →
    Answers (.serviceOpen now) s fun t =>
      t.boot.stage = 5 ∧ t.boot.stageStart = (s.upTo now).clk.up ∧ (s.clk.locked = false → t.clk.holdover = true ∧ t.clk.syncFault = true) ∧
      t.twin.state = (if t.pairEn then twJoining else twUnpaired) ∧ t.twin.joinAt = t.clk.ftime) ∧
  (∀ (now : Nat) (s : State), Claims.Opens (s.upTo now) → s.ep.early = [] → s.boot.scope = .full →
    Answers (.serviceOpen now) s fun t =>
      t.cfg = s.cfg ∧ t.ep.epoch = s.ep.epoch ∧ t.mem = s.mem ∧ t.sessions = s.sessions ∧ t.allocs = s.allocs ∧ t.jets = s.jets) ∧
  (∀ (s : State), s.awake = true → 2 ≤ s.boot.stage →
    Claims.Does .perst s fun t =>
      let hosts := (t.slc.reqs.filter fun x => x.2.msg.isHost && !x.2.complete).map Prod.fst
      let stops := (t.slc.queues.filter fun q => (qType q.2.ctx == 2 || qType q.2.ctx == 3) && q.2.stopping).map Prod.fst
      let shut (q : Queue) : Queue :=
        if qType q.ctx = 2 ∨ qType q.ctx = 3 then { q with ctx := setField q.ctx 0 2 0, landed := [], stopping := false } else q
      let u := { t with slc := { t.slc with queues := Tbl.mapVals t.slc.queues fun _ q => shut q } }
      let u := u.each hosts fun u r => u.endReq r stCancelled
      let u := u.unpark (fun op c => op == 0x0061#16 && stops.contains (leNat c.body)) stOk fun _ _ => []
      { u with
        mboxes := Tbl.mapVals u.mboxes fun _ m =>
          { m with resp := [], state := 0, overrun := false, result := 0#8, seqDone := 0#16, seqTaken := 0#16 }
        sec := { u.sec with spdm := u.sec.spdm.filter fun x => x.1 == 17, ide := [] } }) ∧
  (∀ (s : State), s.awake = true → 2 ≤ s.boot.stage →
    Answers .perst s fun t =>
      t.sec.ide = [] ∧ (∀ x ∈ t.sec.spdm, x.1 = 17) ∧ t.mem = s.mem ∧ t.cfg = s.cfg ∧ t.sessions = s.sessions ∧
      t.allocs = s.allocs ∧ t.parts = s.parts ∧ t.ep = s.ep ∧ t.boot = s.boot ∧
      ∀ m, (t.mbox m).state = 0 ∧ (t.mbox m).resp = [] ∧ (t.mbox m).overrun = false ∧ (t.mbox m).seqDone = 0#16 ∧
        (t.mbox m).seqTaken = 0#16) ∧
  (∀ (s : State), s.awake = false ∨ s.boot.stage < 2 → Claims.Does .perst s id)

/-- The power manager (13 R428, 15 R470, R486): a sample whose package power is above 1.25 × the limit raises LEVEL by 8, one whose
average over 100 samples exceeds the limit less the margin, or with a junction above TJ_STEP_C, by 1, never beyond 40; otherwise
LEVEL stays or falls by 1, and never falls after three AVSBus writes without acknowledgement. VDD_CORE moves by at most 10 mV a
sample and the sensors' values are held in quarter degrees.
The model's choices here: assumptions 98, 99. -/
def Obligations.PowerLevels : Prop :=
  (∀ (w j c now : Nat) (s : State), s.awake = true → 1 ≤ s.boot.stage →
    Answers (.powerSample w j c now) s fun t =>
      (5 * s.limitW < 4 * w → t.pwr.level = min (s.pwr.level + 8) 40) ∧
      (¬ 5 * s.limitW < 4 * w → s.limitW < t.pwr.avg + s.marginW ∨ s.tjStep < j →
        t.pwr.level = min (s.pwr.level + 1) 40) ∧
      (¬ 5 * s.limitW < 4 * w → ¬ s.limitW < t.pwr.avg + s.marginW → ¬ s.tjStep < j →
        t.pwr.level = s.pwr.level ∨ t.pwr.level = s.pwr.level - 1 ∧ s.pwr.noRaise = false) ∧
      t.pwr.avg = meanOf t.pwr.samples ∧ t.pwr.samples = (s.pwr.samples ++ [w]).drop (s.pwr.samples.length + 1 - 100) ∧
      t.pins.vddMv ≤ s.pins.vddMv + 10 ∧ s.pins.vddMv ≤ t.pins.vddMv + 10 ∧
      t.pins.tjMax = 4 * j ∧ t.pins.tcisMax = 4 * c ∧ t.pwr.cfg = s.pwr.cfg ∧ t.boot = s.boot) ∧
  (∀ (s : State), s.awake = true → 1 ≤ s.boot.stage →
    Claims.Does .avsbusNoAck s fun t => { t with pwr := { t.pwr with noRaise := true } })

/-- Fabric time (07 R212, R213, 13 R423, 15 R476). A port that is up hears its clock announced, and only the selected master's other messages
count. A Sync gives the time that it left and came, at once or with its Follow_Up, and asks for the path delay; the answer to that request
gives the path delay and the offset. The first lock since reset, before service, steps the clock forward to the master's time, and an
offset the other way is slewed; a later offset is slewed out and never stepped, and one beyond 1 ms in service is a SYNC_FAULT. Lost
masters leave HOLDOVER; an edge of PPS_IN is stamped; PPS_OUT rises at a whole second of PTP time in service.
The model's choices here: assumptions 95, 96, 150. -/
def Obligations.FabricTime : Prop :=
  (∀ (p : Nat) (c : PtpClock) (s : State), s.awake = true → 3 ≤ s.boot.stage → s.boot.stage ≤ 5 → (s.port p).up = true →
    Answers (.ptpMessage p (.announce c)) s fun t =>
      Tbl.get? t.clk.heard p = some c ∧ (∀ q, q ≠ p → Tbl.get? t.clk.heard q = Tbl.get? s.clk.heard q) ∧
      t.clk.ftime = s.clk.ftime ∧ t.clk.locked = s.clk.locked ∧ t = { s with out := [], clk := t.clk }) ∧
  (∀ (p : Nat) (m : PtpMsg) (s : State), (∀ c, m ≠ .announce c) → s.masterPort ≠ some p →
    Claims.Does (.ptpMessage p m) s id) ∧
  (∀ (p q a : Nat) (s : State), s.awake = true → 3 ≤ s.boot.stage → s.boot.stage ≤ 5 → (s.port p).up = true →
    s.masterPort = some p → s.clk.delayReq = none → s.clk.pathNs = none →
    Answers (.ptpMessage p (.sync q false a)) s (fun t =>
      t.clk.sync = some { seq := q, cameNs := s.clk.ptp, originNs := some a } ∧
      t.clk.delayReq = some (s.clk.delaySeq, s.clk.ptp) ∧ t.out = [.delayReq p s.clk.delaySeq] ∧
      t.clk.ftime = s.clk.ftime ∧ t = { s with out := t.out, clk := t.clk }) ∧
    Answers (.ptpMessage p (.sync q true a)) s (fun t =>
      t = { s with out := [], clk := { s.clk with sync := some { seq := q, cameNs := s.clk.ptp, originNs := none } } }) ∧
    ∀ b, s.clk.sync = some { seq := q, cameNs := b, originNs := none } →
      Answers (.ptpMessage p (.followUp q a)) s fun t =>
        t.clk.sync = some { seq := q, cameNs := b, originNs := some a } ∧
        t.clk.delayReq = some (s.clk.delaySeq, s.clk.ptp) ∧ t.out = [.delayReq p s.clk.delaySeq] ∧
        t.clk.ftime = s.clk.ftime ∧ t = { s with out := t.out, clk := t.clk }) ∧
  (∀ (p q k a b c d : Nat) (s : State), s.awake = true → 3 ≤ s.boot.stage → s.boot.stage ≤ 5 → (s.port p).up = true →
    s.masterPort = some p → s.clk.delayReq = some (q, c) → s.clk.sync = some { seq := k, cameNs := b, originNs := some a } →
    Answers (.ptpMessage p (.delayResp q d)) s fun t =>
      let path : Int := ((b - a : Int) + (d - c : Int)) / 2
      let o : Int := b - a - path
      t.clk.locked = true ∧ t.clk.holdover = false ∧ t.clk.offsetNs = o ∧
      (s.clk.synced = false → s.boot.stage < 5 → t.clk.slewNs = max o 0 ∧ t.clk.syncFault = s.clk.syncFault ∧
        t.clk.ftime = (if o < 0 then s.clk.ftime + o.natAbs else s.clk.ftime)) ∧
      (s.clk.synced = true ∨ s.boot.stage = 5 → t.clk.ftime = s.clk.ftime ∧ t.clk.slewNs = o ∧
        (t.clk.syncFault = true ↔ s.clk.syncFault = true ∨ (s.boot.stage = 5 ∧ 1000000 < o.natAbs))) ∧
      t = { s with out := [], clk := t.clk }) ∧
  (∀ (s : State), s.awake = true → s.clk.locked = true →
    Claims.Does .masterLost s fun t => { t with clk := { t.clk with
      heard := [], sync := none, delayReq := none, pathNs := none, locked := false, holdover := true } }) ∧
  (∀ (s : State), s.awake = true →
    Claims.Does .ppsInEdge s fun t => { t with clk := { t.clk with ppsInAt := some t.clk.ftime } }) ∧
  (∀ (now : Nat) (s : State), s.serving = true → s.clk.locked = true ∨ s.clk.holdover = true →
    ((s.upTo now).clk.ftime + s.clk.epochSec * 1000000000) % 1000000000 = 0 →
    Answers (.ppsOutSecond now) s fun t => t.ppsOut = true ∧ t = { s.upTo now with out := [], pins := t.pins })

/-- Reset commands (13 R427, 14 R456; 12 R406, R407). NODE_RESET is refused on a lone twin without FORCE, and otherwise answered OK, the
reset it names following 1 ms later. PARTITION_RESET parks and begins: requests of the partition end CANCELLED, its rings are
emptied, its jets cleared. At its end the fence is lifted, keys are erased and KEY_RETIREs of those slots answered OK, with the
channel groups zeroed before if SCRUB was asked for.
The model's choices here: assumptions 70, 71, 93. -/
def Obligations.ResetCommands : Prop :=
  (∀ (c : AgtanCmd) (s : State), Claims.Accepted opNodeReset c s → s.solo = true → bit (leNat c.body) 1 = false →
    Claims.Does (.nodeReset c) s fun t => t.respond 0x0003#16 c stFormat []) ∧
  (∀ (c : AgtanCmd) (s : State), Claims.Accepted opNodeReset c s → s.solo = false ∨ bit (leNat c.body) 1 = true →
    Claims.Does (.nodeReset c) s fun t =>
      ({ t with boot := { t.boot with
        resetDue := some (if bit (leNat c.body) 0 then .retain else .full, t.clk.up + 1000000) } }).respond
        0x0003#16 c stOk []) ∧
  (∀ (c : AgtanCmd) (s : State), Claims.Accepted opPartitionReset c s → cmdPart c ∉ s.sec.resetting →
    Claims.Does (.partitionReset c) s fun t =>
      let p := cmdPart c
      let u := t.park opPartitionReset c
      let u := { u with sec := { u.sec with resetting := u.sec.resetting ++ [p] } }
      ((((u.cancelRequests p).dropOpens p).resetJets p).clearPart p).cancelParked p) ∧
  (∀ (c : AgtanCmd) (s : State), Claims.Accepted opPartitionReset c s → cmdPart c ∈ s.sec.resetting →
    Claims.Does (.partitionReset c) s fun t => t.park opPartitionReset c) ∧
  (∀ (p now : Nat) (s : State), s.awake = true → p ∈ s.sec.resetting →
    (∀ m ∈ s.mboxes, ∀ x ∈ m.2.parked, x.1 = 0x0004#16 → cmdPart x.2 = p → bit (leNat x.2.body) 0 = false) →
    Claims.Does (.partitionResetEnd p now) s fun t =>
      let ks := (t.upTo now).keysOf p
      let u := (t.upTo now).each ks fun u k => u.setKey k KeySlot.init
      let u := u.unpark (fun op c => op == 0x0073#16 && ks.contains (leNat c.body)) stOk fun _ _ => []
      let u := { u with sec := { u.sec with
        resetting := u.sec.resetting.filter (· != p), fenced := u.sec.fenced.filter (· != p) } }
      u.unpark (fun op c => op == 0x0004#16 && cmdPart c == p) stOk fun _ _ => []) ∧
  (∀ (p now : Nat) (s : State), p ∉ s.sec.resetting → Claims.Does (.partitionResetEnd p now) s fun t => t.upTo now)

/-- Lanes and TSVs (12 R397, R398, R400; 13 R422): LANE_RETRAIN swaps a direct link's lane with the spare, or is NO_RESOURCE, and
retrains a standard port whole; a lane whose retraining ends becomes the spare, or stays out; a degraded lane records 0x19
and is swapped or its port retrained; one bit failing in three banks within 1 ms records 0x17 and starts the channel's test.
The model's choices here: assumptions 102, 104, 122. -/
def Obligations.LanesAndTsvs : Prop :=
  (∀ (c : AgtanCmd) (s : State), Claims.Accepted opLaneRetrain c s → leNat c.body < 216 →
    (s.port (leNat c.body / 9)).direct = true → s.hasSpareLane (leNat c.body / 9) = true →
    Claims.Does (.laneRetrain c) s fun t =>
      (t.swapLane (leNat c.body / 9) (leNat c.body % 9)).respond 0x0005#16 c stOk []) ∧
  (∀ (c : AgtanCmd) (s : State), Claims.Accepted opLaneRetrain c s → leNat c.body < 216 →
    (s.port (leNat c.body / 9)).direct = true → s.hasSpareLane (leNat c.body / 9) = false →
    Claims.Does (.laneRetrain c) s fun t => t.respond 0x0005#16 c stNoRes []) ∧
  (∀ (c : AgtanCmd) (s : State), Claims.Accepted opLaneRetrain c s → leNat c.body < 216 →
    (s.port (leNat c.body / 9)).direct = false →
    Claims.Does (.laneRetrain c) s fun t => (t.retrainWhole (leNat c.body / 9)).respond 0x0005#16 c stOk []) ∧
  (∀ (p k : Nat) (good : Bool) (s : State), s.awake = true → Tbl.get? s.spares.laneTests p = some k →
    (∀ x ∈ s.flt.tests, x.place ≠ .lane p k) →
    Answers (.laneRetrainDone p k good) s fun t =>
      Tbl.get? t.spares.laneTests p = none ∧ t.spareLane p = k ∧ (good = false → p ∈ t.spares.laneNoSpare) ∧
      (good = true → t.spares.laneNoSpare = s.spares.laneNoSpare)) ∧
  (∀ (p k : Nat) (x : LaneCause) (s : State), s.awake = true → p < 24 → k < 9 → (s.port p).up = true →
    Tbl.get? s.spares.laneTests p ≠ some k → s.hasSpareLane p = true →
    Claims.Does (.laneDegrade p k x) s fun t =>
      (t.fault { code := 0x19, srcKind := 4, srcIndex := 9 * p + k, part := none, addr := 0, syndrome := 0#64, place := some (.lane p k) }).swapLane
        p k) ∧
  (∀ (p k : Nat) (x : LaneCause) (s : State), s.awake = true → p < 24 → k < 9 → (s.port p).up = true →
    Tbl.get? s.spares.laneTests p ≠ some k → s.hasSpareLane p = false →
    Claims.Does (.laneDegrade p k x) s fun t =>
      (t.fault { code := 0x19, srcKind := 4, srcIndex := 9 * p + k, part := none, addr := 0, syndrome := 0#64, place := some (.portLink p) }).retrainWhole
        p) ∧
  (∀ (ch n ns : Nat) (s : State), s.awake = true → ch < 128 → 3 ≤ n → ns ≤ 1000000 →
    (∀ x ∈ s.flt.tests, x.place ≠ .tsv ch) →
    Answers (.tsvFault ch n ns) s fun t =>
      t = { s with out := [], flt := t.flt } ∧
      ∃ i r, t.flt.newest = some i ∧ Tbl.get? t.flt.hist i = some r ∧ r.code = 0x17) ∧
  (∀ (s : State), s.ownerServed = true →
    Claims.Does (.firstClr .pf) s fun t => { t with flt := { t.flt with first := none } }) ∧
  (∀ (s : State), s.ownerServed = true →
    Claims.Does (.histClr .pf) s fun t => { t with flt := { t.flt with hist := [], newest := none, next := 0 } }) ∧
  (∀ (p : BitVec 12) (s : State), exec (.firstClr (.vf p.toNat)) s = .next { s with out := [] } ∧
    exec (.histClr (.vf p.toNat)) s = .next { s with out := [] })

/-- Verdicts and spares (12 R398 to R400, R411; 07 R208, R210): a test that fails, or repeats within REPEAT_H, is LASTING, another TRANSIENT;
the test is over, its count goes up, and the place's spare comes in or the place returns to service. A pair being spared
copies every run of it, checked with its page header; with a fourth spare used, it is retired; the switch maps it to its spare and loads
its jet. A scrub checks a grain that holds a page, with its page header, and frees a run that no descriptor names.
The model's choices here: assumptions 80, 91, 92, 103. -/
def Obligations.VerdictsAndSpares : Prop :=
  (∀ (p : Place) (ok : Bool) (now : Nat) (s : State) (x : TestRun), s.awake = true →
    (∀ g, p = .row g → (s.jet (grainJet g)).isolated = false) → s.flt.tests.find? (fun y => decide (y.place = p)) = some x →
    Claims.Does (.selfTestVerdict p ok now) s fun t =>
      let u := t.upTo now
      let lasting := !ok || u.repeats x.place x.code
      let f := u.flt.judge x (if lasting then 2 else 1)
      let f := { f with
        tests := f.tests.filter fun y => !decide (y.place = x.place)
        ceSeen := f.ceSeen.filter fun y => !decide (y.1 = x.place)
        passed := if ok then f.passed ++ [(x.place, x.code, u.clk.up)] else f.passed }
      let v := { u with flt := f }.count (if lasting then cLasting else cTransient) 1
      if lasting then v.lastingAt x.place else v.transientAt x.place) ∧
  (∀ (ch pair : Nat) (l : List Bool) (e : EccReport) (s : State) (k : Nat), s.serving = true → ch < 128 → pair < 64 →
    s.pairLive (jetOf ch pair) = true → (s.nextSparePair ch l).1 = some k →
    Claims.Does (.pairSparing ch pair l e) s fun t =>
      let u := (t.nextSparePair ch l).2
      let u := { u with spares := { u.spares with sparing := Tbl.set u.spares.sparing (jetOf ch pair) k } }
      u.each (u.allocs.filter fun a => grainJet a.first == jetOf ch pair) fun u a =>
        u.each ((List.range a.len).map (a.first + ·)) fun v g =>
          let v := v.noteCorrected e 1 ch g
          if v.badGrains.contains g then v
          else match v.grainFault e g with
            | some c => v.failGrain c.1 1 ch g c.2
            | none => v.spareHeader a g e) ∧
  (∀ (ch pair : Nat) (e : EccReport) (s : State), s.serving = true → ch < 128 → pair < 64 →
    s.pairLive (jetOf ch pair) = true → Tbl.getD s.spares.pairsUsed ch 0 = 4 →
    Claims.Does (.pairSparing ch pair [] e) s fun t =>
      ({ t with spares := { t.spares with pairsUsed := Tbl.set t.spares.pairsUsed ch 4 } }).retirePair (jetOf ch pair)) ∧
  (∀ (ch pair k : Nat) (s : State), s.serving = true → ch < 128 → pair < 64 → (s.jet (jetOf ch pair)).idle = true →
    Tbl.get? s.spares.sparing (jetOf ch pair) = some k →
    Claims.Does (.pairSpareSwitch ch pair) s fun t =>
      let j := jetOf ch pair
      let u := (t.mapPair j k).setJet j (t.clearedJet j)
      ({ u with flt := { u.flt with tests := u.flt.tests.filter fun x => match x.place with
        | .row g => grainJet g != j
        | .jet k => k != j
        | _ => true } }).placeCmds j 16) ∧
  (∀ (g : Nat) (e : EccReport) (s : State) (a : Alloc) (r : PageRef) (p : Page), s.serving = true → g < grainCount →
    g ∉ s.badGrains → s.hasContent g = true → s.allocOf g = some a → a.use = .run r → s.page? r = some p → p.desc.grain = a.first →
    p.names a.first = true → p.desc.contained = false →
    Claims.Does (.scrubPass g e) s fun t => (t.scrubGrain g e).scrubHeader r p g e) ∧
  (∀ (g : Nat) (e : EccReport) (s : State) (a : Alloc) (r : PageRef), s.serving = true → g < grainCount →
    g ∉ s.badGrains → s.hasContent g = true → s.allocOf g = some a → a.use = .run r → s.page? r = none →
    Claims.Does (.scrubPass g e) s fun t => t.freeAllocs fun b => b.first == a.first)

/-- Commands that read records (14 R456, R463; 12 R403, R405; 11 R366): FAULT_READ gives FLT_FIRST and the history, newest first, a tenant
its own records only; PEER_CLEAR clears an UNREACHABLE mark; STATS_READ gives a partition's header, compression counters and
up to 29 layers, and clears them when asked; HIST_READ up to 15 scale records; ATTEST_REPORT a report of the owner or of the
mailbox's partition, signed.
The model's choices here: assumptions 13, 20. -/
def Obligations.RecordReads : Prop :=
  (∀ (c : AgtanCmd) (s : State), Claims.Accepted opFaultRead c s →
    Claims.Does (.faultRead c) s fun t => t.respond 0x0006#16 c stOk
      ((match t.flt.first with
        | some r => if c.mb = 0 ∨ r.part = some (c.mb - 1) then recordBytes r else List.replicate 32 0#8
        | none => List.replicate 32 0#8) ++
      (((List.range 32).filterMap fun i => Tbl.get? t.flt.hist ((t.flt.next + 31 - i) % 32)).filter fun r =>
        c.mb == 0 || r.part == some (c.mb - 1)).flatMap recordBytes)) ∧
  (∀ (c : AgtanCmd) (s : State), Claims.Accepted opPeerClear c s →
    Claims.Does (.peerClear c) s fun t => (t.clearUnreachable (leNat c.body)).respond 0x0007#16 c stOk []) ∧
  (∀ (c : AgtanCmd) (s : State), Claims.Accepted opStatsRead c s → field (leNat c.body) 8 5 + 1 ≤ 29 →
    field (leNat c.body) 0 8 + (field (leNat c.body) 8 5 + 1) ≤ 256 → bit (leNat c.body) 13 = false →
    Claims.Does (.statsRead c) s fun t => t.respond 0x00B0#16 c stOk
      (statHeader (t.part (cmdPart c)) ++ compBytes (t.part (cmdPart c)) ++
        (List.range (field (leNat c.body) 8 5 + 1)).flatMap fun i =>
          layerBytes (Tbl.getD (t.part (cmdPart c)).layers (field (leNat c.body) 0 8 + i) LayerStat.init))) ∧
  (∀ (c : AgtanCmd) (s : State), Claims.Accepted opStatsRead c s →
    29 < field (leNat c.body) 8 5 + 1 ∨ 256 < field (leNat c.body) 0 8 + (field (leNat c.body) 8 5 + 1) →
    Claims.Does (.statsRead c) s fun t => t.respond 0x00B0#16 c stFormat []) ∧
  (∀ (c : AgtanCmd) (s : State), Claims.Accepted opHistRead c s → 1 ≤ leAt c.body 2 1 → leAt c.body 2 1 ≤ 15 →
    leAt c.body 0 2 + leAt c.body 2 1 ≤ 32768 →
    Claims.Does (.histRead c) s fun t => t.respond 0x00B1#16 c stOk
      ((List.range (leAt c.body 2 1)).flatMap fun k =>
        match Tbl.get? (t.part (cmdPart c)).scales (leAt c.body 0 2 + k) with
        | some r => scaleBytes r
        | none => List.replicate 128 0#8)) ∧
  (∀ (c : AgtanCmd) (s : State), Claims.Accepted opAttestReport c s →
    Claims.Does (.attestReport c) s fun t =>
      let b := t.reportBody (if c.mb = 0 then none else some (c.mb - 1)) c.body
      (t.sign b).2.respond 0x0002#16 c stOk (b ++ beBytes 96 (t.sign b).1.toNat))

/-- WINDOW_REVOKE raises the window's GEN and stamps it at once, closes it on demand, and stays parked until no request that was admitted on
the window before it is left (08 R274, R275); a window of another partition is refused FORMAT. -/
def Obligations.WindowRevocation : Prop :=
  (∀ (c : AgtanCmd) (s : State), Claims.Accepted opWindowRevoke c s →
    s.ownWindow c (field (leNat c.body) 0 20) = true → bit (leNat c.body) 20 = false →
    Claims.Does (.windowRevoke c) s fun t =>
      let w := field (leNat c.body) 0 20
      let n := Tbl.getD t.slc.revokes w 0 + 1
      ({ t with
        cfg := { t.cfg with windows := Tbl.set t.cfg.windows w (winRaise (t.window w) t.clk.ftime) }
        slc := { t.slc with revokes := Tbl.set t.slc.revokes w n, revWait := t.slc.revWait ++ [(c, n)] } }).park
        opWindowRevoke c) ∧
  (∀ (c : AgtanCmd) (s : State), Claims.Accepted opWindowRevoke c s →
    s.ownWindow c (field (leNat c.body) 0 20) = true → bit (leNat c.body) 20 = true →
    Claims.Does (.windowRevoke c) s fun t =>
      let w := field (leNat c.body) 0 20
      let n := Tbl.getD t.slc.revokes w 0 + 1
      let u := { t with
        cfg := { t.cfg with windows := Tbl.set t.cfg.windows w (setField (winRaise (t.window w) t.clk.ftime) 87 1 0) }
        slc := { t.slc with revokes := Tbl.set t.slc.revokes w n, revWait := t.slc.revWait ++ [(c, n)] } }
      u.writeImage.park opWindowRevoke c) ∧
  (∀ (c : AgtanCmd) (s : State), Claims.Accepted opWindowRevoke c s →
    s.ownWindow c (field (leNat c.body) 0 20) = false →
    Claims.Does (.windowRevoke c) s fun t => t.respond 0x0042#16 c stFormat []) ∧
  (∀ (w now : Nat) (s : State), s.serving = true →
    Claims.Does (.windowRevokeDrained w now) s fun t =>
      let u := t.upTo now
      let l := u.slc.revWait.filter fun x => field (leNat x.1.body) 0 20 == w && !u.windowBusy w x.2
      ({ u with slc := { u.slc with revWait := u.slc.revWait.filter fun x => !l.contains x } }).unpark
        (fun op c => op == 0x0042#16 && l.any fun x => decide (x.1 = c)) stOk fun u _ =>
        leBytes 8 (winGen (u.window w)).toNat ++ leBytes 8 (winStamp (u.window w))) ∧
  (∀ (w n : Nat) (s : State), s.windowBusy w n = true ↔ ∃ x ∈ s.slc.reqs, x.2.complete = false ∧ x.2.revAt < n ∧
    ((∃ a k v g i z, x.2.msg.origin = .fabric a k v g i z ∧ v.toNat = w) ∨
      ∃ a k v g c i z, x.2.msg.origin = .hedge a k v g c i z ∧ v.toNat = w)) ∧
  (∀ (w now : Nat) (s : State), s.serving = false → Claims.Does (.windowRevokeDrained w now) s fun t => t.upTo now)

/-- Queue commands (09 R281, 14 R456): QUEUE_SET writes the RW fields of a context in order whose queue has TYPE 0, and a FABRIC ring in the
partition's groups takes its grains, or is refused NO_RESOURCE where they are allocated; QUEUE_STOP parks until the queue is empty; then
TYPE is 0, the ring's grains are free and the parked stops answer OK.
The model's choices here: assumptions 20, 145. -/
def Obligations.QueueCommands : Prop :=
  (∀ (c : AgtanCmd) (s : State), Claims.Accepted opQueueSet c s → s.ownQueue c (leAt c.body 0 4) = true →
    qType (s.queue (leAt c.body 0 4)).ctx = 0 → contextOk (BitVec.ofNat 256 (leNat (c.body.drop 8))) = true →
    qType (BitVec.ofNat 256 (leNat (c.body.drop 8))) ≠ 1 →
    Claims.Does (.queueSet c) s fun t =>
      (t.updQueue (leAt c.body 0 4) fun x => { x with
        ctx := setField (BitVec.ofNat 256 (leNat (c.body.drop 8))) 96 80 (fld x.ctx 96 80), stopping := false }).respond
        0x0060#16 c stOk []) ∧
  (∀ (c : AgtanCmd) (s : State), Claims.Accepted opQueueSet c s → s.ownQueue c (leAt c.body 0 4) = true →
    qType (s.queue (leAt c.body 0 4)).ctx = 0 → contextOk (BitVec.ofNat 256 (leNat (c.body.drop 8))) = true →
    qType (BitVec.ofNat 256 (leNat (c.body.drop 8))) = 1 →
    inGroups (s.pmap (cmdPart c)) (qRing (BitVec.ofNat 256 (leNat (c.body.drop 8))))
      (ringGrains (BitVec.ofNat 256 (leNat (c.body.drop 8)))) = true →
    s.inWindow (qRing (BitVec.ofNat 256 (leNat (c.body.drop 8)))) (ringGrains (BitVec.ofNat 256 (leNat (c.body.drop 8)))) =
      false →
    s.allocated (qRing (BitVec.ofNat 256 (leNat (c.body.drop 8)))) (ringGrains (BitVec.ofNat 256 (leNat (c.body.drop 8)))) =
      false →
    Claims.Does (.queueSet c) s fun t =>
      let v := BitVec.ofNat 256 (leNat (c.body.drop 8))
      let u := t.updQueue (leAt c.body 0 4) fun x => { x with ctx := setField v 96 80 (fld x.ctx 96 80), stopping := false }
      (u.addAlloc { first := qRing v, len := ringGrains v, use := .ring (leAt c.body 0 4) }).respond 0x0060#16 c stOk []) ∧
  (∀ (c : AgtanCmd) (s : State), Claims.Accepted opQueueSet c s →
    s.ownQueue c (leAt c.body 0 4) = false ∨ qType (s.queue (leAt c.body 0 4)).ctx ≠ 0 ∨
      contextOk (BitVec.ofNat 256 (leNat (c.body.drop 8))) = false →
    Claims.Does (.queueSet c) s fun t => t.respond 0x0060#16 c stFormat []) ∧
  (∀ (c : AgtanCmd) (s : State), Claims.Accepted opQueueSet c s → s.ownQueue c (leAt c.body 0 4) = true →
    qType (s.queue (leAt c.body 0 4)).ctx = 0 → contextOk (BitVec.ofNat 256 (leNat (c.body.drop 8))) = true →
    qType (BitVec.ofNat 256 (leNat (c.body.drop 8))) = 1 →
    (inGroups (s.pmap (cmdPart c)) (qRing (BitVec.ofNat 256 (leNat (c.body.drop 8))))
        (ringGrains (BitVec.ofNat 256 (leNat (c.body.drop 8)))) = false ∨
      s.inWindow (qRing (BitVec.ofNat 256 (leNat (c.body.drop 8)))) (ringGrains (BitVec.ofNat 256 (leNat (c.body.drop 8)))) =
        true →
      Claims.Does (.queueSet c) s fun t => t.respond 0x0060#16 c stFormat []) ∧
    (inGroups (s.pmap (cmdPart c)) (qRing (BitVec.ofNat 256 (leNat (c.body.drop 8))))
        (ringGrains (BitVec.ofNat 256 (leNat (c.body.drop 8)))) = true →
      s.inWindow (qRing (BitVec.ofNat 256 (leNat (c.body.drop 8)))) (ringGrains (BitVec.ofNat 256 (leNat (c.body.drop 8)))) =
        false →
      s.allocated (qRing (BitVec.ofNat 256 (leNat (c.body.drop 8)))) (ringGrains (BitVec.ofNat 256 (leNat (c.body.drop 8)))) =
        true →
      Claims.Does (.queueSet c) s fun t => t.respond 0x0060#16 c stNoRes [])) ∧
  (∀ (c : AgtanCmd) (s : State), Claims.Accepted opQueueStop c s → s.ownQueue c (leNat c.body) = true →
    Claims.Does (.queueStop c) s fun t =>
      (t.updQueue (leNat c.body) fun x => { x with stopping := true }).park opQueueStop c) ∧
  (∀ (c : AgtanCmd) (s : State), Claims.Accepted opQueueStop c s → s.ownQueue c (leNat c.body) = false →
    Claims.Does (.queueStop c) s fun t => t.respond 0x0061#16 c stFormat []) ∧
  (∀ (q : Nat) (s : State), s.serving = true → (s.queue q).stopping = true → (s.queue q).landed = [] →
    qAdmitted (s.queue q).ctx = 0 → (s.queue q).ring = [] →
    Claims.Does (.queueStopped q) s fun t =>
      ((t.setQueue q { t.queue q with ctx := setField (t.queue q).ctx 0 2 0, stopping := false }).freeAllocs fun a => match a.use with | .ring r => r == q | _ => false).unpark
        (fun op c => op == 0x0061#16 && leNat c.body == q) stOk fun _ _ => [])

/-- Rings in host memory (09 R285, R286, R290): a doorbell of the owning function within the ring moves PROD of a HOST queue or CONS of a
COMPLETION queue; a doorbell of another function is ignored and counted. A submission entry that is in order lands as a message of its
queue with the next number, a CANCEL with the tag that it names; an entry out of order is refused FORMAT on a completion queue of the
partition, and has no answer where it names none.
The model's choices here: assumptions 16, 142. -/
def Obligations.HostRings : Prop :=
  (∀ (p : Nat) (q : Nat) (db : BitVec 32) (s : State), s.serving = true → q < 1048576 → s.ownerOfQueue q = some p → p < 16 →
    qType (s.queue q).ctx = 2 →
    (db.toNat % 65536 + 65536 - qProd (s.queue q).ctx) % 65536 ≤ qSize (s.queue q).ctx →
    Claims.Does (.hostDoorbell (.vf p) q db) s fun t =>
      t.updQueue q fun x => { x with ctx := setField x.ctx 96 16 (db.toNat % 65536) }) ∧
  (∀ (p : Nat) (q : Nat) (db : BitVec 32) (s : State), s.serving = true → q < 1048576 → s.ownerOfQueue q = some p → p < 16 →
    qType (s.queue q).ctx = 3 →
    (db.toNat % 65536 + 65536 - qCons (s.queue q).ctx) % 65536 ≤ qSize (s.queue q).ctx →
    (db.toNat % 65536 + 65536 - qCons (s.queue q).ctx) % 65536 ≤ qUsed (s.queue q).ctx →
    Claims.Does (.completionDoorbell (.vf p) q db) s fun t =>
      t.updQueue q fun x => { x with ctx := setField x.ctx 112 16 (db.toNat % 65536) }) ∧
  (∀ (p k : Nat) (q : Nat) (db : BitVec 32) (s : State), s.serving = true → q < 1048576 → s.ownerOfQueue q = some k →
    p < 16 → p ≠ k →
    Claims.Does (.hostDoorbell (.vf p) q db) s fun t => t.countPart p pDbIgnored 1) ∧
  (∀ (q p : Nat) (e : BitVec 512) (m : List Byte) (s : State), s.serving = true → s.ownerOfQueue q = some p →
    qType (s.queue q).ctx = 2 → (s.queue q).stopping = false → 0 < qUsed (s.queue q).ctx → p ∉ s.sec.resetting →
    s.subOk p e m = true →
    Claims.Does (.hostSubmissionRead q e m) s fun t =>
      let u := t.updQueue q fun y => { y with ctx := setField y.ctx 112 16 (qCons (t.queue q).ctx + 1) }
      let x : Msg :=
        { id := u.slc.nextMsg, origin := .host q (subCq e) (subAddr e) (subRespLen e) (subTag e), opcode := subOp e,
          part := p, queue := q, ring := 0, payload := if subOp e = opCancel then [] else m,
          offset := if subOp e = opCancel then (subTarget e).toNat else 0, landAt := u.clk.ftime, waitAt := none, dlNs := none }
      ({ u with slc := { u.slc with nextMsg := u.slc.nextMsg + 1 } }).updQueue q fun y => { y with
        landed := y.landed ++ [x] }) ∧
  (∀ (q p : Nat) (e : BitVec 512) (m : List Byte) (s : State), s.serving = true → s.ownerOfQueue q = some p →
    qType (s.queue q).ctx = 2 → (s.queue q).stopping = false → 0 < qUsed (s.queue q).ctx → p ∉ s.sec.resetting →
    s.subOk p e m = false →
    (s.ownerOfQueue (subCq e) = some p → qType (s.queue (subCq e)).ctx = 3 →
      Claims.Does (.hostSubmissionRead q e m) s fun t =>
        let u := t.updQueue q fun y => { y with ctx := setField y.ctx 112 16 (qCons (t.queue q).ctx + 1) }
        u.refuseMsg (u.subMsg p q e m) stFormat) ∧
    (s.ownerOfQueue (subCq e) ≠ some p ∨ qType (s.queue (subCq e)).ctx ≠ 3 →
      Claims.Does (.hostSubmissionRead q e m) s fun t =>
        t.updQueue q fun y => { y with ctx := setField y.ctx 112 16 (qCons (t.queue q).ctx + 1) }))

/-- A blob of KEY_INSTALL for the mailbox's partition: slot and bindings as 11 R373 has them. -/
def Claims.Bound (c : AgtanCmd) (s : State) : Prop :=
  s.slotOf c (kbSlot c.body) = true ∧ kbPart c.body = (if kbSlot c.body = 0 then 0 else cmdPart c) ∧
    jobOk (kbSlot c.body) (kbJob c.body) = true

/-- The transitions of a key slot (11 R373, R374): KEY_INSTALL in mode 0 makes a free slot ACTIVE, in mode 2 NEXT_TX with both keys, in mode 1
an ACTIVE slot NEXT_RX at the next epoch; KEY_SWITCH takes NEXT_RX to NEXT_TX, KEY_DROP takes NEXT_TX to ACTIVE and erases the
old key. A blob whose tag fails is KEY_INVALID, every other transition FORMAT, with the slot as it was.
The model's choices here: assumptions 106, 107, 108. -/
def Obligations.KeyTransitions : Prop :=
  (∀ (c : AgtanCmd) (s : State) (new old : Key), Claims.Accepted opKeyInstall c s → Claims.Bound c s →
    s.unwrap c = some (new, old) → kbMode c.body = 0 → old = 0#256 →
    (s.key (kbSlot c.body)).st = .empty ∨ (s.key (kbSlot c.body)).st = .retired →
    Claims.Does (.keyInstall c) s fun t =>
      ((t.setKey (kbSlot c.body) { KeySlot.init with
        part := kbPart c.body, job := kbJob c.body, atOld := t.clk.ftime, atNew := t.clk.ftime, st := .active
        epoch := kbEpoch c.body, kOld := new }).newSendKey (kbSlot c.body)).respond 0x0070#16 c stOk []) ∧
  (∀ (c : AgtanCmd) (s : State) (new old : Key), Claims.Accepted opKeyInstall c s → Claims.Bound c s →
    s.unwrap c = some (new, old) → kbMode c.body = 2 →
    (s.key (kbSlot c.body)).st = .empty ∨ (s.key (kbSlot c.body)).st = .retired →
    Claims.Does (.keyInstall c) s fun t =>
      ((t.setKey (kbSlot c.body) { KeySlot.init with
        part := kbPart c.body, job := kbJob c.body, atOld := t.clk.ftime, atNew := t.clk.ftime, st := .nextTx
        epoch := kbEpoch c.body - 1#8, kOld := old, kNew := new }).newSendKey (kbSlot c.body)).respond 0x0070#16 c stOk []) ∧
  (∀ (c : AgtanCmd) (s : State) (new old : Key), Claims.Accepted opKeyInstall c s → Claims.Bound c s →
    s.unwrap c = some (new, old) → kbMode c.body = 1 → old = 0#256 → (s.key (kbSlot c.body)).st = .active →
    (s.key (kbSlot c.body)).epoch + 1#8 = kbEpoch c.body → (s.key (kbSlot c.body)).part = kbPart c.body →
    (s.key (kbSlot c.body)).job = kbJob c.body →
    Claims.Does (.keyInstall c) s fun t =>
      (t.setKey (kbSlot c.body) { t.key (kbSlot c.body) with
        st := .nextRx, kNew := new, atNew := t.clk.ftime, newDead := false }).respond 0x0070#16 c stOk []) ∧
  (∀ (c : AgtanCmd) (s : State), Claims.Accepted opKeyInstall c s → s.unwrap c = none →
    Claims.Does (.keyInstall c) s fun t => t.respond 0x0070#16 c stKey []) ∧
  (∀ (c : AgtanCmd) (s : State) (new old : Key), Claims.Accepted opKeyInstall c s → s.unwrap c = some (new, old) →
    (s.key (kbSlot c.body)).install (kbMode c.body) (kbPart c.body) (kbJob c.body) (kbEpoch c.body) new old s.clk.ftime =
      none ∨ ¬ Claims.Bound c s →
    Claims.Does (.keyInstall c) s fun t => t.respond 0x0070#16 c stFormat []) ∧
  (∀ (c : AgtanCmd) (s : State), Claims.Accepted opKeySwitch c s → s.slotOf c (leNat c.body) = true →
    (s.key (leNat c.body)).st = .nextRx →
    Claims.Does (.keySwitch c) s fun t =>
      ((t.setKey (leNat c.body) { t.key (leNat c.body) with st := .nextTx, ageWarn := false }).newSendKey
        (leNat c.body)).respond 0x0071#16 c stOk []) ∧
  (∀ (c : AgtanCmd) (s : State), Claims.Accepted opKeySwitch c s → (s.key (leNat c.body)).st ≠ .nextRx →
    Claims.Does (.keySwitch c) s fun t => t.respond 0x0071#16 c stFormat []) ∧
  (∀ (c : AgtanCmd) (s : State), Claims.Accepted opKeyDrop c s → s.slotOf c (leNat c.body) = true →
    (s.key (leNat c.body)).st = .nextTx →
    Claims.Does (.keyDrop c) s fun t =>
      let x := t.key (leNat c.body)
      (t.setKey (leNat c.body) { x with
        st := .active, epoch := x.epoch + 1#8, kOld := x.kNew, kNew := 0#256, atOld := x.atNew, oldDead := x.newDead
        newDead := false }).respond 0x0072#16 c stOk []) ∧
  (∀ (c : AgtanCmd) (s : State), Claims.Accepted opKeyDrop c s → (s.key (leNat c.body)).st ≠ .nextTx →
    Claims.Does (.keyDrop c) s fun t => t.respond 0x0072#16 c stFormat [])

/-- The end of a slot's keys (11 R375, R376; 14 R493). KEY_RETIRE parks with the slot RETIRING; once nothing runs under it, or 64 ticks and
9,150 µs after receipt, its material is erased, its unacknowledged frames end and the command answers OK. At 80% of its send
key's lifetime AGE_WARN is set and an event recorded; at its end the key is neither sent under nor accepted. KEY_STATUS shows
16 bytes for each slot that the mailbox may see, zeros for others.
The model's choices here: assumptions 73. -/
def Obligations.KeyEnds : Prop :=
  (∀ (c : AgtanCmd) (s : State), Claims.Accepted opKeyRetire c s → s.slotOf c (leNat c.body) = true →
    (s.key (leNat c.body)).inUse = true →
    Claims.Does (.keyRetire c) s fun t =>
      (t.setKey (leNat c.body) ((t.key (leNat c.body)).retire t.clk.ftime)).park opKeyRetire c) ∧
  (∀ (k now : Nat) (s : State), s.awake = true → (s.key k).st = .retiring →
    s.slotBusy k = false ∨ (s.key k).retireAt + 64 * s.cfg.period + 9150000 ≤ (s.upTo now).clk.ftime →
    Claims.Does (.keyRetired k now) s fun t =>
      let u := t.upTo now
      ((u.setKey k { KeySlot.init with st := .retired, part := (u.key k).part, job := (u.key k).job }).endSlotFrames k).unpark
        (fun op c => op == 0x0073#16 && leNat c.body == k) stOk fun _ _ => []) ∧
  (∀ (k now : Nat) (s : State), (s.key k).st ≠ .retiring → Claims.Does (.keyRetired k now) s fun t => t.upTo now) ∧
  (∀ (c : AgtanCmd) (s : State), Claims.Accepted opKeyStatus c s → 1 ≤ field (leNat c.body) 16 8 →
    field (leNat c.body) 16 8 ≤ 62 → field (leNat c.body) 0 10 + field (leNat c.body) 16 8 ≤ 1024 →
    Claims.Does (.keyStatus c) s fun t => t.respond 0x0074#16 c stOk
      ((List.range (field (leNat c.body) 16 8)).flatMap fun i =>
        if c.mb = 0 ∨ field (leNat c.body) 0 10 + i = 0 ∨
          t.ownerOfKey (field (leNat c.body) 0 10 + i) = some (c.mb - 1) then t.keyRecord (field (leNat c.body) 0 10 + i)
        else List.replicate 16 0#8)) ∧
  (∀ (k now at' : Nat) (s : State), s.awake = true → (s.key k).sendAt = some at' → (s.key k).ageWarn = false →
    at' + keyLife k * 4 / 5 ≤ (s.upTo now).clk.ftime →
    Answers (.keyAgeWarn k now) s fun t =>
      (t.key k).ageWarn = true ∧ (∀ j, j ≠ k → t.key j = s.key j) ∧
      ∃ n r, t.flt.newest = some n ∧ Tbl.get? t.flt.hist n = some r ∧ r.code = Config.ageWarnCode) ∧
  (∀ (k now : Nat) (s : State), s.awake = true → (s.key k).inUse = true ∨ (s.key k).st = .retiring →
    Claims.Does (.keyLifetimeExpiry k now) s fun t =>
      let u := t.upTo now
      let v := u.setKey k ((u.key k).expire (keyLife k) u.clk.ftime)
      if v.sendKey k = none then v.each (List.range 26) State.dropUnkeyed else v)

/-- A node that serves requests of a partition, with its mirror key where a pair needs one (10 R326, 11 R371). -/
def Claims.Serves (c : AgtanCmd) (s : State) (keyed : Bool) : Prop :=
  (keyed && s.twin.state == twPaired && !s.mirrorKey (cmdPart c)) = false ∧ s.twinServes = true

/-- Session commands (02 R58 to R60, R75; 10 R326, R327, R345; 14 R456, R459). SESSION_OPEN opens a session in order at its writer,
mirrored and answered with its STAMP, forwards one whose key belongs to another pair or writer, and is NO_SESSION for an ID of
another partition, FORMAT for an entry out of order, NO_RESOURCE without room. SESSION_CLOSE makes it STATE 2; when its last
request has completed all it holds is released and STATE is 0. SESSION_READ shows the entry and counts.
The model's choices here: assumptions 17, 20, 63, 110. -/
def Obligations.SessionCommands : Prop :=
  (∀ (c : AgtanCmd) (s u : State), Claims.Accepted opSessionOpen c s → Claims.Serves c s true →
    s.ownerOfSession (leAt c.body 0 3) = some (cmdPart c) →
    (s.cfg.dir.place (openEntry (cmdPart c) c.body).skey = none ∨
      s.cfg.dir.place (openEntry (cmdPart c) c.body).skey = some s.pairId) →
    s.writes (leAt c.body 0 3) = true → s.openOk (leAt c.body 0 3) (openEntry (cmdPart c) c.body) = true → s.out = [] →
    s.openNow (leAt c.body 0 3) (openEntry (cmdPart c) c.body) = some u →
    Claims.Does (.sessionOpen c) s fun _ =>
      let v := (u.session? (leAt c.body 0 3)).getD (openEntry (cmdPart c) c.body)
      u.commitChange (cmdPart c) [u.sessionRec (leAt c.body 0 3) v] (.mailbox 0x0080#16 c stOk (leBytes 8 v.stamp))) ∧
  (∀ (c : AgtanCmd) (s : State), Claims.Accepted opSessionOpen c s →
    s.ownerOfSession (leAt c.body 0 3) ≠ some (cmdPart c) →
    Claims.Does (.sessionOpen c) s fun t => t.respond 0x0080#16 c stNoSession []) ∧
  (∀ (c : AgtanCmd) (s : State), Claims.Accepted opSessionOpen c s → Claims.Serves c s true →
    s.ownerOfSession (leAt c.body 0 3) = some (cmdPart c) →
    (s.cfg.dir.place (openEntry (cmdPart c) c.body).skey = none ∨
      s.cfg.dir.place (openEntry (cmdPart c) c.body).skey = some s.pairId) →
    s.writes (leAt c.body 0 3) = true → s.openOk (leAt c.body 0 3) (openEntry (cmdPart c) c.body) = false →
    Claims.Does (.sessionOpen c) s fun t => t.respond 0x0080#16 c stFormat []) ∧
  (∀ (c : AgtanCmd) (s : State) (q : Nat) (m : Word64), Claims.Accepted opSessionOpen c s →
    s.ownerOfSession (leAt c.body 0 3) = some (cmdPart c) → cmdForwarded c = false →
    s.cfg.dir.place (openEntry (cmdPart c) c.body).skey = some q → q ≠ s.pairId → s.cfg.dir.pair? q = some m →
    Claims.Does (.sessionOpen c) s fun t =>
      t.forwardCmd (if leAt c.body 0 3 % 2 = 0 then memLo m else memHi m) 0x0080#16 c) ∧
  (∀ (c : AgtanCmd) (s : State) (v : Session), Claims.Accepted opSessionClose c s → Claims.Serves c s true →
    s.writes (leNat c.body) = true → s.openSession (cmdPart c) (leNat c.body) = some v →
    Claims.Does (.sessionClose c) s fun t =>
      let t := t.abandonSession (leNat c.body)
      let w := { (t.session? (leNat c.body)).getD v with state := 2, stamp := t.clk.ftime }
      (t.putSession (leNat c.body) w).commitChange w.part [(t.putSession (leNat c.body) w).sessionRec (leNat c.body) w]
        (.mailbox 0x0081#16 c stOk [])) ∧
  (∀ (c : AgtanCmd) (s : State), Claims.Accepted opSessionClose c s → Claims.Serves c s true →
    s.writes (leNat c.body) = false → cmdForwarded c = false →
    Claims.Does (.sessionClose c) s fun t => t.forwardCmd t.twinNode 0x0081#16 c) ∧
  (∀ (x : Nat) (s : State) (v : Session), s.awake = true → s.session? x = some v → v.state = 2 → s.sessionBusy x = false →
    s.writes x = false →
    Claims.Does (.sessionCloseRelease x) s fun t => t.stampedAt v.stamp fun t => t.releaseSession x v) ∧
  (∀ (x : Nat) (s : State) (v : Session), s.awake = true → s.session? x = some v → v.state = 2 → s.sessionBusy x = false →
    s.writes x = true →
    Claims.Does (.sessionCloseRelease x) s fun t =>
      let u := t.releaseSession x v
      let u := { u with twin := { u.twin with lastChange := u.clk.ftime } }
      u.mirror v.part [u.sessionRec x ((u.session? x).getD v)]) ∧
  (∀ (c : AgtanCmd) (s : State) (v : Session), Claims.Accepted opSessionRead c s →
    s.session? (leAt c.body 0 3) = some v → v.part = cmdPart c → s.ownerOfSession (leAt c.body 0 3) = some v.part →
    v.state ≠ 0 →
    Claims.Does (.sessionRead c) s fun t => t.respond 0x0082#16 c stOk
      (sessionBytes v ++ ((v.pairs.drop (leAt c.body 4 2)).take 240).flatMap fun q => leBytes 8 (v.head q.1 q.2).count))

/-- The resident set (02 R78 to R81, 14 R460, R462). BASE_BEGIN reserves a run of page indices for a sequence that loads, BASE_END completes
one whose every page is sealed; BASE_UNLOAD and POSTAB_UNLOAD drop what no open session names; POSTAB_LOAD copies a verified
table into the node's own grains. Each is mirrored where the pair needs it, and refused FORMAT out of order.
The model's choices here: assumptions 3, 11, 56. -/
def Obligations.ResidentSet : Prop :=
  (∀ (c : AgtanCmd) (s : State) (i : Nat), Claims.Accepted opBaseBegin c s → Claims.Serves c s false → s.writesBases = true →
    Tbl.get? (s.part (cmdPart c)).bases (field (leNat c.body) 0 8) = none → field (leNat c.body) 8 4 ≤ 4 →
    field (leNat c.body) 12 3 ≤ 5 → 1 ≤ field (leNat c.body) 32 20 → field (leNat c.body) 32 20 ≤ 262144 →
    s.freeIndices (cmdPart c)
      ((field (leNat c.body) 16 8 + 1) * (field (leNat c.body) 24 6 + 1) * field (leNat c.body) 32 20) = some i →
    Claims.Does (.baseBegin c) s fun t =>
      let v := leNat c.body
      let b : BaseSeq :=
        { loaded := false, pfmt := field v 8 4, hdim := field v 12 3, layersM1 := field v 16 8, kvhM1 := field v 24 6
          npages := field v 32 20, seed := (Config.freeWord t.draws).setWidth 32, firstIdx := i, stamp := t.clk.ftime
          heads := [] }
      (({ t with draws := t.draws + 1 }).updPart (cmdPart c) fun q => { q with
        bases := Tbl.set q.bases (field v 0 8) b }).respond 0x0090#16 c stOk []) ∧
  (∀ (c : AgtanCmd) (s : State) (b : BaseSeq), Claims.Accepted opBaseEnd c s → Claims.Serves c s false →
    s.writesBases = true → Tbl.get? (s.part (cmdPart c)).bases (leNat c.body) = some b → b.loaded = false →
    b.whole = true →
    Claims.Does (.baseEnd c) s fun t =>
      (t.updBase (cmdPart c) (leNat c.body) fun b => { b with loaded := true, stamp := t.clk.ftime }).respond 0x0091#16 c
        stOk (leBytes 4 b.firstIdx)) ∧
  (∀ (c : AgtanCmd) (s : State) (b : BaseSeq), Claims.Accepted opBaseEnd c s → Claims.Serves c s false →
    s.writesBases = true → Tbl.get? (s.part (cmdPart c)).bases (leNat c.body) = some b →
    b.loaded = true ∨ b.whole = false →
    Claims.Does (.baseEnd c) s fun t => t.respond 0x0091#16 c stFormat []) ∧
  (∀ (c : AgtanCmd) (s : State), Claims.Accepted opBaseUnload c s → Claims.Serves c s false → s.writesBases = true →
    (Tbl.get? (s.part (cmdPart c)).bases (leNat c.body)).isSome = true →
    (s.namedBySession (cmdPart c) fun v => v.baseSeq == leNat c.body) = false →
    Claims.Does (.baseUnload c) s fun t =>
      let u := (t.dropBase (cmdPart c) (leNat c.body)).noteUnload (cmdPart c) (leNat c.body) false
      u.commitChange (cmdPart c) [u.unloadRec (cmdPart c) (leNat c.body) false] (.mailbox 0x0092#16 c stOk [])) ∧
  (∀ (c : AgtanCmd) (s u : State), Claims.Accepted opPostabLoad c s → Claims.Serves c s false → s.writesBases = true →
    leAt c.body 0 1 ≤ 63 → 1 ≤ leAt c.body 8 4 → leAt c.body 8 4 ≤ 16385 →
    Tbl.get? (s.part (cmdPart c)).posTabs (leAt c.body 0 1) = none →
    inGroups (s.pmap (cmdPart c)) (leAt c.body 4 4) (leAt c.body 8 4) = true →
    s.firstBad (leAt c.body 4 4) (leAt c.body 8 4) = none → tableOk (s.grain (leAt c.body 4 4)) (leAt c.body 8 4) = true →
    s.out = [] →
    s.putTable (cmdPart c) (leAt c.body 0 1) (s.readBytes (512 * leAt c.body 4 4) (512 * leAt c.body 8 4)) = some u →
    Claims.Does (.postabLoad c) s fun _ =>
      u.commitChange (cmdPart c) [{ u.mrec mkPostable (cmdPart c) with session := leAt c.body 0 1 }]
        (.mailbox 0x0093#16 c stOk [])) ∧
  (∀ (c : AgtanCmd) (s : State), Claims.Accepted opPostabUnload c s → Claims.Serves c s false → s.writesBases = true →
    (Tbl.get? (s.part (cmdPart c)).posTabs (leNat c.body)).isSome = true →
    (s.namedBySession (cmdPart c) fun v => v.posTable == leNat c.body) = false →
    Claims.Does (.postabUnload c) s fun t =>
      let u := (t.dropTable (cmdPart c) (leNat c.body)).noteUnload (cmdPart c) (leNat c.body) true
      u.commitChange (cmdPart c) [u.unloadRec (cmdPart c) (leNat c.body) true] (.mailbox 0x0094#16 c stOk []))

/-- The tier manager (07 R201 to R208, R210; 02 R68) and PROG_STAGE (14 R462). PROMOTE copies a hot sealed page that passes its checks to
the dynamic area, and a page idle for DEMOTE_TICKS ticks goes back; REBALANCE allocates a run in the target pair, the swap
copies the page and moves its descriptor, and old runs and copies go when no request reads them. A page that fails a check is
CONTAINED. A verified program image whose digest agrees is staged.
The model's choices here: assumptions 11, 20, 77, 78, 79. -/
def Obligations.TiersAndPrograms : Prop :=
  (∀ (r : PageRef) (e : EccReport) (s : State) (p : Page), s.serving = true → s.page? r = some p → p.desc.tail = false →
    p.desc.inSram = false → s.mayMove r p = true → s.mayPromote r = true → fld (s.tierCfg r.part) 8 8 ≤ p.sweeps →
    512 * runLen p.desc.pfmt p.desc.hdim ≤ s.sramFree r.part → s.checkRun e p.desc = none →
    Claims.Does (.promote r e) s fun t =>
      (t.noteRun e p.desc.grain (runLen p.desc.pfmt p.desc.hdim)).putPage r { p with
        desc := { p.desc with inSram := true }, copy := some (.promoted (t.runBytes p.desc) p.desc.wgen (t.runTags p.desc)) }) ∧
  (∀ (r : PageRef) (e : EccReport) (s : State) (p : Page) (x : Nat × Nat × Word64), s.serving = true → s.page? r = some p →
    p.desc.tail = false → p.desc.inSram = false → s.mayMove r p = true → s.mayPromote r = true →
    fld (s.tierCfg r.part) 8 8 ≤ p.sweeps → 512 * runLen p.desc.pfmt p.desc.hdim ≤ s.sramFree r.part →
    s.checkRun e p.desc = some x →
    Claims.Does (.promote r e) s fun t => (t.noteRun e p.desc.grain (runLen p.desc.pfmt p.desc.hdim)).failPage r x) ∧
  (∀ (r : PageRef) (now : Nat) (s : State) (p : Page), s.serving = true → s.page? r = some p → p.promoted = true →
    s.mayMove r p = true →
    fld (s.tierCfg r.part) 16 16 ≤ (s.tickOf (s.upTo now).clk.ftime + 2 ^ 48 - p.sweepTick % 2 ^ 48) % 2 ^ 48 →
    Claims.Does (.demoteTimeout r now) s fun t => (t.upTo now).demote r) ∧
  (∀ (r : PageRef) (s : State), s.awake = true → s.readBy r = false →
    Claims.Does (.sramCopyRelease r) s fun t => t.updPage r fun p => { p with oldCopy := none }) ∧
  (∀ (c : AgtanCmd) (s : State) (v : Session) (p : Page) (g : Nat) (w : BitVec 16) (u : State),
    Claims.Accepted opRebalance c s → s.openSession (cmdPart c) (leAt c.body 0 4) = some v → s.out = [] →
    s.page? { base := false, part := cmdPart c, owner := leAt c.body 0 4, layer := leAt c.body 4 1, head := leAt c.body 5 1,
              page := leAt c.body 8 4 } = some p →
    s.mayRebalance v { base := false, part := cmdPart c, owner := leAt c.body 0 4, layer := leAt c.body 4 1
                       head := leAt c.body 5 1, page := leAt c.body 8 4 } p (leAt c.body 12 4) = true →
    s.allocRun (leAt c.body 12 4) (runLen p.desc.pfmt p.desc.hdim)
      (.run { base := false, part := cmdPart c, owner := leAt c.body 0 4, layer := leAt c.body 4 1, head := leAt c.body 5 1
              page := leAt c.body 8 4 }) = some (g, w, u) →
    Claims.Does (.rebalance c) s fun _ =>
      (u.putPage { base := false, part := cmdPart c, owner := leAt c.body 0 4, layer := leAt c.body 4 1, head := leAt c.body 5 1
                   page := leAt c.body 8 4 }
        { p with migr := some { newRun := g, wgen := w, copied := false, repair := none } }).respond
        0x00C0#16 c stOk []) ∧
  (∀ (r : PageRef) (e : EccReport) (s : State) (p : Page) (m : Migr), s.serving = true → s.page? r = some p →
    p.migr = some m → m.copied = true → s.runNamed p.desc.grain = false → m.repair.isSome = true ∨ p.desc.contained = false →
    Claims.Does (.migrationSwap r e) s fun t => t.swapRun r p m) ∧
  (∀ (r : PageRef) (e : EccReport) (s : State) (p : Page) (m : Migr), s.serving = true → s.page? r = some p →
    p.migr = some m → m.repair = none → p.desc.contained = true →
    Claims.Does (.migrationSwap r e) s fun t => t.abandonMigr r) ∧
  (∀ (r : PageRef) (e : EccReport) (s : State) (p : Page) (m : Migr) (x : Nat × Nat × Word64), s.serving = true →
    s.page? r = some p → p.migr = some m → m.copied = false → p.desc.contained = false → s.rowTested p m = false →
    s.checkRun e p.desc = some x →
    Claims.Does (.migrationSwap r e) s fun t =>
      ((t.noteRun e p.desc.grain (runLen p.desc.pfmt p.desc.hdim)).abandonMigr r).failPage r x) ∧
  (∀ (r : PageRef) (e : EccReport) (s : State) (p : Page) (m : Migr), s.serving = true →
    s.page? r = some p → p.migr = some m → m.copied = false → p.desc.contained = false → s.rowTested p m = false →
    s.checkRun e p.desc = none →
    ((∃ i, i < runLen p.desc.pfmt p.desc.hdim ∧ m.newRun + i ∈ e.writeFails) →
      Claims.Does (.migrationSwap r e) s fun t =>
        (t.noteRun e p.desc.grain (runLen p.desc.pfmt p.desc.hdim)).abandonMigr r) ∧
    ((∀ i, i < runLen p.desc.pfmt p.desc.hdim → m.newRun + i ∉ e.writeFails) →
      Claims.Does (.migrationSwap r e) s fun t =>
        let q := { p with migr := some { m with copied := true } }
        let u := ((t.noteRun e p.desc.grain (runLen p.desc.pfmt p.desc.hdim)).copyRun p.desc m).putPage r q
        if u.runNamed p.desc.grain then u else u.swapRun r q m)) ∧
  (∀ (r : PageRef) (s : State) (p : Page) (o : Nat × Nat), s.awake = true → s.page? r = some p → o ∈ p.oldRuns →
    s.runRead o.1 = false →
    Claims.Does (.oldRunRelease r) s fun t =>
      (t.freeAllocs fun a => (p.oldRuns.filter fun o => !s.runRead o.1).any fun o => a.first == o.1).putPage r
        { p with oldRuns := p.oldRuns.filter fun o => s.runRead o.1 }) ∧
  (∀ (c : AgtanCmd) (s : State), Claims.Accepted opProgStage c s → inGroups (s.pmap (cmdPart c)) (leAt c.body 0 4) 9 = true →
    s.firstBad (leAt c.body 0 4) 9 = none →
    digestBytes (sha384 ((s.readBytes (512 * leAt c.body 0 4) 4608).take 4288)) = c.body.drop 8 →
    ((s.readBytes (512 * leAt c.body 0 4) 4608).drop 4288).all (· == 0#8) = true →
    Claims.Does (.progStage c) s fun t =>
      let img := (t.readBytes (512 * leAt c.body 0 4) 4608).take 4288
      let l : Lib := { words := (pieces 4 img).map fun w => BitVec.ofNat 32 (leNat w), digest := sha384 img }
      let x := t.stageItems c.mb [.lib (cmdPart c) l]
      x.2.respond 0x00A0#16 c (if x.1 then stOk else stBusy) [])

/-- SPDM requests of a served endpoint (11 R362 to R364): version, capabilities and algorithms in their order; then digests, certificate
portions of slot 0, a signed challenge and measurements of the indices that the endpoint sees. A request out of its order,
for another slot or with another algorithm set is answered with an error and changes nothing.
The model's choices here: assumptions 13, 74. -/
def Obligations.SpdmRequests : Prop :=
  (∀ (e : SpdmEp) (s : State), s.spdmServed e = true →
    Claims.Does (.spdmGetVersion e) s fun t =>
      (t.setSpdm e { t.spdm e with phase := 1 }).emit (.spdm e "VERSION" [0x00#8, 0x12#8, 0x00#8, 0x13#8] 0)) ∧
  (∀ (e : SpdmEp) (v : BitVec 8) (s : State), s.spdmServed e = true → 1 ≤ (s.spdm e).phase → v = 0x12#8 ∨ v = 0x13#8 →
    Claims.Does (.spdmGetCapabilities e v) s fun t =>
      (t.setSpdm e { t.spdm e with phase := 2 }).emit (.spdm e "CAPABILITIES" (leBytes 4 spdmFlags) 0)) ∧
  (∀ (e : SpdmEp) (a : SpdmAlgs) (s : State), s.spdmServed e = true → 2 ≤ (s.spdm e).phase → a.ecdsaP384 = true →
    a.sha384 = true → a.secp384r1 = true → a.aes256gcm = true →
    Claims.Does (.spdmNegotiateAlgorithms e a) s fun t =>
      (t.setSpdm e { t.spdm e with phase := 3 }).emit (.spdm e "ALGORITHMS" [] 0)) ∧
  (∀ (e : SpdmEp) (a : SpdmAlgs) (s : State), s.spdmServed e = true →
    (a.ecdsaP384 && a.sha384 && a.secp384r1 && a.aes256gcm) = false →
    Claims.Does (.spdmNegotiateAlgorithms e a) s fun t => t.emit (.spdmError e)) ∧
  (∀ (e : SpdmEp) (s : State), s.spdmServed e = true → 3 ≤ (s.spdm e).phase →
    Claims.Does (.spdmGetDigests e) s fun t => t.emit (.spdm e "DIGESTS" (digestBytes (sha384 Config.certChain)) 0)) ∧
  (∀ (e : SpdmEp) (o n : Nat) (s : State), s.spdmServed e = true → 3 ≤ (s.spdm e).phase →
    Claims.Does (.spdmGetCertificate e 0 o n) s fun t =>
      t.emit (.spdm e "CERTIFICATE" ((Config.certChain.drop o).take n) 0)) ∧
  (∀ (e : SpdmEp) (k o n : Nat) (s : State), s.spdmServed e = true → (s.spdm e).phase < 3 ∨ k ≠ 0 →
    Claims.Does (.spdmGetCertificate e k o n) s fun t => t.emit (.spdmError e)) ∧
  (∀ (e : SpdmEp) (n : BitVec 256) (s : State), s.spdmServed e = true → 3 ≤ (s.spdm e).phase →
    Claims.Does (.spdmChallenge e 0 n) s fun t =>
      let b := digestBytes (sha384 Config.certChain) ++ beBytes 32 n.toNat
      (t.sign b).2.emit (.spdm e "CHALLENGE_AUTH" b (t.sign b).1)) ∧
  (∀ (e : SpdmEp) (i : Nat) (n : BitVec 256) (s : State), s.spdmServed e = true → 3 ≤ (s.spdm e).phase → i ≠ 0 →
    i = 0xFF ∨ seesIndex e i = true ∧ s.measurement i ≠ none →
    Claims.Does (.spdmGetMeasurements e i true n) s fun t =>
      let b := t.measBytes e i ++ beBytes 32 n.toNat
      (t.sign b).2.emit (.spdm e "MEASUREMENTS" b (t.sign b).1)) ∧
  (∀ (e : SpdmEp) (n : BitVec 256) (s : State), s.spdmServed e = true → 3 ≤ (s.spdm e).phase →
    Claims.Does (.spdmGetMeasurements e 0 false n) s fun t =>
      t.emit (.spdm e "MEASUREMENTS" (leBytes 1 (measIndices.filter (seesIndex e)).length) 0)) ∧
  (∀ (e : SpdmEp) (s : State), s.spdmServed e = false → Claims.Does (.spdmGetVersion e) s fun t => t)

/-- SPDM sessions (11 R363, R370): KEY_EXCHANGE begins the endpoint's one session with a drawn secret; FINISH opens it when verified, under
TENANT_KEY only for a requester whose key hashes to it, and ends it otherwise; KEY_UPDATE, HEARTBEAT and END_SESSION act on the
open session alone. Over the physical function's session IDE streams are keyed, run and stopped; an integrity failure makes
a Secure stream Insecure and records 0x1B.
The model's choices here: assumptions 13, 74. -/
def Obligations.SpdmSessions : Prop :=
  (∀ (e : SpdmEp) (r : BitVec 16) (x : List Byte) (s : State), s.spdmServed e = true → 3 ≤ (s.spdm e).phase →
    (s.spdm e).session = none →
    Claims.Does (.spdmKeyExchange e r x) s fun t =>
      let id : BitVec 32 := (Config.freeWord t.draws).setWidth 16 ++ r
      let b := leBytes 4 id.toNat ++ beBytes 96 (Config.spdmExchange t.draws).toNat ++ digestBytes (sha384 x)
      let u := ({ t with draws := t.draws + 1 }).setSpdm e { t.spdm e with
        session := some id, isOpen := false, mutualAuth := false, secret := Config.exportMasterSecret t.draws, kept := none }
      (u.sign b).2.emit (.spdm e "KEY_EXCHANGE_RSP" b (u.sign b).1)) ∧
  (∀ (e : SpdmEp) (d : BitVec 384) (s : State), s.spdmServed e = true → (s.spdm e).session ≠ none →
    (s.spdm e).isOpen = false → s.tenantKey e = 0#384 ∨ d = s.tenantKey e →
    Claims.Does (.spdmFinish e true d) s fun t =>
      (t.setSpdm e { t.spdm e with isOpen := true, mutualAuth := t.tenantKey e != 0#384 }).emit
        (.spdm e "FINISH_RSP" [] 0)) ∧
  (∀ (e : SpdmEp) (ok : Bool) (d : BitVec 384) (s : State), s.spdmServed e = true → (s.spdm e).session ≠ none →
    (s.spdm e).isOpen = false → ok = false ∨ (s.tenantKey e ≠ 0#384 ∧ d ≠ s.tenantKey e) →
    Claims.Does (.spdmFinish e ok d) s fun t =>
      (t.setSpdm e { t.spdm e with session := none, secret := 0#384 }).emit (.spdmError e)) ∧
  (∀ (e : SpdmEp) (n : BitVec 32) (op : Nat) (g : BitVec 8) (s : State), s.spdmServed e = true →
    (s.spdm e).has n = true → 1 ≤ op → op ≤ 3 →
    Claims.Does (.spdmKeyUpdate e n op g) s fun t => t.emit (.spdm e "KEY_UPDATE_ACK" [BitVec.ofNat 8 op, g] 0)) ∧
  (∀ (e : SpdmEp) (n : BitVec 32) (s : State), s.spdmServed e = true → (s.spdm e).has n = true →
    Claims.Does (.spdmHeartbeat e n) s fun t => t.emit (.spdm e "HEARTBEAT_ACK" [] 0)) ∧
  (∀ (e : SpdmEp) (n : BitVec 32) (s : State), s.spdmServed e = true → (s.spdm e).has n = false →
    Claims.Does (.spdmHeartbeat e n) s fun t => t.emit (.spdmError e)) ∧
  (∀ (e : SpdmEp) (n : BitVec 32) (s : State), s.spdmServed e = true → (s.spdm e).has n = true →
    Claims.Does (.spdmEndSession e n) s fun t =>
      (t.setSpdm e { Spdm.init with phase := (t.spdm e).phase }).emit (.spdm e "END_SESSION_ACK" [] 0)) ∧
  (∀ (m : IdeKm) (s : State), s.spdmServed (.fn .pf) = true → (s.spdm (.fn .pf)).isOpen = true →
    Claims.Does (.ideKmMessage (.fn .pf) m) s fun t => (t.ideKm m).1.emit (.ideKm (t.ideKm m).2)) ∧
  (∀ (n : Nat) (k : Key) (s : State), n < 9 →
    s.ideKm (.keyProg n k) = (s.setIde n { s.ideStream n with key := some k }, true)) ∧
  (∀ (n : Nat) (s : State), s.ownerServed = true → n < 9 → (s.ideStream n).secure = true →
    Answers (.ideIntegrityFail n) s fun t =>
      (t.ideStream n).secure = false ∧ (t.ideStream n).insecure = true ∧ (t.ideStream n).key = (s.ideStream n).key ∧
      (∀ m, m ≠ n → t.ideStream m = s.ideStream m) ∧
      ∃ i r, t.flt.newest = some i ∧ Tbl.get? t.flt.hist i = some r ∧ r.code = 0x1B)

/-- Commands over messages, and the sensors (14 R449; 15 R483): a message of 18 bytes or more on an open session of a function, or on
MCTP from step 3 on, is accepted at its mailbox; one that repeats the last SEQ draws the kept response again. PLDM reads the
sensors; SMBus is released after 35 ms of low SCL.
The model's choices here: assumptions 74, 109. -/
def Obligations.MessageCommands : Prop :=
  (∀ (f : Fn) (n : BitVec 32) (b : List Byte) (s : State), s.spdmServed (.fn f) = true → (s.spdm (.fn f)).has n = true →
    18 ≤ b.length →
    (∀ q r, (s.spdm (.fn f)).kept = some (q, r) → q ≠ (messageCmd (spdmIndex (.fn f)) (.spdm (.fn f) n) b).2.seq) →
    Claims.Does (.vendorDefinedRequest (.fn f) n b) s fun t =>
      t.acceptCmd (messageCmd (spdmIndex (.fn f)) (.spdm (.fn f) n) b)) ∧
  (∀ (f : Fn) (n : BitVec 32) (b r : List Byte) (s : State), s.spdmServed (.fn f) = true → (s.spdm (.fn f)).has n = true →
    18 ≤ b.length →
    (s.spdm (.fn f)).kept = some ((messageCmd (spdmIndex (.fn f)) (.spdm (.fn f) n) b).2.seq, r) →
    Claims.Does (.vendorDefinedRequest (.fn f) n b) s fun t =>
      t.emit (.spdm (.fn f) "VENDOR_DEFINED_RESPONSE" r 0)) ∧
  (∀ (b : List Byte) (s : State), s.awake = true → 2 ≤ s.boot.stage → 18 ≤ b.length →
    (∀ q r, (s.mbox 0).mctpSeq = some (q, r) → q ≠ (messageCmd 0 .mctp b).2.seq) →
    Claims.Does (.mctpMailboxMessage b) s fun t => t.acceptCmd (messageCmd 0 .mctp b)) ∧
  (∀ (b r : List Byte) (s : State), s.awake = true → 2 ≤ s.boot.stage → 18 ≤ b.length →
    (s.mbox 0).mctpSeq = some ((messageCmd 0 .mctp b).2.seq, r) →
    Claims.Does (.mctpMailboxMessage b) s fun t => t.emit (.mctp r)) ∧
  (∀ (s : State), s.awake = true →
    Claims.Does (.pldmRequest .basin) s (fun t => t.emit (.pldm t.pins.tjMax)) ∧
    Claims.Does (.pldmRequest .cistern) s (fun t => t.emit (.pldm t.pins.tcisMax)) ∧
    Claims.Does (.pldmRequest .power) s (fun t => t.emit (.pldm t.pwr.avg)) ∧
    ∀ r, r < 7 →
      Claims.Does (.pldmRequest (.railVolt r)) s (fun t =>
        ({ t with draws := t.draws + 1 }).emit (.pldm (Config.railReading (2 * r) t.draws))) ∧
      Claims.Does (.pldmRequest (.railAmp r)) s (fun t =>
        ({ t with draws := t.draws + 1 }).emit (.pldm (Config.railReading (2 * r + 1) t.draws)))) ∧
  (∀ (n : Nat) (s : State), 35000000 < n →
    Claims.Does (.smbusTimeout n) s fun t => { t with sb := { t.sb with smbBusy := false } })

/-- The mailboxes (14 R445 to R448): a doorbell while BUSY sets OVERRUN; a SEQ that was taken before leaves the response as it is with
STATE DONE; a new one makes the mailbox BUSY and accepts the command in its area. A turn serves the next mailbox after the
last one that has a served command, its oldest first.
The model's choices here: assumptions 116. -/
def Obligations.MailboxHandshake : Prop :=
  (∀ (f : Fn) (mb : Nat) (v : BitVec 64) (s : State), s.ownerServed = true → reaches f mb = true → (s.mbox mb).state = 1 →
    Claims.Does (.mbDoorbell f mb v) s fun t => t.setMbox mb { t.mbox mb with overrun := true }) ∧
  (∀ (f : Fn) (mb : Nat) (v : BitVec 64) (s : State), s.ownerServed = true → reaches f mb = true → (s.mbox mb).state ≠ 1 →
    v.extractLsb' 0 16 = (s.mbox mb).seqTaken →
    Claims.Does (.mbDoorbell f mb v) s fun t => t.setMbox mb { t.mbox mb with state := 2 }) ∧
  (∀ (f : Fn) (mb : Nat) (v : BitVec 64) (s : State), s.ownerServed = true → reaches f mb = true → (s.mbox mb).state ≠ 1 →
    v.extractLsb' 0 16 ≠ (s.mbox mb).seqTaken →
    Claims.Does (.mbDoorbell f mb v) s fun t =>
      let c := areaCmd mb (.bar0 f (v.extractLsb' 16 12) (v.getLsbD 28)) (v.extractLsb' 0 16)
        (Memory.read (t.mbox mb).cmd 0 1024)
      t.setMbox mb { t.mbox mb with
        state := 1, seqTaken := v.extractLsb' 0 16, accepted := (t.mbox mb).accepted ++ [c] }) ∧
  (∀ (f : Fn) (mb : Nat) (v : BitVec 64) (s : State), reaches f mb = false →
    exec (.mbDoorbell f mb v) s = .next { s with out := [] }) ∧
  (∀ (s : State) (m : Nat) (c : BitVec 16 × AgtanCmd) (l : List (BitVec 16 × AgtanCmd)) (i : Nat), i < 17 →
    m = (s.mbNext + i) % 17 → (s.mbox m).accepted = c :: l → s.mailServed c.2 = true →
    (∀ j < i, (s.mbox ((s.mbNext + j) % 17)).accepted = []) →
    Claims.Does .mailboxTurn s fun t =>
      ({ t.updMbox m fun x => { x with accepted := l } with mbNext := (m + 1) % 17 }).runCmd c.1 c.2) ∧
  (∀ (s : State), (∀ j < 17, (s.mbox ((s.mbNext + j) % 17)).accepted = []) →
    exec .mailboxTurn s = .next { s with out := [] })

/-- BAR2 (14 R444, 12 R384, R385, 10 R318). A read that the physical function makes answers the bytes of the range; where a grain
that it touches fails its checks, the grain is contained and the data is poisoned. A write merges its bytes into the grains, which take
new carry tags, and is mirrored under the partition that owns them; it is refused whole where a partly written grain fails. With BAR2 off,
or on grains that the node has allocated, a write completes with Unsupported Request and counts; a read does so with BAR2 off. A virtual
function's access completes with Unsupported Request (PRESUMED of PCI Express, assumption 117), and one that is not served has no effect. -/
def Obligations.Bar2Accesses : Prop :=
  (∀ (a : BitVec 39) (n : Nat) (e : EccReport) (s : State), s.bar2Served a.toNat n = true → s.bar2Off = false →
    Claims.Does (.bar2Read .pf a n e) s fun t =>
      let gs := grainsOf a.toNat n
      let u := t.each gs fun t g => if (eccCorrected e g).isEmpty then t else t.noteCorrected e 1 (grainChannel g) g
      (u.each (t.rangeFaults e gs) State.failCheck).emit
        (.bar2Data (t.readBytes a.toNat n) (!(t.rangeFaults e gs).isEmpty))) ∧
  (∀ (a : BitVec 39) (n : Nat) (e : EccReport) (s : State), s.bar2Served a.toNat n = true → s.bar2Off = true →
    Claims.Does (.bar2Read .pf a n e) s State.bar2Blocked) ∧
  (∀ (f : Fn) (a : BitVec 39) (n : Nat) (e : EccReport) (s : State), s.bar2Served a.toNat n = true → f ≠ .pf →
    Claims.Does (.bar2Read f a n e) s fun t => t.emit .unsupportedRequest) ∧
  (∀ (f : Fn) (a : BitVec 39) (n : Nat) (e : EccReport) (s : State), s.bar2Served a.toNat n = false →
    Claims.Does (.bar2Read f a n e) s id) ∧
  (∀ (a : BitVec 39) (l : List Byte) (e : EccReport) (s : State), s.bar2Served a.toNat l.length = true →
    s.bar2Off = false → (∀ g ∈ grainsOf a.toNat l.length, s.allocOf g = none) → s.writeRefused e a.toNat l = none →
    Claims.Does (.bar2Write .pf a l e) s fun t => (t.writeGrains a.toNat l).mirrorBar2 a.toNat l.length) ∧
  (∀ (a : BitVec 39) (l : List Byte) (e : EccReport) (s : State) (x : Nat × Nat × Word64), s.bar2Served a.toNat l.length = true →
    s.bar2Off = false → (∀ g ∈ grainsOf a.toNat l.length, s.allocOf g = none) → s.writeRefused e a.toNat l = some x →
    Claims.Does (.bar2Write .pf a l e) s fun t => t.partialRefused x) ∧
  (∀ (a : BitVec 39) (l : List Byte) (e : EccReport) (s : State), s.bar2Served a.toNat l.length = true →
    (s.bar2Off = true ∨ ∃ g ∈ grainsOf a.toNat l.length, (s.allocOf g).isSome = true) →
    Claims.Does (.bar2Write .pf a l e) s State.bar2Blocked) ∧
  (∀ (f : Fn) (a : BitVec 39) (l : List Byte) (e : EccReport) (s : State), s.bar2Served a.toNat l.length = true → f ≠ .pf →
    Claims.Does (.bar2Write f a l e) s fun t => t.emit .unsupportedRequest) ∧
  (∀ (f : Fn) (a : BitVec 39) (l : List Byte) (e : EccReport) (s : State), s.bar2Served a.toNat l.length = false →
    Claims.Does (.bar2Write f a l e) s id)

/-- Registers (00 R6, R8, 13 R430, 12 R403, 07 R215, R217, 14 R443 to R447, 03 R90, R98, R99, R103, R110, 10 R329). A write reaches
the writable bits of the register it names: PWR_CFG and JET_SCHED_CFG without their RsvdZ bits, FLT_CTL with the two clears that its bits ask for, the tick
settings into the set that the physical function stages, SYNC_FAULT and CFG_MISMATCH by writing 1, and of a mailbox that the function reaches its
command area, its doorbell and, by writing 1, OVERRUN. Every other BAR0 register that the model holds is read-only: a write to it has no effect, and so has a
write by a function that does not reach the register, one that is no whole register, or one before PCIe is up. A jet's register space takes slot
words, refused and counted while the jet is isolated, JET_CTL, JET_READYCLR, the row file, staging and, while the jet is idle, the
microprogram store, which sets PROG_OK where every word is the one that the library and the partition's program give it.
The model's choices here: assumptions 100, 118, 138, 148. -/
def Obligations.RegisterWrites : Prop :=
  (∀ (v : BitVec 64) (s : State), s.ownerServed = true →
    Claims.Does (.registerWrite (.bar0 .pf 0x1F020) v) s fun t => { t with pwr := { t.pwr with cfg := v &&& pwrMask } }) ∧
  (∀ (v : BitVec 64) (s : State), s.ownerServed = true →
    Claims.Does (.registerWrite (.bar0 .pf 0x200008) v) s fun t =>
      let t := { t with flt := { t.flt with ctl := v &&& 0xFFFFFF#64 } }
      let t := if v.getLsbD 24 then t.clearFirst else t
      if v.getLsbD 25 then t.clearHist else t) ∧
  (∀ (v : BitVec 64) (s : State), s.ownerServed = true →
    Claims.Does (.registerWrite (.bar0 .pf 0x300010) v) s (fun t => (t.stageItems 0 [.period (fld v 0 20)]).2) ∧
    Claims.Does (.registerWrite (.bar0 .pf 0x300018) v) s (fun t => (t.stageItems 0 [.origin v.toNat]).2) ∧
    Claims.Does (.registerWrite (.bar0 .pf 0x300020) v) s (fun t => (t.stageItems 0 [.fepoch (fld v 0 32)]).2)) ∧
  (∀ (v : BitVec 64) (s : State), s.ownerServed = true →
    Claims.Does (.registerWrite (.bar0 .pf 0x300028) v) s fun t =>
      { t with clk := { t.clk with syncFault := t.clk.syncFault && !v.getLsbD 2 } }) ∧
  (∀ (f : Fn) (m k : Nat) (v : BitVec 64) (s : State), s.ownerServed = true → m ≤ 16 → reaches f m = true →
    (k < 128 → Claims.Does (.registerWrite (.bar0 f (BitVec.ofNat 26 (4096 * m + 8 * k))) v) s fun t => t.updMbox m fun x =>
      { x with cmd := Memory.write x.cmd (8 * k) (leBytes 8 v.toNat) }) ∧
    Claims.Does (.registerWrite (.bar0 f (BitVec.ofNat 26 (4096 * m + 0xC00))) v) s (doMbDoorbell f m v) ∧
    Claims.Does (.registerWrite (.bar0 f (BitVec.ofNat 26 (4096 * m + 0xC08))) v) s (fun t =>
      if v.getLsbD 2 then t.updMbox m fun x => { x with overrun := false } else t) ∧
    (128 ≤ k → k < 512 → k ≠ 384 → k ≠ 385 → Claims.Does (.registerWrite (.bar0 f (BitVec.ofNat 26 (4096 * m + 8 * k))) v) s id)) ∧
  (∀ (f : Fn) (o : BitVec 26) (v : BitVec 64) (s : State),
    s.ownerServed = false ∨ o.toNat % 8 ≠ 0 ∨ (o.toNat < 0x11000 ∧ reaches f (o.toNat / 0x1000) = false) ∨ (0x11000 ≤ o.toNat ∧ f ≠ .pf) ∨
      (0x11000 ≤ o.toNat ∧ o.toNat ∉ [0x1F020, 0x200008, 0x300010, 0x300018, 0x300020, 0x300028]) →
    Claims.Does (.registerWrite (.bar0 f o) v) s id) ∧
  (∀ (v : BitVec 64) (s : State),
    (s.ownerServed = true → Claims.Does (.registerWrite .twinStat v) s fun t =>
      { t with twin := { t.twin with cfgMismatch := t.twin.cfgMismatch && !v.getLsbD 3 } }) ∧
    (s.ownerServed = false → Claims.Does (.registerWrite .twinStat v) s id)) ∧
  (∀ (ch : Nat) (v : BitVec 64) (s : State),
    (s.awake = true ∧ ch < 128 → Claims.Does (.registerWrite (.jetSched ch) v) s fun t =>
      { t with jetSched := Tbl.set t.jetSched ch (v &&& schedMask) }) ∧
    (s.awake = false ∨ 128 ≤ ch → Claims.Does (.registerWrite (.jetSched ch) v) s id) ∧
    Claims.Does (.registerWrite (.jetReadyV ch) v) s id) ∧
  (∀ (j : Nat) (o : BitVec 18) (v : BitVec 64) (s : State), s.awake = true → j < 8192 →
    (o.toNat < 0x20000 ∨ 0x22000 ≤ o.toNat ∨ (s.jet j).idle = false →
      Claims.Does (.registerWrite (.jet j o) v) s fun t => t.setJet j ((t.jet j).writeReg o.toNat v)) ∧
    (0x20000 ≤ o.toNat → o.toNat < 0x22000 → (s.jet j).idle = true →
      Claims.Does (.registerWrite (.jet j o) v) s fun t =>
        ((t.updJet j fun x => x.writeReg o.toNat v).updJet j fun x => { x with progOk := storeOk x.store (t.jetStore j) }).libDone j)) ∧
  (∀ (j : Nat) (o : BitVec 18) (v : BitVec 64) (s : State), s.awake = false ∨ 8192 ≤ j →
    Claims.Does (.registerWrite (.jet j o) v) s id) ∧
  (∀ (x : Jet) (v : BitVec 64) (k : Nat),
    (k < 128 → x.isolated = false → x.writeReg (8 * k) v = x.writeSlotWord (8 * k) v) ∧
    (k < 128 → x.isolated = true → x.writeReg (8 * k) v = { x with refused := satAdd 64 x.refused 1 }) ∧
    x.writeReg 0x400 v = (bitsOf (v >>> 16) 16).foldl Jet.stopSlot ((bitsOf v 16).foldl Jet.goSlot x) ∧
    x.writeReg 0x408 v = (bitsOf v 16).foldl Jet.clearReady x ∧
    (k < 512 → x.writeReg (0x1000 + 8 * k) v = { x with rowFile := Tbl.set x.rowFile k v }) ∧
    (k < 2048 → x.writeReg (0x4000 + 8 * k) v = { x with staging := Memory.write x.staging (8 * k) (leBytes 8 v.toNat) }) ∧
    (k < 1024 → x.idle = true → x.writeReg (0x20000 + 8 * k) v =
      { x with store := Tbl.set (Tbl.set x.store (2 * k) (v.extractLsb' 0 32)) (2 * k + 1) (v.extractLsb' 32 32) }) ∧
    (∀ o, o % 8 ≠ 0 ∨ (0x410 ≤ o ∧ o < 0x1000) ∨ (0x2000 ≤ o ∧ o < 0x4000) ∨ (0x8000 ≤ o ∧ o < 0x20000) ∨ 0x22000 ≤ o ∨
      (0x20000 ≤ o ∧ x.idle = false) → x.writeReg o v = x))

/-- The slots of a jet (03 R91, R92, R95, R97, R99, R110). GO queues a free slot and marks a protocol error on one that is not free; STOP
ends a queued slot STOPPED and asks a running one to stop; READY_CLEAR frees a slot that has ended and releases the accumulator that
holds its partial. SLOT_START runs the oldest queued slot from its kernel's entry address with its registers cleared, or ends it
with FORMAT where a field of its command is not admitted. MICROPROGRAM_WRITE reloads the store of an idle jet, which sets PROG_OK where the
digests of what it holds agree.
The model's choices here: assumptions 9, 44. -/
def Obligations.JetSlotCommands : Prop :=
  (∀ (j n : Nat) (s : State), s.awake = true → j < 8192 → (s.jet j).isolated = false → (s.jet j).slotFree (n % 16) = true →
    Claims.Does (.go j n) s fun t => t.setJet j { t.jet j with queue := (t.jet j).queue ++ [n % 16] }) ∧
  (∀ (j n : Nat) (s : State), s.awake = true → j < 8192 → (s.jet j).isolated = false → (s.jet j).slotFree (n % 16) = false →
    Claims.Does (.go j n) s fun t => t.setJet j { t.jet j with fault := { (t.jet j).fault with protocol := true } }) ∧
  (∀ (j n : Nat) (s : State), s.awake = true → j < 8192 → n % 16 ∈ (s.jet j).queue →
    Claims.Does (.stop j n) s fun t => t.setJet j
      { (t.jet j).toDone (n % 16) rsStopped 0 0#8 with queue := (t.jet j).queue.filter (· != n % 16) }) ∧
  (∀ (j n : Nat) (s : State), s.awake = true → j < 8192 → n % 16 ∉ (s.jet j).queue → (s.jet j).running = some (n % 16) →
    (s.jet j).stopTaken = false → Claims.Does (.stop j n) s fun t => t.setJet j { t.jet j with stopPend := true }) ∧
  (∀ (j n : Nat) (s : State), s.awake = true → j < 8192 → (s.jet j).ready.getLsbD (n % 16) = true →
    Claims.Does (.readyClear j n) s fun t => t.setJet j { t.jet j with
      ready := (t.jet j).ready &&& ~~~ readyBit (n % 16)
      accBusy := (t.jet j).accBusy && (t.jet j).accSlot != some (n % 16)
      accSlot := if (t.jet j).accSlot == some (n % 16) then none else (t.jet j).accSlot }) ∧
  (∀ (j n : Nat) (l : List Nat) (s : State), s.awake = true → j < 8192 → (s.jet j).isolated = false → (s.jet j).running = none →
    (s.jet j).queue = n :: l →
    commandOk ((s.jet j).slot n) ((s.jet j).kernelLoaded (slKernel ((s.jet j).slot n))) (s.ownerOfGroup (jetGroup j)) = true →
    Claims.Does (.slotStart j) s fun t => t.setJet j { t.jet j with
      queue := (t.jet j).queue.filter (· != n), running := some n, regs := [], segs := [], bases := [], stopPend := false,
      stopTaken := false, causes := [], pc := BitVec.ofNat 11 (slKernel ((t.jet j).slot n)), startAt := t.clk.up }) ∧
  (∀ (j n : Nat) (l : List Nat) (s : State), s.awake = true → j < 8192 → (s.jet j).isolated = false → (s.jet j).running = none →
    (s.jet j).queue = n :: l →
    commandOk ((s.jet j).slot n) ((s.jet j).kernelLoaded (slKernel ((s.jet j).slot n))) (s.ownerOfGroup (jetGroup j)) = false →
    Claims.Does (.slotStart j) s fun t => t.setJet j { (t.jet j).toDone n rsFormat 0 0#8 with
      queue := l
      fault := { JetFault.init with slot := n, result := rsFormat, protocol := (t.jet j).fault.protocol } }) ∧
  (∀ (j : Nat) (s : State), s.awake = true → j < 8192 → (s.jet j).queue = [] → (s.jet j).running = none → (s.jet j).ready = 0#16 →
    Claims.Does (.microprogramWrite j) s fun t =>
      (t.setJet j { t.jet j with store := t.jetStore j, progOk := storeOk (t.jetStore j) (t.jetStore j) }).libDone j)

/-- Sharing of the bank pair, hangs and reset of a jet (03 R100 to R102, R123, R125, 11 R357, R359, 12 R396). YREQ gives the pair to the
scheduler for YIELD_COLS columns, and its fall gives it back for the reads that the jet has issued. An ordinary access goes through the
owner gate of its channel while OWN is low and columns are left; one that the gate refuses is counted and fences the partition of its tag.
A limit passed or a register access without an answer isolates the jet, ends its slots ABORTED and raises JET_HANG. JET_RESET
collects its slots, clears the jet and readmits it where its self-tests pass and its store's digests agree; else it stays isolated and
JET_BIST is raised.
The model's choices here: assumptions 51, 81. -/
def Obligations.JetPairAndHangs : Prop :=
  (∀ (j : Nat) (s : State), s.awake = true → j < 8192 → (s.jet j).yreq = false → (s.jet j).isolated = false →
    (s.jet j).segSince = true → (s.jet j).own = false →
    Claims.Does (.yreqRaise j) s fun t => t.setJet j { t.jet j with yreq := true, colsLeft := t.yieldCols j }) ∧
  (∀ (j : Nat) (s : State), s.awake = true → j < 8192 → (s.jet j).yreq = true → (s.jet j).own = false →
    Claims.Does (.yreqDrop j) s fun t => t.setJet j { t.jet j with
      yreq := false, yielded := (t.jet j).yielded && (t.jet j).inFlight.isNone, segSince := false, colsLeft := 0
      own := (t.jet j).inFlight.isSome }) ∧
  (∀ (j : Nat) (a : OrdAccess) (s : State), s.awake = true → j < 8192 → grainJet a.grain = j → (s.jet j).own = false →
    ((s.jet j).yreq = false ∨ a.cols ≤ (s.jet j).colsLeft) →
    s.gateAdmits (jetChannel j) a.tag (decide (a.kind = .hostRead)) = true → ordWrites a.kind = true → a.bytes ≠ [] →
    Claims.Does (.ordinaryAccess j a) s fun t =>
      (t.putGrain a.grain (t.isMeta a.grain) (t.wgenOf a.grain (t.isMeta a.grain)) (patch (t.grain a.grain) 0 a.bytes)).updJet j
        fun y => { y with colsLeft := y.colsLeft - a.cols }) ∧
  (∀ (j : Nat) (a : OrdAccess) (s : State), s.awake = true → j < 8192 → grainJet a.grain = j → (s.jet j).own = false →
    ((s.jet j).yreq = false ∨ a.cols ≤ (s.jet j).colsLeft) →
    s.gateAdmits (jetChannel j) a.tag (decide (a.kind = .hostRead)) = true → ordWrites a.kind = false →
    Claims.Does (.ordinaryAccess j a) s fun t => t.setJet j { t.jet j with colsLeft := (t.jet j).colsLeft - a.cols }) ∧
  (∀ (j : Nat) (a : OrdAccess) (s : State), s.awake = true → j < 8192 → grainJet a.grain = j → (s.jet j).own = false →
    ((s.jet j).yreq = false ∨ a.cols ≤ (s.jet j).colsLeft) →
    s.gateAdmits (jetChannel j) a.tag (decide (a.kind = .hostRead)) = false →
    Claims.Does (.ordinaryAccess j a) s fun t =>
      ((t.fault { code := 0x20, srcKind := 12, srcIndex := jetChannel j, part := some (a.tag.toNat % 16), addr := 0, syndrome := 0#64,
                  place := none }).count cGateRefuse 1).fence (a.tag.toNat % 16)) ∧
  (∀ (j c : Nat) (s : State), s.awake = true → j < 8192 → (s.jet j).own = true → (s.jet j).yreq = true → s.ownLimit j < c →
    Claims.Does (.ownLimitExpiry j c) s fun t => (t.updJet j Jet.isolate).fault
      { code := 0x11, srcKind := 0, srcIndex := t.jetSource j, part := t.ownerOfGroup (jetGroup j), addr := 0,
        syndrome := 0#64, place := some (.jet j) }) ∧
  (∀ (j c n : Nat) (s : State), s.awake = true → j < 8192 → (s.jet j).running = some n → s.sweepLimit j < c →
    Claims.Does (.sweepLimitExpiry j c) s fun t => (t.updJet j Jet.isolate).fault
      { code := 0x11, srcKind := 0, srcIndex := t.jetSource j, part := t.ownerOfGroup (jetGroup j), addr := 0,
        syndrome := 0#64, place := some (.jet j) }) ∧
  (∀ (j n : Nat) (s : State), s.awake = true → j < 8192 → 1000 < n →
    Claims.Does (.jetResponseTimeout j n) s fun t => (t.updJet j Jet.isolate).fault
      { code := 0x11, srcKind := 0, srcIndex := t.jetSource j, part := t.ownerOfGroup (jetGroup j), addr := 0,
        syndrome := 0#64, place := some (.jet j) }) ∧
  (∀ (j : Nat) (s : State), s.awake = true → s.boot.computeDone = true → j < 8192 →
    Claims.Does (.jetReset j true true) s fun t =>
      let u := t.updJet j Jet.isolate
      let u := u.each ((u.slc.cmds.filter fun c => c.2.jet == j).filterMap fun c => c.2.slot) fun u n => doSlotCollect j n u
      let v := u.setJet j { Jet.init with store := u.jetStore j, progOk := storeOk (u.jetStore j) (u.jetStore j) }
      if (v.jet j).progOk then v.placeCmds j 16 else v.failJet j) ∧
  (∀ (j : Nat) (a b : Bool) (s : State), s.awake = true → s.boot.computeDone = true → j < 8192 → (a && b) = false →
    Claims.Does (.jetReset j a b) s fun t =>
      let u := t.updJet j Jet.isolate
      let u := u.each ((u.slc.cmds.filter fun c => c.2.jet == j).filterMap fun c => c.2.slot) fun u n => doSlotCollect j n u
      (u.setJet j { Jet.init with store := u.jetStore j, progOk := storeOk (u.jetStore j) (u.jetStore j) }).failJet j) ∧
  (∀ (j : Nat) (t : State), t.failJet j = (t.updJet j Jet.isolate).fault
    { code := 0x12, srcKind := 0, srcIndex := t.jetSource j, part := t.ownerOfGroup (jetGroup j), addr := 0,
      syndrome := 0#64, place := none })

/-- Jet `j`, not isolated, runs slot `n`. -/
def Claims.Runs (j n : Nat) (s : State) : Prop :=
  s.awake = true ∧ j < 8192 ∧ (s.jet j).isolated = false ∧ (s.jet j).running = some n

/-- R111 lets slot `n` of a jet go to the target of `imm`: a partition kernel stays in the upper half of the store or at
its own entry, any other kernel in the lower half. -/
def Claims.MayGo (x : Jet) (n : Nat) (imm : BitVec 18) : Prop :=
  if 16 ≤ slKernel (x.slot n) then 1024 ≤ (imm.setWidth 11).toNat ∨ (imm.setWidth 11).toNat = slKernel (x.slot n)
  else (imm.setWidth 11).toNat < 1024

/-- The control instructions of a jet (03 R111 to R113). NOP, LI, ADD, GETS and GETE move PC on and write the register they name, S0 reading
as 0 and ignoring writes; a slot value, entry or field that is not there ends the slot with FORMAT. BEQ, BNE, JMP and STOPB go to
their target, or end the slot with ILLEGAL where R111 forbids it; a branch not taken moves on; STOPB takes a pending STOP once.
A reserved opcode ends the slot with ILLEGAL.
The model's choices here: assumptions 53. -/
def Obligations.JetControl : Prop :=
  (∀ (x : Jet) (a b : BitVec 4) (v : Word32), x.reg 0#4 = 0#32 ∧ x.setReg 0#4 v = x ∧
    (a ≠ 0#4 → (x.setReg a v).reg a = v) ∧ (b ≠ a → (x.setReg a v).reg b = x.reg b)) ∧
  (∀ (j n : Nat) (s : State), Claims.Runs j n s →
    Claims.Does (.nop j) s fun t => t.setJet j { t.jet j with pc := (t.jet j).pc + 1#11 }) ∧
  (∀ (j n : Nat) (a : BitVec 4) (imm : BitVec 18) (s : State), Claims.Runs j n s →
    Claims.Does (.li j a imm) s fun t => t.setJet j ((t.jet j).setReg a (imm.signExtend 32)).step) ∧
  (∀ (j n : Nat) (a b : BitVec 4) (imm : BitVec 18) (s : State), Claims.Runs j n s →
    Claims.Does (.add j a b imm) s fun t => t.setJet j ((t.jet j).setReg a ((t.jet j).reg b + imm.signExtend 32)).step) ∧
  (∀ (j n v : Nat) (a : BitVec 4) (imm : BitVec 18) (s : State), Claims.Runs j n s →
    slotValue ((s.jet j).slot n) imm.toNat = some v →
    Claims.Does (.gets j a imm) s fun t => t.setJet j ((t.jet j).setReg a (BitVec.ofNat 32 v)).step) ∧
  (∀ (j n : Nat) (a : BitVec 4) (imm : BitVec 18) (s : State), Claims.Runs j n s → 7 ≤ imm.toNat →
    Claims.Does (.gets j a imm) s fun t => t.endJet j n rsFormat (faultAt 0)) ∧
  (∀ (j n e v : Nat) (a b : BitVec 4) (imm : BitVec 18) (s : State), Claims.Runs j n s → (s.jet j).entryAt n b = some e →
    entryValue (slEntry ((s.jet j).slot n) e) imm.toNat = some v →
    Claims.Does (.gete j a b imm) s fun t => t.setJet j ((t.jet j).setReg a (BitVec.ofNat 32 v)).step) ∧
  (∀ (j n : Nat) (a b : BitVec 4) (imm : BitVec 18) (s : State), Claims.Runs j n s →
    (slNent ((s.jet j).slot n) ≤ ((s.jet j).reg b).toNat ∨ 4 ≤ imm.toNat) →
    Claims.Does (.gete j a b imm) s fun t => t.endJet j n rsFormat (faultAt 0)) ∧
  (∀ (j n : Nat) (imm : BitVec 18) (s : State), Claims.Runs j n s → Claims.MayGo (s.jet j) n imm →
    Claims.Does (.jmp j imm) s (fun t => t.setJet j { t.jet j with pc := imm.setWidth 11 }) ∧
    (∀ (a b : BitVec 4), (s.jet j).reg a = (s.jet j).reg b →
      Claims.Does (.beq j a b imm) s fun t => t.setJet j { t.jet j with pc := imm.setWidth 11 }) ∧
    (∀ (a b : BitVec 4), (s.jet j).reg a ≠ (s.jet j).reg b →
      Claims.Does (.bne j a b imm) s fun t => t.setJet j { t.jet j with pc := imm.setWidth 11 }) ∧
    ((s.jet j).stopPend = true → (s.jet j).stopTaken = false → Claims.Does (.stopb j imm) s fun t => t.setJet j
      { t.jet j with pc := imm.setWidth 11, stopPend := false, stopTaken := true })) ∧
  (∀ (j n : Nat) (imm : BitVec 18) (s : State), Claims.Runs j n s → ¬ Claims.MayGo (s.jet j) n imm →
    Claims.Does (.jmp j imm) s (fun t => t.endJet j n rsIllegal (faultAt 0)) ∧
    (∀ (a b : BitVec 4), (s.jet j).reg a = (s.jet j).reg b →
      Claims.Does (.beq j a b imm) s fun t => t.endJet j n rsIllegal (faultAt 0)) ∧
    (∀ (a b : BitVec 4), (s.jet j).reg a ≠ (s.jet j).reg b →
      Claims.Does (.bne j a b imm) s fun t => t.endJet j n rsIllegal (faultAt 0)) ∧
    ((s.jet j).stopPend = true → (s.jet j).stopTaken = false → Claims.Does (.stopb j imm) s fun t =>
      (t.setJet j { t.jet j with stopPend := false, stopTaken := true }).endJet j n rsIllegal (faultAt 0))) ∧
  (∀ (j n : Nat) (imm : BitVec 18) (s : State), Claims.Runs j n s →
    (∀ (a b : BitVec 4), (s.jet j).reg a ≠ (s.jet j).reg b →
      Claims.Does (.beq j a b imm) s fun t => t.setJet j { t.jet j with pc := (t.jet j).pc + 1#11 }) ∧
    (∀ (a b : BitVec 4), (s.jet j).reg a = (s.jet j).reg b →
      Claims.Does (.bne j a b imm) s fun t => t.setJet j { t.jet j with pc := (t.jet j).pc + 1#11 }) ∧
    ((s.jet j).stopPend = false ∨ (s.jet j).stopTaken = true →
      Claims.Does (.stopb j imm) s fun t => t.setJet j { t.jet j with pc := (t.jet j).pc + 1#11 })) ∧
  (∀ (j n : Nat) (o : BitVec 6) (s : State), Claims.Runs j n s → o.toNat ∉ jetOpcodes →
    Claims.Does (.reservedOpcode j o) s fun t => t.endJet j n rsIllegal (faultAt 0))

/-- Segment reads and the end of a slot (03 R97, R99, R100, R102, R113, R115 to R118). END ends the running slot OK, or STOPPED where it took a STOP, and
FAIL ends it with FORMAT; READY is set, nothing runs, and a slot that fails keeps no partial. CLRP and CLRA clear what they name, CLRA
waiting while the accumulator holds a partial. RDK, RDV, RDBK and RDBV issue the read of a segment, which raises OWN, and wait while two segments
are held or YREQ is high; the wrong kind of entry, a base half never asked for and an entry out of range are FORMAT. When a read ends, its
grains are checked, the whole of each by VERIFY: a segment that passes stands for its instruction; one that fails without SKIPBAD ends the
slot.
The model's choices here: assumptions 50, 54. -/
def Obligations.JetSegments : Prop :=
  (∀ (x : Jet) (n r : Nat), (x.finish n r).running = none ∧ (x.finish n r).ready = x.ready ||| readyBit n ∧
    (x.finish n r).own = false ∧ (x.finish n r).segs = [] ∧ (x.finish n r).stopPend = false ∧
    (r ≠ rsOk → r ≠ rsStopped → (x.finish n r).accSlot ≠ some n) ∧ ((r = rsOk ∨ r = rsStopped) → (x.finish n r).accSlot = x.accSlot)) ∧
  (∀ (j n : Nat) (s : State), Claims.Runs j n s →
    Claims.Does (.endSlot j) s fun t => t.endJet j n (if (t.jet j).stopTaken then rsStopped else rsOk) (faultAt 0)) ∧
  (∀ (j n : Nat) (s : State), Claims.Runs j n s → Claims.Does (.failSlot j) s fun t => t.endJet j n rsFormat (faultAt 0)) ∧
  (∀ (j n : Nat) (s : State), Claims.Runs j n s →
    Claims.Does (.clrp j) s fun t => t.setJet j { t.jet j with
      rowMax := (List.range 128).map fun r => (r, f32NegInf)
      rowSum := [], badMask := 0#8, pagesDone := 0, pc := (t.jet j).pc + 1#11 }) ∧
  (∀ (j n : Nat) (s : State), Claims.Runs j n s → (s.jet j).accBusy = false →
    Claims.Does (.clra j) s fun t => t.setJet j { t.jet j with acc := [], pc := (t.jet j).pc + 1#11 }) ∧
  (∀ (j n : Nat) (s : State), Claims.Runs j n s → (s.jet j).accBusy = true → Claims.Does (.clra j) s id) ∧
  (∀ (j n e : Nat) (a : BitVec 4) (s : State), Claims.Runs j n s → (s.jet j).entryAt n a = some e →
    enKind (slEntry ((s.jet j).slot n) e) = 0 → (s.jet j).badMask.getLsbD e = false → (s.jet j).segs.length < 2 → (s.jet j).yreq = false →
    Claims.Does (.rdk j a) s (fun t => t.setJet j { t.jet j with
      segs := (t.jet j).segs ++ [{ entry := e, isV := false, isBase := false, done := false, rows := [] }]
      own := true, pc := (t.jet j).pc + 1#11 }) ∧
    Claims.Does (.rdv j a) s fun t => t.setJet j { t.jet j with
      segs := (t.jet j).segs ++ [{ entry := e, isV := true, isBase := false, done := false, rows := [] }]
      own := true, pc := (t.jet j).pc + 1#11 }) ∧
  (∀ (j n e : Nat) (a : BitVec 4) (s : State), Claims.Runs j n s → (s.jet j).entryAt n a = some e →
    enKind (slEntry ((s.jet j).slot n) e) = 2 → (s.jet j).segs.length < 2 → (s.jet j).yreq = false →
    Claims.Does (.rdbk j a) s (fun t => t.setJet j { t.jet j with
      segs := (t.jet j).segs ++ [{ entry := e, isV := false, isBase := true, done := false, rows := [] }]
      own := true, pc := (t.jet j).pc + 1#11 }) ∧
    Claims.Does (.rdbv j a) s fun t => t.setJet j { t.jet j with
      segs := (t.jet j).segs ++ [{ entry := e, isV := true, isBase := true, done := false, rows := [] }]
      own := true, pc := (t.jet j).pc + 1#11 }) ∧
  (∀ (j n e : Nat) (a : BitVec 4) (s : State), Claims.Runs j n s → (s.jet j).entryAt n a = some e →
    (enKind (slEntry ((s.jet j).slot n) e) = 0 → (s.jet j).badMask.getLsbD e = false → 2 ≤ (s.jet j).segs.length ∨ (s.jet j).yreq = true →
      Claims.Does (.rdk j a) s id ∧ Claims.Does (.rdv j a) s id) ∧
    (enKind (slEntry ((s.jet j).slot n) e) = 2 → 2 ≤ (s.jet j).segs.length ∨ (s.jet j).yreq = true →
      Claims.Does (.rdbk j a) s id ∧ Claims.Does (.rdbv j a) s id) ∧
    (enKind (slEntry ((s.jet j).slot n) e) = 2 → Claims.Does (.rdk j a) s (fun t => t.endJet j n rsFormat (faultAt 0)) ∧
      Claims.Does (.rdv j a) s fun t => t.endJet j n rsFormat (faultAt 0)) ∧
    (enKind (slEntry ((s.jet j).slot n) e) ≠ 2 → Claims.Does (.rdbk j a) s (fun t => t.endJet j n rsFormat (faultAt e)) ∧
      Claims.Does (.rdbv j a) s fun t => t.endJet j n rsFormat (faultAt e)) ∧
    (enKind (slEntry ((s.jet j).slot n) e) = 1 → (s.jet j).badMask.getLsbD e = false → (s.jet j).bases = [] → (s.jet j).segs = [] →
      Claims.Does (.rdk j a) s (fun t => t.endJet j n rsFormat (faultAt e)) ∧
      Claims.Does (.rdv j a) s fun t => t.endJet j n rsFormat (faultAt e))) ∧
  (∀ (j n : Nat) (a : BitVec 4) (s : State), Claims.Runs j n s → (s.jet j).entryAt n a = none →
    Claims.Does (.rdk j a) s (fun t => t.endJet j n rsFormat (faultAt 0)) ∧
    Claims.Does (.rdv j a) s (fun t => t.endJet j n rsFormat (faultAt 0)) ∧
    Claims.Does (.rdbk j a) s (fun t => t.endJet j n rsFormat (faultAt 0)) ∧
    Claims.Does (.rdbv j a) s fun t => t.endJet j n rsFormat (faultAt 0)) ∧
  (∀ (j n : Nat) (q : EccReport) (g : Seg) (s : State), Claims.Runs j n s → (s.jet j).inFlight = some g →
    (s.jet j).own = true → Claims.Does (.segmentReadDone j q) s fun t =>
      let v := (t.jet j).slot n
      let e := slEntry v g.entry
      let first := j * 2 ^ 17 + enRun e
      let gs := segGrains first (enPfmt v e) (slHdim v) g.isV
      let seen := if slKernel v = 2 then q
        else { q with ce := q.ce.filter (t.segReads first (enPfmt v e) (slHdim v) g.isV) }
      let u := t.each gs fun u k => u.noteCorrected seen 0 (t.jetSource j) k
      match (if slKernel v = 2 then u.verifyFails q gs (first + runLen (enPfmt v e) (slHdim v) - 1) (enWgen e) else none) with
      | some c => u.segFail j n g c
      | none =>
        match u.readHalf q first (enPfmt v e) (slHdim v) (enWgen e) g.isV with
        | .ok rows => u.segOk j n g rows
        | .error c => u.segFail j n g c) ∧
  (∀ (j n : Nat) (g : Seg) (c : Failing) (t : State), slSkipbad ((t.jet j).slot n) = false →
    ∃ f : JetFault, f.grain = c.2.1 ∧ f.syndrome = recordedSyn c ∧ f.entry = g.entry ∧
      t.segFail j n g c = (t.failGrain c.1 0 (t.jetSource j) c.2.1 c.2.2).endJet j n (resultOfCode c.1) f)

/-- The attention instructions of a jet (03 R86 to R88, R106 to R108, R113, R117, R118). QK takes the K segment of an entry, scores each row
against its tokens and raises the row maxima; a token outside the row's session, beyond VALID_M1 or outside the window scores
-infinity. EXPS puts e^(s - m) in place of the scores and adds to the row sums, and waits for the V segment of its entry. PV takes the V
segment, adds the weighted values to the accumulator and counts a page; it waits while the accumulator holds a partial. EMIT hands the maxima,
the sums and the accumulator over as the slot's partial when the residue check passes; otherwise the slot ends RESIDUE, JET_RESIDUE is
raised and the jet is isolated. An instruction whose segment has not come waits, and one whose segment was never asked for ends the slot with FORMAT.
The model's choices here: assumptions 50, 52, 54. -/
def Obligations.JetAttention : Prop :=
  (∀ (j n e : Nat) (a : BitVec 4) (g : Seg) (s : State), Claims.Runs j n s → (s.jet j).entryAt n a = some e →
    (s.jet j).findSeg e false = some g → g.done = true →
    Claims.Does (.qk j a) s fun t =>
      let v := (t.jet j).slot n
      let r := ((t.jet j).score v e (if (t.jet j).badMask.getLsbD e then [] else g.rows)).go
      (t.setJet j (r.1.takeSeg g).step).addSat (slPart v) r.2) ∧
  (∀ (j n e : Nat) (a : BitVec 4) (s : State), Claims.Runs j n s → (s.jet j).entryAt n a = some e →
    (∀ g, (s.jet j).findSeg e false = some g → g.done = false →
      Claims.Does (.qk j a) s id) ∧
    (∀ g, (s.jet j).findSeg e true = some g → g.done = false ∨ (s.jet j).accBusy = true →
      Claims.Does (.pv j a) s id) ∧
    ((s.jet j).findSeg e false = none → Claims.Does (.qk j a) s fun t => t.endJet j n rsFormat (faultAt e)) ∧
    ((s.jet j).findSeg e true = none → Claims.Does (.pv j a) s fun t => t.endJet j n rsFormat (faultAt e))) ∧
  (∀ (x : Jet) (v : BitVec 512) (e r t : Nat),
    (enSess (slEntry v e) ≠ r / rowsPerSess v ∨ enValid (slEntry v e) < t ∨
      (slWindow v = true ∧ outOfWindow (x.rowpos v r) (x.tokpos v e + t) (slWinlen v) = true)) → x.attends v e r t = false) ∧
  (∀ (j n e : Nat) (a : BitVec 4) (s : State), Claims.Runs j n s → (s.jet j).entryAt n a = some e →
    enKind (slEntry ((s.jet j).slot n) e) ≠ 2 → (∀ g ∈ (s.jet j).segs, g.entry = e → g.isV = true → g.done = true) →
    Claims.Does (.exps j a) s fun t =>
      let v := (t.jet j).slot n
      let r := ((t.jet j).exponentiate v e ((t.jet j).badMask.getLsbD e)).go
      (t.setJet j r.1.step).addSat (slPart v) r.2) ∧
  (∀ (j n e : Nat) (a : BitVec 4) (s : State), Claims.Runs j n s → (s.jet j).entryAt n a = some e →
    enKind (slEntry ((s.jet j).slot n) e) ≠ 2 → (∃ g ∈ (s.jet j).segs, g.entry = e ∧ g.isV = true ∧ g.done = false) →
    Claims.Does (.exps j a) s id) ∧
  (∀ (j n e : Nat) (a : BitVec 4) (g : Seg) (s : State), Claims.Runs j n s → (s.jet j).entryAt n a = some e →
    (s.jet j).findSeg e true = some g → g.done = true → (s.jet j).accBusy = false →
    Claims.Does (.pv j a) s fun t =>
      let v := (t.jet j).slot n
      let r := ((t.jet j).accumulate v e (if (t.jet j).badMask.getLsbD e then [] else g.rows)).go
      (t.setJet j { (r.1.takeSeg g).step with pagesDone := (t.jet j).pagesDone + 1 }).addSat (slPart v) r.2) ∧
  (∀ (j n : Nat) (b : Bool) (s : State), Claims.Runs j n s → (s.jet j).accBusy = true → Claims.Does (.emit j b) s id) ∧
  (∀ (j n : Nat) (s : State), Claims.Runs j n s → (s.jet j).accBusy = false →
    Claims.Does (.emit j true) s fun t => t.setJet j { t.jet j with
      accBusy := true
      accSlot := some n
      outM := (List.range (slRows ((t.jet j).slot n))).map fun r => (r, (t.jet j).maxAt r)
      outL := (List.range (slRows ((t.jet j).slot n))).map fun r => (r, (t.jet j).sumAt r)
      pc := (t.jet j).pc + 1#11 }) ∧
  (∀ (j n : Nat) (s : State), Claims.Runs j n s → (s.jet j).accBusy = false →
    Claims.Does (.emit j false) s fun t =>
      let y := Config.residueSyndrome t.draws
      (({ t with draws := t.draws + 1 }.fault
        { code := 0x10, srcKind := 0, srcIndex := t.jetSource j, part := t.ownerOfGroup (jetGroup j), addr := 0,
          syndrome := y, place := some (.jet j) }).endJet j n rsResidue { faultAt 0 with syndrome := y }).updJet j Jet.isolate)

/-- What a failed self-test instruction leaves (03 R113, R123): the slot ended BIST, and the jet isolated where it is under a self-test. -/
def Claims.bist (j n : Nat) (t : State) : State :=
  let u := t.endJet j n rsBist (faultAt 0)
  if t.flt.tests.any fun x => decide (x.place = .jet j) then u.updJet j Jet.isolate else u

/-- The self-test instructions of a jet (03 R82, R111, R113; 12 R397). A partition kernel ends with ILLEGAL, and so does a standard kernel that
may not execute the instruction (the model's reading, assumption 141): CPYROW and PATW belong to kernel 15, PATR to 14 and 15, ARRT to every
standard kernel. CPYROW copies a row of both banks into a spare row, verifies its carry tags and reports each grain that fails, and is
FORMAT for a row or a spare row that is not there; PATW writes a pattern over the row's grains, or into the jet's
record of a row that is out of the address space (assumption 12); PATR and ARRT move on where what they read is as expected, and end the
slot with BIST where it is not, isolating a jet that is under its self-test. -/
def Obligations.JetSelfTest : Prop :=
  (∀ (j n : Nat) (a b : BitVec 4) (imm : BitVec 18) (q : Bool) (s : State), Claims.Runs j n s → 16 ≤ slKernel ((s.jet j).slot n) →
    Claims.Does (.cpyrow j a b) s (fun t => t.endJet j n rsIllegal (faultAt 0)) ∧
    Claims.Does (.patw j a imm) s (fun t => t.endJet j n rsIllegal (faultAt 0)) ∧
    Claims.Does (.patr j a imm q) s (fun t => t.endJet j n rsIllegal (faultAt 0)) ∧
    Claims.Does (.arrt j imm q) s fun t => t.endJet j n rsIllegal (faultAt 0)) ∧
  (∀ (j n : Nat) (a b : BitVec 4) (imm : BitVec 18) (q : Bool) (s : State), Claims.Runs j n s → slKernel ((s.jet j).slot n) < 16 →
    (slKernel ((s.jet j).slot n) ≠ 15 → Claims.Does (.cpyrow j a b) s (fun t => t.endJet j n rsIllegal (faultAt 0)) ∧
      Claims.Does (.patw j a imm) s fun t => t.endJet j n rsIllegal (faultAt 0)) ∧
    (slKernel ((s.jet j).slot n) < 14 → Claims.Does (.patr j a imm q) s fun t => t.endJet j n rsIllegal (faultAt 0))) ∧
  (∀ (j n : Nat) (a b : BitVec 4) (s : State), Claims.Runs j n s → slKernel ((s.jet j).slot n) = 15 →
    (((s.jet j).reg a).toNat < 16384 → ((s.jet j).reg b).toNat < 8 → Claims.Does (.cpyrow j a b) s fun t =>
      let r := ((t.jet j).reg a).toNat
      let u := t.each (rowGrains j r) fun u g =>
        if sideTag (u.sideOf g) = crc32c (u.grain g) then u
        else u.failGrain 0x03 0 (t.jetSource j) g (crc32c (u.grain g) ++ sideTag (u.sideOf g))
      ({ u with spares := { u.spares with
        rowCopy := Tbl.set (Tbl.set u.spares.rowCopy (j * 2 ^ 17 + 8 * r) ((t.jet j).reg b).toNat) (j * 2 ^ 17 + 8 * r + 1)
          ((t.jet j).reg b).toNat } }).updJet j fun x => { x with pc := x.pc + 1#11 }) ∧
    (16384 ≤ ((s.jet j).reg a).toNat ∨ 8 ≤ ((s.jet j).reg b).toNat →
      Claims.Does (.cpyrow j a b) s fun t => t.endJet j n rsFormat (faultAt 0))) ∧
  (∀ (j n : Nat) (a : BitVec 4) (imm : BitVec 18) (s : State), Claims.Runs j n s → slKernel ((s.jet j).slot n) = 15 →
    s.rowHidden j ((s.jet j).reg a).toNat = false →
    Claims.Does (.patw j a imm) s fun t =>
      let p : Byte := BitVec.ofNat 8 (imm.toNat % 256)
      (t.each (rowGrains j ((t.jet j).reg a).toNat) fun u g =>
        { u with mem := Memory.write u.mem (512 * g) (List.replicate 512 p), side := sidePut u.side g (patSide p) }).updJet j
        fun x => { x with pc := x.pc + 1#11 }) ∧
  (∀ (j n : Nat) (a : BitVec 4) (imm : BitVec 18) (s : State), Claims.Runs j n s → slKernel ((s.jet j).slot n) ∈ [14, 15] →
    s.rowHidden j ((s.jet j).reg a).toNat = false →
    (∀ g ∈ rowGrains j ((s.jet j).reg a).toNat, s.grain g = List.replicate 512 (BitVec.ofNat 8 (imm.toNat % 256))) →
    Claims.Does (.patr j a imm false) s fun t => t.setJet j { t.jet j with pc := (t.jet j).pc + 1#11 }) ∧
  (∀ (j n : Nat) (a : BitVec 4) (imm : BitVec 18) (s : State), Claims.Runs j n s → slKernel ((s.jet j).slot n) = 15 →
    s.rowHidden j ((s.jet j).reg a).toNat = true →
    Claims.Does (.patw j a imm) s (fun t => t.setJet j { t.jet j with
      pats := Tbl.set (t.jet j).pats ((t.jet j).reg a).toNat (imm.toNat % 256), pc := (t.jet j).pc + 1#11 }) ∧
    (Tbl.get? (s.jet j).pats ((s.jet j).reg a).toNat = some (imm.toNat % 256) →
      Claims.Does (.patr j a imm false) s fun t => t.setJet j { t.jet j with pc := (t.jet j).pc + 1#11 }) ∧
    (Tbl.get? (s.jet j).pats ((s.jet j).reg a).toNat ≠ some (imm.toNat % 256) →
      Claims.Does (.patr j a imm false) s fun t => Claims.bist j n t)) ∧
  (∀ (j n g : Nat) (a : BitVec 4) (imm : BitVec 18) (b : Bool) (s : State), Claims.Runs j n s → slKernel ((s.jet j).slot n) ∈ [14, 15] →
    s.rowHidden j ((s.jet j).reg a).toNat = false → g ∈ rowGrains j ((s.jet j).reg a).toNat →
    s.grain g ≠ List.replicate 512 (BitVec.ofNat 8 (imm.toNat % 256)) →
    Claims.Does (.patr j a imm b) s fun t => Claims.bist j n t) ∧
  (∀ (j n : Nat) (a : BitVec 4) (imm : BitVec 18) (s : State), Claims.Runs j n s → slKernel ((s.jet j).slot n) ∈ [14, 15] →
    Claims.Does (.patr j a imm true) s fun t => Claims.bist j n t) ∧
  (∀ (j n : Nat) (imm : BitVec 18) (s : State), Claims.Runs j n s → slKernel ((s.jet j).slot n) < 16 →
    Claims.Does (.arrt j imm true) s (fun t => t.setJet j { t.jet j with pc := (t.jet j).pc + 1#11 }) ∧
    Claims.Does (.arrt j imm false) s fun t => Claims.bist j n t)

/-- The frame that a frame command brings, when it is a frame of the command's row. -/
def Claims.frameOf (i : Instr) (s : State) : Option Frame :=
  match i with
  | .write f => if isFrameOf opWrite f then some f else none
  | .writeImm f => if isFrameOf opWriteImm f && f.hdr.rclass == 3#2 then some f else none
  | .writeImmMailbox f => if isFrameOf opWriteImm f && f.hdr.rclass == 0#2 then some f else none
  | .forwardCompletion f => if s.isForwardDone f.hdr then some f else none
  | .readReq f => if isFrameOf opReadReq f then some f else none
  | .attend f => if isFrameOf opAttend f then some f else none
  | .append f => if isFrameOf opAppend f then some f else none
  | .ingest f => if isFrameOf opIngest f then some f else none
  | .commit f => if isFrameOf opCommit f then some f else none
  | .cancel f => if isFrameOf opCancel f then some f else none
  | .hedge f => if isFrameOf opHedge f then some f else none
  | .hedgeClaim f => if isFrameOf opHedgeClaim f then some f else none
  | .mirror f => if isFrameOf opMirror f then some f else none
  | .mirrorAck f => if isFrameOf opMirrorAck f then some f else none
  | .dirUpdate f => if isFrameOf opDirUpdate f then some f else none
  | .dirQuery f => if isFrameOf opDirQuery f then some f else none
  | .voidSync f => if isVoidSync f.hdr then some f else none
  | .void f => if f.hdr.void && !f.hdr.sync then some f else none
  | .ack f => if isFrameOf opAck f then some f else none
  | .nak f => if isFrameOf opNak f then some f else none
  | .undefinedOpcode f => if !f.hdr.void && !definedOpcodes.contains f.hdr.opcode then some f else none
  | .malformedFrame f => if (s.wireFault f).isSome then some f else none
  | _ => none

/-- A port that is up, of a node in service. -/
def Claims.Served (p : Nat) (s : State) : Prop := s.serving = true ∧ p < 24 ∧ (s.port p).up = true

/-- A frame comes to step 5 of 08 R239: its port is served, it passes steps 1 to 4, and no class 3 frame waits before it. -/
def Claims.Arrives (f : Frame) (s : State) : Prop :=
  Claims.Served f.port s ∧ s.wireFault f = none ∧
    (f.hdr.rclass = 3#2 → isCtl f.hdr = false → (s.port f.port).held = [])

/-- What a class 1 frame lets out of the bond's reorder window (10 R316), and the pause that class then needs; other classes have neither. -/
def Claims.after (f : Frame) (s : State) : State := if f.hdr.rclass = 1#2 then (s.drainReorder 64).paceMirror else s

/-- The receiver flow that a frame names. -/
def Claims.flow (f : Frame) (s : State) : RxFlow := s.rx f.hdr.src.toNat f.hdr.rclass.toNat

/-- A frame is the one that its flow expects (E), and not one of a message that is being discarded. -/
def Claims.Expected (f : Frame) (u : State) : Prop :=
  isCtl f.hdr = false ∧ f.hdr.void = false ∧ seqAhead (Claims.flow f u).e f.hdr.seq = 0 ∧ (Claims.flow f u).discard = false ∧
    u.reorders f = false

/-- Receiving frames, for every frame command (08 R239, R252 to R257, 09 R283, 10 R316): a frame of steps 1 to 4 is dropped and counted
on its port; one that fails step 5 leaves what authentication leaves; ACK and NAK act on the sender's flow; the frame that the flow expects
goes through steps 8 to 12 and is accepted, refused with a status, or held unaccepted where there is no room; a frame beyond E is
discarded with a NAK due, one below E is acknowledged again; a VOID frame passes a sequence number over, with SYNC it sets the flow's
state. On a port that is not served nothing happens.
The model's choices here: assumptions 76. -/
def Obligations.FrameSteps : Prop :=
  ∀ (i : Instr) (f : Frame) (s : State), Claims.frameOf i s = some f →
    (¬ Claims.Served f.port s → Claims.Does i s id) ∧
    (∀ n, Claims.Served f.port s → s.wireFault f = some n → Claims.Does i s fun t => t.countPort f.port n 1) ∧
    (Claims.Served f.port s → s.wireFault f = none → f.hdr.rclass = 3#2 → isCtl f.hdr = false → (s.port f.port).held ≠ [] →
      Claims.Does i s fun t => t.holdFrame f) ∧
    (Claims.Arrives f s → ∀ u : State, State.authenticate { s with out := [] } f = (u, none) →
      exec i s = .next { Claims.after f u with pending := s.pending }) ∧
    (Claims.Arrives f s → ∀ (u : State) (pt : List Byte), State.authenticate { s with out := [] } f = (u, some pt) →
      (isCtl f.hdr = true → exec i s = .next { Claims.after f (if f.hdr.opcode = opAck then
        u.takeAck f.hdr.src.toNat f.hdr.rclass.toNat f.hdr else u.takeNak f.hdr.src.toNat f.hdr.rclass.toNat f.hdr) with
        pending := s.pending }) ∧
      (isCtl f.hdr = false → isVoidSync f.hdr = true → (Claims.flow f u).synced = false ∨ (Claims.flow f u).inc ≠ f.hdr.imm ∨
          (0 < seqAhead (Claims.flow f u).e f.hdr.seq ∧ seqAhead (Claims.flow f u).e f.hdr.seq < 2 ^ 23) →
        exec i s = .next { Claims.after f (u.syncRx f.hdr) with pending := s.pending }) ∧
      (isCtl f.hdr = false → f.hdr.void = true →
        f.hdr.sync = false ∨ ((Claims.flow f u).synced = true ∧ (Claims.flow f u).inc = f.hdr.imm) → seqAhead (Claims.flow f u).e f.hdr.seq = 0 →
        u.reorders f = false → exec i s = .next { Claims.after f
          (let v := u.dropOpen f.hdr.src.toNat f.hdr.rclass.toNat
           (v.setRx f.hdr.src.toNat f.hdr.rclass.toNat { Claims.flow f v with
             discard := (Claims.flow f u).discard && !f.hdr.last && !f.hdr.sync }).acceptRx f.hdr (((Claims.flow f u).e + 1) % 2 ^ 40)) with
          pending := s.pending }) ∧
      (Claims.Expected f u → ∀ v : State, u.rxSteps f.hdr pt = .ok v →
        exec i s = .next { Claims.after f (v.acceptRx f.hdr (((Claims.flow f u).e + 1) % 2 ^ 40)) with pending := s.pending }) ∧
      (Claims.Expected f u → ∀ (v : State) (st : Nat), u.rxSteps f.hdr pt = .bad st v → (Claims.flow f u).refusal = none →
        exec i s = .next { Claims.after f (v.refuseRx f.hdr st) with pending := s.pending }) ∧
      (Claims.Expected f u → u.rxSteps f.hdr pt = .hold → Claims.Does i s fun t => t.holdFrame f) ∧
      (isCtl f.hdr = false → isVoidSync f.hdr = false → u.reorders f = false →
        0 < seqAhead (Claims.flow f u).e f.hdr.seq → seqAhead (Claims.flow f u).e f.hdr.seq < 2 ^ 23 →
        exec i s = .next { Claims.after f (u.oosRx f.hdr) with pending := s.pending }) ∧
      (isCtl f.hdr = false → isVoidSync f.hdr = false → u.reorders f = false →
        2 ^ 23 ≤ seqAhead (Claims.flow f u).e f.hdr.seq →
        exec i s = .next { Claims.after f (u.dupRx f.hdr) with pending := s.pending }) ∧
      (isCtl f.hdr = false → f.hdr.void = false → u.reorders f = true → (∀ g ∈ u.wt.reorder, g.hdr.seq ≠ f.hdr.seq) →
        exec i s = .next { Claims.after f { u with wt := { u.wt with reorder := u.wt.reorder ++ [f] } } with
          pending := s.pending }))

/-- Command `i` brings the frame that its flow expects: `u` and `pt` are the state and the plaintext after step 5 of 08 R239. -/
def Claims.InOrder (i : Instr) (f : Frame) (s u : State) (pt : List Byte) : Prop :=
  Claims.frameOf i s = some f ∧ Claims.Arrives f s ∧ State.authenticate { s with out := [] } f = (u, some pt) ∧ Claims.Expected f u

/-- A frame passes steps 8 to 11 of 08 R239. -/
def Claims.Checked (h : Hdr) (pt : List Byte) (u : State) : Prop :=
  u.frameWindow h pt = stOk ∧ u.frameFields h pt = true ∧ framingOk h pt (u.rx h.src.toNat h.rclass.toNat).msg = true ∧
    ptagOk h pt = true

/-- The flow's message in hand after a frame: none after its LAST frame. -/
def Claims.opened (h : Hdr) (pt : List Byte) (u v : State) : State :=
  v.setOpen h.src.toNat h.rclass.toNat (if h.last then none else
    some (match (u.rx h.src.toNat h.rclass.toNat).msg with
      | some m => { m with payload := m.payload ++ pt }
      | none => { hdr := h, payload := pt, queue := noQueue, ring := 0, tagBad := false }))

/-- Command `i` answers the next state in which frame `f` is accepted at E and what it does is `v`. -/
def Claims.Took (i : Instr) (f : Frame) (s u v : State) : Prop :=
  exec i s = .next { Claims.after f (v.acceptRx f.hdr (((Claims.flow f u).e + 1) % 2 ^ 40)) with pending := s.pending }

/-- Command `i` answers the next state in which frame `f` is refused with a status. -/
def Claims.Refused (i : Instr) (f : Frame) (s v : State) (st : Nat) : Prop :=
  exec i s = .next { Claims.after f (v.refuseRx f.hdr st) with pending := s.pending }

/-- Window writes and reads, mailbox commands over transport (08 R242, R246, R267, R268, 09 R283, R288, 12 R384, 10 R318, R326, 14 R450). WRITE and
WRITE_IMM write their bytes into the window and mirror them, or are refused with TAG_MISMATCH where a partly written grain
fails; the LAST frame of WRITE_IMM delivers its immediate to the window's completion queue, and waits where that is full, at most 1 ms.
A mailbox command is accepted, answered again from the kept response, or refused with NO_RESOURCE beyond eight unanswered. A
completion of a forward is relayed. READ_REQ lands at its queue, or waits for room; at its deadline it ends with DEADLINE.
The model's choices here: assumptions 26, 65. -/
def Obligations.WritesAndReads : Prop :=
  (∀ (f : Frame) (s u v : State) (pt : List Byte), Claims.InOrder (.write f) f s u pt → Claims.Checked f.hdr pt u →
    u.writeWindow f.hdr.window.toNat f.hdr.offset.toNat pt = some v →
    Claims.Took (.write f) f s u (Claims.opened f.hdr pt u v)) ∧
  (∀ (f : Frame) (s u : State) (pt : List Byte), Claims.InOrder (.write f) f s u pt → Claims.Checked f.hdr pt u →
    u.writeWindow f.hdr.window.toNat f.hdr.offset.toNat pt = none → (Claims.flow f u).refusal = none →
    Claims.Refused (.write f) f s (u.writeFailed f.hdr.window.toNat f.hdr.offset.toNat pt) stTag) ∧
  (∀ (f : Frame) (s u v : State) (pt : List Byte), Claims.InOrder (.writeImm f) f s u pt → Claims.Checked f.hdr pt u →
    u.writeWindow f.hdr.window.toNat f.hdr.offset.toNat pt = some v →
    (f.hdr.last = false → Claims.Took (.writeImm f) f s u (Claims.opened f.hdr pt u v)) ∧
    (f.hdr.last = true → u.cqFree (winCq (u.window f.hdr.window.toNat)) ≠ 0 →
      Claims.Took (.writeImm f) f s u (Claims.opened f.hdr pt u (v.deliverImm f.hdr))) ∧
    (f.hdr.last = true → u.cqFree (winCq (u.window f.hdr.window.toNat)) = 0 →
      Claims.Does (.writeImm f) s fun t => t.holdFrame f)) ∧
  (∀ (f : Frame) (s u : State) (pt : List Byte), Claims.InOrder (.writeImm f) f s u pt → Claims.Checked f.hdr pt u →
    u.writeWindow f.hdr.window.toNat f.hdr.offset.toNat pt = none → (Claims.flow f u).refusal = none →
    Claims.Refused (.writeImm f) f s (u.writeFailed f.hdr.window.toNat f.hdr.offset.toNat pt) stTag) ∧
  (∀ (f : Frame) (s u : State) (pt : List Byte), Claims.InOrder (.writeImmMailbox f) f s u pt → Claims.Checked f.hdr pt u →
    u.isForwardDone f.hdr = false → f.hdr.fwd = false →
    let m := f.hdr.window.toNat - 0x10000
    let q := f.hdr.imm.extractLsb' 0 16
    (∀ k, (u.mbox m).kept.find? (fun k => k.1 == f.hdr.src.toNat && k.2.1 == q) = some k →
      Claims.Took (.writeImmMailbox f) f s u
        (Claims.opened f.hdr pt u (u.sendResp f.hdr.src f.hdr.keySlot f.hdr.window f.hdr.imm k.2.2))) ∧
    ((u.mbox m).kept.find? (fun k => k.1 == f.hdr.src.toNat && k.2.1 == q) = none →
      (((u.mbox m).accepted ++ (u.mbox m).parked).filter fun x => onTransport x.2).length < 8 →
      Claims.Took (.writeImmMailbox f) f s u (Claims.opened f.hdr pt u (u.setMbox m { u.mbox m with
        accepted := (u.mbox m).accepted ++
          [parseCmd m (.wt f.hdr.src f.hdr.keySlot f.hdr.window f.hdr.imm) q pt] }))) ∧
    ((u.mbox m).kept.find? (fun k => k.1 == f.hdr.src.toNat && k.2.1 == q) = none →
      8 ≤ (((u.mbox m).accepted ++ (u.mbox m).parked).filter fun x => onTransport x.2).length →
      (Claims.flow f u).refusal = none → Claims.Refused (.writeImmMailbox f) f s u stNoRes)) ∧
  (∀ (f : Frame) (g : Fwd) (s u : State) (pt : List Byte), Claims.InOrder (.forwardCompletion f) f s u pt →
    Claims.Checked f.hdr pt u → u.isForwardDone f.hdr = true → u.forwardOf f.hdr = some g →
    Claims.Took (.forwardCompletion f) f s u (Claims.opened f.hdr pt u
      (u.settleForward g (if f.hdr.rclass = 2#2 then f.hdr.imm.toNat % 256 else leAt pt 0 1) (pt.drop 16)))) ∧
  (∀ (f : Frame) (p : Nat) (s u : State) (pt : List Byte), Claims.InOrder (.readReq f) f s u pt → Claims.Checked f.hdr pt u →
    u.ownerOfWindow f.hdr.window.toNat = some p →
    let q := u.fabricQueue p f.hdr.src.toNat
    (u.queue q).lands = true → u.ownerOfQueue q = some p →
    (qUsed (u.queue q).ctx < qSize (u.queue q).ctx → u.landRoom p pt.length = true →
      Claims.Took (.readReq f) f s u (((u.claimRing q).2.takeLand p q (u.claimRing q).1 pt).landMsg f.hdr
        { hdr := f.hdr, payload := pt, queue := q, ring := (u.claimRing q).1, tagBad := false })) ∧
    (qSize (u.queue q).ctx ≤ qUsed (u.queue q).ctx ∨ u.landRoom p pt.length = false →
      Claims.Does (.readReq f) s fun t => t.holdFrame f)) ∧
  (∀ (p a w : Nat) (f : Frame) (l : List Frame) (s : State), (s.upTo w).serving = true → ((s.upTo w).port p).held = f :: l →
    ((s.upTo w).port p).heldSince = some a → (s.upTo w).waitsForCq f = true → a + 1000000 ≤ (s.upTo w).clk.ftime →
    Claims.Does (.cqHoldExpiry p w) s fun t =>
      let u := ((t.upTo w).unhold p).cqExpired f
      (u.drainHeld p (u.port p).held.length).paceIngress p) ∧
  (∀ (r w : Nat) (x : Req) (s : State), (s.upTo w).serving = true → (s.upTo w).req? r = some x → x.complete = false →
    x.msg.opcode = opReadReq → x.dlNs ≤ (s.upTo w).clk.ftime →
    Claims.Does (.readDeadline r w) s fun t => (t.upTo w).endReq r stDeadline)

/-- The request frames (08 R239, R243, R245, R283, 09 R282, 04 R127, R149): ATTEND, APPEND, INGEST and COMMIT. A FIRST frame claims a
ring entry of its source's queue and landing room, or waits where there is none; each later frame takes more room; the LAST frame lands
the message where its window, queue and PTAGs stand, and is refused with the status of the first that does not. LANDING_RESUME lands the
frames that wait. CANCEL cancels the request of its tag, or counts a miss.
The model's choices here: assumptions 26, 47, 114. -/
def Obligations.RequestFrames : Prop :=
  (∀ (i : Instr) (f : Frame) (p : Nat) (s u : State) (pt : List Byte), i ∈ [.attend f, .append f, .ingest f, .commit f] →
    Claims.InOrder i f s u pt → u.frameFields f.hdr pt = true → (Claims.flow f u).msg = none → framingOk f.hdr pt none = true →
    u.ownerOfWindow f.hdr.window.toNat = some p →
    let q := u.fabricQueue p f.hdr.src.toNat
    let m : OpenMsg := { hdr := f.hdr, payload := pt, queue := q, ring := (u.claimRing q).1, tagBad := !ptagOk f.hdr pt }
    let v := (u.claimRing q).2.takeLand p q (u.claimRing q).1 pt
    (u.queue q).lands = true → u.ownerOfQueue q = some p →
    (qUsed (u.queue q).ctx < qSize (u.queue q).ctx → u.landRoom p pt.length = true →
      (f.hdr.last = true → v.requestStatus f.hdr.src.toNat m = stOk →
        Claims.Took i f s u ((v.setOpen f.hdr.src.toNat f.hdr.rclass.toNat none).landMsg f.hdr m)) ∧
      (f.hdr.last = true → v.requestStatus f.hdr.src.toNat m ≠ stOk → (Claims.flow f u).refusal = none →
        Claims.Refused i f s (v.setOpen f.hdr.src.toNat f.hdr.rclass.toNat (some m)) (v.requestStatus f.hdr.src.toNat m)) ∧
      (f.hdr.last = false → Claims.Took i f s u (v.setOpen f.hdr.src.toNat f.hdr.rclass.toNat (some m)))) ∧
    (qSize (u.queue q).ctx ≤ qUsed (u.queue q).ctx ∨ u.landRoom p pt.length = false → Claims.Does i s fun t => t.holdFrame f)) ∧
  (∀ (i : Instr) (f : Frame) (p : Nat) (m : OpenMsg) (s u : State) (pt : List Byte), i ∈ [.attend f, .append f, .ingest f, .commit f] →
    Claims.InOrder i f s u pt → u.frameFields f.hdr pt = true → (Claims.flow f u).msg = some m → framingOk f.hdr pt (some m) = true →
    m.queue ≠ noQueue → u.ownerOfQueue m.queue = some p →
    let n := { m with payload := m.payload ++ pt, tagBad := m.tagBad || !ptagOk f.hdr pt }
    let v := u.takeLand p m.queue m.ring pt
    (u.landRoom p pt.length = true →
      (f.hdr.last = true → v.requestStatus f.hdr.src.toNat n = stOk →
        Claims.Took i f s u ((v.setOpen f.hdr.src.toNat f.hdr.rclass.toNat none).landMsg f.hdr n)) ∧
      (f.hdr.last = true → v.requestStatus f.hdr.src.toNat n ≠ stOk → (Claims.flow f u).refusal = none →
        Claims.Refused i f s (v.setOpen f.hdr.src.toNat f.hdr.rclass.toNat (some n)) (v.requestStatus f.hdr.src.toNat n)) ∧
      (f.hdr.last = false → Claims.Took i f s u (v.setOpen f.hdr.src.toNat f.hdr.rclass.toNat (some n)))) ∧
    (u.landRoom p pt.length = false → Claims.Does i s fun t => t.holdFrame f)) ∧
  (∀ (f : Frame) (p : Nat) (s u : State) (pt : List Byte), Claims.InOrder (.cancel f) f s u pt → Claims.Checked f.hdr pt u →
    f.hdr.last = true → (Claims.flow f u).msg = none → u.ownerOfWindow f.hdr.window.toNat = some p →
    Claims.Took (.cancel f) f s u (Claims.opened f.hdr pt u (u.cancelFabric f.hdr.src p f.hdr.imm))) ∧
  (∀ (p : Nat) (s : State), s.serving = true → p < 24 →
    Claims.Does (.landingResume p) s fun t => (t.drainHeld p (t.port p).held.length).paceIngress p)

/-- The messages of the twin pair and the directory, and undefined opcodes (08 R240, R257; 10 R322, R323, R338, R341, R346, R348; 13 R435). A HEDGE
that is well formed is taken as a request of the twin's partition, a HEDGE_CLAIM answers the claim it names, MIRROR applies its records or
is refused with the status of the first that cannot be applied, MIRROR_ACK moves APPLIED, DIR_UPDATE stages its tables or
is refused, DIR_QUERY is answered. A longer message collects its frames. A frame of an undefined opcode counts in BAD_OPCODE and is refused with FORMAT.
The model's choices here: assumptions 22, 34, 36, 37, 75. -/
def Obligations.MessageFrames : Prop :=
  (∀ (i : Instr) (f : Frame) (s u : State) (pt : List Byte), i ∈ [.hedge f, .mirror f, .dirUpdate f] → Claims.InOrder i f s u pt →
    Claims.Checked f.hdr pt u → f.hdr.last = false → Claims.Took i f s u (Claims.opened f.hdr pt u u)) ∧
  (∀ (f : Frame) (s u : State) (pt : List Byte), Claims.InOrder (.hedge f) f s u pt → Claims.Checked f.hdr pt u →
    f.hdr.last = true → (Claims.flow f u).msg = none →
    (hgOk pt = true → Claims.Took (.hedge f) f s u (Claims.opened f.hdr pt u (u.takeHedge f.hdr pt))) ∧
    (hgOk pt = false → (Claims.flow f u).refusal = none → Claims.Refused (.hedge f) f s u stFormat)) ∧
  (∀ (f : Frame) (s u : State) (pt : List Byte), Claims.InOrder (.hedgeClaim f) f s u pt → Claims.Checked f.hdr pt u →
    f.hdr.last = true → (Claims.flow f u).msg = none →
    Claims.Took (.hedgeClaim f) f s u (Claims.opened f.hdr pt u (u.takeClaim f.hdr))) ∧
  (∀ (f : Frame) (s u : State) (pt : List Byte), Claims.InOrder (.mirror f) f s u pt → Claims.Checked f.hdr pt u →
    f.hdr.last = true → (Claims.flow f u).msg = none →
    ((u.takeMirror (f.hdr.keySlot.toNat - 1) pt).1 = stOk →
      Claims.Took (.mirror f) f s u (Claims.opened f.hdr pt u (u.takeMirror (f.hdr.keySlot.toNat - 1) pt).2)) ∧
    ((u.takeMirror (f.hdr.keySlot.toNat - 1) pt).1 ≠ stOk → (Claims.flow f u).refusal = none →
      Claims.Refused (.mirror f) f s u (u.takeMirror (f.hdr.keySlot.toNat - 1) pt).1)) ∧
  (∀ (f : Frame) (s u : State) (pt : List Byte), Claims.InOrder (.mirrorAck f) f s u pt → Claims.Checked f.hdr pt u →
    f.hdr.last = true → (Claims.flow f u).msg = none →
    Claims.Took (.mirrorAck f) f s u (Claims.opened f.hdr pt u (u.takeMirrorAck pt))) ∧
  (∀ (f : Frame) (s u : State) (pt : List Byte), Claims.InOrder (.dirUpdate f) f s u pt → Claims.Checked f.hdr pt u →
    f.hdr.last = true → (Claims.flow f u).msg = none →
    ((u.takeDirUpdate pt).2 = stOk →
      Claims.Took (.dirUpdate f) f s u (Claims.opened f.hdr pt u (u.takeDirUpdate pt).1)) ∧
    ((u.takeDirUpdate pt).2 ≠ stOk → (Claims.flow f u).refusal = none →
      Claims.Refused (.dirUpdate f) f s (u.takeDirUpdate pt).1 (u.takeDirUpdate pt).2)) ∧
  (∀ (f : Frame) (s u : State) (pt : List Byte), Claims.InOrder (.dirQuery f) f s u pt → Claims.Checked f.hdr pt u →
    f.hdr.last = true → (Claims.flow f u).msg = none →
    Claims.Took (.dirQuery f) f s u (Claims.opened f.hdr pt u (u.takeDirQuery f.hdr pt))) ∧
  (∀ (f : Frame) (s u : State) (pt : List Byte), Claims.InOrder (.undefinedOpcode f) f s u pt → u.frameWindow f.hdr pt = stOk →
    (Claims.flow f u).refusal = none → Claims.Refused (.undefinedOpcode f) f s (u.count cBadOpcode 1) stFormat)

/-- The sender's flows (08 R255, R256, R258 to R261, R263, R264). An ACK releases everything below the sequence it names, or counts in BAD_ACK where
that lies beyond NEXT. A NAK without a status goes back when the flow has not gone back before; with SYNC it resets the flow; with KEY_INVALID it goes back once and then ends
the message; with another status it ends the message that holds the frame. The acknowledgement timer makes an ACK due after 2 us.
The retransmission timer goes back with its time doubled, moves the flow at the third expiry and fails the peer at the eighth. An unreachable
peer is probed every millisecond.
The model's choices here: assumptions 67, 68. -/
def Obligations.SenderFlows : Prop :=
  (∀ (f : Frame) (s u : State) (pt : List Byte), Claims.frameOf (.ack f) s = some f → Claims.Arrives f s →
    State.authenticate { s with out := [] } f = (u, some pt) → isCtl f.hdr = true →
    let a := f.hdr.src.toNat
    let c := f.hdr.rclass.toNat
    let q := (u.tx a c).named f.hdr.seq
    ((u.tx a c).beyond q = false → exec (.ack f) s = .next { Claims.after f (u.ackTo a c q) with pending := s.pending }) ∧
    ((u.tx a c).beyond q = true → exec (.ack f) s = .next { Claims.after f (u.count cBadAck 1) with pending := s.pending })) ∧
  (∀ (f : Frame) (s u : State) (pt : List Byte), Claims.frameOf (.nak f) s = some f → Claims.Arrives f s →
    State.authenticate { s with out := [] } f = (u, some pt) → isCtl f.hdr = true →
    let a := f.hdr.src.toNat
    let c := f.hdr.rclass.toNat
    let q := (u.tx a c).named f.hdr.seq
    let n := (u.tx a c).named (f.hdr.imm.extractLsb' 0 24)
    ((u.tx a c).beyond q = true → exec (.nak f) s = .next { Claims.after f (u.count cBadAck 1) with pending := s.pending }) ∧
    ((u.tx a c).beyond q = false → f.hdr.sync = true →
      exec (.nak f) s = .next { Claims.after f (u.nakSync a c) with pending := s.pending }) ∧
    ((u.tx a c).beyond q = false → f.hdr.sync = false → f.hdr.status = 0#8 → (u.tx a c).backFrom = none →
      exec (.nak f) s = .next { Claims.after f ((u.ackTo a c q).goBackTo a c q false) with pending := s.pending }) ∧
    ((u.tx a c).beyond q = false → f.hdr.sync = false → f.hdr.status ≠ 0#8 → f.hdr.status.toNat = stKey →
      exec (.nak f) s = .next { Claims.after f (u.nakKey a c q n) with pending := s.pending }) ∧
    ((u.tx a c).beyond q = false → f.hdr.sync = false → f.hdr.status ≠ 0#8 → f.hdr.status.toNat ≠ stKey →
      exec (.nak f) s = .next { Claims.after f (u.nakRefusal a c q n f.hdr.status.toNat) with pending := s.pending })) ∧
  (∀ (a c q : Nat) (u : State), (u.tx a c).una < q → q ≤ (u.tx a c).next → ∃ v : State,
    u.ackTo a c q = v.each ((u.tx a c).sent.filter fun x => decide (x.seq < q)) (fun t x =>
      match x.fr.done with
      | .release r _ => (t.endSent x.fr stOk false).pumpRead r true 128
      | _ => t.endSent x.fr stOk false) ∧
    (v.tx a c).una = q ∧ (v.tx a c).expiries = 0 ∧ ∀ x ∈ (v.tx a c).sent, q ≤ x.seq ∧ x ∈ (u.tx a c).sent) ∧
  (∀ (a w x : Nat) (c : BitVec 2) (s : State), (s.upTo w).serving = true → ((s.upTo w).rx a c.toNat).oldest = some x →
    x + 2000 ≤ (s.upTo w).clk.ftime →
    Claims.Does (.ackTimerExpiry a c w) s fun t =>
      (t.upTo w).setRx a c.toNat { (t.upTo w).rx a c.toNat with ackDue := true }) ∧
  (∀ (a w x : Nat) (c : BitVec 2) (s : State), (s.upTo w).serving = true → ((s.upTo w).tx a c.toNat).timerAt = some x →
    x ≤ (s.upTo w).clk.ftime → ((s.upTo w).tx a c.toNat).sent ≠ [] →
    (7 ≤ ((s.upTo w).tx a c.toNat).expiries → Claims.Does (.retransmitTimerExpiry a c w) s fun t => (t.upTo w).failPeer a) ∧
    (((s.upTo w).tx a c.toNat).expiries < 7 → Claims.Does (.retransmitTimerExpiry a c w) s fun t =>
      let u := t.upTo w
      let f := u.tx a c.toNat
      let k := f.expiries + 1
      let v := u.setTx a c.toNat { f with expiries := k, timerAt := some (u.clk.ftime + 1000 * min (20 * 2 ^ k) 2000) }
      (if k = 3 then v.moveFlow a c.toNat else v).goBackTo a c.toNat f.una true)) ∧
  (∀ (a w x : Nat) (s : State), (s.upTo w).serving = true → (s.upTo w).idValid = true → (s.upTo w).slot0 = true →
    (s.upTo w).unreachable a = true → Tbl.get? (s.upTo w).wt.probes a = some x → x + 1000000 ≤ (s.upTo w).clk.ftime →
    (s.upTo w).pausedFor a 0 = false →
    Claims.Does (.peerProbe a w) s fun t =>
      let v := t.upTo w
      let u := { v with wt := { v.wt with probes := Tbl.set v.wt.probes a v.clk.ftime } }.pin a 0
      let f := u.tx a 0
      let h := u.syncHdr a 0 f.next f.syncAttempt
      let g := if 65534 ≤ f.syncAttempt then { f with una := f.next + 1, next := f.next + 1, syncAttempt := 0 }
        else { f with syncAttempt := f.syncAttempt + 1 }
      match u.egressOf a 0, u.sealData h f.next [] with
      | some p, some (ct, tag) => (u.setTx a 0 g).emit (.frame p h ct tag (u.lowerBytes p a (u.pcp 0) 0 f.entropy))
      | _, _ => u)

/-- Ports (08 R235, R236, R265, R266; 09 R296, R303, R304, R312; 12 R396). Neighbour solicitations and echo requests for the node's address are answered, others and
other frames dropped and counted; PFC frames act on the priorities they name, XOFF pausing one that is not
paused. A link lost is counted and recorded, and its flows
move. PORT_TRANSMIT sends the ACK or NAK that is due, else the head of the class that the class rule picks. WEIR_TAKEOVER starts the list
that was committed, and WEIR_ENTRY_ADVANCE its next entry.
The model's choices here: assumptions 66, 67, 69, 76. -/
def Obligations.Ports : Prop :=
  (∀ (p : Nat) (a b : BitVec 128) (s : State), s.awake = true → p < 24 → (s.port p).up = true →
    (a = s.address → Claims.Does (.neighborSolicitation p a b) s fun t => t.emit (.neighborAdvert p b a)) ∧
    (a ≠ s.address → Claims.Does (.neighborSolicitation p a b) s fun t => t.countPort p pcOther 1) ∧
    (∀ (i q : BitVec 16) (l : List Byte), (a = s.address → Claims.Does (.echoRequest p a b i q l) s fun t => t.emit (.echoReply p b i q l)) ∧
      (a ≠ s.address → Claims.Does (.echoRequest p a b i q l) s fun t => t.countPort p pcOther 1)) ∧
    (∀ n, (n < 64 → Claims.Does (.otherFrame p n) s fun t => t.countPort p pcRunt 1) ∧
      (64 ≤ n → n ≤ 9216 → Claims.Does (.otherFrame p n) s fun t => t.countPort p pcOther 1) ∧
      (9216 < n → Claims.Does (.otherFrame p n) s fun t => t.countPort p pcOversize 1)) ∧
    Claims.Does (.linkDown p) s fun t =>
      let u := t.updPort p fun x => { x with up := false, direct := false, peer := none }
      let u := (u.countPort p pcLinkDown 1).fault
        { code := 0x1A, srcKind := 4, srcIndex := 9 * p, part := none, addr := 0, syndrome := 0#64, place := none }
      let u := u.each (u.flowsOn p) fun t f => t.moveFlow f.1 f.2
      if u.bond.isEmpty && !t.bond.isEmpty then u.requeueFlow u.twinNode 1 else u) ∧
  (∀ (p w : Nat) (k : BitVec 8) (x : Bool) (s : State), (s.upTo w).awake = true → p < 24 → ((s.upTo w).port p).up = true →
    Claims.Does (.pfcFrame p k x w) s fun t => (t.upTo w).each (bitsOf k 8) fun t k => t.pausePcp p k x) ∧
  (∀ (p k : Nat) (t : State), Tbl.get? (t.port p).paused k = none →
    t.pausePcp p k true = t.updPort p fun y => { y with paused := Tbl.set y.paused k t.clk.ftime }) ∧
  (∀ (p w : Nat) (s v : State), v = State.upTo { s with out := [] } w → v.serving = true → p < 24 → (v.port p).up = true →
    v.idValid = true → v.slot0 = true →
    (∀ x, v.flushMirrorAck.wt.rx.find? (fun x => x.2.ctlDue && v.flushMirrorAck.leavesBy (x.1 / 4) (x.1 % 4) p) = some x →
      exec (.portTransmit p w) s = .next
        { (v.flushMirrorAck.pin (x.1 / 4) (x.1 % 4)).sendCtl p (x.1 / 4) (x.1 % 4) with pending := s.pending }) ∧
    (v.flushMirrorAck.wt.rx.find? (fun x => x.2.ctlDue && v.flushMirrorAck.leavesBy (x.1 / 4) (x.1 % 4) p) = none →
      let u := (v.flushMirrorAck.dropUnkeyed p).updPort p Port.refill
      let g := (u.pickClass p).2
      let z := u.updPort p fun x => { x with pointer := g.ptr, arrived := g.arrived, deficit := g.deficit }
      ((u.pickClass p).1 = none → exec (.portTransmit p w) s = .next { z with pending := s.pending }) ∧
      (∀ c h, (u.pickClass p).1 = some c → z.headOf p c = some h → exec (.portTransmit p w) s = .next
        { z.sendHead p h with pending := s.pending }))) ∧
  (∀ (p w a : Nat) (l : Weir) (s : State), (s.upTo w).serving = true → p < 24 → ((s.upTo w).port p).weirNext = some (some l, a) →
    a ≤ (s.upTo w).clk.ftime →
    Claims.Does (.weirTakeover p w) s fun t => (t.upTo w).updPort p fun x => { x with
      weir := some (l, a), weirNext := none, gateIdx := 0, gateCycle := 0, gates := l.gatesAt 0,
      gateUntil := some (entryEnd l a 0 0) }) ∧
  (∀ (p w a : Nat) (s : State), (s.upTo w).serving = true → p < 24 → ((s.upTo w).port p).weirNext = some (none, a) →
    a ≤ (s.upTo w).clk.ftime →
    Claims.Does (.weirTakeover p w) s fun t => (t.upTo w).updPort p fun x => { x with
      weir := none, weirNext := none, gateIdx := 0, gateCycle := 0, gates := 0xFFF#12, gateUntil := none }) ∧
  (∀ (p w a b : Nat) (l : Weir) (s : State), (s.upTo w).serving = true → p < 24 → ((s.upTo w).port p).weir = some (l, a) →
    ((s.upTo w).port p).gateUntil = some b → b ≤ (s.upTo w).clk.ftime →
    Claims.Does (.weirEntryAdvance p w) s fun t => (t.upTo w).updPort p fun x =>
      let k := entryNext l a x.gateCycle x.gateIdx
      { x with gateCycle := k.1, gateIdx := k.2, gates := l.gatesAt k.2, gateUntil := some (entryEnd l a k.1 k.2) })

/-- The class that an admission step of partition `p` takes (09 R291): class 3 when one of its queues may be admitted from, else by weight. -/
def Claims.admitPick (p : Nat) (v : State) : Option Nat × Wrr :=
  let elig (c : Nat) : Bool := (v.nextQueue p c v.queueReady).isSome
  let size (c : Nat) : Nat :=
    match (v.nextQueue p c v.queueReady).bind fun q => ((v.queue q).landed.head?).map fun m => (q, m) with
    | some (_, m) => m.payload.length
    | none => 0
  let w : Wrr :=
    { ptr := Tbl.getD v.slc.admPtr p 0, arrived := v.slc.admArr.contains p
      deficit := (v.slc.admDef.filter fun (d : Nat × Nat) => d.1 / 16 == p).map fun (d : Nat × Nat) => (d.1 % 16, d.2) }
  if elig 3 then (some 3, w)
  else wrrPick elig (fun c => (v.nextQueue p c fun q => !(v.queue q).landed.isEmpty).isNone) size
    (weightOf (Tbl.getD v.cfg.admitW p weightsReset)) 20000 w

/-- Admission and the changing requests (09 R283, R291, R292; 07 R218 to R220; 04 R146, R151; 10 R325, R326). An admission step takes the oldest message of the
queue that follows in its class; its checks refuse it in their order, or forward it to the writer; it is admitted when its
reservation is free and waits otherwise. A message that has waited too long is refused with NO_RESOURCE. COMMIT applies its
provisional set in one step or ends DEADLINE, NO_SESSION or FORMAT; a changing request whose deadline comes before its atomic step ends DEADLINE; a
provisional set is discarded at its expiry.
The model's choices here: assumptions 31, 111, 126. -/
def Obligations.Admission : Prop :=
  (∀ (p w c q : Nat) (e : EccReport) (m : Msg) (s v : State), v = State.upTo { s with out := [] } w → v.serving = true → p < 16 →
    (Claims.admitPick p v).1 = some c → v.nextQueue p c v.queueReady = some q → (v.queue q).landed.head? = some m →
    ∃ t : State, exec (.admissionStep p w e) s = .next { t.admitStep e m with pending := s.pending } ∧
      t = { v with slc := { v.slc with
        admPtr := t.slc.admPtr, admArr := t.slc.admArr, admDef := t.slc.admDef
        lastQ := Tbl.set v.slc.lastQ (16 * p + c) q } }) ∧
  (∀ (e : EccReport) (m : Msg) (t : State),
    (t.admitChecks m ≠ stOk → t.admitStep e m = t.refuseLanded m (t.admitChecks m)) ∧
    (t.admitChecks m = stOk → t.writesOf m = false → m.mayForward = true → t.admitStep e m = (t.unland m).forwardMsg m) ∧
    (t.admitChecks m = stOk → t.writesOf m = true ∨ m.mayForward = false → t.admitFormat m = false →
      t.admitStep e m = t.refuseLanded m stFormat) ∧
    (t.admitChecks m = stOk → t.writesOf m = false → m.mayForward = false → t.admitFormat m = true →
      t.admitStep e m = t.refuseLanded m stNoSession) ∧
    (∀ c, t.admitChecks m = stOk → t.writesOf m = true → t.admitFormat m = true → t.msgDeadline m = .error c →
      t.admitStep e m = t.refuseLanded m c) ∧
    (∀ d, t.admitChecks m = stOk → t.writesOf m = true → t.admitFormat m = true → t.msgDeadline m = .ok d →
      (t.needTooBig m.part (t.need m) = true → t.admitStep e m = t.refuseLanded m stFormat) ∧
      (t.needTooBig m.part (t.need m) = false → t.needFree m.part (t.need m) = true →
        t.admitStep e m = t.admitMsg e m (d.getD t.laterDeadline) (t.need m)) ∧
      (t.needTooBig m.part (t.need m) = false → t.needFree m.part (t.need m) = false → t.waitedOut { m with dlNs := d } = true →
        t.admitStep e m = t.refuseLanded m stNoRes) ∧
      (t.needTooBig m.part (t.need m) = false → t.needFree m.part (t.need m) = false → t.waitedOut { m with dlNs := d } = false →
        t.admitStep e m = t.updQueue m.queue fun q => { q with landed := q.landed.map fun (x : Msg) =>
          if x.id = m.id then { m with dlNs := d, waitAt := some (m.waitAt.getD t.clk.ftime) } else x }))) ∧
  (∀ (q w : Nat) (m : Msg) (s v : State), v = State.upTo { s with out := [] } w → v.serving = true →
    (v.queue q).landed.head? = some m → v.waitedOut m = true → v.needFree m.part (v.need m) = false →
    exec (.admitWaitExpiry q w) s = .next { v.refuseLanded m stNoRes with pending := s.pending }) ∧
  (∀ (r : Nat) (q : Req) (x : Session) (s v : State), v = { s with out := [] } → v.serving = true → v.req? r = some q → q.complete = false →
    q.atomic = false → q.msg.opcode = opCommit → v.setInUse (cmSession q.msg.payload) (cmPset q.msg.payload) = false →
    v.clk.ftime < q.dlNs → v.openSession q.msg.part (cmSession q.msg.payload) = some x →
    (v.commitCheck (cmSession q.msg.payload) x q.msg.payload = false →
      exec (.commitApply r) s = .next { v.finishReq r stFormat with pending := s.pending }) ∧
    (v.commitCheck (cmSession q.msg.payload) x q.msg.payload = true → cmLen q.msg.payload ≠ 0 →
      ∀ t l, v.applyCommit eccNone (cmSession q.msg.payload) x q.msg.payload = .ok (t, l) →
      exec (.commitApply r) s = .next { (t.updReq r fun q => { q with atomic := true }).commitChange x.part l (.request r stOk) with
        pending := s.pending })) ∧
  (∀ (r : Nat) (q : Req) (s : State), s.serving = true → s.req? r = some q → q.complete = false →
    q.atomic = false → q.msg.opcode = opCommit → s.setInUse (cmSession q.msg.payload) (cmPset q.msg.payload) = false →
    (q.dlNs ≤ s.clk.ftime → Claims.Does (.commitApply r) s fun t => t.finishReq r stDeadline) ∧
    (s.clk.ftime < q.dlNs → s.openSession q.msg.part (cmSession q.msg.payload) = none →
      Claims.Does (.commitApply r) s fun t => t.finishReq r stNoSession)) ∧
  (∀ (r w : Nat) (q : Req) (s v : State), v = State.upTo { s with out := [] } w → v.serving = true → v.req? r = some q → q.complete = false →
    q.atomic = false → q.msg.opcode ∈ [opAppend, opIngest, opCommit] → q.dlNs ≤ v.clk.ftime →
    exec (.appendDeadline r w) s = .next { v.finishReq r stDeadline with pending := s.pending }) ∧
  (∀ (x n w : Nat) (s : State), (s.upTo w).serving = true →
    Claims.Does (.provSetExpiry x n w) s fun t => (t.upTo w).dropProvs fun z =>
      z.session == x && z.pset == n && decide (z.expiry ≤ (t.upTo w).clk.ftime))

/-- What follows the collection of slot `n` of jet `j`: the slot is free, the jet's waiting commands are placed, and those of an isolated
jet go to the confluence (09 R288, R293). -/
def Claims.freed (j n : Nat) (t : State) : State := ((t.updJet j fun y => y.clearReady n).placeCmds j 16).divert j

/-- A hedge may be sent at `v` for request `x` (10 R336): an ATTEND from the fabric under DLP 2, neither complete nor hedged, on a
paired node with a claim free, and one of its entries, not cut and not formed yet, is predicted to miss the deadline. -/
def Claims.MayHedge (v : State) (r : Nat) (x : Req) : Prop :=
  v.serving = true ∧ (∃ a k n g i z, x.msg.origin = .fabric a k n g i z) ∧ x.msg.opcode = opAttend ∧ x.dlp = 2 ∧ x.complete = false ∧
  x.hedged = false ∧ v.twin.state = twPaired ∧ (∃ c, v.freeClaim = some c) ∧
  ∃ y ∈ x.entries, y.2.live = true ∧ y.2.formed = [] ∧ v.cutCome r y.1 x = false ∧ x.dlNs < v.predict r x y.1 y.2

/-- Sweeps and merges (04 R140, R157; 07 R221, R223 to R229; 09 R293; 10 R336; 12 R391, R396). SLOT_COLLECT of a slot that has ended takes the partials
of one that ended OK or STOPPED into the entries they serve, gives the pages of one that ended RESIDUE or ABORTED to the confluence, marks the pages
of one whose checks failed and fails the entries of one that ended otherwise; the slot is then free and the next command placed. A
partial all of whose pages were swept is added to its entry. CUT_TIME looks at the commands of its slot that have not ended and those of the jet that wait: one
whose cut time has come is stopped, or dropped with its pages omitted, under the policy that answers partially, and ends its entries DEADLINE under
another. ENTRY_MERGE merges the partials with the confluence's own part and answers, or fails the entry; an entry with commands still waiting is left
alone. At its deadline an entry whose own part is not complete fails. HEDGE_EVALUATE sends one HEDGE of the entries that are not
complete when one will miss its deadline. In every other case nothing changes but time and, at ENTRY_MERGE, the commands that wait for an isolated jet.
The model's choices here: assumptions 41, 43, 45, 59, 60, 81. -/
def Obligations.SweepsAndMerges : Prop :=
  (∀ (j n : Nat) (s : State), s.serving = false ∨ (s.jet j).ready.getLsbD n = false → Claims.Does (.slotCollect j n) s id) ∧
  (∀ (j n : Nat) (s : State), s.serving = true → (s.jet j).ready.getLsbD n = true →
    (∀ c, Tbl.get? s.slc.cmds (slTag ((s.jet j).slot n)) = some c → c.jet ≠ j ∨ c.slot ≠ some n) →
    Claims.Does (.slotCollect j n) s (Claims.freed j n)) ∧
  (∀ (j n : Nat) (c : JetCmd) (s : State), s.serving = true → (s.jet j).ready.getLsbD n = true →
    Tbl.get? s.slc.cmds (slTag ((s.jet j).slot n)) = some c → c.jet = j → c.slot = some n →
    (slResult ((s.jet j).slot n) = rsOk ∨ slResult ((s.jet j).slot n) = rsStopped →
      Claims.Does (.slotCollect j n) s fun t =>
        Claims.freed j n ((t.each (List.range c.sess.length) fun u k =>
          u.takePart (t.jet j) n c k (c.sess.getD k (0, 0)).1 (c.sess.getD k (0, 0)).2).dropCmd (slTag ((t.jet j).slot n)) c)) ∧
    (slResult ((s.jet j).slot n) = rsResidue ∨ slResult ((s.jet j).slot n) = rsAborted →
      Claims.Does (.slotCollect j n) s fun t =>
        Claims.freed j n ((t.reissueCmd (slTag ((t.jet j).slot n)) c).dropCmd (slTag ((t.jet j).slot n)) c)) ∧
    (slResult ((s.jet j).slot n) = rsTag ∨ slResult ((s.jet j).slot n) = rsEcc ∨ slResult ((s.jet j).slot n) = rsDecode →
      Claims.Does (.slotCollect j n) s fun t =>
        Claims.freed j n ((t.each c.live fun u p =>
          u.errPage c.req p.2.1 p.2.2 (statusOfResult (slResult ((t.jet j).slot n)))).dropCmd (slTag ((t.jet j).slot n)) c)) ∧
    (slResult ((s.jet j).slot n) ∉ [rsOk, rsStopped, rsResidue, rsAborted, rsTag, rsEcc, rsDecode] →
      Claims.Does (.slotCollect j n) s fun t =>
        Claims.freed j n ((t.each c.entries fun u e => u.failEntry c.req e stContained).dropCmd (slTag ((t.jet j).slot n)) c))) ∧
  (∀ (u : State) (x : Jet) (n : Nat) (c : JetCmd) (k e lo : Nat) (q : Req) (y : Entry), u.req? c.req = some q → q.entry? e = some y →
    y.live = true → slResult (x.slot n) = rsOk → c.ofUnit k ≠ [] → (∀ p ∈ c.ofUnit k, (x.slot n).getLsbD (88 + p.1) = false) →
    u.takePart x n c k e lo =
      let got := (partOf x c k lo y.spec.rows (((c.ofUnit k).map fun p => p.2.2.desc.tokenPos).foldl max 0)).go
      (u.addSat (slPart c.word) got.2).updEntry c.req e fun y => if y.live then { y with parts := y.parts ++ [got.1] } else y) ∧
  (∀ (j n w : Nat) (s : State), (s.upTo w).serving = true →
    Claims.Does (.cutTime j n w) s fun t =>
      (t.upTo w).each ((t.upTo w).slc.cmds.filter fun c => c.2.jet == j &&
        (match c.2.slot with | some k => k == n && !((t.upTo w).jet j).ready.getLsbD n | none => true)) fun u c =>
        if (Tbl.get? u.slc.cmds c.1).isSome then u.cutCmd c.1 c.2 else u) ∧
  (∀ (t : State) (g : Nat) (c : JetCmd) (x : Req), t.req? c.req = some x →
    (t.clk.ftime < t.cutTime x c → t.cutCmd g c = t) ∧
    (t.cutTime x c ≤ t.clk.ftime → x.dlp = 1 → ∀ k, c.slot = some k → t.cutCmd g c = t.updJet c.jet fun y => y.stopSlot k) ∧
    (t.cutTime x c ≤ t.clk.ftime → x.dlp = 1 → c.slot = none →
      t.cutCmd g c = (t.each c.live fun t p => t.omitDl c.req p.2.1 p.2.2).dropCmd g c) ∧
    (t.cutTime x c ≤ t.clk.ftime → x.dlp ≠ 1 → t.cutCmd g c = t.each c.entries fun t e => t.cutEntry c.req e)) ∧
  (∀ (j n r e w : Nat) (q : EccReport) (b : Bool) (s : State), (s.upTo w).serving = false →
    Claims.Does (.cutTime j n w) s (fun t => t.upTo w) ∧ Claims.Does (.entryMerge r e w q b) s (fun t => t.upTo w)) ∧
  (∀ (r e w : Nat) (x : Req) (y : Entry) (s v : State), v = State.upTo { s with out := [] } w → v.serving = true → v.req? r = some x →
    x.entry? e = some y → y.live = true → y.formed = [] → y.hasOwn = true → x.dlNs - v.mergeRes x y ≤ v.clk.ftime →
    exec (.confluenceDeadline r e w) s = .next { v.failEntry r e stDeadline with pending := s.pending }) ∧
  (∀ (r e w : Nat) (s v : State), v = State.upTo { s with out := [] } w →
    (∀ x y, v.req? r = some x → x.entry? e = some y → v.serving = false ∨ y.live = false ∨ y.formed ≠ [] ∨ y.hasOwn = false ∨
      v.clk.ftime < x.dlNs - v.mergeRes x y) →
    exec (.confluenceDeadline r e w) s = .next v) ∧
  (∀ (r e w : Nat) (q : EccReport) (b : Bool) (s d : State), (s.upTo w).serving = true → d = (State.upTo { s with out := [] } w).divertAll →
    (∀ x y, d.req? r = some x → x.entry? e = some y → y.live = false ∨ y.formed ≠ [] ∨ y.waiting ≠ 0) →
    exec (.entryMerge r e w q b) s = .next { d with pending := s.pending }) ∧
  (∀ (r e w : Nat) (q : EccReport) (b : Bool) (x : Req) (y : Entry) (s d : State), (s.upTo w).serving = true →
    d = (State.upTo { s with out := [] } w).divertAll → d.req? r = some x → x.entry? e = some y → y.live = true → y.formed = [] →
    y.waiting = 0 →
    (d.session? y.spec.session = none →
      exec (.entryMerge r e w q b) s = .next { d.failEntry r e stNoSession with pending := s.pending }) ∧
    (∀ z, d.session? y.spec.session = some z →
      let u := d.each (y.own ++ y.reissue.map fun w => w.2.2.2) fun t w =>
        (w.base.map Prod.fst).toList.foldl (fun t r => t.recoverCopy q r) (t.recoverCopy q w.pg)
      (∀ t st, u.confluenceParts q z x y = (t, .error st) →
        exec (.entryMerge r e w q b) s = .next { t.failEntry r e st with pending := s.pending }) ∧
      (∀ t own re bad, u.confluenceParts q z x y = (t, .ok (own, re, bad)) → b = false →
        exec (.entryMerge r e w q b) s = .next
          { (({ t with draws := t.draws + 1 }).fault
              { code := 0x13, srcKind := 3, srcIndex := 0, part := some x.msg.part, addr := 0
                syndrome := Config.residueSyndrome t.draws
                place := (mapClusters (t.pmap x.msg.part)).head?.map fun c => .array c 0 }).failEntry r e stContained with
            pending := s.pending }) ∧
      (∀ t own re bad, u.confluenceParts q z x y = (t, .ok (own, re, bad)) → b = true →
        (∀ y', ((t.errPages x r e bad).req? r).bind (fun x => x.entry? e) = some y' → y'.live = true →
          let f := (t.errPages x r e bad).formResp x e y' (own ++ (y'.parts ++ re).foldl (fun l p => insertPart p l) [])
          exec (.entryMerge r e w q b) s = .next { f.1.answerEntry r e f.2 true with pending := s.pending }) ∧
        ((∀ y', ((t.errPages x r e bad).req? r).bind (fun x => x.entry? e) = some y' → y'.live = false) →
          exec (.entryMerge r e w q b) s = .next { t.errPages x r e bad with pending := s.pending })))) ∧
  (∀ (r w c : Nat) (x : Req) (a : BitVec 13) (k : BitVec 10) (n : BitVec 20) (g : BitVec 16) (i : BitVec 32) (z : Bool) (s v : State),
    v = State.upTo { s with out := [] } w → v.req? r = some x → Claims.MayHedge v r x → x.msg.origin = .fabric a k n g i z →
    v.freeClaim = some c →
    let l := (x.entries.filter fun y => y.2.live && y.2.formed.isEmpty).map Prod.fst
    let t := (v.setReq r { x with hedged := true, claim := some c }).count cHedgeSent 1
    let t := { t with twin := { t.twin with
      claims := Tbl.set t.twin.claims c (l.map fun e => (e, clOpen))
      claimReq := Tbl.set t.twin.claimReq c r } }
    exec (.hedgeEvaluate r w) s = .next { t.sendMsg
      { dst := BitVec.ofNat 13 v.twinNode, rclass := 0#2, pclass := 0, opcode := opHedge, fwd := false, keySlot := k,
        window := n, gen := g, offset := 0, imm := 0#32 }
      (hedgeHeader a.toNat c x.dlNs l ++ x.msg.payload) (fun _ => .hedge c) with pending := s.pending }) ∧
  (∀ (r w : Nat) (s v : State), v = State.upTo { s with out := [] } w → (∀ x, v.req? r = some x → ¬ Claims.MayHedge v r x) →
    exec (.hedgeEvaluate r w) s = .next v)

/-- The twin pair (10 R315, R317, R325, R327, R329, R330, R333 to R335; 14 R464). A paired node that has sent nothing on class 1 for 5 us sends an empty
MIRROR. A change without APPLIED for 4,540 us, a twin silent by R330, and a twin silent for 100 ms after JOINING began, put the node into
solo mode. REJOIN with equal digests starts the resync: a JOINING node discards what is later than its
stamp and receives, the survivor sends the copy; differing digests raise CFG_MISMATCH and change no state. When the resync is complete
the node enters PAIRED and asks for the repairs it waits for.
The model's choices here: assumptions 25, 39, 112. -/
def Obligations.TwinStates : Prop :=
  (∀ (w p : Nat) (s v : State), v = State.upTo { s with out := [] } w → v.serving = true → v.twin.state = twPaired →
    v.twin.sentAt + 5000 ≤ v.clk.ftime → p < 16 → v.mirrorKey p = true → (∀ q < p, v.mirrorKey q = false) →
    exec (.mirrorKeepalive w) s = .next { v.sendMirror p [] with pending := s.pending }) ∧
  (∀ (w : Nat) (s v : State), v = State.upTo { s with out := [] } w → v.serving = true → v.twin.state = twPaired →
    (∃ c ∈ v.twin.changes, c.sentAt + 4540000 ≤ v.clk.ftime) →
    exec (.writerApplyTimeout w) s = .next { v.enterSolo with pending := s.pending }) ∧
  (∀ (w : Nat) (s v : State), v = State.upTo { s with out := [] } w → v.serving = true → v.twin.state = twPaired →
    v.twin.heardAt + 70000 ≤ v.clk.ftime →
    exec (.twinSilenceTimeout true false w) s = .next { v.enterSolo with pending := s.pending }) ∧
  (∀ (w : Nat) (a b : Bool) (s : State), a = false ∨ b = true → Claims.Does (.twinSilenceTimeout a b w) s fun t => t.upTo w) ∧
  (∀ (w : Nat) (s v : State), v = State.upTo { s with out := [] } w → v.serving = true → v.twin.state = twJoining →
    v.twin.joinAt + 100000000 ≤ v.clk.ftime →
    exec (.joiningTimeout w) s = .next { v.enterSolo with pending := s.pending }) ∧
  (∀ (d : Digest) (a : Nat) (b : Bool) (s : State), s.serving = true → s.pairEn = true → s.cfgDigest ≠ d →
    (s.twin.state = twPaired → Claims.Does (.rejoin d a b) s fun t => { t with twin := { t.twin with cfgMismatch := true } }) ∧
    (s.twin.state ≠ twPaired → Claims.Does (.rejoin d a b) s id)) ∧
  (∀ (d : Digest) (a : Nat) (s : State), s.serving = true → s.pairEn = true → s.cfgDigest = d →
    (s.twin.state = twJoining → Claims.Does (.rejoin d a true) s fun t =>
      { t.discardAfter t.rejoinStamp with twin := { (t.discardAfter t.rejoinStamp).twin with state := twDst } }) ∧
    (s.twin.state = twSolo ∨ s.twin.state = twSrc → Claims.Does (.rejoin d a true) s fun t =>
      ({ t with twin := { t.twin with state := twSrc, s0 := t.clk.ftime, resyncA := a } }).sendResync a)) ∧
  (∀ (s : State), s.serving = true → s.twin.state = twDst ∨ (s.twin.state = twSrc ∧ s.mirrorBusy = false) →
    Claims.Does .resyncComplete s fun t =>
      ({ t with twin := { t.twin with state := twPaired, heardAt := t.clk.ftime, refusals := 0 } }).requestRepairs)

/-- The sideband SPI target and JTAG (15 R485 to R488). In IDLE a whole word is a command word: MISO carries SB_LAST of the transaction before, and the
value of the register named is latched, a reserved field or an index that is not decoded being BADADDR. In DATA a whole word completes
the transaction: a write reaches its register, a read shifts out what was latched. A word of 1 to 31 clocks is discarded and counted, a word
of more than 32 is used and counted, and 1 ms without a data word abandons the transaction. ERR_CLR clears the four counts. How the words
go with the target's state is DEDUCED (assumptions 119, 120, 121).
IDCODE shows version 1, part 0x0512 and manufacturer 0x4B7; BYPASS and SAMPLE/PRELOAD load at any time, EXTEST,
EXTEST_PULSE and EXTEST_TRAIN only while RST_N is low, BYPASS taking their place at any other time. Nothing else changes. -/
def Obligations.SidebandAndJtag : Prop :=
  (∀ (i : BitVec 32 → Nat → Nat → Instr), i = .sbCommandWord ∨ i = .sbDataWord →
    ∀ (x : BitVec 32) (n w : Nat) (s : State), (s.upTo w).sbOn = true → 32 ≤ n →
    ((s.upTo w).sb.inData = false → Claims.Does (i x n w) s fun t =>
      let u := t.upTo w
      let r := if fld x 12 19 = 0 then u.sbRead (fld x 0 12) else none
      let b := { u.sb with inData := true, cmd := x, latched := BitVec.ofNat 32 (r.getD 0), cmdAt := u.clk.up, last := 0#5 }
      let b := if 32 < n then (b.flag 2).bump 1 else b
      { u.emit (.miso (u.sb.last.setWidth 32)) with sb := if r.isNone then (b.flag 4).bump 3 else b }) ∧
    ((s.upTo w).sb.inData = true → (s.upTo w).sb.cmd.getLsbD 31 = false → Claims.Does (i x n w) s fun t =>
      let u := t.upTo w
      let b := { u.sb with inData := false }
      let b := if u.sb.last.getLsbD 4 then b else b.flag 0
      { u with sb := if 32 < n then (b.flag 2).bump 1 else b }.emit (.miso u.sb.latched)) ∧
    ((s.upTo w).sb.inData = true → (s.upTo w).sb.cmd.getLsbD 31 = true → (s.upTo w).sb.last.getLsbD 4 = false → Claims.Does (i x n w) s fun t =>
      let u := t.upTo w
      let b := { u.sb with inData := false }.flag 0
      { u with sb := if 32 < n then (b.flag 2).bump 1 else b }.sbWrite (fld u.sb.cmd 0 12) x) ∧
    ((s.upTo w).sb.inData = true → (s.upTo w).sb.cmd.getLsbD 31 = true → (s.upTo w).sb.last.getLsbD 4 = true → Claims.Does (i x n w) s fun t =>
      let u := t.upTo w
      let b := { u.sb with inData := false }
      { u with sb := if 32 < n then (b.flag 2).bump 1 else b })) ∧
  (∀ (x : BitVec 32) (u : State), u.sbOn = true → x.getLsbD 0 = true → u.sbWrite 7 x = { u with sb := { u.sb with errs := 0#32 } }) ∧
  (∀ (x : BitVec 32) (u : State), u.sbWrite 9 x = { u with sb := { u.sb with irq := u.sb.irq &&& ~~~(x.setWidth 3) } } ∧
    u.sbWrite 10 x = { u with sb := { u.sb with scratch := x } } ∧ ∀ i ∉ [7, 8, 9, 10], u.sbWrite i x = u) ∧
  (∀ (n : Nat) (s : State), s.sbOn = true → 1 ≤ n → n ≤ 31 →
    Claims.Does (.sbWordDiscarded n) s fun t =>
      { t with sb := ({ t.sb with inData := false, last := if t.sb.inData then t.sb.last else 0#5 } : Machine.Sideband).flag 1 |>.bump 0 }) ∧
  (∀ (w : Nat) (s : State), (s.upTo w).sbOn = true → (s.upTo w).sb.inData = true → (s.upTo w).sb.cmdAt + 1000000 ≤ (s.upTo w).clk.up →
    Claims.Does (.sbDataTimeout w) s fun t =>
      { t.upTo w with sb := ({ (t.upTo w).sb with inData := false } : Machine.Sideband).flag 3 |>.bump 2 }) ∧
  (∀ (x : BitVec 32) (s : State), s.sbOn = true →
    (x.getLsbD 0 = true → Claims.Does (.errClr x) s fun t => { t with sb := { t.sb with errs := 0#32 } }) ∧
    (x.getLsbD 0 = false → Claims.Does (.errClr x) s id)) ∧
  (∀ (b : Machine.Sideband) (n : Nat), n < 4 → fld (b.bump n).errs (8 * n) 8 = min (fld b.errs (8 * n) 8 + 1) 255) ∧
  (∀ (s : State),
    Claims.Does .bypass s (fun t => { t with sb := { t.sb with jtagIr := 1 } }) ∧
    Claims.Does .idcode s (fun t => { t with sb := { t.sb with jtagIr := 0 }, out := [.jtag 0x1051296F#32] }) ∧
    Claims.Does .samplePreload s (fun t => { t with sb := { t.sb with jtagIr := 2 } })) ∧
  (∀ (s : State), s.pins.rstLow = true →
    Claims.Does .extest s (fun t => { t with sb := { t.sb with jtagIr := 3 } }) ∧
    Claims.Does .extestPulse s (fun t => { t with sb := { t.sb with jtagIr := 4 } }) ∧
    Claims.Does .extestTrain s (fun t => { t with sb := { t.sb with jtagIr := 5 } })) ∧
  (∀ (s : State), s.pins.rstLow = false → ∀ i ∈ [Instr.extest, .extestPulse, .extestTrain],
    Claims.Does i s fun t => { t with sb := { t.sb with jtagIr := 1 } }) ∧
  (0x1051296F#32).extractLsb' 28 4 = 1#4 ∧ (0x1051296F#32).extractLsb' 12 16 = 0x0512#16 ∧
    (0x1051296F#32).extractLsb' 1 11 = 0x4B7#11 ∧ (0x1051296F#32).getLsbD 0 = true
end

