-- ==== Sys2Proof/Laws/InvBase.lean ====
section
/-! SUPPORT. The state invariant under the operations that build states: record updates, folds, memory writes and clears,
stage changes, management commands and `run`. -/

namespace Sys2Proof.Machine

theorem inv_same {s t : State} (h : s.Inv) (h1 : t.mem = s.mem) (h2 : t.boot.stage = s.boot.stage)
    (h3 : t.twin.state = s.twin.state) (h4 : t.pwr.level = s.pwr.level) (h5 : t.pwr.cfg = s.pwr.cfg)
    (h6 : t.flt.ctl = s.flt.ctl) (h7 : t.flt.next = s.flt.next) (h8 : t.mbNext = s.mbNext) : t.Inv :=
  ⟨h1 ▸ h.mem, h2 ▸ h.stage, h3 ▸ h.twin, h4 ▸ h.level, h5 ▸ h.pwrCfg, h6 ▸ h.fltCtl, h7 ▸ h.hist, h8 ▸ h.turn⟩

theorem mk_same {xpending xdraws xout xfuses xpins xboot xclk xpwr xflt xspares xmem xside xallocCtr xallocs xbadGrains xsessions xprovs xparts xcfg xep xslc xwt xjets xjetSched xsec xmboxes xmbNext xtwin xsb} {s : State} (h : s.Inv) (h1 : xmem = s.mem) (h2 : xboot.stage = s.boot.stage)
    (h3 : xtwin.state = s.twin.state) (h4 : xpwr.level = s.pwr.level) (h5 : xpwr.cfg = s.pwr.cfg)
    (h6 : xflt.ctl = s.flt.ctl) (h7 : xflt.next = s.flt.next) (h8 : xmbNext = s.mbNext) :
    State.Inv (State.mk xpending xdraws xout xfuses xpins xboot xclk xpwr xflt xspares xmem xside xallocCtr xallocs xbadGrains xsessions xprovs xparts xcfg xep xslc xwt xjets xjetSched xsec xmboxes xmbNext xtwin xsb) :=
  inv_same h h1 h2 h3 h4 h5 h6 h7 h8

theorem inv_twin {s t : State} (h : s.Inv) (h1 : t.mem = s.mem) (h2 : t.boot.stage = s.boot.stage)
    (h3 : t.twin.state ≤ 5) (h4 : t.pwr.level = s.pwr.level) (h5 : t.pwr.cfg = s.pwr.cfg)
    (h6 : t.flt.ctl = s.flt.ctl) (h7 : t.flt.next = s.flt.next) (h8 : t.mbNext = s.mbNext) : t.Inv :=
  ⟨h1 ▸ h.mem, h2 ▸ h.stage, h3, h4 ▸ h.level, h5 ▸ h.pwrCfg, h6 ▸ h.fltCtl, h7 ▸ h.hist, h8 ▸ h.turn⟩

theorem mk_twin {xpending xdraws xout xfuses xpins xboot xclk xpwr xflt xspares xmem xside xallocCtr xallocs xbadGrains xsessions xprovs xparts xcfg xep xslc xwt xjets xjetSched xsec xmboxes xmbNext xtwin xsb} {s : State} (h : s.Inv) (h1 : xmem = s.mem) (h2 : xboot.stage = s.boot.stage)
    (h3 : Nat.ble xtwin.state 5 = true) (h4 : xpwr.level = s.pwr.level) (h5 : xpwr.cfg = s.pwr.cfg)
    (h6 : xflt.ctl = s.flt.ctl) (h7 : xflt.next = s.flt.next) (h8 : xmbNext = s.mbNext) :
    State.Inv (State.mk xpending xdraws xout xfuses xpins xboot xclk xpwr xflt xspares xmem xside xallocCtr xallocs xbadGrains xsessions xprovs xparts xcfg xep xslc xwt xjets xjetSched xsec xmboxes xmbNext xtwin xsb) :=
  inv_twin h h1 h2 (Nat.le_of_ble_eq_true h3) h4 h5 h6 h7 h8

theorem ite_inv {c : Prop} [Decidable c] {a b : State} (ha : a.Inv) (hb : b.Inv) : (if c then a else b).Inv := by
  split <;> assumption

theorem foldl_inv {α : Type} {f : State → α → State} (hf : ∀ t x, t.Inv → (f t x).Inv) (l : List α) :
    ∀ {s : State}, s.Inv → (l.foldl f s).Inv := by
  induction l with
  | nil => intro s h; exact h
  | cons x l ih => intro s h; exact ih (hf s x h)

theorem State.each_inv {α : Type} {s : State} {l : List α} {f : State → α → State} (hf : ∀ t x, t.Inv → (f t x).Inv)
    (h : s.Inv) : (s.each l f).Inv := foldl_inv hf l h

theorem Memory.cells_mem {c : Host.Cell} : ∀ {l : List Byte} {a : Nat}, c ∈ Memory.cells a l →
    a ≤ c.1 ∧ c.1 < a + l.length ∧ c.2 ≠ 0#8
  | [], a, h => by simp [Memory.cells] at h
  | b :: l, a, h => by
    unfold Memory.cells at h
    split at h
    · obtain ⟨h1, h2, h3⟩ := Memory.cells_mem h
      exact ⟨by omega, by simp only [List.length_cons]; omega, h3⟩
    · rcases List.mem_cons.1 h with h | h
      · subst h; simp only [List.length_cons]; exact ⟨Nat.le_refl _, by omega, ‹_›⟩
      · obtain ⟨h1, h2, h3⟩ := Memory.cells_mem h
        exact ⟨by omega, by simp only [List.length_cons]; omega, h3⟩

theorem Memory.cells_rising : ∀ {l : List Byte} {a : Nat}, (Memory.cells a l).Pairwise (fun x y => x.1 < y.1)
  | [], a => List.Pairwise.nil
  | b :: l, a => by
    unfold Memory.cells
    split
    · exact Memory.cells_rising
    · refine List.Pairwise.cons (fun c hc => ?_) Memory.cells_rising
      have := Memory.cells_mem hc; show a < c.1; omega

theorem Memory.cells_wf {l : List Byte} {a : Nat} : Memory.wf (Memory.cells a l) :=
  ⟨Memory.cells_rising, fun _ hc => (Memory.cells_mem hc).2.2⟩

theorem Memory.write_wf {m : List Host.Cell} {a : Nat} {l : List Byte} (h : Memory.wf m) :
    Memory.wf (Memory.write m a l) := by
  refine ⟨?_, fun c hc => ?_⟩
  · unfold Memory.write
    rw [List.pairwise_append, List.pairwise_append]
    refine ⟨⟨h.1.filter _, Memory.cells_rising, fun x hx y hy => ?_⟩, h.1.filter _, fun x hx y hy => ?_⟩
    · have h1 := (List.mem_filter.1 hx).2; have h2 := Memory.cells_mem hy
      simp only [decide_eq_true_eq] at h1; omega
    · have h2 := (List.mem_filter.1 hy).2
      simp only [decide_eq_true_eq] at h2
      rcases List.mem_append.1 hx with hx | hx
      · have h1 := (List.mem_filter.1 hx).2; simp only [decide_eq_true_eq] at h1; omega
      · have h1 := Memory.cells_mem hx; omega
  · unfold Memory.write at hc
    rcases List.mem_append.1 hc with hc | hc
    · rcases List.mem_append.1 hc with hc | hc
      · exact h.2 c (List.mem_filter.1 hc).1
      · exact (Memory.cells_mem hc).2.2
    · exact h.2 c (List.mem_filter.1 hc).1

theorem Memory.clear_wf {m : List Host.Cell} {p : Nat → Bool} (h : Memory.wf m) : Memory.wf (Memory.clear m p) :=
  ⟨h.1.filter _, fun c hc => h.2 c (List.mem_filter.1 hc).1⟩

theorem inv_mem {s t : State} (h : s.Inv) (h1 : Memory.wf t.mem) (h2 : t.boot.stage = s.boot.stage)
    (h3 : t.twin.state = s.twin.state) (h4 : t.pwr.level = s.pwr.level) (h5 : t.pwr.cfg = s.pwr.cfg)
    (h6 : t.flt.ctl = s.flt.ctl) (h7 : t.flt.next = s.flt.next) (h8 : t.mbNext = s.mbNext) : t.Inv :=
  ⟨h1, h2 ▸ h.stage, h3 ▸ h.twin, h4 ▸ h.level, h5 ▸ h.pwrCfg, h6 ▸ h.fltCtl, h7 ▸ h.hist, h8 ▸ h.turn⟩

theorem State.toStage_inv {s : State} {n : Nat} (hn : n ≤ 7) (h : s.Inv) : (s.toStage n).Inv := by
  have : (if s.boot.stage = n then s else s.raiseIrq 0).Inv := ite_inv h (mk_same h rfl rfl rfl rfl rfl rfl rfl rfl)
  exact ⟨this.mem, hn, this.twin, this.level, this.pwrCfg, this.fltCtl, this.hist, this.turn⟩

theorem State.agtan_inv {s : State} {o : AgtanOp} {c : AgtanCmd} {f : State → State} (hf : (f s).Inv)
    (hr : (s.respond o.code c (s.agtanStatus o c) []).Inv) (h : s.Inv) : (s.agtan o c f).Inv := by
  unfold State.agtan; split
  · split <;> assumption
  · exact h

theorem getD_inv {s : State} {o : Option State} (ho : ∀ t, o = some t → t.Inv) (h : s.Inv) : (o.getD s).Inv := by
  cases o with
  | none => exact h
  | some t => exact ho t rfl

theorem foldlM_some_inv {α : Type} {f : State → α → Option State} (hf : ∀ t x u, t.Inv → f t x = some u → u.Inv)
    (l : List α) : ∀ {s : State}, s.Inv → ∀ t, l.foldlM f s = some t → t.Inv := by
  induction l with
  | nil => intro s h t ht; cases ht; exact h
  | cons x l ih =>
    intro s h t ht
    rw [List.foldlM_cons] at ht
    cases hx : f s x with
    | none => rw [hx] at ht; cases ht
    | some u => rw [hx] at ht; exact ih (hf s x u h hx) t ht

theorem foldlM_ok_inv {α ε : Type} {f : State → α → Except ε State} (hf : ∀ t x u, t.Inv → f t x = .ok u → u.Inv)
    (l : List α) : ∀ {s : State}, s.Inv → ∀ t, l.foldlM f s = .ok t → t.Inv := by
  induction l with
  | nil => intro s h t ht; cases ht; exact h
  | cons x l ih =>
    intro s h t ht
    rw [List.foldlM_cons] at ht
    cases hx : f s x with
    | error e => rw [hx] at ht; cases ht
    | ok u => rw [hx] at ht; exact ih (hf s x u h hx) t ht

theorem foldl_fst_inv {α β : Type} {f : State × β → α → State × β} (hf : ∀ a x, a.1.Inv → (f a x).1.Inv) (l : List α) :
    ∀ {a : State × β}, a.1.Inv → (l.foldl f a).1.Inv := by
  induction l with
  | nil => intro a h; exact h
  | cons x l ih => intro a h; exact ih (hf a x h)

theorem bind_ok {α β ε : Type} {x : Except ε α} {f : α → Except ε β} {b : β} (h : (x >>= f) = .ok b) :
    ∃ a, x = .ok a ∧ f a = .ok b := by
  cases x with
  | error e => cases h
  | ok a => exact ⟨a, rfl, h⟩

theorem mask_clear (v m n : Word64) (h : m &&& n = 0#64) : v &&& m &&& n = 0#64 := by
  rw [BitVec.and_assoc, h, BitVec.and_zero]

/-- Every next state that an outcome gives is legal. -/
def OutInv (o : Host.Outcome State Fault Refusal) : Prop := ∀ t, o = .next t → t.Inv

theorem run_inv {s : State} {f : State → State} (hf : ∀ u : State, u.Inv → (f u).Inv) (h : s.Inv) : OutInv (run s f) := by
  intro t ht
  cases ht
  exact mk_same (hf _ (mk_same h rfl rfl rfl rfl rfl rfl rfl rfl)) rfl rfl rfl rfl rfl rfl rfl rfl

theorem State.announced_inv {s : State} {a1 a2} (h : s.Inv) : (State.announced s a1 a2).Inv := by
  unfold State.announced
  try dsimp only
  repeat' first
    | intro _
    | with_reducible assumption
    | with_reducible apply ite_inv
    | with_reducible apply foldl_inv
    | (fail_if_no_progress with_reducible refine mk_same ?_ rfl rfl rfl rfl rfl rfl rfl rfl)

end Sys2Proof.Machine
end

