-- ==== Sys2Proof/Laws/InvShared.lean ====
section
/-! SUPPORT. The state invariant is kept by the operations that many commands share: queues, counters, answers, pages, jets and the twin.
One lemma per operation: the state it answers is legal whenever the state it gets is. -/

namespace Sys2Proof.Machine

theorem State.setPart_inv {s : State} {a1 a2} (h : s.Inv) : (State.setPart s a1 a2).Inv := by
  unfold State.setPart
  try dsimp only
  repeat' first
    | intro _
    | with_reducible assumption
    | with_reducible apply ite_inv
    | with_reducible apply foldl_inv
    | (fail_if_no_progress with_reducible refine mk_same ?_ rfl rfl rfl rfl rfl rfl rfl rfl)

theorem State.updPart_inv {s : State} {a1 a2} (h : s.Inv) : (State.updPart s a1 a2).Inv := by
  unfold State.updPart
  try dsimp only
  repeat' first
    | intro _
    | with_reducible assumption
    | with_reducible apply State.setPart_inv

theorem State.setSession_inv {s : State} {a1 a2} (h : s.Inv) : (State.setSession s a1 a2).Inv := by
  unfold State.setSession
  try dsimp only
  repeat' first
    | intro _
    | with_reducible assumption
    | with_reducible apply ite_inv
    | with_reducible apply foldl_inv
    | (fail_if_no_progress with_reducible refine mk_same ?_ rfl rfl rfl rfl rfl rfl rfl rfl)

theorem State.putGrain_inv {s : State} {a1 a2 a3 a4} (h : s.Inv) : (s.putGrain a1 a2 a3 a4).Inv :=
  ⟨Memory.write_wf h.mem, h.stage, h.twin, h.level, h.pwrCfg, h.fltCtl, h.hist, h.turn⟩

theorem State.patchGrain_inv {s : State} {a1 a2 a3} (h : s.Inv) : (State.patchGrain s a1 a2 a3).Inv := by
  unfold State.patchGrain
  try dsimp only
  repeat' first
    | intro _
    | with_reducible assumption
    | with_reducible apply State.putGrain_inv

theorem State.putPage_inv {s : State} {a1 a2} (h : s.Inv) : (State.putPage s a1 a2).Inv := by
  unfold State.putPage
  try dsimp only
  repeat' first
    | intro _
    | with_reducible assumption
    | with_reducible apply State.updPart_inv
    | with_reducible apply State.setSession_inv
    | with_reducible apply State.patchGrain_inv
    | with_reducible apply ite_inv
    | with_reducible apply foldl_inv
    | (fail_if_no_progress with_reducible refine mk_same ?_ rfl rfl rfl rfl rfl rfl rfl rfl)
    | split

theorem State.freeAllocs_inv {s : State} {a1} (h : s.Inv) : (State.freeAllocs s a1).Inv := by
  unfold State.freeAllocs
  try dsimp only
  repeat' first
    | intro _
    | with_reducible assumption
    | with_reducible apply ite_inv
    | with_reducible apply foldl_inv
    | (fail_if_no_progress with_reducible refine mk_same ?_ rfl rfl rfl rfl rfl rfl rfl rfl)

theorem State.abandonMigr_inv {s : State} {a1} (h : s.Inv) : (State.abandonMigr s a1).Inv := by
  unfold State.abandonMigr
  try dsimp only
  repeat' first
    | intro _
    | with_reducible assumption
    | with_reducible apply State.putPage_inv
    | with_reducible apply State.freeAllocs_inv
    | with_reducible apply ite_inv
    | with_reducible apply foldl_inv
    | (fail_if_no_progress with_reducible refine mk_same ?_ rfl rfl rfl rfl rfl rfl rfl rfl)
    | split

theorem State.abandonSession_inv {s : State} {a1} (h : s.Inv) : (State.abandonSession s a1).Inv := by
  unfold State.abandonSession
  try dsimp only
  repeat' first
    | intro _
    | with_reducible assumption
    | with_reducible apply State.each_inv
    | with_reducible apply State.abandonMigr_inv
    | with_reducible apply ite_inv
    | with_reducible apply foldl_inv
    | (fail_if_no_progress with_reducible refine mk_same ?_ rfl rfl rfl rfl rfl rfl rfl rfl)
    | split

theorem State.setMbox_inv {s : State} {a1 a2} (h : s.Inv) : (State.setMbox s a1 a2).Inv := by
  unfold State.setMbox
  try dsimp only
  repeat' first
    | intro _
    | with_reducible assumption
    | with_reducible apply ite_inv
    | with_reducible apply foldl_inv
    | (fail_if_no_progress with_reducible refine mk_same ?_ rfl rfl rfl rfl rfl rfl rfl rfl)

theorem State.updMbox_inv {s : State} {a1 a2} (h : s.Inv) : (State.updMbox s a1 a2).Inv := by
  unfold State.updMbox
  try dsimp only
  repeat' first
    | intro _
    | with_reducible assumption
    | with_reducible apply State.setMbox_inv

theorem State.setRx_inv {s : State} {a1 a2 a3} (h : s.Inv) : (State.setRx s a1 a2 a3).Inv := by
  unfold State.setRx
  try dsimp only
  repeat' first
    | intro _
    | with_reducible assumption
    | with_reducible apply ite_inv
    | with_reducible apply foldl_inv
    | (fail_if_no_progress with_reducible refine mk_same ?_ rfl rfl rfl rfl rfl rfl rfl rfl)

theorem State.setTx_inv {s : State} {a1 a2 a3} (h : s.Inv) : (State.setTx s a1 a2 a3).Inv := by
  unfold State.setTx
  try dsimp only
  repeat' first
    | intro _
    | with_reducible assumption
    | with_reducible apply ite_inv
    | with_reducible apply foldl_inv
    | (fail_if_no_progress with_reducible refine mk_same ?_ rfl rfl rfl rfl rfl rfl rfl rfl)

theorem State.giveBack_inv {s : State} {a1 a2 a3} (h : s.Inv) : (State.giveBack s a1 a2 a3).Inv := by
  unfold State.giveBack
  try dsimp only
  repeat' first
    | intro _
    | with_reducible assumption
    | with_reducible apply ite_inv
    | with_reducible apply foldl_inv
    | (fail_if_no_progress with_reducible refine mk_same ?_ rfl rfl rfl rfl rfl rfl rfl rfl)

theorem State.dropReq_inv {s : State} {a1} (h : s.Inv) : (State.dropReq s a1).Inv := by
  unfold State.dropReq
  try dsimp only
  repeat' first
    | intro _
    | with_reducible assumption
    | with_reducible apply ite_inv
    | with_reducible apply foldl_inv
    | (fail_if_no_progress with_reducible refine mk_same ?_ rfl rfl rfl rfl rfl rfl rfl rfl)

theorem State.setQueue_inv {s : State} {a1 a2} (h : s.Inv) : (State.setQueue s a1 a2).Inv := by
  unfold State.setQueue
  try dsimp only
  repeat' first
    | intro _
    | with_reducible assumption
    | with_reducible apply ite_inv
    | with_reducible apply foldl_inv
    | (fail_if_no_progress with_reducible refine mk_same ?_ rfl rfl rfl rfl rfl rfl rfl rfl)

theorem State.updQueue_inv {s : State} {a1 a2} (h : s.Inv) : (State.updQueue s a1 a2).Inv := by
  unfold State.updQueue
  try dsimp only
  repeat' first
    | intro _
    | with_reducible assumption
    | with_reducible apply State.setQueue_inv

theorem State.freeRing_inv {s : State} {a1 a2} (h : s.Inv) : (State.freeRing s a1 a2).Inv := by
  unfold State.freeRing
  try dsimp only
  repeat' first
    | intro _
    | with_reducible assumption
    | with_reducible apply State.updQueue_inv

theorem State.settleReq_inv {s : State} {a1} (h : s.Inv) : (State.settleReq s a1).Inv := by
  unfold State.settleReq
  try dsimp only
  repeat' first
    | intro _
    | with_reducible assumption
    | with_reducible apply State.dropReq_inv
    | with_reducible apply State.giveBack_inv
    | with_reducible apply State.updQueue_inv
    | with_reducible apply State.freeRing_inv
    | with_reducible apply ite_inv
    | with_reducible apply foldl_inv
    | (fail_if_no_progress with_reducible refine mk_same ?_ rfl rfl rfl rfl rfl rfl rfl rfl)
    | split

theorem State.setReq_inv {s : State} {a1 a2} (h : s.Inv) : (State.setReq s a1 a2).Inv := by
  unfold State.setReq
  try dsimp only
  repeat' first
    | intro _
    | with_reducible assumption
    | with_reducible apply ite_inv
    | with_reducible apply foldl_inv
    | (fail_if_no_progress with_reducible refine mk_same ?_ rfl rfl rfl rfl rfl rfl rfl rfl)

theorem State.releaseFrame_inv {s : State} {a1 a2} (h : s.Inv) : (State.releaseFrame s a1 a2).Inv := by
  unfold State.releaseFrame
  try dsimp only
  repeat' first
    | intro _
    | with_reducible assumption
    | with_reducible apply State.giveBack_inv
    | with_reducible apply State.settleReq_inv
    | with_reducible apply State.setReq_inv
    | with_reducible apply ite_inv
    | with_reducible apply foldl_inv
    | (fail_if_no_progress with_reducible refine mk_same ?_ rfl rfl rfl rfl rfl rfl rfl rfl)
    | split

theorem State.count_inv {s : State} {a1 a2} (h : s.Inv) : (State.count s a1 a2).Inv := by
  unfold State.count
  try dsimp only
  repeat' first
    | intro _
    | with_reducible assumption
    | with_reducible apply ite_inv
    | with_reducible apply foldl_inv
    | (fail_if_no_progress with_reducible refine mk_same ?_ rfl rfl rfl rfl rfl rfl rfl rfl)

theorem State.endFrame_inv {s : State} {a1 a2} (h : s.Inv) : (State.endFrame s a1 a2).Inv := by
  unfold State.endFrame
  try dsimp only
  repeat' first
    | intro _
    | with_reducible assumption
    | with_reducible apply State.releaseFrame_inv
    | with_reducible apply State.count_inv
    | with_reducible apply State.freeRing_inv
    | with_reducible apply ite_inv
    | with_reducible apply foldl_inv
    | split

theorem State.unqueueFlow_inv {s : State} {a1 a2} (h : s.Inv) : (State.unqueueFlow s a1 a2).Inv := by
  unfold State.unqueueFlow
  try dsimp only
  repeat' first
    | intro _
    | with_reducible assumption
    | with_reducible apply ite_inv
    | with_reducible apply foldl_inv
    | (fail_if_no_progress with_reducible refine mk_same ?_ rfl rfl rfl rfl rfl rfl rfl rfl)

theorem State.dropMirror_inv {s : State} (h : s.Inv) : (State.dropMirror s).Inv := by
  unfold State.dropMirror
  try dsimp only
  repeat' first
    | intro _
    | with_reducible assumption
    | with_reducible apply State.unqueueFlow_inv
    | with_reducible apply State.setTx_inv

theorem State.pin_inv {s : State} {a1 a2} (h : s.Inv) : (State.pin s a1 a2).Inv := by
  unfold State.pin
  try dsimp only
  repeat' first
    | intro _
    | with_reducible assumption
    | with_reducible apply State.setTx_inv
    | with_reducible apply ite_inv

theorem State.setPort_inv {s : State} {a1 a2} (h : s.Inv) : (State.setPort s a1 a2).Inv := by
  unfold State.setPort
  try dsimp only
  repeat' first
    | intro _
    | with_reducible assumption
    | with_reducible apply ite_inv
    | with_reducible apply foldl_inv
    | (fail_if_no_progress with_reducible refine mk_same ?_ rfl rfl rfl rfl rfl rfl rfl rfl)

theorem State.updPort_inv {s : State} {a1 a2} (h : s.Inv) : (State.updPort s a1 a2).Inv := by
  unfold State.updPort
  try dsimp only
  repeat' first
    | intro _
    | with_reducible assumption
    | with_reducible apply State.setPort_inv

theorem State.queueFrame_inv {s : State} {a1} (h : s.Inv) : (State.queueFrame s a1).Inv := by
  unfold State.queueFrame
  try dsimp only
  repeat' first
    | intro _
    | with_reducible assumption
    | with_reducible apply State.endFrame_inv
    | with_reducible apply State.pin_inv
    | with_reducible apply State.updPort_inv
    | with_reducible apply ite_inv

theorem State.queueFrames_inv {s : State} {a1} (h : s.Inv) : (State.queueFrames s a1).Inv := by
  unfold State.queueFrames
  try dsimp only
  repeat' first
    | intro _
    | with_reducible assumption
    | with_reducible apply State.each_inv
    | with_reducible apply State.queueFrame_inv

theorem State.sendMsg_inv {s : State} {a1 a2 a3} (h : s.Inv) : (State.sendMsg s a1 a2 a3).Inv := by
  unfold State.sendMsg
  try dsimp only
  repeat' first
    | intro _
    | with_reducible assumption
    | with_reducible apply State.queueFrames_inv
    | with_reducible apply ite_inv
    | with_reducible apply foldl_inv
    | (fail_if_no_progress with_reducible refine mk_same ?_ rfl rfl rfl rfl rfl rfl rfl rfl)

theorem State.sendCompletion_inv {s : State} {a1 a2 a3 a4 a5 a6 a7} (h : s.Inv) : (State.sendCompletion s a1 a2 a3 a4 a5 a6 a7).Inv := by
  unfold State.sendCompletion
  try dsimp only
  repeat' first
    | intro _
    | with_reducible assumption
    | with_reducible apply State.sendMsg_inv

theorem State.sendMirror_inv {s : State} {a1 a2} (h : s.Inv) : (State.sendMirror s a1 a2).Inv := by
  unfold State.sendMirror
  try dsimp only
  repeat' first
    | intro _
    | with_reducible assumption
    | with_reducible apply State.queueFrames_inv
    | with_reducible apply ite_inv
    | with_reducible apply foldl_inv
    | (fail_if_no_progress with_reducible refine mk_same ?_ rfl rfl rfl rfl rfl rfl rfl rfl)

theorem State.sendRecs_inv {s : State} {a1 a2} (h : s.Inv) : (State.sendRecs s a1 a2).Inv := by
  unfold State.sendRecs
  try dsimp only
  repeat' first
    | intro _
    | with_reducible assumption
    | (with_reducible apply State.each_inv)
    | with_reducible apply State.sendMirror_inv

theorem State.mirror_inv {s : State} {a1 a2} (h : s.Inv) : (State.mirror s a1 a2).Inv := by
  unfold State.mirror
  try dsimp only
  repeat' first
    | intro _
    | with_reducible assumption
    | with_reducible apply State.sendRecs_inv
    | with_reducible apply ite_inv

theorem State.emit_inv {s : State} {a1} (h : s.Inv) : (State.emit s a1).Inv := by
  unfold State.emit
  try dsimp only
  repeat' first
    | intro _
    | with_reducible assumption
    | with_reducible apply ite_inv
    | with_reducible apply foldl_inv
    | (fail_if_no_progress with_reducible refine mk_same ?_ rfl rfl rfl rfl rfl rfl rfl rfl)

theorem State.writeCompletion_inv {s : State} {a1 a2 a3 a4 a5 a6} (h : s.Inv) : (State.writeCompletion s a1 a2 a3 a4 a5 a6).Inv := by
  unfold State.writeCompletion
  try dsimp only
  repeat' first
    | intro _
    | with_reducible assumption
    | with_reducible apply State.emit_inv
    | with_reducible apply State.updQueue_inv
    | with_reducible apply ite_inv

theorem State.hostDone_inv {s : State} {a1 a2 a3} (h : s.Inv) : (State.hostDone s a1 a2 a3).Inv := by
  unfold State.hostDone
  try dsimp only
  repeat' first
    | intro _
    | with_reducible assumption
    | with_reducible apply State.writeCompletion_inv

theorem State.finishReq_inv {s : State} {a1 a2} (h : s.Inv) : (State.finishReq s a1 a2).Inv := by
  unfold State.finishReq
  try dsimp only
  repeat' first
    | intro _
    | with_reducible assumption
    | with_reducible apply State.setReq_inv
    | with_reducible apply State.sendCompletion_inv
    | with_reducible apply State.mirror_inv
    | with_reducible apply State.settleReq_inv
    | with_reducible apply State.hostDone_inv
    | with_reducible apply ite_inv
    | with_reducible apply foldl_inv
    | (fail_if_no_progress with_reducible refine mk_same ?_ rfl rfl rfl rfl rfl rfl rfl rfl)
    | split

theorem State.signal_inv {s : State} {a1 a2} (h : s.Inv) : (State.signal s a1 a2).Inv := by
  unfold State.signal
  try dsimp only
  repeat' first
    | intro _
    | with_reducible assumption
    | with_reducible apply State.emit_inv

theorem State.sendResp_inv {s : State} {a1 a2 a3 a4 a5} (h : s.Inv) : (State.sendResp s a1 a2 a3 a4 a5).Inv := by
  unfold State.sendResp
  try dsimp only
  repeat' first
    | intro _
    | with_reducible assumption
    | with_reducible apply State.sendMsg_inv

theorem State.respond_inv {s : State} {a1 a2 a3 a4} (h : s.Inv) : (State.respond s a1 a2 a3 a4).Inv := by
  unfold State.respond
  try dsimp only
  repeat' first
    | intro _
    | with_reducible assumption
    | with_reducible apply State.updMbox_inv
    | with_reducible apply State.signal_inv
    | with_reducible apply State.emit_inv
    | with_reducible apply State.sendResp_inv
    | with_reducible apply ite_inv
    | with_reducible apply foldl_inv
    | (fail_if_no_progress with_reducible refine mk_same ?_ rfl rfl rfl rfl rfl rfl rfl rfl)
    | split

theorem State.retireCmd_inv {s : State} {a1} (h : s.Inv) : (State.retireCmd s a1).Inv := by
  unfold State.retireCmd
  try dsimp only
  repeat' first
    | intro _
    | with_reducible assumption
    | with_reducible apply State.mirror_inv
    | with_reducible apply ite_inv
    | with_reducible apply foldl_inv
    | split

theorem State.completes_inv {s : State} {a1 a2} (h : s.Inv) : (State.completes s a1 a2).Inv := by
  unfold State.completes
  try dsimp only
  repeat' first
    | intro _
    | with_reducible assumption
    | with_reducible apply State.updPart_inv
    | with_reducible apply ite_inv

theorem State.deliver_inv {s : State} {a1} (h : s.Inv) : (State.deliver s a1).Inv := by
  unfold State.deliver
  try dsimp only
  repeat' first
    | intro _
    | with_reducible assumption
    | with_reducible apply State.finishReq_inv
    | with_reducible apply State.retireCmd_inv
    | with_reducible apply State.respond_inv
    | with_reducible apply State.completes_inv
    | with_reducible apply ite_inv
    | with_reducible apply foldl_inv
    | split

theorem State.dropForward_inv {s : State} {a1} (h : s.Inv) : (State.dropForward s a1).Inv := by
  unfold State.dropForward
  try dsimp only
  repeat' first
    | intro _
    | with_reducible assumption
    | with_reducible apply ite_inv
    | with_reducible apply foldl_inv
    | (fail_if_no_progress with_reducible refine mk_same ?_ rfl rfl rfl rfl rfl rfl rfl rfl)

theorem State.settleForward_inv {s : State} {a1 a2 a3} (h : s.Inv) : (State.settleForward s a1 a2 a3).Inv := by
  unfold State.settleForward
  try dsimp only
  repeat' first
    | intro _
    | with_reducible assumption
    | with_reducible apply State.dropForward_inv
    | with_reducible apply State.sendCompletion_inv
    | with_reducible apply State.respond_inv
    | with_reducible apply ite_inv
    | with_reducible apply foldl_inv
    | (fail_if_no_progress with_reducible refine mk_same ?_ rfl rfl rfl rfl rfl rfl rfl rfl)
    | split

theorem State.partnerDones_inv {s : State} (h : s.Inv) : (State.partnerDones s).Inv := by
  unfold State.partnerDones
  try dsimp only
  repeat' first
    | intro _
    | with_reducible assumption
    | with_reducible apply State.each_inv
    | with_reducible apply State.settleForward_inv
    | with_reducible apply State.sendCompletion_inv
    | with_reducible apply ite_inv
    | with_reducible apply foldl_inv
    | (fail_if_no_progress with_reducible refine mk_same ?_ rfl rfl rfl rfl rfl rfl rfl rfl)
    | split

theorem State.takeBack_inv {s : State} {a1} (h : s.Inv) : (State.takeBack s a1).Inv := by
  unfold State.takeBack
  try dsimp only
  repeat' first
    | intro _
    | with_reducible assumption
    | with_reducible apply State.dropForward_inv
    | with_reducible apply State.updQueue_inv
    | with_reducible apply State.updMbox_inv
    | with_reducible apply ite_inv
    | with_reducible apply foldl_inv
    | (fail_if_no_progress with_reducible refine mk_same ?_ rfl rfl rfl rfl rfl rfl rfl rfl)
    | split

theorem State.updReq_inv {s : State} {a1 a2} (h : s.Inv) : (State.updReq s a1 a2).Inv := by
  unfold State.updReq
  try dsimp only
  repeat' first
    | intro _
    | with_reducible assumption
    | with_reducible apply State.setReq_inv
    | with_reducible apply ite_inv
    | with_reducible apply foldl_inv
    | (fail_if_no_progress with_reducible refine mk_same ?_ rfl rfl rfl rfl rfl rfl rfl rfl)
    | split

theorem State.updEntry_inv {s : State} {a1 a2 a3} (h : s.Inv) : (State.updEntry s a1 a2 a3).Inv := by
  unfold State.updEntry
  try dsimp only
  repeat' first
    | intro _
    | with_reducible assumption
    | with_reducible apply State.updReq_inv

theorem State.completeAttend_inv {s : State} {a1} (h : s.Inv) : (State.completeAttend s a1).Inv := by
  unfold State.completeAttend
  try dsimp only
  repeat' first
    | intro _
    | with_reducible assumption
    | with_reducible apply State.setReq_inv
    | with_reducible apply State.settleReq_inv
    | with_reducible apply State.hostDone_inv
    | with_reducible apply State.emit_inv
    | with_reducible apply ite_inv
    | with_reducible apply foldl_inv
    | split

theorem State.handEntry_inv {s : State} {a1 a2 a3} (h : s.Inv) : (State.handEntry s a1 a2 a3).Inv := by
  unfold State.handEntry
  try dsimp only
  repeat' first
    | intro _
    | with_reducible assumption
    | with_reducible apply State.updEntry_inv
    | with_reducible apply State.giveBack_inv
    | with_reducible apply State.updReq_inv
    | with_reducible apply State.sendMsg_inv
    | with_reducible apply State.completeAttend_inv
    | with_reducible apply ite_inv
    | with_reducible apply foldl_inv
    | (fail_if_no_progress with_reducible refine mk_same ?_ rfl rfl rfl rfl rfl rfl rfl rfl)
    | split

theorem State.releaseHeld_inv {s : State} {a1 a2} (h : s.Inv) : (State.releaseHeld s a1 a2).Inv := by
  unfold State.releaseHeld
  try dsimp only
  repeat' first
    | intro _
    | with_reducible assumption
    | with_reducible apply State.handEntry_inv
    | with_reducible apply ite_inv
    | with_reducible apply foldl_inv
    | (fail_if_no_progress with_reducible refine mk_same ?_ rfl rfl rfl rfl rfl rfl rfl rfl)
    | split

theorem State.retireClaim_inv {s : State} {a1} (h : s.Inv) : (State.retireClaim s a1).Inv := by
  unfold State.retireClaim
  try dsimp only
  repeat' first
    | intro _
    | with_reducible assumption
    | with_reducible apply State.updReq_inv
    | with_reducible apply ite_inv
    | with_reducible apply foldl_inv
    | (fail_if_no_progress with_reducible refine mk_same ?_ rfl rfl rfl rfl rfl rfl rfl rfl)
    | split

theorem State.setClaim_inv {s : State} {a1 a2 a3} (h : s.Inv) : (State.setClaim s a1 a2 a3).Inv := by
  unfold State.setClaim
  try dsimp only
  repeat' first
    | intro _
    | with_reducible assumption
    | with_reducible apply State.count_inv
    | with_reducible apply State.retireClaim_inv
    | with_reducible apply ite_inv
    | with_reducible apply foldl_inv
    | (fail_if_no_progress with_reducible refine mk_same ?_ rfl rfl rfl rfl rfl rfl rfl rfl)

theorem State.soloClaim_inv {s : State} {a1 a2} (h : s.Inv) : (State.soloClaim s a1 a2).Inv := by
  unfold State.soloClaim
  try dsimp only
  repeat' first
    | intro _
    | with_reducible assumption
    | with_reducible apply State.each_inv
    | with_reducible apply State.releaseHeld_inv
    | with_reducible apply State.setClaim_inv
    | with_reducible apply State.sendMsg_inv
    | with_reducible apply ite_inv
    | with_reducible apply foldl_inv
    | (fail_if_no_progress with_reducible refine mk_same ?_ rfl rfl rfl rfl rfl rfl rfl rfl)
    | split

theorem State.setJet_inv {s : State} {a1 a2} (h : s.Inv) : (State.setJet s a1 a2).Inv := by
  unfold State.setJet
  try dsimp only
  repeat' first
    | intro _
    | with_reducible assumption
    | with_reducible apply ite_inv
    | with_reducible apply foldl_inv
    | (fail_if_no_progress with_reducible refine mk_same ?_ rfl rfl rfl rfl rfl rfl rfl rfl)

theorem State.updJet_inv {s : State} {a1 a2} (h : s.Inv) : (State.updJet s a1 a2).Inv := by
  unfold State.updJet
  try dsimp only
  repeat' first
    | intro _
    | with_reducible assumption
    | with_reducible apply State.setJet_inv

theorem State.stopEntry_inv {s : State} {a1 a2} (h : s.Inv) : (State.stopEntry s a1 a2).Inv := by
  unfold State.stopEntry
  try dsimp only
  repeat' first
    | intro _
    | with_reducible assumption
    | with_reducible apply State.each_inv
    | with_reducible apply State.updJet_inv
    | with_reducible apply ite_inv
    | with_reducible apply foldl_inv
    | (fail_if_no_progress with_reducible refine mk_same ?_ rfl rfl rfl rfl rfl rfl rfl rfl)
    | split

theorem State.dropHedge_inv {s : State} {a1} (h : s.Inv) : (State.dropHedge s a1).Inv := by
  unfold State.dropHedge
  try dsimp only
  repeat' first
    | intro _
    | with_reducible assumption
    | with_reducible apply State.each_inv
    | with_reducible apply State.stopEntry_inv
    | with_reducible apply State.updEntry_inv
    | with_reducible apply State.settleReq_inv
    | with_reducible apply State.updReq_inv
    | with_reducible apply ite_inv
    | with_reducible apply foldl_inv
    | (fail_if_no_progress with_reducible refine mk_same ?_ rfl rfl rfl rfl rfl rfl rfl rfl)
    | split

theorem State.enterSolo_inv {s : State} (h : s.Inv) : (State.enterSolo s).Inv := by
  unfold State.enterSolo
  try dsimp only
  repeat' first
    | intro _
    | with_reducible assumption
    | with_reducible apply State.dropMirror_inv
    | with_reducible apply State.count_inv
    | with_reducible apply State.each_inv
    | with_reducible apply State.deliver_inv
    | with_reducible apply State.partnerDones_inv
    | with_reducible apply State.takeBack_inv
    | with_reducible apply State.soloClaim_inv
    | with_reducible apply State.dropHedge_inv
    | with_reducible apply ite_inv
    | with_reducible apply foldl_inv
    | (fail_if_no_progress with_reducible refine mk_same ?_ rfl rfl rfl rfl rfl rfl rfl rfl)
    | split
    | (refine mk_twin ?_ rfl rfl rfl rfl rfl rfl rfl rfl)

theorem State.mirrorRefused_inv {s : State} {a1 a2} (h : s.Inv) : (State.mirrorRefused s a1 a2).Inv := by
  unfold State.mirrorRefused
  try dsimp only
  repeat' first
    | intro _
    | with_reducible assumption
    | with_reducible apply State.enterSolo_inv
    | with_reducible apply State.queueFrames_inv
    | with_reducible apply ite_inv
    | with_reducible apply foldl_inv
    | (fail_if_no_progress with_reducible refine mk_same ?_ rfl rfl rfl rfl rfl rfl rfl rfl)
    | split

theorem State.failForward_inv {s : State} {a1 a2} (h : s.Inv) : (State.failForward s a1 a2).Inv := by
  unfold State.failForward
  try dsimp only
  repeat' first
    | intro _
    | with_reducible assumption
    | with_reducible apply State.settleForward_inv
    | with_reducible apply ite_inv
    | with_reducible apply foldl_inv
    | (fail_if_no_progress with_reducible refine mk_same ?_ rfl rfl rfl rfl rfl rfl rfl rfl)
    | split

theorem State.closeClaims_inv {s : State} {a1} (h : s.Inv) : (State.closeClaims s a1).Inv := by
  unfold State.closeClaims
  try dsimp only
  repeat' first
    | intro _
    | with_reducible assumption
    | with_reducible apply State.each_inv
    | with_reducible apply State.releaseHeld_inv
    | with_reducible apply State.setClaim_inv
    | with_reducible apply ite_inv

theorem State.stopRead_inv {s : State} {a1} (h : s.Inv) : (State.stopRead s a1).Inv := by
  unfold State.stopRead
  try dsimp only
  repeat' first
    | intro _
    | with_reducible assumption
    | with_reducible apply State.updReq_inv

theorem State.endMsg_inv {s : State} {a1 a2 a3} (h : s.Inv) : (State.endMsg s a1 a2 a3).Inv := by
  unfold State.endMsg
  try dsimp only
  repeat' first
    | intro _
    | with_reducible assumption
    | with_reducible apply State.mirrorRefused_inv
    | with_reducible apply State.failForward_inv
    | with_reducible apply State.closeClaims_inv
    | with_reducible apply State.stopRead_inv
    | with_reducible apply ite_inv
    | with_reducible apply foldl_inv
    | (fail_if_no_progress with_reducible refine mk_same ?_ rfl rfl rfl rfl rfl rfl rfl rfl)
    | split

theorem State.endSent_inv {s : State} {a1 a2 a3} (h : s.Inv) : (State.endSent s a1 a2 a3).Inv := by
  unfold State.endSent
  try dsimp only
  repeat' first
    | intro _
    | with_reducible assumption
    | with_reducible apply State.endFrame_inv
    | with_reducible apply State.endMsg_inv
    | with_reducible apply ite_inv

theorem State.takeShare_inv {s : State} {a1 a2 a3} (h : s.Inv) : (State.takeShare s a1 a2 a3).Inv := by
  unfold State.takeShare
  try dsimp only
  repeat' first
    | intro _
    | with_reducible assumption
    | with_reducible apply ite_inv
    | with_reducible apply foldl_inv
    | (fail_if_no_progress with_reducible refine mk_same ?_ rfl rfl rfl rfl rfl rfl rfl rfl)

theorem State.pumpRead_inv {s : State} {a1 a2 a3} (h : s.Inv) : State.Inv (State.pumpRead s a1 a2 a3) := by
  induction a3 generalizing s a1 a2 with
  | zero => exact h
  | succ n ih =>
    unfold State.pumpRead
    try dsimp only
    repeat' first
      | (with_reducible apply ih)
      | intro _
      | with_reducible assumption
      | with_reducible apply State.takeShare_inv
      | with_reducible apply State.setReq_inv
      | with_reducible apply State.queueFrame_inv
      | with_reducible apply ite_inv
      | with_reducible apply foldl_inv
      | split

theorem State.ackTo_inv {s : State} {a1 a2 a3} (h : s.Inv) : (State.ackTo s a1 a2 a3).Inv := by
  unfold State.ackTo
  try dsimp only
  repeat' first
    | intro _
    | with_reducible assumption
    | (with_reducible apply State.each_inv)
    | with_reducible apply State.setTx_inv
    | with_reducible apply State.endSent_inv
    | with_reducible apply State.pumpRead_inv
    | with_reducible apply ite_inv
    | with_reducible apply foldl_inv
    | split

theorem State.pick_inv {s : State} (h : s.Inv) : ∀ x t, (State.pick s) = (x, t) → State.Inv t := by
  intro x t he
  unfold State.pick at he
  try dsimp only at he
  repeat' first
    | (cases he; done)
    | split at he
    | contradiction
    | cases he
    | intro _
    | with_reducible assumption
    | with_reducible apply ite_inv
    | with_reducible apply foldl_inv
    | (fail_if_no_progress with_reducible refine mk_same ?_ rfl rfl rfl rfl rfl rfl rfl rfl)

theorem State.putRun_inv {s : State} {a1 a2 a3 a4} (h : s.Inv) : (State.putRun s a1 a2 a3 a4).Inv := by
  unfold State.putRun
  try dsimp only
  repeat' first
    | intro _
    | with_reducible assumption
    | with_reducible apply State.putGrain_inv
    | with_reducible apply ite_inv
    | with_reducible apply foldl_inv

theorem State.addAlloc_inv {s : State} {a1} (h : s.Inv) : (State.addAlloc s a1).Inv := by
  unfold State.addAlloc
  try dsimp only
  repeat' first
    | intro _
    | with_reducible assumption
    | with_reducible apply ite_inv
    | with_reducible apply foldl_inv
    | (fail_if_no_progress with_reducible refine mk_same ?_ rfl rfl rfl rfl rfl rfl rfl rfl)

theorem State.allocGrains_inv {s : State} {a1 a2 a3} (h : s.Inv) : ∀ x t, (State.allocGrains s a1 a2 a3) = some (x, t) → State.Inv t := by
  intro x t he
  unfold State.allocGrains at he
  try dsimp only at he
  repeat' first
    | (cases he; done)
    | split at he
    | contradiction
    | cases he
    | intro _
    | with_reducible assumption
    | (refine State.pick_inv ?_ _ _ (by with_reducible assumption))
    | (with_reducible refine State.pick_inv ?_ _ _ rfl)
    | with_reducible apply State.putRun_inv
    | with_reducible apply State.addAlloc_inv

theorem State.needGrain_inv {s : State} {a1 a2 a3} (h : s.Inv) :
    ∀ x y t, s.needGrain a1 a2 a3 = some (x, y, t) → State.Inv t := by
  intro x y t he
  unfold State.needGrain at he
  split at he
  · cases he; exact h
  · obtain ⟨⟨g, u⟩, hg, hu⟩ := Option.map_eq_some_iff.1 he
    cases hu
    exact State.allocGrains_inv h _ _ hg

theorem State.writeDir_inv {s : State} {a1 a2 a3 a4} (h : s.Inv) : (State.writeDir s a1 a2 a3 a4).Inv := by
  unfold State.writeDir
  try dsimp only
  repeat' first
    | intro _
    | with_reducible assumption
    | with_reducible apply State.patchGrain_inv

theorem State.putHead_inv {s : State} {a1 a2 a3 a4} (h : s.Inv) : (State.putHead s a1 a2 a3 a4).Inv := by
  unfold State.putHead
  try dsimp only
  repeat' first
    | intro _
    | with_reducible assumption
    | with_reducible apply State.writeDir_inv
    | with_reducible apply State.setSession_inv
    | with_reducible apply ite_inv
    | with_reducible apply foldl_inv
    | (fail_if_no_progress with_reducible refine mk_same ?_ rfl rfl rfl rfl rfl rfl rfl rfl)
    | split

theorem State.needList_inv {s : State} {a1 a2 a3 a4} (h : s.Inv) : ∀ t, (State.needList s a1 a2 a3 a4) = some t → State.Inv t := by
  intro t he
  unfold State.needList at he
  try dsimp only at he
  repeat' first
    | (cases he; done)
    | split at he
    | contradiction
    | cases he
    | intro _
    | with_reducible assumption
    | (refine State.needGrain_inv ?_ _ _ _ (by with_reducible assumption))
    | (with_reducible refine State.needGrain_inv ?_ _ _ _ rfl)
    | with_reducible apply State.patchGrain_inv
    | with_reducible apply State.putHead_inv

theorem State.allocRun_inv {s : State} {a1 a2 a3} (h : s.Inv) : ∀ x y t, (State.allocRun s a1 a2 a3) = some (x, y, t) → State.Inv t := by
  intro x y t he
  unfold State.allocRun at he
  try dsimp only at he
  repeat' first
    | (cases he; done)
    | split at he
    | contradiction
    | cases he
    | intro _
    | with_reducible assumption
    | (refine State.pick_inv ?_ _ _ (by with_reducible assumption))
    | (with_reducible refine State.pick_inv ?_ _ _ rfl)
    | with_reducible apply State.putRun_inv
    | with_reducible apply State.addAlloc_inv
    | with_reducible apply ite_inv
    | with_reducible apply foldl_inv
    | (fail_if_no_progress with_reducible refine mk_same ?_ rfl rfl rfl rfl rfl rfl rfl rfl)

theorem State.openPage_inv {s : State} {a1 a2 a3 a4} (h : s.Inv) : ∀ t, (State.openPage s a1 a2 a3 a4) = some t → State.Inv t := by
  intro t he
  unfold State.openPage at he
  try dsimp only at he
  repeat' first
    | (cases he; done)
    | split at he
    | contradiction
    | cases he
    | intro _
    | with_reducible assumption
    | (refine State.needList_inv ?_ _ (by with_reducible assumption))
    | (with_reducible refine State.needList_inv ?_ _ rfl)
    | (refine State.allocRun_inv ?_ _ _ _ (by with_reducible assumption))
    | (with_reducible refine State.allocRun_inv ?_ _ _ _ rfl)
    | with_reducible apply State.putPage_inv

theorem State.writeThrough_inv {s : State} {a1 a2 a3 a4} (h : s.Inv) : ∀ t, (State.writeThrough s a1 a2 a3 a4) = .ok t → State.Inv t := by
  intro t he
  unfold State.writeThrough at he
  try dsimp only at he
  repeat' first
    | (cases he; done)
    | split at he
    | contradiction
    | cases he
    | intro _
    | with_reducible assumption
    | with_reducible apply State.putRun_inv

theorem State.addTokens_inv {s : State} {a1 a2 a3} (h : s.Inv) : ∀ t, (State.addTokens s a1 a2 a3) = .ok t → State.Inv t := by
  intro t he
  unfold State.addTokens at he
  try dsimp only at he
  repeat' first
    | (cases he; done)
    | split at he
    | contradiction
    | cases he
    | intro _
    | with_reducible assumption
    | (refine State.writeThrough_inv ?_ _ (by with_reducible assumption))
    | (with_reducible refine State.writeThrough_inv ?_ _ rfl)
    | with_reducible apply State.putPage_inv

theorem State.countPart_inv {s : State} {a1 a2 a3} (h : s.Inv) : (State.countPart s a1 a2 a3).Inv := by
  unfold State.countPart
  try dsimp only
  repeat' first
    | intro _
    | with_reducible assumption
    | with_reducible apply ite_inv
    | with_reducible apply foldl_inv
    | (fail_if_no_progress with_reducible refine mk_same ?_ rfl rfl rfl rfl rfl rfl rfl rfl)

theorem State.countEvent_inv {s : State} {a1} (h : s.Inv) : (State.countEvent s a1).Inv := by
  unfold State.countEvent
  try dsimp only
  repeat' first
    | intro _
    | with_reducible assumption
    | with_reducible apply State.count_inv
    | with_reducible apply State.countPart_inv
    | with_reducible apply ite_inv
    | with_reducible apply foldl_inv
    | (fail_if_no_progress with_reducible refine mk_same ?_ rfl rfl rfl rfl rfl rfl rfl rfl)
    | split

theorem State.noteCe_inv {s : State} {a1} (h : s.Inv) : (State.noteCe s a1).Inv := by
  unfold State.noteCe
  try dsimp only
  repeat' first
    | intro _
    | with_reducible assumption
    | with_reducible apply ite_inv
    | with_reducible apply foldl_inv
    | (fail_if_no_progress with_reducible refine mk_same ?_ rfl rfl rfl rfl rfl rfl rfl rfl)
    | split

theorem State.fault_inv {s : State} {a1} (h : s.Inv) : State.Inv (State.fault s a1) := by
  unfold State.fault
  split
  · exact mk_same (State.countEvent_inv h) rfl rfl rfl rfl rfl rfl rfl rfl
  · dsimp only
    refine State.noteCe_inv (State.countEvent_inv ?_)
    exact ⟨h.mem, h.stage, h.twin, h.level, h.pwrCfg, h.fltCtl, Nat.mod_lt _ (by decide), h.turn⟩

theorem State.sealPage_inv {s : State} {a1 a2 a3 a4 a5} (h : s.Inv) : (State.sealPage s a1 a2 a3 a4 a5).Inv := by
  unfold State.sealPage
  try dsimp only
  repeat' first
    | intro _
    | with_reducible assumption
    | with_reducible apply State.putRun_inv
    | with_reducible apply State.updPart_inv
    | with_reducible apply State.fault_inv
    | with_reducible apply State.putPage_inv
    | with_reducible apply ite_inv
    | with_reducible apply foldl_inv
    | (fail_if_no_progress with_reducible refine mk_same ?_ rfl rfl rfl rfl rfl rfl rfl rfl)

theorem State.addSat_inv {s : State} {a1 a2} (h : s.Inv) : (State.addSat s a1 a2).Inv := by
  unfold State.addSat
  try dsimp only
  repeat' first
    | intro _
    | with_reducible assumption
    | with_reducible apply State.updPart_inv
    | with_reducible apply ite_inv

theorem State.grainEvent_inv {s : State} {a1 a2 a3 a4 a5} (h : s.Inv) : (State.grainEvent s a1 a2 a3 a4 a5).Inv := by
  unfold State.grainEvent
  try dsimp only
  repeat' first
    | intro _
    | with_reducible assumption
    | with_reducible apply State.fault_inv

theorem State.askRepair_inv {s : State} {a1} (h : s.Inv) : (State.askRepair s a1).Inv := by
  unfold State.askRepair
  try dsimp only
  repeat' first
    | intro _
    | with_reducible assumption
    | with_reducible apply State.sendMirror_inv
    | with_reducible apply ite_inv

theorem State.containPage_inv {s : State} {a1} (h : s.Inv) : (State.containPage s a1).Inv := by
  unfold State.containPage
  try dsimp only
  repeat' first
    | intro _
    | with_reducible assumption
    | with_reducible apply State.putPage_inv
    | with_reducible apply State.countPart_inv
    | with_reducible apply State.askRepair_inv
    | with_reducible apply ite_inv
    | with_reducible apply foldl_inv
    | (fail_if_no_progress with_reducible refine mk_same ?_ rfl rfl rfl rfl rfl rfl rfl rfl)
    | split

theorem State.fence_inv {s : State} {a1} (h : s.Inv) : (State.fence s a1).Inv := by
  unfold State.fence
  try dsimp only
  repeat' first
    | intro _
    | with_reducible assumption
    | with_reducible apply ite_inv
    | with_reducible apply foldl_inv
    | (fail_if_no_progress with_reducible refine mk_same ?_ rfl rfl rfl rfl rfl rfl rfl rfl)

theorem State.containGrain_inv {s : State} {a1} (h : s.Inv) : (State.containGrain s a1).Inv := by
  unfold State.containGrain
  try dsimp only
  repeat' first
    | intro _
    | with_reducible assumption
    | with_reducible apply State.askRepair_inv
    | with_reducible apply State.fault_inv
    | with_reducible apply State.fence_inv
    | with_reducible apply ite_inv
    | with_reducible apply foldl_inv
    | (fail_if_no_progress with_reducible refine mk_same ?_ rfl rfl rfl rfl rfl rfl rfl rfl)
    | split

theorem State.decodeEvents_inv {s : State} {a1 a2 a3 a4} (h : s.Inv) : (State.decodeEvents s a1 a2 a3 a4).Inv := by
  unfold State.decodeEvents
  try dsimp only
  repeat' first
    | intro _
    | with_reducible assumption
    | (with_reducible apply State.each_inv)
    | with_reducible apply State.fault_inv
    | with_reducible apply State.updPart_inv
    | with_reducible apply ite_inv
    | with_reducible apply foldl_inv
    | split

theorem State.failGrain_inv {s : State} {a1 a2 a3 a4 a5} (h : s.Inv) : (State.failGrain s a1 a2 a3 a4 a5).Inv := by
  unfold State.failGrain
  try dsimp only
  repeat' first
    | intro _
    | with_reducible assumption
    | (with_reducible apply State.each_inv)
    | with_reducible apply State.decodeEvents_inv
    | with_reducible apply State.grainEvent_inv
    | with_reducible apply State.containPage_inv
    | with_reducible apply State.containGrain_inv
    | with_reducible apply ite_inv
    | with_reducible apply foldl_inv
    | split

theorem State.failCheck_inv {s : State} {a1} (h : s.Inv) : (State.failCheck s a1).Inv := by
  unfold State.failCheck
  try dsimp only
  repeat' first
    | intro _
    | with_reducible assumption
    | with_reducible apply State.failGrain_inv

theorem State.failPage_inv {s : State} {a1 a2} (h : s.Inv) : (State.failPage s a1 a2).Inv := by
  unfold State.failPage
  try dsimp only
  repeat' first
    | intro _
    | with_reducible assumption
    | with_reducible apply State.containPage_inv
    | with_reducible apply State.failCheck_inv
    | with_reducible apply ite_inv

theorem State.demote_inv {s : State} {a1} (h : s.Inv) : (State.demote s a1).Inv := by
  unfold State.demote
  try dsimp only
  repeat' first
    | intro _
    | with_reducible assumption
    | with_reducible apply State.putPage_inv
    | with_reducible apply ite_inv
    | with_reducible apply foldl_inv
    | split

theorem State.makeRoom_inv {s : State} {a1 a2 a3} (h : s.Inv) : (State.makeRoom s a1 a2 a3).Inv := by
  induction a3 generalizing s a1 a2 with
  | zero => exact h
  | succ n ih =>
    unfold State.makeRoom
    try dsimp only
    repeat' first
      | intro _
      | (with_reducible apply ih)
      | with_reducible assumption
      | with_reducible apply State.demote_inv
      | with_reducible apply ite_inv
      | with_reducible apply foldl_inv
      | (fail_if_no_progress with_reducible refine mk_same ?_ rfl rfl rfl rfl rfl rfl rfl rfl)
      | split

theorem State.takeSram_inv {s : State} {a1 a2} (h : s.Inv) : ∀ t, (State.takeSram s a1 a2) = some t → State.Inv t := by
  intro t he
  unfold State.takeSram at he
  try dsimp only at he
  repeat' first
    | (cases he; done)
    | split at he
    | contradiction
    | cases he
    | intro _
    | with_reducible assumption
    | with_reducible apply State.makeRoom_inv

theorem State.dropProvs_inv {s : State} {a1} (h : s.Inv) : (State.dropProvs s a1).Inv := by
  unfold State.dropProvs
  try dsimp only
  repeat' first
    | intro _
    | with_reducible assumption
    | with_reducible apply ite_inv
    | with_reducible apply foldl_inv
    | (fail_if_no_progress with_reducible refine mk_same ?_ rfl rfl rfl rfl rfl rfl rfl rfl)

theorem State.sendClaim_inv {s : State} {a1 a2 a3 a4 a5 a6 a7 a8} (h : s.Inv) : (State.sendClaim s a1 a2 a3 a4 a5 a6 a7 a8).Inv := by
  unfold State.sendClaim
  try dsimp only
  repeat' first
    | intro _
    | with_reducible assumption
    | with_reducible apply State.sendMsg_inv

theorem State.answerEntry_inv {s : State} {a1 a2 a3 a4} (h : s.Inv) : (State.answerEntry s a1 a2 a3 a4).Inv := by
  unfold State.answerEntry
  try dsimp only
  repeat' first
    | intro _
    | with_reducible assumption
    | with_reducible apply State.sendClaim_inv
    | with_reducible apply State.updEntry_inv
    | with_reducible apply State.giveBack_inv
    | with_reducible apply State.updReq_inv
    | with_reducible apply State.completeAttend_inv
    | with_reducible apply State.handEntry_inv
    | with_reducible apply State.setClaim_inv
    | with_reducible apply ite_inv
    | with_reducible apply foldl_inv
    | (fail_if_no_progress with_reducible refine mk_same ?_ rfl rfl rfl rfl rfl rfl rfl rfl)
    | split

theorem State.failEntry_inv {s : State} {a1 a2 a3} (h : s.Inv) : (State.failEntry s a1 a2 a3).Inv := by
  unfold State.failEntry
  try dsimp only
  repeat' first
    | intro _
    | with_reducible assumption
    | with_reducible apply State.updEntry_inv
    | with_reducible apply State.dropProvs_inv
    | with_reducible apply State.stopEntry_inv
    | with_reducible apply State.answerEntry_inv
    | with_reducible apply ite_inv
    | with_reducible apply foldl_inv
    | split

theorem State.commitChange_inv {s : State} {a1 a2 a3} (h : s.Inv) : (State.commitChange s a1 a2 a3).Inv := by
  unfold State.commitChange
  try dsimp only
  repeat' first
    | intro _
    | with_reducible assumption
    | with_reducible apply State.mirror_inv
    | with_reducible apply State.deliver_inv
    | with_reducible apply ite_inv
    | with_reducible apply foldl_inv
    | (fail_if_no_progress with_reducible refine mk_same ?_ rfl rfl rfl rfl rfl rfl rfl rfl)

theorem State.partialRefused_inv {s : State} {a1} (h : s.Inv) : (State.partialRefused s a1).Inv := by
  unfold State.partialRefused
  try dsimp only
  repeat' first
    | intro _
    | with_reducible assumption
    | with_reducible apply State.count_inv
    | with_reducible apply State.failGrain_inv

theorem State.refuseAttend_inv {s : State} {a1 a2 a3 a4 a5 a6} (h : s.Inv) : (State.refuseAttend s a1 a2 a3 a4 a5 a6).Inv := by
  unfold State.refuseAttend
  try dsimp only
  repeat' first
    | intro _
    | with_reducible assumption
    | (with_reducible apply State.each_inv)
    | with_reducible apply State.sendMsg_inv

theorem State.refuseRead_inv {s : State} {a1 a2 a3 a4 a5 a6 a7 a8} (h : s.Inv) : (State.refuseRead s a1 a2 a3 a4 a5 a6 a7 a8).Inv := by
  unfold State.refuseRead
  try dsimp only
  repeat' first
    | intro _
    | with_reducible assumption
    | with_reducible apply State.queueFrames_inv
    | with_reducible apply ite_inv
    | with_reducible apply foldl_inv
    | (fail_if_no_progress with_reducible refine mk_same ?_ rfl rfl rfl rfl rfl rfl rfl rfl)

theorem State.refuseHost_inv {s : State} {a1 a2 a3 a4 a5 a6 a7} (h : s.Inv) : (State.refuseHost s a1 a2 a3 a4 a5 a6 a7).Inv := by
  unfold State.refuseHost
  try dsimp only
  repeat' first
    | intro _
    | with_reducible assumption
    | with_reducible apply State.emit_inv
    | with_reducible apply State.hostDone_inv
    | with_reducible apply ite_inv

theorem State.refuseMsg_inv {s : State} {a1 a2} (h : s.Inv) : (State.refuseMsg s a1 a2).Inv := by
  unfold State.refuseMsg
  try dsimp only
  repeat' first
    | intro _
    | with_reducible assumption
    | with_reducible apply State.refuseAttend_inv
    | with_reducible apply State.refuseRead_inv
    | with_reducible apply State.sendCompletion_inv
    | with_reducible apply State.refuseHost_inv
    | with_reducible apply State.sendClaim_inv
    | with_reducible apply ite_inv
    | with_reducible apply foldl_inv
    | split

theorem State.checkForward_inv {s : State} {a1 a2} (h : s.Inv) : (State.checkForward s a1 a2).Inv := by
  unfold State.checkForward
  try dsimp only
  repeat' first
    | intro _
    | with_reducible assumption
    | with_reducible apply State.failForward_inv
    | with_reducible apply ite_inv

theorem State.forwardMsg_inv {s : State} {a1} (h : s.Inv) : (State.forwardMsg s a1).Inv := by
  unfold State.forwardMsg
  try dsimp only
  repeat' first
    | intro _
    | with_reducible assumption
    | with_reducible apply State.checkForward_inv
    | with_reducible apply State.sendMsg_inv
    | with_reducible apply State.count_inv
    | with_reducible apply ite_inv
    | with_reducible apply foldl_inv
    | (fail_if_no_progress with_reducible refine mk_same ?_ rfl rfl rfl rfl rfl rfl rfl rfl)
    | split

theorem State.draw_inv {s : State} (h : s.Inv) : ∀ x t, (State.draw s) = (x, t) → State.Inv t := by
  intro x t he
  unfold State.draw at he
  try dsimp only at he
  repeat' first
    | (cases he; done)
    | split at he
    | contradiction
    | cases he
    | intro _
    | with_reducible assumption
    | with_reducible apply ite_inv
    | with_reducible apply foldl_inv
    | (fail_if_no_progress with_reducible refine mk_same ?_ rfl rfl rfl rfl rfl rfl rfl rfl)

theorem State.clearGrain_inv {s : State} {a1} (h : s.Inv) : (State.clearGrain s a1).Inv := by
  unfold State.clearGrain
  try dsimp only
  repeat' first
    | intro _
    | with_reducible assumption
    | with_reducible apply ite_inv
    | with_reducible apply foldl_inv
    | (fail_if_no_progress with_reducible refine mk_same ?_ rfl rfl rfl rfl rfl rfl rfl rfl)

theorem State.requeueFlow_inv {s : State} {a1 a2} (h : s.Inv) : (State.requeueFlow s a1 a2).Inv := by
  unfold State.requeueFlow
  try dsimp only
  repeat' first
    | intro _
    | with_reducible assumption
    | with_reducible apply State.pin_inv
    | with_reducible apply State.unqueueFlow_inv
    | with_reducible apply State.updPort_inv

theorem State.moveFlow_inv {s : State} {a1 a2} (h : s.Inv) : (State.moveFlow s a1 a2).Inv := by
  unfold State.moveFlow
  try dsimp only
  repeat' first
    | intro _
    | with_reducible assumption
    | with_reducible apply State.setTx_inv
    | with_reducible apply State.count_inv
    | with_reducible apply State.requeueFlow_inv

theorem State.updPage_inv {s : State} {a1 a2} (h : s.Inv) : (State.updPage s a1 a2).Inv := by
  unfold State.updPage
  try dsimp only
  repeat' first
    | intro _
    | with_reducible assumption
    | with_reducible apply State.putPage_inv
    | with_reducible apply ite_inv
    | with_reducible apply foldl_inv
    | (fail_if_no_progress with_reducible refine mk_same ?_ rfl rfl rfl rfl rfl rfl rfl rfl)
    | split

theorem State.updSession_inv {s : State} {a1 a2} (h : s.Inv) : (State.updSession s a1 a2).Inv := by
  unfold State.updSession
  try dsimp only
  repeat' first
    | intro _
    | with_reducible assumption
    | with_reducible apply State.setSession_inv
    | with_reducible apply ite_inv
    | with_reducible apply foldl_inv
    | (fail_if_no_progress with_reducible refine mk_same ?_ rfl rfl rfl rfl rfl rfl rfl rfl)
    | split

theorem State.entryAt_inv {s : State} {a1 a2 a3} (h : s.Inv) : (State.entryAt s a1 a2 a3).Inv := by
  unfold State.entryAt
  try dsimp only
  repeat' first
    | intro _
    | with_reducible assumption
    | with_reducible apply State.patchGrain_inv

theorem State.forwardCmd_inv {s : State} {a1 a2 a3} (h : s.Inv) : (State.forwardCmd s a1 a2 a3).Inv := by
  unfold State.forwardCmd
  try dsimp only
  repeat' first
    | intro _
    | with_reducible assumption
    | with_reducible apply State.checkForward_inv
    | with_reducible apply State.sendMsg_inv
    | with_reducible apply State.count_inv
    | with_reducible apply ite_inv
    | with_reducible apply foldl_inv
    | (fail_if_no_progress with_reducible refine mk_same ?_ rfl rfl rfl rfl rfl rfl rfl rfl)

theorem State.clearUnreachable_inv {s : State} {a1} (h : s.Inv) : (State.clearUnreachable s a1).Inv := by
  unfold State.clearUnreachable
  try dsimp only
  repeat' first
    | intro _
    | with_reducible assumption
    | with_reducible apply State.each_inv
    | with_reducible apply State.setTx_inv
    | with_reducible apply ite_inv
    | with_reducible apply foldl_inv
    | (fail_if_no_progress with_reducible refine mk_same ?_ rfl rfl rfl rfl rfl rfl rfl rfl)

theorem State.failEntries_inv {s : State} {a1 a2} (h : s.Inv) : (State.failEntries s a1 a2).Inv := by
  unfold State.failEntries
  try dsimp only
  repeat' first
    | intro _
    | with_reducible assumption
    | with_reducible apply State.each_inv
    | with_reducible apply State.failEntry_inv
    | with_reducible apply ite_inv
    | with_reducible apply foldl_inv
    | (fail_if_no_progress with_reducible refine mk_same ?_ rfl rfl rfl rfl rfl rfl rfl rfl)
    | split

theorem State.endReq_inv {s : State} {a1 a2} (h : s.Inv) : (State.endReq s a1 a2).Inv := by
  unfold State.endReq
  try dsimp only
  repeat' first
    | intro _
    | with_reducible assumption
    | with_reducible apply State.each_inv
    | with_reducible apply State.setClaim_inv
    | with_reducible apply State.failEntries_inv
    | with_reducible apply State.releaseHeld_inv
    | with_reducible apply State.setReq_inv
    | with_reducible apply State.refuseRead_inv
    | with_reducible apply State.finishReq_inv
    | with_reducible apply ite_inv
    | with_reducible apply foldl_inv
    | (fail_if_no_progress with_reducible refine mk_same ?_ rfl rfl rfl rfl rfl rfl rfl rfl)
    | split

theorem State.countPort_inv {s : State} {a1 a2 a3} (h : s.Inv) : (State.countPort s a1 a2 a3).Inv := by
  unfold State.countPort
  try dsimp only
  repeat' first
    | intro _
    | with_reducible assumption
    | with_reducible apply ite_inv
    | with_reducible apply foldl_inv
    | (fail_if_no_progress with_reducible refine mk_same ?_ rfl rfl rfl rfl rfl rfl rfl rfl)

theorem State.coverChanges_inv {s : State} {a1} (h : s.Inv) : (State.coverChanges s a1).Inv := by
  unfold State.coverChanges
  try dsimp only
  repeat' first
    | intro _
    | with_reducible assumption
    | with_reducible apply State.each_inv
    | with_reducible apply State.deliver_inv
    | with_reducible apply ite_inv
    | with_reducible apply foldl_inv
    | (fail_if_no_progress with_reducible refine mk_same ?_ rfl rfl rfl rfl rfl rfl rfl rfl)

theorem State.mirrorGrains_inv {s : State} {a1 a2 a3} (h : s.Inv) : (State.mirrorGrains s a1 a2 a3).Inv := by
  unfold State.mirrorGrains
  try dsimp only
  repeat' first
    | intro _
    | with_reducible assumption
    | with_reducible apply State.mirror_inv
    | with_reducible apply ite_inv
    | with_reducible apply foldl_inv
    | (fail_if_no_progress with_reducible refine mk_same ?_ rfl rfl rfl rfl rfl rfl rfl rfl)

theorem State.writeGrains_inv {s : State} {a1 a2} (h : s.Inv) : (State.writeGrains s a1 a2).Inv := by
  unfold State.writeGrains
  try dsimp only
  repeat' first
    | intro _
    | with_reducible assumption
    | with_reducible apply State.each_inv
    | with_reducible apply State.putGrain_inv
    | with_reducible apply State.clearGrain_inv
    | with_reducible apply ite_inv

theorem State.takeAck_inv {s : State} {a1 a2 a3} (h : s.Inv) : (State.takeAck s a1 a2 a3).Inv := by
  unfold State.takeAck
  try dsimp only
  repeat' first
    | intro _
    | with_reducible assumption
    | with_reducible apply State.count_inv
    | with_reducible apply State.ackTo_inv
    | with_reducible apply ite_inv

theorem State.cutReads_inv {s : State} {a1 a2} (h : s.Inv) : (State.cutReads s a1 a2).Inv := by
  unfold State.cutReads
  try dsimp only
  repeat' first
    | intro _
    | with_reducible assumption
    | (with_reducible apply State.each_inv)
    | with_reducible apply State.stopRead_inv
    | with_reducible apply State.count_inv
    | with_reducible apply ite_inv
    | with_reducible apply foldl_inv
    | split

theorem State.endAll_inv {s : State} {a1 a2} (h : s.Inv) : (State.endAll s a1 a2).Inv := by
  unfold State.endAll
  try dsimp only
  repeat' first
    | intro _
    | with_reducible assumption
    | (with_reducible apply State.each_inv)
    | with_reducible apply State.cutReads_inv
    | with_reducible apply State.endSent_inv

theorem State.nakSync_inv {s : State} {a1 a2} (h : s.Inv) : (State.nakSync s a1 a2).Inv := by
  unfold State.nakSync
  try dsimp only
  repeat' first
    | intro _
    | with_reducible assumption
    | with_reducible apply State.setTx_inv
    | with_reducible apply State.endAll_inv
    | with_reducible apply ite_inv
    | with_reducible apply foldl_inv
    | (fail_if_no_progress with_reducible refine mk_same ?_ rfl rfl rfl rfl rfl rfl rfl rfl)

theorem State.failFlow_inv {s : State} {a1 a2} (h : s.Inv) : (State.failFlow s a1 a2).Inv := by
  unfold State.failFlow
  try dsimp only
  repeat' first
    | intro _
    | with_reducible assumption
    | with_reducible apply State.setTx_inv
    | with_reducible apply State.unqueueFlow_inv
    | with_reducible apply State.endAll_inv
    | with_reducible apply State.count_inv

theorem State.failPeer_inv {s : State} {a1} (h : s.Inv) : (State.failPeer s a1).Inv := by
  unfold State.failPeer
  try dsimp only
  repeat' first
    | intro _
    | with_reducible assumption
    | (with_reducible apply State.each_inv)
    | with_reducible apply State.failFlow_inv
    | with_reducible apply State.enterSolo_inv
    | with_reducible apply ite_inv
    | with_reducible apply foldl_inv
    | (fail_if_no_progress with_reducible refine mk_same ?_ rfl rfl rfl rfl rfl rfl rfl rfl)

theorem State.goBackTo_inv {s : State} {a1 a2 a3 a4} (h : s.Inv) : (State.goBackTo s a1 a2 a3 a4).Inv := by
  unfold State.goBackTo
  try dsimp only
  repeat' first
    | intro _
    | with_reducible assumption
    | with_reducible apply State.failPeer_inv
    | with_reducible apply State.setTx_inv
    | with_reducible apply ite_inv

theorem State.mapMsg_inv {s : State} {a1 a2 a3 a4} (h : s.Inv) : (State.mapMsg s a1 a2 a3 a4).Inv := by
  unfold State.mapMsg
  try dsimp only
  repeat' first
    | intro _
    | with_reducible assumption
    | with_reducible apply State.setTx_inv
    | with_reducible apply ite_inv
    | with_reducible apply foldl_inv
    | (fail_if_no_progress with_reducible refine mk_same ?_ rfl rfl rfl rfl rfl rfl rfl rfl)

theorem State.nakKey_inv {s : State} {a1 a2 a3 a4} (h : s.Inv) : (State.nakKey s a1 a2 a3 a4).Inv := by
  unfold State.nakKey
  try dsimp only
  repeat' first
    | intro _
    | with_reducible assumption
    | with_reducible apply State.count_inv
    | with_reducible apply State.ackTo_inv
    | with_reducible apply State.setTx_inv
    | with_reducible apply State.goBackTo_inv
    | with_reducible apply State.mapMsg_inv
    | with_reducible apply State.endMsg_inv
    | with_reducible apply ite_inv
    | with_reducible apply foldl_inv
    | (fail_if_no_progress with_reducible refine mk_same ?_ rfl rfl rfl rfl rfl rfl rfl rfl)
    | split

theorem State.nakRefusal_inv {s : State} {a1 a2 a3 a4 a5} (h : s.Inv) : (State.nakRefusal s a1 a2 a3 a4 a5).Inv := by
  unfold State.nakRefusal
  try dsimp only
  repeat' first
    | intro _
    | with_reducible assumption
    | with_reducible apply State.ackTo_inv
    | with_reducible apply State.mapMsg_inv
    | with_reducible apply State.endMsg_inv
    | with_reducible apply ite_inv
    | with_reducible apply foldl_inv
    | (fail_if_no_progress with_reducible refine mk_same ?_ rfl rfl rfl rfl rfl rfl rfl rfl)
    | split

theorem State.takeNak_inv {s : State} {a1 a2 a3} (h : s.Inv) : (State.takeNak s a1 a2 a3).Inv := by
  unfold State.takeNak
  try dsimp only
  repeat' first
    | intro _
    | with_reducible assumption
    | with_reducible apply State.count_inv
    | with_reducible apply State.nakSync_inv
    | with_reducible apply State.ackTo_inv
    | with_reducible apply State.goBackTo_inv
    | with_reducible apply State.nakKey_inv
    | with_reducible apply State.nakRefusal_inv
    | with_reducible apply ite_inv

theorem State.emits_inv {s : State} {a1} (h : s.Inv) : (State.emits s a1).Inv := by
  unfold State.emits
  try dsimp only
  repeat' first
    | intro _
    | with_reducible assumption
    | with_reducible apply ite_inv
    | with_reducible apply foldl_inv
    | (fail_if_no_progress with_reducible refine mk_same ?_ rfl rfl rfl rfl rfl rfl rfl rfl)

theorem State.endJet_inv {s : State} {a1 a2 a3 a4} (h : s.Inv) : (State.endJet s a1 a2 a3 a4).Inv := by
  unfold State.endJet
  try dsimp only
  repeat' first
    | intro _
    | with_reducible assumption
    | with_reducible apply State.updJet_inv

theorem State.raiseIrq_inv {s : State} {a1} (h : s.Inv) : (State.raiseIrq s a1).Inv := by
  unfold State.raiseIrq
  try dsimp only
  repeat' first
    | intro _
    | with_reducible assumption
    | with_reducible apply ite_inv
    | with_reducible apply foldl_inv
    | (fail_if_no_progress with_reducible refine mk_same ?_ rfl rfl rfl rfl rfl rfl rfl rfl)

theorem State.gateRefuse_inv {s : State} {a1 a2} (h : s.Inv) : (State.gateRefuse s a1 a2).Inv := by
  unfold State.gateRefuse
  try dsimp only
  repeat' first
    | intro _
    | with_reducible assumption
    | with_reducible apply State.fence_inv
    | with_reducible apply State.count_inv
    | with_reducible apply State.fault_inv

theorem State.isolateJet_inv {s : State} {a1} (h : s.Inv) : (State.isolateJet s a1).Inv := by
  unfold State.isolateJet
  try dsimp only
  repeat' first
    | intro _
    | with_reducible assumption
    | with_reducible apply State.updJet_inv

theorem State.hangJet_inv {s : State} {a1} (h : s.Inv) : (State.hangJet s a1).Inv := by
  unfold State.hangJet
  try dsimp only
  repeat' first
    | intro _
    | with_reducible assumption
    | with_reducible apply State.fault_inv
    | with_reducible apply State.isolateJet_inv

theorem State.jetRun_inv {s : State} {j : Nat} {f : Jet → Nat → State} (hf : ∀ x n, (f x n).Inv) (h : s.Inv) :
    (s.jetRun j f).Inv := by
  unfold State.jetRun
  split
  · split
    · exact hf _ _
    · exact h
  · exact h

theorem State.writeSpareMap_inv {s : State} (h : s.Inv) : (State.writeSpareMap s).Inv := by
  unfold State.writeSpareMap
  try dsimp only
  repeat' first
    | intro _
    | with_reducible assumption
    | with_reducible apply ite_inv
    | with_reducible apply foldl_inv
    | (fail_if_no_progress with_reducible refine mk_same ?_ rfl rfl rfl rfl rfl rfl rfl rfl)

theorem State.spareEvent_inv {s : State} {a1 a2 a3} (h : s.Inv) : (State.spareEvent s a1 a2 a3).Inv := by
  unfold State.spareEvent
  try dsimp only
  repeat' first
    | intro _
    | with_reducible assumption
    | with_reducible apply State.fault_inv

theorem State.sparedIn_inv {s : State} {a1 a2} (h : s.Inv) : (State.sparedIn s a1 a2).Inv := by
  unfold State.sparedIn
  try dsimp only
  repeat' first
    | intro _
    | with_reducible assumption
    | with_reducible apply State.writeSpareMap_inv
    | with_reducible apply State.spareEvent_inv

theorem State.linkLost_inv {s : State} {a1} (h : s.Inv) : (State.linkLost s a1).Inv := by
  unfold State.linkLost
  try dsimp only
  repeat' first
    | intro _
    | with_reducible assumption
    | with_reducible apply State.updPort_inv
    | with_reducible apply State.fault_inv
    | with_reducible apply State.countPort_inv
    | with_reducible apply State.each_inv
    | with_reducible apply State.moveFlow_inv
    | with_reducible apply State.requeueFlow_inv
    | with_reducible apply ite_inv

theorem State.linkCameUp_inv {s : State} {a1} (h : s.Inv) : (State.linkCameUp s a1).Inv := by
  unfold State.linkCameUp
  try dsimp only
  repeat' first
    | intro _
    | with_reducible assumption
    | with_reducible apply State.each_inv
    | with_reducible apply State.requeueFlow_inv
    | with_reducible apply ite_inv

theorem State.noteCorrected_inv {s : State} {a1 a2 a3 a4} (h : s.Inv) : (State.noteCorrected s a1 a2 a3 a4).Inv := by
  unfold State.noteCorrected
  try dsimp only
  repeat' first
    | intro _
    | with_reducible assumption
    | with_reducible apply State.each_inv
    | with_reducible apply State.grainEvent_inv

theorem State.onJet_inv {s : State} {a1 a2} (h : s.Inv) : (State.onJet s a1 a2).Inv := by
  unfold State.onJet
  try dsimp only
  repeat' first
    | intro _
    | with_reducible assumption
    | with_reducible apply State.updJet_inv
    | with_reducible apply ite_inv

theorem State.setStageSet_inv {s : State} {a1 a2} (h : s.Inv) : (State.setStageSet s a1 a2).Inv := by
  unfold State.setStageSet
  try dsimp only
  repeat' first
    | intro _
    | with_reducible assumption
    | with_reducible apply ite_inv
    | with_reducible apply foldl_inv
    | (fail_if_no_progress with_reducible refine mk_same ?_ rfl rfl rfl rfl rfl rfl rfl rfl)

theorem State.recoverCopy_inv {s : State} {a1 a2} (h : s.Inv) : (State.recoverCopy s a1 a2).Inv := by
  unfold State.recoverCopy
  try dsimp only
  repeat' first
    | intro _
    | with_reducible assumption
    | with_reducible apply State.fault_inv
    | with_reducible apply State.putPage_inv
    | with_reducible apply ite_inv
    | with_reducible apply foldl_inv
    | split

theorem State.setKey_inv {s : State} {a1 a2} (h : s.Inv) : (State.setKey s a1 a2).Inv := by
  unfold State.setKey
  try dsimp only
  repeat' first
    | intro _
    | with_reducible assumption
    | with_reducible apply ite_inv
    | with_reducible apply foldl_inv
    | (fail_if_no_progress with_reducible refine mk_same ?_ rfl rfl rfl rfl rfl rfl rfl rfl)

theorem State.recordOmitted_inv {s : State} {a1 a2 a3 a4} (h : s.Inv) : (State.recordOmitted s a1 a2 a3 a4).Inv := by
  unfold State.recordOmitted
  try dsimp only
  repeat' first
    | intro _
    | with_reducible assumption
    | with_reducible apply State.fault_inv

theorem State.segFail_inv {s : State} {a1 a2 a3 a4} (h : s.Inv) : (State.segFail s a1 a2 a3 a4).Inv := by
  unfold State.segFail
  try dsimp only
  repeat' first
    | intro _
    | with_reducible assumption
    | (with_reducible apply State.each_inv)
    | with_reducible apply State.failGrain_inv
    | with_reducible apply State.recordOmitted_inv
    | with_reducible apply State.updJet_inv
    | with_reducible apply State.endJet_inv
    | with_reducible apply ite_inv

theorem State.segOk_inv {s : State} {a1 a2 a3 a4} (h : s.Inv) : (State.segOk s a1 a2 a3 a4).Inv := by
  unfold State.segOk
  try dsimp only
  repeat' first
    | intro _
    | with_reducible assumption
    | with_reducible apply State.setJet_inv
    | with_reducible apply State.addSat_inv
    | with_reducible apply ite_inv

theorem State.toFailed_inv {s : State} {a1} (h : s.Inv) : (State.toFailed s a1).Inv := by
  unfold State.toFailed
  try dsimp only
  repeat' first
    | intro _
    | with_reducible assumption
    | (refine State.toStage_inv (by decide) ?_)
    | with_reducible apply ite_inv
    | with_reducible apply foldl_inv
    | (fail_if_no_progress with_reducible refine mk_same ?_ rfl rfl rfl rfl rfl rfl rfl rfl)

theorem State.upTo_inv {s : State} {a1} (h : s.Inv) : (State.upTo s a1).Inv := by
  unfold State.upTo
  try dsimp only
  repeat' first
    | intro _
    | with_reducible assumption
    | with_reducible apply ite_inv
    | with_reducible apply foldl_inv
    | (fail_if_no_progress with_reducible refine mk_same ?_ rfl rfl rfl rfl rfl rfl rfl rfl)

theorem doAckTimerExpiry_inv {s : State} {a1 a2} (h : s.Inv) : (doAckTimerExpiry a1 a2 s).Inv := by
  unfold doAckTimerExpiry
  try dsimp only
  repeat' first
    | intro _
    | with_reducible assumption
    | with_reducible apply State.setRx_inv
    | with_reducible apply ite_inv
    | with_reducible apply foldl_inv
    | (fail_if_no_progress with_reducible refine mk_same ?_ rfl rfl rfl rfl rfl rfl rfl rfl)
    | split

theorem doOrdinaryAccess_inv {s : State} {a1 a2} (h : s.Inv) : (doOrdinaryAccess a1 a2 s).Inv := by
  unfold doOrdinaryAccess
  try dsimp only
  repeat' first
    | intro _
    | with_reducible assumption
    | with_reducible apply State.gateRefuse_inv
    | with_reducible apply State.putGrain_inv
    | with_reducible apply State.updJet_inv
    | with_reducible apply ite_inv

theorem doPeerProbe_inv {s : State} {a1} (h : s.Inv) : (doPeerProbe a1 s).Inv := by
  unfold doPeerProbe
  try dsimp only
  repeat' first
    | intro _
    | with_reducible assumption
    | with_reducible apply State.pin_inv
    | with_reducible apply State.emit_inv
    | with_reducible apply State.setTx_inv
    | with_reducible apply ite_inv
    | with_reducible apply foldl_inv
    | (fail_if_no_progress with_reducible refine mk_same ?_ rfl rfl rfl rfl rfl rfl rfl rfl)
    | split

theorem doRetransmitTimerExpiry_inv {s : State} {a1 a2} (h : s.Inv) : (doRetransmitTimerExpiry a1 a2 s).Inv := by
  unfold doRetransmitTimerExpiry
  try dsimp only
  repeat' first
    | intro _
    | with_reducible assumption
    | with_reducible apply State.failPeer_inv
    | with_reducible apply State.setTx_inv
    | with_reducible apply State.moveFlow_inv
    | with_reducible apply State.goBackTo_inv
    | with_reducible apply ite_inv
    | with_reducible apply foldl_inv
    | (fail_if_no_progress with_reducible refine mk_same ?_ rfl rfl rfl rfl rfl rfl rfl rfl)
    | split

theorem doSegmentReadDone_inv {s : State} {a1 a2} (h : s.Inv) : (doSegmentReadDone a1 a2 s).Inv := by
  unfold doSegmentReadDone
  try dsimp only
  repeat' first
    | intro _
    | with_reducible assumption
    | (with_reducible apply State.jetRun_inv)
    | (with_reducible apply State.each_inv)
    | with_reducible apply State.noteCorrected_inv
    | with_reducible apply State.segFail_inv
    | with_reducible apply State.segOk_inv
    | with_reducible apply ite_inv
    | with_reducible apply foldl_inv
    | split

theorem doSlotStart_inv {s : State} {a1} (h : s.Inv) : (doSlotStart a1 s).Inv := by
  unfold doSlotStart
  try dsimp only
  repeat' first
    | intro _
    | with_reducible assumption
    | with_reducible apply State.setJet_inv
    | with_reducible apply ite_inv
    | with_reducible apply foldl_inv
    | (fail_if_no_progress with_reducible refine mk_same ?_ rfl rfl rfl rfl rfl rfl rfl rfl)
    | split

theorem doYreqDrop_inv {s : State} {a1} (h : s.Inv) : (doYreqDrop a1 s).Inv := by
  unfold doYreqDrop
  try dsimp only
  repeat' first
    | intro _
    | with_reducible assumption
    | with_reducible apply State.onJet_inv

theorem doYreqRaise_inv {s : State} {a1} (h : s.Inv) : (doYreqRaise a1 s).Inv := by
  unfold doYreqRaise
  try dsimp only
  repeat' first
    | intro _
    | with_reducible assumption
    | with_reducible apply State.onJet_inv

theorem execGo_inv {s : State} {a1 a2} (h : s.Inv) : OutInv (execGo a1 a2 s) := by
  unfold execGo
  repeat' first
    | (with_reducible refine run_inv (fun _ _ => ?_) ?_)
    | intro _
    | with_reducible assumption
    | with_reducible apply State.onJet_inv

theorem execStop_inv {s : State} {a1 a2} (h : s.Inv) : OutInv (execStop a1 a2 s) := by
  unfold execStop
  repeat' first
    | (with_reducible refine run_inv (fun _ _ => ?_) ?_)
    | intro _
    | with_reducible assumption
    | with_reducible apply State.onJet_inv

theorem execReadyClear_inv {s : State} {a1 a2} (h : s.Inv) : OutInv (execReadyClear a1 a2 s) := by
  unfold execReadyClear
  repeat' first
    | (with_reducible refine run_inv (fun _ _ => ?_) ?_)
    | intro _
    | with_reducible assumption
    | with_reducible apply State.onJet_inv

theorem execSlotStart_inv {s : State} {a1} (h : s.Inv) : OutInv (execSlotStart a1 s) := by
  unfold execSlotStart
  repeat' first
    | (with_reducible refine run_inv (fun _ _ => ?_) ?_)
    | intro _
    | with_reducible assumption
    | with_reducible apply doSlotStart_inv

theorem execSegmentReadDone_inv {s : State} {a1 a2} (h : s.Inv) : OutInv (execSegmentReadDone a1 a2 s) := by
  unfold execSegmentReadDone
  repeat' first
    | (with_reducible refine run_inv (fun _ _ => ?_) ?_)
    | intro _
    | with_reducible assumption
    | with_reducible apply doSegmentReadDone_inv

theorem execYreqRaise_inv {s : State} {a1} (h : s.Inv) : OutInv (execYreqRaise a1 s) := by
  unfold execYreqRaise
  repeat' first
    | (with_reducible refine run_inv (fun _ _ => ?_) ?_)
    | intro _
    | with_reducible assumption
    | with_reducible apply doYreqRaise_inv

theorem execYreqDrop_inv {s : State} {a1} (h : s.Inv) : OutInv (execYreqDrop a1 s) := by
  unfold execYreqDrop
  repeat' first
    | (with_reducible refine run_inv (fun _ _ => ?_) ?_)
    | intro _
    | with_reducible assumption
    | with_reducible apply doYreqDrop_inv

theorem execOrdinaryAccess_inv {s : State} {a1 a2} (h : s.Inv) : OutInv (execOrdinaryAccess a1 a2 s) := by
  unfold execOrdinaryAccess
  repeat' first
    | (with_reducible refine run_inv (fun _ _ => ?_) ?_)
    | intro _
    | with_reducible assumption
    | with_reducible apply doOrdinaryAccess_inv

theorem execOwnLimitExpiry_inv {s : State} {a1 a2} (h : s.Inv) : OutInv (execOwnLimitExpiry a1 a2 s) := by
  unfold execOwnLimitExpiry
  repeat' first
    | (with_reducible refine run_inv (fun _ _ => ?_) ?_)
    | intro _
    | with_reducible assumption
    | with_reducible apply State.hangJet_inv
    | with_reducible apply ite_inv

theorem execSweepLimitExpiry_inv {s : State} {a1 a2} (h : s.Inv) : OutInv (execSweepLimitExpiry a1 a2 s) := by
  unfold execSweepLimitExpiry
  repeat' first
    | (with_reducible refine run_inv (fun _ _ => ?_) ?_)
    | intro _
    | with_reducible assumption
    | with_reducible apply State.hangJet_inv
    | with_reducible apply ite_inv

theorem execJetResponseTimeout_inv {s : State} {a1 a2} (h : s.Inv) : OutInv (execJetResponseTimeout a1 a2 s) := by
  unfold execJetResponseTimeout
  repeat' first
    | (with_reducible refine run_inv (fun _ _ => ?_) ?_)
    | intro _
    | with_reducible assumption
    | with_reducible apply State.hangJet_inv
    | with_reducible apply ite_inv

theorem execAckTimerExpiry_inv {s : State} {a1 a2 a3} (h : s.Inv) : OutInv (execAckTimerExpiry a1 a2 a3 s) := by
  unfold execAckTimerExpiry
  repeat' first
    | (with_reducible refine run_inv (fun _ _ => ?_) ?_)
    | intro _
    | with_reducible assumption
    | with_reducible apply doAckTimerExpiry_inv
    | with_reducible apply State.upTo_inv

theorem execRetransmitTimerExpiry_inv {s : State} {a1 a2 a3} (h : s.Inv) : OutInv (execRetransmitTimerExpiry a1 a2 a3 s) := by
  unfold execRetransmitTimerExpiry
  repeat' first
    | (with_reducible refine run_inv (fun _ _ => ?_) ?_)
    | intro _
    | with_reducible assumption
    | with_reducible apply doRetransmitTimerExpiry_inv
    | with_reducible apply State.upTo_inv

theorem execPeerProbe_inv {s : State} {a1 a2} (h : s.Inv) : OutInv (execPeerProbe a1 a2 s) := by
  unfold execPeerProbe
  repeat' first
    | (with_reducible refine run_inv (fun _ _ => ?_) ?_)
    | intro _
    | with_reducible assumption
    | with_reducible apply doPeerProbe_inv
    | with_reducible apply State.upTo_inv

theorem execLinkDown_inv {s : State} {a1} (h : s.Inv) : OutInv (execLinkDown a1 s) := by
  unfold execLinkDown
  repeat' first
    | (with_reducible refine run_inv (fun _ _ => ?_) ?_)
    | intro _
    | with_reducible assumption
    | with_reducible apply State.linkLost_inv
    | with_reducible apply ite_inv

theorem State.sealWhole_inv {s : State} {a1 a2 a3} (h : s.Inv) : (State.sealWhole s a1 a2 a3).Inv := by
  unfold State.sealWhole
  try dsimp only
  repeat' first
    | intro _
    | with_reducible assumption
    | with_reducible apply State.sealPage_inv
    | with_reducible apply ite_inv
    | with_reducible apply foldl_inv
    | split

theorem State.recoverBases_inv {s : State} {a1 a2 a3 a4 a5} (h : s.Inv) : (State.recoverBases s a1 a2 a3 a4 a5).Inv := by
  unfold State.recoverBases
  try dsimp only
  repeat' first
    | intro _
    | with_reducible assumption
    | (with_reducible apply State.each_inv)
    | with_reducible apply State.recoverCopy_inv

theorem State.recoverFor_inv {s : State} {a1 a2} (h : s.Inv) : (State.recoverFor s a1 a2).Inv := by
  unfold State.recoverFor
  try dsimp only
  repeat' first
    | intro _
    | with_reducible assumption
    | (with_reducible apply State.each_inv)
    | with_reducible apply State.recoverBases_inv
    | with_reducible apply ite_inv
    | with_reducible apply foldl_inv
    | split

theorem State.failOwn_inv {s : State} {a1 a2} (h : s.Inv) : (State.failOwn s a1 a2).Inv := by
  unfold State.failOwn
  try dsimp only
  repeat' first
    | intro _
    | with_reducible assumption
    | with_reducible apply State.failPage_inv
    | with_reducible apply State.fault_inv
    | with_reducible apply ite_inv
    | with_reducible apply foldl_inv
    | split

theorem State.reissuedParts_inv {s : State} {a1 a2 a3 a4} (h : s.Inv) : ∀ t x, (State.reissuedParts s a1 a2 a3 a4) = (t, x) → State.Inv (t) := by
  intro t x he
  unfold State.reissuedParts at he
  dsimp only at he
  have hf : State.Inv t := by
    have : t = (t, x).1 := rfl
    rw [this, ← he]
    refine foldl_fst_inv ?_ _ h
    intro a k ha
    have hps : ∀ l : List Swept, State.Inv (l.foldl (fun (a : State × List OPage × Nat × List (Swept × Nat)) w =>
        match a.1.ownPage a1 a2 w with
        | .error e => (a.1.failOwn a2.part e, a.2.1, a.2.2.1, a.2.2.2 ++ [(w, statusOfCode e.2.1)])
        | .ok (p, n) => (a.1, a.2.1 ++ [p], a.2.2.1 + n, a.2.2.2)) (a.1, [], 0, [])).1 := by
      intro l
      refine foldl_fst_inv ?_ l ha
      intro b w hb
      split
      · exact State.failOwn_inv hb
      · exact hb
    split
    · exact hps _
    · exact State.addSat_inv (hps _)
  exact hf

theorem State.endBist_inv {s : State} {a1 a2} (h : s.Inv) : (State.endBist s a1 a2).Inv := by
  unfold State.endBist
  try dsimp only
  repeat' first
    | intro _
    | with_reducible assumption
    | with_reducible apply State.endJet_inv
    | with_reducible apply State.isolateJet_inv
    | with_reducible apply ite_inv

theorem State.drawTest_inv {s : State} (h : s.Inv) : ∀ x t, (State.drawTest s) = (x, t) → State.Inv t := by
  intro x t he
  unfold State.drawTest at he
  try dsimp only at he
  repeat' first
    | (cases he; done)
    | split at he
    | contradiction
    | cases he
    | intro _
    | with_reducible assumption
    | (refine State.draw_inv ?_ _ _ (by with_reducible assumption))
    | (with_reducible refine State.draw_inv ?_ _ _ rfl)

theorem State.withdraw_inv {s : State} {a1} (h : s.Inv) : (State.withdraw s a1).Inv := by
  unfold State.withdraw
  try dsimp only
  repeat' first
    | intro _
    | with_reducible assumption
    | with_reducible apply State.setStageSet_inv
    | with_reducible apply ite_inv
    | with_reducible apply foldl_inv
    | (fail_if_no_progress with_reducible refine mk_same ?_ rfl rfl rfl rfl rfl rfl rfl rfl)
    | split

theorem State.writePieces_inv {s : State} {a1 a2} (h : s.Inv) : State.Inv (State.writePieces s a1 a2) := by
  induction a1 generalizing s a2 with
  | nil => exact h
  | cons p l ih => exact ih (State.writeGrains_inv h)

theorem State.endMirrorFrame_inv {s : State} {a1 a2 a3} (h : s.Inv) : ∀ t x, (State.endMirrorFrame s a1 a2 a3) = (t, x) → State.Inv t := by
  intro t x he
  unfold State.endMirrorFrame at he
  try dsimp only at he
  repeat' first
    | (cases he; done)
    | split at he
    | contradiction
    | cases he
    | intro _
    | with_reducible assumption
    | (with_reducible apply State.each_inv)
    | with_reducible apply State.failCheck_inv
    | with_reducible apply State.mapMsg_inv
    | with_reducible apply State.sendMirror_inv
    | with_reducible apply ite_inv
    | with_reducible apply foldl_inv
    | split

theorem State.paceClass_inv {s : State} {a1 a2 a3 a4} (h : s.Inv) : (State.paceClass s a1 a2 a3 a4).Inv := by
  unfold State.paceClass
  try dsimp only
  repeat' first
    | intro _
    | with_reducible assumption
    | with_reducible apply State.updPort_inv
    | with_reducible apply State.emit_inv
    | with_reducible apply State.countPort_inv
    | with_reducible apply ite_inv

theorem State.meterPort_inv {s : State} {a1 a2 a3} (h : s.Inv) : (State.meterPort s a1 a2 a3).Inv := by
  unfold State.meterPort
  try dsimp only
  repeat' first
    | intro _
    | with_reducible assumption
    | with_reducible apply State.updPort_inv
    | with_reducible apply ite_inv

theorem State.paceMirror_inv {s : State} (h : s.Inv) : (State.paceMirror s).Inv := by
  unfold State.paceMirror
  try dsimp only
  repeat' first
    | intro _
    | with_reducible assumption
    | (with_reducible apply State.each_inv)
    | with_reducible apply State.paceClass_inv

theorem State.startRebalance_inv {s : State} {a1 a2} (h : s.Inv) : (State.startRebalance s a1 a2).Inv := by
  unfold State.startRebalance
  try dsimp only
  repeat' first
    | intro _
    | with_reducible assumption
    | (refine State.pick_inv ?_ _ _ (by with_reducible assumption))
    | (with_reducible refine State.pick_inv ?_ _ _ rfl)
    | (refine State.allocRun_inv ?_ _ _ _ (by with_reducible assumption))
    | (with_reducible refine State.allocRun_inv ?_ _ _ _ rfl)
    | with_reducible apply State.putPage_inv
    | with_reducible apply ite_inv
    | with_reducible apply foldl_inv
    | split

theorem State.scrubHeader_inv {s : State} {a1 a2 a3 a4} (h : s.Inv) : (State.scrubHeader s a1 a2 a3 a4).Inv := by
  unfold State.scrubHeader
  try dsimp only
  repeat' first
    | intro _
    | with_reducible assumption
    | with_reducible apply State.failGrain_inv
    | with_reducible apply ite_inv
    | with_reducible apply foldl_inv
    | split

theorem State.loseSubBank_inv {s : State} {a1 a2} (h : s.Inv) : (State.loseSubBank s a1 a2).Inv := by
  unfold State.loseSubBank
  try dsimp only
  repeat' first
    | intro _
    | with_reducible assumption
    | with_reducible apply State.spareEvent_inv
    | with_reducible apply State.fence_inv
    | with_reducible apply ite_inv
    | with_reducible apply foldl_inv
    | (fail_if_no_progress with_reducible refine mk_same ?_ rfl rfl rfl rfl rfl rfl rfl rfl)
    | split

theorem State.spareHeader_inv {s : State} {a1 a2 a3} (h : s.Inv) : (State.spareHeader s a1 a2 a3).Inv := by
  unfold State.spareHeader
  try dsimp only
  repeat' first
    | intro _
    | with_reducible assumption
    | with_reducible apply State.scrubHeader_inv
    | with_reducible apply ite_inv
    | with_reducible apply foldl_inv
    | split

theorem State.askDelay_inv {s : State} {a1} (h : s.Inv) : (State.askDelay s a1).Inv := by
  unfold State.askDelay
  try dsimp only
  repeat' first
    | intro _
    | with_reducible assumption
    | with_reducible apply State.emit_inv
    | with_reducible apply ite_inv
    | with_reducible apply foldl_inv
    | (fail_if_no_progress with_reducible refine mk_same ?_ rfl rfl rfl rfl rfl rfl rfl rfl)

theorem State.syncDone_inv {s : State} {a1} (h : s.Inv) : (State.syncDone s a1).Inv := by
  unfold State.syncDone
  try dsimp only
  repeat' first
    | intro _
    | with_reducible assumption
    | with_reducible apply State.askDelay_inv
    | with_reducible apply ite_inv
    | with_reducible apply foldl_inv
    | (fail_if_no_progress with_reducible refine mk_same ?_ rfl rfl rfl rfl rfl rfl rfl rfl)

theorem State.masterMessage_inv {s : State} {a1 a2} (h : s.Inv) : (State.masterMessage s a1 a2).Inv := by
  unfold State.masterMessage
  try dsimp only
  repeat' first
    | intro _
    | with_reducible assumption
    | with_reducible apply State.syncDone_inv
    | with_reducible apply ite_inv
    | with_reducible apply foldl_inv
    | (fail_if_no_progress with_reducible refine mk_same ?_ rfl rfl rfl rfl rfl rfl rfl rfl)
    | split

end Sys2Proof.Machine
end

