-- ==== Sys2Proof/Laws/InvAttend.lean ====
section
/-! SUPPORT. The state invariant is kept by ATTENDs, jet instructions, merges, tiers of hot grains, hedges and the sluice.
One lemma per operation: the state it answers is legal whenever the state it gets is. -/

namespace Sys2Proof.Machine

theorem State.addChunk_inv {s : State} {a1 a2 a3 a4 a5 a6 a7} (h : s.Inv) : ∀ t, (State.addChunk s a1 a2 a3 a4 a5 a6 a7) = .ok t → State.Inv (t) := by
  intro t he
  unfold State.addChunk at he
  dsimp only at he
  split at he
  · cases he
  · split at he
    · cases he
    · split at he
      · cases he
      · split at he
        · cases he
        · rename_i s1 hs1
          have h1 : State.Inv s1 := by
            split at hs1
            · exact State.openPage_inv h _ hs1
            · cases hs1; exact h
          split at he
          · cases he; exact State.sealWhole_inv h1
          · split at he
            · cases he
            · rename_i s2 hs2
              have h2 := State.addTokens_inv h1 _ hs2
              split at he
              · split at he
                · cases he; exact State.sealPage_inv h2
                · cases he; exact h2
              · cases he; exact h2

theorem State.addAll_inv {s : State} {a1 a2 a3 a4 a5 a6 a7 a8} (h : s.Inv) : ∀ t, (State.addAll s a1 a2 a3 a4 a5 a6 a7 a8) = .ok t → State.Inv (t) := by
  induction a6 generalizing s a1 a2 a3 a4 a5 a7 a8 with
  | zero =>
    intro t he; unfold State.addAll at he; try dsimp only at he
    repeat' first
      | (cases he; done)
      | split at he
      | contradiction
      | cases he
      | with_reducible assumption
  | succ n ih =>
    intro t he; unfold State.addAll at he; try dsimp only at he
    repeat' first
      | (cases he; done)
      | split at he
      | contradiction
      | (refine ih ?_ _ he)
      | cases he
      | intro _
      | with_reducible assumption
      | (refine State.addChunk_inv ?_ _ (by with_reducible assumption))

theorem State.addBasePages_inv {s : State} {a1 a2 a3 a4 a5 a6 a7 a8} (h : s.Inv) : ∀ t, (State.addBasePages s a1 a2 a3 a4 a5 a6 a7 a8) = .ok t → State.Inv (t) := by
  induction a6 generalizing s a1 a2 a3 a4 a5 a7 a8 with
  | zero =>
    intro t he; unfold State.addBasePages at he; try dsimp only at he
    repeat' first
      | (cases he; done)
      | split at he
      | contradiction
      | cases he
      | with_reducible assumption
  | succ n ih =>
    intro t he; unfold State.addBasePages at he; try dsimp only at he
    repeat' first
      | (cases he; done)
      | split at he
      | contradiction
      | (refine ih ?_ _ he)
      | cases he
      | intro _
      | with_reducible assumption
      | (refine State.allocRun_inv ?_ _ _ _ (by with_reducible assumption))
      | (with_reducible refine State.allocRun_inv ?_ _ _ _ rfl)
      | with_reducible apply State.putPage_inv
      | with_reducible apply State.sealPage_inv

theorem State.unland_inv {s : State} {a1} (h : s.Inv) : (State.unland s a1).Inv := by
  unfold State.unland
  try dsimp only
  repeat' first
    | intro _
    | with_reducible assumption
    | with_reducible apply State.updQueue_inv

theorem State.readMeta_inv {s : State} {a1 a2 a3} (h : s.Inv) : (State.readMeta s a1 a2 a3).Inv := by
  unfold State.readMeta
  try dsimp only
  repeat' first
    | intro _
    | with_reducible assumption
    | with_reducible apply State.each_inv
    | with_reducible apply State.failGrain_inv
    | with_reducible apply ite_inv
    | with_reducible apply foldl_inv
    | (fail_if_no_progress with_reducible refine mk_same ?_ rfl rfl rfl rfl rfl rfl rfl rfl)
    | split

theorem State.noteSweep_inv {s : State} {a1} (h : s.Inv) : (State.noteSweep s a1).Inv := by
  unfold State.noteSweep
  try dsimp only
  repeat' first
    | intro _
    | with_reducible assumption
    | with_reducible apply State.putPage_inv
    | with_reducible apply State.setSession_inv
    | with_reducible apply ite_inv
    | with_reducible apply foldl_inv
    | (fail_if_no_progress with_reducible refine mk_same ?_ rfl rfl rfl rfl rfl rfl rfl rfl)
    | split

theorem State.noteBaseReads_inv {s : State} {a1 a2 a3 a4} (h : s.Inv) : (State.noteBaseReads s a1 a2 a3 a4).Inv := by
  unfold State.noteBaseReads
  try dsimp only
  repeat' first
    | intro _
    | with_reducible assumption
    | (with_reducible apply State.each_inv)
    | with_reducible apply State.noteSweep_inv

theorem State.takeProv_inv {s : State} {a1 a2 a3 a4 a5 a6 a7 a8} (h : s.Inv) : ∀ t x, (State.takeProv s a1 a2 a3 a4 a5 a6 a7 a8) = (t, x) → State.Inv t := by
  intro t x he
  unfold State.takeProv at he
  try dsimp only at he
  repeat' first
    | (cases he; done)
    | split at he
    | contradiction
    | cases he
    | intro _
    | with_reducible assumption
    | with_reducible apply State.recoverBases_inv
    | with_reducible apply State.failPage_inv
    | with_reducible apply State.noteBaseReads_inv
    | with_reducible apply State.addSat_inv
    | with_reducible apply State.dropProvs_inv
    | (refine State.takeSram_inv ?_ _ (by with_reducible assumption))
    | (with_reducible refine State.takeSram_inv ?_ _ rfl)
    | with_reducible apply State.updPart_inv
    | with_reducible apply State.mirror_inv
    | with_reducible apply ite_inv
    | with_reducible apply foldl_inv
    | (fail_if_no_progress with_reducible refine mk_same ?_ rfl rfl rfl rfl rfl rfl rfl rfl)

theorem State.resolveEntry_inv {s : State} {a1 a2 a3 a4 a5 a6 a7 a8 a9} (h : s.Inv) : ∀ t x, (State.resolveEntry s a1 a2 a3 a4 a5 a6 a7 a8 a9) = (t, x) → State.Inv t := by
  intro t x he
  unfold State.resolveEntry at he
  try dsimp only at he
  repeat' first
    | (cases he; done)
    | split at he
    | contradiction
    | cases he
    | intro _
    | with_reducible assumption
    | (with_reducible apply State.each_inv)
    | with_reducible apply State.readMeta_inv
    | with_reducible apply State.fault_inv
    | (refine State.takeProv_inv ?_ _ _ (by with_reducible assumption))
    | (with_reducible refine State.takeProv_inv ?_ _ _ rfl)
    | with_reducible apply State.noteSweep_inv

theorem State.placeCmds_inv {s : State} {a1 a2} (h : s.Inv) : (State.placeCmds s a1 a2).Inv := by
  induction a2 generalizing s a1 with
  | zero => exact h
  | succ n ih =>
    unfold State.placeCmds
    try dsimp only
    repeat' first
      | intro _
      | (with_reducible apply ih)
      | with_reducible assumption
      | with_reducible apply State.setJet_inv
      | with_reducible apply ite_inv
      | with_reducible apply foldl_inv
      | (fail_if_no_progress with_reducible refine mk_same ?_ rfl rfl rfl rfl rfl rfl rfl rfl)
      | split

theorem State.releaseCmds_inv {s : State} {a1} (h : s.Inv) : (State.releaseCmds s a1).Inv := by
  unfold State.releaseCmds
  try dsimp only
  repeat' first
    | intro _
    | with_reducible assumption
    | with_reducible apply State.each_inv
    | with_reducible apply State.addSat_inv
    | with_reducible apply State.updEntry_inv
    | with_reducible apply State.placeCmds_inv
    | with_reducible apply ite_inv
    | with_reducible apply foldl_inv
    | (fail_if_no_progress with_reducible refine mk_same ?_ rfl rfl rfl rfl rfl rfl rfl rfl)
    | split

theorem State.startAttend_inv {s : State} {a1 a2 a3 a4 a5} (h : s.Inv) : (s.startAttend a1 a2 a3 a4 a5).Inv := by
  unfold State.startAttend
  split
  · exact h
  · refine State.releaseCmds_inv (State.each_inv (fun _ _ ht => State.failEntry_inv ht) (foldl_fst_inv ?_ _ h))
    intro a e ha
    dsimp only
    split
    · exact ha
    · split
      · exact State.updReq_inv (State.resolveEntry_inv ha _ _ rfl)
      · exact State.updReq_inv ha

theorem State.updBase_inv {s : State} {a1 a2 a3} (h : s.Inv) : (State.updBase s a1 a2 a3).Inv := by
  unfold State.updBase
  try dsimp only
  repeat' first
    | intro _
    | with_reducible assumption
    | with_reducible apply State.updPart_inv

theorem State.applyBase_inv {s : State} {a1 a2 a3 a4} (h : s.Inv) :
    ∀ t x, s.applyBase a1 a2 a3 a4 = .ok (t, x) → State.Inv t := by
  intro t x he
  unfold State.applyBase at he
  dsimp only at he
  split at he
  · cases he
  · obtain ⟨s1, h1, h2⟩ := bind_ok he
    have hs1 := foldlM_ok_inv (fun _ _ _ hu hx => State.addBasePages_inv hu _ hx) _ h _ h1
    cases h2
    exact foldl_inv (fun _ _ ht => State.updPart_inv (State.addSat_inv (State.updBase_inv ht))) _ hs1

theorem State.setCount_inv {s : State} {a1 a2 a3 a4} (h : s.Inv) : (State.setCount s a1 a2 a3 a4).Inv := by
  unfold State.setCount
  try dsimp only
  repeat' first
    | intro _
    | with_reducible assumption
    | with_reducible apply State.putHead_inv
    | with_reducible apply ite_inv
    | with_reducible apply foldl_inv
    | (fail_if_no_progress with_reducible refine mk_same ?_ rfl rfl rfl rfl rfl rfl rfl rfl)
    | split

theorem State.applyRecords_inv {s : State} {a1 a2 a3 a4 a5} (h : s.Inv) : ∀ t x, (State.applyRecords s a1 a2 a3 a4 a5) = .ok (t, x) → State.Inv (t) := by
  intro t x he
  unfold State.applyRecords at he
  obtain ⟨qs, -, he⟩ := bind_ok he
  dsimp only at he
  split at he
  · cases he
  · obtain ⟨s1, h1, h2⟩ := bind_ok he
    have hs1 := foldlM_ok_inv (fun _ _ _ hu hx => State.addAll_inv hu _ hx) _ (State.takeSram_inv h _ (by assumption)) _ h1
    cases h2
    exact foldl_inv (fun _ _ ht => State.updPart_inv (State.addSat_inv (State.noteBaseReads_inv ht))) _
      (foldl_inv (fun _ _ ht => State.setCount_inv ht) _ hs1)

theorem State.applyCache_inv {s : State} {a1 a2} (h : s.Inv) : ∀ t x, (State.applyCache s a1 a2) = .ok (t, x) → State.Inv t := by
  intro t x he
  unfold State.applyCache at he
  try dsimp only at he
  repeat' first
    | (cases he; done)
    | split at he
    | contradiction
    | cases he
    | intro _
    | with_reducible assumption
    | (refine State.applyBase_inv ?_ _ _ (by with_reducible assumption))
    | (with_reducible refine State.applyBase_inv ?_ _ _ rfl)
    | (refine State.applyRecords_inv ?_ _ _ (by with_reducible assumption))

theorem State.refuseApply_inv {s : State} {a1} (h : s.Inv) : ∀ t x, (State.refuseApply s a1) = (t, x) → State.Inv t := by
  intro t x he
  unfold State.refuseApply at he
  try dsimp only at he
  repeat' first
    | (cases he; done)
    | split at he
    | contradiction
    | cases he
    | intro _
    | with_reducible assumption
    | with_reducible apply State.containPage_inv
    | with_reducible apply State.partialRefused_inv
    | with_reducible apply State.failPage_inv

theorem State.doCache_inv {s : State} {a1 a2 a3} (h : s.Inv) : (State.doCache s a1 a2 a3).Inv := by
  unfold State.doCache
  try dsimp only
  repeat' first
    | intro _
    | with_reducible assumption
    | with_reducible apply State.finishReq_inv
    | with_reducible apply State.recoverFor_inv
    | (refine State.applyCache_inv ?_ _ _ (by with_reducible assumption))
    | (with_reducible refine State.applyCache_inv ?_ _ _ rfl)
    | with_reducible apply State.commitChange_inv
    | with_reducible apply State.updReq_inv
    | (refine State.refuseApply_inv ?_ _ _ (by with_reducible assumption))
    | (with_reducible refine State.refuseApply_inv ?_ _ _ rfl)
    | with_reducible apply ite_inv
    | with_reducible apply foldl_inv
    | split

theorem State.cancelReqs_inv {s : State} {a1} (h : s.Inv) : ∀ x t, (State.cancelReqs s a1) = (x, t) → State.Inv t := by
  intro x t he
  unfold State.cancelReqs at he
  try dsimp only at he
  repeat' first
    | (cases he; done)
    | split at he
    | contradiction
    | cases he
    | intro _
    | with_reducible assumption
    | with_reducible apply State.each_inv
    | with_reducible apply State.endReq_inv

theorem State.cancelHost_inv {s : State} {a1} (h : s.Inv) : (State.cancelHost s a1).Inv := by
  unfold State.cancelHost
  try dsimp only
  repeat' first
    | intro _
    | with_reducible assumption
    | (refine State.cancelReqs_inv ?_ _ _ (by with_reducible assumption))
    | (with_reducible refine State.cancelReqs_inv ?_ _ _ rfl)
    | with_reducible apply State.hostDone_inv
    | with_reducible apply State.count_inv
    | with_reducible apply ite_inv
    | with_reducible apply foldl_inv
    | split

theorem State.admitMsg_inv {s : State} {a1 a2 a3 a4} (h : s.Inv) : (State.admitMsg s a1 a2 a3 a4).Inv := by
  unfold State.admitMsg
  try dsimp only
  repeat' first
    | intro _
    | with_reducible assumption
    | with_reducible apply State.takeShare_inv
    | with_reducible apply State.unland_inv
    | with_reducible apply State.countPart_inv
    | with_reducible apply State.cancelHost_inv
    | with_reducible apply State.updQueue_inv
    | with_reducible apply State.setReq_inv
    | with_reducible apply State.startAttend_inv
    | with_reducible apply State.pumpRead_inv
    | with_reducible apply State.doCache_inv
    | with_reducible apply ite_inv
    | with_reducible apply foldl_inv
    | (fail_if_no_progress with_reducible refine mk_same ?_ rfl rfl rfl rfl rfl rfl rfl rfl)

theorem State.refuseLanded_inv {s : State} {a1 a2} (h : s.Inv) : (State.refuseLanded s a1 a2).Inv := by
  unfold State.refuseLanded
  try dsimp only
  repeat' first
    | intro _
    | with_reducible assumption
    | with_reducible apply State.refuseMsg_inv
    | with_reducible apply State.unland_inv
    | with_reducible apply State.countPart_inv
    | with_reducible apply ite_inv

theorem State.admitStep_inv {s : State} {a1 a2} (h : s.Inv) : (State.admitStep s a1 a2).Inv := by
  unfold State.admitStep
  try dsimp only
  repeat' first
    | intro _
    | with_reducible assumption
    | with_reducible apply State.refuseLanded_inv
    | with_reducible apply State.forwardMsg_inv
    | with_reducible apply State.unland_inv
    | with_reducible apply State.admitMsg_inv
    | with_reducible apply State.updQueue_inv
    | (with_reducible apply getD_inv)
    | with_reducible apply ite_inv
    | with_reducible apply foldl_inv
    | split

theorem State.applyCommit_inv {s : State} {a1 a2 a3 a4} (h : s.Inv) :
    ∀ t x, s.applyCommit a1 a2 a3 a4 = .ok (t, x) → State.Inv t := by
  intro t x he
  unfold State.applyCommit at he
  dsimp only at he
  split at he
  · cases he
  · obtain ⟨s1, h1, h2⟩ := bind_ok he
    have hs1 := foldlM_ok_inv (fun _ _ _ hu hx => State.addAll_inv hu _ hx) _
      (State.takeSram_inv (State.dropProvs_inv h) _ (by assumption)) _ h1
    cases h2
    exact foldl_inv (fun _ _ ht => State.setCount_inv ht) _ hs1

theorem State.cancelFabric_inv {s : State} {a1 a2 a3} (h : s.Inv) : (State.cancelFabric s a1 a2 a3).Inv := by
  unfold State.cancelFabric
  try dsimp only
  repeat' first
    | intro _
    | with_reducible assumption
    | (refine State.cancelReqs_inv ?_ _ _ (by with_reducible assumption))
    | (with_reducible refine State.cancelReqs_inv ?_ _ _ rfl)
    | with_reducible apply State.count_inv
    | with_reducible apply ite_inv

theorem State.loseEntry_inv {s : State} {a1 a2} (h : s.Inv) : (State.loseEntry s a1 a2).Inv := by
  unfold State.loseEntry
  try dsimp only
  repeat' first
    | intro _
    | with_reducible assumption
    | with_reducible apply State.stopEntry_inv
    | with_reducible apply State.updEntry_inv
    | with_reducible apply State.giveBack_inv
    | with_reducible apply State.updReq_inv
    | with_reducible apply State.completeAttend_inv
    | with_reducible apply ite_inv
    | with_reducible apply foldl_inv
    | (fail_if_no_progress with_reducible refine mk_same ?_ rfl rfl rfl rfl rfl rfl rfl rfl)
    | split

theorem State.claimReply_inv {s : State} {a1} (h : s.Inv) : (State.claimReply s a1).Inv := by
  unfold State.claimReply
  try dsimp only
  repeat' first
    | intro _
    | with_reducible assumption
    | with_reducible apply State.sendClaim_inv
    | with_reducible apply State.handEntry_inv
    | with_reducible apply State.loseEntry_inv
    | with_reducible apply ite_inv
    | with_reducible apply foldl_inv
    | (fail_if_no_progress with_reducible refine mk_same ?_ rfl rfl rfl rfl rfl rfl rfl rfl)
    | split

theorem State.confluenceParts_inv {s : State} {a1 a2 a3 a4} (h : s.Inv) : ∀ t x, (State.confluenceParts s a1 a2 a3 a4) = (t, x) → State.Inv (t) := by
  intro t x he
  unfold State.confluenceParts at he
  dsimp only at he
  split at he
  · cases he
    exact State.reissuedParts_inv (State.addSat_inv h) _ _ rfl
  · cases he
    exact State.each_inv (fun _ _ ht => State.failOwn_inv ht) h

theorem State.omitDl_inv {s : State} {a1 a2 a3} (h : s.Inv) : (State.omitDl s a1 a2 a3).Inv := by
  unfold State.omitDl
  try dsimp only
  repeat' first
    | intro _
    | with_reducible assumption
    | with_reducible apply State.updEntry_inv

theorem State.dropCmd_inv {s : State} {a1 a2} (h : s.Inv) : (State.dropCmd s a1 a2).Inv := by
  unfold State.dropCmd
  try dsimp only
  repeat' first
    | intro _
    | with_reducible assumption
    | with_reducible apply State.each_inv
    | with_reducible apply State.updEntry_inv
    | with_reducible apply ite_inv
    | with_reducible apply foldl_inv
    | (fail_if_no_progress with_reducible refine mk_same ?_ rfl rfl rfl rfl rfl rfl rfl rfl)

theorem State.cutEntry_inv {s : State} {a1 a2} (h : s.Inv) : (State.cutEntry s a1 a2).Inv := by
  unfold State.cutEntry
  try dsimp only
  repeat' first
    | intro _
    | with_reducible assumption
    | with_reducible apply State.failEntry_inv
    | with_reducible apply State.releaseHeld_inv
    | with_reducible apply State.setClaim_inv
    | with_reducible apply ite_inv
    | with_reducible apply foldl_inv
    | (fail_if_no_progress with_reducible refine mk_same ?_ rfl rfl rfl rfl rfl rfl rfl rfl)
    | split

theorem State.cutCmd_inv {s : State} {a1 a2} (h : s.Inv) : (State.cutCmd s a1 a2).Inv := by
  unfold State.cutCmd
  try dsimp only
  repeat' first
    | intro _
    | with_reducible assumption
    | with_reducible apply State.updJet_inv
    | with_reducible apply State.each_inv
    | with_reducible apply State.omitDl_inv
    | with_reducible apply State.dropCmd_inv
    | with_reducible apply State.cutEntry_inv
    | with_reducible apply ite_inv
    | with_reducible apply foldl_inv
    | (fail_if_no_progress with_reducible refine mk_same ?_ rfl rfl rfl rfl rfl rfl rfl rfl)
    | split

theorem State.dbIgnored_inv {s : State} {a1 a2} (h : s.Inv) : (State.dbIgnored s a1 a2).Inv := by
  unfold State.dbIgnored
  try dsimp only
  repeat' first
    | intro _
    | with_reducible assumption
    | with_reducible apply State.countPart_inv
    | with_reducible apply ite_inv
    | with_reducible apply foldl_inv
    | (fail_if_no_progress with_reducible refine mk_same ?_ rfl rfl rfl rfl rfl rfl rfl rfl)
    | split

theorem State.declined_inv {s : State} {a1 a2} (h : s.Inv) : (State.declined s a1 a2).Inv := by
  unfold State.declined
  try dsimp only
  repeat' first
    | intro _
    | with_reducible assumption
    | with_reducible apply State.count_inv
    | with_reducible apply State.releaseHeld_inv
    | with_reducible apply State.setClaim_inv
    | with_reducible apply ite_inv

theorem State.errPage_inv {s : State} {a1 a2 a3 a4} (h : s.Inv) : (State.errPage s a1 a2 a3 a4).Inv := by
  unfold State.errPage
  try dsimp only
  repeat' first
    | intro _
    | with_reducible assumption
    | with_reducible apply State.updEntry_inv
    | with_reducible apply State.failEntry_inv
    | with_reducible apply ite_inv
    | with_reducible apply foldl_inv
    | (fail_if_no_progress with_reducible refine mk_same ?_ rfl rfl rfl rfl rfl rfl rfl rfl)
    | split

theorem State.reissuePage_inv {s : State} {a1 a2 a3 a4 a5 a6} (h : s.Inv) : (State.reissuePage s a1 a2 a3 a4 a5 a6).Inv := by
  unfold State.reissuePage
  try dsimp only
  repeat' first
    | intro _
    | with_reducible assumption
    | with_reducible apply State.errPage_inv
    | with_reducible apply State.countPart_inv
    | with_reducible apply State.updEntry_inv
    | with_reducible apply ite_inv
    | with_reducible apply foldl_inv
    | split

theorem State.reissueCmd_inv {s : State} {a1 a2} (h : s.Inv) : (State.reissueCmd s a1 a2).Inv := by
  unfold State.reissueCmd
  try dsimp only
  repeat' first
    | intro _
    | with_reducible assumption
    | (with_reducible apply State.each_inv)
    | with_reducible apply State.reissuePage_inv
    | with_reducible apply ite_inv
    | with_reducible apply foldl_inv
    | split

theorem State.divert_inv {s : State} {a1} (h : s.Inv) : (State.divert s a1).Inv := by
  unfold State.divert
  try dsimp only
  repeat' first
    | intro _
    | with_reducible assumption
    | (with_reducible apply State.each_inv)
    | with_reducible apply State.dropCmd_inv
    | with_reducible apply State.reissueCmd_inv
    | (with_reducible apply getD_inv)
    | with_reducible apply ite_inv
    | with_reducible apply foldl_inv
    | (fail_if_no_progress with_reducible refine mk_same ?_ rfl rfl rfl rfl rfl rfl rfl rfl)
    | split

theorem State.takeHedge_inv {s : State} {a1 a2} (h : s.Inv) : (State.takeHedge s a1 a2).Inv := by
  unfold State.takeHedge
  try dsimp only
  repeat' first
    | intro _
    | with_reducible assumption
    | with_reducible apply State.takeShare_inv
    | with_reducible apply State.startAttend_inv
    | with_reducible apply State.setReq_inv
    | with_reducible apply State.sendClaim_inv
    | with_reducible apply ite_inv
    | with_reducible apply foldl_inv
    | (fail_if_no_progress with_reducible refine mk_same ?_ rfl rfl rfl rfl rfl rfl rfl rfl)

theorem State.originClaim_inv {s : State} {a1} (h : s.Inv) : (State.originClaim s a1).Inv := by
  unfold State.originClaim
  try dsimp only
  repeat' first
    | intro _
    | with_reducible assumption
    | with_reducible apply State.each_inv
    | with_reducible apply State.declined_inv
    | with_reducible apply State.setClaim_inv
    | with_reducible apply State.loseEntry_inv
    | with_reducible apply State.sendClaim_inv
    | with_reducible apply ite_inv

theorem State.takeClaim_inv {s : State} {a1} (h : s.Inv) : (State.takeClaim s a1).Inv := by
  unfold State.takeClaim
  try dsimp only
  repeat' first
    | intro _
    | with_reducible assumption
    | with_reducible apply State.claimReply_inv
    | with_reducible apply State.originClaim_inv
    | with_reducible apply ite_inv

theorem State.formResp_inv {s : State} {a1 a2 a3 a4} (h : s.Inv) : ∀ t x, (State.formResp s a1 a2 a3 a4) = (t, x) → State.Inv t := by
  intro t x he
  unfold State.formResp at he
  try dsimp only at he
  repeat' first
    | (cases he; done)
    | split at he
    | contradiction
    | cases he
    | intro _
    | with_reducible assumption
    | with_reducible apply State.addSat_inv
    | with_reducible apply State.updPart_inv

theorem State.jetFormat_inv {s : State} {a1 a2} (h : s.Inv) : (State.jetFormat s a1 a2).Inv := by
  unfold State.jetFormat
  try dsimp only
  repeat' first
    | intro _
    | with_reducible assumption
    | with_reducible apply State.endJet_inv

theorem State.jetGoto_inv {s : State} {a1 a2 a3} (h : s.Inv) : (State.jetGoto s a1 a2 a3).Inv := by
  unfold State.jetGoto
  try dsimp only
  repeat' first
    | intro _
    | with_reducible assumption
    | with_reducible apply State.setJet_inv
    | with_reducible apply State.endJet_inv
    | with_reducible apply ite_inv

theorem State.jetOp_inv {s : State} {a1 a2} (h : s.Inv) : (State.jetOp s a1 a2).Inv := by
  unfold State.jetOp
  try dsimp only
  repeat' first
    | intro _
    | with_reducible assumption
    | with_reducible apply State.jetRun_inv
    | with_reducible apply State.setJet_inv

theorem State.jetTest_inv {s : State} {j : Nat} {l : List Nat} {f : Jet → Nat → State} (hf : ∀ x n, (f x n).Inv) (h : s.Inv) :
    (s.jetTest j l f).Inv :=
  State.jetRun_inv (fun x n => ite_inv (State.endJet_inv h) (hf x n)) h

theorem State.libDone_inv {s : State} {a1} (h : s.Inv) : (State.libDone s a1).Inv := by
  unfold State.libDone
  try dsimp only
  repeat' first
    | intro _
    | with_reducible assumption
    | (with_reducible apply State.each_inv)
    | with_reducible apply State.placeCmds_inv
    | with_reducible apply ite_inv
    | with_reducible apply foldl_inv
    | (fail_if_no_progress with_reducible refine mk_same ?_ rfl rfl rfl rfl rfl rfl rfl rfl)
    | split

theorem State.stampedAt_inv {s : State} {n : Nat} {f : State → State} (hf : ∀ u : State, u.Inv → (f u).Inv)
    (h : s.Inv) : (s.stampedAt n f).Inv := by
  unfold State.stampedAt
  exact mk_same (hf _ (mk_same h rfl rfl rfl rfl rfl rfl rfl rfl)) rfl rfl rfl rfl rfl rfl rfl rfl

theorem State.startRead_inv {s : State} {a1 a2 a3} (h : s.Inv) : (State.startRead s a1 a2 a3).Inv := by
  unfold State.startRead
  try dsimp only
  repeat' first
    | intro _
    | with_reducible assumption
    | with_reducible apply State.setJet_inv
    | with_reducible apply ite_inv

theorem State.takePart_inv {s : State} {a1 a2 a3 a4 a5 a6} (h : s.Inv) : (State.takePart s a1 a2 a3 a4 a5 a6).Inv := by
  unfold State.takePart
  try dsimp only
  repeat' first
    | intro _
    | with_reducible assumption
    | (with_reducible apply State.each_inv)
    | with_reducible apply State.omitDl_inv
    | with_reducible apply State.errPage_inv
    | with_reducible apply State.updEntry_inv
    | with_reducible apply State.addSat_inv
    | with_reducible apply ite_inv
    | with_reducible apply foldl_inv
    | split

theorem doAdmissionStep_inv {s : State} {a1 a2} (h : s.Inv) : (doAdmissionStep a1 a2 s).Inv := by
  unfold doAdmissionStep
  try dsimp only
  repeat' first
    | intro _
    | with_reducible assumption
    | with_reducible apply State.admitStep_inv
    | with_reducible apply ite_inv
    | with_reducible apply foldl_inv
    | (fail_if_no_progress with_reducible refine mk_same ?_ rfl rfl rfl rfl rfl rfl rfl rfl)
    | split

theorem doAdmitWaitExpiry_inv {s : State} {a1} (h : s.Inv) : (doAdmitWaitExpiry a1 s).Inv := by
  unfold doAdmitWaitExpiry
  try dsimp only
  repeat' first
    | intro _
    | with_reducible assumption
    | with_reducible apply State.refuseLanded_inv
    | with_reducible apply ite_inv
    | with_reducible apply foldl_inv
    | (fail_if_no_progress with_reducible refine mk_same ?_ rfl rfl rfl rfl rfl rfl rfl rfl)
    | split

theorem doAppendDeadline_inv {s : State} {a1} (h : s.Inv) : (doAppendDeadline a1 s).Inv := by
  unfold doAppendDeadline
  try dsimp only
  repeat' first
    | intro _
    | with_reducible assumption
    | with_reducible apply State.finishReq_inv
    | with_reducible apply ite_inv
    | with_reducible apply foldl_inv
    | (fail_if_no_progress with_reducible refine mk_same ?_ rfl rfl rfl rfl rfl rfl rfl rfl)
    | split

theorem doArrt_inv {s : State} {a1 a2 a3} (h : s.Inv) : (doArrt a1 a2 a3 s).Inv := by
  unfold doArrt
  try dsimp only
  repeat' first
    | intro _
    | with_reducible assumption
    | (with_reducible apply State.jetTest_inv)
    | with_reducible apply State.setJet_inv
    | with_reducible apply State.endBist_inv
    | with_reducible apply ite_inv

theorem doCommitApply_inv {s : State} {a1} (h : s.Inv) : (doCommitApply a1 s).Inv := by
  unfold doCommitApply
  try dsimp only
  repeat' first
    | intro _
    | with_reducible assumption
    | with_reducible apply State.finishReq_inv
    | with_reducible apply State.commitChange_inv
    | with_reducible apply State.updReq_inv
    | with_reducible apply State.dropProvs_inv
    | (refine State.applyCommit_inv ?_ _ _ (by with_reducible assumption))
    | (with_reducible refine State.applyCommit_inv ?_ _ _ rfl)
    | (refine State.refuseApply_inv ?_ _ _ (by with_reducible assumption))
    | (with_reducible refine State.refuseApply_inv ?_ _ _ rfl)
    | with_reducible apply ite_inv
    | with_reducible apply foldl_inv
    | split

theorem doConfluenceDeadline_inv {s : State} {a1 a2} (h : s.Inv) : (doConfluenceDeadline a1 a2 s).Inv := by
  unfold doConfluenceDeadline
  try dsimp only
  repeat' first
    | intro _
    | with_reducible assumption
    | with_reducible apply State.failEntry_inv
    | with_reducible apply ite_inv
    | with_reducible apply foldl_inv
    | (fail_if_no_progress with_reducible refine mk_same ?_ rfl rfl rfl rfl rfl rfl rfl rfl)
    | split

theorem doCpyrow_inv {s : State} {a1 a2 a3} (h : s.Inv) : (doCpyrow a1 a2 a3 s).Inv := by
  unfold doCpyrow
  try dsimp only
  repeat' first
    | intro _
    | with_reducible assumption
    | (with_reducible apply State.jetTest_inv)
    | (with_reducible apply State.each_inv)
    | with_reducible apply State.jetFormat_inv
    | with_reducible apply State.failGrain_inv
    | with_reducible apply State.updJet_inv
    | with_reducible apply ite_inv
    | with_reducible apply foldl_inv
    | (fail_if_no_progress with_reducible refine mk_same ?_ rfl rfl rfl rfl rfl rfl rfl rfl)

theorem doCutTime_inv {s : State} {a1 a2} (h : s.Inv) : (doCutTime a1 a2 s).Inv := by
  unfold doCutTime
  try dsimp only
  repeat' first
    | intro _
    | with_reducible assumption
    | with_reducible apply State.each_inv
    | with_reducible apply State.cutCmd_inv
    | with_reducible apply ite_inv

theorem doDoorbell_inv {s : State} {a1 a2 a3} (h : s.Inv) : (doDoorbell a1 a2 a3 s).Inv := by
  unfold doDoorbell
  try dsimp only
  repeat' first
    | intro _
    | with_reducible assumption
    | with_reducible apply State.dbIgnored_inv
    | with_reducible apply State.updQueue_inv
    | with_reducible apply ite_inv

theorem doEmit_inv {s : State} {a1 a2} (h : s.Inv) : (doEmit a1 a2 s).Inv := by
  unfold doEmit
  try dsimp only
  repeat' first
    | intro _
    | with_reducible assumption
    | (with_reducible apply State.jetRun_inv)
    | with_reducible apply State.setJet_inv
    | with_reducible apply State.fault_inv
    | with_reducible apply State.isolateJet_inv
    | with_reducible apply State.endJet_inv
    | with_reducible apply ite_inv
    | with_reducible apply foldl_inv
    | (fail_if_no_progress with_reducible refine mk_same ?_ rfl rfl rfl rfl rfl rfl rfl rfl)

theorem State.errPages_inv {s : State} {a1 a2 a3 a4} (h : s.Inv) : (State.errPages s a1 a2 a3 a4).Inv := by
  unfold State.errPages
  try dsimp only
  repeat' first
    | intro _
    | with_reducible assumption
    | (with_reducible apply State.each_inv)
    | with_reducible apply State.errPage_inv
    | with_reducible apply State.failEntry_inv
    | with_reducible apply ite_inv

theorem State.mergeEntry_inv {s : State} {a1 a2 a3 a4} (h : s.Inv) : (State.mergeEntry s a1 a2 a3 a4).Inv := by
  unfold State.mergeEntry
  try dsimp only
  repeat' first
    | intro _
    | with_reducible assumption
    | (with_reducible apply State.each_inv)
    | with_reducible apply State.failEntry_inv
    | with_reducible apply State.recoverCopy_inv
    | (refine State.confluenceParts_inv ?_ _ _ (by with_reducible assumption))
    | (with_reducible refine State.confluenceParts_inv ?_ _ _ rfl)
    | with_reducible apply State.fault_inv
    | with_reducible apply State.errPages_inv
    | (refine State.formResp_inv ?_ _ _ (by with_reducible assumption))
    | (with_reducible refine State.formResp_inv ?_ _ _ rfl)
    | with_reducible apply State.answerEntry_inv
    | with_reducible apply ite_inv
    | with_reducible apply foldl_inv
    | (fail_if_no_progress with_reducible refine mk_same ?_ rfl rfl rfl rfl rfl rfl rfl rfl)
    | split

theorem State.divertAll_inv {s : State} (h : s.Inv) : (State.divertAll s).Inv := by
  unfold State.divertAll
  try dsimp only
  repeat' first
    | intro _
    | with_reducible assumption
    | (with_reducible apply State.each_inv)
    | with_reducible apply State.divert_inv

theorem doEntryMerge_inv {s : State} {a1 a2 a3 a4} (h : s.Inv) : (doEntryMerge a1 a2 a3 a4 s).Inv := by
  unfold doEntryMerge
  try dsimp only
  repeat' first
    | intro _
    | with_reducible assumption
    | with_reducible apply State.mergeEntry_inv
    | with_reducible apply State.divertAll_inv
    | with_reducible apply ite_inv

theorem doExps_inv {s : State} {a1 a2} (h : s.Inv) : (doExps a1 a2 s).Inv := by
  unfold doExps
  try dsimp only
  repeat' first
    | intro _
    | with_reducible assumption
    | with_reducible apply State.jetRun_inv
    | with_reducible apply State.jetFormat_inv
    | with_reducible apply State.endJet_inv
    | with_reducible apply State.addSat_inv
    | with_reducible apply State.setJet_inv
    | with_reducible apply ite_inv
    | with_reducible apply foldl_inv
    | (fail_if_no_progress with_reducible refine mk_same ?_ rfl rfl rfl rfl rfl rfl rfl rfl)
    | split

theorem doGete_inv {s : State} {a1 a2 a3 a4} (h : s.Inv) : (doGete a1 a2 a3 a4 s).Inv := by
  unfold doGete
  try dsimp only
  repeat' first
    | intro _
    | with_reducible assumption
    | with_reducible apply State.jetRun_inv
    | with_reducible apply State.jetFormat_inv
    | with_reducible apply State.setJet_inv
    | with_reducible apply ite_inv
    | with_reducible apply foldl_inv
    | (fail_if_no_progress with_reducible refine mk_same ?_ rfl rfl rfl rfl rfl rfl rfl rfl)
    | split

theorem doGets_inv {s : State} {a1 a2 a3} (h : s.Inv) : (doGets a1 a2 a3 s).Inv := by
  unfold doGets
  try dsimp only
  repeat' first
    | intro _
    | with_reducible assumption
    | with_reducible apply State.jetRun_inv
    | with_reducible apply State.setJet_inv
    | with_reducible apply State.jetFormat_inv
    | with_reducible apply ite_inv
    | with_reducible apply foldl_inv
    | (fail_if_no_progress with_reducible refine mk_same ?_ rfl rfl rfl rfl rfl rfl rfl rfl)
    | split

theorem doHedgeEvaluate_inv {s : State} {a1} (h : s.Inv) : (doHedgeEvaluate a1 s).Inv := by
  unfold doHedgeEvaluate
  try dsimp only
  repeat' first
    | intro _
    | with_reducible assumption
    | with_reducible apply State.count_inv
    | with_reducible apply State.setReq_inv
    | with_reducible apply State.sendMsg_inv
    | with_reducible apply ite_inv
    | with_reducible apply foldl_inv
    | (fail_if_no_progress with_reducible refine mk_same ?_ rfl rfl rfl rfl rfl rfl rfl rfl)
    | split

theorem doHostSubmissionRead_inv {s : State} {a1 a2 a3} (h : s.Inv) : (doHostSubmissionRead a1 a2 a3 s).Inv := by
  unfold doHostSubmissionRead
  try dsimp only
  repeat' first
    | intro _
    | with_reducible assumption
    | with_reducible apply State.updQueue_inv
    | with_reducible apply State.refuseMsg_inv
    | with_reducible apply ite_inv
    | with_reducible apply foldl_inv
    | (fail_if_no_progress with_reducible refine mk_same ?_ rfl rfl rfl rfl rfl rfl rfl rfl)
    | split

theorem doSlotCollect_inv {s : State} {a1 a2} (h : s.Inv) : (doSlotCollect a1 a2 s).Inv := by
  unfold doSlotCollect
  try dsimp only
  repeat' first
    | intro _
    | with_reducible assumption
    | (with_reducible apply State.each_inv)
    | with_reducible apply State.divert_inv
    | with_reducible apply State.placeCmds_inv
    | with_reducible apply State.updJet_inv
    | with_reducible apply State.takePart_inv
    | with_reducible apply State.reissueCmd_inv
    | with_reducible apply State.errPage_inv
    | with_reducible apply State.failEntry_inv
    | with_reducible apply State.dropCmd_inv
    | with_reducible apply ite_inv
    | with_reducible apply foldl_inv
    | split

theorem doMicroprogramWrite_inv {s : State} {a1} (h : s.Inv) : (doMicroprogramWrite a1 s).Inv := by
  unfold doMicroprogramWrite
  try dsimp only
  repeat' first
    | intro _
    | with_reducible assumption
    | with_reducible apply State.libDone_inv
    | with_reducible apply State.updJet_inv
    | with_reducible apply ite_inv

theorem doPatr_inv {s : State} {a1 a2 a3 a4} (h : s.Inv) : (doPatr a1 a2 a3 a4 s).Inv := by
  unfold doPatr
  try dsimp only
  repeat' first
    | intro _
    | with_reducible assumption
    | (with_reducible apply State.jetTest_inv)
    | with_reducible apply State.setJet_inv
    | with_reducible apply State.endBist_inv
    | with_reducible apply ite_inv

theorem doPatw_inv {s : State} {a1 a2 a3} (h : s.Inv) : State.Inv (doPatw a1 a2 a3 s) := by
  unfold doPatw
  refine State.jetTest_inv (fun x n => ite_inv (State.setJet_inv h) (State.updJet_inv (State.each_inv ?_ h))) h
  intro t g ht
  exact ⟨Memory.write_wf ht.mem, ht.stage, ht.twin, ht.level, ht.pwrCfg, ht.fltCtl, ht.hist, ht.turn⟩

theorem doProvSetExpiry_inv {s : State} {a1 a2} (h : s.Inv) : (doProvSetExpiry a1 a2 s).Inv := by
  unfold doProvSetExpiry
  try dsimp only
  repeat' first
    | intro _
    | with_reducible assumption
    | with_reducible apply State.dropProvs_inv
    | with_reducible apply ite_inv

theorem doPv_inv {s : State} {a1 a2} (h : s.Inv) : (doPv a1 a2 s).Inv := by
  unfold doPv
  try dsimp only
  repeat' first
    | intro _
    | with_reducible assumption
    | with_reducible apply State.jetRun_inv
    | with_reducible apply State.jetFormat_inv
    | with_reducible apply State.endJet_inv
    | with_reducible apply State.addSat_inv
    | with_reducible apply State.setJet_inv
    | with_reducible apply ite_inv
    | with_reducible apply foldl_inv
    | (fail_if_no_progress with_reducible refine mk_same ?_ rfl rfl rfl rfl rfl rfl rfl rfl)
    | split

theorem doQk_inv {s : State} {a1 a2} (h : s.Inv) : (doQk a1 a2 s).Inv := by
  unfold doQk
  try dsimp only
  repeat' first
    | intro _
    | with_reducible assumption
    | with_reducible apply State.jetRun_inv
    | with_reducible apply State.jetFormat_inv
    | with_reducible apply State.endJet_inv
    | with_reducible apply State.addSat_inv
    | with_reducible apply State.setJet_inv
    | with_reducible apply ite_inv
    | with_reducible apply foldl_inv
    | (fail_if_no_progress with_reducible refine mk_same ?_ rfl rfl rfl rfl rfl rfl rfl rfl)
    | split

theorem doRead_inv {s : State} {a1 a2 a3} (h : s.Inv) : (doRead a1 a2 a3 s).Inv := by
  unfold doRead
  try dsimp only
  repeat' first
    | intro _
    | with_reducible assumption
    | with_reducible apply State.jetRun_inv
    | with_reducible apply State.jetFormat_inv
    | with_reducible apply State.setJet_inv
    | with_reducible apply State.endJet_inv
    | with_reducible apply State.startRead_inv
    | with_reducible apply ite_inv
    | with_reducible apply foldl_inv
    | (fail_if_no_progress with_reducible refine mk_same ?_ rfl rfl rfl rfl rfl rfl rfl rfl)
    | split

theorem doReadBase_inv {s : State} {a1 a2 a3} (h : s.Inv) : (doReadBase a1 a2 a3 s).Inv := by
  unfold doReadBase
  try dsimp only
  repeat' first
    | intro _
    | with_reducible assumption
    | with_reducible apply State.jetRun_inv
    | with_reducible apply State.jetFormat_inv
    | with_reducible apply State.endJet_inv
    | with_reducible apply State.startRead_inv
    | with_reducible apply ite_inv
    | with_reducible apply foldl_inv
    | (fail_if_no_progress with_reducible refine mk_same ?_ rfl rfl rfl rfl rfl rfl rfl rfl)
    | split

theorem doReadDeadline_inv {s : State} {a1} (h : s.Inv) : (doReadDeadline a1 s).Inv := by
  unfold doReadDeadline
  try dsimp only
  repeat' first
    | intro _
    | with_reducible assumption
    | with_reducible apply State.endReq_inv
    | with_reducible apply ite_inv
    | with_reducible apply foldl_inv
    | (fail_if_no_progress with_reducible refine mk_same ?_ rfl rfl rfl rfl rfl rfl rfl rfl)
    | split

theorem doReservedOpcode_inv {s : State} {a1 a2} (h : s.Inv) : (doReservedOpcode a1 a2 s).Inv := by
  unfold doReservedOpcode
  try dsimp only
  repeat' first
    | intro _
    | with_reducible assumption
    | with_reducible apply State.jetRun_inv
    | with_reducible apply State.endJet_inv
    | with_reducible apply ite_inv

theorem doStopb_inv {s : State} {a1 a2} (h : s.Inv) : (doStopb a1 a2 s).Inv := by
  unfold doStopb
  try dsimp only
  repeat' first
    | intro _
    | with_reducible assumption
    | with_reducible apply State.jetRun_inv
    | with_reducible apply State.jetGoto_inv
    | with_reducible apply State.setJet_inv
    | with_reducible apply ite_inv

theorem execHostDoorbell_inv {s : State} {a1 a2 a3} (h : s.Inv) : OutInv (execHostDoorbell a1 a2 a3 s) := by
  unfold execHostDoorbell
  repeat' first
    | (with_reducible refine run_inv (fun _ _ => ?_) ?_)
    | intro _
    | with_reducible assumption
    | with_reducible apply doDoorbell_inv

theorem execCompletionDoorbell_inv {s : State} {a1 a2 a3} (h : s.Inv) : OutInv (execCompletionDoorbell a1 a2 a3 s) := by
  unfold execCompletionDoorbell
  repeat' first
    | (with_reducible refine run_inv (fun _ _ => ?_) ?_)
    | intro _
    | with_reducible assumption
    | with_reducible apply doDoorbell_inv

theorem execHostSubmissionRead_inv {s : State} {a1 a2 a3} (h : s.Inv) : OutInv (execHostSubmissionRead a1 a2 a3 s) := by
  unfold execHostSubmissionRead
  repeat' first
    | (with_reducible refine run_inv (fun _ _ => ?_) ?_)
    | intro _
    | with_reducible assumption
    | with_reducible apply doHostSubmissionRead_inv

theorem execMicroprogramWrite_inv {s : State} {a1} (h : s.Inv) : OutInv (execMicroprogramWrite a1 s) := by
  unfold execMicroprogramWrite
  repeat' first
    | (with_reducible refine run_inv (fun _ _ => ?_) ?_)
    | intro _
    | with_reducible assumption
    | with_reducible apply doMicroprogramWrite_inv

theorem execNop_inv {s : State} {a1} (h : s.Inv) : OutInv (execNop a1 s) := by
  unfold execNop
  repeat' first
    | (with_reducible refine run_inv (fun _ _ => ?_) ?_)
    | intro _
    | with_reducible assumption
    | with_reducible apply State.jetOp_inv

theorem execLi_inv {s : State} {a1 a2 a3} (h : s.Inv) : OutInv (execLi a1 a2 a3 s) := by
  unfold execLi
  repeat' first
    | (with_reducible refine run_inv (fun _ _ => ?_) ?_)
    | intro _
    | with_reducible assumption
    | with_reducible apply State.jetOp_inv

theorem execAdd_inv {s : State} {a1 a2 a3 a4} (h : s.Inv) : OutInv (execAdd a1 a2 a3 a4 s) := by
  unfold execAdd
  repeat' first
    | (with_reducible refine run_inv (fun _ _ => ?_) ?_)
    | intro _
    | with_reducible assumption
    | with_reducible apply State.jetOp_inv

theorem execGets_inv {s : State} {a1 a2 a3} (h : s.Inv) : OutInv (execGets a1 a2 a3 s) := by
  unfold execGets
  repeat' first
    | (with_reducible refine run_inv (fun _ _ => ?_) ?_)
    | intro _
    | with_reducible assumption
    | with_reducible apply doGets_inv

theorem execGete_inv {s : State} {a1 a2 a3 a4} (h : s.Inv) : OutInv (execGete a1 a2 a3 a4 s) := by
  unfold execGete
  repeat' first
    | (with_reducible refine run_inv (fun _ _ => ?_) ?_)
    | intro _
    | with_reducible assumption
    | with_reducible apply doGete_inv

theorem execBeq_inv {s : State} {a1 a2 a3 a4} (h : s.Inv) : OutInv (execBeq a1 a2 a3 a4 s) := by
  unfold execBeq
  repeat' first
    | (with_reducible refine run_inv (fun _ _ => ?_) ?_)
    | intro _
    | with_reducible assumption
    | with_reducible apply State.jetRun_inv
    | with_reducible apply State.jetGoto_inv
    | with_reducible apply State.setJet_inv
    | with_reducible apply ite_inv

theorem execBne_inv {s : State} {a1 a2 a3 a4} (h : s.Inv) : OutInv (execBne a1 a2 a3 a4 s) := by
  unfold execBne
  repeat' first
    | (with_reducible refine run_inv (fun _ _ => ?_) ?_)
    | intro _
    | with_reducible assumption
    | with_reducible apply State.jetRun_inv
    | with_reducible apply State.setJet_inv
    | with_reducible apply State.jetGoto_inv
    | with_reducible apply ite_inv

theorem execJmp_inv {s : State} {a1 a2} (h : s.Inv) : OutInv (execJmp a1 a2 s) := by
  unfold execJmp
  repeat' first
    | (with_reducible refine run_inv (fun _ _ => ?_) ?_)
    | intro _
    | with_reducible assumption
    | with_reducible apply State.jetRun_inv
    | with_reducible apply State.jetGoto_inv

theorem execStopb_inv {s : State} {a1 a2} (h : s.Inv) : OutInv (execStopb a1 a2 s) := by
  unfold execStopb
  repeat' first
    | (with_reducible refine run_inv (fun _ _ => ?_) ?_)
    | intro _
    | with_reducible assumption
    | with_reducible apply doStopb_inv

theorem execEndSlot_inv {s : State} {a1} (h : s.Inv) : OutInv (execEndSlot a1 s) := by
  unfold execEndSlot
  repeat' first
    | (with_reducible refine run_inv (fun _ _ => ?_) ?_)
    | intro _
    | with_reducible assumption
    | with_reducible apply State.jetRun_inv
    | with_reducible apply State.endJet_inv

theorem execFailSlot_inv {s : State} {a1} (h : s.Inv) : OutInv (execFailSlot a1 s) := by
  unfold execFailSlot
  repeat' first
    | (with_reducible refine run_inv (fun _ _ => ?_) ?_)
    | intro _
    | with_reducible assumption
    | with_reducible apply State.jetRun_inv
    | with_reducible apply State.jetFormat_inv

theorem execClrp_inv {s : State} {a1} (h : s.Inv) : OutInv (execClrp a1 s) := by
  unfold execClrp
  repeat' first
    | (with_reducible refine run_inv (fun _ _ => ?_) ?_)
    | intro _
    | with_reducible assumption
    | with_reducible apply State.jetOp_inv

theorem execClra_inv {s : State} {a1} (h : s.Inv) : OutInv (execClra a1 s) := by
  unfold execClra
  repeat' first
    | (with_reducible refine run_inv (fun _ _ => ?_) ?_)
    | intro _
    | with_reducible assumption
    | with_reducible apply State.jetRun_inv
    | with_reducible apply State.setJet_inv
    | with_reducible apply ite_inv

theorem execRdk_inv {s : State} {a1 a2} (h : s.Inv) : OutInv (execRdk a1 a2 s) := by
  unfold execRdk
  repeat' first
    | (with_reducible refine run_inv (fun _ _ => ?_) ?_)
    | intro _
    | with_reducible assumption
    | with_reducible apply doRead_inv

theorem execRdv_inv {s : State} {a1 a2} (h : s.Inv) : OutInv (execRdv a1 a2 s) := by
  unfold execRdv
  repeat' first
    | (with_reducible refine run_inv (fun _ _ => ?_) ?_)
    | intro _
    | with_reducible assumption
    | with_reducible apply doRead_inv

theorem execRdbk_inv {s : State} {a1 a2} (h : s.Inv) : OutInv (execRdbk a1 a2 s) := by
  unfold execRdbk
  repeat' first
    | (with_reducible refine run_inv (fun _ _ => ?_) ?_)
    | intro _
    | with_reducible assumption
    | with_reducible apply doReadBase_inv

theorem execRdbv_inv {s : State} {a1 a2} (h : s.Inv) : OutInv (execRdbv a1 a2 s) := by
  unfold execRdbv
  repeat' first
    | (with_reducible refine run_inv (fun _ _ => ?_) ?_)
    | intro _
    | with_reducible assumption
    | with_reducible apply doReadBase_inv

theorem execQk_inv {s : State} {a1 a2} (h : s.Inv) : OutInv (execQk a1 a2 s) := by
  unfold execQk
  repeat' first
    | (with_reducible refine run_inv (fun _ _ => ?_) ?_)
    | intro _
    | with_reducible assumption
    | with_reducible apply doQk_inv

theorem execExps_inv {s : State} {a1 a2} (h : s.Inv) : OutInv (execExps a1 a2 s) := by
  unfold execExps
  repeat' first
    | (with_reducible refine run_inv (fun _ _ => ?_) ?_)
    | intro _
    | with_reducible assumption
    | with_reducible apply doExps_inv

theorem execPv_inv {s : State} {a1 a2} (h : s.Inv) : OutInv (execPv a1 a2 s) := by
  unfold execPv
  repeat' first
    | (with_reducible refine run_inv (fun _ _ => ?_) ?_)
    | intro _
    | with_reducible assumption
    | with_reducible apply doPv_inv

theorem execEmit_inv {s : State} {a1 a2} (h : s.Inv) : OutInv (execEmit a1 a2 s) := by
  unfold execEmit
  repeat' first
    | (with_reducible refine run_inv (fun _ _ => ?_) ?_)
    | intro _
    | with_reducible assumption
    | with_reducible apply doEmit_inv

theorem execCpyrow_inv {s : State} {a1 a2 a3} (h : s.Inv) : OutInv (execCpyrow a1 a2 a3 s) := by
  unfold execCpyrow
  repeat' first
    | (with_reducible refine run_inv (fun _ _ => ?_) ?_)
    | intro _
    | with_reducible assumption
    | with_reducible apply doCpyrow_inv

theorem execPatw_inv {s : State} {a1 a2 a3} (h : s.Inv) : OutInv (execPatw a1 a2 a3 s) := by
  unfold execPatw
  repeat' first
    | (with_reducible refine run_inv (fun _ _ => ?_) ?_)
    | intro _
    | with_reducible assumption
    | with_reducible apply doPatw_inv

theorem execPatr_inv {s : State} {a1 a2 a3 a4} (h : s.Inv) : OutInv (execPatr a1 a2 a3 a4 s) := by
  unfold execPatr
  repeat' first
    | (with_reducible refine run_inv (fun _ _ => ?_) ?_)
    | intro _
    | with_reducible assumption
    | with_reducible apply doPatr_inv

theorem execArrt_inv {s : State} {a1 a2 a3} (h : s.Inv) : OutInv (execArrt a1 a2 a3 s) := by
  unfold execArrt
  repeat' first
    | (with_reducible refine run_inv (fun _ _ => ?_) ?_)
    | intro _
    | with_reducible assumption
    | with_reducible apply doArrt_inv

theorem execReadDeadline_inv {s : State} {a1 a2} (h : s.Inv) : OutInv (execReadDeadline a1 a2 s) := by
  unfold execReadDeadline
  repeat' first
    | (with_reducible refine run_inv (fun _ _ => ?_) ?_)
    | intro _
    | with_reducible assumption
    | with_reducible apply doReadDeadline_inv
    | with_reducible apply State.upTo_inv

theorem execCommitApply_inv {s : State} {a1} (h : s.Inv) : OutInv (execCommitApply a1 s) := by
  unfold execCommitApply
  repeat' first
    | (with_reducible refine run_inv (fun _ _ => ?_) ?_)
    | intro _
    | with_reducible assumption
    | with_reducible apply doCommitApply_inv

theorem execAppendDeadline_inv {s : State} {a1 a2} (h : s.Inv) : OutInv (execAppendDeadline a1 a2 s) := by
  unfold execAppendDeadline
  repeat' first
    | (with_reducible refine run_inv (fun _ _ => ?_) ?_)
    | intro _
    | with_reducible assumption
    | with_reducible apply doAppendDeadline_inv
    | with_reducible apply State.upTo_inv

theorem execAdmissionStep_inv {s : State} {a1 a2 a3} (h : s.Inv) : OutInv (execAdmissionStep a1 a2 a3 s) := by
  unfold execAdmissionStep
  repeat' first
    | (with_reducible refine run_inv (fun _ _ => ?_) ?_)
    | intro _
    | with_reducible assumption
    | with_reducible apply doAdmissionStep_inv
    | with_reducible apply State.upTo_inv

theorem execAdmitWaitExpiry_inv {s : State} {a1 a2} (h : s.Inv) : OutInv (execAdmitWaitExpiry a1 a2 s) := by
  unfold execAdmitWaitExpiry
  repeat' first
    | (with_reducible refine run_inv (fun _ _ => ?_) ?_)
    | intro _
    | with_reducible assumption
    | with_reducible apply doAdmitWaitExpiry_inv
    | with_reducible apply State.upTo_inv

theorem execSlotCollect_inv {s : State} {a1 a2} (h : s.Inv) : OutInv (execSlotCollect a1 a2 s) := by
  unfold execSlotCollect
  repeat' first
    | (with_reducible refine run_inv (fun _ _ => ?_) ?_)
    | intro _
    | with_reducible assumption
    | with_reducible apply doSlotCollect_inv

theorem execEntryMerge_inv {s : State} {a1 a2 a3 a4 a5} (h : s.Inv) : OutInv (execEntryMerge a1 a2 a3 a4 a5 s) := by
  unfold execEntryMerge
  repeat' first
    | (with_reducible refine run_inv (fun _ _ => ?_) ?_)
    | intro _
    | with_reducible assumption
    | with_reducible apply doEntryMerge_inv
    | with_reducible apply State.upTo_inv

theorem execCutTime_inv {s : State} {a1 a2 a3} (h : s.Inv) : OutInv (execCutTime a1 a2 a3 s) := by
  unfold execCutTime
  repeat' first
    | (with_reducible refine run_inv (fun _ _ => ?_) ?_)
    | intro _
    | with_reducible assumption
    | with_reducible apply doCutTime_inv
    | with_reducible apply State.upTo_inv

theorem execConfluenceDeadline_inv {s : State} {a1 a2 a3} (h : s.Inv) : OutInv (execConfluenceDeadline a1 a2 a3 s) := by
  unfold execConfluenceDeadline
  repeat' first
    | (with_reducible refine run_inv (fun _ _ => ?_) ?_)
    | intro _
    | with_reducible assumption
    | with_reducible apply doConfluenceDeadline_inv
    | with_reducible apply State.upTo_inv

theorem execProvSetExpiry_inv {s : State} {a1 a2 a3} (h : s.Inv) : OutInv (execProvSetExpiry a1 a2 a3 s) := by
  unfold execProvSetExpiry
  repeat' first
    | (with_reducible refine run_inv (fun _ _ => ?_) ?_)
    | intro _
    | with_reducible assumption
    | with_reducible apply doProvSetExpiry_inv
    | with_reducible apply State.upTo_inv

theorem execHedgeEvaluate_inv {s : State} {a1 a2} (h : s.Inv) : OutInv (execHedgeEvaluate a1 a2 s) := by
  unfold execHedgeEvaluate
  repeat' first
    | (with_reducible refine run_inv (fun _ _ => ?_) ?_)
    | intro _
    | with_reducible assumption
    | with_reducible apply doHedgeEvaluate_inv
    | with_reducible apply State.upTo_inv

theorem execReservedOpcode_inv {s : State} {a1 a2} (h : s.Inv) : OutInv (execReservedOpcode a1 a2 s) := by
  unfold execReservedOpcode
  repeat' first
    | (with_reducible refine run_inv (fun _ _ => ?_) ?_)
    | intro _
    | with_reducible assumption
    | with_reducible apply doReservedOpcode_inv

theorem State.collectJet_inv {s : State} {a1} (h : s.Inv) : (State.collectJet s a1).Inv := by
  unfold State.collectJet
  try dsimp only
  repeat' first
    | intro _
    | with_reducible assumption
    | (with_reducible apply State.each_inv)
    | with_reducible apply doSlotCollect_inv

end Sys2Proof.Machine
end

