-- ==== Sys2Proof/Laws/InvAgtan.lean ====
section
/-! SUPPORT. The state invariant is kept by the management commands, the staging area and the configuration epochs.
One lemma per operation: the state it answers is legal whenever the state it gets is. -/

namespace Sys2Proof.Machine

theorem State.zeroGrains_inv {s : State} {a1 a2} (h : s.Inv) : State.Inv (State.zeroGrains s a1 a2) := by
  exact inv_mem h (Memory.clear_wf (p := fun a => decide (a1 ≤ a / 512 ∧ a / 512 < a1 + a2)) h.mem) rfl rfl rfl rfl rfl rfl rfl

theorem State.placeIn_inv {s : State} {a1 a2 a3} (h : s.Inv) : (State.placeIn s a1 a2 a3).Inv := by
  unfold State.placeIn
  try dsimp only
  repeat' first
    | intro _
    | with_reducible assumption
    | with_reducible apply State.zeroGrains_inv
    | with_reducible apply State.addAlloc_inv
    | with_reducible apply ite_inv
    | with_reducible apply foldl_inv
    | split

theorem State.needTable_inv {s : State} {a1 a2} (h : s.Inv) : (State.needTable s a1 a2).Inv := by
  unfold State.needTable
  try dsimp only
  repeat' first
    | intro _
    | with_reducible assumption
    | (with_reducible apply State.each_inv)
    | with_reducible apply State.placeIn_inv
    | with_reducible apply State.entryAt_inv
    | with_reducible apply ite_inv
    | with_reducible apply foldl_inv
    | split

theorem State.writeEntry_inv {s : State} {a1 a2} (h : s.Inv) : (State.writeEntry s a1 a2).Inv := by
  unfold State.writeEntry
  try dsimp only
  repeat' first
    | intro _
    | with_reducible assumption
    | with_reducible apply State.needTable_inv
    | with_reducible apply State.entryAt_inv
    | with_reducible apply ite_inv
    | with_reducible apply foldl_inv
    | split

theorem State.putSession_inv {s : State} {a1 a2} (h : s.Inv) : (State.putSession s a1 a2).Inv := by
  unfold State.putSession
  try dsimp only
  repeat' first
    | intro _
    | with_reducible assumption
    | with_reducible apply State.writeEntry_inv
    | with_reducible apply State.setSession_inv

theorem State.placePieces_inv {s : State} {a1 a2 a3 a4} (h : s.Inv) : State.Inv (State.placePieces s a1 a2 a3 a4) := by
  induction a3 generalizing s a1 a2 a4 with
  | zero => exact h
  | succ n ih =>
    unfold State.placePieces
    try dsimp only
    repeat' first
      | (with_reducible apply ih)
      | intro _
      | with_reducible assumption
      | with_reducible apply State.zeroGrains_inv
      | with_reducible apply State.addAlloc_inv
      | with_reducible apply ite_inv
      | with_reducible apply foldl_inv
      | split

theorem State.takeLanding_inv {s : State} {a1 a2} (h : s.Inv) : (State.takeLanding s a1 a2).Inv := by
  unfold State.takeLanding
  try dsimp only
  repeat' first
    | intro _
    | with_reducible assumption
    | with_reducible apply State.freeAllocs_inv
    | with_reducible apply State.placePieces_inv
    | with_reducible apply ite_inv

theorem State.takeTable_inv {s : State} {a1 a2} (h : s.Inv) : (State.takeTable s a1 a2).Inv := by
  unfold State.takeTable
  try dsimp only
  repeat' first
    | intro _
    | with_reducible assumption
    | with_reducible apply State.needTable_inv
    | with_reducible apply ite_inv
    | with_reducible apply foldl_inv
    | split

theorem State.writeGates_inv {s : State} {a1 a2} (h : s.Inv) : (State.writeGates s a1 a2).Inv := by
  unfold State.writeGates
  try dsimp only
  repeat' first
    | intro _
    | with_reducible assumption
    | with_reducible apply ite_inv
    | with_reducible apply foldl_inv
    | (fail_if_no_progress with_reducible refine mk_same ?_ rfl rfl rfl rfl rfl rfl rfl rfl)

theorem State.applyMap_inv {s : State} {a1 a2 a3} (h : s.Inv) : (State.applyMap s a1 a2 a3).Inv := by
  unfold State.applyMap
  try dsimp only
  repeat' first
    | intro _
    | with_reducible assumption
    | with_reducible apply State.each_inv
    | with_reducible apply State.takeTable_inv
    | with_reducible apply State.writeGates_inv
    | with_reducible apply State.updPart_inv
    | with_reducible apply ite_inv
    | with_reducible apply foldl_inv
    | (fail_if_no_progress with_reducible refine mk_same ?_ rfl rfl rfl rfl rfl rfl rfl rfl)

theorem State.applyShaper_inv {s : State} {a1 a2 a3} (h : s.Inv) : (State.applyShaper s a1 a2 a3).Inv := by
  unfold State.applyShaper
  try dsimp only
  repeat' first
    | intro _
    | with_reducible assumption
    | with_reducible apply State.updPort_inv
    | with_reducible apply ite_inv
    | with_reducible apply foldl_inv
    | (fail_if_no_progress with_reducible refine mk_same ?_ rfl rfl rfl rfl rfl rfl rfl rfl)

theorem State.applyWeir_inv {s : State} {a1 a2} (h : s.Inv) : (State.applyWeir s a1 a2).Inv := by
  unfold State.applyWeir
  try dsimp only
  repeat' first
    | intro _
    | with_reducible assumption
    | with_reducible apply State.updPort_inv

theorem State.applyTwin_inv {s : State} {a1} (h : s.Inv) : (State.applyTwin s a1).Inv := by
  unfold State.applyTwin
  try dsimp only
  repeat' first
    | intro _
    | with_reducible assumption
    | with_reducible apply State.each_inv
    | with_reducible apply State.deliver_inv
    | with_reducible apply ite_inv
    | with_reducible apply foldl_inv
    | (fail_if_no_progress with_reducible refine mk_same ?_ rfl rfl rfl rfl rfl rfl rfl rfl)
    | split
    | (refine mk_twin ?_ rfl rfl rfl rfl rfl rfl rfl rfl)

theorem State.applyItems_inv {s : State} {a1 a2} (h : s.Inv) : (State.applyItems s a1 a2).Inv := by
  unfold State.applyItems
  try dsimp only
  repeat' first
    | intro _
    | with_reducible assumption
    | with_reducible apply State.each_inv
    | with_reducible apply State.takeLanding_inv
    | with_reducible apply State.applyMap_inv
    | with_reducible apply State.applyShaper_inv
    | with_reducible apply State.moveFlow_inv
    | with_reducible apply State.applyWeir_inv
    | with_reducible apply State.updPart_inv
    | with_reducible apply State.applyTwin_inv
    | with_reducible apply ite_inv
    | with_reducible apply foldl_inv
    | (fail_if_no_progress with_reducible refine mk_same ?_ rfl rfl rfl rfl rfl rfl rfl rfl)
    | split

theorem State.releaseSession_inv {s : State} {a1 a2} (h : s.Inv) : (State.releaseSession s a1 a2).Inv := by
  unfold State.releaseSession
  try dsimp only
  repeat' first
    | intro _
    | with_reducible assumption
    | with_reducible apply State.freeAllocs_inv
    | with_reducible apply State.updPart_inv
    | with_reducible apply State.dropProvs_inv
    | with_reducible apply State.putSession_inv

theorem State.putTable_inv {s : State} {a1 a2 a3} (h : s.Inv) : ∀ t, (State.putTable s a1 a2 a3) = some t → State.Inv t := by
  intro t he
  unfold State.putTable at he
  try dsimp only at he
  repeat' first
    | (cases he; done)
    | split at he
    | contradiction
    | cases he
    | intro _
    | with_reducible assumption
    | (refine State.allocGrains_inv ?_ _ _ (by with_reducible assumption))
    | (with_reducible refine State.allocGrains_inv ?_ _ _ rfl)
    | with_reducible apply State.putRun_inv
    | with_reducible apply State.updPart_inv

theorem State.dropTable_inv {s : State} {a1 a2} (h : s.Inv) : (State.dropTable s a1 a2).Inv := by
  unfold State.dropTable
  try dsimp only
  repeat' first
    | intro _
    | with_reducible assumption
    | with_reducible apply State.updPart_inv
    | with_reducible apply State.freeAllocs_inv

theorem State.noteUnload_inv {s : State} {a1 a2 a3} (h : s.Inv) : (State.noteUnload s a1 a2 a3).Inv := by
  unfold State.noteUnload
  try dsimp only
  repeat' first
    | intro _
    | with_reducible assumption
    | with_reducible apply ite_inv
    | with_reducible apply foldl_inv
    | (fail_if_no_progress with_reducible refine mk_same ?_ rfl rfl rfl rfl rfl rfl rfl rfl)

theorem State.dropBase_inv {s : State} {a1 a2} (h : s.Inv) : (State.dropBase s a1 a2).Inv := by
  unfold State.dropBase
  try dsimp only
  repeat' first
    | intro _
    | with_reducible assumption
    | with_reducible apply State.updPart_inv
    | with_reducible apply State.freeAllocs_inv

theorem State.asWriter_inv {s : State} {o : AgtanOp} {c : AgtanCmd} {keyed writer : Bool} {f : State → State}
    (hf : (f s).Inv) (h : s.Inv) : (s.asWriter o c keyed writer f).Inv := by
  unfold State.asWriter
  exact ite_inv (State.respond_inv h) (ite_inv (State.respond_inv h) (ite_inv hf
    (ite_inv (State.respond_inv h) (State.forwardCmd_inv h))))

theorem State.unpark_inv {s : State} {a1 a2 a3} (h : s.Inv) : (State.unpark s a1 a2 a3).Inv := by
  unfold State.unpark
  try dsimp only
  repeat' first
    | intro _
    | with_reducible assumption
    | with_reducible apply State.each_inv
    | with_reducible apply State.updMbox_inv
    | with_reducible apply State.respond_inv
    | with_reducible apply ite_inv

theorem State.takeDirUpdate_inv {s : State} {a1} (h : s.Inv) : ∀ t x, (State.takeDirUpdate s a1) = (t, x) → State.Inv t := by
  intro t x he
  unfold State.takeDirUpdate at he
  try dsimp only at he
  repeat' first
    | (cases he; done)
    | split at he
    | contradiction
    | cases he
    | intro _
    | with_reducible assumption
    | with_reducible apply State.count_inv
    | with_reducible apply ite_inv
    | with_reducible apply foldl_inv
    | (fail_if_no_progress with_reducible refine mk_same ?_ rfl rfl rfl rfl rfl rfl rfl rfl)

theorem State.takeDirQuery_inv {s : State} {a1 a2} (h : s.Inv) : (State.takeDirQuery s a1 a2).Inv := by
  unfold State.takeDirQuery
  try dsimp only
  repeat' first
    | intro _
    | with_reducible assumption
    | with_reducible apply State.sendMsg_inv
    | with_reducible apply ite_inv

theorem State.reopen_inv {s : State} {a1} (h : s.Inv) : (State.reopen s a1).Inv := by
  unfold State.reopen
  try dsimp only
  repeat' first
    | intro _
    | with_reducible assumption
    | with_reducible apply State.setStageSet_inv

theorem doEpochDrainEnd_inv {s : State} (h : s.Inv) : (doEpochDrainEnd s).Inv := by
  unfold doEpochDrainEnd
  try dsimp only
  repeat' first
    | intro _
    | with_reducible assumption
    | with_reducible apply State.each_inv
    | with_reducible apply State.writeGates_inv
    | with_reducible apply ite_inv
    | with_reducible apply foldl_inv
    | (fail_if_no_progress with_reducible refine mk_same ?_ rfl rfl rfl rfl rfl rfl rfl rfl)

theorem State.openNow_inv {s : State} {a1 a2} (h : s.Inv) : ∀ t, (State.openNow s a1 a2) = some t → State.Inv t := by
  intro t he
  unfold State.openNow at he
  try dsimp only at he
  repeat' first
    | (cases he; done)
    | split at he
    | contradiction
    | cases he
    | intro _
    | with_reducible assumption
    | with_reducible apply State.needTable_inv
    | (refine State.allocGrains_inv ?_ _ _ (by with_reducible assumption))
    | (with_reducible refine State.allocGrains_inv ?_ _ _ rfl)
    | (refine State.draw_inv ?_ _ _ (by with_reducible assumption))
    | (with_reducible refine State.draw_inv ?_ _ _ rfl)
    | with_reducible apply State.putSession_inv

theorem State.park_inv {s : State} {a1 a2} (h : s.Inv) : (State.park s a1 a2).Inv := by
  unfold State.park
  try dsimp only
  repeat' first
    | intro _
    | with_reducible assumption
    | with_reducible apply State.updMbox_inv

theorem doNodeStatus_inv {s : State} {a1} (h : s.Inv) : (doNodeStatus a1 s).Inv := by
  unfold doNodeStatus
  try dsimp only
  repeat' first
    | intro _
    | with_reducible assumption
    | with_reducible apply State.agtan_inv
    | with_reducible apply State.respond_inv

theorem doFaultRead_inv {s : State} {a1} (h : s.Inv) : (doFaultRead a1 s).Inv := by
  unfold doFaultRead
  try dsimp only
  repeat' first
    | intro _
    | with_reducible assumption
    | with_reducible apply State.agtan_inv
    | with_reducible apply State.respond_inv

theorem doPeerClear_inv {s : State} {a1} (h : s.Inv) : (doPeerClear a1 s).Inv := by
  unfold doPeerClear
  try dsimp only
  repeat' first
    | intro _
    | with_reducible assumption
    | with_reducible apply State.agtan_inv
    | with_reducible apply State.respond_inv
    | with_reducible apply State.clearUnreachable_inv

theorem doCfgCommit_inv {s : State} {a1} (h : s.Inv) : (doCfgCommit a1 s).Inv := by
  unfold doCfgCommit
  try dsimp only
  repeat' first
    | intro _
    | with_reducible assumption
    | with_reducible apply State.agtan_inv
    | with_reducible apply State.respond_inv
    | with_reducible apply State.setStageSet_inv
    | with_reducible apply ite_inv
    | with_reducible apply foldl_inv
    | (fail_if_no_progress with_reducible refine mk_same ?_ rfl rfl rfl rfl rfl rfl rfl rfl)

theorem doCfgAbort_inv {s : State} {a1} (h : s.Inv) : (doCfgAbort a1 s).Inv := by
  unfold doCfgAbort
  try dsimp only
  repeat' first
    | intro _
    | with_reducible assumption
    | with_reducible apply State.agtan_inv
    | with_reducible apply State.respond_inv
    | with_reducible apply State.setStageSet_inv
    | with_reducible apply ite_inv
    | with_reducible apply foldl_inv
    | (fail_if_no_progress with_reducible refine mk_same ?_ rfl rfl rfl rfl rfl rfl rfl rfl)

theorem doCfgStatus_inv {s : State} {a1} (h : s.Inv) : (doCfgStatus a1 s).Inv := by
  unfold doCfgStatus
  try dsimp only
  repeat' first
    | intro _
    | with_reducible assumption
    | with_reducible apply State.agtan_inv
    | with_reducible apply State.respond_inv

theorem doCfgDiscard_inv {s : State} {a1} (h : s.Inv) : (doCfgDiscard a1 s).Inv := by
  unfold doCfgDiscard
  try dsimp only
  repeat' first
    | intro _
    | with_reducible assumption
    | with_reducible apply State.agtan_inv
    | with_reducible apply State.respond_inv
    | with_reducible apply State.setStageSet_inv
    | with_reducible apply ite_inv

theorem State.stageItems_inv {s : State} {a1 a2} (h : s.Inv) : ∀ x t, (State.stageItems s a1 a2) = (x, t) → State.Inv t := by
  intro x t he
  unfold State.stageItems at he
  try dsimp only at he
  repeat' first
    | (cases he; done)
    | split at he
    | contradiction
    | cases he
    | intro _
    | with_reducible assumption
    | with_reducible apply State.count_inv
    | with_reducible apply State.setStageSet_inv

theorem State.stageCmd_inv {s : State} {a1 a2 a3 a4} (h : s.Inv) : (State.stageCmd s a1 a2 a3 a4).Inv := by
  unfold State.stageCmd
  try dsimp only
  repeat' first
    | intro _
    | with_reducible assumption
    | with_reducible apply State.agtan_inv
    | with_reducible apply State.respond_inv
    | (refine State.stageItems_inv ?_ _ _ (by with_reducible assumption))
    | (with_reducible refine State.stageItems_inv ?_ _ _ rfl)
    | with_reducible apply ite_inv

theorem doPartMapStage_inv {s : State} {a1} (h : s.Inv) : (doPartMapStage a1 s).Inv := by
  unfold doPartMapStage
  try dsimp only
  repeat' first
    | intro _
    | with_reducible assumption
    | with_reducible apply State.stageCmd_inv

theorem doPartCfgStage_inv {s : State} {a1} (h : s.Inv) : (doPartCfgStage a1 s).Inv := by
  unfold doPartCfgStage
  try dsimp only
  repeat' first
    | intro _
    | with_reducible assumption
    | with_reducible apply State.stageCmd_inv

theorem doPartStatus_inv {s : State} {a1} (h : s.Inv) : (doPartStatus a1 s).Inv := by
  unfold doPartStatus
  try dsimp only
  repeat' first
    | intro _
    | with_reducible assumption
    | with_reducible apply State.agtan_inv
    | with_reducible apply State.respond_inv

theorem doLockStage_inv {s : State} {a1} (h : s.Inv) : (doLockStage a1 s).Inv := by
  unfold doLockStage
  try dsimp only
  repeat' first
    | intro _
    | with_reducible assumption
    | with_reducible apply State.stageCmd_inv

theorem doAdmitWeightsStage_inv {s : State} {a1} (h : s.Inv) : (doAdmitWeightsStage a1 s).Inv := by
  unfold doAdmitWeightsStage
  try dsimp only
  repeat' first
    | intro _
    | with_reducible assumption
    | with_reducible apply State.stageCmd_inv

theorem doNodeCfgStage_inv {s : State} {a1} (h : s.Inv) : (doNodeCfgStage a1 s).Inv := by
  unfold doNodeCfgStage
  try dsimp only
  repeat' first
    | intro _
    | with_reducible assumption
    | with_reducible apply State.stageCmd_inv

theorem doTwinCfgStage_inv {s : State} {a1} (h : s.Inv) : (doTwinCfgStage a1 s).Inv := by
  unfold doTwinCfgStage
  try dsimp only
  repeat' first
    | intro _
    | with_reducible assumption
    | with_reducible apply State.stageCmd_inv

theorem doRouteStage_inv {s : State} {a1} (h : s.Inv) : (doRouteStage a1 s).Inv := by
  unfold doRouteStage
  try dsimp only
  repeat' first
    | intro _
    | with_reducible assumption
    | with_reducible apply State.stageCmd_inv

theorem doTwinStatus_inv {s : State} {a1} (h : s.Inv) : (doTwinStatus a1 s).Inv := by
  unfold doTwinStatus
  try dsimp only
  repeat' first
    | intro _
    | with_reducible assumption
    | with_reducible apply State.agtan_inv
    | with_reducible apply State.respond_inv

theorem doDirRead_inv {s : State} {a1} (h : s.Inv) : (doDirRead a1 s).Inv := by
  unfold doDirRead
  try dsimp only
  repeat' first
    | intro _
    | with_reducible assumption
    | with_reducible apply State.agtan_inv
    | with_reducible apply State.respond_inv

theorem doWindowStage_inv {s : State} {a1} (h : s.Inv) : (doWindowStage a1 s).Inv := by
  unfold doWindowStage
  try dsimp only
  repeat' first
    | intro _
    | with_reducible assumption
    | with_reducible apply State.stageCmd_inv

theorem doWindowRead_inv {s : State} {a1} (h : s.Inv) : (doWindowRead a1 s).Inv := by
  unfold doWindowRead
  try dsimp only
  repeat' first
    | intro _
    | with_reducible assumption
    | with_reducible apply State.agtan_inv
    | with_reducible apply State.respond_inv
    | with_reducible apply ite_inv

theorem State.writeImage_inv {s : State} (h : s.Inv) : (State.writeImage s).Inv := by
  unfold State.writeImage
  try dsimp only
  repeat' first
    | intro _
    | with_reducible assumption
    | with_reducible apply ite_inv
    | with_reducible apply foldl_inv
    | (fail_if_no_progress with_reducible refine mk_same ?_ rfl rfl rfl rfl rfl rfl rfl rfl)

theorem doWindowRevoke_inv {s : State} {a1} (h : s.Inv) : (doWindowRevoke a1 s).Inv := by
  unfold doWindowRevoke
  try dsimp only
  repeat' first
    | intro _
    | with_reducible assumption
    | (with_reducible apply State.agtan_inv)
    | with_reducible apply State.respond_inv
    | with_reducible apply State.writeImage_inv
    | with_reducible apply State.park_inv
    | (with_reducible apply getD_inv)
    | with_reducible apply ite_inv
    | with_reducible apply foldl_inv
    | (fail_if_no_progress with_reducible refine mk_same ?_ rfl rfl rfl rfl rfl rfl rfl rfl)

theorem doSrcsetStage_inv {s : State} {a1} (h : s.Inv) : (doSrcsetStage a1 s).Inv := by
  unfold doSrcsetStage
  try dsimp only
  repeat' first
    | intro _
    | with_reducible assumption
    | with_reducible apply State.stageCmd_inv

theorem doWeirStage_inv {s : State} {a1} (h : s.Inv) : (doWeirStage a1 s).Inv := by
  unfold doWeirStage
  try dsimp only
  repeat' first
    | intro _
    | with_reducible assumption
    | with_reducible apply State.stageCmd_inv

theorem doShaperStage_inv {s : State} {a1} (h : s.Inv) : (doShaperStage a1 s).Inv := by
  unfold doShaperStage
  try dsimp only
  repeat' first
    | intro _
    | with_reducible assumption
    | with_reducible apply State.stageCmd_inv

theorem doPortWeightsStage_inv {s : State} {a1} (h : s.Inv) : (doPortWeightsStage a1 s).Inv := by
  unfold doPortWeightsStage
  try dsimp only
  repeat' first
    | intro _
    | with_reducible assumption
    | with_reducible apply State.stageCmd_inv

theorem doQueueSet_inv {s : State} {a1} (h : s.Inv) : (doQueueSet a1 s).Inv := by
  unfold doQueueSet
  try dsimp only
  repeat' first
    | intro _
    | with_reducible assumption
    | (with_reducible apply State.agtan_inv)
    | with_reducible apply State.respond_inv
    | with_reducible apply State.updQueue_inv
    | with_reducible apply State.addAlloc_inv
    | with_reducible apply ite_inv

theorem doQueueStop_inv {s : State} {a1} (h : s.Inv) : (doQueueStop a1 s).Inv := by
  unfold doQueueStop
  try dsimp only
  repeat' first
    | intro _
    | with_reducible assumption
    | with_reducible apply State.agtan_inv
    | with_reducible apply State.park_inv
    | with_reducible apply State.updQueue_inv
    | with_reducible apply State.respond_inv
    | with_reducible apply ite_inv

theorem doQueueRead_inv {s : State} {a1} (h : s.Inv) : (doQueueRead a1 s).Inv := by
  unfold doQueueRead
  try dsimp only
  repeat' first
    | intro _
    | with_reducible assumption
    | with_reducible apply State.agtan_inv
    | with_reducible apply State.respond_inv
    | with_reducible apply ite_inv

theorem doSessionOpen_inv {s : State} {a1} (h : s.Inv) : (doSessionOpen a1 s).Inv := by
  unfold doSessionOpen
  try dsimp only
  repeat' first
    | intro _
    | with_reducible assumption
    | with_reducible apply State.agtan_inv
    | with_reducible apply State.respond_inv
    | with_reducible apply State.forwardCmd_inv
    | with_reducible apply State.asWriter_inv
    | (refine State.openNow_inv ?_ _ (by with_reducible assumption))
    | (with_reducible refine State.openNow_inv ?_ _ rfl)
    | with_reducible apply State.commitChange_inv
    | with_reducible apply ite_inv
    | with_reducible apply foldl_inv
    | (fail_if_no_progress with_reducible refine mk_same ?_ rfl rfl rfl rfl rfl rfl rfl rfl)
    | split

theorem doSessionClose_inv {s : State} {a1} (h : s.Inv) : (doSessionClose a1 s).Inv := by
  unfold doSessionClose
  try dsimp only
  repeat' first
    | intro _
    | with_reducible assumption
    | with_reducible apply State.agtan_inv
    | with_reducible apply State.asWriter_inv
    | with_reducible apply State.respond_inv
    | with_reducible apply State.abandonSession_inv
    | with_reducible apply State.putSession_inv
    | with_reducible apply State.commitChange_inv
    | with_reducible apply ite_inv
    | with_reducible apply foldl_inv
    | (fail_if_no_progress with_reducible refine mk_same ?_ rfl rfl rfl rfl rfl rfl rfl rfl)
    | split

theorem doSessionRead_inv {s : State} {a1} (h : s.Inv) : (doSessionRead a1 s).Inv := by
  unfold doSessionRead
  try dsimp only
  repeat' first
    | intro _
    | with_reducible assumption
    | with_reducible apply State.agtan_inv
    | with_reducible apply State.respond_inv
    | with_reducible apply ite_inv
    | with_reducible apply foldl_inv
    | (fail_if_no_progress with_reducible refine mk_same ?_ rfl rfl rfl rfl rfl rfl rfl rfl)
    | split

theorem doBaseBegin_inv {s : State} {a1} (h : s.Inv) : (doBaseBegin a1 s).Inv := by
  unfold doBaseBegin
  try dsimp only
  repeat' first
    | intro _
    | with_reducible assumption
    | with_reducible apply State.agtan_inv
    | with_reducible apply State.asWriter_inv
    | with_reducible apply State.respond_inv
    | (refine State.draw_inv ?_ _ _ (by with_reducible assumption))
    | (with_reducible refine State.draw_inv ?_ _ _ rfl)
    | with_reducible apply State.updPart_inv
    | with_reducible apply ite_inv
    | with_reducible apply foldl_inv
    | (fail_if_no_progress with_reducible refine mk_same ?_ rfl rfl rfl rfl rfl rfl rfl rfl)
    | split

theorem doBaseEnd_inv {s : State} {a1} (h : s.Inv) : (doBaseEnd a1 s).Inv := by
  unfold doBaseEnd
  try dsimp only
  repeat' first
    | intro _
    | with_reducible assumption
    | with_reducible apply State.agtan_inv
    | with_reducible apply State.asWriter_inv
    | with_reducible apply State.respond_inv
    | with_reducible apply State.updBase_inv
    | with_reducible apply ite_inv
    | with_reducible apply foldl_inv
    | (fail_if_no_progress with_reducible refine mk_same ?_ rfl rfl rfl rfl rfl rfl rfl rfl)
    | split

theorem doBaseUnload_inv {s : State} {a1} (h : s.Inv) : (doBaseUnload a1 s).Inv := by
  unfold doBaseUnload
  try dsimp only
  repeat' first
    | intro _
    | with_reducible assumption
    | with_reducible apply State.agtan_inv
    | with_reducible apply State.asWriter_inv
    | with_reducible apply State.respond_inv
    | with_reducible apply State.noteUnload_inv
    | with_reducible apply State.dropBase_inv
    | with_reducible apply State.commitChange_inv
    | with_reducible apply ite_inv

theorem doPostabLoad_inv {s : State} {a1} (h : s.Inv) : (doPostabLoad a1 s).Inv := by
  unfold doPostabLoad
  try dsimp only
  repeat' first
    | intro _
    | with_reducible assumption
    | with_reducible apply State.agtan_inv
    | with_reducible apply State.asWriter_inv
    | with_reducible apply State.respond_inv
    | with_reducible apply State.failCheck_inv
    | (refine State.putTable_inv ?_ _ (by with_reducible assumption))
    | (with_reducible refine State.putTable_inv ?_ _ rfl)
    | with_reducible apply State.commitChange_inv
    | with_reducible apply ite_inv
    | with_reducible apply foldl_inv
    | (fail_if_no_progress with_reducible refine mk_same ?_ rfl rfl rfl rfl rfl rfl rfl rfl)
    | split

theorem doPostabUnload_inv {s : State} {a1} (h : s.Inv) : (doPostabUnload a1 s).Inv := by
  unfold doPostabUnload
  try dsimp only
  repeat' first
    | intro _
    | with_reducible assumption
    | with_reducible apply State.agtan_inv
    | with_reducible apply State.asWriter_inv
    | with_reducible apply State.respond_inv
    | with_reducible apply State.noteUnload_inv
    | with_reducible apply State.dropTable_inv
    | with_reducible apply State.commitChange_inv
    | with_reducible apply ite_inv

theorem doProgStage_inv {s : State} {a1} (h : s.Inv) : (doProgStage a1 s).Inv := by
  unfold doProgStage
  try dsimp only
  repeat' first
    | intro _
    | with_reducible assumption
    | (with_reducible apply State.agtan_inv)
    | with_reducible apply State.respond_inv
    | with_reducible apply State.failCheck_inv
    | with_reducible apply State.count_inv
    | (refine State.stageItems_inv ?_ _ _ (by with_reducible assumption))
    | (with_reducible refine State.stageItems_inv ?_ _ _ rfl)
    | with_reducible apply ite_inv
    | with_reducible apply foldl_inv
    | split

theorem doStatsRead_inv {s : State} {a1} (h : s.Inv) : (doStatsRead a1 s).Inv := by
  unfold doStatsRead
  try dsimp only
  repeat' first
    | intro _
    | with_reducible assumption
    | with_reducible apply State.agtan_inv
    | with_reducible apply State.respond_inv
    | with_reducible apply State.setPart_inv
    | with_reducible apply ite_inv

theorem doHistRead_inv {s : State} {a1} (h : s.Inv) : (doHistRead a1 s).Inv := by
  unfold doHistRead
  try dsimp only
  repeat' first
    | intro _
    | with_reducible assumption
    | with_reducible apply State.agtan_inv
    | with_reducible apply State.respond_inv
    | with_reducible apply ite_inv

theorem State.zeroGroup_inv {s : State} {a1} (h : s.Inv) : (State.zeroGroup s a1).Inv := by
  unfold State.zeroGroup
  try dsimp only
  repeat' first
    | intro _
    | with_reducible assumption
    | with_reducible apply State.zeroGrains_inv
    | (with_reducible apply getD_inv)
    | with_reducible apply ite_inv
    | with_reducible apply foldl_inv
    | (fail_if_no_progress with_reducible refine mk_same ?_ rfl rfl rfl rfl rfl rfl rfl rfl)

theorem doEpochCommitTime_inv {s : State} (h : s.Inv) : (doEpochCommitTime s).Inv := by
  unfold doEpochCommitTime
  try dsimp only
  repeat' first
    | intro _
    | with_reducible assumption
    | with_reducible apply State.withdraw_inv
    | with_reducible apply State.reopen_inv
    | with_reducible apply State.applyItems_inv
    | with_reducible apply State.writeImage_inv
    | with_reducible apply ite_inv
    | with_reducible apply foldl_inv
    | (fail_if_no_progress with_reducible refine mk_same ?_ rfl rfl rfl rfl rfl rfl rfl rfl)
    | split

theorem doQueueStopped_inv {s : State} {a1} (h : s.Inv) : (doQueueStopped a1 s).Inv := by
  unfold doQueueStopped
  try dsimp only
  repeat' first
    | intro _
    | with_reducible assumption
    | with_reducible apply State.freeAllocs_inv
    | with_reducible apply State.setQueue_inv
    | with_reducible apply State.unpark_inv
    | with_reducible apply ite_inv

theorem doSessionCloseRelease_inv {s : State} {a1} (h : s.Inv) : (doSessionCloseRelease a1 s).Inv := by
  unfold doSessionCloseRelease
  try dsimp only
  repeat' first
    | intro _
    | with_reducible assumption
    | with_reducible apply State.releaseSession_inv
    | with_reducible apply State.mirror_inv
    | with_reducible apply State.stampedAt_inv
    | with_reducible apply ite_inv
    | with_reducible apply foldl_inv
    | (fail_if_no_progress with_reducible refine mk_same ?_ rfl rfl rfl rfl rfl rfl rfl rfl)
    | split

theorem doWindowRevokeDrained_inv {s : State} {a1} (h : s.Inv) : (doWindowRevokeDrained a1 s).Inv := by
  unfold doWindowRevokeDrained
  try dsimp only
  repeat' first
    | intro _
    | with_reducible assumption
    | with_reducible apply State.unpark_inv
    | with_reducible apply ite_inv
    | with_reducible apply foldl_inv
    | (fail_if_no_progress with_reducible refine mk_same ?_ rfl rfl rfl rfl rfl rfl rfl rfl)

theorem execNodeStatus_inv {s : State} {a1} (h : s.Inv) : OutInv (execNodeStatus a1 s) := by
  unfold execNodeStatus
  repeat' first
    | (with_reducible refine run_inv (fun _ _ => ?_) ?_)
    | intro _
    | with_reducible assumption
    | with_reducible apply doNodeStatus_inv

theorem execFaultRead_inv {s : State} {a1} (h : s.Inv) : OutInv (execFaultRead a1 s) := by
  unfold execFaultRead
  repeat' first
    | (with_reducible refine run_inv (fun _ _ => ?_) ?_)
    | intro _
    | with_reducible assumption
    | with_reducible apply doFaultRead_inv

theorem execPeerClear_inv {s : State} {a1} (h : s.Inv) : OutInv (execPeerClear a1 s) := by
  unfold execPeerClear
  repeat' first
    | (with_reducible refine run_inv (fun _ _ => ?_) ?_)
    | intro _
    | with_reducible assumption
    | with_reducible apply doPeerClear_inv

theorem execCfgCommit_inv {s : State} {a1} (h : s.Inv) : OutInv (execCfgCommit a1 s) := by
  unfold execCfgCommit
  repeat' first
    | (with_reducible refine run_inv (fun _ _ => ?_) ?_)
    | intro _
    | with_reducible assumption
    | with_reducible apply doCfgCommit_inv

theorem execCfgAbort_inv {s : State} {a1} (h : s.Inv) : OutInv (execCfgAbort a1 s) := by
  unfold execCfgAbort
  repeat' first
    | (with_reducible refine run_inv (fun _ _ => ?_) ?_)
    | intro _
    | with_reducible assumption
    | with_reducible apply doCfgAbort_inv

theorem execCfgStatus_inv {s : State} {a1} (h : s.Inv) : OutInv (execCfgStatus a1 s) := by
  unfold execCfgStatus
  repeat' first
    | (with_reducible refine run_inv (fun _ _ => ?_) ?_)
    | intro _
    | with_reducible assumption
    | with_reducible apply doCfgStatus_inv

theorem execCfgDiscard_inv {s : State} {a1} (h : s.Inv) : OutInv (execCfgDiscard a1 s) := by
  unfold execCfgDiscard
  repeat' first
    | (with_reducible refine run_inv (fun _ _ => ?_) ?_)
    | intro _
    | with_reducible assumption
    | with_reducible apply doCfgDiscard_inv

theorem execPartMapStage_inv {s : State} {a1} (h : s.Inv) : OutInv (execPartMapStage a1 s) := by
  unfold execPartMapStage
  repeat' first
    | (with_reducible refine run_inv (fun _ _ => ?_) ?_)
    | intro _
    | with_reducible assumption
    | with_reducible apply doPartMapStage_inv

theorem execPartCfgStage_inv {s : State} {a1} (h : s.Inv) : OutInv (execPartCfgStage a1 s) := by
  unfold execPartCfgStage
  repeat' first
    | (with_reducible refine run_inv (fun _ _ => ?_) ?_)
    | intro _
    | with_reducible assumption
    | with_reducible apply doPartCfgStage_inv

theorem execPartStatus_inv {s : State} {a1} (h : s.Inv) : OutInv (execPartStatus a1 s) := by
  unfold execPartStatus
  repeat' first
    | (with_reducible refine run_inv (fun _ _ => ?_) ?_)
    | intro _
    | with_reducible assumption
    | with_reducible apply doPartStatus_inv

theorem execLockStage_inv {s : State} {a1} (h : s.Inv) : OutInv (execLockStage a1 s) := by
  unfold execLockStage
  repeat' first
    | (with_reducible refine run_inv (fun _ _ => ?_) ?_)
    | intro _
    | with_reducible assumption
    | with_reducible apply doLockStage_inv

theorem execAdmitWeightsStage_inv {s : State} {a1} (h : s.Inv) : OutInv (execAdmitWeightsStage a1 s) := by
  unfold execAdmitWeightsStage
  repeat' first
    | (with_reducible refine run_inv (fun _ _ => ?_) ?_)
    | intro _
    | with_reducible assumption
    | with_reducible apply doAdmitWeightsStage_inv

theorem execNodeCfgStage_inv {s : State} {a1} (h : s.Inv) : OutInv (execNodeCfgStage a1 s) := by
  unfold execNodeCfgStage
  repeat' first
    | (with_reducible refine run_inv (fun _ _ => ?_) ?_)
    | intro _
    | with_reducible assumption
    | with_reducible apply doNodeCfgStage_inv

theorem execTwinCfgStage_inv {s : State} {a1} (h : s.Inv) : OutInv (execTwinCfgStage a1 s) := by
  unfold execTwinCfgStage
  repeat' first
    | (with_reducible refine run_inv (fun _ _ => ?_) ?_)
    | intro _
    | with_reducible assumption
    | with_reducible apply doTwinCfgStage_inv

theorem execRouteStage_inv {s : State} {a1} (h : s.Inv) : OutInv (execRouteStage a1 s) := by
  unfold execRouteStage
  repeat' first
    | (with_reducible refine run_inv (fun _ _ => ?_) ?_)
    | intro _
    | with_reducible assumption
    | with_reducible apply doRouteStage_inv

theorem execTwinStatus_inv {s : State} {a1} (h : s.Inv) : OutInv (execTwinStatus a1 s) := by
  unfold execTwinStatus
  repeat' first
    | (with_reducible refine run_inv (fun _ _ => ?_) ?_)
    | intro _
    | with_reducible assumption
    | with_reducible apply doTwinStatus_inv

theorem execDirRead_inv {s : State} {a1} (h : s.Inv) : OutInv (execDirRead a1 s) := by
  unfold execDirRead
  repeat' first
    | (with_reducible refine run_inv (fun _ _ => ?_) ?_)
    | intro _
    | with_reducible assumption
    | with_reducible apply doDirRead_inv

theorem execWindowStage_inv {s : State} {a1} (h : s.Inv) : OutInv (execWindowStage a1 s) := by
  unfold execWindowStage
  repeat' first
    | (with_reducible refine run_inv (fun _ _ => ?_) ?_)
    | intro _
    | with_reducible assumption
    | with_reducible apply doWindowStage_inv

theorem execWindowRead_inv {s : State} {a1} (h : s.Inv) : OutInv (execWindowRead a1 s) := by
  unfold execWindowRead
  repeat' first
    | (with_reducible refine run_inv (fun _ _ => ?_) ?_)
    | intro _
    | with_reducible assumption
    | with_reducible apply doWindowRead_inv

theorem execWindowRevoke_inv {s : State} {a1} (h : s.Inv) : OutInv (execWindowRevoke a1 s) := by
  unfold execWindowRevoke
  repeat' first
    | (with_reducible refine run_inv (fun _ _ => ?_) ?_)
    | intro _
    | with_reducible assumption
    | with_reducible apply doWindowRevoke_inv

theorem execWindowRevokeDrained_inv {s : State} {a1 a2} (h : s.Inv) : OutInv (execWindowRevokeDrained a1 a2 s) := by
  unfold execWindowRevokeDrained
  repeat' first
    | (with_reducible refine run_inv (fun _ _ => ?_) ?_)
    | intro _
    | with_reducible assumption
    | with_reducible apply doWindowRevokeDrained_inv
    | with_reducible apply State.upTo_inv

theorem execSrcsetStage_inv {s : State} {a1} (h : s.Inv) : OutInv (execSrcsetStage a1 s) := by
  unfold execSrcsetStage
  repeat' first
    | (with_reducible refine run_inv (fun _ _ => ?_) ?_)
    | intro _
    | with_reducible assumption
    | with_reducible apply doSrcsetStage_inv

theorem execWeirStage_inv {s : State} {a1} (h : s.Inv) : OutInv (execWeirStage a1 s) := by
  unfold execWeirStage
  repeat' first
    | (with_reducible refine run_inv (fun _ _ => ?_) ?_)
    | intro _
    | with_reducible assumption
    | with_reducible apply doWeirStage_inv

theorem execShaperStage_inv {s : State} {a1} (h : s.Inv) : OutInv (execShaperStage a1 s) := by
  unfold execShaperStage
  repeat' first
    | (with_reducible refine run_inv (fun _ _ => ?_) ?_)
    | intro _
    | with_reducible assumption
    | with_reducible apply doShaperStage_inv

theorem execPortWeightsStage_inv {s : State} {a1} (h : s.Inv) : OutInv (execPortWeightsStage a1 s) := by
  unfold execPortWeightsStage
  repeat' first
    | (with_reducible refine run_inv (fun _ _ => ?_) ?_)
    | intro _
    | with_reducible assumption
    | with_reducible apply doPortWeightsStage_inv

theorem execQueueSet_inv {s : State} {a1} (h : s.Inv) : OutInv (execQueueSet a1 s) := by
  unfold execQueueSet
  repeat' first
    | (with_reducible refine run_inv (fun _ _ => ?_) ?_)
    | intro _
    | with_reducible assumption
    | with_reducible apply doQueueSet_inv

theorem execQueueStop_inv {s : State} {a1} (h : s.Inv) : OutInv (execQueueStop a1 s) := by
  unfold execQueueStop
  repeat' first
    | (with_reducible refine run_inv (fun _ _ => ?_) ?_)
    | intro _
    | with_reducible assumption
    | with_reducible apply doQueueStop_inv

theorem execQueueStopped_inv {s : State} {a1} (h : s.Inv) : OutInv (execQueueStopped a1 s) := by
  unfold execQueueStopped
  repeat' first
    | (with_reducible refine run_inv (fun _ _ => ?_) ?_)
    | intro _
    | with_reducible assumption
    | with_reducible apply doQueueStopped_inv

theorem execQueueRead_inv {s : State} {a1} (h : s.Inv) : OutInv (execQueueRead a1 s) := by
  unfold execQueueRead
  repeat' first
    | (with_reducible refine run_inv (fun _ _ => ?_) ?_)
    | intro _
    | with_reducible assumption
    | with_reducible apply doQueueRead_inv

theorem execSessionOpen_inv {s : State} {a1} (h : s.Inv) : OutInv (execSessionOpen a1 s) := by
  unfold execSessionOpen
  repeat' first
    | (with_reducible refine run_inv (fun _ _ => ?_) ?_)
    | intro _
    | with_reducible assumption
    | with_reducible apply doSessionOpen_inv

theorem execSessionClose_inv {s : State} {a1} (h : s.Inv) : OutInv (execSessionClose a1 s) := by
  unfold execSessionClose
  repeat' first
    | (with_reducible refine run_inv (fun _ _ => ?_) ?_)
    | intro _
    | with_reducible assumption
    | with_reducible apply doSessionClose_inv

theorem execSessionCloseRelease_inv {s : State} {a1} (h : s.Inv) : OutInv (execSessionCloseRelease a1 s) := by
  unfold execSessionCloseRelease
  repeat' first
    | (with_reducible refine run_inv (fun _ _ => ?_) ?_)
    | intro _
    | with_reducible assumption
    | with_reducible apply doSessionCloseRelease_inv

theorem execSessionRead_inv {s : State} {a1} (h : s.Inv) : OutInv (execSessionRead a1 s) := by
  unfold execSessionRead
  repeat' first
    | (with_reducible refine run_inv (fun _ _ => ?_) ?_)
    | intro _
    | with_reducible assumption
    | with_reducible apply doSessionRead_inv

theorem execBaseBegin_inv {s : State} {a1} (h : s.Inv) : OutInv (execBaseBegin a1 s) := by
  unfold execBaseBegin
  repeat' first
    | (with_reducible refine run_inv (fun _ _ => ?_) ?_)
    | intro _
    | with_reducible assumption
    | with_reducible apply doBaseBegin_inv

theorem execBaseEnd_inv {s : State} {a1} (h : s.Inv) : OutInv (execBaseEnd a1 s) := by
  unfold execBaseEnd
  repeat' first
    | (with_reducible refine run_inv (fun _ _ => ?_) ?_)
    | intro _
    | with_reducible assumption
    | with_reducible apply doBaseEnd_inv

theorem execBaseUnload_inv {s : State} {a1} (h : s.Inv) : OutInv (execBaseUnload a1 s) := by
  unfold execBaseUnload
  repeat' first
    | (with_reducible refine run_inv (fun _ _ => ?_) ?_)
    | intro _
    | with_reducible assumption
    | with_reducible apply doBaseUnload_inv

theorem execPostabLoad_inv {s : State} {a1} (h : s.Inv) : OutInv (execPostabLoad a1 s) := by
  unfold execPostabLoad
  repeat' first
    | (with_reducible refine run_inv (fun _ _ => ?_) ?_)
    | intro _
    | with_reducible assumption
    | with_reducible apply doPostabLoad_inv

theorem execPostabUnload_inv {s : State} {a1} (h : s.Inv) : OutInv (execPostabUnload a1 s) := by
  unfold execPostabUnload
  repeat' first
    | (with_reducible refine run_inv (fun _ _ => ?_) ?_)
    | intro _
    | with_reducible assumption
    | with_reducible apply doPostabUnload_inv

theorem execProgStage_inv {s : State} {a1} (h : s.Inv) : OutInv (execProgStage a1 s) := by
  unfold execProgStage
  repeat' first
    | (with_reducible refine run_inv (fun _ _ => ?_) ?_)
    | intro _
    | with_reducible assumption
    | with_reducible apply doProgStage_inv

theorem execStatsRead_inv {s : State} {a1} (h : s.Inv) : OutInv (execStatsRead a1 s) := by
  unfold execStatsRead
  repeat' first
    | (with_reducible refine run_inv (fun _ _ => ?_) ?_)
    | intro _
    | with_reducible assumption
    | with_reducible apply doStatsRead_inv

theorem execHistRead_inv {s : State} {a1} (h : s.Inv) : OutInv (execHistRead a1 s) := by
  unfold execHistRead
  repeat' first
    | (with_reducible refine run_inv (fun _ _ => ?_) ?_)
    | intro _
    | with_reducible assumption
    | with_reducible apply doHistRead_inv

theorem execEpochCommitTime_inv {s : State} {a1} (h : s.Inv) : OutInv (execEpochCommitTime a1 s) := by
  unfold execEpochCommitTime
  repeat' first
    | (with_reducible refine run_inv (fun _ _ => ?_) ?_)
    | intro _
    | with_reducible assumption
    | with_reducible apply doEpochCommitTime_inv
    | with_reducible apply State.upTo_inv

theorem execEpochDrainEnd_inv {s : State} {a1} (h : s.Inv) : OutInv (execEpochDrainEnd a1 s) := by
  unfold execEpochDrainEnd
  repeat' first
    | (with_reducible refine run_inv (fun _ _ => ?_) ?_)
    | intro _
    | with_reducible assumption
    | with_reducible apply doEpochDrainEnd_inv
    | with_reducible apply State.upTo_inv

end Sys2Proof.Machine
end

