-- ==== Sys2Proof/Laws/InvTransport.lean ====
section
/-! SUPPORT. The state invariant is kept by the weir transport, the mirror and the ports.
One lemma per operation: the state it answers is legal whenever the state it gets is. -/

namespace Sys2Proof.Machine

theorem State.acceptRx_inv {s : State} {a1 a2} (h : s.Inv) : (State.acceptRx s a1 a2).Inv := by
  unfold State.acceptRx
  try dsimp only
  repeat' first
    | intro _
    | with_reducible assumption
    | with_reducible apply State.setRx_inv

theorem State.answerRepair_inv {s : State} {a1} (h : s.Inv) : (State.answerRepair s a1).Inv := by
  unfold State.answerRepair
  try dsimp only
  repeat' first
    | intro _
    | with_reducible assumption
    | with_reducible apply State.failCheck_inv
    | with_reducible apply State.sendMirror_inv
    | with_reducible apply State.failPage_inv
    | (with_reducible apply getD_inv)
    | with_reducible apply ite_inv
    | with_reducible apply foldl_inv
    | split

theorem State.applyCompletion_inv {s : State} {a1} (h : s.Inv) : (State.applyCompletion s a1).Inv := by
  unfold State.applyCompletion
  try dsimp only
  repeat' first
    | intro _
    | with_reducible assumption
    | with_reducible apply ite_inv
    | with_reducible apply foldl_inv
    | (fail_if_no_progress with_reducible refine mk_same ?_ rfl rfl rfl rfl rfl rfl rfl rfl)

theorem State.applyCount_inv {s : State} {a1} (h : s.Inv) : (State.applyCount s a1).Inv := by
  unfold State.applyCount
  try dsimp only
  repeat' first
    | intro _
    | with_reducible assumption
    | with_reducible apply State.setCount_inv
    | with_reducible apply ite_inv
    | with_reducible apply foldl_inv
    | (fail_if_no_progress with_reducible refine mk_same ?_ rfl rfl rfl rfl rfl rfl rfl rfl)
    | split

theorem State.mirrorBad_inv {s : State} {a1 a2} (h : s.Inv) : (State.mirrorBad s a1 a2).Inv := by
  unfold State.mirrorBad
  try dsimp only
  repeat' first
    | intro _
    | with_reducible assumption
    | with_reducible apply State.count_inv
    | with_reducible apply State.fault_inv

theorem State.applyGrains_inv {s : State} {a1} (h : s.Inv) : (State.applyGrains s a1).Inv := by
  unfold State.applyGrains
  try dsimp only
  repeat' first
    | intro _
    | with_reducible assumption
    | with_reducible apply State.each_inv
    | with_reducible apply State.clearGrain_inv
    | with_reducible apply State.putGrain_inv
    | with_reducible apply State.mirrorBad_inv
    | with_reducible apply State.containGrain_inv
    | with_reducible apply ite_inv
    | with_reducible apply foldl_inv
    | (fail_if_no_progress with_reducible refine mk_same ?_ rfl rfl rfl rfl rfl rfl rfl rfl)

theorem State.growBase_inv {s : State} {a1 a2} (h : s.Inv) : (State.growBase s a1 a2).Inv := by
  unfold State.growBase
  try dsimp only
  repeat' first
    | intro _
    | with_reducible assumption
    | with_reducible apply State.updPart_inv

theorem State.repaired_inv {s : State} {a1} (h : s.Inv) : (State.repaired s a1).Inv := by
  unfold State.repaired
  try dsimp only
  repeat' first
    | intro _
    | with_reducible assumption
    | with_reducible apply ite_inv
    | with_reducible apply foldl_inv
    | (fail_if_no_progress with_reducible refine mk_same ?_ rfl rfl rfl rfl rfl rfl rfl rfl)

theorem State.judgePage_inv {s : State} {a1 a2 a3} (h : s.Inv) : (State.judgePage s a1 a2 a3).Inv := by
  unfold State.judgePage
  try dsimp only
  repeat' first
    | intro _
    | with_reducible assumption
    | with_reducible apply State.containPage_inv
    | with_reducible apply State.mirrorBad_inv
    | with_reducible apply State.failPage_inv
    | with_reducible apply State.repaired_inv
    | with_reducible apply ite_inv
    | with_reducible apply foldl_inv
    | split

theorem State.storePage_inv {s : State} {a1 a2 a3 a4} (h : s.Inv) : ∀ t, (State.storePage s a1 a2 a3 a4) = some t → State.Inv t := by
  intro t he
  unfold State.storePage at he
  try dsimp only at he
  repeat' first
    | (cases he; done)
    | split at he
    | contradiction
    | cases he
    | intro _
    | with_reducible assumption
    | with_reducible apply State.abandonMigr_inv
    | with_reducible apply State.putRun_inv
    | with_reducible apply State.judgePage_inv
    | with_reducible apply State.putPage_inv
    | with_reducible apply State.updPage_inv
    | (refine State.allocRun_inv ?_ _ _ _ (by with_reducible assumption))
    | (with_reducible refine State.allocRun_inv ?_ _ _ _ rfl)
    | with_reducible apply ite_inv
    | with_reducible apply foldl_inv
    | (fail_if_no_progress with_reducible refine mk_same ?_ rfl rfl rfl rfl rfl rfl rfl rfl)
    | split

theorem State.applyPage_inv {s : State} {a1} (h : s.Inv) : ∀ t, s.applyPage a1 = some t → State.Inv t := by
  intro t he
  unfold State.applyPage at he
  dsimp only at he
  split at he
  · cases he; exact h
  · split at he
    · exact State.storePage_inv (State.growBase_inv h) _ he
    · split at he
      · cases he; exact h
      · split at he
        · cases he; exact h
        · split at he
          · cases he
          · obtain ⟨v, -, hv⟩ := Option.bind_eq_some_iff.1 he
            exact State.storePage_inv (State.needList_inv h _ (by assumption)) _ hv

theorem State.applyProv_inv {s : State} {a1} (h : s.Inv) : ∀ t, (State.applyProv s a1) = some t → State.Inv (t) := by
  intro t he
  unfold State.applyProv at he
  dsimp only at he
  split at he
  · cases he; exact h
  · split at he
    · cases he; exact h
    · obtain ⟨u, hu, hv⟩ := Option.map_eq_some_iff.1 he
      have hk := State.takeSram_inv (State.dropProvs_inv h) _ hu
      cases hv
      refine mk_same ?_ rfl rfl rfl rfl rfl rfl rfl rfl
      exact hk

theorem State.applyTokens_inv {s : State} {a1} (h : s.Inv) : ∀ t, (State.applyTokens s a1) = some t → State.Inv t := by
  intro t he
  unfold State.applyTokens at he
  try dsimp only at he
  repeat' first
    | (cases he; done)
    | split at he
    | contradiction
    | cases he
    | intro _
    | with_reducible assumption
    | with_reducible apply State.freeAllocs_inv
    | with_reducible apply State.updSession_inv
    | (refine State.takeSram_inv ?_ _ (by with_reducible assumption))
    | (with_reducible refine State.takeSram_inv ?_ _ rfl)
    | (refine State.addAll_inv ?_ _ (by with_reducible assumption))
    | (with_reducible refine State.addAll_inv ?_ _ rfl)
    | with_reducible apply State.updPart_inv
    | with_reducible apply State.setCount_inv
    | (refine State.refuseApply_inv ?_ _ _ (by with_reducible assumption))
    | (with_reducible refine State.refuseApply_inv ?_ _ _ rfl)
    | with_reducible apply ite_inv

theorem State.applySession_inv {s : State} {a1} (h : s.Inv) : ∀ t, (State.applySession s a1) = some t → State.Inv t := by
  intro t he
  unfold State.applySession at he
  try dsimp only at he
  repeat' first
    | (cases he; done)
    | split at he
    | contradiction
    | cases he
    | intro _
    | with_reducible assumption
    | with_reducible apply State.putSession_inv
    | with_reducible apply State.abandonSession_inv
    | with_reducible apply State.releaseSession_inv
    | (refine State.allocGrains_inv ?_ _ _ (by with_reducible assumption))
    | (with_reducible refine State.allocGrains_inv ?_ _ _ rfl)
    | with_reducible apply ite_inv

theorem State.applyTable_inv {s : State} {a1} (h : s.Inv) : ∀ t, (State.applyTable s a1) = some t → State.Inv t := by
  intro t he
  unfold State.applyTable at he
  try dsimp only at he
  repeat' first
    | (cases he; done)
    | split at he
    | contradiction
    | cases he
    | intro _
    | with_reducible assumption
    | (refine State.putTable_inv ?_ _ (by with_reducible assumption))
    | (with_reducible refine State.putTable_inv ?_ _ rfl)
    | with_reducible apply State.dropTable_inv

theorem State.applyUnload_inv {s : State} {a1} (h : s.Inv) : (State.applyUnload s a1).Inv := by
  unfold State.applyUnload
  try dsimp only
  repeat' first
    | intro _
    | with_reducible assumption
    | with_reducible apply State.noteUnload_inv
    | with_reducible apply State.dropTable_inv
    | with_reducible apply State.dropBase_inv
    | with_reducible apply ite_inv
    | with_reducible apply foldl_inv
    | (fail_if_no_progress with_reducible refine mk_same ?_ rfl rfl rfl rfl rfl rfl rfl rfl)
    | split

theorem State.applyRetire_inv {s : State} {a1} (h : s.Inv) : (State.applyRetire s a1).Inv := by
  unfold State.applyRetire
  try dsimp only
  repeat' first
    | intro _
    | with_reducible assumption
    | with_reducible apply ite_inv
    | with_reducible apply foldl_inv
    | (fail_if_no_progress with_reducible refine mk_same ?_ rfl rfl rfl rfl rfl rfl rfl rfl)

theorem State.applyRec_inv {s : State} {a1} (h : s.Inv) : ∀ t, (State.applyRec s a1) = some t → State.Inv t := by
  intro t he
  unfold State.applyRec at he
  try dsimp only at he
  repeat' first
    | (cases he; done)
    | split at he
    | contradiction
    | cases he
    | intro _
    | with_reducible assumption
    | (refine State.applyPage_inv ?_ _ (by with_reducible assumption))
    | (with_reducible refine State.applyPage_inv ?_ _ rfl)
    | (refine State.applyTokens_inv ?_ _ (by with_reducible assumption))
    | (with_reducible refine State.applyTokens_inv ?_ _ rfl)
    | with_reducible apply State.applyCount_inv
    | (refine State.applySession_inv ?_ _ (by with_reducible assumption))
    | (with_reducible refine State.applySession_inv ?_ _ rfl)
    | (refine State.applyProv_inv ?_ _ (by with_reducible assumption))
    | (with_reducible refine State.applyProv_inv ?_ _ rfl)
    | with_reducible apply State.applyGrains_inv
    | (refine State.applyTable_inv ?_ _ (by with_reducible assumption))
    | (with_reducible refine State.applyTable_inv ?_ _ rfl)
    | with_reducible apply State.applyUnload_inv
    | with_reducible apply State.applyCompletion_inv
    | with_reducible apply State.applyRetire_inv
    | with_reducible apply State.answerRepair_inv

theorem State.applyStamped_inv {s : State} {a1} (h : s.Inv) : ∀ t, s.applyStamped a1 = some t → State.Inv t := by
  intro t he
  unfold State.applyStamped at he
  dsimp only at he
  obtain ⟨u, hu, hv⟩ := Option.map_eq_some_iff.1 he
  cases hv
  refine mk_same ?_ rfl rfl rfl rfl rfl rfl rfl rfl
  split at hu
  · exact State.applyRec_inv h _ hu
  · obtain ⟨w, hw, hx⟩ := Option.map_eq_some_iff.1 hu
    cases hx
    exact mk_same (State.applyRec_inv (mk_same h rfl rfl rfl rfl rfl rfl rfl rfl) _ hw) rfl rfl rfl rfl rfl rfl rfl rfl

theorem State.authFailed_inv {s : State} {a1} (h : s.Inv) : (State.authFailed s a1).Inv := by
  unfold State.authFailed
  try dsimp only
  repeat' first
    | intro _
    | with_reducible assumption
    | with_reducible apply State.count_inv
    | with_reducible apply State.setRx_inv
    | with_reducible apply ite_inv

theorem State.nakSyncDue_inv {s : State} {a1} (h : s.Inv) : (State.nakSyncDue s a1).Inv := by
  unfold State.nakSyncDue
  try dsimp only
  repeat' first
    | intro _
    | with_reducible assumption
    | with_reducible apply State.setRx_inv
    | with_reducible apply ite_inv

theorem State.authenticate_inv {s : State} {a1} (h : s.Inv) : ∀ t x, (State.authenticate s a1) = (t, x) → State.Inv t := by
  intro t x he
  unfold State.authenticate at he
  try dsimp only at he
  repeat' first
    | (cases he; done)
    | split at he
    | contradiction
    | cases he
    | intro _
    | with_reducible assumption
    | with_reducible apply State.nakSyncDue_inv
    | with_reducible apply State.count_inv
    | with_reducible apply State.authFailed_inv
    | with_reducible apply State.clearUnreachable_inv
    | with_reducible apply ite_inv
    | with_reducible apply foldl_inv
    | (fail_if_no_progress with_reducible refine mk_same ?_ rfl rfl rfl rfl rfl rfl rfl rfl)

theorem State.dropOpen_inv {s : State} {a1 a2} (h : s.Inv) : (State.dropOpen s a1 a2).Inv := by
  unfold State.dropOpen
  try dsimp only
  repeat' first
    | intro _
    | with_reducible assumption
    | with_reducible apply State.setRx_inv
    | with_reducible apply State.freeRing_inv
    | with_reducible apply ite_inv
    | with_reducible apply foldl_inv
    | split

theorem State.claimRing_inv {s : State} {a1} (h : s.Inv) : ∀ x t, (State.claimRing s a1) = (x, t) → State.Inv t := by
  intro x t he
  unfold State.claimRing at he
  try dsimp only at he
  repeat' first
    | (cases he; done)
    | split at he
    | contradiction
    | cases he
    | intro _
    | with_reducible assumption
    | with_reducible apply State.setQueue_inv

theorem State.copyRun_inv {s : State} {a1 a2} (h : s.Inv) : (State.copyRun s a1 a2).Inv := by
  unfold State.copyRun
  try dsimp only
  repeat' first
    | intro _
    | with_reducible assumption
    | with_reducible apply State.putRun_inv

theorem State.writeWindow_inv {s : State} {a1 a2 a3} (h : s.Inv) : ∀ t, (State.writeWindow s a1 a2 a3) = some t → State.Inv t := by
  intro t he
  unfold State.writeWindow at he
  try dsimp only at he
  repeat' first
    | (cases he; done)
    | split at he
    | contradiction
    | cases he
    | intro _
    | with_reducible assumption
    | with_reducible apply State.mirrorGrains_inv
    | with_reducible apply State.writeGrains_inv

theorem State.refuseRx_inv {s : State} {a1 a2} (h : s.Inv) : (State.refuseRx s a1 a2).Inv := by
  unfold State.refuseRx
  try dsimp only
  repeat' first
    | intro _
    | with_reducible assumption
    | with_reducible apply State.dropOpen_inv
    | with_reducible apply State.acceptRx_inv
    | with_reducible apply State.setRx_inv

theorem State.cqExpired_inv {s : State} {a1} (h : s.Inv) : (State.cqExpired s a1).Inv := by
  unfold State.cqExpired
  try dsimp only
  repeat' first
    | intro _
    | with_reducible assumption
    | (refine State.authenticate_inv ?_ _ _ (by with_reducible assumption))
    | (with_reducible refine State.authenticate_inv ?_ _ _ rfl)
    | (refine State.writeWindow_inv ?_ _ (by with_reducible assumption))
    | (with_reducible refine State.writeWindow_inv ?_ _ rfl)
    | with_reducible apply State.updQueue_inv
    | with_reducible apply State.refuseRx_inv
    | with_reducible apply ite_inv
    | with_reducible apply foldl_inv
    | (fail_if_no_progress with_reducible refine mk_same ?_ rfl rfl rfl rfl rfl rfl rfl rfl)
    | split
    | (refine getD_inv (fun _ _ => ?_) ?_)

theorem State.deliverImm_inv {s : State} {a1} (h : s.Inv) : (State.deliverImm s a1).Inv := by
  unfold State.deliverImm
  try dsimp only
  repeat' first
    | intro _
    | with_reducible assumption
    | with_reducible apply State.writeCompletion_inv

theorem State.discardAfter_inv {s : State} {a1} (h : s.Inv) : (State.discardAfter s a1).Inv := by
  unfold State.discardAfter
  try dsimp only
  repeat' first
    | intro _
    | with_reducible assumption
    | with_reducible apply State.freeAllocs_inv
    | with_reducible apply State.each_inv
    | with_reducible apply State.releaseSession_inv
    | with_reducible apply State.dropProvs_inv
    | with_reducible apply ite_inv
    | with_reducible apply foldl_inv
    | (fail_if_no_progress with_reducible refine mk_same ?_ rfl rfl rfl rfl rfl rfl rfl rfl)

theorem State.syncRx_inv {s : State} {a1} (h : s.Inv) : (State.syncRx s a1).Inv := by
  unfold State.syncRx
  try dsimp only
  repeat' first
    | intro _
    | with_reducible assumption
    | with_reducible apply State.dropOpen_inv
    | with_reducible apply State.acceptRx_inv
    | with_reducible apply State.setRx_inv

theorem State.setOpen_inv {s : State} {a1 a2 a3} (h : s.Inv) : (State.setOpen s a1 a2 a3).Inv := by
  unfold State.setOpen
  try dsimp only
  repeat' first
    | intro _
    | with_reducible assumption
    | with_reducible apply State.setRx_inv

theorem State.landMsg_inv {s : State} {a1 a2} (h : s.Inv) : (State.landMsg s a1 a2).Inv := by
  unfold State.landMsg
  try dsimp only
  repeat' first
    | intro _
    | with_reducible assumption
    | with_reducible apply State.updQueue_inv
    | with_reducible apply ite_inv
    | with_reducible apply foldl_inv
    | (fail_if_no_progress with_reducible refine mk_same ?_ rfl rfl rfl rfl rfl rfl rfl rfl)

theorem State.takeLand_inv {s : State} {a1 a2 a3 a4} (h : s.Inv) : (State.takeLand s a1 a2 a3 a4).Inv := by
  unfold State.takeLand
  try dsimp only
  repeat' first
    | intro _
    | with_reducible assumption
    | with_reducible apply State.writePieces_inv
    | with_reducible apply ite_inv
    | with_reducible apply foldl_inv
    | (fail_if_no_progress with_reducible refine mk_same ?_ rfl rfl rfl rfl rfl rfl rfl rfl)

theorem State.writeFailed_inv {s : State} {a1 a2 a3} (h : s.Inv) : (State.writeFailed s a1 a2 a3).Inv := by
  unfold State.writeFailed
  try dsimp only
  repeat' first
    | intro _
    | with_reducible assumption
    | with_reducible apply State.partialRefused_inv
    | with_reducible apply ite_inv
    | with_reducible apply foldl_inv
    | (fail_if_no_progress with_reducible refine mk_same ?_ rfl rfl rfl rfl rfl rfl rfl rfl)
    | split

theorem State.relay_inv {s : State} {a1 a2} (h : s.Inv) : (State.relay s a1 a2).Inv := by
  unfold State.relay
  try dsimp only
  repeat' first
    | intro _
    | with_reducible assumption
    | with_reducible apply State.settleForward_inv
    | with_reducible apply ite_inv
    | with_reducible apply foldl_inv
    | (fail_if_no_progress with_reducible refine mk_same ?_ rfl rfl rfl rfl rfl rfl rfl rfl)
    | split

theorem State.flushMirrorAck_inv {s : State} (h : s.Inv) : (State.flushMirrorAck s).Inv := by
  unfold State.flushMirrorAck
  try dsimp only
  repeat' first
    | intro _
    | with_reducible assumption
    | with_reducible apply State.sendMsg_inv
    | with_reducible apply ite_inv
    | with_reducible apply foldl_inv
    | (fail_if_no_progress with_reducible refine mk_same ?_ rfl rfl rfl rfl rfl rfl rfl rfl)
    | split

theorem State.takeMirror_inv {s : State} {a1 a2} (h : s.Inv) : ∀ x t, (State.takeMirror s a1 a2) = (x, t) → State.Inv (t) := by
  intro x t he
  unfold State.takeMirror at he
  split at he
  · cases he; exact h
  · split at he
    · cases he; exact h
    · split at he
      · cases he; exact h
      · split at he
        · cases he; exact h
        · split at he
          · cases he; exact h
          · rename_i u hu
            have hk := foldlM_some_inv (fun _ _ _ ht hu => State.applyStamped_inv ht _ hu) _ h _ hu
            have hc : State.Inv (if u.twin.state = twDst then u.count cResyncBytes a2.length else u) :=
              ite_inv (State.count_inv hk) hk
            dsimp only at he
            revert hc he
            generalize (if u.twin.state = twDst then u.count cResyncBytes a2.length else u) = w
            intro he hc
            split at he
            · cases he; exact hc
            · cases he
              refine State.flushMirrorAck_inv ?_
              refine mk_same ?_ rfl rfl rfl rfl rfl rfl rfl rfl
              exact hc

theorem State.takeMirrorAck_inv {s : State} {a1} (h : s.Inv) : (State.takeMirrorAck s a1).Inv := by
  unfold State.takeMirrorAck
  try dsimp only
  repeat' first
    | intro _
    | with_reducible assumption
    | with_reducible apply State.coverChanges_inv
    | with_reducible apply ite_inv

/-- Every state that an outcome of steps 8 to 12 holds is legal. -/
def RxRes.Inv : RxRes → Prop
  | .ok t => t.Inv
  | .bad _ t => t.Inv
  | .hold => True

theorem rxIte_inv {c : Prop} [Decidable c] {a b : RxRes} (ha : a.Inv) (hb : b.Inv) : (if c then a else b).Inv := by
  split <;> assumption

theorem State.rxRequest_inv {s : State} {a1 a2} (h : s.Inv) : (State.rxRequest s a1 a2).Inv := by
  unfold State.rxRequest
  have fin : ∀ (t : State) (om : OpenMsg), State.Inv t → RxRes.Inv (if a1.last then
        let st := t.requestStatus a1.src.toNat om
        if st = stOk then .ok ((t.setOpen a1.src.toNat a1.rclass.toNat none).landMsg a1 om)
        else .bad st (t.setOpen a1.src.toNat a1.rclass.toNat (some om))
      else .ok (t.setOpen a1.src.toNat a1.rclass.toNat (some om))) := fun t om ht =>
    rxIte_inv (rxIte_inv (State.landMsg_inv (State.setOpen_inv ht)) (State.setOpen_inv ht)) (State.setOpen_inv ht)
  dsimp only
  refine rxIte_inv h ?_
  split
  · refine rxIte_inv (fin _ _ h) (rxIte_inv (fin _ _ (State.takeLand_inv h)) trivial)
  · split
    · exact fin _ _ h
    · refine rxIte_inv (rxIte_inv (fin _ _ h) h) (rxIte_inv trivial ?_)
      exact fin _ _ (State.takeLand_inv (State.claimRing_inv h _ _ rfl))

theorem State.rxRead_inv {s : State} {a1 a2} (h : s.Inv) : (State.rxRead s a1 a2).Inv := by
  unfold State.rxRead
  split
  · exact h
  · refine rxIte_inv h (rxIte_inv h (rxIte_inv trivial ?_))
    exact State.landMsg_inv (State.takeLand_inv (State.claimRing_inv h _ _ rfl))

theorem State.takeMailbox_inv {s : State} {a1 a2} (h : s.Inv) : (s.takeMailbox a1 a2).Inv := by
  unfold State.takeMailbox
  dsimp only
  split
  · exact State.sendResp_inv h
  · exact rxIte_inv h (State.setMbox_inv h)

theorem State.rxWriteImm_inv {s : State} {a1 a2} (h : s.Inv) : (s.rxWriteImm a1 a2).Inv := by
  unfold State.rxWriteImm
  refine rxIte_inv (State.relay_inv h) (rxIte_inv (State.takeMailbox_inv h) (rxIte_inv ?_ ?_))
  · split
    · trivial
    · exact State.writeFailed_inv h
  · split
    · exact State.writeFailed_inv h
    · exact ite_inv (State.deliverImm_inv (State.writeWindow_inv h _ (by assumption))) (State.writeWindow_inv h _ (by assumption))

theorem State.rxMessage_inv {s : State} {a1 a2} (h : s.Inv) : (s.rxMessage a1 a2).Inv := by
  unfold State.rxMessage
  refine rxIte_inv (rxIte_inv (State.takeHedge_inv h) h) (rxIte_inv (State.takeClaim_inv h) (rxIte_inv ?_
    (rxIte_inv (State.takeMirrorAck_inv h) (rxIte_inv ?_ (rxIte_inv (State.takeDirQuery_inv h) (rxIte_inv ?_ h))))))
  · exact rxIte_inv (State.takeMirror_inv h _ _ rfl) h
  · exact rxIte_inv (State.takeDirUpdate_inv h _ _ rfl) (State.takeDirUpdate_inv h _ _ rfl)
  · split
    · exact State.cancelFabric_inv h
    · exact h

theorem State.rxSteps_inv {s : State} {a1 a2} (h : s.Inv) : (s.rxSteps a1 a2).Inv := by
  unfold State.rxSteps
  dsimp only
  refine rxIte_inv (State.rxRequest_inv h) (rxIte_inv h (rxIte_inv (State.count_inv h) (rxIte_inv h
    (rxIte_inv (State.rxRead_inv h) (rxIte_inv h ?_)))))
  have key : ∀ (r : RxRes) (g : State → State), (∀ u : State, u.Inv → (g u).Inv) → r.Inv →
      RxRes.Inv (match r with | .ok t => .ok (g t) | .bad st t => .bad st t | .hold => .hold) := by
    intro r g hg hr
    cases r with
    | ok t => exact hg t hr
    | bad st t => exact hr
    | hold => trivial
  refine key _ _ (fun u hu => State.setOpen_inv hu) (rxIte_inv ?_ (rxIte_inv (State.rxWriteImm_inv h)
    (rxIte_inv (State.rxMessage_inv h) h)))
  split
  · exact State.writeWindow_inv h _ (by assumption)
  · exact State.writeFailed_inv h

theorem State.rxInOrder_inv {s : State} {a1 a2} (h : s.Inv) : ∀ t, s.rxInOrder a1 a2 = some t → State.Inv t := by
  intro t he
  unfold State.rxInOrder at he
  dsimp only at he
  have hd := State.dropOpen_inv (a1 := a1.src.toNat) (a2 := a1.rclass.toNat) h
  split at he
  · cases he; exact State.acceptRx_inv (State.setRx_inv hd)
  · split at he
    · cases he; exact State.acceptRx_inv (State.setRx_inv h)
    · have hx := State.rxSteps_inv (a1 := a1) (a2 := a2) h
      split at he
      · cases he
      · rename_i u hu
        rw [hu] at hx
        cases he; exact State.acceptRx_inv hx
      · rename_i n u hu
        rw [hu] at hx
        cases he
        exact ite_inv h (State.refuseRx_inv hx)

theorem State.oosRx_inv {s : State} {a1} (h : s.Inv) : (State.oosRx s a1).Inv := by
  unfold State.oosRx
  try dsimp only
  repeat' first
    | intro _
    | with_reducible assumption
    | with_reducible apply State.count_inv
    | with_reducible apply State.setRx_inv
    | with_reducible apply ite_inv

theorem State.dupRx_inv {s : State} {a1} (h : s.Inv) : (State.dupRx s a1).Inv := by
  unfold State.dupRx
  try dsimp only
  repeat' first
    | intro _
    | with_reducible assumption
    | with_reducible apply State.count_inv
    | with_reducible apply State.setRx_inv

theorem State.rxSeq_inv {s : State} {a1 a2} (h : s.Inv) : ∀ t, (State.rxSeq s a1 a2) = some t → State.Inv t := by
  intro t he
  unfold State.rxSeq at he
  try dsimp only at he
  repeat' first
    | (cases he; done)
    | split at he
    | contradiction
    | cases he
    | intro _
    | with_reducible assumption
    | with_reducible apply State.takeAck_inv
    | with_reducible apply State.takeNak_inv
    | with_reducible apply State.syncRx_inv
    | (refine State.rxInOrder_inv ?_ _ (by with_reducible assumption))
    | (with_reducible refine State.rxInOrder_inv ?_ _ rfl)
    | with_reducible apply State.oosRx_inv
    | with_reducible apply State.dupRx_inv
    | with_reducible apply ite_inv
    | with_reducible apply foldl_inv
    | (fail_if_no_progress with_reducible refine mk_same ?_ rfl rfl rfl rfl rfl rfl rfl rfl)

theorem State.rxFrame_inv {s : State} {a1} (h : s.Inv) : ∀ t, (State.rxFrame s a1) = some t → State.Inv t := by
  intro t he
  unfold State.rxFrame at he
  try dsimp only at he
  repeat' first
    | (cases he; done)
    | split at he
    | contradiction
    | cases he
    | intro _
    | with_reducible assumption
    | (refine State.authenticate_inv ?_ _ _ (by with_reducible assumption))
    | (with_reducible refine State.authenticate_inv ?_ _ _ rfl)
    | (refine State.rxSeq_inv ?_ _ (by with_reducible assumption))

theorem State.unhold_inv {s : State} {a1} (h : s.Inv) : (State.unhold s a1).Inv := by
  unfold State.unhold
  try dsimp only
  repeat' first
    | intro _
    | with_reducible assumption
    | with_reducible apply State.updPort_inv

theorem State.drainHeld_inv {s : State} {a1 a2} (h : s.Inv) : (State.drainHeld s a1 a2).Inv := by
  induction a2 generalizing s a1 with
  | zero => exact h
  | succ n ih =>
    unfold State.drainHeld
    try dsimp only
    repeat' first
      | intro _
      | (with_reducible apply ih)
      | with_reducible assumption
      | (refine State.rxFrame_inv ?_ _ (by with_reducible assumption))
      | (with_reducible refine State.rxFrame_inv ?_ _ rfl)
      | with_reducible apply State.unhold_inv
      | with_reducible apply ite_inv
      | with_reducible apply foldl_inv
      | (fail_if_no_progress with_reducible refine mk_same ?_ rfl rfl rfl rfl rfl rfl rfl rfl)
      | split

theorem State.drainReorder_inv {s : State} {a1} (h : s.Inv) : (State.drainReorder s a1).Inv := by
  induction a1 generalizing s  with
  | zero => exact h
  | succ n ih =>
    unfold State.drainReorder
    try dsimp only
    repeat' first
      | intro _
      | (with_reducible apply ih)
      | with_reducible assumption
      | (refine State.rxFrame_inv ?_ _ (by with_reducible assumption))
      | (with_reducible refine State.rxFrame_inv ?_ _ rfl)
      | with_reducible apply ite_inv
      | with_reducible apply foldl_inv
      | (fail_if_no_progress with_reducible refine mk_same ?_ rfl rfl rfl rfl rfl rfl rfl rfl)
      | split

theorem State.unqueueMsg_inv {s : State} {a1 a2 a3} (h : s.Inv) : (State.unqueueMsg s a1 a2 a3).Inv := by
  unfold State.unqueueMsg
  try dsimp only
  repeat' first
    | intro _
    | with_reducible assumption
    | with_reducible apply ite_inv
    | with_reducible apply foldl_inv
    | (fail_if_no_progress with_reducible refine mk_same ?_ rfl rfl rfl rfl rfl rfl rfl rfl)

theorem State.endUnkeyed_inv {s : State} {a1} (h : s.Inv) : (State.endUnkeyed s a1).Inv := by
  unfold State.endUnkeyed
  try dsimp only
  repeat' first
    | intro _
    | with_reducible assumption
    | (with_reducible apply State.each_inv)
    | with_reducible apply State.unqueueMsg_inv
    | with_reducible apply State.endSent_inv
    | with_reducible apply State.mapMsg_inv
    | with_reducible apply State.count_inv
    | with_reducible apply State.endMsg_inv
    | with_reducible apply ite_inv

theorem State.dropUnkeyed_inv {s : State} {a1} (h : s.Inv) : (State.dropUnkeyed s a1).Inv := by
  unfold State.dropUnkeyed
  try dsimp only
  repeat' first
    | intro _
    | with_reducible assumption
    | with_reducible apply State.each_inv
    | with_reducible apply State.endUnkeyed_inv
    | with_reducible apply ite_inv

theorem State.endReadFrame_inv {s : State} {a1 a2 a3} (h : s.Inv) : ∀ t x, (State.endReadFrame s a1 a2 a3) = (t, x) → State.Inv t := by
  intro t x he
  unfold State.endReadFrame at he
  try dsimp only at he
  repeat' first
    | (cases he; done)
    | split at he
    | contradiction
    | cases he
    | intro _
    | with_reducible assumption
    | (with_reducible apply State.each_inv)
    | with_reducible apply State.failCheck_inv
    | with_reducible apply State.unqueueMsg_inv
    | with_reducible apply State.endFrame_inv
    | with_reducible apply State.setTx_inv
    | with_reducible apply State.stopRead_inv

theorem State.requestRepairs_inv {s : State} (h : s.Inv) : (State.requestRepairs s).Inv := by
  unfold State.requestRepairs
  try dsimp only
  repeat' first
    | intro _
    | with_reducible assumption
    | with_reducible apply State.each_inv
    | with_reducible apply State.askRepair_inv

theorem State.enterPaired_inv {s : State} (h : s.Inv) : (State.enterPaired s).Inv := by
  unfold State.enterPaired
  try dsimp only
  repeat' first
    | intro _
    | with_reducible assumption
    | with_reducible apply State.requestRepairs_inv
    | with_reducible apply ite_inv
    | with_reducible apply foldl_inv
    | (fail_if_no_progress with_reducible refine mk_same ?_ rfl rfl rfl rfl rfl rfl rfl rfl)
    | split
    | (refine mk_twin ?_ rfl rfl rfl rfl rfl rfl rfl rfl)

theorem State.formFrame_inv {s : State} {a1 a2 a3} (h : s.Inv) : ∀ t x, (State.formFrame s a1 a2 a3) = (t, x) → State.Inv t := by
  intro t x he
  unfold State.formFrame at he
  try dsimp only at he
  repeat' first
    | (cases he; done)
    | split at he
    | contradiction
    | cases he
    | intro _
    | with_reducible assumption
    | (refine State.endMirrorFrame_inv ?_ _ _ (by with_reducible assumption))
    | (with_reducible refine State.endMirrorFrame_inv ?_ _ _ rfl)
    | (refine State.endReadFrame_inv ?_ _ _ (by with_reducible assumption))
    | (with_reducible refine State.endReadFrame_inv ?_ _ _ rfl)

theorem State.paceIngress_inv {s : State} {a1} (h : s.Inv) : (State.paceIngress s a1).Inv := by
  unfold State.paceIngress
  try dsimp only
  repeat' first
    | intro _
    | with_reducible assumption
    | with_reducible apply State.paceClass_inv

theorem State.holdFrame_inv {s : State} {a1} (h : s.Inv) : (State.holdFrame s a1).Inv := by
  unfold State.holdFrame
  try dsimp only
  repeat' first
    | intro _
    | with_reducible assumption
    | with_reducible apply State.updPort_inv
    | with_reducible apply State.countPort_inv
    | with_reducible apply State.paceIngress_inv
    | with_reducible apply ite_inv

theorem State.noteRun_inv {s : State} {a1 a2 a3} (h : s.Inv) : (State.noteRun s a1 a2 a3).Inv := by
  unfold State.noteRun
  try dsimp only
  repeat' first
    | intro _
    | with_reducible assumption
    | with_reducible apply State.each_inv
    | with_reducible apply State.noteCorrected_inv

theorem State.pausePcp_inv {s : State} {a1 a2 a3} (h : s.Inv) : (State.pausePcp s a1 a2 a3).Inv := by
  unfold State.pausePcp
  try dsimp only
  repeat' first
    | intro _
    | with_reducible assumption
    | with_reducible apply State.updPort_inv
    | with_reducible apply State.each_inv
    | with_reducible apply State.countPort_inv
    | with_reducible apply ite_inv
    | with_reducible apply foldl_inv
    | (fail_if_no_progress with_reducible refine mk_same ?_ rfl rfl rfl rfl rfl rfl rfl rfl)
    | split

theorem State.putFrame_inv {s : State} {a1 a2 a3 a4 a5 a6 a7} (h : s.Inv) : (State.putFrame s a1 a2 a3 a4 a5 a6 a7).Inv := by
  unfold State.putFrame
  try dsimp only
  repeat' first
    | intro _
    | with_reducible assumption
    | with_reducible apply State.setTx_inv
    | with_reducible apply State.emit_inv
    | with_reducible apply State.meterPort_inv
    | with_reducible apply ite_inv
    | with_reducible apply foldl_inv
    | (fail_if_no_progress with_reducible refine mk_same ?_ rfl rfl rfl rfl rfl rfl rfl rfl)
    | split

theorem State.receive_inv {s : State} {a1} (h : s.Inv) : (State.receive s a1).Inv := by
  unfold State.receive
  try dsimp only
  repeat' first
    | intro _
    | with_reducible assumption
    | with_reducible apply State.countPort_inv
    | with_reducible apply State.holdFrame_inv
    | (refine State.rxFrame_inv ?_ _ (by with_reducible assumption))
    | (with_reducible refine State.rxFrame_inv ?_ _ rfl)
    | with_reducible apply State.paceMirror_inv
    | with_reducible apply State.drainReorder_inv
    | with_reducible apply ite_inv
    | with_reducible apply foldl_inv
    | split

theorem doRebalance_inv {s : State} {a1} (h : s.Inv) : (doRebalance a1 s).Inv := by
  unfold doRebalance
  try dsimp only
  repeat' first
    | intro _
    | with_reducible assumption
    | (with_reducible apply State.agtan_inv)
    | with_reducible apply State.respond_inv
    | (refine State.allocRun_inv ?_ _ _ _ (by with_reducible assumption))
    | (with_reducible refine State.allocRun_inv ?_ _ _ _ rfl)
    | with_reducible apply State.putPage_inv
    | with_reducible apply ite_inv
    | with_reducible apply foldl_inv
    | split

theorem State.scrubGrain_inv {s : State} {a1 a2} (h : s.Inv) : (State.scrubGrain s a1 a2).Inv := by
  unfold State.scrubGrain
  try dsimp only
  repeat' first
    | intro _
    | with_reducible assumption
    | with_reducible apply State.noteCorrected_inv
    | with_reducible apply State.failGrain_inv
    | with_reducible apply ite_inv
    | with_reducible apply foldl_inv
    | (fail_if_no_progress with_reducible refine mk_same ?_ rfl rfl rfl rfl rfl rfl rfl rfl)
    | split

theorem State.sendCtl_inv {s : State} {a1 a2 a3} (h : s.Inv) : (State.sendCtl s a1 a2 a3).Inv := by
  unfold State.sendCtl
  try dsimp only
  repeat' first
    | intro _
    | with_reducible assumption
    | with_reducible apply State.setRx_inv
    | with_reducible apply State.count_inv
    | with_reducible apply State.emit_inv
    | (with_reducible apply getD_inv)
    | with_reducible apply ite_inv
    | with_reducible apply foldl_inv
    | (fail_if_no_progress with_reducible refine mk_same ?_ rfl rfl rfl rfl rfl rfl rfl rfl)
    | split

theorem State.unqueue_inv {s : State} {a1 a2} (h : s.Inv) : (State.unqueue s a1 a2).Inv := by
  unfold State.unqueue
  try dsimp only
  repeat' first
    | intro _
    | with_reducible assumption
    | with_reducible apply State.updPort_inv
    | with_reducible apply ite_inv

theorem State.sendHead_inv {s : State} {a1 a2} (h : s.Inv) : (State.sendHead s a1 a2).Inv := by
  unfold State.sendHead
  try dsimp only
  repeat' first
    | intro _
    | with_reducible assumption
    | (refine State.formFrame_inv ?_ _ _ (by with_reducible assumption))
    | (with_reducible refine State.formFrame_inv ?_ _ _ rfl)
    | with_reducible apply State.count_inv
    | with_reducible apply State.putFrame_inv
    | with_reducible apply State.unqueue_inv
    | with_reducible apply ite_inv
    | with_reducible apply foldl_inv
    | split

theorem State.sendResync_inv {s : State} {a1} (h : s.Inv) : (State.sendResync s a1).Inv := by
  unfold State.sendResync
  try dsimp only
  repeat' first
    | intro _
    | with_reducible assumption
    | with_reducible apply State.each_inv
    | with_reducible apply State.count_inv
    | with_reducible apply State.sendRecs_inv
    | with_reducible apply ite_inv

theorem State.swapRun_inv {s : State} {a1 a2 a3} (h : s.Inv) : (State.swapRun s a1 a2 a3).Inv := by
  unfold State.swapRun
  try dsimp only
  repeat' first
    | intro _
    | with_reducible assumption
    | with_reducible apply State.putPage_inv
    | with_reducible apply ite_inv
    | with_reducible apply foldl_inv
    | (fail_if_no_progress with_reducible refine mk_same ?_ rfl rfl rfl rfl rfl rfl rfl rfl)
    | split

theorem doCqHoldExpiry_inv {s : State} {a1} (h : s.Inv) : (doCqHoldExpiry a1 s).Inv := by
  unfold doCqHoldExpiry
  try dsimp only
  repeat' first
    | intro _
    | with_reducible assumption
    | with_reducible apply State.cqExpired_inv
    | with_reducible apply State.unhold_inv
    | with_reducible apply State.paceIngress_inv
    | with_reducible apply State.drainHeld_inv
    | with_reducible apply ite_inv
    | with_reducible apply foldl_inv
    | (fail_if_no_progress with_reducible refine mk_same ?_ rfl rfl rfl rfl rfl rfl rfl rfl)
    | split

theorem doDemoteTimeout_inv {s : State} {a1} (h : s.Inv) : (doDemoteTimeout a1 s).Inv := by
  unfold doDemoteTimeout
  try dsimp only
  repeat' first
    | intro _
    | with_reducible assumption
    | with_reducible apply State.demote_inv
    | with_reducible apply ite_inv
    | with_reducible apply foldl_inv
    | split

theorem doEchoRequest_inv {s : State} {a1 a2 a3 a4 a5 a6} (h : s.Inv) : (doEchoRequest a1 a2 a3 a4 a5 a6 s).Inv := by
  unfold doEchoRequest
  try dsimp only
  repeat' first
    | intro _
    | with_reducible assumption
    | with_reducible apply State.emit_inv
    | with_reducible apply State.countPort_inv
    | with_reducible apply ite_inv

theorem doFrame_inv {s : State} {a1 a2} (h : s.Inv) : (doFrame a1 a2 s).Inv := by
  unfold doFrame
  try dsimp only
  repeat' first
    | intro _
    | with_reducible assumption
    | with_reducible apply State.receive_inv
    | with_reducible apply ite_inv

theorem doJoiningTimeout_inv {s : State} (h : s.Inv) : (doJoiningTimeout s).Inv := by
  unfold doJoiningTimeout
  try dsimp only
  repeat' first
    | intro _
    | with_reducible assumption
    | with_reducible apply State.enterSolo_inv
    | with_reducible apply ite_inv

theorem doLandingResume_inv {s : State} {a1} (h : s.Inv) : (doLandingResume a1 s).Inv := by
  unfold doLandingResume
  try dsimp only
  repeat' first
    | intro _
    | with_reducible assumption
    | with_reducible apply State.paceIngress_inv
    | with_reducible apply State.drainHeld_inv
    | with_reducible apply ite_inv

theorem State.copyPage_inv {s : State} {a1 a2 a3 a4} (h : s.Inv) : ∀ t x, (State.copyPage s a1 a2 a3 a4) = (t, x) → State.Inv t := by
  intro t x he
  unfold State.copyPage at he
  try dsimp only at he
  repeat' first
    | (cases he; done)
    | split at he
    | contradiction
    | cases he
    | intro _
    | with_reducible assumption
    | with_reducible apply State.noteRun_inv
    | with_reducible apply State.failPage_inv
    | with_reducible apply State.abandonMigr_inv
    | with_reducible apply State.putPage_inv
    | with_reducible apply State.copyRun_inv

theorem doMigrationSwap_inv {s : State} {a1 a2} (h : s.Inv) : (doMigrationSwap a1 a2 s).Inv := by
  unfold doMigrationSwap
  try dsimp only
  repeat' first
    | intro _
    | with_reducible assumption
    | with_reducible apply State.startRebalance_inv
    | with_reducible apply State.abandonMigr_inv
    | (refine State.copyPage_inv ?_ _ _ (by with_reducible assumption))
    | (with_reducible refine State.copyPage_inv ?_ _ _ rfl)
    | with_reducible apply State.swapRun_inv
    | with_reducible apply ite_inv
    | with_reducible apply foldl_inv
    | split

theorem doMirrorKeepalive_inv {s : State} (h : s.Inv) : (doMirrorKeepalive s).Inv := by
  unfold doMirrorKeepalive
  try dsimp only
  repeat' first
    | intro _
    | with_reducible assumption
    | with_reducible apply State.sendMirror_inv
    | with_reducible apply ite_inv
    | with_reducible apply foldl_inv
    | (fail_if_no_progress with_reducible refine mk_same ?_ rfl rfl rfl rfl rfl rfl rfl rfl)
    | split

theorem doNeighborSolicitation_inv {s : State} {a1 a2 a3} (h : s.Inv) : (doNeighborSolicitation a1 a2 a3 s).Inv := by
  unfold doNeighborSolicitation
  try dsimp only
  repeat' first
    | intro _
    | with_reducible assumption
    | with_reducible apply State.emit_inv
    | with_reducible apply State.countPort_inv
    | with_reducible apply ite_inv

theorem doOldRunRelease_inv {s : State} {a1} (h : s.Inv) : (doOldRunRelease a1 s).Inv := by
  unfold doOldRunRelease
  try dsimp only
  repeat' first
    | intro _
    | with_reducible assumption
    | with_reducible apply State.putPage_inv
    | with_reducible apply State.freeAllocs_inv
    | with_reducible apply ite_inv
    | with_reducible apply foldl_inv
    | split

theorem doOtherFrame_inv {s : State} {a1 a2} (h : s.Inv) : (doOtherFrame a1 a2 s).Inv := by
  unfold doOtherFrame
  try dsimp only
  repeat' first
    | intro _
    | with_reducible assumption
    | with_reducible apply State.countPort_inv
    | with_reducible apply ite_inv

theorem doPfcFrame_inv {s : State} {a1 a2 a3} (h : s.Inv) : (doPfcFrame a1 a2 a3 s).Inv := by
  unfold doPfcFrame
  try dsimp only
  repeat' first
    | intro _
    | with_reducible assumption
    | with_reducible apply State.each_inv
    | with_reducible apply State.pausePcp_inv
    | with_reducible apply ite_inv

theorem doPortTransmit_inv {s : State} {a1} (h : s.Inv) : (doPortTransmit a1 s).Inv := by
  unfold doPortTransmit
  try dsimp only
  repeat' first
    | intro _
    | with_reducible assumption
    | with_reducible apply State.flushMirrorAck_inv
    | with_reducible apply State.sendCtl_inv
    | with_reducible apply State.pin_inv
    | with_reducible apply State.updPort_inv
    | with_reducible apply State.dropUnkeyed_inv
    | with_reducible apply State.sendHead_inv
    | with_reducible apply ite_inv
    | with_reducible apply foldl_inv
    | split

theorem doPromote_inv {s : State} {a1 a2} (h : s.Inv) : (doPromote a1 a2 s).Inv := by
  unfold doPromote
  try dsimp only
  repeat' first
    | intro _
    | with_reducible assumption
    | with_reducible apply State.noteRun_inv
    | with_reducible apply State.failPage_inv
    | with_reducible apply State.putPage_inv
    | with_reducible apply ite_inv
    | with_reducible apply foldl_inv
    | split

theorem doRejoin_inv {s : State} {a1 a2 a3} (h : s.Inv) : (doRejoin a1 a2 a3 s).Inv := by
  unfold doRejoin
  try dsimp only
  repeat' first
    | intro _
    | with_reducible assumption
    | with_reducible apply State.discardAfter_inv
    | with_reducible apply State.sendResync_inv
    | with_reducible apply ite_inv
    | with_reducible apply foldl_inv
    | (fail_if_no_progress with_reducible refine mk_same ?_ rfl rfl rfl rfl rfl rfl rfl rfl)
    | split
    | (refine mk_twin ?_ rfl rfl rfl rfl rfl rfl rfl rfl)

theorem doResyncComplete_inv {s : State} (h : s.Inv) : (doResyncComplete s).Inv := by
  unfold doResyncComplete
  try dsimp only
  repeat' first
    | intro _
    | with_reducible assumption
    | with_reducible apply State.enterPaired_inv
    | with_reducible apply ite_inv

theorem doScrubPass_inv {s : State} {a1 a2} (h : s.Inv) : (doScrubPass a1 a2 s).Inv := by
  unfold doScrubPass
  try dsimp only
  repeat' first
    | intro _
    | with_reducible assumption
    | with_reducible apply State.scrubGrain_inv
    | with_reducible apply State.freeAllocs_inv
    | with_reducible apply State.scrubHeader_inv
    | with_reducible apply ite_inv
    | with_reducible apply foldl_inv
    | split

theorem doSramCopyRelease_inv {s : State} {a1} (h : s.Inv) : (doSramCopyRelease a1 s).Inv := by
  unfold doSramCopyRelease
  try dsimp only
  repeat' first
    | intro _
    | with_reducible assumption
    | with_reducible apply State.updPage_inv
    | with_reducible apply ite_inv

theorem doTwinSilenceTimeout_inv {s : State} {a1 a2} (h : s.Inv) : (doTwinSilenceTimeout a1 a2 s).Inv := by
  unfold doTwinSilenceTimeout
  try dsimp only
  repeat' first
    | intro _
    | with_reducible assumption
    | with_reducible apply State.enterSolo_inv
    | with_reducible apply ite_inv

theorem doWeirEntryAdvance_inv {s : State} {a1} (h : s.Inv) : (doWeirEntryAdvance a1 s).Inv := by
  unfold doWeirEntryAdvance
  try dsimp only
  repeat' first
    | intro _
    | with_reducible assumption
    | with_reducible apply State.updPort_inv
    | with_reducible apply ite_inv
    | with_reducible apply foldl_inv
    | (fail_if_no_progress with_reducible refine mk_same ?_ rfl rfl rfl rfl rfl rfl rfl rfl)
    | split

theorem doWeirTakeover_inv {s : State} {a1} (h : s.Inv) : (doWeirTakeover a1 s).Inv := by
  unfold doWeirTakeover
  try dsimp only
  repeat' first
    | intro _
    | with_reducible assumption
    | with_reducible apply State.updPort_inv
    | with_reducible apply ite_inv
    | with_reducible apply foldl_inv
    | (fail_if_no_progress with_reducible refine mk_same ?_ rfl rfl rfl rfl rfl rfl rfl rfl)
    | split

theorem doWriterApplyTimeout_inv {s : State} (h : s.Inv) : (doWriterApplyTimeout s).Inv := by
  unfold doWriterApplyTimeout
  try dsimp only
  repeat' first
    | intro _
    | with_reducible assumption
    | with_reducible apply State.enterSolo_inv
    | with_reducible apply ite_inv

theorem execRebalance_inv {s : State} {a1} (h : s.Inv) : OutInv (execRebalance a1 s) := by
  unfold execRebalance
  repeat' first
    | (with_reducible refine run_inv (fun _ _ => ?_) ?_)
    | intro _
    | with_reducible assumption
    | with_reducible apply doRebalance_inv

theorem execWrite_inv {s : State} {a1} (h : s.Inv) : OutInv (execWrite a1 s) := by
  unfold execWrite
  repeat' first
    | (with_reducible refine run_inv (fun _ _ => ?_) ?_)
    | intro _
    | with_reducible assumption
    | with_reducible apply doFrame_inv

theorem execWriteImm_inv {s : State} {a1} (h : s.Inv) : OutInv (execWriteImm a1 s) := by
  unfold execWriteImm
  repeat' first
    | (with_reducible refine run_inv (fun _ _ => ?_) ?_)
    | intro _
    | with_reducible assumption
    | with_reducible apply doFrame_inv

theorem execWriteImmMailbox_inv {s : State} {a1} (h : s.Inv) : OutInv (execWriteImmMailbox a1 s) := by
  unfold execWriteImmMailbox
  repeat' first
    | (with_reducible refine run_inv (fun _ _ => ?_) ?_)
    | intro _
    | with_reducible assumption
    | with_reducible apply doFrame_inv

theorem execCqHoldExpiry_inv {s : State} {a1 a2} (h : s.Inv) : OutInv (execCqHoldExpiry a1 a2 s) := by
  unfold execCqHoldExpiry
  repeat' first
    | (with_reducible refine run_inv (fun _ _ => ?_) ?_)
    | intro _
    | with_reducible assumption
    | with_reducible apply doCqHoldExpiry_inv
    | with_reducible apply State.upTo_inv

theorem execForwardCompletion_inv {s : State} {a1} (h : s.Inv) : OutInv (execForwardCompletion a1 s) := by
  unfold execForwardCompletion
  repeat' first
    | (with_reducible refine run_inv (fun _ _ => ?_) ?_)
    | intro _
    | with_reducible assumption
    | with_reducible apply doFrame_inv

theorem execReadReq_inv {s : State} {a1} (h : s.Inv) : OutInv (execReadReq a1 s) := by
  unfold execReadReq
  repeat' first
    | (with_reducible refine run_inv (fun _ _ => ?_) ?_)
    | intro _
    | with_reducible assumption
    | with_reducible apply doFrame_inv

theorem execAttend_inv {s : State} {a1} (h : s.Inv) : OutInv (execAttend a1 s) := by
  unfold execAttend
  repeat' first
    | (with_reducible refine run_inv (fun _ _ => ?_) ?_)
    | intro _
    | with_reducible assumption
    | with_reducible apply doFrame_inv

theorem execAppend_inv {s : State} {a1} (h : s.Inv) : OutInv (execAppend a1 s) := by
  unfold execAppend
  repeat' first
    | (with_reducible refine run_inv (fun _ _ => ?_) ?_)
    | intro _
    | with_reducible assumption
    | with_reducible apply doFrame_inv

theorem execIngest_inv {s : State} {a1} (h : s.Inv) : OutInv (execIngest a1 s) := by
  unfold execIngest
  repeat' first
    | (with_reducible refine run_inv (fun _ _ => ?_) ?_)
    | intro _
    | with_reducible assumption
    | with_reducible apply doFrame_inv

theorem execCommit_inv {s : State} {a1} (h : s.Inv) : OutInv (execCommit a1 s) := by
  unfold execCommit
  repeat' first
    | (with_reducible refine run_inv (fun _ _ => ?_) ?_)
    | intro _
    | with_reducible assumption
    | with_reducible apply doFrame_inv

theorem execCancel_inv {s : State} {a1} (h : s.Inv) : OutInv (execCancel a1 s) := by
  unfold execCancel
  repeat' first
    | (with_reducible refine run_inv (fun _ _ => ?_) ?_)
    | intro _
    | with_reducible assumption
    | with_reducible apply doFrame_inv

theorem execSramCopyRelease_inv {s : State} {a1} (h : s.Inv) : OutInv (execSramCopyRelease a1 s) := by
  unfold execSramCopyRelease
  repeat' first
    | (with_reducible refine run_inv (fun _ _ => ?_) ?_)
    | intro _
    | with_reducible assumption
    | with_reducible apply doSramCopyRelease_inv

theorem execLandingResume_inv {s : State} {a1} (h : s.Inv) : OutInv (execLandingResume a1 s) := by
  unfold execLandingResume
  repeat' first
    | (with_reducible refine run_inv (fun _ _ => ?_) ?_)
    | intro _
    | with_reducible assumption
    | with_reducible apply doLandingResume_inv

theorem execHedge_inv {s : State} {a1} (h : s.Inv) : OutInv (execHedge a1 s) := by
  unfold execHedge
  repeat' first
    | (with_reducible refine run_inv (fun _ _ => ?_) ?_)
    | intro _
    | with_reducible assumption
    | with_reducible apply doFrame_inv

theorem execHedgeClaim_inv {s : State} {a1} (h : s.Inv) : OutInv (execHedgeClaim a1 s) := by
  unfold execHedgeClaim
  repeat' first
    | (with_reducible refine run_inv (fun _ _ => ?_) ?_)
    | intro _
    | with_reducible assumption
    | with_reducible apply doFrame_inv

theorem execMirror_inv {s : State} {a1} (h : s.Inv) : OutInv (execMirror a1 s) := by
  unfold execMirror
  repeat' first
    | (with_reducible refine run_inv (fun _ _ => ?_) ?_)
    | intro _
    | with_reducible assumption
    | with_reducible apply doFrame_inv

theorem execMirrorAck_inv {s : State} {a1} (h : s.Inv) : OutInv (execMirrorAck a1 s) := by
  unfold execMirrorAck
  repeat' first
    | (with_reducible refine run_inv (fun _ _ => ?_) ?_)
    | intro _
    | with_reducible assumption
    | with_reducible apply doFrame_inv

theorem execMirrorKeepalive_inv {s : State} {a1} (h : s.Inv) : OutInv (execMirrorKeepalive a1 s) := by
  unfold execMirrorKeepalive
  repeat' first
    | (with_reducible refine run_inv (fun _ _ => ?_) ?_)
    | intro _
    | with_reducible assumption
    | with_reducible apply doMirrorKeepalive_inv
    | with_reducible apply State.upTo_inv

theorem execWriterApplyTimeout_inv {s : State} {a1} (h : s.Inv) : OutInv (execWriterApplyTimeout a1 s) := by
  unfold execWriterApplyTimeout
  repeat' first
    | (with_reducible refine run_inv (fun _ _ => ?_) ?_)
    | intro _
    | with_reducible assumption
    | with_reducible apply doWriterApplyTimeout_inv
    | with_reducible apply State.upTo_inv

theorem execTwinSilenceTimeout_inv {s : State} {a1 a2 a3} (h : s.Inv) : OutInv (execTwinSilenceTimeout a1 a2 a3 s) := by
  unfold execTwinSilenceTimeout
  repeat' first
    | (with_reducible refine run_inv (fun _ _ => ?_) ?_)
    | intro _
    | with_reducible assumption
    | with_reducible apply doTwinSilenceTimeout_inv
    | with_reducible apply State.upTo_inv

theorem execJoiningTimeout_inv {s : State} {a1} (h : s.Inv) : OutInv (execJoiningTimeout a1 s) := by
  unfold execJoiningTimeout
  repeat' first
    | (with_reducible refine run_inv (fun _ _ => ?_) ?_)
    | intro _
    | with_reducible assumption
    | with_reducible apply doJoiningTimeout_inv
    | with_reducible apply State.upTo_inv

theorem execRejoin_inv {s : State} {a1 a2 a3} (h : s.Inv) : OutInv (execRejoin a1 a2 a3 s) := by
  unfold execRejoin
  repeat' first
    | (with_reducible refine run_inv (fun _ _ => ?_) ?_)
    | intro _
    | with_reducible assumption
    | with_reducible apply doRejoin_inv

theorem execResyncComplete_inv {s : State} (h : s.Inv) : OutInv (execResyncComplete s) := by
  unfold execResyncComplete
  repeat' first
    | (with_reducible refine run_inv (fun _ _ => ?_) ?_)
    | intro _
    | with_reducible assumption
    | with_reducible apply doResyncComplete_inv

theorem execDirUpdate_inv {s : State} {a1} (h : s.Inv) : OutInv (execDirUpdate a1 s) := by
  unfold execDirUpdate
  repeat' first
    | (with_reducible refine run_inv (fun _ _ => ?_) ?_)
    | intro _
    | with_reducible assumption
    | with_reducible apply doFrame_inv

theorem execDirQuery_inv {s : State} {a1} (h : s.Inv) : OutInv (execDirQuery a1 s) := by
  unfold execDirQuery
  repeat' first
    | (with_reducible refine run_inv (fun _ _ => ?_) ?_)
    | intro _
    | with_reducible assumption
    | with_reducible apply doFrame_inv

theorem execVoidSync_inv {s : State} {a1} (h : s.Inv) : OutInv (execVoidSync a1 s) := by
  unfold execVoidSync
  repeat' first
    | (with_reducible refine run_inv (fun _ _ => ?_) ?_)
    | intro _
    | with_reducible assumption
    | with_reducible apply doFrame_inv

theorem execVoid_inv {s : State} {a1} (h : s.Inv) : OutInv (execVoid a1 s) := by
  unfold execVoid
  repeat' first
    | (with_reducible refine run_inv (fun _ _ => ?_) ?_)
    | intro _
    | with_reducible assumption
    | with_reducible apply doFrame_inv

theorem execAck_inv {s : State} {a1} (h : s.Inv) : OutInv (execAck a1 s) := by
  unfold execAck
  repeat' first
    | (with_reducible refine run_inv (fun _ _ => ?_) ?_)
    | intro _
    | with_reducible assumption
    | with_reducible apply doFrame_inv

theorem execNak_inv {s : State} {a1} (h : s.Inv) : OutInv (execNak a1 s) := by
  unfold execNak
  repeat' first
    | (with_reducible refine run_inv (fun _ _ => ?_) ?_)
    | intro _
    | with_reducible assumption
    | with_reducible apply doFrame_inv

theorem execPfcFrame_inv {s : State} {a1 a2 a3 a4} (h : s.Inv) : OutInv (execPfcFrame a1 a2 a3 a4 s) := by
  unfold execPfcFrame
  repeat' first
    | (with_reducible refine run_inv (fun _ _ => ?_) ?_)
    | intro _
    | with_reducible assumption
    | with_reducible apply doPfcFrame_inv
    | with_reducible apply State.upTo_inv

theorem execNeighborSolicitation_inv {s : State} {a1 a2 a3} (h : s.Inv) : OutInv (execNeighborSolicitation a1 a2 a3 s) := by
  unfold execNeighborSolicitation
  repeat' first
    | (with_reducible refine run_inv (fun _ _ => ?_) ?_)
    | intro _
    | with_reducible assumption
    | with_reducible apply doNeighborSolicitation_inv

theorem execEchoRequest_inv {s : State} {a1 a2 a3 a4 a5 a6} (h : s.Inv) : OutInv (execEchoRequest a1 a2 a3 a4 a5 a6 s) := by
  unfold execEchoRequest
  repeat' first
    | (with_reducible refine run_inv (fun _ _ => ?_) ?_)
    | intro _
    | with_reducible assumption
    | with_reducible apply doEchoRequest_inv

theorem execOtherFrame_inv {s : State} {a1 a2} (h : s.Inv) : OutInv (execOtherFrame a1 a2 s) := by
  unfold execOtherFrame
  repeat' first
    | (with_reducible refine run_inv (fun _ _ => ?_) ?_)
    | intro _
    | with_reducible assumption
    | with_reducible apply doOtherFrame_inv

theorem execPortTransmit_inv {s : State} {a1 a2} (h : s.Inv) : OutInv (execPortTransmit a1 a2 s) := by
  unfold execPortTransmit
  repeat' first
    | (with_reducible refine run_inv (fun _ _ => ?_) ?_)
    | intro _
    | with_reducible assumption
    | with_reducible apply doPortTransmit_inv
    | with_reducible apply State.upTo_inv

theorem execWeirTakeover_inv {s : State} {a1 a2} (h : s.Inv) : OutInv (execWeirTakeover a1 a2 s) := by
  unfold execWeirTakeover
  repeat' first
    | (with_reducible refine run_inv (fun _ _ => ?_) ?_)
    | intro _
    | with_reducible assumption
    | with_reducible apply doWeirTakeover_inv
    | with_reducible apply State.upTo_inv

theorem execWeirEntryAdvance_inv {s : State} {a1 a2} (h : s.Inv) : OutInv (execWeirEntryAdvance a1 a2 s) := by
  unfold execWeirEntryAdvance
  repeat' first
    | (with_reducible refine run_inv (fun _ _ => ?_) ?_)
    | intro _
    | with_reducible assumption
    | with_reducible apply doWeirEntryAdvance_inv
    | with_reducible apply State.upTo_inv

theorem execPromote_inv {s : State} {a1 a2} (h : s.Inv) : OutInv (execPromote a1 a2 s) := by
  unfold execPromote
  repeat' first
    | (with_reducible refine run_inv (fun _ _ => ?_) ?_)
    | intro _
    | with_reducible assumption
    | with_reducible apply doPromote_inv

theorem execDemoteTimeout_inv {s : State} {a1 a2} (h : s.Inv) : OutInv (execDemoteTimeout a1 a2 s) := by
  unfold execDemoteTimeout
  repeat' first
    | (with_reducible refine run_inv (fun _ _ => ?_) ?_)
    | intro _
    | with_reducible assumption
    | with_reducible apply State.upTo_inv
    | with_reducible apply doDemoteTimeout_inv

theorem execMigrationSwap_inv {s : State} {a1 a2} (h : s.Inv) : OutInv (execMigrationSwap a1 a2 s) := by
  unfold execMigrationSwap
  repeat' first
    | (with_reducible refine run_inv (fun _ _ => ?_) ?_)
    | intro _
    | with_reducible assumption
    | with_reducible apply doMigrationSwap_inv

theorem execOldRunRelease_inv {s : State} {a1} (h : s.Inv) : OutInv (execOldRunRelease a1 s) := by
  unfold execOldRunRelease
  repeat' first
    | (with_reducible refine run_inv (fun _ _ => ?_) ?_)
    | intro _
    | with_reducible assumption
    | with_reducible apply doOldRunRelease_inv

theorem execScrubPass_inv {s : State} {a1 a2} (h : s.Inv) : OutInv (execScrubPass a1 a2 s) := by
  unfold execScrubPass
  repeat' first
    | (with_reducible refine run_inv (fun _ _ => ?_) ?_)
    | intro _
    | with_reducible assumption
    | with_reducible apply doScrubPass_inv

theorem execUndefinedOpcode_inv {s : State} {a1} (h : s.Inv) : OutInv (execUndefinedOpcode a1 s) := by
  unfold execUndefinedOpcode
  repeat' first
    | (with_reducible refine run_inv (fun _ _ => ?_) ?_)
    | intro _
    | with_reducible assumption
    | with_reducible apply doFrame_inv

theorem execMalformedFrame_inv {s : State} {a1} (h : s.Inv) : OutInv (execMalformedFrame a1 s) := by
  unfold execMalformedFrame
  repeat' first
    | (with_reducible refine run_inv (fun _ _ => ?_) ?_)
    | intro _
    | with_reducible assumption
    | with_reducible apply doFrame_inv

end Sys2Proof.Machine
end

