-- ==== Sys2Proof/Laws/InvReset.lean ====
section
/-! SUPPORT. The state invariant is kept by spares, resets, bring-up, fault verdicts and power.
One lemma per operation: the state it answers is legal whenever the state it gets is. -/

namespace Sys2Proof.Machine

theorem State.failJet_inv {s : State} {a1} (h : s.Inv) : (State.failJet s a1).Inv := by
  unfold State.failJet
  try dsimp only
  repeat' first
    | intro _
    | with_reducible assumption
    | with_reducible apply State.fault_inv
    | with_reducible apply State.isolateJet_inv

theorem State.resetJet_inv {s : State} {a1 a2} (h : s.Inv) : (State.resetJet s a1 a2).Inv := by
  unfold State.resetJet
  try dsimp only
  repeat' first
    | intro _
    | with_reducible assumption
    | with_reducible apply State.collectJet_inv
    | with_reducible apply State.isolateJet_inv
    | with_reducible apply State.setJet_inv
    | with_reducible apply State.placeCmds_inv
    | with_reducible apply State.failJet_inv
    | with_reducible apply ite_inv

theorem State.resetJetOf_inv {s : State} {a1} (h : s.Inv) : (State.resetJetOf s a1).Inv := by
  unfold State.resetJetOf
  try dsimp only
  repeat' first
    | intro _
    | with_reducible assumption
    | (refine State.drawTest_inv ?_ _ _ (by with_reducible assumption))
    | (with_reducible refine State.drawTest_inv ?_ _ _ rfl)
    | with_reducible apply State.resetJet_inv

theorem State.scrub_inv {s : State} {a1} (h : s.Inv) : (State.scrub s a1).Inv := by
  unfold State.scrub
  try dsimp only
  repeat' first
    | intro _
    | with_reducible assumption
    | (with_reducible apply State.each_inv)
    | with_reducible apply State.freeAllocs_inv
    | with_reducible apply State.zeroGroup_inv
    | with_reducible apply State.resetJetOf_inv
    | with_reducible apply State.setKey_inv
    | (with_reducible apply getD_inv)
    | with_reducible apply ite_inv
    | with_reducible apply foldl_inv
    | (fail_if_no_progress with_reducible refine mk_same ?_ rfl rfl rfl rfl rfl rfl rfl rfl)
    | split

theorem doResourceScrubDone_inv {s : State} {a1} (h : s.Inv) : (doResourceScrubDone a1 s).Inv := by
  unfold doResourceScrubDone
  try dsimp only
  repeat' first
    | intro _
    | with_reducible assumption
    | with_reducible apply State.writeGates_inv
    | with_reducible apply State.scrub_inv
    | with_reducible apply ite_inv
    | with_reducible apply foldl_inv
    | (fail_if_no_progress with_reducible refine mk_same ?_ rfl rfl rfl rfl rfl rfl rfl rfl)

theorem execResourceScrubDone_inv {s : State} {a1} (h : s.Inv) : OutInv (execResourceScrubDone a1 s) := by
  unfold execResourceScrubDone
  repeat' first
    | (with_reducible refine run_inv (fun _ _ => ?_) ?_)
    | intro _
    | with_reducible assumption
    | with_reducible apply doResourceScrubDone_inv

theorem pwrCfgReset_rsvd (b : BitVec 8) : pwrCfgReset b &&& ~~~pwrMask = 0#64 := by
  unfold pwrCfgReset binLimits
  split
  · decide
  · split <;> decide

theorem State.afterFull_inv {s : State} {a1} (h : s.Inv) : (s.afterFull a1).Inv :=
  ⟨h.mem, Nat.zero_le 7, Nat.zero_le 5, Nat.zero_le 40, pwrCfgReset_rsvd s.fuses.bin, by show fltCtlReset &&& _ = _; decide,
    Nat.zero_lt_succ 31, Nat.zero_lt_succ 16⟩

theorem State.afterRetain_inv {s : State} {a1} (h : s.Inv) : (s.afterRetain a1).Inv :=
  have h1 := State.afterFull_inv (a1 := a1) h
  ⟨h1.mem, Nat.zero_le 7, Nat.zero_le 5, h1.level, h1.pwrCfg, by show fltCtlReset &&& _ = _; decide, h.hist, h1.turn⟩

theorem State.cancelParked_inv {s : State} {a1} (h : s.Inv) : (State.cancelParked s a1).Inv := by
  unfold State.cancelParked
  try dsimp only
  repeat' first
    | intro _
    | with_reducible assumption
    | with_reducible apply State.unpark_inv
    | with_reducible apply ite_inv
    | with_reducible apply foldl_inv
    | (fail_if_no_progress with_reducible refine mk_same ?_ rfl rfl rfl rfl rfl rfl rfl rfl)

theorem State.clearPart_inv {s : State} {a1} (h : s.Inv) : (State.clearPart s a1).Inv := by
  unfold State.clearPart
  try dsimp only
  repeat' first
    | intro _
    | with_reducible assumption
    | with_reducible apply State.dropProvs_inv
    | with_reducible apply State.each_inv
    | with_reducible apply State.updPage_inv
    | with_reducible apply State.abandonMigr_inv
    | with_reducible apply State.updPart_inv

theorem State.resetJets_inv {s : State} {a1} (h : s.Inv) : (State.resetJets s a1).Inv := by
  unfold State.resetJets
  try dsimp only
  repeat' first
    | intro _
    | with_reducible assumption
    | (with_reducible apply State.each_inv)
    | with_reducible apply State.resetJetOf_inv
    | with_reducible apply ite_inv
    | with_reducible apply foldl_inv
    | (fail_if_no_progress with_reducible refine mk_same ?_ rfl rfl rfl rfl rfl rfl rfl rfl)

theorem State.dropOpens_inv {s : State} {a1} (h : s.Inv) : (State.dropOpens s a1).Inv := by
  unfold State.dropOpens
  try dsimp only
  repeat' first
    | intro _
    | with_reducible assumption
    | with_reducible apply State.each_inv
    | with_reducible apply State.dropOpen_inv

theorem State.cancelRequests_inv {s : State} {a1} (h : s.Inv) : (State.cancelRequests s a1).Inv := by
  unfold State.cancelRequests
  try dsimp only
  repeat' first
    | intro _
    | with_reducible assumption
    | with_reducible apply State.each_inv
    | with_reducible apply State.endReq_inv
    | with_reducible apply State.refuseLanded_inv
    | with_reducible apply State.settleForward_inv

theorem State.beginPartReset_inv {s : State} {a1} (h : s.Inv) : (State.beginPartReset s a1).Inv := by
  unfold State.beginPartReset
  try dsimp only
  repeat' first
    | intro _
    | with_reducible assumption
    | with_reducible apply State.cancelParked_inv
    | with_reducible apply State.clearPart_inv
    | with_reducible apply State.resetJets_inv
    | with_reducible apply State.dropOpens_inv
    | with_reducible apply State.cancelRequests_inv
    | with_reducible apply ite_inv
    | with_reducible apply foldl_inv
    | (fail_if_no_progress with_reducible refine mk_same ?_ rfl rfl rfl rfl rfl rfl rfl rfl)

theorem State.clearFirst_inv {s : State} (h : s.Inv) : (State.clearFirst s).Inv := by
  unfold State.clearFirst
  try dsimp only
  repeat' first
    | intro _
    | with_reducible assumption
    | with_reducible apply ite_inv
    | with_reducible apply foldl_inv
    | (fail_if_no_progress with_reducible refine mk_same ?_ rfl rfl rfl rfl rfl rfl rfl rfl)

theorem State.clearHist_inv {s : State} (h : s.Inv) : s.clearHist.Inv :=
  ⟨h.mem, h.stage, h.twin, h.level, h.pwrCfg, h.fltCtl, Nat.zero_lt_succ 31, h.turn⟩

theorem State.closeHostQueues_inv {s : State} (h : s.Inv) : (State.closeHostQueues s).Inv := by
  unfold State.closeHostQueues
  try dsimp only
  repeat' first
    | intro _
    | with_reducible assumption
    | with_reducible apply ite_inv
    | with_reducible apply foldl_inv
    | (fail_if_no_progress with_reducible refine mk_same ?_ rfl rfl rfl rfl rfl rfl rfl rfl)

theorem State.containWhere_inv {s : State} {a1} (h : s.Inv) : (State.containWhere s a1).Inv := by
  unfold State.containWhere
  try dsimp only
  repeat' first
    | intro _
    | with_reducible assumption
    | with_reducible apply State.each_inv
    | with_reducible apply State.containPage_inv

theorem State.nodeReset_inv {s : State} {a1 a2} (h : s.Inv) : (State.nodeReset s a1 a2).Inv := by
  unfold State.nodeReset
  try dsimp only
  repeat' first
    | intro _
    | with_reducible assumption
    | with_reducible apply State.afterFull_inv
    | with_reducible apply State.afterRetain_inv
    | with_reducible apply ite_inv
    | with_reducible apply foldl_inv
    | (fail_if_no_progress with_reducible refine mk_same ?_ rfl rfl rfl rfl rfl rfl rfl rfl)
    | split

theorem State.restoreGates_inv {s : State} (h : s.Inv) : (State.restoreGates s).Inv := by
  unfold State.restoreGates
  try dsimp only
  repeat' first
    | intro _
    | with_reducible assumption
    | with_reducible apply State.each_inv
    | with_reducible apply State.writeGates_inv

theorem State.restoreImage_inv {s : State} (h : s.Inv) : (State.restoreImage s).Inv := by
  unfold State.restoreImage
  try dsimp only
  repeat' first
    | intro _
    | with_reducible assumption
    | with_reducible apply State.nodeReset_inv
    | with_reducible apply State.restoreGates_inv
    | with_reducible apply ite_inv
    | with_reducible apply foldl_inv
    | (fail_if_no_progress with_reducible refine mk_same ?_ rfl rfl rfl rfl rfl rfl rfl rfl)
    | split

theorem State.endStep3_inv {s : State} (h : s.Inv) : (State.endStep3 s).Inv := by
  unfold State.endStep3
  try dsimp only
  repeat' first
    | intro _
    | with_reducible assumption
    | with_reducible apply State.restoreImage_inv
    | (refine State.toStage_inv (by decide) ?_)
    | with_reducible apply ite_inv
    | with_reducible apply foldl_inv
    | (fail_if_no_progress with_reducible refine mk_same ?_ rfl rfl rfl rfl rfl rfl rfl rfl)

theorem State.endStep4_inv {s : State} (h : s.Inv) : (State.endStep4 s).Inv := by
  unfold State.endStep4
  try dsimp only
  repeat' first
    | intro _
    | with_reducible assumption
    | (refine State.toStage_inv (by decide) ?_)
    | with_reducible apply ite_inv

theorem State.fatal_inv {s : State} {a1 a2 a3} (h : s.Inv) : (State.fatal s a1 a2 a3).Inv := by
  unfold State.fatal
  try dsimp only
  repeat' first
    | intro _
    | with_reducible assumption
    | with_reducible apply State.fault_inv
    | with_reducible apply State.nodeReset_inv
    | (refine State.toStage_inv (by decide) ?_)
    | with_reducible apply ite_inv
    | with_reducible apply foldl_inv
    | (fail_if_no_progress with_reducible refine mk_same ?_ rfl rfl rfl rfl rfl rfl rfl rfl)

theorem State.functionReset_inv {s : State} (h : s.Inv) : (State.functionReset s).Inv := by
  unfold State.functionReset
  try dsimp only
  repeat' first
    | intro _
    | with_reducible assumption
    | with_reducible apply State.closeHostQueues_inv
    | with_reducible apply State.each_inv
    | with_reducible apply State.endReq_inv
    | with_reducible apply State.unpark_inv
    | with_reducible apply ite_inv
    | with_reducible apply foldl_inv
    | (fail_if_no_progress with_reducible refine mk_same ?_ rfl rfl rfl rfl rfl rfl rfl rfl)

theorem State.laneTested_inv {s : State} {a1 a2 a3} (h : s.Inv) : (State.laneTested s a1 a2 a3).Inv := by
  unfold State.laneTested
  try dsimp only
  repeat' first
    | intro _
    | with_reducible assumption
    | with_reducible apply State.sparedIn_inv
    | with_reducible apply ite_inv
    | with_reducible apply foldl_inv
    | (fail_if_no_progress with_reducible refine mk_same ?_ rfl rfl rfl rfl rfl rfl rfl rfl)

theorem State.takeSpareRow_inv {s : State} {a1} (h : s.Inv) : ∀ t, (State.takeSpareRow s a1) = some t → State.Inv t := by
  intro t he
  unfold State.takeSpareRow at he
  try dsimp only at he
  repeat' first
    | (cases he; done)
    | split at he
    | contradiction
    | cases he
    | intro _
    | with_reducible assumption
    | with_reducible apply State.sparedIn_inv
    | with_reducible apply ite_inv
    | with_reducible apply foldl_inv
    | (fail_if_no_progress with_reducible refine mk_same ?_ rfl rfl rfl rfl rfl rfl rfl rfl)

theorem State.loseChannel_inv {s : State} {a1} (h : s.Inv) : (State.loseChannel s a1).Inv := by
  unfold State.loseChannel
  try dsimp only
  repeat' first
    | intro _
    | with_reducible assumption
    | with_reducible apply State.fault_inv
    | with_reducible apply State.containWhere_inv
    | with_reducible apply ite_inv
    | with_reducible apply foldl_inv
    | (fail_if_no_progress with_reducible refine mk_same ?_ rfl rfl rfl rfl rfl rfl rfl rfl)

theorem State.portOut_inv {s : State} {a1 a2} (h : s.Inv) : (State.portOut s a1 a2).Inv := by
  unfold State.portOut
  try dsimp only
  repeat' first
    | intro _
    | with_reducible assumption
    | with_reducible apply State.spareEvent_inv
    | with_reducible apply State.linkLost_inv
    | with_reducible apply ite_inv
    | with_reducible apply foldl_inv
    | (fail_if_no_progress with_reducible refine mk_same ?_ rfl rfl rfl rfl rfl rfl rfl rfl)

theorem State.loseArray_inv {s : State} {a1} (h : s.Inv) : (State.loseArray s a1).Inv := by
  unfold State.loseArray
  try dsimp only
  repeat' first
    | intro _
    | with_reducible assumption
    | with_reducible apply State.spareEvent_inv
    | with_reducible apply State.sparedIn_inv
    | with_reducible apply ite_inv
    | with_reducible apply foldl_inv
    | (fail_if_no_progress with_reducible refine mk_same ?_ rfl rfl rfl rfl rfl rfl rfl rfl)
    | split

theorem State.lastingAt_inv {s : State} {a1} (h : s.Inv) : (State.lastingAt s a1).Inv := by
  unfold State.lastingAt
  try dsimp only
  repeat' first
    | intro _
    | with_reducible assumption
    | (refine State.takeSpareRow_inv ?_ _ (by with_reducible assumption))
    | (with_reducible refine State.takeSpareRow_inv ?_ _ rfl)
    | with_reducible apply State.isolateJet_inv
    | with_reducible apply State.sparedIn_inv
    | with_reducible apply State.loseChannel_inv
    | with_reducible apply State.spareEvent_inv
    | with_reducible apply State.laneTested_inv
    | with_reducible apply State.portOut_inv
    | with_reducible apply State.loseSubBank_inv
    | with_reducible apply State.loseArray_inv
    | (with_reducible apply getD_inv)
    | with_reducible apply ite_inv
    | with_reducible apply foldl_inv
    | (fail_if_no_progress with_reducible refine mk_same ?_ rfl rfl rfl rfl rfl rfl rfl rfl)
    | split

theorem State.mapPair_inv {s : State} {a1 a2} (h : s.Inv) : (State.mapPair s a1 a2).Inv := by
  unfold State.mapPair
  try dsimp only
  repeat' first
    | intro _
    | with_reducible assumption
    | with_reducible apply State.sparedIn_inv
    | with_reducible apply ite_inv
    | with_reducible apply foldl_inv
    | (fail_if_no_progress with_reducible refine mk_same ?_ rfl rfl rfl rfl rfl rfl rfl rfl)

theorem State.nextSparePair_inv {s : State} {a1 a2} (h : s.Inv) : ∀ x t, (State.nextSparePair s a1 a2) = (x, t) → State.Inv t := by
  intro x t he
  unfold State.nextSparePair at he
  try dsimp only at he
  repeat' first
    | (cases he; done)
    | split at he
    | contradiction
    | cases he
    | intro _
    | with_reducible assumption
    | with_reducible apply ite_inv
    | with_reducible apply foldl_inv
    | (fail_if_no_progress with_reducible refine mk_same ?_ rfl rfl rfl rfl rfl rfl rfl rfl)

theorem State.openEpoch_inv {s : State} (h : s.Inv) : (State.openEpoch s).Inv := by
  unfold State.openEpoch
  try dsimp only
  repeat' first
    | intro _
    | with_reducible assumption
    | with_reducible apply State.each_inv
    | with_reducible apply State.applyItems_inv
    | with_reducible apply State.reopen_inv
    | with_reducible apply doEpochDrainEnd_inv
    | with_reducible apply ite_inv
    | with_reducible apply foldl_inv
    | (fail_if_no_progress with_reducible refine mk_same ?_ rfl rfl rfl rfl rfl rfl rfl rfl)

theorem State.openWeirs_inv {s : State} (h : s.Inv) : (State.openWeirs s).Inv := by
  unfold State.openWeirs
  try dsimp only
  repeat' first
    | intro _
    | with_reducible assumption
    | with_reducible apply State.each_inv
    | with_reducible apply State.updPort_inv

theorem State.rebuildPage_inv {s : State} {a1 a2 a3} (h : s.Inv) : (State.rebuildPage s a1 a2 a3).Inv := by
  unfold State.rebuildPage
  try dsimp only
  repeat' first
    | intro _
    | with_reducible assumption
    | with_reducible apply State.updPage_inv
    | with_reducible apply State.failPage_inv
    | with_reducible apply ite_inv
    | with_reducible apply foldl_inv
    | (fail_if_no_progress with_reducible refine mk_same ?_ rfl rfl rfl rfl rfl rfl rfl rfl)
    | split

theorem State.rebuildPages_inv {s : State} (h : s.Inv) : (State.rebuildPages s).Inv := by
  unfold State.rebuildPages
  try dsimp only
  repeat' first
    | intro _
    | with_reducible assumption
    | with_reducible apply State.each_inv
    | with_reducible apply State.rebuildPage_inv

theorem State.retirePair_inv {s : State} {a1} (h : s.Inv) : (State.retirePair s a1).Inv := by
  unfold State.retirePair
  try dsimp only
  repeat' first
    | intro _
    | with_reducible assumption
    | with_reducible apply State.spareEvent_inv
    | with_reducible apply State.containWhere_inv
    | with_reducible apply ite_inv
    | with_reducible apply foldl_inv
    | (fail_if_no_progress with_reducible refine mk_same ?_ rfl rfl rfl rfl rfl rfl rfl rfl)

theorem State.retrainPort_inv {s : State} {a1} (h : s.Inv) : (State.retrainPort s a1).Inv := by
  unfold State.retrainPort
  try dsimp only
  repeat' first
    | intro _
    | with_reducible assumption
    | with_reducible apply ite_inv
    | with_reducible apply foldl_inv
    | (fail_if_no_progress with_reducible refine mk_same ?_ rfl rfl rfl rfl rfl rfl rfl rfl)

theorem State.retrainWhole_inv {s : State} {a1} (h : s.Inv) : (State.retrainWhole s a1).Inv := by
  unfold State.retrainWhole
  try dsimp only
  repeat' first
    | intro _
    | with_reducible assumption
    | with_reducible apply State.retrainPort_inv
    | with_reducible apply State.linkLost_inv

theorem doNodeReset_inv {s : State} {a1} (h : s.Inv) : (doNodeReset a1 s).Inv := by
  unfold doNodeReset
  try dsimp only
  repeat' first
    | intro _
    | with_reducible assumption
    | with_reducible apply State.agtan_inv
    | with_reducible apply State.respond_inv
    | with_reducible apply ite_inv
    | with_reducible apply foldl_inv
    | (fail_if_no_progress with_reducible refine mk_same ?_ rfl rfl rfl rfl rfl rfl rfl rfl)

theorem doPartitionReset_inv {s : State} {a1} (h : s.Inv) : (doPartitionReset a1 s).Inv := by
  unfold doPartitionReset
  try dsimp only
  repeat' first
    | intro _
    | with_reducible assumption
    | with_reducible apply State.agtan_inv
    | with_reducible apply State.beginPartReset_inv
    | with_reducible apply State.park_inv
    | with_reducible apply ite_inv
    | with_reducible apply foldl_inv
    | (fail_if_no_progress with_reducible refine mk_same ?_ rfl rfl rfl rfl rfl rfl rfl rfl)
    | split
    | (exact State.respond_inv h)

theorem State.swapLane_inv {s : State} {a1 a2} (h : s.Inv) : (State.swapLane s a1 a2).Inv := by
  unfold State.swapLane
  try dsimp only
  repeat' first
    | intro _
    | with_reducible assumption
    | with_reducible apply State.countPort_inv
    | with_reducible apply ite_inv
    | with_reducible apply foldl_inv
    | (fail_if_no_progress with_reducible refine mk_same ?_ rfl rfl rfl rfl rfl rfl rfl rfl)

theorem doLaneRetrain_inv {s : State} {a1} (h : s.Inv) : (doLaneRetrain a1 s).Inv := by
  unfold doLaneRetrain
  try dsimp only
  repeat' first
    | intro _
    | with_reducible assumption
    | with_reducible apply State.agtan_inv
    | with_reducible apply State.respond_inv
    | with_reducible apply State.swapLane_inv
    | with_reducible apply State.retrainWhole_inv
    | with_reducible apply ite_inv

theorem State.runImage_inv {s : State} {a1 a2} (h : s.Inv) : (State.runImage s a1 a2).Inv := by
  unfold State.runImage
  try dsimp only
  repeat' first
    | intro _
    | with_reducible assumption
    | (refine State.toStage_inv (by decide) ?_)
    | with_reducible apply ite_inv
    | with_reducible apply foldl_inv
    | (fail_if_no_progress with_reducible refine mk_same ?_ rfl rfl rfl rfl rfl rfl rfl rfl)

theorem State.scrubPart_inv {s : State} {a1} (h : s.Inv) : (State.scrubPart s a1).Inv := by
  unfold State.scrubPart
  try dsimp only
  repeat' first
    | intro _
    | with_reducible assumption
    | (with_reducible apply State.each_inv)
    | with_reducible apply State.zeroGroup_inv
    | with_reducible apply State.freeAllocs_inv
    | with_reducible apply State.updPart_inv
    | with_reducible apply ite_inv
    | with_reducible apply foldl_inv
    | (fail_if_no_progress with_reducible refine mk_same ?_ rfl rfl rfl rfl rfl rfl rfl rfl)

theorem State.spareBadRows_inv {s : State} {a1 a2 a3} (h : s.Inv) : (State.spareBadRows s a1 a2 a3).Inv := by
  unfold State.spareBadRows
  try dsimp only
  repeat' first
    | intro _
    | with_reducible assumption
    | with_reducible apply State.each_inv
    | (refine State.takeSpareRow_inv ?_ _ (by with_reducible assumption))
    | (with_reducible refine State.takeSpareRow_inv ?_ _ rfl)
    | (refine State.nextSparePair_inv ?_ _ _ (by with_reducible assumption))
    | (with_reducible refine State.nextSparePair_inv ?_ _ _ rfl)
    | with_reducible apply State.mapPair_inv
    | with_reducible apply State.retirePair_inv
    | with_reducible apply ite_inv
    | with_reducible apply foldl_inv
    | (fail_if_no_progress with_reducible refine mk_same ?_ rfl rfl rfl rfl rfl rfl rfl rfl)
    | split
    | (refine getD_inv (fun _ _ => ?_) ?_)

theorem State.transientAt_inv {s : State} {a1} (h : s.Inv) : (State.transientAt s a1).Inv := by
  unfold State.transientAt
  try dsimp only
  repeat' first
    | intro _
    | with_reducible assumption
    | with_reducible apply State.laneTested_inv
    | with_reducible apply State.retrainPort_inv
    | with_reducible apply State.resetJet_inv
    | with_reducible apply ite_inv
    | with_reducible apply foldl_inv
    | (fail_if_no_progress with_reducible refine mk_same ?_ rfl rfl rfl rfl rfl rfl rfl rfl)
    | split

theorem Flt.judge_ctl (f : Flt) (x : TestRun) (v : Nat) : (f.judge x v).ctl = f.ctl ∧ (f.judge x v).next = f.next := by
  unfold Flt.judge
  split
  · split <;> exact ⟨rfl, rfl⟩
  · exact ⟨rfl, rfl⟩

theorem State.verdict_inv {s : State} {a1 a2} (h : s.Inv) : (s.verdict a1 a2).Inv := by
  unfold State.verdict
  dsimp only
  refine ite_inv (State.lastingAt_inv (State.count_inv ?_)) (State.transientAt_inv (State.count_inv ?_))
  all_goals
    refine ⟨h.mem, h.stage, h.twin, h.level, h.pwrCfg, ?_, ?_, h.turn⟩
    · show (Flt.judge _ _ _).ctl &&& _ = _
      rw [(Flt.judge_ctl _ _ _).1]; exact h.fltCtl
    · show (Flt.judge _ _ _).next < 32
      rw [(Flt.judge_ctl _ _ _).2]; exact h.hist

theorem State.zeroChannel_inv {s : State} {a1} (h : s.Inv) : State.Inv (State.zeroChannel s a1) := by
  exact inv_mem h (Memory.clear_wf (p := fun a => grainChannel (a / 512) == a1) h.mem) rfl rfl rfl rfl rfl rfl rfl

theorem doAvsbusNoAck_inv {s : State} (h : s.Inv) : (doAvsbusNoAck s).Inv := by
  unfold doAvsbusNoAck
  try dsimp only
  repeat' first
    | intro _
    | with_reducible assumption
    | with_reducible apply ite_inv
    | with_reducible apply foldl_inv
    | (fail_if_no_progress with_reducible refine mk_same ?_ rfl rfl rfl rfl rfl rfl rfl rfl)

theorem doChannelTrainingDone_inv {s : State} {a1 a2} (h : s.Inv) : (doChannelTrainingDone a1 a2 s).Inv := by
  unfold doChannelTrainingDone
  try dsimp only
  repeat' first
    | intro _
    | with_reducible assumption
    | with_reducible apply State.endStep3_inv
    | with_reducible apply State.loseChannel_inv
    | with_reducible apply ite_inv
    | with_reducible apply foldl_inv
    | (fail_if_no_progress with_reducible refine mk_same ?_ rfl rfl rfl rfl rfl rfl rfl rfl)

theorem doClockAbsent_inv {s : State} {a1} (h : s.Inv) : (doClockAbsent a1 s).Inv := by
  unfold doClockAbsent
  dsimp only
  have h0 : State.Inv { s with pins := s.pins.withClock a1 false } := mk_same h rfl rfl rfl rfl rfl rfl rfl rfl
  generalize ({ s with pins := s.pins.withClock a1 false } : State) = t at h0
  have h1 : t.functionReset.Inv := State.functionReset_inv h0
  generalize t.functionReset = u at h1
  have h2 : t.toFailed 2 |>.Inv := State.toFailed_inv h0
  have h3 : (t.each (halfPorts a1) State.linkLost).Inv := State.each_inv (fun _ _ hx => State.linkLost_inv hx) h0
  have h4 : State.Inv { u with boot := { u.boot with pcieUp := false } } := mk_same h1 rfl rfl rfl rfl rfl rfl rfl rfl
  exact ite_inv h0 (ite_inv h2 (ite_inv h0 (ite_inv h4 h3)))

theorem doClockReturn_inv {s : State} {a1} (h : s.Inv) : (doClockReturn a1 s).Inv := by
  unfold doClockReturn
  try dsimp only
  repeat' first
    | intro _
    | with_reducible assumption
    | with_reducible apply State.each_inv
    | with_reducible apply State.retrainPort_inv
    | with_reducible apply ite_inv
    | with_reducible apply foldl_inv
    | (fail_if_no_progress with_reducible refine mk_same ?_ rfl rfl rfl rfl rfl rfl rfl rfl)

theorem doClocksLocked_inv {s : State} (h : s.Inv) : (doClocksLocked s).Inv := by
  unfold doClocksLocked
  try dsimp only
  repeat' first
    | intro _
    | with_reducible assumption
    | (refine State.toStage_inv (by decide) ?_)
    | with_reducible apply State.toFailed_inv
    | with_reducible apply ite_inv
    | with_reducible apply foldl_inv
    | (fail_if_no_progress with_reducible refine mk_same ?_ rfl rfl rfl rfl rfl rfl rfl rfl)

theorem doComputeStageDone_inv {s : State} {a1 a2} (h : s.Inv) : (doComputeStageDone a1 a2 s).Inv := by
  unfold doComputeStageDone
  try dsimp only
  repeat' first
    | intro _
    | with_reducible assumption
    | with_reducible apply State.each_inv
    | with_reducible apply State.failJet_inv
    | with_reducible apply State.loseArray_inv
    | with_reducible apply ite_inv
    | with_reducible apply foldl_inv
    | (fail_if_no_progress with_reducible refine mk_same ?_ rfl rfl rfl rfl rfl rfl rfl rfl)

theorem doDramHot_inv {s : State} {a1 a2} (h : s.Inv) : (doDramHot a1 a2 s).Inv := by
  unfold doDramHot
  try dsimp only
  repeat' first
    | intro _
    | with_reducible assumption
    | with_reducible apply ite_inv
    | with_reducible apply foldl_inv
    | (fail_if_no_progress with_reducible refine mk_same ?_ rfl rfl rfl rfl rfl rfl rfl rfl)

theorem doFatalEvent_inv {s : State} {a1 a2} (h : s.Inv) : (doFatalEvent a1 a2 s).Inv := by
  unfold doFatalEvent
  try dsimp only
  repeat' first
    | intro _
    | with_reducible assumption
    | with_reducible apply State.fatal_inv
    | with_reducible apply ite_inv

theorem doFirmwareVerify_inv {s : State} {a1 a2} (h : s.Inv) : (doFirmwareVerify a1 a2 s).Inv := by
  unfold doFirmwareVerify
  try dsimp only
  repeat' first
    | intro _
    | with_reducible assumption
    | with_reducible apply State.runImage_inv
    | with_reducible apply State.toFailed_inv
    | with_reducible apply ite_inv

theorem doJetReset_inv {s : State} {a1 a2} (h : s.Inv) : (doJetReset a1 a2 s).Inv := by
  unfold doJetReset
  try dsimp only
  repeat' first
    | intro _
    | with_reducible assumption
    | with_reducible apply State.resetJet_inv
    | with_reducible apply ite_inv

theorem doLaneDegrade_inv {s : State} {a1 a2} (h : s.Inv) : (doLaneDegrade a1 a2 s).Inv := by
  unfold doLaneDegrade
  try dsimp only
  repeat' first
    | intro _
    | with_reducible assumption
    | with_reducible apply State.fault_inv
    | with_reducible apply State.retrainWhole_inv
    | with_reducible apply State.swapLane_inv
    | with_reducible apply ite_inv

theorem doLaneRetrainDone_inv {s : State} {a1 a2 a3} (h : s.Inv) : (doLaneRetrainDone a1 a2 a3 s).Inv := by
  unfold doLaneRetrainDone
  try dsimp only
  repeat' first
    | intro _
    | with_reducible assumption
    | with_reducible apply State.verdict_inv
    | with_reducible apply State.laneTested_inv
    | with_reducible apply ite_inv
    | with_reducible apply foldl_inv
    | (fail_if_no_progress with_reducible refine mk_same ?_ rfl rfl rfl rfl rfl rfl rfl rfl)
    | split

theorem doLaneRetryTimer_inv {s : State} {a1} (h : s.Inv) : (doLaneRetryTimer a1 s).Inv := by
  unfold doLaneRetryTimer
  try dsimp only
  repeat' first
    | intro _
    | with_reducible assumption
    | with_reducible apply State.retrainPort_inv
    | with_reducible apply ite_inv

theorem doLaneTrainingDone_inv {s : State} {a1 a2 a3} (h : s.Inv) : (doLaneTrainingDone a1 a2 a3 s).Inv := by
  unfold doLaneTrainingDone
  try dsimp only
  repeat' first
    | intro _
    | with_reducible assumption
    | with_reducible apply State.endStep4_inv
    | with_reducible apply State.updPort_inv
    | with_reducible apply State.linkCameUp_inv
    | with_reducible apply ite_inv
    | with_reducible apply foldl_inv
    | (fail_if_no_progress with_reducible refine mk_same ?_ rfl rfl rfl rfl rfl rfl rfl rfl)

theorem doMasterLost_inv {s : State} (h : s.Inv) : (doMasterLost s).Inv := by
  unfold doMasterLost
  try dsimp only
  repeat' first
    | intro _
    | with_reducible assumption
    | with_reducible apply ite_inv
    | with_reducible apply foldl_inv
    | (fail_if_no_progress with_reducible refine mk_same ?_ rfl rfl rfl rfl rfl rfl rfl rfl)

theorem doMemoryTestDone_inv {s : State} {a1 a2} (h : s.Inv) : (doMemoryTestDone a1 a2 s).Inv := by
  unfold doMemoryTestDone
  try dsimp only
  repeat' first
    | intro _
    | with_reducible assumption
    | with_reducible apply State.zeroChannel_inv
    | with_reducible apply State.each_inv
    | with_reducible apply State.spareBadRows_inv
    | with_reducible apply State.endStep3_inv
    | with_reducible apply ite_inv
    | with_reducible apply foldl_inv
    | (fail_if_no_progress with_reducible refine mk_same ?_ rfl rfl rfl rfl rfl rfl rfl rfl)

theorem doNodeResetDelayExpiry_inv {s : State} (h : s.Inv) : (doNodeResetDelayExpiry s).Inv := by
  unfold doNodeResetDelayExpiry
  try dsimp only
  repeat' first
    | intro _
    | with_reducible assumption
    | with_reducible apply State.nodeReset_inv
    | with_reducible apply ite_inv
    | with_reducible apply foldl_inv
    | (fail_if_no_progress with_reducible refine mk_same ?_ rfl rfl rfl rfl rfl rfl rfl rfl)
    | split

theorem doPairSpareSwitch_inv {s : State} {a1 a2} (h : s.Inv) : (doPairSpareSwitch a1 a2 s).Inv := by
  unfold doPairSpareSwitch
  try dsimp only
  repeat' first
    | intro _
    | with_reducible assumption
    | with_reducible apply State.setJet_inv
    | with_reducible apply State.mapPair_inv
    | with_reducible apply State.placeCmds_inv
    | with_reducible apply ite_inv
    | with_reducible apply foldl_inv
    | (fail_if_no_progress with_reducible refine mk_same ?_ rfl rfl rfl rfl rfl rfl rfl rfl)
    | split

theorem doPairSparing_inv {s : State} {a1 a2 a3 a4} (h : s.Inv) : (doPairSparing a1 a2 a3 a4 s).Inv := by
  unfold doPairSparing
  try dsimp only
  repeat' first
    | intro _
    | with_reducible assumption
    | (with_reducible apply State.each_inv)
    | (refine State.nextSparePair_inv ?_ _ _ (by with_reducible assumption))
    | (with_reducible refine State.nextSparePair_inv ?_ _ _ rfl)
    | with_reducible apply State.retirePair_inv
    | with_reducible apply State.noteCorrected_inv
    | with_reducible apply State.failGrain_inv
    | with_reducible apply State.spareHeader_inv
    | (with_reducible apply getD_inv)
    | with_reducible apply ite_inv
    | with_reducible apply foldl_inv
    | (fail_if_no_progress with_reducible refine mk_same ?_ rfl rfl rfl rfl rfl rfl rfl rfl)
    | split

theorem doPartitionResetEnd_inv {s : State} {a1} (h : s.Inv) : (doPartitionResetEnd a1 s).Inv := by
  unfold doPartitionResetEnd
  try dsimp only
  repeat' first
    | intro _
    | with_reducible assumption
    | with_reducible apply State.each_inv
    | with_reducible apply State.setKey_inv
    | with_reducible apply State.unpark_inv
    | with_reducible apply State.scrubPart_inv
    | with_reducible apply ite_inv
    | with_reducible apply foldl_inv
    | (fail_if_no_progress with_reducible refine mk_same ?_ rfl rfl rfl rfl rfl rfl rfl rfl)

theorem doPcieConfigRequest_inv {s : State} (h : s.Inv) : (doPcieConfigRequest s).Inv := by
  unfold doPcieConfigRequest
  try dsimp only
  repeat' first
    | intro _
    | with_reducible assumption
    | with_reducible apply State.emit_inv
    | with_reducible apply ite_inv

theorem doPerst_inv {s : State} (h : s.Inv) : (doPerst s).Inv := by
  unfold doPerst
  try dsimp only
  repeat' first
    | intro _
    | with_reducible assumption
    | with_reducible apply State.functionReset_inv
    | with_reducible apply ite_inv

theorem doPowerOn_inv {s : State} {a1} (h : s.Inv) : (doPowerOn a1 s).Inv := by
  unfold doPowerOn
  try dsimp only
  repeat' first
    | intro _
    | with_reducible assumption
    | with_reducible apply State.nodeReset_inv
    | with_reducible apply ite_inv
    | with_reducible apply foldl_inv
    | (fail_if_no_progress with_reducible refine mk_same ?_ rfl rfl rfl rfl rfl rfl rfl rfl)

theorem nextLevel_le {level p avg limit margin : Nat} {hot mayFall : Bool} (h : level ≤ 40) :
    nextLevel level p avg limit margin hot mayFall ≤ 40 := by
  unfold nextLevel; split
  · omega
  · split
    · omega
    · split <;> omega

theorem doPowerSample_inv {a1 a2 a3} {s : State} (h : s.Inv) : (doPowerSample a1 a2 a3 s).Inv := by
  unfold doPowerSample
  dsimp only
  refine ite_inv h ?_
  have h1 := ite_inv (c := (!s.tjHot && decide (s.tjStep < a2)) = true) (State.raiseIrq_inv (a1 := 2) h) h
  exact ⟨h1.mem, h1.stage, h1.twin, nextLevel_le h.level, h.pwrCfg, h1.fltCtl, h1.hist, h1.turn⟩

theorem doPpsInEdge_inv {s : State} (h : s.Inv) : (doPpsInEdge s).Inv := by
  unfold doPpsInEdge
  try dsimp only
  repeat' first
    | intro _
    | with_reducible assumption
    | with_reducible apply ite_inv
    | with_reducible apply foldl_inv
    | (fail_if_no_progress with_reducible refine mk_same ?_ rfl rfl rfl rfl rfl rfl rfl rfl)

theorem doPpsOutSecond_inv {s : State} (h : s.Inv) : (doPpsOutSecond s).Inv := by
  unfold doPpsOutSecond
  try dsimp only
  repeat' first
    | intro _
    | with_reducible assumption
    | with_reducible apply ite_inv
    | with_reducible apply foldl_inv
    | (fail_if_no_progress with_reducible refine mk_same ?_ rfl rfl rfl rfl rfl rfl rfl rfl)

theorem doPtpMessage_inv {s : State} {a1 a2} (h : s.Inv) : (doPtpMessage a1 a2 s).Inv := by
  unfold doPtpMessage
  try dsimp only
  repeat' first
    | intro _
    | with_reducible assumption
    | with_reducible apply State.announced_inv
    | with_reducible apply State.masterMessage_inv
    | with_reducible apply ite_inv
    | with_reducible apply foldl_inv
    | split

theorem doRailOutOfRange_inv {s : State} {a1 a2} (h : s.Inv) : (doRailOutOfRange a1 a2 s).Inv := by
  unfold doRailOutOfRange
  try dsimp only
  repeat' first
    | intro _
    | with_reducible assumption
    | with_reducible apply State.raiseIrq_inv
    | with_reducible apply ite_inv
    | with_reducible apply foldl_inv
    | (fail_if_no_progress with_reducible refine mk_same ?_ rfl rfl rfl rfl rfl rfl rfl rfl)

theorem doRailsRecovered_inv {s : State} {a1} (h : s.Inv) : (doRailsRecovered a1 s).Inv := by
  unfold doRailsRecovered
  try dsimp only
  repeat' first
    | intro _
    | with_reducible assumption
    | with_reducible apply State.nodeReset_inv
    | with_reducible apply ite_inv
    | with_reducible apply foldl_inv
    | (fail_if_no_progress with_reducible refine mk_same ?_ rfl rfl rfl rfl rfl rfl rfl rfl)

theorem doResetBall_inv {s : State} {a1} (h : s.Inv) : (doResetBall a1 s).Inv := by
  unfold doResetBall
  try dsimp only
  repeat' first
    | intro _
    | with_reducible assumption
    | with_reducible apply State.nodeReset_inv
    | with_reducible apply ite_inv

theorem doSelfTestVerdict_inv {s : State} {a1 a2} (h : s.Inv) : (doSelfTestVerdict a1 a2 s).Inv := by
  unfold doSelfTestVerdict
  try dsimp only
  repeat' first
    | intro _
    | with_reducible assumption
    | with_reducible apply State.verdict_inv
    | with_reducible apply ite_inv
    | with_reducible apply foldl_inv
    | split

theorem doServiceOpen_inv {s : State} (h : s.Inv) : (doServiceOpen s).Inv := by
  unfold doServiceOpen
  refine ite_inv h (State.toStage_inv (by decide) ?_)
  have h1 : State.Inv (if s.clk.locked then s else { s with clk := { s.clk with holdover := true, syncFault := true } }) :=
    ite_inv h (mk_same h rfl rfl rfl rfl rfl rfl rfl rfl)
  have h2 := State.openWeirs_inv (State.openEpoch_inv h1)
  generalize (if s.clk.locked then s else { s with clk := { s.clk with holdover := true, syncFault := true } }) = t at h2 ⊢
  have h3 := ite_inv (c := (t.openEpoch.openWeirs.boot.scope == .full || !t.ep.early.isEmpty) = true)
    (State.writeImage_inv h2) h2
  generalize (if (t.openEpoch.openWeirs.boot.scope == .full || !t.ep.early.isEmpty) = true
    then t.openEpoch.openWeirs.writeImage else t.openEpoch.openWeirs) = u at h3 ⊢
  have h4 := ite_inv (c := (u.boot.scope == .retain) = true) (State.rebuildPages_inv h3) h3
  refine ⟨h4.mem, h4.stage, ?_, h4.level, h4.pwrCfg, h4.fltCtl, h4.hist, h4.turn⟩
  show (if _ then twJoining else twUnpaired) ≤ 5
  repeat' split
  all_goals decide

theorem doStageOverrun_inv {s : State} (h : s.Inv) : (doStageOverrun s).Inv := by
  unfold doStageOverrun
  try dsimp only
  repeat' first
    | intro _
    | with_reducible assumption
    | (refine State.toStage_inv (by decide) ?_)
    | with_reducible apply State.nodeReset_inv
    | with_reducible apply State.toFailed_inv
    | with_reducible apply ite_inv
    | with_reducible apply foldl_inv
    | (fail_if_no_progress with_reducible refine mk_same ?_ rfl rfl rfl rfl rfl rfl rfl rfl)
    | split

theorem doThermalTrip_inv {s : State} {a1 a2} (h : s.Inv) : (doThermalTrip a1 a2 s).Inv := by
  unfold doThermalTrip
  try dsimp only
  repeat' first
    | intro _
    | with_reducible assumption
    | with_reducible apply ite_inv
    | with_reducible apply foldl_inv
    | (fail_if_no_progress with_reducible refine mk_same ?_ rfl rfl rfl rfl rfl rfl rfl rfl)

theorem doThermalTripRelease_inv {s : State} {a1 a2} (h : s.Inv) : (doThermalTripRelease a1 a2 s).Inv := by
  unfold doThermalTripRelease
  try dsimp only
  repeat' first
    | intro _
    | with_reducible assumption
    | with_reducible apply State.nodeReset_inv
    | with_reducible apply ite_inv

theorem doTsvFault_inv {s : State} {a1 a2 a3} (h : s.Inv) : (doTsvFault a1 a2 a3 s).Inv := by
  unfold doTsvFault
  try dsimp only
  repeat' first
    | intro _
    | with_reducible assumption
    | with_reducible apply State.fault_inv
    | with_reducible apply ite_inv

theorem doWatchdogExpiry_inv {s : State} (h : s.Inv) : (doWatchdogExpiry s).Inv := by
  unfold doWatchdogExpiry
  try dsimp only
  repeat' first
    | intro _
    | with_reducible assumption
    | with_reducible apply State.fatal_inv
    | with_reducible apply ite_inv

theorem execPowerOn_inv {s : State} {a1} (h : s.Inv) : OutInv (execPowerOn a1 s) := by
  unfold execPowerOn
  repeat' first
    | (with_reducible refine run_inv (fun _ _ => ?_) ?_)
    | intro _
    | with_reducible assumption
    | with_reducible apply doPowerOn_inv

theorem execResetBall_inv {s : State} {a1} (h : s.Inv) : OutInv (execResetBall a1 s) := by
  unfold execResetBall
  repeat' first
    | (with_reducible refine run_inv (fun _ _ => ?_) ?_)
    | intro _
    | with_reducible assumption
    | with_reducible apply doResetBall_inv

theorem execPerst_inv {s : State} (h : s.Inv) : OutInv (execPerst s) := by
  unfold execPerst
  repeat' first
    | (with_reducible refine run_inv (fun _ _ => ?_) ?_)
    | intro _
    | with_reducible assumption
    | with_reducible apply doPerst_inv

theorem execRailOutOfRange_inv {s : State} {a1 a2} (h : s.Inv) : OutInv (execRailOutOfRange a1 a2 s) := by
  unfold execRailOutOfRange
  repeat' first
    | (with_reducible refine run_inv (fun _ _ => ?_) ?_)
    | intro _
    | with_reducible assumption
    | with_reducible apply doRailOutOfRange_inv

theorem execRailsRecovered_inv {s : State} {a1} (h : s.Inv) : OutInv (execRailsRecovered a1 s) := by
  unfold execRailsRecovered
  repeat' first
    | (with_reducible refine run_inv (fun _ _ => ?_) ?_)
    | intro _
    | with_reducible assumption
    | with_reducible apply doRailsRecovered_inv

theorem execClockAbsent_inv {s : State} {a1} (h : s.Inv) : OutInv (execClockAbsent a1 s) := by
  unfold execClockAbsent
  repeat' first
    | (with_reducible refine run_inv (fun _ _ => ?_) ?_)
    | intro _
    | with_reducible assumption
    | with_reducible apply doClockAbsent_inv

theorem execThermalTrip_inv {s : State} {a1 a2} (h : s.Inv) : OutInv (execThermalTrip a1 a2 s) := by
  unfold execThermalTrip
  repeat' first
    | (with_reducible refine run_inv (fun _ _ => ?_) ?_)
    | intro _
    | with_reducible assumption
    | with_reducible apply doThermalTrip_inv

theorem execThermalTripRelease_inv {s : State} {a1 a2} (h : s.Inv) : OutInv (execThermalTripRelease a1 a2 s) := by
  unfold execThermalTripRelease
  repeat' first
    | (with_reducible refine run_inv (fun _ _ => ?_) ?_)
    | intro _
    | with_reducible assumption
    | with_reducible apply doThermalTripRelease_inv

theorem execDramHot_inv {s : State} {a1 a2} (h : s.Inv) : OutInv (execDramHot a1 a2 s) := by
  unfold execDramHot
  repeat' first
    | (with_reducible refine run_inv (fun _ _ => ?_) ?_)
    | intro _
    | with_reducible assumption
    | with_reducible apply doDramHot_inv

theorem execWatchdogExpiry_inv {s : State} {a1} (h : s.Inv) : OutInv (execWatchdogExpiry a1 s) := by
  unfold execWatchdogExpiry
  repeat' first
    | (with_reducible refine run_inv (fun _ _ => ?_) ?_)
    | intro _
    | with_reducible assumption
    | with_reducible apply State.upTo_inv
    | with_reducible apply doWatchdogExpiry_inv

theorem execFatalEvent_inv {s : State} {a1 a2 a3} (h : s.Inv) : OutInv (execFatalEvent a1 a2 a3 s) := by
  unfold execFatalEvent
  repeat' first
    | (with_reducible refine run_inv (fun _ _ => ?_) ?_)
    | intro _
    | with_reducible assumption
    | with_reducible apply State.upTo_inv
    | with_reducible apply doFatalEvent_inv

theorem execFirmwareVerify_inv {s : State} {a1 a2 a3} (h : s.Inv) : OutInv (execFirmwareVerify a1 a2 a3 s) := by
  unfold execFirmwareVerify
  repeat' first
    | (with_reducible refine run_inv (fun _ _ => ?_) ?_)
    | intro _
    | with_reducible assumption
    | with_reducible apply doFirmwareVerify_inv
    | with_reducible apply State.upTo_inv

theorem execClocksLocked_inv {s : State} {a1} (h : s.Inv) : OutInv (execClocksLocked a1 s) := by
  unfold execClocksLocked
  repeat' first
    | (with_reducible refine run_inv (fun _ _ => ?_) ?_)
    | intro _
    | with_reducible assumption
    | with_reducible apply doClocksLocked_inv
    | with_reducible apply State.upTo_inv

theorem execChannelTrainingDone_inv {s : State} {a1 a2} (h : s.Inv) : OutInv (execChannelTrainingDone a1 a2 s) := by
  unfold execChannelTrainingDone
  repeat' first
    | (with_reducible refine run_inv (fun _ _ => ?_) ?_)
    | intro _
    | with_reducible assumption
    | with_reducible apply doChannelTrainingDone_inv

theorem execMemoryTestDone_inv {s : State} {a1 a2} (h : s.Inv) : OutInv (execMemoryTestDone a1 a2 s) := by
  unfold execMemoryTestDone
  repeat' first
    | (with_reducible refine run_inv (fun _ _ => ?_) ?_)
    | intro _
    | with_reducible assumption
    | with_reducible apply doMemoryTestDone_inv

theorem execLaneTrainingDone_inv {s : State} {a1 a2 a3} (h : s.Inv) : OutInv (execLaneTrainingDone a1 a2 a3 s) := by
  unfold execLaneTrainingDone
  repeat' first
    | (with_reducible refine run_inv (fun _ _ => ?_) ?_)
    | intro _
    | with_reducible assumption
    | with_reducible apply doLaneTrainingDone_inv

theorem execLaneRetryTimer_inv {s : State} {a1 a2} (h : s.Inv) : OutInv (execLaneRetryTimer a1 a2 s) := by
  unfold execLaneRetryTimer
  repeat' first
    | (with_reducible refine run_inv (fun _ _ => ?_) ?_)
    | intro _
    | with_reducible assumption
    | with_reducible apply doLaneRetryTimer_inv
    | with_reducible apply State.upTo_inv

theorem execComputeStageDone_inv {s : State} {a1 a2 a3} (h : s.Inv) : OutInv (execComputeStageDone a1 a2 a3 s) := by
  unfold execComputeStageDone
  repeat' first
    | (with_reducible refine run_inv (fun _ _ => ?_) ?_)
    | intro _
    | with_reducible assumption
    | with_reducible apply doComputeStageDone_inv
    | with_reducible apply State.upTo_inv

theorem execStageOverrun_inv {s : State} {a1} (h : s.Inv) : OutInv (execStageOverrun a1 s) := by
  unfold execStageOverrun
  repeat' first
    | (with_reducible refine run_inv (fun _ _ => ?_) ?_)
    | intro _
    | with_reducible assumption
    | with_reducible apply doStageOverrun_inv
    | with_reducible apply State.upTo_inv

theorem execServiceOpen_inv {s : State} {a1} (h : s.Inv) : OutInv (execServiceOpen a1 s) := by
  unfold execServiceOpen
  repeat' first
    | (with_reducible refine run_inv (fun _ _ => ?_) ?_)
    | intro _
    | with_reducible assumption
    | with_reducible apply doServiceOpen_inv
    | with_reducible apply State.upTo_inv

theorem execPtpMessage_inv {s : State} {a1 a2} (h : s.Inv) : OutInv (execPtpMessage a1 a2 s) := by
  unfold execPtpMessage
  repeat' first
    | (with_reducible refine run_inv (fun _ _ => ?_) ?_)
    | intro _
    | with_reducible assumption
    | with_reducible apply doPtpMessage_inv

theorem execMasterLost_inv {s : State} (h : s.Inv) : OutInv (execMasterLost s) := by
  unfold execMasterLost
  repeat' first
    | (with_reducible refine run_inv (fun _ _ => ?_) ?_)
    | intro _
    | with_reducible assumption
    | with_reducible apply doMasterLost_inv

theorem execPpsInEdge_inv {s : State} (h : s.Inv) : OutInv (execPpsInEdge s) := by
  unfold execPpsInEdge
  repeat' first
    | (with_reducible refine run_inv (fun _ _ => ?_) ?_)
    | intro _
    | with_reducible assumption
    | with_reducible apply doPpsInEdge_inv

theorem execPpsOutSecond_inv {s : State} {a1} (h : s.Inv) : OutInv (execPpsOutSecond a1 s) := by
  unfold execPpsOutSecond
  repeat' first
    | (with_reducible refine run_inv (fun _ _ => ?_) ?_)
    | intro _
    | with_reducible assumption
    | with_reducible apply doPpsOutSecond_inv
    | with_reducible apply State.upTo_inv

theorem execPowerSample_inv {s : State} {a1 a2 a3 a4} (h : s.Inv) : OutInv (execPowerSample a1 a2 a3 a4 s) := by
  unfold execPowerSample
  repeat' first
    | (with_reducible refine run_inv (fun _ _ => ?_) ?_)
    | intro _
    | with_reducible assumption
    | with_reducible apply doPowerSample_inv
    | with_reducible apply State.upTo_inv

theorem execAvsbusNoAck_inv {s : State} (h : s.Inv) : OutInv (execAvsbusNoAck s) := by
  unfold execAvsbusNoAck
  repeat' first
    | (with_reducible refine run_inv (fun _ _ => ?_) ?_)
    | intro _
    | with_reducible assumption
    | with_reducible apply doAvsbusNoAck_inv

theorem execNodeReset_inv {s : State} {a1} (h : s.Inv) : OutInv (execNodeReset a1 s) := by
  unfold execNodeReset
  repeat' first
    | (with_reducible refine run_inv (fun _ _ => ?_) ?_)
    | intro _
    | with_reducible assumption
    | with_reducible apply doNodeReset_inv

theorem execPartitionReset_inv {s : State} {a1} (h : s.Inv) : OutInv (execPartitionReset a1 s) := by
  unfold execPartitionReset
  repeat' first
    | (with_reducible refine run_inv (fun _ _ => ?_) ?_)
    | intro _
    | with_reducible assumption
    | with_reducible apply doPartitionReset_inv

theorem execPartitionResetEnd_inv {s : State} {a1 a2} (h : s.Inv) : OutInv (execPartitionResetEnd a1 a2 s) := by
  unfold execPartitionResetEnd
  repeat' first
    | (with_reducible refine run_inv (fun _ _ => ?_) ?_)
    | intro _
    | with_reducible assumption
    | with_reducible apply doPartitionResetEnd_inv
    | with_reducible apply State.upTo_inv

theorem execLaneRetrain_inv {s : State} {a1} (h : s.Inv) : OutInv (execLaneRetrain a1 s) := by
  unfold execLaneRetrain
  repeat' first
    | (with_reducible refine run_inv (fun _ _ => ?_) ?_)
    | intro _
    | with_reducible assumption
    | with_reducible apply doLaneRetrain_inv

theorem execLaneRetrainDone_inv {s : State} {a1 a2 a3} (h : s.Inv) : OutInv (execLaneRetrainDone a1 a2 a3 s) := by
  unfold execLaneRetrainDone
  repeat' first
    | (with_reducible refine run_inv (fun _ _ => ?_) ?_)
    | intro _
    | with_reducible assumption
    | with_reducible apply doLaneRetrainDone_inv

theorem execFirstClr_inv {s : State} {a1} (h : s.Inv) : OutInv (execFirstClr a1 s) := by
  unfold execFirstClr
  repeat' first
    | (with_reducible refine run_inv (fun _ _ => ?_) ?_)
    | intro _
    | with_reducible assumption
    | with_reducible apply State.clearFirst_inv
    | with_reducible apply ite_inv

theorem execHistClr_inv {s : State} {a1} (h : s.Inv) : OutInv (execHistClr a1 s) := by
  unfold execHistClr
  repeat' first
    | (with_reducible refine run_inv (fun _ _ => ?_) ?_)
    | intro _
    | with_reducible assumption
    | with_reducible apply State.clearHist_inv
    | with_reducible apply ite_inv

theorem execJetReset_inv {s : State} {a1 a2 a3} (h : s.Inv) : OutInv (execJetReset a1 a2 a3 s) := by
  unfold execJetReset
  repeat' first
    | (with_reducible refine run_inv (fun _ _ => ?_) ?_)
    | intro _
    | with_reducible assumption
    | with_reducible apply doJetReset_inv

theorem execSelfTestVerdict_inv {s : State} {a1 a2 a3} (h : s.Inv) : OutInv (execSelfTestVerdict a1 a2 a3 s) := by
  unfold execSelfTestVerdict
  repeat' first
    | (with_reducible refine run_inv (fun _ _ => ?_) ?_)
    | intro _
    | with_reducible assumption
    | with_reducible apply doSelfTestVerdict_inv
    | with_reducible apply State.upTo_inv

theorem execPairSparing_inv {s : State} {a1 a2 a3 a4} (h : s.Inv) : OutInv (execPairSparing a1 a2 a3 a4 s) := by
  unfold execPairSparing
  repeat' first
    | (with_reducible refine run_inv (fun _ _ => ?_) ?_)
    | intro _
    | with_reducible assumption
    | with_reducible apply doPairSparing_inv

theorem execPairSpareSwitch_inv {s : State} {a1 a2} (h : s.Inv) : OutInv (execPairSpareSwitch a1 a2 s) := by
  unfold execPairSpareSwitch
  repeat' first
    | (with_reducible refine run_inv (fun _ _ => ?_) ?_)
    | intro _
    | with_reducible assumption
    | with_reducible apply doPairSpareSwitch_inv

theorem execLaneDegrade_inv {s : State} {a1 a2 a3} (h : s.Inv) : OutInv (execLaneDegrade a1 a2 a3 s) := by
  unfold execLaneDegrade
  repeat' first
    | (with_reducible refine run_inv (fun _ _ => ?_) ?_)
    | intro _
    | with_reducible assumption
    | with_reducible apply doLaneDegrade_inv

theorem execTsvFault_inv {s : State} {a1 a2 a3} (h : s.Inv) : OutInv (execTsvFault a1 a2 a3 s) := by
  unfold execTsvFault
  repeat' first
    | (with_reducible refine run_inv (fun _ _ => ?_) ?_)
    | intro _
    | with_reducible assumption
    | with_reducible apply doTsvFault_inv

theorem execClockReturn_inv {s : State} {a1} (h : s.Inv) : OutInv (execClockReturn a1 s) := by
  unfold execClockReturn
  repeat' first
    | (with_reducible refine run_inv (fun _ _ => ?_) ?_)
    | intro _
    | with_reducible assumption
    | with_reducible apply doClockReturn_inv

theorem execPcieConfigRequest_inv {s : State} {a1} (h : s.Inv) : OutInv (execPcieConfigRequest a1 s) := by
  unfold execPcieConfigRequest
  repeat' first
    | (with_reducible refine run_inv (fun _ _ => ?_) ?_)
    | intro _
    | with_reducible assumption
    | with_reducible apply doPcieConfigRequest_inv

theorem execNodeResetDelayExpiry_inv {s : State} {a1} (h : s.Inv) : OutInv (execNodeResetDelayExpiry a1 s) := by
  unfold execNodeResetDelayExpiry
  repeat' first
    | (with_reducible refine run_inv (fun _ _ => ?_) ?_)
    | intro _
    | with_reducible assumption
    | with_reducible apply State.upTo_inv
    | with_reducible apply doNodeResetDelayExpiry_inv

end Sys2Proof.Machine
end

