-- ==== Sys2Proof/Laws/InvManage.lean ====
section
/-! SUPPORT. The state invariant is kept by keys, identity, the mailboxes and the sideband.
One lemma per operation: the state it answers is legal whenever the state it gets is. -/

namespace Sys2Proof.Machine

theorem State.acceptCmd_inv {s : State} {a1} (h : s.Inv) : (State.acceptCmd s a1).Inv := by
  unfold State.acceptCmd
  try dsimp only
  repeat' first
    | intro _
    | with_reducible assumption
    | with_reducible apply State.updMbox_inv

theorem State.bar2Blocked_inv {s : State} (h : s.Inv) : (State.bar2Blocked s).Inv := by
  unfold State.bar2Blocked
  try dsimp only
  repeat' first
    | intro _
    | with_reducible assumption
    | with_reducible apply State.count_inv
    | with_reducible apply State.emit_inv

theorem State.endSlotFrames_inv {s : State} {a1} (h : s.Inv) : (State.endSlotFrames s a1).Inv := by
  unfold State.endSlotFrames
  try dsimp only
  repeat' first
    | intro _
    | with_reducible assumption
    | with_reducible apply State.each_inv
    | with_reducible apply State.dropUnkeyed_inv
    | with_reducible apply State.endUnkeyed_inv
    | with_reducible apply ite_inv

theorem State.setIde_inv {s : State} {a1 a2} (h : s.Inv) : (State.setIde s a1 a2).Inv := by
  unfold State.setIde
  try dsimp only
  repeat' first
    | intro _
    | with_reducible assumption
    | with_reducible apply ite_inv
    | with_reducible apply foldl_inv
    | (fail_if_no_progress with_reducible refine mk_same ?_ rfl rfl rfl rfl rfl rfl rfl rfl)

theorem State.ideKm_inv {s : State} {a1} (h : s.Inv) : ∀ t x, (State.ideKm s a1) = (t, x) → State.Inv t := by
  intro t x he
  unfold State.ideKm at he
  try dsimp only at he
  repeat' first
    | (cases he; done)
    | split at he
    | contradiction
    | cases he
    | intro _
    | with_reducible assumption
    | with_reducible apply State.setIde_inv

theorem State.updSb_inv {s : State} {a1} (h : s.Inv) : (State.updSb s a1).Inv := by
  unfold State.updSb
  try dsimp only
  repeat' first
    | intro _
    | with_reducible assumption
    | with_reducible apply ite_inv
    | with_reducible apply foldl_inv
    | (fail_if_no_progress with_reducible refine mk_same ?_ rfl rfl rfl rfl rfl rfl rfl rfl)

theorem State.loadIr_inv {s : State} {a1} (h : s.Inv) : (State.loadIr s a1).Inv := by
  unfold State.loadIr
  try dsimp only
  repeat' first
    | intro _
    | with_reducible assumption
    | with_reducible apply State.updSb_inv

theorem State.loadExtest_inv {s : State} {a1} (h : s.Inv) : (State.loadExtest s a1).Inv := by
  unfold State.loadExtest
  try dsimp only
  repeat' first
    | intro _
    | with_reducible assumption
    | with_reducible apply State.loadIr_inv

theorem State.mirrorBar2_inv {s : State} {a1 a2} (h : s.Inv) : (State.mirrorBar2 s a1 a2).Inv := by
  unfold State.mirrorBar2
  try dsimp only
  repeat' first
    | intro _
    | with_reducible assumption
    | with_reducible apply State.mirrorGrains_inv
    | with_reducible apply ite_inv
    | with_reducible apply foldl_inv
    | (fail_if_no_progress with_reducible refine mk_same ?_ rfl rfl rfl rfl rfl rfl rfl rfl)
    | split

theorem State.newSendKey_inv {s : State} {a1} (h : s.Inv) : (State.newSendKey s a1).Inv := by
  unfold State.newSendKey
  try dsimp only
  repeat' first
    | intro _
    | with_reducible assumption
    | with_reducible apply ite_inv
    | with_reducible apply foldl_inv
    | (fail_if_no_progress with_reducible refine mk_same ?_ rfl rfl rfl rfl rfl rfl rfl rfl)

theorem State.onSpdm_inv {s : State} {ep : SpdmEp} {ok : Spdm → Bool} {f : Spdm → State} (hf : ∀ x, (f x).Inv)
    (h : s.Inv) : (s.onSpdm ep ok f).Inv := by
  unfold State.onSpdm
  exact ite_inv h (ite_inv (hf _) (State.emit_inv h))

theorem State.sign_inv {s : State} {a1} (h : s.Inv) : ∀ x t, (State.sign s a1) = (x, t) → State.Inv t := by
  intro x t he
  unfold State.sign at he
  try dsimp only at he
  repeat' first
    | (cases he; done)
    | split at he
    | contradiction
    | cases he
    | intro _
    | with_reducible assumption
    | with_reducible apply ite_inv
    | with_reducible apply foldl_inv
    | (fail_if_no_progress with_reducible refine mk_same ?_ rfl rfl rfl rfl rfl rfl rfl rfl)

theorem doAttestReport_inv {s : State} {a1} (h : s.Inv) : (doAttestReport a1 s).Inv := by
  unfold doAttestReport
  try dsimp only
  repeat' first
    | intro _
    | with_reducible assumption
    | with_reducible apply State.agtan_inv
    | (refine State.sign_inv ?_ _ _ (by with_reducible assumption))
    | (with_reducible refine State.sign_inv ?_ _ _ rfl)
    | with_reducible apply State.respond_inv

theorem doKeyInstall_inv {s : State} {a1} (h : s.Inv) : (doKeyInstall a1 s).Inv := by
  unfold doKeyInstall
  try dsimp only
  repeat' first
    | intro _
    | with_reducible assumption
    | with_reducible apply State.agtan_inv
    | with_reducible apply State.respond_inv
    | with_reducible apply State.setKey_inv
    | with_reducible apply State.newSendKey_inv
    | with_reducible apply ite_inv
    | with_reducible apply foldl_inv
    | (fail_if_no_progress with_reducible refine mk_same ?_ rfl rfl rfl rfl rfl rfl rfl rfl)
    | split

theorem doKeySwitch_inv {s : State} {a1} (h : s.Inv) : (doKeySwitch a1 s).Inv := by
  unfold doKeySwitch
  try dsimp only
  repeat' first
    | intro _
    | with_reducible assumption
    | with_reducible apply State.agtan_inv
    | with_reducible apply State.respond_inv
    | with_reducible apply State.newSendKey_inv
    | with_reducible apply State.setKey_inv
    | with_reducible apply ite_inv

theorem doKeyDrop_inv {s : State} {a1} (h : s.Inv) : (doKeyDrop a1 s).Inv := by
  unfold doKeyDrop
  try dsimp only
  repeat' first
    | intro _
    | with_reducible assumption
    | with_reducible apply State.agtan_inv
    | with_reducible apply State.respond_inv
    | with_reducible apply State.setKey_inv
    | with_reducible apply ite_inv

theorem doKeyRetire_inv {s : State} {a1} (h : s.Inv) : (doKeyRetire a1 s).Inv := by
  unfold doKeyRetire
  try dsimp only
  repeat' first
    | intro _
    | with_reducible assumption
    | with_reducible apply State.agtan_inv
    | with_reducible apply State.park_inv
    | with_reducible apply State.setKey_inv
    | with_reducible apply State.respond_inv
    | with_reducible apply ite_inv

theorem doKeyStatus_inv {s : State} {a1} (h : s.Inv) : (doKeyStatus a1 s).Inv := by
  unfold doKeyStatus
  try dsimp only
  repeat' first
    | intro _
    | with_reducible assumption
    | with_reducible apply State.agtan_inv
    | with_reducible apply State.respond_inv
    | with_reducible apply ite_inv

theorem opcodes_inv {c : AgtanCmd} {s : State} (h : s.Inv) : ∀ x ∈ opcodes, (x.2 c s).Inv := by
  unfold opcodes
  simp only [List.cons_append, List.nil_append, List.forall_mem_cons]
  refine ⟨doNodeStatus_inv h, doAttestReport_inv h, doNodeReset_inv h, doPartitionReset_inv h, doLaneRetrain_inv h, doFaultRead_inv h, doPeerClear_inv h, doCfgCommit_inv h, doCfgAbort_inv h, doCfgStatus_inv h, doCfgDiscard_inv h, doPartMapStage_inv h, doPartCfgStage_inv h, doPartStatus_inv h, doLockStage_inv h, doAdmitWeightsStage_inv h, doNodeCfgStage_inv h, doTwinCfgStage_inv h, doRouteStage_inv h, doTwinStatus_inv h, doDirRead_inv h, doWindowStage_inv h, doWindowRead_inv h, doWindowRevoke_inv h, doSrcsetStage_inv h, doWeirStage_inv h, doShaperStage_inv h, doPortWeightsStage_inv h, doQueueSet_inv h, doQueueStop_inv h, doQueueRead_inv h, doKeyInstall_inv h, doKeySwitch_inv h, doKeyDrop_inv h, doKeyRetire_inv h, doKeyStatus_inv h, doSessionOpen_inv h, doSessionClose_inv h, doSessionRead_inv h, doBaseBegin_inv h, doBaseEnd_inv h, doBaseUnload_inv h, doPostabLoad_inv h, doPostabUnload_inv h, doProgStage_inv h, doStatsRead_inv h, doHistRead_inv h, doRebalance_inv h, fun x hx => absurd hx (List.not_mem_nil)⟩

theorem State.runCmd_inv {s : State} {a1 a2} (h : s.Inv) : (s.runCmd a1 a2).Inv := by
  unfold State.runCmd
  split
  · exact opcodes_inv h _ (List.mem_of_find?_eq_some (by assumption))
  · exact State.agtan_inv h (State.respond_inv h) h

theorem State.sbCommand_inv {s : State} {a1 a2} (h : s.Inv) : (State.sbCommand s a1 a2).Inv := by
  unfold State.sbCommand
  try dsimp only
  repeat' first
    | intro _
    | with_reducible assumption
    | with_reducible apply State.emit_inv
    | with_reducible apply State.updSb_inv

theorem doErrClr_inv {s : State} {a1} (h : s.Inv) : (doErrClr a1 s).Inv := by
  unfold doErrClr
  try dsimp only
  repeat' first
    | intro _
    | with_reducible assumption
    | with_reducible apply State.updSb_inv
    | with_reducible apply ite_inv

theorem doResetKey_inv {s : State} {a1} (h : s.Inv) : (doResetKey a1 s).Inv := by
  unfold doResetKey
  try dsimp only
  repeat' first
    | intro _
    | with_reducible assumption
    | with_reducible apply State.nodeReset_inv
    | with_reducible apply ite_inv

theorem State.sbWrite_inv {s : State} {a1 a2} (h : s.Inv) : (State.sbWrite s a1 a2).Inv := by
  unfold State.sbWrite
  try dsimp only
  repeat' first
    | intro _
    | with_reducible assumption
    | with_reducible apply doErrClr_inv
    | with_reducible apply doResetKey_inv
    | with_reducible apply State.updSb_inv
    | with_reducible apply ite_inv

theorem State.sbData_inv {s : State} {a1 a2} (h : s.Inv) : (State.sbData s a1 a2).Inv := by
  unfold State.sbData
  try dsimp only
  repeat' first
    | intro _
    | with_reducible assumption
    | with_reducible apply State.updSb_inv
    | with_reducible apply State.sbWrite_inv
    | with_reducible apply State.emit_inv
    | with_reducible apply ite_inv

theorem State.sbDiscard_inv {s : State} (h : s.Inv) : (State.sbDiscard s).Inv := by
  unfold State.sbDiscard
  try dsimp only
  repeat' first
    | intro _
    | with_reducible assumption
    | with_reducible apply State.updSb_inv

theorem State.sbWord_inv {s : State} {a1 a2} (h : s.Inv) : (State.sbWord s a1 a2).Inv := by
  unfold State.sbWord
  try dsimp only
  repeat' first
    | intro _
    | with_reducible assumption
    | with_reducible apply State.sbDiscard_inv
    | with_reducible apply State.sbData_inv
    | with_reducible apply State.sbCommand_inv
    | with_reducible apply ite_inv

theorem State.setSpdm_inv {s : State} {a1 a2} (h : s.Inv) : (State.setSpdm s a1 a2).Inv := by
  unfold State.setSpdm
  try dsimp only
  repeat' first
    | intro _
    | with_reducible assumption
    | with_reducible apply ite_inv
    | with_reducible apply foldl_inv
    | (fail_if_no_progress with_reducible refine mk_same ?_ rfl rfl rfl rfl rfl rfl rfl rfl)

theorem State.spdmAnswer_inv {s : State} {a1 a2 a3} (h : s.Inv) : (State.spdmAnswer s a1 a2 a3).Inv := by
  unfold State.spdmAnswer
  try dsimp only
  repeat' first
    | intro _
    | with_reducible assumption
    | with_reducible apply State.emit_inv

theorem State.spdmSigned_inv {s : State} {a1 a2 a3} (h : s.Inv) : (State.spdmSigned s a1 a2 a3).Inv := by
  unfold State.spdmSigned
  try dsimp only
  repeat' first
    | intro _
    | with_reducible assumption
    | (refine State.sign_inv ?_ _ _ (by with_reducible assumption))
    | (with_reducible refine State.sign_inv ?_ _ _ rfl)
    | with_reducible apply State.emit_inv

theorem State.stageReg_inv {s : State} {a1} (h : s.Inv) : (State.stageReg s a1).Inv := by
  unfold State.stageReg
  try dsimp only
  repeat' first
    | intro _
    | with_reducible assumption
    | (refine State.stageItems_inv ?_ _ _ (by with_reducible assumption))
    | (with_reducible refine State.stageItems_inv ?_ _ _ rfl)

theorem doMbDoorbell_inv {s : State} {a1 a2 a3} (h : s.Inv) : (doMbDoorbell a1 a2 a3 s).Inv := by
  unfold doMbDoorbell
  try dsimp only
  repeat' first
    | intro _
    | with_reducible assumption
    | with_reducible apply State.setMbox_inv
    | with_reducible apply ite_inv

theorem State.writeSlot_inv {s : State} {a1 a2 a3 a4} (h : s.Inv) : (State.writeSlot s a1 a2 a3 a4).Inv := by
  unfold State.writeSlot
  try dsimp only
  repeat' first
    | intro _
    | with_reducible assumption
    | with_reducible apply State.updMbox_inv
    | with_reducible apply doMbDoorbell_inv
    | with_reducible apply ite_inv

theorem State.writeFltCtl_inv {s : State} {a1} (h : s.Inv) : (s.writeFltCtl a1).Inv := by
  unfold State.writeFltCtl
  dsimp only
  have h1 : State.Inv { s with flt := { s.flt with ctl := a1 &&& 0xFFFFFF#64 } } :=
    ⟨h.mem, h.stage, h.twin, h.level, h.pwrCfg, mask_clear _ _ _ (by decide), h.hist, h.turn⟩
  have h2 := ite_inv (c := a1.getLsbD 24 = true) (State.clearFirst_inv h1) h1
  exact ite_inv (State.clearHist_inv h2) h2

theorem State.writePf_inv {s : State} {a1 a2} (h : s.Inv) : (s.writePf a1 a2).Inv := by
  unfold State.writePf
  split
  · exact ⟨h.mem, h.stage, h.twin, h.level, mask_clear _ _ _ (by decide), h.fltCtl, h.hist, h.turn⟩
  repeat' first
    | with_reducible assumption
    | with_reducible apply State.writeFltCtl_inv
    | with_reducible apply State.stageReg_inv
    | with_reducible apply ite_inv
    | (fail_if_no_progress with_reducible refine mk_same ?_ rfl rfl rfl rfl rfl rfl rfl rfl)

theorem State.writeBar0_inv {s : State} {a1 a2 a3} (h : s.Inv) : (State.writeBar0 s a1 a2 a3).Inv := by
  unfold State.writeBar0
  try dsimp only
  repeat' first
    | intro _
    | with_reducible assumption
    | with_reducible apply State.writeSlot_inv
    | with_reducible apply State.writePf_inv
    | with_reducible apply ite_inv

theorem State.writeJet_inv {s : State} {a1 a2 a3} (h : s.Inv) : (State.writeJet s a1 a2 a3).Inv := by
  unfold State.writeJet
  try dsimp only
  repeat' first
    | intro _
    | with_reducible assumption
    | with_reducible apply State.onJet_inv
    | with_reducible apply State.libDone_inv
    | with_reducible apply State.updJet_inv
    | with_reducible apply ite_inv

theorem doBar2Read_inv {s : State} {a1 a2 a3 a4} (h : s.Inv) : (doBar2Read a1 a2 a3 a4 s).Inv := by
  unfold doBar2Read
  try dsimp only
  repeat' first
    | intro _
    | with_reducible assumption
    | with_reducible apply State.emit_inv
    | with_reducible apply State.bar2Blocked_inv
    | with_reducible apply State.each_inv
    | with_reducible apply State.noteCorrected_inv
    | with_reducible apply State.failCheck_inv
    | with_reducible apply ite_inv

theorem doBar2Write_inv {s : State} {a1 a2 a3 a4} (h : s.Inv) : (doBar2Write a1 a2 a3 a4 s).Inv := by
  unfold doBar2Write
  try dsimp only
  repeat' first
    | intro _
    | with_reducible assumption
    | with_reducible apply State.emit_inv
    | with_reducible apply State.bar2Blocked_inv
    | with_reducible apply State.partialRefused_inv
    | with_reducible apply State.mirrorBar2_inv
    | with_reducible apply State.writeGrains_inv
    | with_reducible apply ite_inv
    | with_reducible apply foldl_inv
    | (fail_if_no_progress with_reducible refine mk_same ?_ rfl rfl rfl rfl rfl rfl rfl rfl)
    | split

theorem doIdeIntegrityFail_inv {s : State} {a1} (h : s.Inv) : (doIdeIntegrityFail a1 s).Inv := by
  unfold doIdeIntegrityFail
  try dsimp only
  repeat' first
    | intro _
    | with_reducible assumption
    | with_reducible apply State.fault_inv
    | with_reducible apply State.setIde_inv
    | with_reducible apply ite_inv

theorem doIdeKmMessage_inv {s : State} {a1 a2} (h : s.Inv) : (doIdeKmMessage a1 a2 s).Inv := by
  unfold doIdeKmMessage
  try dsimp only
  repeat' first
    | intro _
    | with_reducible assumption
    | with_reducible apply State.onSpdm_inv
    | (refine State.ideKm_inv ?_ _ _ (by with_reducible assumption))
    | (with_reducible refine State.ideKm_inv ?_ _ _ rfl)
    | with_reducible apply State.emit_inv

theorem doKeyAgeWarn_inv {s : State} {a1} (h : s.Inv) : (doKeyAgeWarn a1 s).Inv := by
  unfold doKeyAgeWarn
  try dsimp only
  repeat' first
    | intro _
    | with_reducible assumption
    | with_reducible apply State.fault_inv
    | with_reducible apply State.setKey_inv
    | with_reducible apply ite_inv
    | with_reducible apply foldl_inv
    | (fail_if_no_progress with_reducible refine mk_same ?_ rfl rfl rfl rfl rfl rfl rfl rfl)
    | split

theorem doKeyLifetimeExpiry_inv {s : State} {a1} (h : s.Inv) : (doKeyLifetimeExpiry a1 s).Inv := by
  unfold doKeyLifetimeExpiry
  try dsimp only
  repeat' first
    | intro _
    | with_reducible assumption
    | with_reducible apply State.setKey_inv
    | with_reducible apply State.each_inv
    | with_reducible apply State.dropUnkeyed_inv
    | with_reducible apply ite_inv

theorem doKeyRetired_inv {s : State} {a1} (h : s.Inv) : (doKeyRetired a1 s).Inv := by
  unfold doKeyRetired
  try dsimp only
  repeat' first
    | intro _
    | with_reducible assumption
    | with_reducible apply State.unpark_inv
    | with_reducible apply State.endSlotFrames_inv
    | with_reducible apply State.setKey_inv
    | with_reducible apply ite_inv

theorem doMailboxTurn_inv {s : State} (h : s.Inv) : (doMailboxTurn s).Inv := by
  unfold doMailboxTurn
  split
  · exact h
  · refine State.runCmd_inv ?_
    have h1 := State.updMbox_inv (a1 := ‹Nat›) (a2 := fun x => { x with accepted := x.accepted.tail }) h
    exact ⟨h1.mem, h1.stage, h1.twin, h1.level, h1.pwrCfg, h1.fltCtl, h1.hist, Nat.mod_lt _ (by decide)⟩

theorem doMctpMailboxMessage_inv {s : State} {a1} (h : s.Inv) : (doMctpMailboxMessage a1 s).Inv := by
  unfold doMctpMailboxMessage
  try dsimp only
  repeat' first
    | intro _
    | with_reducible assumption
    | with_reducible apply State.emit_inv
    | with_reducible apply State.acceptCmd_inv
    | with_reducible apply ite_inv
    | with_reducible apply foldl_inv
    | (fail_if_no_progress with_reducible refine mk_same ?_ rfl rfl rfl rfl rfl rfl rfl rfl)
    | split

theorem doPldmRequest_inv {s : State} {a1} (h : s.Inv) : (doPldmRequest a1 s).Inv := by
  unfold doPldmRequest
  try dsimp only
  repeat' first
    | intro _
    | with_reducible assumption
    | with_reducible apply State.emit_inv
    | with_reducible apply ite_inv
    | with_reducible apply foldl_inv
    | (fail_if_no_progress with_reducible refine mk_same ?_ rfl rfl rfl rfl rfl rfl rfl rfl)
    | split

theorem doRegisterWrite_inv {s : State} {a1 a2} (h : s.Inv) : (doRegisterWrite a1 a2 s).Inv := by
  unfold doRegisterWrite
  try dsimp only
  repeat' first
    | intro _
    | with_reducible assumption
    | with_reducible apply State.writeBar0_inv
    | with_reducible apply State.writeJet_inv
    | with_reducible apply ite_inv
    | with_reducible apply foldl_inv
    | (fail_if_no_progress with_reducible refine mk_same ?_ rfl rfl rfl rfl rfl rfl rfl rfl)
    | split

theorem doSbDataTimeout_inv {s : State} (h : s.Inv) : (doSbDataTimeout s).Inv := by
  unfold doSbDataTimeout
  try dsimp only
  repeat' first
    | intro _
    | with_reducible assumption
    | with_reducible apply State.updSb_inv
    | with_reducible apply ite_inv

theorem doSmbusTimeout_inv {s : State} {a1} (h : s.Inv) : (doSmbusTimeout a1 s).Inv := by
  unfold doSmbusTimeout
  try dsimp only
  repeat' first
    | intro _
    | with_reducible assumption
    | with_reducible apply ite_inv
    | with_reducible apply foldl_inv
    | (fail_if_no_progress with_reducible refine mk_same ?_ rfl rfl rfl rfl rfl rfl rfl rfl)

theorem doSpdmChallenge_inv {s : State} {a1 a2 a3} (h : s.Inv) : (doSpdmChallenge a1 a2 a3 s).Inv := by
  unfold doSpdmChallenge
  try dsimp only
  repeat' first
    | intro _
    | with_reducible assumption
    | with_reducible apply State.onSpdm_inv
    | with_reducible apply State.spdmSigned_inv

theorem doSpdmEndSession_inv {s : State} {a1 a2} (h : s.Inv) : (doSpdmEndSession a1 a2 s).Inv := by
  unfold doSpdmEndSession
  try dsimp only
  repeat' first
    | intro _
    | with_reducible assumption
    | with_reducible apply State.onSpdm_inv
    | with_reducible apply State.spdmAnswer_inv
    | with_reducible apply State.setSpdm_inv

theorem doSpdmFinish_inv {s : State} {a1 a2 a3} (h : s.Inv) : (doSpdmFinish a1 a2 a3 s).Inv := by
  unfold doSpdmFinish
  try dsimp only
  repeat' first
    | intro _
    | with_reducible assumption
    | with_reducible apply State.onSpdm_inv
    | with_reducible apply State.spdmAnswer_inv
    | with_reducible apply State.setSpdm_inv
    | with_reducible apply State.emit_inv
    | with_reducible apply ite_inv

theorem doSpdmGetCapabilities_inv {s : State} {a1 a2} (h : s.Inv) : (doSpdmGetCapabilities a1 a2 s).Inv := by
  unfold doSpdmGetCapabilities
  try dsimp only
  repeat' first
    | intro _
    | with_reducible assumption
    | with_reducible apply State.onSpdm_inv
    | with_reducible apply State.spdmAnswer_inv
    | with_reducible apply State.setSpdm_inv

theorem doSpdmGetCertificate_inv {s : State} {a1 a2 a3 a4} (h : s.Inv) : (doSpdmGetCertificate a1 a2 a3 a4 s).Inv := by
  unfold doSpdmGetCertificate
  try dsimp only
  repeat' first
    | intro _
    | with_reducible assumption
    | with_reducible apply State.onSpdm_inv
    | with_reducible apply State.spdmAnswer_inv

theorem doSpdmGetDigests_inv {s : State} {a1} (h : s.Inv) : (doSpdmGetDigests a1 s).Inv := by
  unfold doSpdmGetDigests
  try dsimp only
  repeat' first
    | intro _
    | with_reducible assumption
    | with_reducible apply State.onSpdm_inv
    | with_reducible apply State.spdmAnswer_inv

theorem doSpdmGetMeasurements_inv {s : State} {a1 a2 a3 a4} (h : s.Inv) : (doSpdmGetMeasurements a1 a2 a3 a4 s).Inv := by
  unfold doSpdmGetMeasurements
  try dsimp only
  repeat' first
    | intro _
    | with_reducible assumption
    | with_reducible apply State.onSpdm_inv
    | with_reducible apply State.spdmSigned_inv
    | with_reducible apply State.spdmAnswer_inv
    | with_reducible apply ite_inv

theorem doSpdmGetVersion_inv {s : State} {a1} (h : s.Inv) : (doSpdmGetVersion a1 s).Inv := by
  unfold doSpdmGetVersion
  try dsimp only
  repeat' first
    | intro _
    | with_reducible assumption
    | with_reducible apply State.onSpdm_inv
    | with_reducible apply State.spdmAnswer_inv
    | with_reducible apply State.setSpdm_inv

theorem doSpdmHeartbeat_inv {s : State} {a1 a2} (h : s.Inv) : (doSpdmHeartbeat a1 a2 s).Inv := by
  unfold doSpdmHeartbeat
  try dsimp only
  repeat' first
    | intro _
    | with_reducible assumption
    | with_reducible apply State.onSpdm_inv
    | with_reducible apply State.spdmAnswer_inv

theorem doSpdmKeyExchange_inv {s : State} {a1 a2 a3} (h : s.Inv) : (doSpdmKeyExchange a1 a2 a3 s).Inv := by
  unfold doSpdmKeyExchange
  try dsimp only
  repeat' first
    | intro _
    | with_reducible assumption
    | with_reducible apply State.onSpdm_inv
    | (refine State.draw_inv ?_ _ _ (by with_reducible assumption))
    | (with_reducible refine State.draw_inv ?_ _ _ rfl)
    | with_reducible apply State.spdmSigned_inv
    | with_reducible apply State.setSpdm_inv

theorem doSpdmKeyUpdate_inv {s : State} {a1 a2 a3 a4} (h : s.Inv) : (doSpdmKeyUpdate a1 a2 a3 a4 s).Inv := by
  unfold doSpdmKeyUpdate
  try dsimp only
  repeat' first
    | intro _
    | with_reducible assumption
    | with_reducible apply State.onSpdm_inv
    | with_reducible apply State.spdmAnswer_inv

theorem doSpdmNegotiateAlgorithms_inv {s : State} {a1 a2} (h : s.Inv) : (doSpdmNegotiateAlgorithms a1 a2 s).Inv := by
  unfold doSpdmNegotiateAlgorithms
  try dsimp only
  repeat' first
    | intro _
    | with_reducible assumption
    | with_reducible apply State.onSpdm_inv
    | with_reducible apply State.spdmAnswer_inv
    | with_reducible apply State.setSpdm_inv

theorem doVendorDefinedRequest_inv {s : State} {a1 a2 a3} (h : s.Inv) : (doVendorDefinedRequest a1 a2 a3 s).Inv := by
  unfold doVendorDefinedRequest
  try dsimp only
  repeat' first
    | intro _
    | with_reducible assumption
    | with_reducible apply State.onSpdm_inv
    | with_reducible apply State.spdmAnswer_inv
    | with_reducible apply State.acceptCmd_inv
    | with_reducible apply ite_inv
    | with_reducible apply foldl_inv
    | (fail_if_no_progress with_reducible refine mk_same ?_ rfl rfl rfl rfl rfl rfl rfl rfl)
    | split

theorem execAttestReport_inv {s : State} {a1} (h : s.Inv) : OutInv (execAttestReport a1 s) := by
  unfold execAttestReport
  repeat' first
    | (with_reducible refine run_inv (fun _ _ => ?_) ?_)
    | intro _
    | with_reducible assumption
    | with_reducible apply doAttestReport_inv

theorem execKeyInstall_inv {s : State} {a1} (h : s.Inv) : OutInv (execKeyInstall a1 s) := by
  unfold execKeyInstall
  repeat' first
    | (with_reducible refine run_inv (fun _ _ => ?_) ?_)
    | intro _
    | with_reducible assumption
    | with_reducible apply doKeyInstall_inv

theorem execKeySwitch_inv {s : State} {a1} (h : s.Inv) : OutInv (execKeySwitch a1 s) := by
  unfold execKeySwitch
  repeat' first
    | (with_reducible refine run_inv (fun _ _ => ?_) ?_)
    | intro _
    | with_reducible assumption
    | with_reducible apply doKeySwitch_inv

theorem execKeyDrop_inv {s : State} {a1} (h : s.Inv) : OutInv (execKeyDrop a1 s) := by
  unfold execKeyDrop
  repeat' first
    | (with_reducible refine run_inv (fun _ _ => ?_) ?_)
    | intro _
    | with_reducible assumption
    | with_reducible apply doKeyDrop_inv

theorem execKeyRetire_inv {s : State} {a1} (h : s.Inv) : OutInv (execKeyRetire a1 s) := by
  unfold execKeyRetire
  repeat' first
    | (with_reducible refine run_inv (fun _ _ => ?_) ?_)
    | intro _
    | with_reducible assumption
    | with_reducible apply doKeyRetire_inv

theorem execKeyRetired_inv {s : State} {a1 a2} (h : s.Inv) : OutInv (execKeyRetired a1 a2 s) := by
  unfold execKeyRetired
  repeat' first
    | (with_reducible refine run_inv (fun _ _ => ?_) ?_)
    | intro _
    | with_reducible assumption
    | with_reducible apply doKeyRetired_inv
    | with_reducible apply State.upTo_inv

theorem execKeyStatus_inv {s : State} {a1} (h : s.Inv) : OutInv (execKeyStatus a1 s) := by
  unfold execKeyStatus
  repeat' first
    | (with_reducible refine run_inv (fun _ _ => ?_) ?_)
    | intro _
    | with_reducible assumption
    | with_reducible apply doKeyStatus_inv

theorem execKeyAgeWarn_inv {s : State} {a1 a2} (h : s.Inv) : OutInv (execKeyAgeWarn a1 a2 s) := by
  unfold execKeyAgeWarn
  repeat' first
    | (with_reducible refine run_inv (fun _ _ => ?_) ?_)
    | intro _
    | with_reducible assumption
    | with_reducible apply doKeyAgeWarn_inv
    | with_reducible apply State.upTo_inv

theorem execKeyLifetimeExpiry_inv {s : State} {a1 a2} (h : s.Inv) : OutInv (execKeyLifetimeExpiry a1 a2 s) := by
  unfold execKeyLifetimeExpiry
  repeat' first
    | (with_reducible refine run_inv (fun _ _ => ?_) ?_)
    | intro _
    | with_reducible assumption
    | with_reducible apply doKeyLifetimeExpiry_inv
    | with_reducible apply State.upTo_inv

theorem execMbDoorbell_inv {s : State} {a1 a2 a3} (h : s.Inv) : OutInv (execMbDoorbell a1 a2 a3 s) := by
  unfold execMbDoorbell
  repeat' first
    | (with_reducible refine run_inv (fun _ _ => ?_) ?_)
    | intro _
    | with_reducible assumption
    | with_reducible apply doMbDoorbell_inv

theorem execMailboxTurn_inv {s : State} (h : s.Inv) : OutInv (execMailboxTurn s) := by
  unfold execMailboxTurn
  repeat' first
    | (with_reducible refine run_inv (fun _ _ => ?_) ?_)
    | intro _
    | with_reducible assumption
    | with_reducible apply doMailboxTurn_inv

theorem execSpdmGetVersion_inv {s : State} {a1} (h : s.Inv) : OutInv (execSpdmGetVersion a1 s) := by
  unfold execSpdmGetVersion
  repeat' first
    | (with_reducible refine run_inv (fun _ _ => ?_) ?_)
    | intro _
    | with_reducible assumption
    | with_reducible apply doSpdmGetVersion_inv

theorem execSpdmGetCapabilities_inv {s : State} {a1 a2} (h : s.Inv) : OutInv (execSpdmGetCapabilities a1 a2 s) := by
  unfold execSpdmGetCapabilities
  repeat' first
    | (with_reducible refine run_inv (fun _ _ => ?_) ?_)
    | intro _
    | with_reducible assumption
    | with_reducible apply doSpdmGetCapabilities_inv

theorem execSpdmNegotiateAlgorithms_inv {s : State} {a1 a2} (h : s.Inv) : OutInv (execSpdmNegotiateAlgorithms a1 a2 s) := by
  unfold execSpdmNegotiateAlgorithms
  repeat' first
    | (with_reducible refine run_inv (fun _ _ => ?_) ?_)
    | intro _
    | with_reducible assumption
    | with_reducible apply doSpdmNegotiateAlgorithms_inv

theorem execSpdmGetDigests_inv {s : State} {a1} (h : s.Inv) : OutInv (execSpdmGetDigests a1 s) := by
  unfold execSpdmGetDigests
  repeat' first
    | (with_reducible refine run_inv (fun _ _ => ?_) ?_)
    | intro _
    | with_reducible assumption
    | with_reducible apply doSpdmGetDigests_inv

theorem execSpdmGetCertificate_inv {s : State} {a1 a2 a3 a4} (h : s.Inv) : OutInv (execSpdmGetCertificate a1 a2 a3 a4 s) := by
  unfold execSpdmGetCertificate
  repeat' first
    | (with_reducible refine run_inv (fun _ _ => ?_) ?_)
    | intro _
    | with_reducible assumption
    | with_reducible apply doSpdmGetCertificate_inv

theorem execSpdmChallenge_inv {s : State} {a1 a2 a3} (h : s.Inv) : OutInv (execSpdmChallenge a1 a2 a3 s) := by
  unfold execSpdmChallenge
  repeat' first
    | (with_reducible refine run_inv (fun _ _ => ?_) ?_)
    | intro _
    | with_reducible assumption
    | with_reducible apply doSpdmChallenge_inv

theorem execSpdmGetMeasurements_inv {s : State} {a1 a2 a3 a4} (h : s.Inv) : OutInv (execSpdmGetMeasurements a1 a2 a3 a4 s) := by
  unfold execSpdmGetMeasurements
  repeat' first
    | (with_reducible refine run_inv (fun _ _ => ?_) ?_)
    | intro _
    | with_reducible assumption
    | with_reducible apply doSpdmGetMeasurements_inv

theorem execSpdmKeyExchange_inv {s : State} {a1 a2 a3} (h : s.Inv) : OutInv (execSpdmKeyExchange a1 a2 a3 s) := by
  unfold execSpdmKeyExchange
  repeat' first
    | (with_reducible refine run_inv (fun _ _ => ?_) ?_)
    | intro _
    | with_reducible assumption
    | with_reducible apply doSpdmKeyExchange_inv

theorem execSpdmFinish_inv {s : State} {a1 a2 a3} (h : s.Inv) : OutInv (execSpdmFinish a1 a2 a3 s) := by
  unfold execSpdmFinish
  repeat' first
    | (with_reducible refine run_inv (fun _ _ => ?_) ?_)
    | intro _
    | with_reducible assumption
    | with_reducible apply doSpdmFinish_inv

theorem execSpdmKeyUpdate_inv {s : State} {a1 a2 a3 a4} (h : s.Inv) : OutInv (execSpdmKeyUpdate a1 a2 a3 a4 s) := by
  unfold execSpdmKeyUpdate
  repeat' first
    | (with_reducible refine run_inv (fun _ _ => ?_) ?_)
    | intro _
    | with_reducible assumption
    | with_reducible apply doSpdmKeyUpdate_inv

theorem execSpdmHeartbeat_inv {s : State} {a1 a2} (h : s.Inv) : OutInv (execSpdmHeartbeat a1 a2 s) := by
  unfold execSpdmHeartbeat
  repeat' first
    | (with_reducible refine run_inv (fun _ _ => ?_) ?_)
    | intro _
    | with_reducible assumption
    | with_reducible apply doSpdmHeartbeat_inv

theorem execSpdmEndSession_inv {s : State} {a1 a2} (h : s.Inv) : OutInv (execSpdmEndSession a1 a2 s) := by
  unfold execSpdmEndSession
  repeat' first
    | (with_reducible refine run_inv (fun _ _ => ?_) ?_)
    | intro _
    | with_reducible assumption
    | with_reducible apply doSpdmEndSession_inv

theorem execVendorDefinedRequest_inv {s : State} {a1 a2 a3} (h : s.Inv) : OutInv (execVendorDefinedRequest a1 a2 a3 s) := by
  unfold execVendorDefinedRequest
  repeat' first
    | (with_reducible refine run_inv (fun _ _ => ?_) ?_)
    | intro _
    | with_reducible assumption
    | with_reducible apply doVendorDefinedRequest_inv

theorem execMctpMailboxMessage_inv {s : State} {a1} (h : s.Inv) : OutInv (execMctpMailboxMessage a1 s) := by
  unfold execMctpMailboxMessage
  repeat' first
    | (with_reducible refine run_inv (fun _ _ => ?_) ?_)
    | intro _
    | with_reducible assumption
    | with_reducible apply doMctpMailboxMessage_inv

theorem execPldmRequest_inv {s : State} {a1} (h : s.Inv) : OutInv (execPldmRequest a1 s) := by
  unfold execPldmRequest
  repeat' first
    | (with_reducible refine run_inv (fun _ _ => ?_) ?_)
    | intro _
    | with_reducible assumption
    | with_reducible apply doPldmRequest_inv

theorem execSmbusTimeout_inv {s : State} {a1} (h : s.Inv) : OutInv (execSmbusTimeout a1 s) := by
  unfold execSmbusTimeout
  repeat' first
    | (with_reducible refine run_inv (fun _ _ => ?_) ?_)
    | intro _
    | with_reducible assumption
    | with_reducible apply doSmbusTimeout_inv

theorem execIdeIntegrityFail_inv {s : State} {a1} (h : s.Inv) : OutInv (execIdeIntegrityFail a1 s) := by
  unfold execIdeIntegrityFail
  repeat' first
    | (with_reducible refine run_inv (fun _ _ => ?_) ?_)
    | intro _
    | with_reducible assumption
    | with_reducible apply doIdeIntegrityFail_inv

theorem execBar2Read_inv {s : State} {a1 a2 a3 a4} (h : s.Inv) : OutInv (execBar2Read a1 a2 a3 a4 s) := by
  unfold execBar2Read
  repeat' first
    | (with_reducible refine run_inv (fun _ _ => ?_) ?_)
    | intro _
    | with_reducible assumption
    | with_reducible apply doBar2Read_inv

theorem execBar2Write_inv {s : State} {a1 a2 a3 a4} (h : s.Inv) : OutInv (execBar2Write a1 a2 a3 a4 s) := by
  unfold execBar2Write
  repeat' first
    | (with_reducible refine run_inv (fun _ _ => ?_) ?_)
    | intro _
    | with_reducible assumption
    | with_reducible apply doBar2Write_inv

theorem execRegisterWrite_inv {s : State} {a1 a2} (h : s.Inv) : OutInv (execRegisterWrite a1 a2 s) := by
  unfold execRegisterWrite
  repeat' first
    | (with_reducible refine run_inv (fun _ _ => ?_) ?_)
    | intro _
    | with_reducible assumption
    | with_reducible apply doRegisterWrite_inv

theorem execSbCommandWord_inv {s : State} {a1 a2 a3} (h : s.Inv) : OutInv (execSbCommandWord a1 a2 a3 s) := by
  unfold execSbCommandWord
  repeat' first
    | (with_reducible refine run_inv (fun _ _ => ?_) ?_)
    | intro _
    | with_reducible assumption
    | with_reducible apply State.sbWord_inv
    | with_reducible apply State.upTo_inv

theorem execSbDataWord_inv {s : State} {a1 a2 a3} (h : s.Inv) : OutInv (execSbDataWord a1 a2 a3 s) := by
  unfold execSbDataWord
  repeat' first
    | (with_reducible refine run_inv (fun _ _ => ?_) ?_)
    | intro _
    | with_reducible assumption
    | with_reducible apply State.sbWord_inv
    | with_reducible apply State.upTo_inv

theorem execSbWordDiscarded_inv {s : State} {a1} (h : s.Inv) : OutInv (execSbWordDiscarded a1 s) := by
  unfold execSbWordDiscarded
  repeat' first
    | (with_reducible refine run_inv (fun _ _ => ?_) ?_)
    | intro _
    | with_reducible assumption
    | with_reducible apply State.sbDiscard_inv
    | with_reducible apply ite_inv

theorem execSbDataTimeout_inv {s : State} {a1} (h : s.Inv) : OutInv (execSbDataTimeout a1 s) := by
  unfold execSbDataTimeout
  repeat' first
    | (with_reducible refine run_inv (fun _ _ => ?_) ?_)
    | intro _
    | with_reducible assumption
    | with_reducible apply doSbDataTimeout_inv
    | with_reducible apply State.upTo_inv

theorem execResetKey_inv {s : State} {a1} (h : s.Inv) : OutInv (execResetKey a1 s) := by
  unfold execResetKey
  repeat' first
    | (with_reducible refine run_inv (fun _ _ => ?_) ?_)
    | intro _
    | with_reducible assumption
    | with_reducible apply doResetKey_inv
    | with_reducible apply ite_inv

theorem execErrClr_inv {s : State} {a1} (h : s.Inv) : OutInv (execErrClr a1 s) := by
  unfold execErrClr
  repeat' first
    | (with_reducible refine run_inv (fun _ _ => ?_) ?_)
    | intro _
    | with_reducible assumption
    | with_reducible apply doErrClr_inv

theorem execBypass_inv {s : State} (h : s.Inv) : OutInv (execBypass s) := by
  unfold execBypass
  repeat' first
    | (with_reducible refine run_inv (fun _ _ => ?_) ?_)
    | intro _
    | with_reducible assumption
    | with_reducible apply State.loadIr_inv

theorem execIdcode_inv {s : State} (h : s.Inv) : OutInv (execIdcode s) := by
  unfold execIdcode
  repeat' first
    | (with_reducible refine run_inv (fun _ _ => ?_) ?_)
    | intro _
    | with_reducible assumption
    | with_reducible apply State.emit_inv
    | with_reducible apply State.loadIr_inv

theorem execSamplePreload_inv {s : State} (h : s.Inv) : OutInv (execSamplePreload s) := by
  unfold execSamplePreload
  repeat' first
    | (with_reducible refine run_inv (fun _ _ => ?_) ?_)
    | intro _
    | with_reducible assumption
    | with_reducible apply State.loadIr_inv

theorem execExtest_inv {s : State} (h : s.Inv) : OutInv (execExtest s) := by
  unfold execExtest
  repeat' first
    | (with_reducible refine run_inv (fun _ _ => ?_) ?_)
    | intro _
    | with_reducible assumption
    | with_reducible apply State.loadExtest_inv

theorem execExtestPulse_inv {s : State} (h : s.Inv) : OutInv (execExtestPulse s) := by
  unfold execExtestPulse
  repeat' first
    | (with_reducible refine run_inv (fun _ _ => ?_) ?_)
    | intro _
    | with_reducible assumption
    | with_reducible apply State.loadExtest_inv

theorem execExtestTrain_inv {s : State} (h : s.Inv) : OutInv (execExtestTrain s) := by
  unfold execExtestTrain
  repeat' first
    | (with_reducible refine run_inv (fun _ _ => ?_) ?_)
    | intro _
    | with_reducible assumption
    | with_reducible apply State.loadExtest_inv

theorem execIdeKmMessage_inv {s : State} {a1 a2} (h : s.Inv) : OutInv (execIdeKmMessage a1 a2 s) := by
  unfold execIdeKmMessage
  repeat' first
    | (with_reducible refine run_inv (fun _ _ => ?_) ?_)
    | intro _
    | with_reducible assumption
    | with_reducible apply doIdeKmMessage_inv

end Sys2Proof.Machine
end

