-- ==== Sys2Proof/Laws/Tables.lean ====
section
/-! SUPPORT. The laws of sparse tables: what reading gives after a write, a removal or a change of every entry. -/

namespace Sys2Proof.Machine

variable {α : Type}

@[simp] theorem Tbl.get?_set_same (t : Tbl α) (k : Nat) (v : α) : Tbl.get? (Tbl.set t k v) k = some v := by
  induction t with
  | nil => simp [Tbl.set, Tbl.get?]
  | cons p t ih =>
    obtain ⟨i, w⟩ := p
    unfold Tbl.set
    split
    · simp [Tbl.get?]
    · split
      · simp [Tbl.get?]
      · simp [Tbl.get?, *]

theorem Tbl.get?_set_ne (t : Tbl α) {k j : Nat} (v : α) (h : j ≠ k) :
    Tbl.get? (Tbl.set t k v) j = Tbl.get? t j := by
  induction t with
  | nil => simp [Tbl.set, Tbl.get?, h.symm]
  | cons p t ih =>
    obtain ⟨i, w⟩ := p
    unfold Tbl.set
    split
    · subst i; simp [Tbl.get?, h.symm]
    · split
      · simp [Tbl.get?, h.symm]
      · simp [Tbl.get?, ih]

/-- Writing an entry twice leaves the later value. -/
theorem Tbl.set_set (t : Tbl α) (k : Nat) (v w : α) : Tbl.set (Tbl.set t k v) k w = Tbl.set t k w := by
  induction t with
  | nil => simp [Tbl.set]
  | cons p t ih =>
    obtain ⟨i, u⟩ := p
    by_cases h : i = k
    · subst h; simp [Tbl.set]
    · by_cases h1 : k < i
      · simp [Tbl.set, h, h1]
      · simp [Tbl.set, h, h1, ih]

@[simp] theorem Tbl.getD_set_same (t : Tbl α) (k : Nat) (v d : α) : Tbl.getD (Tbl.set t k v) k d = v := by
  simp [Tbl.getD]

theorem Tbl.getD_set_ne (t : Tbl α) {k j : Nat} (v d : α) (h : j ≠ k) :
    Tbl.getD (Tbl.set t k v) j d = Tbl.getD t j d := by
  simp [Tbl.getD, Tbl.get?_set_ne t v h]

@[simp] theorem Tbl.get?_erase_same (t : Tbl α) (k : Nat) : Tbl.get? (Tbl.erase t k) k = none := by
  induction t with
  | nil => rfl
  | cons p t ih =>
    obtain ⟨i, w⟩ := p
    unfold Tbl.erase
    split
    · exact ih
    · simp [Tbl.get?, *]

theorem Tbl.get?_erase_ne (t : Tbl α) {k j : Nat} (h : j ≠ k) : Tbl.get? (Tbl.erase t k) j = Tbl.get? t j := by
  induction t with
  | nil => rfl
  | cons p t ih =>
    obtain ⟨i, w⟩ := p
    unfold Tbl.erase
    split
    · subst i; simp [Tbl.get?, h.symm, ih]
    · simp [Tbl.get?, ih]

@[simp] theorem Tbl.get?_mapVals (t : Tbl α) (f : Nat → α → α) (k : Nat) :
    Tbl.get? (Tbl.mapVals t f) k = (Tbl.get? t k).map (f k) := by
  induction t with
  | nil => rfl
  | cons p t ih =>
    obtain ⟨i, w⟩ := p
    simp only [Tbl.mapVals, List.map_cons, Tbl.get?] at *
    split
    · subst i; rfl
    · exact ih

@[simp] theorem Tbl.getD_modify_same (t : Tbl α) (k : Nat) (d : α) (f : α → α) :
    Tbl.getD (Tbl.modify t k d f) k d = f (Tbl.getD t k d) := by
  simp [Tbl.modify]

theorem Tbl.getD_modify_ne (t : Tbl α) {k j : Nat} (d : α) (f : α → α) (h : j ≠ k) :
    Tbl.getD (Tbl.modify t k d f) j d = Tbl.getD t j d := by
  simp [Tbl.modify, Tbl.getD_set_ne t _ _ h]

end Sys2Proof.Machine
end

