-- ==== Sys2Proof/Laws/State.lean ====
section
/-! SUPPORT. What each small update of the state leaves in every field it does not write, and what the accessors read
after it. -/

namespace Sys2Proof.Machine

/-! ### `State.emit` -/

@[simp] theorem State.emit_pending (s : State) (o : Out) : (s.emit o).pending = s.pending := rfl
@[simp] theorem State.emit_draws (s : State) (o : Out) : (s.emit o).draws = s.draws := rfl
@[simp] theorem State.emit_fuses (s : State) (o : Out) : (s.emit o).fuses = s.fuses := rfl
@[simp] theorem State.emit_pins (s : State) (o : Out) : (s.emit o).pins = s.pins := rfl
@[simp] theorem State.emit_boot (s : State) (o : Out) : (s.emit o).boot = s.boot := rfl
@[simp] theorem State.emit_clk (s : State) (o : Out) : (s.emit o).clk = s.clk := rfl
@[simp] theorem State.emit_pwr (s : State) (o : Out) : (s.emit o).pwr = s.pwr := rfl
@[simp] theorem State.emit_flt (s : State) (o : Out) : (s.emit o).flt = s.flt := rfl
@[simp] theorem State.emit_spares (s : State) (o : Out) : (s.emit o).spares = s.spares := rfl
@[simp] theorem State.emit_mem (s : State) (o : Out) : (s.emit o).mem = s.mem := rfl
@[simp] theorem State.emit_side (s : State) (o : Out) : (s.emit o).side = s.side := rfl
@[simp] theorem State.emit_allocCtr (s : State) (o : Out) : (s.emit o).allocCtr = s.allocCtr := rfl
@[simp] theorem State.emit_allocs (s : State) (o : Out) : (s.emit o).allocs = s.allocs := rfl
@[simp] theorem State.emit_badGrains (s : State) (o : Out) : (s.emit o).badGrains = s.badGrains := rfl
@[simp] theorem State.emit_sessions (s : State) (o : Out) : (s.emit o).sessions = s.sessions := rfl
@[simp] theorem State.emit_provs (s : State) (o : Out) : (s.emit o).provs = s.provs := rfl
@[simp] theorem State.emit_parts (s : State) (o : Out) : (s.emit o).parts = s.parts := rfl
@[simp] theorem State.emit_cfg (s : State) (o : Out) : (s.emit o).cfg = s.cfg := rfl
@[simp] theorem State.emit_ep (s : State) (o : Out) : (s.emit o).ep = s.ep := rfl
@[simp] theorem State.emit_slc (s : State) (o : Out) : (s.emit o).slc = s.slc := rfl
@[simp] theorem State.emit_wt (s : State) (o : Out) : (s.emit o).wt = s.wt := rfl
@[simp] theorem State.emit_jets (s : State) (o : Out) : (s.emit o).jets = s.jets := rfl
@[simp] theorem State.emit_jetSched (s : State) (o : Out) : (s.emit o).jetSched = s.jetSched := rfl
@[simp] theorem State.emit_sec (s : State) (o : Out) : (s.emit o).sec = s.sec := rfl
@[simp] theorem State.emit_mboxes (s : State) (o : Out) : (s.emit o).mboxes = s.mboxes := rfl
@[simp] theorem State.emit_mbNext (s : State) (o : Out) : (s.emit o).mbNext = s.mbNext := rfl
@[simp] theorem State.emit_twin (s : State) (o : Out) : (s.emit o).twin = s.twin := rfl
@[simp] theorem State.emit_sb (s : State) (o : Out) : (s.emit o).sb = s.sb := rfl

/-! ### `State.emits` -/

@[simp] theorem State.emits_pending (s : State) (l : List Out) : (s.emits l).pending = s.pending := rfl
@[simp] theorem State.emits_draws (s : State) (l : List Out) : (s.emits l).draws = s.draws := rfl
@[simp] theorem State.emits_fuses (s : State) (l : List Out) : (s.emits l).fuses = s.fuses := rfl
@[simp] theorem State.emits_pins (s : State) (l : List Out) : (s.emits l).pins = s.pins := rfl
@[simp] theorem State.emits_boot (s : State) (l : List Out) : (s.emits l).boot = s.boot := rfl
@[simp] theorem State.emits_clk (s : State) (l : List Out) : (s.emits l).clk = s.clk := rfl
@[simp] theorem State.emits_pwr (s : State) (l : List Out) : (s.emits l).pwr = s.pwr := rfl
@[simp] theorem State.emits_flt (s : State) (l : List Out) : (s.emits l).flt = s.flt := rfl
@[simp] theorem State.emits_spares (s : State) (l : List Out) : (s.emits l).spares = s.spares := rfl
@[simp] theorem State.emits_mem (s : State) (l : List Out) : (s.emits l).mem = s.mem := rfl
@[simp] theorem State.emits_side (s : State) (l : List Out) : (s.emits l).side = s.side := rfl
@[simp] theorem State.emits_allocCtr (s : State) (l : List Out) : (s.emits l).allocCtr = s.allocCtr := rfl
@[simp] theorem State.emits_allocs (s : State) (l : List Out) : (s.emits l).allocs = s.allocs := rfl
@[simp] theorem State.emits_badGrains (s : State) (l : List Out) : (s.emits l).badGrains = s.badGrains := rfl
@[simp] theorem State.emits_sessions (s : State) (l : List Out) : (s.emits l).sessions = s.sessions := rfl
@[simp] theorem State.emits_provs (s : State) (l : List Out) : (s.emits l).provs = s.provs := rfl
@[simp] theorem State.emits_parts (s : State) (l : List Out) : (s.emits l).parts = s.parts := rfl
@[simp] theorem State.emits_cfg (s : State) (l : List Out) : (s.emits l).cfg = s.cfg := rfl
@[simp] theorem State.emits_ep (s : State) (l : List Out) : (s.emits l).ep = s.ep := rfl
@[simp] theorem State.emits_slc (s : State) (l : List Out) : (s.emits l).slc = s.slc := rfl
@[simp] theorem State.emits_wt (s : State) (l : List Out) : (s.emits l).wt = s.wt := rfl
@[simp] theorem State.emits_jets (s : State) (l : List Out) : (s.emits l).jets = s.jets := rfl
@[simp] theorem State.emits_jetSched (s : State) (l : List Out) : (s.emits l).jetSched = s.jetSched := rfl
@[simp] theorem State.emits_sec (s : State) (l : List Out) : (s.emits l).sec = s.sec := rfl
@[simp] theorem State.emits_mboxes (s : State) (l : List Out) : (s.emits l).mboxes = s.mboxes := rfl
@[simp] theorem State.emits_mbNext (s : State) (l : List Out) : (s.emits l).mbNext = s.mbNext := rfl
@[simp] theorem State.emits_twin (s : State) (l : List Out) : (s.emits l).twin = s.twin := rfl
@[simp] theorem State.emits_sb (s : State) (l : List Out) : (s.emits l).sb = s.sb := rfl

/-! ### `State.upTo` -/

@[simp] theorem State.upTo_pending (s : State) (n : Nat) : (s.upTo n).pending = s.pending := rfl
@[simp] theorem State.upTo_draws (s : State) (n : Nat) : (s.upTo n).draws = s.draws := rfl
@[simp] theorem State.upTo_out (s : State) (n : Nat) : (s.upTo n).out = s.out := rfl
@[simp] theorem State.upTo_fuses (s : State) (n : Nat) : (s.upTo n).fuses = s.fuses := rfl
@[simp] theorem State.upTo_pins (s : State) (n : Nat) : (s.upTo n).pins = s.pins := rfl
@[simp] theorem State.upTo_boot (s : State) (n : Nat) : (s.upTo n).boot = s.boot := rfl
@[simp] theorem State.upTo_pwr (s : State) (n : Nat) : (s.upTo n).pwr = s.pwr := rfl
@[simp] theorem State.upTo_flt (s : State) (n : Nat) : (s.upTo n).flt = s.flt := rfl
@[simp] theorem State.upTo_spares (s : State) (n : Nat) : (s.upTo n).spares = s.spares := rfl
@[simp] theorem State.upTo_mem (s : State) (n : Nat) : (s.upTo n).mem = s.mem := rfl
@[simp] theorem State.upTo_side (s : State) (n : Nat) : (s.upTo n).side = s.side := rfl
@[simp] theorem State.upTo_allocCtr (s : State) (n : Nat) : (s.upTo n).allocCtr = s.allocCtr := rfl
@[simp] theorem State.upTo_allocs (s : State) (n : Nat) : (s.upTo n).allocs = s.allocs := rfl
@[simp] theorem State.upTo_badGrains (s : State) (n : Nat) : (s.upTo n).badGrains = s.badGrains := rfl
@[simp] theorem State.upTo_sessions (s : State) (n : Nat) : (s.upTo n).sessions = s.sessions := rfl
@[simp] theorem State.upTo_provs (s : State) (n : Nat) : (s.upTo n).provs = s.provs := rfl
@[simp] theorem State.upTo_parts (s : State) (n : Nat) : (s.upTo n).parts = s.parts := rfl
@[simp] theorem State.upTo_cfg (s : State) (n : Nat) : (s.upTo n).cfg = s.cfg := rfl
@[simp] theorem State.upTo_ep (s : State) (n : Nat) : (s.upTo n).ep = s.ep := rfl
@[simp] theorem State.upTo_slc (s : State) (n : Nat) : (s.upTo n).slc = s.slc := rfl
@[simp] theorem State.upTo_wt (s : State) (n : Nat) : (s.upTo n).wt = s.wt := rfl
@[simp] theorem State.upTo_jets (s : State) (n : Nat) : (s.upTo n).jets = s.jets := rfl
@[simp] theorem State.upTo_jetSched (s : State) (n : Nat) : (s.upTo n).jetSched = s.jetSched := rfl
@[simp] theorem State.upTo_sec (s : State) (n : Nat) : (s.upTo n).sec = s.sec := rfl
@[simp] theorem State.upTo_mboxes (s : State) (n : Nat) : (s.upTo n).mboxes = s.mboxes := rfl
@[simp] theorem State.upTo_mbNext (s : State) (n : Nat) : (s.upTo n).mbNext = s.mbNext := rfl
@[simp] theorem State.upTo_twin (s : State) (n : Nat) : (s.upTo n).twin = s.twin := rfl
@[simp] theorem State.upTo_sb (s : State) (n : Nat) : (s.upTo n).sb = s.sb := rfl

/-! ### `State.putGrain` -/

@[simp] theorem State.putGrain_pending (s : State) (g : Nat) (m : Bool) (w : BitVec 16) (b : List Byte) : (s.putGrain g m w b).pending = s.pending := rfl
@[simp] theorem State.putGrain_draws (s : State) (g : Nat) (m : Bool) (w : BitVec 16) (b : List Byte) : (s.putGrain g m w b).draws = s.draws := rfl
@[simp] theorem State.putGrain_out (s : State) (g : Nat) (m : Bool) (w : BitVec 16) (b : List Byte) : (s.putGrain g m w b).out = s.out := rfl
@[simp] theorem State.putGrain_fuses (s : State) (g : Nat) (m : Bool) (w : BitVec 16) (b : List Byte) : (s.putGrain g m w b).fuses = s.fuses := rfl
@[simp] theorem State.putGrain_pins (s : State) (g : Nat) (m : Bool) (w : BitVec 16) (b : List Byte) : (s.putGrain g m w b).pins = s.pins := rfl
@[simp] theorem State.putGrain_boot (s : State) (g : Nat) (m : Bool) (w : BitVec 16) (b : List Byte) : (s.putGrain g m w b).boot = s.boot := rfl
@[simp] theorem State.putGrain_clk (s : State) (g : Nat) (m : Bool) (w : BitVec 16) (b : List Byte) : (s.putGrain g m w b).clk = s.clk := rfl
@[simp] theorem State.putGrain_pwr (s : State) (g : Nat) (m : Bool) (w : BitVec 16) (b : List Byte) : (s.putGrain g m w b).pwr = s.pwr := rfl
@[simp] theorem State.putGrain_flt (s : State) (g : Nat) (m : Bool) (w : BitVec 16) (b : List Byte) : (s.putGrain g m w b).flt = s.flt := rfl
@[simp] theorem State.putGrain_spares (s : State) (g : Nat) (m : Bool) (w : BitVec 16) (b : List Byte) : (s.putGrain g m w b).spares = s.spares := rfl
@[simp] theorem State.putGrain_allocCtr (s : State) (g : Nat) (m : Bool) (w : BitVec 16) (b : List Byte) : (s.putGrain g m w b).allocCtr = s.allocCtr := rfl
@[simp] theorem State.putGrain_allocs (s : State) (g : Nat) (m : Bool) (w : BitVec 16) (b : List Byte) : (s.putGrain g m w b).allocs = s.allocs := rfl
@[simp] theorem State.putGrain_badGrains (s : State) (g : Nat) (m : Bool) (w : BitVec 16) (b : List Byte) : (s.putGrain g m w b).badGrains = s.badGrains := rfl
@[simp] theorem State.putGrain_sessions (s : State) (g : Nat) (m : Bool) (w : BitVec 16) (b : List Byte) : (s.putGrain g m w b).sessions = s.sessions := rfl
@[simp] theorem State.putGrain_provs (s : State) (g : Nat) (m : Bool) (w : BitVec 16) (b : List Byte) : (s.putGrain g m w b).provs = s.provs := rfl
@[simp] theorem State.putGrain_parts (s : State) (g : Nat) (m : Bool) (w : BitVec 16) (b : List Byte) : (s.putGrain g m w b).parts = s.parts := rfl
@[simp] theorem State.putGrain_cfg (s : State) (g : Nat) (m : Bool) (w : BitVec 16) (b : List Byte) : (s.putGrain g m w b).cfg = s.cfg := rfl
@[simp] theorem State.putGrain_ep (s : State) (g : Nat) (m : Bool) (w : BitVec 16) (b : List Byte) : (s.putGrain g m w b).ep = s.ep := rfl
@[simp] theorem State.putGrain_slc (s : State) (g : Nat) (m : Bool) (w : BitVec 16) (b : List Byte) : (s.putGrain g m w b).slc = s.slc := rfl
@[simp] theorem State.putGrain_wt (s : State) (g : Nat) (m : Bool) (w : BitVec 16) (b : List Byte) : (s.putGrain g m w b).wt = s.wt := rfl
@[simp] theorem State.putGrain_jets (s : State) (g : Nat) (m : Bool) (w : BitVec 16) (b : List Byte) : (s.putGrain g m w b).jets = s.jets := rfl
@[simp] theorem State.putGrain_jetSched (s : State) (g : Nat) (m : Bool) (w : BitVec 16) (b : List Byte) : (s.putGrain g m w b).jetSched = s.jetSched := rfl
@[simp] theorem State.putGrain_sec (s : State) (g : Nat) (m : Bool) (w : BitVec 16) (b : List Byte) : (s.putGrain g m w b).sec = s.sec := rfl
@[simp] theorem State.putGrain_mboxes (s : State) (g : Nat) (m : Bool) (w : BitVec 16) (b : List Byte) : (s.putGrain g m w b).mboxes = s.mboxes := rfl
@[simp] theorem State.putGrain_mbNext (s : State) (g : Nat) (m : Bool) (w : BitVec 16) (b : List Byte) : (s.putGrain g m w b).mbNext = s.mbNext := rfl
@[simp] theorem State.putGrain_twin (s : State) (g : Nat) (m : Bool) (w : BitVec 16) (b : List Byte) : (s.putGrain g m w b).twin = s.twin := rfl
@[simp] theorem State.putGrain_sb (s : State) (g : Nat) (m : Bool) (w : BitVec 16) (b : List Byte) : (s.putGrain g m w b).sb = s.sb := rfl

/-! ### `State.setJet` -/

@[simp] theorem State.setJet_pending (s : State) (j : Nat) (x : Jet) : (s.setJet j x).pending = s.pending := rfl
@[simp] theorem State.setJet_draws (s : State) (j : Nat) (x : Jet) : (s.setJet j x).draws = s.draws := rfl
@[simp] theorem State.setJet_out (s : State) (j : Nat) (x : Jet) : (s.setJet j x).out = s.out := rfl
@[simp] theorem State.setJet_fuses (s : State) (j : Nat) (x : Jet) : (s.setJet j x).fuses = s.fuses := rfl
@[simp] theorem State.setJet_pins (s : State) (j : Nat) (x : Jet) : (s.setJet j x).pins = s.pins := rfl
@[simp] theorem State.setJet_boot (s : State) (j : Nat) (x : Jet) : (s.setJet j x).boot = s.boot := rfl
@[simp] theorem State.setJet_clk (s : State) (j : Nat) (x : Jet) : (s.setJet j x).clk = s.clk := rfl
@[simp] theorem State.setJet_pwr (s : State) (j : Nat) (x : Jet) : (s.setJet j x).pwr = s.pwr := rfl
@[simp] theorem State.setJet_flt (s : State) (j : Nat) (x : Jet) : (s.setJet j x).flt = s.flt := rfl
@[simp] theorem State.setJet_spares (s : State) (j : Nat) (x : Jet) : (s.setJet j x).spares = s.spares := rfl
@[simp] theorem State.setJet_mem (s : State) (j : Nat) (x : Jet) : (s.setJet j x).mem = s.mem := rfl
@[simp] theorem State.setJet_side (s : State) (j : Nat) (x : Jet) : (s.setJet j x).side = s.side := rfl
@[simp] theorem State.setJet_allocCtr (s : State) (j : Nat) (x : Jet) : (s.setJet j x).allocCtr = s.allocCtr := rfl
@[simp] theorem State.setJet_allocs (s : State) (j : Nat) (x : Jet) : (s.setJet j x).allocs = s.allocs := rfl
@[simp] theorem State.setJet_badGrains (s : State) (j : Nat) (x : Jet) : (s.setJet j x).badGrains = s.badGrains := rfl
@[simp] theorem State.setJet_sessions (s : State) (j : Nat) (x : Jet) : (s.setJet j x).sessions = s.sessions := rfl
@[simp] theorem State.setJet_provs (s : State) (j : Nat) (x : Jet) : (s.setJet j x).provs = s.provs := rfl
@[simp] theorem State.setJet_parts (s : State) (j : Nat) (x : Jet) : (s.setJet j x).parts = s.parts := rfl
@[simp] theorem State.setJet_cfg (s : State) (j : Nat) (x : Jet) : (s.setJet j x).cfg = s.cfg := rfl
@[simp] theorem State.setJet_ep (s : State) (j : Nat) (x : Jet) : (s.setJet j x).ep = s.ep := rfl
@[simp] theorem State.setJet_slc (s : State) (j : Nat) (x : Jet) : (s.setJet j x).slc = s.slc := rfl
@[simp] theorem State.setJet_wt (s : State) (j : Nat) (x : Jet) : (s.setJet j x).wt = s.wt := rfl
@[simp] theorem State.setJet_jetSched (s : State) (j : Nat) (x : Jet) : (s.setJet j x).jetSched = s.jetSched := rfl
@[simp] theorem State.setJet_sec (s : State) (j : Nat) (x : Jet) : (s.setJet j x).sec = s.sec := rfl
@[simp] theorem State.setJet_mboxes (s : State) (j : Nat) (x : Jet) : (s.setJet j x).mboxes = s.mboxes := rfl
@[simp] theorem State.setJet_mbNext (s : State) (j : Nat) (x : Jet) : (s.setJet j x).mbNext = s.mbNext := rfl
@[simp] theorem State.setJet_twin (s : State) (j : Nat) (x : Jet) : (s.setJet j x).twin = s.twin := rfl
@[simp] theorem State.setJet_sb (s : State) (j : Nat) (x : Jet) : (s.setJet j x).sb = s.sb := rfl

/-! ### `State.updJet` -/

@[simp] theorem State.updJet_pending (s : State) (j : Nat) (f : Jet → Jet) : (s.updJet j f).pending = s.pending := rfl
@[simp] theorem State.updJet_draws (s : State) (j : Nat) (f : Jet → Jet) : (s.updJet j f).draws = s.draws := rfl
@[simp] theorem State.updJet_out (s : State) (j : Nat) (f : Jet → Jet) : (s.updJet j f).out = s.out := rfl
@[simp] theorem State.updJet_fuses (s : State) (j : Nat) (f : Jet → Jet) : (s.updJet j f).fuses = s.fuses := rfl
@[simp] theorem State.updJet_pins (s : State) (j : Nat) (f : Jet → Jet) : (s.updJet j f).pins = s.pins := rfl
@[simp] theorem State.updJet_boot (s : State) (j : Nat) (f : Jet → Jet) : (s.updJet j f).boot = s.boot := rfl
@[simp] theorem State.updJet_clk (s : State) (j : Nat) (f : Jet → Jet) : (s.updJet j f).clk = s.clk := rfl
@[simp] theorem State.updJet_pwr (s : State) (j : Nat) (f : Jet → Jet) : (s.updJet j f).pwr = s.pwr := rfl
@[simp] theorem State.updJet_flt (s : State) (j : Nat) (f : Jet → Jet) : (s.updJet j f).flt = s.flt := rfl
@[simp] theorem State.updJet_spares (s : State) (j : Nat) (f : Jet → Jet) : (s.updJet j f).spares = s.spares := rfl
@[simp] theorem State.updJet_mem (s : State) (j : Nat) (f : Jet → Jet) : (s.updJet j f).mem = s.mem := rfl
@[simp] theorem State.updJet_side (s : State) (j : Nat) (f : Jet → Jet) : (s.updJet j f).side = s.side := rfl
@[simp] theorem State.updJet_allocCtr (s : State) (j : Nat) (f : Jet → Jet) : (s.updJet j f).allocCtr = s.allocCtr := rfl
@[simp] theorem State.updJet_allocs (s : State) (j : Nat) (f : Jet → Jet) : (s.updJet j f).allocs = s.allocs := rfl
@[simp] theorem State.updJet_badGrains (s : State) (j : Nat) (f : Jet → Jet) : (s.updJet j f).badGrains = s.badGrains := rfl
@[simp] theorem State.updJet_sessions (s : State) (j : Nat) (f : Jet → Jet) : (s.updJet j f).sessions = s.sessions := rfl
@[simp] theorem State.updJet_provs (s : State) (j : Nat) (f : Jet → Jet) : (s.updJet j f).provs = s.provs := rfl
@[simp] theorem State.updJet_parts (s : State) (j : Nat) (f : Jet → Jet) : (s.updJet j f).parts = s.parts := rfl
@[simp] theorem State.updJet_cfg (s : State) (j : Nat) (f : Jet → Jet) : (s.updJet j f).cfg = s.cfg := rfl
@[simp] theorem State.updJet_ep (s : State) (j : Nat) (f : Jet → Jet) : (s.updJet j f).ep = s.ep := rfl
@[simp] theorem State.updJet_slc (s : State) (j : Nat) (f : Jet → Jet) : (s.updJet j f).slc = s.slc := rfl
@[simp] theorem State.updJet_wt (s : State) (j : Nat) (f : Jet → Jet) : (s.updJet j f).wt = s.wt := rfl
@[simp] theorem State.updJet_jetSched (s : State) (j : Nat) (f : Jet → Jet) : (s.updJet j f).jetSched = s.jetSched := rfl
@[simp] theorem State.updJet_sec (s : State) (j : Nat) (f : Jet → Jet) : (s.updJet j f).sec = s.sec := rfl
@[simp] theorem State.updJet_mboxes (s : State) (j : Nat) (f : Jet → Jet) : (s.updJet j f).mboxes = s.mboxes := rfl
@[simp] theorem State.updJet_mbNext (s : State) (j : Nat) (f : Jet → Jet) : (s.updJet j f).mbNext = s.mbNext := rfl
@[simp] theorem State.updJet_twin (s : State) (j : Nat) (f : Jet → Jet) : (s.updJet j f).twin = s.twin := rfl
@[simp] theorem State.updJet_sb (s : State) (j : Nat) (f : Jet → Jet) : (s.updJet j f).sb = s.sb := rfl

/-! ### `State.setPort` -/

@[simp] theorem State.setPort_pending (s : State) (p : Nat) (x : Port) : (s.setPort p x).pending = s.pending := rfl
@[simp] theorem State.setPort_draws (s : State) (p : Nat) (x : Port) : (s.setPort p x).draws = s.draws := rfl
@[simp] theorem State.setPort_out (s : State) (p : Nat) (x : Port) : (s.setPort p x).out = s.out := rfl
@[simp] theorem State.setPort_fuses (s : State) (p : Nat) (x : Port) : (s.setPort p x).fuses = s.fuses := rfl
@[simp] theorem State.setPort_pins (s : State) (p : Nat) (x : Port) : (s.setPort p x).pins = s.pins := rfl
@[simp] theorem State.setPort_boot (s : State) (p : Nat) (x : Port) : (s.setPort p x).boot = s.boot := rfl
@[simp] theorem State.setPort_clk (s : State) (p : Nat) (x : Port) : (s.setPort p x).clk = s.clk := rfl
@[simp] theorem State.setPort_pwr (s : State) (p : Nat) (x : Port) : (s.setPort p x).pwr = s.pwr := rfl
@[simp] theorem State.setPort_flt (s : State) (p : Nat) (x : Port) : (s.setPort p x).flt = s.flt := rfl
@[simp] theorem State.setPort_spares (s : State) (p : Nat) (x : Port) : (s.setPort p x).spares = s.spares := rfl
@[simp] theorem State.setPort_mem (s : State) (p : Nat) (x : Port) : (s.setPort p x).mem = s.mem := rfl
@[simp] theorem State.setPort_side (s : State) (p : Nat) (x : Port) : (s.setPort p x).side = s.side := rfl
@[simp] theorem State.setPort_allocCtr (s : State) (p : Nat) (x : Port) : (s.setPort p x).allocCtr = s.allocCtr := rfl
@[simp] theorem State.setPort_allocs (s : State) (p : Nat) (x : Port) : (s.setPort p x).allocs = s.allocs := rfl
@[simp] theorem State.setPort_badGrains (s : State) (p : Nat) (x : Port) : (s.setPort p x).badGrains = s.badGrains := rfl
@[simp] theorem State.setPort_sessions (s : State) (p : Nat) (x : Port) : (s.setPort p x).sessions = s.sessions := rfl
@[simp] theorem State.setPort_provs (s : State) (p : Nat) (x : Port) : (s.setPort p x).provs = s.provs := rfl
@[simp] theorem State.setPort_parts (s : State) (p : Nat) (x : Port) : (s.setPort p x).parts = s.parts := rfl
@[simp] theorem State.setPort_cfg (s : State) (p : Nat) (x : Port) : (s.setPort p x).cfg = s.cfg := rfl
@[simp] theorem State.setPort_ep (s : State) (p : Nat) (x : Port) : (s.setPort p x).ep = s.ep := rfl
@[simp] theorem State.setPort_slc (s : State) (p : Nat) (x : Port) : (s.setPort p x).slc = s.slc := rfl
@[simp] theorem State.setPort_jets (s : State) (p : Nat) (x : Port) : (s.setPort p x).jets = s.jets := rfl
@[simp] theorem State.setPort_jetSched (s : State) (p : Nat) (x : Port) : (s.setPort p x).jetSched = s.jetSched := rfl
@[simp] theorem State.setPort_sec (s : State) (p : Nat) (x : Port) : (s.setPort p x).sec = s.sec := rfl
@[simp] theorem State.setPort_mboxes (s : State) (p : Nat) (x : Port) : (s.setPort p x).mboxes = s.mboxes := rfl
@[simp] theorem State.setPort_mbNext (s : State) (p : Nat) (x : Port) : (s.setPort p x).mbNext = s.mbNext := rfl
@[simp] theorem State.setPort_twin (s : State) (p : Nat) (x : Port) : (s.setPort p x).twin = s.twin := rfl
@[simp] theorem State.setPort_sb (s : State) (p : Nat) (x : Port) : (s.setPort p x).sb = s.sb := rfl

/-! ### `State.updPort` -/

@[simp] theorem State.updPort_pending (s : State) (p : Nat) (f : Port → Port) : (s.updPort p f).pending = s.pending := rfl
@[simp] theorem State.updPort_draws (s : State) (p : Nat) (f : Port → Port) : (s.updPort p f).draws = s.draws := rfl
@[simp] theorem State.updPort_out (s : State) (p : Nat) (f : Port → Port) : (s.updPort p f).out = s.out := rfl
@[simp] theorem State.updPort_fuses (s : State) (p : Nat) (f : Port → Port) : (s.updPort p f).fuses = s.fuses := rfl
@[simp] theorem State.updPort_pins (s : State) (p : Nat) (f : Port → Port) : (s.updPort p f).pins = s.pins := rfl
@[simp] theorem State.updPort_boot (s : State) (p : Nat) (f : Port → Port) : (s.updPort p f).boot = s.boot := rfl
@[simp] theorem State.updPort_clk (s : State) (p : Nat) (f : Port → Port) : (s.updPort p f).clk = s.clk := rfl
@[simp] theorem State.updPort_pwr (s : State) (p : Nat) (f : Port → Port) : (s.updPort p f).pwr = s.pwr := rfl
@[simp] theorem State.updPort_flt (s : State) (p : Nat) (f : Port → Port) : (s.updPort p f).flt = s.flt := rfl
@[simp] theorem State.updPort_spares (s : State) (p : Nat) (f : Port → Port) : (s.updPort p f).spares = s.spares := rfl
@[simp] theorem State.updPort_mem (s : State) (p : Nat) (f : Port → Port) : (s.updPort p f).mem = s.mem := rfl
@[simp] theorem State.updPort_side (s : State) (p : Nat) (f : Port → Port) : (s.updPort p f).side = s.side := rfl
@[simp] theorem State.updPort_allocCtr (s : State) (p : Nat) (f : Port → Port) : (s.updPort p f).allocCtr = s.allocCtr := rfl
@[simp] theorem State.updPort_allocs (s : State) (p : Nat) (f : Port → Port) : (s.updPort p f).allocs = s.allocs := rfl
@[simp] theorem State.updPort_badGrains (s : State) (p : Nat) (f : Port → Port) : (s.updPort p f).badGrains = s.badGrains := rfl
@[simp] theorem State.updPort_sessions (s : State) (p : Nat) (f : Port → Port) : (s.updPort p f).sessions = s.sessions := rfl
@[simp] theorem State.updPort_provs (s : State) (p : Nat) (f : Port → Port) : (s.updPort p f).provs = s.provs := rfl
@[simp] theorem State.updPort_parts (s : State) (p : Nat) (f : Port → Port) : (s.updPort p f).parts = s.parts := rfl
@[simp] theorem State.updPort_cfg (s : State) (p : Nat) (f : Port → Port) : (s.updPort p f).cfg = s.cfg := rfl
@[simp] theorem State.updPort_ep (s : State) (p : Nat) (f : Port → Port) : (s.updPort p f).ep = s.ep := rfl
@[simp] theorem State.updPort_slc (s : State) (p : Nat) (f : Port → Port) : (s.updPort p f).slc = s.slc := rfl
@[simp] theorem State.updPort_jets (s : State) (p : Nat) (f : Port → Port) : (s.updPort p f).jets = s.jets := rfl
@[simp] theorem State.updPort_jetSched (s : State) (p : Nat) (f : Port → Port) : (s.updPort p f).jetSched = s.jetSched := rfl
@[simp] theorem State.updPort_sec (s : State) (p : Nat) (f : Port → Port) : (s.updPort p f).sec = s.sec := rfl
@[simp] theorem State.updPort_mboxes (s : State) (p : Nat) (f : Port → Port) : (s.updPort p f).mboxes = s.mboxes := rfl
@[simp] theorem State.updPort_mbNext (s : State) (p : Nat) (f : Port → Port) : (s.updPort p f).mbNext = s.mbNext := rfl
@[simp] theorem State.updPort_twin (s : State) (p : Nat) (f : Port → Port) : (s.updPort p f).twin = s.twin := rfl
@[simp] theorem State.updPort_sb (s : State) (p : Nat) (f : Port → Port) : (s.updPort p f).sb = s.sb := rfl

/-! ### `State.setQueue` -/

@[simp] theorem State.setQueue_pending (s : State) (q : Nat) (x : Queue) : (s.setQueue q x).pending = s.pending := rfl
@[simp] theorem State.setQueue_draws (s : State) (q : Nat) (x : Queue) : (s.setQueue q x).draws = s.draws := rfl
@[simp] theorem State.setQueue_out (s : State) (q : Nat) (x : Queue) : (s.setQueue q x).out = s.out := rfl
@[simp] theorem State.setQueue_fuses (s : State) (q : Nat) (x : Queue) : (s.setQueue q x).fuses = s.fuses := rfl
@[simp] theorem State.setQueue_pins (s : State) (q : Nat) (x : Queue) : (s.setQueue q x).pins = s.pins := rfl
@[simp] theorem State.setQueue_boot (s : State) (q : Nat) (x : Queue) : (s.setQueue q x).boot = s.boot := rfl
@[simp] theorem State.setQueue_clk (s : State) (q : Nat) (x : Queue) : (s.setQueue q x).clk = s.clk := rfl
@[simp] theorem State.setQueue_pwr (s : State) (q : Nat) (x : Queue) : (s.setQueue q x).pwr = s.pwr := rfl
@[simp] theorem State.setQueue_flt (s : State) (q : Nat) (x : Queue) : (s.setQueue q x).flt = s.flt := rfl
@[simp] theorem State.setQueue_spares (s : State) (q : Nat) (x : Queue) : (s.setQueue q x).spares = s.spares := rfl
@[simp] theorem State.setQueue_mem (s : State) (q : Nat) (x : Queue) : (s.setQueue q x).mem = s.mem := rfl
@[simp] theorem State.setQueue_side (s : State) (q : Nat) (x : Queue) : (s.setQueue q x).side = s.side := rfl
@[simp] theorem State.setQueue_allocCtr (s : State) (q : Nat) (x : Queue) : (s.setQueue q x).allocCtr = s.allocCtr := rfl
@[simp] theorem State.setQueue_allocs (s : State) (q : Nat) (x : Queue) : (s.setQueue q x).allocs = s.allocs := rfl
@[simp] theorem State.setQueue_badGrains (s : State) (q : Nat) (x : Queue) : (s.setQueue q x).badGrains = s.badGrains := rfl
@[simp] theorem State.setQueue_sessions (s : State) (q : Nat) (x : Queue) : (s.setQueue q x).sessions = s.sessions := rfl
@[simp] theorem State.setQueue_provs (s : State) (q : Nat) (x : Queue) : (s.setQueue q x).provs = s.provs := rfl
@[simp] theorem State.setQueue_parts (s : State) (q : Nat) (x : Queue) : (s.setQueue q x).parts = s.parts := rfl
@[simp] theorem State.setQueue_cfg (s : State) (q : Nat) (x : Queue) : (s.setQueue q x).cfg = s.cfg := rfl
@[simp] theorem State.setQueue_ep (s : State) (q : Nat) (x : Queue) : (s.setQueue q x).ep = s.ep := rfl
@[simp] theorem State.setQueue_wt (s : State) (q : Nat) (x : Queue) : (s.setQueue q x).wt = s.wt := rfl
@[simp] theorem State.setQueue_jets (s : State) (q : Nat) (x : Queue) : (s.setQueue q x).jets = s.jets := rfl
@[simp] theorem State.setQueue_jetSched (s : State) (q : Nat) (x : Queue) : (s.setQueue q x).jetSched = s.jetSched := rfl
@[simp] theorem State.setQueue_sec (s : State) (q : Nat) (x : Queue) : (s.setQueue q x).sec = s.sec := rfl
@[simp] theorem State.setQueue_mboxes (s : State) (q : Nat) (x : Queue) : (s.setQueue q x).mboxes = s.mboxes := rfl
@[simp] theorem State.setQueue_mbNext (s : State) (q : Nat) (x : Queue) : (s.setQueue q x).mbNext = s.mbNext := rfl
@[simp] theorem State.setQueue_twin (s : State) (q : Nat) (x : Queue) : (s.setQueue q x).twin = s.twin := rfl
@[simp] theorem State.setQueue_sb (s : State) (q : Nat) (x : Queue) : (s.setQueue q x).sb = s.sb := rfl

/-! ### `State.updQueue` -/

@[simp] theorem State.updQueue_pending (s : State) (q : Nat) (f : Queue → Queue) : (s.updQueue q f).pending = s.pending := rfl
@[simp] theorem State.updQueue_draws (s : State) (q : Nat) (f : Queue → Queue) : (s.updQueue q f).draws = s.draws := rfl
@[simp] theorem State.updQueue_out (s : State) (q : Nat) (f : Queue → Queue) : (s.updQueue q f).out = s.out := rfl
@[simp] theorem State.updQueue_fuses (s : State) (q : Nat) (f : Queue → Queue) : (s.updQueue q f).fuses = s.fuses := rfl
@[simp] theorem State.updQueue_pins (s : State) (q : Nat) (f : Queue → Queue) : (s.updQueue q f).pins = s.pins := rfl
@[simp] theorem State.updQueue_boot (s : State) (q : Nat) (f : Queue → Queue) : (s.updQueue q f).boot = s.boot := rfl
@[simp] theorem State.updQueue_clk (s : State) (q : Nat) (f : Queue → Queue) : (s.updQueue q f).clk = s.clk := rfl
@[simp] theorem State.updQueue_pwr (s : State) (q : Nat) (f : Queue → Queue) : (s.updQueue q f).pwr = s.pwr := rfl
@[simp] theorem State.updQueue_flt (s : State) (q : Nat) (f : Queue → Queue) : (s.updQueue q f).flt = s.flt := rfl
@[simp] theorem State.updQueue_spares (s : State) (q : Nat) (f : Queue → Queue) : (s.updQueue q f).spares = s.spares := rfl
@[simp] theorem State.updQueue_mem (s : State) (q : Nat) (f : Queue → Queue) : (s.updQueue q f).mem = s.mem := rfl
@[simp] theorem State.updQueue_side (s : State) (q : Nat) (f : Queue → Queue) : (s.updQueue q f).side = s.side := rfl
@[simp] theorem State.updQueue_allocCtr (s : State) (q : Nat) (f : Queue → Queue) : (s.updQueue q f).allocCtr = s.allocCtr := rfl
@[simp] theorem State.updQueue_allocs (s : State) (q : Nat) (f : Queue → Queue) : (s.updQueue q f).allocs = s.allocs := rfl
@[simp] theorem State.updQueue_badGrains (s : State) (q : Nat) (f : Queue → Queue) : (s.updQueue q f).badGrains = s.badGrains := rfl
@[simp] theorem State.updQueue_sessions (s : State) (q : Nat) (f : Queue → Queue) : (s.updQueue q f).sessions = s.sessions := rfl
@[simp] theorem State.updQueue_provs (s : State) (q : Nat) (f : Queue → Queue) : (s.updQueue q f).provs = s.provs := rfl
@[simp] theorem State.updQueue_parts (s : State) (q : Nat) (f : Queue → Queue) : (s.updQueue q f).parts = s.parts := rfl
@[simp] theorem State.updQueue_cfg (s : State) (q : Nat) (f : Queue → Queue) : (s.updQueue q f).cfg = s.cfg := rfl
@[simp] theorem State.updQueue_ep (s : State) (q : Nat) (f : Queue → Queue) : (s.updQueue q f).ep = s.ep := rfl
@[simp] theorem State.updQueue_wt (s : State) (q : Nat) (f : Queue → Queue) : (s.updQueue q f).wt = s.wt := rfl
@[simp] theorem State.updQueue_jets (s : State) (q : Nat) (f : Queue → Queue) : (s.updQueue q f).jets = s.jets := rfl
@[simp] theorem State.updQueue_jetSched (s : State) (q : Nat) (f : Queue → Queue) : (s.updQueue q f).jetSched = s.jetSched := rfl
@[simp] theorem State.updQueue_sec (s : State) (q : Nat) (f : Queue → Queue) : (s.updQueue q f).sec = s.sec := rfl
@[simp] theorem State.updQueue_mboxes (s : State) (q : Nat) (f : Queue → Queue) : (s.updQueue q f).mboxes = s.mboxes := rfl
@[simp] theorem State.updQueue_mbNext (s : State) (q : Nat) (f : Queue → Queue) : (s.updQueue q f).mbNext = s.mbNext := rfl
@[simp] theorem State.updQueue_twin (s : State) (q : Nat) (f : Queue → Queue) : (s.updQueue q f).twin = s.twin := rfl
@[simp] theorem State.updQueue_sb (s : State) (q : Nat) (f : Queue → Queue) : (s.updQueue q f).sb = s.sb := rfl

/-! ### `State.setReq` -/

@[simp] theorem State.setReq_pending (s : State) (r : Nat) (x : Req) : (s.setReq r x).pending = s.pending := rfl
@[simp] theorem State.setReq_draws (s : State) (r : Nat) (x : Req) : (s.setReq r x).draws = s.draws := rfl
@[simp] theorem State.setReq_out (s : State) (r : Nat) (x : Req) : (s.setReq r x).out = s.out := rfl
@[simp] theorem State.setReq_fuses (s : State) (r : Nat) (x : Req) : (s.setReq r x).fuses = s.fuses := rfl
@[simp] theorem State.setReq_pins (s : State) (r : Nat) (x : Req) : (s.setReq r x).pins = s.pins := rfl
@[simp] theorem State.setReq_boot (s : State) (r : Nat) (x : Req) : (s.setReq r x).boot = s.boot := rfl
@[simp] theorem State.setReq_clk (s : State) (r : Nat) (x : Req) : (s.setReq r x).clk = s.clk := rfl
@[simp] theorem State.setReq_pwr (s : State) (r : Nat) (x : Req) : (s.setReq r x).pwr = s.pwr := rfl
@[simp] theorem State.setReq_flt (s : State) (r : Nat) (x : Req) : (s.setReq r x).flt = s.flt := rfl
@[simp] theorem State.setReq_spares (s : State) (r : Nat) (x : Req) : (s.setReq r x).spares = s.spares := rfl
@[simp] theorem State.setReq_mem (s : State) (r : Nat) (x : Req) : (s.setReq r x).mem = s.mem := rfl
@[simp] theorem State.setReq_side (s : State) (r : Nat) (x : Req) : (s.setReq r x).side = s.side := rfl
@[simp] theorem State.setReq_allocCtr (s : State) (r : Nat) (x : Req) : (s.setReq r x).allocCtr = s.allocCtr := rfl
@[simp] theorem State.setReq_allocs (s : State) (r : Nat) (x : Req) : (s.setReq r x).allocs = s.allocs := rfl
@[simp] theorem State.setReq_badGrains (s : State) (r : Nat) (x : Req) : (s.setReq r x).badGrains = s.badGrains := rfl
@[simp] theorem State.setReq_sessions (s : State) (r : Nat) (x : Req) : (s.setReq r x).sessions = s.sessions := rfl
@[simp] theorem State.setReq_provs (s : State) (r : Nat) (x : Req) : (s.setReq r x).provs = s.provs := rfl
@[simp] theorem State.setReq_parts (s : State) (r : Nat) (x : Req) : (s.setReq r x).parts = s.parts := rfl
@[simp] theorem State.setReq_cfg (s : State) (r : Nat) (x : Req) : (s.setReq r x).cfg = s.cfg := rfl
@[simp] theorem State.setReq_ep (s : State) (r : Nat) (x : Req) : (s.setReq r x).ep = s.ep := rfl
@[simp] theorem State.setReq_wt (s : State) (r : Nat) (x : Req) : (s.setReq r x).wt = s.wt := rfl
@[simp] theorem State.setReq_jets (s : State) (r : Nat) (x : Req) : (s.setReq r x).jets = s.jets := rfl
@[simp] theorem State.setReq_jetSched (s : State) (r : Nat) (x : Req) : (s.setReq r x).jetSched = s.jetSched := rfl
@[simp] theorem State.setReq_sec (s : State) (r : Nat) (x : Req) : (s.setReq r x).sec = s.sec := rfl
@[simp] theorem State.setReq_mboxes (s : State) (r : Nat) (x : Req) : (s.setReq r x).mboxes = s.mboxes := rfl
@[simp] theorem State.setReq_mbNext (s : State) (r : Nat) (x : Req) : (s.setReq r x).mbNext = s.mbNext := rfl
@[simp] theorem State.setReq_twin (s : State) (r : Nat) (x : Req) : (s.setReq r x).twin = s.twin := rfl
@[simp] theorem State.setReq_sb (s : State) (r : Nat) (x : Req) : (s.setReq r x).sb = s.sb := rfl

/-! ### `State.dropReq` -/

@[simp] theorem State.dropReq_pending (s : State) (r : Nat) : (s.dropReq r).pending = s.pending := rfl
@[simp] theorem State.dropReq_draws (s : State) (r : Nat) : (s.dropReq r).draws = s.draws := rfl
@[simp] theorem State.dropReq_out (s : State) (r : Nat) : (s.dropReq r).out = s.out := rfl
@[simp] theorem State.dropReq_fuses (s : State) (r : Nat) : (s.dropReq r).fuses = s.fuses := rfl
@[simp] theorem State.dropReq_pins (s : State) (r : Nat) : (s.dropReq r).pins = s.pins := rfl
@[simp] theorem State.dropReq_boot (s : State) (r : Nat) : (s.dropReq r).boot = s.boot := rfl
@[simp] theorem State.dropReq_clk (s : State) (r : Nat) : (s.dropReq r).clk = s.clk := rfl
@[simp] theorem State.dropReq_pwr (s : State) (r : Nat) : (s.dropReq r).pwr = s.pwr := rfl
@[simp] theorem State.dropReq_flt (s : State) (r : Nat) : (s.dropReq r).flt = s.flt := rfl
@[simp] theorem State.dropReq_spares (s : State) (r : Nat) : (s.dropReq r).spares = s.spares := rfl
@[simp] theorem State.dropReq_mem (s : State) (r : Nat) : (s.dropReq r).mem = s.mem := rfl
@[simp] theorem State.dropReq_side (s : State) (r : Nat) : (s.dropReq r).side = s.side := rfl
@[simp] theorem State.dropReq_allocCtr (s : State) (r : Nat) : (s.dropReq r).allocCtr = s.allocCtr := rfl
@[simp] theorem State.dropReq_allocs (s : State) (r : Nat) : (s.dropReq r).allocs = s.allocs := rfl
@[simp] theorem State.dropReq_badGrains (s : State) (r : Nat) : (s.dropReq r).badGrains = s.badGrains := rfl
@[simp] theorem State.dropReq_sessions (s : State) (r : Nat) : (s.dropReq r).sessions = s.sessions := rfl
@[simp] theorem State.dropReq_provs (s : State) (r : Nat) : (s.dropReq r).provs = s.provs := rfl
@[simp] theorem State.dropReq_parts (s : State) (r : Nat) : (s.dropReq r).parts = s.parts := rfl
@[simp] theorem State.dropReq_cfg (s : State) (r : Nat) : (s.dropReq r).cfg = s.cfg := rfl
@[simp] theorem State.dropReq_ep (s : State) (r : Nat) : (s.dropReq r).ep = s.ep := rfl
@[simp] theorem State.dropReq_wt (s : State) (r : Nat) : (s.dropReq r).wt = s.wt := rfl
@[simp] theorem State.dropReq_jets (s : State) (r : Nat) : (s.dropReq r).jets = s.jets := rfl
@[simp] theorem State.dropReq_jetSched (s : State) (r : Nat) : (s.dropReq r).jetSched = s.jetSched := rfl
@[simp] theorem State.dropReq_sec (s : State) (r : Nat) : (s.dropReq r).sec = s.sec := rfl
@[simp] theorem State.dropReq_mboxes (s : State) (r : Nat) : (s.dropReq r).mboxes = s.mboxes := rfl
@[simp] theorem State.dropReq_mbNext (s : State) (r : Nat) : (s.dropReq r).mbNext = s.mbNext := rfl
@[simp] theorem State.dropReq_twin (s : State) (r : Nat) : (s.dropReq r).twin = s.twin := rfl
@[simp] theorem State.dropReq_sb (s : State) (r : Nat) : (s.dropReq r).sb = s.sb := rfl

/-! ### `State.setKey` -/

@[simp] theorem State.setKey_pending (s : State) (k : Nat) (x : KeySlot) : (s.setKey k x).pending = s.pending := rfl
@[simp] theorem State.setKey_draws (s : State) (k : Nat) (x : KeySlot) : (s.setKey k x).draws = s.draws := rfl
@[simp] theorem State.setKey_out (s : State) (k : Nat) (x : KeySlot) : (s.setKey k x).out = s.out := rfl
@[simp] theorem State.setKey_fuses (s : State) (k : Nat) (x : KeySlot) : (s.setKey k x).fuses = s.fuses := rfl
@[simp] theorem State.setKey_pins (s : State) (k : Nat) (x : KeySlot) : (s.setKey k x).pins = s.pins := rfl
@[simp] theorem State.setKey_boot (s : State) (k : Nat) (x : KeySlot) : (s.setKey k x).boot = s.boot := rfl
@[simp] theorem State.setKey_clk (s : State) (k : Nat) (x : KeySlot) : (s.setKey k x).clk = s.clk := rfl
@[simp] theorem State.setKey_pwr (s : State) (k : Nat) (x : KeySlot) : (s.setKey k x).pwr = s.pwr := rfl
@[simp] theorem State.setKey_flt (s : State) (k : Nat) (x : KeySlot) : (s.setKey k x).flt = s.flt := rfl
@[simp] theorem State.setKey_spares (s : State) (k : Nat) (x : KeySlot) : (s.setKey k x).spares = s.spares := rfl
@[simp] theorem State.setKey_mem (s : State) (k : Nat) (x : KeySlot) : (s.setKey k x).mem = s.mem := rfl
@[simp] theorem State.setKey_side (s : State) (k : Nat) (x : KeySlot) : (s.setKey k x).side = s.side := rfl
@[simp] theorem State.setKey_allocCtr (s : State) (k : Nat) (x : KeySlot) : (s.setKey k x).allocCtr = s.allocCtr := rfl
@[simp] theorem State.setKey_allocs (s : State) (k : Nat) (x : KeySlot) : (s.setKey k x).allocs = s.allocs := rfl
@[simp] theorem State.setKey_badGrains (s : State) (k : Nat) (x : KeySlot) : (s.setKey k x).badGrains = s.badGrains := rfl
@[simp] theorem State.setKey_sessions (s : State) (k : Nat) (x : KeySlot) : (s.setKey k x).sessions = s.sessions := rfl
@[simp] theorem State.setKey_provs (s : State) (k : Nat) (x : KeySlot) : (s.setKey k x).provs = s.provs := rfl
@[simp] theorem State.setKey_parts (s : State) (k : Nat) (x : KeySlot) : (s.setKey k x).parts = s.parts := rfl
@[simp] theorem State.setKey_cfg (s : State) (k : Nat) (x : KeySlot) : (s.setKey k x).cfg = s.cfg := rfl
@[simp] theorem State.setKey_ep (s : State) (k : Nat) (x : KeySlot) : (s.setKey k x).ep = s.ep := rfl
@[simp] theorem State.setKey_slc (s : State) (k : Nat) (x : KeySlot) : (s.setKey k x).slc = s.slc := rfl
@[simp] theorem State.setKey_wt (s : State) (k : Nat) (x : KeySlot) : (s.setKey k x).wt = s.wt := rfl
@[simp] theorem State.setKey_jets (s : State) (k : Nat) (x : KeySlot) : (s.setKey k x).jets = s.jets := rfl
@[simp] theorem State.setKey_jetSched (s : State) (k : Nat) (x : KeySlot) : (s.setKey k x).jetSched = s.jetSched := rfl
@[simp] theorem State.setKey_mboxes (s : State) (k : Nat) (x : KeySlot) : (s.setKey k x).mboxes = s.mboxes := rfl
@[simp] theorem State.setKey_mbNext (s : State) (k : Nat) (x : KeySlot) : (s.setKey k x).mbNext = s.mbNext := rfl
@[simp] theorem State.setKey_twin (s : State) (k : Nat) (x : KeySlot) : (s.setKey k x).twin = s.twin := rfl
@[simp] theorem State.setKey_sb (s : State) (k : Nat) (x : KeySlot) : (s.setKey k x).sb = s.sb := rfl

/-! ### `State.setMbox` -/

@[simp] theorem State.setMbox_pending (s : State) (m : Nat) (x : Mbox) : (s.setMbox m x).pending = s.pending := rfl
@[simp] theorem State.setMbox_draws (s : State) (m : Nat) (x : Mbox) : (s.setMbox m x).draws = s.draws := rfl
@[simp] theorem State.setMbox_out (s : State) (m : Nat) (x : Mbox) : (s.setMbox m x).out = s.out := rfl
@[simp] theorem State.setMbox_fuses (s : State) (m : Nat) (x : Mbox) : (s.setMbox m x).fuses = s.fuses := rfl
@[simp] theorem State.setMbox_pins (s : State) (m : Nat) (x : Mbox) : (s.setMbox m x).pins = s.pins := rfl
@[simp] theorem State.setMbox_boot (s : State) (m : Nat) (x : Mbox) : (s.setMbox m x).boot = s.boot := rfl
@[simp] theorem State.setMbox_clk (s : State) (m : Nat) (x : Mbox) : (s.setMbox m x).clk = s.clk := rfl
@[simp] theorem State.setMbox_pwr (s : State) (m : Nat) (x : Mbox) : (s.setMbox m x).pwr = s.pwr := rfl
@[simp] theorem State.setMbox_flt (s : State) (m : Nat) (x : Mbox) : (s.setMbox m x).flt = s.flt := rfl
@[simp] theorem State.setMbox_spares (s : State) (m : Nat) (x : Mbox) : (s.setMbox m x).spares = s.spares := rfl
@[simp] theorem State.setMbox_mem (s : State) (m : Nat) (x : Mbox) : (s.setMbox m x).mem = s.mem := rfl
@[simp] theorem State.setMbox_side (s : State) (m : Nat) (x : Mbox) : (s.setMbox m x).side = s.side := rfl
@[simp] theorem State.setMbox_allocCtr (s : State) (m : Nat) (x : Mbox) : (s.setMbox m x).allocCtr = s.allocCtr := rfl
@[simp] theorem State.setMbox_allocs (s : State) (m : Nat) (x : Mbox) : (s.setMbox m x).allocs = s.allocs := rfl
@[simp] theorem State.setMbox_badGrains (s : State) (m : Nat) (x : Mbox) : (s.setMbox m x).badGrains = s.badGrains := rfl
@[simp] theorem State.setMbox_sessions (s : State) (m : Nat) (x : Mbox) : (s.setMbox m x).sessions = s.sessions := rfl
@[simp] theorem State.setMbox_provs (s : State) (m : Nat) (x : Mbox) : (s.setMbox m x).provs = s.provs := rfl
@[simp] theorem State.setMbox_parts (s : State) (m : Nat) (x : Mbox) : (s.setMbox m x).parts = s.parts := rfl
@[simp] theorem State.setMbox_cfg (s : State) (m : Nat) (x : Mbox) : (s.setMbox m x).cfg = s.cfg := rfl
@[simp] theorem State.setMbox_ep (s : State) (m : Nat) (x : Mbox) : (s.setMbox m x).ep = s.ep := rfl
@[simp] theorem State.setMbox_slc (s : State) (m : Nat) (x : Mbox) : (s.setMbox m x).slc = s.slc := rfl
@[simp] theorem State.setMbox_wt (s : State) (m : Nat) (x : Mbox) : (s.setMbox m x).wt = s.wt := rfl
@[simp] theorem State.setMbox_jets (s : State) (m : Nat) (x : Mbox) : (s.setMbox m x).jets = s.jets := rfl
@[simp] theorem State.setMbox_jetSched (s : State) (m : Nat) (x : Mbox) : (s.setMbox m x).jetSched = s.jetSched := rfl
@[simp] theorem State.setMbox_sec (s : State) (m : Nat) (x : Mbox) : (s.setMbox m x).sec = s.sec := rfl
@[simp] theorem State.setMbox_mbNext (s : State) (m : Nat) (x : Mbox) : (s.setMbox m x).mbNext = s.mbNext := rfl
@[simp] theorem State.setMbox_twin (s : State) (m : Nat) (x : Mbox) : (s.setMbox m x).twin = s.twin := rfl
@[simp] theorem State.setMbox_sb (s : State) (m : Nat) (x : Mbox) : (s.setMbox m x).sb = s.sb := rfl

/-! ### `State.updMbox` -/

@[simp] theorem State.updMbox_pending (s : State) (m : Nat) (f : Mbox → Mbox) : (s.updMbox m f).pending = s.pending := rfl
@[simp] theorem State.updMbox_draws (s : State) (m : Nat) (f : Mbox → Mbox) : (s.updMbox m f).draws = s.draws := rfl
@[simp] theorem State.updMbox_out (s : State) (m : Nat) (f : Mbox → Mbox) : (s.updMbox m f).out = s.out := rfl
@[simp] theorem State.updMbox_fuses (s : State) (m : Nat) (f : Mbox → Mbox) : (s.updMbox m f).fuses = s.fuses := rfl
@[simp] theorem State.updMbox_pins (s : State) (m : Nat) (f : Mbox → Mbox) : (s.updMbox m f).pins = s.pins := rfl
@[simp] theorem State.updMbox_boot (s : State) (m : Nat) (f : Mbox → Mbox) : (s.updMbox m f).boot = s.boot := rfl
@[simp] theorem State.updMbox_clk (s : State) (m : Nat) (f : Mbox → Mbox) : (s.updMbox m f).clk = s.clk := rfl
@[simp] theorem State.updMbox_pwr (s : State) (m : Nat) (f : Mbox → Mbox) : (s.updMbox m f).pwr = s.pwr := rfl
@[simp] theorem State.updMbox_flt (s : State) (m : Nat) (f : Mbox → Mbox) : (s.updMbox m f).flt = s.flt := rfl
@[simp] theorem State.updMbox_spares (s : State) (m : Nat) (f : Mbox → Mbox) : (s.updMbox m f).spares = s.spares := rfl
@[simp] theorem State.updMbox_mem (s : State) (m : Nat) (f : Mbox → Mbox) : (s.updMbox m f).mem = s.mem := rfl
@[simp] theorem State.updMbox_side (s : State) (m : Nat) (f : Mbox → Mbox) : (s.updMbox m f).side = s.side := rfl
@[simp] theorem State.updMbox_allocCtr (s : State) (m : Nat) (f : Mbox → Mbox) : (s.updMbox m f).allocCtr = s.allocCtr := rfl
@[simp] theorem State.updMbox_allocs (s : State) (m : Nat) (f : Mbox → Mbox) : (s.updMbox m f).allocs = s.allocs := rfl
@[simp] theorem State.updMbox_badGrains (s : State) (m : Nat) (f : Mbox → Mbox) : (s.updMbox m f).badGrains = s.badGrains := rfl
@[simp] theorem State.updMbox_sessions (s : State) (m : Nat) (f : Mbox → Mbox) : (s.updMbox m f).sessions = s.sessions := rfl
@[simp] theorem State.updMbox_provs (s : State) (m : Nat) (f : Mbox → Mbox) : (s.updMbox m f).provs = s.provs := rfl
@[simp] theorem State.updMbox_parts (s : State) (m : Nat) (f : Mbox → Mbox) : (s.updMbox m f).parts = s.parts := rfl
@[simp] theorem State.updMbox_cfg (s : State) (m : Nat) (f : Mbox → Mbox) : (s.updMbox m f).cfg = s.cfg := rfl
@[simp] theorem State.updMbox_ep (s : State) (m : Nat) (f : Mbox → Mbox) : (s.updMbox m f).ep = s.ep := rfl
@[simp] theorem State.updMbox_slc (s : State) (m : Nat) (f : Mbox → Mbox) : (s.updMbox m f).slc = s.slc := rfl
@[simp] theorem State.updMbox_wt (s : State) (m : Nat) (f : Mbox → Mbox) : (s.updMbox m f).wt = s.wt := rfl
@[simp] theorem State.updMbox_jets (s : State) (m : Nat) (f : Mbox → Mbox) : (s.updMbox m f).jets = s.jets := rfl
@[simp] theorem State.updMbox_jetSched (s : State) (m : Nat) (f : Mbox → Mbox) : (s.updMbox m f).jetSched = s.jetSched := rfl
@[simp] theorem State.updMbox_sec (s : State) (m : Nat) (f : Mbox → Mbox) : (s.updMbox m f).sec = s.sec := rfl
@[simp] theorem State.updMbox_mbNext (s : State) (m : Nat) (f : Mbox → Mbox) : (s.updMbox m f).mbNext = s.mbNext := rfl
@[simp] theorem State.updMbox_twin (s : State) (m : Nat) (f : Mbox → Mbox) : (s.updMbox m f).twin = s.twin := rfl
@[simp] theorem State.updMbox_sb (s : State) (m : Nat) (f : Mbox → Mbox) : (s.updMbox m f).sb = s.sb := rfl

/-! ### `State.setPart` -/

@[simp] theorem State.setPart_pending (s : State) (p : Nat) (x : PartState) : (s.setPart p x).pending = s.pending := rfl
@[simp] theorem State.setPart_draws (s : State) (p : Nat) (x : PartState) : (s.setPart p x).draws = s.draws := rfl
@[simp] theorem State.setPart_out (s : State) (p : Nat) (x : PartState) : (s.setPart p x).out = s.out := rfl
@[simp] theorem State.setPart_fuses (s : State) (p : Nat) (x : PartState) : (s.setPart p x).fuses = s.fuses := rfl
@[simp] theorem State.setPart_pins (s : State) (p : Nat) (x : PartState) : (s.setPart p x).pins = s.pins := rfl
@[simp] theorem State.setPart_boot (s : State) (p : Nat) (x : PartState) : (s.setPart p x).boot = s.boot := rfl
@[simp] theorem State.setPart_clk (s : State) (p : Nat) (x : PartState) : (s.setPart p x).clk = s.clk := rfl
@[simp] theorem State.setPart_pwr (s : State) (p : Nat) (x : PartState) : (s.setPart p x).pwr = s.pwr := rfl
@[simp] theorem State.setPart_flt (s : State) (p : Nat) (x : PartState) : (s.setPart p x).flt = s.flt := rfl
@[simp] theorem State.setPart_spares (s : State) (p : Nat) (x : PartState) : (s.setPart p x).spares = s.spares := rfl
@[simp] theorem State.setPart_mem (s : State) (p : Nat) (x : PartState) : (s.setPart p x).mem = s.mem := rfl
@[simp] theorem State.setPart_side (s : State) (p : Nat) (x : PartState) : (s.setPart p x).side = s.side := rfl
@[simp] theorem State.setPart_allocCtr (s : State) (p : Nat) (x : PartState) : (s.setPart p x).allocCtr = s.allocCtr := rfl
@[simp] theorem State.setPart_allocs (s : State) (p : Nat) (x : PartState) : (s.setPart p x).allocs = s.allocs := rfl
@[simp] theorem State.setPart_badGrains (s : State) (p : Nat) (x : PartState) : (s.setPart p x).badGrains = s.badGrains := rfl
@[simp] theorem State.setPart_sessions (s : State) (p : Nat) (x : PartState) : (s.setPart p x).sessions = s.sessions := rfl
@[simp] theorem State.setPart_provs (s : State) (p : Nat) (x : PartState) : (s.setPart p x).provs = s.provs := rfl
@[simp] theorem State.setPart_cfg (s : State) (p : Nat) (x : PartState) : (s.setPart p x).cfg = s.cfg := rfl
@[simp] theorem State.setPart_ep (s : State) (p : Nat) (x : PartState) : (s.setPart p x).ep = s.ep := rfl
@[simp] theorem State.setPart_slc (s : State) (p : Nat) (x : PartState) : (s.setPart p x).slc = s.slc := rfl
@[simp] theorem State.setPart_wt (s : State) (p : Nat) (x : PartState) : (s.setPart p x).wt = s.wt := rfl
@[simp] theorem State.setPart_jets (s : State) (p : Nat) (x : PartState) : (s.setPart p x).jets = s.jets := rfl
@[simp] theorem State.setPart_jetSched (s : State) (p : Nat) (x : PartState) : (s.setPart p x).jetSched = s.jetSched := rfl
@[simp] theorem State.setPart_sec (s : State) (p : Nat) (x : PartState) : (s.setPart p x).sec = s.sec := rfl
@[simp] theorem State.setPart_mboxes (s : State) (p : Nat) (x : PartState) : (s.setPart p x).mboxes = s.mboxes := rfl
@[simp] theorem State.setPart_mbNext (s : State) (p : Nat) (x : PartState) : (s.setPart p x).mbNext = s.mbNext := rfl
@[simp] theorem State.setPart_twin (s : State) (p : Nat) (x : PartState) : (s.setPart p x).twin = s.twin := rfl
@[simp] theorem State.setPart_sb (s : State) (p : Nat) (x : PartState) : (s.setPart p x).sb = s.sb := rfl

/-! ### `State.updPart` -/

@[simp] theorem State.updPart_pending (s : State) (p : Nat) (f : PartState → PartState) : (s.updPart p f).pending = s.pending := rfl
@[simp] theorem State.updPart_draws (s : State) (p : Nat) (f : PartState → PartState) : (s.updPart p f).draws = s.draws := rfl
@[simp] theorem State.updPart_out (s : State) (p : Nat) (f : PartState → PartState) : (s.updPart p f).out = s.out := rfl
@[simp] theorem State.updPart_fuses (s : State) (p : Nat) (f : PartState → PartState) : (s.updPart p f).fuses = s.fuses := rfl
@[simp] theorem State.updPart_pins (s : State) (p : Nat) (f : PartState → PartState) : (s.updPart p f).pins = s.pins := rfl
@[simp] theorem State.updPart_boot (s : State) (p : Nat) (f : PartState → PartState) : (s.updPart p f).boot = s.boot := rfl
@[simp] theorem State.updPart_clk (s : State) (p : Nat) (f : PartState → PartState) : (s.updPart p f).clk = s.clk := rfl
@[simp] theorem State.updPart_pwr (s : State) (p : Nat) (f : PartState → PartState) : (s.updPart p f).pwr = s.pwr := rfl
@[simp] theorem State.updPart_flt (s : State) (p : Nat) (f : PartState → PartState) : (s.updPart p f).flt = s.flt := rfl
@[simp] theorem State.updPart_spares (s : State) (p : Nat) (f : PartState → PartState) : (s.updPart p f).spares = s.spares := rfl
@[simp] theorem State.updPart_mem (s : State) (p : Nat) (f : PartState → PartState) : (s.updPart p f).mem = s.mem := rfl
@[simp] theorem State.updPart_side (s : State) (p : Nat) (f : PartState → PartState) : (s.updPart p f).side = s.side := rfl
@[simp] theorem State.updPart_allocCtr (s : State) (p : Nat) (f : PartState → PartState) : (s.updPart p f).allocCtr = s.allocCtr := rfl
@[simp] theorem State.updPart_allocs (s : State) (p : Nat) (f : PartState → PartState) : (s.updPart p f).allocs = s.allocs := rfl
@[simp] theorem State.updPart_badGrains (s : State) (p : Nat) (f : PartState → PartState) : (s.updPart p f).badGrains = s.badGrains := rfl
@[simp] theorem State.updPart_sessions (s : State) (p : Nat) (f : PartState → PartState) : (s.updPart p f).sessions = s.sessions := rfl
@[simp] theorem State.updPart_provs (s : State) (p : Nat) (f : PartState → PartState) : (s.updPart p f).provs = s.provs := rfl
@[simp] theorem State.updPart_cfg (s : State) (p : Nat) (f : PartState → PartState) : (s.updPart p f).cfg = s.cfg := rfl
@[simp] theorem State.updPart_ep (s : State) (p : Nat) (f : PartState → PartState) : (s.updPart p f).ep = s.ep := rfl
@[simp] theorem State.updPart_slc (s : State) (p : Nat) (f : PartState → PartState) : (s.updPart p f).slc = s.slc := rfl
@[simp] theorem State.updPart_wt (s : State) (p : Nat) (f : PartState → PartState) : (s.updPart p f).wt = s.wt := rfl
@[simp] theorem State.updPart_jets (s : State) (p : Nat) (f : PartState → PartState) : (s.updPart p f).jets = s.jets := rfl
@[simp] theorem State.updPart_jetSched (s : State) (p : Nat) (f : PartState → PartState) : (s.updPart p f).jetSched = s.jetSched := rfl
@[simp] theorem State.updPart_sec (s : State) (p : Nat) (f : PartState → PartState) : (s.updPart p f).sec = s.sec := rfl
@[simp] theorem State.updPart_mboxes (s : State) (p : Nat) (f : PartState → PartState) : (s.updPart p f).mboxes = s.mboxes := rfl
@[simp] theorem State.updPart_mbNext (s : State) (p : Nat) (f : PartState → PartState) : (s.updPart p f).mbNext = s.mbNext := rfl
@[simp] theorem State.updPart_twin (s : State) (p : Nat) (f : PartState → PartState) : (s.updPart p f).twin = s.twin := rfl
@[simp] theorem State.updPart_sb (s : State) (p : Nat) (f : PartState → PartState) : (s.updPart p f).sb = s.sb := rfl

/-! ### `State.setSession` -/

@[simp] theorem State.setSession_pending (s : State) (n : Nat) (v : Session) : (s.setSession n v).pending = s.pending := rfl
@[simp] theorem State.setSession_draws (s : State) (n : Nat) (v : Session) : (s.setSession n v).draws = s.draws := rfl
@[simp] theorem State.setSession_out (s : State) (n : Nat) (v : Session) : (s.setSession n v).out = s.out := rfl
@[simp] theorem State.setSession_fuses (s : State) (n : Nat) (v : Session) : (s.setSession n v).fuses = s.fuses := rfl
@[simp] theorem State.setSession_pins (s : State) (n : Nat) (v : Session) : (s.setSession n v).pins = s.pins := rfl
@[simp] theorem State.setSession_boot (s : State) (n : Nat) (v : Session) : (s.setSession n v).boot = s.boot := rfl
@[simp] theorem State.setSession_clk (s : State) (n : Nat) (v : Session) : (s.setSession n v).clk = s.clk := rfl
@[simp] theorem State.setSession_pwr (s : State) (n : Nat) (v : Session) : (s.setSession n v).pwr = s.pwr := rfl
@[simp] theorem State.setSession_flt (s : State) (n : Nat) (v : Session) : (s.setSession n v).flt = s.flt := rfl
@[simp] theorem State.setSession_spares (s : State) (n : Nat) (v : Session) : (s.setSession n v).spares = s.spares := rfl
@[simp] theorem State.setSession_mem (s : State) (n : Nat) (v : Session) : (s.setSession n v).mem = s.mem := rfl
@[simp] theorem State.setSession_side (s : State) (n : Nat) (v : Session) : (s.setSession n v).side = s.side := rfl
@[simp] theorem State.setSession_allocCtr (s : State) (n : Nat) (v : Session) : (s.setSession n v).allocCtr = s.allocCtr := rfl
@[simp] theorem State.setSession_allocs (s : State) (n : Nat) (v : Session) : (s.setSession n v).allocs = s.allocs := rfl
@[simp] theorem State.setSession_badGrains (s : State) (n : Nat) (v : Session) : (s.setSession n v).badGrains = s.badGrains := rfl
@[simp] theorem State.setSession_provs (s : State) (n : Nat) (v : Session) : (s.setSession n v).provs = s.provs := rfl
@[simp] theorem State.setSession_parts (s : State) (n : Nat) (v : Session) : (s.setSession n v).parts = s.parts := rfl
@[simp] theorem State.setSession_cfg (s : State) (n : Nat) (v : Session) : (s.setSession n v).cfg = s.cfg := rfl
@[simp] theorem State.setSession_ep (s : State) (n : Nat) (v : Session) : (s.setSession n v).ep = s.ep := rfl
@[simp] theorem State.setSession_slc (s : State) (n : Nat) (v : Session) : (s.setSession n v).slc = s.slc := rfl
@[simp] theorem State.setSession_wt (s : State) (n : Nat) (v : Session) : (s.setSession n v).wt = s.wt := rfl
@[simp] theorem State.setSession_jets (s : State) (n : Nat) (v : Session) : (s.setSession n v).jets = s.jets := rfl
@[simp] theorem State.setSession_jetSched (s : State) (n : Nat) (v : Session) : (s.setSession n v).jetSched = s.jetSched := rfl
@[simp] theorem State.setSession_sec (s : State) (n : Nat) (v : Session) : (s.setSession n v).sec = s.sec := rfl
@[simp] theorem State.setSession_mboxes (s : State) (n : Nat) (v : Session) : (s.setSession n v).mboxes = s.mboxes := rfl
@[simp] theorem State.setSession_mbNext (s : State) (n : Nat) (v : Session) : (s.setSession n v).mbNext = s.mbNext := rfl
@[simp] theorem State.setSession_twin (s : State) (n : Nat) (v : Session) : (s.setSession n v).twin = s.twin := rfl
@[simp] theorem State.setSession_sb (s : State) (n : Nat) (v : Session) : (s.setSession n v).sb = s.sb := rfl

/-! ### `State.setStageSet` -/

@[simp] theorem State.setStageSet_pending (s : State) (m : Nat) (x : StageSet) : (s.setStageSet m x).pending = s.pending := rfl
@[simp] theorem State.setStageSet_draws (s : State) (m : Nat) (x : StageSet) : (s.setStageSet m x).draws = s.draws := rfl
@[simp] theorem State.setStageSet_out (s : State) (m : Nat) (x : StageSet) : (s.setStageSet m x).out = s.out := rfl
@[simp] theorem State.setStageSet_fuses (s : State) (m : Nat) (x : StageSet) : (s.setStageSet m x).fuses = s.fuses := rfl
@[simp] theorem State.setStageSet_pins (s : State) (m : Nat) (x : StageSet) : (s.setStageSet m x).pins = s.pins := rfl
@[simp] theorem State.setStageSet_boot (s : State) (m : Nat) (x : StageSet) : (s.setStageSet m x).boot = s.boot := rfl
@[simp] theorem State.setStageSet_clk (s : State) (m : Nat) (x : StageSet) : (s.setStageSet m x).clk = s.clk := rfl
@[simp] theorem State.setStageSet_pwr (s : State) (m : Nat) (x : StageSet) : (s.setStageSet m x).pwr = s.pwr := rfl
@[simp] theorem State.setStageSet_flt (s : State) (m : Nat) (x : StageSet) : (s.setStageSet m x).flt = s.flt := rfl
@[simp] theorem State.setStageSet_spares (s : State) (m : Nat) (x : StageSet) : (s.setStageSet m x).spares = s.spares := rfl
@[simp] theorem State.setStageSet_mem (s : State) (m : Nat) (x : StageSet) : (s.setStageSet m x).mem = s.mem := rfl
@[simp] theorem State.setStageSet_side (s : State) (m : Nat) (x : StageSet) : (s.setStageSet m x).side = s.side := rfl
@[simp] theorem State.setStageSet_allocCtr (s : State) (m : Nat) (x : StageSet) : (s.setStageSet m x).allocCtr = s.allocCtr := rfl
@[simp] theorem State.setStageSet_allocs (s : State) (m : Nat) (x : StageSet) : (s.setStageSet m x).allocs = s.allocs := rfl
@[simp] theorem State.setStageSet_badGrains (s : State) (m : Nat) (x : StageSet) : (s.setStageSet m x).badGrains = s.badGrains := rfl
@[simp] theorem State.setStageSet_sessions (s : State) (m : Nat) (x : StageSet) : (s.setStageSet m x).sessions = s.sessions := rfl
@[simp] theorem State.setStageSet_provs (s : State) (m : Nat) (x : StageSet) : (s.setStageSet m x).provs = s.provs := rfl
@[simp] theorem State.setStageSet_parts (s : State) (m : Nat) (x : StageSet) : (s.setStageSet m x).parts = s.parts := rfl
@[simp] theorem State.setStageSet_cfg (s : State) (m : Nat) (x : StageSet) : (s.setStageSet m x).cfg = s.cfg := rfl
@[simp] theorem State.setStageSet_slc (s : State) (m : Nat) (x : StageSet) : (s.setStageSet m x).slc = s.slc := rfl
@[simp] theorem State.setStageSet_wt (s : State) (m : Nat) (x : StageSet) : (s.setStageSet m x).wt = s.wt := rfl
@[simp] theorem State.setStageSet_jets (s : State) (m : Nat) (x : StageSet) : (s.setStageSet m x).jets = s.jets := rfl
@[simp] theorem State.setStageSet_jetSched (s : State) (m : Nat) (x : StageSet) : (s.setStageSet m x).jetSched = s.jetSched := rfl
@[simp] theorem State.setStageSet_sec (s : State) (m : Nat) (x : StageSet) : (s.setStageSet m x).sec = s.sec := rfl
@[simp] theorem State.setStageSet_mboxes (s : State) (m : Nat) (x : StageSet) : (s.setStageSet m x).mboxes = s.mboxes := rfl
@[simp] theorem State.setStageSet_mbNext (s : State) (m : Nat) (x : StageSet) : (s.setStageSet m x).mbNext = s.mbNext := rfl
@[simp] theorem State.setStageSet_twin (s : State) (m : Nat) (x : StageSet) : (s.setStageSet m x).twin = s.twin := rfl
@[simp] theorem State.setStageSet_sb (s : State) (m : Nat) (x : StageSet) : (s.setStageSet m x).sb = s.sb := rfl

/-! ### `State.setRx` -/

@[simp] theorem State.setRx_pending (s : State) (src c : Nat) (x : RxFlow) : (s.setRx src c x).pending = s.pending := rfl
@[simp] theorem State.setRx_draws (s : State) (src c : Nat) (x : RxFlow) : (s.setRx src c x).draws = s.draws := rfl
@[simp] theorem State.setRx_out (s : State) (src c : Nat) (x : RxFlow) : (s.setRx src c x).out = s.out := rfl
@[simp] theorem State.setRx_fuses (s : State) (src c : Nat) (x : RxFlow) : (s.setRx src c x).fuses = s.fuses := rfl
@[simp] theorem State.setRx_pins (s : State) (src c : Nat) (x : RxFlow) : (s.setRx src c x).pins = s.pins := rfl
@[simp] theorem State.setRx_boot (s : State) (src c : Nat) (x : RxFlow) : (s.setRx src c x).boot = s.boot := rfl
@[simp] theorem State.setRx_clk (s : State) (src c : Nat) (x : RxFlow) : (s.setRx src c x).clk = s.clk := rfl
@[simp] theorem State.setRx_pwr (s : State) (src c : Nat) (x : RxFlow) : (s.setRx src c x).pwr = s.pwr := rfl
@[simp] theorem State.setRx_flt (s : State) (src c : Nat) (x : RxFlow) : (s.setRx src c x).flt = s.flt := rfl
@[simp] theorem State.setRx_spares (s : State) (src c : Nat) (x : RxFlow) : (s.setRx src c x).spares = s.spares := rfl
@[simp] theorem State.setRx_mem (s : State) (src c : Nat) (x : RxFlow) : (s.setRx src c x).mem = s.mem := rfl
@[simp] theorem State.setRx_side (s : State) (src c : Nat) (x : RxFlow) : (s.setRx src c x).side = s.side := rfl
@[simp] theorem State.setRx_allocCtr (s : State) (src c : Nat) (x : RxFlow) : (s.setRx src c x).allocCtr = s.allocCtr := rfl
@[simp] theorem State.setRx_allocs (s : State) (src c : Nat) (x : RxFlow) : (s.setRx src c x).allocs = s.allocs := rfl
@[simp] theorem State.setRx_badGrains (s : State) (src c : Nat) (x : RxFlow) : (s.setRx src c x).badGrains = s.badGrains := rfl
@[simp] theorem State.setRx_sessions (s : State) (src c : Nat) (x : RxFlow) : (s.setRx src c x).sessions = s.sessions := rfl
@[simp] theorem State.setRx_provs (s : State) (src c : Nat) (x : RxFlow) : (s.setRx src c x).provs = s.provs := rfl
@[simp] theorem State.setRx_parts (s : State) (src c : Nat) (x : RxFlow) : (s.setRx src c x).parts = s.parts := rfl
@[simp] theorem State.setRx_cfg (s : State) (src c : Nat) (x : RxFlow) : (s.setRx src c x).cfg = s.cfg := rfl
@[simp] theorem State.setRx_ep (s : State) (src c : Nat) (x : RxFlow) : (s.setRx src c x).ep = s.ep := rfl
@[simp] theorem State.setRx_slc (s : State) (src c : Nat) (x : RxFlow) : (s.setRx src c x).slc = s.slc := rfl
@[simp] theorem State.setRx_jets (s : State) (src c : Nat) (x : RxFlow) : (s.setRx src c x).jets = s.jets := rfl
@[simp] theorem State.setRx_jetSched (s : State) (src c : Nat) (x : RxFlow) : (s.setRx src c x).jetSched = s.jetSched := rfl
@[simp] theorem State.setRx_sec (s : State) (src c : Nat) (x : RxFlow) : (s.setRx src c x).sec = s.sec := rfl
@[simp] theorem State.setRx_mboxes (s : State) (src c : Nat) (x : RxFlow) : (s.setRx src c x).mboxes = s.mboxes := rfl
@[simp] theorem State.setRx_mbNext (s : State) (src c : Nat) (x : RxFlow) : (s.setRx src c x).mbNext = s.mbNext := rfl
@[simp] theorem State.setRx_twin (s : State) (src c : Nat) (x : RxFlow) : (s.setRx src c x).twin = s.twin := rfl
@[simp] theorem State.setRx_sb (s : State) (src c : Nat) (x : RxFlow) : (s.setRx src c x).sb = s.sb := rfl

/-! ### `State.raiseIrq` -/

@[simp] theorem State.raiseIrq_pending (s : State) (n : Nat) : (s.raiseIrq n).pending = s.pending := rfl
@[simp] theorem State.raiseIrq_draws (s : State) (n : Nat) : (s.raiseIrq n).draws = s.draws := rfl
@[simp] theorem State.raiseIrq_out (s : State) (n : Nat) : (s.raiseIrq n).out = s.out := rfl
@[simp] theorem State.raiseIrq_fuses (s : State) (n : Nat) : (s.raiseIrq n).fuses = s.fuses := rfl
@[simp] theorem State.raiseIrq_pins (s : State) (n : Nat) : (s.raiseIrq n).pins = s.pins := rfl
@[simp] theorem State.raiseIrq_boot (s : State) (n : Nat) : (s.raiseIrq n).boot = s.boot := rfl
@[simp] theorem State.raiseIrq_clk (s : State) (n : Nat) : (s.raiseIrq n).clk = s.clk := rfl
@[simp] theorem State.raiseIrq_pwr (s : State) (n : Nat) : (s.raiseIrq n).pwr = s.pwr := rfl
@[simp] theorem State.raiseIrq_flt (s : State) (n : Nat) : (s.raiseIrq n).flt = s.flt := rfl
@[simp] theorem State.raiseIrq_spares (s : State) (n : Nat) : (s.raiseIrq n).spares = s.spares := rfl
@[simp] theorem State.raiseIrq_mem (s : State) (n : Nat) : (s.raiseIrq n).mem = s.mem := rfl
@[simp] theorem State.raiseIrq_side (s : State) (n : Nat) : (s.raiseIrq n).side = s.side := rfl
@[simp] theorem State.raiseIrq_allocCtr (s : State) (n : Nat) : (s.raiseIrq n).allocCtr = s.allocCtr := rfl
@[simp] theorem State.raiseIrq_allocs (s : State) (n : Nat) : (s.raiseIrq n).allocs = s.allocs := rfl
@[simp] theorem State.raiseIrq_badGrains (s : State) (n : Nat) : (s.raiseIrq n).badGrains = s.badGrains := rfl
@[simp] theorem State.raiseIrq_sessions (s : State) (n : Nat) : (s.raiseIrq n).sessions = s.sessions := rfl
@[simp] theorem State.raiseIrq_provs (s : State) (n : Nat) : (s.raiseIrq n).provs = s.provs := rfl
@[simp] theorem State.raiseIrq_parts (s : State) (n : Nat) : (s.raiseIrq n).parts = s.parts := rfl
@[simp] theorem State.raiseIrq_cfg (s : State) (n : Nat) : (s.raiseIrq n).cfg = s.cfg := rfl
@[simp] theorem State.raiseIrq_ep (s : State) (n : Nat) : (s.raiseIrq n).ep = s.ep := rfl
@[simp] theorem State.raiseIrq_slc (s : State) (n : Nat) : (s.raiseIrq n).slc = s.slc := rfl
@[simp] theorem State.raiseIrq_wt (s : State) (n : Nat) : (s.raiseIrq n).wt = s.wt := rfl
@[simp] theorem State.raiseIrq_jets (s : State) (n : Nat) : (s.raiseIrq n).jets = s.jets := rfl
@[simp] theorem State.raiseIrq_jetSched (s : State) (n : Nat) : (s.raiseIrq n).jetSched = s.jetSched := rfl
@[simp] theorem State.raiseIrq_sec (s : State) (n : Nat) : (s.raiseIrq n).sec = s.sec := rfl
@[simp] theorem State.raiseIrq_mboxes (s : State) (n : Nat) : (s.raiseIrq n).mboxes = s.mboxes := rfl
@[simp] theorem State.raiseIrq_mbNext (s : State) (n : Nat) : (s.raiseIrq n).mbNext = s.mbNext := rfl
@[simp] theorem State.raiseIrq_twin (s : State) (n : Nat) : (s.raiseIrq n).twin = s.twin := rfl

/-! ### `State.count` -/

@[simp] theorem State.count_pending (s : State) (i n : Nat) : (s.count i n).pending = s.pending := rfl
@[simp] theorem State.count_draws (s : State) (i n : Nat) : (s.count i n).draws = s.draws := rfl
@[simp] theorem State.count_out (s : State) (i n : Nat) : (s.count i n).out = s.out := rfl
@[simp] theorem State.count_fuses (s : State) (i n : Nat) : (s.count i n).fuses = s.fuses := rfl
@[simp] theorem State.count_pins (s : State) (i n : Nat) : (s.count i n).pins = s.pins := rfl
@[simp] theorem State.count_boot (s : State) (i n : Nat) : (s.count i n).boot = s.boot := rfl
@[simp] theorem State.count_clk (s : State) (i n : Nat) : (s.count i n).clk = s.clk := rfl
@[simp] theorem State.count_pwr (s : State) (i n : Nat) : (s.count i n).pwr = s.pwr := rfl
@[simp] theorem State.count_spares (s : State) (i n : Nat) : (s.count i n).spares = s.spares := rfl
@[simp] theorem State.count_mem (s : State) (i n : Nat) : (s.count i n).mem = s.mem := rfl
@[simp] theorem State.count_side (s : State) (i n : Nat) : (s.count i n).side = s.side := rfl
@[simp] theorem State.count_allocCtr (s : State) (i n : Nat) : (s.count i n).allocCtr = s.allocCtr := rfl
@[simp] theorem State.count_allocs (s : State) (i n : Nat) : (s.count i n).allocs = s.allocs := rfl
@[simp] theorem State.count_badGrains (s : State) (i n : Nat) : (s.count i n).badGrains = s.badGrains := rfl
@[simp] theorem State.count_sessions (s : State) (i n : Nat) : (s.count i n).sessions = s.sessions := rfl
@[simp] theorem State.count_provs (s : State) (i n : Nat) : (s.count i n).provs = s.provs := rfl
@[simp] theorem State.count_parts (s : State) (i n : Nat) : (s.count i n).parts = s.parts := rfl
@[simp] theorem State.count_cfg (s : State) (i n : Nat) : (s.count i n).cfg = s.cfg := rfl
@[simp] theorem State.count_ep (s : State) (i n : Nat) : (s.count i n).ep = s.ep := rfl
@[simp] theorem State.count_slc (s : State) (i n : Nat) : (s.count i n).slc = s.slc := rfl
@[simp] theorem State.count_wt (s : State) (i n : Nat) : (s.count i n).wt = s.wt := rfl
@[simp] theorem State.count_jets (s : State) (i n : Nat) : (s.count i n).jets = s.jets := rfl
@[simp] theorem State.count_jetSched (s : State) (i n : Nat) : (s.count i n).jetSched = s.jetSched := rfl
@[simp] theorem State.count_sec (s : State) (i n : Nat) : (s.count i n).sec = s.sec := rfl
@[simp] theorem State.count_mboxes (s : State) (i n : Nat) : (s.count i n).mboxes = s.mboxes := rfl
@[simp] theorem State.count_mbNext (s : State) (i n : Nat) : (s.count i n).mbNext = s.mbNext := rfl
@[simp] theorem State.count_twin (s : State) (i n : Nat) : (s.count i n).twin = s.twin := rfl
@[simp] theorem State.count_sb (s : State) (i n : Nat) : (s.count i n).sb = s.sb := rfl

/-! ### `State.countPort` -/

@[simp] theorem State.countPort_pending (s : State) (p i n : Nat) : (s.countPort p i n).pending = s.pending := rfl
@[simp] theorem State.countPort_draws (s : State) (p i n : Nat) : (s.countPort p i n).draws = s.draws := rfl
@[simp] theorem State.countPort_out (s : State) (p i n : Nat) : (s.countPort p i n).out = s.out := rfl
@[simp] theorem State.countPort_fuses (s : State) (p i n : Nat) : (s.countPort p i n).fuses = s.fuses := rfl
@[simp] theorem State.countPort_pins (s : State) (p i n : Nat) : (s.countPort p i n).pins = s.pins := rfl
@[simp] theorem State.countPort_boot (s : State) (p i n : Nat) : (s.countPort p i n).boot = s.boot := rfl
@[simp] theorem State.countPort_clk (s : State) (p i n : Nat) : (s.countPort p i n).clk = s.clk := rfl
@[simp] theorem State.countPort_pwr (s : State) (p i n : Nat) : (s.countPort p i n).pwr = s.pwr := rfl
@[simp] theorem State.countPort_spares (s : State) (p i n : Nat) : (s.countPort p i n).spares = s.spares := rfl
@[simp] theorem State.countPort_mem (s : State) (p i n : Nat) : (s.countPort p i n).mem = s.mem := rfl
@[simp] theorem State.countPort_side (s : State) (p i n : Nat) : (s.countPort p i n).side = s.side := rfl
@[simp] theorem State.countPort_allocCtr (s : State) (p i n : Nat) : (s.countPort p i n).allocCtr = s.allocCtr := rfl
@[simp] theorem State.countPort_allocs (s : State) (p i n : Nat) : (s.countPort p i n).allocs = s.allocs := rfl
@[simp] theorem State.countPort_badGrains (s : State) (p i n : Nat) : (s.countPort p i n).badGrains = s.badGrains := rfl
@[simp] theorem State.countPort_sessions (s : State) (p i n : Nat) : (s.countPort p i n).sessions = s.sessions := rfl
@[simp] theorem State.countPort_provs (s : State) (p i n : Nat) : (s.countPort p i n).provs = s.provs := rfl
@[simp] theorem State.countPort_parts (s : State) (p i n : Nat) : (s.countPort p i n).parts = s.parts := rfl
@[simp] theorem State.countPort_cfg (s : State) (p i n : Nat) : (s.countPort p i n).cfg = s.cfg := rfl
@[simp] theorem State.countPort_ep (s : State) (p i n : Nat) : (s.countPort p i n).ep = s.ep := rfl
@[simp] theorem State.countPort_slc (s : State) (p i n : Nat) : (s.countPort p i n).slc = s.slc := rfl
@[simp] theorem State.countPort_wt (s : State) (p i n : Nat) : (s.countPort p i n).wt = s.wt := rfl
@[simp] theorem State.countPort_jets (s : State) (p i n : Nat) : (s.countPort p i n).jets = s.jets := rfl
@[simp] theorem State.countPort_jetSched (s : State) (p i n : Nat) : (s.countPort p i n).jetSched = s.jetSched := rfl
@[simp] theorem State.countPort_sec (s : State) (p i n : Nat) : (s.countPort p i n).sec = s.sec := rfl
@[simp] theorem State.countPort_mboxes (s : State) (p i n : Nat) : (s.countPort p i n).mboxes = s.mboxes := rfl
@[simp] theorem State.countPort_mbNext (s : State) (p i n : Nat) : (s.countPort p i n).mbNext = s.mbNext := rfl
@[simp] theorem State.countPort_twin (s : State) (p i n : Nat) : (s.countPort p i n).twin = s.twin := rfl
@[simp] theorem State.countPort_sb (s : State) (p i n : Nat) : (s.countPort p i n).sb = s.sb := rfl

/-! ### `State.countPart` -/

@[simp] theorem State.countPart_pending (s : State) (q i n : Nat) : (s.countPart q i n).pending = s.pending := rfl
@[simp] theorem State.countPart_draws (s : State) (q i n : Nat) : (s.countPart q i n).draws = s.draws := rfl
@[simp] theorem State.countPart_out (s : State) (q i n : Nat) : (s.countPart q i n).out = s.out := rfl
@[simp] theorem State.countPart_fuses (s : State) (q i n : Nat) : (s.countPart q i n).fuses = s.fuses := rfl
@[simp] theorem State.countPart_pins (s : State) (q i n : Nat) : (s.countPart q i n).pins = s.pins := rfl
@[simp] theorem State.countPart_boot (s : State) (q i n : Nat) : (s.countPart q i n).boot = s.boot := rfl
@[simp] theorem State.countPart_clk (s : State) (q i n : Nat) : (s.countPart q i n).clk = s.clk := rfl
@[simp] theorem State.countPart_pwr (s : State) (q i n : Nat) : (s.countPart q i n).pwr = s.pwr := rfl
@[simp] theorem State.countPart_spares (s : State) (q i n : Nat) : (s.countPart q i n).spares = s.spares := rfl
@[simp] theorem State.countPart_mem (s : State) (q i n : Nat) : (s.countPart q i n).mem = s.mem := rfl
@[simp] theorem State.countPart_side (s : State) (q i n : Nat) : (s.countPart q i n).side = s.side := rfl
@[simp] theorem State.countPart_allocCtr (s : State) (q i n : Nat) : (s.countPart q i n).allocCtr = s.allocCtr := rfl
@[simp] theorem State.countPart_allocs (s : State) (q i n : Nat) : (s.countPart q i n).allocs = s.allocs := rfl
@[simp] theorem State.countPart_badGrains (s : State) (q i n : Nat) : (s.countPart q i n).badGrains = s.badGrains := rfl
@[simp] theorem State.countPart_sessions (s : State) (q i n : Nat) : (s.countPart q i n).sessions = s.sessions := rfl
@[simp] theorem State.countPart_provs (s : State) (q i n : Nat) : (s.countPart q i n).provs = s.provs := rfl
@[simp] theorem State.countPart_parts (s : State) (q i n : Nat) : (s.countPart q i n).parts = s.parts := rfl
@[simp] theorem State.countPart_cfg (s : State) (q i n : Nat) : (s.countPart q i n).cfg = s.cfg := rfl
@[simp] theorem State.countPart_ep (s : State) (q i n : Nat) : (s.countPart q i n).ep = s.ep := rfl
@[simp] theorem State.countPart_slc (s : State) (q i n : Nat) : (s.countPart q i n).slc = s.slc := rfl
@[simp] theorem State.countPart_wt (s : State) (q i n : Nat) : (s.countPart q i n).wt = s.wt := rfl
@[simp] theorem State.countPart_jets (s : State) (q i n : Nat) : (s.countPart q i n).jets = s.jets := rfl
@[simp] theorem State.countPart_jetSched (s : State) (q i n : Nat) : (s.countPart q i n).jetSched = s.jetSched := rfl
@[simp] theorem State.countPart_sec (s : State) (q i n : Nat) : (s.countPart q i n).sec = s.sec := rfl
@[simp] theorem State.countPart_mboxes (s : State) (q i n : Nat) : (s.countPart q i n).mboxes = s.mboxes := rfl
@[simp] theorem State.countPart_mbNext (s : State) (q i n : Nat) : (s.countPart q i n).mbNext = s.mbNext := rfl
@[simp] theorem State.countPart_twin (s : State) (q i n : Nat) : (s.countPart q i n).twin = s.twin := rfl
@[simp] theorem State.countPart_sb (s : State) (q i n : Nat) : (s.countPart q i n).sb = s.sb := rfl

/-! ### `State.updSb` -/

@[simp] theorem State.updSb_pending (s : State) (f : Sideband → Sideband) : (s.updSb f).pending = s.pending := rfl
@[simp] theorem State.updSb_draws (s : State) (f : Sideband → Sideband) : (s.updSb f).draws = s.draws := rfl
@[simp] theorem State.updSb_out (s : State) (f : Sideband → Sideband) : (s.updSb f).out = s.out := rfl
@[simp] theorem State.updSb_fuses (s : State) (f : Sideband → Sideband) : (s.updSb f).fuses = s.fuses := rfl
@[simp] theorem State.updSb_pins (s : State) (f : Sideband → Sideband) : (s.updSb f).pins = s.pins := rfl
@[simp] theorem State.updSb_boot (s : State) (f : Sideband → Sideband) : (s.updSb f).boot = s.boot := rfl
@[simp] theorem State.updSb_clk (s : State) (f : Sideband → Sideband) : (s.updSb f).clk = s.clk := rfl
@[simp] theorem State.updSb_pwr (s : State) (f : Sideband → Sideband) : (s.updSb f).pwr = s.pwr := rfl
@[simp] theorem State.updSb_flt (s : State) (f : Sideband → Sideband) : (s.updSb f).flt = s.flt := rfl
@[simp] theorem State.updSb_spares (s : State) (f : Sideband → Sideband) : (s.updSb f).spares = s.spares := rfl
@[simp] theorem State.updSb_mem (s : State) (f : Sideband → Sideband) : (s.updSb f).mem = s.mem := rfl
@[simp] theorem State.updSb_side (s : State) (f : Sideband → Sideband) : (s.updSb f).side = s.side := rfl
@[simp] theorem State.updSb_allocCtr (s : State) (f : Sideband → Sideband) : (s.updSb f).allocCtr = s.allocCtr := rfl
@[simp] theorem State.updSb_allocs (s : State) (f : Sideband → Sideband) : (s.updSb f).allocs = s.allocs := rfl
@[simp] theorem State.updSb_badGrains (s : State) (f : Sideband → Sideband) : (s.updSb f).badGrains = s.badGrains := rfl
@[simp] theorem State.updSb_sessions (s : State) (f : Sideband → Sideband) : (s.updSb f).sessions = s.sessions := rfl
@[simp] theorem State.updSb_provs (s : State) (f : Sideband → Sideband) : (s.updSb f).provs = s.provs := rfl
@[simp] theorem State.updSb_parts (s : State) (f : Sideband → Sideband) : (s.updSb f).parts = s.parts := rfl
@[simp] theorem State.updSb_cfg (s : State) (f : Sideband → Sideband) : (s.updSb f).cfg = s.cfg := rfl
@[simp] theorem State.updSb_ep (s : State) (f : Sideband → Sideband) : (s.updSb f).ep = s.ep := rfl
@[simp] theorem State.updSb_slc (s : State) (f : Sideband → Sideband) : (s.updSb f).slc = s.slc := rfl
@[simp] theorem State.updSb_wt (s : State) (f : Sideband → Sideband) : (s.updSb f).wt = s.wt := rfl
@[simp] theorem State.updSb_jets (s : State) (f : Sideband → Sideband) : (s.updSb f).jets = s.jets := rfl
@[simp] theorem State.updSb_jetSched (s : State) (f : Sideband → Sideband) : (s.updSb f).jetSched = s.jetSched := rfl
@[simp] theorem State.updSb_sec (s : State) (f : Sideband → Sideband) : (s.updSb f).sec = s.sec := rfl
@[simp] theorem State.updSb_mboxes (s : State) (f : Sideband → Sideband) : (s.updSb f).mboxes = s.mboxes := rfl
@[simp] theorem State.updSb_mbNext (s : State) (f : Sideband → Sideband) : (s.updSb f).mbNext = s.mbNext := rfl
@[simp] theorem State.updSb_twin (s : State) (f : Sideband → Sideband) : (s.updSb f).twin = s.twin := rfl

/-! ### `State.fence` -/

@[simp] theorem State.fence_pending (s : State) (p : Nat) : (s.fence p).pending = s.pending := rfl
@[simp] theorem State.fence_draws (s : State) (p : Nat) : (s.fence p).draws = s.draws := rfl
@[simp] theorem State.fence_out (s : State) (p : Nat) : (s.fence p).out = s.out := rfl
@[simp] theorem State.fence_fuses (s : State) (p : Nat) : (s.fence p).fuses = s.fuses := rfl
@[simp] theorem State.fence_pins (s : State) (p : Nat) : (s.fence p).pins = s.pins := rfl
@[simp] theorem State.fence_boot (s : State) (p : Nat) : (s.fence p).boot = s.boot := rfl
@[simp] theorem State.fence_clk (s : State) (p : Nat) : (s.fence p).clk = s.clk := rfl
@[simp] theorem State.fence_pwr (s : State) (p : Nat) : (s.fence p).pwr = s.pwr := rfl
@[simp] theorem State.fence_flt (s : State) (p : Nat) : (s.fence p).flt = s.flt := rfl
@[simp] theorem State.fence_spares (s : State) (p : Nat) : (s.fence p).spares = s.spares := rfl
@[simp] theorem State.fence_mem (s : State) (p : Nat) : (s.fence p).mem = s.mem := rfl
@[simp] theorem State.fence_side (s : State) (p : Nat) : (s.fence p).side = s.side := rfl
@[simp] theorem State.fence_allocCtr (s : State) (p : Nat) : (s.fence p).allocCtr = s.allocCtr := rfl
@[simp] theorem State.fence_allocs (s : State) (p : Nat) : (s.fence p).allocs = s.allocs := rfl
@[simp] theorem State.fence_badGrains (s : State) (p : Nat) : (s.fence p).badGrains = s.badGrains := rfl
@[simp] theorem State.fence_sessions (s : State) (p : Nat) : (s.fence p).sessions = s.sessions := rfl
@[simp] theorem State.fence_provs (s : State) (p : Nat) : (s.fence p).provs = s.provs := rfl
@[simp] theorem State.fence_parts (s : State) (p : Nat) : (s.fence p).parts = s.parts := rfl
@[simp] theorem State.fence_cfg (s : State) (p : Nat) : (s.fence p).cfg = s.cfg := rfl
@[simp] theorem State.fence_ep (s : State) (p : Nat) : (s.fence p).ep = s.ep := rfl
@[simp] theorem State.fence_slc (s : State) (p : Nat) : (s.fence p).slc = s.slc := rfl
@[simp] theorem State.fence_wt (s : State) (p : Nat) : (s.fence p).wt = s.wt := rfl
@[simp] theorem State.fence_jets (s : State) (p : Nat) : (s.fence p).jets = s.jets := rfl
@[simp] theorem State.fence_jetSched (s : State) (p : Nat) : (s.fence p).jetSched = s.jetSched := rfl
@[simp] theorem State.fence_mboxes (s : State) (p : Nat) : (s.fence p).mboxes = s.mboxes := rfl
@[simp] theorem State.fence_mbNext (s : State) (p : Nat) : (s.fence p).mbNext = s.mbNext := rfl
@[simp] theorem State.fence_twin (s : State) (p : Nat) : (s.fence p).twin = s.twin := rfl
@[simp] theorem State.fence_sb (s : State) (p : Nat) : (s.fence p).sb = s.sb := rfl

/-! ### Reading after writing -/

@[simp] theorem State.setJet_same (s : State) (j : Nat) (x : Jet) : (s.setJet j x).jet j = x := Tbl.getD_set_same ..
theorem State.setJet_other (s : State) {j i : Nat} (x : Jet) (h : i ≠ j) : (s.setJet j x).jet i = s.jet i :=
  Tbl.getD_set_ne _ _ _ h
@[simp] theorem State.setPort_same (s : State) (p : Nat) (x : Port) : (s.setPort p x).port p = x := Tbl.getD_set_same ..
theorem State.setPort_other (s : State) {p i : Nat} (x : Port) (h : i ≠ p) : (s.setPort p x).port i = s.port i :=
  Tbl.getD_set_ne _ _ _ h
@[simp] theorem State.setQueue_same (s : State) (q : Nat) (x : Queue) : (s.setQueue q x).queue q = x := Tbl.getD_set_same ..
theorem State.setQueue_other (s : State) {q i : Nat} (x : Queue) (h : i ≠ q) : (s.setQueue q x).queue i = s.queue i :=
  Tbl.getD_set_ne _ _ _ h
@[simp] theorem State.setKey_same (s : State) (k : Nat) (x : KeySlot) : (s.setKey k x).key k = x := Tbl.getD_set_same ..
theorem State.setKey_other (s : State) {k i : Nat} (x : KeySlot) (h : i ≠ k) : (s.setKey k x).key i = s.key i :=
  Tbl.getD_set_ne _ _ _ h
@[simp] theorem State.setMbox_same (s : State) (m : Nat) (x : Mbox) : (s.setMbox m x).mbox m = x := Tbl.getD_set_same ..
theorem State.setMbox_other (s : State) {m i : Nat} (x : Mbox) (h : i ≠ m) : (s.setMbox m x).mbox i = s.mbox i :=
  Tbl.getD_set_ne _ _ _ h
@[simp] theorem State.setPart_same (s : State) (p : Nat) (x : PartState) : (s.setPart p x).part p = x := Tbl.getD_set_same ..
theorem State.setPart_other (s : State) {p i : Nat} (x : PartState) (h : i ≠ p) : (s.setPart p x).part i = s.part i :=
  Tbl.getD_set_ne _ _ _ h
@[simp] theorem State.setStageSet_same (s : State) (m : Nat) (x : StageSet) : (s.setStageSet m x).stageSet m = x := Tbl.getD_set_same ..
theorem State.setStageSet_other (s : State) {m i : Nat} (x : StageSet) (h : i ≠ m) : (s.setStageSet m x).stageSet i = s.stageSet i :=
  Tbl.getD_set_ne _ _ _ h
@[simp] theorem State.setReq_same (s : State) (r : Nat) (x : Req) : (s.setReq r x).req? r = some x := Tbl.get?_set_same ..
theorem State.setReq_other (s : State) {r i : Nat} (x : Req) (h : i ≠ r) : (s.setReq r x).req? i = s.req? i :=
  Tbl.get?_set_ne _ _ h
@[simp] theorem State.setSession_same (s : State) (n : Nat) (x : Session) : (s.setSession n x).session? n = some x := Tbl.get?_set_same ..
theorem State.setSession_other (s : State) {n i : Nat} (x : Session) (h : i ≠ n) : (s.setSession n x).session? i = s.session? i :=
  Tbl.get?_set_ne _ _ h
@[simp] theorem State.updJet_same (s : State) (j : Nat) (f : Jet → Jet) : (s.updJet j f).jet j = f (s.jet j) :=
  Tbl.getD_set_same ..
theorem State.updJet_other (s : State) {j i : Nat} (f : Jet → Jet) (h : i ≠ j) : (s.updJet j f).jet i = s.jet i :=
  Tbl.getD_set_ne _ _ _ h
@[simp] theorem State.updPort_same (s : State) (p : Nat) (f : Port → Port) : (s.updPort p f).port p = f (s.port p) :=
  Tbl.getD_set_same ..
theorem State.updPort_other (s : State) {p i : Nat} (f : Port → Port) (h : i ≠ p) : (s.updPort p f).port i = s.port i :=
  Tbl.getD_set_ne _ _ _ h
@[simp] theorem State.updQueue_same (s : State) (q : Nat) (f : Queue → Queue) : (s.updQueue q f).queue q = f (s.queue q) :=
  Tbl.getD_set_same ..
theorem State.updQueue_other (s : State) {q i : Nat} (f : Queue → Queue) (h : i ≠ q) : (s.updQueue q f).queue i = s.queue i :=
  Tbl.getD_set_ne _ _ _ h
@[simp] theorem State.updMbox_same (s : State) (m : Nat) (f : Mbox → Mbox) : (s.updMbox m f).mbox m = f (s.mbox m) :=
  Tbl.getD_set_same ..
theorem State.updMbox_other (s : State) {m i : Nat} (f : Mbox → Mbox) (h : i ≠ m) : (s.updMbox m f).mbox i = s.mbox i :=
  Tbl.getD_set_ne _ _ _ h
@[simp] theorem State.updPart_same (s : State) (p : Nat) (f : PartState → PartState) : (s.updPart p f).part p = f (s.part p) :=
  Tbl.getD_set_same ..
theorem State.updPart_other (s : State) {p i : Nat} (f : PartState → PartState) (h : i ≠ p) : (s.updPart p f).part i = s.part i :=
  Tbl.getD_set_ne _ _ _ h
@[simp] theorem State.dropReq_same (s : State) (r : Nat) : (s.dropReq r).req? r = none := Tbl.get?_erase_same ..
theorem State.dropReq_other (s : State) {r i : Nat} (h : i ≠ r) : (s.dropReq r).req? i = s.req? i := Tbl.get?_erase_ne _ h

end Sys2Proof.Machine
end

