-- ==== Sys2Proof/Laws/FrameBase.lean ====
section
/-! SUPPORT. What a state keeps of another, under the operations that build states: record updates, folds, management
commands and `run`. -/

namespace Sys2Proof.Machine

theorem Keeps.refl (m : List Region) (s : State) : Keeps m s s := by
  refine ⟨fun p _ => ?_⟩; cases p <;> rfl

theorem mk_keeps {m : List Region} {s0 s : State} {xdraws xout xfuses xpins xboot xclk xpwr xflt xspares xmem xside xallocCtr xallocs xbadGrains xsessions xprovs xparts xcfg xep xslc xwt xjets xjetSched xsec xmboxes xmbNext xtwin xsb} (h : Keeps m s0 s)
    (hdraws : xdraws = s.draws ∨ Region.draws ∈ m)
    (hfuses : xfuses = s.fuses ∨ Region.fuses ∈ m)
    (hpins : xpins = s.pins ∨ Region.pins ∈ m)
    (hboot : xboot = s.boot ∨ Region.boot ∈ m)
    (hclk : xclk = s.clk ∨ Region.clk ∈ m)
    (hpwr : xpwr = s.pwr ∨ Region.pwr ∈ m)
    (hflt : xflt = s.flt ∨ Region.flt ∈ m)
    (hspares : xspares = s.spares ∨ Region.spares ∈ m)
    (hmem : xmem = s.mem ∨ Region.mem ∈ m)
    (hside : xside = s.side ∨ Region.side ∈ m)
    (hallocCtr : xallocCtr = s.allocCtr ∨ Region.allocCtr ∈ m)
    (hallocs : xallocs = s.allocs ∨ Region.allocs ∈ m)
    (hbadGrains : xbadGrains = s.badGrains ∨ Region.badGrains ∈ m)
    (hsessions : xsessions = s.sessions ∨ Region.sessions ∈ m)
    (hprovs : xprovs = s.provs ∨ Region.provs ∈ m)
    (hparts : xparts = s.parts ∨ Region.parts ∈ m)
    (hcfg : xcfg = s.cfg ∨ Region.cfg ∈ m)
    (hep : xep = s.ep ∨ Region.ep ∈ m)
    (hslc : xslc = s.slc ∨ Region.slc ∈ m)
    (hwt : xwt = s.wt ∨ Region.wt ∈ m)
    (hjets : xjets = s.jets ∨ Region.jets ∈ m)
    (hjetSched : xjetSched = s.jetSched ∨ Region.jetSched ∈ m)
    (hsec : xsec = s.sec ∨ Region.sec ∈ m)
    (hmboxes : xmboxes = s.mboxes ∨ Region.mboxes ∈ m)
    (hmbNext : xmbNext = s.mbNext ∨ Region.mbNext ∈ m)
    (htwin : xtwin = s.twin ∨ Region.twin ∈ m)
    (hsb : xsb = s.sb ∨ Region.sb ∈ m) :
    Keeps m s0 (State.mk s.pending xdraws xout xfuses xpins xboot xclk xpwr xflt xspares xmem xside xallocCtr xallocs xbadGrains xsessions xprovs xparts xcfg xep xslc xwt xjets xjetSched xsec xmboxes xmbNext xtwin xsb) := by
  refine ⟨fun p hp => ?_⟩
  cases p
  case pending => exact h.same .pending hp
  case draws => exact hdraws.elim (fun e => e.trans (h.same .draws hp)) fun e => absurd e hp
  case fuses => exact hfuses.elim (fun e => e.trans (h.same .fuses hp)) fun e => absurd e hp
  case pins => exact hpins.elim (fun e => e.trans (h.same .pins hp)) fun e => absurd e hp
  case boot => exact hboot.elim (fun e => e.trans (h.same .boot hp)) fun e => absurd e hp
  case clk => exact hclk.elim (fun e => e.trans (h.same .clk hp)) fun e => absurd e hp
  case pwr => exact hpwr.elim (fun e => e.trans (h.same .pwr hp)) fun e => absurd e hp
  case flt => exact hflt.elim (fun e => e.trans (h.same .flt hp)) fun e => absurd e hp
  case spares => exact hspares.elim (fun e => e.trans (h.same .spares hp)) fun e => absurd e hp
  case mem => exact hmem.elim (fun e => e.trans (h.same .mem hp)) fun e => absurd e hp
  case side => exact hside.elim (fun e => e.trans (h.same .side hp)) fun e => absurd e hp
  case allocCtr => exact hallocCtr.elim (fun e => e.trans (h.same .allocCtr hp)) fun e => absurd e hp
  case allocs => exact hallocs.elim (fun e => e.trans (h.same .allocs hp)) fun e => absurd e hp
  case badGrains => exact hbadGrains.elim (fun e => e.trans (h.same .badGrains hp)) fun e => absurd e hp
  case sessions => exact hsessions.elim (fun e => e.trans (h.same .sessions hp)) fun e => absurd e hp
  case provs => exact hprovs.elim (fun e => e.trans (h.same .provs hp)) fun e => absurd e hp
  case parts => exact hparts.elim (fun e => e.trans (h.same .parts hp)) fun e => absurd e hp
  case cfg => exact hcfg.elim (fun e => e.trans (h.same .cfg hp)) fun e => absurd e hp
  case ep => exact hep.elim (fun e => e.trans (h.same .ep hp)) fun e => absurd e hp
  case slc => exact hslc.elim (fun e => e.trans (h.same .slc hp)) fun e => absurd e hp
  case wt => exact hwt.elim (fun e => e.trans (h.same .wt hp)) fun e => absurd e hp
  case jets => exact hjets.elim (fun e => e.trans (h.same .jets hp)) fun e => absurd e hp
  case jetSched => exact hjetSched.elim (fun e => e.trans (h.same .jetSched hp)) fun e => absurd e hp
  case sec => exact hsec.elim (fun e => e.trans (h.same .sec hp)) fun e => absurd e hp
  case mboxes => exact hmboxes.elim (fun e => e.trans (h.same .mboxes hp)) fun e => absurd e hp
  case mbNext => exact hmbNext.elim (fun e => e.trans (h.same .mbNext hp)) fun e => absurd e hp
  case twin => exact htwin.elim (fun e => e.trans (h.same .twin hp)) fun e => absurd e hp
  case sb => exact hsb.elim (fun e => e.trans (h.same .sb hp)) fun e => absurd e hp

theorem ite_keeps {m : List Region} {s0 : State} {c : Prop} [Decidable c] {a b : State} (ha : Keeps m s0 a) (hb : Keeps m s0 b) :
    Keeps m s0 (if c then a else b) := by
  split <;> assumption

theorem foldl_keeps {m : List Region} {s0 : State} {α : Type} {f : State → α → State}
    (hf : ∀ t x, Keeps m s0 t → Keeps m s0 (f t x)) (l : List α) :
    ∀ {s : State}, Keeps m s0 s → Keeps m s0 (l.foldl f s) := by
  induction l with
  | nil => intro s h; exact h
  | cons x l ih => intro s h; exact ih (hf s x h)

theorem State.each_keeps {m : List Region} {s0 : State} {α : Type} {s : State} {l : List α} {f : State → α → State}
    (hf : ∀ t x, Keeps m s0 t → Keeps m s0 (f t x)) (h : Keeps m s0 s) : Keeps m s0 (s.each l f) := foldl_keeps hf l h

theorem State.agtan_keeps {m : List Region} {s0 : State} {s : State} {o : AgtanOp} {c : AgtanCmd} {f : State → State}
    (hf : Keeps m s0 (f s)) (hr : Keeps m s0 (s.respond o.code c (s.agtanStatus o c) [])) (h : Keeps m s0 s) :
    Keeps m s0 (s.agtan o c f) := by
  unfold State.agtan; split
  · split <;> assumption
  · exact h

theorem getD_keeps {m : List Region} {s0 : State} {s : State} {o : Option State} (ho : ∀ t, o = some t → Keeps m s0 t)
    (h : Keeps m s0 s) : Keeps m s0 (o.getD s) := by
  cases o with
  | none => exact h
  | some t => exact ho t rfl

theorem foldlM_some_keeps {m : List Region} {s0 : State} {α : Type} {f : State → α → Option State}
    (hf : ∀ t x u, Keeps m s0 t → f t x = some u → Keeps m s0 u) (l : List α) :
    ∀ {s : State}, Keeps m s0 s → ∀ t, l.foldlM f s = some t → Keeps m s0 t := by
  induction l with
  | nil => intro s h t ht; cases ht; exact h
  | cons x l ih =>
    intro s h t ht
    rw [List.foldlM_cons] at ht
    cases hx : f s x with
    | none => rw [hx] at ht; cases ht
    | some u => rw [hx] at ht; exact ih (hf s x u h hx) t ht

theorem foldlM_ok_keeps {m : List Region} {s0 : State} {α ε : Type} {f : State → α → Except ε State}
    (hf : ∀ t x u, Keeps m s0 t → f t x = .ok u → Keeps m s0 u) (l : List α) :
    ∀ {s : State}, Keeps m s0 s → ∀ t, l.foldlM f s = .ok t → Keeps m s0 t := by
  induction l with
  | nil => intro s h t ht; cases ht; exact h
  | cons x l ih =>
    intro s h t ht
    rw [List.foldlM_cons] at ht
    cases hx : f s x with
    | error e => rw [hx] at ht; cases ht
    | ok u => rw [hx] at ht; exact ih (hf s x u h hx) t ht

theorem foldl_fst_keeps {m : List Region} {s0 : State} {α β : Type} {f : State × β → α → State × β}
    (hf : ∀ a x, Keeps m s0 a.1 → Keeps m s0 (f a x).1) (l : List α) :
    ∀ {a : State × β}, Keeps m s0 a.1 → Keeps m s0 (l.foldl f a).1 := by
  induction l with
  | nil => intro a h; exact h
  | cons x l ih => intro a h; exact ih (hf a x h)

/-- Every next state that an outcome gives differs from `s0` only within `m`. -/
def OutKeeps (m : List Region) (s0 : State) (o : Host.Outcome State Fault Refusal) : Prop := ∀ t, o = .next t → Keeps m s0 t

theorem run_keeps {m : List Region} {s0 s : State} {f : State → State}
    (hf : ∀ u : State, Keeps m s0 u → Keeps m s0 (f u)) (h : Keeps m s0 s) : OutKeeps m s0 (run s f) := by
  intro t ht
  cases ht
  have h1 : Keeps m s0 { s with out := [] } := by
    refine ⟨fun p hp => ?_⟩
    have := h.same p hp
    cases p <;> exact this
  have h2 := hf _ h1
  refine ⟨fun p hp => ?_⟩
  cases p
  case pending => exact h.same .pending hp
  all_goals exact h2.same _ hp

theorem State.announced_keeps {m : List Region} {s0 s : State} {a1 a2} (hm : [Region.clk] ⊆ m) (h : Keeps m s0 s) : Keeps m s0 (State.announced s a1 a2) := by
  unfold State.announced
  try dsimp only
  repeat' first
    | intro _
    | with_reducible assumption
    | with_reducible apply ite_keeps
    | with_reducible apply foldl_keeps
    | (fail_if_no_progress (with_reducible refine mk_keeps ?_ ?_ ?_ ?_ ?_ ?_ ?_ ?_ ?_ ?_ ?_ ?_ ?_ ?_ ?_ ?_ ?_ ?_ ?_ ?_ ?_ ?_ ?_ ?_ ?_ ?_ ?_ ?_) <;> try first | (with_reducible exact Or.inl rfl) | (exact Or.inr (hm (by decide))))

end Sys2Proof.Machine
end

