-- ==== Sys2Proof/Laws/FrameShared.lean ====
section
/-! SUPPORT. The frames of the operations that many commands share: queues, counters, answers, pages, jets and the twin.
One lemma per operation: the parts of the state outside its list stand as before. -/

namespace Sys2Proof.Machine

theorem State.setPart_keeps {m : List Region} {s0 s : State} {a1 a2} (hm : [Region.parts] ⊆ m) (h : Keeps m s0 s) : Keeps m s0 (State.setPart s a1 a2) := by
  unfold State.setPart
  try dsimp only
  repeat' first
    | intro _
    | with_reducible assumption
    | with_reducible apply ite_keeps
    | with_reducible apply foldl_keeps
    | (fail_if_no_progress (with_reducible refine mk_keeps ?_ ?_ ?_ ?_ ?_ ?_ ?_ ?_ ?_ ?_ ?_ ?_ ?_ ?_ ?_ ?_ ?_ ?_ ?_ ?_ ?_ ?_ ?_ ?_ ?_ ?_ ?_ ?_) <;> try first | (with_reducible exact Or.inl rfl) | (exact Or.inr (hm (by decide))))

theorem State.updPart_keeps {m : List Region} {s0 s : State} {a1 a2} (hm : [Region.parts] ⊆ m) (h : Keeps m s0 s) : Keeps m s0 (State.updPart s a1 a2) := by
  unfold State.updPart
  try dsimp only
  repeat' first
    | intro _
    | with_reducible assumption
    | with_reducible refine State.setPart_keeps (List.Subset.trans (by decide) hm) ?_

theorem State.setSession_keeps {m : List Region} {s0 s : State} {a1 a2} (hm : [Region.sessions] ⊆ m) (h : Keeps m s0 s) : Keeps m s0 (State.setSession s a1 a2) := by
  unfold State.setSession
  try dsimp only
  repeat' first
    | intro _
    | with_reducible assumption
    | with_reducible apply ite_keeps
    | with_reducible apply foldl_keeps
    | (fail_if_no_progress (with_reducible refine mk_keeps ?_ ?_ ?_ ?_ ?_ ?_ ?_ ?_ ?_ ?_ ?_ ?_ ?_ ?_ ?_ ?_ ?_ ?_ ?_ ?_ ?_ ?_ ?_ ?_ ?_ ?_ ?_ ?_) <;> try first | (with_reducible exact Or.inl rfl) | (exact Or.inr (hm (by decide))))

theorem State.putGrain_keeps {m : List Region} {s0 s : State} {a1 a2 a3 a4} (hm : [Region.mem, Region.side] ⊆ m) (h : Keeps m s0 s) : Keeps m s0 (State.putGrain s a1 a2 a3 a4) := by
  unfold State.putGrain
  try dsimp only
  repeat' first
    | intro _
    | with_reducible assumption
    | with_reducible apply ite_keeps
    | with_reducible apply foldl_keeps
    | (fail_if_no_progress (with_reducible refine mk_keeps ?_ ?_ ?_ ?_ ?_ ?_ ?_ ?_ ?_ ?_ ?_ ?_ ?_ ?_ ?_ ?_ ?_ ?_ ?_ ?_ ?_ ?_ ?_ ?_ ?_ ?_ ?_ ?_) <;> try first | (with_reducible exact Or.inl rfl) | (exact Or.inr (hm (by decide))))

theorem State.patchGrain_keeps {m : List Region} {s0 s : State} {a1 a2 a3} (hm : [Region.mem, Region.side] ⊆ m) (h : Keeps m s0 s) : Keeps m s0 (State.patchGrain s a1 a2 a3) := by
  unfold State.patchGrain
  try dsimp only
  repeat' first
    | intro _
    | with_reducible assumption
    | with_reducible refine State.putGrain_keeps (List.Subset.trans (by decide) hm) ?_

theorem State.putPage_keeps {m : List Region} {s0 s : State} {a1 a2} (hm : [Region.mem, Region.side, Region.sessions, Region.parts] ⊆ m) (h : Keeps m s0 s) : Keeps m s0 (State.putPage s a1 a2) := by
  unfold State.putPage
  try dsimp only
  repeat' first
    | intro _
    | with_reducible assumption
    | with_reducible refine State.updPart_keeps (List.Subset.trans (by decide) hm) ?_
    | with_reducible refine State.setSession_keeps (List.Subset.trans (by decide) hm) ?_
    | with_reducible refine State.patchGrain_keeps (List.Subset.trans (by decide) hm) ?_
    | with_reducible apply ite_keeps
    | with_reducible apply foldl_keeps
    | (fail_if_no_progress (with_reducible refine mk_keeps ?_ ?_ ?_ ?_ ?_ ?_ ?_ ?_ ?_ ?_ ?_ ?_ ?_ ?_ ?_ ?_ ?_ ?_ ?_ ?_ ?_ ?_ ?_ ?_ ?_ ?_ ?_ ?_) <;> try first | (with_reducible exact Or.inl rfl) | (exact Or.inr (hm (by decide))))
    | split

theorem State.freeAllocs_keeps {m : List Region} {s0 s : State} {a1} (hm : [Region.allocs] ⊆ m) (h : Keeps m s0 s) : Keeps m s0 (State.freeAllocs s a1) := by
  unfold State.freeAllocs
  try dsimp only
  repeat' first
    | intro _
    | with_reducible assumption
    | with_reducible apply ite_keeps
    | with_reducible apply foldl_keeps
    | (fail_if_no_progress (with_reducible refine mk_keeps ?_ ?_ ?_ ?_ ?_ ?_ ?_ ?_ ?_ ?_ ?_ ?_ ?_ ?_ ?_ ?_ ?_ ?_ ?_ ?_ ?_ ?_ ?_ ?_ ?_ ?_ ?_ ?_) <;> try first | (with_reducible exact Or.inl rfl) | (exact Or.inr (hm (by decide))))

theorem State.abandonMigr_keeps {m : List Region} {s0 s : State} {a1} (hm : [Region.mem, Region.side, Region.allocs, Region.sessions, Region.parts] ⊆ m) (h : Keeps m s0 s) : Keeps m s0 (State.abandonMigr s a1) := by
  unfold State.abandonMigr
  try dsimp only
  repeat' first
    | intro _
    | with_reducible assumption
    | with_reducible refine State.putPage_keeps (List.Subset.trans (by decide) hm) ?_
    | with_reducible refine State.freeAllocs_keeps (List.Subset.trans (by decide) hm) ?_
    | with_reducible apply ite_keeps
    | with_reducible apply foldl_keeps
    | (fail_if_no_progress (with_reducible refine mk_keeps ?_ ?_ ?_ ?_ ?_ ?_ ?_ ?_ ?_ ?_ ?_ ?_ ?_ ?_ ?_ ?_ ?_ ?_ ?_ ?_ ?_ ?_ ?_ ?_ ?_ ?_ ?_ ?_) <;> try first | (with_reducible exact Or.inl rfl) | (exact Or.inr (hm (by decide))))
    | split

theorem State.abandonSession_keeps {m : List Region} {s0 s : State} {a1} (hm : [Region.mem, Region.side, Region.allocs, Region.sessions, Region.parts] ⊆ m) (h : Keeps m s0 s) : Keeps m s0 (State.abandonSession s a1) := by
  unfold State.abandonSession
  try dsimp only
  repeat' first
    | (exact List.Subset.trans (by decide) hm)
    | intro _
    | with_reducible assumption
    | (with_reducible apply State.each_keeps)
    | with_reducible refine State.abandonMigr_keeps (List.Subset.trans (by decide) hm) ?_
    | with_reducible apply ite_keeps
    | with_reducible apply foldl_keeps
    | (fail_if_no_progress (with_reducible refine mk_keeps ?_ ?_ ?_ ?_ ?_ ?_ ?_ ?_ ?_ ?_ ?_ ?_ ?_ ?_ ?_ ?_ ?_ ?_ ?_ ?_ ?_ ?_ ?_ ?_ ?_ ?_ ?_ ?_) <;> try first | (with_reducible exact Or.inl rfl) | (exact Or.inr (hm (by decide))))
    | split

theorem State.setMbox_keeps {m : List Region} {s0 s : State} {a1 a2} (hm : [Region.mboxes] ⊆ m) (h : Keeps m s0 s) : Keeps m s0 (State.setMbox s a1 a2) := by
  unfold State.setMbox
  try dsimp only
  repeat' first
    | intro _
    | with_reducible assumption
    | with_reducible apply ite_keeps
    | with_reducible apply foldl_keeps
    | (fail_if_no_progress (with_reducible refine mk_keeps ?_ ?_ ?_ ?_ ?_ ?_ ?_ ?_ ?_ ?_ ?_ ?_ ?_ ?_ ?_ ?_ ?_ ?_ ?_ ?_ ?_ ?_ ?_ ?_ ?_ ?_ ?_ ?_) <;> try first | (with_reducible exact Or.inl rfl) | (exact Or.inr (hm (by decide))))

theorem State.updMbox_keeps {m : List Region} {s0 s : State} {a1 a2} (hm : [Region.mboxes] ⊆ m) (h : Keeps m s0 s) : Keeps m s0 (State.updMbox s a1 a2) := by
  unfold State.updMbox
  try dsimp only
  repeat' first
    | intro _
    | with_reducible assumption
    | with_reducible refine State.setMbox_keeps (List.Subset.trans (by decide) hm) ?_

theorem State.setRx_keeps {m : List Region} {s0 s : State} {a1 a2 a3} (hm : [Region.wt] ⊆ m) (h : Keeps m s0 s) : Keeps m s0 (State.setRx s a1 a2 a3) := by
  unfold State.setRx
  try dsimp only
  repeat' first
    | intro _
    | with_reducible assumption
    | with_reducible apply ite_keeps
    | with_reducible apply foldl_keeps
    | (fail_if_no_progress (with_reducible refine mk_keeps ?_ ?_ ?_ ?_ ?_ ?_ ?_ ?_ ?_ ?_ ?_ ?_ ?_ ?_ ?_ ?_ ?_ ?_ ?_ ?_ ?_ ?_ ?_ ?_ ?_ ?_ ?_ ?_) <;> try first | (with_reducible exact Or.inl rfl) | (exact Or.inr (hm (by decide))))

theorem State.setTx_keeps {m : List Region} {s0 s : State} {a1 a2 a3} (hm : [Region.wt] ⊆ m) (h : Keeps m s0 s) : Keeps m s0 (State.setTx s a1 a2 a3) := by
  unfold State.setTx
  try dsimp only
  repeat' first
    | intro _
    | with_reducible assumption
    | with_reducible apply ite_keeps
    | with_reducible apply foldl_keeps
    | (fail_if_no_progress (with_reducible refine mk_keeps ?_ ?_ ?_ ?_ ?_ ?_ ?_ ?_ ?_ ?_ ?_ ?_ ?_ ?_ ?_ ?_ ?_ ?_ ?_ ?_ ?_ ?_ ?_ ?_ ?_ ?_ ?_ ?_) <;> try first | (with_reducible exact Or.inl rfl) | (exact Or.inr (hm (by decide))))

theorem State.giveBack_keeps {m : List Region} {s0 s : State} {a1 a2 a3} (hm : [Region.slc] ⊆ m) (h : Keeps m s0 s) : Keeps m s0 (State.giveBack s a1 a2 a3) := by
  unfold State.giveBack
  try dsimp only
  repeat' first
    | intro _
    | with_reducible assumption
    | with_reducible apply ite_keeps
    | with_reducible apply foldl_keeps
    | (fail_if_no_progress (with_reducible refine mk_keeps ?_ ?_ ?_ ?_ ?_ ?_ ?_ ?_ ?_ ?_ ?_ ?_ ?_ ?_ ?_ ?_ ?_ ?_ ?_ ?_ ?_ ?_ ?_ ?_ ?_ ?_ ?_ ?_) <;> try first | (with_reducible exact Or.inl rfl) | (exact Or.inr (hm (by decide))))

theorem State.dropReq_keeps {m : List Region} {s0 s : State} {a1} (hm : [Region.slc] ⊆ m) (h : Keeps m s0 s) : Keeps m s0 (State.dropReq s a1) := by
  unfold State.dropReq
  try dsimp only
  repeat' first
    | intro _
    | with_reducible assumption
    | with_reducible apply ite_keeps
    | with_reducible apply foldl_keeps
    | (fail_if_no_progress (with_reducible refine mk_keeps ?_ ?_ ?_ ?_ ?_ ?_ ?_ ?_ ?_ ?_ ?_ ?_ ?_ ?_ ?_ ?_ ?_ ?_ ?_ ?_ ?_ ?_ ?_ ?_ ?_ ?_ ?_ ?_) <;> try first | (with_reducible exact Or.inl rfl) | (exact Or.inr (hm (by decide))))

theorem State.setQueue_keeps {m : List Region} {s0 s : State} {a1 a2} (hm : [Region.slc] ⊆ m) (h : Keeps m s0 s) : Keeps m s0 (State.setQueue s a1 a2) := by
  unfold State.setQueue
  try dsimp only
  repeat' first
    | intro _
    | with_reducible assumption
    | with_reducible apply ite_keeps
    | with_reducible apply foldl_keeps
    | (fail_if_no_progress (with_reducible refine mk_keeps ?_ ?_ ?_ ?_ ?_ ?_ ?_ ?_ ?_ ?_ ?_ ?_ ?_ ?_ ?_ ?_ ?_ ?_ ?_ ?_ ?_ ?_ ?_ ?_ ?_ ?_ ?_ ?_) <;> try first | (with_reducible exact Or.inl rfl) | (exact Or.inr (hm (by decide))))

theorem State.updQueue_keeps {m : List Region} {s0 s : State} {a1 a2} (hm : [Region.slc] ⊆ m) (h : Keeps m s0 s) : Keeps m s0 (State.updQueue s a1 a2) := by
  unfold State.updQueue
  try dsimp only
  repeat' first
    | intro _
    | with_reducible assumption
    | with_reducible refine State.setQueue_keeps (List.Subset.trans (by decide) hm) ?_

theorem State.freeRing_keeps {m : List Region} {s0 s : State} {a1 a2} (hm : [Region.slc] ⊆ m) (h : Keeps m s0 s) : Keeps m s0 (State.freeRing s a1 a2) := by
  unfold State.freeRing
  try dsimp only
  repeat' first
    | intro _
    | with_reducible assumption
    | with_reducible refine State.updQueue_keeps (List.Subset.trans (by decide) hm) ?_

theorem State.settleReq_keeps {m : List Region} {s0 s : State} {a1} (hm : [Region.slc] ⊆ m) (h : Keeps m s0 s) : Keeps m s0 (State.settleReq s a1) := by
  unfold State.settleReq
  try dsimp only
  repeat' first
    | intro _
    | with_reducible assumption
    | with_reducible refine State.dropReq_keeps (List.Subset.trans (by decide) hm) ?_
    | with_reducible refine State.giveBack_keeps (List.Subset.trans (by decide) hm) ?_
    | with_reducible refine State.updQueue_keeps (List.Subset.trans (by decide) hm) ?_
    | with_reducible refine State.freeRing_keeps (List.Subset.trans (by decide) hm) ?_
    | with_reducible apply ite_keeps
    | with_reducible apply foldl_keeps
    | (fail_if_no_progress (with_reducible refine mk_keeps ?_ ?_ ?_ ?_ ?_ ?_ ?_ ?_ ?_ ?_ ?_ ?_ ?_ ?_ ?_ ?_ ?_ ?_ ?_ ?_ ?_ ?_ ?_ ?_ ?_ ?_ ?_ ?_) <;> try first | (with_reducible exact Or.inl rfl) | (exact Or.inr (hm (by decide))))
    | split

theorem State.setReq_keeps {m : List Region} {s0 s : State} {a1 a2} (hm : [Region.slc] ⊆ m) (h : Keeps m s0 s) : Keeps m s0 (State.setReq s a1 a2) := by
  unfold State.setReq
  try dsimp only
  repeat' first
    | intro _
    | with_reducible assumption
    | with_reducible apply ite_keeps
    | with_reducible apply foldl_keeps
    | (fail_if_no_progress (with_reducible refine mk_keeps ?_ ?_ ?_ ?_ ?_ ?_ ?_ ?_ ?_ ?_ ?_ ?_ ?_ ?_ ?_ ?_ ?_ ?_ ?_ ?_ ?_ ?_ ?_ ?_ ?_ ?_ ?_ ?_) <;> try first | (with_reducible exact Or.inl rfl) | (exact Or.inr (hm (by decide))))

theorem State.releaseFrame_keeps {m : List Region} {s0 s : State} {a1 a2} (hm : [Region.slc] ⊆ m) (h : Keeps m s0 s) : Keeps m s0 (State.releaseFrame s a1 a2) := by
  unfold State.releaseFrame
  try dsimp only
  repeat' first
    | intro _
    | with_reducible assumption
    | with_reducible refine State.giveBack_keeps (List.Subset.trans (by decide) hm) ?_
    | with_reducible refine State.settleReq_keeps (List.Subset.trans (by decide) hm) ?_
    | with_reducible refine State.setReq_keeps (List.Subset.trans (by decide) hm) ?_
    | with_reducible apply ite_keeps
    | with_reducible apply foldl_keeps
    | (fail_if_no_progress (with_reducible refine mk_keeps ?_ ?_ ?_ ?_ ?_ ?_ ?_ ?_ ?_ ?_ ?_ ?_ ?_ ?_ ?_ ?_ ?_ ?_ ?_ ?_ ?_ ?_ ?_ ?_ ?_ ?_ ?_ ?_) <;> try first | (with_reducible exact Or.inl rfl) | (exact Or.inr (hm (by decide))))
    | split

theorem State.count_keeps {m : List Region} {s0 s : State} {a1 a2} (hm : [Region.flt] ⊆ m) (h : Keeps m s0 s) : Keeps m s0 (State.count s a1 a2) := by
  unfold State.count
  try dsimp only
  repeat' first
    | intro _
    | with_reducible assumption
    | with_reducible apply ite_keeps
    | with_reducible apply foldl_keeps
    | (fail_if_no_progress (with_reducible refine mk_keeps ?_ ?_ ?_ ?_ ?_ ?_ ?_ ?_ ?_ ?_ ?_ ?_ ?_ ?_ ?_ ?_ ?_ ?_ ?_ ?_ ?_ ?_ ?_ ?_ ?_ ?_ ?_ ?_) <;> try first | (with_reducible exact Or.inl rfl) | (exact Or.inr (hm (by decide))))

theorem State.endFrame_keeps {m : List Region} {s0 s : State} {a1 a2} (hm : [Region.flt, Region.slc] ⊆ m) (h : Keeps m s0 s) : Keeps m s0 (State.endFrame s a1 a2) := by
  unfold State.endFrame
  try dsimp only
  repeat' first
    | intro _
    | with_reducible assumption
    | with_reducible refine State.releaseFrame_keeps (List.Subset.trans (by decide) hm) ?_
    | with_reducible refine State.count_keeps (List.Subset.trans (by decide) hm) ?_
    | with_reducible refine State.freeRing_keeps (List.Subset.trans (by decide) hm) ?_
    | with_reducible apply ite_keeps
    | with_reducible apply foldl_keeps
    | split

theorem State.unqueueFlow_keeps {m : List Region} {s0 s : State} {a1 a2} (hm : [Region.wt] ⊆ m) (h : Keeps m s0 s) : Keeps m s0 (State.unqueueFlow s a1 a2) := by
  unfold State.unqueueFlow
  try dsimp only
  repeat' first
    | intro _
    | with_reducible assumption
    | with_reducible apply ite_keeps
    | with_reducible apply foldl_keeps
    | (fail_if_no_progress (with_reducible refine mk_keeps ?_ ?_ ?_ ?_ ?_ ?_ ?_ ?_ ?_ ?_ ?_ ?_ ?_ ?_ ?_ ?_ ?_ ?_ ?_ ?_ ?_ ?_ ?_ ?_ ?_ ?_ ?_ ?_) <;> try first | (with_reducible exact Or.inl rfl) | (exact Or.inr (hm (by decide))))

theorem State.dropMirror_keeps {m : List Region} {s0 s : State} (hm : [Region.wt] ⊆ m) (h : Keeps m s0 s) : Keeps m s0 (State.dropMirror s) := by
  unfold State.dropMirror
  try dsimp only
  repeat' first
    | intro _
    | with_reducible assumption
    | with_reducible refine State.unqueueFlow_keeps (List.Subset.trans (by decide) hm) ?_
    | with_reducible refine State.setTx_keeps (List.Subset.trans (by decide) hm) ?_

theorem State.pin_keeps {m : List Region} {s0 s : State} {a1 a2} (hm : [Region.wt] ⊆ m) (h : Keeps m s0 s) : Keeps m s0 (State.pin s a1 a2) := by
  unfold State.pin
  try dsimp only
  repeat' first
    | intro _
    | with_reducible assumption
    | with_reducible refine State.setTx_keeps (List.Subset.trans (by decide) hm) ?_
    | with_reducible apply ite_keeps

theorem State.setPort_keeps {m : List Region} {s0 s : State} {a1 a2} (hm : [Region.wt] ⊆ m) (h : Keeps m s0 s) : Keeps m s0 (State.setPort s a1 a2) := by
  unfold State.setPort
  try dsimp only
  repeat' first
    | intro _
    | with_reducible assumption
    | with_reducible apply ite_keeps
    | with_reducible apply foldl_keeps
    | (fail_if_no_progress (with_reducible refine mk_keeps ?_ ?_ ?_ ?_ ?_ ?_ ?_ ?_ ?_ ?_ ?_ ?_ ?_ ?_ ?_ ?_ ?_ ?_ ?_ ?_ ?_ ?_ ?_ ?_ ?_ ?_ ?_ ?_) <;> try first | (with_reducible exact Or.inl rfl) | (exact Or.inr (hm (by decide))))

theorem State.updPort_keeps {m : List Region} {s0 s : State} {a1 a2} (hm : [Region.wt] ⊆ m) (h : Keeps m s0 s) : Keeps m s0 (State.updPort s a1 a2) := by
  unfold State.updPort
  try dsimp only
  repeat' first
    | intro _
    | with_reducible assumption
    | with_reducible refine State.setPort_keeps (List.Subset.trans (by decide) hm) ?_

theorem State.queueFrame_keeps {m : List Region} {s0 s : State} {a1} (hm : [Region.flt, Region.slc, Region.wt] ⊆ m) (h : Keeps m s0 s) : Keeps m s0 (State.queueFrame s a1) := by
  unfold State.queueFrame
  try dsimp only
  repeat' first
    | intro _
    | with_reducible assumption
    | with_reducible refine State.endFrame_keeps (List.Subset.trans (by decide) hm) ?_
    | with_reducible refine State.pin_keeps (List.Subset.trans (by decide) hm) ?_
    | with_reducible refine State.updPort_keeps (List.Subset.trans (by decide) hm) ?_
    | with_reducible apply ite_keeps

theorem State.queueFrames_keeps {m : List Region} {s0 s : State} {a1} (hm : [Region.flt, Region.slc, Region.wt] ⊆ m) (h : Keeps m s0 s) : Keeps m s0 (State.queueFrames s a1) := by
  unfold State.queueFrames
  try dsimp only
  repeat' first
    | (exact List.Subset.trans (by decide) hm)
    | intro _
    | with_reducible assumption
    | (with_reducible apply State.each_keeps)
    | with_reducible refine State.queueFrame_keeps (List.Subset.trans (by decide) hm) ?_

theorem State.sendMsg_keeps {m : List Region} {s0 s : State} {a1 a2 a3} (hm : [Region.flt, Region.slc, Region.wt] ⊆ m) (h : Keeps m s0 s) : Keeps m s0 (State.sendMsg s a1 a2 a3) := by
  unfold State.sendMsg
  try dsimp only
  repeat' first
    | intro _
    | with_reducible assumption
    | with_reducible refine State.queueFrames_keeps (List.Subset.trans (by decide) hm) ?_
    | with_reducible apply ite_keeps
    | with_reducible apply foldl_keeps
    | (fail_if_no_progress (with_reducible refine mk_keeps ?_ ?_ ?_ ?_ ?_ ?_ ?_ ?_ ?_ ?_ ?_ ?_ ?_ ?_ ?_ ?_ ?_ ?_ ?_ ?_ ?_ ?_ ?_ ?_ ?_ ?_ ?_ ?_) <;> try first | (with_reducible exact Or.inl rfl) | (exact Or.inr (hm (by decide))))

theorem State.sendCompletion_keeps {m : List Region} {s0 s : State} {a1 a2 a3 a4 a5 a6 a7} (hm : [Region.flt, Region.slc, Region.wt] ⊆ m) (h : Keeps m s0 s) : Keeps m s0 (State.sendCompletion s a1 a2 a3 a4 a5 a6 a7) := by
  unfold State.sendCompletion
  try dsimp only
  repeat' first
    | intro _
    | with_reducible assumption
    | with_reducible refine State.sendMsg_keeps (List.Subset.trans (by decide) hm) ?_

theorem State.sendMirror_keeps {m : List Region} {s0 s : State} {a1 a2} (hm : [Region.flt, Region.slc, Region.wt, Region.twin] ⊆ m) (h : Keeps m s0 s) : Keeps m s0 (State.sendMirror s a1 a2) := by
  unfold State.sendMirror
  try dsimp only
  repeat' first
    | intro _
    | with_reducible assumption
    | with_reducible refine State.queueFrames_keeps (List.Subset.trans (by decide) hm) ?_
    | with_reducible apply ite_keeps
    | with_reducible apply foldl_keeps
    | (fail_if_no_progress (with_reducible refine mk_keeps ?_ ?_ ?_ ?_ ?_ ?_ ?_ ?_ ?_ ?_ ?_ ?_ ?_ ?_ ?_ ?_ ?_ ?_ ?_ ?_ ?_ ?_ ?_ ?_ ?_ ?_ ?_ ?_) <;> try first | (with_reducible exact Or.inl rfl) | (exact Or.inr (hm (by decide))))

theorem State.sendRecs_keeps {m : List Region} {s0 s : State} {a1 a2} (hm : [Region.flt, Region.slc, Region.wt, Region.twin] ⊆ m) (h : Keeps m s0 s) : Keeps m s0 (State.sendRecs s a1 a2) := by
  unfold State.sendRecs
  try dsimp only
  repeat' first
    | intro _
    | with_reducible assumption
    | (with_reducible apply State.each_keeps)
    | with_reducible refine State.sendMirror_keeps (List.Subset.trans (by decide) hm) ?_

theorem State.mirror_keeps {m : List Region} {s0 s : State} {a1 a2} (hm : [Region.flt, Region.slc, Region.wt, Region.twin] ⊆ m) (h : Keeps m s0 s) : Keeps m s0 (State.mirror s a1 a2) := by
  unfold State.mirror
  try dsimp only
  repeat' first
    | intro _
    | with_reducible assumption
    | with_reducible refine State.sendRecs_keeps (List.Subset.trans (by decide) hm) ?_
    | with_reducible apply ite_keeps

theorem State.emit_keeps {m : List Region} {s0 s : State} {a1} (_hm : ([] : List Region) ⊆ m) (h : Keeps m s0 s) : Keeps m s0 (State.emit s a1) := by
  unfold State.emit
  try dsimp only
  repeat' first
    | intro _
    | with_reducible assumption
    | with_reducible apply ite_keeps
    | with_reducible apply foldl_keeps
    | (fail_if_no_progress (with_reducible refine mk_keeps ?_ ?_ ?_ ?_ ?_ ?_ ?_ ?_ ?_ ?_ ?_ ?_ ?_ ?_ ?_ ?_ ?_ ?_ ?_ ?_ ?_ ?_ ?_ ?_ ?_ ?_ ?_ ?_) <;> try first | (with_reducible exact Or.inl rfl) | (exact Or.inr (hm (by decide))))

theorem State.writeCompletion_keeps {m : List Region} {s0 s : State} {a1 a2 a3 a4 a5 a6} (hm : [Region.slc] ⊆ m) (h : Keeps m s0 s) : Keeps m s0 (State.writeCompletion s a1 a2 a3 a4 a5 a6) := by
  unfold State.writeCompletion
  try dsimp only
  repeat' first
    | intro _
    | with_reducible assumption
    | with_reducible refine State.emit_keeps (List.Subset.trans (by decide) hm) ?_
    | with_reducible refine State.updQueue_keeps (List.Subset.trans (by decide) hm) ?_
    | with_reducible apply ite_keeps

theorem State.hostDone_keeps {m : List Region} {s0 s : State} {a1 a2 a3} (hm : [Region.slc] ⊆ m) (h : Keeps m s0 s) : Keeps m s0 (State.hostDone s a1 a2 a3) := by
  unfold State.hostDone
  try dsimp only
  repeat' first
    | intro _
    | with_reducible assumption
    | with_reducible refine State.writeCompletion_keeps (List.Subset.trans (by decide) hm) ?_

theorem State.finishReq_keeps {m : List Region} {s0 s : State} {a1 a2} (hm : [Region.flt, Region.slc, Region.wt, Region.twin] ⊆ m) (h : Keeps m s0 s) : Keeps m s0 (State.finishReq s a1 a2) := by
  unfold State.finishReq
  try dsimp only
  repeat' first
    | intro _
    | with_reducible assumption
    | with_reducible refine State.setReq_keeps (List.Subset.trans (by decide) hm) ?_
    | with_reducible refine State.sendCompletion_keeps (List.Subset.trans (by decide) hm) ?_
    | with_reducible refine State.mirror_keeps (List.Subset.trans (by decide) hm) ?_
    | with_reducible refine State.settleReq_keeps (List.Subset.trans (by decide) hm) ?_
    | with_reducible refine State.hostDone_keeps (List.Subset.trans (by decide) hm) ?_
    | with_reducible apply ite_keeps
    | with_reducible apply foldl_keeps
    | (fail_if_no_progress (with_reducible refine mk_keeps ?_ ?_ ?_ ?_ ?_ ?_ ?_ ?_ ?_ ?_ ?_ ?_ ?_ ?_ ?_ ?_ ?_ ?_ ?_ ?_ ?_ ?_ ?_ ?_ ?_ ?_ ?_ ?_) <;> try first | (with_reducible exact Or.inl rfl) | (exact Or.inr (hm (by decide))))
    | split

theorem State.signal_keeps {m : List Region} {s0 s : State} {a1 a2} (hm : ([] : List Region) ⊆ m) (h : Keeps m s0 s) : Keeps m s0 (State.signal s a1 a2) := by
  unfold State.signal
  try dsimp only
  repeat' first
    | intro _
    | with_reducible assumption
    | with_reducible refine State.emit_keeps (List.Subset.trans (by decide) hm) ?_

theorem State.sendResp_keeps {m : List Region} {s0 s : State} {a1 a2 a3 a4 a5} (hm : [Region.flt, Region.slc, Region.wt] ⊆ m) (h : Keeps m s0 s) : Keeps m s0 (State.sendResp s a1 a2 a3 a4 a5) := by
  unfold State.sendResp
  try dsimp only
  repeat' first
    | intro _
    | with_reducible assumption
    | with_reducible refine State.sendMsg_keeps (List.Subset.trans (by decide) hm) ?_

theorem State.respond_keeps {m : List Region} {s0 s : State} {a1 a2 a3 a4} (hm : [Region.flt, Region.slc, Region.wt, Region.sec, Region.mboxes] ⊆ m) (h : Keeps m s0 s) : Keeps m s0 (State.respond s a1 a2 a3 a4) := by
  unfold State.respond
  try dsimp only
  repeat' first
    | intro _
    | with_reducible assumption
    | with_reducible refine State.updMbox_keeps (List.Subset.trans (by decide) hm) ?_
    | with_reducible refine State.signal_keeps (List.Subset.trans (by decide) hm) ?_
    | with_reducible refine State.emit_keeps (List.Subset.trans (by decide) hm) ?_
    | with_reducible refine State.sendResp_keeps (List.Subset.trans (by decide) hm) ?_
    | with_reducible apply ite_keeps
    | with_reducible apply foldl_keeps
    | (fail_if_no_progress (with_reducible refine mk_keeps ?_ ?_ ?_ ?_ ?_ ?_ ?_ ?_ ?_ ?_ ?_ ?_ ?_ ?_ ?_ ?_ ?_ ?_ ?_ ?_ ?_ ?_ ?_ ?_ ?_ ?_ ?_ ?_) <;> try first | (with_reducible exact Or.inl rfl) | (exact Or.inr (hm (by decide))))
    | split

theorem State.retireCmd_keeps {m : List Region} {s0 s : State} {a1} (hm : [Region.flt, Region.slc, Region.wt, Region.twin] ⊆ m) (h : Keeps m s0 s) : Keeps m s0 (State.retireCmd s a1) := by
  unfold State.retireCmd
  try dsimp only
  repeat' first
    | intro _
    | with_reducible assumption
    | with_reducible refine State.mirror_keeps (List.Subset.trans (by decide) hm) ?_
    | with_reducible apply ite_keeps
    | with_reducible apply foldl_keeps
    | split

theorem State.completes_keeps {m : List Region} {s0 s : State} {a1 a2} (hm : [Region.parts] ⊆ m) (h : Keeps m s0 s) : Keeps m s0 (State.completes s a1 a2) := by
  unfold State.completes
  try dsimp only
  repeat' first
    | intro _
    | with_reducible assumption
    | with_reducible refine State.updPart_keeps (List.Subset.trans (by decide) hm) ?_
    | with_reducible apply ite_keeps

theorem State.deliver_keeps {m : List Region} {s0 s : State} {a1} (hm : [Region.flt, Region.parts, Region.slc, Region.wt, Region.sec, Region.mboxes, Region.twin] ⊆ m) (h : Keeps m s0 s) : Keeps m s0 (State.deliver s a1) := by
  unfold State.deliver
  try dsimp only
  repeat' first
    | intro _
    | with_reducible assumption
    | with_reducible refine State.finishReq_keeps (List.Subset.trans (by decide) hm) ?_
    | with_reducible refine State.retireCmd_keeps (List.Subset.trans (by decide) hm) ?_
    | with_reducible refine State.respond_keeps (List.Subset.trans (by decide) hm) ?_
    | with_reducible refine State.completes_keeps (List.Subset.trans (by decide) hm) ?_
    | with_reducible apply ite_keeps
    | with_reducible apply foldl_keeps
    | split

theorem State.dropForward_keeps {m : List Region} {s0 s : State} {a1} (hm : [Region.twin] ⊆ m) (h : Keeps m s0 s) : Keeps m s0 (State.dropForward s a1) := by
  unfold State.dropForward
  try dsimp only
  repeat' first
    | intro _
    | with_reducible assumption
    | with_reducible apply ite_keeps
    | with_reducible apply foldl_keeps
    | (fail_if_no_progress (with_reducible refine mk_keeps ?_ ?_ ?_ ?_ ?_ ?_ ?_ ?_ ?_ ?_ ?_ ?_ ?_ ?_ ?_ ?_ ?_ ?_ ?_ ?_ ?_ ?_ ?_ ?_ ?_ ?_ ?_ ?_) <;> try first | (with_reducible exact Or.inl rfl) | (exact Or.inr (hm (by decide))))

theorem State.settleForward_keeps {m : List Region} {s0 s : State} {a1 a2 a3} (hm : [Region.flt, Region.slc, Region.wt, Region.sec, Region.mboxes, Region.twin] ⊆ m) (h : Keeps m s0 s) : Keeps m s0 (State.settleForward s a1 a2 a3) := by
  unfold State.settleForward
  try dsimp only
  repeat' first
    | intro _
    | with_reducible assumption
    | with_reducible refine State.dropForward_keeps (List.Subset.trans (by decide) hm) ?_
    | with_reducible refine State.sendCompletion_keeps (List.Subset.trans (by decide) hm) ?_
    | with_reducible refine State.respond_keeps (List.Subset.trans (by decide) hm) ?_
    | with_reducible apply ite_keeps
    | with_reducible apply foldl_keeps
    | (fail_if_no_progress (with_reducible refine mk_keeps ?_ ?_ ?_ ?_ ?_ ?_ ?_ ?_ ?_ ?_ ?_ ?_ ?_ ?_ ?_ ?_ ?_ ?_ ?_ ?_ ?_ ?_ ?_ ?_ ?_ ?_ ?_ ?_) <;> try first | (with_reducible exact Or.inl rfl) | (exact Or.inr (hm (by decide))))
    | split

theorem State.partnerDones_keeps {m : List Region} {s0 s : State} (hm : [Region.flt, Region.slc, Region.wt, Region.sec, Region.mboxes, Region.twin] ⊆ m) (h : Keeps m s0 s) : Keeps m s0 (State.partnerDones s) := by
  unfold State.partnerDones
  try dsimp only
  repeat' first
    | (exact List.Subset.trans (by decide) hm)
    | intro _
    | with_reducible assumption
    | (with_reducible apply State.each_keeps)
    | with_reducible refine State.settleForward_keeps (List.Subset.trans (by decide) hm) ?_
    | with_reducible refine State.sendCompletion_keeps (List.Subset.trans (by decide) hm) ?_
    | with_reducible apply ite_keeps
    | with_reducible apply foldl_keeps
    | (fail_if_no_progress (with_reducible refine mk_keeps ?_ ?_ ?_ ?_ ?_ ?_ ?_ ?_ ?_ ?_ ?_ ?_ ?_ ?_ ?_ ?_ ?_ ?_ ?_ ?_ ?_ ?_ ?_ ?_ ?_ ?_ ?_ ?_) <;> try first | (with_reducible exact Or.inl rfl) | (exact Or.inr (hm (by decide))))
    | split

theorem State.takeBack_keeps {m : List Region} {s0 s : State} {a1} (hm : [Region.slc, Region.mboxes, Region.twin] ⊆ m) (h : Keeps m s0 s) : Keeps m s0 (State.takeBack s a1) := by
  unfold State.takeBack
  try dsimp only
  repeat' first
    | intro _
    | with_reducible assumption
    | with_reducible refine State.dropForward_keeps (List.Subset.trans (by decide) hm) ?_
    | with_reducible refine State.updQueue_keeps (List.Subset.trans (by decide) hm) ?_
    | with_reducible refine State.updMbox_keeps (List.Subset.trans (by decide) hm) ?_
    | with_reducible apply ite_keeps
    | with_reducible apply foldl_keeps
    | (fail_if_no_progress (with_reducible refine mk_keeps ?_ ?_ ?_ ?_ ?_ ?_ ?_ ?_ ?_ ?_ ?_ ?_ ?_ ?_ ?_ ?_ ?_ ?_ ?_ ?_ ?_ ?_ ?_ ?_ ?_ ?_ ?_ ?_) <;> try first | (with_reducible exact Or.inl rfl) | (exact Or.inr (hm (by decide))))
    | split

theorem State.updReq_keeps {m : List Region} {s0 s : State} {a1 a2} (hm : [Region.slc] ⊆ m) (h : Keeps m s0 s) : Keeps m s0 (State.updReq s a1 a2) := by
  unfold State.updReq
  try dsimp only
  repeat' first
    | intro _
    | with_reducible assumption
    | with_reducible refine State.setReq_keeps (List.Subset.trans (by decide) hm) ?_
    | with_reducible apply ite_keeps
    | with_reducible apply foldl_keeps
    | (fail_if_no_progress (with_reducible refine mk_keeps ?_ ?_ ?_ ?_ ?_ ?_ ?_ ?_ ?_ ?_ ?_ ?_ ?_ ?_ ?_ ?_ ?_ ?_ ?_ ?_ ?_ ?_ ?_ ?_ ?_ ?_ ?_ ?_) <;> try first | (with_reducible exact Or.inl rfl) | (exact Or.inr (hm (by decide))))
    | split

theorem State.updEntry_keeps {m : List Region} {s0 s : State} {a1 a2 a3} (hm : [Region.slc] ⊆ m) (h : Keeps m s0 s) : Keeps m s0 (State.updEntry s a1 a2 a3) := by
  unfold State.updEntry
  try dsimp only
  repeat' first
    | intro _
    | with_reducible assumption
    | with_reducible refine State.updReq_keeps (List.Subset.trans (by decide) hm) ?_

theorem State.completeAttend_keeps {m : List Region} {s0 s : State} {a1} (hm : [Region.slc] ⊆ m) (h : Keeps m s0 s) : Keeps m s0 (State.completeAttend s a1) := by
  unfold State.completeAttend
  try dsimp only
  repeat' first
    | intro _
    | with_reducible assumption
    | with_reducible refine State.setReq_keeps (List.Subset.trans (by decide) hm) ?_
    | with_reducible refine State.settleReq_keeps (List.Subset.trans (by decide) hm) ?_
    | with_reducible refine State.hostDone_keeps (List.Subset.trans (by decide) hm) ?_
    | with_reducible refine State.emit_keeps (List.Subset.trans (by decide) hm) ?_
    | with_reducible apply ite_keeps
    | with_reducible apply foldl_keeps
    | split

theorem State.handEntry_keeps {m : List Region} {s0 s : State} {a1 a2 a3} (hm : [Region.clk, Region.flt, Region.slc, Region.wt] ⊆ m) (h : Keeps m s0 s) : Keeps m s0 (State.handEntry s a1 a2 a3) := by
  unfold State.handEntry
  try dsimp only
  repeat' first
    | intro _
    | with_reducible assumption
    | with_reducible refine State.updEntry_keeps (List.Subset.trans (by decide) hm) ?_
    | with_reducible refine State.giveBack_keeps (List.Subset.trans (by decide) hm) ?_
    | with_reducible refine State.updReq_keeps (List.Subset.trans (by decide) hm) ?_
    | with_reducible refine State.sendMsg_keeps (List.Subset.trans (by decide) hm) ?_
    | with_reducible refine State.completeAttend_keeps (List.Subset.trans (by decide) hm) ?_
    | with_reducible apply ite_keeps
    | with_reducible apply foldl_keeps
    | (fail_if_no_progress (with_reducible refine mk_keeps ?_ ?_ ?_ ?_ ?_ ?_ ?_ ?_ ?_ ?_ ?_ ?_ ?_ ?_ ?_ ?_ ?_ ?_ ?_ ?_ ?_ ?_ ?_ ?_ ?_ ?_ ?_ ?_) <;> try first | (with_reducible exact Or.inl rfl) | (exact Or.inr (hm (by decide))))
    | split

theorem State.releaseHeld_keeps {m : List Region} {s0 s : State} {a1 a2} (hm : [Region.clk, Region.flt, Region.slc, Region.wt] ⊆ m) (h : Keeps m s0 s) : Keeps m s0 (State.releaseHeld s a1 a2) := by
  unfold State.releaseHeld
  try dsimp only
  repeat' first
    | intro _
    | with_reducible assumption
    | with_reducible refine State.handEntry_keeps (List.Subset.trans (by decide) hm) ?_
    | with_reducible apply ite_keeps
    | with_reducible apply foldl_keeps
    | (fail_if_no_progress (with_reducible refine mk_keeps ?_ ?_ ?_ ?_ ?_ ?_ ?_ ?_ ?_ ?_ ?_ ?_ ?_ ?_ ?_ ?_ ?_ ?_ ?_ ?_ ?_ ?_ ?_ ?_ ?_ ?_ ?_ ?_) <;> try first | (with_reducible exact Or.inl rfl) | (exact Or.inr (hm (by decide))))
    | split

theorem State.retireClaim_keeps {m : List Region} {s0 s : State} {a1} (hm : [Region.slc, Region.twin] ⊆ m) (h : Keeps m s0 s) : Keeps m s0 (State.retireClaim s a1) := by
  unfold State.retireClaim
  try dsimp only
  repeat' first
    | intro _
    | with_reducible assumption
    | with_reducible refine State.updReq_keeps (List.Subset.trans (by decide) hm) ?_
    | with_reducible apply ite_keeps
    | with_reducible apply foldl_keeps
    | (fail_if_no_progress (with_reducible refine mk_keeps ?_ ?_ ?_ ?_ ?_ ?_ ?_ ?_ ?_ ?_ ?_ ?_ ?_ ?_ ?_ ?_ ?_ ?_ ?_ ?_ ?_ ?_ ?_ ?_ ?_ ?_ ?_ ?_) <;> try first | (with_reducible exact Or.inl rfl) | (exact Or.inr (hm (by decide))))
    | split

theorem State.setClaim_keeps {m : List Region} {s0 s : State} {a1 a2 a3} (hm : [Region.flt, Region.slc, Region.twin] ⊆ m) (h : Keeps m s0 s) : Keeps m s0 (State.setClaim s a1 a2 a3) := by
  unfold State.setClaim
  try dsimp only
  repeat' first
    | intro _
    | with_reducible assumption
    | with_reducible refine State.count_keeps (List.Subset.trans (by decide) hm) ?_
    | with_reducible refine State.retireClaim_keeps (List.Subset.trans (by decide) hm) ?_
    | with_reducible apply ite_keeps
    | with_reducible apply foldl_keeps
    | (fail_if_no_progress (with_reducible refine mk_keeps ?_ ?_ ?_ ?_ ?_ ?_ ?_ ?_ ?_ ?_ ?_ ?_ ?_ ?_ ?_ ?_ ?_ ?_ ?_ ?_ ?_ ?_ ?_ ?_ ?_ ?_ ?_ ?_) <;> try first | (with_reducible exact Or.inl rfl) | (exact Or.inr (hm (by decide))))

theorem State.soloClaim_keeps {m : List Region} {s0 s : State} {a1 a2} (hm : [Region.clk, Region.flt, Region.slc, Region.wt, Region.twin] ⊆ m) (h : Keeps m s0 s) : Keeps m s0 (State.soloClaim s a1 a2) := by
  unfold State.soloClaim
  try dsimp only
  repeat' first
    | (exact List.Subset.trans (by decide) hm)
    | intro _
    | with_reducible assumption
    | (with_reducible apply State.each_keeps)
    | with_reducible refine State.releaseHeld_keeps (List.Subset.trans (by decide) hm) ?_
    | with_reducible refine State.setClaim_keeps (List.Subset.trans (by decide) hm) ?_
    | with_reducible refine State.sendMsg_keeps (List.Subset.trans (by decide) hm) ?_
    | with_reducible apply ite_keeps
    | with_reducible apply foldl_keeps
    | (fail_if_no_progress (with_reducible refine mk_keeps ?_ ?_ ?_ ?_ ?_ ?_ ?_ ?_ ?_ ?_ ?_ ?_ ?_ ?_ ?_ ?_ ?_ ?_ ?_ ?_ ?_ ?_ ?_ ?_ ?_ ?_ ?_ ?_) <;> try first | (with_reducible exact Or.inl rfl) | (exact Or.inr (hm (by decide))))
    | split

theorem State.setJet_keeps {m : List Region} {s0 s : State} {a1 a2} (hm : [Region.jets] ⊆ m) (h : Keeps m s0 s) : Keeps m s0 (State.setJet s a1 a2) := by
  unfold State.setJet
  try dsimp only
  repeat' first
    | intro _
    | with_reducible assumption
    | with_reducible apply ite_keeps
    | with_reducible apply foldl_keeps
    | (fail_if_no_progress (with_reducible refine mk_keeps ?_ ?_ ?_ ?_ ?_ ?_ ?_ ?_ ?_ ?_ ?_ ?_ ?_ ?_ ?_ ?_ ?_ ?_ ?_ ?_ ?_ ?_ ?_ ?_ ?_ ?_ ?_ ?_) <;> try first | (with_reducible exact Or.inl rfl) | (exact Or.inr (hm (by decide))))

theorem State.updJet_keeps {m : List Region} {s0 s : State} {a1 a2} (hm : [Region.jets] ⊆ m) (h : Keeps m s0 s) : Keeps m s0 (State.updJet s a1 a2) := by
  unfold State.updJet
  try dsimp only
  repeat' first
    | intro _
    | with_reducible assumption
    | with_reducible refine State.setJet_keeps (List.Subset.trans (by decide) hm) ?_

theorem State.stopEntry_keeps {m : List Region} {s0 s : State} {a1 a2} (hm : [Region.slc, Region.jets] ⊆ m) (h : Keeps m s0 s) : Keeps m s0 (State.stopEntry s a1 a2) := by
  unfold State.stopEntry
  try dsimp only
  repeat' first
    | (exact List.Subset.trans (by decide) hm)
    | intro _
    | with_reducible assumption
    | (with_reducible apply State.each_keeps)
    | with_reducible refine State.updJet_keeps (List.Subset.trans (by decide) hm) ?_
    | with_reducible apply ite_keeps
    | with_reducible apply foldl_keeps
    | (fail_if_no_progress (with_reducible refine mk_keeps ?_ ?_ ?_ ?_ ?_ ?_ ?_ ?_ ?_ ?_ ?_ ?_ ?_ ?_ ?_ ?_ ?_ ?_ ?_ ?_ ?_ ?_ ?_ ?_ ?_ ?_ ?_ ?_) <;> try first | (with_reducible exact Or.inl rfl) | (exact Or.inr (hm (by decide))))
    | split

theorem State.dropHedge_keeps {m : List Region} {s0 s : State} {a1} (hm : [Region.slc, Region.jets] ⊆ m) (h : Keeps m s0 s) : Keeps m s0 (State.dropHedge s a1) := by
  unfold State.dropHedge
  try dsimp only
  repeat' first
    | (exact List.Subset.trans (by decide) hm)
    | intro _
    | with_reducible assumption
    | (with_reducible apply State.each_keeps)
    | with_reducible refine State.stopEntry_keeps (List.Subset.trans (by decide) hm) ?_
    | with_reducible refine State.updEntry_keeps (List.Subset.trans (by decide) hm) ?_
    | with_reducible refine State.settleReq_keeps (List.Subset.trans (by decide) hm) ?_
    | with_reducible refine State.updReq_keeps (List.Subset.trans (by decide) hm) ?_
    | with_reducible apply ite_keeps
    | with_reducible apply foldl_keeps
    | (fail_if_no_progress (with_reducible refine mk_keeps ?_ ?_ ?_ ?_ ?_ ?_ ?_ ?_ ?_ ?_ ?_ ?_ ?_ ?_ ?_ ?_ ?_ ?_ ?_ ?_ ?_ ?_ ?_ ?_ ?_ ?_ ?_ ?_) <;> try first | (with_reducible exact Or.inl rfl) | (exact Or.inr (hm (by decide))))
    | split

theorem State.enterSolo_keeps {m : List Region} {s0 s : State} (hm : [Region.clk, Region.flt, Region.parts, Region.slc, Region.wt, Region.jets, Region.sec, Region.mboxes, Region.twin] ⊆ m) (h : Keeps m s0 s) : Keeps m s0 (State.enterSolo s) := by
  unfold State.enterSolo
  try dsimp only
  repeat' first
    | (exact List.Subset.trans (by decide) hm)
    | intro _
    | with_reducible assumption
    | with_reducible refine State.dropMirror_keeps (List.Subset.trans (by decide) hm) ?_
    | with_reducible refine State.count_keeps (List.Subset.trans (by decide) hm) ?_
    | (with_reducible apply State.each_keeps)
    | with_reducible refine State.deliver_keeps (List.Subset.trans (by decide) hm) ?_
    | with_reducible refine State.partnerDones_keeps (List.Subset.trans (by decide) hm) ?_
    | with_reducible refine State.takeBack_keeps (List.Subset.trans (by decide) hm) ?_
    | with_reducible refine State.soloClaim_keeps (List.Subset.trans (by decide) hm) ?_
    | with_reducible refine State.dropHedge_keeps (List.Subset.trans (by decide) hm) ?_
    | with_reducible apply ite_keeps
    | with_reducible apply foldl_keeps
    | (fail_if_no_progress (with_reducible refine mk_keeps ?_ ?_ ?_ ?_ ?_ ?_ ?_ ?_ ?_ ?_ ?_ ?_ ?_ ?_ ?_ ?_ ?_ ?_ ?_ ?_ ?_ ?_ ?_ ?_ ?_ ?_ ?_ ?_) <;> try first | (with_reducible exact Or.inl rfl) | (exact Or.inr (hm (by decide))))

theorem State.mirrorRefused_keeps {m : List Region} {s0 s : State} {a1 a2} (hm : [Region.clk, Region.flt, Region.parts, Region.slc, Region.wt, Region.jets, Region.sec, Region.mboxes, Region.twin] ⊆ m) (h : Keeps m s0 s) : Keeps m s0 (State.mirrorRefused s a1 a2) := by
  unfold State.mirrorRefused
  try dsimp only
  repeat' first
    | intro _
    | with_reducible assumption
    | with_reducible refine State.enterSolo_keeps (List.Subset.trans (by decide) hm) ?_
    | with_reducible refine State.queueFrames_keeps (List.Subset.trans (by decide) hm) ?_
    | with_reducible apply ite_keeps
    | with_reducible apply foldl_keeps
    | (fail_if_no_progress (with_reducible refine mk_keeps ?_ ?_ ?_ ?_ ?_ ?_ ?_ ?_ ?_ ?_ ?_ ?_ ?_ ?_ ?_ ?_ ?_ ?_ ?_ ?_ ?_ ?_ ?_ ?_ ?_ ?_ ?_ ?_) <;> try first | (with_reducible exact Or.inl rfl) | (exact Or.inr (hm (by decide))))
    | split

theorem State.failForward_keeps {m : List Region} {s0 s : State} {a1 a2} (hm : [Region.flt, Region.slc, Region.wt, Region.sec, Region.mboxes, Region.twin] ⊆ m) (h : Keeps m s0 s) : Keeps m s0 (State.failForward s a1 a2) := by
  unfold State.failForward
  try dsimp only
  repeat' first
    | intro _
    | with_reducible assumption
    | with_reducible refine State.settleForward_keeps (List.Subset.trans (by decide) hm) ?_
    | with_reducible apply ite_keeps
    | with_reducible apply foldl_keeps
    | (fail_if_no_progress (with_reducible refine mk_keeps ?_ ?_ ?_ ?_ ?_ ?_ ?_ ?_ ?_ ?_ ?_ ?_ ?_ ?_ ?_ ?_ ?_ ?_ ?_ ?_ ?_ ?_ ?_ ?_ ?_ ?_ ?_ ?_) <;> try first | (with_reducible exact Or.inl rfl) | (exact Or.inr (hm (by decide))))
    | split

theorem State.closeClaims_keeps {m : List Region} {s0 s : State} {a1} (hm : [Region.clk, Region.flt, Region.slc, Region.wt, Region.twin] ⊆ m) (h : Keeps m s0 s) : Keeps m s0 (State.closeClaims s a1) := by
  unfold State.closeClaims
  try dsimp only
  repeat' first
    | (exact List.Subset.trans (by decide) hm)
    | intro _
    | with_reducible assumption
    | (with_reducible apply State.each_keeps)
    | with_reducible refine State.releaseHeld_keeps (List.Subset.trans (by decide) hm) ?_
    | with_reducible refine State.setClaim_keeps (List.Subset.trans (by decide) hm) ?_
    | with_reducible apply ite_keeps

theorem State.stopRead_keeps {m : List Region} {s0 s : State} {a1} (hm : [Region.slc] ⊆ m) (h : Keeps m s0 s) : Keeps m s0 (State.stopRead s a1) := by
  unfold State.stopRead
  try dsimp only
  repeat' first
    | intro _
    | with_reducible assumption
    | with_reducible refine State.updReq_keeps (List.Subset.trans (by decide) hm) ?_

theorem State.endMsg_keeps {m : List Region} {s0 s : State} {a1 a2 a3} (hm : [Region.clk, Region.flt, Region.parts, Region.slc, Region.wt, Region.jets, Region.sec, Region.mboxes, Region.twin] ⊆ m) (h : Keeps m s0 s) : Keeps m s0 (State.endMsg s a1 a2 a3) := by
  unfold State.endMsg
  try dsimp only
  repeat' first
    | intro _
    | with_reducible assumption
    | with_reducible refine State.mirrorRefused_keeps (List.Subset.trans (by decide) hm) ?_
    | with_reducible refine State.failForward_keeps (List.Subset.trans (by decide) hm) ?_
    | with_reducible refine State.closeClaims_keeps (List.Subset.trans (by decide) hm) ?_
    | with_reducible refine State.stopRead_keeps (List.Subset.trans (by decide) hm) ?_
    | with_reducible apply ite_keeps
    | with_reducible apply foldl_keeps
    | (fail_if_no_progress (with_reducible refine mk_keeps ?_ ?_ ?_ ?_ ?_ ?_ ?_ ?_ ?_ ?_ ?_ ?_ ?_ ?_ ?_ ?_ ?_ ?_ ?_ ?_ ?_ ?_ ?_ ?_ ?_ ?_ ?_ ?_) <;> try first | (with_reducible exact Or.inl rfl) | (exact Or.inr (hm (by decide))))
    | split

theorem State.endSent_keeps {m : List Region} {s0 s : State} {a1 a2 a3} (hm : [Region.clk, Region.flt, Region.parts, Region.slc, Region.wt, Region.jets, Region.sec, Region.mboxes, Region.twin] ⊆ m) (h : Keeps m s0 s) : Keeps m s0 (State.endSent s a1 a2 a3) := by
  unfold State.endSent
  try dsimp only
  repeat' first
    | intro _
    | with_reducible assumption
    | with_reducible refine State.endFrame_keeps (List.Subset.trans (by decide) hm) ?_
    | with_reducible refine State.endMsg_keeps (List.Subset.trans (by decide) hm) ?_
    | with_reducible apply ite_keeps

theorem State.takeShare_keeps {m : List Region} {s0 s : State} {a1 a2 a3} (hm : [Region.slc] ⊆ m) (h : Keeps m s0 s) : Keeps m s0 (State.takeShare s a1 a2 a3) := by
  unfold State.takeShare
  try dsimp only
  repeat' first
    | intro _
    | with_reducible assumption
    | with_reducible apply ite_keeps
    | with_reducible apply foldl_keeps
    | (fail_if_no_progress (with_reducible refine mk_keeps ?_ ?_ ?_ ?_ ?_ ?_ ?_ ?_ ?_ ?_ ?_ ?_ ?_ ?_ ?_ ?_ ?_ ?_ ?_ ?_ ?_ ?_ ?_ ?_ ?_ ?_ ?_ ?_) <;> try first | (with_reducible exact Or.inl rfl) | (exact Or.inr (hm (by decide))))

theorem State.pumpRead_keeps {m : List Region} {s0 s : State} {a1 a2 a3} (hm : [Region.flt, Region.slc, Region.wt] ⊆ m) (h : Keeps m s0 s) : Keeps m s0 (State.pumpRead s a1 a2 a3) := by
  induction a3 generalizing s a1 a2 with
  | zero => exact h
  | succ n ih =>
    unfold State.pumpRead
    try dsimp only
    repeat' first
      | (with_reducible apply ih)
      | intro _
      | with_reducible assumption
      | with_reducible refine State.takeShare_keeps (List.Subset.trans (by decide) hm) ?_
      | with_reducible refine State.setReq_keeps (List.Subset.trans (by decide) hm) ?_
      | with_reducible refine State.queueFrame_keeps (List.Subset.trans (by decide) hm) ?_
      | with_reducible apply ite_keeps
      | with_reducible apply foldl_keeps
      | split

theorem State.ackTo_keeps {m : List Region} {s0 s : State} {a1 a2 a3} (hm : [Region.clk, Region.flt, Region.parts, Region.slc, Region.wt, Region.jets, Region.sec, Region.mboxes, Region.twin] ⊆ m) (h : Keeps m s0 s) : Keeps m s0 (State.ackTo s a1 a2 a3) := by
  unfold State.ackTo
  try dsimp only
  repeat' first
    | intro _
    | with_reducible assumption
    | (with_reducible apply State.each_keeps)
    | with_reducible refine State.setTx_keeps (List.Subset.trans (by decide) hm) ?_
    | with_reducible refine State.endSent_keeps (List.Subset.trans (by decide) hm) ?_
    | with_reducible refine State.pumpRead_keeps (List.Subset.trans (by decide) hm) ?_
    | with_reducible apply ite_keeps
    | with_reducible apply foldl_keeps
    | split

theorem State.pick_keeps {m : List Region} {s0 s : State} (hm : [Region.draws] ⊆ m) (h : Keeps m s0 s) : ∀ x t, (State.pick s) = (x, t) → Keeps m s0 t := by
  intro x t he
  unfold State.pick at he
  try dsimp only at he
  repeat' first
    | (cases he; done)
    | split at he
    | contradiction
    | cases he
    | intro _
    | with_reducible assumption
    | with_reducible apply ite_keeps
    | with_reducible apply foldl_keeps
    | (fail_if_no_progress (with_reducible refine mk_keeps ?_ ?_ ?_ ?_ ?_ ?_ ?_ ?_ ?_ ?_ ?_ ?_ ?_ ?_ ?_ ?_ ?_ ?_ ?_ ?_ ?_ ?_ ?_ ?_ ?_ ?_ ?_ ?_) <;> try first | (with_reducible exact Or.inl rfl) | (exact Or.inr (hm (by decide))))

theorem State.putRun_keeps {m : List Region} {s0 s : State} {a1 a2 a3 a4} (hm : [Region.mem, Region.side] ⊆ m) (h : Keeps m s0 s) : Keeps m s0 (State.putRun s a1 a2 a3 a4) := by
  unfold State.putRun
  try dsimp only
  repeat' first
    | intro _
    | with_reducible assumption
    | with_reducible refine State.putGrain_keeps (List.Subset.trans (by decide) hm) ?_
    | with_reducible apply ite_keeps
    | with_reducible apply foldl_keeps

theorem State.addAlloc_keeps {m : List Region} {s0 s : State} {a1} (hm : [Region.allocs] ⊆ m) (h : Keeps m s0 s) : Keeps m s0 (State.addAlloc s a1) := by
  unfold State.addAlloc
  try dsimp only
  repeat' first
    | intro _
    | with_reducible assumption
    | with_reducible apply ite_keeps
    | with_reducible apply foldl_keeps
    | (fail_if_no_progress (with_reducible refine mk_keeps ?_ ?_ ?_ ?_ ?_ ?_ ?_ ?_ ?_ ?_ ?_ ?_ ?_ ?_ ?_ ?_ ?_ ?_ ?_ ?_ ?_ ?_ ?_ ?_ ?_ ?_ ?_ ?_) <;> try first | (with_reducible exact Or.inl rfl) | (exact Or.inr (hm (by decide))))

theorem State.allocGrains_keeps {m : List Region} {s0 s : State} {a1 a2 a3} (hm : [Region.draws, Region.mem, Region.side, Region.allocs] ⊆ m) (h : Keeps m s0 s) : ∀ x t, (State.allocGrains s a1 a2 a3) = some (x, t) → Keeps m s0 t := by
  intro x t he
  unfold State.allocGrains at he
  try dsimp only at he
  repeat' first
    | (cases he; done)
    | split at he
    | contradiction
    | cases he
    | intro _
    | with_reducible assumption
    | (refine State.pick_keeps (List.Subset.trans (by decide) hm) ?_ _ _ (by with_reducible assumption))
    | (with_reducible refine State.pick_keeps (List.Subset.trans (by decide) hm) ?_ _ _ rfl)
    | with_reducible refine State.putRun_keeps (List.Subset.trans (by decide) hm) ?_
    | with_reducible refine State.addAlloc_keeps (List.Subset.trans (by decide) hm) ?_

theorem State.needGrain_keeps {m : List Region} {s0 s : State} {a1 a2 a3} (hm : [Region.draws, Region.mem, Region.side, Region.allocs] ⊆ m) (h : Keeps m s0 s) :
    ∀ x y t, s.needGrain a1 a2 a3 = some (x, y, t) → Keeps m s0 t := by
  intro x y t he
  unfold State.needGrain at he
  split at he
  · cases he; exact h
  · obtain ⟨⟨g, u⟩, hg, hu⟩ := Option.map_eq_some_iff.1 he
    cases hu
    exact (State.allocGrains_keeps (List.Subset.trans (by decide) hm)) h _ _ hg

theorem State.writeDir_keeps {m : List Region} {s0 s : State} {a1 a2 a3 a4} (hm : [Region.mem, Region.side] ⊆ m) (h : Keeps m s0 s) : Keeps m s0 (State.writeDir s a1 a2 a3 a4) := by
  unfold State.writeDir
  try dsimp only
  repeat' first
    | intro _
    | with_reducible assumption
    | with_reducible refine State.patchGrain_keeps (List.Subset.trans (by decide) hm) ?_

theorem State.putHead_keeps {m : List Region} {s0 s : State} {a1 a2 a3 a4} (hm : [Region.mem, Region.side, Region.sessions] ⊆ m) (h : Keeps m s0 s) : Keeps m s0 (State.putHead s a1 a2 a3 a4) := by
  unfold State.putHead
  try dsimp only
  repeat' first
    | intro _
    | with_reducible assumption
    | with_reducible refine State.writeDir_keeps (List.Subset.trans (by decide) hm) ?_
    | with_reducible refine State.setSession_keeps (List.Subset.trans (by decide) hm) ?_
    | with_reducible apply ite_keeps
    | with_reducible apply foldl_keeps
    | (fail_if_no_progress (with_reducible refine mk_keeps ?_ ?_ ?_ ?_ ?_ ?_ ?_ ?_ ?_ ?_ ?_ ?_ ?_ ?_ ?_ ?_ ?_ ?_ ?_ ?_ ?_ ?_ ?_ ?_ ?_ ?_ ?_ ?_) <;> try first | (with_reducible exact Or.inl rfl) | (exact Or.inr (hm (by decide))))
    | split

theorem State.needList_keeps {m : List Region} {s0 s : State} {a1 a2 a3 a4} (hm : [Region.draws, Region.mem, Region.side, Region.allocs, Region.sessions] ⊆ m) (h : Keeps m s0 s) : ∀ t, (State.needList s a1 a2 a3 a4) = some t → Keeps m s0 t := by
  intro t he
  unfold State.needList at he
  try dsimp only at he
  repeat' first
    | (cases he; done)
    | split at he
    | contradiction
    | cases he
    | intro _
    | with_reducible assumption
    | (refine State.needGrain_keeps (List.Subset.trans (by decide) hm) ?_ _ _ _ (by with_reducible assumption))
    | (with_reducible refine State.needGrain_keeps (List.Subset.trans (by decide) hm) ?_ _ _ _ rfl)
    | with_reducible refine State.patchGrain_keeps (List.Subset.trans (by decide) hm) ?_
    | with_reducible refine State.putHead_keeps (List.Subset.trans (by decide) hm) ?_

theorem State.allocRun_keeps {m : List Region} {s0 s : State} {a1 a2 a3} (hm : [Region.draws, Region.mem, Region.side, Region.allocCtr, Region.allocs] ⊆ m) (h : Keeps m s0 s) : ∀ x y t, (State.allocRun s a1 a2 a3) = some (x, y, t) → Keeps m s0 t := by
  intro x y t he
  unfold State.allocRun at he
  try dsimp only at he
  repeat' first
    | (cases he; done)
    | split at he
    | contradiction
    | cases he
    | intro _
    | with_reducible assumption
    | (refine State.pick_keeps (List.Subset.trans (by decide) hm) ?_ _ _ (by with_reducible assumption))
    | (with_reducible refine State.pick_keeps (List.Subset.trans (by decide) hm) ?_ _ _ rfl)
    | with_reducible refine State.putRun_keeps (List.Subset.trans (by decide) hm) ?_
    | with_reducible refine State.addAlloc_keeps (List.Subset.trans (by decide) hm) ?_
    | with_reducible apply ite_keeps
    | with_reducible apply foldl_keeps
    | (fail_if_no_progress (with_reducible refine mk_keeps ?_ ?_ ?_ ?_ ?_ ?_ ?_ ?_ ?_ ?_ ?_ ?_ ?_ ?_ ?_ ?_ ?_ ?_ ?_ ?_ ?_ ?_ ?_ ?_ ?_ ?_ ?_ ?_) <;> try first | (with_reducible exact Or.inl rfl) | (exact Or.inr (hm (by decide))))

theorem State.openPage_keeps {m : List Region} {s0 s : State} {a1 a2 a3 a4} (hm : [Region.draws, Region.mem, Region.side, Region.allocCtr, Region.allocs, Region.sessions, Region.parts] ⊆ m) (h : Keeps m s0 s) : ∀ t, (State.openPage s a1 a2 a3 a4) = some t → Keeps m s0 t := by
  intro t he
  unfold State.openPage at he
  try dsimp only at he
  repeat' first
    | (cases he; done)
    | split at he
    | contradiction
    | cases he
    | intro _
    | with_reducible assumption
    | (refine State.needList_keeps (List.Subset.trans (by decide) hm) ?_ _ (by with_reducible assumption))
    | (with_reducible refine State.needList_keeps (List.Subset.trans (by decide) hm) ?_ _ rfl)
    | (refine State.allocRun_keeps (List.Subset.trans (by decide) hm) ?_ _ _ _ (by with_reducible assumption))
    | (with_reducible refine State.allocRun_keeps (List.Subset.trans (by decide) hm) ?_ _ _ _ rfl)
    | with_reducible refine State.putPage_keeps (List.Subset.trans (by decide) hm) ?_

theorem State.writeThrough_keeps {m : List Region} {s0 s : State} {a1 a2 a3 a4} (hm : [Region.mem, Region.side] ⊆ m) (h : Keeps m s0 s) : ∀ t, (State.writeThrough s a1 a2 a3 a4) = .ok t → Keeps m s0 t := by
  intro t he
  unfold State.writeThrough at he
  try dsimp only at he
  repeat' first
    | (cases he; done)
    | split at he
    | contradiction
    | cases he
    | intro _
    | with_reducible assumption
    | with_reducible refine State.putRun_keeps (List.Subset.trans (by decide) hm) ?_

theorem State.addTokens_keeps {m : List Region} {s0 s : State} {a1 a2 a3} (hm : [Region.mem, Region.side, Region.sessions, Region.parts] ⊆ m) (h : Keeps m s0 s) : ∀ t, (State.addTokens s a1 a2 a3) = .ok t → Keeps m s0 t := by
  intro t he
  unfold State.addTokens at he
  try dsimp only at he
  repeat' first
    | (cases he; done)
    | split at he
    | contradiction
    | cases he
    | intro _
    | with_reducible assumption
    | (refine State.writeThrough_keeps (List.Subset.trans (by decide) hm) ?_ _ (by with_reducible assumption))
    | (with_reducible refine State.writeThrough_keeps (List.Subset.trans (by decide) hm) ?_ _ rfl)
    | with_reducible refine State.putPage_keeps (List.Subset.trans (by decide) hm) ?_

theorem State.countPart_keeps {m : List Region} {s0 s : State} {a1 a2 a3} (hm : [Region.flt] ⊆ m) (h : Keeps m s0 s) : Keeps m s0 (State.countPart s a1 a2 a3) := by
  unfold State.countPart
  try dsimp only
  repeat' first
    | intro _
    | with_reducible assumption
    | with_reducible apply ite_keeps
    | with_reducible apply foldl_keeps
    | (fail_if_no_progress (with_reducible refine mk_keeps ?_ ?_ ?_ ?_ ?_ ?_ ?_ ?_ ?_ ?_ ?_ ?_ ?_ ?_ ?_ ?_ ?_ ?_ ?_ ?_ ?_ ?_ ?_ ?_ ?_ ?_ ?_ ?_) <;> try first | (with_reducible exact Or.inl rfl) | (exact Or.inr (hm (by decide))))

theorem State.countEvent_keeps {m : List Region} {s0 s : State} {a1} (hm : [Region.flt] ⊆ m) (h : Keeps m s0 s) : Keeps m s0 (State.countEvent s a1) := by
  unfold State.countEvent
  try dsimp only
  repeat' first
    | intro _
    | with_reducible assumption
    | with_reducible refine State.count_keeps (List.Subset.trans (by decide) hm) ?_
    | with_reducible refine State.countPart_keeps (List.Subset.trans (by decide) hm) ?_
    | with_reducible apply ite_keeps
    | with_reducible apply foldl_keeps
    | (fail_if_no_progress (with_reducible refine mk_keeps ?_ ?_ ?_ ?_ ?_ ?_ ?_ ?_ ?_ ?_ ?_ ?_ ?_ ?_ ?_ ?_ ?_ ?_ ?_ ?_ ?_ ?_ ?_ ?_ ?_ ?_ ?_ ?_) <;> try first | (with_reducible exact Or.inl rfl) | (exact Or.inr (hm (by decide))))
    | split

theorem State.noteCe_keeps {m : List Region} {s0 s : State} {a1} (hm : [Region.flt] ⊆ m) (h : Keeps m s0 s) : Keeps m s0 (State.noteCe s a1) := by
  unfold State.noteCe
  try dsimp only
  repeat' first
    | intro _
    | with_reducible assumption
    | with_reducible apply ite_keeps
    | with_reducible apply foldl_keeps
    | (fail_if_no_progress (with_reducible refine mk_keeps ?_ ?_ ?_ ?_ ?_ ?_ ?_ ?_ ?_ ?_ ?_ ?_ ?_ ?_ ?_ ?_ ?_ ?_ ?_ ?_ ?_ ?_ ?_ ?_ ?_ ?_ ?_ ?_) <;> try first | (with_reducible exact Or.inl rfl) | (exact Or.inr (hm (by decide))))
    | split

theorem State.fault_keeps {m : List Region} {s0 s : State} {a1} (hm : [Region.flt] ⊆ m) (h : Keeps m s0 s) : Keeps m s0 (State.fault s a1) := by
  unfold State.fault
  try dsimp only
  repeat' first
    | intro _
    | with_reducible assumption
    | with_reducible refine State.countEvent_keeps (List.Subset.trans (by decide) hm) ?_
    | with_reducible refine State.noteCe_keeps (List.Subset.trans (by decide) hm) ?_
    | with_reducible apply ite_keeps
    | with_reducible apply foldl_keeps
    | (fail_if_no_progress (with_reducible refine mk_keeps ?_ ?_ ?_ ?_ ?_ ?_ ?_ ?_ ?_ ?_ ?_ ?_ ?_ ?_ ?_ ?_ ?_ ?_ ?_ ?_ ?_ ?_ ?_ ?_ ?_ ?_ ?_ ?_) <;> try first | (with_reducible exact Or.inl rfl) | (exact Or.inr (hm (by decide))))
    | split

theorem State.sealPage_keeps {m : List Region} {s0 s : State} {a1 a2 a3 a4 a5} (hm : [Region.flt, Region.mem, Region.side, Region.allocs, Region.sessions, Region.parts] ⊆ m) (h : Keeps m s0 s) : Keeps m s0 (State.sealPage s a1 a2 a3 a4 a5) := by
  unfold State.sealPage
  try dsimp only
  repeat' first
    | intro _
    | with_reducible assumption
    | with_reducible refine State.putRun_keeps (List.Subset.trans (by decide) hm) ?_
    | with_reducible refine State.updPart_keeps (List.Subset.trans (by decide) hm) ?_
    | with_reducible refine State.fault_keeps (List.Subset.trans (by decide) hm) ?_
    | with_reducible refine State.putPage_keeps (List.Subset.trans (by decide) hm) ?_
    | with_reducible apply ite_keeps
    | with_reducible apply foldl_keeps
    | (fail_if_no_progress (with_reducible refine mk_keeps ?_ ?_ ?_ ?_ ?_ ?_ ?_ ?_ ?_ ?_ ?_ ?_ ?_ ?_ ?_ ?_ ?_ ?_ ?_ ?_ ?_ ?_ ?_ ?_ ?_ ?_ ?_ ?_) <;> try first | (with_reducible exact Or.inl rfl) | (exact Or.inr (hm (by decide))))

theorem State.addSat_keeps {m : List Region} {s0 s : State} {a1 a2} (hm : [Region.parts] ⊆ m) (h : Keeps m s0 s) : Keeps m s0 (State.addSat s a1 a2) := by
  unfold State.addSat
  try dsimp only
  repeat' first
    | intro _
    | with_reducible assumption
    | with_reducible refine State.updPart_keeps (List.Subset.trans (by decide) hm) ?_
    | with_reducible apply ite_keeps

theorem State.grainEvent_keeps {m : List Region} {s0 s : State} {a1 a2 a3 a4 a5} (hm : [Region.flt] ⊆ m) (h : Keeps m s0 s) : Keeps m s0 (State.grainEvent s a1 a2 a3 a4 a5) := by
  unfold State.grainEvent
  try dsimp only
  repeat' first
    | intro _
    | with_reducible assumption
    | with_reducible refine State.fault_keeps (List.Subset.trans (by decide) hm) ?_

theorem State.askRepair_keeps {m : List Region} {s0 s : State} {a1} (hm : [Region.flt, Region.slc, Region.wt, Region.twin] ⊆ m) (h : Keeps m s0 s) : Keeps m s0 (State.askRepair s a1) := by
  unfold State.askRepair
  try dsimp only
  repeat' first
    | intro _
    | with_reducible assumption
    | with_reducible refine State.sendMirror_keeps (List.Subset.trans (by decide) hm) ?_
    | with_reducible apply ite_keeps

theorem State.containPage_keeps {m : List Region} {s0 s : State} {a1} (hm : [Region.flt, Region.mem, Region.side, Region.sessions, Region.parts, Region.slc, Region.wt, Region.twin] ⊆ m) (h : Keeps m s0 s) : Keeps m s0 (State.containPage s a1) := by
  unfold State.containPage
  try dsimp only
  repeat' first
    | intro _
    | with_reducible assumption
    | with_reducible refine State.putPage_keeps (List.Subset.trans (by decide) hm) ?_
    | with_reducible refine State.countPart_keeps (List.Subset.trans (by decide) hm) ?_
    | with_reducible refine State.askRepair_keeps (List.Subset.trans (by decide) hm) ?_
    | with_reducible apply ite_keeps
    | with_reducible apply foldl_keeps
    | (fail_if_no_progress (with_reducible refine mk_keeps ?_ ?_ ?_ ?_ ?_ ?_ ?_ ?_ ?_ ?_ ?_ ?_ ?_ ?_ ?_ ?_ ?_ ?_ ?_ ?_ ?_ ?_ ?_ ?_ ?_ ?_ ?_ ?_) <;> try first | (with_reducible exact Or.inl rfl) | (exact Or.inr (hm (by decide))))
    | split

theorem State.fence_keeps {m : List Region} {s0 s : State} {a1} (hm : [Region.sec] ⊆ m) (h : Keeps m s0 s) : Keeps m s0 (State.fence s a1) := by
  unfold State.fence
  try dsimp only
  repeat' first
    | intro _
    | with_reducible assumption
    | with_reducible apply ite_keeps
    | with_reducible apply foldl_keeps
    | (fail_if_no_progress (with_reducible refine mk_keeps ?_ ?_ ?_ ?_ ?_ ?_ ?_ ?_ ?_ ?_ ?_ ?_ ?_ ?_ ?_ ?_ ?_ ?_ ?_ ?_ ?_ ?_ ?_ ?_ ?_ ?_ ?_ ?_) <;> try first | (with_reducible exact Or.inl rfl) | (exact Or.inr (hm (by decide))))

theorem State.containGrain_keeps {m : List Region} {s0 s : State} {a1} (hm : [Region.flt, Region.badGrains, Region.slc, Region.wt, Region.sec, Region.twin] ⊆ m) (h : Keeps m s0 s) : Keeps m s0 (State.containGrain s a1) := by
  unfold State.containGrain
  try dsimp only
  repeat' first
    | intro _
    | with_reducible assumption
    | with_reducible refine State.askRepair_keeps (List.Subset.trans (by decide) hm) ?_
    | with_reducible refine State.fault_keeps (List.Subset.trans (by decide) hm) ?_
    | with_reducible refine State.fence_keeps (List.Subset.trans (by decide) hm) ?_
    | with_reducible apply ite_keeps
    | with_reducible apply foldl_keeps
    | (fail_if_no_progress (with_reducible refine mk_keeps ?_ ?_ ?_ ?_ ?_ ?_ ?_ ?_ ?_ ?_ ?_ ?_ ?_ ?_ ?_ ?_ ?_ ?_ ?_ ?_ ?_ ?_ ?_ ?_ ?_ ?_ ?_ ?_) <;> try first | (with_reducible exact Or.inl rfl) | (exact Or.inr (hm (by decide))))
    | split

theorem State.decodeEvents_keeps {m : List Region} {s0 s : State} {a1 a2 a3 a4} (hm : [Region.flt, Region.parts] ⊆ m) (h : Keeps m s0 s) : Keeps m s0 (State.decodeEvents s a1 a2 a3 a4) := by
  unfold State.decodeEvents
  try dsimp only
  repeat' first
    | intro _
    | with_reducible assumption
    | (with_reducible apply State.each_keeps)
    | with_reducible refine State.fault_keeps (List.Subset.trans (by decide) hm) ?_
    | with_reducible refine State.updPart_keeps (List.Subset.trans (by decide) hm) ?_
    | with_reducible apply ite_keeps
    | with_reducible apply foldl_keeps
    | split

theorem State.failGrain_keeps {m : List Region} {s0 s : State} {a1 a2 a3 a4 a5} (hm : [Region.flt, Region.mem, Region.side, Region.badGrains, Region.sessions, Region.parts, Region.slc, Region.wt, Region.sec, Region.twin] ⊆ m) (h : Keeps m s0 s) : Keeps m s0 (State.failGrain s a1 a2 a3 a4 a5) := by
  unfold State.failGrain
  try dsimp only
  repeat' first
    | intro _
    | with_reducible assumption
    | (with_reducible apply State.each_keeps)
    | with_reducible refine State.decodeEvents_keeps (List.Subset.trans (by decide) hm) ?_
    | with_reducible refine State.grainEvent_keeps (List.Subset.trans (by decide) hm) ?_
    | with_reducible refine State.containPage_keeps (List.Subset.trans (by decide) hm) ?_
    | with_reducible refine State.containGrain_keeps (List.Subset.trans (by decide) hm) ?_
    | with_reducible apply ite_keeps
    | with_reducible apply foldl_keeps
    | split

theorem State.failCheck_keeps {m : List Region} {s0 s : State} {a1} (hm : [Region.flt, Region.mem, Region.side, Region.badGrains, Region.sessions, Region.parts, Region.slc, Region.wt, Region.sec, Region.twin] ⊆ m) (h : Keeps m s0 s) : Keeps m s0 (State.failCheck s a1) := by
  unfold State.failCheck
  try dsimp only
  repeat' first
    | intro _
    | with_reducible assumption
    | with_reducible refine State.failGrain_keeps (List.Subset.trans (by decide) hm) ?_

theorem State.failPage_keeps {m : List Region} {s0 s : State} {a1 a2} (hm : [Region.flt, Region.mem, Region.side, Region.badGrains, Region.sessions, Region.parts, Region.slc, Region.wt, Region.sec, Region.twin] ⊆ m) (h : Keeps m s0 s) : Keeps m s0 (State.failPage s a1 a2) := by
  unfold State.failPage
  try dsimp only
  repeat' first
    | intro _
    | with_reducible assumption
    | with_reducible refine State.containPage_keeps (List.Subset.trans (by decide) hm) ?_
    | with_reducible refine State.failCheck_keeps (List.Subset.trans (by decide) hm) ?_
    | with_reducible apply ite_keeps

theorem State.demote_keeps {m : List Region} {s0 s : State} {a1} (hm : [Region.mem, Region.side, Region.sessions, Region.parts] ⊆ m) (h : Keeps m s0 s) : Keeps m s0 (State.demote s a1) := by
  unfold State.demote
  try dsimp only
  repeat' first
    | intro _
    | with_reducible assumption
    | with_reducible refine State.putPage_keeps (List.Subset.trans (by decide) hm) ?_
    | with_reducible apply ite_keeps
    | with_reducible apply foldl_keeps
    | split

theorem State.makeRoom_keeps {m : List Region} {s0 s : State} {a1 a2 a3} (hm : [Region.mem, Region.side, Region.sessions, Region.parts] ⊆ m) (h : Keeps m s0 s) : Keeps m s0 (State.makeRoom s a1 a2 a3) := by
  induction a3 generalizing s a1 a2 with
  | zero => exact h
  | succ n ih =>
    unfold State.makeRoom
    try dsimp only
    repeat' first
      | intro _
      | (with_reducible apply ih)
      | with_reducible assumption
      | with_reducible refine State.demote_keeps (List.Subset.trans (by decide) hm) ?_
      | with_reducible apply ite_keeps
      | with_reducible apply foldl_keeps
      | (fail_if_no_progress (with_reducible refine mk_keeps ?_ ?_ ?_ ?_ ?_ ?_ ?_ ?_ ?_ ?_ ?_ ?_ ?_ ?_ ?_ ?_ ?_ ?_ ?_ ?_ ?_ ?_ ?_ ?_ ?_ ?_ ?_ ?_) <;> try first | (with_reducible exact Or.inl rfl) | (exact Or.inr (hm (by decide))))
      | split

theorem State.takeSram_keeps {m : List Region} {s0 s : State} {a1 a2} (hm : [Region.mem, Region.side, Region.sessions, Region.parts] ⊆ m) (h : Keeps m s0 s) : ∀ t, (State.takeSram s a1 a2) = some t → Keeps m s0 t := by
  intro t he
  unfold State.takeSram at he
  try dsimp only at he
  repeat' first
    | (cases he; done)
    | split at he
    | contradiction
    | cases he
    | intro _
    | with_reducible assumption
    | with_reducible refine State.makeRoom_keeps (List.Subset.trans (by decide) hm) ?_

theorem State.dropProvs_keeps {m : List Region} {s0 s : State} {a1} (hm : [Region.provs] ⊆ m) (h : Keeps m s0 s) : Keeps m s0 (State.dropProvs s a1) := by
  unfold State.dropProvs
  try dsimp only
  repeat' first
    | intro _
    | with_reducible assumption
    | with_reducible apply ite_keeps
    | with_reducible apply foldl_keeps
    | (fail_if_no_progress (with_reducible refine mk_keeps ?_ ?_ ?_ ?_ ?_ ?_ ?_ ?_ ?_ ?_ ?_ ?_ ?_ ?_ ?_ ?_ ?_ ?_ ?_ ?_ ?_ ?_ ?_ ?_ ?_ ?_ ?_ ?_) <;> try first | (with_reducible exact Or.inl rfl) | (exact Or.inr (hm (by decide))))

theorem State.sendClaim_keeps {m : List Region} {s0 s : State} {a1 a2 a3 a4 a5 a6 a7 a8} (hm : [Region.flt, Region.slc, Region.wt] ⊆ m) (h : Keeps m s0 s) : Keeps m s0 (State.sendClaim s a1 a2 a3 a4 a5 a6 a7 a8) := by
  unfold State.sendClaim
  try dsimp only
  repeat' first
    | intro _
    | with_reducible assumption
    | with_reducible refine State.sendMsg_keeps (List.Subset.trans (by decide) hm) ?_

theorem State.answerEntry_keeps {m : List Region} {s0 s : State} {a1 a2 a3 a4} (hm : [Region.clk, Region.flt, Region.slc, Region.wt, Region.twin] ⊆ m) (h : Keeps m s0 s) : Keeps m s0 (State.answerEntry s a1 a2 a3 a4) := by
  unfold State.answerEntry
  try dsimp only
  repeat' first
    | intro _
    | with_reducible assumption
    | with_reducible refine State.sendClaim_keeps (List.Subset.trans (by decide) hm) ?_
    | with_reducible refine State.updEntry_keeps (List.Subset.trans (by decide) hm) ?_
    | with_reducible refine State.giveBack_keeps (List.Subset.trans (by decide) hm) ?_
    | with_reducible refine State.updReq_keeps (List.Subset.trans (by decide) hm) ?_
    | with_reducible refine State.completeAttend_keeps (List.Subset.trans (by decide) hm) ?_
    | with_reducible refine State.handEntry_keeps (List.Subset.trans (by decide) hm) ?_
    | with_reducible refine State.setClaim_keeps (List.Subset.trans (by decide) hm) ?_
    | with_reducible apply ite_keeps
    | with_reducible apply foldl_keeps
    | (fail_if_no_progress (with_reducible refine mk_keeps ?_ ?_ ?_ ?_ ?_ ?_ ?_ ?_ ?_ ?_ ?_ ?_ ?_ ?_ ?_ ?_ ?_ ?_ ?_ ?_ ?_ ?_ ?_ ?_ ?_ ?_ ?_ ?_) <;> try first | (with_reducible exact Or.inl rfl) | (exact Or.inr (hm (by decide))))
    | split

theorem State.failEntry_keeps {m : List Region} {s0 s : State} {a1 a2 a3} (hm : [Region.clk, Region.flt, Region.provs, Region.slc, Region.wt, Region.jets, Region.twin] ⊆ m) (h : Keeps m s0 s) : Keeps m s0 (State.failEntry s a1 a2 a3) := by
  unfold State.failEntry
  try dsimp only
  repeat' first
    | intro _
    | with_reducible assumption
    | with_reducible refine State.updEntry_keeps (List.Subset.trans (by decide) hm) ?_
    | with_reducible refine State.dropProvs_keeps (List.Subset.trans (by decide) hm) ?_
    | with_reducible refine State.stopEntry_keeps (List.Subset.trans (by decide) hm) ?_
    | with_reducible refine State.answerEntry_keeps (List.Subset.trans (by decide) hm) ?_
    | with_reducible apply ite_keeps
    | with_reducible apply foldl_keeps
    | split

theorem State.commitChange_keeps {m : List Region} {s0 s : State} {a1 a2 a3} (hm : [Region.flt, Region.parts, Region.slc, Region.wt, Region.sec, Region.mboxes, Region.twin] ⊆ m) (h : Keeps m s0 s) : Keeps m s0 (State.commitChange s a1 a2 a3) := by
  unfold State.commitChange
  try dsimp only
  repeat' first
    | intro _
    | with_reducible assumption
    | with_reducible refine State.mirror_keeps (List.Subset.trans (by decide) hm) ?_
    | with_reducible refine State.deliver_keeps (List.Subset.trans (by decide) hm) ?_
    | with_reducible apply ite_keeps
    | with_reducible apply foldl_keeps
    | (fail_if_no_progress (with_reducible refine mk_keeps ?_ ?_ ?_ ?_ ?_ ?_ ?_ ?_ ?_ ?_ ?_ ?_ ?_ ?_ ?_ ?_ ?_ ?_ ?_ ?_ ?_ ?_ ?_ ?_ ?_ ?_ ?_ ?_) <;> try first | (with_reducible exact Or.inl rfl) | (exact Or.inr (hm (by decide))))

theorem State.partialRefused_keeps {m : List Region} {s0 s : State} {a1} (hm : [Region.flt, Region.mem, Region.side, Region.badGrains, Region.sessions, Region.parts, Region.slc, Region.wt, Region.sec, Region.twin] ⊆ m) (h : Keeps m s0 s) : Keeps m s0 (State.partialRefused s a1) := by
  unfold State.partialRefused
  try dsimp only
  repeat' first
    | intro _
    | with_reducible assumption
    | with_reducible refine State.count_keeps (List.Subset.trans (by decide) hm) ?_
    | with_reducible refine State.failGrain_keeps (List.Subset.trans (by decide) hm) ?_

theorem State.refuseAttend_keeps {m : List Region} {s0 s : State} {a1 a2 a3 a4 a5 a6} (hm : [Region.flt, Region.slc, Region.wt] ⊆ m) (h : Keeps m s0 s) : Keeps m s0 (State.refuseAttend s a1 a2 a3 a4 a5 a6) := by
  unfold State.refuseAttend
  try dsimp only
  repeat' first
    | intro _
    | with_reducible assumption
    | (with_reducible apply State.each_keeps)
    | with_reducible refine State.sendMsg_keeps (List.Subset.trans (by decide) hm) ?_

theorem State.refuseRead_keeps {m : List Region} {s0 s : State} {a1 a2 a3 a4 a5 a6 a7 a8} (hm : [Region.flt, Region.slc, Region.wt] ⊆ m) (h : Keeps m s0 s) : Keeps m s0 (State.refuseRead s a1 a2 a3 a4 a5 a6 a7 a8) := by
  unfold State.refuseRead
  try dsimp only
  repeat' first
    | intro _
    | with_reducible assumption
    | with_reducible refine State.queueFrames_keeps (List.Subset.trans (by decide) hm) ?_
    | with_reducible apply ite_keeps
    | with_reducible apply foldl_keeps
    | (fail_if_no_progress (with_reducible refine mk_keeps ?_ ?_ ?_ ?_ ?_ ?_ ?_ ?_ ?_ ?_ ?_ ?_ ?_ ?_ ?_ ?_ ?_ ?_ ?_ ?_ ?_ ?_ ?_ ?_ ?_ ?_ ?_ ?_) <;> try first | (with_reducible exact Or.inl rfl) | (exact Or.inr (hm (by decide))))

theorem State.refuseHost_keeps {m : List Region} {s0 s : State} {a1 a2 a3 a4 a5 a6 a7} (hm : [Region.slc] ⊆ m) (h : Keeps m s0 s) : Keeps m s0 (State.refuseHost s a1 a2 a3 a4 a5 a6 a7) := by
  unfold State.refuseHost
  try dsimp only
  repeat' first
    | intro _
    | with_reducible assumption
    | with_reducible refine State.emit_keeps (List.Subset.trans (by decide) hm) ?_
    | with_reducible refine State.hostDone_keeps (List.Subset.trans (by decide) hm) ?_
    | with_reducible apply ite_keeps

theorem State.refuseMsg_keeps {m : List Region} {s0 s : State} {a1 a2} (hm : [Region.flt, Region.slc, Region.wt] ⊆ m) (h : Keeps m s0 s) : Keeps m s0 (State.refuseMsg s a1 a2) := by
  unfold State.refuseMsg
  try dsimp only
  repeat' first
    | intro _
    | with_reducible assumption
    | with_reducible refine State.refuseAttend_keeps (List.Subset.trans (by decide) hm) ?_
    | with_reducible refine State.refuseRead_keeps (List.Subset.trans (by decide) hm) ?_
    | with_reducible refine State.sendCompletion_keeps (List.Subset.trans (by decide) hm) ?_
    | with_reducible refine State.refuseHost_keeps (List.Subset.trans (by decide) hm) ?_
    | with_reducible refine State.sendClaim_keeps (List.Subset.trans (by decide) hm) ?_
    | with_reducible apply ite_keeps
    | with_reducible apply foldl_keeps
    | split

theorem State.checkForward_keeps {m : List Region} {s0 s : State} {a1 a2} (hm : [Region.flt, Region.slc, Region.wt, Region.sec, Region.mboxes, Region.twin] ⊆ m) (h : Keeps m s0 s) : Keeps m s0 (State.checkForward s a1 a2) := by
  unfold State.checkForward
  try dsimp only
  repeat' first
    | intro _
    | with_reducible assumption
    | with_reducible refine State.failForward_keeps (List.Subset.trans (by decide) hm) ?_
    | with_reducible apply ite_keeps

theorem State.forwardMsg_keeps {m : List Region} {s0 s : State} {a1} (hm : [Region.flt, Region.slc, Region.wt, Region.sec, Region.mboxes, Region.twin] ⊆ m) (h : Keeps m s0 s) : Keeps m s0 (State.forwardMsg s a1) := by
  unfold State.forwardMsg
  try dsimp only
  repeat' first
    | intro _
    | with_reducible assumption
    | with_reducible refine State.checkForward_keeps (List.Subset.trans (by decide) hm) ?_
    | with_reducible refine State.sendMsg_keeps (List.Subset.trans (by decide) hm) ?_
    | with_reducible refine State.count_keeps (List.Subset.trans (by decide) hm) ?_
    | with_reducible apply ite_keeps
    | with_reducible apply foldl_keeps
    | (fail_if_no_progress (with_reducible refine mk_keeps ?_ ?_ ?_ ?_ ?_ ?_ ?_ ?_ ?_ ?_ ?_ ?_ ?_ ?_ ?_ ?_ ?_ ?_ ?_ ?_ ?_ ?_ ?_ ?_ ?_ ?_ ?_ ?_) <;> try first | (with_reducible exact Or.inl rfl) | (exact Or.inr (hm (by decide))))
    | split

theorem State.draw_keeps {m : List Region} {s0 s : State} (hm : [Region.draws] ⊆ m) (h : Keeps m s0 s) : ∀ x t, (State.draw s) = (x, t) → Keeps m s0 t := by
  intro x t he
  unfold State.draw at he
  try dsimp only at he
  repeat' first
    | (cases he; done)
    | split at he
    | contradiction
    | cases he
    | intro _
    | with_reducible assumption
    | with_reducible apply ite_keeps
    | with_reducible apply foldl_keeps
    | (fail_if_no_progress (with_reducible refine mk_keeps ?_ ?_ ?_ ?_ ?_ ?_ ?_ ?_ ?_ ?_ ?_ ?_ ?_ ?_ ?_ ?_ ?_ ?_ ?_ ?_ ?_ ?_ ?_ ?_ ?_ ?_ ?_ ?_) <;> try first | (with_reducible exact Or.inl rfl) | (exact Or.inr (hm (by decide))))

theorem State.clearGrain_keeps {m : List Region} {s0 s : State} {a1} (hm : [Region.badGrains, Region.twin] ⊆ m) (h : Keeps m s0 s) : Keeps m s0 (State.clearGrain s a1) := by
  unfold State.clearGrain
  try dsimp only
  repeat' first
    | intro _
    | with_reducible assumption
    | with_reducible apply ite_keeps
    | with_reducible apply foldl_keeps
    | (fail_if_no_progress (with_reducible refine mk_keeps ?_ ?_ ?_ ?_ ?_ ?_ ?_ ?_ ?_ ?_ ?_ ?_ ?_ ?_ ?_ ?_ ?_ ?_ ?_ ?_ ?_ ?_ ?_ ?_ ?_ ?_ ?_ ?_) <;> try first | (with_reducible exact Or.inl rfl) | (exact Or.inr (hm (by decide))))

theorem State.requeueFlow_keeps {m : List Region} {s0 s : State} {a1 a2} (hm : [Region.wt] ⊆ m) (h : Keeps m s0 s) : Keeps m s0 (State.requeueFlow s a1 a2) := by
  unfold State.requeueFlow
  try dsimp only
  repeat' first
    | intro _
    | with_reducible assumption
    | with_reducible refine State.pin_keeps (List.Subset.trans (by decide) hm) ?_
    | with_reducible refine State.unqueueFlow_keeps (List.Subset.trans (by decide) hm) ?_
    | with_reducible refine State.updPort_keeps (List.Subset.trans (by decide) hm) ?_

theorem State.moveFlow_keeps {m : List Region} {s0 s : State} {a1 a2} (hm : [Region.flt, Region.wt] ⊆ m) (h : Keeps m s0 s) : Keeps m s0 (State.moveFlow s a1 a2) := by
  unfold State.moveFlow
  try dsimp only
  repeat' first
    | intro _
    | with_reducible assumption
    | with_reducible refine State.setTx_keeps (List.Subset.trans (by decide) hm) ?_
    | with_reducible refine State.count_keeps (List.Subset.trans (by decide) hm) ?_
    | with_reducible refine State.requeueFlow_keeps (List.Subset.trans (by decide) hm) ?_

theorem State.updPage_keeps {m : List Region} {s0 s : State} {a1 a2} (hm : [Region.mem, Region.side, Region.sessions, Region.parts] ⊆ m) (h : Keeps m s0 s) : Keeps m s0 (State.updPage s a1 a2) := by
  unfold State.updPage
  try dsimp only
  repeat' first
    | intro _
    | with_reducible assumption
    | with_reducible refine State.putPage_keeps (List.Subset.trans (by decide) hm) ?_
    | with_reducible apply ite_keeps
    | with_reducible apply foldl_keeps
    | (fail_if_no_progress (with_reducible refine mk_keeps ?_ ?_ ?_ ?_ ?_ ?_ ?_ ?_ ?_ ?_ ?_ ?_ ?_ ?_ ?_ ?_ ?_ ?_ ?_ ?_ ?_ ?_ ?_ ?_ ?_ ?_ ?_ ?_) <;> try first | (with_reducible exact Or.inl rfl) | (exact Or.inr (hm (by decide))))
    | split

theorem State.updSession_keeps {m : List Region} {s0 s : State} {a1 a2} (hm : [Region.sessions] ⊆ m) (h : Keeps m s0 s) : Keeps m s0 (State.updSession s a1 a2) := by
  unfold State.updSession
  try dsimp only
  repeat' first
    | intro _
    | with_reducible assumption
    | with_reducible refine State.setSession_keeps (List.Subset.trans (by decide) hm) ?_
    | with_reducible apply ite_keeps
    | with_reducible apply foldl_keeps
    | (fail_if_no_progress (with_reducible refine mk_keeps ?_ ?_ ?_ ?_ ?_ ?_ ?_ ?_ ?_ ?_ ?_ ?_ ?_ ?_ ?_ ?_ ?_ ?_ ?_ ?_ ?_ ?_ ?_ ?_ ?_ ?_ ?_ ?_) <;> try first | (with_reducible exact Or.inl rfl) | (exact Or.inr (hm (by decide))))
    | split

theorem State.entryAt_keeps {m : List Region} {s0 s : State} {a1 a2 a3} (hm : [Region.mem, Region.side] ⊆ m) (h : Keeps m s0 s) : Keeps m s0 (State.entryAt s a1 a2 a3) := by
  unfold State.entryAt
  try dsimp only
  repeat' first
    | intro _
    | with_reducible assumption
    | with_reducible refine State.patchGrain_keeps (List.Subset.trans (by decide) hm) ?_

theorem State.forwardCmd_keeps {m : List Region} {s0 s : State} {a1 a2 a3} (hm : [Region.flt, Region.slc, Region.wt, Region.sec, Region.mboxes, Region.twin] ⊆ m) (h : Keeps m s0 s) : Keeps m s0 (State.forwardCmd s a1 a2 a3) := by
  unfold State.forwardCmd
  try dsimp only
  repeat' first
    | intro _
    | with_reducible assumption
    | with_reducible refine State.checkForward_keeps (List.Subset.trans (by decide) hm) ?_
    | with_reducible refine State.sendMsg_keeps (List.Subset.trans (by decide) hm) ?_
    | with_reducible refine State.count_keeps (List.Subset.trans (by decide) hm) ?_
    | with_reducible apply ite_keeps
    | with_reducible apply foldl_keeps
    | (fail_if_no_progress (with_reducible refine mk_keeps ?_ ?_ ?_ ?_ ?_ ?_ ?_ ?_ ?_ ?_ ?_ ?_ ?_ ?_ ?_ ?_ ?_ ?_ ?_ ?_ ?_ ?_ ?_ ?_ ?_ ?_ ?_ ?_) <;> try first | (with_reducible exact Or.inl rfl) | (exact Or.inr (hm (by decide))))

theorem State.clearUnreachable_keeps {m : List Region} {s0 s : State} {a1} (hm : [Region.wt] ⊆ m) (h : Keeps m s0 s) : Keeps m s0 (State.clearUnreachable s a1) := by
  unfold State.clearUnreachable
  try dsimp only
  repeat' first
    | (exact List.Subset.trans (by decide) hm)
    | intro _
    | with_reducible assumption
    | (with_reducible apply State.each_keeps)
    | with_reducible refine State.setTx_keeps (List.Subset.trans (by decide) hm) ?_
    | with_reducible apply ite_keeps
    | with_reducible apply foldl_keeps
    | (fail_if_no_progress (with_reducible refine mk_keeps ?_ ?_ ?_ ?_ ?_ ?_ ?_ ?_ ?_ ?_ ?_ ?_ ?_ ?_ ?_ ?_ ?_ ?_ ?_ ?_ ?_ ?_ ?_ ?_ ?_ ?_ ?_ ?_) <;> try first | (with_reducible exact Or.inl rfl) | (exact Or.inr (hm (by decide))))

theorem State.failEntries_keeps {m : List Region} {s0 s : State} {a1 a2} (hm : [Region.clk, Region.flt, Region.provs, Region.slc, Region.wt, Region.jets, Region.twin] ⊆ m) (h : Keeps m s0 s) : Keeps m s0 (State.failEntries s a1 a2) := by
  unfold State.failEntries
  try dsimp only
  repeat' first
    | (exact List.Subset.trans (by decide) hm)
    | intro _
    | with_reducible assumption
    | (with_reducible apply State.each_keeps)
    | with_reducible refine State.failEntry_keeps (List.Subset.trans (by decide) hm) ?_
    | with_reducible apply ite_keeps
    | with_reducible apply foldl_keeps
    | (fail_if_no_progress (with_reducible refine mk_keeps ?_ ?_ ?_ ?_ ?_ ?_ ?_ ?_ ?_ ?_ ?_ ?_ ?_ ?_ ?_ ?_ ?_ ?_ ?_ ?_ ?_ ?_ ?_ ?_ ?_ ?_ ?_ ?_) <;> try first | (with_reducible exact Or.inl rfl) | (exact Or.inr (hm (by decide))))
    | split

theorem State.endReq_keeps {m : List Region} {s0 s : State} {a1 a2} (hm : [Region.clk, Region.flt, Region.provs, Region.slc, Region.wt, Region.jets, Region.twin] ⊆ m) (h : Keeps m s0 s) : Keeps m s0 (State.endReq s a1 a2) := by
  unfold State.endReq
  try dsimp only
  repeat' first
    | (exact List.Subset.trans (by decide) hm)
    | intro _
    | with_reducible assumption
    | (with_reducible apply State.each_keeps)
    | with_reducible refine State.setClaim_keeps (List.Subset.trans (by decide) hm) ?_
    | with_reducible refine State.failEntries_keeps (List.Subset.trans (by decide) hm) ?_
    | with_reducible refine State.releaseHeld_keeps (List.Subset.trans (by decide) hm) ?_
    | with_reducible refine State.setReq_keeps (List.Subset.trans (by decide) hm) ?_
    | with_reducible refine State.refuseRead_keeps (List.Subset.trans (by decide) hm) ?_
    | with_reducible refine State.finishReq_keeps (List.Subset.trans (by decide) hm) ?_
    | with_reducible apply ite_keeps
    | with_reducible apply foldl_keeps
    | (fail_if_no_progress (with_reducible refine mk_keeps ?_ ?_ ?_ ?_ ?_ ?_ ?_ ?_ ?_ ?_ ?_ ?_ ?_ ?_ ?_ ?_ ?_ ?_ ?_ ?_ ?_ ?_ ?_ ?_ ?_ ?_ ?_ ?_) <;> try first | (with_reducible exact Or.inl rfl) | (exact Or.inr (hm (by decide))))
    | split

theorem State.countPort_keeps {m : List Region} {s0 s : State} {a1 a2 a3} (hm : [Region.flt] ⊆ m) (h : Keeps m s0 s) : Keeps m s0 (State.countPort s a1 a2 a3) := by
  unfold State.countPort
  try dsimp only
  repeat' first
    | intro _
    | with_reducible assumption
    | with_reducible apply ite_keeps
    | with_reducible apply foldl_keeps
    | (fail_if_no_progress (with_reducible refine mk_keeps ?_ ?_ ?_ ?_ ?_ ?_ ?_ ?_ ?_ ?_ ?_ ?_ ?_ ?_ ?_ ?_ ?_ ?_ ?_ ?_ ?_ ?_ ?_ ?_ ?_ ?_ ?_ ?_) <;> try first | (with_reducible exact Or.inl rfl) | (exact Or.inr (hm (by decide))))

theorem State.coverChanges_keeps {m : List Region} {s0 s : State} {a1} (hm : [Region.flt, Region.parts, Region.slc, Region.wt, Region.sec, Region.mboxes, Region.twin] ⊆ m) (h : Keeps m s0 s) : Keeps m s0 (State.coverChanges s a1) := by
  unfold State.coverChanges
  try dsimp only
  repeat' first
    | (exact List.Subset.trans (by decide) hm)
    | intro _
    | with_reducible assumption
    | (with_reducible apply State.each_keeps)
    | with_reducible refine State.deliver_keeps (List.Subset.trans (by decide) hm) ?_
    | with_reducible apply ite_keeps
    | with_reducible apply foldl_keeps
    | (fail_if_no_progress (with_reducible refine mk_keeps ?_ ?_ ?_ ?_ ?_ ?_ ?_ ?_ ?_ ?_ ?_ ?_ ?_ ?_ ?_ ?_ ?_ ?_ ?_ ?_ ?_ ?_ ?_ ?_ ?_ ?_ ?_ ?_) <;> try first | (with_reducible exact Or.inl rfl) | (exact Or.inr (hm (by decide))))

theorem State.mirrorGrains_keeps {m : List Region} {s0 s : State} {a1 a2 a3} (hm : [Region.flt, Region.slc, Region.wt, Region.twin] ⊆ m) (h : Keeps m s0 s) : Keeps m s0 (State.mirrorGrains s a1 a2 a3) := by
  unfold State.mirrorGrains
  try dsimp only
  repeat' first
    | intro _
    | with_reducible assumption
    | with_reducible refine State.mirror_keeps (List.Subset.trans (by decide) hm) ?_
    | with_reducible apply ite_keeps
    | with_reducible apply foldl_keeps
    | (fail_if_no_progress (with_reducible refine mk_keeps ?_ ?_ ?_ ?_ ?_ ?_ ?_ ?_ ?_ ?_ ?_ ?_ ?_ ?_ ?_ ?_ ?_ ?_ ?_ ?_ ?_ ?_ ?_ ?_ ?_ ?_ ?_ ?_) <;> try first | (with_reducible exact Or.inl rfl) | (exact Or.inr (hm (by decide))))

theorem State.writeGrains_keeps {m : List Region} {s0 s : State} {a1 a2} (hm : [Region.mem, Region.side, Region.badGrains, Region.twin] ⊆ m) (h : Keeps m s0 s) : Keeps m s0 (State.writeGrains s a1 a2) := by
  unfold State.writeGrains
  try dsimp only
  repeat' first
    | (exact List.Subset.trans (by decide) hm)
    | intro _
    | with_reducible assumption
    | (with_reducible apply State.each_keeps)
    | with_reducible refine State.putGrain_keeps (List.Subset.trans (by decide) hm) ?_
    | with_reducible refine State.clearGrain_keeps (List.Subset.trans (by decide) hm) ?_
    | with_reducible apply ite_keeps

theorem State.takeAck_keeps {m : List Region} {s0 s : State} {a1 a2 a3} (hm : [Region.clk, Region.flt, Region.parts, Region.slc, Region.wt, Region.jets, Region.sec, Region.mboxes, Region.twin] ⊆ m) (h : Keeps m s0 s) : Keeps m s0 (State.takeAck s a1 a2 a3) := by
  unfold State.takeAck
  try dsimp only
  repeat' first
    | intro _
    | with_reducible assumption
    | with_reducible refine State.count_keeps (List.Subset.trans (by decide) hm) ?_
    | with_reducible refine State.ackTo_keeps (List.Subset.trans (by decide) hm) ?_
    | with_reducible apply ite_keeps

theorem State.cutReads_keeps {m : List Region} {s0 s : State} {a1 a2} (hm : [Region.flt, Region.slc] ⊆ m) (h : Keeps m s0 s) : Keeps m s0 (State.cutReads s a1 a2) := by
  unfold State.cutReads
  try dsimp only
  repeat' first
    | intro _
    | with_reducible assumption
    | (with_reducible apply State.each_keeps)
    | with_reducible refine State.stopRead_keeps (List.Subset.trans (by decide) hm) ?_
    | with_reducible refine State.count_keeps (List.Subset.trans (by decide) hm) ?_
    | with_reducible apply ite_keeps
    | with_reducible apply foldl_keeps
    | split

theorem State.endAll_keeps {m : List Region} {s0 s : State} {a1 a2} (hm : [Region.clk, Region.flt, Region.parts, Region.slc, Region.wt, Region.jets, Region.sec, Region.mboxes, Region.twin] ⊆ m) (h : Keeps m s0 s) : Keeps m s0 (State.endAll s a1 a2) := by
  unfold State.endAll
  try dsimp only
  repeat' first
    | intro _
    | with_reducible assumption
    | (with_reducible apply State.each_keeps)
    | with_reducible refine State.cutReads_keeps (List.Subset.trans (by decide) hm) ?_
    | with_reducible refine State.endSent_keeps (List.Subset.trans (by decide) hm) ?_

theorem State.nakSync_keeps {m : List Region} {s0 s : State} {a1 a2} (hm : [Region.clk, Region.flt, Region.parts, Region.slc, Region.wt, Region.jets, Region.sec, Region.mboxes, Region.twin] ⊆ m) (h : Keeps m s0 s) : Keeps m s0 (State.nakSync s a1 a2) := by
  unfold State.nakSync
  try dsimp only
  repeat' first
    | intro _
    | with_reducible assumption
    | with_reducible refine State.setTx_keeps (List.Subset.trans (by decide) hm) ?_
    | with_reducible refine State.endAll_keeps (List.Subset.trans (by decide) hm) ?_
    | with_reducible apply ite_keeps
    | with_reducible apply foldl_keeps
    | (fail_if_no_progress (with_reducible refine mk_keeps ?_ ?_ ?_ ?_ ?_ ?_ ?_ ?_ ?_ ?_ ?_ ?_ ?_ ?_ ?_ ?_ ?_ ?_ ?_ ?_ ?_ ?_ ?_ ?_ ?_ ?_ ?_ ?_) <;> try first | (with_reducible exact Or.inl rfl) | (exact Or.inr (hm (by decide))))

theorem State.failFlow_keeps {m : List Region} {s0 s : State} {a1 a2} (hm : [Region.clk, Region.flt, Region.parts, Region.slc, Region.wt, Region.jets, Region.sec, Region.mboxes, Region.twin] ⊆ m) (h : Keeps m s0 s) : Keeps m s0 (State.failFlow s a1 a2) := by
  unfold State.failFlow
  try dsimp only
  repeat' first
    | intro _
    | with_reducible assumption
    | with_reducible refine State.setTx_keeps (List.Subset.trans (by decide) hm) ?_
    | with_reducible refine State.unqueueFlow_keeps (List.Subset.trans (by decide) hm) ?_
    | with_reducible refine State.endAll_keeps (List.Subset.trans (by decide) hm) ?_
    | with_reducible refine State.count_keeps (List.Subset.trans (by decide) hm) ?_

theorem State.failPeer_keeps {m : List Region} {s0 s : State} {a1} (hm : [Region.clk, Region.flt, Region.parts, Region.slc, Region.wt, Region.jets, Region.sec, Region.mboxes, Region.twin] ⊆ m) (h : Keeps m s0 s) : Keeps m s0 (State.failPeer s a1) := by
  unfold State.failPeer
  try dsimp only
  repeat' first
    | intro _
    | with_reducible assumption
    | (with_reducible apply State.each_keeps)
    | with_reducible refine State.failFlow_keeps (List.Subset.trans (by decide) hm) ?_
    | with_reducible refine State.enterSolo_keeps (List.Subset.trans (by decide) hm) ?_
    | with_reducible apply ite_keeps
    | with_reducible apply foldl_keeps
    | (fail_if_no_progress (with_reducible refine mk_keeps ?_ ?_ ?_ ?_ ?_ ?_ ?_ ?_ ?_ ?_ ?_ ?_ ?_ ?_ ?_ ?_ ?_ ?_ ?_ ?_ ?_ ?_ ?_ ?_ ?_ ?_ ?_ ?_) <;> try first | (with_reducible exact Or.inl rfl) | (exact Or.inr (hm (by decide))))

theorem State.goBackTo_keeps {m : List Region} {s0 s : State} {a1 a2 a3 a4} (hm : [Region.clk, Region.flt, Region.parts, Region.slc, Region.wt, Region.jets, Region.sec, Region.mboxes, Region.twin] ⊆ m) (h : Keeps m s0 s) : Keeps m s0 (State.goBackTo s a1 a2 a3 a4) := by
  unfold State.goBackTo
  try dsimp only
  repeat' first
    | intro _
    | with_reducible assumption
    | with_reducible refine State.failPeer_keeps (List.Subset.trans (by decide) hm) ?_
    | with_reducible refine State.setTx_keeps (List.Subset.trans (by decide) hm) ?_
    | with_reducible apply ite_keeps

theorem State.mapMsg_keeps {m : List Region} {s0 s : State} {a1 a2 a3 a4} (hm : [Region.wt] ⊆ m) (h : Keeps m s0 s) : Keeps m s0 (State.mapMsg s a1 a2 a3 a4) := by
  unfold State.mapMsg
  try dsimp only
  repeat' first
    | intro _
    | with_reducible assumption
    | with_reducible refine State.setTx_keeps (List.Subset.trans (by decide) hm) ?_
    | with_reducible apply ite_keeps
    | with_reducible apply foldl_keeps
    | (fail_if_no_progress (with_reducible refine mk_keeps ?_ ?_ ?_ ?_ ?_ ?_ ?_ ?_ ?_ ?_ ?_ ?_ ?_ ?_ ?_ ?_ ?_ ?_ ?_ ?_ ?_ ?_ ?_ ?_ ?_ ?_ ?_ ?_) <;> try first | (with_reducible exact Or.inl rfl) | (exact Or.inr (hm (by decide))))

theorem State.nakKey_keeps {m : List Region} {s0 s : State} {a1 a2 a3 a4} (hm : [Region.clk, Region.flt, Region.parts, Region.slc, Region.wt, Region.jets, Region.sec, Region.mboxes, Region.twin] ⊆ m) (h : Keeps m s0 s) : Keeps m s0 (State.nakKey s a1 a2 a3 a4) := by
  unfold State.nakKey
  try dsimp only
  repeat' first
    | intro _
    | with_reducible assumption
    | with_reducible refine State.count_keeps (List.Subset.trans (by decide) hm) ?_
    | with_reducible refine State.ackTo_keeps (List.Subset.trans (by decide) hm) ?_
    | with_reducible refine State.setTx_keeps (List.Subset.trans (by decide) hm) ?_
    | with_reducible refine State.goBackTo_keeps (List.Subset.trans (by decide) hm) ?_
    | with_reducible refine State.mapMsg_keeps (List.Subset.trans (by decide) hm) ?_
    | with_reducible refine State.endMsg_keeps (List.Subset.trans (by decide) hm) ?_
    | with_reducible apply ite_keeps
    | with_reducible apply foldl_keeps
    | (fail_if_no_progress (with_reducible refine mk_keeps ?_ ?_ ?_ ?_ ?_ ?_ ?_ ?_ ?_ ?_ ?_ ?_ ?_ ?_ ?_ ?_ ?_ ?_ ?_ ?_ ?_ ?_ ?_ ?_ ?_ ?_ ?_ ?_) <;> try first | (with_reducible exact Or.inl rfl) | (exact Or.inr (hm (by decide))))
    | split

theorem State.nakRefusal_keeps {m : List Region} {s0 s : State} {a1 a2 a3 a4 a5} (hm : [Region.clk, Region.flt, Region.parts, Region.slc, Region.wt, Region.jets, Region.sec, Region.mboxes, Region.twin] ⊆ m) (h : Keeps m s0 s) : Keeps m s0 (State.nakRefusal s a1 a2 a3 a4 a5) := by
  unfold State.nakRefusal
  try dsimp only
  repeat' first
    | intro _
    | with_reducible assumption
    | with_reducible refine State.ackTo_keeps (List.Subset.trans (by decide) hm) ?_
    | with_reducible refine State.mapMsg_keeps (List.Subset.trans (by decide) hm) ?_
    | with_reducible refine State.endMsg_keeps (List.Subset.trans (by decide) hm) ?_
    | with_reducible apply ite_keeps
    | with_reducible apply foldl_keeps
    | (fail_if_no_progress (with_reducible refine mk_keeps ?_ ?_ ?_ ?_ ?_ ?_ ?_ ?_ ?_ ?_ ?_ ?_ ?_ ?_ ?_ ?_ ?_ ?_ ?_ ?_ ?_ ?_ ?_ ?_ ?_ ?_ ?_ ?_) <;> try first | (with_reducible exact Or.inl rfl) | (exact Or.inr (hm (by decide))))
    | split

theorem State.takeNak_keeps {m : List Region} {s0 s : State} {a1 a2 a3} (hm : [Region.clk, Region.flt, Region.parts, Region.slc, Region.wt, Region.jets, Region.sec, Region.mboxes, Region.twin] ⊆ m) (h : Keeps m s0 s) : Keeps m s0 (State.takeNak s a1 a2 a3) := by
  unfold State.takeNak
  try dsimp only
  repeat' first
    | intro _
    | with_reducible assumption
    | with_reducible refine State.count_keeps (List.Subset.trans (by decide) hm) ?_
    | with_reducible refine State.nakSync_keeps (List.Subset.trans (by decide) hm) ?_
    | with_reducible refine State.ackTo_keeps (List.Subset.trans (by decide) hm) ?_
    | with_reducible refine State.goBackTo_keeps (List.Subset.trans (by decide) hm) ?_
    | with_reducible refine State.nakKey_keeps (List.Subset.trans (by decide) hm) ?_
    | with_reducible refine State.nakRefusal_keeps (List.Subset.trans (by decide) hm) ?_
    | with_reducible apply ite_keeps

theorem State.emits_keeps {m : List Region} {s0 s : State} {a1} (_hm : ([] : List Region) ⊆ m) (h : Keeps m s0 s) : Keeps m s0 (State.emits s a1) := by
  unfold State.emits
  try dsimp only
  repeat' first
    | intro _
    | with_reducible assumption
    | with_reducible apply ite_keeps
    | with_reducible apply foldl_keeps
    | (fail_if_no_progress (with_reducible refine mk_keeps ?_ ?_ ?_ ?_ ?_ ?_ ?_ ?_ ?_ ?_ ?_ ?_ ?_ ?_ ?_ ?_ ?_ ?_ ?_ ?_ ?_ ?_ ?_ ?_ ?_ ?_ ?_ ?_) <;> try first | (with_reducible exact Or.inl rfl) | (exact Or.inr (hm (by decide))))

theorem State.endJet_keeps {m : List Region} {s0 s : State} {a1 a2 a3 a4} (hm : [Region.jets] ⊆ m) (h : Keeps m s0 s) : Keeps m s0 (State.endJet s a1 a2 a3 a4) := by
  unfold State.endJet
  try dsimp only
  repeat' first
    | intro _
    | with_reducible assumption
    | with_reducible refine State.updJet_keeps (List.Subset.trans (by decide) hm) ?_

theorem State.raiseIrq_keeps {m : List Region} {s0 s : State} {a1} (hm : [Region.sb] ⊆ m) (h : Keeps m s0 s) : Keeps m s0 (State.raiseIrq s a1) := by
  unfold State.raiseIrq
  try dsimp only
  repeat' first
    | intro _
    | with_reducible assumption
    | with_reducible apply ite_keeps
    | with_reducible apply foldl_keeps
    | (fail_if_no_progress (with_reducible refine mk_keeps ?_ ?_ ?_ ?_ ?_ ?_ ?_ ?_ ?_ ?_ ?_ ?_ ?_ ?_ ?_ ?_ ?_ ?_ ?_ ?_ ?_ ?_ ?_ ?_ ?_ ?_ ?_ ?_) <;> try first | (with_reducible exact Or.inl rfl) | (exact Or.inr (hm (by decide))))

theorem State.toStage_keeps {m : List Region} {s0 s : State} {a1} (hm : [Region.boot, Region.sb] ⊆ m) (h : Keeps m s0 s) : Keeps m s0 (State.toStage s a1) := by
  unfold State.toStage
  try dsimp only
  repeat' first
    | intro _
    | with_reducible assumption
    | with_reducible refine State.raiseIrq_keeps (List.Subset.trans (by decide) hm) ?_
    | with_reducible apply ite_keeps
    | with_reducible apply foldl_keeps
    | (fail_if_no_progress (with_reducible refine mk_keeps ?_ ?_ ?_ ?_ ?_ ?_ ?_ ?_ ?_ ?_ ?_ ?_ ?_ ?_ ?_ ?_ ?_ ?_ ?_ ?_ ?_ ?_ ?_ ?_ ?_ ?_ ?_ ?_) <;> try first | (with_reducible exact Or.inl rfl) | (exact Or.inr (hm (by decide))))

theorem State.gateRefuse_keeps {m : List Region} {s0 s : State} {a1 a2} (hm : [Region.flt, Region.sec] ⊆ m) (h : Keeps m s0 s) : Keeps m s0 (State.gateRefuse s a1 a2) := by
  unfold State.gateRefuse
  try dsimp only
  repeat' first
    | intro _
    | with_reducible assumption
    | with_reducible refine State.fence_keeps (List.Subset.trans (by decide) hm) ?_
    | with_reducible refine State.count_keeps (List.Subset.trans (by decide) hm) ?_
    | with_reducible refine State.fault_keeps (List.Subset.trans (by decide) hm) ?_

theorem State.isolateJet_keeps {m : List Region} {s0 s : State} {a1} (hm : [Region.jets] ⊆ m) (h : Keeps m s0 s) : Keeps m s0 (State.isolateJet s a1) := by
  unfold State.isolateJet
  try dsimp only
  repeat' first
    | intro _
    | with_reducible assumption
    | with_reducible refine State.updJet_keeps (List.Subset.trans (by decide) hm) ?_

theorem State.hangJet_keeps {m : List Region} {s0 s : State} {a1} (hm : [Region.flt, Region.jets] ⊆ m) (h : Keeps m s0 s) : Keeps m s0 (State.hangJet s a1) := by
  unfold State.hangJet
  try dsimp only
  repeat' first
    | intro _
    | with_reducible assumption
    | with_reducible refine State.fault_keeps (List.Subset.trans (by decide) hm) ?_
    | with_reducible refine State.isolateJet_keeps (List.Subset.trans (by decide) hm) ?_

theorem State.jetRun_keeps {m : List Region} {s0 s : State} {j : Nat} {f : Jet → Nat → State}
    (hf : ∀ x n, Keeps m s0 (f x n)) (h : Keeps m s0 s) : Keeps m s0 (s.jetRun j f) := by
  unfold State.jetRun
  split
  · split
    · exact hf _ _
    · exact h
  · exact h

theorem State.writeSpareMap_keeps {m : List Region} {s0 s : State} (hm : [Region.spares] ⊆ m) (h : Keeps m s0 s) : Keeps m s0 (State.writeSpareMap s) := by
  unfold State.writeSpareMap
  try dsimp only
  repeat' first
    | intro _
    | with_reducible assumption
    | with_reducible apply ite_keeps
    | with_reducible apply foldl_keeps
    | (fail_if_no_progress (with_reducible refine mk_keeps ?_ ?_ ?_ ?_ ?_ ?_ ?_ ?_ ?_ ?_ ?_ ?_ ?_ ?_ ?_ ?_ ?_ ?_ ?_ ?_ ?_ ?_ ?_ ?_ ?_ ?_ ?_ ?_) <;> try first | (with_reducible exact Or.inl rfl) | (exact Or.inr (hm (by decide))))

theorem State.spareEvent_keeps {m : List Region} {s0 s : State} {a1 a2 a3} (hm : [Region.flt] ⊆ m) (h : Keeps m s0 s) : Keeps m s0 (State.spareEvent s a1 a2 a3) := by
  unfold State.spareEvent
  try dsimp only
  repeat' first
    | intro _
    | with_reducible assumption
    | with_reducible refine State.fault_keeps (List.Subset.trans (by decide) hm) ?_

theorem State.sparedIn_keeps {m : List Region} {s0 s : State} {a1 a2} (hm : [Region.flt, Region.spares] ⊆ m) (h : Keeps m s0 s) : Keeps m s0 (State.sparedIn s a1 a2) := by
  unfold State.sparedIn
  try dsimp only
  repeat' first
    | intro _
    | with_reducible assumption
    | with_reducible refine State.writeSpareMap_keeps (List.Subset.trans (by decide) hm) ?_
    | with_reducible refine State.spareEvent_keeps (List.Subset.trans (by decide) hm) ?_

theorem State.linkLost_keeps {m : List Region} {s0 s : State} {a1} (hm : [Region.flt, Region.wt] ⊆ m) (h : Keeps m s0 s) : Keeps m s0 (State.linkLost s a1) := by
  unfold State.linkLost
  try dsimp only
  repeat' first
    | (exact List.Subset.trans (by decide) hm)
    | intro _
    | with_reducible assumption
    | with_reducible refine State.updPort_keeps (List.Subset.trans (by decide) hm) ?_
    | with_reducible refine State.fault_keeps (List.Subset.trans (by decide) hm) ?_
    | with_reducible refine State.countPort_keeps (List.Subset.trans (by decide) hm) ?_
    | (with_reducible apply State.each_keeps)
    | with_reducible refine State.moveFlow_keeps (List.Subset.trans (by decide) hm) ?_
    | with_reducible refine State.requeueFlow_keeps (List.Subset.trans (by decide) hm) ?_
    | with_reducible apply ite_keeps

theorem State.linkCameUp_keeps {m : List Region} {s0 s : State} {a1} (hm : [Region.wt] ⊆ m) (h : Keeps m s0 s) : Keeps m s0 (State.linkCameUp s a1) := by
  unfold State.linkCameUp
  try dsimp only
  repeat' first
    | (exact List.Subset.trans (by decide) hm)
    | intro _
    | with_reducible assumption
    | (with_reducible apply State.each_keeps)
    | with_reducible refine State.requeueFlow_keeps (List.Subset.trans (by decide) hm) ?_
    | with_reducible apply ite_keeps

theorem State.noteCorrected_keeps {m : List Region} {s0 s : State} {a1 a2 a3 a4} (hm : [Region.flt] ⊆ m) (h : Keeps m s0 s) : Keeps m s0 (State.noteCorrected s a1 a2 a3 a4) := by
  unfold State.noteCorrected
  try dsimp only
  repeat' first
    | (exact List.Subset.trans (by decide) hm)
    | intro _
    | with_reducible assumption
    | (with_reducible apply State.each_keeps)
    | with_reducible refine State.grainEvent_keeps (List.Subset.trans (by decide) hm) ?_

theorem State.onJet_keeps {m : List Region} {s0 s : State} {a1 a2} (hm : [Region.jets] ⊆ m) (h : Keeps m s0 s) : Keeps m s0 (State.onJet s a1 a2) := by
  unfold State.onJet
  try dsimp only
  repeat' first
    | intro _
    | with_reducible assumption
    | with_reducible refine State.updJet_keeps (List.Subset.trans (by decide) hm) ?_
    | with_reducible apply ite_keeps

theorem State.setStageSet_keeps {m : List Region} {s0 s : State} {a1 a2} (hm : [Region.ep] ⊆ m) (h : Keeps m s0 s) : Keeps m s0 (State.setStageSet s a1 a2) := by
  unfold State.setStageSet
  try dsimp only
  repeat' first
    | intro _
    | with_reducible assumption
    | with_reducible apply ite_keeps
    | with_reducible apply foldl_keeps
    | (fail_if_no_progress (with_reducible refine mk_keeps ?_ ?_ ?_ ?_ ?_ ?_ ?_ ?_ ?_ ?_ ?_ ?_ ?_ ?_ ?_ ?_ ?_ ?_ ?_ ?_ ?_ ?_ ?_ ?_ ?_ ?_ ?_ ?_) <;> try first | (with_reducible exact Or.inl rfl) | (exact Or.inr (hm (by decide))))

theorem State.recoverCopy_keeps {m : List Region} {s0 s : State} {a1 a2} (hm : [Region.flt, Region.mem, Region.side, Region.sessions, Region.parts] ⊆ m) (h : Keeps m s0 s) : Keeps m s0 (State.recoverCopy s a1 a2) := by
  unfold State.recoverCopy
  try dsimp only
  repeat' first
    | intro _
    | with_reducible assumption
    | with_reducible refine State.fault_keeps (List.Subset.trans (by decide) hm) ?_
    | with_reducible refine State.putPage_keeps (List.Subset.trans (by decide) hm) ?_
    | with_reducible apply ite_keeps
    | with_reducible apply foldl_keeps
    | split

theorem State.setKey_keeps {m : List Region} {s0 s : State} {a1 a2} (hm : [Region.sec] ⊆ m) (h : Keeps m s0 s) : Keeps m s0 (State.setKey s a1 a2) := by
  unfold State.setKey
  try dsimp only
  repeat' first
    | intro _
    | with_reducible assumption
    | with_reducible apply ite_keeps
    | with_reducible apply foldl_keeps
    | (fail_if_no_progress (with_reducible refine mk_keeps ?_ ?_ ?_ ?_ ?_ ?_ ?_ ?_ ?_ ?_ ?_ ?_ ?_ ?_ ?_ ?_ ?_ ?_ ?_ ?_ ?_ ?_ ?_ ?_ ?_ ?_ ?_ ?_) <;> try first | (with_reducible exact Or.inl rfl) | (exact Or.inr (hm (by decide))))

theorem State.recordOmitted_keeps {m : List Region} {s0 s : State} {a1 a2 a3 a4} (hm : [Region.flt] ⊆ m) (h : Keeps m s0 s) : Keeps m s0 (State.recordOmitted s a1 a2 a3 a4) := by
  unfold State.recordOmitted
  try dsimp only
  repeat' first
    | intro _
    | with_reducible assumption
    | with_reducible refine State.fault_keeps (List.Subset.trans (by decide) hm) ?_

theorem State.segFail_keeps {m : List Region} {s0 s : State} {a1 a2 a3 a4} (hm : [Region.flt, Region.mem, Region.side, Region.badGrains, Region.sessions, Region.parts, Region.slc, Region.wt, Region.jets, Region.sec, Region.twin] ⊆ m) (h : Keeps m s0 s) : Keeps m s0 (State.segFail s a1 a2 a3 a4) := by
  unfold State.segFail
  try dsimp only
  repeat' first
    | intro _
    | with_reducible assumption
    | (with_reducible apply State.each_keeps)
    | with_reducible refine State.failGrain_keeps (List.Subset.trans (by decide) hm) ?_
    | with_reducible refine State.recordOmitted_keeps (List.Subset.trans (by decide) hm) ?_
    | with_reducible refine State.updJet_keeps (List.Subset.trans (by decide) hm) ?_
    | with_reducible refine State.endJet_keeps (List.Subset.trans (by decide) hm) ?_
    | with_reducible apply ite_keeps

theorem State.segOk_keeps {m : List Region} {s0 s : State} {a1 a2 a3 a4} (hm : [Region.parts, Region.jets] ⊆ m) (h : Keeps m s0 s) : Keeps m s0 (State.segOk s a1 a2 a3 a4) := by
  unfold State.segOk
  try dsimp only
  repeat' first
    | intro _
    | with_reducible assumption
    | with_reducible refine State.setJet_keeps (List.Subset.trans (by decide) hm) ?_
    | with_reducible refine State.addSat_keeps (List.Subset.trans (by decide) hm) ?_
    | with_reducible apply ite_keeps

theorem State.toFailed_keeps {m : List Region} {s0 s : State} {a1} (hm : [Region.pins, Region.boot, Region.sb] ⊆ m) (h : Keeps m s0 s) : Keeps m s0 (State.toFailed s a1) := by
  unfold State.toFailed
  try dsimp only
  repeat' first
    | intro _
    | with_reducible assumption
    | with_reducible refine State.toStage_keeps (List.Subset.trans (by decide) hm) ?_
    | with_reducible apply ite_keeps
    | with_reducible apply foldl_keeps
    | (fail_if_no_progress (with_reducible refine mk_keeps ?_ ?_ ?_ ?_ ?_ ?_ ?_ ?_ ?_ ?_ ?_ ?_ ?_ ?_ ?_ ?_ ?_ ?_ ?_ ?_ ?_ ?_ ?_ ?_ ?_ ?_ ?_ ?_) <;> try first | (with_reducible exact Or.inl rfl) | (exact Or.inr (hm (by decide))))

theorem State.upTo_keeps {m : List Region} {s0 s : State} {a1} (hm : [Region.clk] ⊆ m) (h : Keeps m s0 s) : Keeps m s0 (State.upTo s a1) := by
  unfold State.upTo
  try dsimp only
  repeat' first
    | intro _
    | with_reducible assumption
    | with_reducible apply ite_keeps
    | with_reducible apply foldl_keeps
    | (fail_if_no_progress (with_reducible refine mk_keeps ?_ ?_ ?_ ?_ ?_ ?_ ?_ ?_ ?_ ?_ ?_ ?_ ?_ ?_ ?_ ?_ ?_ ?_ ?_ ?_ ?_ ?_ ?_ ?_ ?_ ?_ ?_ ?_) <;> try first | (with_reducible exact Or.inl rfl) | (exact Or.inr (hm (by decide))))

theorem doAckTimerExpiry_keeps {m : List Region} {s0 s : State} {a1 a2} (hm : [Region.wt] ⊆ m) (h : Keeps m s0 s) : Keeps m s0 (doAckTimerExpiry a1 a2 s) := by
  unfold doAckTimerExpiry
  try dsimp only
  repeat' first
    | (exact List.Subset.trans (by decide) hm)
    | intro _
    | with_reducible assumption
    | with_reducible refine State.setRx_keeps (List.Subset.trans (by decide) hm) ?_
    | with_reducible apply ite_keeps
    | with_reducible apply foldl_keeps
    | (fail_if_no_progress (with_reducible refine mk_keeps ?_ ?_ ?_ ?_ ?_ ?_ ?_ ?_ ?_ ?_ ?_ ?_ ?_ ?_ ?_ ?_ ?_ ?_ ?_ ?_ ?_ ?_ ?_ ?_ ?_ ?_ ?_ ?_) <;> try first | (with_reducible exact Or.inl rfl) | (exact Or.inr (hm (by decide))))
    | split

theorem doOrdinaryAccess_keeps {m : List Region} {s0 s : State} {a1 a2} (hm : [Region.flt, Region.mem, Region.side, Region.jets, Region.sec] ⊆ m) (h : Keeps m s0 s) : Keeps m s0 (doOrdinaryAccess a1 a2 s) := by
  unfold doOrdinaryAccess
  try dsimp only
  repeat' first
    | (exact List.Subset.trans (by decide) hm)
    | intro _
    | with_reducible assumption
    | with_reducible refine State.gateRefuse_keeps (List.Subset.trans (by decide) hm) ?_
    | with_reducible refine State.putGrain_keeps (List.Subset.trans (by decide) hm) ?_
    | with_reducible refine State.updJet_keeps (List.Subset.trans (by decide) hm) ?_
    | with_reducible apply ite_keeps

theorem doPeerProbe_keeps {m : List Region} {s0 s : State} {a1} (hm : [Region.wt] ⊆ m) (h : Keeps m s0 s) : Keeps m s0 (doPeerProbe a1 s) := by
  unfold doPeerProbe
  try dsimp only
  repeat' first
    | intro _
    | with_reducible assumption
    | with_reducible refine State.pin_keeps (List.Subset.trans (by decide) hm) ?_
    | with_reducible refine State.emit_keeps (List.Subset.trans (by decide) hm) ?_
    | with_reducible refine State.setTx_keeps (List.Subset.trans (by decide) hm) ?_
    | with_reducible apply ite_keeps
    | with_reducible apply foldl_keeps
    | (fail_if_no_progress (with_reducible refine mk_keeps ?_ ?_ ?_ ?_ ?_ ?_ ?_ ?_ ?_ ?_ ?_ ?_ ?_ ?_ ?_ ?_ ?_ ?_ ?_ ?_ ?_ ?_ ?_ ?_ ?_ ?_ ?_ ?_) <;> try first | (with_reducible exact Or.inl rfl) | (exact Or.inr (hm (by decide))))
    | split

theorem doRetransmitTimerExpiry_keeps {m : List Region} {s0 s : State} {a1 a2} (hm : [Region.clk, Region.flt, Region.parts, Region.slc, Region.wt, Region.jets, Region.sec, Region.mboxes, Region.twin] ⊆ m) (h : Keeps m s0 s) : Keeps m s0 (doRetransmitTimerExpiry a1 a2 s) := by
  unfold doRetransmitTimerExpiry
  try dsimp only
  repeat' first
    | (exact List.Subset.trans (by decide) hm)
    | intro _
    | with_reducible assumption
    | with_reducible refine State.failPeer_keeps (List.Subset.trans (by decide) hm) ?_
    | with_reducible refine State.setTx_keeps (List.Subset.trans (by decide) hm) ?_
    | with_reducible refine State.moveFlow_keeps (List.Subset.trans (by decide) hm) ?_
    | with_reducible refine State.goBackTo_keeps (List.Subset.trans (by decide) hm) ?_
    | with_reducible apply ite_keeps
    | with_reducible apply foldl_keeps
    | (fail_if_no_progress (with_reducible refine mk_keeps ?_ ?_ ?_ ?_ ?_ ?_ ?_ ?_ ?_ ?_ ?_ ?_ ?_ ?_ ?_ ?_ ?_ ?_ ?_ ?_ ?_ ?_ ?_ ?_ ?_ ?_ ?_ ?_) <;> try first | (with_reducible exact Or.inl rfl) | (exact Or.inr (hm (by decide))))
    | split

theorem doSegmentReadDone_keeps {m : List Region} {s0 s : State} {a1 a2} (hm : [Region.flt, Region.mem, Region.side, Region.badGrains, Region.sessions, Region.parts, Region.slc, Region.wt, Region.jets, Region.sec, Region.twin] ⊆ m) (h : Keeps m s0 s) : Keeps m s0 (doSegmentReadDone a1 a2 s) := by
  unfold doSegmentReadDone
  try dsimp only
  repeat' first
    | intro _
    | with_reducible assumption
    | (with_reducible apply State.jetRun_keeps)
    | (with_reducible apply State.each_keeps)
    | with_reducible refine State.noteCorrected_keeps (List.Subset.trans (by decide) hm) ?_
    | with_reducible refine State.segFail_keeps (List.Subset.trans (by decide) hm) ?_
    | with_reducible refine State.segOk_keeps (List.Subset.trans (by decide) hm) ?_
    | with_reducible apply ite_keeps
    | with_reducible apply foldl_keeps
    | split

theorem doSlotStart_keeps {m : List Region} {s0 s : State} {a1} (hm : [Region.jets] ⊆ m) (h : Keeps m s0 s) : Keeps m s0 (doSlotStart a1 s) := by
  unfold doSlotStart
  try dsimp only
  repeat' first
    | (exact List.Subset.trans (by decide) hm)
    | intro _
    | with_reducible assumption
    | with_reducible refine State.setJet_keeps (List.Subset.trans (by decide) hm) ?_
    | with_reducible apply ite_keeps
    | with_reducible apply foldl_keeps
    | (fail_if_no_progress (with_reducible refine mk_keeps ?_ ?_ ?_ ?_ ?_ ?_ ?_ ?_ ?_ ?_ ?_ ?_ ?_ ?_ ?_ ?_ ?_ ?_ ?_ ?_ ?_ ?_ ?_ ?_ ?_ ?_ ?_ ?_) <;> try first | (with_reducible exact Or.inl rfl) | (exact Or.inr (hm (by decide))))
    | split

theorem doYreqDrop_keeps {m : List Region} {s0 s : State} {a1} (hm : [Region.jets] ⊆ m) (h : Keeps m s0 s) : Keeps m s0 (doYreqDrop a1 s) := by
  unfold doYreqDrop
  try dsimp only
  repeat' first
    | intro _
    | with_reducible assumption
    | with_reducible refine State.onJet_keeps (List.Subset.trans (by decide) hm) ?_

theorem doYreqRaise_keeps {m : List Region} {s0 s : State} {a1} (hm : [Region.jets] ⊆ m) (h : Keeps m s0 s) : Keeps m s0 (doYreqRaise a1 s) := by
  unfold doYreqRaise
  try dsimp only
  repeat' first
    | (exact List.Subset.trans (by decide) hm)
    | intro _
    | with_reducible assumption
    | with_reducible refine State.onJet_keeps (List.Subset.trans (by decide) hm) ?_

theorem execGo_keeps {m : List Region} {s0 s : State} {a1 a2} (hm : [Region.jets] ⊆ m) (h : Keeps m s0 s) : OutKeeps m s0 (execGo a1 a2 s) := by
  unfold execGo
  repeat' first
    | (with_reducible refine run_keeps (fun _ _ => ?_) ?_)
    | intro _
    | with_reducible assumption
    | with_reducible refine State.onJet_keeps (List.Subset.trans (by decide) hm) ?_

theorem execStop_keeps {m : List Region} {s0 s : State} {a1 a2} (hm : [Region.jets] ⊆ m) (h : Keeps m s0 s) : OutKeeps m s0 (execStop a1 a2 s) := by
  unfold execStop
  repeat' first
    | (with_reducible refine run_keeps (fun _ _ => ?_) ?_)
    | intro _
    | with_reducible assumption
    | with_reducible refine State.onJet_keeps (List.Subset.trans (by decide) hm) ?_

theorem execReadyClear_keeps {m : List Region} {s0 s : State} {a1 a2} (hm : [Region.jets] ⊆ m) (h : Keeps m s0 s) : OutKeeps m s0 (execReadyClear a1 a2 s) := by
  unfold execReadyClear
  repeat' first
    | (with_reducible refine run_keeps (fun _ _ => ?_) ?_)
    | intro _
    | with_reducible assumption
    | with_reducible refine State.onJet_keeps (List.Subset.trans (by decide) hm) ?_

theorem execSlotStart_keeps {m : List Region} {s0 s : State} {a1} (hm : [Region.jets] ⊆ m) (h : Keeps m s0 s) : OutKeeps m s0 (execSlotStart a1 s) := by
  unfold execSlotStart
  repeat' first
    | (with_reducible refine run_keeps (fun _ _ => ?_) ?_)
    | intro _
    | with_reducible assumption
    | with_reducible refine doSlotStart_keeps (List.Subset.trans (by decide) hm) ?_

theorem execSegmentReadDone_keeps {m : List Region} {s0 s : State} {a1 a2} (hm : [Region.flt, Region.mem, Region.side, Region.badGrains, Region.sessions, Region.parts, Region.slc, Region.wt, Region.jets, Region.sec, Region.twin] ⊆ m) (h : Keeps m s0 s) : OutKeeps m s0 (execSegmentReadDone a1 a2 s) := by
  unfold execSegmentReadDone
  repeat' first
    | (with_reducible refine run_keeps (fun _ _ => ?_) ?_)
    | intro _
    | with_reducible assumption
    | with_reducible refine doSegmentReadDone_keeps (List.Subset.trans (by decide) hm) ?_

theorem execYreqRaise_keeps {m : List Region} {s0 s : State} {a1} (hm : [Region.jets] ⊆ m) (h : Keeps m s0 s) : OutKeeps m s0 (execYreqRaise a1 s) := by
  unfold execYreqRaise
  repeat' first
    | (with_reducible refine run_keeps (fun _ _ => ?_) ?_)
    | intro _
    | with_reducible assumption
    | with_reducible refine doYreqRaise_keeps (List.Subset.trans (by decide) hm) ?_

theorem execYreqDrop_keeps {m : List Region} {s0 s : State} {a1} (hm : [Region.jets] ⊆ m) (h : Keeps m s0 s) : OutKeeps m s0 (execYreqDrop a1 s) := by
  unfold execYreqDrop
  repeat' first
    | (with_reducible refine run_keeps (fun _ _ => ?_) ?_)
    | intro _
    | with_reducible assumption
    | with_reducible refine doYreqDrop_keeps (List.Subset.trans (by decide) hm) ?_

theorem execOrdinaryAccess_keeps {m : List Region} {s0 s : State} {a1 a2} (hm : [Region.flt, Region.mem, Region.side, Region.jets, Region.sec] ⊆ m) (h : Keeps m s0 s) : OutKeeps m s0 (execOrdinaryAccess a1 a2 s) := by
  unfold execOrdinaryAccess
  repeat' first
    | (with_reducible refine run_keeps (fun _ _ => ?_) ?_)
    | intro _
    | with_reducible assumption
    | with_reducible refine doOrdinaryAccess_keeps (List.Subset.trans (by decide) hm) ?_

theorem execOwnLimitExpiry_keeps {m : List Region} {s0 s : State} {a1 a2} (hm : [Region.flt, Region.jets] ⊆ m) (h : Keeps m s0 s) : OutKeeps m s0 (execOwnLimitExpiry a1 a2 s) := by
  unfold execOwnLimitExpiry
  repeat' first
    | (with_reducible refine run_keeps (fun _ _ => ?_) ?_)
    | intro _
    | with_reducible assumption
    | with_reducible refine State.hangJet_keeps (List.Subset.trans (by decide) hm) ?_
    | with_reducible apply ite_keeps

theorem execSweepLimitExpiry_keeps {m : List Region} {s0 s : State} {a1 a2} (hm : [Region.flt, Region.jets] ⊆ m) (h : Keeps m s0 s) : OutKeeps m s0 (execSweepLimitExpiry a1 a2 s) := by
  unfold execSweepLimitExpiry
  repeat' first
    | (with_reducible refine run_keeps (fun _ _ => ?_) ?_)
    | intro _
    | with_reducible assumption
    | with_reducible refine State.hangJet_keeps (List.Subset.trans (by decide) hm) ?_
    | with_reducible apply ite_keeps

theorem execJetResponseTimeout_keeps {m : List Region} {s0 s : State} {a1 a2} (hm : [Region.flt, Region.jets] ⊆ m) (h : Keeps m s0 s) : OutKeeps m s0 (execJetResponseTimeout a1 a2 s) := by
  unfold execJetResponseTimeout
  repeat' first
    | (with_reducible refine run_keeps (fun _ _ => ?_) ?_)
    | intro _
    | with_reducible assumption
    | with_reducible refine State.hangJet_keeps (List.Subset.trans (by decide) hm) ?_
    | with_reducible apply ite_keeps

theorem execAckTimerExpiry_keeps {m : List Region} {s0 s : State} {a1 a2 a3} (hm : [Region.clk, Region.wt] ⊆ m) (h : Keeps m s0 s) : OutKeeps m s0 (execAckTimerExpiry a1 a2 a3 s) := by
  unfold execAckTimerExpiry
  repeat' first
    | (with_reducible refine run_keeps (fun _ _ => ?_) ?_)
    | intro _
    | with_reducible assumption
    | with_reducible refine doAckTimerExpiry_keeps (List.Subset.trans (by decide) hm) ?_
    | with_reducible refine State.upTo_keeps (List.Subset.trans (by decide) hm) ?_

theorem execRetransmitTimerExpiry_keeps {m : List Region} {s0 s : State} {a1 a2 a3} (hm : [Region.clk, Region.flt, Region.parts, Region.slc, Region.wt, Region.jets, Region.sec, Region.mboxes, Region.twin] ⊆ m) (h : Keeps m s0 s) : OutKeeps m s0 (execRetransmitTimerExpiry a1 a2 a3 s) := by
  unfold execRetransmitTimerExpiry
  repeat' first
    | (with_reducible refine run_keeps (fun _ _ => ?_) ?_)
    | intro _
    | with_reducible assumption
    | with_reducible refine doRetransmitTimerExpiry_keeps (List.Subset.trans (by decide) hm) ?_
    | with_reducible refine State.upTo_keeps (List.Subset.trans (by decide) hm) ?_

theorem execPeerProbe_keeps {m : List Region} {s0 s : State} {a1 a2} (hm : [Region.clk, Region.wt] ⊆ m) (h : Keeps m s0 s) : OutKeeps m s0 (execPeerProbe a1 a2 s) := by
  unfold execPeerProbe
  repeat' first
    | (with_reducible refine run_keeps (fun _ _ => ?_) ?_)
    | intro _
    | with_reducible assumption
    | with_reducible refine doPeerProbe_keeps (List.Subset.trans (by decide) hm) ?_
    | with_reducible refine State.upTo_keeps (List.Subset.trans (by decide) hm) ?_

theorem execLinkDown_keeps {m : List Region} {s0 s : State} {a1} (hm : [Region.flt, Region.wt] ⊆ m) (h : Keeps m s0 s) : OutKeeps m s0 (execLinkDown a1 s) := by
  unfold execLinkDown
  repeat' first
    | (with_reducible refine run_keeps (fun _ _ => ?_) ?_)
    | intro _
    | with_reducible assumption
    | with_reducible refine State.linkLost_keeps (List.Subset.trans (by decide) hm) ?_
    | with_reducible apply ite_keeps

theorem State.sealWhole_keeps {m : List Region} {s0 s : State} {a1 a2 a3} (hm : [Region.flt, Region.mem, Region.side, Region.allocs, Region.sessions, Region.parts] ⊆ m) (h : Keeps m s0 s) : Keeps m s0 (State.sealWhole s a1 a2 a3) := by
  unfold State.sealWhole
  try dsimp only
  repeat' first
    | intro _
    | with_reducible assumption
    | with_reducible refine State.sealPage_keeps (List.Subset.trans (by decide) hm) ?_
    | with_reducible apply ite_keeps
    | with_reducible apply foldl_keeps
    | split

theorem State.recoverBases_keeps {m : List Region} {s0 s : State} {a1 a2 a3 a4 a5} (hm : [Region.flt, Region.mem, Region.side, Region.sessions, Region.parts] ⊆ m) (h : Keeps m s0 s) : Keeps m s0 (State.recoverBases s a1 a2 a3 a4 a5) := by
  unfold State.recoverBases
  try dsimp only
  repeat' first
    | intro _
    | with_reducible assumption
    | (with_reducible apply State.each_keeps)
    | with_reducible refine State.recoverCopy_keeps (List.Subset.trans (by decide) hm) ?_

theorem State.recoverFor_keeps {m : List Region} {s0 s : State} {a1 a2} (hm : [Region.flt, Region.mem, Region.side, Region.sessions, Region.parts] ⊆ m) (h : Keeps m s0 s) : Keeps m s0 (State.recoverFor s a1 a2) := by
  unfold State.recoverFor
  try dsimp only
  repeat' first
    | intro _
    | with_reducible assumption
    | (with_reducible apply State.each_keeps)
    | with_reducible refine State.recoverBases_keeps (List.Subset.trans (by decide) hm) ?_
    | with_reducible apply ite_keeps
    | with_reducible apply foldl_keeps
    | split

theorem State.failOwn_keeps {m : List Region} {s0 s : State} {a1 a2} (hm : [Region.flt, Region.mem, Region.side, Region.badGrains, Region.sessions, Region.parts, Region.slc, Region.wt, Region.sec, Region.twin] ⊆ m) (h : Keeps m s0 s) : Keeps m s0 (State.failOwn s a1 a2) := by
  unfold State.failOwn
  try dsimp only
  repeat' first
    | intro _
    | with_reducible assumption
    | with_reducible refine State.failPage_keeps (List.Subset.trans (by decide) hm) ?_
    | with_reducible refine State.fault_keeps (List.Subset.trans (by decide) hm) ?_
    | with_reducible apply ite_keeps
    | with_reducible apply foldl_keeps
    | split

theorem State.reissuedParts_keeps {m : List Region} {s0 s : State} {a1 a2 a3 a4} (hm : [Region.flt, Region.mem, Region.side, Region.badGrains, Region.sessions, Region.parts, Region.slc, Region.wt, Region.sec, Region.twin] ⊆ m) (h : Keeps m s0 s) : ∀ t x, (State.reissuedParts s a1 a2 a3 a4) = (t, x) → Keeps m s0 (t) := by
  intro t x he
  unfold State.reissuedParts at he
  dsimp only at he
  have hf : Keeps m s0 t := by
    have : t = (t, x).1 := rfl
    rw [this, ← he]
    refine foldl_fst_keeps ?_ _ h
    intro a k ha
    have hps : ∀ l : List Swept, Keeps m s0 (l.foldl (fun (a : State × List OPage × Nat × List (Swept × Nat)) w =>
        match a.1.ownPage a1 a2 w with
        | .error e => (a.1.failOwn a2.part e, a.2.1, a.2.2.1, a.2.2.2 ++ [(w, statusOfCode e.2.1)])
        | .ok (p, n) => (a.1, a.2.1 ++ [p], a.2.2.1 + n, a.2.2.2)) (a.1, [], 0, [])).1 := by
      intro l
      refine foldl_fst_keeps ?_ l ha
      intro b w hb
      split
      · exact (State.failOwn_keeps (List.Subset.trans (by decide) hm)) hb
      · exact hb
    split
    · exact hps _
    · exact (State.addSat_keeps (List.Subset.trans (by decide) hm)) (hps _)
  exact hf

theorem State.endBist_keeps {m : List Region} {s0 s : State} {a1 a2} (hm : [Region.jets] ⊆ m) (h : Keeps m s0 s) : Keeps m s0 (State.endBist s a1 a2) := by
  unfold State.endBist
  try dsimp only
  repeat' first
    | intro _
    | with_reducible assumption
    | with_reducible refine State.endJet_keeps (List.Subset.trans (by decide) hm) ?_
    | with_reducible refine State.isolateJet_keeps (List.Subset.trans (by decide) hm) ?_
    | with_reducible apply ite_keeps

theorem State.drawTest_keeps {m : List Region} {s0 s : State} (hm : [Region.draws] ⊆ m) (h : Keeps m s0 s) : ∀ x t, (State.drawTest s) = (x, t) → Keeps m s0 t := by
  intro x t he
  unfold State.drawTest at he
  try dsimp only at he
  repeat' first
    | (cases he; done)
    | split at he
    | contradiction
    | cases he
    | intro _
    | with_reducible assumption
    | (refine State.draw_keeps (List.Subset.trans (by decide) hm) ?_ _ _ (by with_reducible assumption))
    | (with_reducible refine State.draw_keeps (List.Subset.trans (by decide) hm) ?_ _ _ rfl)

theorem State.withdraw_keeps {m : List Region} {s0 s : State} {a1} (hm : [Region.ep] ⊆ m) (h : Keeps m s0 s) : Keeps m s0 (State.withdraw s a1) := by
  unfold State.withdraw
  try dsimp only
  repeat' first
    | intro _
    | with_reducible assumption
    | with_reducible refine State.setStageSet_keeps (List.Subset.trans (by decide) hm) ?_
    | with_reducible apply ite_keeps
    | with_reducible apply foldl_keeps
    | (fail_if_no_progress (with_reducible refine mk_keeps ?_ ?_ ?_ ?_ ?_ ?_ ?_ ?_ ?_ ?_ ?_ ?_ ?_ ?_ ?_ ?_ ?_ ?_ ?_ ?_ ?_ ?_ ?_ ?_ ?_ ?_ ?_ ?_) <;> try first | (with_reducible exact Or.inl rfl) | (exact Or.inr (hm (by decide))))
    | split

theorem State.writePieces_keeps {m : List Region} {s0 s : State} {a1 a2} (hm : [Region.mem, Region.side, Region.badGrains, Region.twin] ⊆ m) (h : Keeps m s0 s) : Keeps m s0 (State.writePieces s a1 a2) := by
  induction a1 generalizing s a2 with
  | nil => exact h
  | cons p l ih => exact ih ((State.writeGrains_keeps (List.Subset.trans (by decide) hm)) h)

theorem State.endMirrorFrame_keeps {m : List Region} {s0 s : State} {a1 a2 a3} (hm : [Region.flt, Region.mem, Region.side, Region.badGrains, Region.sessions, Region.parts, Region.slc, Region.wt, Region.sec, Region.twin] ⊆ m) (h : Keeps m s0 s) : ∀ t x, (State.endMirrorFrame s a1 a2 a3) = (t, x) → Keeps m s0 t := by
  intro t x he
  unfold State.endMirrorFrame at he
  try dsimp only at he
  repeat' first
    | (cases he; done)
    | split at he
    | contradiction
    | cases he
    | intro _
    | with_reducible assumption
    | (with_reducible apply State.each_keeps)
    | with_reducible refine State.failCheck_keeps (List.Subset.trans (by decide) hm) ?_
    | with_reducible refine State.mapMsg_keeps (List.Subset.trans (by decide) hm) ?_
    | with_reducible refine State.sendMirror_keeps (List.Subset.trans (by decide) hm) ?_
    | with_reducible apply ite_keeps
    | with_reducible apply foldl_keeps
    | split

theorem State.paceClass_keeps {m : List Region} {s0 s : State} {a1 a2 a3 a4} (hm : [Region.flt, Region.wt] ⊆ m) (h : Keeps m s0 s) : Keeps m s0 (State.paceClass s a1 a2 a3 a4) := by
  unfold State.paceClass
  try dsimp only
  repeat' first
    | intro _
    | with_reducible assumption
    | with_reducible refine State.updPort_keeps (List.Subset.trans (by decide) hm) ?_
    | with_reducible refine State.emit_keeps (List.Subset.trans (by decide) hm) ?_
    | with_reducible refine State.countPort_keeps (List.Subset.trans (by decide) hm) ?_
    | with_reducible apply ite_keeps

theorem State.meterPort_keeps {m : List Region} {s0 s : State} {a1 a2 a3} (hm : [Region.wt] ⊆ m) (h : Keeps m s0 s) : Keeps m s0 (State.meterPort s a1 a2 a3) := by
  unfold State.meterPort
  try dsimp only
  repeat' first
    | intro _
    | with_reducible assumption
    | with_reducible refine State.updPort_keeps (List.Subset.trans (by decide) hm) ?_
    | with_reducible apply ite_keeps

theorem State.paceMirror_keeps {m : List Region} {s0 s : State} (hm : [Region.flt, Region.wt] ⊆ m) (h : Keeps m s0 s) : Keeps m s0 (State.paceMirror s) := by
  unfold State.paceMirror
  try dsimp only
  repeat' first
    | intro _
    | with_reducible assumption
    | (with_reducible apply State.each_keeps)
    | with_reducible refine State.paceClass_keeps (List.Subset.trans (by decide) hm) ?_

theorem State.startRebalance_keeps {m : List Region} {s0 s : State} {a1 a2} (hm : [Region.draws, Region.mem, Region.side, Region.allocCtr, Region.allocs, Region.sessions, Region.parts] ⊆ m) (h : Keeps m s0 s) : Keeps m s0 (State.startRebalance s a1 a2) := by
  unfold State.startRebalance
  try dsimp only
  repeat' first
    | intro _
    | with_reducible assumption
    | (refine State.pick_keeps (List.Subset.trans (by decide) hm) ?_ _ _ (by with_reducible assumption))
    | (with_reducible refine State.pick_keeps (List.Subset.trans (by decide) hm) ?_ _ _ rfl)
    | (refine State.allocRun_keeps (List.Subset.trans (by decide) hm) ?_ _ _ _ (by with_reducible assumption))
    | (with_reducible refine State.allocRun_keeps (List.Subset.trans (by decide) hm) ?_ _ _ _ rfl)
    | with_reducible refine State.putPage_keeps (List.Subset.trans (by decide) hm) ?_
    | with_reducible apply ite_keeps
    | with_reducible apply foldl_keeps
    | split

theorem State.scrubHeader_keeps {m : List Region} {s0 s : State} {a1 a2 a3 a4} (hm : [Region.flt, Region.mem, Region.side, Region.badGrains, Region.sessions, Region.parts, Region.slc, Region.wt, Region.sec, Region.twin] ⊆ m) (h : Keeps m s0 s) : Keeps m s0 (State.scrubHeader s a1 a2 a3 a4) := by
  unfold State.scrubHeader
  try dsimp only
  repeat' first
    | intro _
    | with_reducible assumption
    | with_reducible refine State.failGrain_keeps (List.Subset.trans (by decide) hm) ?_
    | with_reducible apply ite_keeps
    | with_reducible apply foldl_keeps
    | split

theorem State.loseSubBank_keeps {m : List Region} {s0 s : State} {a1 a2} (hm : [Region.flt, Region.spares, Region.sec] ⊆ m) (h : Keeps m s0 s) : Keeps m s0 (State.loseSubBank s a1 a2) := by
  unfold State.loseSubBank
  try dsimp only
  repeat' first
    | intro _
    | with_reducible assumption
    | with_reducible refine State.spareEvent_keeps (List.Subset.trans (by decide) hm) ?_
    | with_reducible refine State.fence_keeps (List.Subset.trans (by decide) hm) ?_
    | with_reducible apply ite_keeps
    | with_reducible apply foldl_keeps
    | (fail_if_no_progress (with_reducible refine mk_keeps ?_ ?_ ?_ ?_ ?_ ?_ ?_ ?_ ?_ ?_ ?_ ?_ ?_ ?_ ?_ ?_ ?_ ?_ ?_ ?_ ?_ ?_ ?_ ?_ ?_ ?_ ?_ ?_) <;> try first | (with_reducible exact Or.inl rfl) | (exact Or.inr (hm (by decide))))
    | split

theorem State.spareHeader_keeps {m : List Region} {s0 s : State} {a1 a2 a3} (hm : [Region.flt, Region.mem, Region.side, Region.badGrains, Region.sessions, Region.parts, Region.slc, Region.wt, Region.sec, Region.twin] ⊆ m) (h : Keeps m s0 s) : Keeps m s0 (State.spareHeader s a1 a2 a3) := by
  unfold State.spareHeader
  try dsimp only
  repeat' first
    | intro _
    | with_reducible assumption
    | with_reducible refine State.scrubHeader_keeps (List.Subset.trans (by decide) hm) ?_
    | with_reducible apply ite_keeps
    | with_reducible apply foldl_keeps
    | split

theorem State.askDelay_keeps {m : List Region} {s0 s : State} {a1} (hm : [Region.clk] ⊆ m) (h : Keeps m s0 s) : Keeps m s0 (State.askDelay s a1) := by
  unfold State.askDelay
  try dsimp only
  repeat' first
    | intro _
    | with_reducible assumption
    | with_reducible refine State.emit_keeps (List.Subset.trans (by decide) hm) ?_
    | with_reducible apply ite_keeps
    | with_reducible apply foldl_keeps
    | (fail_if_no_progress (with_reducible refine mk_keeps ?_ ?_ ?_ ?_ ?_ ?_ ?_ ?_ ?_ ?_ ?_ ?_ ?_ ?_ ?_ ?_ ?_ ?_ ?_ ?_ ?_ ?_ ?_ ?_ ?_ ?_ ?_ ?_) <;> try first | (with_reducible exact Or.inl rfl) | (exact Or.inr (hm (by decide))))

theorem State.syncDone_keeps {m : List Region} {s0 s : State} {a1} (hm : [Region.clk] ⊆ m) (h : Keeps m s0 s) : Keeps m s0 (State.syncDone s a1) := by
  unfold State.syncDone
  try dsimp only
  repeat' first
    | intro _
    | with_reducible assumption
    | with_reducible refine State.askDelay_keeps (List.Subset.trans (by decide) hm) ?_
    | with_reducible apply ite_keeps
    | with_reducible apply foldl_keeps
    | (fail_if_no_progress (with_reducible refine mk_keeps ?_ ?_ ?_ ?_ ?_ ?_ ?_ ?_ ?_ ?_ ?_ ?_ ?_ ?_ ?_ ?_ ?_ ?_ ?_ ?_ ?_ ?_ ?_ ?_ ?_ ?_ ?_ ?_) <;> try first | (with_reducible exact Or.inl rfl) | (exact Or.inr (hm (by decide))))

theorem State.masterMessage_keeps {m : List Region} {s0 s : State} {a1 a2} (hm : [Region.clk] ⊆ m) (h : Keeps m s0 s) : Keeps m s0 (State.masterMessage s a1 a2) := by
  unfold State.masterMessage
  try dsimp only
  repeat' first
    | intro _
    | with_reducible assumption
    | with_reducible refine State.syncDone_keeps (List.Subset.trans (by decide) hm) ?_
    | with_reducible apply ite_keeps
    | with_reducible apply foldl_keeps
    | (fail_if_no_progress (with_reducible refine mk_keeps ?_ ?_ ?_ ?_ ?_ ?_ ?_ ?_ ?_ ?_ ?_ ?_ ?_ ?_ ?_ ?_ ?_ ?_ ?_ ?_ ?_ ?_ ?_ ?_ ?_ ?_ ?_ ?_) <;> try first | (with_reducible exact Or.inl rfl) | (exact Or.inr (hm (by decide))))
    | split

end Sys2Proof.Machine
end

