-- ==== Sys2Proof/Laws/FrameAttend.lean ====
section
/-! SUPPORT. The frames of ATTENDs, jet instructions, merges, tiers of hot grains, hedges and the sluice.
One lemma per operation: the parts of the state outside its list stand as before. -/

namespace Sys2Proof.Machine

theorem State.addChunk_keeps {m : List Region} {s0 s : State} {a1 a2 a3 a4 a5 a6 a7} (hm : [Region.draws, Region.flt, Region.mem, Region.side, Region.allocCtr, Region.allocs, Region.sessions, Region.parts] ⊆ m) (h : Keeps m s0 s) : ∀ t, (State.addChunk s a1 a2 a3 a4 a5 a6 a7) = .ok t → Keeps m s0 (t) := by
  intro t he
  unfold State.addChunk at he
  dsimp only at he
  split at he
  · cases he
  · split at he
    · cases he
    · split at he
      · cases he
      · split at he
        · cases he
        · rename_i s1 hs1
          have h1 : Keeps m s0 s1 := by
            split at hs1
            · exact (State.openPage_keeps (List.Subset.trans (by decide) hm)) h _ hs1
            · cases hs1; exact h
          split at he
          · cases he; exact (State.sealWhole_keeps (List.Subset.trans (by decide) hm)) h1
          · split at he
            · cases he
            · rename_i s2 hs2
              have h2 := (State.addTokens_keeps (List.Subset.trans (by decide) hm)) h1 _ hs2
              split at he
              · split at he
                · cases he; exact (State.sealPage_keeps (List.Subset.trans (by decide) hm)) h2
                · cases he; exact h2
              · cases he; exact h2

theorem State.addAll_keeps {m : List Region} {s0 s : State} {a1 a2 a3 a4 a5 a6 a7 a8} (hm : [Region.draws, Region.flt, Region.mem, Region.side, Region.allocCtr, Region.allocs, Region.sessions, Region.parts] ⊆ m) (h : Keeps m s0 s) : ∀ t, (State.addAll s a1 a2 a3 a4 a5 a6 a7 a8) = .ok t → Keeps m s0 (t) := by
  induction a6 generalizing s a1 a2 a3 a4 a5 a7 a8 with
  | zero =>
    intro t he; unfold State.addAll at he; try dsimp only at he
    repeat' first
      | (cases he; done)
      | split at he
      | contradiction
      | cases he
      | with_reducible assumption
  | succ n ih =>
    intro t he; unfold State.addAll at he; try dsimp only at he
    repeat' first
      | (cases he; done)
      | split at he
      | contradiction
      | (refine ih ?_ _ he)
      | cases he
      | intro _
      | with_reducible assumption
      | (refine State.addChunk_keeps (List.Subset.trans (by decide) hm) ?_ _ (by with_reducible assumption))

theorem State.addBasePages_keeps {m : List Region} {s0 s : State} {a1 a2 a3 a4 a5 a6 a7 a8} (hm : [Region.draws, Region.flt, Region.mem, Region.side, Region.allocCtr, Region.allocs, Region.sessions, Region.parts] ⊆ m) (h : Keeps m s0 s) : ∀ t, (State.addBasePages s a1 a2 a3 a4 a5 a6 a7 a8) = .ok t → Keeps m s0 (t) := by
  induction a6 generalizing s a1 a2 a3 a4 a5 a7 a8 with
  | zero =>
    intro t he; unfold State.addBasePages at he; try dsimp only at he
    repeat' first
      | (cases he; done)
      | split at he
      | contradiction
      | cases he
      | with_reducible assumption
  | succ n ih =>
    intro t he; unfold State.addBasePages at he; try dsimp only at he
    repeat' first
      | (cases he; done)
      | split at he
      | contradiction
      | (refine ih ?_ _ he)
      | cases he
      | intro _
      | with_reducible assumption
      | (refine State.allocRun_keeps (List.Subset.trans (by decide) hm) ?_ _ _ _ (by with_reducible assumption))
      | (with_reducible refine State.allocRun_keeps (List.Subset.trans (by decide) hm) ?_ _ _ _ rfl)
      | with_reducible refine State.putPage_keeps (List.Subset.trans (by decide) hm) ?_
      | with_reducible refine State.sealPage_keeps (List.Subset.trans (by decide) hm) ?_

theorem State.unland_keeps {m : List Region} {s0 s : State} {a1} (hm : [Region.slc] ⊆ m) (h : Keeps m s0 s) : Keeps m s0 (State.unland s a1) := by
  unfold State.unland
  try dsimp only
  repeat' first
    | intro _
    | with_reducible assumption
    | with_reducible refine State.updQueue_keeps (List.Subset.trans (by decide) hm) ?_

theorem State.readMeta_keeps {m : List Region} {s0 s : State} {a1 a2 a3} (hm : [Region.flt, Region.mem, Region.side, Region.badGrains, Region.sessions, Region.parts, Region.slc, Region.wt, Region.sec, Region.twin] ⊆ m) (h : Keeps m s0 s) : Keeps m s0 (State.readMeta s a1 a2 a3) := by
  unfold State.readMeta
  try dsimp only
  repeat' first
    | (exact List.Subset.trans (by decide) hm)
    | intro _
    | with_reducible assumption
    | (with_reducible apply State.each_keeps)
    | with_reducible refine State.failGrain_keeps (List.Subset.trans (by decide) hm) ?_
    | with_reducible apply ite_keeps
    | with_reducible apply foldl_keeps
    | (fail_if_no_progress (with_reducible refine mk_keeps ?_ ?_ ?_ ?_ ?_ ?_ ?_ ?_ ?_ ?_ ?_ ?_ ?_ ?_ ?_ ?_ ?_ ?_ ?_ ?_ ?_ ?_ ?_ ?_ ?_ ?_ ?_ ?_) <;> try first | (with_reducible exact Or.inl rfl) | (exact Or.inr (hm (by decide))))
    | split

theorem State.noteSweep_keeps {m : List Region} {s0 s : State} {a1} (hm : [Region.mem, Region.side, Region.sessions, Region.parts] ⊆ m) (h : Keeps m s0 s) : Keeps m s0 (State.noteSweep s a1) := by
  unfold State.noteSweep
  try dsimp only
  repeat' first
    | intro _
    | with_reducible assumption
    | with_reducible refine State.putPage_keeps (List.Subset.trans (by decide) hm) ?_
    | with_reducible refine State.setSession_keeps (List.Subset.trans (by decide) hm) ?_
    | with_reducible apply ite_keeps
    | with_reducible apply foldl_keeps
    | (fail_if_no_progress (with_reducible refine mk_keeps ?_ ?_ ?_ ?_ ?_ ?_ ?_ ?_ ?_ ?_ ?_ ?_ ?_ ?_ ?_ ?_ ?_ ?_ ?_ ?_ ?_ ?_ ?_ ?_ ?_ ?_ ?_ ?_) <;> try first | (with_reducible exact Or.inl rfl) | (exact Or.inr (hm (by decide))))
    | split

theorem State.noteBaseReads_keeps {m : List Region} {s0 s : State} {a1 a2 a3 a4} (hm : [Region.mem, Region.side, Region.sessions, Region.parts] ⊆ m) (h : Keeps m s0 s) : Keeps m s0 (State.noteBaseReads s a1 a2 a3 a4) := by
  unfold State.noteBaseReads
  try dsimp only
  repeat' first
    | intro _
    | with_reducible assumption
    | (with_reducible apply State.each_keeps)
    | with_reducible refine State.noteSweep_keeps (List.Subset.trans (by decide) hm) ?_

theorem State.takeProv_keeps {m : List Region} {s0 s : State} {a1 a2 a3 a4 a5 a6 a7 a8} (hm : [Region.flt, Region.mem, Region.side, Region.badGrains, Region.sessions, Region.provs, Region.parts, Region.slc, Region.wt, Region.sec, Region.twin] ⊆ m) (h : Keeps m s0 s) : ∀ t x, (State.takeProv s a1 a2 a3 a4 a5 a6 a7 a8) = (t, x) → Keeps m s0 t := by
  intro t x he
  unfold State.takeProv at he
  try dsimp only at he
  repeat' first
    | (cases he; done)
    | split at he
    | contradiction
    | cases he
    | intro _
    | with_reducible assumption
    | with_reducible refine State.recoverBases_keeps (List.Subset.trans (by decide) hm) ?_
    | with_reducible refine State.failPage_keeps (List.Subset.trans (by decide) hm) ?_
    | with_reducible refine State.noteBaseReads_keeps (List.Subset.trans (by decide) hm) ?_
    | with_reducible refine State.addSat_keeps (List.Subset.trans (by decide) hm) ?_
    | with_reducible refine State.dropProvs_keeps (List.Subset.trans (by decide) hm) ?_
    | (refine State.takeSram_keeps (List.Subset.trans (by decide) hm) ?_ _ (by with_reducible assumption))
    | (with_reducible refine State.takeSram_keeps (List.Subset.trans (by decide) hm) ?_ _ rfl)
    | with_reducible refine State.updPart_keeps (List.Subset.trans (by decide) hm) ?_
    | with_reducible refine State.mirror_keeps (List.Subset.trans (by decide) hm) ?_
    | with_reducible apply ite_keeps
    | with_reducible apply foldl_keeps
    | (fail_if_no_progress (with_reducible refine mk_keeps ?_ ?_ ?_ ?_ ?_ ?_ ?_ ?_ ?_ ?_ ?_ ?_ ?_ ?_ ?_ ?_ ?_ ?_ ?_ ?_ ?_ ?_ ?_ ?_ ?_ ?_ ?_ ?_) <;> try first | (with_reducible exact Or.inl rfl) | (exact Or.inr (hm (by decide))))

theorem State.resolveEntry_keeps {m : List Region} {s0 s : State} {a1 a2 a3 a4 a5 a6 a7 a8 a9} (hm : [Region.flt, Region.mem, Region.side, Region.badGrains, Region.sessions, Region.provs, Region.parts, Region.slc, Region.wt, Region.sec, Region.twin] ⊆ m) (h : Keeps m s0 s) : ∀ t x, (State.resolveEntry s a1 a2 a3 a4 a5 a6 a7 a8 a9) = (t, x) → Keeps m s0 t := by
  intro t x he
  unfold State.resolveEntry at he
  try dsimp only at he
  repeat' first
    | (cases he; done)
    | split at he
    | contradiction
    | cases he
    | intro _
    | with_reducible assumption
    | (with_reducible apply State.each_keeps)
    | with_reducible refine State.readMeta_keeps (List.Subset.trans (by decide) hm) ?_
    | with_reducible refine State.fault_keeps (List.Subset.trans (by decide) hm) ?_
    | (refine State.takeProv_keeps (List.Subset.trans (by decide) hm) ?_ _ _ (by with_reducible assumption))
    | (with_reducible refine State.takeProv_keeps (List.Subset.trans (by decide) hm) ?_ _ _ rfl)
    | with_reducible refine State.noteSweep_keeps (List.Subset.trans (by decide) hm) ?_

theorem State.placeCmds_keeps {m : List Region} {s0 s : State} {a1 a2} (hm : [Region.slc, Region.jets] ⊆ m) (h : Keeps m s0 s) : Keeps m s0 (State.placeCmds s a1 a2) := by
  induction a2 generalizing s a1 with
  | zero => exact h
  | succ n ih =>
    unfold State.placeCmds
    try dsimp only
    repeat' first
      | intro _
      | (with_reducible apply ih)
      | with_reducible assumption
      | with_reducible refine State.setJet_keeps (List.Subset.trans (by decide) hm) ?_
      | with_reducible apply ite_keeps
      | with_reducible apply foldl_keeps
      | (fail_if_no_progress (with_reducible refine mk_keeps ?_ ?_ ?_ ?_ ?_ ?_ ?_ ?_ ?_ ?_ ?_ ?_ ?_ ?_ ?_ ?_ ?_ ?_ ?_ ?_ ?_ ?_ ?_ ?_ ?_ ?_ ?_ ?_) <;> try first | (with_reducible exact Or.inl rfl) | (exact Or.inr (hm (by decide))))
      | split

theorem State.releaseCmds_keeps {m : List Region} {s0 s : State} {a1} (hm : [Region.parts, Region.slc, Region.jets] ⊆ m) (h : Keeps m s0 s) : Keeps m s0 (State.releaseCmds s a1) := by
  unfold State.releaseCmds
  try dsimp only
  repeat' first
    | (exact List.Subset.trans (by decide) hm)
    | intro _
    | with_reducible assumption
    | (with_reducible apply State.each_keeps)
    | with_reducible refine State.addSat_keeps (List.Subset.trans (by decide) hm) ?_
    | with_reducible refine State.updEntry_keeps (List.Subset.trans (by decide) hm) ?_
    | with_reducible refine State.placeCmds_keeps (List.Subset.trans (by decide) hm) ?_
    | with_reducible apply ite_keeps
    | with_reducible apply foldl_keeps
    | (fail_if_no_progress (with_reducible refine mk_keeps ?_ ?_ ?_ ?_ ?_ ?_ ?_ ?_ ?_ ?_ ?_ ?_ ?_ ?_ ?_ ?_ ?_ ?_ ?_ ?_ ?_ ?_ ?_ ?_ ?_ ?_ ?_ ?_) <;> try first | (with_reducible exact Or.inl rfl) | (exact Or.inr (hm (by decide))))
    | split

theorem State.startAttend_keeps {m : List Region} {s0 s : State} {a1 a2 a3 a4 a5} (hm : [Region.clk, Region.flt, Region.mem, Region.side, Region.badGrains, Region.sessions, Region.provs, Region.parts, Region.slc, Region.wt, Region.jets, Region.sec, Region.twin] ⊆ m) (h : Keeps m s0 s) : Keeps m s0 (s.startAttend a1 a2 a3 a4 a5) := by
  unfold State.startAttend
  split
  · exact h
  · refine (State.releaseCmds_keeps (List.Subset.trans (by decide) hm)) (State.each_keeps (fun _ _ ht => (State.failEntry_keeps (List.Subset.trans (by decide) hm)) ht) (foldl_fst_keeps ?_ _ h))
    intro a e ha
    dsimp only
    split
    · exact ha
    · split
      · exact (State.updReq_keeps (List.Subset.trans (by decide) hm)) ((State.resolveEntry_keeps (List.Subset.trans (by decide) hm)) ha _ _ rfl)
      · exact (State.updReq_keeps (List.Subset.trans (by decide) hm)) ha

theorem State.updBase_keeps {m : List Region} {s0 s : State} {a1 a2 a3} (hm : [Region.parts] ⊆ m) (h : Keeps m s0 s) : Keeps m s0 (State.updBase s a1 a2 a3) := by
  unfold State.updBase
  try dsimp only
  repeat' first
    | intro _
    | with_reducible assumption
    | with_reducible refine State.updPart_keeps (List.Subset.trans (by decide) hm) ?_

theorem State.applyBase_keeps {m : List Region} {s0 s : State} {a1 a2 a3 a4} (hm : [Region.draws, Region.flt, Region.mem, Region.side, Region.allocCtr, Region.allocs, Region.sessions, Region.parts] ⊆ m) (h : Keeps m s0 s) :
    ∀ t x, s.applyBase a1 a2 a3 a4 = .ok (t, x) → Keeps m s0 t := by
  intro t x he
  unfold State.applyBase at he
  dsimp only at he
  split at he
  · cases he
  · obtain ⟨s1, h1, h2⟩ := bind_ok he
    have hs1 := foldlM_ok_keeps (fun _ _ _ hu hx => (State.addBasePages_keeps (List.Subset.trans (by decide) hm)) hu _ hx) _ h _ h1
    cases h2
    exact foldl_keeps (fun _ _ ht => (State.updPart_keeps (List.Subset.trans (by decide) hm)) ((State.addSat_keeps (List.Subset.trans (by decide) hm)) ((State.updBase_keeps (List.Subset.trans (by decide) hm)) ht))) _ hs1

theorem State.setCount_keeps {m : List Region} {s0 s : State} {a1 a2 a3 a4} (hm : [Region.mem, Region.side, Region.sessions] ⊆ m) (h : Keeps m s0 s) : Keeps m s0 (State.setCount s a1 a2 a3 a4) := by
  unfold State.setCount
  try dsimp only
  repeat' first
    | intro _
    | with_reducible assumption
    | with_reducible refine State.putHead_keeps (List.Subset.trans (by decide) hm) ?_
    | with_reducible apply ite_keeps
    | with_reducible apply foldl_keeps
    | (fail_if_no_progress (with_reducible refine mk_keeps ?_ ?_ ?_ ?_ ?_ ?_ ?_ ?_ ?_ ?_ ?_ ?_ ?_ ?_ ?_ ?_ ?_ ?_ ?_ ?_ ?_ ?_ ?_ ?_ ?_ ?_ ?_ ?_) <;> try first | (with_reducible exact Or.inl rfl) | (exact Or.inr (hm (by decide))))
    | split

theorem State.applyRecords_keeps {m : List Region} {s0 s : State} {a1 a2 a3 a4 a5} (hm : [Region.draws, Region.flt, Region.mem, Region.side, Region.allocCtr, Region.allocs, Region.sessions, Region.parts] ⊆ m) (h : Keeps m s0 s) : ∀ t x, (State.applyRecords s a1 a2 a3 a4 a5) = .ok (t, x) → Keeps m s0 (t) := by
  intro t x he
  unfold State.applyRecords at he
  obtain ⟨qs, -, he⟩ := bind_ok he
  dsimp only at he
  split at he
  · cases he
  · obtain ⟨s1, h1, h2⟩ := bind_ok he
    have hs1 := foldlM_ok_keeps (fun _ _ _ hu hx => (State.addAll_keeps (List.Subset.trans (by decide) hm)) hu _ hx) _ ((State.takeSram_keeps (List.Subset.trans (by decide) hm)) h _ (by assumption)) _ h1
    cases h2
    exact foldl_keeps (fun _ _ ht => (State.updPart_keeps (List.Subset.trans (by decide) hm)) ((State.addSat_keeps (List.Subset.trans (by decide) hm)) ((State.noteBaseReads_keeps (List.Subset.trans (by decide) hm)) ht))) _
      (foldl_keeps (fun _ _ ht => (State.setCount_keeps (List.Subset.trans (by decide) hm)) ht) _ hs1)

theorem State.applyCache_keeps {m : List Region} {s0 s : State} {a1 a2} (hm : [Region.draws, Region.flt, Region.mem, Region.side, Region.allocCtr, Region.allocs, Region.sessions, Region.parts] ⊆ m) (h : Keeps m s0 s) : ∀ t x, (State.applyCache s a1 a2) = .ok (t, x) → Keeps m s0 t := by
  intro t x he
  unfold State.applyCache at he
  try dsimp only at he
  repeat' first
    | split at he
    | contradiction
    | cases he
    | intro _
    | with_reducible assumption
    | (refine State.applyBase_keeps (List.Subset.trans (by decide) hm) ?_ _ _ (by with_reducible assumption))
    | (with_reducible refine State.applyBase_keeps (List.Subset.trans (by decide) hm) ?_ _ _ rfl)
    | (refine State.applyRecords_keeps (List.Subset.trans (by decide) hm) ?_ _ _ (by with_reducible assumption))

theorem State.refuseApply_keeps {m : List Region} {s0 s : State} {a1} (hm : [Region.flt, Region.mem, Region.side, Region.badGrains, Region.sessions, Region.parts, Region.slc, Region.wt, Region.sec, Region.twin] ⊆ m) (h : Keeps m s0 s) : ∀ t x, (State.refuseApply s a1) = (t, x) → Keeps m s0 t := by
  intro t x he
  unfold State.refuseApply at he
  try dsimp only at he
  repeat' first
    | (cases he; done)
    | split at he
    | contradiction
    | cases he
    | intro _
    | with_reducible assumption
    | with_reducible refine State.containPage_keeps (List.Subset.trans (by decide) hm) ?_
    | with_reducible refine State.partialRefused_keeps (List.Subset.trans (by decide) hm) ?_
    | with_reducible refine State.failPage_keeps (List.Subset.trans (by decide) hm) ?_

theorem State.doCache_keeps {m : List Region} {s0 s : State} {a1 a2 a3} (hm : [Region.draws, Region.flt, Region.mem, Region.side, Region.allocCtr, Region.allocs, Region.badGrains, Region.sessions, Region.parts, Region.slc, Region.wt, Region.sec, Region.mboxes, Region.twin] ⊆ m) (h : Keeps m s0 s) : Keeps m s0 (State.doCache s a1 a2 a3) := by
  unfold State.doCache
  try dsimp only
  repeat' first
    | intro _
    | with_reducible assumption
    | with_reducible refine State.finishReq_keeps (List.Subset.trans (by decide) hm) ?_
    | with_reducible refine State.recoverFor_keeps (List.Subset.trans (by decide) hm) ?_
    | (refine State.applyCache_keeps (List.Subset.trans (by decide) hm) ?_ _ _ (by with_reducible assumption))
    | (with_reducible refine State.applyCache_keeps (List.Subset.trans (by decide) hm) ?_ _ _ rfl)
    | with_reducible refine State.commitChange_keeps (List.Subset.trans (by decide) hm) ?_
    | with_reducible refine State.updReq_keeps (List.Subset.trans (by decide) hm) ?_
    | (refine State.refuseApply_keeps (List.Subset.trans (by decide) hm) ?_ _ _ (by with_reducible assumption))
    | (with_reducible refine State.refuseApply_keeps (List.Subset.trans (by decide) hm) ?_ _ _ rfl)
    | with_reducible apply ite_keeps
    | with_reducible apply foldl_keeps
    | split

theorem State.cancelReqs_keeps {m : List Region} {s0 s : State} {a1} (hm : [Region.clk, Region.flt, Region.provs, Region.slc, Region.wt, Region.jets, Region.twin] ⊆ m) (h : Keeps m s0 s) : ∀ x t, (State.cancelReqs s a1) = (x, t) → Keeps m s0 t := by
  intro x t he
  unfold State.cancelReqs at he
  try dsimp only at he
  repeat' first
    | (cases he; done)
    | split at he
    | contradiction
    | cases he
    | (exact List.Subset.trans (by decide) hm)
    | intro _
    | with_reducible assumption
    | (with_reducible apply State.each_keeps)
    | with_reducible refine State.endReq_keeps (List.Subset.trans (by decide) hm) ?_

theorem State.cancelHost_keeps {m : List Region} {s0 s : State} {a1} (hm : [Region.clk, Region.flt, Region.provs, Region.slc, Region.wt, Region.jets, Region.twin] ⊆ m) (h : Keeps m s0 s) : Keeps m s0 (State.cancelHost s a1) := by
  unfold State.cancelHost
  try dsimp only
  repeat' first
    | intro _
    | with_reducible assumption
    | (refine State.cancelReqs_keeps (List.Subset.trans (by decide) hm) ?_ _ _ (by with_reducible assumption))
    | (with_reducible refine State.cancelReqs_keeps (List.Subset.trans (by decide) hm) ?_ _ _ rfl)
    | with_reducible refine State.hostDone_keeps (List.Subset.trans (by decide) hm) ?_
    | with_reducible refine State.count_keeps (List.Subset.trans (by decide) hm) ?_
    | with_reducible apply ite_keeps
    | with_reducible apply foldl_keeps
    | split

theorem State.admitMsg_keeps {m : List Region} {s0 s : State} {a1 a2 a3 a4} (hm : [Region.draws, Region.clk, Region.flt, Region.mem, Region.side, Region.allocCtr, Region.allocs, Region.badGrains, Region.sessions, Region.provs, Region.parts, Region.slc, Region.wt, Region.jets, Region.sec, Region.mboxes, Region.twin] ⊆ m) (h : Keeps m s0 s) : Keeps m s0 (State.admitMsg s a1 a2 a3 a4) := by
  unfold State.admitMsg
  try dsimp only
  repeat' first
    | intro _
    | with_reducible assumption
    | with_reducible refine State.takeShare_keeps (List.Subset.trans (by decide) hm) ?_
    | with_reducible refine State.unland_keeps (List.Subset.trans (by decide) hm) ?_
    | with_reducible refine State.countPart_keeps (List.Subset.trans (by decide) hm) ?_
    | with_reducible refine State.cancelHost_keeps (List.Subset.trans (by decide) hm) ?_
    | with_reducible refine State.updQueue_keeps (List.Subset.trans (by decide) hm) ?_
    | with_reducible refine State.setReq_keeps (List.Subset.trans (by decide) hm) ?_
    | with_reducible refine State.startAttend_keeps (List.Subset.trans (by decide) hm) ?_
    | with_reducible refine State.pumpRead_keeps (List.Subset.trans (by decide) hm) ?_
    | with_reducible refine State.doCache_keeps (List.Subset.trans (by decide) hm) ?_
    | with_reducible apply ite_keeps
    | with_reducible apply foldl_keeps
    | (fail_if_no_progress (with_reducible refine mk_keeps ?_ ?_ ?_ ?_ ?_ ?_ ?_ ?_ ?_ ?_ ?_ ?_ ?_ ?_ ?_ ?_ ?_ ?_ ?_ ?_ ?_ ?_ ?_ ?_ ?_ ?_ ?_ ?_) <;> try first | (with_reducible exact Or.inl rfl) | (exact Or.inr (hm (by decide))))

theorem State.refuseLanded_keeps {m : List Region} {s0 s : State} {a1 a2} (hm : [Region.flt, Region.slc, Region.wt] ⊆ m) (h : Keeps m s0 s) : Keeps m s0 (State.refuseLanded s a1 a2) := by
  unfold State.refuseLanded
  try dsimp only
  repeat' first
    | intro _
    | with_reducible assumption
    | with_reducible refine State.refuseMsg_keeps (List.Subset.trans (by decide) hm) ?_
    | with_reducible refine State.unland_keeps (List.Subset.trans (by decide) hm) ?_
    | with_reducible refine State.countPart_keeps (List.Subset.trans (by decide) hm) ?_
    | with_reducible apply ite_keeps

theorem State.admitStep_keeps {m : List Region} {s0 s : State} {a1 a2} (hm : [Region.draws, Region.clk, Region.flt, Region.mem, Region.side, Region.allocCtr, Region.allocs, Region.badGrains, Region.sessions, Region.provs, Region.parts, Region.slc, Region.wt, Region.jets, Region.sec, Region.mboxes, Region.twin] ⊆ m) (h : Keeps m s0 s) : Keeps m s0 (State.admitStep s a1 a2) := by
  unfold State.admitStep
  try dsimp only
  repeat' first
    | intro _
    | with_reducible assumption
    | with_reducible refine State.refuseLanded_keeps (List.Subset.trans (by decide) hm) ?_
    | with_reducible refine State.forwardMsg_keeps (List.Subset.trans (by decide) hm) ?_
    | with_reducible refine State.unland_keeps (List.Subset.trans (by decide) hm) ?_
    | with_reducible refine State.admitMsg_keeps (List.Subset.trans (by decide) hm) ?_
    | with_reducible refine State.updQueue_keeps (List.Subset.trans (by decide) hm) ?_
    | (with_reducible apply getD_keeps)
    | with_reducible apply ite_keeps
    | with_reducible apply foldl_keeps
    | split

theorem State.applyCommit_keeps {m : List Region} {s0 s : State} {a1 a2 a3 a4} (hm : [Region.draws, Region.flt, Region.mem, Region.side, Region.allocCtr, Region.allocs, Region.sessions, Region.provs, Region.parts] ⊆ m) (h : Keeps m s0 s) :
    ∀ t x, s.applyCommit a1 a2 a3 a4 = .ok (t, x) → Keeps m s0 t := by
  intro t x he
  unfold State.applyCommit at he
  dsimp only at he
  split at he
  · cases he
  · obtain ⟨s1, h1, h2⟩ := bind_ok he
    have hs1 := foldlM_ok_keeps (fun _ _ _ hu hx => (State.addAll_keeps (List.Subset.trans (by decide) hm)) hu _ hx) _
      ((State.takeSram_keeps (List.Subset.trans (by decide) hm)) ((State.dropProvs_keeps (List.Subset.trans (by decide) hm)) h) _ (by assumption)) _ h1
    cases h2
    exact foldl_keeps (fun _ _ ht => (State.setCount_keeps (List.Subset.trans (by decide) hm)) ht) _ hs1

theorem State.cancelFabric_keeps {m : List Region} {s0 s : State} {a1 a2 a3} (hm : [Region.clk, Region.flt, Region.provs, Region.slc, Region.wt, Region.jets, Region.twin] ⊆ m) (h : Keeps m s0 s) : Keeps m s0 (State.cancelFabric s a1 a2 a3) := by
  unfold State.cancelFabric
  try dsimp only
  repeat' first
    | intro _
    | with_reducible assumption
    | (refine State.cancelReqs_keeps (List.Subset.trans (by decide) hm) ?_ _ _ (by with_reducible assumption))
    | (with_reducible refine State.cancelReqs_keeps (List.Subset.trans (by decide) hm) ?_ _ _ rfl)
    | with_reducible refine State.count_keeps (List.Subset.trans (by decide) hm) ?_
    | with_reducible apply ite_keeps

theorem State.loseEntry_keeps {m : List Region} {s0 s : State} {a1 a2} (hm : [Region.slc, Region.jets] ⊆ m) (h : Keeps m s0 s) : Keeps m s0 (State.loseEntry s a1 a2) := by
  unfold State.loseEntry
  try dsimp only
  repeat' first
    | intro _
    | with_reducible assumption
    | with_reducible refine State.stopEntry_keeps (List.Subset.trans (by decide) hm) ?_
    | with_reducible refine State.updEntry_keeps (List.Subset.trans (by decide) hm) ?_
    | with_reducible refine State.giveBack_keeps (List.Subset.trans (by decide) hm) ?_
    | with_reducible refine State.updReq_keeps (List.Subset.trans (by decide) hm) ?_
    | with_reducible refine State.completeAttend_keeps (List.Subset.trans (by decide) hm) ?_
    | with_reducible apply ite_keeps
    | with_reducible apply foldl_keeps
    | (fail_if_no_progress (with_reducible refine mk_keeps ?_ ?_ ?_ ?_ ?_ ?_ ?_ ?_ ?_ ?_ ?_ ?_ ?_ ?_ ?_ ?_ ?_ ?_ ?_ ?_ ?_ ?_ ?_ ?_ ?_ ?_ ?_ ?_) <;> try first | (with_reducible exact Or.inl rfl) | (exact Or.inr (hm (by decide))))
    | split

theorem State.claimReply_keeps {m : List Region} {s0 s : State} {a1} (hm : [Region.clk, Region.flt, Region.slc, Region.wt, Region.jets] ⊆ m) (h : Keeps m s0 s) : Keeps m s0 (State.claimReply s a1) := by
  unfold State.claimReply
  try dsimp only
  repeat' first
    | intro _
    | with_reducible assumption
    | with_reducible refine State.sendClaim_keeps (List.Subset.trans (by decide) hm) ?_
    | with_reducible refine State.handEntry_keeps (List.Subset.trans (by decide) hm) ?_
    | with_reducible refine State.loseEntry_keeps (List.Subset.trans (by decide) hm) ?_
    | with_reducible apply ite_keeps
    | with_reducible apply foldl_keeps
    | (fail_if_no_progress (with_reducible refine mk_keeps ?_ ?_ ?_ ?_ ?_ ?_ ?_ ?_ ?_ ?_ ?_ ?_ ?_ ?_ ?_ ?_ ?_ ?_ ?_ ?_ ?_ ?_ ?_ ?_ ?_ ?_ ?_ ?_) <;> try first | (with_reducible exact Or.inl rfl) | (exact Or.inr (hm (by decide))))
    | split

theorem State.confluenceParts_keeps {m : List Region} {s0 s : State} {a1 a2 a3 a4} (hm : [Region.flt, Region.mem, Region.side, Region.badGrains, Region.sessions, Region.parts, Region.slc, Region.wt, Region.sec, Region.twin] ⊆ m) (h : Keeps m s0 s) : ∀ t x, (State.confluenceParts s a1 a2 a3 a4) = (t, x) → Keeps m s0 (t) := by
  intro t x he
  unfold State.confluenceParts at he
  dsimp only at he
  split at he
  · cases he
    exact (State.reissuedParts_keeps (List.Subset.trans (by decide) hm)) ((State.addSat_keeps (List.Subset.trans (by decide) hm)) h) _ _ rfl
  · cases he
    exact State.each_keeps (fun _ _ ht => (State.failOwn_keeps (List.Subset.trans (by decide) hm)) ht) h

theorem State.omitDl_keeps {m : List Region} {s0 s : State} {a1 a2 a3} (hm : [Region.slc] ⊆ m) (h : Keeps m s0 s) : Keeps m s0 (State.omitDl s a1 a2 a3) := by
  unfold State.omitDl
  try dsimp only
  repeat' first
    | intro _
    | with_reducible assumption
    | with_reducible refine State.updEntry_keeps (List.Subset.trans (by decide) hm) ?_

theorem State.dropCmd_keeps {m : List Region} {s0 s : State} {a1 a2} (hm : [Region.slc] ⊆ m) (h : Keeps m s0 s) : Keeps m s0 (State.dropCmd s a1 a2) := by
  unfold State.dropCmd
  try dsimp only
  repeat' first
    | (exact List.Subset.trans (by decide) hm)
    | intro _
    | with_reducible assumption
    | (with_reducible apply State.each_keeps)
    | with_reducible refine State.updEntry_keeps (List.Subset.trans (by decide) hm) ?_
    | with_reducible apply ite_keeps
    | with_reducible apply foldl_keeps
    | (fail_if_no_progress (with_reducible refine mk_keeps ?_ ?_ ?_ ?_ ?_ ?_ ?_ ?_ ?_ ?_ ?_ ?_ ?_ ?_ ?_ ?_ ?_ ?_ ?_ ?_ ?_ ?_ ?_ ?_ ?_ ?_ ?_ ?_) <;> try first | (with_reducible exact Or.inl rfl) | (exact Or.inr (hm (by decide))))

theorem State.cutEntry_keeps {m : List Region} {s0 s : State} {a1 a2} (hm : [Region.clk, Region.flt, Region.provs, Region.slc, Region.wt, Region.jets, Region.twin] ⊆ m) (h : Keeps m s0 s) : Keeps m s0 (State.cutEntry s a1 a2) := by
  unfold State.cutEntry
  try dsimp only
  repeat' first
    | intro _
    | with_reducible assumption
    | with_reducible refine State.failEntry_keeps (List.Subset.trans (by decide) hm) ?_
    | with_reducible refine State.releaseHeld_keeps (List.Subset.trans (by decide) hm) ?_
    | with_reducible refine State.setClaim_keeps (List.Subset.trans (by decide) hm) ?_
    | with_reducible apply ite_keeps
    | with_reducible apply foldl_keeps
    | (fail_if_no_progress (with_reducible refine mk_keeps ?_ ?_ ?_ ?_ ?_ ?_ ?_ ?_ ?_ ?_ ?_ ?_ ?_ ?_ ?_ ?_ ?_ ?_ ?_ ?_ ?_ ?_ ?_ ?_ ?_ ?_ ?_ ?_) <;> try first | (with_reducible exact Or.inl rfl) | (exact Or.inr (hm (by decide))))
    | split

theorem State.cutCmd_keeps {m : List Region} {s0 s : State} {a1 a2} (hm : [Region.clk, Region.flt, Region.provs, Region.slc, Region.wt, Region.jets, Region.twin] ⊆ m) (h : Keeps m s0 s) : Keeps m s0 (State.cutCmd s a1 a2) := by
  unfold State.cutCmd
  try dsimp only
  repeat' first
    | (exact List.Subset.trans (by decide) hm)
    | intro _
    | with_reducible assumption
    | with_reducible refine State.updJet_keeps (List.Subset.trans (by decide) hm) ?_
    | (with_reducible apply State.each_keeps)
    | with_reducible refine State.omitDl_keeps (List.Subset.trans (by decide) hm) ?_
    | with_reducible refine State.dropCmd_keeps (List.Subset.trans (by decide) hm) ?_
    | with_reducible refine State.cutEntry_keeps (List.Subset.trans (by decide) hm) ?_
    | with_reducible apply ite_keeps
    | with_reducible apply foldl_keeps
    | (fail_if_no_progress (with_reducible refine mk_keeps ?_ ?_ ?_ ?_ ?_ ?_ ?_ ?_ ?_ ?_ ?_ ?_ ?_ ?_ ?_ ?_ ?_ ?_ ?_ ?_ ?_ ?_ ?_ ?_ ?_ ?_ ?_ ?_) <;> try first | (with_reducible exact Or.inl rfl) | (exact Or.inr (hm (by decide))))
    | split

theorem State.dbIgnored_keeps {m : List Region} {s0 s : State} {a1 a2} (hm : [Region.flt] ⊆ m) (h : Keeps m s0 s) : Keeps m s0 (State.dbIgnored s a1 a2) := by
  unfold State.dbIgnored
  try dsimp only
  repeat' first
    | intro _
    | with_reducible assumption
    | with_reducible refine State.countPart_keeps (List.Subset.trans (by decide) hm) ?_
    | with_reducible apply ite_keeps
    | with_reducible apply foldl_keeps
    | (fail_if_no_progress (with_reducible refine mk_keeps ?_ ?_ ?_ ?_ ?_ ?_ ?_ ?_ ?_ ?_ ?_ ?_ ?_ ?_ ?_ ?_ ?_ ?_ ?_ ?_ ?_ ?_ ?_ ?_ ?_ ?_ ?_ ?_) <;> try first | (with_reducible exact Or.inl rfl) | (exact Or.inr (hm (by decide))))
    | split

theorem State.declined_keeps {m : List Region} {s0 s : State} {a1 a2} (hm : [Region.clk, Region.flt, Region.slc, Region.wt, Region.twin] ⊆ m) (h : Keeps m s0 s) : Keeps m s0 (State.declined s a1 a2) := by
  unfold State.declined
  try dsimp only
  repeat' first
    | intro _
    | with_reducible assumption
    | with_reducible refine State.count_keeps (List.Subset.trans (by decide) hm) ?_
    | with_reducible refine State.releaseHeld_keeps (List.Subset.trans (by decide) hm) ?_
    | with_reducible refine State.setClaim_keeps (List.Subset.trans (by decide) hm) ?_
    | with_reducible apply ite_keeps

theorem State.errPage_keeps {m : List Region} {s0 s : State} {a1 a2 a3 a4} (hm : [Region.clk, Region.flt, Region.provs, Region.slc, Region.wt, Region.jets, Region.twin] ⊆ m) (h : Keeps m s0 s) : Keeps m s0 (State.errPage s a1 a2 a3 a4) := by
  unfold State.errPage
  try dsimp only
  repeat' first
    | intro _
    | with_reducible assumption
    | with_reducible refine State.updEntry_keeps (List.Subset.trans (by decide) hm) ?_
    | with_reducible refine State.failEntry_keeps (List.Subset.trans (by decide) hm) ?_
    | with_reducible apply ite_keeps
    | with_reducible apply foldl_keeps
    | (fail_if_no_progress (with_reducible refine mk_keeps ?_ ?_ ?_ ?_ ?_ ?_ ?_ ?_ ?_ ?_ ?_ ?_ ?_ ?_ ?_ ?_ ?_ ?_ ?_ ?_ ?_ ?_ ?_ ?_ ?_ ?_ ?_ ?_) <;> try first | (with_reducible exact Or.inl rfl) | (exact Or.inr (hm (by decide))))
    | split

theorem State.reissuePage_keeps {m : List Region} {s0 s : State} {a1 a2 a3 a4 a5 a6} (hm : [Region.clk, Region.flt, Region.provs, Region.slc, Region.wt, Region.jets, Region.twin] ⊆ m) (h : Keeps m s0 s) : Keeps m s0 (State.reissuePage s a1 a2 a3 a4 a5 a6) := by
  unfold State.reissuePage
  try dsimp only
  repeat' first
    | intro _
    | with_reducible assumption
    | with_reducible refine State.errPage_keeps (List.Subset.trans (by decide) hm) ?_
    | with_reducible refine State.countPart_keeps (List.Subset.trans (by decide) hm) ?_
    | with_reducible refine State.updEntry_keeps (List.Subset.trans (by decide) hm) ?_
    | with_reducible apply ite_keeps
    | with_reducible apply foldl_keeps
    | split

theorem State.reissueCmd_keeps {m : List Region} {s0 s : State} {a1 a2} (hm : [Region.clk, Region.flt, Region.provs, Region.slc, Region.wt, Region.jets, Region.twin] ⊆ m) (h : Keeps m s0 s) : Keeps m s0 (State.reissueCmd s a1 a2) := by
  unfold State.reissueCmd
  try dsimp only
  repeat' first
    | intro _
    | with_reducible assumption
    | (with_reducible apply State.each_keeps)
    | with_reducible refine State.reissuePage_keeps (List.Subset.trans (by decide) hm) ?_
    | with_reducible apply ite_keeps
    | with_reducible apply foldl_keeps
    | split

theorem State.divert_keeps {m : List Region} {s0 s : State} {a1} (hm : [Region.clk, Region.flt, Region.provs, Region.slc, Region.wt, Region.jets, Region.twin] ⊆ m) (h : Keeps m s0 s) : Keeps m s0 (State.divert s a1) := by
  unfold State.divert
  try dsimp only
  repeat' first
    | intro _
    | with_reducible assumption
    | (with_reducible apply State.each_keeps)
    | with_reducible refine State.dropCmd_keeps (List.Subset.trans (by decide) hm) ?_
    | with_reducible refine State.reissueCmd_keeps (List.Subset.trans (by decide) hm) ?_
    | (with_reducible apply getD_keeps)
    | with_reducible apply ite_keeps
    | with_reducible apply foldl_keeps
    | (fail_if_no_progress (with_reducible refine mk_keeps ?_ ?_ ?_ ?_ ?_ ?_ ?_ ?_ ?_ ?_ ?_ ?_ ?_ ?_ ?_ ?_ ?_ ?_ ?_ ?_ ?_ ?_ ?_ ?_ ?_ ?_ ?_ ?_) <;> try first | (with_reducible exact Or.inl rfl) | (exact Or.inr (hm (by decide))))
    | split

theorem State.takeHedge_keeps {m : List Region} {s0 s : State} {a1 a2} (hm : [Region.clk, Region.flt, Region.mem, Region.side, Region.badGrains, Region.sessions, Region.provs, Region.parts, Region.slc, Region.wt, Region.jets, Region.sec, Region.twin] ⊆ m) (h : Keeps m s0 s) : Keeps m s0 (State.takeHedge s a1 a2) := by
  unfold State.takeHedge
  try dsimp only
  repeat' first
    | intro _
    | with_reducible assumption
    | with_reducible refine State.takeShare_keeps (List.Subset.trans (by decide) hm) ?_
    | with_reducible refine State.startAttend_keeps (List.Subset.trans (by decide) hm) ?_
    | with_reducible refine State.setReq_keeps (List.Subset.trans (by decide) hm) ?_
    | with_reducible refine State.sendClaim_keeps (List.Subset.trans (by decide) hm) ?_
    | with_reducible apply ite_keeps
    | with_reducible apply foldl_keeps
    | (fail_if_no_progress (with_reducible refine mk_keeps ?_ ?_ ?_ ?_ ?_ ?_ ?_ ?_ ?_ ?_ ?_ ?_ ?_ ?_ ?_ ?_ ?_ ?_ ?_ ?_ ?_ ?_ ?_ ?_ ?_ ?_ ?_ ?_) <;> try first | (with_reducible exact Or.inl rfl) | (exact Or.inr (hm (by decide))))

theorem State.originClaim_keeps {m : List Region} {s0 s : State} {a1} (hm : [Region.clk, Region.flt, Region.slc, Region.wt, Region.jets, Region.twin] ⊆ m) (h : Keeps m s0 s) : Keeps m s0 (State.originClaim s a1) := by
  unfold State.originClaim
  try dsimp only
  repeat' first
    | (exact List.Subset.trans (by decide) hm)
    | intro _
    | with_reducible assumption
    | (with_reducible apply State.each_keeps)
    | with_reducible refine State.declined_keeps (List.Subset.trans (by decide) hm) ?_
    | with_reducible refine State.setClaim_keeps (List.Subset.trans (by decide) hm) ?_
    | with_reducible refine State.loseEntry_keeps (List.Subset.trans (by decide) hm) ?_
    | with_reducible refine State.sendClaim_keeps (List.Subset.trans (by decide) hm) ?_
    | with_reducible apply ite_keeps

theorem State.takeClaim_keeps {m : List Region} {s0 s : State} {a1} (hm : [Region.clk, Region.flt, Region.slc, Region.wt, Region.jets, Region.twin] ⊆ m) (h : Keeps m s0 s) : Keeps m s0 (State.takeClaim s a1) := by
  unfold State.takeClaim
  try dsimp only
  repeat' first
    | intro _
    | with_reducible assumption
    | with_reducible refine State.claimReply_keeps (List.Subset.trans (by decide) hm) ?_
    | with_reducible refine State.originClaim_keeps (List.Subset.trans (by decide) hm) ?_
    | with_reducible apply ite_keeps

theorem State.formResp_keeps {m : List Region} {s0 s : State} {a1 a2 a3 a4} (hm : [Region.parts] ⊆ m) (h : Keeps m s0 s) : ∀ t x, (State.formResp s a1 a2 a3 a4) = (t, x) → Keeps m s0 t := by
  intro t x he
  unfold State.formResp at he
  try dsimp only at he
  repeat' first
    | (cases he; done)
    | split at he
    | contradiction
    | cases he
    | intro _
    | with_reducible assumption
    | with_reducible refine State.addSat_keeps (List.Subset.trans (by decide) hm) ?_
    | with_reducible refine State.updPart_keeps (List.Subset.trans (by decide) hm) ?_

theorem State.jetFormat_keeps {m : List Region} {s0 s : State} {a1 a2} (hm : [Region.jets] ⊆ m) (h : Keeps m s0 s) : Keeps m s0 (State.jetFormat s a1 a2) := by
  unfold State.jetFormat
  try dsimp only
  repeat' first
    | intro _
    | with_reducible assumption
    | with_reducible refine State.endJet_keeps (List.Subset.trans (by decide) hm) ?_

theorem State.jetGoto_keeps {m : List Region} {s0 s : State} {a1 a2 a3} (hm : [Region.jets] ⊆ m) (h : Keeps m s0 s) : Keeps m s0 (State.jetGoto s a1 a2 a3) := by
  unfold State.jetGoto
  try dsimp only
  repeat' first
    | intro _
    | with_reducible assumption
    | with_reducible refine State.setJet_keeps (List.Subset.trans (by decide) hm) ?_
    | with_reducible refine State.endJet_keeps (List.Subset.trans (by decide) hm) ?_
    | with_reducible apply ite_keeps

theorem State.jetOp_keeps {m : List Region} {s0 s : State} {a1 a2} (hm : [Region.jets] ⊆ m) (h : Keeps m s0 s) : Keeps m s0 (State.jetOp s a1 a2) := by
  unfold State.jetOp
  try dsimp only
  repeat' first
    | (exact List.Subset.trans (by decide) hm)
    | intro _
    | with_reducible assumption
    | (with_reducible apply State.jetRun_keeps)
    | with_reducible refine State.setJet_keeps (List.Subset.trans (by decide) hm) ?_

theorem State.jetTest_keeps {m : List Region} {s0 s : State} {j : Nat} {l : List Nat} {f : Jet → Nat → State} (hm : [Region.jets] ⊆ m)
    (hf : ∀ x n, Keeps m s0 (f x n)) (h : Keeps m s0 s) : Keeps m s0 (s.jetTest j l f) :=
  State.jetRun_keeps (fun x n => ite_keeps (State.endJet_keeps (List.Subset.trans (by decide) hm) h) (hf x n)) h

theorem State.libDone_keeps {m : List Region} {s0 s : State} {a1} (hm : [Region.ep, Region.slc, Region.jets] ⊆ m) (h : Keeps m s0 s) : Keeps m s0 (State.libDone s a1) := by
  unfold State.libDone
  try dsimp only
  repeat' first
    | intro _
    | with_reducible assumption
    | (with_reducible apply State.each_keeps)
    | with_reducible refine State.placeCmds_keeps (List.Subset.trans (by decide) hm) ?_
    | with_reducible apply ite_keeps
    | with_reducible apply foldl_keeps
    | (fail_if_no_progress (with_reducible refine mk_keeps ?_ ?_ ?_ ?_ ?_ ?_ ?_ ?_ ?_ ?_ ?_ ?_ ?_ ?_ ?_ ?_ ?_ ?_ ?_ ?_ ?_ ?_ ?_ ?_ ?_ ?_ ?_ ?_) <;> try first | (with_reducible exact Or.inl rfl) | (exact Or.inr (hm (by decide))))
    | split

theorem State.stampedAt_keeps {m : List Region} {s0 s : State} {n : Nat} {f : State → State} (hm : [Region.clk] ⊆ m)
    (hf : ∀ u : State, Keeps m s0 u → Keeps m s0 (f u)) (h : Keeps m s0 s) : Keeps m s0 (s.stampedAt n f) := by
  unfold State.stampedAt
  have h1 : Keeps m s0 { s with clk := { s.clk with ftime := n } } := by
    fail_if_no_progress (with_reducible refine mk_keeps ?_ ?_ ?_ ?_ ?_ ?_ ?_ ?_ ?_ ?_ ?_ ?_ ?_ ?_ ?_ ?_ ?_ ?_ ?_ ?_ ?_ ?_ ?_ ?_ ?_ ?_ ?_ ?_) <;> try first | (with_reducible exact Or.inl rfl) | (exact Or.inr (hm (by decide)))
    exact h
  have h2 := hf _ h1
  dsimp only
  revert h2
  generalize f { s with clk := { s.clk with ftime := n } } = t
  intro h2
  fail_if_no_progress (with_reducible refine mk_keeps ?_ ?_ ?_ ?_ ?_ ?_ ?_ ?_ ?_ ?_ ?_ ?_ ?_ ?_ ?_ ?_ ?_ ?_ ?_ ?_ ?_ ?_ ?_ ?_ ?_ ?_ ?_ ?_) <;> try first | (with_reducible exact Or.inl rfl) | (exact Or.inr (hm (by decide)))
  exact h2

theorem State.startRead_keeps {m : List Region} {s0 s : State} {a1 a2 a3} (hm : [Region.jets] ⊆ m) (h : Keeps m s0 s) : Keeps m s0 (State.startRead s a1 a2 a3) := by
  unfold State.startRead
  try dsimp only
  repeat' first
    | intro _
    | with_reducible assumption
    | with_reducible refine State.setJet_keeps (List.Subset.trans (by decide) hm) ?_
    | with_reducible apply ite_keeps

theorem State.takePart_keeps {m : List Region} {s0 s : State} {a1 a2 a3 a4 a5 a6} (hm : [Region.clk, Region.flt, Region.provs, Region.parts, Region.slc, Region.wt, Region.jets, Region.twin] ⊆ m) (h : Keeps m s0 s) : Keeps m s0 (State.takePart s a1 a2 a3 a4 a5 a6) := by
  unfold State.takePart
  try dsimp only
  repeat' first
    | intro _
    | with_reducible assumption
    | (with_reducible apply State.each_keeps)
    | with_reducible refine State.omitDl_keeps (List.Subset.trans (by decide) hm) ?_
    | with_reducible refine State.errPage_keeps (List.Subset.trans (by decide) hm) ?_
    | with_reducible refine State.updEntry_keeps (List.Subset.trans (by decide) hm) ?_
    | with_reducible refine State.addSat_keeps (List.Subset.trans (by decide) hm) ?_
    | with_reducible apply ite_keeps
    | with_reducible apply foldl_keeps
    | split

theorem doAdmissionStep_keeps {m : List Region} {s0 s : State} {a1 a2} (hm : [Region.draws, Region.clk, Region.flt, Region.mem, Region.side, Region.allocCtr, Region.allocs, Region.badGrains, Region.sessions, Region.provs, Region.parts, Region.slc, Region.wt, Region.jets, Region.sec, Region.mboxes, Region.twin] ⊆ m) (h : Keeps m s0 s) : Keeps m s0 (doAdmissionStep a1 a2 s) := by
  unfold doAdmissionStep
  try dsimp only
  repeat' first
    | (exact List.Subset.trans (by decide) hm)
    | intro _
    | with_reducible assumption
    | with_reducible refine State.admitStep_keeps (List.Subset.trans (by decide) hm) ?_
    | with_reducible apply ite_keeps
    | with_reducible apply foldl_keeps
    | (fail_if_no_progress (with_reducible refine mk_keeps ?_ ?_ ?_ ?_ ?_ ?_ ?_ ?_ ?_ ?_ ?_ ?_ ?_ ?_ ?_ ?_ ?_ ?_ ?_ ?_ ?_ ?_ ?_ ?_ ?_ ?_ ?_ ?_) <;> try first | (with_reducible exact Or.inl rfl) | (exact Or.inr (hm (by decide))))
    | split

theorem doAdmitWaitExpiry_keeps {m : List Region} {s0 s : State} {a1} (hm : [Region.flt, Region.slc, Region.wt] ⊆ m) (h : Keeps m s0 s) : Keeps m s0 (doAdmitWaitExpiry a1 s) := by
  unfold doAdmitWaitExpiry
  try dsimp only
  repeat' first
    | (exact List.Subset.trans (by decide) hm)
    | intro _
    | with_reducible assumption
    | with_reducible refine State.refuseLanded_keeps (List.Subset.trans (by decide) hm) ?_
    | with_reducible apply ite_keeps
    | with_reducible apply foldl_keeps
    | (fail_if_no_progress (with_reducible refine mk_keeps ?_ ?_ ?_ ?_ ?_ ?_ ?_ ?_ ?_ ?_ ?_ ?_ ?_ ?_ ?_ ?_ ?_ ?_ ?_ ?_ ?_ ?_ ?_ ?_ ?_ ?_ ?_ ?_) <;> try first | (with_reducible exact Or.inl rfl) | (exact Or.inr (hm (by decide))))
    | split

theorem doAppendDeadline_keeps {m : List Region} {s0 s : State} {a1} (hm : [Region.flt, Region.slc, Region.wt, Region.twin] ⊆ m) (h : Keeps m s0 s) : Keeps m s0 (doAppendDeadline a1 s) := by
  unfold doAppendDeadline
  try dsimp only
  repeat' first
    | (exact List.Subset.trans (by decide) hm)
    | intro _
    | with_reducible assumption
    | with_reducible refine State.finishReq_keeps (List.Subset.trans (by decide) hm) ?_
    | with_reducible apply ite_keeps
    | with_reducible apply foldl_keeps
    | (fail_if_no_progress (with_reducible refine mk_keeps ?_ ?_ ?_ ?_ ?_ ?_ ?_ ?_ ?_ ?_ ?_ ?_ ?_ ?_ ?_ ?_ ?_ ?_ ?_ ?_ ?_ ?_ ?_ ?_ ?_ ?_ ?_ ?_) <;> try first | (with_reducible exact Or.inl rfl) | (exact Or.inr (hm (by decide))))
    | split

theorem doArrt_keeps {m : List Region} {s0 s : State} {a1 a2 a3} (hm : [Region.jets] ⊆ m) (h : Keeps m s0 s) : Keeps m s0 (doArrt a1 a2 a3 s) := by
  unfold doArrt
  try dsimp only
  repeat' first
    | (exact List.Subset.trans (by decide) hm)
    | intro _
    | with_reducible assumption
    | (with_reducible apply State.jetTest_keeps)
    | with_reducible refine State.setJet_keeps (List.Subset.trans (by decide) hm) ?_
    | with_reducible refine State.endBist_keeps (List.Subset.trans (by decide) hm) ?_
    | with_reducible apply ite_keeps

theorem doCommitApply_keeps {m : List Region} {s0 s : State} {a1} (hm : [Region.draws, Region.flt, Region.mem, Region.side, Region.allocCtr, Region.allocs, Region.badGrains, Region.sessions, Region.provs, Region.parts, Region.slc, Region.wt, Region.sec, Region.mboxes, Region.twin] ⊆ m) (h : Keeps m s0 s) : Keeps m s0 (doCommitApply a1 s) := by
  unfold doCommitApply
  try dsimp only
  repeat' first
    | intro _
    | with_reducible assumption
    | with_reducible refine State.finishReq_keeps (List.Subset.trans (by decide) hm) ?_
    | with_reducible refine State.commitChange_keeps (List.Subset.trans (by decide) hm) ?_
    | with_reducible refine State.updReq_keeps (List.Subset.trans (by decide) hm) ?_
    | with_reducible refine State.dropProvs_keeps (List.Subset.trans (by decide) hm) ?_
    | (refine State.applyCommit_keeps (List.Subset.trans (by decide) hm) ?_ _ _ (by with_reducible assumption))
    | (with_reducible refine State.applyCommit_keeps (List.Subset.trans (by decide) hm) ?_ _ _ rfl)
    | (refine State.refuseApply_keeps (List.Subset.trans (by decide) hm) ?_ _ _ (by with_reducible assumption))
    | (with_reducible refine State.refuseApply_keeps (List.Subset.trans (by decide) hm) ?_ _ _ rfl)
    | with_reducible apply ite_keeps
    | with_reducible apply foldl_keeps
    | split

theorem doConfluenceDeadline_keeps {m : List Region} {s0 s : State} {a1 a2} (hm : [Region.clk, Region.flt, Region.provs, Region.slc, Region.wt, Region.jets, Region.twin] ⊆ m) (h : Keeps m s0 s) : Keeps m s0 (doConfluenceDeadline a1 a2 s) := by
  unfold doConfluenceDeadline
  try dsimp only
  repeat' first
    | (exact List.Subset.trans (by decide) hm)
    | intro _
    | with_reducible assumption
    | with_reducible refine State.failEntry_keeps (List.Subset.trans (by decide) hm) ?_
    | with_reducible apply ite_keeps
    | with_reducible apply foldl_keeps
    | (fail_if_no_progress (with_reducible refine mk_keeps ?_ ?_ ?_ ?_ ?_ ?_ ?_ ?_ ?_ ?_ ?_ ?_ ?_ ?_ ?_ ?_ ?_ ?_ ?_ ?_ ?_ ?_ ?_ ?_ ?_ ?_ ?_ ?_) <;> try first | (with_reducible exact Or.inl rfl) | (exact Or.inr (hm (by decide))))
    | split

theorem doCpyrow_keeps {m : List Region} {s0 s : State} {a1 a2 a3} (hm : [Region.flt, Region.spares, Region.mem, Region.side, Region.badGrains, Region.sessions, Region.parts, Region.slc, Region.wt, Region.jets, Region.sec, Region.twin] ⊆ m) (h : Keeps m s0 s) : Keeps m s0 (doCpyrow a1 a2 a3 s) := by
  unfold doCpyrow
  try dsimp only
  repeat' first
    | (exact List.Subset.trans (by decide) hm)
    | intro _
    | with_reducible assumption
    | (with_reducible apply State.jetTest_keeps)
    | (with_reducible apply State.each_keeps)
    | with_reducible refine State.jetFormat_keeps (List.Subset.trans (by decide) hm) ?_
    | with_reducible refine State.failGrain_keeps (List.Subset.trans (by decide) hm) ?_
    | with_reducible refine State.updJet_keeps (List.Subset.trans (by decide) hm) ?_
    | with_reducible apply ite_keeps
    | with_reducible apply foldl_keeps
    | (fail_if_no_progress (with_reducible refine mk_keeps ?_ ?_ ?_ ?_ ?_ ?_ ?_ ?_ ?_ ?_ ?_ ?_ ?_ ?_ ?_ ?_ ?_ ?_ ?_ ?_ ?_ ?_ ?_ ?_ ?_ ?_ ?_ ?_) <;> try first | (with_reducible exact Or.inl rfl) | (exact Or.inr (hm (by decide))))

theorem doCutTime_keeps {m : List Region} {s0 s : State} {a1 a2} (hm : [Region.clk, Region.flt, Region.provs, Region.slc, Region.wt, Region.jets, Region.twin] ⊆ m) (h : Keeps m s0 s) : Keeps m s0 (doCutTime a1 a2 s) := by
  unfold doCutTime
  try dsimp only
  repeat' first
    | (exact List.Subset.trans (by decide) hm)
    | intro _
    | with_reducible assumption
    | (with_reducible apply State.each_keeps)
    | with_reducible refine State.cutCmd_keeps (List.Subset.trans (by decide) hm) ?_
    | with_reducible apply ite_keeps

theorem doDoorbell_keeps {m : List Region} {s0 s : State} {a1 a2 a3} (hm : [Region.flt, Region.slc] ⊆ m) (h : Keeps m s0 s) : Keeps m s0 (doDoorbell a1 a2 a3 s) := by
  unfold doDoorbell
  try dsimp only
  repeat' first
    | (exact List.Subset.trans (by decide) hm)
    | intro _
    | with_reducible assumption
    | with_reducible refine State.dbIgnored_keeps (List.Subset.trans (by decide) hm) ?_
    | with_reducible refine State.updQueue_keeps (List.Subset.trans (by decide) hm) ?_
    | with_reducible apply ite_keeps

theorem doEmit_keeps {m : List Region} {s0 s : State} {a1 a2} (hm : [Region.draws, Region.flt, Region.jets] ⊆ m) (h : Keeps m s0 s) : Keeps m s0 (doEmit a1 a2 s) := by
  unfold doEmit
  try dsimp only
  repeat' first
    | intro _
    | with_reducible assumption
    | (with_reducible apply State.jetRun_keeps)
    | with_reducible refine State.setJet_keeps (List.Subset.trans (by decide) hm) ?_
    | with_reducible refine State.fault_keeps (List.Subset.trans (by decide) hm) ?_
    | with_reducible refine State.isolateJet_keeps (List.Subset.trans (by decide) hm) ?_
    | with_reducible refine State.endJet_keeps (List.Subset.trans (by decide) hm) ?_
    | with_reducible apply ite_keeps
    | with_reducible apply foldl_keeps
    | (fail_if_no_progress (with_reducible refine mk_keeps ?_ ?_ ?_ ?_ ?_ ?_ ?_ ?_ ?_ ?_ ?_ ?_ ?_ ?_ ?_ ?_ ?_ ?_ ?_ ?_ ?_ ?_ ?_ ?_ ?_ ?_ ?_ ?_) <;> try first | (with_reducible exact Or.inl rfl) | (exact Or.inr (hm (by decide))))

theorem State.errPages_keeps {m : List Region} {s0 s : State} {a1 a2 a3 a4} (hm : [Region.clk, Region.flt, Region.provs, Region.slc, Region.wt, Region.jets, Region.twin] ⊆ m) (h : Keeps m s0 s) : Keeps m s0 (State.errPages s a1 a2 a3 a4) := by
  unfold State.errPages
  try dsimp only
  repeat' first
    | intro _
    | with_reducible assumption
    | (with_reducible apply State.each_keeps)
    | with_reducible refine State.errPage_keeps (List.Subset.trans (by decide) hm) ?_
    | with_reducible refine State.failEntry_keeps (List.Subset.trans (by decide) hm) ?_
    | with_reducible apply ite_keeps

theorem State.mergeEntry_keeps {m : List Region} {s0 s : State} {a1 a2 a3 a4} (hm : [Region.draws, Region.clk, Region.flt, Region.mem, Region.side, Region.badGrains, Region.sessions, Region.provs, Region.parts, Region.slc, Region.wt, Region.jets, Region.sec, Region.twin] ⊆ m) (h : Keeps m s0 s) : Keeps m s0 (State.mergeEntry s a1 a2 a3 a4) := by
  unfold State.mergeEntry
  try dsimp only
  repeat' first
    | intro _
    | with_reducible assumption
    | (with_reducible apply State.each_keeps)
    | with_reducible refine State.failEntry_keeps (List.Subset.trans (by decide) hm) ?_
    | with_reducible refine State.recoverCopy_keeps (List.Subset.trans (by decide) hm) ?_
    | (refine State.confluenceParts_keeps (List.Subset.trans (by decide) hm) ?_ _ _ (by with_reducible assumption))
    | (with_reducible refine State.confluenceParts_keeps (List.Subset.trans (by decide) hm) ?_ _ _ rfl)
    | with_reducible refine State.fault_keeps (List.Subset.trans (by decide) hm) ?_
    | with_reducible refine State.errPages_keeps (List.Subset.trans (by decide) hm) ?_
    | (refine State.formResp_keeps (List.Subset.trans (by decide) hm) ?_ _ _ (by with_reducible assumption))
    | (with_reducible refine State.formResp_keeps (List.Subset.trans (by decide) hm) ?_ _ _ rfl)
    | with_reducible refine State.answerEntry_keeps (List.Subset.trans (by decide) hm) ?_
    | with_reducible apply ite_keeps
    | with_reducible apply foldl_keeps
    | (fail_if_no_progress (with_reducible refine mk_keeps ?_ ?_ ?_ ?_ ?_ ?_ ?_ ?_ ?_ ?_ ?_ ?_ ?_ ?_ ?_ ?_ ?_ ?_ ?_ ?_ ?_ ?_ ?_ ?_ ?_ ?_ ?_ ?_) <;> try first | (with_reducible exact Or.inl rfl) | (exact Or.inr (hm (by decide))))
    | split

theorem State.divertAll_keeps {m : List Region} {s0 s : State} (hm : [Region.clk, Region.flt, Region.provs, Region.slc, Region.wt, Region.jets, Region.twin] ⊆ m) (h : Keeps m s0 s) : Keeps m s0 (State.divertAll s) := by
  unfold State.divertAll
  try dsimp only
  repeat' first
    | intro _
    | with_reducible assumption
    | (with_reducible apply State.each_keeps)
    | with_reducible refine State.divert_keeps (List.Subset.trans (by decide) hm) ?_

theorem doEntryMerge_keeps {m : List Region} {s0 s : State} {a1 a2 a3 a4} (hm : [Region.draws, Region.clk, Region.flt, Region.mem, Region.side, Region.badGrains, Region.sessions, Region.provs, Region.parts, Region.slc, Region.wt, Region.jets, Region.sec, Region.twin] ⊆ m) (h : Keeps m s0 s) : Keeps m s0 (doEntryMerge a1 a2 a3 a4 s) := by
  unfold doEntryMerge
  try dsimp only
  repeat' first
    | intro _
    | with_reducible assumption
    | with_reducible refine State.mergeEntry_keeps (List.Subset.trans (by decide) hm) ?_
    | with_reducible refine State.divertAll_keeps (List.Subset.trans (by decide) hm) ?_
    | with_reducible apply ite_keeps

theorem doExps_keeps {m : List Region} {s0 s : State} {a1 a2} (hm : [Region.parts, Region.jets] ⊆ m) (h : Keeps m s0 s) : Keeps m s0 (doExps a1 a2 s) := by
  unfold doExps
  try dsimp only
  repeat' first
    | (exact List.Subset.trans (by decide) hm)
    | intro _
    | with_reducible assumption
    | (with_reducible apply State.jetRun_keeps)
    | with_reducible refine State.jetFormat_keeps (List.Subset.trans (by decide) hm) ?_
    | with_reducible refine State.endJet_keeps (List.Subset.trans (by decide) hm) ?_
    | with_reducible refine State.addSat_keeps (List.Subset.trans (by decide) hm) ?_
    | with_reducible refine State.setJet_keeps (List.Subset.trans (by decide) hm) ?_
    | with_reducible apply ite_keeps
    | with_reducible apply foldl_keeps
    | (fail_if_no_progress (with_reducible refine mk_keeps ?_ ?_ ?_ ?_ ?_ ?_ ?_ ?_ ?_ ?_ ?_ ?_ ?_ ?_ ?_ ?_ ?_ ?_ ?_ ?_ ?_ ?_ ?_ ?_ ?_ ?_ ?_ ?_) <;> try first | (with_reducible exact Or.inl rfl) | (exact Or.inr (hm (by decide))))
    | split

theorem doGete_keeps {m : List Region} {s0 s : State} {a1 a2 a3 a4} (hm : [Region.jets] ⊆ m) (h : Keeps m s0 s) : Keeps m s0 (doGete a1 a2 a3 a4 s) := by
  unfold doGete
  try dsimp only
  repeat' first
    | (exact List.Subset.trans (by decide) hm)
    | intro _
    | with_reducible assumption
    | (with_reducible apply State.jetRun_keeps)
    | with_reducible refine State.jetFormat_keeps (List.Subset.trans (by decide) hm) ?_
    | with_reducible refine State.setJet_keeps (List.Subset.trans (by decide) hm) ?_
    | with_reducible apply ite_keeps
    | with_reducible apply foldl_keeps
    | (fail_if_no_progress (with_reducible refine mk_keeps ?_ ?_ ?_ ?_ ?_ ?_ ?_ ?_ ?_ ?_ ?_ ?_ ?_ ?_ ?_ ?_ ?_ ?_ ?_ ?_ ?_ ?_ ?_ ?_ ?_ ?_ ?_ ?_) <;> try first | (with_reducible exact Or.inl rfl) | (exact Or.inr (hm (by decide))))
    | split

theorem doGets_keeps {m : List Region} {s0 s : State} {a1 a2 a3} (hm : [Region.jets] ⊆ m) (h : Keeps m s0 s) : Keeps m s0 (doGets a1 a2 a3 s) := by
  unfold doGets
  try dsimp only
  repeat' first
    | (exact List.Subset.trans (by decide) hm)
    | intro _
    | with_reducible assumption
    | (with_reducible apply State.jetRun_keeps)
    | with_reducible refine State.setJet_keeps (List.Subset.trans (by decide) hm) ?_
    | with_reducible refine State.jetFormat_keeps (List.Subset.trans (by decide) hm) ?_
    | with_reducible apply ite_keeps
    | with_reducible apply foldl_keeps
    | (fail_if_no_progress (with_reducible refine mk_keeps ?_ ?_ ?_ ?_ ?_ ?_ ?_ ?_ ?_ ?_ ?_ ?_ ?_ ?_ ?_ ?_ ?_ ?_ ?_ ?_ ?_ ?_ ?_ ?_ ?_ ?_ ?_ ?_) <;> try first | (with_reducible exact Or.inl rfl) | (exact Or.inr (hm (by decide))))
    | split

theorem doHedgeEvaluate_keeps {m : List Region} {s0 s : State} {a1} (hm : [Region.flt, Region.slc, Region.wt, Region.twin] ⊆ m) (h : Keeps m s0 s) : Keeps m s0 (doHedgeEvaluate a1 s) := by
  unfold doHedgeEvaluate
  try dsimp only
  repeat' first
    | (exact List.Subset.trans (by decide) hm)
    | intro _
    | with_reducible assumption
    | with_reducible refine State.count_keeps (List.Subset.trans (by decide) hm) ?_
    | with_reducible refine State.setReq_keeps (List.Subset.trans (by decide) hm) ?_
    | with_reducible refine State.sendMsg_keeps (List.Subset.trans (by decide) hm) ?_
    | with_reducible apply ite_keeps
    | with_reducible apply foldl_keeps
    | (fail_if_no_progress (with_reducible refine mk_keeps ?_ ?_ ?_ ?_ ?_ ?_ ?_ ?_ ?_ ?_ ?_ ?_ ?_ ?_ ?_ ?_ ?_ ?_ ?_ ?_ ?_ ?_ ?_ ?_ ?_ ?_ ?_ ?_) <;> try first | (with_reducible exact Or.inl rfl) | (exact Or.inr (hm (by decide))))
    | split

theorem doHostSubmissionRead_keeps {m : List Region} {s0 s : State} {a1 a2 a3} (hm : [Region.flt, Region.slc, Region.wt] ⊆ m) (h : Keeps m s0 s) : Keeps m s0 (doHostSubmissionRead a1 a2 a3 s) := by
  unfold doHostSubmissionRead
  try dsimp only
  repeat' first
    | intro _
    | with_reducible assumption
    | with_reducible refine State.updQueue_keeps (List.Subset.trans (by decide) hm) ?_
    | with_reducible refine State.refuseMsg_keeps (List.Subset.trans (by decide) hm) ?_
    | with_reducible apply ite_keeps
    | with_reducible apply foldl_keeps
    | (fail_if_no_progress (with_reducible refine mk_keeps ?_ ?_ ?_ ?_ ?_ ?_ ?_ ?_ ?_ ?_ ?_ ?_ ?_ ?_ ?_ ?_ ?_ ?_ ?_ ?_ ?_ ?_ ?_ ?_ ?_ ?_ ?_ ?_) <;> try first | (with_reducible exact Or.inl rfl) | (exact Or.inr (hm (by decide))))
    | split

theorem doSlotCollect_keeps {m : List Region} {s0 s : State} {a1 a2} (hm : [Region.clk, Region.flt, Region.provs, Region.parts, Region.slc, Region.wt, Region.jets, Region.twin] ⊆ m) (h : Keeps m s0 s) : Keeps m s0 (doSlotCollect a1 a2 s) := by
  unfold doSlotCollect
  try dsimp only
  repeat' first
    | intro _
    | with_reducible assumption
    | (with_reducible apply State.each_keeps)
    | with_reducible refine State.divert_keeps (List.Subset.trans (by decide) hm) ?_
    | with_reducible refine State.placeCmds_keeps (List.Subset.trans (by decide) hm) ?_
    | with_reducible refine State.updJet_keeps (List.Subset.trans (by decide) hm) ?_
    | with_reducible refine State.takePart_keeps (List.Subset.trans (by decide) hm) ?_
    | with_reducible refine State.reissueCmd_keeps (List.Subset.trans (by decide) hm) ?_
    | with_reducible refine State.errPage_keeps (List.Subset.trans (by decide) hm) ?_
    | with_reducible refine State.failEntry_keeps (List.Subset.trans (by decide) hm) ?_
    | with_reducible refine State.dropCmd_keeps (List.Subset.trans (by decide) hm) ?_
    | with_reducible apply ite_keeps
    | with_reducible apply foldl_keeps
    | split

theorem doMicroprogramWrite_keeps {m : List Region} {s0 s : State} {a1} (hm : [Region.ep, Region.slc, Region.jets] ⊆ m) (h : Keeps m s0 s) : Keeps m s0 (doMicroprogramWrite a1 s) := by
  unfold doMicroprogramWrite
  try dsimp only
  repeat' first
    | intro _
    | with_reducible assumption
    | with_reducible refine State.libDone_keeps (List.Subset.trans (by decide) hm) ?_
    | with_reducible refine State.updJet_keeps (List.Subset.trans (by decide) hm) ?_
    | with_reducible apply ite_keeps

theorem doPatr_keeps {m : List Region} {s0 s : State} {a1 a2 a3 a4} (hm : [Region.jets] ⊆ m) (h : Keeps m s0 s) : Keeps m s0 (doPatr a1 a2 a3 a4 s) := by
  unfold doPatr
  try dsimp only
  repeat' first
    | (exact List.Subset.trans (by decide) hm)
    | intro _
    | with_reducible assumption
    | (with_reducible apply State.jetTest_keeps)
    | with_reducible refine State.setJet_keeps (List.Subset.trans (by decide) hm) ?_
    | with_reducible refine State.endBist_keeps (List.Subset.trans (by decide) hm) ?_
    | with_reducible apply ite_keeps

theorem doPatw_keeps {m : List Region} {s0 s : State} {a1 a2 a3} (hm : [Region.mem, Region.side, Region.jets] ⊆ m) (h : Keeps m s0 s) : Keeps m s0 (doPatw a1 a2 a3 s) := by
  unfold doPatw
  try dsimp only
  repeat' first
    | (exact List.Subset.trans (by decide) hm)
    | intro _
    | with_reducible assumption
    | (with_reducible apply State.jetTest_keeps)
    | (with_reducible apply State.each_keeps)
    | with_reducible refine State.setJet_keeps (List.Subset.trans (by decide) hm) ?_
    | with_reducible refine State.updJet_keeps (List.Subset.trans (by decide) hm) ?_
    | with_reducible apply ite_keeps
    | with_reducible apply foldl_keeps
    | (fail_if_no_progress (with_reducible refine mk_keeps ?_ ?_ ?_ ?_ ?_ ?_ ?_ ?_ ?_ ?_ ?_ ?_ ?_ ?_ ?_ ?_ ?_ ?_ ?_ ?_ ?_ ?_ ?_ ?_ ?_ ?_ ?_ ?_) <;> try first | (with_reducible exact Or.inl rfl) | (exact Or.inr (hm (by decide))))

theorem doProvSetExpiry_keeps {m : List Region} {s0 s : State} {a1 a2} (hm : [Region.provs] ⊆ m) (h : Keeps m s0 s) : Keeps m s0 (doProvSetExpiry a1 a2 s) := by
  unfold doProvSetExpiry
  try dsimp only
  repeat' first
    | (exact List.Subset.trans (by decide) hm)
    | intro _
    | with_reducible assumption
    | with_reducible refine State.dropProvs_keeps (List.Subset.trans (by decide) hm) ?_
    | with_reducible apply ite_keeps

theorem doPv_keeps {m : List Region} {s0 s : State} {a1 a2} (hm : [Region.parts, Region.jets] ⊆ m) (h : Keeps m s0 s) : Keeps m s0 (doPv a1 a2 s) := by
  unfold doPv
  try dsimp only
  repeat' first
    | (exact List.Subset.trans (by decide) hm)
    | intro _
    | with_reducible assumption
    | (with_reducible apply State.jetRun_keeps)
    | with_reducible refine State.jetFormat_keeps (List.Subset.trans (by decide) hm) ?_
    | with_reducible refine State.endJet_keeps (List.Subset.trans (by decide) hm) ?_
    | with_reducible refine State.addSat_keeps (List.Subset.trans (by decide) hm) ?_
    | with_reducible refine State.setJet_keeps (List.Subset.trans (by decide) hm) ?_
    | with_reducible apply ite_keeps
    | with_reducible apply foldl_keeps
    | (fail_if_no_progress (with_reducible refine mk_keeps ?_ ?_ ?_ ?_ ?_ ?_ ?_ ?_ ?_ ?_ ?_ ?_ ?_ ?_ ?_ ?_ ?_ ?_ ?_ ?_ ?_ ?_ ?_ ?_ ?_ ?_ ?_ ?_) <;> try first | (with_reducible exact Or.inl rfl) | (exact Or.inr (hm (by decide))))
    | split

theorem doQk_keeps {m : List Region} {s0 s : State} {a1 a2} (hm : [Region.parts, Region.jets] ⊆ m) (h : Keeps m s0 s) : Keeps m s0 (doQk a1 a2 s) := by
  unfold doQk
  try dsimp only
  repeat' first
    | (exact List.Subset.trans (by decide) hm)
    | intro _
    | with_reducible assumption
    | (with_reducible apply State.jetRun_keeps)
    | with_reducible refine State.jetFormat_keeps (List.Subset.trans (by decide) hm) ?_
    | with_reducible refine State.endJet_keeps (List.Subset.trans (by decide) hm) ?_
    | with_reducible refine State.addSat_keeps (List.Subset.trans (by decide) hm) ?_
    | with_reducible refine State.setJet_keeps (List.Subset.trans (by decide) hm) ?_
    | with_reducible apply ite_keeps
    | with_reducible apply foldl_keeps
    | (fail_if_no_progress (with_reducible refine mk_keeps ?_ ?_ ?_ ?_ ?_ ?_ ?_ ?_ ?_ ?_ ?_ ?_ ?_ ?_ ?_ ?_ ?_ ?_ ?_ ?_ ?_ ?_ ?_ ?_ ?_ ?_ ?_ ?_) <;> try first | (with_reducible exact Or.inl rfl) | (exact Or.inr (hm (by decide))))
    | split

theorem doRead_keeps {m : List Region} {s0 s : State} {a1 a2 a3} (hm : [Region.jets] ⊆ m) (h : Keeps m s0 s) : Keeps m s0 (doRead a1 a2 a3 s) := by
  unfold doRead
  try dsimp only
  repeat' first
    | (exact List.Subset.trans (by decide) hm)
    | intro _
    | with_reducible assumption
    | (with_reducible apply State.jetRun_keeps)
    | with_reducible refine State.jetFormat_keeps (List.Subset.trans (by decide) hm) ?_
    | with_reducible refine State.setJet_keeps (List.Subset.trans (by decide) hm) ?_
    | with_reducible refine State.endJet_keeps (List.Subset.trans (by decide) hm) ?_
    | with_reducible refine State.startRead_keeps (List.Subset.trans (by decide) hm) ?_
    | with_reducible apply ite_keeps
    | with_reducible apply foldl_keeps
    | (fail_if_no_progress (with_reducible refine mk_keeps ?_ ?_ ?_ ?_ ?_ ?_ ?_ ?_ ?_ ?_ ?_ ?_ ?_ ?_ ?_ ?_ ?_ ?_ ?_ ?_ ?_ ?_ ?_ ?_ ?_ ?_ ?_ ?_) <;> try first | (with_reducible exact Or.inl rfl) | (exact Or.inr (hm (by decide))))
    | split

theorem doReadBase_keeps {m : List Region} {s0 s : State} {a1 a2 a3} (hm : [Region.jets] ⊆ m) (h : Keeps m s0 s) : Keeps m s0 (doReadBase a1 a2 a3 s) := by
  unfold doReadBase
  try dsimp only
  repeat' first
    | (exact List.Subset.trans (by decide) hm)
    | intro _
    | with_reducible assumption
    | (with_reducible apply State.jetRun_keeps)
    | with_reducible refine State.jetFormat_keeps (List.Subset.trans (by decide) hm) ?_
    | with_reducible refine State.endJet_keeps (List.Subset.trans (by decide) hm) ?_
    | with_reducible refine State.startRead_keeps (List.Subset.trans (by decide) hm) ?_
    | with_reducible apply ite_keeps
    | with_reducible apply foldl_keeps
    | (fail_if_no_progress (with_reducible refine mk_keeps ?_ ?_ ?_ ?_ ?_ ?_ ?_ ?_ ?_ ?_ ?_ ?_ ?_ ?_ ?_ ?_ ?_ ?_ ?_ ?_ ?_ ?_ ?_ ?_ ?_ ?_ ?_ ?_) <;> try first | (with_reducible exact Or.inl rfl) | (exact Or.inr (hm (by decide))))
    | split

theorem doReadDeadline_keeps {m : List Region} {s0 s : State} {a1} (hm : [Region.clk, Region.flt, Region.provs, Region.slc, Region.wt, Region.jets, Region.twin] ⊆ m) (h : Keeps m s0 s) : Keeps m s0 (doReadDeadline a1 s) := by
  unfold doReadDeadline
  try dsimp only
  repeat' first
    | (exact List.Subset.trans (by decide) hm)
    | intro _
    | with_reducible assumption
    | with_reducible refine State.endReq_keeps (List.Subset.trans (by decide) hm) ?_
    | with_reducible apply ite_keeps
    | with_reducible apply foldl_keeps
    | (fail_if_no_progress (with_reducible refine mk_keeps ?_ ?_ ?_ ?_ ?_ ?_ ?_ ?_ ?_ ?_ ?_ ?_ ?_ ?_ ?_ ?_ ?_ ?_ ?_ ?_ ?_ ?_ ?_ ?_ ?_ ?_ ?_ ?_) <;> try first | (with_reducible exact Or.inl rfl) | (exact Or.inr (hm (by decide))))
    | split

theorem doReservedOpcode_keeps {m : List Region} {s0 s : State} {a1 a2} (hm : [Region.jets] ⊆ m) (h : Keeps m s0 s) : Keeps m s0 (doReservedOpcode a1 a2 s) := by
  unfold doReservedOpcode
  try dsimp only
  repeat' first
    | (exact List.Subset.trans (by decide) hm)
    | intro _
    | with_reducible assumption
    | (with_reducible apply State.jetRun_keeps)
    | with_reducible refine State.endJet_keeps (List.Subset.trans (by decide) hm) ?_
    | with_reducible apply ite_keeps

theorem doStopb_keeps {m : List Region} {s0 s : State} {a1 a2} (hm : [Region.jets] ⊆ m) (h : Keeps m s0 s) : Keeps m s0 (doStopb a1 a2 s) := by
  unfold doStopb
  try dsimp only
  repeat' first
    | (exact List.Subset.trans (by decide) hm)
    | intro _
    | with_reducible assumption
    | (with_reducible apply State.jetRun_keeps)
    | with_reducible refine State.jetGoto_keeps (List.Subset.trans (by decide) hm) ?_
    | with_reducible refine State.setJet_keeps (List.Subset.trans (by decide) hm) ?_
    | with_reducible apply ite_keeps

theorem execHostDoorbell_keeps {m : List Region} {s0 s : State} {a1 a2 a3} (hm : [Region.flt, Region.slc] ⊆ m) (h : Keeps m s0 s) : OutKeeps m s0 (execHostDoorbell a1 a2 a3 s) := by
  unfold execHostDoorbell
  repeat' first
    | (with_reducible refine run_keeps (fun _ _ => ?_) ?_)
    | intro _
    | with_reducible assumption
    | with_reducible refine doDoorbell_keeps (List.Subset.trans (by decide) hm) ?_

theorem execCompletionDoorbell_keeps {m : List Region} {s0 s : State} {a1 a2 a3} (hm : [Region.flt, Region.slc] ⊆ m) (h : Keeps m s0 s) : OutKeeps m s0 (execCompletionDoorbell a1 a2 a3 s) := by
  unfold execCompletionDoorbell
  repeat' first
    | (with_reducible refine run_keeps (fun _ _ => ?_) ?_)
    | intro _
    | with_reducible assumption
    | with_reducible refine doDoorbell_keeps (List.Subset.trans (by decide) hm) ?_

theorem execHostSubmissionRead_keeps {m : List Region} {s0 s : State} {a1 a2 a3} (hm : [Region.flt, Region.slc, Region.wt] ⊆ m) (h : Keeps m s0 s) : OutKeeps m s0 (execHostSubmissionRead a1 a2 a3 s) := by
  unfold execHostSubmissionRead
  repeat' first
    | (with_reducible refine run_keeps (fun _ _ => ?_) ?_)
    | intro _
    | with_reducible assumption
    | with_reducible refine doHostSubmissionRead_keeps (List.Subset.trans (by decide) hm) ?_

theorem execMicroprogramWrite_keeps {m : List Region} {s0 s : State} {a1} (hm : [Region.ep, Region.slc, Region.jets] ⊆ m) (h : Keeps m s0 s) : OutKeeps m s0 (execMicroprogramWrite a1 s) := by
  unfold execMicroprogramWrite
  repeat' first
    | (with_reducible refine run_keeps (fun _ _ => ?_) ?_)
    | intro _
    | with_reducible assumption
    | with_reducible refine doMicroprogramWrite_keeps (List.Subset.trans (by decide) hm) ?_

theorem execNop_keeps {m : List Region} {s0 s : State} {a1} (hm : [Region.jets] ⊆ m) (h : Keeps m s0 s) : OutKeeps m s0 (execNop a1 s) := by
  unfold execNop
  repeat' first
    | (with_reducible refine run_keeps (fun _ _ => ?_) ?_)
    | intro _
    | with_reducible assumption
    | with_reducible refine State.jetOp_keeps (List.Subset.trans (by decide) hm) ?_

theorem execLi_keeps {m : List Region} {s0 s : State} {a1 a2 a3} (hm : [Region.jets] ⊆ m) (h : Keeps m s0 s) : OutKeeps m s0 (execLi a1 a2 a3 s) := by
  unfold execLi
  repeat' first
    | (with_reducible refine run_keeps (fun _ _ => ?_) ?_)
    | intro _
    | with_reducible assumption
    | with_reducible refine State.jetOp_keeps (List.Subset.trans (by decide) hm) ?_

theorem execAdd_keeps {m : List Region} {s0 s : State} {a1 a2 a3 a4} (hm : [Region.jets] ⊆ m) (h : Keeps m s0 s) : OutKeeps m s0 (execAdd a1 a2 a3 a4 s) := by
  unfold execAdd
  repeat' first
    | (with_reducible refine run_keeps (fun _ _ => ?_) ?_)
    | intro _
    | with_reducible assumption
    | with_reducible refine State.jetOp_keeps (List.Subset.trans (by decide) hm) ?_

theorem execGets_keeps {m : List Region} {s0 s : State} {a1 a2 a3} (hm : [Region.jets] ⊆ m) (h : Keeps m s0 s) : OutKeeps m s0 (execGets a1 a2 a3 s) := by
  unfold execGets
  repeat' first
    | (with_reducible refine run_keeps (fun _ _ => ?_) ?_)
    | intro _
    | with_reducible assumption
    | with_reducible refine doGets_keeps (List.Subset.trans (by decide) hm) ?_

theorem execGete_keeps {m : List Region} {s0 s : State} {a1 a2 a3 a4} (hm : [Region.jets] ⊆ m) (h : Keeps m s0 s) : OutKeeps m s0 (execGete a1 a2 a3 a4 s) := by
  unfold execGete
  repeat' first
    | (with_reducible refine run_keeps (fun _ _ => ?_) ?_)
    | intro _
    | with_reducible assumption
    | with_reducible refine doGete_keeps (List.Subset.trans (by decide) hm) ?_

theorem execBeq_keeps {m : List Region} {s0 s : State} {a1 a2 a3 a4} (hm : [Region.jets] ⊆ m) (h : Keeps m s0 s) : OutKeeps m s0 (execBeq a1 a2 a3 a4 s) := by
  unfold execBeq
  repeat' first
    | (with_reducible refine run_keeps (fun _ _ => ?_) ?_)
    | (exact List.Subset.trans (by decide) hm)
    | intro _
    | with_reducible assumption
    | (with_reducible apply State.jetRun_keeps)
    | with_reducible refine State.jetGoto_keeps (List.Subset.trans (by decide) hm) ?_
    | with_reducible refine State.setJet_keeps (List.Subset.trans (by decide) hm) ?_
    | with_reducible apply ite_keeps

theorem execBne_keeps {m : List Region} {s0 s : State} {a1 a2 a3 a4} (hm : [Region.jets] ⊆ m) (h : Keeps m s0 s) : OutKeeps m s0 (execBne a1 a2 a3 a4 s) := by
  unfold execBne
  repeat' first
    | (with_reducible refine run_keeps (fun _ _ => ?_) ?_)
    | (exact List.Subset.trans (by decide) hm)
    | intro _
    | with_reducible assumption
    | (with_reducible apply State.jetRun_keeps)
    | with_reducible refine State.setJet_keeps (List.Subset.trans (by decide) hm) ?_
    | with_reducible refine State.jetGoto_keeps (List.Subset.trans (by decide) hm) ?_
    | with_reducible apply ite_keeps

theorem execJmp_keeps {m : List Region} {s0 s : State} {a1 a2} (hm : [Region.jets] ⊆ m) (h : Keeps m s0 s) : OutKeeps m s0 (execJmp a1 a2 s) := by
  unfold execJmp
  repeat' first
    | (with_reducible refine run_keeps (fun _ _ => ?_) ?_)
    | (exact List.Subset.trans (by decide) hm)
    | intro _
    | with_reducible assumption
    | (with_reducible apply State.jetRun_keeps)
    | with_reducible refine State.jetGoto_keeps (List.Subset.trans (by decide) hm) ?_

theorem execStopb_keeps {m : List Region} {s0 s : State} {a1 a2} (hm : [Region.jets] ⊆ m) (h : Keeps m s0 s) : OutKeeps m s0 (execStopb a1 a2 s) := by
  unfold execStopb
  repeat' first
    | (with_reducible refine run_keeps (fun _ _ => ?_) ?_)
    | intro _
    | with_reducible assumption
    | with_reducible refine doStopb_keeps (List.Subset.trans (by decide) hm) ?_

theorem execEndSlot_keeps {m : List Region} {s0 s : State} {a1} (hm : [Region.jets] ⊆ m) (h : Keeps m s0 s) : OutKeeps m s0 (execEndSlot a1 s) := by
  unfold execEndSlot
  repeat' first
    | (with_reducible refine run_keeps (fun _ _ => ?_) ?_)
    | (exact List.Subset.trans (by decide) hm)
    | intro _
    | with_reducible assumption
    | (with_reducible apply State.jetRun_keeps)
    | with_reducible refine State.endJet_keeps (List.Subset.trans (by decide) hm) ?_

theorem execFailSlot_keeps {m : List Region} {s0 s : State} {a1} (hm : [Region.jets] ⊆ m) (h : Keeps m s0 s) : OutKeeps m s0 (execFailSlot a1 s) := by
  unfold execFailSlot
  repeat' first
    | (with_reducible refine run_keeps (fun _ _ => ?_) ?_)
    | (exact List.Subset.trans (by decide) hm)
    | intro _
    | with_reducible assumption
    | (with_reducible apply State.jetRun_keeps)
    | with_reducible refine State.jetFormat_keeps (List.Subset.trans (by decide) hm) ?_

theorem execClrp_keeps {m : List Region} {s0 s : State} {a1} (hm : [Region.jets] ⊆ m) (h : Keeps m s0 s) : OutKeeps m s0 (execClrp a1 s) := by
  unfold execClrp
  repeat' first
    | (with_reducible refine run_keeps (fun _ _ => ?_) ?_)
    | intro _
    | with_reducible assumption
    | with_reducible refine State.jetOp_keeps (List.Subset.trans (by decide) hm) ?_

theorem execClra_keeps {m : List Region} {s0 s : State} {a1} (hm : [Region.jets] ⊆ m) (h : Keeps m s0 s) : OutKeeps m s0 (execClra a1 s) := by
  unfold execClra
  repeat' first
    | (with_reducible refine run_keeps (fun _ _ => ?_) ?_)
    | (exact List.Subset.trans (by decide) hm)
    | intro _
    | with_reducible assumption
    | (with_reducible apply State.jetRun_keeps)
    | with_reducible refine State.setJet_keeps (List.Subset.trans (by decide) hm) ?_
    | with_reducible apply ite_keeps

theorem execRdk_keeps {m : List Region} {s0 s : State} {a1 a2} (hm : [Region.jets] ⊆ m) (h : Keeps m s0 s) : OutKeeps m s0 (execRdk a1 a2 s) := by
  unfold execRdk
  repeat' first
    | (with_reducible refine run_keeps (fun _ _ => ?_) ?_)
    | intro _
    | with_reducible assumption
    | with_reducible refine doRead_keeps (List.Subset.trans (by decide) hm) ?_

theorem execRdv_keeps {m : List Region} {s0 s : State} {a1 a2} (hm : [Region.jets] ⊆ m) (h : Keeps m s0 s) : OutKeeps m s0 (execRdv a1 a2 s) := by
  unfold execRdv
  repeat' first
    | (with_reducible refine run_keeps (fun _ _ => ?_) ?_)
    | intro _
    | with_reducible assumption
    | with_reducible refine doRead_keeps (List.Subset.trans (by decide) hm) ?_

theorem execRdbk_keeps {m : List Region} {s0 s : State} {a1 a2} (hm : [Region.jets] ⊆ m) (h : Keeps m s0 s) : OutKeeps m s0 (execRdbk a1 a2 s) := by
  unfold execRdbk
  repeat' first
    | (with_reducible refine run_keeps (fun _ _ => ?_) ?_)
    | intro _
    | with_reducible assumption
    | with_reducible refine doReadBase_keeps (List.Subset.trans (by decide) hm) ?_

theorem execRdbv_keeps {m : List Region} {s0 s : State} {a1 a2} (hm : [Region.jets] ⊆ m) (h : Keeps m s0 s) : OutKeeps m s0 (execRdbv a1 a2 s) := by
  unfold execRdbv
  repeat' first
    | (with_reducible refine run_keeps (fun _ _ => ?_) ?_)
    | intro _
    | with_reducible assumption
    | with_reducible refine doReadBase_keeps (List.Subset.trans (by decide) hm) ?_

theorem execQk_keeps {m : List Region} {s0 s : State} {a1 a2} (hm : [Region.parts, Region.jets] ⊆ m) (h : Keeps m s0 s) : OutKeeps m s0 (execQk a1 a2 s) := by
  unfold execQk
  repeat' first
    | (with_reducible refine run_keeps (fun _ _ => ?_) ?_)
    | intro _
    | with_reducible assumption
    | with_reducible refine doQk_keeps (List.Subset.trans (by decide) hm) ?_

theorem execExps_keeps {m : List Region} {s0 s : State} {a1 a2} (hm : [Region.parts, Region.jets] ⊆ m) (h : Keeps m s0 s) : OutKeeps m s0 (execExps a1 a2 s) := by
  unfold execExps
  repeat' first
    | (with_reducible refine run_keeps (fun _ _ => ?_) ?_)
    | intro _
    | with_reducible assumption
    | with_reducible refine doExps_keeps (List.Subset.trans (by decide) hm) ?_

theorem execPv_keeps {m : List Region} {s0 s : State} {a1 a2} (hm : [Region.parts, Region.jets] ⊆ m) (h : Keeps m s0 s) : OutKeeps m s0 (execPv a1 a2 s) := by
  unfold execPv
  repeat' first
    | (with_reducible refine run_keeps (fun _ _ => ?_) ?_)
    | intro _
    | with_reducible assumption
    | with_reducible refine doPv_keeps (List.Subset.trans (by decide) hm) ?_

theorem execEmit_keeps {m : List Region} {s0 s : State} {a1 a2} (hm : [Region.draws, Region.flt, Region.jets] ⊆ m) (h : Keeps m s0 s) : OutKeeps m s0 (execEmit a1 a2 s) := by
  unfold execEmit
  repeat' first
    | (with_reducible refine run_keeps (fun _ _ => ?_) ?_)
    | intro _
    | with_reducible assumption
    | with_reducible refine doEmit_keeps (List.Subset.trans (by decide) hm) ?_

theorem execCpyrow_keeps {m : List Region} {s0 s : State} {a1 a2 a3} (hm : [Region.flt, Region.spares, Region.mem, Region.side, Region.badGrains, Region.sessions, Region.parts, Region.slc, Region.wt, Region.jets, Region.sec, Region.twin] ⊆ m) (h : Keeps m s0 s) : OutKeeps m s0 (execCpyrow a1 a2 a3 s) := by
  unfold execCpyrow
  repeat' first
    | (with_reducible refine run_keeps (fun _ _ => ?_) ?_)
    | intro _
    | with_reducible assumption
    | with_reducible refine doCpyrow_keeps (List.Subset.trans (by decide) hm) ?_

theorem execPatw_keeps {m : List Region} {s0 s : State} {a1 a2 a3} (hm : [Region.mem, Region.side, Region.jets] ⊆ m) (h : Keeps m s0 s) : OutKeeps m s0 (execPatw a1 a2 a3 s) := by
  unfold execPatw
  repeat' first
    | (with_reducible refine run_keeps (fun _ _ => ?_) ?_)
    | intro _
    | with_reducible assumption
    | with_reducible refine doPatw_keeps (List.Subset.trans (by decide) hm) ?_

theorem execPatr_keeps {m : List Region} {s0 s : State} {a1 a2 a3 a4} (hm : [Region.jets] ⊆ m) (h : Keeps m s0 s) : OutKeeps m s0 (execPatr a1 a2 a3 a4 s) := by
  unfold execPatr
  repeat' first
    | (with_reducible refine run_keeps (fun _ _ => ?_) ?_)
    | intro _
    | with_reducible assumption
    | with_reducible refine doPatr_keeps (List.Subset.trans (by decide) hm) ?_

theorem execArrt_keeps {m : List Region} {s0 s : State} {a1 a2 a3} (hm : [Region.jets] ⊆ m) (h : Keeps m s0 s) : OutKeeps m s0 (execArrt a1 a2 a3 s) := by
  unfold execArrt
  repeat' first
    | (with_reducible refine run_keeps (fun _ _ => ?_) ?_)
    | intro _
    | with_reducible assumption
    | with_reducible refine doArrt_keeps (List.Subset.trans (by decide) hm) ?_

theorem execReadDeadline_keeps {m : List Region} {s0 s : State} {a1 a2} (hm : [Region.clk, Region.flt, Region.provs, Region.slc, Region.wt, Region.jets, Region.twin] ⊆ m) (h : Keeps m s0 s) : OutKeeps m s0 (execReadDeadline a1 a2 s) := by
  unfold execReadDeadline
  repeat' first
    | (with_reducible refine run_keeps (fun _ _ => ?_) ?_)
    | intro _
    | with_reducible assumption
    | with_reducible refine doReadDeadline_keeps (List.Subset.trans (by decide) hm) ?_
    | with_reducible refine State.upTo_keeps (List.Subset.trans (by decide) hm) ?_

theorem execCommitApply_keeps {m : List Region} {s0 s : State} {a1} (hm : [Region.draws, Region.flt, Region.mem, Region.side, Region.allocCtr, Region.allocs, Region.badGrains, Region.sessions, Region.provs, Region.parts, Region.slc, Region.wt, Region.sec, Region.mboxes, Region.twin] ⊆ m) (h : Keeps m s0 s) : OutKeeps m s0 (execCommitApply a1 s) := by
  unfold execCommitApply
  repeat' first
    | (with_reducible refine run_keeps (fun _ _ => ?_) ?_)
    | intro _
    | with_reducible assumption
    | with_reducible refine doCommitApply_keeps (List.Subset.trans (by decide) hm) ?_

theorem execAppendDeadline_keeps {m : List Region} {s0 s : State} {a1 a2} (hm : [Region.clk, Region.flt, Region.slc, Region.wt, Region.twin] ⊆ m) (h : Keeps m s0 s) : OutKeeps m s0 (execAppendDeadline a1 a2 s) := by
  unfold execAppendDeadline
  repeat' first
    | (with_reducible refine run_keeps (fun _ _ => ?_) ?_)
    | intro _
    | with_reducible assumption
    | with_reducible refine doAppendDeadline_keeps (List.Subset.trans (by decide) hm) ?_
    | with_reducible refine State.upTo_keeps (List.Subset.trans (by decide) hm) ?_

theorem execAdmissionStep_keeps {m : List Region} {s0 s : State} {a1 a2 a3} (hm : [Region.draws, Region.clk, Region.flt, Region.mem, Region.side, Region.allocCtr, Region.allocs, Region.badGrains, Region.sessions, Region.provs, Region.parts, Region.slc, Region.wt, Region.jets, Region.sec, Region.mboxes, Region.twin] ⊆ m) (h : Keeps m s0 s) : OutKeeps m s0 (execAdmissionStep a1 a2 a3 s) := by
  unfold execAdmissionStep
  repeat' first
    | (with_reducible refine run_keeps (fun _ _ => ?_) ?_)
    | intro _
    | with_reducible assumption
    | with_reducible refine doAdmissionStep_keeps (List.Subset.trans (by decide) hm) ?_
    | with_reducible refine State.upTo_keeps (List.Subset.trans (by decide) hm) ?_

theorem execAdmitWaitExpiry_keeps {m : List Region} {s0 s : State} {a1 a2} (hm : [Region.clk, Region.flt, Region.slc, Region.wt] ⊆ m) (h : Keeps m s0 s) : OutKeeps m s0 (execAdmitWaitExpiry a1 a2 s) := by
  unfold execAdmitWaitExpiry
  repeat' first
    | (with_reducible refine run_keeps (fun _ _ => ?_) ?_)
    | intro _
    | with_reducible assumption
    | with_reducible refine doAdmitWaitExpiry_keeps (List.Subset.trans (by decide) hm) ?_
    | with_reducible refine State.upTo_keeps (List.Subset.trans (by decide) hm) ?_

theorem execSlotCollect_keeps {m : List Region} {s0 s : State} {a1 a2} (hm : [Region.clk, Region.flt, Region.provs, Region.parts, Region.slc, Region.wt, Region.jets, Region.twin] ⊆ m) (h : Keeps m s0 s) : OutKeeps m s0 (execSlotCollect a1 a2 s) := by
  unfold execSlotCollect
  repeat' first
    | (with_reducible refine run_keeps (fun _ _ => ?_) ?_)
    | intro _
    | with_reducible assumption
    | with_reducible refine doSlotCollect_keeps (List.Subset.trans (by decide) hm) ?_

theorem execEntryMerge_keeps {m : List Region} {s0 s : State} {a1 a2 a3 a4 a5} (hm : [Region.draws, Region.clk, Region.flt, Region.mem, Region.side, Region.badGrains, Region.sessions, Region.provs, Region.parts, Region.slc, Region.wt, Region.jets, Region.sec, Region.twin] ⊆ m) (h : Keeps m s0 s) : OutKeeps m s0 (execEntryMerge a1 a2 a3 a4 a5 s) := by
  unfold execEntryMerge
  repeat' first
    | (with_reducible refine run_keeps (fun _ _ => ?_) ?_)
    | intro _
    | with_reducible assumption
    | with_reducible refine doEntryMerge_keeps (List.Subset.trans (by decide) hm) ?_
    | with_reducible refine State.upTo_keeps (List.Subset.trans (by decide) hm) ?_

theorem execCutTime_keeps {m : List Region} {s0 s : State} {a1 a2 a3} (hm : [Region.clk, Region.flt, Region.provs, Region.slc, Region.wt, Region.jets, Region.twin] ⊆ m) (h : Keeps m s0 s) : OutKeeps m s0 (execCutTime a1 a2 a3 s) := by
  unfold execCutTime
  repeat' first
    | (with_reducible refine run_keeps (fun _ _ => ?_) ?_)
    | intro _
    | with_reducible assumption
    | with_reducible refine doCutTime_keeps (List.Subset.trans (by decide) hm) ?_
    | with_reducible refine State.upTo_keeps (List.Subset.trans (by decide) hm) ?_

theorem execConfluenceDeadline_keeps {m : List Region} {s0 s : State} {a1 a2 a3} (hm : [Region.clk, Region.flt, Region.provs, Region.slc, Region.wt, Region.jets, Region.twin] ⊆ m) (h : Keeps m s0 s) : OutKeeps m s0 (execConfluenceDeadline a1 a2 a3 s) := by
  unfold execConfluenceDeadline
  repeat' first
    | (with_reducible refine run_keeps (fun _ _ => ?_) ?_)
    | intro _
    | with_reducible assumption
    | with_reducible refine doConfluenceDeadline_keeps (List.Subset.trans (by decide) hm) ?_
    | with_reducible refine State.upTo_keeps (List.Subset.trans (by decide) hm) ?_

theorem execProvSetExpiry_keeps {m : List Region} {s0 s : State} {a1 a2 a3} (hm : [Region.clk, Region.provs] ⊆ m) (h : Keeps m s0 s) : OutKeeps m s0 (execProvSetExpiry a1 a2 a3 s) := by
  unfold execProvSetExpiry
  repeat' first
    | (with_reducible refine run_keeps (fun _ _ => ?_) ?_)
    | intro _
    | with_reducible assumption
    | with_reducible refine doProvSetExpiry_keeps (List.Subset.trans (by decide) hm) ?_
    | with_reducible refine State.upTo_keeps (List.Subset.trans (by decide) hm) ?_

theorem execHedgeEvaluate_keeps {m : List Region} {s0 s : State} {a1 a2} (hm : [Region.clk, Region.flt, Region.slc, Region.wt, Region.twin] ⊆ m) (h : Keeps m s0 s) : OutKeeps m s0 (execHedgeEvaluate a1 a2 s) := by
  unfold execHedgeEvaluate
  repeat' first
    | (with_reducible refine run_keeps (fun _ _ => ?_) ?_)
    | intro _
    | with_reducible assumption
    | with_reducible refine doHedgeEvaluate_keeps (List.Subset.trans (by decide) hm) ?_
    | with_reducible refine State.upTo_keeps (List.Subset.trans (by decide) hm) ?_

theorem execReservedOpcode_keeps {m : List Region} {s0 s : State} {a1 a2} (hm : [Region.jets] ⊆ m) (h : Keeps m s0 s) : OutKeeps m s0 (execReservedOpcode a1 a2 s) := by
  unfold execReservedOpcode
  repeat' first
    | (with_reducible refine run_keeps (fun _ _ => ?_) ?_)
    | intro _
    | with_reducible assumption
    | with_reducible refine doReservedOpcode_keeps (List.Subset.trans (by decide) hm) ?_

theorem State.collectJet_keeps {m : List Region} {s0 s : State} {a1} (hm : [Region.clk, Region.flt, Region.provs, Region.parts, Region.slc, Region.wt, Region.jets, Region.twin] ⊆ m) (h : Keeps m s0 s) : Keeps m s0 (State.collectJet s a1) := by
  unfold State.collectJet
  try dsimp only
  repeat' first
    | intro _
    | with_reducible assumption
    | (with_reducible apply State.each_keeps)
    | with_reducible refine doSlotCollect_keeps (List.Subset.trans (by decide) hm) ?_

end Sys2Proof.Machine
end

