-- ==== Sys2Proof/Laws/FrameAgtan.lean ====
section
/-! SUPPORT. The frames of the management commands, the staging area and the configuration epochs.
One lemma per operation: the parts of the state outside its list stand as before. -/

namespace Sys2Proof.Machine

theorem State.zeroGrains_keeps {m : List Region} {s0 s : State} {a1 a2} (hm : [Region.mem, Region.side, Region.badGrains] ⊆ m) (h : Keeps m s0 s) : Keeps m s0 (State.zeroGrains s a1 a2) := by
  unfold State.zeroGrains
  try dsimp only
  repeat' first
    | intro _
    | with_reducible assumption
    | with_reducible apply ite_keeps
    | with_reducible apply foldl_keeps
    | (fail_if_no_progress (with_reducible refine mk_keeps ?_ ?_ ?_ ?_ ?_ ?_ ?_ ?_ ?_ ?_ ?_ ?_ ?_ ?_ ?_ ?_ ?_ ?_ ?_ ?_ ?_ ?_ ?_ ?_ ?_ ?_ ?_ ?_) <;> try first | (with_reducible exact Or.inl rfl) | (exact Or.inr (hm (by decide))))

theorem State.placeIn_keeps {m : List Region} {s0 s : State} {a1 a2 a3} (hm : [Region.mem, Region.side, Region.allocs, Region.badGrains] ⊆ m) (h : Keeps m s0 s) : Keeps m s0 (State.placeIn s a1 a2 a3) := by
  unfold State.placeIn
  try dsimp only
  repeat' first
    | intro _
    | with_reducible assumption
    | with_reducible refine State.zeroGrains_keeps (List.Subset.trans (by decide) hm) ?_
    | with_reducible refine State.addAlloc_keeps (List.Subset.trans (by decide) hm) ?_
    | with_reducible apply ite_keeps
    | with_reducible apply foldl_keeps
    | split

theorem State.needTable_keeps {m : List Region} {s0 s : State} {a1 a2} (hm : [Region.mem, Region.side, Region.allocs, Region.badGrains] ⊆ m) (h : Keeps m s0 s) : Keeps m s0 (State.needTable s a1 a2) := by
  unfold State.needTable
  try dsimp only
  repeat' first
    | intro _
    | with_reducible assumption
    | (with_reducible apply State.each_keeps)
    | with_reducible refine State.placeIn_keeps (List.Subset.trans (by decide) hm) ?_
    | with_reducible refine State.entryAt_keeps (List.Subset.trans (by decide) hm) ?_
    | with_reducible apply ite_keeps
    | with_reducible apply foldl_keeps
    | split

theorem State.writeEntry_keeps {m : List Region} {s0 s : State} {a1 a2} (hm : [Region.mem, Region.side, Region.allocs, Region.badGrains] ⊆ m) (h : Keeps m s0 s) : Keeps m s0 (State.writeEntry s a1 a2) := by
  unfold State.writeEntry
  try dsimp only
  repeat' first
    | intro _
    | with_reducible assumption
    | with_reducible refine State.needTable_keeps (List.Subset.trans (by decide) hm) ?_
    | with_reducible refine State.entryAt_keeps (List.Subset.trans (by decide) hm) ?_
    | with_reducible apply ite_keeps
    | with_reducible apply foldl_keeps
    | split

theorem State.putSession_keeps {m : List Region} {s0 s : State} {a1 a2} (hm : [Region.mem, Region.side, Region.allocs, Region.badGrains, Region.sessions] ⊆ m) (h : Keeps m s0 s) : Keeps m s0 (State.putSession s a1 a2) := by
  unfold State.putSession
  try dsimp only
  repeat' first
    | intro _
    | with_reducible assumption
    | with_reducible refine State.writeEntry_keeps (List.Subset.trans (by decide) hm) ?_
    | with_reducible refine State.setSession_keeps (List.Subset.trans (by decide) hm) ?_

theorem State.placePieces_keeps {m : List Region} {s0 s : State} {a1 a2 a3 a4} (hm : [Region.mem, Region.side, Region.allocs, Region.badGrains] ⊆ m) (h : Keeps m s0 s) : Keeps m s0 (State.placePieces s a1 a2 a3 a4) := by
  induction a3 generalizing s a1 a2 a4 with
  | zero => exact h
  | succ n ih =>
    unfold State.placePieces
    try dsimp only
    repeat' first
      | (with_reducible apply ih)
      | intro _
      | with_reducible assumption
      | with_reducible refine State.zeroGrains_keeps (List.Subset.trans (by decide) hm) ?_
      | with_reducible refine State.addAlloc_keeps (List.Subset.trans (by decide) hm) ?_
      | with_reducible apply ite_keeps
      | with_reducible apply foldl_keeps
      | split

theorem State.takeLanding_keeps {m : List Region} {s0 s : State} {a1 a2} (hm : [Region.mem, Region.side, Region.allocs, Region.badGrains] ⊆ m) (h : Keeps m s0 s) : Keeps m s0 (State.takeLanding s a1 a2) := by
  unfold State.takeLanding
  try dsimp only
  repeat' first
    | intro _
    | with_reducible assumption
    | with_reducible refine State.freeAllocs_keeps (List.Subset.trans (by decide) hm) ?_
    | with_reducible refine State.placePieces_keeps (List.Subset.trans (by decide) hm) ?_
    | with_reducible apply ite_keeps

theorem State.takeTable_keeps {m : List Region} {s0 s : State} {a1 a2} (hm : [Region.mem, Region.side, Region.allocs, Region.badGrains] ⊆ m) (h : Keeps m s0 s) : Keeps m s0 (State.takeTable s a1 a2) := by
  unfold State.takeTable
  try dsimp only
  repeat' first
    | intro _
    | with_reducible assumption
    | with_reducible refine State.needTable_keeps (List.Subset.trans (by decide) hm) ?_
    | with_reducible apply ite_keeps
    | with_reducible apply foldl_keeps
    | split

theorem State.writeGates_keeps {m : List Region} {s0 s : State} {a1 a2} (hm : [Region.sec] ⊆ m) (h : Keeps m s0 s) : Keeps m s0 (State.writeGates s a1 a2) := by
  unfold State.writeGates
  try dsimp only
  repeat' first
    | intro _
    | with_reducible assumption
    | with_reducible apply ite_keeps
    | with_reducible apply foldl_keeps
    | (fail_if_no_progress (with_reducible refine mk_keeps ?_ ?_ ?_ ?_ ?_ ?_ ?_ ?_ ?_ ?_ ?_ ?_ ?_ ?_ ?_ ?_ ?_ ?_ ?_ ?_ ?_ ?_ ?_ ?_ ?_ ?_ ?_ ?_) <;> try first | (with_reducible exact Or.inl rfl) | (exact Or.inr (hm (by decide))))

theorem State.applyMap_keeps {m : List Region} {s0 s : State} {a1 a2 a3} (hm : [Region.mem, Region.side, Region.allocs, Region.badGrains, Region.parts, Region.ep, Region.sec] ⊆ m) (h : Keeps m s0 s) : Keeps m s0 (State.applyMap s a1 a2 a3) := by
  unfold State.applyMap
  try dsimp only
  repeat' first
    | (exact List.Subset.trans (by decide) hm)
    | intro _
    | with_reducible assumption
    | (with_reducible apply State.each_keeps)
    | with_reducible refine State.takeTable_keeps (List.Subset.trans (by decide) hm) ?_
    | with_reducible refine State.writeGates_keeps (List.Subset.trans (by decide) hm) ?_
    | with_reducible refine State.updPart_keeps (List.Subset.trans (by decide) hm) ?_
    | with_reducible apply ite_keeps
    | with_reducible apply foldl_keeps
    | (fail_if_no_progress (with_reducible refine mk_keeps ?_ ?_ ?_ ?_ ?_ ?_ ?_ ?_ ?_ ?_ ?_ ?_ ?_ ?_ ?_ ?_ ?_ ?_ ?_ ?_ ?_ ?_ ?_ ?_ ?_ ?_ ?_ ?_) <;> try first | (with_reducible exact Or.inl rfl) | (exact Or.inr (hm (by decide))))

theorem State.applyShaper_keeps {m : List Region} {s0 s : State} {a1 a2 a3} (hm : [Region.slc, Region.wt] ⊆ m) (h : Keeps m s0 s) : Keeps m s0 (State.applyShaper s a1 a2 a3) := by
  unfold State.applyShaper
  try dsimp only
  repeat' first
    | intro _
    | with_reducible assumption
    | with_reducible refine State.updPort_keeps (List.Subset.trans (by decide) hm) ?_
    | with_reducible apply ite_keeps
    | with_reducible apply foldl_keeps
    | (fail_if_no_progress (with_reducible refine mk_keeps ?_ ?_ ?_ ?_ ?_ ?_ ?_ ?_ ?_ ?_ ?_ ?_ ?_ ?_ ?_ ?_ ?_ ?_ ?_ ?_ ?_ ?_ ?_ ?_ ?_ ?_ ?_ ?_) <;> try first | (with_reducible exact Or.inl rfl) | (exact Or.inr (hm (by decide))))

theorem State.applyWeir_keeps {m : List Region} {s0 s : State} {a1 a2} (hm : [Region.wt] ⊆ m) (h : Keeps m s0 s) : Keeps m s0 (State.applyWeir s a1 a2) := by
  unfold State.applyWeir
  try dsimp only
  repeat' first
    | intro _
    | with_reducible assumption
    | with_reducible refine State.updPort_keeps (List.Subset.trans (by decide) hm) ?_

theorem State.applyTwin_keeps {m : List Region} {s0 s : State} {a1} (hm : [Region.flt, Region.parts, Region.slc, Region.wt, Region.sec, Region.mboxes, Region.twin] ⊆ m) (h : Keeps m s0 s) : Keeps m s0 (State.applyTwin s a1) := by
  unfold State.applyTwin
  try dsimp only
  repeat' first
    | (exact List.Subset.trans (by decide) hm)
    | intro _
    | with_reducible assumption
    | (with_reducible apply State.each_keeps)
    | with_reducible refine State.deliver_keeps (List.Subset.trans (by decide) hm) ?_
    | with_reducible apply ite_keeps
    | with_reducible apply foldl_keeps
    | (fail_if_no_progress (with_reducible refine mk_keeps ?_ ?_ ?_ ?_ ?_ ?_ ?_ ?_ ?_ ?_ ?_ ?_ ?_ ?_ ?_ ?_ ?_ ?_ ?_ ?_ ?_ ?_ ?_ ?_ ?_ ?_ ?_ ?_) <;> try first | (with_reducible exact Or.inl rfl) | (exact Or.inr (hm (by decide))))

theorem State.applyItems_keeps {m : List Region} {s0 s : State} {a1 a2} (hm : [Region.flt, Region.mem, Region.side, Region.allocs, Region.badGrains, Region.parts, Region.cfg, Region.ep, Region.slc, Region.wt, Region.sec, Region.mboxes, Region.twin] ⊆ m) (h : Keeps m s0 s) : Keeps m s0 (State.applyItems s a1 a2) := by
  unfold State.applyItems
  try dsimp only
  repeat' first
    | (exact List.Subset.trans (by decide) hm)
    | intro _
    | with_reducible assumption
    | (with_reducible apply State.each_keeps)
    | with_reducible refine State.takeLanding_keeps (List.Subset.trans (by decide) hm) ?_
    | with_reducible refine State.applyMap_keeps (List.Subset.trans (by decide) hm) ?_
    | with_reducible refine State.applyShaper_keeps (List.Subset.trans (by decide) hm) ?_
    | with_reducible refine State.moveFlow_keeps (List.Subset.trans (by decide) hm) ?_
    | with_reducible refine State.applyWeir_keeps (List.Subset.trans (by decide) hm) ?_
    | with_reducible refine State.updPart_keeps (List.Subset.trans (by decide) hm) ?_
    | with_reducible refine State.applyTwin_keeps (List.Subset.trans (by decide) hm) ?_
    | with_reducible apply ite_keeps
    | with_reducible apply foldl_keeps
    | (fail_if_no_progress (with_reducible refine mk_keeps ?_ ?_ ?_ ?_ ?_ ?_ ?_ ?_ ?_ ?_ ?_ ?_ ?_ ?_ ?_ ?_ ?_ ?_ ?_ ?_ ?_ ?_ ?_ ?_ ?_ ?_ ?_ ?_) <;> try first | (with_reducible exact Or.inl rfl) | (exact Or.inr (hm (by decide))))
    | split

theorem State.releaseSession_keeps {m : List Region} {s0 s : State} {a1 a2} (hm : [Region.mem, Region.side, Region.allocs, Region.badGrains, Region.sessions, Region.provs, Region.parts] ⊆ m) (h : Keeps m s0 s) : Keeps m s0 (State.releaseSession s a1 a2) := by
  unfold State.releaseSession
  try dsimp only
  repeat' first
    | intro _
    | with_reducible assumption
    | with_reducible refine State.freeAllocs_keeps (List.Subset.trans (by decide) hm) ?_
    | with_reducible refine State.updPart_keeps (List.Subset.trans (by decide) hm) ?_
    | with_reducible refine State.dropProvs_keeps (List.Subset.trans (by decide) hm) ?_
    | with_reducible refine State.putSession_keeps (List.Subset.trans (by decide) hm) ?_

theorem State.putTable_keeps {m : List Region} {s0 s : State} {a1 a2 a3} (hm : [Region.draws, Region.mem, Region.side, Region.allocs, Region.parts] ⊆ m) (h : Keeps m s0 s) : ∀ t, (State.putTable s a1 a2 a3) = some t → Keeps m s0 t := by
  intro t he
  unfold State.putTable at he
  try dsimp only at he
  repeat' first
    | (cases he; done)
    | split at he
    | contradiction
    | cases he
    | intro _
    | with_reducible assumption
    | (refine State.allocGrains_keeps (List.Subset.trans (by decide) hm) ?_ _ _ (by with_reducible assumption))
    | (with_reducible refine State.allocGrains_keeps (List.Subset.trans (by decide) hm) ?_ _ _ rfl)
    | with_reducible refine State.putRun_keeps (List.Subset.trans (by decide) hm) ?_
    | with_reducible refine State.updPart_keeps (List.Subset.trans (by decide) hm) ?_

theorem State.dropTable_keeps {m : List Region} {s0 s : State} {a1 a2} (hm : [Region.allocs, Region.parts] ⊆ m) (h : Keeps m s0 s) : Keeps m s0 (State.dropTable s a1 a2) := by
  unfold State.dropTable
  try dsimp only
  repeat' first
    | intro _
    | with_reducible assumption
    | with_reducible refine State.updPart_keeps (List.Subset.trans (by decide) hm) ?_
    | with_reducible refine State.freeAllocs_keeps (List.Subset.trans (by decide) hm) ?_

theorem State.noteUnload_keeps {m : List Region} {s0 s : State} {a1 a2 a3} (hm : [Region.twin] ⊆ m) (h : Keeps m s0 s) : Keeps m s0 (State.noteUnload s a1 a2 a3) := by
  unfold State.noteUnload
  try dsimp only
  repeat' first
    | intro _
    | with_reducible assumption
    | with_reducible apply ite_keeps
    | with_reducible apply foldl_keeps
    | (fail_if_no_progress (with_reducible refine mk_keeps ?_ ?_ ?_ ?_ ?_ ?_ ?_ ?_ ?_ ?_ ?_ ?_ ?_ ?_ ?_ ?_ ?_ ?_ ?_ ?_ ?_ ?_ ?_ ?_ ?_ ?_ ?_ ?_) <;> try first | (with_reducible exact Or.inl rfl) | (exact Or.inr (hm (by decide))))

theorem State.dropBase_keeps {m : List Region} {s0 s : State} {a1 a2} (hm : [Region.allocs, Region.parts] ⊆ m) (h : Keeps m s0 s) : Keeps m s0 (State.dropBase s a1 a2) := by
  unfold State.dropBase
  try dsimp only
  repeat' first
    | intro _
    | with_reducible assumption
    | with_reducible refine State.updPart_keeps (List.Subset.trans (by decide) hm) ?_
    | with_reducible refine State.freeAllocs_keeps (List.Subset.trans (by decide) hm) ?_

theorem State.asWriter_keeps {m : List Region} {s0 s : State} {o : AgtanOp} {c : AgtanCmd} {keyed writer : Bool}
    {f : State → State} (hm : [Region.flt, Region.slc, Region.wt, Region.sec, Region.mboxes, Region.twin] ⊆ m) (hf : Keeps m s0 (f s)) (h : Keeps m s0 s) :
    Keeps m s0 (s.asWriter o c keyed writer f) := by
  unfold State.asWriter
  have hr : ∀ a b c d, Keeps m s0 (s.respond a b c d) := fun a b c d => State.respond_keeps (List.Subset.trans (by decide) hm) h
  exact ite_keeps (hr ..) (ite_keeps (hr ..) (ite_keeps hf
    (ite_keeps (hr ..) (State.forwardCmd_keeps (List.Subset.trans (by decide) hm) h))))

theorem State.unpark_keeps {m : List Region} {s0 s : State} {a1 a2 a3} (hm : [Region.flt, Region.slc, Region.wt, Region.sec, Region.mboxes] ⊆ m) (h : Keeps m s0 s) : Keeps m s0 (State.unpark s a1 a2 a3) := by
  unfold State.unpark
  try dsimp only
  repeat' first
    | (exact List.Subset.trans (by decide) hm)
    | intro _
    | with_reducible assumption
    | (with_reducible apply State.each_keeps)
    | with_reducible refine State.updMbox_keeps (List.Subset.trans (by decide) hm) ?_
    | with_reducible refine State.respond_keeps (List.Subset.trans (by decide) hm) ?_
    | with_reducible apply ite_keeps

theorem State.takeDirUpdate_keeps {m : List Region} {s0 s : State} {a1} (hm : [Region.flt, Region.ep] ⊆ m) (h : Keeps m s0 s) : ∀ t x, (State.takeDirUpdate s a1) = (t, x) → Keeps m s0 t := by
  intro t x he
  unfold State.takeDirUpdate at he
  try dsimp only at he
  repeat' first
    | (cases he; done)
    | split at he
    | contradiction
    | cases he
    | intro _
    | with_reducible assumption
    | with_reducible refine State.count_keeps (List.Subset.trans (by decide) hm) ?_
    | with_reducible apply ite_keeps
    | with_reducible apply foldl_keeps
    | (fail_if_no_progress (with_reducible refine mk_keeps ?_ ?_ ?_ ?_ ?_ ?_ ?_ ?_ ?_ ?_ ?_ ?_ ?_ ?_ ?_ ?_ ?_ ?_ ?_ ?_ ?_ ?_ ?_ ?_ ?_ ?_ ?_ ?_) <;> try first | (with_reducible exact Or.inl rfl) | (exact Or.inr (hm (by decide))))

theorem State.takeDirQuery_keeps {m : List Region} {s0 s : State} {a1 a2} (hm : [Region.flt, Region.slc, Region.wt] ⊆ m) (h : Keeps m s0 s) : Keeps m s0 (State.takeDirQuery s a1 a2) := by
  unfold State.takeDirQuery
  try dsimp only
  repeat' first
    | intro _
    | with_reducible assumption
    | with_reducible refine State.sendMsg_keeps (List.Subset.trans (by decide) hm) ?_
    | with_reducible apply ite_keeps

theorem State.reopen_keeps {m : List Region} {s0 s : State} {a1} (hm : [Region.ep] ⊆ m) (h : Keeps m s0 s) : Keeps m s0 (State.reopen s a1) := by
  unfold State.reopen
  try dsimp only
  repeat' first
    | intro _
    | with_reducible assumption
    | with_reducible refine State.setStageSet_keeps (List.Subset.trans (by decide) hm) ?_

theorem doEpochDrainEnd_keeps {m : List Region} {s0 s : State} (hm : [Region.ep, Region.sec] ⊆ m) (h : Keeps m s0 s) : Keeps m s0 (doEpochDrainEnd s) := by
  unfold doEpochDrainEnd
  try dsimp only
  repeat' first
    | (exact List.Subset.trans (by decide) hm)
    | intro _
    | with_reducible assumption
    | (with_reducible apply State.each_keeps)
    | with_reducible refine State.writeGates_keeps (List.Subset.trans (by decide) hm) ?_
    | with_reducible apply ite_keeps
    | with_reducible apply foldl_keeps
    | (fail_if_no_progress (with_reducible refine mk_keeps ?_ ?_ ?_ ?_ ?_ ?_ ?_ ?_ ?_ ?_ ?_ ?_ ?_ ?_ ?_ ?_ ?_ ?_ ?_ ?_ ?_ ?_ ?_ ?_ ?_ ?_ ?_ ?_) <;> try first | (with_reducible exact Or.inl rfl) | (exact Or.inr (hm (by decide))))

theorem State.openNow_keeps {m : List Region} {s0 s : State} {a1 a2} (hm : [Region.draws, Region.mem, Region.side, Region.allocs, Region.badGrains, Region.sessions] ⊆ m) (h : Keeps m s0 s) : ∀ t, (State.openNow s a1 a2) = some t → Keeps m s0 t := by
  intro t he
  unfold State.openNow at he
  try dsimp only at he
  repeat' first
    | (cases he; done)
    | split at he
    | contradiction
    | cases he
    | intro _
    | with_reducible assumption
    | with_reducible refine State.needTable_keeps (List.Subset.trans (by decide) hm) ?_
    | (refine State.allocGrains_keeps (List.Subset.trans (by decide) hm) ?_ _ _ (by with_reducible assumption))
    | (with_reducible refine State.allocGrains_keeps (List.Subset.trans (by decide) hm) ?_ _ _ rfl)
    | (refine State.draw_keeps (List.Subset.trans (by decide) hm) ?_ _ _ (by with_reducible assumption))
    | (with_reducible refine State.draw_keeps (List.Subset.trans (by decide) hm) ?_ _ _ rfl)
    | with_reducible refine State.putSession_keeps (List.Subset.trans (by decide) hm) ?_

theorem State.park_keeps {m : List Region} {s0 s : State} {a1 a2} (hm : [Region.mboxes] ⊆ m) (h : Keeps m s0 s) : Keeps m s0 (State.park s a1 a2) := by
  unfold State.park
  try dsimp only
  repeat' first
    | intro _
    | with_reducible assumption
    | with_reducible refine State.updMbox_keeps (List.Subset.trans (by decide) hm) ?_

theorem doNodeStatus_keeps {m : List Region} {s0 s : State} {a1} (hm : [Region.flt, Region.slc, Region.wt, Region.sec, Region.mboxes] ⊆ m) (h : Keeps m s0 s) : Keeps m s0 (doNodeStatus a1 s) := by
  unfold doNodeStatus
  try dsimp only
  repeat' first
    | (exact List.Subset.trans (by decide) hm)
    | intro _
    | with_reducible assumption
    | (with_reducible apply State.agtan_keeps)
    | with_reducible refine State.respond_keeps (List.Subset.trans (by decide) hm) ?_

theorem doFaultRead_keeps {m : List Region} {s0 s : State} {a1} (hm : [Region.flt, Region.slc, Region.wt, Region.sec, Region.mboxes] ⊆ m) (h : Keeps m s0 s) : Keeps m s0 (doFaultRead a1 s) := by
  unfold doFaultRead
  try dsimp only
  repeat' first
    | (exact List.Subset.trans (by decide) hm)
    | intro _
    | with_reducible assumption
    | (with_reducible apply State.agtan_keeps)
    | with_reducible refine State.respond_keeps (List.Subset.trans (by decide) hm) ?_

theorem doPeerClear_keeps {m : List Region} {s0 s : State} {a1} (hm : [Region.flt, Region.slc, Region.wt, Region.sec, Region.mboxes] ⊆ m) (h : Keeps m s0 s) : Keeps m s0 (doPeerClear a1 s) := by
  unfold doPeerClear
  try dsimp only
  repeat' first
    | (exact List.Subset.trans (by decide) hm)
    | intro _
    | with_reducible assumption
    | (with_reducible apply State.agtan_keeps)
    | with_reducible refine State.respond_keeps (List.Subset.trans (by decide) hm) ?_
    | with_reducible refine State.clearUnreachable_keeps (List.Subset.trans (by decide) hm) ?_

theorem doCfgCommit_keeps {m : List Region} {s0 s : State} {a1} (hm : [Region.flt, Region.ep, Region.slc, Region.wt, Region.sec, Region.mboxes] ⊆ m) (h : Keeps m s0 s) : Keeps m s0 (doCfgCommit a1 s) := by
  unfold doCfgCommit
  try dsimp only
  repeat' first
    | (exact List.Subset.trans (by decide) hm)
    | intro _
    | with_reducible assumption
    | (with_reducible apply State.agtan_keeps)
    | with_reducible refine State.respond_keeps (List.Subset.trans (by decide) hm) ?_
    | with_reducible refine State.setStageSet_keeps (List.Subset.trans (by decide) hm) ?_
    | with_reducible apply ite_keeps
    | with_reducible apply foldl_keeps
    | (fail_if_no_progress (with_reducible refine mk_keeps ?_ ?_ ?_ ?_ ?_ ?_ ?_ ?_ ?_ ?_ ?_ ?_ ?_ ?_ ?_ ?_ ?_ ?_ ?_ ?_ ?_ ?_ ?_ ?_ ?_ ?_ ?_ ?_) <;> try first | (with_reducible exact Or.inl rfl) | (exact Or.inr (hm (by decide))))

theorem doCfgAbort_keeps {m : List Region} {s0 s : State} {a1} (hm : [Region.flt, Region.ep, Region.slc, Region.wt, Region.sec, Region.mboxes] ⊆ m) (h : Keeps m s0 s) : Keeps m s0 (doCfgAbort a1 s) := by
  unfold doCfgAbort
  try dsimp only
  repeat' first
    | (exact List.Subset.trans (by decide) hm)
    | intro _
    | with_reducible assumption
    | (with_reducible apply State.agtan_keeps)
    | with_reducible refine State.respond_keeps (List.Subset.trans (by decide) hm) ?_
    | with_reducible refine State.setStageSet_keeps (List.Subset.trans (by decide) hm) ?_
    | with_reducible apply ite_keeps
    | with_reducible apply foldl_keeps
    | (fail_if_no_progress (with_reducible refine mk_keeps ?_ ?_ ?_ ?_ ?_ ?_ ?_ ?_ ?_ ?_ ?_ ?_ ?_ ?_ ?_ ?_ ?_ ?_ ?_ ?_ ?_ ?_ ?_ ?_ ?_ ?_ ?_ ?_) <;> try first | (with_reducible exact Or.inl rfl) | (exact Or.inr (hm (by decide))))

theorem doCfgStatus_keeps {m : List Region} {s0 s : State} {a1} (hm : [Region.flt, Region.slc, Region.wt, Region.sec, Region.mboxes] ⊆ m) (h : Keeps m s0 s) : Keeps m s0 (doCfgStatus a1 s) := by
  unfold doCfgStatus
  try dsimp only
  repeat' first
    | (exact List.Subset.trans (by decide) hm)
    | intro _
    | with_reducible assumption
    | (with_reducible apply State.agtan_keeps)
    | with_reducible refine State.respond_keeps (List.Subset.trans (by decide) hm) ?_

theorem doCfgDiscard_keeps {m : List Region} {s0 s : State} {a1} (hm : [Region.flt, Region.ep, Region.slc, Region.wt, Region.sec, Region.mboxes] ⊆ m) (h : Keeps m s0 s) : Keeps m s0 (doCfgDiscard a1 s) := by
  unfold doCfgDiscard
  try dsimp only
  repeat' first
    | (exact List.Subset.trans (by decide) hm)
    | intro _
    | with_reducible assumption
    | (with_reducible apply State.agtan_keeps)
    | with_reducible refine State.respond_keeps (List.Subset.trans (by decide) hm) ?_
    | with_reducible refine State.setStageSet_keeps (List.Subset.trans (by decide) hm) ?_
    | with_reducible apply ite_keeps

theorem State.stageItems_keeps {m : List Region} {s0 s : State} {a1 a2} (hm : [Region.flt, Region.ep] ⊆ m) (h : Keeps m s0 s) : ∀ x t, (State.stageItems s a1 a2) = (x, t) → Keeps m s0 t := by
  intro x t he
  unfold State.stageItems at he
  try dsimp only at he
  repeat' first
    | (cases he; done)
    | split at he
    | contradiction
    | cases he
    | intro _
    | with_reducible assumption
    | with_reducible refine State.count_keeps (List.Subset.trans (by decide) hm) ?_
    | with_reducible refine State.setStageSet_keeps (List.Subset.trans (by decide) hm) ?_

theorem State.stageCmd_keeps {m : List Region} {s0 s : State} {a1 a2 a3 a4} (hm : [Region.flt, Region.ep, Region.slc, Region.wt, Region.sec, Region.mboxes] ⊆ m) (h : Keeps m s0 s) : Keeps m s0 (State.stageCmd s a1 a2 a3 a4) := by
  unfold State.stageCmd
  try dsimp only
  repeat' first
    | (exact List.Subset.trans (by decide) hm)
    | intro _
    | with_reducible assumption
    | (with_reducible apply State.agtan_keeps)
    | with_reducible refine State.respond_keeps (List.Subset.trans (by decide) hm) ?_
    | (refine State.stageItems_keeps (List.Subset.trans (by decide) hm) ?_ _ _ (by with_reducible assumption))
    | (with_reducible refine State.stageItems_keeps (List.Subset.trans (by decide) hm) ?_ _ _ rfl)
    | with_reducible apply ite_keeps

theorem doPartMapStage_keeps {m : List Region} {s0 s : State} {a1} (hm : [Region.flt, Region.ep, Region.slc, Region.wt, Region.sec, Region.mboxes] ⊆ m) (h : Keeps m s0 s) : Keeps m s0 (doPartMapStage a1 s) := by
  unfold doPartMapStage
  try dsimp only
  repeat' first
    | (exact List.Subset.trans (by decide) hm)
    | intro _
    | with_reducible assumption
    | with_reducible refine State.stageCmd_keeps (List.Subset.trans (by decide) hm) ?_

theorem doPartCfgStage_keeps {m : List Region} {s0 s : State} {a1} (hm : [Region.flt, Region.ep, Region.slc, Region.wt, Region.sec, Region.mboxes] ⊆ m) (h : Keeps m s0 s) : Keeps m s0 (doPartCfgStage a1 s) := by
  unfold doPartCfgStage
  try dsimp only
  repeat' first
    | (exact List.Subset.trans (by decide) hm)
    | intro _
    | with_reducible assumption
    | with_reducible refine State.stageCmd_keeps (List.Subset.trans (by decide) hm) ?_

theorem doPartStatus_keeps {m : List Region} {s0 s : State} {a1} (hm : [Region.flt, Region.slc, Region.wt, Region.sec, Region.mboxes] ⊆ m) (h : Keeps m s0 s) : Keeps m s0 (doPartStatus a1 s) := by
  unfold doPartStatus
  try dsimp only
  repeat' first
    | (exact List.Subset.trans (by decide) hm)
    | intro _
    | with_reducible assumption
    | (with_reducible apply State.agtan_keeps)
    | with_reducible refine State.respond_keeps (List.Subset.trans (by decide) hm) ?_

theorem doLockStage_keeps {m : List Region} {s0 s : State} {a1} (hm : [Region.flt, Region.ep, Region.slc, Region.wt, Region.sec, Region.mboxes] ⊆ m) (h : Keeps m s0 s) : Keeps m s0 (doLockStage a1 s) := by
  unfold doLockStage
  try dsimp only
  repeat' first
    | (exact List.Subset.trans (by decide) hm)
    | intro _
    | with_reducible assumption
    | with_reducible refine State.stageCmd_keeps (List.Subset.trans (by decide) hm) ?_

theorem doAdmitWeightsStage_keeps {m : List Region} {s0 s : State} {a1} (hm : [Region.flt, Region.ep, Region.slc, Region.wt, Region.sec, Region.mboxes] ⊆ m) (h : Keeps m s0 s) : Keeps m s0 (doAdmitWeightsStage a1 s) := by
  unfold doAdmitWeightsStage
  try dsimp only
  repeat' first
    | (exact List.Subset.trans (by decide) hm)
    | intro _
    | with_reducible assumption
    | with_reducible refine State.stageCmd_keeps (List.Subset.trans (by decide) hm) ?_

theorem doNodeCfgStage_keeps {m : List Region} {s0 s : State} {a1} (hm : [Region.flt, Region.ep, Region.slc, Region.wt, Region.sec, Region.mboxes] ⊆ m) (h : Keeps m s0 s) : Keeps m s0 (doNodeCfgStage a1 s) := by
  unfold doNodeCfgStage
  try dsimp only
  repeat' first
    | (exact List.Subset.trans (by decide) hm)
    | intro _
    | with_reducible assumption
    | with_reducible refine State.stageCmd_keeps (List.Subset.trans (by decide) hm) ?_

theorem doTwinCfgStage_keeps {m : List Region} {s0 s : State} {a1} (hm : [Region.flt, Region.ep, Region.slc, Region.wt, Region.sec, Region.mboxes] ⊆ m) (h : Keeps m s0 s) : Keeps m s0 (doTwinCfgStage a1 s) := by
  unfold doTwinCfgStage
  try dsimp only
  repeat' first
    | (exact List.Subset.trans (by decide) hm)
    | intro _
    | with_reducible assumption
    | with_reducible refine State.stageCmd_keeps (List.Subset.trans (by decide) hm) ?_

theorem doRouteStage_keeps {m : List Region} {s0 s : State} {a1} (hm : [Region.flt, Region.ep, Region.slc, Region.wt, Region.sec, Region.mboxes] ⊆ m) (h : Keeps m s0 s) : Keeps m s0 (doRouteStage a1 s) := by
  unfold doRouteStage
  try dsimp only
  repeat' first
    | (exact List.Subset.trans (by decide) hm)
    | intro _
    | with_reducible assumption
    | with_reducible refine State.stageCmd_keeps (List.Subset.trans (by decide) hm) ?_

theorem doTwinStatus_keeps {m : List Region} {s0 s : State} {a1} (hm : [Region.flt, Region.slc, Region.wt, Region.sec, Region.mboxes] ⊆ m) (h : Keeps m s0 s) : Keeps m s0 (doTwinStatus a1 s) := by
  unfold doTwinStatus
  try dsimp only
  repeat' first
    | (exact List.Subset.trans (by decide) hm)
    | intro _
    | with_reducible assumption
    | (with_reducible apply State.agtan_keeps)
    | with_reducible refine State.respond_keeps (List.Subset.trans (by decide) hm) ?_

theorem doDirRead_keeps {m : List Region} {s0 s : State} {a1} (hm : [Region.flt, Region.slc, Region.wt, Region.sec, Region.mboxes] ⊆ m) (h : Keeps m s0 s) : Keeps m s0 (doDirRead a1 s) := by
  unfold doDirRead
  try dsimp only
  repeat' first
    | (exact List.Subset.trans (by decide) hm)
    | intro _
    | with_reducible assumption
    | (with_reducible apply State.agtan_keeps)
    | with_reducible refine State.respond_keeps (List.Subset.trans (by decide) hm) ?_

theorem doWindowStage_keeps {m : List Region} {s0 s : State} {a1} (hm : [Region.flt, Region.ep, Region.slc, Region.wt, Region.sec, Region.mboxes] ⊆ m) (h : Keeps m s0 s) : Keeps m s0 (doWindowStage a1 s) := by
  unfold doWindowStage
  try dsimp only
  repeat' first
    | (exact List.Subset.trans (by decide) hm)
    | intro _
    | with_reducible assumption
    | with_reducible refine State.stageCmd_keeps (List.Subset.trans (by decide) hm) ?_

theorem doWindowRead_keeps {m : List Region} {s0 s : State} {a1} (hm : [Region.flt, Region.slc, Region.wt, Region.sec, Region.mboxes] ⊆ m) (h : Keeps m s0 s) : Keeps m s0 (doWindowRead a1 s) := by
  unfold doWindowRead
  try dsimp only
  repeat' first
    | (exact List.Subset.trans (by decide) hm)
    | intro _
    | with_reducible assumption
    | (with_reducible apply State.agtan_keeps)
    | with_reducible refine State.respond_keeps (List.Subset.trans (by decide) hm) ?_
    | with_reducible apply ite_keeps

theorem State.writeImage_keeps {m : List Region} {s0 s : State} (hm : [Region.ep] ⊆ m) (h : Keeps m s0 s) : Keeps m s0 (State.writeImage s) := by
  unfold State.writeImage
  try dsimp only
  repeat' first
    | intro _
    | with_reducible assumption
    | with_reducible apply ite_keeps
    | with_reducible apply foldl_keeps
    | (fail_if_no_progress (with_reducible refine mk_keeps ?_ ?_ ?_ ?_ ?_ ?_ ?_ ?_ ?_ ?_ ?_ ?_ ?_ ?_ ?_ ?_ ?_ ?_ ?_ ?_ ?_ ?_ ?_ ?_ ?_ ?_ ?_ ?_) <;> try first | (with_reducible exact Or.inl rfl) | (exact Or.inr (hm (by decide))))

theorem doWindowRevoke_keeps {m : List Region} {s0 s : State} {a1} (hm : [Region.flt, Region.cfg, Region.ep, Region.slc, Region.wt, Region.sec, Region.mboxes] ⊆ m) (h : Keeps m s0 s) : Keeps m s0 (doWindowRevoke a1 s) := by
  unfold doWindowRevoke
  try dsimp only
  repeat' first
    | intro _
    | with_reducible assumption
    | (with_reducible apply State.agtan_keeps)
    | with_reducible refine State.respond_keeps (List.Subset.trans (by decide) hm) ?_
    | with_reducible refine State.writeImage_keeps (List.Subset.trans (by decide) hm) ?_
    | with_reducible refine State.park_keeps (List.Subset.trans (by decide) hm) ?_
    | (with_reducible apply getD_keeps)
    | with_reducible apply ite_keeps
    | with_reducible apply foldl_keeps
    | (fail_if_no_progress (with_reducible refine mk_keeps ?_ ?_ ?_ ?_ ?_ ?_ ?_ ?_ ?_ ?_ ?_ ?_ ?_ ?_ ?_ ?_ ?_ ?_ ?_ ?_ ?_ ?_ ?_ ?_ ?_ ?_ ?_ ?_) <;> try first | (with_reducible exact Or.inl rfl) | (exact Or.inr (hm (by decide))))

theorem doSrcsetStage_keeps {m : List Region} {s0 s : State} {a1} (hm : [Region.flt, Region.ep, Region.slc, Region.wt, Region.sec, Region.mboxes] ⊆ m) (h : Keeps m s0 s) : Keeps m s0 (doSrcsetStage a1 s) := by
  unfold doSrcsetStage
  try dsimp only
  repeat' first
    | (exact List.Subset.trans (by decide) hm)
    | intro _
    | with_reducible assumption
    | with_reducible refine State.stageCmd_keeps (List.Subset.trans (by decide) hm) ?_

theorem doWeirStage_keeps {m : List Region} {s0 s : State} {a1} (hm : [Region.flt, Region.ep, Region.slc, Region.wt, Region.sec, Region.mboxes] ⊆ m) (h : Keeps m s0 s) : Keeps m s0 (doWeirStage a1 s) := by
  unfold doWeirStage
  try dsimp only
  repeat' first
    | intro _
    | with_reducible assumption
    | with_reducible refine State.stageCmd_keeps (List.Subset.trans (by decide) hm) ?_

theorem doShaperStage_keeps {m : List Region} {s0 s : State} {a1} (hm : [Region.flt, Region.ep, Region.slc, Region.wt, Region.sec, Region.mboxes] ⊆ m) (h : Keeps m s0 s) : Keeps m s0 (doShaperStage a1 s) := by
  unfold doShaperStage
  try dsimp only
  repeat' first
    | (exact List.Subset.trans (by decide) hm)
    | intro _
    | with_reducible assumption
    | with_reducible refine State.stageCmd_keeps (List.Subset.trans (by decide) hm) ?_

theorem doPortWeightsStage_keeps {m : List Region} {s0 s : State} {a1} (hm : [Region.flt, Region.ep, Region.slc, Region.wt, Region.sec, Region.mboxes] ⊆ m) (h : Keeps m s0 s) : Keeps m s0 (doPortWeightsStage a1 s) := by
  unfold doPortWeightsStage
  try dsimp only
  repeat' first
    | (exact List.Subset.trans (by decide) hm)
    | intro _
    | with_reducible assumption
    | with_reducible refine State.stageCmd_keeps (List.Subset.trans (by decide) hm) ?_

theorem doQueueSet_keeps {m : List Region} {s0 s : State} {a1} (hm : [Region.flt, Region.allocs, Region.slc, Region.wt, Region.sec, Region.mboxes] ⊆ m) (h : Keeps m s0 s) : Keeps m s0 (doQueueSet a1 s) := by
  unfold doQueueSet
  try dsimp only
  repeat' first
    | intro _
    | with_reducible assumption
    | (with_reducible apply State.agtan_keeps)
    | with_reducible refine State.respond_keeps (List.Subset.trans (by decide) hm) ?_
    | with_reducible refine State.updQueue_keeps (List.Subset.trans (by decide) hm) ?_
    | with_reducible refine State.addAlloc_keeps (List.Subset.trans (by decide) hm) ?_
    | with_reducible apply ite_keeps

theorem doQueueStop_keeps {m : List Region} {s0 s : State} {a1} (hm : [Region.flt, Region.slc, Region.wt, Region.sec, Region.mboxes] ⊆ m) (h : Keeps m s0 s) : Keeps m s0 (doQueueStop a1 s) := by
  unfold doQueueStop
  try dsimp only
  repeat' first
    | (exact List.Subset.trans (by decide) hm)
    | intro _
    | with_reducible assumption
    | (with_reducible apply State.agtan_keeps)
    | with_reducible refine State.park_keeps (List.Subset.trans (by decide) hm) ?_
    | with_reducible refine State.updQueue_keeps (List.Subset.trans (by decide) hm) ?_
    | with_reducible refine State.respond_keeps (List.Subset.trans (by decide) hm) ?_
    | with_reducible apply ite_keeps

theorem doQueueRead_keeps {m : List Region} {s0 s : State} {a1} (hm : [Region.flt, Region.slc, Region.wt, Region.sec, Region.mboxes] ⊆ m) (h : Keeps m s0 s) : Keeps m s0 (doQueueRead a1 s) := by
  unfold doQueueRead
  try dsimp only
  repeat' first
    | (exact List.Subset.trans (by decide) hm)
    | intro _
    | with_reducible assumption
    | (with_reducible apply State.agtan_keeps)
    | with_reducible refine State.respond_keeps (List.Subset.trans (by decide) hm) ?_
    | with_reducible apply ite_keeps

theorem doSessionOpen_keeps {m : List Region} {s0 s : State} {a1} (hm : [Region.draws, Region.flt, Region.mem, Region.side, Region.allocs, Region.badGrains, Region.sessions, Region.parts, Region.slc, Region.wt, Region.sec, Region.mboxes, Region.twin] ⊆ m) (h : Keeps m s0 s) : Keeps m s0 (doSessionOpen a1 s) := by
  unfold doSessionOpen
  try dsimp only
  repeat' first
    | (exact List.Subset.trans (by decide) hm)
    | intro _
    | with_reducible assumption
    | (with_reducible apply State.agtan_keeps)
    | with_reducible refine State.respond_keeps (List.Subset.trans (by decide) hm) ?_
    | with_reducible refine State.forwardCmd_keeps (List.Subset.trans (by decide) hm) ?_
    | (with_reducible apply State.asWriter_keeps)
    | (refine State.openNow_keeps (List.Subset.trans (by decide) hm) ?_ _ (by with_reducible assumption))
    | (with_reducible refine State.openNow_keeps (List.Subset.trans (by decide) hm) ?_ _ rfl)
    | with_reducible refine State.commitChange_keeps (List.Subset.trans (by decide) hm) ?_
    | (exact State.respond_keeps (List.Subset.trans (by decide) hm) h)
    | with_reducible apply ite_keeps
    | with_reducible apply foldl_keeps
    | (fail_if_no_progress (with_reducible refine mk_keeps ?_ ?_ ?_ ?_ ?_ ?_ ?_ ?_ ?_ ?_ ?_ ?_ ?_ ?_ ?_ ?_ ?_ ?_ ?_ ?_ ?_ ?_ ?_ ?_ ?_ ?_ ?_ ?_) <;> try first | (with_reducible exact Or.inl rfl) | (exact Or.inr (hm (by decide))))
    | split

theorem doSessionClose_keeps {m : List Region} {s0 s : State} {a1} (hm : [Region.flt, Region.mem, Region.side, Region.allocs, Region.badGrains, Region.sessions, Region.parts, Region.slc, Region.wt, Region.sec, Region.mboxes, Region.twin] ⊆ m) (h : Keeps m s0 s) : Keeps m s0 (doSessionClose a1 s) := by
  unfold doSessionClose
  try dsimp only
  repeat' first
    | (exact List.Subset.trans (by decide) hm)
    | intro _
    | with_reducible assumption
    | (with_reducible apply State.agtan_keeps)
    | (with_reducible apply State.asWriter_keeps)
    | with_reducible refine State.respond_keeps (List.Subset.trans (by decide) hm) ?_
    | with_reducible refine State.abandonSession_keeps (List.Subset.trans (by decide) hm) ?_
    | with_reducible refine State.putSession_keeps (List.Subset.trans (by decide) hm) ?_
    | with_reducible refine State.commitChange_keeps (List.Subset.trans (by decide) hm) ?_
    | (exact State.respond_keeps (List.Subset.trans (by decide) hm) h)
    | with_reducible apply ite_keeps
    | with_reducible apply foldl_keeps
    | (fail_if_no_progress (with_reducible refine mk_keeps ?_ ?_ ?_ ?_ ?_ ?_ ?_ ?_ ?_ ?_ ?_ ?_ ?_ ?_ ?_ ?_ ?_ ?_ ?_ ?_ ?_ ?_ ?_ ?_ ?_ ?_ ?_ ?_) <;> try first | (with_reducible exact Or.inl rfl) | (exact Or.inr (hm (by decide))))
    | split

theorem doSessionRead_keeps {m : List Region} {s0 s : State} {a1} (hm : [Region.flt, Region.slc, Region.wt, Region.sec, Region.mboxes] ⊆ m) (h : Keeps m s0 s) : Keeps m s0 (doSessionRead a1 s) := by
  unfold doSessionRead
  try dsimp only
  repeat' first
    | (exact List.Subset.trans (by decide) hm)
    | intro _
    | with_reducible assumption
    | (with_reducible apply State.agtan_keeps)
    | with_reducible refine State.respond_keeps (List.Subset.trans (by decide) hm) ?_
    | with_reducible apply ite_keeps
    | with_reducible apply foldl_keeps
    | (fail_if_no_progress (with_reducible refine mk_keeps ?_ ?_ ?_ ?_ ?_ ?_ ?_ ?_ ?_ ?_ ?_ ?_ ?_ ?_ ?_ ?_ ?_ ?_ ?_ ?_ ?_ ?_ ?_ ?_ ?_ ?_ ?_ ?_) <;> try first | (with_reducible exact Or.inl rfl) | (exact Or.inr (hm (by decide))))
    | split

theorem doBaseBegin_keeps {m : List Region} {s0 s : State} {a1} (hm : [Region.draws, Region.flt, Region.parts, Region.slc, Region.wt, Region.sec, Region.mboxes, Region.twin] ⊆ m) (h : Keeps m s0 s) : Keeps m s0 (doBaseBegin a1 s) := by
  unfold doBaseBegin
  try dsimp only
  repeat' first
    | (exact List.Subset.trans (by decide) hm)
    | intro _
    | with_reducible assumption
    | (with_reducible apply State.agtan_keeps)
    | (with_reducible apply State.asWriter_keeps)
    | with_reducible refine State.respond_keeps (List.Subset.trans (by decide) hm) ?_
    | (refine State.draw_keeps (List.Subset.trans (by decide) hm) ?_ _ _ (by with_reducible assumption))
    | (with_reducible refine State.draw_keeps (List.Subset.trans (by decide) hm) ?_ _ _ rfl)
    | with_reducible refine State.updPart_keeps (List.Subset.trans (by decide) hm) ?_
    | (exact State.respond_keeps (List.Subset.trans (by decide) hm) h)
    | with_reducible apply ite_keeps
    | with_reducible apply foldl_keeps
    | (fail_if_no_progress (with_reducible refine mk_keeps ?_ ?_ ?_ ?_ ?_ ?_ ?_ ?_ ?_ ?_ ?_ ?_ ?_ ?_ ?_ ?_ ?_ ?_ ?_ ?_ ?_ ?_ ?_ ?_ ?_ ?_ ?_ ?_) <;> try first | (with_reducible exact Or.inl rfl) | (exact Or.inr (hm (by decide))))
    | split

theorem doBaseEnd_keeps {m : List Region} {s0 s : State} {a1} (hm : [Region.flt, Region.parts, Region.slc, Region.wt, Region.sec, Region.mboxes, Region.twin] ⊆ m) (h : Keeps m s0 s) : Keeps m s0 (doBaseEnd a1 s) := by
  unfold doBaseEnd
  try dsimp only
  repeat' first
    | (exact List.Subset.trans (by decide) hm)
    | intro _
    | with_reducible assumption
    | (with_reducible apply State.agtan_keeps)
    | (with_reducible apply State.asWriter_keeps)
    | with_reducible refine State.respond_keeps (List.Subset.trans (by decide) hm) ?_
    | with_reducible refine State.updBase_keeps (List.Subset.trans (by decide) hm) ?_
    | (exact State.respond_keeps (List.Subset.trans (by decide) hm) h)
    | with_reducible apply ite_keeps
    | with_reducible apply foldl_keeps
    | (fail_if_no_progress (with_reducible refine mk_keeps ?_ ?_ ?_ ?_ ?_ ?_ ?_ ?_ ?_ ?_ ?_ ?_ ?_ ?_ ?_ ?_ ?_ ?_ ?_ ?_ ?_ ?_ ?_ ?_ ?_ ?_ ?_ ?_) <;> try first | (with_reducible exact Or.inl rfl) | (exact Or.inr (hm (by decide))))
    | split

theorem doBaseUnload_keeps {m : List Region} {s0 s : State} {a1} (hm : [Region.flt, Region.allocs, Region.parts, Region.slc, Region.wt, Region.sec, Region.mboxes, Region.twin] ⊆ m) (h : Keeps m s0 s) : Keeps m s0 (doBaseUnload a1 s) := by
  unfold doBaseUnload
  try dsimp only
  repeat' first
    | (exact List.Subset.trans (by decide) hm)
    | intro _
    | with_reducible assumption
    | (with_reducible apply State.agtan_keeps)
    | (with_reducible apply State.asWriter_keeps)
    | with_reducible refine State.respond_keeps (List.Subset.trans (by decide) hm) ?_
    | with_reducible refine State.noteUnload_keeps (List.Subset.trans (by decide) hm) ?_
    | with_reducible refine State.dropBase_keeps (List.Subset.trans (by decide) hm) ?_
    | with_reducible refine State.commitChange_keeps (List.Subset.trans (by decide) hm) ?_
    | (exact State.respond_keeps (List.Subset.trans (by decide) hm) h)
    | with_reducible apply ite_keeps

theorem doPostabLoad_keeps {m : List Region} {s0 s : State} {a1} (hm : [Region.draws, Region.flt, Region.mem, Region.side, Region.allocs, Region.badGrains, Region.sessions, Region.parts, Region.slc, Region.wt, Region.sec, Region.mboxes, Region.twin] ⊆ m) (h : Keeps m s0 s) :
    Keeps m s0 (doPostabLoad a1 s) := by
  have hr : ∀ {u : State} {a b c d}, Keeps m s0 u → Keeps m s0 (u.respond a b c d) := fun hu =>
    State.respond_keeps (List.Subset.trans (by decide) hm) hu
  unfold doPostabLoad
  refine State.agtan_keeps (State.asWriter_keeps (List.Subset.trans (by decide) hm) ?_ h) (hr h) h
  dsimp only
  refine ite_keeps (hr h) ?_
  split
  · exact hr (State.failCheck_keeps (List.Subset.trans (by decide) hm) h)
  · refine ite_keeps (hr h) ?_
    split
    · exact hr h
    · exact State.commitChange_keeps (List.Subset.trans (by decide) hm) (State.putTable_keeps (List.Subset.trans (by decide) hm) h _ (by assumption))

theorem doPostabUnload_keeps {m : List Region} {s0 s : State} {a1} (hm : [Region.flt, Region.allocs, Region.parts, Region.slc, Region.wt, Region.sec, Region.mboxes, Region.twin] ⊆ m) (h : Keeps m s0 s) : Keeps m s0 (doPostabUnload a1 s) := by
  unfold doPostabUnload
  try dsimp only
  repeat' first
    | (exact List.Subset.trans (by decide) hm)
    | intro _
    | with_reducible assumption
    | (with_reducible apply State.agtan_keeps)
    | (with_reducible apply State.asWriter_keeps)
    | with_reducible refine State.respond_keeps (List.Subset.trans (by decide) hm) ?_
    | with_reducible refine State.noteUnload_keeps (List.Subset.trans (by decide) hm) ?_
    | with_reducible refine State.dropTable_keeps (List.Subset.trans (by decide) hm) ?_
    | with_reducible refine State.commitChange_keeps (List.Subset.trans (by decide) hm) ?_
    | (exact State.respond_keeps (List.Subset.trans (by decide) hm) h)
    | with_reducible apply ite_keeps

theorem doProgStage_keeps {m : List Region} {s0 s : State} {a1} (hm : [Region.flt, Region.mem, Region.side, Region.badGrains, Region.sessions, Region.parts, Region.ep, Region.slc, Region.wt, Region.sec, Region.mboxes, Region.twin] ⊆ m) (h : Keeps m s0 s) : Keeps m s0 (doProgStage a1 s) := by
  unfold doProgStage
  try dsimp only
  repeat' first
    | intro _
    | with_reducible assumption
    | (with_reducible apply State.agtan_keeps)
    | with_reducible refine State.respond_keeps (List.Subset.trans (by decide) hm) ?_
    | with_reducible refine State.failCheck_keeps (List.Subset.trans (by decide) hm) ?_
    | with_reducible refine State.count_keeps (List.Subset.trans (by decide) hm) ?_
    | (refine State.stageItems_keeps (List.Subset.trans (by decide) hm) ?_ _ _ (by with_reducible assumption))
    | (with_reducible refine State.stageItems_keeps (List.Subset.trans (by decide) hm) ?_ _ _ rfl)
    | with_reducible apply ite_keeps
    | with_reducible apply foldl_keeps
    | split

theorem doStatsRead_keeps {m : List Region} {s0 s : State} {a1} (hm : [Region.flt, Region.parts, Region.slc, Region.wt, Region.sec, Region.mboxes] ⊆ m) (h : Keeps m s0 s) : Keeps m s0 (doStatsRead a1 s) := by
  unfold doStatsRead
  try dsimp only
  repeat' first
    | (exact List.Subset.trans (by decide) hm)
    | intro _
    | with_reducible assumption
    | (with_reducible apply State.agtan_keeps)
    | with_reducible refine State.respond_keeps (List.Subset.trans (by decide) hm) ?_
    | with_reducible refine State.setPart_keeps (List.Subset.trans (by decide) hm) ?_
    | with_reducible apply ite_keeps

theorem doHistRead_keeps {m : List Region} {s0 s : State} {a1} (hm : [Region.flt, Region.slc, Region.wt, Region.sec, Region.mboxes] ⊆ m) (h : Keeps m s0 s) : Keeps m s0 (doHistRead a1 s) := by
  unfold doHistRead
  try dsimp only
  repeat' first
    | (exact List.Subset.trans (by decide) hm)
    | intro _
    | with_reducible assumption
    | (with_reducible apply State.agtan_keeps)
    | with_reducible refine State.respond_keeps (List.Subset.trans (by decide) hm) ?_
    | with_reducible apply ite_keeps

theorem State.zeroGroup_keeps {m : List Region} {s0 s : State} {a1} (hm : [Region.mem, Region.side, Region.allocCtr, Region.badGrains] ⊆ m) (h : Keeps m s0 s) : Keeps m s0 (State.zeroGroup s a1) := by
  have hk := State.zeroGrains_keeps (a1 := a1 * 2 ^ 26) (a2 := 2 ^ 26) (List.Subset.trans (by decide) hm) h
  unfold State.zeroGroup
  refine ⟨fun p hp => ?_⟩
  have hp' := hk.same p hp
  cases p
  case side => exact absurd (hm (by decide)) hp
  case allocCtr => exact absurd (hm (by decide)) hp
  all_goals simpa only [Region.same] using hp'

theorem doEpochCommitTime_keeps {m : List Region} {s0 s : State} (hm : [Region.flt, Region.mem, Region.side, Region.allocs, Region.badGrains, Region.parts, Region.cfg, Region.ep, Region.slc, Region.wt, Region.sec, Region.mboxes, Region.twin] ⊆ m) (h : Keeps m s0 s) : Keeps m s0 (doEpochCommitTime s) := by
  unfold doEpochCommitTime
  try dsimp only
  repeat' first
    | intro _
    | with_reducible assumption
    | with_reducible refine State.withdraw_keeps (List.Subset.trans (by decide) hm) ?_
    | with_reducible refine State.reopen_keeps (List.Subset.trans (by decide) hm) ?_
    | with_reducible refine State.applyItems_keeps (List.Subset.trans (by decide) hm) ?_
    | with_reducible refine State.writeImage_keeps (List.Subset.trans (by decide) hm) ?_
    | with_reducible apply ite_keeps
    | with_reducible apply foldl_keeps
    | (fail_if_no_progress (with_reducible refine mk_keeps ?_ ?_ ?_ ?_ ?_ ?_ ?_ ?_ ?_ ?_ ?_ ?_ ?_ ?_ ?_ ?_ ?_ ?_ ?_ ?_ ?_ ?_ ?_ ?_ ?_ ?_ ?_ ?_) <;> try first | (with_reducible exact Or.inl rfl) | (exact Or.inr (hm (by decide))))
    | split

theorem doQueueStopped_keeps {m : List Region} {s0 s : State} {a1} (hm : [Region.flt, Region.allocs, Region.slc, Region.wt, Region.sec, Region.mboxes] ⊆ m) (h : Keeps m s0 s) : Keeps m s0 (doQueueStopped a1 s) := by
  unfold doQueueStopped
  try dsimp only
  repeat' first
    | intro _
    | with_reducible assumption
    | with_reducible refine State.freeAllocs_keeps (List.Subset.trans (by decide) hm) ?_
    | with_reducible refine State.setQueue_keeps (List.Subset.trans (by decide) hm) ?_
    | with_reducible refine State.unpark_keeps (List.Subset.trans (by decide) hm) ?_
    | with_reducible apply ite_keeps

theorem doSessionCloseRelease_keeps {m : List Region} {s0 s : State} {a1} (hm : [Region.clk, Region.flt, Region.mem, Region.side, Region.allocs, Region.badGrains, Region.sessions, Region.provs, Region.parts, Region.slc, Region.wt, Region.twin] ⊆ m) (h : Keeps m s0 s) : Keeps m s0 (doSessionCloseRelease a1 s) := by
  unfold doSessionCloseRelease
  try dsimp only
  repeat' first
    | (exact List.Subset.trans (by decide) hm)
    | intro _
    | with_reducible assumption
    | with_reducible refine State.releaseSession_keeps (List.Subset.trans (by decide) hm) ?_
    | with_reducible refine State.mirror_keeps (List.Subset.trans (by decide) hm) ?_
    | (with_reducible apply State.stampedAt_keeps)
    | with_reducible apply ite_keeps
    | with_reducible apply foldl_keeps
    | (fail_if_no_progress (with_reducible refine mk_keeps ?_ ?_ ?_ ?_ ?_ ?_ ?_ ?_ ?_ ?_ ?_ ?_ ?_ ?_ ?_ ?_ ?_ ?_ ?_ ?_ ?_ ?_ ?_ ?_ ?_ ?_ ?_ ?_) <;> try first | (with_reducible exact Or.inl rfl) | (exact Or.inr (hm (by decide))))
    | split

theorem doWindowRevokeDrained_keeps {m : List Region} {s0 s : State} {a1} (hm : [Region.flt, Region.slc, Region.wt, Region.sec, Region.mboxes] ⊆ m) (h : Keeps m s0 s) : Keeps m s0 (doWindowRevokeDrained a1 s) := by
  unfold doWindowRevokeDrained
  try dsimp only
  repeat' first
    | intro _
    | with_reducible assumption
    | with_reducible refine State.unpark_keeps (List.Subset.trans (by decide) hm) ?_
    | with_reducible apply ite_keeps
    | with_reducible apply foldl_keeps
    | (fail_if_no_progress (with_reducible refine mk_keeps ?_ ?_ ?_ ?_ ?_ ?_ ?_ ?_ ?_ ?_ ?_ ?_ ?_ ?_ ?_ ?_ ?_ ?_ ?_ ?_ ?_ ?_ ?_ ?_ ?_ ?_ ?_ ?_) <;> try first | (with_reducible exact Or.inl rfl) | (exact Or.inr (hm (by decide))))

theorem execNodeStatus_keeps {m : List Region} {s0 s : State} {a1} (hm : [Region.flt, Region.slc, Region.wt, Region.sec, Region.mboxes] ⊆ m) (h : Keeps m s0 s) : OutKeeps m s0 (execNodeStatus a1 s) := by
  unfold execNodeStatus
  repeat' first
    | (with_reducible refine run_keeps (fun _ _ => ?_) ?_)
    | intro _
    | with_reducible assumption
    | with_reducible refine doNodeStatus_keeps (List.Subset.trans (by decide) hm) ?_

theorem execFaultRead_keeps {m : List Region} {s0 s : State} {a1} (hm : [Region.flt, Region.slc, Region.wt, Region.sec, Region.mboxes] ⊆ m) (h : Keeps m s0 s) : OutKeeps m s0 (execFaultRead a1 s) := by
  unfold execFaultRead
  repeat' first
    | (with_reducible refine run_keeps (fun _ _ => ?_) ?_)
    | intro _
    | with_reducible assumption
    | with_reducible refine doFaultRead_keeps (List.Subset.trans (by decide) hm) ?_

theorem execPeerClear_keeps {m : List Region} {s0 s : State} {a1} (hm : [Region.flt, Region.slc, Region.wt, Region.sec, Region.mboxes] ⊆ m) (h : Keeps m s0 s) : OutKeeps m s0 (execPeerClear a1 s) := by
  unfold execPeerClear
  repeat' first
    | (with_reducible refine run_keeps (fun _ _ => ?_) ?_)
    | intro _
    | with_reducible assumption
    | with_reducible refine doPeerClear_keeps (List.Subset.trans (by decide) hm) ?_

theorem execCfgCommit_keeps {m : List Region} {s0 s : State} {a1} (hm : [Region.flt, Region.ep, Region.slc, Region.wt, Region.sec, Region.mboxes] ⊆ m) (h : Keeps m s0 s) : OutKeeps m s0 (execCfgCommit a1 s) := by
  unfold execCfgCommit
  repeat' first
    | (with_reducible refine run_keeps (fun _ _ => ?_) ?_)
    | intro _
    | with_reducible assumption
    | with_reducible refine doCfgCommit_keeps (List.Subset.trans (by decide) hm) ?_

theorem execCfgAbort_keeps {m : List Region} {s0 s : State} {a1} (hm : [Region.flt, Region.ep, Region.slc, Region.wt, Region.sec, Region.mboxes] ⊆ m) (h : Keeps m s0 s) : OutKeeps m s0 (execCfgAbort a1 s) := by
  unfold execCfgAbort
  repeat' first
    | (with_reducible refine run_keeps (fun _ _ => ?_) ?_)
    | intro _
    | with_reducible assumption
    | with_reducible refine doCfgAbort_keeps (List.Subset.trans (by decide) hm) ?_

theorem execCfgStatus_keeps {m : List Region} {s0 s : State} {a1} (hm : [Region.flt, Region.slc, Region.wt, Region.sec, Region.mboxes] ⊆ m) (h : Keeps m s0 s) : OutKeeps m s0 (execCfgStatus a1 s) := by
  unfold execCfgStatus
  repeat' first
    | (with_reducible refine run_keeps (fun _ _ => ?_) ?_)
    | intro _
    | with_reducible assumption
    | with_reducible refine doCfgStatus_keeps (List.Subset.trans (by decide) hm) ?_

theorem execCfgDiscard_keeps {m : List Region} {s0 s : State} {a1} (hm : [Region.flt, Region.ep, Region.slc, Region.wt, Region.sec, Region.mboxes] ⊆ m) (h : Keeps m s0 s) : OutKeeps m s0 (execCfgDiscard a1 s) := by
  unfold execCfgDiscard
  repeat' first
    | (with_reducible refine run_keeps (fun _ _ => ?_) ?_)
    | intro _
    | with_reducible assumption
    | with_reducible refine doCfgDiscard_keeps (List.Subset.trans (by decide) hm) ?_

theorem execPartMapStage_keeps {m : List Region} {s0 s : State} {a1} (hm : [Region.flt, Region.ep, Region.slc, Region.wt, Region.sec, Region.mboxes] ⊆ m) (h : Keeps m s0 s) : OutKeeps m s0 (execPartMapStage a1 s) := by
  unfold execPartMapStage
  repeat' first
    | (with_reducible refine run_keeps (fun _ _ => ?_) ?_)
    | intro _
    | with_reducible assumption
    | with_reducible refine doPartMapStage_keeps (List.Subset.trans (by decide) hm) ?_

theorem execPartCfgStage_keeps {m : List Region} {s0 s : State} {a1} (hm : [Region.flt, Region.ep, Region.slc, Region.wt, Region.sec, Region.mboxes] ⊆ m) (h : Keeps m s0 s) : OutKeeps m s0 (execPartCfgStage a1 s) := by
  unfold execPartCfgStage
  repeat' first
    | (with_reducible refine run_keeps (fun _ _ => ?_) ?_)
    | intro _
    | with_reducible assumption
    | with_reducible refine doPartCfgStage_keeps (List.Subset.trans (by decide) hm) ?_

theorem execPartStatus_keeps {m : List Region} {s0 s : State} {a1} (hm : [Region.flt, Region.slc, Region.wt, Region.sec, Region.mboxes] ⊆ m) (h : Keeps m s0 s) : OutKeeps m s0 (execPartStatus a1 s) := by
  unfold execPartStatus
  repeat' first
    | (with_reducible refine run_keeps (fun _ _ => ?_) ?_)
    | intro _
    | with_reducible assumption
    | with_reducible refine doPartStatus_keeps (List.Subset.trans (by decide) hm) ?_

theorem execLockStage_keeps {m : List Region} {s0 s : State} {a1} (hm : [Region.flt, Region.ep, Region.slc, Region.wt, Region.sec, Region.mboxes] ⊆ m) (h : Keeps m s0 s) : OutKeeps m s0 (execLockStage a1 s) := by
  unfold execLockStage
  repeat' first
    | (with_reducible refine run_keeps (fun _ _ => ?_) ?_)
    | intro _
    | with_reducible assumption
    | with_reducible refine doLockStage_keeps (List.Subset.trans (by decide) hm) ?_

theorem execAdmitWeightsStage_keeps {m : List Region} {s0 s : State} {a1} (hm : [Region.flt, Region.ep, Region.slc, Region.wt, Region.sec, Region.mboxes] ⊆ m) (h : Keeps m s0 s) : OutKeeps m s0 (execAdmitWeightsStage a1 s) := by
  unfold execAdmitWeightsStage
  repeat' first
    | (with_reducible refine run_keeps (fun _ _ => ?_) ?_)
    | intro _
    | with_reducible assumption
    | with_reducible refine doAdmitWeightsStage_keeps (List.Subset.trans (by decide) hm) ?_

theorem execNodeCfgStage_keeps {m : List Region} {s0 s : State} {a1} (hm : [Region.flt, Region.ep, Region.slc, Region.wt, Region.sec, Region.mboxes] ⊆ m) (h : Keeps m s0 s) : OutKeeps m s0 (execNodeCfgStage a1 s) := by
  unfold execNodeCfgStage
  repeat' first
    | (with_reducible refine run_keeps (fun _ _ => ?_) ?_)
    | intro _
    | with_reducible assumption
    | with_reducible refine doNodeCfgStage_keeps (List.Subset.trans (by decide) hm) ?_

theorem execTwinCfgStage_keeps {m : List Region} {s0 s : State} {a1} (hm : [Region.flt, Region.ep, Region.slc, Region.wt, Region.sec, Region.mboxes] ⊆ m) (h : Keeps m s0 s) : OutKeeps m s0 (execTwinCfgStage a1 s) := by
  unfold execTwinCfgStage
  repeat' first
    | (with_reducible refine run_keeps (fun _ _ => ?_) ?_)
    | intro _
    | with_reducible assumption
    | with_reducible refine doTwinCfgStage_keeps (List.Subset.trans (by decide) hm) ?_

theorem execRouteStage_keeps {m : List Region} {s0 s : State} {a1} (hm : [Region.flt, Region.ep, Region.slc, Region.wt, Region.sec, Region.mboxes] ⊆ m) (h : Keeps m s0 s) : OutKeeps m s0 (execRouteStage a1 s) := by
  unfold execRouteStage
  repeat' first
    | (with_reducible refine run_keeps (fun _ _ => ?_) ?_)
    | intro _
    | with_reducible assumption
    | with_reducible refine doRouteStage_keeps (List.Subset.trans (by decide) hm) ?_

theorem execTwinStatus_keeps {m : List Region} {s0 s : State} {a1} (hm : [Region.flt, Region.slc, Region.wt, Region.sec, Region.mboxes] ⊆ m) (h : Keeps m s0 s) : OutKeeps m s0 (execTwinStatus a1 s) := by
  unfold execTwinStatus
  repeat' first
    | (with_reducible refine run_keeps (fun _ _ => ?_) ?_)
    | intro _
    | with_reducible assumption
    | with_reducible refine doTwinStatus_keeps (List.Subset.trans (by decide) hm) ?_

theorem execDirRead_keeps {m : List Region} {s0 s : State} {a1} (hm : [Region.flt, Region.slc, Region.wt, Region.sec, Region.mboxes] ⊆ m) (h : Keeps m s0 s) : OutKeeps m s0 (execDirRead a1 s) := by
  unfold execDirRead
  repeat' first
    | (with_reducible refine run_keeps (fun _ _ => ?_) ?_)
    | intro _
    | with_reducible assumption
    | with_reducible refine doDirRead_keeps (List.Subset.trans (by decide) hm) ?_

theorem execWindowStage_keeps {m : List Region} {s0 s : State} {a1} (hm : [Region.flt, Region.ep, Region.slc, Region.wt, Region.sec, Region.mboxes] ⊆ m) (h : Keeps m s0 s) : OutKeeps m s0 (execWindowStage a1 s) := by
  unfold execWindowStage
  repeat' first
    | (with_reducible refine run_keeps (fun _ _ => ?_) ?_)
    | intro _
    | with_reducible assumption
    | with_reducible refine doWindowStage_keeps (List.Subset.trans (by decide) hm) ?_

theorem execWindowRead_keeps {m : List Region} {s0 s : State} {a1} (hm : [Region.flt, Region.slc, Region.wt, Region.sec, Region.mboxes] ⊆ m) (h : Keeps m s0 s) : OutKeeps m s0 (execWindowRead a1 s) := by
  unfold execWindowRead
  repeat' first
    | (with_reducible refine run_keeps (fun _ _ => ?_) ?_)
    | intro _
    | with_reducible assumption
    | with_reducible refine doWindowRead_keeps (List.Subset.trans (by decide) hm) ?_

theorem execWindowRevoke_keeps {m : List Region} {s0 s : State} {a1} (hm : [Region.flt, Region.cfg, Region.ep, Region.slc, Region.wt, Region.sec, Region.mboxes] ⊆ m) (h : Keeps m s0 s) : OutKeeps m s0 (execWindowRevoke a1 s) := by
  unfold execWindowRevoke
  repeat' first
    | (with_reducible refine run_keeps (fun _ _ => ?_) ?_)
    | intro _
    | with_reducible assumption
    | with_reducible refine doWindowRevoke_keeps (List.Subset.trans (by decide) hm) ?_

theorem execWindowRevokeDrained_keeps {m : List Region} {s0 s : State} {a1 a2} (hm : [Region.clk, Region.flt, Region.slc, Region.wt, Region.sec, Region.mboxes] ⊆ m) (h : Keeps m s0 s) : OutKeeps m s0 (execWindowRevokeDrained a1 a2 s) := by
  unfold execWindowRevokeDrained
  repeat' first
    | (with_reducible refine run_keeps (fun _ _ => ?_) ?_)
    | intro _
    | with_reducible assumption
    | with_reducible refine doWindowRevokeDrained_keeps (List.Subset.trans (by decide) hm) ?_
    | with_reducible refine State.upTo_keeps (List.Subset.trans (by decide) hm) ?_

theorem execSrcsetStage_keeps {m : List Region} {s0 s : State} {a1} (hm : [Region.flt, Region.ep, Region.slc, Region.wt, Region.sec, Region.mboxes] ⊆ m) (h : Keeps m s0 s) : OutKeeps m s0 (execSrcsetStage a1 s) := by
  unfold execSrcsetStage
  repeat' first
    | (with_reducible refine run_keeps (fun _ _ => ?_) ?_)
    | intro _
    | with_reducible assumption
    | with_reducible refine doSrcsetStage_keeps (List.Subset.trans (by decide) hm) ?_

theorem execWeirStage_keeps {m : List Region} {s0 s : State} {a1} (hm : [Region.flt, Region.ep, Region.slc, Region.wt, Region.sec, Region.mboxes] ⊆ m) (h : Keeps m s0 s) : OutKeeps m s0 (execWeirStage a1 s) := by
  unfold execWeirStage
  repeat' first
    | (with_reducible refine run_keeps (fun _ _ => ?_) ?_)
    | intro _
    | with_reducible assumption
    | with_reducible refine doWeirStage_keeps (List.Subset.trans (by decide) hm) ?_

theorem execShaperStage_keeps {m : List Region} {s0 s : State} {a1} (hm : [Region.flt, Region.ep, Region.slc, Region.wt, Region.sec, Region.mboxes] ⊆ m) (h : Keeps m s0 s) : OutKeeps m s0 (execShaperStage a1 s) := by
  unfold execShaperStage
  repeat' first
    | (with_reducible refine run_keeps (fun _ _ => ?_) ?_)
    | intro _
    | with_reducible assumption
    | with_reducible refine doShaperStage_keeps (List.Subset.trans (by decide) hm) ?_

theorem execPortWeightsStage_keeps {m : List Region} {s0 s : State} {a1} (hm : [Region.flt, Region.ep, Region.slc, Region.wt, Region.sec, Region.mboxes] ⊆ m) (h : Keeps m s0 s) : OutKeeps m s0 (execPortWeightsStage a1 s) := by
  unfold execPortWeightsStage
  repeat' first
    | (with_reducible refine run_keeps (fun _ _ => ?_) ?_)
    | intro _
    | with_reducible assumption
    | with_reducible refine doPortWeightsStage_keeps (List.Subset.trans (by decide) hm) ?_

theorem execQueueSet_keeps {m : List Region} {s0 s : State} {a1} (hm : [Region.flt, Region.allocs, Region.slc, Region.wt, Region.sec, Region.mboxes] ⊆ m) (h : Keeps m s0 s) : OutKeeps m s0 (execQueueSet a1 s) := by
  unfold execQueueSet
  repeat' first
    | (with_reducible refine run_keeps (fun _ _ => ?_) ?_)
    | intro _
    | with_reducible assumption
    | with_reducible refine doQueueSet_keeps (List.Subset.trans (by decide) hm) ?_

theorem execQueueStop_keeps {m : List Region} {s0 s : State} {a1} (hm : [Region.flt, Region.slc, Region.wt, Region.sec, Region.mboxes] ⊆ m) (h : Keeps m s0 s) : OutKeeps m s0 (execQueueStop a1 s) := by
  unfold execQueueStop
  repeat' first
    | (with_reducible refine run_keeps (fun _ _ => ?_) ?_)
    | intro _
    | with_reducible assumption
    | with_reducible refine doQueueStop_keeps (List.Subset.trans (by decide) hm) ?_

theorem execQueueStopped_keeps {m : List Region} {s0 s : State} {a1} (hm : [Region.flt, Region.allocs, Region.slc, Region.wt, Region.sec, Region.mboxes] ⊆ m) (h : Keeps m s0 s) : OutKeeps m s0 (execQueueStopped a1 s) := by
  unfold execQueueStopped
  repeat' first
    | (with_reducible refine run_keeps (fun _ _ => ?_) ?_)
    | intro _
    | with_reducible assumption
    | with_reducible refine doQueueStopped_keeps (List.Subset.trans (by decide) hm) ?_

theorem execQueueRead_keeps {m : List Region} {s0 s : State} {a1} (hm : [Region.flt, Region.slc, Region.wt, Region.sec, Region.mboxes] ⊆ m) (h : Keeps m s0 s) : OutKeeps m s0 (execQueueRead a1 s) := by
  unfold execQueueRead
  repeat' first
    | (with_reducible refine run_keeps (fun _ _ => ?_) ?_)
    | intro _
    | with_reducible assumption
    | with_reducible refine doQueueRead_keeps (List.Subset.trans (by decide) hm) ?_

theorem execSessionOpen_keeps {m : List Region} {s0 s : State} {a1} (hm : [Region.draws, Region.flt, Region.mem, Region.side, Region.allocs, Region.badGrains, Region.sessions, Region.parts, Region.slc, Region.wt, Region.sec, Region.mboxes, Region.twin] ⊆ m) (h : Keeps m s0 s) : OutKeeps m s0 (execSessionOpen a1 s) := by
  unfold execSessionOpen
  repeat' first
    | (with_reducible refine run_keeps (fun _ _ => ?_) ?_)
    | intro _
    | with_reducible assumption
    | with_reducible refine doSessionOpen_keeps (List.Subset.trans (by decide) hm) ?_

theorem execSessionClose_keeps {m : List Region} {s0 s : State} {a1} (hm : [Region.flt, Region.mem, Region.side, Region.allocs, Region.badGrains, Region.sessions, Region.parts, Region.slc, Region.wt, Region.sec, Region.mboxes, Region.twin] ⊆ m) (h : Keeps m s0 s) : OutKeeps m s0 (execSessionClose a1 s) := by
  unfold execSessionClose
  repeat' first
    | (with_reducible refine run_keeps (fun _ _ => ?_) ?_)
    | intro _
    | with_reducible assumption
    | with_reducible refine doSessionClose_keeps (List.Subset.trans (by decide) hm) ?_

theorem execSessionCloseRelease_keeps {m : List Region} {s0 s : State} {a1} (hm : [Region.clk, Region.flt, Region.mem, Region.side, Region.allocs, Region.badGrains, Region.sessions, Region.provs, Region.parts, Region.slc, Region.wt, Region.twin] ⊆ m) (h : Keeps m s0 s) : OutKeeps m s0 (execSessionCloseRelease a1 s) := by
  unfold execSessionCloseRelease
  repeat' first
    | (with_reducible refine run_keeps (fun _ _ => ?_) ?_)
    | intro _
    | with_reducible assumption
    | with_reducible refine doSessionCloseRelease_keeps (List.Subset.trans (by decide) hm) ?_

theorem execSessionRead_keeps {m : List Region} {s0 s : State} {a1} (hm : [Region.flt, Region.slc, Region.wt, Region.sec, Region.mboxes] ⊆ m) (h : Keeps m s0 s) : OutKeeps m s0 (execSessionRead a1 s) := by
  unfold execSessionRead
  repeat' first
    | (with_reducible refine run_keeps (fun _ _ => ?_) ?_)
    | intro _
    | with_reducible assumption
    | with_reducible refine doSessionRead_keeps (List.Subset.trans (by decide) hm) ?_

theorem execBaseBegin_keeps {m : List Region} {s0 s : State} {a1} (hm : [Region.draws, Region.flt, Region.parts, Region.slc, Region.wt, Region.sec, Region.mboxes, Region.twin] ⊆ m) (h : Keeps m s0 s) : OutKeeps m s0 (execBaseBegin a1 s) := by
  unfold execBaseBegin
  repeat' first
    | (with_reducible refine run_keeps (fun _ _ => ?_) ?_)
    | intro _
    | with_reducible assumption
    | with_reducible refine doBaseBegin_keeps (List.Subset.trans (by decide) hm) ?_

theorem execBaseEnd_keeps {m : List Region} {s0 s : State} {a1} (hm : [Region.flt, Region.parts, Region.slc, Region.wt, Region.sec, Region.mboxes, Region.twin] ⊆ m) (h : Keeps m s0 s) : OutKeeps m s0 (execBaseEnd a1 s) := by
  unfold execBaseEnd
  repeat' first
    | (with_reducible refine run_keeps (fun _ _ => ?_) ?_)
    | intro _
    | with_reducible assumption
    | with_reducible refine doBaseEnd_keeps (List.Subset.trans (by decide) hm) ?_

theorem execBaseUnload_keeps {m : List Region} {s0 s : State} {a1} (hm : [Region.flt, Region.allocs, Region.parts, Region.slc, Region.wt, Region.sec, Region.mboxes, Region.twin] ⊆ m) (h : Keeps m s0 s) : OutKeeps m s0 (execBaseUnload a1 s) := by
  unfold execBaseUnload
  repeat' first
    | (with_reducible refine run_keeps (fun _ _ => ?_) ?_)
    | intro _
    | with_reducible assumption
    | with_reducible refine doBaseUnload_keeps (List.Subset.trans (by decide) hm) ?_

theorem execPostabLoad_keeps {m : List Region} {s0 s : State} {a1} (hm : [Region.draws, Region.flt, Region.mem, Region.side, Region.allocs, Region.badGrains, Region.sessions, Region.parts, Region.slc, Region.wt, Region.sec, Region.mboxes, Region.twin] ⊆ m) (h : Keeps m s0 s) : OutKeeps m s0 (execPostabLoad a1 s) := by
  unfold execPostabLoad
  repeat' first
    | (with_reducible refine run_keeps (fun _ _ => ?_) ?_)
    | intro _
    | with_reducible assumption
    | with_reducible refine doPostabLoad_keeps (List.Subset.trans (by decide) hm) ?_

theorem execPostabUnload_keeps {m : List Region} {s0 s : State} {a1} (hm : [Region.flt, Region.allocs, Region.parts, Region.slc, Region.wt, Region.sec, Region.mboxes, Region.twin] ⊆ m) (h : Keeps m s0 s) : OutKeeps m s0 (execPostabUnload a1 s) := by
  unfold execPostabUnload
  repeat' first
    | (with_reducible refine run_keeps (fun _ _ => ?_) ?_)
    | intro _
    | with_reducible assumption
    | with_reducible refine doPostabUnload_keeps (List.Subset.trans (by decide) hm) ?_

theorem execProgStage_keeps {m : List Region} {s0 s : State} {a1} (hm : [Region.flt, Region.mem, Region.side, Region.badGrains, Region.sessions, Region.parts, Region.ep, Region.slc, Region.wt, Region.sec, Region.mboxes, Region.twin] ⊆ m) (h : Keeps m s0 s) : OutKeeps m s0 (execProgStage a1 s) := by
  unfold execProgStage
  repeat' first
    | (with_reducible refine run_keeps (fun _ _ => ?_) ?_)
    | intro _
    | with_reducible assumption
    | with_reducible refine doProgStage_keeps (List.Subset.trans (by decide) hm) ?_

theorem execStatsRead_keeps {m : List Region} {s0 s : State} {a1} (hm : [Region.flt, Region.parts, Region.slc, Region.wt, Region.sec, Region.mboxes] ⊆ m) (h : Keeps m s0 s) : OutKeeps m s0 (execStatsRead a1 s) := by
  unfold execStatsRead
  repeat' first
    | (with_reducible refine run_keeps (fun _ _ => ?_) ?_)
    | intro _
    | with_reducible assumption
    | with_reducible refine doStatsRead_keeps (List.Subset.trans (by decide) hm) ?_

theorem execHistRead_keeps {m : List Region} {s0 s : State} {a1} (hm : [Region.flt, Region.slc, Region.wt, Region.sec, Region.mboxes] ⊆ m) (h : Keeps m s0 s) : OutKeeps m s0 (execHistRead a1 s) := by
  unfold execHistRead
  repeat' first
    | (with_reducible refine run_keeps (fun _ _ => ?_) ?_)
    | intro _
    | with_reducible assumption
    | with_reducible refine doHistRead_keeps (List.Subset.trans (by decide) hm) ?_

theorem execEpochCommitTime_keeps {m : List Region} {s0 s : State} {a1} (hm : [Region.clk, Region.flt, Region.mem, Region.side, Region.allocs, Region.badGrains, Region.parts, Region.cfg, Region.ep, Region.slc, Region.wt, Region.sec, Region.mboxes, Region.twin] ⊆ m) (h : Keeps m s0 s) : OutKeeps m s0 (execEpochCommitTime a1 s) := by
  unfold execEpochCommitTime
  repeat' first
    | (with_reducible refine run_keeps (fun _ _ => ?_) ?_)
    | intro _
    | with_reducible assumption
    | with_reducible refine doEpochCommitTime_keeps (List.Subset.trans (by decide) hm) ?_
    | with_reducible refine State.upTo_keeps (List.Subset.trans (by decide) hm) ?_

theorem execEpochDrainEnd_keeps {m : List Region} {s0 s : State} {a1} (hm : [Region.clk, Region.ep, Region.sec] ⊆ m) (h : Keeps m s0 s) : OutKeeps m s0 (execEpochDrainEnd a1 s) := by
  unfold execEpochDrainEnd
  repeat' first
    | (with_reducible refine run_keeps (fun _ _ => ?_) ?_)
    | intro _
    | with_reducible assumption
    | with_reducible refine doEpochDrainEnd_keeps (List.Subset.trans (by decide) hm) ?_
    | with_reducible refine State.upTo_keeps (List.Subset.trans (by decide) hm) ?_

end Sys2Proof.Machine
end

