-- ==== Sys2Proof/Laws/FrameTransport.lean ====
section
/-! SUPPORT. The frames of the weir transport, the mirror and the ports.
One lemma per operation: the parts of the state outside its list stand as before. -/

namespace Sys2Proof.Machine

theorem State.acceptRx_keeps {m : List Region} {s0 s : State} {a1 a2} (hm : [Region.wt] ⊆ m) (h : Keeps m s0 s) : Keeps m s0 (State.acceptRx s a1 a2) := by
  unfold State.acceptRx
  try dsimp only
  repeat' first
    | intro _
    | with_reducible assumption
    | with_reducible refine State.setRx_keeps (List.Subset.trans (by decide) hm) ?_

theorem State.answerRepair_keeps {m : List Region} {s0 s : State} {a1} (hm : [Region.flt, Region.mem, Region.side, Region.badGrains, Region.sessions, Region.parts, Region.slc, Region.wt, Region.sec, Region.twin] ⊆ m) (h : Keeps m s0 s) : Keeps m s0 (State.answerRepair s a1) := by
  unfold State.answerRepair
  try dsimp only
  repeat' first
    | intro _
    | with_reducible assumption
    | with_reducible refine State.failCheck_keeps (List.Subset.trans (by decide) hm) ?_
    | with_reducible refine State.sendMirror_keeps (List.Subset.trans (by decide) hm) ?_
    | with_reducible refine State.failPage_keeps (List.Subset.trans (by decide) hm) ?_
    | (with_reducible apply getD_keeps)
    | with_reducible apply ite_keeps
    | with_reducible apply foldl_keeps
    | split

theorem State.applyCompletion_keeps {m : List Region} {s0 s : State} {a1} (hm : [Region.twin] ⊆ m) (h : Keeps m s0 s) : Keeps m s0 (State.applyCompletion s a1) := by
  unfold State.applyCompletion
  try dsimp only
  repeat' first
    | intro _
    | with_reducible assumption
    | with_reducible apply ite_keeps
    | with_reducible apply foldl_keeps
    | (fail_if_no_progress (with_reducible refine mk_keeps ?_ ?_ ?_ ?_ ?_ ?_ ?_ ?_ ?_ ?_ ?_ ?_ ?_ ?_ ?_ ?_ ?_ ?_ ?_ ?_ ?_ ?_ ?_ ?_ ?_ ?_ ?_ ?_) <;> try first | (with_reducible exact Or.inl rfl) | (exact Or.inr (hm (by decide))))

theorem State.applyCount_keeps {m : List Region} {s0 s : State} {a1} (hm : [Region.mem, Region.side, Region.sessions] ⊆ m) (h : Keeps m s0 s) : Keeps m s0 (State.applyCount s a1) := by
  unfold State.applyCount
  try dsimp only
  repeat' first
    | intro _
    | with_reducible assumption
    | with_reducible refine State.setCount_keeps (List.Subset.trans (by decide) hm) ?_
    | with_reducible apply ite_keeps
    | with_reducible apply foldl_keeps
    | (fail_if_no_progress (with_reducible refine mk_keeps ?_ ?_ ?_ ?_ ?_ ?_ ?_ ?_ ?_ ?_ ?_ ?_ ?_ ?_ ?_ ?_ ?_ ?_ ?_ ?_ ?_ ?_ ?_ ?_ ?_ ?_ ?_ ?_) <;> try first | (with_reducible exact Or.inl rfl) | (exact Or.inr (hm (by decide))))
    | split

theorem State.mirrorBad_keeps {m : List Region} {s0 s : State} {a1 a2} (hm : [Region.flt] ⊆ m) (h : Keeps m s0 s) : Keeps m s0 (State.mirrorBad s a1 a2) := by
  unfold State.mirrorBad
  try dsimp only
  repeat' first
    | intro _
    | with_reducible assumption
    | with_reducible refine State.count_keeps (List.Subset.trans (by decide) hm) ?_
    | with_reducible refine State.fault_keeps (List.Subset.trans (by decide) hm) ?_

theorem State.applyGrains_keeps {m : List Region} {s0 s : State} {a1} (hm : [Region.flt, Region.mem, Region.side, Region.badGrains, Region.slc, Region.wt, Region.sec, Region.twin] ⊆ m) (h : Keeps m s0 s) : Keeps m s0 (State.applyGrains s a1) := by
  unfold State.applyGrains
  try dsimp only
  repeat' first
    | (exact List.Subset.trans (by decide) hm)
    | intro _
    | with_reducible assumption
    | (with_reducible apply State.each_keeps)
    | with_reducible refine State.clearGrain_keeps (List.Subset.trans (by decide) hm) ?_
    | with_reducible refine State.putGrain_keeps (List.Subset.trans (by decide) hm) ?_
    | with_reducible refine State.mirrorBad_keeps (List.Subset.trans (by decide) hm) ?_
    | with_reducible refine State.containGrain_keeps (List.Subset.trans (by decide) hm) ?_
    | with_reducible apply ite_keeps
    | with_reducible apply foldl_keeps
    | (fail_if_no_progress (with_reducible refine mk_keeps ?_ ?_ ?_ ?_ ?_ ?_ ?_ ?_ ?_ ?_ ?_ ?_ ?_ ?_ ?_ ?_ ?_ ?_ ?_ ?_ ?_ ?_ ?_ ?_ ?_ ?_ ?_ ?_) <;> try first | (with_reducible exact Or.inl rfl) | (exact Or.inr (hm (by decide))))

theorem State.growBase_keeps {m : List Region} {s0 s : State} {a1 a2} (hm : [Region.parts] ⊆ m) (h : Keeps m s0 s) : Keeps m s0 (State.growBase s a1 a2) := by
  unfold State.growBase
  try dsimp only
  repeat' first
    | intro _
    | with_reducible assumption
    | with_reducible refine State.updPart_keeps (List.Subset.trans (by decide) hm) ?_

theorem State.repaired_keeps {m : List Region} {s0 s : State} {a1} (hm : [Region.twin] ⊆ m) (h : Keeps m s0 s) : Keeps m s0 (State.repaired s a1) := by
  unfold State.repaired
  try dsimp only
  repeat' first
    | intro _
    | with_reducible assumption
    | with_reducible apply ite_keeps
    | with_reducible apply foldl_keeps
    | (fail_if_no_progress (with_reducible refine mk_keeps ?_ ?_ ?_ ?_ ?_ ?_ ?_ ?_ ?_ ?_ ?_ ?_ ?_ ?_ ?_ ?_ ?_ ?_ ?_ ?_ ?_ ?_ ?_ ?_ ?_ ?_ ?_ ?_) <;> try first | (with_reducible exact Or.inl rfl) | (exact Or.inr (hm (by decide))))

theorem State.judgePage_keeps {m : List Region} {s0 s : State} {a1 a2 a3} (hm : [Region.flt, Region.mem, Region.side, Region.badGrains, Region.sessions, Region.parts, Region.slc, Region.wt, Region.sec, Region.twin] ⊆ m) (h : Keeps m s0 s) : Keeps m s0 (State.judgePage s a1 a2 a3) := by
  unfold State.judgePage
  try dsimp only
  repeat' first
    | intro _
    | with_reducible assumption
    | with_reducible refine State.containPage_keeps (List.Subset.trans (by decide) hm) ?_
    | with_reducible refine State.mirrorBad_keeps (List.Subset.trans (by decide) hm) ?_
    | with_reducible refine State.failPage_keeps (List.Subset.trans (by decide) hm) ?_
    | with_reducible refine State.repaired_keeps (List.Subset.trans (by decide) hm) ?_
    | with_reducible apply ite_keeps
    | with_reducible apply foldl_keeps
    | split

theorem State.storePage_keeps {m : List Region} {s0 s : State} {a1 a2 a3 a4} (hm : [Region.draws, Region.flt, Region.mem, Region.side, Region.allocCtr, Region.allocs, Region.badGrains, Region.sessions, Region.parts, Region.slc, Region.wt, Region.sec, Region.twin] ⊆ m) (h : Keeps m s0 s) : ∀ t, (State.storePage s a1 a2 a3 a4) = some t → Keeps m s0 t := by
  intro t he
  unfold State.storePage at he
  try dsimp only at he
  repeat' first
    | (cases he; done)
    | split at he
    | contradiction
    | cases he
    | intro _
    | with_reducible assumption
    | with_reducible refine State.abandonMigr_keeps (List.Subset.trans (by decide) hm) ?_
    | with_reducible refine State.putRun_keeps (List.Subset.trans (by decide) hm) ?_
    | with_reducible refine State.judgePage_keeps (List.Subset.trans (by decide) hm) ?_
    | with_reducible refine State.putPage_keeps (List.Subset.trans (by decide) hm) ?_
    | with_reducible refine State.updPage_keeps (List.Subset.trans (by decide) hm) ?_
    | (refine State.allocRun_keeps (List.Subset.trans (by decide) hm) ?_ _ _ _ (by with_reducible assumption))
    | (with_reducible refine State.allocRun_keeps (List.Subset.trans (by decide) hm) ?_ _ _ _ rfl)
    | with_reducible apply ite_keeps
    | with_reducible apply foldl_keeps
    | (fail_if_no_progress (with_reducible refine mk_keeps ?_ ?_ ?_ ?_ ?_ ?_ ?_ ?_ ?_ ?_ ?_ ?_ ?_ ?_ ?_ ?_ ?_ ?_ ?_ ?_ ?_ ?_ ?_ ?_ ?_ ?_ ?_ ?_) <;> try first | (with_reducible exact Or.inl rfl) | (exact Or.inr (hm (by decide))))
    | split

theorem State.applyPage_keeps {m : List Region} {s0 s : State} {a1} (hm : [Region.draws, Region.flt, Region.mem, Region.side, Region.allocCtr, Region.allocs, Region.badGrains, Region.sessions, Region.parts, Region.slc, Region.wt, Region.sec, Region.twin] ⊆ m) (h : Keeps m s0 s) : ∀ t, s.applyPage a1 = some t → Keeps m s0 t := by
  intro t he
  unfold State.applyPage at he
  dsimp only at he
  split at he
  · cases he; exact h
  · split at he
    · exact (State.storePage_keeps (List.Subset.trans (by decide) hm)) ((State.growBase_keeps (List.Subset.trans (by decide) hm)) h) _ he
    · split at he
      · cases he; exact h
      · split at he
        · cases he; exact h
        · split at he
          · cases he
          · obtain ⟨v, -, hv⟩ := Option.bind_eq_some_iff.1 he
            exact (State.storePage_keeps (List.Subset.trans (by decide) hm)) ((State.needList_keeps (List.Subset.trans (by decide) hm)) h _ (by assumption)) _ hv

theorem State.applyProv_keeps {m : List Region} {s0 s : State} {a1} (hm : [Region.mem, Region.side, Region.sessions, Region.provs, Region.parts] ⊆ m) (h : Keeps m s0 s) : ∀ t, (State.applyProv s a1) = some t → Keeps m s0 (t) := by
  intro t he
  unfold State.applyProv at he
  dsimp only at he
  split at he
  · cases he; exact h
  · split at he
    · cases he; exact h
    · obtain ⟨u, hu, hv⟩ := Option.map_eq_some_iff.1 he
      have hk := (State.takeSram_keeps (List.Subset.trans (by decide) hm)) ((State.dropProvs_keeps (List.Subset.trans (by decide) hm)) h) _ hu
      cases hv
      fail_if_no_progress (with_reducible refine mk_keeps ?_ ?_ ?_ ?_ ?_ ?_ ?_ ?_ ?_ ?_ ?_ ?_ ?_ ?_ ?_ ?_ ?_ ?_ ?_ ?_ ?_ ?_ ?_ ?_ ?_ ?_ ?_ ?_) <;> try first | (with_reducible exact Or.inl rfl) | (exact Or.inr (hm (by decide)))
      exact hk

theorem State.applyTokens_keeps {m : List Region} {s0 s : State} {a1} (hm : [Region.draws, Region.flt, Region.mem, Region.side, Region.allocCtr, Region.allocs, Region.badGrains, Region.sessions, Region.parts, Region.slc, Region.wt, Region.sec, Region.twin] ⊆ m) (h : Keeps m s0 s) : ∀ t, (State.applyTokens s a1) = some t → Keeps m s0 t := by
  intro t he
  unfold State.applyTokens at he
  try dsimp only at he
  repeat' first
    | (cases he; done)
    | split at he
    | contradiction
    | cases he
    | intro _
    | with_reducible assumption
    | with_reducible refine State.freeAllocs_keeps (List.Subset.trans (by decide) hm) ?_
    | with_reducible refine State.updSession_keeps (List.Subset.trans (by decide) hm) ?_
    | (refine State.takeSram_keeps (List.Subset.trans (by decide) hm) ?_ _ (by with_reducible assumption))
    | (with_reducible refine State.takeSram_keeps (List.Subset.trans (by decide) hm) ?_ _ rfl)
    | (refine State.addAll_keeps (List.Subset.trans (by decide) hm) ?_ _ (by with_reducible assumption))
    | (with_reducible refine State.addAll_keeps (List.Subset.trans (by decide) hm) ?_ _ rfl)
    | with_reducible refine State.updPart_keeps (List.Subset.trans (by decide) hm) ?_
    | with_reducible refine State.setCount_keeps (List.Subset.trans (by decide) hm) ?_
    | (refine State.refuseApply_keeps (List.Subset.trans (by decide) hm) ?_ _ _ (by with_reducible assumption))
    | (with_reducible refine State.refuseApply_keeps (List.Subset.trans (by decide) hm) ?_ _ _ rfl)
    | with_reducible apply ite_keeps

theorem State.applySession_keeps {m : List Region} {s0 s : State} {a1} (hm : [Region.draws, Region.mem, Region.side, Region.allocs, Region.badGrains, Region.sessions, Region.provs, Region.parts] ⊆ m) (h : Keeps m s0 s) : ∀ t, (State.applySession s a1) = some t → Keeps m s0 t := by
  intro t he
  unfold State.applySession at he
  try dsimp only at he
  repeat' first
    | (cases he; done)
    | split at he
    | contradiction
    | cases he
    | intro _
    | with_reducible assumption
    | with_reducible refine State.putSession_keeps (List.Subset.trans (by decide) hm) ?_
    | with_reducible refine State.abandonSession_keeps (List.Subset.trans (by decide) hm) ?_
    | with_reducible refine State.releaseSession_keeps (List.Subset.trans (by decide) hm) ?_
    | (refine State.allocGrains_keeps (List.Subset.trans (by decide) hm) ?_ _ _ (by with_reducible assumption))
    | (with_reducible refine State.allocGrains_keeps (List.Subset.trans (by decide) hm) ?_ _ _ rfl)
    | with_reducible apply ite_keeps

theorem State.applyTable_keeps {m : List Region} {s0 s : State} {a1} (hm : [Region.draws, Region.mem, Region.side, Region.allocs, Region.parts] ⊆ m) (h : Keeps m s0 s) : ∀ t, (State.applyTable s a1) = some t → Keeps m s0 t := by
  intro t he
  unfold State.applyTable at he
  try dsimp only at he
  repeat' first
    | (cases he; done)
    | split at he
    | contradiction
    | cases he
    | intro _
    | with_reducible assumption
    | (refine State.putTable_keeps (List.Subset.trans (by decide) hm) ?_ _ (by with_reducible assumption))
    | (with_reducible refine State.putTable_keeps (List.Subset.trans (by decide) hm) ?_ _ rfl)
    | with_reducible refine State.dropTable_keeps (List.Subset.trans (by decide) hm) ?_

theorem State.applyUnload_keeps {m : List Region} {s0 s : State} {a1} (hm : [Region.allocs, Region.parts, Region.twin] ⊆ m) (h : Keeps m s0 s) : Keeps m s0 (State.applyUnload s a1) := by
  unfold State.applyUnload
  try dsimp only
  repeat' first
    | intro _
    | with_reducible assumption
    | with_reducible refine State.noteUnload_keeps (List.Subset.trans (by decide) hm) ?_
    | with_reducible refine State.dropTable_keeps (List.Subset.trans (by decide) hm) ?_
    | with_reducible refine State.dropBase_keeps (List.Subset.trans (by decide) hm) ?_
    | with_reducible apply ite_keeps
    | with_reducible apply foldl_keeps
    | (fail_if_no_progress (with_reducible refine mk_keeps ?_ ?_ ?_ ?_ ?_ ?_ ?_ ?_ ?_ ?_ ?_ ?_ ?_ ?_ ?_ ?_ ?_ ?_ ?_ ?_ ?_ ?_ ?_ ?_ ?_ ?_ ?_ ?_) <;> try first | (with_reducible exact Or.inl rfl) | (exact Or.inr (hm (by decide))))
    | split

theorem State.applyRetire_keeps {m : List Region} {s0 s : State} {a1} (hm : [Region.twin] ⊆ m) (h : Keeps m s0 s) : Keeps m s0 (State.applyRetire s a1) := by
  unfold State.applyRetire
  try dsimp only
  repeat' first
    | intro _
    | with_reducible assumption
    | with_reducible apply ite_keeps
    | with_reducible apply foldl_keeps
    | (fail_if_no_progress (with_reducible refine mk_keeps ?_ ?_ ?_ ?_ ?_ ?_ ?_ ?_ ?_ ?_ ?_ ?_ ?_ ?_ ?_ ?_ ?_ ?_ ?_ ?_ ?_ ?_ ?_ ?_ ?_ ?_ ?_ ?_) <;> try first | (with_reducible exact Or.inl rfl) | (exact Or.inr (hm (by decide))))

theorem State.applyRec_keeps {m : List Region} {s0 s : State} {a1} (hm : [Region.draws, Region.flt, Region.mem, Region.side, Region.allocCtr, Region.allocs, Region.badGrains, Region.sessions, Region.provs, Region.parts, Region.slc, Region.wt, Region.sec, Region.twin] ⊆ m) (h : Keeps m s0 s) : ∀ t, (State.applyRec s a1) = some t → Keeps m s0 t := by
  intro t he
  unfold State.applyRec at he
  try dsimp only at he
  repeat' first
    | (cases he; done)
    | split at he
    | contradiction
    | cases he
    | intro _
    | with_reducible assumption
    | (refine State.applyPage_keeps (List.Subset.trans (by decide) hm) ?_ _ (by with_reducible assumption))
    | (with_reducible refine State.applyPage_keeps (List.Subset.trans (by decide) hm) ?_ _ rfl)
    | (refine State.applyTokens_keeps (List.Subset.trans (by decide) hm) ?_ _ (by with_reducible assumption))
    | (with_reducible refine State.applyTokens_keeps (List.Subset.trans (by decide) hm) ?_ _ rfl)
    | with_reducible refine State.applyCount_keeps (List.Subset.trans (by decide) hm) ?_
    | (refine State.applySession_keeps (List.Subset.trans (by decide) hm) ?_ _ (by with_reducible assumption))
    | (with_reducible refine State.applySession_keeps (List.Subset.trans (by decide) hm) ?_ _ rfl)
    | (refine State.applyProv_keeps (List.Subset.trans (by decide) hm) ?_ _ (by with_reducible assumption))
    | (with_reducible refine State.applyProv_keeps (List.Subset.trans (by decide) hm) ?_ _ rfl)
    | with_reducible refine State.applyGrains_keeps (List.Subset.trans (by decide) hm) ?_
    | (refine State.applyTable_keeps (List.Subset.trans (by decide) hm) ?_ _ (by with_reducible assumption))
    | (with_reducible refine State.applyTable_keeps (List.Subset.trans (by decide) hm) ?_ _ rfl)
    | with_reducible refine State.applyUnload_keeps (List.Subset.trans (by decide) hm) ?_
    | with_reducible refine State.applyCompletion_keeps (List.Subset.trans (by decide) hm) ?_
    | with_reducible refine State.applyRetire_keeps (List.Subset.trans (by decide) hm) ?_
    | with_reducible refine State.answerRepair_keeps (List.Subset.trans (by decide) hm) ?_

theorem State.applyStamped_keeps {m : List Region} {s0 s : State} {a1} (hm : [Region.draws, Region.clk, Region.flt, Region.mem, Region.side, Region.allocCtr, Region.allocs, Region.badGrains, Region.sessions, Region.provs, Region.parts, Region.slc, Region.wt, Region.sec, Region.twin] ⊆ m) (h : Keeps m s0 s) :
    ∀ t, s.applyStamped a1 = some t → Keeps m s0 t := by
  intro t he
  unfold State.applyStamped at he
  dsimp only at he
  obtain ⟨u, hu, hv⟩ := Option.map_eq_some_iff.1 he
  cases hv
  fail_if_no_progress (with_reducible refine mk_keeps ?_ ?_ ?_ ?_ ?_ ?_ ?_ ?_ ?_ ?_ ?_ ?_ ?_ ?_ ?_ ?_ ?_ ?_ ?_ ?_ ?_ ?_ ?_ ?_ ?_ ?_ ?_ ?_) <;> try first | (with_reducible exact Or.inl rfl) | (exact Or.inr (hm (by decide)))
  split at hu
  · exact State.applyRec_keeps (List.Subset.trans (by decide) hm) h _ hu
  · obtain ⟨w, hw, hx⟩ := Option.map_eq_some_iff.1 hu
    cases hx
    have h1 : Keeps m s0 { s with clk := { s.clk with ftime := a1.stamp } } := by
      fail_if_no_progress (with_reducible refine mk_keeps ?_ ?_ ?_ ?_ ?_ ?_ ?_ ?_ ?_ ?_ ?_ ?_ ?_ ?_ ?_ ?_ ?_ ?_ ?_ ?_ ?_ ?_ ?_ ?_ ?_ ?_ ?_ ?_) <;> try first | (with_reducible exact Or.inl rfl) | (exact Or.inr (hm (by decide)))
      exact h
    have h2 := State.applyRec_keeps (List.Subset.trans (by decide) hm) h1 _ hw
    fail_if_no_progress (with_reducible refine mk_keeps ?_ ?_ ?_ ?_ ?_ ?_ ?_ ?_ ?_ ?_ ?_ ?_ ?_ ?_ ?_ ?_ ?_ ?_ ?_ ?_ ?_ ?_ ?_ ?_ ?_ ?_ ?_ ?_) <;> try first | (with_reducible exact Or.inl rfl) | (exact Or.inr (hm (by decide)))
    exact h2

theorem State.authFailed_keeps {m : List Region} {s0 s : State} {a1} (hm : [Region.flt, Region.wt] ⊆ m) (h : Keeps m s0 s) : Keeps m s0 (State.authFailed s a1) := by
  unfold State.authFailed
  try dsimp only
  repeat' first
    | intro _
    | with_reducible assumption
    | with_reducible refine State.count_keeps (List.Subset.trans (by decide) hm) ?_
    | with_reducible refine State.setRx_keeps (List.Subset.trans (by decide) hm) ?_
    | with_reducible apply ite_keeps

theorem State.nakSyncDue_keeps {m : List Region} {s0 s : State} {a1} (hm : [Region.wt] ⊆ m) (h : Keeps m s0 s) : Keeps m s0 (State.nakSyncDue s a1) := by
  unfold State.nakSyncDue
  try dsimp only
  repeat' first
    | intro _
    | with_reducible assumption
    | with_reducible refine State.setRx_keeps (List.Subset.trans (by decide) hm) ?_
    | with_reducible apply ite_keeps

theorem State.authenticate_keeps {m : List Region} {s0 s : State} {a1} (hm : [Region.flt, Region.wt, Region.twin] ⊆ m) (h : Keeps m s0 s) : ∀ t x, (State.authenticate s a1) = (t, x) → Keeps m s0 t := by
  intro t x he
  unfold State.authenticate at he
  try dsimp only at he
  repeat' first
    | (cases he; done)
    | split at he
    | contradiction
    | cases he
    | intro _
    | with_reducible assumption
    | with_reducible refine State.nakSyncDue_keeps (List.Subset.trans (by decide) hm) ?_
    | with_reducible refine State.count_keeps (List.Subset.trans (by decide) hm) ?_
    | with_reducible refine State.authFailed_keeps (List.Subset.trans (by decide) hm) ?_
    | with_reducible refine State.clearUnreachable_keeps (List.Subset.trans (by decide) hm) ?_
    | with_reducible apply ite_keeps
    | with_reducible apply foldl_keeps
    | (fail_if_no_progress (with_reducible refine mk_keeps ?_ ?_ ?_ ?_ ?_ ?_ ?_ ?_ ?_ ?_ ?_ ?_ ?_ ?_ ?_ ?_ ?_ ?_ ?_ ?_ ?_ ?_ ?_ ?_ ?_ ?_ ?_ ?_) <;> try first | (with_reducible exact Or.inl rfl) | (exact Or.inr (hm (by decide))))

theorem State.dropOpen_keeps {m : List Region} {s0 s : State} {a1 a2} (hm : [Region.slc, Region.wt] ⊆ m) (h : Keeps m s0 s) : Keeps m s0 (State.dropOpen s a1 a2) := by
  unfold State.dropOpen
  try dsimp only
  repeat' first
    | intro _
    | with_reducible assumption
    | with_reducible refine State.setRx_keeps (List.Subset.trans (by decide) hm) ?_
    | with_reducible refine State.freeRing_keeps (List.Subset.trans (by decide) hm) ?_
    | with_reducible apply ite_keeps
    | with_reducible apply foldl_keeps
    | split

theorem State.claimRing_keeps {m : List Region} {s0 s : State} {a1} (hm : [Region.slc] ⊆ m) (h : Keeps m s0 s) : ∀ x t, (State.claimRing s a1) = (x, t) → Keeps m s0 t := by
  intro x t he
  unfold State.claimRing at he
  try dsimp only at he
  repeat' first
    | (cases he; done)
    | split at he
    | contradiction
    | cases he
    | intro _
    | with_reducible assumption
    | with_reducible refine State.setQueue_keeps (List.Subset.trans (by decide) hm) ?_

theorem State.copyRun_keeps {m : List Region} {s0 s : State} {a1 a2} (hm : [Region.mem, Region.side] ⊆ m) (h : Keeps m s0 s) : Keeps m s0 (State.copyRun s a1 a2) := by
  unfold State.copyRun
  try dsimp only
  repeat' first
    | intro _
    | with_reducible assumption
    | with_reducible refine State.putRun_keeps (List.Subset.trans (by decide) hm) ?_

theorem State.writeWindow_keeps {m : List Region} {s0 s : State} {a1 a2 a3} (hm : [Region.flt, Region.mem, Region.side, Region.badGrains, Region.slc, Region.wt, Region.twin] ⊆ m) (h : Keeps m s0 s) : ∀ t, (State.writeWindow s a1 a2 a3) = some t → Keeps m s0 t := by
  intro t he
  unfold State.writeWindow at he
  try dsimp only at he
  repeat' first
    | (cases he; done)
    | split at he
    | contradiction
    | cases he
    | intro _
    | with_reducible assumption
    | with_reducible refine State.mirrorGrains_keeps (List.Subset.trans (by decide) hm) ?_
    | with_reducible refine State.writeGrains_keeps (List.Subset.trans (by decide) hm) ?_

theorem State.refuseRx_keeps {m : List Region} {s0 s : State} {a1 a2} (hm : [Region.slc, Region.wt] ⊆ m) (h : Keeps m s0 s) : Keeps m s0 (State.refuseRx s a1 a2) := by
  unfold State.refuseRx
  try dsimp only
  repeat' first
    | intro _
    | with_reducible assumption
    | with_reducible refine State.dropOpen_keeps (List.Subset.trans (by decide) hm) ?_
    | with_reducible refine State.acceptRx_keeps (List.Subset.trans (by decide) hm) ?_
    | with_reducible refine State.setRx_keeps (List.Subset.trans (by decide) hm) ?_

theorem State.cqExpired_keeps {m : List Region} {s0 s : State} {a1} (hm : [Region.flt, Region.mem, Region.side, Region.badGrains, Region.slc, Region.wt, Region.twin] ⊆ m) (h : Keeps m s0 s) : Keeps m s0 (State.cqExpired s a1) := by
  unfold State.cqExpired
  try dsimp only
  repeat' first
    | intro _
    | with_reducible assumption
    | (refine State.authenticate_keeps (List.Subset.trans (by decide) hm) ?_ _ _ (by with_reducible assumption))
    | (with_reducible refine State.authenticate_keeps (List.Subset.trans (by decide) hm) ?_ _ _ rfl)
    | (refine State.writeWindow_keeps (List.Subset.trans (by decide) hm) ?_ _ (by with_reducible assumption))
    | (with_reducible refine State.writeWindow_keeps (List.Subset.trans (by decide) hm) ?_ _ rfl)
    | with_reducible refine State.updQueue_keeps (List.Subset.trans (by decide) hm) ?_
    | with_reducible refine State.refuseRx_keeps (List.Subset.trans (by decide) hm) ?_
    | (refine getD_keeps (fun _ _ => ?_) ?_)
    | with_reducible apply ite_keeps
    | with_reducible apply foldl_keeps
    | (fail_if_no_progress (with_reducible refine mk_keeps ?_ ?_ ?_ ?_ ?_ ?_ ?_ ?_ ?_ ?_ ?_ ?_ ?_ ?_ ?_ ?_ ?_ ?_ ?_ ?_ ?_ ?_ ?_ ?_ ?_ ?_ ?_ ?_) <;> try first | (with_reducible exact Or.inl rfl) | (exact Or.inr (hm (by decide))))
    | split

theorem State.deliverImm_keeps {m : List Region} {s0 s : State} {a1} (hm : [Region.slc] ⊆ m) (h : Keeps m s0 s) : Keeps m s0 (State.deliverImm s a1) := by
  unfold State.deliverImm
  try dsimp only
  repeat' first
    | intro _
    | with_reducible assumption
    | with_reducible refine State.writeCompletion_keeps (List.Subset.trans (by decide) hm) ?_

theorem State.discardAfter_keeps {m : List Region} {s0 s : State} {a1} (hm : [Region.mem, Region.side, Region.allocs, Region.badGrains, Region.sessions, Region.provs, Region.parts, Region.twin] ⊆ m) (h : Keeps m s0 s) : Keeps m s0 (State.discardAfter s a1) := by
  unfold State.discardAfter
  try dsimp only
  repeat' first
    | (exact List.Subset.trans (by decide) hm)
    | intro _
    | with_reducible assumption
    | with_reducible refine State.freeAllocs_keeps (List.Subset.trans (by decide) hm) ?_
    | (with_reducible apply State.each_keeps)
    | with_reducible refine State.releaseSession_keeps (List.Subset.trans (by decide) hm) ?_
    | with_reducible refine State.dropProvs_keeps (List.Subset.trans (by decide) hm) ?_
    | with_reducible apply ite_keeps
    | with_reducible apply foldl_keeps
    | (fail_if_no_progress (with_reducible refine mk_keeps ?_ ?_ ?_ ?_ ?_ ?_ ?_ ?_ ?_ ?_ ?_ ?_ ?_ ?_ ?_ ?_ ?_ ?_ ?_ ?_ ?_ ?_ ?_ ?_ ?_ ?_ ?_ ?_) <;> try first | (with_reducible exact Or.inl rfl) | (exact Or.inr (hm (by decide))))

theorem State.syncRx_keeps {m : List Region} {s0 s : State} {a1} (hm : [Region.slc, Region.wt] ⊆ m) (h : Keeps m s0 s) : Keeps m s0 (State.syncRx s a1) := by
  unfold State.syncRx
  try dsimp only
  repeat' first
    | intro _
    | with_reducible assumption
    | with_reducible refine State.dropOpen_keeps (List.Subset.trans (by decide) hm) ?_
    | with_reducible refine State.acceptRx_keeps (List.Subset.trans (by decide) hm) ?_
    | with_reducible refine State.setRx_keeps (List.Subset.trans (by decide) hm) ?_

theorem State.setOpen_keeps {m : List Region} {s0 s : State} {a1 a2 a3} (hm : [Region.wt] ⊆ m) (h : Keeps m s0 s) : Keeps m s0 (State.setOpen s a1 a2 a3) := by
  unfold State.setOpen
  try dsimp only
  repeat' first
    | intro _
    | with_reducible assumption
    | with_reducible refine State.setRx_keeps (List.Subset.trans (by decide) hm) ?_

theorem State.landMsg_keeps {m : List Region} {s0 s : State} {a1 a2} (hm : [Region.slc] ⊆ m) (h : Keeps m s0 s) : Keeps m s0 (State.landMsg s a1 a2) := by
  unfold State.landMsg
  try dsimp only
  repeat' first
    | intro _
    | with_reducible assumption
    | with_reducible refine State.updQueue_keeps (List.Subset.trans (by decide) hm) ?_
    | with_reducible apply ite_keeps
    | with_reducible apply foldl_keeps
    | (fail_if_no_progress (with_reducible refine mk_keeps ?_ ?_ ?_ ?_ ?_ ?_ ?_ ?_ ?_ ?_ ?_ ?_ ?_ ?_ ?_ ?_ ?_ ?_ ?_ ?_ ?_ ?_ ?_ ?_ ?_ ?_ ?_ ?_) <;> try first | (with_reducible exact Or.inl rfl) | (exact Or.inr (hm (by decide))))

theorem State.takeLand_keeps {m : List Region} {s0 s : State} {a1 a2 a3 a4} (hm : [Region.mem, Region.side, Region.badGrains, Region.slc, Region.twin] ⊆ m) (h : Keeps m s0 s) : Keeps m s0 (State.takeLand s a1 a2 a3 a4) := by
  unfold State.takeLand
  try dsimp only
  repeat' first
    | intro _
    | with_reducible assumption
    | with_reducible refine State.writePieces_keeps (List.Subset.trans (by decide) hm) ?_
    | with_reducible apply ite_keeps
    | with_reducible apply foldl_keeps
    | (fail_if_no_progress (with_reducible refine mk_keeps ?_ ?_ ?_ ?_ ?_ ?_ ?_ ?_ ?_ ?_ ?_ ?_ ?_ ?_ ?_ ?_ ?_ ?_ ?_ ?_ ?_ ?_ ?_ ?_ ?_ ?_ ?_ ?_) <;> try first | (with_reducible exact Or.inl rfl) | (exact Or.inr (hm (by decide))))

theorem State.writeFailed_keeps {m : List Region} {s0 s : State} {a1 a2 a3} (hm : [Region.flt, Region.mem, Region.side, Region.badGrains, Region.sessions, Region.parts, Region.slc, Region.wt, Region.sec, Region.twin] ⊆ m) (h : Keeps m s0 s) : Keeps m s0 (State.writeFailed s a1 a2 a3) := by
  unfold State.writeFailed
  try dsimp only
  repeat' first
    | intro _
    | with_reducible assumption
    | with_reducible refine State.partialRefused_keeps (List.Subset.trans (by decide) hm) ?_
    | with_reducible apply ite_keeps
    | with_reducible apply foldl_keeps
    | (fail_if_no_progress (with_reducible refine mk_keeps ?_ ?_ ?_ ?_ ?_ ?_ ?_ ?_ ?_ ?_ ?_ ?_ ?_ ?_ ?_ ?_ ?_ ?_ ?_ ?_ ?_ ?_ ?_ ?_ ?_ ?_ ?_ ?_) <;> try first | (with_reducible exact Or.inl rfl) | (exact Or.inr (hm (by decide))))
    | split

theorem State.relay_keeps {m : List Region} {s0 s : State} {a1 a2} (hm : [Region.flt, Region.slc, Region.wt, Region.sec, Region.mboxes, Region.twin] ⊆ m) (h : Keeps m s0 s) : Keeps m s0 (State.relay s a1 a2) := by
  unfold State.relay
  try dsimp only
  repeat' first
    | intro _
    | with_reducible assumption
    | with_reducible refine State.settleForward_keeps (List.Subset.trans (by decide) hm) ?_
    | with_reducible apply ite_keeps
    | with_reducible apply foldl_keeps
    | (fail_if_no_progress (with_reducible refine mk_keeps ?_ ?_ ?_ ?_ ?_ ?_ ?_ ?_ ?_ ?_ ?_ ?_ ?_ ?_ ?_ ?_ ?_ ?_ ?_ ?_ ?_ ?_ ?_ ?_ ?_ ?_ ?_ ?_) <;> try first | (with_reducible exact Or.inl rfl) | (exact Or.inr (hm (by decide))))
    | split

theorem State.flushMirrorAck_keeps {m : List Region} {s0 s : State} (hm : [Region.flt, Region.slc, Region.wt, Region.twin] ⊆ m) (h : Keeps m s0 s) : Keeps m s0 (State.flushMirrorAck s) := by
  unfold State.flushMirrorAck
  try dsimp only
  repeat' first
    | intro _
    | with_reducible assumption
    | with_reducible refine State.sendMsg_keeps (List.Subset.trans (by decide) hm) ?_
    | with_reducible apply ite_keeps
    | with_reducible apply foldl_keeps
    | (fail_if_no_progress (with_reducible refine mk_keeps ?_ ?_ ?_ ?_ ?_ ?_ ?_ ?_ ?_ ?_ ?_ ?_ ?_ ?_ ?_ ?_ ?_ ?_ ?_ ?_ ?_ ?_ ?_ ?_ ?_ ?_ ?_ ?_) <;> try first | (with_reducible exact Or.inl rfl) | (exact Or.inr (hm (by decide))))
    | split

theorem State.takeMirror_keeps {m : List Region} {s0 s : State} {a1 a2} (hm : [Region.draws, Region.clk, Region.flt, Region.mem, Region.side, Region.allocCtr, Region.allocs, Region.badGrains, Region.sessions, Region.provs, Region.parts, Region.slc, Region.wt, Region.sec, Region.twin] ⊆ m) (h : Keeps m s0 s) : ∀ x t, (State.takeMirror s a1 a2) = (x, t) → Keeps m s0 (t) := by
  intro x t he
  unfold State.takeMirror at he
  split at he
  · cases he; exact h
  · split at he
    · cases he; exact h
    · split at he
      · cases he; exact h
      · split at he
        · cases he; exact h
        · split at he
          · cases he; exact h
          · rename_i u hu
            have hk := foldlM_some_keeps (fun _ _ _ ht hu => (State.applyStamped_keeps (List.Subset.trans (by decide) hm)) ht _ hu) _ h _ hu
            have hc : Keeps m s0 (if u.twin.state = twDst then u.count cResyncBytes a2.length else u) :=
              ite_keeps ((State.count_keeps (List.Subset.trans (by decide) hm)) hk) hk
            dsimp only at he
            revert hc he
            generalize (if u.twin.state = twDst then u.count cResyncBytes a2.length else u) = w
            intro he hc
            split at he
            · cases he; exact hc
            · cases he
              refine (State.flushMirrorAck_keeps (List.Subset.trans (by decide) hm)) ?_
              fail_if_no_progress (with_reducible refine mk_keeps ?_ ?_ ?_ ?_ ?_ ?_ ?_ ?_ ?_ ?_ ?_ ?_ ?_ ?_ ?_ ?_ ?_ ?_ ?_ ?_ ?_ ?_ ?_ ?_ ?_ ?_ ?_ ?_) <;> try first | (with_reducible exact Or.inl rfl) | (exact Or.inr (hm (by decide)))
              exact hc

theorem State.takeMirrorAck_keeps {m : List Region} {s0 s : State} {a1} (hm : [Region.flt, Region.parts, Region.slc, Region.wt, Region.sec, Region.mboxes, Region.twin] ⊆ m) (h : Keeps m s0 s) : Keeps m s0 (State.takeMirrorAck s a1) := by
  unfold State.takeMirrorAck
  try dsimp only
  repeat' first
    | intro _
    | with_reducible assumption
    | with_reducible refine State.coverChanges_keeps (List.Subset.trans (by decide) hm) ?_
    | with_reducible apply ite_keeps

/-- Every state that an outcome of steps 8 to 12 holds differs from `s0` only within `m`. -/
def RxRes.Keeps (m : List Region) (s0 : State) : RxRes → Prop
  | .ok t => Machine.Keeps m s0 t
  | .bad _ t => Machine.Keeps m s0 t
  | .hold => True

theorem rxIte_keeps {m : List Region} {s0 : State} {c : Prop} [Decidable c] {a b : RxRes} (ha : a.Keeps m s0)
    (hb : b.Keeps m s0) : (if c then a else b).Keeps m s0 := by
  split <;> assumption

theorem State.rxRequest_keeps {m : List Region} {s0 s : State} {a1 a2} (hm : [Region.mem, Region.side, Region.badGrains, Region.slc, Region.wt, Region.twin] ⊆ m) (h : Keeps m s0 s) : RxRes.Keeps m s0 (State.rxRequest s a1 a2) := by
  unfold State.rxRequest
  have fin : ∀ (t : State) (om : OpenMsg), Keeps m s0 t → RxRes.Keeps m s0 (if a1.last then
        let st := t.requestStatus a1.src.toNat om
        if st = stOk then .ok ((t.setOpen a1.src.toNat a1.rclass.toNat none).landMsg a1 om)
        else .bad st (t.setOpen a1.src.toNat a1.rclass.toNat (some om))
      else .ok (t.setOpen a1.src.toNat a1.rclass.toNat (some om))) := fun t om ht =>
    rxIte_keeps (rxIte_keeps ((State.landMsg_keeps (List.Subset.trans (by decide) hm)) ((State.setOpen_keeps (List.Subset.trans (by decide) hm)) ht)) ((State.setOpen_keeps (List.Subset.trans (by decide) hm)) ht)) ((State.setOpen_keeps (List.Subset.trans (by decide) hm)) ht)
  dsimp only
  refine rxIte_keeps h ?_
  split
  · refine rxIte_keeps (fin _ _ h) (rxIte_keeps (fin _ _ ((State.takeLand_keeps (List.Subset.trans (by decide) hm)) h)) trivial)
  · split
    · exact fin _ _ h
    · refine rxIte_keeps (rxIte_keeps (fin _ _ h) h) (rxIte_keeps trivial ?_)
      exact fin _ _ ((State.takeLand_keeps (List.Subset.trans (by decide) hm)) ((State.claimRing_keeps (List.Subset.trans (by decide) hm)) h _ _ rfl))

theorem State.rxRead_keeps {m : List Region} {s0 s : State} {a1 a2} (hm : [Region.mem, Region.side, Region.badGrains, Region.slc, Region.twin] ⊆ m) (h : Keeps m s0 s) : RxRes.Keeps m s0 (State.rxRead s a1 a2) := by
  unfold State.rxRead
  split
  · exact h
  · refine rxIte_keeps h (rxIte_keeps h (rxIte_keeps trivial ?_))
    exact (State.landMsg_keeps (List.Subset.trans (by decide) hm)) ((State.takeLand_keeps (List.Subset.trans (by decide) hm)) ((State.claimRing_keeps (List.Subset.trans (by decide) hm)) h _ _ rfl))

theorem State.takeMailbox_keeps {m : List Region} {s0 s : State} {a1 a2} (hm : [Region.flt, Region.slc, Region.wt, Region.mboxes] ⊆ m) (h : Keeps m s0 s) : RxRes.Keeps m s0 (s.takeMailbox a1 a2) := by
  unfold State.takeMailbox
  dsimp only
  split
  · exact (State.sendResp_keeps (List.Subset.trans (by decide) hm)) h
  · exact rxIte_keeps h ((State.setMbox_keeps (List.Subset.trans (by decide) hm)) h)

theorem State.rxWriteImm_keeps {m : List Region} {s0 s : State} {a1 a2} (hm : [Region.flt, Region.mem, Region.side, Region.badGrains, Region.sessions, Region.parts, Region.slc, Region.wt, Region.sec, Region.mboxes, Region.twin] ⊆ m) (h : Keeps m s0 s) : RxRes.Keeps m s0 (s.rxWriteImm a1 a2) := by
  unfold State.rxWriteImm
  refine rxIte_keeps ((State.relay_keeps (List.Subset.trans (by decide) hm)) h) (rxIte_keeps ((State.takeMailbox_keeps (List.Subset.trans (by decide) hm)) h) (rxIte_keeps ?_ ?_))
  · split
    · trivial
    · exact (State.writeFailed_keeps (List.Subset.trans (by decide) hm)) h
  · split
    · exact (State.writeFailed_keeps (List.Subset.trans (by decide) hm)) h
    · exact ite_keeps ((State.deliverImm_keeps (List.Subset.trans (by decide) hm)) ((State.writeWindow_keeps (List.Subset.trans (by decide) hm)) h _ (by assumption))) ((State.writeWindow_keeps (List.Subset.trans (by decide) hm)) h _ (by assumption))

theorem State.rxMessage_keeps {m : List Region} {s0 s : State} {a1 a2} (hm : [Region.draws, Region.clk, Region.flt, Region.mem, Region.side, Region.allocCtr, Region.allocs, Region.badGrains, Region.sessions, Region.provs, Region.parts, Region.ep, Region.slc, Region.wt, Region.jets, Region.sec, Region.mboxes, Region.twin] ⊆ m) (h : Keeps m s0 s) : RxRes.Keeps m s0 (s.rxMessage a1 a2) := by
  unfold State.rxMessage
  refine rxIte_keeps (rxIte_keeps ((State.takeHedge_keeps (List.Subset.trans (by decide) hm)) h) h) (rxIte_keeps ((State.takeClaim_keeps (List.Subset.trans (by decide) hm)) h) (rxIte_keeps ?_
    (rxIte_keeps ((State.takeMirrorAck_keeps (List.Subset.trans (by decide) hm)) h) (rxIte_keeps ?_ (rxIte_keeps ((State.takeDirQuery_keeps (List.Subset.trans (by decide) hm)) h) (rxIte_keeps ?_ h))))))
  · exact rxIte_keeps ((State.takeMirror_keeps (List.Subset.trans (by decide) hm)) h _ _ rfl) h
  · exact rxIte_keeps ((State.takeDirUpdate_keeps (List.Subset.trans (by decide) hm)) h _ _ rfl) ((State.takeDirUpdate_keeps (List.Subset.trans (by decide) hm)) h _ _ rfl)
  · split
    · exact (State.cancelFabric_keeps (List.Subset.trans (by decide) hm)) h
    · exact h

theorem State.rxSteps_keeps {m : List Region} {s0 s : State} {a1 a2} (hm : [Region.draws, Region.clk, Region.flt, Region.mem, Region.side, Region.allocCtr, Region.allocs, Region.badGrains, Region.sessions, Region.provs, Region.parts, Region.ep, Region.slc, Region.wt, Region.jets, Region.sec, Region.mboxes, Region.twin] ⊆ m) (h : Keeps m s0 s) : RxRes.Keeps m s0 (s.rxSteps a1 a2) := by
  unfold State.rxSteps
  dsimp only
  refine rxIte_keeps ((State.rxRequest_keeps (List.Subset.trans (by decide) hm)) h) (rxIte_keeps h (rxIte_keeps ((State.count_keeps (List.Subset.trans (by decide) hm)) h) (rxIte_keeps h
    (rxIte_keeps ((State.rxRead_keeps (List.Subset.trans (by decide) hm)) h) (rxIte_keeps h ?_)))))
  have key : ∀ (r : RxRes) (g : State → State), (∀ u : State, Keeps m s0 u → Keeps m s0 (g u)) → r.Keeps m s0 →
      RxRes.Keeps m s0 (match r with | .ok t => .ok (g t) | .bad st t => .bad st t | .hold => .hold) := by
    intro r g hg hr
    cases r with
    | ok t => exact hg t hr
    | bad st t => exact hr
    | hold => trivial
  refine key _ _ (fun u hu => (State.setOpen_keeps (List.Subset.trans (by decide) hm)) hu) (rxIte_keeps ?_ (rxIte_keeps ((State.rxWriteImm_keeps (List.Subset.trans (by decide) hm)) h)
    (rxIte_keeps ((State.rxMessage_keeps (List.Subset.trans (by decide) hm)) h) h)))
  split
  · exact (State.writeWindow_keeps (List.Subset.trans (by decide) hm)) h _ (by assumption)
  · exact (State.writeFailed_keeps (List.Subset.trans (by decide) hm)) h

theorem State.rxInOrder_keeps {m : List Region} {s0 s : State} {a1 a2} (hm : [Region.draws, Region.clk, Region.flt, Region.mem, Region.side, Region.allocCtr, Region.allocs, Region.badGrains, Region.sessions, Region.provs, Region.parts, Region.ep, Region.slc, Region.wt, Region.jets, Region.sec, Region.mboxes, Region.twin] ⊆ m) (h : Keeps m s0 s) : ∀ t, s.rxInOrder a1 a2 = some t → Keeps m s0 t := by
  intro t he
  unfold State.rxInOrder at he
  dsimp only at he
  have hd := State.dropOpen_keeps (a1 := a1.src.toNat) (a2 := a1.rclass.toNat) (List.Subset.trans (by decide) hm) h
  split at he
  · cases he; exact (State.acceptRx_keeps (List.Subset.trans (by decide) hm)) ((State.setRx_keeps (List.Subset.trans (by decide) hm)) hd)
  · split at he
    · cases he; exact (State.acceptRx_keeps (List.Subset.trans (by decide) hm)) ((State.setRx_keeps (List.Subset.trans (by decide) hm)) h)
    · have hx := State.rxSteps_keeps (a1 := a1) (a2 := a2) (List.Subset.trans (by decide) hm) h
      split at he
      · cases he
      · rename_i u hu
        rw [hu] at hx
        cases he; exact (State.acceptRx_keeps (List.Subset.trans (by decide) hm)) hx
      · rename_i n u hu
        rw [hu] at hx
        cases he
        exact ite_keeps h ((State.refuseRx_keeps (List.Subset.trans (by decide) hm)) hx)

theorem State.oosRx_keeps {m : List Region} {s0 s : State} {a1} (hm : [Region.flt, Region.wt] ⊆ m) (h : Keeps m s0 s) : Keeps m s0 (State.oosRx s a1) := by
  unfold State.oosRx
  try dsimp only
  repeat' first
    | intro _
    | with_reducible assumption
    | with_reducible refine State.count_keeps (List.Subset.trans (by decide) hm) ?_
    | with_reducible refine State.setRx_keeps (List.Subset.trans (by decide) hm) ?_
    | with_reducible apply ite_keeps

theorem State.dupRx_keeps {m : List Region} {s0 s : State} {a1} (hm : [Region.flt, Region.wt] ⊆ m) (h : Keeps m s0 s) : Keeps m s0 (State.dupRx s a1) := by
  unfold State.dupRx
  try dsimp only
  repeat' first
    | intro _
    | with_reducible assumption
    | with_reducible refine State.count_keeps (List.Subset.trans (by decide) hm) ?_
    | with_reducible refine State.setRx_keeps (List.Subset.trans (by decide) hm) ?_

theorem State.rxSeq_keeps {m : List Region} {s0 s : State} {a1 a2} (hm : [Region.draws, Region.clk, Region.flt, Region.mem, Region.side, Region.allocCtr, Region.allocs, Region.badGrains, Region.sessions, Region.provs, Region.parts, Region.ep, Region.slc, Region.wt, Region.jets, Region.sec, Region.mboxes, Region.twin] ⊆ m) (h : Keeps m s0 s) : ∀ t, (State.rxSeq s a1 a2) = some t → Keeps m s0 t := by
  intro t he
  unfold State.rxSeq at he
  try dsimp only at he
  repeat' first
    | (cases he; done)
    | split at he
    | contradiction
    | cases he
    | intro _
    | with_reducible assumption
    | with_reducible refine State.takeAck_keeps (List.Subset.trans (by decide) hm) ?_
    | with_reducible refine State.takeNak_keeps (List.Subset.trans (by decide) hm) ?_
    | with_reducible refine State.syncRx_keeps (List.Subset.trans (by decide) hm) ?_
    | (refine State.rxInOrder_keeps (List.Subset.trans (by decide) hm) ?_ _ (by with_reducible assumption))
    | (with_reducible refine State.rxInOrder_keeps (List.Subset.trans (by decide) hm) ?_ _ rfl)
    | with_reducible refine State.oosRx_keeps (List.Subset.trans (by decide) hm) ?_
    | with_reducible refine State.dupRx_keeps (List.Subset.trans (by decide) hm) ?_
    | with_reducible apply ite_keeps
    | with_reducible apply foldl_keeps
    | (fail_if_no_progress (with_reducible refine mk_keeps ?_ ?_ ?_ ?_ ?_ ?_ ?_ ?_ ?_ ?_ ?_ ?_ ?_ ?_ ?_ ?_ ?_ ?_ ?_ ?_ ?_ ?_ ?_ ?_ ?_ ?_ ?_ ?_) <;> try first | (with_reducible exact Or.inl rfl) | (exact Or.inr (hm (by decide))))

theorem State.rxFrame_keeps {m : List Region} {s0 s : State} {a1} (hm : [Region.draws, Region.clk, Region.flt, Region.mem, Region.side, Region.allocCtr, Region.allocs, Region.badGrains, Region.sessions, Region.provs, Region.parts, Region.ep, Region.slc, Region.wt, Region.jets, Region.sec, Region.mboxes, Region.twin] ⊆ m) (h : Keeps m s0 s) : ∀ t, (State.rxFrame s a1) = some t → Keeps m s0 t := by
  intro t he
  unfold State.rxFrame at he
  try dsimp only at he
  repeat' first
    | (cases he; done)
    | split at he
    | contradiction
    | cases he
    | intro _
    | with_reducible assumption
    | (refine State.authenticate_keeps (List.Subset.trans (by decide) hm) ?_ _ _ (by with_reducible assumption))
    | (with_reducible refine State.authenticate_keeps (List.Subset.trans (by decide) hm) ?_ _ _ rfl)
    | (refine State.rxSeq_keeps (List.Subset.trans (by decide) hm) ?_ _ (by with_reducible assumption))

theorem State.unhold_keeps {m : List Region} {s0 s : State} {a1} (hm : [Region.wt] ⊆ m) (h : Keeps m s0 s) : Keeps m s0 (State.unhold s a1) := by
  unfold State.unhold
  try dsimp only
  repeat' first
    | intro _
    | with_reducible assumption
    | with_reducible refine State.updPort_keeps (List.Subset.trans (by decide) hm) ?_

theorem State.drainHeld_keeps {m : List Region} {s0 s : State} {a1 a2} (hm : [Region.draws, Region.clk, Region.flt, Region.mem, Region.side, Region.allocCtr, Region.allocs, Region.badGrains, Region.sessions, Region.provs, Region.parts, Region.ep, Region.slc, Region.wt, Region.jets, Region.sec, Region.mboxes, Region.twin] ⊆ m) (h : Keeps m s0 s) : Keeps m s0 (State.drainHeld s a1 a2) := by
  induction a2 generalizing s a1 with
  | zero => exact h
  | succ n ih =>
    unfold State.drainHeld
    try dsimp only
    repeat' first
      | intro _
      | (with_reducible apply ih)
      | with_reducible assumption
      | (refine State.rxFrame_keeps (List.Subset.trans (by decide) hm) ?_ _ (by with_reducible assumption))
      | (with_reducible refine State.rxFrame_keeps (List.Subset.trans (by decide) hm) ?_ _ rfl)
      | with_reducible refine State.unhold_keeps (List.Subset.trans (by decide) hm) ?_
      | with_reducible apply ite_keeps
      | with_reducible apply foldl_keeps
      | (fail_if_no_progress (with_reducible refine mk_keeps ?_ ?_ ?_ ?_ ?_ ?_ ?_ ?_ ?_ ?_ ?_ ?_ ?_ ?_ ?_ ?_ ?_ ?_ ?_ ?_ ?_ ?_ ?_ ?_ ?_ ?_ ?_ ?_) <;> try first | (with_reducible exact Or.inl rfl) | (exact Or.inr (hm (by decide))))
      | split

theorem State.drainReorder_keeps {m : List Region} {s0 s : State} {a1} (hm : [Region.draws, Region.clk, Region.flt, Region.mem, Region.side, Region.allocCtr, Region.allocs, Region.badGrains, Region.sessions, Region.provs, Region.parts, Region.ep, Region.slc, Region.wt, Region.jets, Region.sec, Region.mboxes, Region.twin] ⊆ m) (h : Keeps m s0 s) : Keeps m s0 (State.drainReorder s a1) := by
  induction a1 generalizing s  with
  | zero => exact h
  | succ n ih =>
    unfold State.drainReorder
    try dsimp only
    repeat' first
      | intro _
      | (with_reducible apply ih)
      | with_reducible assumption
      | (refine State.rxFrame_keeps (List.Subset.trans (by decide) hm) ?_ _ (by with_reducible assumption))
      | (with_reducible refine State.rxFrame_keeps (List.Subset.trans (by decide) hm) ?_ _ rfl)
      | with_reducible apply ite_keeps
      | with_reducible apply foldl_keeps
      | (fail_if_no_progress (with_reducible refine mk_keeps ?_ ?_ ?_ ?_ ?_ ?_ ?_ ?_ ?_ ?_ ?_ ?_ ?_ ?_ ?_ ?_ ?_ ?_ ?_ ?_ ?_ ?_ ?_ ?_ ?_ ?_ ?_ ?_) <;> try first | (with_reducible exact Or.inl rfl) | (exact Or.inr (hm (by decide))))
      | split

theorem State.unqueueMsg_keeps {m : List Region} {s0 s : State} {a1 a2 a3} (hm : [Region.wt] ⊆ m) (h : Keeps m s0 s) : Keeps m s0 (State.unqueueMsg s a1 a2 a3) := by
  unfold State.unqueueMsg
  try dsimp only
  repeat' first
    | intro _
    | with_reducible assumption
    | with_reducible apply ite_keeps
    | with_reducible apply foldl_keeps
    | (fail_if_no_progress (with_reducible refine mk_keeps ?_ ?_ ?_ ?_ ?_ ?_ ?_ ?_ ?_ ?_ ?_ ?_ ?_ ?_ ?_ ?_ ?_ ?_ ?_ ?_ ?_ ?_ ?_ ?_ ?_ ?_ ?_ ?_) <;> try first | (with_reducible exact Or.inl rfl) | (exact Or.inr (hm (by decide))))

theorem State.endUnkeyed_keeps {m : List Region} {s0 s : State} {a1} (hm : [Region.clk, Region.flt, Region.parts, Region.slc, Region.wt, Region.jets, Region.sec, Region.mboxes, Region.twin] ⊆ m) (h : Keeps m s0 s) : Keeps m s0 (State.endUnkeyed s a1) := by
  unfold State.endUnkeyed
  try dsimp only
  repeat' first
    | intro _
    | with_reducible assumption
    | (with_reducible apply State.each_keeps)
    | with_reducible refine State.unqueueMsg_keeps (List.Subset.trans (by decide) hm) ?_
    | with_reducible refine State.endSent_keeps (List.Subset.trans (by decide) hm) ?_
    | with_reducible refine State.mapMsg_keeps (List.Subset.trans (by decide) hm) ?_
    | with_reducible refine State.count_keeps (List.Subset.trans (by decide) hm) ?_
    | with_reducible refine State.endMsg_keeps (List.Subset.trans (by decide) hm) ?_
    | with_reducible apply ite_keeps

theorem State.dropUnkeyed_keeps {m : List Region} {s0 s : State} {a1} (hm : [Region.clk, Region.flt, Region.parts, Region.slc, Region.wt, Region.jets, Region.sec, Region.mboxes, Region.twin] ⊆ m) (h : Keeps m s0 s) : Keeps m s0 (State.dropUnkeyed s a1) := by
  unfold State.dropUnkeyed
  try dsimp only
  repeat' first
    | (exact List.Subset.trans (by decide) hm)
    | intro _
    | with_reducible assumption
    | (with_reducible apply State.each_keeps)
    | with_reducible refine State.endUnkeyed_keeps (List.Subset.trans (by decide) hm) ?_
    | with_reducible apply ite_keeps

theorem State.endReadFrame_keeps {m : List Region} {s0 s : State} {a1 a2 a3} (hm : [Region.flt, Region.mem, Region.side, Region.badGrains, Region.sessions, Region.parts, Region.slc, Region.wt, Region.sec, Region.twin] ⊆ m) (h : Keeps m s0 s) : ∀ t x, (State.endReadFrame s a1 a2 a3) = (t, x) → Keeps m s0 t := by
  intro t x he
  unfold State.endReadFrame at he
  try dsimp only at he
  repeat' first
    | (cases he; done)
    | split at he
    | contradiction
    | cases he
    | intro _
    | with_reducible assumption
    | (with_reducible apply State.each_keeps)
    | with_reducible refine State.failCheck_keeps (List.Subset.trans (by decide) hm) ?_
    | with_reducible refine State.unqueueMsg_keeps (List.Subset.trans (by decide) hm) ?_
    | with_reducible refine State.endFrame_keeps (List.Subset.trans (by decide) hm) ?_
    | with_reducible refine State.setTx_keeps (List.Subset.trans (by decide) hm) ?_
    | with_reducible refine State.stopRead_keeps (List.Subset.trans (by decide) hm) ?_

theorem State.requestRepairs_keeps {m : List Region} {s0 s : State} (hm : [Region.flt, Region.slc, Region.wt, Region.twin] ⊆ m) (h : Keeps m s0 s) : Keeps m s0 (State.requestRepairs s) := by
  unfold State.requestRepairs
  try dsimp only
  repeat' first
    | (exact List.Subset.trans (by decide) hm)
    | intro _
    | with_reducible assumption
    | (with_reducible apply State.each_keeps)
    | with_reducible refine State.askRepair_keeps (List.Subset.trans (by decide) hm) ?_

theorem State.enterPaired_keeps {m : List Region} {s0 s : State} (hm : [Region.flt, Region.slc, Region.wt, Region.twin] ⊆ m) (h : Keeps m s0 s) : Keeps m s0 (State.enterPaired s) := by
  unfold State.enterPaired
  try dsimp only
  repeat' first
    | intro _
    | with_reducible assumption
    | with_reducible refine State.requestRepairs_keeps (List.Subset.trans (by decide) hm) ?_
    | with_reducible apply ite_keeps
    | with_reducible apply foldl_keeps
    | (fail_if_no_progress (with_reducible refine mk_keeps ?_ ?_ ?_ ?_ ?_ ?_ ?_ ?_ ?_ ?_ ?_ ?_ ?_ ?_ ?_ ?_ ?_ ?_ ?_ ?_ ?_ ?_ ?_ ?_ ?_ ?_ ?_ ?_) <;> try first | (with_reducible exact Or.inl rfl) | (exact Or.inr (hm (by decide))))

theorem State.formFrame_keeps {m : List Region} {s0 s : State} {a1 a2 a3} (hm : [Region.flt, Region.mem, Region.side, Region.badGrains, Region.sessions, Region.parts, Region.slc, Region.wt, Region.sec, Region.twin] ⊆ m) (h : Keeps m s0 s) : ∀ t x, (State.formFrame s a1 a2 a3) = (t, x) → Keeps m s0 t := by
  intro t x he
  unfold State.formFrame at he
  try dsimp only at he
  repeat' first
    | (cases he; done)
    | split at he
    | contradiction
    | cases he
    | intro _
    | with_reducible assumption
    | (refine State.endMirrorFrame_keeps (List.Subset.trans (by decide) hm) ?_ _ _ (by with_reducible assumption))
    | (with_reducible refine State.endMirrorFrame_keeps (List.Subset.trans (by decide) hm) ?_ _ _ rfl)
    | (refine State.endReadFrame_keeps (List.Subset.trans (by decide) hm) ?_ _ _ (by with_reducible assumption))
    | (with_reducible refine State.endReadFrame_keeps (List.Subset.trans (by decide) hm) ?_ _ _ rfl)

theorem State.paceIngress_keeps {m : List Region} {s0 s : State} {a1} (hm : [Region.flt, Region.wt] ⊆ m) (h : Keeps m s0 s) : Keeps m s0 (State.paceIngress s a1) := by
  unfold State.paceIngress
  try dsimp only
  repeat' first
    | intro _
    | with_reducible assumption
    | with_reducible refine State.paceClass_keeps (List.Subset.trans (by decide) hm) ?_

theorem State.holdFrame_keeps {m : List Region} {s0 s : State} {a1} (hm : [Region.flt, Region.wt] ⊆ m) (h : Keeps m s0 s) : Keeps m s0 (State.holdFrame s a1) := by
  unfold State.holdFrame
  try dsimp only
  repeat' first
    | intro _
    | with_reducible assumption
    | with_reducible refine State.updPort_keeps (List.Subset.trans (by decide) hm) ?_
    | with_reducible refine State.countPort_keeps (List.Subset.trans (by decide) hm) ?_
    | with_reducible refine State.paceIngress_keeps (List.Subset.trans (by decide) hm) ?_
    | with_reducible apply ite_keeps

theorem State.noteRun_keeps {m : List Region} {s0 s : State} {a1 a2 a3} (hm : [Region.flt] ⊆ m) (h : Keeps m s0 s) : Keeps m s0 (State.noteRun s a1 a2 a3) := by
  unfold State.noteRun
  try dsimp only
  repeat' first
    | (exact List.Subset.trans (by decide) hm)
    | intro _
    | with_reducible assumption
    | (with_reducible apply State.each_keeps)
    | with_reducible refine State.noteCorrected_keeps (List.Subset.trans (by decide) hm) ?_

theorem State.pausePcp_keeps {m : List Region} {s0 s : State} {a1 a2 a3} (hm : [Region.flt, Region.wt] ⊆ m) (h : Keeps m s0 s) : Keeps m s0 (State.pausePcp s a1 a2 a3) := by
  unfold State.pausePcp
  try dsimp only
  repeat' first
    | (exact List.Subset.trans (by decide) hm)
    | intro _
    | with_reducible assumption
    | with_reducible refine State.updPort_keeps (List.Subset.trans (by decide) hm) ?_
    | (with_reducible apply State.each_keeps)
    | with_reducible refine State.countPort_keeps (List.Subset.trans (by decide) hm) ?_
    | with_reducible apply ite_keeps
    | with_reducible apply foldl_keeps
    | (fail_if_no_progress (with_reducible refine mk_keeps ?_ ?_ ?_ ?_ ?_ ?_ ?_ ?_ ?_ ?_ ?_ ?_ ?_ ?_ ?_ ?_ ?_ ?_ ?_ ?_ ?_ ?_ ?_ ?_ ?_ ?_ ?_ ?_) <;> try first | (with_reducible exact Or.inl rfl) | (exact Or.inr (hm (by decide))))
    | split

theorem State.putFrame_keeps {m : List Region} {s0 s : State} {a1 a2 a3 a4 a5 a6 a7} (hm : [Region.wt] ⊆ m) (h : Keeps m s0 s) : Keeps m s0 (State.putFrame s a1 a2 a3 a4 a5 a6 a7) := by
  unfold State.putFrame
  try dsimp only
  repeat' first
    | intro _
    | with_reducible assumption
    | with_reducible refine State.setTx_keeps (List.Subset.trans (by decide) hm) ?_
    | with_reducible refine State.emit_keeps (List.Subset.trans (by decide) hm) ?_
    | with_reducible refine State.meterPort_keeps (List.Subset.trans (by decide) hm) ?_
    | with_reducible apply ite_keeps
    | with_reducible apply foldl_keeps
    | (fail_if_no_progress (with_reducible refine mk_keeps ?_ ?_ ?_ ?_ ?_ ?_ ?_ ?_ ?_ ?_ ?_ ?_ ?_ ?_ ?_ ?_ ?_ ?_ ?_ ?_ ?_ ?_ ?_ ?_ ?_ ?_ ?_ ?_) <;> try first | (with_reducible exact Or.inl rfl) | (exact Or.inr (hm (by decide))))
    | split

theorem State.receive_keeps {m : List Region} {s0 s : State} {a1} (hm : [Region.draws, Region.clk, Region.flt, Region.mem, Region.side, Region.allocCtr, Region.allocs, Region.badGrains, Region.sessions, Region.provs, Region.parts, Region.ep, Region.slc, Region.wt, Region.jets, Region.sec, Region.mboxes, Region.twin] ⊆ m) (h : Keeps m s0 s) : Keeps m s0 (State.receive s a1) := by
  unfold State.receive
  try dsimp only
  repeat' first
    | intro _
    | with_reducible assumption
    | with_reducible refine State.countPort_keeps (List.Subset.trans (by decide) hm) ?_
    | with_reducible refine State.holdFrame_keeps (List.Subset.trans (by decide) hm) ?_
    | (refine State.rxFrame_keeps (List.Subset.trans (by decide) hm) ?_ _ (by with_reducible assumption))
    | (with_reducible refine State.rxFrame_keeps (List.Subset.trans (by decide) hm) ?_ _ rfl)
    | with_reducible refine State.paceMirror_keeps (List.Subset.trans (by decide) hm) ?_
    | with_reducible refine State.drainReorder_keeps (List.Subset.trans (by decide) hm) ?_
    | with_reducible apply ite_keeps
    | with_reducible apply foldl_keeps
    | split

theorem doRebalance_keeps {m : List Region} {s0 s : State} {a1} (hm : [Region.draws, Region.flt, Region.mem, Region.side, Region.allocCtr, Region.allocs, Region.sessions, Region.parts, Region.slc, Region.wt, Region.sec, Region.mboxes] ⊆ m) (h : Keeps m s0 s) : Keeps m s0 (doRebalance a1 s) := by
  unfold doRebalance
  try dsimp only
  repeat' first
    | intro _
    | with_reducible assumption
    | (with_reducible apply State.agtan_keeps)
    | with_reducible refine State.respond_keeps (List.Subset.trans (by decide) hm) ?_
    | (refine State.allocRun_keeps (List.Subset.trans (by decide) hm) ?_ _ _ _ (by with_reducible assumption))
    | (with_reducible refine State.allocRun_keeps (List.Subset.trans (by decide) hm) ?_ _ _ _ rfl)
    | with_reducible refine State.putPage_keeps (List.Subset.trans (by decide) hm) ?_
    | with_reducible apply ite_keeps
    | with_reducible apply foldl_keeps
    | split

theorem State.scrubGrain_keeps {m : List Region} {s0 s : State} {a1 a2} (hm : [Region.flt, Region.mem, Region.side, Region.badGrains, Region.sessions, Region.parts, Region.slc, Region.wt, Region.sec, Region.twin] ⊆ m) (h : Keeps m s0 s) : Keeps m s0 (State.scrubGrain s a1 a2) := by
  unfold State.scrubGrain
  try dsimp only
  repeat' first
    | intro _
    | with_reducible assumption
    | with_reducible refine State.noteCorrected_keeps (List.Subset.trans (by decide) hm) ?_
    | with_reducible refine State.failGrain_keeps (List.Subset.trans (by decide) hm) ?_
    | with_reducible apply ite_keeps
    | with_reducible apply foldl_keeps
    | (fail_if_no_progress (with_reducible refine mk_keeps ?_ ?_ ?_ ?_ ?_ ?_ ?_ ?_ ?_ ?_ ?_ ?_ ?_ ?_ ?_ ?_ ?_ ?_ ?_ ?_ ?_ ?_ ?_ ?_ ?_ ?_ ?_ ?_) <;> try first | (with_reducible exact Or.inl rfl) | (exact Or.inr (hm (by decide))))
    | split

theorem State.sendCtl_keeps {m : List Region} {s0 s : State} {a1 a2 a3} (hm : [Region.flt, Region.wt] ⊆ m) (h : Keeps m s0 s) : Keeps m s0 (State.sendCtl s a1 a2 a3) := by
  unfold State.sendCtl
  try dsimp only
  repeat' first
    | intro _
    | with_reducible assumption
    | with_reducible refine State.setRx_keeps (List.Subset.trans (by decide) hm) ?_
    | with_reducible refine State.count_keeps (List.Subset.trans (by decide) hm) ?_
    | with_reducible refine State.emit_keeps (List.Subset.trans (by decide) hm) ?_
    | (with_reducible apply getD_keeps)
    | with_reducible apply ite_keeps
    | with_reducible apply foldl_keeps
    | (fail_if_no_progress (with_reducible refine mk_keeps ?_ ?_ ?_ ?_ ?_ ?_ ?_ ?_ ?_ ?_ ?_ ?_ ?_ ?_ ?_ ?_ ?_ ?_ ?_ ?_ ?_ ?_ ?_ ?_ ?_ ?_ ?_ ?_) <;> try first | (with_reducible exact Or.inl rfl) | (exact Or.inr (hm (by decide))))
    | split

theorem State.unqueue_keeps {m : List Region} {s0 s : State} {a1 a2} (hm : [Region.wt] ⊆ m) (h : Keeps m s0 s) : Keeps m s0 (State.unqueue s a1 a2) := by
  unfold State.unqueue
  try dsimp only
  repeat' first
    | intro _
    | with_reducible assumption
    | with_reducible refine State.updPort_keeps (List.Subset.trans (by decide) hm) ?_
    | with_reducible apply ite_keeps

theorem State.sendHead_keeps {m : List Region} {s0 s : State} {a1 a2} (hm : [Region.flt, Region.mem, Region.side, Region.badGrains, Region.sessions, Region.parts, Region.slc, Region.wt, Region.sec, Region.twin] ⊆ m) (h : Keeps m s0 s) : Keeps m s0 (State.sendHead s a1 a2) := by
  unfold State.sendHead
  try dsimp only
  repeat' first
    | intro _
    | with_reducible assumption
    | (refine State.formFrame_keeps (List.Subset.trans (by decide) hm) ?_ _ _ (by with_reducible assumption))
    | (with_reducible refine State.formFrame_keeps (List.Subset.trans (by decide) hm) ?_ _ _ rfl)
    | with_reducible refine State.count_keeps (List.Subset.trans (by decide) hm) ?_
    | with_reducible refine State.putFrame_keeps (List.Subset.trans (by decide) hm) ?_
    | with_reducible refine State.unqueue_keeps (List.Subset.trans (by decide) hm) ?_
    | with_reducible apply ite_keeps
    | with_reducible apply foldl_keeps
    | split

theorem State.sendResync_keeps {m : List Region} {s0 s : State} {a1} (hm : [Region.flt, Region.slc, Region.wt, Region.twin] ⊆ m) (h : Keeps m s0 s) : Keeps m s0 (State.sendResync s a1) := by
  unfold State.sendResync
  try dsimp only
  repeat' first
    | (exact List.Subset.trans (by decide) hm)
    | intro _
    | with_reducible assumption
    | (with_reducible apply State.each_keeps)
    | with_reducible refine State.count_keeps (List.Subset.trans (by decide) hm) ?_
    | with_reducible refine State.sendRecs_keeps (List.Subset.trans (by decide) hm) ?_
    | with_reducible apply ite_keeps

theorem State.swapRun_keeps {m : List Region} {s0 s : State} {a1 a2 a3} (hm : [Region.mem, Region.side, Region.sessions, Region.parts, Region.twin] ⊆ m) (h : Keeps m s0 s) : Keeps m s0 (State.swapRun s a1 a2 a3) := by
  unfold State.swapRun
  try dsimp only
  repeat' first
    | intro _
    | with_reducible assumption
    | with_reducible refine State.putPage_keeps (List.Subset.trans (by decide) hm) ?_
    | with_reducible apply ite_keeps
    | with_reducible apply foldl_keeps
    | (fail_if_no_progress (with_reducible refine mk_keeps ?_ ?_ ?_ ?_ ?_ ?_ ?_ ?_ ?_ ?_ ?_ ?_ ?_ ?_ ?_ ?_ ?_ ?_ ?_ ?_ ?_ ?_ ?_ ?_ ?_ ?_ ?_ ?_) <;> try first | (with_reducible exact Or.inl rfl) | (exact Or.inr (hm (by decide))))
    | split

theorem doCqHoldExpiry_keeps {m : List Region} {s0 s : State} {a1} (hm : [Region.draws, Region.clk, Region.flt, Region.mem, Region.side, Region.allocCtr, Region.allocs, Region.badGrains, Region.sessions, Region.provs, Region.parts, Region.ep, Region.slc, Region.wt, Region.jets, Region.sec, Region.mboxes, Region.twin] ⊆ m) (h : Keeps m s0 s) : Keeps m s0 (doCqHoldExpiry a1 s) := by
  unfold doCqHoldExpiry
  try dsimp only
  repeat' first
    | (exact List.Subset.trans (by decide) hm)
    | intro _
    | with_reducible assumption
    | with_reducible refine State.cqExpired_keeps (List.Subset.trans (by decide) hm) ?_
    | with_reducible refine State.unhold_keeps (List.Subset.trans (by decide) hm) ?_
    | with_reducible refine State.paceIngress_keeps (List.Subset.trans (by decide) hm) ?_
    | with_reducible refine State.drainHeld_keeps (List.Subset.trans (by decide) hm) ?_
    | with_reducible apply ite_keeps
    | with_reducible apply foldl_keeps
    | (fail_if_no_progress (with_reducible refine mk_keeps ?_ ?_ ?_ ?_ ?_ ?_ ?_ ?_ ?_ ?_ ?_ ?_ ?_ ?_ ?_ ?_ ?_ ?_ ?_ ?_ ?_ ?_ ?_ ?_ ?_ ?_ ?_ ?_) <;> try first | (with_reducible exact Or.inl rfl) | (exact Or.inr (hm (by decide))))
    | split

theorem doDemoteTimeout_keeps {m : List Region} {s0 s : State} {a1} (hm : [Region.mem, Region.side, Region.sessions, Region.parts] ⊆ m) (h : Keeps m s0 s) : Keeps m s0 (doDemoteTimeout a1 s) := by
  unfold doDemoteTimeout
  try dsimp only
  repeat' first
    | intro _
    | with_reducible assumption
    | with_reducible refine State.demote_keeps (List.Subset.trans (by decide) hm) ?_
    | with_reducible apply ite_keeps
    | with_reducible apply foldl_keeps
    | split

theorem doEchoRequest_keeps {m : List Region} {s0 s : State} {a1 a2 a3 a4 a5 a6} (hm : [Region.flt] ⊆ m) (h : Keeps m s0 s) : Keeps m s0 (doEchoRequest a1 a2 a3 a4 a5 a6 s) := by
  unfold doEchoRequest
  try dsimp only
  repeat' first
    | (exact List.Subset.trans (by decide) hm)
    | intro _
    | with_reducible assumption
    | with_reducible refine State.emit_keeps (List.Subset.trans (by decide) hm) ?_
    | with_reducible refine State.countPort_keeps (List.Subset.trans (by decide) hm) ?_
    | with_reducible apply ite_keeps

theorem doFrame_keeps {m : List Region} {s0 s : State} {a1 a2} (hm : [Region.draws, Region.clk, Region.flt, Region.mem, Region.side, Region.allocCtr, Region.allocs, Region.badGrains, Region.sessions, Region.provs, Region.parts, Region.ep, Region.slc, Region.wt, Region.jets, Region.sec, Region.mboxes, Region.twin] ⊆ m) (h : Keeps m s0 s) : Keeps m s0 (doFrame a1 a2 s) := by
  unfold doFrame
  try dsimp only
  repeat' first
    | (exact List.Subset.trans (by decide) hm)
    | intro _
    | with_reducible assumption
    | with_reducible refine State.receive_keeps (List.Subset.trans (by decide) hm) ?_
    | with_reducible apply ite_keeps

theorem doJoiningTimeout_keeps {m : List Region} {s0 s : State} (hm : [Region.clk, Region.flt, Region.parts, Region.slc, Region.wt, Region.jets, Region.sec, Region.mboxes, Region.twin] ⊆ m) (h : Keeps m s0 s) : Keeps m s0 (doJoiningTimeout s) := by
  unfold doJoiningTimeout
  try dsimp only
  repeat' first
    | (exact List.Subset.trans (by decide) hm)
    | intro _
    | with_reducible assumption
    | with_reducible refine State.enterSolo_keeps (List.Subset.trans (by decide) hm) ?_
    | with_reducible apply ite_keeps

theorem doLandingResume_keeps {m : List Region} {s0 s : State} {a1} (hm : [Region.draws, Region.clk, Region.flt, Region.mem, Region.side, Region.allocCtr, Region.allocs, Region.badGrains, Region.sessions, Region.provs, Region.parts, Region.ep, Region.slc, Region.wt, Region.jets, Region.sec, Region.mboxes, Region.twin] ⊆ m) (h : Keeps m s0 s) : Keeps m s0 (doLandingResume a1 s) := by
  unfold doLandingResume
  try dsimp only
  repeat' first
    | (exact List.Subset.trans (by decide) hm)
    | intro _
    | with_reducible assumption
    | with_reducible refine State.paceIngress_keeps (List.Subset.trans (by decide) hm) ?_
    | with_reducible refine State.drainHeld_keeps (List.Subset.trans (by decide) hm) ?_
    | with_reducible apply ite_keeps

theorem State.copyPage_keeps {m : List Region} {s0 s : State} {a1 a2 a3 a4} (hm : [Region.flt, Region.mem, Region.side, Region.allocs, Region.badGrains, Region.sessions, Region.parts, Region.slc, Region.wt, Region.sec, Region.twin] ⊆ m) (h : Keeps m s0 s) : ∀ t x, (State.copyPage s a1 a2 a3 a4) = (t, x) → Keeps m s0 t := by
  intro t x he
  unfold State.copyPage at he
  try dsimp only at he
  repeat' first
    | (cases he; done)
    | split at he
    | contradiction
    | cases he
    | intro _
    | with_reducible assumption
    | with_reducible refine State.noteRun_keeps (List.Subset.trans (by decide) hm) ?_
    | with_reducible refine State.failPage_keeps (List.Subset.trans (by decide) hm) ?_
    | with_reducible refine State.abandonMigr_keeps (List.Subset.trans (by decide) hm) ?_
    | with_reducible refine State.putPage_keeps (List.Subset.trans (by decide) hm) ?_
    | with_reducible refine State.copyRun_keeps (List.Subset.trans (by decide) hm) ?_

theorem doMigrationSwap_keeps {m : List Region} {s0 s : State} {a1 a2} (hm : [Region.draws, Region.flt, Region.mem, Region.side, Region.allocCtr, Region.allocs, Region.badGrains, Region.sessions, Region.parts, Region.slc, Region.wt, Region.sec, Region.twin] ⊆ m) (h : Keeps m s0 s) : Keeps m s0 (doMigrationSwap a1 a2 s) := by
  unfold doMigrationSwap
  try dsimp only
  repeat' first
    | intro _
    | with_reducible assumption
    | with_reducible refine State.startRebalance_keeps (List.Subset.trans (by decide) hm) ?_
    | with_reducible refine State.abandonMigr_keeps (List.Subset.trans (by decide) hm) ?_
    | (refine State.copyPage_keeps (List.Subset.trans (by decide) hm) ?_ _ _ (by with_reducible assumption))
    | (with_reducible refine State.copyPage_keeps (List.Subset.trans (by decide) hm) ?_ _ _ rfl)
    | with_reducible refine State.swapRun_keeps (List.Subset.trans (by decide) hm) ?_
    | with_reducible apply ite_keeps
    | with_reducible apply foldl_keeps
    | split

theorem doMirrorKeepalive_keeps {m : List Region} {s0 s : State} (hm : [Region.flt, Region.slc, Region.wt, Region.twin] ⊆ m) (h : Keeps m s0 s) : Keeps m s0 (doMirrorKeepalive s) := by
  unfold doMirrorKeepalive
  try dsimp only
  repeat' first
    | (exact List.Subset.trans (by decide) hm)
    | intro _
    | with_reducible assumption
    | with_reducible refine State.sendMirror_keeps (List.Subset.trans (by decide) hm) ?_
    | with_reducible apply ite_keeps
    | with_reducible apply foldl_keeps
    | (fail_if_no_progress (with_reducible refine mk_keeps ?_ ?_ ?_ ?_ ?_ ?_ ?_ ?_ ?_ ?_ ?_ ?_ ?_ ?_ ?_ ?_ ?_ ?_ ?_ ?_ ?_ ?_ ?_ ?_ ?_ ?_ ?_ ?_) <;> try first | (with_reducible exact Or.inl rfl) | (exact Or.inr (hm (by decide))))
    | split

theorem doNeighborSolicitation_keeps {m : List Region} {s0 s : State} {a1 a2 a3} (hm : [Region.flt] ⊆ m) (h : Keeps m s0 s) : Keeps m s0 (doNeighborSolicitation a1 a2 a3 s) := by
  unfold doNeighborSolicitation
  try dsimp only
  repeat' first
    | (exact List.Subset.trans (by decide) hm)
    | intro _
    | with_reducible assumption
    | with_reducible refine State.emit_keeps (List.Subset.trans (by decide) hm) ?_
    | with_reducible refine State.countPort_keeps (List.Subset.trans (by decide) hm) ?_
    | with_reducible apply ite_keeps

theorem doOldRunRelease_keeps {m : List Region} {s0 s : State} {a1} (hm : [Region.mem, Region.side, Region.allocs, Region.sessions, Region.parts] ⊆ m) (h : Keeps m s0 s) : Keeps m s0 (doOldRunRelease a1 s) := by
  unfold doOldRunRelease
  try dsimp only
  repeat' first
    | intro _
    | with_reducible assumption
    | with_reducible refine State.putPage_keeps (List.Subset.trans (by decide) hm) ?_
    | with_reducible refine State.freeAllocs_keeps (List.Subset.trans (by decide) hm) ?_
    | with_reducible apply ite_keeps
    | with_reducible apply foldl_keeps
    | split

theorem doOtherFrame_keeps {m : List Region} {s0 s : State} {a1 a2} (hm : [Region.flt] ⊆ m) (h : Keeps m s0 s) : Keeps m s0 (doOtherFrame a1 a2 s) := by
  unfold doOtherFrame
  try dsimp only
  repeat' first
    | (exact List.Subset.trans (by decide) hm)
    | intro _
    | with_reducible assumption
    | with_reducible refine State.countPort_keeps (List.Subset.trans (by decide) hm) ?_
    | with_reducible apply ite_keeps

theorem doPfcFrame_keeps {m : List Region} {s0 s : State} {a1 a2 a3} (hm : [Region.flt, Region.wt] ⊆ m) (h : Keeps m s0 s) : Keeps m s0 (doPfcFrame a1 a2 a3 s) := by
  unfold doPfcFrame
  try dsimp only
  repeat' first
    | (exact List.Subset.trans (by decide) hm)
    | intro _
    | with_reducible assumption
    | (with_reducible apply State.each_keeps)
    | with_reducible refine State.pausePcp_keeps (List.Subset.trans (by decide) hm) ?_
    | with_reducible apply ite_keeps

theorem doPortTransmit_keeps {m : List Region} {s0 s : State} {a1} (hm : [Region.clk, Region.flt, Region.mem, Region.side, Region.badGrains, Region.sessions, Region.parts, Region.slc, Region.wt, Region.jets, Region.sec, Region.mboxes, Region.twin] ⊆ m) (h : Keeps m s0 s) : Keeps m s0 (doPortTransmit a1 s) := by
  unfold doPortTransmit
  try dsimp only
  repeat' first
    | intro _
    | with_reducible assumption
    | with_reducible refine State.flushMirrorAck_keeps (List.Subset.trans (by decide) hm) ?_
    | with_reducible refine State.sendCtl_keeps (List.Subset.trans (by decide) hm) ?_
    | with_reducible refine State.pin_keeps (List.Subset.trans (by decide) hm) ?_
    | with_reducible refine State.updPort_keeps (List.Subset.trans (by decide) hm) ?_
    | with_reducible refine State.dropUnkeyed_keeps (List.Subset.trans (by decide) hm) ?_
    | with_reducible refine State.sendHead_keeps (List.Subset.trans (by decide) hm) ?_
    | with_reducible apply ite_keeps
    | with_reducible apply foldl_keeps
    | split

theorem doPromote_keeps {m : List Region} {s0 s : State} {a1 a2} (hm : [Region.flt, Region.mem, Region.side, Region.badGrains, Region.sessions, Region.parts, Region.slc, Region.wt, Region.sec, Region.twin] ⊆ m) (h : Keeps m s0 s) : Keeps m s0 (doPromote a1 a2 s) := by
  unfold doPromote
  try dsimp only
  repeat' first
    | intro _
    | with_reducible assumption
    | with_reducible refine State.noteRun_keeps (List.Subset.trans (by decide) hm) ?_
    | with_reducible refine State.failPage_keeps (List.Subset.trans (by decide) hm) ?_
    | with_reducible refine State.putPage_keeps (List.Subset.trans (by decide) hm) ?_
    | with_reducible apply ite_keeps
    | with_reducible apply foldl_keeps
    | split

theorem doRejoin_keeps {m : List Region} {s0 s : State} {a1 a2 a3} (hm : [Region.flt, Region.mem, Region.side, Region.allocs, Region.badGrains, Region.sessions, Region.provs, Region.parts, Region.slc, Region.wt, Region.twin] ⊆ m) (h : Keeps m s0 s) : Keeps m s0 (doRejoin a1 a2 a3 s) := by
  unfold doRejoin
  try dsimp only
  repeat' first
    | (exact List.Subset.trans (by decide) hm)
    | intro _
    | with_reducible assumption
    | with_reducible refine State.discardAfter_keeps (List.Subset.trans (by decide) hm) ?_
    | with_reducible refine State.sendResync_keeps (List.Subset.trans (by decide) hm) ?_
    | with_reducible apply ite_keeps
    | with_reducible apply foldl_keeps
    | (fail_if_no_progress (with_reducible refine mk_keeps ?_ ?_ ?_ ?_ ?_ ?_ ?_ ?_ ?_ ?_ ?_ ?_ ?_ ?_ ?_ ?_ ?_ ?_ ?_ ?_ ?_ ?_ ?_ ?_ ?_ ?_ ?_ ?_) <;> try first | (with_reducible exact Or.inl rfl) | (exact Or.inr (hm (by decide))))

theorem doResyncComplete_keeps {m : List Region} {s0 s : State} (hm : [Region.flt, Region.slc, Region.wt, Region.twin] ⊆ m) (h : Keeps m s0 s) : Keeps m s0 (doResyncComplete s) := by
  unfold doResyncComplete
  try dsimp only
  repeat' first
    | (exact List.Subset.trans (by decide) hm)
    | intro _
    | with_reducible assumption
    | with_reducible refine State.enterPaired_keeps (List.Subset.trans (by decide) hm) ?_
    | with_reducible apply ite_keeps

theorem doScrubPass_keeps {m : List Region} {s0 s : State} {a1 a2} (hm : [Region.flt, Region.mem, Region.side, Region.allocs, Region.badGrains, Region.sessions, Region.parts, Region.slc, Region.wt, Region.sec, Region.twin] ⊆ m) (h : Keeps m s0 s) : Keeps m s0 (doScrubPass a1 a2 s) := by
  unfold doScrubPass
  try dsimp only
  repeat' first
    | intro _
    | with_reducible assumption
    | with_reducible refine State.scrubGrain_keeps (List.Subset.trans (by decide) hm) ?_
    | with_reducible refine State.freeAllocs_keeps (List.Subset.trans (by decide) hm) ?_
    | with_reducible refine State.scrubHeader_keeps (List.Subset.trans (by decide) hm) ?_
    | with_reducible apply ite_keeps
    | with_reducible apply foldl_keeps
    | split

theorem doSramCopyRelease_keeps {m : List Region} {s0 s : State} {a1} (hm : [Region.mem, Region.side, Region.sessions, Region.parts] ⊆ m) (h : Keeps m s0 s) : Keeps m s0 (doSramCopyRelease a1 s) := by
  unfold doSramCopyRelease
  try dsimp only
  repeat' first
    | (exact List.Subset.trans (by decide) hm)
    | intro _
    | with_reducible assumption
    | with_reducible refine State.updPage_keeps (List.Subset.trans (by decide) hm) ?_
    | with_reducible apply ite_keeps

theorem doTwinSilenceTimeout_keeps {m : List Region} {s0 s : State} {a1 a2} (hm : [Region.clk, Region.flt, Region.parts, Region.slc, Region.wt, Region.jets, Region.sec, Region.mboxes, Region.twin] ⊆ m) (h : Keeps m s0 s) : Keeps m s0 (doTwinSilenceTimeout a1 a2 s) := by
  unfold doTwinSilenceTimeout
  try dsimp only
  repeat' first
    | (exact List.Subset.trans (by decide) hm)
    | intro _
    | with_reducible assumption
    | with_reducible refine State.enterSolo_keeps (List.Subset.trans (by decide) hm) ?_
    | with_reducible apply ite_keeps

theorem doWeirEntryAdvance_keeps {m : List Region} {s0 s : State} {a1} (hm : [Region.wt] ⊆ m) (h : Keeps m s0 s) : Keeps m s0 (doWeirEntryAdvance a1 s) := by
  unfold doWeirEntryAdvance
  try dsimp only
  repeat' first
    | (exact List.Subset.trans (by decide) hm)
    | intro _
    | with_reducible assumption
    | with_reducible refine State.updPort_keeps (List.Subset.trans (by decide) hm) ?_
    | with_reducible apply ite_keeps
    | with_reducible apply foldl_keeps
    | (fail_if_no_progress (with_reducible refine mk_keeps ?_ ?_ ?_ ?_ ?_ ?_ ?_ ?_ ?_ ?_ ?_ ?_ ?_ ?_ ?_ ?_ ?_ ?_ ?_ ?_ ?_ ?_ ?_ ?_ ?_ ?_ ?_ ?_) <;> try first | (with_reducible exact Or.inl rfl) | (exact Or.inr (hm (by decide))))
    | split

theorem doWeirTakeover_keeps {m : List Region} {s0 s : State} {a1} (hm : [Region.wt] ⊆ m) (h : Keeps m s0 s) : Keeps m s0 (doWeirTakeover a1 s) := by
  unfold doWeirTakeover
  try dsimp only
  repeat' first
    | (exact List.Subset.trans (by decide) hm)
    | intro _
    | with_reducible assumption
    | with_reducible refine State.updPort_keeps (List.Subset.trans (by decide) hm) ?_
    | with_reducible apply ite_keeps
    | with_reducible apply foldl_keeps
    | (fail_if_no_progress (with_reducible refine mk_keeps ?_ ?_ ?_ ?_ ?_ ?_ ?_ ?_ ?_ ?_ ?_ ?_ ?_ ?_ ?_ ?_ ?_ ?_ ?_ ?_ ?_ ?_ ?_ ?_ ?_ ?_ ?_ ?_) <;> try first | (with_reducible exact Or.inl rfl) | (exact Or.inr (hm (by decide))))
    | split

theorem doWriterApplyTimeout_keeps {m : List Region} {s0 s : State} (hm : [Region.clk, Region.flt, Region.parts, Region.slc, Region.wt, Region.jets, Region.sec, Region.mboxes, Region.twin] ⊆ m) (h : Keeps m s0 s) : Keeps m s0 (doWriterApplyTimeout s) := by
  unfold doWriterApplyTimeout
  try dsimp only
  repeat' first
    | (exact List.Subset.trans (by decide) hm)
    | intro _
    | with_reducible assumption
    | with_reducible refine State.enterSolo_keeps (List.Subset.trans (by decide) hm) ?_
    | with_reducible apply ite_keeps

theorem execRebalance_keeps {m : List Region} {s0 s : State} {a1} (hm : [Region.draws, Region.flt, Region.mem, Region.side, Region.allocCtr, Region.allocs, Region.sessions, Region.parts, Region.slc, Region.wt, Region.sec, Region.mboxes] ⊆ m) (h : Keeps m s0 s) : OutKeeps m s0 (execRebalance a1 s) := by
  unfold execRebalance
  repeat' first
    | (with_reducible refine run_keeps (fun _ _ => ?_) ?_)
    | intro _
    | with_reducible assumption
    | with_reducible refine doRebalance_keeps (List.Subset.trans (by decide) hm) ?_

theorem execWrite_keeps {m : List Region} {s0 s : State} {a1} (hm : [Region.draws, Region.clk, Region.flt, Region.mem, Region.side, Region.allocCtr, Region.allocs, Region.badGrains, Region.sessions, Region.provs, Region.parts, Region.ep, Region.slc, Region.wt, Region.jets, Region.sec, Region.mboxes, Region.twin] ⊆ m) (h : Keeps m s0 s) : OutKeeps m s0 (execWrite a1 s) := by
  unfold execWrite
  repeat' first
    | (with_reducible refine run_keeps (fun _ _ => ?_) ?_)
    | intro _
    | with_reducible assumption
    | with_reducible refine doFrame_keeps (List.Subset.trans (by decide) hm) ?_

theorem execWriteImm_keeps {m : List Region} {s0 s : State} {a1} (hm : [Region.draws, Region.clk, Region.flt, Region.mem, Region.side, Region.allocCtr, Region.allocs, Region.badGrains, Region.sessions, Region.provs, Region.parts, Region.ep, Region.slc, Region.wt, Region.jets, Region.sec, Region.mboxes, Region.twin] ⊆ m) (h : Keeps m s0 s) : OutKeeps m s0 (execWriteImm a1 s) := by
  unfold execWriteImm
  repeat' first
    | (with_reducible refine run_keeps (fun _ _ => ?_) ?_)
    | intro _
    | with_reducible assumption
    | with_reducible refine doFrame_keeps (List.Subset.trans (by decide) hm) ?_

theorem execWriteImmMailbox_keeps {m : List Region} {s0 s : State} {a1} (hm : [Region.draws, Region.clk, Region.flt, Region.mem, Region.side, Region.allocCtr, Region.allocs, Region.badGrains, Region.sessions, Region.provs, Region.parts, Region.ep, Region.slc, Region.wt, Region.jets, Region.sec, Region.mboxes, Region.twin] ⊆ m) (h : Keeps m s0 s) : OutKeeps m s0 (execWriteImmMailbox a1 s) := by
  unfold execWriteImmMailbox
  repeat' first
    | (with_reducible refine run_keeps (fun _ _ => ?_) ?_)
    | intro _
    | with_reducible assumption
    | with_reducible refine doFrame_keeps (List.Subset.trans (by decide) hm) ?_

theorem execCqHoldExpiry_keeps {m : List Region} {s0 s : State} {a1 a2} (hm : [Region.draws, Region.clk, Region.flt, Region.mem, Region.side, Region.allocCtr, Region.allocs, Region.badGrains, Region.sessions, Region.provs, Region.parts, Region.ep, Region.slc, Region.wt, Region.jets, Region.sec, Region.mboxes, Region.twin] ⊆ m) (h : Keeps m s0 s) : OutKeeps m s0 (execCqHoldExpiry a1 a2 s) := by
  unfold execCqHoldExpiry
  repeat' first
    | (with_reducible refine run_keeps (fun _ _ => ?_) ?_)
    | intro _
    | with_reducible assumption
    | with_reducible refine doCqHoldExpiry_keeps (List.Subset.trans (by decide) hm) ?_
    | with_reducible refine State.upTo_keeps (List.Subset.trans (by decide) hm) ?_

theorem execForwardCompletion_keeps {m : List Region} {s0 s : State} {a1} (hm : [Region.draws, Region.clk, Region.flt, Region.mem, Region.side, Region.allocCtr, Region.allocs, Region.badGrains, Region.sessions, Region.provs, Region.parts, Region.ep, Region.slc, Region.wt, Region.jets, Region.sec, Region.mboxes, Region.twin] ⊆ m) (h : Keeps m s0 s) : OutKeeps m s0 (execForwardCompletion a1 s) := by
  unfold execForwardCompletion
  repeat' first
    | (with_reducible refine run_keeps (fun _ _ => ?_) ?_)
    | intro _
    | with_reducible assumption
    | with_reducible refine doFrame_keeps (List.Subset.trans (by decide) hm) ?_

theorem execReadReq_keeps {m : List Region} {s0 s : State} {a1} (hm : [Region.draws, Region.clk, Region.flt, Region.mem, Region.side, Region.allocCtr, Region.allocs, Region.badGrains, Region.sessions, Region.provs, Region.parts, Region.ep, Region.slc, Region.wt, Region.jets, Region.sec, Region.mboxes, Region.twin] ⊆ m) (h : Keeps m s0 s) : OutKeeps m s0 (execReadReq a1 s) := by
  unfold execReadReq
  repeat' first
    | (with_reducible refine run_keeps (fun _ _ => ?_) ?_)
    | intro _
    | with_reducible assumption
    | with_reducible refine doFrame_keeps (List.Subset.trans (by decide) hm) ?_

theorem execAttend_keeps {m : List Region} {s0 s : State} {a1} (hm : [Region.draws, Region.clk, Region.flt, Region.mem, Region.side, Region.allocCtr, Region.allocs, Region.badGrains, Region.sessions, Region.provs, Region.parts, Region.ep, Region.slc, Region.wt, Region.jets, Region.sec, Region.mboxes, Region.twin] ⊆ m) (h : Keeps m s0 s) : OutKeeps m s0 (execAttend a1 s) := by
  unfold execAttend
  repeat' first
    | (with_reducible refine run_keeps (fun _ _ => ?_) ?_)
    | intro _
    | with_reducible assumption
    | with_reducible refine doFrame_keeps (List.Subset.trans (by decide) hm) ?_

theorem execAppend_keeps {m : List Region} {s0 s : State} {a1} (hm : [Region.draws, Region.clk, Region.flt, Region.mem, Region.side, Region.allocCtr, Region.allocs, Region.badGrains, Region.sessions, Region.provs, Region.parts, Region.ep, Region.slc, Region.wt, Region.jets, Region.sec, Region.mboxes, Region.twin] ⊆ m) (h : Keeps m s0 s) : OutKeeps m s0 (execAppend a1 s) := by
  unfold execAppend
  repeat' first
    | (with_reducible refine run_keeps (fun _ _ => ?_) ?_)
    | intro _
    | with_reducible assumption
    | with_reducible refine doFrame_keeps (List.Subset.trans (by decide) hm) ?_

theorem execIngest_keeps {m : List Region} {s0 s : State} {a1} (hm : [Region.draws, Region.clk, Region.flt, Region.mem, Region.side, Region.allocCtr, Region.allocs, Region.badGrains, Region.sessions, Region.provs, Region.parts, Region.ep, Region.slc, Region.wt, Region.jets, Region.sec, Region.mboxes, Region.twin] ⊆ m) (h : Keeps m s0 s) : OutKeeps m s0 (execIngest a1 s) := by
  unfold execIngest
  repeat' first
    | (with_reducible refine run_keeps (fun _ _ => ?_) ?_)
    | intro _
    | with_reducible assumption
    | with_reducible refine doFrame_keeps (List.Subset.trans (by decide) hm) ?_

theorem execCommit_keeps {m : List Region} {s0 s : State} {a1} (hm : [Region.draws, Region.clk, Region.flt, Region.mem, Region.side, Region.allocCtr, Region.allocs, Region.badGrains, Region.sessions, Region.provs, Region.parts, Region.ep, Region.slc, Region.wt, Region.jets, Region.sec, Region.mboxes, Region.twin] ⊆ m) (h : Keeps m s0 s) : OutKeeps m s0 (execCommit a1 s) := by
  unfold execCommit
  repeat' first
    | (with_reducible refine run_keeps (fun _ _ => ?_) ?_)
    | intro _
    | with_reducible assumption
    | with_reducible refine doFrame_keeps (List.Subset.trans (by decide) hm) ?_

theorem execCancel_keeps {m : List Region} {s0 s : State} {a1} (hm : [Region.draws, Region.clk, Region.flt, Region.mem, Region.side, Region.allocCtr, Region.allocs, Region.badGrains, Region.sessions, Region.provs, Region.parts, Region.ep, Region.slc, Region.wt, Region.jets, Region.sec, Region.mboxes, Region.twin] ⊆ m) (h : Keeps m s0 s) : OutKeeps m s0 (execCancel a1 s) := by
  unfold execCancel
  repeat' first
    | (with_reducible refine run_keeps (fun _ _ => ?_) ?_)
    | intro _
    | with_reducible assumption
    | with_reducible refine doFrame_keeps (List.Subset.trans (by decide) hm) ?_

theorem execSramCopyRelease_keeps {m : List Region} {s0 s : State} {a1} (hm : [Region.mem, Region.side, Region.sessions, Region.parts] ⊆ m) (h : Keeps m s0 s) : OutKeeps m s0 (execSramCopyRelease a1 s) := by
  unfold execSramCopyRelease
  repeat' first
    | (with_reducible refine run_keeps (fun _ _ => ?_) ?_)
    | intro _
    | with_reducible assumption
    | with_reducible refine doSramCopyRelease_keeps (List.Subset.trans (by decide) hm) ?_

theorem execLandingResume_keeps {m : List Region} {s0 s : State} {a1} (hm : [Region.draws, Region.clk, Region.flt, Region.mem, Region.side, Region.allocCtr, Region.allocs, Region.badGrains, Region.sessions, Region.provs, Region.parts, Region.ep, Region.slc, Region.wt, Region.jets, Region.sec, Region.mboxes, Region.twin] ⊆ m) (h : Keeps m s0 s) : OutKeeps m s0 (execLandingResume a1 s) := by
  unfold execLandingResume
  repeat' first
    | (with_reducible refine run_keeps (fun _ _ => ?_) ?_)
    | intro _
    | with_reducible assumption
    | with_reducible refine doLandingResume_keeps (List.Subset.trans (by decide) hm) ?_

theorem execHedge_keeps {m : List Region} {s0 s : State} {a1} (hm : [Region.draws, Region.clk, Region.flt, Region.mem, Region.side, Region.allocCtr, Region.allocs, Region.badGrains, Region.sessions, Region.provs, Region.parts, Region.ep, Region.slc, Region.wt, Region.jets, Region.sec, Region.mboxes, Region.twin] ⊆ m) (h : Keeps m s0 s) : OutKeeps m s0 (execHedge a1 s) := by
  unfold execHedge
  repeat' first
    | (with_reducible refine run_keeps (fun _ _ => ?_) ?_)
    | intro _
    | with_reducible assumption
    | with_reducible refine doFrame_keeps (List.Subset.trans (by decide) hm) ?_

theorem execHedgeClaim_keeps {m : List Region} {s0 s : State} {a1} (hm : [Region.draws, Region.clk, Region.flt, Region.mem, Region.side, Region.allocCtr, Region.allocs, Region.badGrains, Region.sessions, Region.provs, Region.parts, Region.ep, Region.slc, Region.wt, Region.jets, Region.sec, Region.mboxes, Region.twin] ⊆ m) (h : Keeps m s0 s) : OutKeeps m s0 (execHedgeClaim a1 s) := by
  unfold execHedgeClaim
  repeat' first
    | (with_reducible refine run_keeps (fun _ _ => ?_) ?_)
    | intro _
    | with_reducible assumption
    | with_reducible refine doFrame_keeps (List.Subset.trans (by decide) hm) ?_

theorem execMirror_keeps {m : List Region} {s0 s : State} {a1} (hm : [Region.draws, Region.clk, Region.flt, Region.mem, Region.side, Region.allocCtr, Region.allocs, Region.badGrains, Region.sessions, Region.provs, Region.parts, Region.ep, Region.slc, Region.wt, Region.jets, Region.sec, Region.mboxes, Region.twin] ⊆ m) (h : Keeps m s0 s) : OutKeeps m s0 (execMirror a1 s) := by
  unfold execMirror
  repeat' first
    | (with_reducible refine run_keeps (fun _ _ => ?_) ?_)
    | intro _
    | with_reducible assumption
    | with_reducible refine doFrame_keeps (List.Subset.trans (by decide) hm) ?_

theorem execMirrorAck_keeps {m : List Region} {s0 s : State} {a1} (hm : [Region.draws, Region.clk, Region.flt, Region.mem, Region.side, Region.allocCtr, Region.allocs, Region.badGrains, Region.sessions, Region.provs, Region.parts, Region.ep, Region.slc, Region.wt, Region.jets, Region.sec, Region.mboxes, Region.twin] ⊆ m) (h : Keeps m s0 s) : OutKeeps m s0 (execMirrorAck a1 s) := by
  unfold execMirrorAck
  repeat' first
    | (with_reducible refine run_keeps (fun _ _ => ?_) ?_)
    | intro _
    | with_reducible assumption
    | with_reducible refine doFrame_keeps (List.Subset.trans (by decide) hm) ?_

theorem execMirrorKeepalive_keeps {m : List Region} {s0 s : State} {a1} (hm : [Region.clk, Region.flt, Region.slc, Region.wt, Region.twin] ⊆ m) (h : Keeps m s0 s) : OutKeeps m s0 (execMirrorKeepalive a1 s) := by
  unfold execMirrorKeepalive
  repeat' first
    | (with_reducible refine run_keeps (fun _ _ => ?_) ?_)
    | intro _
    | with_reducible assumption
    | with_reducible refine doMirrorKeepalive_keeps (List.Subset.trans (by decide) hm) ?_
    | with_reducible refine State.upTo_keeps (List.Subset.trans (by decide) hm) ?_

theorem execWriterApplyTimeout_keeps {m : List Region} {s0 s : State} {a1} (hm : [Region.clk, Region.flt, Region.parts, Region.slc, Region.wt, Region.jets, Region.sec, Region.mboxes, Region.twin] ⊆ m) (h : Keeps m s0 s) : OutKeeps m s0 (execWriterApplyTimeout a1 s) := by
  unfold execWriterApplyTimeout
  repeat' first
    | (with_reducible refine run_keeps (fun _ _ => ?_) ?_)
    | intro _
    | with_reducible assumption
    | with_reducible refine doWriterApplyTimeout_keeps (List.Subset.trans (by decide) hm) ?_
    | with_reducible refine State.upTo_keeps (List.Subset.trans (by decide) hm) ?_

theorem execTwinSilenceTimeout_keeps {m : List Region} {s0 s : State} {a1 a2 a3} (hm : [Region.clk, Region.flt, Region.parts, Region.slc, Region.wt, Region.jets, Region.sec, Region.mboxes, Region.twin] ⊆ m) (h : Keeps m s0 s) : OutKeeps m s0 (execTwinSilenceTimeout a1 a2 a3 s) := by
  unfold execTwinSilenceTimeout
  repeat' first
    | (with_reducible refine run_keeps (fun _ _ => ?_) ?_)
    | intro _
    | with_reducible assumption
    | with_reducible refine doTwinSilenceTimeout_keeps (List.Subset.trans (by decide) hm) ?_
    | with_reducible refine State.upTo_keeps (List.Subset.trans (by decide) hm) ?_

theorem execJoiningTimeout_keeps {m : List Region} {s0 s : State} {a1} (hm : [Region.clk, Region.flt, Region.parts, Region.slc, Region.wt, Region.jets, Region.sec, Region.mboxes, Region.twin] ⊆ m) (h : Keeps m s0 s) : OutKeeps m s0 (execJoiningTimeout a1 s) := by
  unfold execJoiningTimeout
  repeat' first
    | (with_reducible refine run_keeps (fun _ _ => ?_) ?_)
    | intro _
    | with_reducible assumption
    | with_reducible refine doJoiningTimeout_keeps (List.Subset.trans (by decide) hm) ?_
    | with_reducible refine State.upTo_keeps (List.Subset.trans (by decide) hm) ?_

theorem execRejoin_keeps {m : List Region} {s0 s : State} {a1 a2 a3} (hm : [Region.flt, Region.mem, Region.side, Region.allocs, Region.badGrains, Region.sessions, Region.provs, Region.parts, Region.slc, Region.wt, Region.twin] ⊆ m) (h : Keeps m s0 s) : OutKeeps m s0 (execRejoin a1 a2 a3 s) := by
  unfold execRejoin
  repeat' first
    | (with_reducible refine run_keeps (fun _ _ => ?_) ?_)
    | intro _
    | with_reducible assumption
    | with_reducible refine doRejoin_keeps (List.Subset.trans (by decide) hm) ?_

theorem execResyncComplete_keeps {m : List Region} {s0 s : State} (hm : [Region.flt, Region.slc, Region.wt, Region.twin] ⊆ m) (h : Keeps m s0 s) : OutKeeps m s0 (execResyncComplete s) := by
  unfold execResyncComplete
  repeat' first
    | (with_reducible refine run_keeps (fun _ _ => ?_) ?_)
    | intro _
    | with_reducible assumption
    | with_reducible refine doResyncComplete_keeps (List.Subset.trans (by decide) hm) ?_

theorem execDirUpdate_keeps {m : List Region} {s0 s : State} {a1} (hm : [Region.draws, Region.clk, Region.flt, Region.mem, Region.side, Region.allocCtr, Region.allocs, Region.badGrains, Region.sessions, Region.provs, Region.parts, Region.ep, Region.slc, Region.wt, Region.jets, Region.sec, Region.mboxes, Region.twin] ⊆ m) (h : Keeps m s0 s) : OutKeeps m s0 (execDirUpdate a1 s) := by
  unfold execDirUpdate
  repeat' first
    | (with_reducible refine run_keeps (fun _ _ => ?_) ?_)
    | intro _
    | with_reducible assumption
    | with_reducible refine doFrame_keeps (List.Subset.trans (by decide) hm) ?_

theorem execDirQuery_keeps {m : List Region} {s0 s : State} {a1} (hm : [Region.draws, Region.clk, Region.flt, Region.mem, Region.side, Region.allocCtr, Region.allocs, Region.badGrains, Region.sessions, Region.provs, Region.parts, Region.ep, Region.slc, Region.wt, Region.jets, Region.sec, Region.mboxes, Region.twin] ⊆ m) (h : Keeps m s0 s) : OutKeeps m s0 (execDirQuery a1 s) := by
  unfold execDirQuery
  repeat' first
    | (with_reducible refine run_keeps (fun _ _ => ?_) ?_)
    | intro _
    | with_reducible assumption
    | with_reducible refine doFrame_keeps (List.Subset.trans (by decide) hm) ?_

theorem execVoidSync_keeps {m : List Region} {s0 s : State} {a1} (hm : [Region.draws, Region.clk, Region.flt, Region.mem, Region.side, Region.allocCtr, Region.allocs, Region.badGrains, Region.sessions, Region.provs, Region.parts, Region.ep, Region.slc, Region.wt, Region.jets, Region.sec, Region.mboxes, Region.twin] ⊆ m) (h : Keeps m s0 s) : OutKeeps m s0 (execVoidSync a1 s) := by
  unfold execVoidSync
  repeat' first
    | (with_reducible refine run_keeps (fun _ _ => ?_) ?_)
    | intro _
    | with_reducible assumption
    | with_reducible refine doFrame_keeps (List.Subset.trans (by decide) hm) ?_

theorem execVoid_keeps {m : List Region} {s0 s : State} {a1} (hm : [Region.draws, Region.clk, Region.flt, Region.mem, Region.side, Region.allocCtr, Region.allocs, Region.badGrains, Region.sessions, Region.provs, Region.parts, Region.ep, Region.slc, Region.wt, Region.jets, Region.sec, Region.mboxes, Region.twin] ⊆ m) (h : Keeps m s0 s) : OutKeeps m s0 (execVoid a1 s) := by
  unfold execVoid
  repeat' first
    | (with_reducible refine run_keeps (fun _ _ => ?_) ?_)
    | intro _
    | with_reducible assumption
    | with_reducible refine doFrame_keeps (List.Subset.trans (by decide) hm) ?_

theorem execAck_keeps {m : List Region} {s0 s : State} {a1} (hm : [Region.draws, Region.clk, Region.flt, Region.mem, Region.side, Region.allocCtr, Region.allocs, Region.badGrains, Region.sessions, Region.provs, Region.parts, Region.ep, Region.slc, Region.wt, Region.jets, Region.sec, Region.mboxes, Region.twin] ⊆ m) (h : Keeps m s0 s) : OutKeeps m s0 (execAck a1 s) := by
  unfold execAck
  repeat' first
    | (with_reducible refine run_keeps (fun _ _ => ?_) ?_)
    | intro _
    | with_reducible assumption
    | with_reducible refine doFrame_keeps (List.Subset.trans (by decide) hm) ?_

theorem execNak_keeps {m : List Region} {s0 s : State} {a1} (hm : [Region.draws, Region.clk, Region.flt, Region.mem, Region.side, Region.allocCtr, Region.allocs, Region.badGrains, Region.sessions, Region.provs, Region.parts, Region.ep, Region.slc, Region.wt, Region.jets, Region.sec, Region.mboxes, Region.twin] ⊆ m) (h : Keeps m s0 s) : OutKeeps m s0 (execNak a1 s) := by
  unfold execNak
  repeat' first
    | (with_reducible refine run_keeps (fun _ _ => ?_) ?_)
    | intro _
    | with_reducible assumption
    | with_reducible refine doFrame_keeps (List.Subset.trans (by decide) hm) ?_

theorem execPfcFrame_keeps {m : List Region} {s0 s : State} {a1 a2 a3 a4} (hm : [Region.clk, Region.flt, Region.wt] ⊆ m) (h : Keeps m s0 s) : OutKeeps m s0 (execPfcFrame a1 a2 a3 a4 s) := by
  unfold execPfcFrame
  repeat' first
    | (with_reducible refine run_keeps (fun _ _ => ?_) ?_)
    | intro _
    | with_reducible assumption
    | with_reducible refine doPfcFrame_keeps (List.Subset.trans (by decide) hm) ?_
    | with_reducible refine State.upTo_keeps (List.Subset.trans (by decide) hm) ?_

theorem execNeighborSolicitation_keeps {m : List Region} {s0 s : State} {a1 a2 a3} (hm : [Region.flt] ⊆ m) (h : Keeps m s0 s) : OutKeeps m s0 (execNeighborSolicitation a1 a2 a3 s) := by
  unfold execNeighborSolicitation
  repeat' first
    | (with_reducible refine run_keeps (fun _ _ => ?_) ?_)
    | intro _
    | with_reducible assumption
    | with_reducible refine doNeighborSolicitation_keeps (List.Subset.trans (by decide) hm) ?_

theorem execEchoRequest_keeps {m : List Region} {s0 s : State} {a1 a2 a3 a4 a5 a6} (hm : [Region.flt] ⊆ m) (h : Keeps m s0 s) : OutKeeps m s0 (execEchoRequest a1 a2 a3 a4 a5 a6 s) := by
  unfold execEchoRequest
  repeat' first
    | (with_reducible refine run_keeps (fun _ _ => ?_) ?_)
    | intro _
    | with_reducible assumption
    | with_reducible refine doEchoRequest_keeps (List.Subset.trans (by decide) hm) ?_

theorem execOtherFrame_keeps {m : List Region} {s0 s : State} {a1 a2} (hm : [Region.flt] ⊆ m) (h : Keeps m s0 s) : OutKeeps m s0 (execOtherFrame a1 a2 s) := by
  unfold execOtherFrame
  repeat' first
    | (with_reducible refine run_keeps (fun _ _ => ?_) ?_)
    | intro _
    | with_reducible assumption
    | with_reducible refine doOtherFrame_keeps (List.Subset.trans (by decide) hm) ?_

theorem execPortTransmit_keeps {m : List Region} {s0 s : State} {a1 a2} (hm : [Region.clk, Region.flt, Region.mem, Region.side, Region.badGrains, Region.sessions, Region.parts, Region.slc, Region.wt, Region.jets, Region.sec, Region.mboxes, Region.twin] ⊆ m) (h : Keeps m s0 s) : OutKeeps m s0 (execPortTransmit a1 a2 s) := by
  unfold execPortTransmit
  repeat' first
    | (with_reducible refine run_keeps (fun _ _ => ?_) ?_)
    | intro _
    | with_reducible assumption
    | with_reducible refine doPortTransmit_keeps (List.Subset.trans (by decide) hm) ?_
    | with_reducible refine State.upTo_keeps (List.Subset.trans (by decide) hm) ?_

theorem execWeirTakeover_keeps {m : List Region} {s0 s : State} {a1 a2} (hm : [Region.clk, Region.wt] ⊆ m) (h : Keeps m s0 s) : OutKeeps m s0 (execWeirTakeover a1 a2 s) := by
  unfold execWeirTakeover
  repeat' first
    | (with_reducible refine run_keeps (fun _ _ => ?_) ?_)
    | intro _
    | with_reducible assumption
    | with_reducible refine doWeirTakeover_keeps (List.Subset.trans (by decide) hm) ?_
    | with_reducible refine State.upTo_keeps (List.Subset.trans (by decide) hm) ?_

theorem execWeirEntryAdvance_keeps {m : List Region} {s0 s : State} {a1 a2} (hm : [Region.clk, Region.wt] ⊆ m) (h : Keeps m s0 s) : OutKeeps m s0 (execWeirEntryAdvance a1 a2 s) := by
  unfold execWeirEntryAdvance
  repeat' first
    | (with_reducible refine run_keeps (fun _ _ => ?_) ?_)
    | intro _
    | with_reducible assumption
    | with_reducible refine doWeirEntryAdvance_keeps (List.Subset.trans (by decide) hm) ?_
    | with_reducible refine State.upTo_keeps (List.Subset.trans (by decide) hm) ?_

theorem execPromote_keeps {m : List Region} {s0 s : State} {a1 a2} (hm : [Region.flt, Region.mem, Region.side, Region.badGrains, Region.sessions, Region.parts, Region.slc, Region.wt, Region.sec, Region.twin] ⊆ m) (h : Keeps m s0 s) : OutKeeps m s0 (execPromote a1 a2 s) := by
  unfold execPromote
  repeat' first
    | (with_reducible refine run_keeps (fun _ _ => ?_) ?_)
    | intro _
    | with_reducible assumption
    | with_reducible refine doPromote_keeps (List.Subset.trans (by decide) hm) ?_

theorem execDemoteTimeout_keeps {m : List Region} {s0 s : State} {a1 a2} (hm : [Region.clk, Region.mem, Region.side, Region.sessions, Region.parts] ⊆ m) (h : Keeps m s0 s) : OutKeeps m s0 (execDemoteTimeout a1 a2 s) := by
  unfold execDemoteTimeout
  repeat' first
    | (with_reducible refine run_keeps (fun _ _ => ?_) ?_)
    | intro _
    | with_reducible assumption
    | with_reducible refine State.upTo_keeps (List.Subset.trans (by decide) hm) ?_
    | with_reducible refine doDemoteTimeout_keeps (List.Subset.trans (by decide) hm) ?_

theorem execMigrationSwap_keeps {m : List Region} {s0 s : State} {a1 a2} (hm : [Region.draws, Region.flt, Region.mem, Region.side, Region.allocCtr, Region.allocs, Region.badGrains, Region.sessions, Region.parts, Region.slc, Region.wt, Region.sec, Region.twin] ⊆ m) (h : Keeps m s0 s) : OutKeeps m s0 (execMigrationSwap a1 a2 s) := by
  unfold execMigrationSwap
  repeat' first
    | (with_reducible refine run_keeps (fun _ _ => ?_) ?_)
    | intro _
    | with_reducible assumption
    | with_reducible refine doMigrationSwap_keeps (List.Subset.trans (by decide) hm) ?_

theorem execOldRunRelease_keeps {m : List Region} {s0 s : State} {a1} (hm : [Region.mem, Region.side, Region.allocs, Region.sessions, Region.parts] ⊆ m) (h : Keeps m s0 s) : OutKeeps m s0 (execOldRunRelease a1 s) := by
  unfold execOldRunRelease
  repeat' first
    | (with_reducible refine run_keeps (fun _ _ => ?_) ?_)
    | intro _
    | with_reducible assumption
    | with_reducible refine doOldRunRelease_keeps (List.Subset.trans (by decide) hm) ?_

theorem execScrubPass_keeps {m : List Region} {s0 s : State} {a1 a2} (hm : [Region.flt, Region.mem, Region.side, Region.allocs, Region.badGrains, Region.sessions, Region.parts, Region.slc, Region.wt, Region.sec, Region.twin] ⊆ m) (h : Keeps m s0 s) : OutKeeps m s0 (execScrubPass a1 a2 s) := by
  unfold execScrubPass
  repeat' first
    | (with_reducible refine run_keeps (fun _ _ => ?_) ?_)
    | intro _
    | with_reducible assumption
    | with_reducible refine doScrubPass_keeps (List.Subset.trans (by decide) hm) ?_

theorem execUndefinedOpcode_keeps {m : List Region} {s0 s : State} {a1} (hm : [Region.draws, Region.clk, Region.flt, Region.mem, Region.side, Region.allocCtr, Region.allocs, Region.badGrains, Region.sessions, Region.provs, Region.parts, Region.ep, Region.slc, Region.wt, Region.jets, Region.sec, Region.mboxes, Region.twin] ⊆ m) (h : Keeps m s0 s) : OutKeeps m s0 (execUndefinedOpcode a1 s) := by
  unfold execUndefinedOpcode
  repeat' first
    | (with_reducible refine run_keeps (fun _ _ => ?_) ?_)
    | intro _
    | with_reducible assumption
    | with_reducible refine doFrame_keeps (List.Subset.trans (by decide) hm) ?_

theorem execMalformedFrame_keeps {m : List Region} {s0 s : State} {a1} (hm : [Region.draws, Region.clk, Region.flt, Region.mem, Region.side, Region.allocCtr, Region.allocs, Region.badGrains, Region.sessions, Region.provs, Region.parts, Region.ep, Region.slc, Region.wt, Region.jets, Region.sec, Region.mboxes, Region.twin] ⊆ m) (h : Keeps m s0 s) : OutKeeps m s0 (execMalformedFrame a1 s) := by
  unfold execMalformedFrame
  repeat' first
    | (with_reducible refine run_keeps (fun _ _ => ?_) ?_)
    | intro _
    | with_reducible assumption
    | with_reducible refine doFrame_keeps (List.Subset.trans (by decide) hm) ?_

end Sys2Proof.Machine
end

