-- ==== Sys2Proof/Laws/FrameReset.lean ====
section
/-! SUPPORT. The frames of spares, resets, bring-up, fault verdicts and power.
One lemma per operation: the parts of the state outside its list stand as before. -/

namespace Sys2Proof.Machine

theorem State.failJet_keeps {m : List Region} {s0 s : State} {a1} (hm : [Region.flt, Region.jets] ⊆ m) (h : Keeps m s0 s) : Keeps m s0 (State.failJet s a1) := by
  unfold State.failJet
  try dsimp only
  repeat' first
    | intro _
    | with_reducible assumption
    | with_reducible refine State.fault_keeps (List.Subset.trans (by decide) hm) ?_
    | with_reducible refine State.isolateJet_keeps (List.Subset.trans (by decide) hm) ?_

theorem State.resetJet_keeps {m : List Region} {s0 s : State} {a1 a2} (hm : [Region.clk, Region.flt, Region.provs, Region.parts, Region.slc, Region.wt, Region.jets, Region.twin] ⊆ m) (h : Keeps m s0 s) : Keeps m s0 (State.resetJet s a1 a2) := by
  unfold State.resetJet
  try dsimp only
  repeat' first
    | intro _
    | with_reducible assumption
    | with_reducible refine State.collectJet_keeps (List.Subset.trans (by decide) hm) ?_
    | with_reducible refine State.isolateJet_keeps (List.Subset.trans (by decide) hm) ?_
    | with_reducible refine State.setJet_keeps (List.Subset.trans (by decide) hm) ?_
    | with_reducible refine State.placeCmds_keeps (List.Subset.trans (by decide) hm) ?_
    | with_reducible refine State.failJet_keeps (List.Subset.trans (by decide) hm) ?_
    | with_reducible apply ite_keeps

theorem State.resetJetOf_keeps {m : List Region} {s0 s : State} {a1} (hm : [Region.draws, Region.clk, Region.flt, Region.provs, Region.parts, Region.slc, Region.wt, Region.jets, Region.twin] ⊆ m) (h : Keeps m s0 s) : Keeps m s0 (State.resetJetOf s a1) := by
  unfold State.resetJetOf
  try dsimp only
  repeat' first
    | intro _
    | with_reducible assumption
    | (refine State.drawTest_keeps (List.Subset.trans (by decide) hm) ?_ _ _ (by with_reducible assumption))
    | (with_reducible refine State.drawTest_keeps (List.Subset.trans (by decide) hm) ?_ _ _ rfl)
    | with_reducible refine State.resetJet_keeps (List.Subset.trans (by decide) hm) ?_

theorem State.scrub_keeps {m : List Region} {s0 s : State} {a1} (hm : [Region.draws, Region.clk, Region.flt, Region.mem, Region.side, Region.allocCtr, Region.allocs, Region.badGrains, Region.sessions, Region.provs, Region.parts, Region.cfg, Region.slc, Region.wt, Region.jets, Region.sec, Region.twin] ⊆ m) (h : Keeps m s0 s) : Keeps m s0 (State.scrub s a1) := by
  cases a1 with
  | channelGroup g =>
    unfold State.scrub
    exact State.each_keeps (fun _ _ ht => State.resetJetOf_keeps (List.Subset.trans (by decide) hm) ht)
      (State.freeAllocs_keeps (List.Subset.trans (by decide) hm) (State.zeroGroup_keeps (List.Subset.trans (by decide) hm) h))
  | slice n =>
    unfold State.scrub
    generalize 65536 = k
    fail_if_no_progress (with_reducible refine mk_keeps ?_ ?_ ?_ ?_ ?_ ?_ ?_ ?_ ?_ ?_ ?_ ?_ ?_ ?_ ?_ ?_ ?_ ?_ ?_ ?_ ?_ ?_ ?_ ?_ ?_ ?_ ?_ ?_) <;> try first | (with_reducible exact Or.inl rfl) | (exact Or.inr (hm (by decide)))
    exact h
  | cluster _ => exact h
  | windowBlock b =>
    unfold State.scrub
    generalize 4096 = n
    generalize List.map (fun i => n * b + i) (List.range n) = l
    dsimp only
    fail_if_no_progress (with_reducible refine mk_keeps ?_ ?_ ?_ ?_ ?_ ?_ ?_ ?_ ?_ ?_ ?_ ?_ ?_ ?_ ?_ ?_ ?_ ?_ ?_ ?_ ?_ ?_ ?_ ?_ ?_ ?_ ?_ ?_) <;> try first | (with_reducible exact Or.inl rfl) | (exact Or.inr (hm (by decide)))
    exact h
  | keySlot k => exact State.setKey_keeps (List.Subset.trans (by decide) hm) h
  | sessionBlock b =>
    unfold State.scrub
    generalize 65536 = k
    refine State.freeAllocs_keeps (List.Subset.trans (by decide) hm) ?_
    fail_if_no_progress (with_reducible refine mk_keeps ?_ ?_ ?_ ?_ ?_ ?_ ?_ ?_ ?_ ?_ ?_ ?_ ?_ ?_ ?_ ?_ ?_ ?_ ?_ ?_ ?_ ?_ ?_ ?_ ?_ ?_ ?_ ?_) <;> try first | (with_reducible exact Or.inl rfl) | (exact Or.inr (hm (by decide)))
    exact h

theorem doResourceScrubDone_keeps {m : List Region} {s0 s : State} {a1} (hm : [Region.draws, Region.clk, Region.flt, Region.mem, Region.side, Region.allocCtr, Region.allocs, Region.badGrains, Region.sessions, Region.provs, Region.parts, Region.cfg, Region.slc, Region.wt, Region.jets, Region.sec, Region.twin] ⊆ m) (h : Keeps m s0 s) : Keeps m s0 (doResourceScrubDone a1 s) := by
  unfold doResourceScrubDone
  try dsimp only
  repeat' first
    | (exact List.Subset.trans (by decide) hm)
    | intro _
    | with_reducible assumption
    | with_reducible refine State.writeGates_keeps (List.Subset.trans (by decide) hm) ?_
    | with_reducible refine State.scrub_keeps (List.Subset.trans (by decide) hm) ?_
    | with_reducible apply ite_keeps
    | with_reducible apply foldl_keeps
    | (fail_if_no_progress (with_reducible refine mk_keeps ?_ ?_ ?_ ?_ ?_ ?_ ?_ ?_ ?_ ?_ ?_ ?_ ?_ ?_ ?_ ?_ ?_ ?_ ?_ ?_ ?_ ?_ ?_ ?_ ?_ ?_ ?_ ?_) <;> try first | (with_reducible exact Or.inl rfl) | (exact Or.inr (hm (by decide))))

theorem execResourceScrubDone_keeps {m : List Region} {s0 s : State} {a1} (hm : [Region.draws, Region.clk, Region.flt, Region.mem, Region.side, Region.allocCtr, Region.allocs, Region.badGrains, Region.sessions, Region.provs, Region.parts, Region.cfg, Region.slc, Region.wt, Region.jets, Region.sec, Region.twin] ⊆ m) (h : Keeps m s0 s) : OutKeeps m s0 (execResourceScrubDone a1 s) := by
  unfold execResourceScrubDone
  repeat' first
    | (with_reducible refine run_keeps (fun _ _ => ?_) ?_)
    | intro _
    | with_reducible assumption
    | with_reducible refine doResourceScrubDone_keeps (List.Subset.trans (by decide) hm) ?_

theorem State.afterFull_keeps {m : List Region} {s0 s : State} {a1} (hm : [Region.draws, Region.pins, Region.boot, Region.clk, Region.pwr, Region.flt, Region.spares, Region.allocCtr, Region.allocs, Region.badGrains, Region.sessions, Region.provs, Region.parts, Region.cfg, Region.ep, Region.slc, Region.wt, Region.jets, Region.jetSched, Region.sec, Region.mboxes, Region.mbNext, Region.twin, Region.sb] ⊆ m) (h : Keeps m s0 s) :
    Keeps m s0 (s.afterFull a1) := by
  refine ⟨fun p hp => ?_⟩
  cases p
  case pending => exact h.same .pending hp
  case fuses => exact h.same .fuses hp
  case mem => exact h.same .mem hp
  case side => exact h.same .side hp
  all_goals exact absurd (hm (by decide)) hp

theorem State.afterRetain_keeps {m : List Region} {s0 s : State} {a1} (hm : [Region.draws, Region.pins, Region.boot, Region.clk, Region.pwr, Region.flt, Region.spares, Region.allocCtr, Region.allocs, Region.badGrains, Region.sessions, Region.provs, Region.parts, Region.cfg, Region.ep, Region.slc, Region.wt, Region.jets, Region.jetSched, Region.sec, Region.mboxes, Region.mbNext, Region.twin, Region.sb] ⊆ m) (h : Keeps m s0 s) : Keeps m s0 (State.afterRetain s a1) := by
  unfold State.afterRetain
  try dsimp only
  repeat' first
    | intro _
    | with_reducible assumption
    | with_reducible refine State.afterFull_keeps (List.Subset.trans (by decide) hm) ?_
    | with_reducible apply ite_keeps
    | with_reducible apply foldl_keeps
    | (fail_if_no_progress (with_reducible refine mk_keeps ?_ ?_ ?_ ?_ ?_ ?_ ?_ ?_ ?_ ?_ ?_ ?_ ?_ ?_ ?_ ?_ ?_ ?_ ?_ ?_ ?_ ?_ ?_ ?_ ?_ ?_ ?_ ?_) <;> try first | (with_reducible exact Or.inl rfl) | (exact Or.inr (hm (by decide))))

theorem State.cancelParked_keeps {m : List Region} {s0 s : State} {a1} (hm : [Region.flt, Region.slc, Region.wt, Region.sec, Region.mboxes] ⊆ m) (h : Keeps m s0 s) :
    Keeps m s0 (s.cancelParked a1) := by
  have h1 := State.unpark_keeps (a1 := cutByReset a1) (a2 := stCancelled) (a3 := fun _ _ => []) (List.Subset.trans (by decide) hm) h
  unfold State.cancelParked
  dsimp only
  revert h1
  generalize s.unpark (cutByReset a1) stCancelled (fun _ _ => []) = t
  intro h1
  fail_if_no_progress (with_reducible refine mk_keeps ?_ ?_ ?_ ?_ ?_ ?_ ?_ ?_ ?_ ?_ ?_ ?_ ?_ ?_ ?_ ?_ ?_ ?_ ?_ ?_ ?_ ?_ ?_ ?_ ?_ ?_ ?_ ?_) <;> try first | (with_reducible exact Or.inl rfl) | (exact Or.inr (hm (by decide)))
  exact h1

theorem State.clearPart_keeps {m : List Region} {s0 s : State} {a1} (hm : [Region.mem, Region.side, Region.allocs, Region.sessions, Region.provs, Region.parts] ⊆ m) (h : Keeps m s0 s) : Keeps m s0 (State.clearPart s a1) := by
  unfold State.clearPart
  try dsimp only
  repeat' first
    | (exact List.Subset.trans (by decide) hm)
    | intro _
    | with_reducible assumption
    | with_reducible refine State.dropProvs_keeps (List.Subset.trans (by decide) hm) ?_
    | (with_reducible apply State.each_keeps)
    | with_reducible refine State.updPage_keeps (List.Subset.trans (by decide) hm) ?_
    | with_reducible refine State.abandonMigr_keeps (List.Subset.trans (by decide) hm) ?_
    | with_reducible refine State.updPart_keeps (List.Subset.trans (by decide) hm) ?_

theorem State.resetJets_keeps {m : List Region} {s0 s : State} {a1} (hm : [Region.draws, Region.clk, Region.flt, Region.provs, Region.parts, Region.slc, Region.wt, Region.jets, Region.twin] ⊆ m) (h : Keeps m s0 s) : Keeps m s0 (State.resetJets s a1) := by
  unfold State.resetJets
  try dsimp only
  repeat' first
    | intro _
    | with_reducible assumption
    | (with_reducible apply State.each_keeps)
    | with_reducible refine State.resetJetOf_keeps (List.Subset.trans (by decide) hm) ?_
    | with_reducible apply ite_keeps
    | with_reducible apply foldl_keeps
    | (fail_if_no_progress (with_reducible refine mk_keeps ?_ ?_ ?_ ?_ ?_ ?_ ?_ ?_ ?_ ?_ ?_ ?_ ?_ ?_ ?_ ?_ ?_ ?_ ?_ ?_ ?_ ?_ ?_ ?_ ?_ ?_ ?_ ?_) <;> try first | (with_reducible exact Or.inl rfl) | (exact Or.inr (hm (by decide))))

theorem State.dropOpens_keeps {m : List Region} {s0 s : State} {a1} (hm : [Region.slc, Region.wt] ⊆ m) (h : Keeps m s0 s) : Keeps m s0 (State.dropOpens s a1) := by
  unfold State.dropOpens
  try dsimp only
  repeat' first
    | (exact List.Subset.trans (by decide) hm)
    | intro _
    | with_reducible assumption
    | (with_reducible apply State.each_keeps)
    | with_reducible refine State.dropOpen_keeps (List.Subset.trans (by decide) hm) ?_

theorem State.cancelRequests_keeps {m : List Region} {s0 s : State} {a1} (hm : [Region.clk, Region.flt, Region.provs, Region.slc, Region.wt, Region.jets, Region.sec, Region.mboxes, Region.twin] ⊆ m) (h : Keeps m s0 s) : Keeps m s0 (State.cancelRequests s a1) := by
  unfold State.cancelRequests
  try dsimp only
  repeat' first
    | (exact List.Subset.trans (by decide) hm)
    | intro _
    | with_reducible assumption
    | (with_reducible apply State.each_keeps)
    | with_reducible refine State.endReq_keeps (List.Subset.trans (by decide) hm) ?_
    | with_reducible refine State.refuseLanded_keeps (List.Subset.trans (by decide) hm) ?_
    | with_reducible refine State.settleForward_keeps (List.Subset.trans (by decide) hm) ?_

theorem State.beginPartReset_keeps {m : List Region} {s0 s : State} {a1} (hm : [Region.draws, Region.clk, Region.flt, Region.mem, Region.side, Region.allocs, Region.sessions, Region.provs, Region.parts, Region.slc, Region.wt, Region.jets, Region.sec, Region.mboxes, Region.twin] ⊆ m) (h : Keeps m s0 s) : Keeps m s0 (State.beginPartReset s a1) := by
  unfold State.beginPartReset
  try dsimp only
  repeat' first
    | intro _
    | with_reducible assumption
    | with_reducible refine State.cancelParked_keeps (List.Subset.trans (by decide) hm) ?_
    | with_reducible refine State.clearPart_keeps (List.Subset.trans (by decide) hm) ?_
    | with_reducible refine State.resetJets_keeps (List.Subset.trans (by decide) hm) ?_
    | with_reducible refine State.dropOpens_keeps (List.Subset.trans (by decide) hm) ?_
    | with_reducible refine State.cancelRequests_keeps (List.Subset.trans (by decide) hm) ?_
    | with_reducible apply ite_keeps
    | with_reducible apply foldl_keeps
    | (fail_if_no_progress (with_reducible refine mk_keeps ?_ ?_ ?_ ?_ ?_ ?_ ?_ ?_ ?_ ?_ ?_ ?_ ?_ ?_ ?_ ?_ ?_ ?_ ?_ ?_ ?_ ?_ ?_ ?_ ?_ ?_ ?_ ?_) <;> try first | (with_reducible exact Or.inl rfl) | (exact Or.inr (hm (by decide))))

theorem State.clearFirst_keeps {m : List Region} {s0 s : State} (hm : [Region.flt] ⊆ m) (h : Keeps m s0 s) : Keeps m s0 (State.clearFirst s) := by
  unfold State.clearFirst
  try dsimp only
  repeat' first
    | intro _
    | with_reducible assumption
    | with_reducible apply ite_keeps
    | with_reducible apply foldl_keeps
    | (fail_if_no_progress (with_reducible refine mk_keeps ?_ ?_ ?_ ?_ ?_ ?_ ?_ ?_ ?_ ?_ ?_ ?_ ?_ ?_ ?_ ?_ ?_ ?_ ?_ ?_ ?_ ?_ ?_ ?_ ?_ ?_ ?_ ?_) <;> try first | (with_reducible exact Or.inl rfl) | (exact Or.inr (hm (by decide))))

theorem State.clearHist_keeps {m : List Region} {s0 s : State} (hm : [Region.flt] ⊆ m) (h : Keeps m s0 s) : Keeps m s0 (State.clearHist s) := by
  unfold State.clearHist
  try dsimp only
  repeat' first
    | intro _
    | with_reducible assumption
    | with_reducible apply ite_keeps
    | with_reducible apply foldl_keeps
    | (fail_if_no_progress (with_reducible refine mk_keeps ?_ ?_ ?_ ?_ ?_ ?_ ?_ ?_ ?_ ?_ ?_ ?_ ?_ ?_ ?_ ?_ ?_ ?_ ?_ ?_ ?_ ?_ ?_ ?_ ?_ ?_ ?_ ?_) <;> try first | (with_reducible exact Or.inl rfl) | (exact Or.inr (hm (by decide))))

theorem State.closeHostQueues_keeps {m : List Region} {s0 s : State} (hm : [Region.slc] ⊆ m) (h : Keeps m s0 s) : Keeps m s0 (State.closeHostQueues s) := by
  unfold State.closeHostQueues
  try dsimp only
  repeat' first
    | intro _
    | with_reducible assumption
    | with_reducible apply ite_keeps
    | with_reducible apply foldl_keeps
    | (fail_if_no_progress (with_reducible refine mk_keeps ?_ ?_ ?_ ?_ ?_ ?_ ?_ ?_ ?_ ?_ ?_ ?_ ?_ ?_ ?_ ?_ ?_ ?_ ?_ ?_ ?_ ?_ ?_ ?_ ?_ ?_ ?_ ?_) <;> try first | (with_reducible exact Or.inl rfl) | (exact Or.inr (hm (by decide))))

theorem State.containWhere_keeps {m : List Region} {s0 s : State} {a1} (hm : [Region.flt, Region.mem, Region.side, Region.sessions, Region.parts, Region.slc, Region.wt, Region.twin] ⊆ m) (h : Keeps m s0 s) : Keeps m s0 (State.containWhere s a1) := by
  unfold State.containWhere
  try dsimp only
  repeat' first
    | (exact List.Subset.trans (by decide) hm)
    | intro _
    | with_reducible assumption
    | (with_reducible apply State.each_keeps)
    | with_reducible refine State.containPage_keeps (List.Subset.trans (by decide) hm) ?_

theorem State.nodeReset_keeps {m : List Region} {s0 s : State} {a1 a2} (hm : [Region.draws, Region.pins, Region.boot, Region.clk, Region.pwr, Region.flt, Region.spares, Region.allocCtr, Region.allocs, Region.badGrains, Region.sessions, Region.provs, Region.parts, Region.cfg, Region.ep, Region.slc, Region.wt, Region.jets, Region.jetSched, Region.sec, Region.mboxes, Region.mbNext, Region.twin, Region.sb] ⊆ m) (h : Keeps m s0 s) : Keeps m s0 (State.nodeReset s a1 a2) := by
  unfold State.nodeReset
  try dsimp only
  repeat' first
    | intro _
    | with_reducible assumption
    | with_reducible refine State.afterFull_keeps (List.Subset.trans (by decide) hm) ?_
    | with_reducible refine State.afterRetain_keeps (List.Subset.trans (by decide) hm) ?_
    | with_reducible apply ite_keeps
    | with_reducible apply foldl_keeps
    | (fail_if_no_progress (with_reducible refine mk_keeps ?_ ?_ ?_ ?_ ?_ ?_ ?_ ?_ ?_ ?_ ?_ ?_ ?_ ?_ ?_ ?_ ?_ ?_ ?_ ?_ ?_ ?_ ?_ ?_ ?_ ?_ ?_ ?_) <;> try first | (with_reducible exact Or.inl rfl) | (exact Or.inr (hm (by decide))))
    | split

theorem State.restoreGates_keeps {m : List Region} {s0 s : State} (hm : [Region.sec] ⊆ m) (h : Keeps m s0 s) : Keeps m s0 (State.restoreGates s) := by
  unfold State.restoreGates
  try dsimp only
  repeat' first
    | (exact List.Subset.trans (by decide) hm)
    | intro _
    | with_reducible assumption
    | (with_reducible apply State.each_keeps)
    | with_reducible refine State.writeGates_keeps (List.Subset.trans (by decide) hm) ?_

theorem State.restoreImage_keeps {m : List Region} {s0 s : State} (hm : [Region.draws, Region.pins, Region.boot, Region.clk, Region.pwr, Region.flt, Region.spares, Region.allocCtr, Region.allocs, Region.badGrains, Region.sessions, Region.provs, Region.parts, Region.cfg, Region.ep, Region.slc, Region.wt, Region.jets, Region.jetSched, Region.sec, Region.mboxes, Region.mbNext, Region.twin, Region.sb] ⊆ m) (h : Keeps m s0 s) : Keeps m s0 (State.restoreImage s) := by
  unfold State.restoreImage
  try dsimp only
  repeat' first
    | intro _
    | with_reducible assumption
    | with_reducible refine State.nodeReset_keeps (List.Subset.trans (by decide) hm) ?_
    | with_reducible refine State.restoreGates_keeps (List.Subset.trans (by decide) hm) ?_
    | with_reducible apply ite_keeps
    | with_reducible apply foldl_keeps
    | (fail_if_no_progress (with_reducible refine mk_keeps ?_ ?_ ?_ ?_ ?_ ?_ ?_ ?_ ?_ ?_ ?_ ?_ ?_ ?_ ?_ ?_ ?_ ?_ ?_ ?_ ?_ ?_ ?_ ?_ ?_ ?_ ?_ ?_) <;> try first | (with_reducible exact Or.inl rfl) | (exact Or.inr (hm (by decide))))
    | split

theorem State.endStep3_keeps {m : List Region} {s0 s : State} (hm : [Region.draws, Region.pins, Region.boot, Region.clk, Region.pwr, Region.flt, Region.spares, Region.allocCtr, Region.allocs, Region.badGrains, Region.sessions, Region.provs, Region.parts, Region.cfg, Region.ep, Region.slc, Region.wt, Region.jets, Region.jetSched, Region.sec, Region.mboxes, Region.mbNext, Region.twin, Region.sb] ⊆ m) (h : Keeps m s0 s) : Keeps m s0 (State.endStep3 s) := by
  unfold State.endStep3
  try dsimp only
  repeat' first
    | intro _
    | with_reducible assumption
    | with_reducible refine State.restoreImage_keeps (List.Subset.trans (by decide) hm) ?_
    | with_reducible refine State.toStage_keeps (List.Subset.trans (by decide) hm) ?_
    | with_reducible apply ite_keeps
    | with_reducible apply foldl_keeps
    | (fail_if_no_progress (with_reducible refine mk_keeps ?_ ?_ ?_ ?_ ?_ ?_ ?_ ?_ ?_ ?_ ?_ ?_ ?_ ?_ ?_ ?_ ?_ ?_ ?_ ?_ ?_ ?_ ?_ ?_ ?_ ?_ ?_ ?_) <;> try first | (with_reducible exact Or.inl rfl) | (exact Or.inr (hm (by decide))))

theorem State.endStep4_keeps {m : List Region} {s0 s : State} (hm : [Region.boot, Region.sb] ⊆ m) (h : Keeps m s0 s) : Keeps m s0 (State.endStep4 s) := by
  unfold State.endStep4
  try dsimp only
  repeat' first
    | intro _
    | with_reducible assumption
    | with_reducible refine State.toStage_keeps (List.Subset.trans (by decide) hm) ?_
    | with_reducible apply ite_keeps

theorem State.fatal_keeps {m : List Region} {s0 s : State} {a1 a2 a3} (hm : [Region.draws, Region.pins, Region.boot, Region.clk, Region.pwr, Region.flt, Region.spares, Region.allocCtr, Region.allocs, Region.badGrains, Region.sessions, Region.provs, Region.parts, Region.cfg, Region.ep, Region.slc, Region.wt, Region.jets, Region.jetSched, Region.sec, Region.mboxes, Region.mbNext, Region.twin, Region.sb] ⊆ m) (h : Keeps m s0 s) : Keeps m s0 (State.fatal s a1 a2 a3) := by
  unfold State.fatal
  try dsimp only
  repeat' first
    | intro _
    | with_reducible assumption
    | with_reducible refine State.fault_keeps (List.Subset.trans (by decide) hm) ?_
    | with_reducible refine State.nodeReset_keeps (List.Subset.trans (by decide) hm) ?_
    | with_reducible refine State.toStage_keeps (List.Subset.trans (by decide) hm) ?_
    | with_reducible apply ite_keeps
    | with_reducible apply foldl_keeps
    | (fail_if_no_progress (with_reducible refine mk_keeps ?_ ?_ ?_ ?_ ?_ ?_ ?_ ?_ ?_ ?_ ?_ ?_ ?_ ?_ ?_ ?_ ?_ ?_ ?_ ?_ ?_ ?_ ?_ ?_ ?_ ?_ ?_ ?_) <;> try first | (with_reducible exact Or.inl rfl) | (exact Or.inr (hm (by decide))))

theorem State.functionReset_keeps {m : List Region} {s0 s : State} (hm : [Region.clk, Region.flt, Region.provs, Region.slc, Region.wt, Region.jets, Region.sec, Region.mboxes, Region.twin] ⊆ m) (h : Keeps m s0 s) :
    Keeps m s0 s.functionReset := by
  unfold State.functionReset
  dsimp only
  have h1 := State.closeHostQueues_keeps (List.Subset.trans (by decide) hm) h
  have h2 := State.each_keeps (f := fun (t : State) (r : Nat) => t.endReq r stCancelled)
    (l := (s.slc.reqs.filter fun x => x.2.msg.isHost && !x.2.complete).map Prod.fst)
    (fun t r ht => State.endReq_keeps (List.Subset.trans (by decide) hm) ht) h1
  revert h2
  generalize s.closeHostQueues.each _ _ = u
  intro h2
  have h3 := State.unpark_keeps (a1 := fun op c => op == 0x0061#16 && (((s.slc.queues.filter fun q =>
    (qType q.2.ctx == 2 || qType q.2.ctx == 3) && q.2.stopping).map Prod.fst).contains (leNat c.body))) (a2 := stOk)
    (a3 := fun _ _ => []) (List.Subset.trans (by decide) hm) h2
  revert h3
  generalize u.unpark _ _ _ = v
  intro h3
  fail_if_no_progress (with_reducible refine mk_keeps ?_ ?_ ?_ ?_ ?_ ?_ ?_ ?_ ?_ ?_ ?_ ?_ ?_ ?_ ?_ ?_ ?_ ?_ ?_ ?_ ?_ ?_ ?_ ?_ ?_ ?_ ?_ ?_) <;> try first | (with_reducible exact Or.inl rfl) | (exact Or.inr (hm (by decide)))
  exact h3

theorem State.laneTested_keeps {m : List Region} {s0 s : State} {a1 a2 a3} (hm : [Region.flt, Region.spares] ⊆ m) (h : Keeps m s0 s) : Keeps m s0 (State.laneTested s a1 a2 a3) := by
  unfold State.laneTested
  try dsimp only
  repeat' first
    | intro _
    | with_reducible assumption
    | with_reducible refine State.sparedIn_keeps (List.Subset.trans (by decide) hm) ?_
    | with_reducible apply ite_keeps
    | with_reducible apply foldl_keeps
    | (fail_if_no_progress (with_reducible refine mk_keeps ?_ ?_ ?_ ?_ ?_ ?_ ?_ ?_ ?_ ?_ ?_ ?_ ?_ ?_ ?_ ?_ ?_ ?_ ?_ ?_ ?_ ?_ ?_ ?_ ?_ ?_ ?_ ?_) <;> try first | (with_reducible exact Or.inl rfl) | (exact Or.inr (hm (by decide))))

theorem State.takeSpareRow_keeps {m : List Region} {s0 s : State} {a1} (hm : [Region.flt, Region.spares] ⊆ m) (h : Keeps m s0 s) : ∀ t, (State.takeSpareRow s a1) = some t → Keeps m s0 t := by
  intro t he
  unfold State.takeSpareRow at he
  try dsimp only at he
  repeat' first
    | (cases he; done)
    | split at he
    | contradiction
    | cases he
    | intro _
    | with_reducible assumption
    | with_reducible refine State.sparedIn_keeps (List.Subset.trans (by decide) hm) ?_
    | with_reducible apply ite_keeps
    | with_reducible apply foldl_keeps
    | (fail_if_no_progress (with_reducible refine mk_keeps ?_ ?_ ?_ ?_ ?_ ?_ ?_ ?_ ?_ ?_ ?_ ?_ ?_ ?_ ?_ ?_ ?_ ?_ ?_ ?_ ?_ ?_ ?_ ?_ ?_ ?_ ?_ ?_) <;> try first | (with_reducible exact Or.inl rfl) | (exact Or.inr (hm (by decide))))

theorem State.loseChannel_keeps {m : List Region} {s0 s : State} {a1} (hm : [Region.boot, Region.flt, Region.spares, Region.mem, Region.side, Region.sessions, Region.parts, Region.slc, Region.wt, Region.twin] ⊆ m) (h : Keeps m s0 s) : Keeps m s0 (State.loseChannel s a1) := by
  unfold State.loseChannel
  try dsimp only
  repeat' first
    | intro _
    | with_reducible assumption
    | with_reducible refine State.fault_keeps (List.Subset.trans (by decide) hm) ?_
    | with_reducible refine State.containWhere_keeps (List.Subset.trans (by decide) hm) ?_
    | with_reducible apply ite_keeps
    | with_reducible apply foldl_keeps
    | (fail_if_no_progress (with_reducible refine mk_keeps ?_ ?_ ?_ ?_ ?_ ?_ ?_ ?_ ?_ ?_ ?_ ?_ ?_ ?_ ?_ ?_ ?_ ?_ ?_ ?_ ?_ ?_ ?_ ?_ ?_ ?_ ?_ ?_) <;> try first | (with_reducible exact Or.inl rfl) | (exact Or.inr (hm (by decide))))

theorem State.portOut_keeps {m : List Region} {s0 s : State} {a1 a2} (hm : [Region.flt, Region.spares, Region.wt] ⊆ m) (h : Keeps m s0 s) : Keeps m s0 (State.portOut s a1 a2) := by
  unfold State.portOut
  try dsimp only
  repeat' first
    | intro _
    | with_reducible assumption
    | with_reducible refine State.spareEvent_keeps (List.Subset.trans (by decide) hm) ?_
    | with_reducible refine State.linkLost_keeps (List.Subset.trans (by decide) hm) ?_
    | with_reducible apply ite_keeps
    | with_reducible apply foldl_keeps
    | (fail_if_no_progress (with_reducible refine mk_keeps ?_ ?_ ?_ ?_ ?_ ?_ ?_ ?_ ?_ ?_ ?_ ?_ ?_ ?_ ?_ ?_ ?_ ?_ ?_ ?_ ?_ ?_ ?_ ?_ ?_ ?_ ?_ ?_) <;> try first | (with_reducible exact Or.inl rfl) | (exact Or.inr (hm (by decide))))

theorem State.loseArray_keeps {m : List Region} {s0 s : State} {a1} (hm : [Region.flt, Region.spares] ⊆ m) (h : Keeps m s0 s) : Keeps m s0 (State.loseArray s a1) := by
  unfold State.loseArray
  try dsimp only
  repeat' first
    | intro _
    | with_reducible assumption
    | with_reducible refine State.spareEvent_keeps (List.Subset.trans (by decide) hm) ?_
    | with_reducible refine State.sparedIn_keeps (List.Subset.trans (by decide) hm) ?_
    | with_reducible apply ite_keeps
    | with_reducible apply foldl_keeps
    | (fail_if_no_progress (with_reducible refine mk_keeps ?_ ?_ ?_ ?_ ?_ ?_ ?_ ?_ ?_ ?_ ?_ ?_ ?_ ?_ ?_ ?_ ?_ ?_ ?_ ?_ ?_ ?_ ?_ ?_ ?_ ?_ ?_ ?_) <;> try first | (with_reducible exact Or.inl rfl) | (exact Or.inr (hm (by decide))))
    | split

theorem State.lastingAt_keeps {m : List Region} {s0 s : State} {a1} (hm : [Region.boot, Region.flt, Region.spares, Region.mem, Region.side, Region.sessions, Region.parts, Region.slc, Region.wt, Region.jets, Region.sec, Region.twin] ⊆ m) (h : Keeps m s0 s) : Keeps m s0 (State.lastingAt s a1) := by
  unfold State.lastingAt
  try dsimp only
  repeat' first
    | intro _
    | with_reducible assumption
    | (refine State.takeSpareRow_keeps (List.Subset.trans (by decide) hm) ?_ _ (by with_reducible assumption))
    | (with_reducible refine State.takeSpareRow_keeps (List.Subset.trans (by decide) hm) ?_ _ rfl)
    | with_reducible refine State.isolateJet_keeps (List.Subset.trans (by decide) hm) ?_
    | with_reducible refine State.sparedIn_keeps (List.Subset.trans (by decide) hm) ?_
    | with_reducible refine State.loseChannel_keeps (List.Subset.trans (by decide) hm) ?_
    | with_reducible refine State.spareEvent_keeps (List.Subset.trans (by decide) hm) ?_
    | with_reducible refine State.laneTested_keeps (List.Subset.trans (by decide) hm) ?_
    | with_reducible refine State.portOut_keeps (List.Subset.trans (by decide) hm) ?_
    | with_reducible refine State.loseSubBank_keeps (List.Subset.trans (by decide) hm) ?_
    | with_reducible refine State.loseArray_keeps (List.Subset.trans (by decide) hm) ?_
    | (with_reducible apply getD_keeps)
    | with_reducible apply ite_keeps
    | with_reducible apply foldl_keeps
    | (fail_if_no_progress (with_reducible refine mk_keeps ?_ ?_ ?_ ?_ ?_ ?_ ?_ ?_ ?_ ?_ ?_ ?_ ?_ ?_ ?_ ?_ ?_ ?_ ?_ ?_ ?_ ?_ ?_ ?_ ?_ ?_ ?_ ?_) <;> try first | (with_reducible exact Or.inl rfl) | (exact Or.inr (hm (by decide))))
    | split

theorem State.mapPair_keeps {m : List Region} {s0 s : State} {a1 a2} (hm : [Region.flt, Region.spares] ⊆ m) (h : Keeps m s0 s) : Keeps m s0 (State.mapPair s a1 a2) := by
  unfold State.mapPair
  try dsimp only
  repeat' first
    | intro _
    | with_reducible assumption
    | with_reducible refine State.sparedIn_keeps (List.Subset.trans (by decide) hm) ?_
    | with_reducible apply ite_keeps
    | with_reducible apply foldl_keeps
    | (fail_if_no_progress (with_reducible refine mk_keeps ?_ ?_ ?_ ?_ ?_ ?_ ?_ ?_ ?_ ?_ ?_ ?_ ?_ ?_ ?_ ?_ ?_ ?_ ?_ ?_ ?_ ?_ ?_ ?_ ?_ ?_ ?_ ?_) <;> try first | (with_reducible exact Or.inl rfl) | (exact Or.inr (hm (by decide))))

theorem State.nextSparePair_keeps {m : List Region} {s0 s : State} {a1 a2} (hm : [Region.spares] ⊆ m) (h : Keeps m s0 s) : ∀ x t, (State.nextSparePair s a1 a2) = (x, t) → Keeps m s0 t := by
  intro x t he
  unfold State.nextSparePair at he
  try dsimp only at he
  repeat' first
    | (cases he; done)
    | split at he
    | contradiction
    | cases he
    | intro _
    | with_reducible assumption
    | with_reducible apply ite_keeps
    | with_reducible apply foldl_keeps
    | (fail_if_no_progress (with_reducible refine mk_keeps ?_ ?_ ?_ ?_ ?_ ?_ ?_ ?_ ?_ ?_ ?_ ?_ ?_ ?_ ?_ ?_ ?_ ?_ ?_ ?_ ?_ ?_ ?_ ?_ ?_ ?_ ?_ ?_) <;> try first | (with_reducible exact Or.inl rfl) | (exact Or.inr (hm (by decide))))

theorem State.openEpoch_keeps {m : List Region} {s0 s : State} (hm : [Region.clk, Region.flt, Region.mem, Region.side, Region.allocs, Region.badGrains, Region.parts, Region.cfg, Region.ep, Region.slc, Region.wt, Region.sec, Region.mboxes, Region.twin] ⊆ m) (h : Keeps m s0 s) : Keeps m s0 (State.openEpoch s) := by
  unfold State.openEpoch
  try dsimp only
  repeat' first
    | (exact List.Subset.trans (by decide) hm)
    | intro _
    | with_reducible assumption
    | (with_reducible apply State.each_keeps)
    | with_reducible refine State.applyItems_keeps (List.Subset.trans (by decide) hm) ?_
    | with_reducible refine State.reopen_keeps (List.Subset.trans (by decide) hm) ?_
    | with_reducible refine doEpochDrainEnd_keeps (List.Subset.trans (by decide) hm) ?_
    | with_reducible apply ite_keeps
    | with_reducible apply foldl_keeps
    | (fail_if_no_progress (with_reducible refine mk_keeps ?_ ?_ ?_ ?_ ?_ ?_ ?_ ?_ ?_ ?_ ?_ ?_ ?_ ?_ ?_ ?_ ?_ ?_ ?_ ?_ ?_ ?_ ?_ ?_ ?_ ?_ ?_ ?_) <;> try first | (with_reducible exact Or.inl rfl) | (exact Or.inr (hm (by decide))))

theorem State.openWeirs_keeps {m : List Region} {s0 s : State} (hm : [Region.wt] ⊆ m) (h : Keeps m s0 s) : Keeps m s0 (State.openWeirs s) := by
  unfold State.openWeirs
  try dsimp only
  repeat' first
    | (exact List.Subset.trans (by decide) hm)
    | intro _
    | with_reducible assumption
    | (with_reducible apply State.each_keeps)
    | with_reducible refine State.updPort_keeps (List.Subset.trans (by decide) hm) ?_

theorem State.rebuildPage_keeps {m : List Region} {s0 s : State} {a1 a2 a3} (hm : [Region.flt, Region.mem, Region.side, Region.badGrains, Region.sessions, Region.parts, Region.slc, Region.wt, Region.sec, Region.twin] ⊆ m) (h : Keeps m s0 s) : Keeps m s0 (State.rebuildPage s a1 a2 a3) := by
  unfold State.rebuildPage
  try dsimp only
  repeat' first
    | intro _
    | with_reducible assumption
    | with_reducible refine State.updPage_keeps (List.Subset.trans (by decide) hm) ?_
    | with_reducible refine State.failPage_keeps (List.Subset.trans (by decide) hm) ?_
    | with_reducible apply ite_keeps
    | with_reducible apply foldl_keeps
    | (fail_if_no_progress (with_reducible refine mk_keeps ?_ ?_ ?_ ?_ ?_ ?_ ?_ ?_ ?_ ?_ ?_ ?_ ?_ ?_ ?_ ?_ ?_ ?_ ?_ ?_ ?_ ?_ ?_ ?_ ?_ ?_ ?_ ?_) <;> try first | (with_reducible exact Or.inl rfl) | (exact Or.inr (hm (by decide))))
    | split

theorem State.rebuildPages_keeps {m : List Region} {s0 s : State} (hm : [Region.flt, Region.mem, Region.side, Region.badGrains, Region.sessions, Region.parts, Region.slc, Region.wt, Region.sec, Region.twin] ⊆ m) (h : Keeps m s0 s) : Keeps m s0 (State.rebuildPages s) := by
  unfold State.rebuildPages
  try dsimp only
  repeat' first
    | (exact List.Subset.trans (by decide) hm)
    | intro _
    | with_reducible assumption
    | (with_reducible apply State.each_keeps)
    | with_reducible refine State.rebuildPage_keeps (List.Subset.trans (by decide) hm) ?_

theorem State.retirePair_keeps {m : List Region} {s0 s : State} {a1} (hm : [Region.flt, Region.spares, Region.mem, Region.side, Region.sessions, Region.parts, Region.slc, Region.wt, Region.twin] ⊆ m) (h : Keeps m s0 s) : Keeps m s0 (State.retirePair s a1) := by
  unfold State.retirePair
  try dsimp only
  repeat' first
    | intro _
    | with_reducible assumption
    | with_reducible refine State.spareEvent_keeps (List.Subset.trans (by decide) hm) ?_
    | with_reducible refine State.containWhere_keeps (List.Subset.trans (by decide) hm) ?_
    | with_reducible apply ite_keeps
    | with_reducible apply foldl_keeps
    | (fail_if_no_progress (with_reducible refine mk_keeps ?_ ?_ ?_ ?_ ?_ ?_ ?_ ?_ ?_ ?_ ?_ ?_ ?_ ?_ ?_ ?_ ?_ ?_ ?_ ?_ ?_ ?_ ?_ ?_ ?_ ?_ ?_ ?_) <;> try first | (with_reducible exact Or.inl rfl) | (exact Or.inr (hm (by decide))))

theorem State.retrainPort_keeps {m : List Region} {s0 s : State} {a1} (hm : [Region.boot] ⊆ m) (h : Keeps m s0 s) : Keeps m s0 (State.retrainPort s a1) := by
  unfold State.retrainPort
  try dsimp only
  repeat' first
    | intro _
    | with_reducible assumption
    | with_reducible apply ite_keeps
    | with_reducible apply foldl_keeps
    | (fail_if_no_progress (with_reducible refine mk_keeps ?_ ?_ ?_ ?_ ?_ ?_ ?_ ?_ ?_ ?_ ?_ ?_ ?_ ?_ ?_ ?_ ?_ ?_ ?_ ?_ ?_ ?_ ?_ ?_ ?_ ?_ ?_ ?_) <;> try first | (with_reducible exact Or.inl rfl) | (exact Or.inr (hm (by decide))))

theorem State.retrainWhole_keeps {m : List Region} {s0 s : State} {a1} (hm : [Region.boot, Region.flt, Region.wt] ⊆ m) (h : Keeps m s0 s) : Keeps m s0 (State.retrainWhole s a1) := by
  unfold State.retrainWhole
  try dsimp only
  repeat' first
    | intro _
    | with_reducible assumption
    | with_reducible refine State.retrainPort_keeps (List.Subset.trans (by decide) hm) ?_
    | with_reducible refine State.linkLost_keeps (List.Subset.trans (by decide) hm) ?_

theorem doNodeReset_keeps {m : List Region} {s0 s : State} {a1} (hm : [Region.boot, Region.flt, Region.slc, Region.wt, Region.sec, Region.mboxes] ⊆ m) (h : Keeps m s0 s) : Keeps m s0 (doNodeReset a1 s) := by
  unfold doNodeReset
  try dsimp only
  repeat' first
    | (exact List.Subset.trans (by decide) hm)
    | intro _
    | with_reducible assumption
    | (with_reducible apply State.agtan_keeps)
    | with_reducible refine State.respond_keeps (List.Subset.trans (by decide) hm) ?_
    | with_reducible apply ite_keeps
    | with_reducible apply foldl_keeps
    | (fail_if_no_progress (with_reducible refine mk_keeps ?_ ?_ ?_ ?_ ?_ ?_ ?_ ?_ ?_ ?_ ?_ ?_ ?_ ?_ ?_ ?_ ?_ ?_ ?_ ?_ ?_ ?_ ?_ ?_ ?_ ?_ ?_ ?_) <;> try first | (with_reducible exact Or.inl rfl) | (exact Or.inr (hm (by decide))))

theorem doPartitionReset_keeps {m : List Region} {s0 s : State} {a1} (hm : [Region.draws, Region.clk, Region.flt, Region.mem, Region.side, Region.allocs, Region.sessions, Region.provs, Region.parts, Region.slc, Region.wt, Region.jets, Region.sec, Region.mboxes, Region.twin] ⊆ m) (h : Keeps m s0 s) : Keeps m s0 (doPartitionReset a1 s) := by
  unfold doPartitionReset
  try dsimp only
  repeat' first
    | (exact List.Subset.trans (by decide) hm)
    | intro _
    | with_reducible assumption
    | (with_reducible apply State.agtan_keeps)
    | with_reducible refine State.beginPartReset_keeps (List.Subset.trans (by decide) hm) ?_
    | with_reducible refine State.park_keeps (List.Subset.trans (by decide) hm) ?_
    | (exact State.respond_keeps (List.Subset.trans (by decide) hm) h)

theorem State.swapLane_keeps {m : List Region} {s0 s : State} {a1 a2} (hm : [Region.flt, Region.spares] ⊆ m) (h : Keeps m s0 s) : Keeps m s0 (State.swapLane s a1 a2) := by
  unfold State.swapLane
  try dsimp only
  repeat' first
    | intro _
    | with_reducible assumption
    | with_reducible refine State.countPort_keeps (List.Subset.trans (by decide) hm) ?_
    | with_reducible apply ite_keeps
    | with_reducible apply foldl_keeps
    | (fail_if_no_progress (with_reducible refine mk_keeps ?_ ?_ ?_ ?_ ?_ ?_ ?_ ?_ ?_ ?_ ?_ ?_ ?_ ?_ ?_ ?_ ?_ ?_ ?_ ?_ ?_ ?_ ?_ ?_ ?_ ?_ ?_ ?_) <;> try first | (with_reducible exact Or.inl rfl) | (exact Or.inr (hm (by decide))))

theorem doLaneRetrain_keeps {m : List Region} {s0 s : State} {a1} (hm : [Region.boot, Region.flt, Region.spares, Region.slc, Region.wt, Region.sec, Region.mboxes] ⊆ m) (h : Keeps m s0 s) : Keeps m s0 (doLaneRetrain a1 s) := by
  unfold doLaneRetrain
  try dsimp only
  repeat' first
    | (exact List.Subset.trans (by decide) hm)
    | intro _
    | with_reducible assumption
    | (with_reducible apply State.agtan_keeps)
    | with_reducible refine State.respond_keeps (List.Subset.trans (by decide) hm) ?_
    | with_reducible refine State.swapLane_keeps (List.Subset.trans (by decide) hm) ?_
    | with_reducible refine State.retrainWhole_keeps (List.Subset.trans (by decide) hm) ?_
    | with_reducible apply ite_keeps

theorem State.runImage_keeps {m : List Region} {s0 s : State} {a1 a2} (hm : [Region.boot, Region.sb] ⊆ m) (h : Keeps m s0 s) : Keeps m s0 (State.runImage s a1 a2) := by
  unfold State.runImage
  try dsimp only
  repeat' first
    | intro _
    | with_reducible assumption
    | with_reducible refine State.toStage_keeps (List.Subset.trans (by decide) hm) ?_
    | with_reducible apply ite_keeps
    | with_reducible apply foldl_keeps
    | (fail_if_no_progress (with_reducible refine mk_keeps ?_ ?_ ?_ ?_ ?_ ?_ ?_ ?_ ?_ ?_ ?_ ?_ ?_ ?_ ?_ ?_ ?_ ?_ ?_ ?_ ?_ ?_ ?_ ?_ ?_ ?_ ?_ ?_) <;> try first | (with_reducible exact Or.inl rfl) | (exact Or.inr (hm (by decide))))

theorem State.scrubPart_keeps {m : List Region} {s0 s : State} {a1} (hm : [Region.mem, Region.side, Region.allocCtr, Region.allocs, Region.badGrains, Region.sessions, Region.parts] ⊆ m) (h : Keeps m s0 s) : Keeps m s0 (State.scrubPart s a1) := by
  unfold State.scrubPart
  try dsimp only
  repeat' first
    | intro _
    | with_reducible assumption
    | (with_reducible apply State.each_keeps)
    | with_reducible refine State.zeroGroup_keeps (List.Subset.trans (by decide) hm) ?_
    | with_reducible refine State.freeAllocs_keeps (List.Subset.trans (by decide) hm) ?_
    | with_reducible refine State.updPart_keeps (List.Subset.trans (by decide) hm) ?_
    | with_reducible apply ite_keeps
    | with_reducible apply foldl_keeps
    | (fail_if_no_progress (with_reducible refine mk_keeps ?_ ?_ ?_ ?_ ?_ ?_ ?_ ?_ ?_ ?_ ?_ ?_ ?_ ?_ ?_ ?_ ?_ ?_ ?_ ?_ ?_ ?_ ?_ ?_ ?_ ?_ ?_ ?_) <;> try first | (with_reducible exact Or.inl rfl) | (exact Or.inr (hm (by decide))))

theorem State.spareBadRows_keeps {m : List Region} {s0 s : State} {a1 a2 a3} (hm : [Region.flt, Region.spares, Region.mem, Region.side, Region.sessions, Region.parts, Region.slc, Region.wt, Region.twin] ⊆ m) (h : Keeps m s0 s) : Keeps m s0 (State.spareBadRows s a1 a2 a3) := by
  unfold State.spareBadRows
  try dsimp only
  repeat' first
    | (exact List.Subset.trans (by decide) hm)
    | intro _
    | with_reducible assumption
    | (with_reducible apply State.each_keeps)
    | (refine State.takeSpareRow_keeps (List.Subset.trans (by decide) hm) ?_ _ (by with_reducible assumption))
    | (with_reducible refine State.takeSpareRow_keeps (List.Subset.trans (by decide) hm) ?_ _ rfl)
    | (refine State.nextSparePair_keeps (List.Subset.trans (by decide) hm) ?_ _ _ (by with_reducible assumption))
    | (with_reducible refine State.nextSparePair_keeps (List.Subset.trans (by decide) hm) ?_ _ _ rfl)
    | with_reducible refine State.mapPair_keeps (List.Subset.trans (by decide) hm) ?_
    | with_reducible refine State.retirePair_keeps (List.Subset.trans (by decide) hm) ?_
    | (refine getD_keeps (fun _ _ => ?_) ?_)
    | with_reducible apply ite_keeps
    | with_reducible apply foldl_keeps
    | (fail_if_no_progress (with_reducible refine mk_keeps ?_ ?_ ?_ ?_ ?_ ?_ ?_ ?_ ?_ ?_ ?_ ?_ ?_ ?_ ?_ ?_ ?_ ?_ ?_ ?_ ?_ ?_ ?_ ?_ ?_ ?_ ?_ ?_) <;> try first | (with_reducible exact Or.inl rfl) | (exact Or.inr (hm (by decide))))
    | split

theorem State.transientAt_keeps {m : List Region} {s0 s : State} {a1} (hm : [Region.boot, Region.clk, Region.flt, Region.spares, Region.provs, Region.parts, Region.slc, Region.wt, Region.jets, Region.twin] ⊆ m) (h : Keeps m s0 s) : Keeps m s0 (State.transientAt s a1) := by
  unfold State.transientAt
  try dsimp only
  repeat' first
    | intro _
    | with_reducible assumption
    | with_reducible refine State.laneTested_keeps (List.Subset.trans (by decide) hm) ?_
    | with_reducible refine State.retrainPort_keeps (List.Subset.trans (by decide) hm) ?_
    | with_reducible refine State.resetJet_keeps (List.Subset.trans (by decide) hm) ?_
    | with_reducible apply ite_keeps
    | with_reducible apply foldl_keeps
    | (fail_if_no_progress (with_reducible refine mk_keeps ?_ ?_ ?_ ?_ ?_ ?_ ?_ ?_ ?_ ?_ ?_ ?_ ?_ ?_ ?_ ?_ ?_ ?_ ?_ ?_ ?_ ?_ ?_ ?_ ?_ ?_ ?_ ?_) <;> try first | (with_reducible exact Or.inl rfl) | (exact Or.inr (hm (by decide))))
    | split

theorem State.verdict_keeps {m : List Region} {s0 s : State} {a1 a2} (hm : [Region.boot, Region.clk, Region.flt, Region.spares, Region.mem, Region.side, Region.sessions, Region.provs, Region.parts, Region.slc, Region.wt, Region.jets, Region.sec, Region.twin] ⊆ m) (h : Keeps m s0 s) : Keeps m s0 (State.verdict s a1 a2) := by
  unfold State.verdict
  try dsimp only
  repeat' first
    | intro _
    | with_reducible assumption
    | with_reducible refine State.count_keeps (List.Subset.trans (by decide) hm) ?_
    | with_reducible refine State.lastingAt_keeps (List.Subset.trans (by decide) hm) ?_
    | with_reducible refine State.transientAt_keeps (List.Subset.trans (by decide) hm) ?_
    | with_reducible apply ite_keeps
    | with_reducible apply foldl_keeps
    | (fail_if_no_progress (with_reducible refine mk_keeps ?_ ?_ ?_ ?_ ?_ ?_ ?_ ?_ ?_ ?_ ?_ ?_ ?_ ?_ ?_ ?_ ?_ ?_ ?_ ?_ ?_ ?_ ?_ ?_ ?_ ?_ ?_ ?_) <;> try first | (with_reducible exact Or.inl rfl) | (exact Or.inr (hm (by decide))))

theorem State.zeroChannel_keeps {m : List Region} {s0 s : State} {a1} (hm : [Region.mem, Region.side] ⊆ m) (h : Keeps m s0 s) : Keeps m s0 (State.zeroChannel s a1) := by
  unfold State.zeroChannel
  try dsimp only
  repeat' first
    | intro _
    | with_reducible assumption
    | with_reducible apply ite_keeps
    | with_reducible apply foldl_keeps
    | (fail_if_no_progress (with_reducible refine mk_keeps ?_ ?_ ?_ ?_ ?_ ?_ ?_ ?_ ?_ ?_ ?_ ?_ ?_ ?_ ?_ ?_ ?_ ?_ ?_ ?_ ?_ ?_ ?_ ?_ ?_ ?_ ?_ ?_) <;> try first | (with_reducible exact Or.inl rfl) | (exact Or.inr (hm (by decide))))

theorem doAvsbusNoAck_keeps {m : List Region} {s0 s : State} (hm : [Region.pwr] ⊆ m) (h : Keeps m s0 s) : Keeps m s0 (doAvsbusNoAck s) := by
  unfold doAvsbusNoAck
  try dsimp only
  repeat' first
    | (exact List.Subset.trans (by decide) hm)
    | intro _
    | with_reducible assumption
    | with_reducible apply ite_keeps
    | with_reducible apply foldl_keeps
    | (fail_if_no_progress (with_reducible refine mk_keeps ?_ ?_ ?_ ?_ ?_ ?_ ?_ ?_ ?_ ?_ ?_ ?_ ?_ ?_ ?_ ?_ ?_ ?_ ?_ ?_ ?_ ?_ ?_ ?_ ?_ ?_ ?_ ?_) <;> try first | (with_reducible exact Or.inl rfl) | (exact Or.inr (hm (by decide))))

theorem doChannelTrainingDone_keeps {m : List Region} {s0 s : State} {a1 a2} (hm : [Region.draws, Region.pins, Region.boot, Region.clk, Region.pwr, Region.flt, Region.spares, Region.mem, Region.side, Region.allocCtr, Region.allocs, Region.badGrains, Region.sessions, Region.provs, Region.parts, Region.cfg, Region.ep, Region.slc, Region.wt, Region.jets, Region.jetSched, Region.sec, Region.mboxes, Region.mbNext, Region.twin, Region.sb] ⊆ m) (h : Keeps m s0 s) : Keeps m s0 (doChannelTrainingDone a1 a2 s) := by
  unfold doChannelTrainingDone
  try dsimp only
  repeat' first
    | (exact List.Subset.trans (by decide) hm)
    | intro _
    | with_reducible assumption
    | with_reducible refine State.endStep3_keeps (List.Subset.trans (by decide) hm) ?_
    | with_reducible refine State.loseChannel_keeps (List.Subset.trans (by decide) hm) ?_
    | with_reducible apply ite_keeps
    | with_reducible apply foldl_keeps
    | (fail_if_no_progress (with_reducible refine mk_keeps ?_ ?_ ?_ ?_ ?_ ?_ ?_ ?_ ?_ ?_ ?_ ?_ ?_ ?_ ?_ ?_ ?_ ?_ ?_ ?_ ?_ ?_ ?_ ?_ ?_ ?_ ?_ ?_) <;> try first | (with_reducible exact Or.inl rfl) | (exact Or.inr (hm (by decide))))

theorem doClockAbsent_keeps {m : List Region} {s0 s : State} {a1} (hm : [Region.pins, Region.boot, Region.clk, Region.flt, Region.provs, Region.slc, Region.wt, Region.jets, Region.sec, Region.mboxes, Region.twin, Region.sb] ⊆ m) (h : Keeps m s0 s) :
    Keeps m s0 (doClockAbsent a1 s) := by
  unfold doClockAbsent
  dsimp only
  have h0 : Keeps m s0 { s with pins := s.pins.withClock a1 false } := by
    fail_if_no_progress (with_reducible refine mk_keeps ?_ ?_ ?_ ?_ ?_ ?_ ?_ ?_ ?_ ?_ ?_ ?_ ?_ ?_ ?_ ?_ ?_ ?_ ?_ ?_ ?_ ?_ ?_ ?_ ?_ ?_ ?_ ?_) <;> try first | (with_reducible exact Or.inl rfl) | (exact Or.inr (hm (by decide)))
    exact h
  revert h0
  generalize ({ s with pins := s.pins.withClock a1 false } : State) = t
  intro h0
  have h1 := State.functionReset_keeps (List.Subset.trans (by decide) hm) h0
  revert h1
  generalize t.functionReset = u
  intro h1
  refine ite_keeps h0 (ite_keeps (State.toFailed_keeps (List.Subset.trans (by decide) hm) h0) (ite_keeps h0 (ite_keeps ?_
    (State.each_keeps (fun _ _ hx => State.linkLost_keeps (List.Subset.trans (by decide) hm) hx) h0))))
  fail_if_no_progress (with_reducible refine mk_keeps ?_ ?_ ?_ ?_ ?_ ?_ ?_ ?_ ?_ ?_ ?_ ?_ ?_ ?_ ?_ ?_ ?_ ?_ ?_ ?_ ?_ ?_ ?_ ?_ ?_ ?_ ?_ ?_) <;> try first | (with_reducible exact Or.inl rfl) | (exact Or.inr (hm (by decide)))
  exact h1

theorem doClockReturn_keeps {m : List Region} {s0 s : State} {a1} (hm : [Region.pins, Region.boot] ⊆ m) (h : Keeps m s0 s) : Keeps m s0 (doClockReturn a1 s) := by
  unfold doClockReturn
  try dsimp only
  repeat' first
    | (exact List.Subset.trans (by decide) hm)
    | intro _
    | with_reducible assumption
    | (with_reducible apply State.each_keeps)
    | with_reducible refine State.retrainPort_keeps (List.Subset.trans (by decide) hm) ?_
    | with_reducible apply ite_keeps
    | with_reducible apply foldl_keeps
    | (fail_if_no_progress (with_reducible refine mk_keeps ?_ ?_ ?_ ?_ ?_ ?_ ?_ ?_ ?_ ?_ ?_ ?_ ?_ ?_ ?_ ?_ ?_ ?_ ?_ ?_ ?_ ?_ ?_ ?_ ?_ ?_ ?_ ?_) <;> try first | (with_reducible exact Or.inl rfl) | (exact Or.inr (hm (by decide))))

theorem doClocksLocked_keeps {m : List Region} {s0 s : State} (hm : [Region.pins, Region.boot, Region.sb] ⊆ m) (h : Keeps m s0 s) : Keeps m s0 (doClocksLocked s) := by
  unfold doClocksLocked
  try dsimp only
  repeat' first
    | (exact List.Subset.trans (by decide) hm)
    | intro _
    | with_reducible assumption
    | with_reducible refine State.toStage_keeps (List.Subset.trans (by decide) hm) ?_
    | with_reducible refine State.toFailed_keeps (List.Subset.trans (by decide) hm) ?_
    | with_reducible apply ite_keeps
    | with_reducible apply foldl_keeps
    | (fail_if_no_progress (with_reducible refine mk_keeps ?_ ?_ ?_ ?_ ?_ ?_ ?_ ?_ ?_ ?_ ?_ ?_ ?_ ?_ ?_ ?_ ?_ ?_ ?_ ?_ ?_ ?_ ?_ ?_ ?_ ?_ ?_ ?_) <;> try first | (with_reducible exact Or.inl rfl) | (exact Or.inr (hm (by decide))))

theorem doComputeStageDone_keeps {m : List Region} {s0 s : State} {a1 a2} (hm : [Region.boot, Region.flt, Region.spares, Region.jets] ⊆ m) (h : Keeps m s0 s) :
    Keeps m s0 (doComputeStageDone a1 a2 s) := by
  unfold doComputeStageDone
  generalize List.range 8192 = l
  refine ite_keeps h ?_
  refine State.each_keeps (fun _ _ ht => State.loseArray_keeps (List.Subset.trans (by decide) hm) ht)
    (State.each_keeps (fun _ _ ht => State.failJet_keeps (List.Subset.trans (by decide) hm) ht) ?_)
  fail_if_no_progress (with_reducible refine mk_keeps ?_ ?_ ?_ ?_ ?_ ?_ ?_ ?_ ?_ ?_ ?_ ?_ ?_ ?_ ?_ ?_ ?_ ?_ ?_ ?_ ?_ ?_ ?_ ?_ ?_ ?_ ?_ ?_) <;> try first | (with_reducible exact Or.inl rfl) | (exact Or.inr (hm (by decide)))
  exact h

theorem doDramHot_keeps {m : List Region} {s0 s : State} {a1 a2} (hm : [Region.pins] ⊆ m) (h : Keeps m s0 s) : Keeps m s0 (doDramHot a1 a2 s) := by
  unfold doDramHot
  try dsimp only
  repeat' first
    | (exact List.Subset.trans (by decide) hm)
    | intro _
    | with_reducible assumption
    | with_reducible apply ite_keeps
    | with_reducible apply foldl_keeps
    | (fail_if_no_progress (with_reducible refine mk_keeps ?_ ?_ ?_ ?_ ?_ ?_ ?_ ?_ ?_ ?_ ?_ ?_ ?_ ?_ ?_ ?_ ?_ ?_ ?_ ?_ ?_ ?_ ?_ ?_ ?_ ?_ ?_ ?_) <;> try first | (with_reducible exact Or.inl rfl) | (exact Or.inr (hm (by decide))))

theorem doFatalEvent_keeps {m : List Region} {s0 s : State} {a1 a2} (hm : [Region.draws, Region.pins, Region.boot, Region.clk, Region.pwr, Region.flt, Region.spares, Region.allocCtr, Region.allocs, Region.badGrains, Region.sessions, Region.provs, Region.parts, Region.cfg, Region.ep, Region.slc, Region.wt, Region.jets, Region.jetSched, Region.sec, Region.mboxes, Region.mbNext, Region.twin, Region.sb] ⊆ m) (h : Keeps m s0 s) : Keeps m s0 (doFatalEvent a1 a2 s) := by
  unfold doFatalEvent
  try dsimp only
  repeat' first
    | (exact List.Subset.trans (by decide) hm)
    | intro _
    | with_reducible assumption
    | with_reducible refine State.fatal_keeps (List.Subset.trans (by decide) hm) ?_
    | with_reducible apply ite_keeps

theorem doFirmwareVerify_keeps {m : List Region} {s0 s : State} {a1 a2} (hm : [Region.pins, Region.boot, Region.sb] ⊆ m) (h : Keeps m s0 s) : Keeps m s0 (doFirmwareVerify a1 a2 s) := by
  unfold doFirmwareVerify
  try dsimp only
  repeat' first
    | (exact List.Subset.trans (by decide) hm)
    | intro _
    | with_reducible assumption
    | with_reducible refine State.runImage_keeps (List.Subset.trans (by decide) hm) ?_
    | with_reducible refine State.toFailed_keeps (List.Subset.trans (by decide) hm) ?_
    | with_reducible apply ite_keeps

theorem doJetReset_keeps {m : List Region} {s0 s : State} {a1 a2} (hm : [Region.clk, Region.flt, Region.provs, Region.parts, Region.slc, Region.wt, Region.jets, Region.twin] ⊆ m) (h : Keeps m s0 s) : Keeps m s0 (doJetReset a1 a2 s) := by
  unfold doJetReset
  try dsimp only
  repeat' first
    | intro _
    | with_reducible assumption
    | with_reducible refine State.resetJet_keeps (List.Subset.trans (by decide) hm) ?_
    | with_reducible apply ite_keeps

theorem doLaneDegrade_keeps {m : List Region} {s0 s : State} {a1 a2} (hm : [Region.boot, Region.flt, Region.spares, Region.wt] ⊆ m) (h : Keeps m s0 s) : Keeps m s0 (doLaneDegrade a1 a2 s) := by
  unfold doLaneDegrade
  try dsimp only
  repeat' first
    | (exact List.Subset.trans (by decide) hm)
    | intro _
    | with_reducible assumption
    | with_reducible refine State.fault_keeps (List.Subset.trans (by decide) hm) ?_
    | with_reducible refine State.retrainWhole_keeps (List.Subset.trans (by decide) hm) ?_
    | with_reducible refine State.swapLane_keeps (List.Subset.trans (by decide) hm) ?_
    | with_reducible apply ite_keeps

theorem doLaneRetrainDone_keeps {m : List Region} {s0 s : State} {a1 a2 a3} (hm : [Region.boot, Region.clk, Region.flt, Region.spares, Region.mem, Region.side, Region.sessions, Region.provs, Region.parts, Region.slc, Region.wt, Region.jets, Region.sec, Region.twin] ⊆ m) (h : Keeps m s0 s) : Keeps m s0 (doLaneRetrainDone a1 a2 a3 s) := by
  unfold doLaneRetrainDone
  try dsimp only
  repeat' first
    | (exact List.Subset.trans (by decide) hm)
    | intro _
    | with_reducible assumption
    | with_reducible refine State.verdict_keeps (List.Subset.trans (by decide) hm) ?_
    | with_reducible refine State.laneTested_keeps (List.Subset.trans (by decide) hm) ?_
    | with_reducible apply ite_keeps
    | with_reducible apply foldl_keeps
    | (fail_if_no_progress (with_reducible refine mk_keeps ?_ ?_ ?_ ?_ ?_ ?_ ?_ ?_ ?_ ?_ ?_ ?_ ?_ ?_ ?_ ?_ ?_ ?_ ?_ ?_ ?_ ?_ ?_ ?_ ?_ ?_ ?_ ?_) <;> try first | (with_reducible exact Or.inl rfl) | (exact Or.inr (hm (by decide))))
    | split

theorem doLaneRetryTimer_keeps {m : List Region} {s0 s : State} {a1} (hm : [Region.boot] ⊆ m) (h : Keeps m s0 s) : Keeps m s0 (doLaneRetryTimer a1 s) := by
  unfold doLaneRetryTimer
  try dsimp only
  repeat' first
    | (exact List.Subset.trans (by decide) hm)
    | intro _
    | with_reducible assumption
    | with_reducible refine State.retrainPort_keeps (List.Subset.trans (by decide) hm) ?_
    | with_reducible apply ite_keeps

theorem doLaneTrainingDone_keeps {m : List Region} {s0 s : State} {a1 a2 a3} (hm : [Region.boot, Region.wt, Region.sb] ⊆ m) (h : Keeps m s0 s) : Keeps m s0 (doLaneTrainingDone a1 a2 a3 s) := by
  unfold doLaneTrainingDone
  try dsimp only
  repeat' first
    | (exact List.Subset.trans (by decide) hm)
    | intro _
    | with_reducible assumption
    | with_reducible refine State.endStep4_keeps (List.Subset.trans (by decide) hm) ?_
    | with_reducible refine State.updPort_keeps (List.Subset.trans (by decide) hm) ?_
    | with_reducible refine State.linkCameUp_keeps (List.Subset.trans (by decide) hm) ?_
    | with_reducible apply ite_keeps
    | with_reducible apply foldl_keeps
    | (fail_if_no_progress (with_reducible refine mk_keeps ?_ ?_ ?_ ?_ ?_ ?_ ?_ ?_ ?_ ?_ ?_ ?_ ?_ ?_ ?_ ?_ ?_ ?_ ?_ ?_ ?_ ?_ ?_ ?_ ?_ ?_ ?_ ?_) <;> try first | (with_reducible exact Or.inl rfl) | (exact Or.inr (hm (by decide))))

theorem doMasterLost_keeps {m : List Region} {s0 s : State} (hm : [Region.clk] ⊆ m) (h : Keeps m s0 s) : Keeps m s0 (doMasterLost s) := by
  unfold doMasterLost
  try dsimp only
  repeat' first
    | intro _
    | with_reducible assumption
    | with_reducible apply ite_keeps
    | with_reducible apply foldl_keeps
    | (fail_if_no_progress (with_reducible refine mk_keeps ?_ ?_ ?_ ?_ ?_ ?_ ?_ ?_ ?_ ?_ ?_ ?_ ?_ ?_ ?_ ?_ ?_ ?_ ?_ ?_ ?_ ?_ ?_ ?_ ?_ ?_ ?_ ?_) <;> try first | (with_reducible exact Or.inl rfl) | (exact Or.inr (hm (by decide))))

theorem doMemoryTestDone_keeps {m : List Region} {s0 s : State} {a1 a2} (hm : [Region.draws, Region.pins, Region.boot, Region.clk, Region.pwr, Region.flt, Region.spares, Region.mem, Region.side, Region.allocCtr, Region.allocs, Region.badGrains, Region.sessions, Region.provs, Region.parts, Region.cfg, Region.ep, Region.slc, Region.wt, Region.jets, Region.jetSched, Region.sec, Region.mboxes, Region.mbNext, Region.twin, Region.sb] ⊆ m) (h : Keeps m s0 s) : Keeps m s0 (doMemoryTestDone a1 a2 s) := by
  unfold doMemoryTestDone
  try dsimp only
  repeat' first
    | (exact List.Subset.trans (by decide) hm)
    | intro _
    | with_reducible assumption
    | with_reducible refine State.zeroChannel_keeps (List.Subset.trans (by decide) hm) ?_
    | (with_reducible apply State.each_keeps)
    | with_reducible refine State.spareBadRows_keeps (List.Subset.trans (by decide) hm) ?_
    | with_reducible refine State.endStep3_keeps (List.Subset.trans (by decide) hm) ?_
    | with_reducible apply ite_keeps
    | with_reducible apply foldl_keeps
    | (fail_if_no_progress (with_reducible refine mk_keeps ?_ ?_ ?_ ?_ ?_ ?_ ?_ ?_ ?_ ?_ ?_ ?_ ?_ ?_ ?_ ?_ ?_ ?_ ?_ ?_ ?_ ?_ ?_ ?_ ?_ ?_ ?_ ?_) <;> try first | (with_reducible exact Or.inl rfl) | (exact Or.inr (hm (by decide))))

theorem doNodeResetDelayExpiry_keeps {m : List Region} {s0 s : State} (hm : [Region.draws, Region.pins, Region.boot, Region.clk, Region.pwr, Region.flt, Region.spares, Region.allocCtr, Region.allocs, Region.badGrains, Region.sessions, Region.provs, Region.parts, Region.cfg, Region.ep, Region.slc, Region.wt, Region.jets, Region.jetSched, Region.sec, Region.mboxes, Region.mbNext, Region.twin, Region.sb] ⊆ m) (h : Keeps m s0 s) : Keeps m s0 (doNodeResetDelayExpiry s) := by
  unfold doNodeResetDelayExpiry
  try dsimp only
  repeat' first
    | (exact List.Subset.trans (by decide) hm)
    | intro _
    | with_reducible assumption
    | with_reducible refine State.nodeReset_keeps (List.Subset.trans (by decide) hm) ?_
    | with_reducible apply ite_keeps
    | with_reducible apply foldl_keeps
    | (fail_if_no_progress (with_reducible refine mk_keeps ?_ ?_ ?_ ?_ ?_ ?_ ?_ ?_ ?_ ?_ ?_ ?_ ?_ ?_ ?_ ?_ ?_ ?_ ?_ ?_ ?_ ?_ ?_ ?_ ?_ ?_ ?_ ?_) <;> try first | (with_reducible exact Or.inl rfl) | (exact Or.inr (hm (by decide))))
    | split

theorem doPairSpareSwitch_keeps {m : List Region} {s0 s : State} {a1 a2} (hm : [Region.flt, Region.spares, Region.slc, Region.jets] ⊆ m) (h : Keeps m s0 s) : Keeps m s0 (doPairSpareSwitch a1 a2 s) := by
  unfold doPairSpareSwitch
  try dsimp only
  repeat' first
    | (exact List.Subset.trans (by decide) hm)
    | intro _
    | with_reducible assumption
    | with_reducible refine State.setJet_keeps (List.Subset.trans (by decide) hm) ?_
    | with_reducible refine State.mapPair_keeps (List.Subset.trans (by decide) hm) ?_
    | with_reducible refine State.placeCmds_keeps (List.Subset.trans (by decide) hm) ?_
    | with_reducible apply ite_keeps
    | with_reducible apply foldl_keeps
    | (fail_if_no_progress (with_reducible refine mk_keeps ?_ ?_ ?_ ?_ ?_ ?_ ?_ ?_ ?_ ?_ ?_ ?_ ?_ ?_ ?_ ?_ ?_ ?_ ?_ ?_ ?_ ?_ ?_ ?_ ?_ ?_ ?_ ?_) <;> try first | (with_reducible exact Or.inl rfl) | (exact Or.inr (hm (by decide))))
    | split

theorem doPairSparing_keeps {m : List Region} {s0 s : State} {a1 a2 a3 a4} (hm : [Region.flt, Region.spares, Region.mem, Region.side, Region.badGrains, Region.sessions, Region.parts, Region.slc, Region.wt, Region.sec, Region.twin] ⊆ m) (h : Keeps m s0 s) : Keeps m s0 (doPairSparing a1 a2 a3 a4 s) := by
  unfold doPairSparing
  try dsimp only
  repeat' first
    | intro _
    | with_reducible assumption
    | (with_reducible apply State.each_keeps)
    | (refine State.nextSparePair_keeps (List.Subset.trans (by decide) hm) ?_ _ _ (by with_reducible assumption))
    | (with_reducible refine State.nextSparePair_keeps (List.Subset.trans (by decide) hm) ?_ _ _ rfl)
    | with_reducible refine State.retirePair_keeps (List.Subset.trans (by decide) hm) ?_
    | with_reducible refine State.noteCorrected_keeps (List.Subset.trans (by decide) hm) ?_
    | with_reducible refine State.failGrain_keeps (List.Subset.trans (by decide) hm) ?_
    | with_reducible refine State.spareHeader_keeps (List.Subset.trans (by decide) hm) ?_
    | (with_reducible apply getD_keeps)
    | with_reducible apply ite_keeps
    | with_reducible apply foldl_keeps
    | (fail_if_no_progress (with_reducible refine mk_keeps ?_ ?_ ?_ ?_ ?_ ?_ ?_ ?_ ?_ ?_ ?_ ?_ ?_ ?_ ?_ ?_ ?_ ?_ ?_ ?_ ?_ ?_ ?_ ?_ ?_ ?_ ?_ ?_) <;> try first | (with_reducible exact Or.inl rfl) | (exact Or.inr (hm (by decide))))
    | split

theorem doPartitionResetEnd_keeps {m : List Region} {s0 s : State} {a1} (hm : [Region.flt, Region.mem, Region.side, Region.allocCtr, Region.allocs, Region.badGrains, Region.sessions, Region.parts, Region.slc, Region.wt, Region.sec, Region.mboxes] ⊆ m) (h : Keeps m s0 s) : Keeps m s0 (doPartitionResetEnd a1 s) := by
  unfold doPartitionResetEnd
  try dsimp only
  repeat' first
    | (exact List.Subset.trans (by decide) hm)
    | intro _
    | with_reducible assumption
    | (with_reducible apply State.each_keeps)
    | with_reducible refine State.setKey_keeps (List.Subset.trans (by decide) hm) ?_
    | with_reducible refine State.unpark_keeps (List.Subset.trans (by decide) hm) ?_
    | with_reducible refine State.scrubPart_keeps (List.Subset.trans (by decide) hm) ?_
    | with_reducible apply ite_keeps
    | with_reducible apply foldl_keeps
    | (fail_if_no_progress (with_reducible refine mk_keeps ?_ ?_ ?_ ?_ ?_ ?_ ?_ ?_ ?_ ?_ ?_ ?_ ?_ ?_ ?_ ?_ ?_ ?_ ?_ ?_ ?_ ?_ ?_ ?_ ?_ ?_ ?_ ?_) <;> try first | (with_reducible exact Or.inl rfl) | (exact Or.inr (hm (by decide))))

theorem doPcieConfigRequest_keeps {m : List Region} {s0 s : State} (hm : ([] : List Region) ⊆ m) (h : Keeps m s0 s) : Keeps m s0 (doPcieConfigRequest s) := by
  unfold doPcieConfigRequest
  try dsimp only
  repeat' first
    | (exact List.Subset.trans (by decide) hm)
    | intro _
    | with_reducible assumption
    | with_reducible refine State.emit_keeps (List.Subset.trans (by decide) hm) ?_
    | with_reducible apply ite_keeps

theorem doPerst_keeps {m : List Region} {s0 s : State} (hm : [Region.clk, Region.flt, Region.provs, Region.slc, Region.wt, Region.jets, Region.sec, Region.mboxes, Region.twin] ⊆ m) (h : Keeps m s0 s) : Keeps m s0 (doPerst s) := by
  unfold doPerst
  try dsimp only
  repeat' first
    | (exact List.Subset.trans (by decide) hm)
    | intro _
    | with_reducible assumption
    | with_reducible refine State.functionReset_keeps (List.Subset.trans (by decide) hm) ?_
    | with_reducible apply ite_keeps

theorem doPowerOn_keeps {m : List Region} {s0 s : State} {a1} (hm : [Region.draws, Region.pins, Region.boot, Region.clk, Region.pwr, Region.flt, Region.spares, Region.allocCtr, Region.allocs, Region.badGrains, Region.sessions, Region.provs, Region.parts, Region.cfg, Region.ep, Region.slc, Region.wt, Region.jets, Region.jetSched, Region.sec, Region.mboxes, Region.mbNext, Region.twin, Region.sb] ⊆ m) (h : Keeps m s0 s) : Keeps m s0 (doPowerOn a1 s) := by
  unfold doPowerOn
  try dsimp only
  repeat' first
    | (exact List.Subset.trans (by decide) hm)
    | intro _
    | with_reducible assumption
    | with_reducible refine State.nodeReset_keeps (List.Subset.trans (by decide) hm) ?_
    | with_reducible apply ite_keeps
    | with_reducible apply foldl_keeps
    | (fail_if_no_progress (with_reducible refine mk_keeps ?_ ?_ ?_ ?_ ?_ ?_ ?_ ?_ ?_ ?_ ?_ ?_ ?_ ?_ ?_ ?_ ?_ ?_ ?_ ?_ ?_ ?_ ?_ ?_ ?_ ?_ ?_ ?_) <;> try first | (with_reducible exact Or.inl rfl) | (exact Or.inr (hm (by decide))))

theorem doPowerSample_keeps {m : List Region} {s0 s : State} {a1 a2 a3} (hm : [Region.pins, Region.pwr, Region.sb] ⊆ m) (h : Keeps m s0 s) : Keeps m s0 (doPowerSample a1 a2 a3 s) := by
  unfold doPowerSample
  try dsimp only
  repeat' first
    | (exact List.Subset.trans (by decide) hm)
    | intro _
    | with_reducible assumption
    | with_reducible refine State.raiseIrq_keeps (List.Subset.trans (by decide) hm) ?_
    | with_reducible apply ite_keeps
    | with_reducible apply foldl_keeps
    | (fail_if_no_progress (with_reducible refine mk_keeps ?_ ?_ ?_ ?_ ?_ ?_ ?_ ?_ ?_ ?_ ?_ ?_ ?_ ?_ ?_ ?_ ?_ ?_ ?_ ?_ ?_ ?_ ?_ ?_ ?_ ?_ ?_ ?_) <;> try first | (with_reducible exact Or.inl rfl) | (exact Or.inr (hm (by decide))))

theorem doPpsInEdge_keeps {m : List Region} {s0 s : State} (hm : [Region.clk] ⊆ m) (h : Keeps m s0 s) : Keeps m s0 (doPpsInEdge s) := by
  unfold doPpsInEdge
  try dsimp only
  repeat' first
    | (exact List.Subset.trans (by decide) hm)
    | intro _
    | with_reducible assumption
    | with_reducible apply ite_keeps
    | with_reducible apply foldl_keeps
    | (fail_if_no_progress (with_reducible refine mk_keeps ?_ ?_ ?_ ?_ ?_ ?_ ?_ ?_ ?_ ?_ ?_ ?_ ?_ ?_ ?_ ?_ ?_ ?_ ?_ ?_ ?_ ?_ ?_ ?_ ?_ ?_ ?_ ?_) <;> try first | (with_reducible exact Or.inl rfl) | (exact Or.inr (hm (by decide))))

theorem doPpsOutSecond_keeps {m : List Region} {s0 s : State} (hm : [Region.pins] ⊆ m) (h : Keeps m s0 s) : Keeps m s0 (doPpsOutSecond s) := by
  unfold doPpsOutSecond
  try dsimp only
  repeat' first
    | (exact List.Subset.trans (by decide) hm)
    | intro _
    | with_reducible assumption
    | with_reducible apply ite_keeps
    | with_reducible apply foldl_keeps
    | (fail_if_no_progress (with_reducible refine mk_keeps ?_ ?_ ?_ ?_ ?_ ?_ ?_ ?_ ?_ ?_ ?_ ?_ ?_ ?_ ?_ ?_ ?_ ?_ ?_ ?_ ?_ ?_ ?_ ?_ ?_ ?_ ?_ ?_) <;> try first | (with_reducible exact Or.inl rfl) | (exact Or.inr (hm (by decide))))

theorem doPtpMessage_keeps {m : List Region} {s0 s : State} {a1 a2} (hm : [Region.clk] ⊆ m) (h : Keeps m s0 s) : Keeps m s0 (doPtpMessage a1 a2 s) := by
  unfold doPtpMessage
  try dsimp only
  repeat' first
    | intro _
    | with_reducible assumption
    | with_reducible refine State.announced_keeps (List.Subset.trans (by decide) hm) ?_
    | with_reducible refine State.masterMessage_keeps (List.Subset.trans (by decide) hm) ?_
    | with_reducible apply ite_keeps
    | with_reducible apply foldl_keeps
    | split

theorem doRailOutOfRange_keeps {m : List Region} {s0 s : State} {a1 a2} (hm : [Region.pins, Region.sb] ⊆ m) (h : Keeps m s0 s) : Keeps m s0 (doRailOutOfRange a1 a2 s) := by
  unfold doRailOutOfRange
  try dsimp only
  repeat' first
    | (exact List.Subset.trans (by decide) hm)
    | intro _
    | with_reducible assumption
    | with_reducible refine State.raiseIrq_keeps (List.Subset.trans (by decide) hm) ?_
    | with_reducible apply ite_keeps
    | with_reducible apply foldl_keeps
    | (fail_if_no_progress (with_reducible refine mk_keeps ?_ ?_ ?_ ?_ ?_ ?_ ?_ ?_ ?_ ?_ ?_ ?_ ?_ ?_ ?_ ?_ ?_ ?_ ?_ ?_ ?_ ?_ ?_ ?_ ?_ ?_ ?_ ?_) <;> try first | (with_reducible exact Or.inl rfl) | (exact Or.inr (hm (by decide))))

theorem doRailsRecovered_keeps {m : List Region} {s0 s : State} {a1} (hm : [Region.draws, Region.pins, Region.boot, Region.clk, Region.pwr, Region.flt, Region.spares, Region.allocCtr, Region.allocs, Region.badGrains, Region.sessions, Region.provs, Region.parts, Region.cfg, Region.ep, Region.slc, Region.wt, Region.jets, Region.jetSched, Region.sec, Region.mboxes, Region.mbNext, Region.twin, Region.sb] ⊆ m) (h : Keeps m s0 s) : Keeps m s0 (doRailsRecovered a1 s) := by
  unfold doRailsRecovered
  try dsimp only
  repeat' first
    | (exact List.Subset.trans (by decide) hm)
    | intro _
    | with_reducible assumption
    | with_reducible refine State.nodeReset_keeps (List.Subset.trans (by decide) hm) ?_
    | with_reducible apply ite_keeps
    | with_reducible apply foldl_keeps
    | (fail_if_no_progress (with_reducible refine mk_keeps ?_ ?_ ?_ ?_ ?_ ?_ ?_ ?_ ?_ ?_ ?_ ?_ ?_ ?_ ?_ ?_ ?_ ?_ ?_ ?_ ?_ ?_ ?_ ?_ ?_ ?_ ?_ ?_) <;> try first | (with_reducible exact Or.inl rfl) | (exact Or.inr (hm (by decide))))

theorem doResetBall_keeps {m : List Region} {s0 s : State} {a1} (hm : [Region.draws, Region.pins, Region.boot, Region.clk, Region.pwr, Region.flt, Region.spares, Region.allocCtr, Region.allocs, Region.badGrains, Region.sessions, Region.provs, Region.parts, Region.cfg, Region.ep, Region.slc, Region.wt, Region.jets, Region.jetSched, Region.sec, Region.mboxes, Region.mbNext, Region.twin, Region.sb] ⊆ m) (h : Keeps m s0 s) : Keeps m s0 (doResetBall a1 s) := by
  unfold doResetBall
  try dsimp only
  repeat' first
    | (exact List.Subset.trans (by decide) hm)
    | intro _
    | with_reducible assumption
    | with_reducible refine State.nodeReset_keeps (List.Subset.trans (by decide) hm) ?_
    | with_reducible apply ite_keeps

theorem doSelfTestVerdict_keeps {m : List Region} {s0 s : State} {a1 a2} (hm : [Region.boot, Region.clk, Region.flt, Region.spares, Region.mem, Region.side, Region.sessions, Region.provs, Region.parts, Region.slc, Region.wt, Region.jets, Region.sec, Region.twin] ⊆ m) (h : Keeps m s0 s) : Keeps m s0 (doSelfTestVerdict a1 a2 s) := by
  unfold doSelfTestVerdict
  try dsimp only
  repeat' first
    | intro _
    | with_reducible assumption
    | with_reducible refine State.verdict_keeps (List.Subset.trans (by decide) hm) ?_
    | with_reducible apply ite_keeps
    | with_reducible apply foldl_keeps
    | split

theorem doServiceOpen_keeps {m : List Region} {s0 s : State} (hm : [Region.boot, Region.clk, Region.flt, Region.mem, Region.side, Region.allocs, Region.badGrains, Region.sessions, Region.parts, Region.cfg, Region.ep, Region.slc, Region.wt, Region.sec, Region.mboxes, Region.twin, Region.sb] ⊆ m) (h : Keeps m s0 s) : Keeps m s0 (doServiceOpen s) := by
  unfold doServiceOpen
  try dsimp only
  repeat' first
    | (exact List.Subset.trans (by decide) hm)
    | intro _
    | with_reducible assumption
    | with_reducible refine State.openWeirs_keeps (List.Subset.trans (by decide) hm) ?_
    | with_reducible refine State.openEpoch_keeps (List.Subset.trans (by decide) hm) ?_
    | with_reducible refine State.writeImage_keeps (List.Subset.trans (by decide) hm) ?_
    | with_reducible refine State.rebuildPages_keeps (List.Subset.trans (by decide) hm) ?_
    | with_reducible refine State.toStage_keeps (List.Subset.trans (by decide) hm) ?_
    | with_reducible apply ite_keeps
    | with_reducible apply foldl_keeps
    | (fail_if_no_progress (with_reducible refine mk_keeps ?_ ?_ ?_ ?_ ?_ ?_ ?_ ?_ ?_ ?_ ?_ ?_ ?_ ?_ ?_ ?_ ?_ ?_ ?_ ?_ ?_ ?_ ?_ ?_ ?_ ?_ ?_ ?_) <;> try first | (with_reducible exact Or.inl rfl) | (exact Or.inr (hm (by decide))))

theorem doStageOverrun_keeps {m : List Region} {s0 s : State} (hm : [Region.draws, Region.pins, Region.boot, Region.clk, Region.pwr, Region.flt, Region.spares, Region.allocCtr, Region.allocs, Region.badGrains, Region.sessions, Region.provs, Region.parts, Region.cfg, Region.ep, Region.slc, Region.wt, Region.jets, Region.jetSched, Region.sec, Region.mboxes, Region.mbNext, Region.twin, Region.sb] ⊆ m) (h : Keeps m s0 s) : Keeps m s0 (doStageOverrun s) := by
  unfold doStageOverrun
  try dsimp only
  repeat' first
    | (exact List.Subset.trans (by decide) hm)
    | intro _
    | with_reducible assumption
    | with_reducible refine State.toStage_keeps (List.Subset.trans (by decide) hm) ?_
    | with_reducible refine State.nodeReset_keeps (List.Subset.trans (by decide) hm) ?_
    | with_reducible refine State.toFailed_keeps (List.Subset.trans (by decide) hm) ?_
    | with_reducible apply ite_keeps
    | with_reducible apply foldl_keeps
    | (fail_if_no_progress (with_reducible refine mk_keeps ?_ ?_ ?_ ?_ ?_ ?_ ?_ ?_ ?_ ?_ ?_ ?_ ?_ ?_ ?_ ?_ ?_ ?_ ?_ ?_ ?_ ?_ ?_ ?_ ?_ ?_ ?_ ?_) <;> try first | (with_reducible exact Or.inl rfl) | (exact Or.inr (hm (by decide))))
    | split

theorem doThermalTrip_keeps {m : List Region} {s0 s : State} {a1 a2} (hm : [Region.pins, Region.boot] ⊆ m) (h : Keeps m s0 s) : Keeps m s0 (doThermalTrip a1 a2 s) := by
  unfold doThermalTrip
  try dsimp only
  repeat' first
    | (exact List.Subset.trans (by decide) hm)
    | intro _
    | with_reducible assumption
    | with_reducible apply ite_keeps
    | with_reducible apply foldl_keeps
    | (fail_if_no_progress (with_reducible refine mk_keeps ?_ ?_ ?_ ?_ ?_ ?_ ?_ ?_ ?_ ?_ ?_ ?_ ?_ ?_ ?_ ?_ ?_ ?_ ?_ ?_ ?_ ?_ ?_ ?_ ?_ ?_ ?_ ?_) <;> try first | (with_reducible exact Or.inl rfl) | (exact Or.inr (hm (by decide))))

theorem doThermalTripRelease_keeps {m : List Region} {s0 s : State} {a1 a2} (hm : [Region.draws, Region.pins, Region.boot, Region.clk, Region.pwr, Region.flt, Region.spares, Region.allocCtr, Region.allocs, Region.badGrains, Region.sessions, Region.provs, Region.parts, Region.cfg, Region.ep, Region.slc, Region.wt, Region.jets, Region.jetSched, Region.sec, Region.mboxes, Region.mbNext, Region.twin, Region.sb] ⊆ m) (h : Keeps m s0 s) : Keeps m s0 (doThermalTripRelease a1 a2 s) := by
  unfold doThermalTripRelease
  try dsimp only
  repeat' first
    | (exact List.Subset.trans (by decide) hm)
    | intro _
    | with_reducible assumption
    | with_reducible refine State.nodeReset_keeps (List.Subset.trans (by decide) hm) ?_
    | with_reducible apply ite_keeps

theorem doTsvFault_keeps {m : List Region} {s0 s : State} {a1 a2 a3} (hm : [Region.flt] ⊆ m) (h : Keeps m s0 s) : Keeps m s0 (doTsvFault a1 a2 a3 s) := by
  unfold doTsvFault
  try dsimp only
  repeat' first
    | (exact List.Subset.trans (by decide) hm)
    | intro _
    | with_reducible assumption
    | with_reducible refine State.fault_keeps (List.Subset.trans (by decide) hm) ?_
    | with_reducible apply ite_keeps

theorem doWatchdogExpiry_keeps {m : List Region} {s0 s : State} (hm : [Region.draws, Region.pins, Region.boot, Region.clk, Region.pwr, Region.flt, Region.spares, Region.allocCtr, Region.allocs, Region.badGrains, Region.sessions, Region.provs, Region.parts, Region.cfg, Region.ep, Region.slc, Region.wt, Region.jets, Region.jetSched, Region.sec, Region.mboxes, Region.mbNext, Region.twin, Region.sb] ⊆ m) (h : Keeps m s0 s) : Keeps m s0 (doWatchdogExpiry s) := by
  unfold doWatchdogExpiry
  try dsimp only
  repeat' first
    | (exact List.Subset.trans (by decide) hm)
    | intro _
    | with_reducible assumption
    | with_reducible refine State.fatal_keeps (List.Subset.trans (by decide) hm) ?_
    | with_reducible apply ite_keeps

theorem execPowerOn_keeps {m : List Region} {s0 s : State} {a1} (hm : [Region.draws, Region.pins, Region.boot, Region.clk, Region.pwr, Region.flt, Region.spares, Region.allocCtr, Region.allocs, Region.badGrains, Region.sessions, Region.provs, Region.parts, Region.cfg, Region.ep, Region.slc, Region.wt, Region.jets, Region.jetSched, Region.sec, Region.mboxes, Region.mbNext, Region.twin, Region.sb] ⊆ m) (h : Keeps m s0 s) : OutKeeps m s0 (execPowerOn a1 s) := by
  unfold execPowerOn
  repeat' first
    | (with_reducible refine run_keeps (fun _ _ => ?_) ?_)
    | intro _
    | with_reducible assumption
    | with_reducible refine doPowerOn_keeps (List.Subset.trans (by decide) hm) ?_

theorem execResetBall_keeps {m : List Region} {s0 s : State} {a1} (hm : [Region.draws, Region.pins, Region.boot, Region.clk, Region.pwr, Region.flt, Region.spares, Region.allocCtr, Region.allocs, Region.badGrains, Region.sessions, Region.provs, Region.parts, Region.cfg, Region.ep, Region.slc, Region.wt, Region.jets, Region.jetSched, Region.sec, Region.mboxes, Region.mbNext, Region.twin, Region.sb] ⊆ m) (h : Keeps m s0 s) : OutKeeps m s0 (execResetBall a1 s) := by
  unfold execResetBall
  repeat' first
    | (with_reducible refine run_keeps (fun _ _ => ?_) ?_)
    | intro _
    | with_reducible assumption
    | with_reducible refine doResetBall_keeps (List.Subset.trans (by decide) hm) ?_

theorem execPerst_keeps {m : List Region} {s0 s : State} (hm : [Region.clk, Region.flt, Region.provs, Region.slc, Region.wt, Region.jets, Region.sec, Region.mboxes, Region.twin] ⊆ m) (h : Keeps m s0 s) : OutKeeps m s0 (execPerst s) := by
  unfold execPerst
  repeat' first
    | (with_reducible refine run_keeps (fun _ _ => ?_) ?_)
    | intro _
    | with_reducible assumption
    | with_reducible refine doPerst_keeps (List.Subset.trans (by decide) hm) ?_

theorem execRailOutOfRange_keeps {m : List Region} {s0 s : State} {a1 a2} (hm : [Region.pins, Region.sb] ⊆ m) (h : Keeps m s0 s) : OutKeeps m s0 (execRailOutOfRange a1 a2 s) := by
  unfold execRailOutOfRange
  repeat' first
    | (with_reducible refine run_keeps (fun _ _ => ?_) ?_)
    | intro _
    | with_reducible assumption
    | with_reducible refine doRailOutOfRange_keeps (List.Subset.trans (by decide) hm) ?_

theorem execRailsRecovered_keeps {m : List Region} {s0 s : State} {a1} (hm : [Region.draws, Region.pins, Region.boot, Region.clk, Region.pwr, Region.flt, Region.spares, Region.allocCtr, Region.allocs, Region.badGrains, Region.sessions, Region.provs, Region.parts, Region.cfg, Region.ep, Region.slc, Region.wt, Region.jets, Region.jetSched, Region.sec, Region.mboxes, Region.mbNext, Region.twin, Region.sb] ⊆ m) (h : Keeps m s0 s) : OutKeeps m s0 (execRailsRecovered a1 s) := by
  unfold execRailsRecovered
  repeat' first
    | (with_reducible refine run_keeps (fun _ _ => ?_) ?_)
    | intro _
    | with_reducible assumption
    | with_reducible refine doRailsRecovered_keeps (List.Subset.trans (by decide) hm) ?_

theorem execClockAbsent_keeps {m : List Region} {s0 s : State} {a1} (hm : [Region.pins, Region.boot, Region.clk, Region.flt, Region.provs, Region.slc, Region.wt, Region.jets, Region.sec, Region.mboxes, Region.twin, Region.sb] ⊆ m) (h : Keeps m s0 s) : OutKeeps m s0 (execClockAbsent a1 s) := by
  unfold execClockAbsent
  repeat' first
    | (with_reducible refine run_keeps (fun _ _ => ?_) ?_)
    | intro _
    | with_reducible assumption
    | with_reducible refine doClockAbsent_keeps (List.Subset.trans (by decide) hm) ?_

theorem execThermalTrip_keeps {m : List Region} {s0 s : State} {a1 a2} (hm : [Region.pins, Region.boot] ⊆ m) (h : Keeps m s0 s) : OutKeeps m s0 (execThermalTrip a1 a2 s) := by
  unfold execThermalTrip
  repeat' first
    | (with_reducible refine run_keeps (fun _ _ => ?_) ?_)
    | intro _
    | with_reducible assumption
    | with_reducible refine doThermalTrip_keeps (List.Subset.trans (by decide) hm) ?_

theorem execThermalTripRelease_keeps {m : List Region} {s0 s : State} {a1 a2} (hm : [Region.draws, Region.pins, Region.boot, Region.clk, Region.pwr, Region.flt, Region.spares, Region.allocCtr, Region.allocs, Region.badGrains, Region.sessions, Region.provs, Region.parts, Region.cfg, Region.ep, Region.slc, Region.wt, Region.jets, Region.jetSched, Region.sec, Region.mboxes, Region.mbNext, Region.twin, Region.sb] ⊆ m) (h : Keeps m s0 s) : OutKeeps m s0 (execThermalTripRelease a1 a2 s) := by
  unfold execThermalTripRelease
  repeat' first
    | (with_reducible refine run_keeps (fun _ _ => ?_) ?_)
    | intro _
    | with_reducible assumption
    | with_reducible refine doThermalTripRelease_keeps (List.Subset.trans (by decide) hm) ?_

theorem execDramHot_keeps {m : List Region} {s0 s : State} {a1 a2} (hm : [Region.pins] ⊆ m) (h : Keeps m s0 s) : OutKeeps m s0 (execDramHot a1 a2 s) := by
  unfold execDramHot
  repeat' first
    | (with_reducible refine run_keeps (fun _ _ => ?_) ?_)
    | intro _
    | with_reducible assumption
    | with_reducible refine doDramHot_keeps (List.Subset.trans (by decide) hm) ?_

theorem execWatchdogExpiry_keeps {m : List Region} {s0 s : State} {a1} (hm : [Region.draws, Region.pins, Region.boot, Region.clk, Region.pwr, Region.flt, Region.spares, Region.allocCtr, Region.allocs, Region.badGrains, Region.sessions, Region.provs, Region.parts, Region.cfg, Region.ep, Region.slc, Region.wt, Region.jets, Region.jetSched, Region.sec, Region.mboxes, Region.mbNext, Region.twin, Region.sb] ⊆ m) (h : Keeps m s0 s) : OutKeeps m s0 (execWatchdogExpiry a1 s) := by
  unfold execWatchdogExpiry
  repeat' first
    | (with_reducible refine run_keeps (fun _ _ => ?_) ?_)
    | intro _
    | with_reducible assumption
    | with_reducible refine State.upTo_keeps (List.Subset.trans (by decide) hm) ?_
    | with_reducible refine doWatchdogExpiry_keeps (List.Subset.trans (by decide) hm) ?_

theorem execFatalEvent_keeps {m : List Region} {s0 s : State} {a1 a2 a3} (hm : [Region.draws, Region.pins, Region.boot, Region.clk, Region.pwr, Region.flt, Region.spares, Region.allocCtr, Region.allocs, Region.badGrains, Region.sessions, Region.provs, Region.parts, Region.cfg, Region.ep, Region.slc, Region.wt, Region.jets, Region.jetSched, Region.sec, Region.mboxes, Region.mbNext, Region.twin, Region.sb] ⊆ m) (h : Keeps m s0 s) : OutKeeps m s0 (execFatalEvent a1 a2 a3 s) := by
  unfold execFatalEvent
  repeat' first
    | (with_reducible refine run_keeps (fun _ _ => ?_) ?_)
    | intro _
    | with_reducible assumption
    | with_reducible refine State.upTo_keeps (List.Subset.trans (by decide) hm) ?_
    | with_reducible refine doFatalEvent_keeps (List.Subset.trans (by decide) hm) ?_

theorem execFirmwareVerify_keeps {m : List Region} {s0 s : State} {a1 a2 a3} (hm : [Region.pins, Region.boot, Region.clk, Region.sb] ⊆ m) (h : Keeps m s0 s) : OutKeeps m s0 (execFirmwareVerify a1 a2 a3 s) := by
  unfold execFirmwareVerify
  repeat' first
    | (with_reducible refine run_keeps (fun _ _ => ?_) ?_)
    | intro _
    | with_reducible assumption
    | with_reducible refine doFirmwareVerify_keeps (List.Subset.trans (by decide) hm) ?_
    | with_reducible refine State.upTo_keeps (List.Subset.trans (by decide) hm) ?_

theorem execClocksLocked_keeps {m : List Region} {s0 s : State} {a1} (hm : [Region.pins, Region.boot, Region.clk, Region.sb] ⊆ m) (h : Keeps m s0 s) : OutKeeps m s0 (execClocksLocked a1 s) := by
  unfold execClocksLocked
  repeat' first
    | (with_reducible refine run_keeps (fun _ _ => ?_) ?_)
    | intro _
    | with_reducible assumption
    | with_reducible refine doClocksLocked_keeps (List.Subset.trans (by decide) hm) ?_
    | with_reducible refine State.upTo_keeps (List.Subset.trans (by decide) hm) ?_

theorem execChannelTrainingDone_keeps {m : List Region} {s0 s : State} {a1 a2} (hm : [Region.draws, Region.pins, Region.boot, Region.clk, Region.pwr, Region.flt, Region.spares, Region.mem, Region.side, Region.allocCtr, Region.allocs, Region.badGrains, Region.sessions, Region.provs, Region.parts, Region.cfg, Region.ep, Region.slc, Region.wt, Region.jets, Region.jetSched, Region.sec, Region.mboxes, Region.mbNext, Region.twin, Region.sb] ⊆ m) (h : Keeps m s0 s) : OutKeeps m s0 (execChannelTrainingDone a1 a2 s) := by
  unfold execChannelTrainingDone
  repeat' first
    | (with_reducible refine run_keeps (fun _ _ => ?_) ?_)
    | intro _
    | with_reducible assumption
    | with_reducible refine doChannelTrainingDone_keeps (List.Subset.trans (by decide) hm) ?_

theorem execMemoryTestDone_keeps {m : List Region} {s0 s : State} {a1 a2} (hm : [Region.draws, Region.pins, Region.boot, Region.clk, Region.pwr, Region.flt, Region.spares, Region.mem, Region.side, Region.allocCtr, Region.allocs, Region.badGrains, Region.sessions, Region.provs, Region.parts, Region.cfg, Region.ep, Region.slc, Region.wt, Region.jets, Region.jetSched, Region.sec, Region.mboxes, Region.mbNext, Region.twin, Region.sb] ⊆ m) (h : Keeps m s0 s) : OutKeeps m s0 (execMemoryTestDone a1 a2 s) := by
  unfold execMemoryTestDone
  repeat' first
    | (with_reducible refine run_keeps (fun _ _ => ?_) ?_)
    | intro _
    | with_reducible assumption
    | with_reducible refine doMemoryTestDone_keeps (List.Subset.trans (by decide) hm) ?_

theorem execLaneTrainingDone_keeps {m : List Region} {s0 s : State} {a1 a2 a3} (hm : [Region.boot, Region.wt, Region.sb] ⊆ m) (h : Keeps m s0 s) : OutKeeps m s0 (execLaneTrainingDone a1 a2 a3 s) := by
  unfold execLaneTrainingDone
  repeat' first
    | (with_reducible refine run_keeps (fun _ _ => ?_) ?_)
    | intro _
    | with_reducible assumption
    | with_reducible refine doLaneTrainingDone_keeps (List.Subset.trans (by decide) hm) ?_

theorem execLaneRetryTimer_keeps {m : List Region} {s0 s : State} {a1 a2} (hm : [Region.boot, Region.clk] ⊆ m) (h : Keeps m s0 s) : OutKeeps m s0 (execLaneRetryTimer a1 a2 s) := by
  unfold execLaneRetryTimer
  repeat' first
    | (with_reducible refine run_keeps (fun _ _ => ?_) ?_)
    | intro _
    | with_reducible assumption
    | with_reducible refine doLaneRetryTimer_keeps (List.Subset.trans (by decide) hm) ?_
    | with_reducible refine State.upTo_keeps (List.Subset.trans (by decide) hm) ?_

theorem execComputeStageDone_keeps {m : List Region} {s0 s : State} {a1 a2 a3} (hm : [Region.boot, Region.clk, Region.flt, Region.spares, Region.jets] ⊆ m) (h : Keeps m s0 s) : OutKeeps m s0 (execComputeStageDone a1 a2 a3 s) := by
  unfold execComputeStageDone
  repeat' first
    | (with_reducible refine run_keeps (fun _ _ => ?_) ?_)
    | intro _
    | with_reducible assumption
    | with_reducible refine doComputeStageDone_keeps (List.Subset.trans (by decide) hm) ?_
    | with_reducible refine State.upTo_keeps (List.Subset.trans (by decide) hm) ?_

theorem execStageOverrun_keeps {m : List Region} {s0 s : State} {a1} (hm : [Region.draws, Region.pins, Region.boot, Region.clk, Region.pwr, Region.flt, Region.spares, Region.allocCtr, Region.allocs, Region.badGrains, Region.sessions, Region.provs, Region.parts, Region.cfg, Region.ep, Region.slc, Region.wt, Region.jets, Region.jetSched, Region.sec, Region.mboxes, Region.mbNext, Region.twin, Region.sb] ⊆ m) (h : Keeps m s0 s) : OutKeeps m s0 (execStageOverrun a1 s) := by
  unfold execStageOverrun
  repeat' first
    | (with_reducible refine run_keeps (fun _ _ => ?_) ?_)
    | intro _
    | with_reducible assumption
    | with_reducible refine doStageOverrun_keeps (List.Subset.trans (by decide) hm) ?_
    | with_reducible refine State.upTo_keeps (List.Subset.trans (by decide) hm) ?_

theorem execServiceOpen_keeps {m : List Region} {s0 s : State} {a1} (hm : [Region.boot, Region.clk, Region.flt, Region.mem, Region.side, Region.allocs, Region.badGrains, Region.sessions, Region.parts, Region.cfg, Region.ep, Region.slc, Region.wt, Region.sec, Region.mboxes, Region.twin, Region.sb] ⊆ m) (h : Keeps m s0 s) : OutKeeps m s0 (execServiceOpen a1 s) := by
  unfold execServiceOpen
  repeat' first
    | (with_reducible refine run_keeps (fun _ _ => ?_) ?_)
    | intro _
    | with_reducible assumption
    | with_reducible refine doServiceOpen_keeps (List.Subset.trans (by decide) hm) ?_
    | with_reducible refine State.upTo_keeps (List.Subset.trans (by decide) hm) ?_

theorem execPtpMessage_keeps {m : List Region} {s0 s : State} {a1 a2} (hm : [Region.clk] ⊆ m) (h : Keeps m s0 s) : OutKeeps m s0 (execPtpMessage a1 a2 s) := by
  unfold execPtpMessage
  repeat' first
    | (with_reducible refine run_keeps (fun _ _ => ?_) ?_)
    | intro _
    | with_reducible assumption
    | with_reducible refine doPtpMessage_keeps (List.Subset.trans (by decide) hm) ?_

theorem execMasterLost_keeps {m : List Region} {s0 s : State} (hm : [Region.clk] ⊆ m) (h : Keeps m s0 s) : OutKeeps m s0 (execMasterLost s) := by
  unfold execMasterLost
  repeat' first
    | (with_reducible refine run_keeps (fun _ _ => ?_) ?_)
    | intro _
    | with_reducible assumption
    | with_reducible refine doMasterLost_keeps (List.Subset.trans (by decide) hm) ?_

theorem execPpsInEdge_keeps {m : List Region} {s0 s : State} (hm : [Region.clk] ⊆ m) (h : Keeps m s0 s) : OutKeeps m s0 (execPpsInEdge s) := by
  unfold execPpsInEdge
  repeat' first
    | (with_reducible refine run_keeps (fun _ _ => ?_) ?_)
    | intro _
    | with_reducible assumption
    | with_reducible refine doPpsInEdge_keeps (List.Subset.trans (by decide) hm) ?_

theorem execPpsOutSecond_keeps {m : List Region} {s0 s : State} {a1} (hm : [Region.pins, Region.clk] ⊆ m) (h : Keeps m s0 s) : OutKeeps m s0 (execPpsOutSecond a1 s) := by
  unfold execPpsOutSecond
  repeat' first
    | (with_reducible refine run_keeps (fun _ _ => ?_) ?_)
    | intro _
    | with_reducible assumption
    | with_reducible refine doPpsOutSecond_keeps (List.Subset.trans (by decide) hm) ?_
    | with_reducible refine State.upTo_keeps (List.Subset.trans (by decide) hm) ?_

theorem execPowerSample_keeps {m : List Region} {s0 s : State} {a1 a2 a3 a4} (hm : [Region.pins, Region.clk, Region.pwr, Region.sb] ⊆ m) (h : Keeps m s0 s) : OutKeeps m s0 (execPowerSample a1 a2 a3 a4 s) := by
  unfold execPowerSample
  repeat' first
    | (with_reducible refine run_keeps (fun _ _ => ?_) ?_)
    | intro _
    | with_reducible assumption
    | with_reducible refine doPowerSample_keeps (List.Subset.trans (by decide) hm) ?_
    | with_reducible refine State.upTo_keeps (List.Subset.trans (by decide) hm) ?_

theorem execAvsbusNoAck_keeps {m : List Region} {s0 s : State} (hm : [Region.pwr] ⊆ m) (h : Keeps m s0 s) : OutKeeps m s0 (execAvsbusNoAck s) := by
  unfold execAvsbusNoAck
  repeat' first
    | (with_reducible refine run_keeps (fun _ _ => ?_) ?_)
    | intro _
    | with_reducible assumption
    | with_reducible refine doAvsbusNoAck_keeps (List.Subset.trans (by decide) hm) ?_

theorem execNodeReset_keeps {m : List Region} {s0 s : State} {a1} (hm : [Region.boot, Region.flt, Region.slc, Region.wt, Region.sec, Region.mboxes] ⊆ m) (h : Keeps m s0 s) : OutKeeps m s0 (execNodeReset a1 s) := by
  unfold execNodeReset
  repeat' first
    | (with_reducible refine run_keeps (fun _ _ => ?_) ?_)
    | intro _
    | with_reducible assumption
    | with_reducible refine doNodeReset_keeps (List.Subset.trans (by decide) hm) ?_

theorem execPartitionReset_keeps {m : List Region} {s0 s : State} {a1} (hm : [Region.draws, Region.clk, Region.flt, Region.mem, Region.side, Region.allocs, Region.sessions, Region.provs, Region.parts, Region.slc, Region.wt, Region.jets, Region.sec, Region.mboxes, Region.twin] ⊆ m) (h : Keeps m s0 s) : OutKeeps m s0 (execPartitionReset a1 s) := by
  unfold execPartitionReset
  repeat' first
    | (with_reducible refine run_keeps (fun _ _ => ?_) ?_)
    | intro _
    | with_reducible assumption
    | with_reducible refine doPartitionReset_keeps (List.Subset.trans (by decide) hm) ?_

theorem execPartitionResetEnd_keeps {m : List Region} {s0 s : State} {a1 a2} (hm : [Region.clk, Region.flt, Region.mem, Region.side, Region.allocCtr, Region.allocs, Region.badGrains, Region.sessions, Region.parts, Region.slc, Region.wt, Region.sec, Region.mboxes] ⊆ m) (h : Keeps m s0 s) : OutKeeps m s0 (execPartitionResetEnd a1 a2 s) := by
  unfold execPartitionResetEnd
  repeat' first
    | (with_reducible refine run_keeps (fun _ _ => ?_) ?_)
    | intro _
    | with_reducible assumption
    | with_reducible refine doPartitionResetEnd_keeps (List.Subset.trans (by decide) hm) ?_
    | with_reducible refine State.upTo_keeps (List.Subset.trans (by decide) hm) ?_

theorem execLaneRetrain_keeps {m : List Region} {s0 s : State} {a1} (hm : [Region.boot, Region.flt, Region.spares, Region.slc, Region.wt, Region.sec, Region.mboxes] ⊆ m) (h : Keeps m s0 s) : OutKeeps m s0 (execLaneRetrain a1 s) := by
  unfold execLaneRetrain
  repeat' first
    | (with_reducible refine run_keeps (fun _ _ => ?_) ?_)
    | intro _
    | with_reducible assumption
    | with_reducible refine doLaneRetrain_keeps (List.Subset.trans (by decide) hm) ?_

theorem execLaneRetrainDone_keeps {m : List Region} {s0 s : State} {a1 a2 a3} (hm : [Region.boot, Region.clk, Region.flt, Region.spares, Region.mem, Region.side, Region.sessions, Region.provs, Region.parts, Region.slc, Region.wt, Region.jets, Region.sec, Region.twin] ⊆ m) (h : Keeps m s0 s) : OutKeeps m s0 (execLaneRetrainDone a1 a2 a3 s) := by
  unfold execLaneRetrainDone
  repeat' first
    | (with_reducible refine run_keeps (fun _ _ => ?_) ?_)
    | intro _
    | with_reducible assumption
    | with_reducible refine doLaneRetrainDone_keeps (List.Subset.trans (by decide) hm) ?_

theorem execFirstClr_keeps {m : List Region} {s0 s : State} {a1} (hm : [Region.flt] ⊆ m) (h : Keeps m s0 s) : OutKeeps m s0 (execFirstClr a1 s) := by
  unfold execFirstClr
  repeat' first
    | (with_reducible refine run_keeps (fun _ _ => ?_) ?_)
    | intro _
    | with_reducible assumption
    | with_reducible refine State.clearFirst_keeps (List.Subset.trans (by decide) hm) ?_
    | with_reducible apply ite_keeps

theorem execHistClr_keeps {m : List Region} {s0 s : State} {a1} (hm : [Region.flt] ⊆ m) (h : Keeps m s0 s) : OutKeeps m s0 (execHistClr a1 s) := by
  unfold execHistClr
  repeat' first
    | (with_reducible refine run_keeps (fun _ _ => ?_) ?_)
    | intro _
    | with_reducible assumption
    | with_reducible refine State.clearHist_keeps (List.Subset.trans (by decide) hm) ?_
    | with_reducible apply ite_keeps

theorem execJetReset_keeps {m : List Region} {s0 s : State} {a1 a2 a3} (hm : [Region.clk, Region.flt, Region.provs, Region.parts, Region.slc, Region.wt, Region.jets, Region.twin] ⊆ m) (h : Keeps m s0 s) : OutKeeps m s0 (execJetReset a1 a2 a3 s) := by
  unfold execJetReset
  repeat' first
    | (with_reducible refine run_keeps (fun _ _ => ?_) ?_)
    | intro _
    | with_reducible assumption
    | with_reducible refine doJetReset_keeps (List.Subset.trans (by decide) hm) ?_

theorem execSelfTestVerdict_keeps {m : List Region} {s0 s : State} {a1 a2 a3} (hm : [Region.boot, Region.clk, Region.flt, Region.spares, Region.mem, Region.side, Region.sessions, Region.provs, Region.parts, Region.slc, Region.wt, Region.jets, Region.sec, Region.twin] ⊆ m) (h : Keeps m s0 s) : OutKeeps m s0 (execSelfTestVerdict a1 a2 a3 s) := by
  unfold execSelfTestVerdict
  repeat' first
    | (with_reducible refine run_keeps (fun _ _ => ?_) ?_)
    | intro _
    | with_reducible assumption
    | with_reducible refine doSelfTestVerdict_keeps (List.Subset.trans (by decide) hm) ?_
    | with_reducible refine State.upTo_keeps (List.Subset.trans (by decide) hm) ?_

theorem execPairSparing_keeps {m : List Region} {s0 s : State} {a1 a2 a3 a4} (hm : [Region.flt, Region.spares, Region.mem, Region.side, Region.badGrains, Region.sessions, Region.parts, Region.slc, Region.wt, Region.sec, Region.twin] ⊆ m) (h : Keeps m s0 s) : OutKeeps m s0 (execPairSparing a1 a2 a3 a4 s) := by
  unfold execPairSparing
  repeat' first
    | (with_reducible refine run_keeps (fun _ _ => ?_) ?_)
    | intro _
    | with_reducible assumption
    | with_reducible refine doPairSparing_keeps (List.Subset.trans (by decide) hm) ?_

theorem execPairSpareSwitch_keeps {m : List Region} {s0 s : State} {a1 a2} (hm : [Region.flt, Region.spares, Region.slc, Region.jets] ⊆ m) (h : Keeps m s0 s) : OutKeeps m s0 (execPairSpareSwitch a1 a2 s) := by
  unfold execPairSpareSwitch
  repeat' first
    | (with_reducible refine run_keeps (fun _ _ => ?_) ?_)
    | intro _
    | with_reducible assumption
    | with_reducible refine doPairSpareSwitch_keeps (List.Subset.trans (by decide) hm) ?_

theorem execLaneDegrade_keeps {m : List Region} {s0 s : State} {a1 a2 a3} (hm : [Region.boot, Region.flt, Region.spares, Region.wt] ⊆ m) (h : Keeps m s0 s) : OutKeeps m s0 (execLaneDegrade a1 a2 a3 s) := by
  unfold execLaneDegrade
  repeat' first
    | (with_reducible refine run_keeps (fun _ _ => ?_) ?_)
    | intro _
    | with_reducible assumption
    | with_reducible refine doLaneDegrade_keeps (List.Subset.trans (by decide) hm) ?_

theorem execTsvFault_keeps {m : List Region} {s0 s : State} {a1 a2 a3} (hm : [Region.flt] ⊆ m) (h : Keeps m s0 s) : OutKeeps m s0 (execTsvFault a1 a2 a3 s) := by
  unfold execTsvFault
  repeat' first
    | (with_reducible refine run_keeps (fun _ _ => ?_) ?_)
    | intro _
    | with_reducible assumption
    | with_reducible refine doTsvFault_keeps (List.Subset.trans (by decide) hm) ?_

theorem execClockReturn_keeps {m : List Region} {s0 s : State} {a1} (hm : [Region.pins, Region.boot] ⊆ m) (h : Keeps m s0 s) : OutKeeps m s0 (execClockReturn a1 s) := by
  unfold execClockReturn
  repeat' first
    | (with_reducible refine run_keeps (fun _ _ => ?_) ?_)
    | intro _
    | with_reducible assumption
    | with_reducible refine doClockReturn_keeps (List.Subset.trans (by decide) hm) ?_

theorem execPcieConfigRequest_keeps {m : List Region} {s0 s : State} {a1} (hm : ([] : List Region) ⊆ m) (h : Keeps m s0 s) : OutKeeps m s0 (execPcieConfigRequest a1 s) := by
  unfold execPcieConfigRequest
  repeat' first
    | (with_reducible refine run_keeps (fun _ _ => ?_) ?_)
    | intro _
    | with_reducible assumption
    | with_reducible refine doPcieConfigRequest_keeps (List.Subset.trans (by decide) hm) ?_

theorem execNodeResetDelayExpiry_keeps {m : List Region} {s0 s : State} {a1} (hm : [Region.draws, Region.pins, Region.boot, Region.clk, Region.pwr, Region.flt, Region.spares, Region.allocCtr, Region.allocs, Region.badGrains, Region.sessions, Region.provs, Region.parts, Region.cfg, Region.ep, Region.slc, Region.wt, Region.jets, Region.jetSched, Region.sec, Region.mboxes, Region.mbNext, Region.twin, Region.sb] ⊆ m) (h : Keeps m s0 s) : OutKeeps m s0 (execNodeResetDelayExpiry a1 s) := by
  unfold execNodeResetDelayExpiry
  repeat' first
    | (with_reducible refine run_keeps (fun _ _ => ?_) ?_)
    | intro _
    | with_reducible assumption
    | with_reducible refine State.upTo_keeps (List.Subset.trans (by decide) hm) ?_
    | with_reducible refine doNodeResetDelayExpiry_keeps (List.Subset.trans (by decide) hm) ?_

end Sys2Proof.Machine
end

