-- ==== Sys2Proof/Laws/FrameManage.lean ====
section
/-! SUPPORT. The frames of keys, identity, the mailboxes and the sideband.
One lemma per operation: the parts of the state outside its list stand as before. -/

namespace Sys2Proof.Machine

theorem State.acceptCmd_keeps {m : List Region} {s0 s : State} {a1} (hm : [Region.mboxes] ⊆ m) (h : Keeps m s0 s) : Keeps m s0 (State.acceptCmd s a1) := by
  unfold State.acceptCmd
  try dsimp only
  repeat' first
    | intro _
    | with_reducible assumption
    | with_reducible refine State.updMbox_keeps (List.Subset.trans (by decide) hm) ?_

theorem State.bar2Blocked_keeps {m : List Region} {s0 s : State} (hm : [Region.flt] ⊆ m) (h : Keeps m s0 s) : Keeps m s0 (State.bar2Blocked s) := by
  unfold State.bar2Blocked
  try dsimp only
  repeat' first
    | intro _
    | with_reducible assumption
    | with_reducible refine State.count_keeps (List.Subset.trans (by decide) hm) ?_
    | with_reducible refine State.emit_keeps (List.Subset.trans (by decide) hm) ?_

theorem State.endSlotFrames_keeps {m : List Region} {s0 s : State} {a1} (hm : [Region.clk, Region.flt, Region.parts, Region.slc, Region.wt, Region.jets, Region.sec, Region.mboxes, Region.twin] ⊆ m) (h : Keeps m s0 s) : Keeps m s0 (State.endSlotFrames s a1) := by
  unfold State.endSlotFrames
  try dsimp only
  repeat' first
    | (exact List.Subset.trans (by decide) hm)
    | intro _
    | with_reducible assumption
    | (with_reducible apply State.each_keeps)
    | with_reducible refine State.dropUnkeyed_keeps (List.Subset.trans (by decide) hm) ?_
    | with_reducible refine State.endUnkeyed_keeps (List.Subset.trans (by decide) hm) ?_
    | with_reducible apply ite_keeps

theorem State.setIde_keeps {m : List Region} {s0 s : State} {a1 a2} (hm : [Region.sec] ⊆ m) (h : Keeps m s0 s) : Keeps m s0 (State.setIde s a1 a2) := by
  unfold State.setIde
  try dsimp only
  repeat' first
    | intro _
    | with_reducible assumption
    | with_reducible apply ite_keeps
    | with_reducible apply foldl_keeps
    | (fail_if_no_progress (with_reducible refine mk_keeps ?_ ?_ ?_ ?_ ?_ ?_ ?_ ?_ ?_ ?_ ?_ ?_ ?_ ?_ ?_ ?_ ?_ ?_ ?_ ?_ ?_ ?_ ?_ ?_ ?_ ?_ ?_ ?_) <;> try first | (with_reducible exact Or.inl rfl) | (exact Or.inr (hm (by decide))))

theorem State.ideKm_keeps {m : List Region} {s0 s : State} {a1} (hm : [Region.sec] ⊆ m) (h : Keeps m s0 s) : ∀ t x, (State.ideKm s a1) = (t, x) → Keeps m s0 t := by
  intro t x he
  unfold State.ideKm at he
  try dsimp only at he
  repeat' first
    | (cases he; done)
    | split at he
    | contradiction
    | cases he
    | intro _
    | with_reducible assumption
    | with_reducible refine State.setIde_keeps (List.Subset.trans (by decide) hm) ?_

theorem State.updSb_keeps {m : List Region} {s0 s : State} {a1} (hm : [Region.sb] ⊆ m) (h : Keeps m s0 s) : Keeps m s0 (State.updSb s a1) := by
  unfold State.updSb
  try dsimp only
  repeat' first
    | intro _
    | with_reducible assumption
    | with_reducible apply ite_keeps
    | with_reducible apply foldl_keeps
    | (fail_if_no_progress (with_reducible refine mk_keeps ?_ ?_ ?_ ?_ ?_ ?_ ?_ ?_ ?_ ?_ ?_ ?_ ?_ ?_ ?_ ?_ ?_ ?_ ?_ ?_ ?_ ?_ ?_ ?_ ?_ ?_ ?_ ?_) <;> try first | (with_reducible exact Or.inl rfl) | (exact Or.inr (hm (by decide))))

theorem State.loadIr_keeps {m : List Region} {s0 s : State} {a1} (hm : [Region.sb] ⊆ m) (h : Keeps m s0 s) : Keeps m s0 (State.loadIr s a1) := by
  unfold State.loadIr
  try dsimp only
  repeat' first
    | intro _
    | with_reducible assumption
    | with_reducible refine State.updSb_keeps (List.Subset.trans (by decide) hm) ?_

theorem State.loadExtest_keeps {m : List Region} {s0 s : State} {a1} (hm : [Region.sb] ⊆ m) (h : Keeps m s0 s) : Keeps m s0 (State.loadExtest s a1) := by
  unfold State.loadExtest
  try dsimp only
  repeat' first
    | intro _
    | with_reducible assumption
    | with_reducible refine State.loadIr_keeps (List.Subset.trans (by decide) hm) ?_

theorem State.mirrorBar2_keeps {m : List Region} {s0 s : State} {a1 a2} (hm : [Region.flt, Region.slc, Region.wt, Region.twin] ⊆ m) (h : Keeps m s0 s) : Keeps m s0 (State.mirrorBar2 s a1 a2) := by
  unfold State.mirrorBar2
  try dsimp only
  repeat' first
    | intro _
    | with_reducible assumption
    | with_reducible refine State.mirrorGrains_keeps (List.Subset.trans (by decide) hm) ?_
    | with_reducible apply ite_keeps
    | with_reducible apply foldl_keeps
    | (fail_if_no_progress (with_reducible refine mk_keeps ?_ ?_ ?_ ?_ ?_ ?_ ?_ ?_ ?_ ?_ ?_ ?_ ?_ ?_ ?_ ?_ ?_ ?_ ?_ ?_ ?_ ?_ ?_ ?_ ?_ ?_ ?_ ?_) <;> try first | (with_reducible exact Or.inl rfl) | (exact Or.inr (hm (by decide))))
    | split

theorem State.newSendKey_keeps {m : List Region} {s0 s : State} {a1} (hm : [Region.wt] ⊆ m) (h : Keeps m s0 s) : Keeps m s0 (State.newSendKey s a1) := by
  unfold State.newSendKey
  try dsimp only
  repeat' first
    | intro _
    | with_reducible assumption
    | with_reducible apply ite_keeps
    | with_reducible apply foldl_keeps
    | (fail_if_no_progress (with_reducible refine mk_keeps ?_ ?_ ?_ ?_ ?_ ?_ ?_ ?_ ?_ ?_ ?_ ?_ ?_ ?_ ?_ ?_ ?_ ?_ ?_ ?_ ?_ ?_ ?_ ?_ ?_ ?_ ?_ ?_) <;> try first | (with_reducible exact Or.inl rfl) | (exact Or.inr (hm (by decide))))

theorem State.onSpdm_keeps {m : List Region} {s0 s : State} {ep : SpdmEp} {ok : Spdm → Bool} {f : Spdm → State}
    (hf : ∀ x, Keeps m s0 (f x)) (h : Keeps m s0 s) : Keeps m s0 (s.onSpdm ep ok f) := by
  unfold State.onSpdm
  exact ite_keeps h (ite_keeps (hf _) (State.emit_keeps (List.nil_subset _) h))

theorem State.sign_keeps {m : List Region} {s0 s : State} {a1} (hm : [Region.draws] ⊆ m) (h : Keeps m s0 s) : ∀ x t, (State.sign s a1) = (x, t) → Keeps m s0 t := by
  intro x t he
  unfold State.sign at he
  try dsimp only at he
  repeat' first
    | (cases he; done)
    | split at he
    | contradiction
    | cases he
    | intro _
    | with_reducible assumption
    | with_reducible apply ite_keeps
    | with_reducible apply foldl_keeps
    | (fail_if_no_progress (with_reducible refine mk_keeps ?_ ?_ ?_ ?_ ?_ ?_ ?_ ?_ ?_ ?_ ?_ ?_ ?_ ?_ ?_ ?_ ?_ ?_ ?_ ?_ ?_ ?_ ?_ ?_ ?_ ?_ ?_ ?_) <;> try first | (with_reducible exact Or.inl rfl) | (exact Or.inr (hm (by decide))))

theorem doAttestReport_keeps {m : List Region} {s0 s : State} {a1} (hm : [Region.draws, Region.flt, Region.slc, Region.wt, Region.sec, Region.mboxes] ⊆ m) (h : Keeps m s0 s) : Keeps m s0 (doAttestReport a1 s) := by
  unfold doAttestReport
  try dsimp only
  repeat' first
    | (exact List.Subset.trans (by decide) hm)
    | intro _
    | with_reducible assumption
    | (with_reducible apply State.agtan_keeps)
    | (refine State.sign_keeps (List.Subset.trans (by decide) hm) ?_ _ _ (by with_reducible assumption))
    | (with_reducible refine State.sign_keeps (List.Subset.trans (by decide) hm) ?_ _ _ rfl)
    | with_reducible refine State.respond_keeps (List.Subset.trans (by decide) hm) ?_

theorem doKeyInstall_keeps {m : List Region} {s0 s : State} {a1} (hm : [Region.flt, Region.slc, Region.wt, Region.sec, Region.mboxes] ⊆ m) (h : Keeps m s0 s) : Keeps m s0 (doKeyInstall a1 s) := by
  unfold doKeyInstall
  try dsimp only
  repeat' first
    | (exact List.Subset.trans (by decide) hm)
    | intro _
    | with_reducible assumption
    | (with_reducible apply State.agtan_keeps)
    | with_reducible refine State.respond_keeps (List.Subset.trans (by decide) hm) ?_
    | with_reducible refine State.setKey_keeps (List.Subset.trans (by decide) hm) ?_
    | with_reducible refine State.newSendKey_keeps (List.Subset.trans (by decide) hm) ?_
    | with_reducible apply ite_keeps
    | with_reducible apply foldl_keeps
    | (fail_if_no_progress (with_reducible refine mk_keeps ?_ ?_ ?_ ?_ ?_ ?_ ?_ ?_ ?_ ?_ ?_ ?_ ?_ ?_ ?_ ?_ ?_ ?_ ?_ ?_ ?_ ?_ ?_ ?_ ?_ ?_ ?_ ?_) <;> try first | (with_reducible exact Or.inl rfl) | (exact Or.inr (hm (by decide))))
    | split

theorem doKeySwitch_keeps {m : List Region} {s0 s : State} {a1} (hm : [Region.flt, Region.slc, Region.wt, Region.sec, Region.mboxes] ⊆ m) (h : Keeps m s0 s) : Keeps m s0 (doKeySwitch a1 s) := by
  unfold doKeySwitch
  try dsimp only
  repeat' first
    | (exact List.Subset.trans (by decide) hm)
    | intro _
    | with_reducible assumption
    | (with_reducible apply State.agtan_keeps)
    | with_reducible refine State.respond_keeps (List.Subset.trans (by decide) hm) ?_
    | with_reducible refine State.newSendKey_keeps (List.Subset.trans (by decide) hm) ?_
    | with_reducible refine State.setKey_keeps (List.Subset.trans (by decide) hm) ?_
    | with_reducible apply ite_keeps

theorem doKeyDrop_keeps {m : List Region} {s0 s : State} {a1} (hm : [Region.flt, Region.slc, Region.wt, Region.sec, Region.mboxes] ⊆ m) (h : Keeps m s0 s) : Keeps m s0 (doKeyDrop a1 s) := by
  unfold doKeyDrop
  try dsimp only
  repeat' first
    | (exact List.Subset.trans (by decide) hm)
    | intro _
    | with_reducible assumption
    | (with_reducible apply State.agtan_keeps)
    | with_reducible refine State.respond_keeps (List.Subset.trans (by decide) hm) ?_
    | with_reducible refine State.setKey_keeps (List.Subset.trans (by decide) hm) ?_
    | with_reducible apply ite_keeps

theorem doKeyRetire_keeps {m : List Region} {s0 s : State} {a1} (hm : [Region.flt, Region.slc, Region.wt, Region.sec, Region.mboxes] ⊆ m) (h : Keeps m s0 s) : Keeps m s0 (doKeyRetire a1 s) := by
  unfold doKeyRetire
  try dsimp only
  repeat' first
    | (exact List.Subset.trans (by decide) hm)
    | intro _
    | with_reducible assumption
    | (with_reducible apply State.agtan_keeps)
    | with_reducible refine State.park_keeps (List.Subset.trans (by decide) hm) ?_
    | with_reducible refine State.setKey_keeps (List.Subset.trans (by decide) hm) ?_
    | with_reducible refine State.respond_keeps (List.Subset.trans (by decide) hm) ?_
    | with_reducible apply ite_keeps

theorem doKeyStatus_keeps {m : List Region} {s0 s : State} {a1} (hm : [Region.flt, Region.slc, Region.wt, Region.sec, Region.mboxes] ⊆ m) (h : Keeps m s0 s) : Keeps m s0 (doKeyStatus a1 s) := by
  unfold doKeyStatus
  try dsimp only
  repeat' first
    | (exact List.Subset.trans (by decide) hm)
    | intro _
    | with_reducible assumption
    | (with_reducible apply State.agtan_keeps)
    | with_reducible refine State.respond_keeps (List.Subset.trans (by decide) hm) ?_
    | with_reducible apply ite_keeps

theorem opcodes_keeps {c : AgtanCmd} {m : List Region} {s0 s : State} (hm : [Region.draws, Region.boot, Region.clk, Region.flt, Region.spares, Region.mem, Region.side, Region.allocCtr, Region.allocs, Region.badGrains, Region.sessions, Region.provs, Region.parts, Region.cfg, Region.ep, Region.slc, Region.wt, Region.jets, Region.sec, Region.mboxes, Region.twin] ⊆ m) (h : Keeps m s0 s) : ∀ x ∈ opcodes, Keeps m s0 (x.2 c s) := by
  unfold opcodes
  simp only [List.cons_append, List.nil_append, List.forall_mem_cons]
  refine ⟨(doNodeStatus_keeps (List.Subset.trans (by decide) hm)) h, (doAttestReport_keeps (List.Subset.trans (by decide) hm)) h, (doNodeReset_keeps (List.Subset.trans (by decide) hm)) h, (doPartitionReset_keeps (List.Subset.trans (by decide) hm)) h, (doLaneRetrain_keeps (List.Subset.trans (by decide) hm)) h, (doFaultRead_keeps (List.Subset.trans (by decide) hm)) h, (doPeerClear_keeps (List.Subset.trans (by decide) hm)) h, (doCfgCommit_keeps (List.Subset.trans (by decide) hm)) h, (doCfgAbort_keeps (List.Subset.trans (by decide) hm)) h, (doCfgStatus_keeps (List.Subset.trans (by decide) hm)) h, (doCfgDiscard_keeps (List.Subset.trans (by decide) hm)) h, (doPartMapStage_keeps (List.Subset.trans (by decide) hm)) h, (doPartCfgStage_keeps (List.Subset.trans (by decide) hm)) h, (doPartStatus_keeps (List.Subset.trans (by decide) hm)) h, (doLockStage_keeps (List.Subset.trans (by decide) hm)) h, (doAdmitWeightsStage_keeps (List.Subset.trans (by decide) hm)) h, (doNodeCfgStage_keeps (List.Subset.trans (by decide) hm)) h, (doTwinCfgStage_keeps (List.Subset.trans (by decide) hm)) h, (doRouteStage_keeps (List.Subset.trans (by decide) hm)) h, (doTwinStatus_keeps (List.Subset.trans (by decide) hm)) h, (doDirRead_keeps (List.Subset.trans (by decide) hm)) h, (doWindowStage_keeps (List.Subset.trans (by decide) hm)) h, (doWindowRead_keeps (List.Subset.trans (by decide) hm)) h, (doWindowRevoke_keeps (List.Subset.trans (by decide) hm)) h, (doSrcsetStage_keeps (List.Subset.trans (by decide) hm)) h, (doWeirStage_keeps (List.Subset.trans (by decide) hm)) h, (doShaperStage_keeps (List.Subset.trans (by decide) hm)) h, (doPortWeightsStage_keeps (List.Subset.trans (by decide) hm)) h, (doQueueSet_keeps (List.Subset.trans (by decide) hm)) h, (doQueueStop_keeps (List.Subset.trans (by decide) hm)) h, (doQueueRead_keeps (List.Subset.trans (by decide) hm)) h, (doKeyInstall_keeps (List.Subset.trans (by decide) hm)) h, (doKeySwitch_keeps (List.Subset.trans (by decide) hm)) h, (doKeyDrop_keeps (List.Subset.trans (by decide) hm)) h, (doKeyRetire_keeps (List.Subset.trans (by decide) hm)) h, (doKeyStatus_keeps (List.Subset.trans (by decide) hm)) h, (doSessionOpen_keeps (List.Subset.trans (by decide) hm)) h, (doSessionClose_keeps (List.Subset.trans (by decide) hm)) h, (doSessionRead_keeps (List.Subset.trans (by decide) hm)) h, (doBaseBegin_keeps (List.Subset.trans (by decide) hm)) h, (doBaseEnd_keeps (List.Subset.trans (by decide) hm)) h, (doBaseUnload_keeps (List.Subset.trans (by decide) hm)) h, (doPostabLoad_keeps (List.Subset.trans (by decide) hm)) h, (doPostabUnload_keeps (List.Subset.trans (by decide) hm)) h, (doProgStage_keeps (List.Subset.trans (by decide) hm)) h, (doStatsRead_keeps (List.Subset.trans (by decide) hm)) h, (doHistRead_keeps (List.Subset.trans (by decide) hm)) h, (doRebalance_keeps (List.Subset.trans (by decide) hm)) h, fun x hx => absurd hx (List.not_mem_nil)⟩

theorem State.runCmd_keeps {m : List Region} {s0 s : State} {a1 a2} (hm : [Region.draws, Region.boot, Region.clk, Region.flt, Region.spares, Region.mem, Region.side, Region.allocCtr, Region.allocs, Region.badGrains, Region.sessions, Region.provs, Region.parts, Region.cfg, Region.ep, Region.slc, Region.wt, Region.jets, Region.sec, Region.mboxes, Region.twin] ⊆ m) (h : Keeps m s0 s) : Keeps m s0 (s.runCmd a1 a2) := by
  unfold State.runCmd
  split
  · exact opcodes_keeps (List.Subset.trans (by decide) hm) h _ (List.mem_of_find?_eq_some (by assumption))
  · exact State.agtan_keeps h ((State.respond_keeps (List.Subset.trans (by decide) hm)) h) h

theorem State.sbCommand_keeps {m : List Region} {s0 s : State} {a1 a2} (hm : [Region.sb] ⊆ m) (h : Keeps m s0 s) : Keeps m s0 (State.sbCommand s a1 a2) := by
  unfold State.sbCommand
  try dsimp only
  repeat' first
    | intro _
    | with_reducible assumption
    | with_reducible refine State.emit_keeps (List.Subset.trans (by decide) hm) ?_
    | with_reducible refine State.updSb_keeps (List.Subset.trans (by decide) hm) ?_

theorem doErrClr_keeps {m : List Region} {s0 s : State} {a1} (hm : [Region.sb] ⊆ m) (h : Keeps m s0 s) : Keeps m s0 (doErrClr a1 s) := by
  unfold doErrClr
  try dsimp only
  repeat' first
    | (exact List.Subset.trans (by decide) hm)
    | intro _
    | with_reducible assumption
    | with_reducible refine State.updSb_keeps (List.Subset.trans (by decide) hm) ?_
    | with_reducible apply ite_keeps

theorem doResetKey_keeps {m : List Region} {s0 s : State} {a1} (hm : [Region.draws, Region.pins, Region.boot, Region.clk, Region.pwr, Region.flt, Region.spares, Region.allocCtr, Region.allocs, Region.badGrains, Region.sessions, Region.provs, Region.parts, Region.cfg, Region.ep, Region.slc, Region.wt, Region.jets, Region.jetSched, Region.sec, Region.mboxes, Region.mbNext, Region.twin, Region.sb] ⊆ m) (h : Keeps m s0 s) : Keeps m s0 (doResetKey a1 s) := by
  unfold doResetKey
  try dsimp only
  repeat' first
    | (exact List.Subset.trans (by decide) hm)
    | intro _
    | with_reducible assumption
    | with_reducible refine State.nodeReset_keeps (List.Subset.trans (by decide) hm) ?_
    | with_reducible apply ite_keeps

theorem State.sbWrite_keeps {m : List Region} {s0 s : State} {a1 a2} (hm : [Region.draws, Region.pins, Region.boot, Region.clk, Region.pwr, Region.flt, Region.spares, Region.allocCtr, Region.allocs, Region.badGrains, Region.sessions, Region.provs, Region.parts, Region.cfg, Region.ep, Region.slc, Region.wt, Region.jets, Region.jetSched, Region.sec, Region.mboxes, Region.mbNext, Region.twin, Region.sb] ⊆ m) (h : Keeps m s0 s) : Keeps m s0 (State.sbWrite s a1 a2) := by
  unfold State.sbWrite
  try dsimp only
  repeat' first
    | intro _
    | with_reducible assumption
    | with_reducible refine doErrClr_keeps (List.Subset.trans (by decide) hm) ?_
    | with_reducible refine doResetKey_keeps (List.Subset.trans (by decide) hm) ?_
    | with_reducible refine State.updSb_keeps (List.Subset.trans (by decide) hm) ?_
    | with_reducible apply ite_keeps

theorem State.sbData_keeps {m : List Region} {s0 s : State} {a1 a2} (hm : [Region.draws, Region.pins, Region.boot, Region.clk, Region.pwr, Region.flt, Region.spares, Region.allocCtr, Region.allocs, Region.badGrains, Region.sessions, Region.provs, Region.parts, Region.cfg, Region.ep, Region.slc, Region.wt, Region.jets, Region.jetSched, Region.sec, Region.mboxes, Region.mbNext, Region.twin, Region.sb] ⊆ m) (h : Keeps m s0 s) : Keeps m s0 (State.sbData s a1 a2) := by
  unfold State.sbData
  try dsimp only
  repeat' first
    | intro _
    | with_reducible assumption
    | with_reducible refine State.updSb_keeps (List.Subset.trans (by decide) hm) ?_
    | with_reducible refine State.sbWrite_keeps (List.Subset.trans (by decide) hm) ?_
    | with_reducible refine State.emit_keeps (List.Subset.trans (by decide) hm) ?_
    | with_reducible apply ite_keeps

theorem State.sbDiscard_keeps {m : List Region} {s0 s : State} (hm : [Region.sb] ⊆ m) (h : Keeps m s0 s) : Keeps m s0 (State.sbDiscard s) := by
  unfold State.sbDiscard
  try dsimp only
  repeat' first
    | intro _
    | with_reducible assumption
    | with_reducible refine State.updSb_keeps (List.Subset.trans (by decide) hm) ?_

theorem State.sbWord_keeps {m : List Region} {s0 s : State} {a1 a2} (hm : [Region.draws, Region.pins, Region.boot, Region.clk, Region.pwr, Region.flt, Region.spares, Region.allocCtr, Region.allocs, Region.badGrains, Region.sessions, Region.provs, Region.parts, Region.cfg, Region.ep, Region.slc, Region.wt, Region.jets, Region.jetSched, Region.sec, Region.mboxes, Region.mbNext, Region.twin, Region.sb] ⊆ m) (h : Keeps m s0 s) : Keeps m s0 (State.sbWord s a1 a2) := by
  unfold State.sbWord
  try dsimp only
  repeat' first
    | intro _
    | with_reducible assumption
    | with_reducible refine State.sbDiscard_keeps (List.Subset.trans (by decide) hm) ?_
    | with_reducible refine State.sbData_keeps (List.Subset.trans (by decide) hm) ?_
    | with_reducible refine State.sbCommand_keeps (List.Subset.trans (by decide) hm) ?_
    | with_reducible apply ite_keeps

theorem State.setSpdm_keeps {m : List Region} {s0 s : State} {a1 a2} (hm : [Region.sec] ⊆ m) (h : Keeps m s0 s) : Keeps m s0 (State.setSpdm s a1 a2) := by
  unfold State.setSpdm
  try dsimp only
  repeat' first
    | intro _
    | with_reducible assumption
    | with_reducible apply ite_keeps
    | with_reducible apply foldl_keeps
    | (fail_if_no_progress (with_reducible refine mk_keeps ?_ ?_ ?_ ?_ ?_ ?_ ?_ ?_ ?_ ?_ ?_ ?_ ?_ ?_ ?_ ?_ ?_ ?_ ?_ ?_ ?_ ?_ ?_ ?_ ?_ ?_ ?_ ?_) <;> try first | (with_reducible exact Or.inl rfl) | (exact Or.inr (hm (by decide))))

theorem State.spdmAnswer_keeps {m : List Region} {s0 s : State} {a1 a2 a3} (hm : ([] : List Region) ⊆ m) (h : Keeps m s0 s) : Keeps m s0 (State.spdmAnswer s a1 a2 a3) := by
  unfold State.spdmAnswer
  try dsimp only
  repeat' first
    | intro _
    | with_reducible assumption
    | with_reducible refine State.emit_keeps (List.Subset.trans (by decide) hm) ?_

theorem State.spdmSigned_keeps {m : List Region} {s0 s : State} {a1 a2 a3} (hm : [Region.draws] ⊆ m) (h : Keeps m s0 s) : Keeps m s0 (State.spdmSigned s a1 a2 a3) := by
  unfold State.spdmSigned
  try dsimp only
  repeat' first
    | intro _
    | with_reducible assumption
    | (refine State.sign_keeps (List.Subset.trans (by decide) hm) ?_ _ _ (by with_reducible assumption))
    | (with_reducible refine State.sign_keeps (List.Subset.trans (by decide) hm) ?_ _ _ rfl)
    | with_reducible refine State.emit_keeps (List.Subset.trans (by decide) hm) ?_

theorem State.stageReg_keeps {m : List Region} {s0 s : State} {a1} (hm : [Region.flt, Region.ep] ⊆ m) (h : Keeps m s0 s) : Keeps m s0 (State.stageReg s a1) := by
  unfold State.stageReg
  try dsimp only
  repeat' first
    | intro _
    | with_reducible assumption
    | (refine State.stageItems_keeps (List.Subset.trans (by decide) hm) ?_ _ _ (by with_reducible assumption))
    | (with_reducible refine State.stageItems_keeps (List.Subset.trans (by decide) hm) ?_ _ _ rfl)

theorem doMbDoorbell_keeps {m : List Region} {s0 s : State} {a1 a2 a3} (hm : [Region.mboxes] ⊆ m) (h : Keeps m s0 s) : Keeps m s0 (doMbDoorbell a1 a2 a3 s) := by
  unfold doMbDoorbell
  try dsimp only
  repeat' first
    | (exact List.Subset.trans (by decide) hm)
    | intro _
    | with_reducible assumption
    | with_reducible refine State.setMbox_keeps (List.Subset.trans (by decide) hm) ?_
    | with_reducible apply ite_keeps

theorem State.writeSlot_keeps {m : List Region} {s0 s : State} {a1 a2 a3 a4} (hm : [Region.mboxes] ⊆ m) (h : Keeps m s0 s) : Keeps m s0 (State.writeSlot s a1 a2 a3 a4) := by
  unfold State.writeSlot
  try dsimp only
  repeat' first
    | intro _
    | with_reducible assumption
    | with_reducible refine State.updMbox_keeps (List.Subset.trans (by decide) hm) ?_
    | with_reducible refine doMbDoorbell_keeps (List.Subset.trans (by decide) hm) ?_
    | with_reducible apply ite_keeps

theorem State.writeFltCtl_keeps {m : List Region} {s0 s : State} {a1} (hm : [Region.flt] ⊆ m) (h : Keeps m s0 s) : Keeps m s0 (State.writeFltCtl s a1) := by
  unfold State.writeFltCtl
  try dsimp only
  repeat' first
    | intro _
    | with_reducible assumption
    | with_reducible refine State.clearFirst_keeps (List.Subset.trans (by decide) hm) ?_
    | with_reducible refine State.clearHist_keeps (List.Subset.trans (by decide) hm) ?_
    | with_reducible apply ite_keeps
    | with_reducible apply foldl_keeps
    | (fail_if_no_progress (with_reducible refine mk_keeps ?_ ?_ ?_ ?_ ?_ ?_ ?_ ?_ ?_ ?_ ?_ ?_ ?_ ?_ ?_ ?_ ?_ ?_ ?_ ?_ ?_ ?_ ?_ ?_ ?_ ?_ ?_ ?_) <;> try first | (with_reducible exact Or.inl rfl) | (exact Or.inr (hm (by decide))))

theorem State.writePf_keeps {m : List Region} {s0 s : State} {a1 a2} (hm : [Region.clk, Region.pwr, Region.flt, Region.ep] ⊆ m) (h : Keeps m s0 s) : Keeps m s0 (State.writePf s a1 a2) := by
  unfold State.writePf
  try dsimp only
  repeat' first
    | intro _
    | with_reducible assumption
    | with_reducible refine State.writeFltCtl_keeps (List.Subset.trans (by decide) hm) ?_
    | with_reducible refine State.stageReg_keeps (List.Subset.trans (by decide) hm) ?_
    | with_reducible apply ite_keeps
    | with_reducible apply foldl_keeps
    | (fail_if_no_progress (with_reducible refine mk_keeps ?_ ?_ ?_ ?_ ?_ ?_ ?_ ?_ ?_ ?_ ?_ ?_ ?_ ?_ ?_ ?_ ?_ ?_ ?_ ?_ ?_ ?_ ?_ ?_ ?_ ?_ ?_ ?_) <;> try first | (with_reducible exact Or.inl rfl) | (exact Or.inr (hm (by decide))))

theorem State.writeBar0_keeps {m : List Region} {s0 s : State} {a1 a2 a3} (hm : [Region.clk, Region.pwr, Region.flt, Region.ep, Region.mboxes] ⊆ m) (h : Keeps m s0 s) : Keeps m s0 (State.writeBar0 s a1 a2 a3) := by
  unfold State.writeBar0
  try dsimp only
  repeat' first
    | intro _
    | with_reducible assumption
    | with_reducible refine State.writeSlot_keeps (List.Subset.trans (by decide) hm) ?_
    | with_reducible refine State.writePf_keeps (List.Subset.trans (by decide) hm) ?_
    | with_reducible apply ite_keeps

theorem State.writeJet_keeps {m : List Region} {s0 s : State} {a1 a2 a3} (hm : [Region.ep, Region.slc, Region.jets] ⊆ m) (h : Keeps m s0 s) : Keeps m s0 (State.writeJet s a1 a2 a3) := by
  unfold State.writeJet
  try dsimp only
  repeat' first
    | intro _
    | with_reducible assumption
    | with_reducible refine State.onJet_keeps (List.Subset.trans (by decide) hm) ?_
    | with_reducible refine State.libDone_keeps (List.Subset.trans (by decide) hm) ?_
    | with_reducible refine State.updJet_keeps (List.Subset.trans (by decide) hm) ?_
    | with_reducible apply ite_keeps

theorem doBar2Read_keeps {m : List Region} {s0 s : State} {a1 a2 a3 a4} (hm : [Region.flt, Region.mem, Region.side, Region.badGrains, Region.sessions, Region.parts, Region.slc, Region.wt, Region.sec, Region.twin] ⊆ m) (h : Keeps m s0 s) : Keeps m s0 (doBar2Read a1 a2 a3 a4 s) := by
  unfold doBar2Read
  try dsimp only
  repeat' first
    | (exact List.Subset.trans (by decide) hm)
    | intro _
    | with_reducible assumption
    | with_reducible refine State.emit_keeps (List.Subset.trans (by decide) hm) ?_
    | with_reducible refine State.bar2Blocked_keeps (List.Subset.trans (by decide) hm) ?_
    | (with_reducible apply State.each_keeps)
    | with_reducible refine State.noteCorrected_keeps (List.Subset.trans (by decide) hm) ?_
    | with_reducible refine State.failCheck_keeps (List.Subset.trans (by decide) hm) ?_
    | with_reducible apply ite_keeps

theorem doBar2Write_keeps {m : List Region} {s0 s : State} {a1 a2 a3 a4} (hm : [Region.flt, Region.mem, Region.side, Region.badGrains, Region.sessions, Region.parts, Region.slc, Region.wt, Region.sec, Region.twin] ⊆ m) (h : Keeps m s0 s) : Keeps m s0 (doBar2Write a1 a2 a3 a4 s) := by
  unfold doBar2Write
  try dsimp only
  repeat' first
    | (exact List.Subset.trans (by decide) hm)
    | intro _
    | with_reducible assumption
    | with_reducible refine State.emit_keeps (List.Subset.trans (by decide) hm) ?_
    | with_reducible refine State.bar2Blocked_keeps (List.Subset.trans (by decide) hm) ?_
    | with_reducible refine State.partialRefused_keeps (List.Subset.trans (by decide) hm) ?_
    | with_reducible refine State.mirrorBar2_keeps (List.Subset.trans (by decide) hm) ?_
    | with_reducible refine State.writeGrains_keeps (List.Subset.trans (by decide) hm) ?_
    | with_reducible apply ite_keeps
    | with_reducible apply foldl_keeps
    | (fail_if_no_progress (with_reducible refine mk_keeps ?_ ?_ ?_ ?_ ?_ ?_ ?_ ?_ ?_ ?_ ?_ ?_ ?_ ?_ ?_ ?_ ?_ ?_ ?_ ?_ ?_ ?_ ?_ ?_ ?_ ?_ ?_ ?_) <;> try first | (with_reducible exact Or.inl rfl) | (exact Or.inr (hm (by decide))))
    | split

theorem doIdeIntegrityFail_keeps {m : List Region} {s0 s : State} {a1} (hm : [Region.flt, Region.sec] ⊆ m) (h : Keeps m s0 s) : Keeps m s0 (doIdeIntegrityFail a1 s) := by
  unfold doIdeIntegrityFail
  try dsimp only
  repeat' first
    | (exact List.Subset.trans (by decide) hm)
    | intro _
    | with_reducible assumption
    | with_reducible refine State.fault_keeps (List.Subset.trans (by decide) hm) ?_
    | with_reducible refine State.setIde_keeps (List.Subset.trans (by decide) hm) ?_
    | with_reducible apply ite_keeps

theorem doIdeKmMessage_keeps {m : List Region} {s0 s : State} {a1 a2} (hm : [Region.sec] ⊆ m) (h : Keeps m s0 s) : Keeps m s0 (doIdeKmMessage a1 a2 s) := by
  unfold doIdeKmMessage
  try dsimp only
  repeat' first
    | (exact List.Subset.trans (by decide) hm)
    | intro _
    | with_reducible assumption
    | (with_reducible apply State.onSpdm_keeps)
    | (refine State.ideKm_keeps (List.Subset.trans (by decide) hm) ?_ _ _ (by with_reducible assumption))
    | (with_reducible refine State.ideKm_keeps (List.Subset.trans (by decide) hm) ?_ _ _ rfl)
    | with_reducible refine State.emit_keeps (List.Subset.trans (by decide) hm) ?_

theorem doKeyAgeWarn_keeps {m : List Region} {s0 s : State} {a1} (hm : [Region.flt, Region.sec] ⊆ m) (h : Keeps m s0 s) : Keeps m s0 (doKeyAgeWarn a1 s) := by
  unfold doKeyAgeWarn
  try dsimp only
  repeat' first
    | (exact List.Subset.trans (by decide) hm)
    | intro _
    | with_reducible assumption
    | with_reducible refine State.fault_keeps (List.Subset.trans (by decide) hm) ?_
    | with_reducible refine State.setKey_keeps (List.Subset.trans (by decide) hm) ?_
    | with_reducible apply ite_keeps
    | with_reducible apply foldl_keeps
    | (fail_if_no_progress (with_reducible refine mk_keeps ?_ ?_ ?_ ?_ ?_ ?_ ?_ ?_ ?_ ?_ ?_ ?_ ?_ ?_ ?_ ?_ ?_ ?_ ?_ ?_ ?_ ?_ ?_ ?_ ?_ ?_ ?_ ?_) <;> try first | (with_reducible exact Or.inl rfl) | (exact Or.inr (hm (by decide))))
    | split

theorem doKeyLifetimeExpiry_keeps {m : List Region} {s0 s : State} {a1} (hm : [Region.clk, Region.flt, Region.parts, Region.slc, Region.wt, Region.jets, Region.sec, Region.mboxes, Region.twin] ⊆ m) (h : Keeps m s0 s) : Keeps m s0 (doKeyLifetimeExpiry a1 s) := by
  unfold doKeyLifetimeExpiry
  try dsimp only
  repeat' first
    | (exact List.Subset.trans (by decide) hm)
    | intro _
    | with_reducible assumption
    | with_reducible refine State.setKey_keeps (List.Subset.trans (by decide) hm) ?_
    | (with_reducible apply State.each_keeps)
    | with_reducible refine State.dropUnkeyed_keeps (List.Subset.trans (by decide) hm) ?_
    | with_reducible apply ite_keeps

theorem doKeyRetired_keeps {m : List Region} {s0 s : State} {a1} (hm : [Region.clk, Region.flt, Region.parts, Region.slc, Region.wt, Region.jets, Region.sec, Region.mboxes, Region.twin] ⊆ m) (h : Keeps m s0 s) : Keeps m s0 (doKeyRetired a1 s) := by
  unfold doKeyRetired
  try dsimp only
  repeat' first
    | (exact List.Subset.trans (by decide) hm)
    | intro _
    | with_reducible assumption
    | with_reducible refine State.unpark_keeps (List.Subset.trans (by decide) hm) ?_
    | with_reducible refine State.endSlotFrames_keeps (List.Subset.trans (by decide) hm) ?_
    | with_reducible refine State.setKey_keeps (List.Subset.trans (by decide) hm) ?_
    | with_reducible apply ite_keeps

theorem doMailboxTurn_keeps {m : List Region} {s0 s : State} (hm : [Region.draws, Region.boot, Region.clk, Region.flt, Region.spares, Region.mem, Region.side, Region.allocCtr, Region.allocs, Region.badGrains, Region.sessions, Region.provs, Region.parts, Region.cfg, Region.ep, Region.slc, Region.wt, Region.jets, Region.sec, Region.mboxes, Region.mbNext, Region.twin] ⊆ m) (h : Keeps m s0 s) : Keeps m s0 (doMailboxTurn s) := by
  unfold doMailboxTurn
  try dsimp only
  repeat' first
    | (exact List.Subset.trans (by decide) hm)
    | intro _
    | with_reducible assumption
    | with_reducible refine State.updMbox_keeps (List.Subset.trans (by decide) hm) ?_
    | with_reducible refine State.runCmd_keeps (List.Subset.trans (by decide) hm) ?_
    | with_reducible apply ite_keeps
    | with_reducible apply foldl_keeps
    | (fail_if_no_progress (with_reducible refine mk_keeps ?_ ?_ ?_ ?_ ?_ ?_ ?_ ?_ ?_ ?_ ?_ ?_ ?_ ?_ ?_ ?_ ?_ ?_ ?_ ?_ ?_ ?_ ?_ ?_ ?_ ?_ ?_ ?_) <;> try first | (with_reducible exact Or.inl rfl) | (exact Or.inr (hm (by decide))))
    | split

theorem doMctpMailboxMessage_keeps {m : List Region} {s0 s : State} {a1} (hm : [Region.mboxes] ⊆ m) (h : Keeps m s0 s) : Keeps m s0 (doMctpMailboxMessage a1 s) := by
  unfold doMctpMailboxMessage
  try dsimp only
  repeat' first
    | (exact List.Subset.trans (by decide) hm)
    | intro _
    | with_reducible assumption
    | with_reducible refine State.emit_keeps (List.Subset.trans (by decide) hm) ?_
    | with_reducible refine State.acceptCmd_keeps (List.Subset.trans (by decide) hm) ?_
    | with_reducible apply ite_keeps
    | with_reducible apply foldl_keeps
    | (fail_if_no_progress (with_reducible refine mk_keeps ?_ ?_ ?_ ?_ ?_ ?_ ?_ ?_ ?_ ?_ ?_ ?_ ?_ ?_ ?_ ?_ ?_ ?_ ?_ ?_ ?_ ?_ ?_ ?_ ?_ ?_ ?_ ?_) <;> try first | (with_reducible exact Or.inl rfl) | (exact Or.inr (hm (by decide))))
    | split

theorem doPldmRequest_keeps {m : List Region} {s0 s : State} {a1} (hm : [Region.draws] ⊆ m) (h : Keeps m s0 s) : Keeps m s0 (doPldmRequest a1 s) := by
  unfold doPldmRequest
  try dsimp only
  repeat' first
    | (exact List.Subset.trans (by decide) hm)
    | intro _
    | with_reducible assumption
    | with_reducible refine State.emit_keeps (List.Subset.trans (by decide) hm) ?_
    | with_reducible apply ite_keeps
    | with_reducible apply foldl_keeps
    | (fail_if_no_progress (with_reducible refine mk_keeps ?_ ?_ ?_ ?_ ?_ ?_ ?_ ?_ ?_ ?_ ?_ ?_ ?_ ?_ ?_ ?_ ?_ ?_ ?_ ?_ ?_ ?_ ?_ ?_ ?_ ?_ ?_ ?_) <;> try first | (with_reducible exact Or.inl rfl) | (exact Or.inr (hm (by decide))))
    | split

theorem doRegisterWrite_keeps {m : List Region} {s0 s : State} {a1 a2} (hm : [Region.clk, Region.pwr, Region.flt, Region.ep, Region.slc, Region.jets, Region.jetSched, Region.mboxes, Region.twin] ⊆ m) (h : Keeps m s0 s) : Keeps m s0 (doRegisterWrite a1 a2 s) := by
  unfold doRegisterWrite
  try dsimp only
  repeat' first
    | intro _
    | with_reducible assumption
    | with_reducible refine State.writeBar0_keeps (List.Subset.trans (by decide) hm) ?_
    | with_reducible refine State.writeJet_keeps (List.Subset.trans (by decide) hm) ?_
    | with_reducible apply ite_keeps
    | with_reducible apply foldl_keeps
    | (fail_if_no_progress (with_reducible refine mk_keeps ?_ ?_ ?_ ?_ ?_ ?_ ?_ ?_ ?_ ?_ ?_ ?_ ?_ ?_ ?_ ?_ ?_ ?_ ?_ ?_ ?_ ?_ ?_ ?_ ?_ ?_ ?_ ?_) <;> try first | (with_reducible exact Or.inl rfl) | (exact Or.inr (hm (by decide))))
    | split

theorem doSbDataTimeout_keeps {m : List Region} {s0 s : State} (hm : [Region.sb] ⊆ m) (h : Keeps m s0 s) : Keeps m s0 (doSbDataTimeout s) := by
  unfold doSbDataTimeout
  try dsimp only
  repeat' first
    | (exact List.Subset.trans (by decide) hm)
    | intro _
    | with_reducible assumption
    | with_reducible refine State.updSb_keeps (List.Subset.trans (by decide) hm) ?_
    | with_reducible apply ite_keeps

theorem doSmbusTimeout_keeps {m : List Region} {s0 s : State} {a1} (hm : [Region.sb] ⊆ m) (h : Keeps m s0 s) : Keeps m s0 (doSmbusTimeout a1 s) := by
  unfold doSmbusTimeout
  try dsimp only
  repeat' first
    | (exact List.Subset.trans (by decide) hm)
    | intro _
    | with_reducible assumption
    | with_reducible apply ite_keeps
    | with_reducible apply foldl_keeps
    | (fail_if_no_progress (with_reducible refine mk_keeps ?_ ?_ ?_ ?_ ?_ ?_ ?_ ?_ ?_ ?_ ?_ ?_ ?_ ?_ ?_ ?_ ?_ ?_ ?_ ?_ ?_ ?_ ?_ ?_ ?_ ?_ ?_ ?_) <;> try first | (with_reducible exact Or.inl rfl) | (exact Or.inr (hm (by decide))))

theorem doSpdmChallenge_keeps {m : List Region} {s0 s : State} {a1 a2 a3} (hm : [Region.draws] ⊆ m) (h : Keeps m s0 s) : Keeps m s0 (doSpdmChallenge a1 a2 a3 s) := by
  unfold doSpdmChallenge
  try dsimp only
  repeat' first
    | (exact List.Subset.trans (by decide) hm)
    | intro _
    | with_reducible assumption
    | (with_reducible apply State.onSpdm_keeps)
    | with_reducible refine State.spdmSigned_keeps (List.Subset.trans (by decide) hm) ?_

theorem doSpdmEndSession_keeps {m : List Region} {s0 s : State} {a1 a2} (hm : [Region.sec] ⊆ m) (h : Keeps m s0 s) : Keeps m s0 (doSpdmEndSession a1 a2 s) := by
  unfold doSpdmEndSession
  try dsimp only
  repeat' first
    | (exact List.Subset.trans (by decide) hm)
    | intro _
    | with_reducible assumption
    | (with_reducible apply State.onSpdm_keeps)
    | with_reducible refine State.spdmAnswer_keeps (List.Subset.trans (by decide) hm) ?_
    | with_reducible refine State.setSpdm_keeps (List.Subset.trans (by decide) hm) ?_

theorem doSpdmFinish_keeps {m : List Region} {s0 s : State} {a1 a2 a3} (hm : [Region.sec] ⊆ m) (h : Keeps m s0 s) : Keeps m s0 (doSpdmFinish a1 a2 a3 s) := by
  unfold doSpdmFinish
  try dsimp only
  repeat' first
    | (exact List.Subset.trans (by decide) hm)
    | intro _
    | with_reducible assumption
    | (with_reducible apply State.onSpdm_keeps)
    | with_reducible refine State.spdmAnswer_keeps (List.Subset.trans (by decide) hm) ?_
    | with_reducible refine State.setSpdm_keeps (List.Subset.trans (by decide) hm) ?_
    | with_reducible refine State.emit_keeps (List.Subset.trans (by decide) hm) ?_
    | with_reducible apply ite_keeps

theorem doSpdmGetCapabilities_keeps {m : List Region} {s0 s : State} {a1 a2} (hm : [Region.sec] ⊆ m) (h : Keeps m s0 s) : Keeps m s0 (doSpdmGetCapabilities a1 a2 s) := by
  unfold doSpdmGetCapabilities
  try dsimp only
  repeat' first
    | (exact List.Subset.trans (by decide) hm)
    | intro _
    | with_reducible assumption
    | (with_reducible apply State.onSpdm_keeps)
    | with_reducible refine State.spdmAnswer_keeps (List.Subset.trans (by decide) hm) ?_
    | with_reducible refine State.setSpdm_keeps (List.Subset.trans (by decide) hm) ?_

theorem doSpdmGetCertificate_keeps {m : List Region} {s0 s : State} {a1 a2 a3 a4} (hm : ([] : List Region) ⊆ m) (h : Keeps m s0 s) : Keeps m s0 (doSpdmGetCertificate a1 a2 a3 a4 s) := by
  unfold doSpdmGetCertificate
  try dsimp only
  repeat' first
    | (exact List.Subset.trans (by decide) hm)
    | intro _
    | with_reducible assumption
    | (with_reducible apply State.onSpdm_keeps)
    | with_reducible refine State.spdmAnswer_keeps (List.Subset.trans (by decide) hm) ?_

theorem doSpdmGetDigests_keeps {m : List Region} {s0 s : State} {a1} (hm : ([] : List Region) ⊆ m) (h : Keeps m s0 s) : Keeps m s0 (doSpdmGetDigests a1 s) := by
  unfold doSpdmGetDigests
  try dsimp only
  repeat' first
    | (exact List.Subset.trans (by decide) hm)
    | intro _
    | with_reducible assumption
    | (with_reducible apply State.onSpdm_keeps)
    | with_reducible refine State.spdmAnswer_keeps (List.Subset.trans (by decide) hm) ?_

theorem doSpdmGetMeasurements_keeps {m : List Region} {s0 s : State} {a1 a2 a3 a4} (hm : [Region.draws] ⊆ m) (h : Keeps m s0 s) : Keeps m s0 (doSpdmGetMeasurements a1 a2 a3 a4 s) := by
  unfold doSpdmGetMeasurements
  try dsimp only
  repeat' first
    | (exact List.Subset.trans (by decide) hm)
    | intro _
    | with_reducible assumption
    | (with_reducible apply State.onSpdm_keeps)
    | with_reducible refine State.spdmSigned_keeps (List.Subset.trans (by decide) hm) ?_
    | with_reducible refine State.spdmAnswer_keeps (List.Subset.trans (by decide) hm) ?_
    | with_reducible apply ite_keeps

theorem doSpdmGetVersion_keeps {m : List Region} {s0 s : State} {a1} (hm : [Region.sec] ⊆ m) (h : Keeps m s0 s) : Keeps m s0 (doSpdmGetVersion a1 s) := by
  unfold doSpdmGetVersion
  try dsimp only
  repeat' first
    | (exact List.Subset.trans (by decide) hm)
    | intro _
    | with_reducible assumption
    | (with_reducible apply State.onSpdm_keeps)
    | with_reducible refine State.spdmAnswer_keeps (List.Subset.trans (by decide) hm) ?_
    | with_reducible refine State.setSpdm_keeps (List.Subset.trans (by decide) hm) ?_

theorem doSpdmHeartbeat_keeps {m : List Region} {s0 s : State} {a1 a2} (hm : ([] : List Region) ⊆ m) (h : Keeps m s0 s) : Keeps m s0 (doSpdmHeartbeat a1 a2 s) := by
  unfold doSpdmHeartbeat
  try dsimp only
  repeat' first
    | (exact List.Subset.trans (by decide) hm)
    | intro _
    | with_reducible assumption
    | (with_reducible apply State.onSpdm_keeps)
    | with_reducible refine State.spdmAnswer_keeps (List.Subset.trans (by decide) hm) ?_

theorem doSpdmKeyExchange_keeps {m : List Region} {s0 s : State} {a1 a2 a3} (hm : [Region.draws, Region.sec] ⊆ m) (h : Keeps m s0 s) : Keeps m s0 (doSpdmKeyExchange a1 a2 a3 s) := by
  unfold doSpdmKeyExchange
  try dsimp only
  repeat' first
    | (exact List.Subset.trans (by decide) hm)
    | intro _
    | with_reducible assumption
    | (with_reducible apply State.onSpdm_keeps)
    | (refine State.draw_keeps (List.Subset.trans (by decide) hm) ?_ _ _ (by with_reducible assumption))
    | (with_reducible refine State.draw_keeps (List.Subset.trans (by decide) hm) ?_ _ _ rfl)
    | with_reducible refine State.spdmSigned_keeps (List.Subset.trans (by decide) hm) ?_
    | with_reducible refine State.setSpdm_keeps (List.Subset.trans (by decide) hm) ?_

theorem doSpdmKeyUpdate_keeps {m : List Region} {s0 s : State} {a1 a2 a3 a4} (hm : ([] : List Region) ⊆ m) (h : Keeps m s0 s) : Keeps m s0 (doSpdmKeyUpdate a1 a2 a3 a4 s) := by
  unfold doSpdmKeyUpdate
  try dsimp only
  repeat' first
    | (exact List.Subset.trans (by decide) hm)
    | intro _
    | with_reducible assumption
    | (with_reducible apply State.onSpdm_keeps)
    | with_reducible refine State.spdmAnswer_keeps (List.Subset.trans (by decide) hm) ?_

theorem doSpdmNegotiateAlgorithms_keeps {m : List Region} {s0 s : State} {a1 a2} (hm : [Region.sec] ⊆ m) (h : Keeps m s0 s) : Keeps m s0 (doSpdmNegotiateAlgorithms a1 a2 s) := by
  unfold doSpdmNegotiateAlgorithms
  try dsimp only
  repeat' first
    | (exact List.Subset.trans (by decide) hm)
    | intro _
    | with_reducible assumption
    | (with_reducible apply State.onSpdm_keeps)
    | with_reducible refine State.spdmAnswer_keeps (List.Subset.trans (by decide) hm) ?_
    | with_reducible refine State.setSpdm_keeps (List.Subset.trans (by decide) hm) ?_

theorem doVendorDefinedRequest_keeps {m : List Region} {s0 s : State} {a1 a2 a3} (hm : [Region.mboxes] ⊆ m) (h : Keeps m s0 s) : Keeps m s0 (doVendorDefinedRequest a1 a2 a3 s) := by
  unfold doVendorDefinedRequest
  try dsimp only
  repeat' first
    | (exact List.Subset.trans (by decide) hm)
    | intro _
    | with_reducible assumption
    | (with_reducible apply State.onSpdm_keeps)
    | with_reducible refine State.spdmAnswer_keeps (List.Subset.trans (by decide) hm) ?_
    | with_reducible refine State.acceptCmd_keeps (List.Subset.trans (by decide) hm) ?_
    | with_reducible apply ite_keeps
    | with_reducible apply foldl_keeps
    | (fail_if_no_progress (with_reducible refine mk_keeps ?_ ?_ ?_ ?_ ?_ ?_ ?_ ?_ ?_ ?_ ?_ ?_ ?_ ?_ ?_ ?_ ?_ ?_ ?_ ?_ ?_ ?_ ?_ ?_ ?_ ?_ ?_ ?_) <;> try first | (with_reducible exact Or.inl rfl) | (exact Or.inr (hm (by decide))))
    | split

theorem execAttestReport_keeps {m : List Region} {s0 s : State} {a1} (hm : [Region.draws, Region.flt, Region.slc, Region.wt, Region.sec, Region.mboxes] ⊆ m) (h : Keeps m s0 s) : OutKeeps m s0 (execAttestReport a1 s) := by
  unfold execAttestReport
  repeat' first
    | (with_reducible refine run_keeps (fun _ _ => ?_) ?_)
    | intro _
    | with_reducible assumption
    | with_reducible refine doAttestReport_keeps (List.Subset.trans (by decide) hm) ?_

theorem execKeyInstall_keeps {m : List Region} {s0 s : State} {a1} (hm : [Region.flt, Region.slc, Region.wt, Region.sec, Region.mboxes] ⊆ m) (h : Keeps m s0 s) : OutKeeps m s0 (execKeyInstall a1 s) := by
  unfold execKeyInstall
  repeat' first
    | (with_reducible refine run_keeps (fun _ _ => ?_) ?_)
    | intro _
    | with_reducible assumption
    | with_reducible refine doKeyInstall_keeps (List.Subset.trans (by decide) hm) ?_

theorem execKeySwitch_keeps {m : List Region} {s0 s : State} {a1} (hm : [Region.flt, Region.slc, Region.wt, Region.sec, Region.mboxes] ⊆ m) (h : Keeps m s0 s) : OutKeeps m s0 (execKeySwitch a1 s) := by
  unfold execKeySwitch
  repeat' first
    | (with_reducible refine run_keeps (fun _ _ => ?_) ?_)
    | intro _
    | with_reducible assumption
    | with_reducible refine doKeySwitch_keeps (List.Subset.trans (by decide) hm) ?_

theorem execKeyDrop_keeps {m : List Region} {s0 s : State} {a1} (hm : [Region.flt, Region.slc, Region.wt, Region.sec, Region.mboxes] ⊆ m) (h : Keeps m s0 s) : OutKeeps m s0 (execKeyDrop a1 s) := by
  unfold execKeyDrop
  repeat' first
    | (with_reducible refine run_keeps (fun _ _ => ?_) ?_)
    | intro _
    | with_reducible assumption
    | with_reducible refine doKeyDrop_keeps (List.Subset.trans (by decide) hm) ?_

theorem execKeyRetire_keeps {m : List Region} {s0 s : State} {a1} (hm : [Region.flt, Region.slc, Region.wt, Region.sec, Region.mboxes] ⊆ m) (h : Keeps m s0 s) : OutKeeps m s0 (execKeyRetire a1 s) := by
  unfold execKeyRetire
  repeat' first
    | (with_reducible refine run_keeps (fun _ _ => ?_) ?_)
    | intro _
    | with_reducible assumption
    | with_reducible refine doKeyRetire_keeps (List.Subset.trans (by decide) hm) ?_

theorem execKeyRetired_keeps {m : List Region} {s0 s : State} {a1 a2} (hm : [Region.clk, Region.flt, Region.parts, Region.slc, Region.wt, Region.jets, Region.sec, Region.mboxes, Region.twin] ⊆ m) (h : Keeps m s0 s) : OutKeeps m s0 (execKeyRetired a1 a2 s) := by
  unfold execKeyRetired
  repeat' first
    | (with_reducible refine run_keeps (fun _ _ => ?_) ?_)
    | intro _
    | with_reducible assumption
    | with_reducible refine doKeyRetired_keeps (List.Subset.trans (by decide) hm) ?_
    | with_reducible refine State.upTo_keeps (List.Subset.trans (by decide) hm) ?_

theorem execKeyStatus_keeps {m : List Region} {s0 s : State} {a1} (hm : [Region.flt, Region.slc, Region.wt, Region.sec, Region.mboxes] ⊆ m) (h : Keeps m s0 s) : OutKeeps m s0 (execKeyStatus a1 s) := by
  unfold execKeyStatus
  repeat' first
    | (with_reducible refine run_keeps (fun _ _ => ?_) ?_)
    | intro _
    | with_reducible assumption
    | with_reducible refine doKeyStatus_keeps (List.Subset.trans (by decide) hm) ?_

theorem execKeyAgeWarn_keeps {m : List Region} {s0 s : State} {a1 a2} (hm : [Region.clk, Region.flt, Region.sec] ⊆ m) (h : Keeps m s0 s) : OutKeeps m s0 (execKeyAgeWarn a1 a2 s) := by
  unfold execKeyAgeWarn
  repeat' first
    | (with_reducible refine run_keeps (fun _ _ => ?_) ?_)
    | intro _
    | with_reducible assumption
    | with_reducible refine doKeyAgeWarn_keeps (List.Subset.trans (by decide) hm) ?_
    | with_reducible refine State.upTo_keeps (List.Subset.trans (by decide) hm) ?_

theorem execKeyLifetimeExpiry_keeps {m : List Region} {s0 s : State} {a1 a2} (hm : [Region.clk, Region.flt, Region.parts, Region.slc, Region.wt, Region.jets, Region.sec, Region.mboxes, Region.twin] ⊆ m) (h : Keeps m s0 s) : OutKeeps m s0 (execKeyLifetimeExpiry a1 a2 s) := by
  unfold execKeyLifetimeExpiry
  repeat' first
    | (with_reducible refine run_keeps (fun _ _ => ?_) ?_)
    | intro _
    | with_reducible assumption
    | with_reducible refine doKeyLifetimeExpiry_keeps (List.Subset.trans (by decide) hm) ?_
    | with_reducible refine State.upTo_keeps (List.Subset.trans (by decide) hm) ?_

theorem execMbDoorbell_keeps {m : List Region} {s0 s : State} {a1 a2 a3} (hm : [Region.mboxes] ⊆ m) (h : Keeps m s0 s) : OutKeeps m s0 (execMbDoorbell a1 a2 a3 s) := by
  unfold execMbDoorbell
  repeat' first
    | (with_reducible refine run_keeps (fun _ _ => ?_) ?_)
    | intro _
    | with_reducible assumption
    | with_reducible refine doMbDoorbell_keeps (List.Subset.trans (by decide) hm) ?_

theorem execMailboxTurn_keeps {m : List Region} {s0 s : State} (hm : [Region.draws, Region.boot, Region.clk, Region.flt, Region.spares, Region.mem, Region.side, Region.allocCtr, Region.allocs, Region.badGrains, Region.sessions, Region.provs, Region.parts, Region.cfg, Region.ep, Region.slc, Region.wt, Region.jets, Region.sec, Region.mboxes, Region.mbNext, Region.twin] ⊆ m) (h : Keeps m s0 s) : OutKeeps m s0 (execMailboxTurn s) := by
  unfold execMailboxTurn
  repeat' first
    | (with_reducible refine run_keeps (fun _ _ => ?_) ?_)
    | intro _
    | with_reducible assumption
    | with_reducible refine doMailboxTurn_keeps (List.Subset.trans (by decide) hm) ?_

theorem execSpdmGetVersion_keeps {m : List Region} {s0 s : State} {a1} (hm : [Region.sec] ⊆ m) (h : Keeps m s0 s) : OutKeeps m s0 (execSpdmGetVersion a1 s) := by
  unfold execSpdmGetVersion
  repeat' first
    | (with_reducible refine run_keeps (fun _ _ => ?_) ?_)
    | intro _
    | with_reducible assumption
    | with_reducible refine doSpdmGetVersion_keeps (List.Subset.trans (by decide) hm) ?_

theorem execSpdmGetCapabilities_keeps {m : List Region} {s0 s : State} {a1 a2} (hm : [Region.sec] ⊆ m) (h : Keeps m s0 s) : OutKeeps m s0 (execSpdmGetCapabilities a1 a2 s) := by
  unfold execSpdmGetCapabilities
  repeat' first
    | (with_reducible refine run_keeps (fun _ _ => ?_) ?_)
    | intro _
    | with_reducible assumption
    | with_reducible refine doSpdmGetCapabilities_keeps (List.Subset.trans (by decide) hm) ?_

theorem execSpdmNegotiateAlgorithms_keeps {m : List Region} {s0 s : State} {a1 a2} (hm : [Region.sec] ⊆ m) (h : Keeps m s0 s) : OutKeeps m s0 (execSpdmNegotiateAlgorithms a1 a2 s) := by
  unfold execSpdmNegotiateAlgorithms
  repeat' first
    | (with_reducible refine run_keeps (fun _ _ => ?_) ?_)
    | intro _
    | with_reducible assumption
    | with_reducible refine doSpdmNegotiateAlgorithms_keeps (List.Subset.trans (by decide) hm) ?_

theorem execSpdmGetDigests_keeps {m : List Region} {s0 s : State} {a1} (hm : ([] : List Region) ⊆ m) (h : Keeps m s0 s) : OutKeeps m s0 (execSpdmGetDigests a1 s) := by
  unfold execSpdmGetDigests
  repeat' first
    | (with_reducible refine run_keeps (fun _ _ => ?_) ?_)
    | intro _
    | with_reducible assumption
    | with_reducible refine doSpdmGetDigests_keeps (List.Subset.trans (by decide) hm) ?_

theorem execSpdmGetCertificate_keeps {m : List Region} {s0 s : State} {a1 a2 a3 a4} (hm : ([] : List Region) ⊆ m) (h : Keeps m s0 s) : OutKeeps m s0 (execSpdmGetCertificate a1 a2 a3 a4 s) := by
  unfold execSpdmGetCertificate
  repeat' first
    | (with_reducible refine run_keeps (fun _ _ => ?_) ?_)
    | intro _
    | with_reducible assumption
    | with_reducible refine doSpdmGetCertificate_keeps (List.Subset.trans (by decide) hm) ?_

theorem execSpdmChallenge_keeps {m : List Region} {s0 s : State} {a1 a2 a3} (hm : [Region.draws] ⊆ m) (h : Keeps m s0 s) : OutKeeps m s0 (execSpdmChallenge a1 a2 a3 s) := by
  unfold execSpdmChallenge
  repeat' first
    | (with_reducible refine run_keeps (fun _ _ => ?_) ?_)
    | intro _
    | with_reducible assumption
    | with_reducible refine doSpdmChallenge_keeps (List.Subset.trans (by decide) hm) ?_

theorem execSpdmGetMeasurements_keeps {m : List Region} {s0 s : State} {a1 a2 a3 a4} (hm : [Region.draws] ⊆ m) (h : Keeps m s0 s) : OutKeeps m s0 (execSpdmGetMeasurements a1 a2 a3 a4 s) := by
  unfold execSpdmGetMeasurements
  repeat' first
    | (with_reducible refine run_keeps (fun _ _ => ?_) ?_)
    | intro _
    | with_reducible assumption
    | with_reducible refine doSpdmGetMeasurements_keeps (List.Subset.trans (by decide) hm) ?_

theorem execSpdmKeyExchange_keeps {m : List Region} {s0 s : State} {a1 a2 a3} (hm : [Region.draws, Region.sec] ⊆ m) (h : Keeps m s0 s) : OutKeeps m s0 (execSpdmKeyExchange a1 a2 a3 s) := by
  unfold execSpdmKeyExchange
  repeat' first
    | (with_reducible refine run_keeps (fun _ _ => ?_) ?_)
    | intro _
    | with_reducible assumption
    | with_reducible refine doSpdmKeyExchange_keeps (List.Subset.trans (by decide) hm) ?_

theorem execSpdmFinish_keeps {m : List Region} {s0 s : State} {a1 a2 a3} (hm : [Region.sec] ⊆ m) (h : Keeps m s0 s) : OutKeeps m s0 (execSpdmFinish a1 a2 a3 s) := by
  unfold execSpdmFinish
  repeat' first
    | (with_reducible refine run_keeps (fun _ _ => ?_) ?_)
    | intro _
    | with_reducible assumption
    | with_reducible refine doSpdmFinish_keeps (List.Subset.trans (by decide) hm) ?_

theorem execSpdmKeyUpdate_keeps {m : List Region} {s0 s : State} {a1 a2 a3 a4} (hm : ([] : List Region) ⊆ m) (h : Keeps m s0 s) : OutKeeps m s0 (execSpdmKeyUpdate a1 a2 a3 a4 s) := by
  unfold execSpdmKeyUpdate
  repeat' first
    | (with_reducible refine run_keeps (fun _ _ => ?_) ?_)
    | intro _
    | with_reducible assumption
    | with_reducible refine doSpdmKeyUpdate_keeps (List.Subset.trans (by decide) hm) ?_

theorem execSpdmHeartbeat_keeps {m : List Region} {s0 s : State} {a1 a2} (hm : ([] : List Region) ⊆ m) (h : Keeps m s0 s) : OutKeeps m s0 (execSpdmHeartbeat a1 a2 s) := by
  unfold execSpdmHeartbeat
  repeat' first
    | (with_reducible refine run_keeps (fun _ _ => ?_) ?_)
    | intro _
    | with_reducible assumption
    | with_reducible refine doSpdmHeartbeat_keeps (List.Subset.trans (by decide) hm) ?_

theorem execSpdmEndSession_keeps {m : List Region} {s0 s : State} {a1 a2} (hm : [Region.sec] ⊆ m) (h : Keeps m s0 s) : OutKeeps m s0 (execSpdmEndSession a1 a2 s) := by
  unfold execSpdmEndSession
  repeat' first
    | (with_reducible refine run_keeps (fun _ _ => ?_) ?_)
    | intro _
    | with_reducible assumption
    | with_reducible refine doSpdmEndSession_keeps (List.Subset.trans (by decide) hm) ?_

theorem execVendorDefinedRequest_keeps {m : List Region} {s0 s : State} {a1 a2 a3} (hm : [Region.mboxes] ⊆ m) (h : Keeps m s0 s) : OutKeeps m s0 (execVendorDefinedRequest a1 a2 a3 s) := by
  unfold execVendorDefinedRequest
  repeat' first
    | (with_reducible refine run_keeps (fun _ _ => ?_) ?_)
    | intro _
    | with_reducible assumption
    | with_reducible refine doVendorDefinedRequest_keeps (List.Subset.trans (by decide) hm) ?_

theorem execMctpMailboxMessage_keeps {m : List Region} {s0 s : State} {a1} (hm : [Region.mboxes] ⊆ m) (h : Keeps m s0 s) : OutKeeps m s0 (execMctpMailboxMessage a1 s) := by
  unfold execMctpMailboxMessage
  repeat' first
    | (with_reducible refine run_keeps (fun _ _ => ?_) ?_)
    | intro _
    | with_reducible assumption
    | with_reducible refine doMctpMailboxMessage_keeps (List.Subset.trans (by decide) hm) ?_

theorem execPldmRequest_keeps {m : List Region} {s0 s : State} {a1} (hm : [Region.draws] ⊆ m) (h : Keeps m s0 s) : OutKeeps m s0 (execPldmRequest a1 s) := by
  unfold execPldmRequest
  repeat' first
    | (with_reducible refine run_keeps (fun _ _ => ?_) ?_)
    | intro _
    | with_reducible assumption
    | with_reducible refine doPldmRequest_keeps (List.Subset.trans (by decide) hm) ?_

theorem execSmbusTimeout_keeps {m : List Region} {s0 s : State} {a1} (hm : [Region.sb] ⊆ m) (h : Keeps m s0 s) : OutKeeps m s0 (execSmbusTimeout a1 s) := by
  unfold execSmbusTimeout
  repeat' first
    | (with_reducible refine run_keeps (fun _ _ => ?_) ?_)
    | intro _
    | with_reducible assumption
    | with_reducible refine doSmbusTimeout_keeps (List.Subset.trans (by decide) hm) ?_

theorem execIdeIntegrityFail_keeps {m : List Region} {s0 s : State} {a1} (hm : [Region.flt, Region.sec] ⊆ m) (h : Keeps m s0 s) : OutKeeps m s0 (execIdeIntegrityFail a1 s) := by
  unfold execIdeIntegrityFail
  repeat' first
    | (with_reducible refine run_keeps (fun _ _ => ?_) ?_)
    | intro _
    | with_reducible assumption
    | with_reducible refine doIdeIntegrityFail_keeps (List.Subset.trans (by decide) hm) ?_

theorem execBar2Read_keeps {m : List Region} {s0 s : State} {a1 a2 a3 a4} (hm : [Region.flt, Region.mem, Region.side, Region.badGrains, Region.sessions, Region.parts, Region.slc, Region.wt, Region.sec, Region.twin] ⊆ m) (h : Keeps m s0 s) : OutKeeps m s0 (execBar2Read a1 a2 a3 a4 s) := by
  unfold execBar2Read
  repeat' first
    | (with_reducible refine run_keeps (fun _ _ => ?_) ?_)
    | intro _
    | with_reducible assumption
    | with_reducible refine doBar2Read_keeps (List.Subset.trans (by decide) hm) ?_

theorem execBar2Write_keeps {m : List Region} {s0 s : State} {a1 a2 a3 a4} (hm : [Region.flt, Region.mem, Region.side, Region.badGrains, Region.sessions, Region.parts, Region.slc, Region.wt, Region.sec, Region.twin] ⊆ m) (h : Keeps m s0 s) : OutKeeps m s0 (execBar2Write a1 a2 a3 a4 s) := by
  unfold execBar2Write
  repeat' first
    | (with_reducible refine run_keeps (fun _ _ => ?_) ?_)
    | intro _
    | with_reducible assumption
    | with_reducible refine doBar2Write_keeps (List.Subset.trans (by decide) hm) ?_

theorem execRegisterWrite_keeps {m : List Region} {s0 s : State} {a1 a2} (hm : [Region.clk, Region.pwr, Region.flt, Region.ep, Region.slc, Region.jets, Region.jetSched, Region.mboxes, Region.twin] ⊆ m) (h : Keeps m s0 s) : OutKeeps m s0 (execRegisterWrite a1 a2 s) := by
  unfold execRegisterWrite
  repeat' first
    | (with_reducible refine run_keeps (fun _ _ => ?_) ?_)
    | intro _
    | with_reducible assumption
    | with_reducible refine doRegisterWrite_keeps (List.Subset.trans (by decide) hm) ?_

theorem execSbCommandWord_keeps {m : List Region} {s0 s : State} {a1 a2 a3} (hm : [Region.draws, Region.pins, Region.boot, Region.clk, Region.pwr, Region.flt, Region.spares, Region.allocCtr, Region.allocs, Region.badGrains, Region.sessions, Region.provs, Region.parts, Region.cfg, Region.ep, Region.slc, Region.wt, Region.jets, Region.jetSched, Region.sec, Region.mboxes, Region.mbNext, Region.twin, Region.sb] ⊆ m) (h : Keeps m s0 s) : OutKeeps m s0 (execSbCommandWord a1 a2 a3 s) := by
  unfold execSbCommandWord
  repeat' first
    | (with_reducible refine run_keeps (fun _ _ => ?_) ?_)
    | intro _
    | with_reducible assumption
    | with_reducible refine State.sbWord_keeps (List.Subset.trans (by decide) hm) ?_
    | with_reducible refine State.upTo_keeps (List.Subset.trans (by decide) hm) ?_

theorem execSbDataWord_keeps {m : List Region} {s0 s : State} {a1 a2 a3} (hm : [Region.draws, Region.pins, Region.boot, Region.clk, Region.pwr, Region.flt, Region.spares, Region.allocCtr, Region.allocs, Region.badGrains, Region.sessions, Region.provs, Region.parts, Region.cfg, Region.ep, Region.slc, Region.wt, Region.jets, Region.jetSched, Region.sec, Region.mboxes, Region.mbNext, Region.twin, Region.sb] ⊆ m) (h : Keeps m s0 s) : OutKeeps m s0 (execSbDataWord a1 a2 a3 s) := by
  unfold execSbDataWord
  repeat' first
    | (with_reducible refine run_keeps (fun _ _ => ?_) ?_)
    | intro _
    | with_reducible assumption
    | with_reducible refine State.sbWord_keeps (List.Subset.trans (by decide) hm) ?_
    | with_reducible refine State.upTo_keeps (List.Subset.trans (by decide) hm) ?_

theorem execSbWordDiscarded_keeps {m : List Region} {s0 s : State} {a1} (hm : [Region.sb] ⊆ m) (h : Keeps m s0 s) : OutKeeps m s0 (execSbWordDiscarded a1 s) := by
  unfold execSbWordDiscarded
  repeat' first
    | (with_reducible refine run_keeps (fun _ _ => ?_) ?_)
    | intro _
    | with_reducible assumption
    | with_reducible refine State.sbDiscard_keeps (List.Subset.trans (by decide) hm) ?_
    | with_reducible apply ite_keeps

theorem execSbDataTimeout_keeps {m : List Region} {s0 s : State} {a1} (hm : [Region.clk, Region.sb] ⊆ m) (h : Keeps m s0 s) : OutKeeps m s0 (execSbDataTimeout a1 s) := by
  unfold execSbDataTimeout
  repeat' first
    | (with_reducible refine run_keeps (fun _ _ => ?_) ?_)
    | intro _
    | with_reducible assumption
    | with_reducible refine doSbDataTimeout_keeps (List.Subset.trans (by decide) hm) ?_
    | with_reducible refine State.upTo_keeps (List.Subset.trans (by decide) hm) ?_

theorem execResetKey_keeps {m : List Region} {s0 s : State} {a1} (hm : [Region.draws, Region.pins, Region.boot, Region.clk, Region.pwr, Region.flt, Region.spares, Region.allocCtr, Region.allocs, Region.badGrains, Region.sessions, Region.provs, Region.parts, Region.cfg, Region.ep, Region.slc, Region.wt, Region.jets, Region.jetSched, Region.sec, Region.mboxes, Region.mbNext, Region.twin, Region.sb] ⊆ m) (h : Keeps m s0 s) : OutKeeps m s0 (execResetKey a1 s) := by
  unfold execResetKey
  repeat' first
    | (with_reducible refine run_keeps (fun _ _ => ?_) ?_)
    | intro _
    | with_reducible assumption
    | with_reducible refine doResetKey_keeps (List.Subset.trans (by decide) hm) ?_
    | with_reducible apply ite_keeps

theorem execErrClr_keeps {m : List Region} {s0 s : State} {a1} (hm : [Region.sb] ⊆ m) (h : Keeps m s0 s) : OutKeeps m s0 (execErrClr a1 s) := by
  unfold execErrClr
  repeat' first
    | (with_reducible refine run_keeps (fun _ _ => ?_) ?_)
    | intro _
    | with_reducible assumption
    | with_reducible refine doErrClr_keeps (List.Subset.trans (by decide) hm) ?_

theorem execBypass_keeps {m : List Region} {s0 s : State} (hm : [Region.sb] ⊆ m) (h : Keeps m s0 s) : OutKeeps m s0 (execBypass s) := by
  unfold execBypass
  repeat' first
    | (with_reducible refine run_keeps (fun _ _ => ?_) ?_)
    | intro _
    | with_reducible assumption
    | with_reducible refine State.loadIr_keeps (List.Subset.trans (by decide) hm) ?_

theorem execIdcode_keeps {m : List Region} {s0 s : State} (hm : [Region.sb] ⊆ m) (h : Keeps m s0 s) : OutKeeps m s0 (execIdcode s) := by
  unfold execIdcode
  repeat' first
    | (with_reducible refine run_keeps (fun _ _ => ?_) ?_)
    | intro _
    | with_reducible assumption
    | with_reducible refine State.emit_keeps (List.Subset.trans (by decide) hm) ?_
    | with_reducible refine State.loadIr_keeps (List.Subset.trans (by decide) hm) ?_

theorem execSamplePreload_keeps {m : List Region} {s0 s : State} (hm : [Region.sb] ⊆ m) (h : Keeps m s0 s) : OutKeeps m s0 (execSamplePreload s) := by
  unfold execSamplePreload
  repeat' first
    | (with_reducible refine run_keeps (fun _ _ => ?_) ?_)
    | intro _
    | with_reducible assumption
    | with_reducible refine State.loadIr_keeps (List.Subset.trans (by decide) hm) ?_

theorem execExtest_keeps {m : List Region} {s0 s : State} (hm : [Region.sb] ⊆ m) (h : Keeps m s0 s) : OutKeeps m s0 (execExtest s) := by
  unfold execExtest
  repeat' first
    | (with_reducible refine run_keeps (fun _ _ => ?_) ?_)
    | intro _
    | with_reducible assumption
    | with_reducible refine State.loadExtest_keeps (List.Subset.trans (by decide) hm) ?_

theorem execExtestPulse_keeps {m : List Region} {s0 s : State} (hm : [Region.sb] ⊆ m) (h : Keeps m s0 s) : OutKeeps m s0 (execExtestPulse s) := by
  unfold execExtestPulse
  repeat' first
    | (with_reducible refine run_keeps (fun _ _ => ?_) ?_)
    | intro _
    | with_reducible assumption
    | with_reducible refine State.loadExtest_keeps (List.Subset.trans (by decide) hm) ?_

theorem execExtestTrain_keeps {m : List Region} {s0 s : State} (hm : [Region.sb] ⊆ m) (h : Keeps m s0 s) : OutKeeps m s0 (execExtestTrain s) := by
  unfold execExtestTrain
  repeat' first
    | (with_reducible refine run_keeps (fun _ _ => ?_) ?_)
    | intro _
    | with_reducible assumption
    | with_reducible refine State.loadExtest_keeps (List.Subset.trans (by decide) hm) ?_

theorem execIdeKmMessage_keeps {m : List Region} {s0 s : State} {a1 a2} (hm : [Region.sec] ⊆ m) (h : Keeps m s0 s) : OutKeeps m s0 (execIdeKmMessage a1 a2 s) := by
  unfold execIdeKmMessage
  repeat' first
    | (with_reducible refine run_keeps (fun _ _ => ?_) ?_)
    | intro _
    | with_reducible assumption
    | with_reducible refine doIdeKmMessage_keeps (List.Subset.trans (by decide) hm) ?_

end Sys2Proof.Machine
end

