-- ==== Sys2Proof/Laws/Memory.lean ====
section
/-! SUPPORT. Reading memory after a write or a clear. -/

namespace Sys2Proof.Machine

theorem Memory.find_append_left {m n : List Host.Cell} {x : Nat} (h : ∀ c ∈ n, c.1 ≠ x) :
    (m ++ n).find? (fun c => c.1 == x) = m.find? (fun c => c.1 == x) := by
  rw [List.find?_append, show n.find? (fun c => c.1 == x) = none from by
    rw [List.find?_eq_none]; intro c hc; simpa using h c hc, Option.or_none]

theorem Memory.find_append_right {m n : List Host.Cell} {x : Nat} (h : ∀ c ∈ m, c.1 ≠ x) :
    (m ++ n).find? (fun c => c.1 == x) = n.find? (fun c => c.1 == x) := by
  rw [List.find?_append, show m.find? (fun c => c.1 == x) = none from by
    rw [List.find?_eq_none]; intro c hc; simpa using h c hc, Option.none_or]

theorem Memory.find_filter {m : List Host.Cell} {x : Nat} {p : Nat → Bool} (h : p x = true) :
    (m.filter fun c => p c.1).find? (fun c => c.1 == x) = m.find? (fun c => c.1 == x) := by
  induction m with
  | nil => rfl
  | cons c m ih =>
    by_cases hc : c.1 = x
    · simp [List.filter, hc, h]
    · cases hp : p c.1 <;> simp [List.filter, hp, List.find?, ih, beq_eq_false_iff_ne.2 hc]

theorem Memory.readByte_filter {m : List Host.Cell} {x : Nat} {p : Nat → Bool} (h : p x = true) :
    Memory.readByte (m.filter fun c => p c.1) x = Memory.readByte m x := by
  unfold Memory.readByte; rw [Memory.find_filter h]

theorem Memory.readByte_cells {l : List Byte} : ∀ {a x : Nat},
    Memory.readByte (Memory.cells a l) x = if a ≤ x then l.getD (x - a) 0#8 else 0#8 := by
  induction l with
  | nil => intro a x; simp [Memory.cells, Memory.readByte]
  | cons b l ih =>
    intro a x
    have rest : a ≠ x → Memory.readByte (Memory.cells (a + 1) l) x =
        if a ≤ x then (b :: l).getD (x - a) 0#8 else 0#8 := by
      intro hx
      rw [ih]
      by_cases h : a ≤ x
      · have h1 : x - a = (x - (a + 1)) + 1 := by omega
        rw [if_pos h, if_pos (show a + 1 ≤ x by omega), h1, List.getD_cons_succ]
      · rw [if_neg h, if_neg (by omega)]
    unfold Memory.cells
    by_cases hx : a = x
    · subst x
      split
      · rename_i hb; rw [ih]; simp [hb, show ¬ a + 1 ≤ a by omega]
      · simp [Memory.readByte, List.find?]
    · split
      · exact rest hx
      · rw [← rest hx]
        unfold Memory.readByte
        simp [List.find?, beq_eq_false_iff_ne.2 hx]

/-- A byte after a write: the byte written, or the one that was there. -/
theorem Memory.readByte_write (m : List Host.Cell) (a : Nat) (l : List Byte) (x : Nat) :
    Memory.readByte (Memory.write m a l) x =
      if a ≤ x ∧ x < a + l.length then l.getD (x - a) 0#8 else Memory.readByte m x := by
  have lo : ∀ c ∈ m.filter (fun c => decide (c.1 < a)), c.1 < a := fun c hc => by
    simpa using (List.mem_filter.1 hc).2
  have hi : ∀ c ∈ m.filter (fun c => decide (a + l.length ≤ c.1)), a + l.length ≤ c.1 := fun c hc => by
    simpa using (List.mem_filter.1 hc).2
  have mid := fun c (hc : c ∈ Memory.cells a l) => Memory.cells_mem hc
  by_cases h1 : x < a
  · rw [if_neg (by omega)]
    have : Memory.readByte (Memory.write m a l) x = Memory.readByte (m.filter fun c => decide (c.1 < a)) x := by
      unfold Memory.readByte Memory.write
      rw [Memory.find_append_left (fun c hc => by have := hi c hc; omega),
        Memory.find_append_left (fun c hc => by have := mid c hc; omega)]
    rw [this]; exact Memory.readByte_filter (p := fun y => decide (y < a)) (decide_eq_true h1)
  · by_cases h2 : x < a + l.length
    · rw [if_pos ⟨by omega, h2⟩]
      have : Memory.readByte (Memory.write m a l) x = Memory.readByte (Memory.cells a l) x := by
        unfold Memory.readByte Memory.write
        rw [Memory.find_append_left (fun c hc => by have := hi c hc; omega),
          Memory.find_append_right (fun c hc => by have := lo c hc; omega)]
      rw [this, Memory.readByte_cells, if_pos (by omega)]
    · rw [if_neg (by omega)]
      have : Memory.readByte (Memory.write m a l) x =
          Memory.readByte (m.filter fun c => decide (a + l.length ≤ c.1)) x := by
        unfold Memory.readByte Memory.write
        rw [Memory.find_append_right (fun c hc => by
          rcases List.mem_append.1 hc with hc | hc
          · have := lo c hc; omega
          · have := mid c hc; omega)]
      rw [this]
      exact Memory.readByte_filter (p := fun y => decide (a + l.length ≤ y)) (decide_eq_true (by omega))

/-- A byte after a clear: zero where the test holds, else the one that was there. -/
theorem Memory.readByte_clear (m : List Host.Cell) (p : Nat → Bool) (x : Nat) :
    Memory.readByte (Memory.clear m p) x = if p x then 0#8 else Memory.readByte m x := by
  unfold Memory.clear
  cases h : p x
  · simpa using Memory.readByte_filter (p := fun y => !p y) (by simp [h])
  · have : (m.filter fun c => !p c.1).find? (fun c => c.1 == x) = none := by
      rw [List.find?_eq_none]
      intro c hc e
      have := (List.mem_filter.1 hc).2
      rw [show c.1 = x by simpa using e, h] at this; cases this
    simp [Memory.readByte, this]

/-- A byte read through `Memory.read`. -/
theorem Memory.read_getD (m : List Host.Cell) (a n i : Nat) (h : i < n) :
    (Memory.read m a n)[i]? = some (Memory.readByte m (a + i)) := by
  unfold Memory.read
  simp only [List.getElem?_map, List.getElem?_range h, Option.map_some]
  exact congrArg some (Memory.readByte_filter (p := fun y => decide (a ≤ y) && decide (y < a + n)) (by simp; omega))

@[simp] theorem Memory.read_length (m : List Host.Cell) (a n : Nat) : (Memory.read m a n).length = n := by
  simp [Memory.read]

/-- Reading back what was written at the same place. -/
theorem Memory.read_write (m : List Host.Cell) (a : Nat) (l : List Byte) :
    Memory.read (Memory.write m a l) a l.length = l := by
  apply List.ext_getElem?
  intro i
  by_cases h : i < l.length
  · rw [Memory.read_getD _ _ _ _ h, Memory.readByte_write, if_pos ⟨by omega, by omega⟩]
    simp [List.getD_eq_getElem?_getD, h]
  · rw [List.getElem?_eq_none (by simp; omega), List.getElem?_eq_none (by omega)]

end Sys2Proof.Machine
end

