-- ==== Sys2Proof/Laws/Shared.lean ====
section
/-! SUPPORT. What the operations that many commands share do: responses, refusals, parking, staging, counters and the
record of a fault. -/

namespace Sys2Proof.Machine

/-! ### Management commands -/

/-- A command on a path that is served that passes the checks of R453 is executed. -/
theorem State.agtan_ok {s : State} {o : AgtanOp} {c : AgtanCmd} {f : State → State} (h : s.mailServed c = true)
    (h2 : s.agtanStatus o c = stOk) : s.agtan o c f = f s := by
  unfold State.agtan; rw [if_pos h, if_pos h2]

/-- A command that fails a check of R453 is answered with its status. -/
theorem State.agtan_refused {s : State} {o : AgtanOp} {c : AgtanCmd} {f : State → State} (h : s.mailServed c = true)
    (h2 : s.agtanStatus o c ≠ stOk) : s.agtan o c f = s.respond o.code c (s.agtanStatus o c) [] := by
  unfold State.agtan; rw [if_pos h, if_neg h2]

/-- A command on a path that is not served has no effect. -/
theorem State.agtan_unserved {s : State} {o : AgtanOp} {c : AgtanCmd} {f : State → State}
    (h : s.mailServed c = false) : s.agtan o c f = s := by
  unfold State.agtan; rw [if_neg (by simp [h])]

/-- The mailbox after a response over BAR0. -/
def Mbox.answered (m : Mbox) (b : List Byte) (st : Nat) (seq : BitVec 16) : Mbox :=
  { m with resp := Memory.cells 0 (padTo 2048 b), result := BitVec.ofNat 8 st, seqDone := seq, state := 2 }

theorem State.respond_bar0 {s : State} {op : BitVec 16} {c : AgtanCmd} {st : Nat} {b : List Byte} {fn : Fn}
    {v : BitVec 12} (h : c.path = .bar0 fn v false) :
    s.respond op c st b = s.updMbox c.mb fun m => m.answered (s.respBytes op c.seq st b) st c.seq := by
  unfold State.respond; rw [h]; rfl

theorem State.respond_bar0_irq {s : State} {op : BitVec 16} {c : AgtanCmd} {st : Nat} {b : List Byte} {fn : Fn}
    {v : BitVec 12} (h : c.path = .bar0 fn v true) :
    s.respond op c st b =
      (s.updMbox c.mb fun m => m.answered (s.respBytes op c.seq st b) st c.seq).signal fn v := by
  unfold State.respond; rw [h]; rfl

theorem State.respond_wt {s : State} {op : BitVec 16} {c : AgtanCmd} {st : Nat} {b : List Byte} {src : BitVec 13}
    {k : BitVec 10} {w : BitVec 20} {imm : BitVec 32} (h : c.path = .wt src k w imm) :
    s.respond op c st b =
      (s.updMbox c.mb fun m => { m with kept := keepResp m.kept src.toNat c.seq (s.respBytes op c.seq st b) }).sendResp
        src k w imm (s.respBytes op c.seq st b) := by
  unfold State.respond; rw [h]

theorem State.respond_fwd {s : State} {op : BitVec 16} {c : AgtanCmd} {st : Nat} {b : List Byte} {src : BitVec 13}
    {k : BitVec 10} {w : BitVec 20} {imm : BitVec 32} (h : c.path = .fwd src k w imm) :
    s.respond op c st b = s.sendResp src k w imm (s.respBytes op c.seq st b) := by
  unfold State.respond; rw [h]

theorem State.respond_mctp {s : State} {op : BitVec 16} {c : AgtanCmd} {st : Nat} {b : List Byte} (h : c.path = .mctp) :
    s.respond op c st b =
      (s.updMbox c.mb fun m => { m with mctpSeq := some (c.seq, s.respBytes op c.seq st b) }).emit
        (.mctp (s.respBytes op c.seq st b)) := by
  unfold State.respond; rw [h]

/-- A staging command that passes its own check on an OPEN set is staged. -/
theorem State.stageItems_open {s : State} {n : Nat} {l : List Staged} (h : (s.stageSet n).isSealed = false) :
    s.stageItems n l = (true, s.setStageSet n { (s.stageSet n) with items := (s.stageSet n).withItems l }) := by
  unfold State.stageItems; simp only [h, Bool.false_eq_true, if_false]

/-- A SEALED set takes nothing; the write is counted. -/
theorem State.stageItems_sealed {s : State} {n : Nat} {l : List Staged} (h : (s.stageSet n).isSealed = true) :
    s.stageItems n l = (false, s.count cLockViol 1) := by
  unfold State.stageItems; simp only [h, if_true]

/-! ### Fault events -/

theorem State.countEvent_spec (s : State) (e : Event) :
    ∃ f, s.countEvent e = { s with flt := f } ∧ f.newest = s.flt.newest ∧ f.hist = s.flt.hist := by
  unfold State.countEvent
  dsimp only
  split
  · split <;> exact ⟨_, rfl, rfl, rfl⟩
  · exact ⟨_, rfl, rfl, rfl⟩

theorem State.noteCe_spec (s : State) (e : Event) :
    ∃ f, s.noteCe e = { s with flt := f } ∧ f.newest = s.flt.newest ∧ f.hist = s.flt.hist := by
  unfold State.noteCe
  split
  · split <;> exact ⟨_, rfl, rfl, rfl⟩
  · exact ⟨_, rfl, rfl, rfl⟩

/-- Recording an event changes the fault block alone; the newest record of an event that folds into none has its code. -/
theorem State.fault_spec (s : State) (e : Event) :
    ∃ f, s.fault e = { s with flt := f } ∧ (s.foldSlot e = none →
      ∃ n r, f.newest = some n ∧ Tbl.get? f.hist n = some r ∧ r.code = e.code) := by
  unfold State.fault
  split
  · obtain ⟨f, h1, -, -⟩ := State.countEvent_spec s e
    dsimp only; rw [h1]
    exact ⟨_, rfl, fun hn => by simp_all⟩
  · dsimp only
    obtain ⟨f, h1, h2, h3⟩ := State.countEvent_spec { s with flt := s.flt.enter (s.recordOf e) (s.startsTest e) e.place } e
    rw [h1]
    obtain ⟨g, h4, h5, h6⟩ := State.noteCe_spec { s with flt := f } e
    refine ⟨g, h4, fun _ => ⟨s.flt.next, s.recordOf e, by rw [h5]; exact h2, ?_, rfl⟩⟩
    rw [h6]; show Tbl.get? f.hist _ = _; rw [h3]; exact Tbl.get?_set_same ..

/-! ### Commands -/

/-- How a statement about what a command's effect leaves is shown: by the effect that its meaning runs. -/
theorem Answers.of_run {i : Instr} {s : State} {f : State → State} {P : State → Prop} (h : exec i s = run s f)
    (hp : P { f { s with out := [] } with pending := s.pending }) : Answers i s P := ⟨_, h, hp⟩

end Sys2Proof.Machine
end

