-- ==== Sys2Proof/Machine/Registers.lean ====
section
/-! DEFINITION. What a read of a register returns (00 R6, R8): BAR0 of each function (14 R442, R443) with NODE_SIZES (01 R31,
14 R455), the node status page (13 R413, R430, R439), the fault block (12 R403 to R405), the fabric time unit (07 R215) and the
mailbox slots (14 R445, R446); the register space of a jet (03 R90, R99, R108) and of a channel scheduler (03 R90, R103). A read
changes nothing, so no command is needed for it. -/

namespace Sys2Proof.Machine

/-- The word at an offset of a region's bytes, zero beyond them. -/
def wordAt (l : List Byte) (off : Nat) : Word64 := BitVec.ofNat 64 (leAt l off 8)

/-! ### NODE_SIZES (01 R31 to R33, 14 R455) -/

/-- The entries of a bin: ID and value, in ascending order of ID. Only the first five depend on the part, by its fuses. -/
def nodeSizes (bin : BitVec 8) : List (Nat × Nat) :=
  let (limit, jet, cnf, lane) := binLimits bin
  [(0x0001, bin.toNat), (0x0002, limit), (0x0003, jet), (0x0004, cnf), (0x0005, lane), (0x0010, 8), (0x0011, 128),
   (0x0012, 8192), (0x0013, 16), (0x0014, 1073741824), (0x0015, 16), (0x0016, 256), (0x0020, 16), (0x0021, 1048576)] ++
  [(0x0022, 4096), (0x0023, 24), (0x0024, 8), (0x0025, 1024), (0x0026, 65536), (0x0027, 8192), (0x0030, 16777216),
   (0x0031, 65536), (0x0032, 256), (0x0033, 64), (0x0034, 16), (0x0035, 128), (0x0036, 8), (0x0037, 0x003F)]

/-- The bytes of the table: its header, then its entries (R455). -/
def nodeSizesBytes (bin : BitVec 8) : List Byte :=
  let l := nodeSizes bin
  leBytes 2 0x0001 ++ leBytes 2 l.length ++ leBytes 2 16 ++ List.replicate 10 0#8 ++
    l.flatMap fun e => leBytes 2 e.1 ++ List.replicate 6 0#8 ++ leBytes 8 e.2

/-! ### The node status page -/

/-- The word at an offset of the page (R413, R430, R439). -/
def State.statusWord (s : State) (off : Nat) : Word64 :=
  BitVec.ofNat 64 <|
    if off = 0x000 then s.bootStat else if off = 0x008 then s.ep.epoch else if off = 0x010 then s.pendTime
    else if off = 0x018 then s.epochStat else if off = 0x020 then s.pwr.cfg.toNat else if off = 0x028 then s.pwrStat
    else 0

/-! ### The fault block (R403 to R405) -/

/-- The time that a port class has been paused so far (09 R312). -/
def State.pausedNs (s : State) (p c : Nat) : Nat :=
  satAdd 64 (Tbl.getD s.flt.portCtr (64 * p + 32 + c) 0)
    (match Tbl.get? (s.port p).paused (s.pcp (classOfPort c)) with | some at_ => s.clk.ftime - at_ | none => 0)

/-- Counter n of a port's bank. -/
def State.portCounter (s : State) (p n : Nat) : Nat :=
  if 32 ≤ n && n < 44 then s.pausedNs p (n - 32) else Tbl.getD s.flt.portCtr (64 * p + n) 0

/-- The spare state of a channel. -/
def State.channelSpares (s : State) (c : Nat) : Nat :=
  Tbl.getD s.spares.pairsUsed c 0 + Tbl.getD s.spares.rowsUsed c 0 * 2 ^ 8 + Tbl.getD s.spares.tsvsUsed c 0 * 2 ^ 19 +
    b2n (s.spares.lost.contains c) * 2 ^ 24

/-- The spare state of a port. -/
def State.portSpares (s : State) (p : Nat) : Nat := s.spareLane p + b2n (s.spares.laneNoSpare.contains p) * 2 ^ 4

/-- The spare state of a cluster. -/
def State.clusterSpares (s : State) (c : Nat) : Nat :=
  match Tbl.get? s.spares.clusterUsed c with | some k => 1 + k * 2 | none => 0

/-- The history slot's bytes, zero in a slot without a record. -/
def State.histBytes (s : State) (n : Nat) : List Byte :=
  match Tbl.get? s.flt.hist n with | some r => recordBytes r | none => []

/-- The word at an offset of the fault block, from its start; FIRST_CLR and HIST_CLR read zero. -/
def State.faultWord (s : State) (off : Nat) : Word64 :=
  if 0x20 ≤ off && off < 0x40 then wordAt s.firstBytes (off - 0x20)
  else if 0x100 ≤ off && off < 0x500 then wordAt (s.histBytes ((off - 0x100) / 32)) ((off - 0x100) % 32)
  else BitVec.ofNat 64 <|
    if off = 0x00 then b2n s.flt.first.isSome + b2n s.flt.fatalReset * 2 + min s.fatal1h 255 * 2 ^ 8
    else if off = 0x08 then s.flt.ctl.toNat
    else if off = 0x40 then s.flt.next
    else if 0x1000 ≤ off && off < 0x1200 then Tbl.getD s.flt.nodeCtr ((off - 0x1000) / 8) 0
    else if 0x2000 ≤ off && off < 0x5000 then s.portCounter ((off - 0x2000) / 512) ((off - 0x2000) % 512 / 8)
    else if 0x6000 ≤ off && off < 0x8000 then Tbl.getD s.flt.partCtr ((off - 0x6000) / 8) 0
    else if 0x8000 ≤ off && off < 0x8400 then s.channelSpares ((off - 0x8000) / 8)
    else if 0x8400 ≤ off && off < 0x84C0 then s.portSpares ((off - 0x8400) / 8)
    else if 0x8500 ≤ off && off < 0x8580 then s.clusterSpares ((off - 0x8500) / 8)
    else if 0x8580 ≤ off && off < 0x8600 then min 20 (Tbl.getD s.spares.subBanks ((off - 0x8580) / 8) 0)
    else 0

/-! ### The fabric time unit (R215) -/

/-- The mailbox whose staging set a function writes (R6, R431). -/
def fnBox : Fn → Nat
  | .pf => 0
  | .vf p => p + 1

/-- A RWL field: the change that the function's set holds, else the committed value (R6). -/
def State.stagedReg (s : State) (fn : Fn) (pick : Staged → Option Nat) (committed : Nat) : Nat :=
  ((s.stageSet (fnBox fn)).items.findSome? pick).getD committed

/-- CLK_SYNC_STAT: OFFSET_NS is the last offset in 32 bits, signed. -/
def State.syncStat (s : State) : Word64 :=
  (BitVec.ofInt 32 s.clk.offsetNs) ++
    BitVec.ofNat 32 (b2n s.clk.locked + b2n s.clk.holdover * 2 + b2n s.clk.syncFault * 4 + b2n s.clk.ppsIn * 8 +
      s.clk.ptpPort * 2 ^ 8)

/-- The word at an offset of the fabric time unit, as a function reads it. -/
def State.timeWord (s : State) (fn : Fn) (off : Nat) : Word64 :=
  if off = 0x28 then s.syncStat
  else BitVec.ofNat 64 <|
    if off = 0x00 then s.clk.ftime else if off = 0x08 then s.tickOf s.clk.ftime
    else if off = 0x10 then s.stagedReg fn (fun | .period v => some v | _ => none) s.cfg.period
    else if off = 0x18 then s.stagedReg fn (fun | .origin v => some v | _ => none) s.cfg.origin
    else if off = 0x20 then s.stagedReg fn (fun | .fepoch v => some v | _ => none) s.cfg.fepoch
    else if off = 0x30 then s.clk.dlLate
    else 0

/-! ### Mailbox slots (14 R445, R446) -/

/-- MB_STATUS. -/
def mbStatus (m : Mbox) : Nat :=
  m.state + b2n m.overrun * 4 + m.result.toNat * 2 ^ 8 + m.seqDone.toNat * 2 ^ 16 + m.seqTaken.toNat * 2 ^ 32

/-- The word at an offset of a slot: the command area, the response area, MB_STATUS; MB_DOORBELL reads zero. -/
def State.slotWord (s : State) (mb off : Nat) : Word64 :=
  let m := s.mbox mb
  if off < 0x400 then wordAt (Memory.read m.cmd off 8) 0
  else if off < 0xC00 then wordAt (Memory.read m.resp (off - 0x400) 8) 0
  else if off = 0xC08 then BitVec.ofNat 64 (mbStatus m)
  else 0#64

/-! ### BAR0 (R442, R443) -/

/-- A 64-bit read of BAR0 by a function: zero where the function has no access, at a WO or RsvdZ field, and at an offset that is
not listed. -/
def State.readBar0 (s : State) (fn : Fn) (off : Nat) : Word64 :=
  if off % 8 != 0 then 0#64
  else if off < 0x11000 then (if reaches fn (off / 0x1000) then s.slotWord (off / 0x1000) (off % 0x1000) else 0#64)
  else if 0x1F000 ≤ off && off < 0x20000 then (if fn = .pf then s.statusWord (off - 0x1F000) else 0#64)
  else if 0x100000 ≤ off && off < 0x200000 then wordAt (nodeSizesBytes s.fuses.bin) (off - 0x100000)
  else if 0x200000 ≤ off && off < 0x300000 then
    (match fn with
      | .pf => s.faultWord (off - 0x200000)
      | .vf p => if (off - 0x200000) / 512 = 0x30 + p then s.faultWord (off - 0x200000) else 0#64)
  else if 0x300000 ≤ off && off < 0x400000 then s.timeWord fn (off - 0x300000)
  else 0#64

/-! ### The register space of a jet (03 R90) -/

/-- A partial's element in OFMT: BF16 rounded, or FP32 (03 R108). -/
def partialElem (ofmt : Nat) (x : F32) : List Byte :=
  let y := (roundO ofmt x).go.1
  if ofmt = 0 then leBytes 2 (y.toNat / 65536) else leBytes 4 y.toNat

/-- The partial that slot n left in the accumulator: a record of m, l and o for each row, packed and padded to 32 bytes
(R108). -/
def Jet.partialBytes (x : Jet) (n : Nat) : List Byte :=
  let v := x.slot n
  let dim := dimOf (slHdim v)
  let b := (List.range (slRows v)).flatMap fun r =>
    leBytes 4 (Tbl.getD x.outM r f32NegInf).toNat ++ leBytes 4 (Tbl.getD x.outL r 0#32).toNat ++
      (x.accRow dim r).flatMap (partialElem (slOfmt v))
  padTo (32 * cdiv b.length 32) b

/-- The pool as kernel 3 exposes it: rows of 16 × entries FP32 scores (R105, R114). -/
def Jet.scoreBytes (x : Jet) (n : Nat) : List Byte :=
  let v := x.slot n
  (List.range (slRows v)).flatMap fun r => (List.range (16 * slNent v)).flatMap fun c =>
    leBytes 4 (Tbl.getD x.pool (128 * r + c) 0#32).toNat

/-- The word at an offset of the partial window: what the slot that holds the accumulator left, and a free value without one
(R108, R114, assumption 147). -/
def Jet.windowWord (x : Jet) (off : Nat) : Word64 :=
  match x.accSlot with
  | some n => wordAt (if slKernel (x.slot n) = 3 then x.scoreBytes n else x.partialBytes n) off
  | none => Config.idleWindow off

/-- JET_STAT (R99). -/
def Jet.stat (x : Jet) : Nat :=
  x.ready.toNat + (x.queue.map fun n => 2 ^ (16 + n)).foldl (· + ·) 0 + x.running.getD 0 * 2 ^ 32 +
    b2n x.running.isSome * 2 ^ 36 + b2n x.own * 2 ^ 37 + b2n x.yielded * 2 ^ 38 + b2n x.accBusy * 2 ^ 39 +
    b2n x.isolated * 2 ^ 40 + b2n x.progOk * 2 ^ 41 + x.pc.toNat * 2 ^ 42

/-- JET_FAULT's 32 bytes: slot, entry, RESULT and the protocol bit in a byte each, the grain address from byte 8, the syndrome
from byte 16. R90 gives the fields and not their places: DESIGN CHOICE (assumption 146). -/
def Jet.faultBytes (x : Jet) : List Byte :=
  leBytes 1 x.fault.slot ++ leBytes 1 x.fault.entry ++ leBytes 1 x.fault.result ++ leBytes 5 (b2n x.fault.protocol) ++
    leBytes 8 x.fault.grain ++ leBytes 8 x.fault.syndrome.toNat ++ List.replicate 8 0#8

/-- A 64-bit read of a jet's register space (R90): JET_CTL reads zero. The partial window's 128 KiB reach over the microprogram
store's offsets; the store is WO, so that the window is what a read finds there (assumption 147). -/
def Jet.readReg (x : Jet) (off : Nat) : Word64 :=
  if off % 8 != 0 then 0#64
  else if off < 0x400 then (x.slot (off / 64)).extractLsb' (off % 64 / 8 * 64) 64
  else if off = 0x408 then BitVec.ofNat 64 x.stat
  else if 0x410 ≤ off && off < 0x430 then wordAt x.faultBytes (off - 0x410)
  else if 0x1000 ≤ off && off < 0x2000 then Tbl.getD x.rowFile ((off - 0x1000) / 8) 0#64
  else if 0x4000 ≤ off && off < 0x8000 then wordAt (Memory.read x.staging (off - 0x4000) 8) 0
  else if 0x10000 ≤ off && off < 0x30000 then x.windowWord (off - 0x10000)
  else 0#64

/-- JET_READYV of a channel: bit n is the ready line of its logical bank pair n (R90, R99). -/
def State.readyV (s : State) (ch : Nat) : Word64 :=
  BitVec.ofNat 64 (((List.range 64).filter fun n => (s.jet (64 * ch + n)).ready != 0#16).foldl (fun a n => a + 2 ^ n) 0)

/-- A 64-bit read of a register (R6). -/
def State.readReg (s : State) : RegTarget → Word64
  | .bar0 fn off => s.readBar0 fn off.toNat
  | .jet j off => (s.jet j).readReg off.toNat
  | .jetSched ch => Tbl.getD s.jetSched ch jetSchedReset
  | .jetReadyV ch => s.readyV ch
  | .twinStat => BitVec.ofNat 64 (s.twinStat % 2 ^ 64)

end Sys2Proof.Machine
end

