-- ==== Sys2Proof/WellFormed.lean ====
section
/-! DEFINITION. What a well-formed command is: every index within the range the spec gives it. A command that is not
well formed stands for nothing the node can meet; its meaning leaves the state as it is, or reads no such index. -/

namespace Sys2Proof.WellFormed

open Sys2Proof

/-- A port, P0 to P23 (01 R31). -/
def portOk (p : Nat) : Bool := decide (p < 24)
/-- A PTP message in the widths of its fields (07 R212). -/
def ptpOk : PtpMsg → Bool
  | .announce c => decide (c.priority1 < 256 ∧ c.clockClass < 256 ∧ c.accuracy < 256 ∧ c.variance < 65536 ∧
      c.priority2 < 256 ∧ c.identity < 2 ^ 64 ∧ c.steps < 65536)
  | .sync seq _ _ => decide (seq < 65536)
  | .followUp seq _ => decide (seq < 65536)
  | .delayResp seq _ => decide (seq < 65536)
/-- A lane of a port: eight and the spare (12 R403). -/
def laneOk (l : Nat) : Bool := decide (l < 9)
/-- A jet (03 R83). -/
def jetOk (j : Nat) : Bool := decide (j < 8192)
/-- A command slot of a jet (03 R90). -/
def jetSlotOk (n : Nat) : Bool := decide (n < 16)
/-- A channel (01 R31). -/
def channelOk (c : Nat) : Bool := decide (c < 128)
/-- A bank pair of a channel (01 R31). -/
def pairOk (p : Nat) : Bool := decide (p < 64)
/-- A rail of R469. -/
def railOk (r : Nat) : Bool := decide (r < 7)
/-- A partition (11 R351). -/
def partOk (p : Nat) : Bool := decide (p < 16)
/-- A mailbox (14 R442). -/
def mailboxOk (m : Nat) : Bool := decide (m < 17)
/-- A queue (09 R279). -/
def queueOk (q : Nat) : Bool := decide (q < 2 ^ 20)
/-- A key slot (11 R371). -/
def keySlotOk (k : Nat) : Bool := decide (k < 1024)
/-- A session index (01 R31). -/
def sessionOk (x : Nat) : Bool := decide (x < 2 ^ 24)
/-- A window ID (01 R31). -/
def windowOk (w : Nat) : Bool := decide (w < 65536)
/-- A node of the fabric (01 R31). -/
def nodeOk (n : Nat) : Bool := decide (n < 8192)
/-- A grain (01 R31). -/
def grainOk (g : Nat) : Bool := decide (g < 2 ^ 30)
/-- An IDE stream: the link stream 0 and eight selective ones (11 R370). -/
def streamOk (n : Nat) : Bool := decide (n < 9)

/-- A PCIe function. -/
def fnOk : Fn → Bool
  | .pf => true
  | .vf p => partOk p
/-- An SPDM endpoint. -/
def epOk : SpdmEp → Bool
  | .fn f => fnOk f
  | .mctp => true
/-- The columns of an ECC report. -/
def eccOk (e : EccReport) : Bool := (e.ce ++ e.ue).all fun c => grainOk (c / 16)
/-- A mailbox command: its mailbox, and a body of LEN bytes, at most 1,008 (14 R451). -/
def cmdOk (c : AgtanCmd) : Bool := mailboxOk c.mb && decide (c.len.toNat ≤ 1008) && c.body.length == c.len.toNat
/-- A received frame: its port. -/
def frameOk (f : Frame) : Bool := portOk f.port
/-- A PLDM sensor. -/
def sensorOk : PldmSensor → Bool
  | .railVolt r | .railAmp r => railOk r
  | .basin | .cistern | .power => true
/-- An IDE_KM message. -/
def ideOk : IdeKm → Bool
  | .keyProg n _ | .setGo n | .setStop n => streamOk n
/-- A row that failed the memory test: pairs with spares, two banks, 16,384 rows (13 R418, 12 R399). -/
def badRowOk (r : BadRow) : Bool := decide (r.pair < 68 ∧ r.bank < 2 ∧ r.row < 16384)
/-- An ordinary access: its grain, and a grain's bytes when it writes. -/
def accessOk (a : OrdAccess) : Bool := grainOk a.grain && (a.bytes.isEmpty || a.bytes.length == 512)
/-- A partitionable resource (11 R353). -/
def resourceOk : Resource → Bool
  | .channelGroup n | .slice n | .cluster n | .windowBlock n => decide (n < 16)
  | .keySlot k => keySlotOk k
  | .sessionBlock b => decide (b < 256)
/-- A page (02 R54). -/
def pageOk (r : PageRef) : Bool := partOk r.part && decide (r.layer < 256 ∧ r.head < 64)
/-- A place under self-test. -/
def placeOk : Place → Bool
  | .row g => grainOk g
  | .jet j => jetOk j
  | .tsv c => channelOk c
  | .lane p l => portOk p && laneOk l
  | .portLink p => portOk p
  | .subBank s _ => decide (s < 16)
  | .array c _ => decide (c < 16)
/-- Where a register write goes: on a multiple of 8. -/
def targetOk : RegTarget → Bool
  | .bar0 f off => fnOk f && off.toNat % 8 == 0
  | .jet j off => jetOk j && off.toNat % 8 == 0
  | .jetSched c => channelOk c
  | .jetReadyV c => channelOk c
  | .twinStat => true

/-- Is a command well formed? -/
def instr : Instr → Bool
  | .powerOn _ => true
  | .resetBall _ => true
  | .perst => true
  | .railOutOfRange rail _ => railOk rail
  | .railsRecovered _ => true
  | .clockAbsent _ => true
  | .thermalTrip _ _ => true
  | .thermalTripRelease _ _ => true
  | .dramHot ch _ => channelOk ch
  | .watchdogExpiry _ => true
  | .fatalEvent _ _ _ => true
  | .firmwareVerify _ _ _ => true
  | .clocksLocked _ => true
  | .channelTrainingDone ch _ => channelOk ch
  | .memoryTestDone ch badRows => channelOk ch && badRows.all badRowOk
  | .laneTrainingDone port _ _ => portOk port
  | .laneRetryTimer port _ => portOk port
  | .computeStageDone failedJets _ _ => failedJets.all jetOk
  | .stageOverrun _ => true
  | .serviceOpen _ => true
  | .ptpMessage port m => portOk port && ptpOk m
  | .masterLost => true
  | .ppsInEdge => true
  | .ppsOutSecond _ => true
  | .powerSample _ _ _ _ => true
  | .avsbusNoAck => true
  | .nodeStatus c => cmdOk c
  | .attestReport c => cmdOk c
  | .nodeReset c => cmdOk c
  | .partitionReset c => cmdOk c
  | .partitionResetEnd part _ => partOk part
  | .laneRetrain c => cmdOk c
  | .laneRetrainDone port lane _ => portOk port && laneOk lane
  | .faultRead c => cmdOk c
  | .peerClear c => cmdOk c
  | .cfgCommit c => cmdOk c
  | .cfgAbort c => cmdOk c
  | .cfgStatus c => cmdOk c
  | .cfgDiscard c => cmdOk c
  | .partMapStage c => cmdOk c
  | .partCfgStage c => cmdOk c
  | .partStatus c => cmdOk c
  | .lockStage c => cmdOk c
  | .admitWeightsStage c => cmdOk c
  | .nodeCfgStage c => cmdOk c
  | .twinCfgStage c => cmdOk c
  | .routeStage c => cmdOk c
  | .twinStatus c => cmdOk c
  | .dirRead c => cmdOk c
  | .windowStage c => cmdOk c
  | .windowRead c => cmdOk c
  | .windowRevoke c => cmdOk c
  | .windowRevokeDrained window _ => windowOk window
  | .srcsetStage c => cmdOk c
  | .weirStage c => cmdOk c
  | .shaperStage c => cmdOk c
  | .portWeightsStage c => cmdOk c
  | .queueSet c => cmdOk c
  | .queueStop c => cmdOk c
  | .queueStopped queue => queueOk queue
  | .queueRead c => cmdOk c
  | .keyInstall c => cmdOk c
  | .keySwitch c => cmdOk c
  | .keyDrop c => cmdOk c
  | .keyRetire c => cmdOk c
  | .keyRetired slot _ => keySlotOk slot
  | .keyStatus c => cmdOk c
  | .keyAgeWarn slot _ => keySlotOk slot
  | .keyLifetimeExpiry slot _ => keySlotOk slot
  | .sessionOpen c => cmdOk c
  | .sessionClose c => cmdOk c
  | .sessionCloseRelease session => sessionOk session
  | .sessionRead c => cmdOk c
  | .baseBegin c => cmdOk c
  | .baseEnd c => cmdOk c
  | .baseUnload c => cmdOk c
  | .postabLoad c => cmdOk c
  | .postabUnload c => cmdOk c
  | .progStage c => cmdOk c
  | .statsRead c => cmdOk c
  | .histRead c => cmdOk c
  | .rebalance c => cmdOk c
  | .mbDoorbell fn mb _ => fnOk fn && mailboxOk mb
  | .mailboxTurn => true
  | .spdmGetVersion ep => epOk ep
  | .spdmGetCapabilities ep _ => epOk ep
  | .spdmNegotiateAlgorithms ep _ => epOk ep
  | .spdmGetDigests ep => epOk ep
  | .spdmGetCertificate ep _ _ _ => epOk ep
  | .spdmChallenge ep _ _ => epOk ep
  | .spdmGetMeasurements ep _ _ _ => epOk ep
  | .spdmKeyExchange ep _ _ => epOk ep
  | .spdmFinish ep _ _ => epOk ep
  | .spdmKeyUpdate ep _ _ _ => epOk ep
  | .spdmHeartbeat ep _ => epOk ep
  | .spdmEndSession ep _ => epOk ep
  | .vendorDefinedRequest ep _ _ => epOk ep
  | .mctpMailboxMessage _ => true
  | .pldmRequest sensor => sensorOk sensor
  | .smbusTimeout _ => true
  | .ideIntegrityFail stream => streamOk stream
  | .bar2Read fn _ _ ecc => fnOk fn && eccOk ecc
  | .bar2Write fn _ _ ecc => fnOk fn && eccOk ecc
  | .hostDoorbell fn queue _ => fnOk fn && queueOk queue
  | .completionDoorbell fn queue _ => fnOk fn && queueOk queue
  | .hostSubmissionRead queue _ _ => queueOk queue
  | .firstClr fn => fnOk fn
  | .histClr fn => fnOk fn
  | .registerWrite tgt _ => targetOk tgt
  | .go jet slot => jetOk jet && jetSlotOk slot
  | .stop jet slot => jetOk jet && jetSlotOk slot
  | .readyClear jet slot => jetOk jet && jetSlotOk slot
  | .microprogramWrite jet => jetOk jet
  | .slotStart jet => jetOk jet
  | .nop jet => jetOk jet
  | .li jet _ _ => jetOk jet
  | .add jet _ _ _ => jetOk jet
  | .gets jet _ _ => jetOk jet
  | .gete jet _ _ _ => jetOk jet
  | .beq jet _ _ _ => jetOk jet
  | .bne jet _ _ _ => jetOk jet
  | .jmp jet _ => jetOk jet
  | .stopb jet _ => jetOk jet
  | .endSlot jet => jetOk jet
  | .failSlot jet => jetOk jet
  | .clrp jet => jetOk jet
  | .clra jet => jetOk jet
  | .rdk jet _ => jetOk jet
  | .rdv jet _ => jetOk jet
  | .rdbk jet _ => jetOk jet
  | .rdbv jet _ => jetOk jet
  | .segmentReadDone jet ecc => jetOk jet && eccOk ecc
  | .qk jet _ => jetOk jet
  | .exps jet _ => jetOk jet
  | .pv jet _ => jetOk jet
  | .emit jet _ => jetOk jet
  | .cpyrow jet _ _ => jetOk jet
  | .patw jet _ _ => jetOk jet
  | .patr jet _ _ _ => jetOk jet
  | .arrt jet _ _ => jetOk jet
  | .yreqRaise jet => jetOk jet
  | .yreqDrop jet => jetOk jet
  | .ordinaryAccess jet acc => jetOk jet && accessOk acc
  | .ownLimitExpiry jet _ => jetOk jet
  | .sweepLimitExpiry jet _ => jetOk jet
  | .jetResponseTimeout jet _ => jetOk jet
  | .jetReset jet _ _ => jetOk jet
  | .write f => frameOk f
  | .writeImm f => frameOk f
  | .writeImmMailbox f => frameOk f
  | .cqHoldExpiry port _ => portOk port
  | .forwardCompletion f => frameOk f
  | .readReq f => frameOk f
  | .readDeadline _ _ => true
  | .attend f => frameOk f
  | .append f => frameOk f
  | .ingest f => frameOk f
  | .commit f => frameOk f
  | .commitApply _ => true
  | .cancel f => frameOk f
  | .sramCopyRelease pg => pageOk pg
  | .appendDeadline _ _ => true
  | .landingResume port => portOk port
  | .admissionStep part _ ecc => partOk part && eccOk ecc
  | .admitWaitExpiry queue _ => queueOk queue
  | .slotCollect jet slot => jetOk jet && jetSlotOk slot
  | .entryMerge _ _ _ ecc _ => eccOk ecc
  | .cutTime jet slot _ => jetOk jet && jetSlotOk slot
  | .confluenceDeadline _ _ _ => true
  | .provSetExpiry session _ _ => sessionOk session
  | .hedgeEvaluate _ _ => true
  | .hedge f => frameOk f
  | .hedgeClaim f => frameOk f
  | .mirror f => frameOk f
  | .mirrorAck f => frameOk f
  | .mirrorKeepalive _ => true
  | .writerApplyTimeout _ => true
  | .twinSilenceTimeout _ _ _ => true
  | .joiningTimeout _ => true
  | .rejoin _ _ _ => true
  | .resyncComplete => true
  | .dirUpdate f => frameOk f
  | .dirQuery f => frameOk f
  | .voidSync f => frameOk f
  | .void f => frameOk f
  | .ack f => frameOk f
  | .nak f => frameOk f
  | .ackTimerExpiry src _ _ => nodeOk src
  | .retransmitTimerExpiry dst _ _ => nodeOk dst
  | .peerProbe peer _ => nodeOk peer
  | .linkDown port => portOk port
  | .pfcFrame port _ _ _ => portOk port
  | .neighborSolicitation port _ _ => portOk port
  | .echoRequest port _ _ _ _ _ => portOk port
  | .otherFrame port _ => portOk port
  | .portTransmit port _ => portOk port
  | .weirTakeover port _ => portOk port
  | .weirEntryAdvance port _ => portOk port
  | .epochCommitTime _ => true
  | .epochDrainEnd _ => true
  | .resourceScrubDone res => resourceOk res
  | .promote pg ecc => pageOk pg && eccOk ecc
  | .demoteTimeout pg _ => pageOk pg
  | .migrationSwap pg ecc => pageOk pg && eccOk ecc
  | .oldRunRelease pg => pageOk pg
  | .scrubPass grain ecc => grainOk grain && eccOk ecc
  | .selfTestVerdict place _ _ => placeOk place
  | .pairSparing ch pair _ ecc => channelOk ch && pairOk pair && eccOk ecc
  | .pairSpareSwitch ch pair => channelOk ch && pairOk pair
  | .laneDegrade port lane _ => portOk port && laneOk lane
  | .tsvFault ch _ _ => channelOk ch
  | .sbCommandWord _ _ _ => true
  | .sbDataWord _ _ _ => true
  | .sbWordDiscarded _ => true
  | .sbDataTimeout _ => true
  | .resetKey _ => true
  | .errClr _ => true
  | .bypass => true
  | .idcode => true
  | .samplePreload => true
  | .extest => true
  | .extestPulse => true
  | .extestTrain => true
  | .reservedOpcode jet _ => jetOk jet
  | .undefinedOpcode f => frameOk f
  | .malformedFrame f => frameOk f
  | .clockReturn _ => true
  | .pcieConfigRequest fn => fnOk fn
  | .ideKmMessage ep msg => epOk ep && ideOk msg
  | .nodeResetDelayExpiry _ => true

end Sys2Proof.WellFormed
end

