-- ==== Sys2Proof/Tests/Slice0.lean ====
section
/-! SUPPORT. The model's own tests. First the ill-formed commands that each check of WellFormed refuses; then a few commands with
values that the spec states; then, for every statement with hypotheses, a state and operands that meet them, clause by clause. -/

namespace Sys2Proof.Tests

open Sys2Proof.Machine

-- One thread for all of them: a thread for each would take more memory than the check has.
set_option Elab.async false

/-! ### States to test on -/

/-- A powered node in bring-up stage n with PCIe up. -/
def booted (n : Nat) : State :=
  { State.reset with
    pins := { State.reset.pins with rstLow := false, railOk := 0x7F#7 }
    boot := { State.reset.boot with stage := n, pcieUp := decide (2 ≤ n) } }

/-- A node in service. -/
def live : State := booted 5

/-- A partition map entry: the groups, slices, clusters, window blocks and session blocks named by a 16-bit mask, enabled. -/
def mapWord (m : Nat) : BitVec 1024 :=
  BitVec.ofNat 1024 (m * (1 + 2 ^ 16 + 2 ^ 32 + 2 ^ 48) + (50 + 50 * m) * 2 ^ 64 + 50 * 2 ^ 74 + 2 ^ 84 + m * 2 ^ 256)

/-- A node in service whose partition 0 owns the first of every resource and partition 1 the second. -/
def parted : State := { live with cfg := { live.cfg with maps := [(0, mapWord 1), (1, mapWord 2)] } }

/-- A mailbox command over BAR0 with a body, for partition p, in mailbox p + 1 or, where `own`, in mailbox 0. -/
def cmd (own : Bool) (p : Nat) (b : List Byte) : AgtanCmd :=
  { mb := if own then 0 else p + 1, path := .bar0 (if own then .pf else .vf p) 0#12 false, seq := 1#16
    len := BitVec.ofNat 10 b.length, part := BitVec.ofNat 4 p, rsvd := 0#98, body := b }

/-- A body of one value. -/
def word (v : Nat) : List Byte := leBytes 8 v

/-! ### Ill-formed commands, one for each check -/

/-- A frame on a port. -/
def onPort (p : Nat) : Frame :=
  { port := p, size := 134, fcsOk := true, macOk := true, tpid := 0x8100#16, vid := 0#12, ipVer := 6#4, ipNext := 17#8, ipDst := 0#128
    udpDst := 0#16, udpSum := .zero, body := [], tag := 0#128
    hdr := { status := 0#8, first := true, last := true, acknow := false, void := false, sync := false, fwd := false, opcode := 0#8
             rclass := 0#2, ver := 1#4, dst := 0#13, src := 0#13, seq := 0#24, keySlot := 0#10, attempt := 0#16, window := 0#20, offset := 0#40
             gen := 0#16, imm := 0#32, stamp := 0#64, ptag := 0#32, ctlCtr := 0#32, rsvd := 0#44 } }

/-- An ordinary access that writes bytes to a grain. -/
def access (g n : Nat) : OrdAccess := { kind := .pageWrite, tag := 0#5, grain := g, cols := 1, bytes := List.replicate n 0#8 }

/-- A page of a partition's session. -/
def pageOf (p l h : Nat) : PageRef := { base := false, part := p, owner := 0, layer := l, head := h, page := 0 }

theorem test_refused_indices :
    ∀ i ∈ [Instr.linkDown 24, .laneRetrainDone 0 9 true, .nop 8192, .go 0 16, .dramHot 128 0, .pairSpareSwitch 0 64,
      .railOutOfRange 7 0, .partitionResetEnd 16 0, .mbDoorbell .pf 17 0#64, .queueStopped (2 ^ 20), .keyRetired 1024 0,
      .sessionCloseRelease (2 ^ 24), .windowRevokeDrained 65536 0, .peerProbe 8192 0, .ideIntegrityFail 9],
      WellFormed.instr i = false := by decide +kernel

theorem test_refused_records :
    ∀ i ∈ [Instr.firstClr (.vf 16), .spdmGetVersion (.fn (.vf 16)), .scrubPass (2 ^ 30) { ce := [], ue := [] },
      .scrubPass 0 { ce := [2 ^ 34], ue := [] }, .nodeStatus { cmd true 0 [] with mb := 17 }, .nodeStatus { cmd true 0 [] with len := 1009#10 },
      .nodeStatus { cmd true 0 [] with len := 1#10 }, .write (onPort 24), .pldmRequest (.railVolt 7), .pldmRequest (.railAmp 7),
      .ideKmMessage .mctp (.setGo 9), .ideKmMessage .mctp (.keyProg 9 0#256), .memoryTestDone 0 [{ pair := 68, bank := 0, row := 0 }],
      .memoryTestDone 0 [{ pair := 0, bank := 2, row := 0 }], .memoryTestDone 0 [{ pair := 0, bank := 0, row := 16384 }],
      .ordinaryAccess 0 (access 0 1), .ordinaryAccess 0 (access (2 ^ 30) 512), .ptpMessage 24 (.delayResp 0 0)],
      WellFormed.instr i = false := by decide +kernel

theorem test_refused_places :
    ∀ i ∈ [Instr.resourceScrubDone (.channelGroup 16), .resourceScrubDone (.slice 16), .resourceScrubDone (.cluster 16),
      .resourceScrubDone (.windowBlock 16), .resourceScrubDone (.keySlot 1024), .resourceScrubDone (.sessionBlock 256),
      .oldRunRelease (pageOf 16 0 0), .oldRunRelease (pageOf 0 256 0), .oldRunRelease (pageOf 0 0 64), .selfTestVerdict (.row (2 ^ 30)) true 0,
      .selfTestVerdict (.lane 0 9) true 0, .selfTestVerdict (.subBank 16 0) true 0, .selfTestVerdict (.array 16 0) true 0,
      .registerWrite (.bar0 .pf 4#26) 0#64, .registerWrite (.jet 8192 0#18) 0#64, .registerWrite (.jet 0 4#18) 0#64,
      .registerWrite (.jetSched 128) 0#64], WellFormed.instr i = false := by decide +kernel

theorem test_accepted :
    ∀ i ∈ [Instr.linkDown 23, .laneRetrainDone 23 8 true, .go 8191 15, .nodeStatus (cmd true 0 []), .write (onPort 23),
      .registerWrite (.bar0 .pf 0x1F020#26) 0#64, .ordinaryAccess 0 (access 0 512)], WellFormed.instr i = true := by decide +kernel

/-- No row of the table gives bits (assumption 28). -/
theorem test_no_words : decodeTableWord 32 0 = none ∧ decodeTableWord 384 1 = none := by decide

/-! ### Values that the spec, or a standard that it names, states -/

/-- 12 R381: the check value of CRC-32C. -/
theorem test_crc : crc32c ("123456789".toList.map fun c => BitVec.ofNat 8 c.toNat) = 0xE3069283#32 := by decide +kernel

/-- FIPS 197, the AES-256 example: key 00 to 1F, block 00 11 to FF. -/
theorem test_aes :
    aes256 (aesKeys 0x000102030405060708090A0B0C0D0E0F101112131415161718191A1B1C1D1E1F#256) 0x00112233445566778899AABBCCDDEEFF =
      0x8EA2B7CA516745BFEAFC49904B496089 := by decide +kernel

/-- SP 800-38D, AES-256 with a zero key and nonce: the tag of nothing, and one zero block. -/
theorem test_gcm :
    (gcmSeal 0#256 0#96 [] []).2 = 0x530F8AFBC74536B9A963B4F1C4CB738B#128 ∧
    gcmSeal 0#256 0#96 [] (List.replicate 16 0#8) =
      (beBytes 16 0xCEA7403D4D606B6E074EC5D3BAF39D18, 0xD0D1C8A799996BF0265B98B5D48AB919#128) := by decide +kernel

/-- FIPS 180: SHA-384 of "abc". -/
theorem test_sha : sha384 [0x61#8, 0x62#8, 0x63#8] =
    0xCB00753F45A35E8BB5A03D699AC65007272C32AB0EDED1631A8B605A43FF5BED8086072BA1E7CC2358BAECA134C825A7#384 := by decide +kernel

/-- 02, the example of placement: run 0x1680_0918 is on CH85, row 0x0123, its halves and its meta grain. -/
theorem test_placement : grainChannel 0x16800918 = 85 ∧ grainRow 0x16800918 = 0x123 ∧ runLen 2 0 = 5 ∧
    segGrains 0x16800918 2 0 false = [0x16800918, 0x1680091A, 0x1680091C] ∧
    segGrains 0x16800918 2 0 true = [0x16800919, 0x1680091B, 0x1680091C] := by decide +kernel

/-- 05, the worked example: -1.375, -0.625, 0, 0.6015625 and 2.375 in INT4 have codes 0, 3, 6, 8 and 15, SCALE 0x3E80, ZP 6, CLAMP. -/
theorem test_quantise :
    (quantInt 4 [0xBFB00000#32, 0xBF200000#32, 0#32, 0x3F1A0000#32, 0x40180000#32, 0#32]).go.1 =
      { codes := [0x30#8, 0x86#8, 0x6F#8], srec := leBytes 4 0x02063E80 } := by decide +kernel

/-- 05, the worked example: 2.0 and 5.3 under 5.0 / 448 become the E4M3 codes of 176 and 448, the second saturated. -/
theorem test_scale :
    (oBytes 2 (f32Div 0x40A00000#32 (f32OfNat 448)) [0x40000000#32, 0x40A9999A#32]).go.1 = ([0x73#8, 0x7E#8], 1) := by decide +kernel

/-- 06, the worked example: the canonical codes of its lengths, and the bits of its first five elements. -/
def lens : List Nat := [8, 8, 8, 8, 7, 6, 5, 4, 3, 2, 2, 3, 4, 6, 7, 5]
theorem test_coding : packBits (([123, 124, 0, 129, 122]).flatMap (elementBits (canonicalCodes lens) 114) ++ List.replicate 7 false) =
    [0x1E#8, 0x80#8, 0x76#8, 0x06#8, 0x00#8] := by decide +kernel

/-- 06, the worked example of a delta row: 0.5 + 0.0625 and -0.75 - 0.0625, and the largest magnitude 1.984375. -/
theorem test_delta :
    (deltaRow 5 3 [0x3F000000#32, 0xBF400000#32, 0x3FDC0000#32]
      { codes := [0x37#8, 0x0D#8], srec := leBytes 4 0x00053D00 }).go.1.codes = [36, -52, 127] := by decide +kernel

/-- 11, the worked example of a nonce. -/
theorem test_nonce : beBytes 12 (nonceData 40#13 7#13 3#2 0x12345#40 1#16 5#8).toNat =
    [0x01#8, 0x40#8, 0x01#8, 0xF0#8, 0x00#8, 0x00#8, 0x09#8, 0x1A#8, 0x28#8, 0x00#8, 0x08#8, 0x28#8] := by decide +kernel

/-- 07, the worked example: tick 100,001 seen at 1,000,004,100 ns is 1,000,010,000 ns. -/
theorem test_deadline : (live.upTo 1000004100).deadline 100001 = .ok 1000010000 := by rfl

/-- 15 R488: IDCODE. -/
theorem test_idcode : ∃ t, exec .idcode State.reset = .next t ∧ t.out = [.jtag 0x1051296F#32] := ⟨_, rfl, rfl⟩

/-- 15, the worked example: after a word of 20 clocks the next command word shifts out SB_LAST with DISCARDED, and DISCARD counts 1. -/
theorem test_sideband : ∃ t u, exec (.sbWordDiscarded 20) live = .next t ∧ exec (.sbCommandWord 1#32 32 0) t = .next u ∧
    u.out = [.miso 2#32] ∧ u.sb.errs = 1#32 := ⟨_, _, rfl, rfl, by decide +kernel, by decide +kernel⟩

/-- 03 R112: ADD wraps modulo 2 ^ 32 and LI extends its sign. -/
theorem test_add : (Jet.init.setReg 1#4 ((Jet.init.setReg 1#4 0xFFFFFFFF#32).reg 1#4 + (2#18).signExtend 32)).reg 1#4 = 1#32 ∧
    (0x3FFFF#18).signExtend 32 = 0xFFFFFFFF#32 := by decide +kernel


/-! ### Witnesses: bring-up, resets and rails -/

/-- A node with its queue in front of a step, for WritersOfAPair: the lower and the upper node of a pair. -/
def pairNode (a b : Nat) : State :=
  { live with
    cfg := { live.cfg with nodeCfg := BitVec.ofNat 64 (a + 2 ^ 13), twinCfg := BitVec.ofNat 64 (b + 2 ^ 13) }
    twin := { live.twin with state := twPaired } }

theorem witness_StepTakesFront : State.reset.pending = [] := by decide

theorem witness_StepKeepsInvariant : ∃ t, State.reset.Inv ∧ step State.reset = .next t :=
  ⟨State.reset, ⟨⟨List.Pairwise.nil, by decide⟩, by decide, by decide, by decide, by decide, by decide, by decide, by decide⟩, rfl⟩

theorem witness_HeaderAndDescriptorRoundTrip :
    let d : Desc := { grain := 2 ^ 30 - 1, pfmt := 15, validM1 := 15, hdim := 7, cstate := 3, tail := true, inSram := true, contained := true
                      wgen := 0xFFFF#16, tagRoot := 0xFFFFFFFF#32, baseIdx := 2 ^ 20 - 1, stamp := 2 ^ 64 - 1, tokenPos := 2 ^ 32 - 1 }
    d.grain < 2 ^ 30 ∧ d.pfmt < 16 ∧ d.validM1 < 16 ∧ d.hdim < 8 ∧ d.cstate < 4 ∧ d.baseIdx < 2 ^ 20 ∧ d.stamp < 2 ^ 64 ∧
      d.tokenPos < 2 ^ 32 := by decide +kernel

theorem witness_GrainWrites :
    (List.replicate 512 (0xA5#8)).length = 512 ∧ eccBad eccNone 7 = none ∧ (8 : Nat) ≠ 7 ∧ 511 < 512 * 1 ∧ 512 * 1 + 512 ≤ 1024 := by decide +kernel

theorem witness_WritersOfAPair :
    let s := pairNode 4 9
    let t := pairNode 9 4
    s.twin.state ≠ twUnpaired ∧ t.twin.state ≠ twUnpaired ∧ s.solo = false ∧ t.solo = false ∧ s.twinNode = t.nodeId ∧
      t.twinNode = s.nodeId ∧ s.nodeId < t.nodeId ∧ 6 % 2 = 0 ∧ 7 % 2 = 1 ∧
      ({ s with twin := { s.twin with state := twSolo } } : State).solo = true := by decide +kernel

theorem witness_FullResetCauses :
    State.reset.pins.rstLow = true ∧ live.awake = true ∧ 1000000 ≤ 1000000 ∧ 999999 < 1000000 ∧
    (let s := { live with pins := { live.pins with railHold := true } }
     s.pins.rstLow = false ∧ s.pins.railHold = true ∧ s.pins.tripped = false) ∧
    (let s := { live with pins := { live.pins with tripped := true } }
     s.pins.tripped = true ∧ s.pins.railHold = false ∧ 94 < 95) ∧
    (let s := { live with boot := { live.boot with resetDue := some (.full, 7) } }
     s.awake = true ∧ s.boot.resetDue = some (.full, 7) ∧ 7 ≤ (s.upTo 7).clk.up) := by decide +kernel

/-- A node with FATAL events at the times given. -/
def fatalAt (l : List Nat) : State := { live with boot := { live.boot with fatalTimes := l } }

theorem witness_RetainResetCauses :
    live.awake = true ∧ live.sbOn = true ∧ 0x0000A5C2#32 ≠ 0x0000A5C3#32 ∧
    (let s := { live with boot := { live.boot with resetDue := some (.retain, 7) } }
     s.awake = true ∧ s.boot.resetDue = some (.retain, 7) ∧ 7 ≤ (s.upTo 7).clk.up) ∧
    (fatalAt [0]).awake = true ∧ ((fatalAt [0]).upTo 5).fatal1h < 2 := by decide +kernel

theorem witness_ThirdFatalHeld : (fatalAt [0, 0]).awake = true ∧ 2 ≤ ((fatalAt [0, 0]).upTo 5).fatal1h := by decide +kernel

theorem witness_RailAndThermalEvents :
    live.pins.rstLow = false ∧ 6 < 7 ∧ 10000 < 10001 ∧ live.awake = true ∧ 112 ≤ 112 ∧ 100000 ≤ 100000 ∧ 127 < 128 := by decide +kernel

theorem witness_ReferenceClocks :
    ((booted 1).awake = true ∧ (booted 1).boot.stage = 1) ∧ (live.awake = true ∧ live.boot.stage = 5) ∧
    (2 ≤ (booted 2).boot.stage ∧ (booted 2).boot.stage ≤ 5) ∧
    ((booted 1).boot.pcieUp = false ∧ (booted 1).boot.stage < 2) ∧ live.boot.pcieUp = true := by decide +kernel

theorem witness_ResponsePaths :
    let c (q : Path) : AgtanCmd := { cmd true 0 [] with path := q }
    Claims.Accepted opTwinStatus (c (.bar0 .pf 3#12 false)) live ∧ Claims.Accepted opTwinStatus (c (.bar0 .pf 3#12 true)) live ∧
    Claims.Accepted opTwinStatus (c (.spdm (.fn .pf) 1#32)) live ∧ Claims.Accepted opNodeStatus (c .mctp) live ∧
    Claims.Accepted opTwinStatus (c (.wt 5#13 1#10 0x10000#20 0#32)) live ∧ (3 : Nat) ≠ (c .mctp).mb := by
  simp only [Claims.Accepted]; decide +kernel

/-! ### Witnesses: management commands, staging and epochs -/

/-- A node in service whose physical function's mailbox has a SEALED set. -/
def sealed : State := live.setStageSet 0 { isSealed := true, items := [.lock 1#64] }

theorem witness_RefusalsInOrder :
    (let s := { live with cfg := { live.cfg with maps := [(0, mapWord 1 ||| (1#1024 <<< 512))] } }
     let c := cmd false 0 (List.replicate 108 0#8)
     opKeyInstall.target c = some 0 ∧ opKeyInstall.mutual_ = true ∧ mapTenantKey (s.pmap 0) ≠ 0#384 ∧ s.inMutual c 0 = false) ∧
    (let c := { cmd true 0 [] with len := 3#10 }
     live.mailServed c = true ∧ live.agtanStatus opCfgAbort c ≠ stOk ∧ live.agtanStatus opKeySwitch c ≠ stOk ∧
     live.agtanStatus opQueueStop c ≠ stOk ∧ live.agtanStatus opLockStage c ≠ stOk) := by decide +kernel

theorem witness_NodeReads :
    let c := cmd true 0 []
    let o := cmd true 0 (word 0)
    let q := cmd false 0 (word 0)
    Claims.Accepted opNodeStatus c live ∧ Claims.Accepted opCfgStatus c live ∧ Claims.Accepted opTwinStatus c live ∧
    (Claims.Accepted opDirRead o live ∧ bit (leNat o.body) 32 = false) ∧
    (Claims.Accepted opDirRead (cmd true 0 (word (2 ^ 32))) live ∧ bit (leNat (cmd true 0 (word (2 ^ 32))).body) 32 = true) ∧
    (Claims.Accepted opWindowRead q parted ∧ leAt q.body 0 4 < 65536 ∧ parted.ownerOfWindow (leAt q.body 0 4) = some (cmdPart q)) ∧
    (Claims.Accepted opQueueRead q parted ∧ parted.ownerOfQueue (leNat q.body) = some (cmdPart q)) ∧
    Claims.Accepted opPartStatus c live := by
  simp only [Claims.Accepted]; decide +kernel

/-- The body of PART_CFG_STAGE with the Reset values of R203, R284, R146 and R176. -/
def partCfgBody : List Byte := leBytes 8 tierReset.toNat ++ leBytes 8 slcReset.toNat ++ leBytes 2 256 ++ leBytes 1 4 ++ leBytes 5 0

theorem witness_OwnerStaging :
    let m := cmd true 0 (leBytes 128 (mapWord 1).toNat)
    let p := cmd true 0 partCfgBody
    let n := cmd true 0 (leBytes 8 nodeCfgReset.toNat ++ word 0)
    (Claims.Accepted opPartMapStage m live ∧ mapRsvdOk (BitVec.ofNat 1024 (leNat m.body)) = true ∧
      mapEntryOk (BitVec.ofNat 1024 (leNat m.body)) = true) ∧
    (Claims.Accepted opPartCfgStage p parted ∧ tierOk (leAt p.body 0 8) = true ∧
      slcOk (leAt p.body 8 8) ((parted.stagedView p.mb).mapOf (cmdPart p)) = true ∧ 1 ≤ leAt p.body 16 2 ∧
      leAt p.body 16 2 ≤ 4096 ∧ 1 ≤ leAt p.body 18 1 ∧ leAt p.body 18 1 ≤ 16) ∧
    Claims.Accepted opLockStage (cmd true 0 (word 3)) live ∧
    (Claims.Accepted opNodeCfgStage n live ∧ pcpsOk (leAt n.body 0 8) = true) ∧
    (let c := cmd true 0 (word (twinCfgReset.toNat + 5))
     Claims.Accepted opTwinCfgStage c live ∧
      twinCfgOk (BitVec.ofNat 64 (leNat c.body)) (fld (live.stagedView c.mb).nodeCfg 0 13) = true) ∧
    Claims.Accepted opRouteStage (cmd true 0 (word 0 ++ word 9)) live ∧
    (live.stageSet 0).isSealed = false ∧ (sealed.stageSet 0).isSealed = true := by
  simp only [Claims.Accepted]; decide +kernel

/-- A window of partition 0 over grain 0, open for reads and writes: its 32 bytes. -/
def windowBytes : List Byte := leBytes 32 (2 ^ 84 + 2 ^ 85 + 2 ^ 87)

theorem witness_TransportStaging :
    let w := cmd false 0 (word 0xFFF ++ windowBytes)
    let r := cmd false 0 (word 15 ++ List.replicate 512 0#8)
    let l := cmd true 0 (word 23 ++ List.replicate 16 0#8)
    let h := cmd true 0 (word 0x1011F ++ word (2 ^ 24))
    let x := cmd true 0 (word 23 ++ word weightsReset.toNat)
    (Claims.Accepted opAdmitWeightsStage (cmd false 0 (word weightsReset.toNat)) parted ∧
      ∀ k, k < 8 → field (leNat (cmd false 0 (word weightsReset.toNat)).body) (8 * k) 8 ≠ 0) ∧
    (Claims.Accepted opWindowStage w parted ∧
      parted.windowOk (parted.stagedView w.mb) (cmdPart w) (leAt w.body 0 4) (BitVec.ofNat 256 (leNat (w.body.drop 8))) = true) ∧
    (Claims.Accepted opSrcsetStage r parted ∧ leAt r.body 0 1 / 16 = cmdPart r) ∧
    (Claims.Accepted opWeirStage l live ∧ weirPartOk l.body = true) ∧
    (Claims.Accepted opShaperStage h live ∧ shaperIndex (leAt h.body 0 4) = some (portTarget 23 11) ∧
      field (leAt h.body 8 8) 24 16 ≠ 0) ∧
    (Claims.Accepted opPortWeightsStage x live ∧ leAt x.body 0 8 < 24 ∧ ∀ k, k < 8 → field (leAt x.body 8 8) (8 * k) 8 ≠ 0) := by
  simp only [Claims.Accepted]; decide +kernel

/-- A node in service with one staged change of the lock in mailbox 0's set, and a pending epoch where `p` gives one. -/
def staged (p : Option Pend) : State :=
  let s := live.setStageSet 0 { isSealed := false, items := [.lock 1#64] }
  { s with ep := { s.ep with pend := p } }

/-- The commit of mailbox 0's set at a time. -/
def pendAt (t : Nat) : Pend := { what := .set 0, time := t, weirAt := [] }

theorem witness_CommitCommands :
    let c (t e : Nat) := cmd true 0 (word t ++ word e)
    let ok (t e : Nat) (s : State) : Prop := Claims.Accepted opCfgCommit (c t e) s ∧ s.boot.stage = 5 ∧
      (s.stageSet (c t e).mb).items ≠ [] ∧ (s.stageSet (c t e).mb).isSealed = false ∧
      s.commitOkItems s.commitBase (s.stageSet (c t e).mb).items (some (leAt (c t e).body 0 8)) = true
    let due (t e : Nat) (s : State) : Prop :=
      leAt (c t e).body 0 8 ≤ s.clk.ftime + 60000000000 ∧ s.clk.ftime + 100000 ≤ leAt (c t e).body 0 8
    (ok 100000 0 (staged none) ∧ leAt (c 100000 0).body 8 8 = 0 ∧ due 100000 0 (staged none) ∧ (staged none).liveEpochs < 2) ∧
    (ok 60000000000 0 (staged none) ∧ due 60000000000 0 (staged none)) ∧
    (ok 99999 0 (staged none) ∧ leAt (c 99999 0).body 8 8 = 0 ∧ leAt (c 99999 0).body 0 8 < (staged none).clk.ftime + 100000) ∧
    (let s := staged (some { pendAt 5000 with what := .set 3 })
     ok 100000 0 s ∧ due 100000 0 s ∧ 2 ≤ s.liveEpochs) ∧
    (let s := staged (some (pendAt 10000))
     Claims.Accepted opCfgAbort (cmd true 0 []) s ∧ s.ep.pend = some (pendAt 10000) ∧
      (pendAt 10000).what = .set (cmd true 0 []).mb ∧ s.clk.ftime + 10000 ≤ (pendAt 10000).time) ∧
    (Claims.Accepted opCfgDiscard (cmd true 0 []) live ∧ (live.stageSet 0).isSealed = false) ∧
    (Claims.Accepted opCfgDiscard (cmd true 0 []) sealed ∧ (sealed.stageSet 0).isSealed = true) := by
  simp only [Claims.Accepted]; decide +kernel

/-- A node in service whose pending epoch takes partition 0's key slot 149, which holds an active key. -/
def keyTaken : State :=
  let s := parted.setStageSet 0 { isSealed := true, items := [.map 0 0#1024] }
  { s with
    ep := { s.ep with pend := some (pendAt 7) }
    sec := { s.sec with keys := [(149, { KeySlot.init with st := .active })] } }

theorem witness_CommitTakesEffect :
    (let s := { sealed with ep := { sealed.ep with pend := some (pendAt 7) } }
     s.serving = true ∧ s.ep.pend = some (pendAt 7) ∧ (pendAt 7).what = .set 0 ∧ (pendAt 7).time ≤ (s.upTo 7).clk.ftime ∧
      s.takesKeys (s.cfg.withItems (s.stageSet 0).items) = false) ∧
    (let s := keyTaken
     s.serving = true ∧ s.ep.pend = some (pendAt 7) ∧ (pendAt 7).time ≤ (s.upTo 7).clk.ftime ∧
      s.takesKeys (s.cfg.withItems (s.stageSet 0).items) = true) ∧
    (let d : DirChange := { epoch := 1, kind := 0, records := [] }
     let s := { live with ep := { live.ep with pend := some { pendAt 7 with what := .dir d } } }
     s.serving = true ∧ s.ep.pend = some { pendAt 7 with what := .dir d } ∧ 7 ≤ (s.upTo 7).clk.ftime) := by decide +kernel

theorem witness_DrainAndScrub :
    (let s := { live with ep := { live.ep with draining := true } }
     s.awake = true ∧ s.ep.draining = true ∧ (s.upTo 0).drainReqs = 0) ∧
    (let s := { live with sec := { live.sec with scrubbing := [.keySlot 1023, .channelGroup 15] } }
     s.awake = true ∧ .keySlot 1023 ∈ s.sec.scrubbing ∧ .channelGroup 15 ∈ s.sec.scrubbing ∧ s.slc.cmds = [] ∧ s.slc.waitCmds = []) := by
  decide +kernel

/-! ### Witnesses: bring-up, power, resets, spares -/

/-- An image that the boot ROM accepts, or not. -/
def image (ok : Bool) : ImageCheck := { signatureOk := ok, svn := 0#16, digest := 0#384 }

/-- A node in stage 2 whose channels have trained and been tested as listed, at a scope. -/
def channels (l m : List Nat) (k : NodeScope) : State :=
  let s := booted 2
  { s with boot := { s.boot with chTrained := l, chTested := m, scope := k } }

theorem witness_BootSteps :
    ((booted 0).awake = true ∧ (booted 0).boot.stage = 0 ∧ (booted 0).imageOk (image true) = true ∧
      (booted 0).imageOk (image false) = false) ∧
    ((booted 1).boot.stage = 1 ∧
      ((booted 1).pins.clkPe && (booted 1).pins.clkSd0 && (booted 1).pins.clkSd1 && (booted 1).pins.clkSys) = true) ∧
    (let s := { booted 1 with pins := { (booted 1).pins with clkSys := false } }
     s.awake = true ∧ s.boot.stage = 1 ∧ (s.pins.clkPe && s.pins.clkSd0 && s.pins.clkSd1 && s.pins.clkSys) = false) ∧
    (let s := channels [] [] .retain
     s.awake = true ∧ s.boot.stage = 2 ∧ 127 < 128 ∧ 127 ∉ s.boot.chTrained ∧ 127 ∉ s.spares.lost ∧ s.channelDone 0 = false ∧
      Tbl.getD s.boot.chFails 127 0 + 1 < s.boot.scope.lossAt) ∧
    (let s := channels [] [] .full
     let s := { s with boot := { s.boot with chFails := [(127, 2)] } }
     s.awake = true ∧ 127 ∉ s.boot.chTrained ∧ 127 ∉ s.spares.lost ∧ s.boot.scope.lossAt ≤ Tbl.getD s.boot.chFails 127 0 + 1 ∧
      s.channelDone 0 = false ∧ s.boot.scope = .full ∧ 127 ∉ s.boot.chTested) ∧
    (let s := channels (List.range 128) (List.range 127) .full
     s.awake = true ∧ s.boot.stage = 2 ∧ 127 ∈ s.boot.chTrained ∧ 127 ∉ s.boot.chTested ∧
      ∀ k < 128, k ≠ 127 → s.channelDone k = true) := by decide +kernel

/-- A link identity of board 1, position 1, sending on a port. -/
def linkId (p : Nat) : LinkId := { brdId := 1#8, brdPos := 1#3, port := p, maxGbps := 448 }

/-- A node of board 1, position 0, in a stage of bring-up. -/
def boarded (n : Nat) : State :=
  { booted n with pins := { (booted n).pins with latched := { brdId := 1#8, brdPos := 0#3, smbAddr := 0#3 } } }

theorem witness_LinksAndCompute :
    (∀ n ∈ [3, 5], (boarded n).awake = true ∧ 3 ≤ (boarded n).boot.stage ∧ (boarded n).boot.stage ≤ 5 ∧
      23 ∉ (boarded n).boot.portsTried ∧ ((boarded n).port 23).up = false ∧ 23 ∉ (boarded n).spares.portsOut ∧
      (boarded n).portClock 23 = true ∧ (boarded n).directLink 0 (linkId 6) = true ∧
      (∀ y, some (linkId 5) = some y → (boarded n).directLink 0 y = false)) ∧
    ((booted 4).awake = true ∧ 4 ≤ (booted 4).boot.stage ∧ ((booted 4).port 23).up = false ∧ (booted 4).boot.computeDone = false) ∧
    ((booted 3).awake = true ∧ (booted 3).boot.stage = 3 ∧
      (booted 3).boot.stageStart + 500000000 ≤ ((booted 3).upTo 500000000).clk.up) ∧
    (let s := { booted 0 with boot := { (booted 0).boot with overruns := 1 } }
     (booted 0).stageBound = some 200000000 ∧ (booted 0).boot.overruns = 0 ∧ (booted 0).boot.stage ≠ 3 ∧
      (booted 0).boot.stageStart + 200000000 ≤ ((booted 0).upTo 200000000).clk.up ∧
      s.awake = true ∧ s.stageBound = some 200000000 ∧ s.boot.overruns ≠ 0 ∧
      s.boot.stageStart + 200000000 ≤ (s.upTo 200000000).clk.up) := by
  refine ⟨?_, by decide +kernel⟩
  intro n hn
  rcases List.mem_cons.1 hn with rfl | hn
  · exact ⟨by decide +kernel, by decide +kernel, by decide +kernel, by decide +kernel, by decide +kernel, by decide +kernel,
      by decide +kernel, by decide +kernel, fun y h => by injection h with h; subst h; decide +kernel⟩
  · rcases List.mem_cons.1 hn with rfl | hn
    · exact ⟨by decide +kernel, by decide +kernel, by decide +kernel, by decide +kernel, by decide +kernel, by decide +kernel,
        by decide +kernel, by decide +kernel, fun y h => by injection h with h; subst h; decide +kernel⟩
    · exact nomatch hn

/-- A node whose step 5 is over. -/
def computed : State := { booted 4 with boot := { (booted 4).boot with computeDone := true } }

theorem witness_ServiceAndPerst :
    (Claims.Opens (computed.upTo 10500000000) ∧ ¬ Claims.Opens (computed.upTo 10499999999) ∧ computed.clk.locked = false ∧
      computed.ep.early = [] ∧ computed.boot.scope = .full) ∧
    (let s := { computed with boot := { computed.boot with scope := .retain } }
     Claims.Opens (s.upTo 10500000000) ∧ s.ep.early = [] ∧ s.boot.scope = .retain) ∧
    (let s := { computed with ep := { computed.ep with early := [pendAt 0] } }
     Claims.Opens (s.upTo 10500000000) ∧ s.ep.early ≠ []) ∧
    Claims.Opens { computed with clk := { computed.clk with locked := true } } ∧
    (live.awake = true ∧ (booted 2).awake = true ∧ 2 ≤ (booted 2).boot.stage ∧ (booted 1).boot.stage < 2) := by
  simp only [Claims.Opens]; decide +kernel

theorem witness_PowerLevels :
    live.awake = true ∧ 1 ≤ (booted 1).boot.stage ∧ 5 * live.limitW < 4 * 1501 ∧ ¬ 5 * live.limitW < 4 * 1500 ∧
    live.tjStep < 101 := by decide +kernel

/-- A node in a stage whose port 0 is up. -/
def linked (n : Nat) : State := (booted n).updPort 0 fun x => { x with up := true, gbps := 1792 }

/-- That node with a master heard on port 0, the path delay asked for and a Sync taken. -/
def mastered (n : Nat) : State :=
  { linked n with clk := { (linked n).clk with
    heard := [(0, { priority1 := 128, clockClass := 6, accuracy := 0x21, variance := 0, priority2 := 128, identity := 7, steps := 0 })]
    delayReq := some (1, 30), sync := some { seq := 4, cameNs := 20, originNs := some 5 } } }

theorem witness_FabricTime :
    (∀ n ∈ [3, 5], (linked n).awake = true ∧ 3 ≤ (linked n).boot.stage ∧ (linked n).boot.stage ≤ 5 ∧ ((linked n).port 0).up = true ∧
      (linked n).masterPort ≠ some 1) ∧
    (let s := { mastered 3 with clk := { (mastered 3).clk with delayReq := none } }
     s.awake = true ∧ 3 ≤ s.boot.stage ∧ s.boot.stage ≤ 5 ∧ (s.port 0).up = true ∧ s.masterPort = some 0 ∧ s.clk.delayReq = none ∧
      s.clk.pathNs = none) ∧
    (let s := { mastered 3 with clk := { (mastered 3).clk with
       delayReq := none, sync := some { seq := 4, cameNs := 20, originNs := none } } }
     s.masterPort = some 0 ∧ s.clk.delayReq = none ∧ s.clk.pathNs = none ∧
      s.clk.sync = some { seq := 4, cameNs := 20, originNs := none }) ∧
    (∀ n ∈ [3, 5], (mastered n).awake = true ∧ 3 ≤ (mastered n).boot.stage ∧ (mastered n).boot.stage ≤ 5 ∧
      ((mastered n).port 0).up = true ∧ (mastered n).masterPort = some 0 ∧ (mastered n).clk.delayReq = some (1, 30) ∧
      (mastered n).clk.sync = some { seq := 4, cameNs := 20, originNs := some 5 } ∧ (mastered n).clk.synced = false) ∧
    (let s := { live with clk := { live.clk with locked := true } }
     s.awake = true ∧ s.clk.locked = true ∧ s.serving = true ∧
      ((s.upTo 1000000000).clk.ftime + s.clk.epochSec * 1000000000) % 1000000000 = 0) := by decide +kernel

/-- A lone twin. -/
def solo : State := { live with twin := { live.twin with state := twSolo } }

/-- A node that resets partition 0. -/
def resetting : State := { parted with sec := { parted.sec with resetting := [0] } }

theorem witness_ResetCommands :
    let c := cmd false 0 (word 0)
    (Claims.Accepted opNodeReset (cmd true 0 (word 1)) solo ∧ solo.solo = true ∧ bit (leNat (cmd true 0 (word 1)).body) 1 = false) ∧
    (Claims.Accepted opNodeReset (cmd true 0 (word 2)) solo ∧ bit (leNat (cmd true 0 (word 2)).body) 1 = true) ∧
    (Claims.Accepted opNodeReset (cmd true 0 (word 0)) live ∧ live.solo = false) ∧
    (Claims.Accepted opPartitionReset c parted ∧ cmdPart c ∉ parted.sec.resetting) ∧
    (Claims.Accepted opPartitionReset c resetting ∧ cmdPart c ∈ resetting.sec.resetting) ∧
    (let s := resetting.park opPartitionReset c
     s.awake = true ∧ 0 ∈ s.sec.resetting ∧
      ∀ m ∈ s.mboxes, ∀ x ∈ m.2.parked, x.1 = 0x0004#16 → cmdPart x.2 = 0 → bit (leNat x.2.body) 0 = false) ∧
    15 ∉ resetting.sec.resetting := by
  simp only [Claims.Accepted]; decide +kernel

/-- A node in service whose port 23 is up, direct or not, with or without its spare lane. -/
def laned (direct spare : Bool) : State :=
  let s := live.updPort 23 fun x => { x with up := true, direct := direct }
  { s with spares := { s.spares with laneNoSpare := if spare then [] else [23] } }

theorem witness_LanesAndTsvs :
    let c := cmd true 0 (word 215)
    (∀ s ∈ [laned true true], Claims.Accepted opLaneRetrain c s ∧ leNat c.body < 216 ∧ (s.port (leNat c.body / 9)).direct = true ∧
      s.hasSpareLane (leNat c.body / 9) = true ∧ s.awake = true ∧ (s.port 23).up = true ∧ Tbl.get? s.spares.laneTests 23 ≠ some 8) ∧
    (∀ s ∈ [laned true false], Claims.Accepted opLaneRetrain c s ∧ (s.port (leNat c.body / 9)).direct = true ∧
      s.hasSpareLane (leNat c.body / 9) = false ∧ s.awake = true ∧ (s.port 23).up = true) ∧
    (∀ s ∈ [laned false false], Claims.Accepted opLaneRetrain c s ∧ (s.port (leNat c.body / 9)).direct = false) ∧
    (let s := { live with spares := { live.spares with laneTests := [(23, 8)] } }
     s.awake = true ∧ Tbl.get? s.spares.laneTests 23 = some 8 ∧ ∀ x ∈ s.flt.tests, x.place ≠ .lane 23 8) ∧
    (127 < 128 ∧ 3 ≤ 3 ∧ 1000000 ≤ 1000000 ∧ live.flt.tests = []) ∧ live.ownerServed = true := by
  simp only [Claims.Accepted]; decide +kernel

/-- A session's first page, sealed, in the run at a grain. -/
def pageRef : PageRef := { base := false, part := 0, owner := 0, layer := 0, head := 0, page := 0 }
/-- Its descriptor. -/
def pageDesc (g : Nat) : Desc :=
  { grain := g, pfmt := 2, validM1 := 15, hdim := 0, cstate := 0, tail := false, inSram := false, contained := false, wgen := 1#16
    tagRoot := 0#32, baseIdx := noBase, stamp := 0, tokenPos := 0 }
/-- A page of that descriptor. -/
def page (g : Nat) : Page :=
  { desc := pageDesc g, copy := none, oldCopy := none, oldRuns := [], migr := none, sweepTick := 0, sweeps := 0, lastSweep := 0 }
/-- A node in service, partition 0 of which holds session 0 with that page in the run at grain 0. -/
def paged (p : Page) : State :=
  let h : LHead := { count := 16, pages := [(0, p)], top := none, second := [], lists := [], stamp := 0 }
  let v : Session :=
    { skey := 0#64, part := 0, pfmt := 2, hdim := 0, group := 0, state := 1, layersM1 := 0, kvhM1 := 0, windowLen := 0, baseSeq := noneId
      dpfmt := 0, posTable := noneId, dirGrain := 0, seed := 0#32, stamp := 0, heads := [(0, h)] }
  { parted with sessions := [(0, v)], allocs := [{ first := 0, len := runLen 2 0, use := .run pageRef }] }

theorem witness_VerdictsAndSpares :
    (let x : TestRun := { place := .jet 8191, code := 0x12, slot := 0 }
     let s := { live with flt := { live.flt with tests := [x] } }
     s.awake = true ∧ (∀ g, Place.jet 8191 = .row g → (s.jet (grainJet g)).isolated = false) ∧
      s.flt.tests.find? (fun y => decide (y.place = .jet 8191)) = some x) ∧
    (live.serving = true ∧ 127 < 128 ∧ 63 < 64 ∧ live.pairLive (jetOf 127 63) = true ∧ (live.nextSparePair 127 [true]).1 = some 0) ∧
    (let s := { live with spares := { live.spares with pairsUsed := [(127, 4)] } }
     s.serving = true ∧ s.pairLive (jetOf 127 63) = true ∧ Tbl.getD s.spares.pairsUsed 127 0 = 4) ∧
    (let s := { live with spares := { live.spares with sparing := [(jetOf 127 63, 0)] } }
     s.serving = true ∧ (s.jet (jetOf 127 63)).idle = true ∧ Tbl.get? s.spares.sparing (jetOf 127 63) = some 0) ∧
    (let s := paged (page 0)
     s.serving = true ∧ 4 < grainCount ∧ 4 ∉ s.badGrains ∧ s.hasContent 4 = true ∧
      s.allocOf 4 = some { first := 0, len := runLen 2 0, use := .run pageRef } ∧ s.page? pageRef = some (page 0) ∧
      (page 0).desc.grain = 0 ∧ (page 0).names 0 = true ∧ (page 0).desc.contained = false) ∧
    (let s := { paged (page 0) with sessions := [] }
     s.serving = true ∧ s.hasContent 4 = true ∧ s.allocOf 4 = some { first := 0, len := runLen 2 0, use := .run pageRef } ∧
      s.page? pageRef = none) := by
  refine ⟨⟨by decide +kernel, ?_, by decide +kernel⟩, ?_⟩
  · intro g h
    cases h
  · decide +kernel

/-! ### Witnesses: records, windows, queues, rings -/

theorem witness_RecordReads :
    let c (v : Nat) := cmd false 0 (word v)
    Claims.Accepted opFaultRead (cmd true 0 []) live ∧ Claims.Accepted opPeerClear (cmd true 0 (word 8191)) live ∧
    (Claims.Accepted opStatsRead (c (28 * 256 + 227)) parted ∧ field (leNat (c (28 * 256 + 227)).body) 8 5 + 1 ≤ 29 ∧
      field (leNat (c (28 * 256 + 227)).body) 0 8 + (field (leNat (c (28 * 256 + 227)).body) 8 5 + 1) ≤ 256 ∧
      bit (leNat (c (28 * 256 + 227)).body) 13 = false) ∧
    (Claims.Accepted opStatsRead (c (29 * 256)) parted ∧ 29 < field (leNat (c (29 * 256)).body) 8 5 + 1) ∧
    (Claims.Accepted opStatsRead (c (28 * 256 + 228)) parted ∧
      256 < field (leNat (c (28 * 256 + 228)).body) 0 8 + (field (leNat (c (28 * 256 + 228)).body) 8 5 + 1)) ∧
    (Claims.Accepted opHistRead (c (15 * 65536 + 32753)) parted ∧ 1 ≤ leAt (c (15 * 65536 + 32753)).body 2 1 ∧
      leAt (c (15 * 65536 + 32753)).body 2 1 ≤ 15 ∧
      leAt (c (15 * 65536 + 32753)).body 0 2 + leAt (c (15 * 65536 + 32753)).body 2 1 ≤ 32768) ∧
    Claims.Accepted opAttestReport (cmd true 0 (List.replicate 32 0#8)) live := by
  simp only [Claims.Accepted]; decide +kernel

/-- A request of partition 0 through window 4095 under generation 0, admitted. -/
def request (op : BitVec 8) (pl : List Byte) : Req :=
  { msg := { id := 0, origin := .fabric 7#13 17#10 4095#20 0#16 0x100#32 false, opcode := op, part := 0, queue := 0, ring := 0
             payload := pl, offset := 0, landAt := 0, waitAt := none, dlNs := none }
    epoch := 0, admitAt := 0, revAt := 0, dlNs := 500, dlp := 0, ofmt := 0, bias := false, scale := 0#32, pset := 0, respSlot := 0#32, reqTag := 0#32
    erp := false, owin := 4, clusters := 1, entries := [], bytes := 0, descs := 0, readLeft := 0, readAt := 0, winAddr := 0, waitAck := 0
    atomic := false, complete := false, hedged := false, claim := none }

theorem witness_WindowRevocation :
    let c (v : Nat) := cmd false 0 (word v)
    let s := { parted with
      cfg := { parted.cfg with windows := [(4095, BitVec.ofNat 256 (2 ^ 64 + 2 ^ 87))] }
      slc := { parted.slc with reqs := [(0, request opReadReq [])] } }
    (Claims.Accepted opWindowRevoke (c 4095) parted ∧ parted.ownWindow (c 4095) (field (leNat (c 4095).body) 0 20) = true ∧
      bit (leNat (c 4095).body) 20 = false) ∧
    (Claims.Accepted opWindowRevoke (c (4095 + 2 ^ 20)) parted ∧
      parted.ownWindow (c (4095 + 2 ^ 20)) (field (leNat (c (4095 + 2 ^ 20)).body) 0 20) = true ∧
      bit (leNat (c (4095 + 2 ^ 20)).body) 20 = true) ∧
    (Claims.Accepted opWindowRevoke (c 4096) parted ∧ parted.ownWindow (c 4096) (field (leNat (c 4096).body) 0 20) = false) ∧
    (parted.serving = true ∧ parted.windowBusy 4095 1 = false) ∧ s.windowBusy 4095 1 = true ∧ (booted 4).serving = false := by
  simp only [Claims.Accepted]; decide +kernel

/-- A queue context of 16 entries: its type, class and ring. -/
def ctx (t c r : Nat) : Nat := t + c * 2 ^ 4 + 4 * 2 ^ 8 + r * 2 ^ 32

/-- A node in service whose queue 0, of partition 0, has a context and entries between PROD and CONS, and whose queue 1 is a COMPLETION
queue. -/
def queued (t c n : Nat) : State :=
  let q (v : Nat) : Queue := { Queue.init with ctx := BitVec.ofNat 256 v }
  (parted.setQueue 0 (q (ctx t c 0 + n * 2 ^ 96))).setQueue 1 (q (ctx 3 0 64))

theorem witness_QueueCommands :
    let c (v : Nat) := cmd false 0 (word 65535 ++ leBytes 32 v)
    let n := cmd false 0 (word 65535)
    (Claims.Accepted opQueueSet (c (ctx 2 3 64)) parted ∧ parted.ownQueue (c (ctx 2 3 64)) (leAt (c (ctx 2 3 64)).body 0 4) = true ∧
      qType (parted.queue (leAt (c (ctx 2 3 64)).body 0 4)).ctx = 0 ∧
      contextOk (BitVec.ofNat 256 (leNat ((c (ctx 2 3 64)).body.drop 8))) = true ∧
      qType (BitVec.ofNat 256 (leNat ((c (ctx 2 3 64)).body.drop 8))) ≠ 1) ∧
    (let r := c (ctx 1 11 64)
     let v := BitVec.ofNat 256 (leNat (r.body.drop 8))
     Claims.Accepted opQueueSet r parted ∧ contextOk v = true ∧ qType v = 1 ∧
      inGroups (parted.pmap (cmdPart r)) (qRing v) (ringGrains v) = true ∧ parted.inWindow (qRing v) (ringGrains v) = false ∧
      parted.allocated (qRing v) (ringGrains v) = false) ∧
    (Claims.Accepted opQueueSet (c (ctx 3 3 64)) parted ∧
      contextOk (BitVec.ofNat 256 (leNat ((c (ctx 3 3 64)).body.drop 8))) = false) ∧
    (∀ g ∈ [64, 2 ^ 29], let r := c (ctx 1 11 g)
     let v := BitVec.ofNat 256 (leNat (r.body.drop 8))
     let s := { parted with allocs := [{ first := 64, len := 1, use := .dir 0 }] }
     Claims.Accepted opQueueSet r s ∧ s.ownQueue r (leAt r.body 0 4) = true ∧ qType (s.queue (leAt r.body 0 4)).ctx = 0 ∧
      contextOk v = true ∧ qType v = 1 ∧
      (if g = 64 then inGroups (s.pmap (cmdPart r)) (qRing v) (ringGrains v) = true ∧ s.inWindow (qRing v) (ringGrains v) = false ∧
        s.allocated (qRing v) (ringGrains v) = true else inGroups (s.pmap (cmdPart r)) (qRing v) (ringGrains v) = false)) ∧
    (Claims.Accepted opQueueStop n parted ∧ parted.ownQueue n (leNat n.body) = true) ∧
    (Claims.Accepted opQueueStop (cmd false 0 (word 65536)) parted ∧
      parted.ownQueue (cmd false 0 (word 65536)) (leNat (cmd false 0 (word 65536)).body) = false) ∧
    (let s := (queued 1 3 0).updQueue 0 fun x => { x with stopping := true }
     s.serving = true ∧ (s.queue 0).stopping = true ∧ (s.queue 0).landed = [] ∧ qAdmitted (s.queue 0).ctx = 0 ∧ (s.queue 0).ring = []) := by
  simp only [Claims.Accepted]; decide +kernel

/-- A submission entry: opcode, completion queue 1, length. -/
def submission (op n : Nat) : BitVec 512 := BitVec.ofNat 512 (op + 1 * 2 ^ 8 + n * 2 ^ 32)

theorem witness_HostRings :
    let s := queued 2 3 1
    (s.serving = true ∧ 0 < 1048576 ∧ s.ownerOfQueue 0 = some 0 ∧ qType (s.queue 0).ctx = 2 ∧
      ((16#32).toNat % 65536 + 65536 - qProd (s.queue 0).ctx) % 65536 ≤ qSize (s.queue 0).ctx) ∧
    (let t := queued 3 0 16
     t.serving = true ∧ t.ownerOfQueue 0 = some 0 ∧ qType (t.queue 0).ctx = 3 ∧
      ((16#32).toNat % 65536 + 65536 - qCons (t.queue 0).ctx) % 65536 ≤ qSize (t.queue 0).ctx ∧
      ((16#32).toNat % 65536 + 65536 - qCons (t.queue 0).ctx) % 65536 ≤ qUsed (t.queue 0).ctx) ∧
    (s.ownerOfQueue 65536 = some 1 ∧ 15 < 16 ∧ (15 : Nat) ≠ 1) ∧
    ((s.queue 0).stopping = false ∧ 0 < qUsed (s.queue 0).ctx ∧ 0 ∉ s.sec.resetting ∧
      s.subOk 0 (submission 0x13 0) [] = true ∧ s.subOk 0 (submission 0x15 0) [] = true) ∧
    (s.subOk 0 (submission 0x15 1) [] = false ∧ s.ownerOfQueue (subCq (submission 0x15 1)) = some 0 ∧
      qType (s.queue (subCq (submission 0x15 1))).ctx = 3) ∧
    (let e := BitVec.ofNat 512 0x15
     s.subOk 0 e [] = false ∧ qType (s.queue (subCq e)).ctx ≠ 3) := by decide +kernel

/-! ### Witnesses: keys -/

/-- A node in service whose partition 0 has slot 149 in a state, installed at 0 under epoch 4, and an open SPDM session of its function. -/
def keyed (x : KeyState) : State :=
  { parted with sec := { parted.sec with
    keys := [(149, { KeySlot.init with st := x, epoch := 4#8, kOld := 1#256, kNew := if x = .active then 0#256 else 2#256 })]
    spdm := [(1, { Spdm.init with isOpen := true, session := some 1#32 })] } }

/-- The blob of R373 that installs key 2 in slot 149 with an older key, 1 in mode 2 and else 0: ciphertext and tag of each mode. -/
def blob (mode : Nat) : List Byte :=
  leBytes 16 (149 + mode * 2 ^ 20 + 5 * 2 ^ 64) ++ List.replicate 12 0#8 ++ leBytes 80
    (if mode = 0 then
      1559990864033466614144988684486610219052002978097593223105676263086161588413010049065657472634215883793315001792957166068294610432619133685972781934092439845180217046628637396953233928715799779
    else if mode = 1 then
      3315485329191700401698209785049091415475849551778584939544936767113259244777737947827858959047470515433672459532759125854064094585750645679687672577482403392000785759774601804301554428682734819
    else
      1249429737276960998238276175985392612524945199011062850564043275997295727096747800921556648578907451415946383470579253557723226611960452930839933175859403757544176469128825236686591640838900963)

/-- KEY_INSTALL of that blob. -/
def install (mode : Nat) : AgtanCmd := cmd false 0 (blob mode)

/-- A command on slot 149. -/
def onSlot : AgtanCmd := cmd false 0 (word 149)

theorem witness_KeyTransitions :
    (let c := install 0
     let s := keyed .empty
     Claims.Accepted opKeyInstall c s ∧ Claims.Bound c s ∧ s.unwrap c = some (2#256, 0#256) ∧ kbMode c.body = 0 ∧
      (s.key (kbSlot c.body)).st = .empty) ∧
    (let c := install 2
     let s := keyed .retired
     Claims.Accepted opKeyInstall c s ∧ Claims.Bound c s ∧ s.unwrap c = some (2#256, 1#256) ∧ kbMode c.body = 2 ∧
      (s.key (kbSlot c.body)).st = .retired) ∧
    (let c := install 1
     let s := keyed .active
     Claims.Accepted opKeyInstall c s ∧ Claims.Bound c s ∧ s.unwrap c = some (2#256, 0#256) ∧ kbMode c.body = 1 ∧
      (s.key (kbSlot c.body)).st = .active ∧ (s.key (kbSlot c.body)).epoch + 1#8 = kbEpoch c.body ∧
      (s.key (kbSlot c.body)).part = kbPart c.body ∧ (s.key (kbSlot c.body)).job = kbJob c.body) ∧
    (let c := install 0
     Claims.Accepted opKeyInstall c parted ∧ parted.unwrap c = none) ∧
    (let c := install 0
     let s := keyed .active
     Claims.Accepted opKeyInstall c s ∧ s.unwrap c = some (2#256, 0#256) ∧
      (s.key (kbSlot c.body)).install (kbMode c.body) (kbPart c.body) (kbJob c.body) (kbEpoch c.body) 2#256 0#256 s.clk.ftime = none) ∧
    (Claims.Accepted opKeySwitch onSlot (keyed .nextRx) ∧ (keyed .nextRx).slotOf onSlot (leNat onSlot.body) = true ∧
      ((keyed .nextRx).key (leNat onSlot.body)).st = .nextRx ∧ ((keyed .active).key (leNat onSlot.body)).st ≠ .nextRx) ∧
    (Claims.Accepted opKeyDrop onSlot (keyed .nextTx) ∧ (keyed .nextTx).slotOf onSlot (leNat onSlot.body) = true ∧
      ((keyed .nextTx).key (leNat onSlot.body)).st = .nextTx ∧ ((keyed .active).key (leNat onSlot.body)).st ≠ .nextTx) := by
  simp only [Claims.Accepted, Claims.Bound]; decide +kernel

theorem witness_KeyEnds :
    (Claims.Accepted opKeyRetire onSlot (keyed .active) ∧ (keyed .active).slotOf onSlot (leNat onSlot.body) = true ∧
      ((keyed .active).key (leNat onSlot.body)).inUse = true) ∧
    ((keyed .retiring).awake = true ∧ ((keyed .retiring).key 149).st = .retiring ∧ (keyed .retiring).slotBusy 149 = false ∧
      ((keyed .retiring).key 149).retireAt + 64 * (keyed .retiring).cfg.period + 9150000 ≤ ((keyed .retiring).upTo 9790000).clk.ftime) ∧
    ((keyed .active).key 149).st ≠ .retiring ∧
    (let c := cmd true 0 (word (962 + 62 * 2 ^ 16))
     let c := { c with part := 3#4 }
     Claims.Accepted opKeyStatus c { parted with cfg := { parted.cfg with maps := [(3, mapWord 1)] } } ∧
      1 ≤ field (leNat c.body) 16 8 ∧ field (leNat c.body) 16 8 ≤ 62 ∧ field (leNat c.body) 0 10 + field (leNat c.body) 16 8 ≤ 1024) ∧
    ((keyed .active).awake = true ∧ ((keyed .active).key 149).sendAt = some 0 ∧ ((keyed .active).key 149).ageWarn = false ∧
      0 + keyLife 149 * 4 / 5 ≤ ((keyed .active).upTo 240000000000).clk.ftime ∧ ((keyed .active).key 149).inUse = true) := by
  simp only [Claims.Accepted]; decide +kernel

/-! ### Witnesses over grains: carry tags of the contents used -/

/-- The carry tag's register after 64 zero bytes. -/
def zeros64 (c : Word32) : Word32 := (List.replicate 64 0#8).foldl crc32cByte c

theorem zeros_step {n : Nat} {c d e : Word32} (h : zeros64 c = d) (r : (List.replicate n 0#8).foldl crc32cByte d = e) :
    (List.replicate (64 + n) 0#8).foldl crc32cByte c = e := by
  rw [← List.replicate_append_replicate, List.foldl_append]
  exact (congrArg (fun x => (List.replicate n 0#8).foldl crc32cByte x) h).trans r

/-- The carry tag of a zero grain, as 13 R418 states it. -/
theorem test_zero_grain_tag : crc32c (List.replicate 512 0#8) = 0x30FCEDC0#32 := by
  have k : (List.replicate 512 0#8).foldl crc32cByte 0xFFFFFFFF#32 = 3473084991#32 :=
    zeros_step (n := 448) (d := 4231468184#32) (by decide +kernel) <| zeros_step (n := 384) (d := 4158167844#32) (by decide +kernel) <|
    zeros_step (n := 320) (d := 2345306063#32) (by decide +kernel) <| zeros_step (n := 256) (d := 1200442991#32) (by decide +kernel) <|
    zeros_step (n := 192) (d := 64332339#32) (by decide +kernel) <| zeros_step (n := 128) (d := 1158271177#32) (by decide +kernel) <|
    zeros_step (n := 64) (d := 3425213895#32) (by decide +kernel) <| zeros_step (n := 0) (d := 3473084991#32) (by decide +kernel) rfl
  unfold crc32c
  rw [k]; decide

/-- The bytes of the smallest position table's header grain: one query head, 2 ^ 8 entries (02 R81). -/
def tableGrain : List Byte := [1#8, 0#8, 8#8] ++ List.replicate 61 0#8 ++ List.replicate 448 0#8

/-- Its carry tag. -/
theorem table_grain_tag : crc32c tableGrain = 3869127117#32 ^^^ 0xFFFFFFFF#32 := by
  have k : (List.replicate 448 0#8).foldl crc32cByte 4021921450#32 = 3869127117#32 :=
    zeros_step (n := 384) (d := 2638116498#32) (by decide +kernel) <| zeros_step (n := 320) (d := 3963960984#32) (by decide +kernel) <|
    zeros_step (n := 256) (d := 3273347585#32) (by decide +kernel) <| zeros_step (n := 192) (d := 523403816#32) (by decide +kernel) <|
    zeros_step (n := 128) (d := 3321638036#32) (by decide +kernel) <| zeros_step (n := 64) (d := 1935251546#32) (by decide +kernel) <|
    zeros_step (n := 0) (d := 3869127117#32) (by decide +kernel) rfl
  have e : ([1#8, 0#8, 8#8] ++ List.replicate 61 0#8).foldl crc32cByte 0xFFFFFFFF#32 = 4021921450#32 := by decide +kernel
  unfold crc32c tableGrain
  rw [List.foldl_append, e, k]

/-- An ordinary grain whose tag is that of its bytes passes its checks. -/
theorem grain_checks {s : State} {g : Nat} {b : List Byte} (hb : s.badGrains.contains g = false) (hl : s.grainLost g = false)
    (ha : s.allocOf g = none) (hg : s.grain g = b) (ht : sideTag (s.sideOf g) = crc32c b) : s.grainFault eccNone g = none := by
  unfold State.grainFault
  rw [hb, hl, ha]
  dsimp only
  rw [if_neg (by decide)]
  unfold State.checkGrain
  dsimp only
  rw [hg, ht]
  have e : eccBad eccNone g = none := rfl
  rw [e]
  have w : s.wgenOf g false = sideWord (s.sideOf g) 2 := rfl
  rw [w]
  simp

theorem firstBad_none {s : State} {g n : Nat} (h : ∀ i < n, s.grainFault eccNone (g + i) = none) : s.firstBad g n = none := by
  unfold State.firstBad
  rw [List.findSome?_eq_none_iff]
  intro i hi
  rw [h i (List.mem_range.1 hi)]
  rfl

/-- A node in service whose memory holds that header grain at grain 8, with its tag, and nothing else. -/
def tabled : State := { parted with mem := [(4096, 1#8), (4098, 8#8)], side := [(8, [0xCE32#16, 0x1961#16])] }

theorem tabled_grain : tabled.grain 8 = tableGrain ∧ tabled.grain 9 = List.replicate 512 0#8 := by decide +kernel

theorem tabled_checks : tabled.firstBad 8 2 = none := firstBad_none fun i hi => by
  have h : i = 0 ∨ i = 1 := by omega
  rcases h with rfl | rfl
  · exact grain_checks (by decide +kernel) (by decide +kernel) (by decide +kernel) tabled_grain.1
      (by rw [table_grain_tag]; decide +kernel)
  · exact grain_checks (by decide +kernel) (by decide +kernel) (by decide +kernel) tabled_grain.2
      (by rw [test_zero_grain_tag]; decide +kernel)

/-! ### Witnesses: sessions, the resident set, tiers -/

/-- A free place is found in a range that nothing takes. -/
theorem freePlace_some {s : State} {lo hi len : Nat} (k : Nat)
    (h : (s.taken.filter fun r => decide (r.1 < hi ∧ lo < r.1 + r.2)) = []) (h2 : lo + len ≤ hi) :
    ∃ g, s.freePlace lo hi len k = some g := by
  unfold State.freePlace
  rw [h]
  simp only [List.length_nil]
  by_cases c : hi < lo + k % (hi - lo) + len
  · exact ⟨lo, by simp [fitFrom, c, Nat.not_lt.2 h2]⟩
  · exact ⟨lo + k % (hi - lo), by simp [fitFrom, c]⟩

/-- What `allocGrains` makes of a free place. -/
theorem put_some {s : State} {g len n : Nat} (use : Use) (a : Nat)
    (ha : s.pick.2.freePlace (g * n) ((g + 1) * n) len s.pick.1 = some a) :
    ∃ x, (match List.findSome? (fun g => s.pick.2.freePlace (g * n) ((g + 1) * n) len s.pick.1) [g] with
      | none => none
      | some g => some (g, (s.pick.2.addAlloc { first := g, len := len, use := use }).putRun g (0#16) false (zeroRun len))) =
      some x := by
  rw [List.findSome?_cons, ha]
  exact ⟨_, rfl⟩

/-- Grains are allocated in a partition of one channel group that nothing takes. -/
theorem allocGrains_some {s : State} {p g len : Nat} (use : Use)
    (h : (s.pick.2.taken.filter fun r => decide (r.1 < (g + 1) * 2 ^ 26 ∧ g * 2 ^ 26 < r.1 + r.2)) = [])
    (hg : mapGroups (s.pmap p) = [g]) (hl : len ≤ 2 ^ 26) : ∃ x, s.allocGrains p len use = some x := by
  unfold State.allocGrains
  generalize (2 ^ 26 : Nat) = n at h hl ⊢
  obtain ⟨a, ha⟩ := freePlace_some (s := s.pick.2) (lo := g * n) (hi := (g + 1) * n) (len := len) s.pick.1 h
    (by rw [Nat.add_mul, Nat.one_mul]; exact Nat.add_le_add_left hl _)
  have e : ((List.range [g].length).map fun i => [g].getD ((i + s.pick.1) % [g].length) 0) = [g] := by simp [Nat.mod_one]
  dsimp only
  rw [hg, e]
  exact put_some use a ha

/-- SESSION_OPEN of session 0 of partition 0: the smallest, without base sequence and position table. -/
def openBody : List Byte := leBytes 32 (0xFFFF * 2 ^ 160 + 0xFFFF * 2 ^ 192)

/-- A node in service whose directory gives the key 0 to pair 5, of nodes 40 and 41. -/
def elsewhere : State :=
  { parted with cfg := { parted.cfg with dir := { parted.cfg.dir with members := [BitVec.ofNat 64 (5 + 40 * 2 ^ 16 + 41 * 2 ^ 32)] } } }

/-- A node of a pair that is not the writer of session 0, whose partition 0 has a mirror key. -/
def upper : State :=
  { pairNode 9 4 with
    cfg := { (pairNode 9 4).cfg with maps := parted.cfg.maps }
    sec := { parted.sec with keys := [(1, { KeySlot.init with st := .active })] } }

/-- A session opens where its table stands and its directory is allocated. -/
theorem openNow_of {s : State} {x : Nat} {v : Session} (n : Nat) (e : cdiv ((v.layersM1 + 1) * (v.kvhM1 + 1)) 64 = n)
    (ht : (s.tableOf (x / 65536)).isSome = true) (h : ∃ y, s.allocGrains v.part n (.dir x) = some y) : ∃ u, s.openNow x v = some u := by
  obtain ⟨⟨g, t⟩, hy⟩ := h
  have hn : s.needTable v.part (x / 65536) = s := by unfold State.needTable; rw [if_pos ht]
  unfold State.openNow
  rw [e, hn]
  dsimp only
  rw [if_neg (by rw [Option.isSome_iff_exists] at ht; obtain ⟨g, hg⟩ := ht; rw [hg]; exact Bool.false_ne_true), hy]
  exact ⟨_, rfl⟩

/-- A node in service that holds the table of session block 0 already. -/
def blocked : State := { parted with allocs := [{ first := 15 * 2 ^ 26, len := 8192, use := .table 0 }] }

/-- A table is put where its grains are allocated. -/
theorem putTable_of {s : State} {p n : Nat} {b : List Byte} (k : Nat) (e : b.length / 512 = k)
    (h : ∃ y, s.allocGrains p k (.posTable p n) = some y) : ∃ u, s.putTable p n b = some u := by
  obtain ⟨⟨g, t⟩, hy⟩ := h
  unfold State.putTable
  rw [e]
  dsimp only
  rw [hy]
  exact ⟨_, rfl⟩

theorem openNow_some : ∃ u, blocked.openNow 0 (openEntry 0 openBody) = some u :=
  openNow_of 1 (by decide +kernel) (by decide +kernel) (allocGrains_some (g := 0) (.dir 0) (by decide +kernel) (by decide +kernel) (by norm_num))

theorem witness_SessionCommands :
    let c := cmd false 0 openBody
    let x := cmd false 0 (word 0)
    let s := paged (page 0)
    (∃ u, Claims.Accepted opSessionOpen c blocked ∧ Claims.Serves c blocked true ∧
      blocked.ownerOfSession (leAt c.body 0 3) = some (cmdPart c) ∧ blocked.cfg.dir.place (openEntry (cmdPart c) c.body).skey = none ∧
      blocked.writes (leAt c.body 0 3) = true ∧ blocked.openOk (leAt c.body 0 3) (openEntry (cmdPart c) c.body) = true ∧
      blocked.out = [] ∧ blocked.openNow (leAt c.body 0 3) (openEntry (cmdPart c) c.body) = some u) ∧
    (let d := cmd false 1 openBody
     Claims.Accepted opSessionOpen d parted ∧ parted.ownerOfSession (leAt d.body 0 3) ≠ some (cmdPart d)) ∧
    (let d := cmd false 0 (leBytes 32 (5 * 2 ^ 24))
     Claims.Accepted opSessionOpen d parted ∧ Claims.Serves d parted true ∧ parted.ownerOfSession (leAt d.body 0 3) = some (cmdPart d) ∧
      parted.cfg.dir.place (openEntry (cmdPart d) d.body).skey = none ∧ parted.writes (leAt d.body 0 3) = true ∧
      parted.openOk (leAt d.body 0 3) (openEntry (cmdPart d) d.body) = false) ∧
    (Claims.Accepted opSessionOpen c elsewhere ∧ elsewhere.ownerOfSession (leAt c.body 0 3) = some (cmdPart c) ∧
      cmdForwarded c = false ∧ elsewhere.cfg.dir.place (openEntry (cmdPart c) c.body).skey = some 5 ∧ 5 ≠ elsewhere.pairId ∧
      elsewhere.cfg.dir.pair? 5 = some (BitVec.ofNat 64 (5 + 40 * 2 ^ 16 + 41 * 2 ^ 32))) ∧
    (Claims.Accepted opSessionClose x s ∧ Claims.Serves x s true ∧ s.writes (leNat x.body) = true ∧
      (s.openSession (cmdPart x) (leNat x.body)).isSome = true) ∧
    (Claims.Accepted opSessionClose x upper ∧ Claims.Serves x upper true ∧ upper.writes (leNat x.body) = false ∧ cmdForwarded x = false) ∧
    (∀ t ∈ [s.updSession 0 fun v => { v with state := 2 }], t.awake = true ∧ (t.session? 0).map (·.state) = some 2 ∧
      t.sessionBusy 0 = false ∧ t.writes 0 = true) ∧
    (∀ t ∈ [{ s.updSession 0 fun v => { v with state := 2 } with twin := upper.twin, cfg := upper.cfg }], t.awake = true ∧
      (t.session? 0).map (·.state) = some 2 ∧ t.sessionBusy 0 = false ∧ t.writes 0 = false) ∧
    (Claims.Accepted opSessionRead x s ∧ (s.session? (leAt x.body 0 3)).map (fun v => (v.part, v.state)) = some (cmdPart x, 1) ∧
      s.ownerOfSession (leAt x.body 0 3) = some (cmdPart x)) := by
  intro c x s
  obtain ⟨u, hu⟩ := openNow_some
  have e3 : leAt c.body 0 3 = 0 := by decide +kernel
  refine ⟨⟨u, ⟨by decide +kernel, by decide +kernel⟩, ⟨by decide +kernel, by decide +kernel⟩, by decide +kernel, by decide +kernel,
    by decide +kernel, by decide +kernel, by decide +kernel, by rw [e3]; exact hu⟩, ?_⟩
  · simp only [Claims.Accepted, Claims.Serves]; decide +kernel

/-- A base sequence of one page for one layer and head, loading or loaded, with or without that page. -/
def baseSeq (loaded whole : Bool) : BaseSeq :=
  { loaded := loaded, pfmt := 2, hdim := 0, layersM1 := 0, kvhM1 := 0, npages := 1, seed := 0#32, firstIdx := 0, stamp := 0
    heads := if whole then [(0, { count := 16, pages := [(0, page 0)], top := none, second := [], lists := [], stamp := 0 })] else [] }

/-- A node in service whose partition 0 holds base sequence 255. -/
def based (b : BaseSeq) : State := parted.updPart 0 fun q => { q with bases := [(255, b)] }

theorem witness_ResidentSet :
    (let c := cmd false 0 (leBytes 16 (255 + 4 * 2 ^ 8 + 5 * 2 ^ 12 + 262144 * 2 ^ 32))
     Claims.Accepted opBaseBegin c parted ∧ Claims.Serves c parted false ∧ parted.writesBases = true ∧
      Tbl.get? (parted.part (cmdPart c)).bases (field (leNat c.body) 0 8) = none ∧ field (leNat c.body) 8 4 ≤ 4 ∧
      field (leNat c.body) 12 3 ≤ 5 ∧ 1 ≤ field (leNat c.body) 32 20 ∧ field (leNat c.body) 32 20 ≤ 262144 ∧
      parted.freeIndices (cmdPart c)
        ((field (leNat c.body) 16 8 + 1) * (field (leNat c.body) 24 6 + 1) * field (leNat c.body) 32 20) = some 0) ∧
    (let c := cmd false 0 (word 255)
     ∀ b ∈ [baseSeq false true, baseSeq true true, baseSeq false false], Claims.Accepted opBaseEnd c (based b) ∧
      Claims.Accepted opBaseUnload c (based b) ∧ Claims.Serves c (based b) false ∧ (based b).writesBases = true ∧
      Tbl.get? ((based b).part (cmdPart c)).bases (leNat c.body) = some b ∧
      ((based b).namedBySession (cmdPart c) fun v => v.baseSeq == leNat c.body) = false) ∧
    ((baseSeq false true).loaded = false ∧ (baseSeq false true).whole = true ∧ (baseSeq true true).loaded = true ∧
      (baseSeq false false).whole = false) ∧
    (let c := cmd false 0 (word 63)
     let s := parted.updPart 0 fun q => { q with
       posTabs := [(63, { first := 8, grains := 2, qheads := 1, log2e := 8, root := 0#32, stamp := 0 })] }
     Claims.Accepted opPostabUnload c s ∧ Claims.Serves c s false ∧ s.writesBases = true ∧
      (Tbl.get? (s.part (cmdPart c)).posTabs (leNat c.body)).isSome = true ∧
      (s.namedBySession (cmdPart c) fun v => v.posTable == leNat c.body) = false) := by
  simp only [Claims.Accepted, Claims.Serves]; decide +kernel

theorem putTable_some (b : List Byte) (h : b.length / 512 = 2) : ∃ u, tabled.putTable 0 63 b = some u :=
  putTable_of 2 h (allocGrains_some (g := 0) (.posTable 0 63) (by decide +kernel) (by decide +kernel) (by norm_num))

theorem witness_ResidentSet_load :
    let c := cmd false 0 (leBytes 16 (63 + 8 * 2 ^ 32 + 2 * 2 ^ 64))
    Claims.Accepted opPostabLoad c tabled ∧ Claims.Serves c tabled false ∧ tabled.writesBases = true ∧
    leAt c.body 0 1 ≤ 63 ∧ 1 ≤ leAt c.body 8 4 ∧ leAt c.body 8 4 ≤ 16385 ∧
    Tbl.get? (tabled.part (cmdPart c)).posTabs (leAt c.body 0 1) = none ∧
    inGroups (tabled.pmap (cmdPart c)) (leAt c.body 4 4) (leAt c.body 8 4) = true ∧
    tabled.firstBad (leAt c.body 4 4) (leAt c.body 8 4) = none ∧ tableOk (tabled.grain (leAt c.body 4 4)) (leAt c.body 8 4) = true ∧
    tabled.out = [] ∧
    ∃ u, tabled.putTable (cmdPart c) (leAt c.body 0 1) (tabled.readBytes (512 * leAt c.body 4 4) (512 * leAt c.body 8 4)) = some u := by
  intro c
  have e1 : leAt c.body 0 1 = 63 := by decide +kernel
  have e2 : leAt c.body 8 4 = 2 := by decide +kernel
  have e3 : leAt c.body 4 4 = 8 := by decide +kernel
  have e4 : cmdPart c = 0 := by decide +kernel
  have a : Claims.Accepted opPostabLoad c tabled ∧ Claims.Serves c tabled false := by
    simp only [Claims.Accepted, Claims.Serves]; decide +kernel
  rw [e1, e2, e3, e4]
  obtain ⟨u, hu⟩ := putTable_some (tabled.readBytes (512 * 8) (512 * 2)) (by simp [State.readBytes, Memory.read])
  exact ⟨a.1, a.2, by decide +kernel, by norm_num, by norm_num, by norm_num, by decide +kernel, by decide +kernel, tabled_checks,
    by decide +kernel, by decide +kernel, u, hu⟩

/-! ### Witnesses: tiers and programs -/

/-- A run is allocated in a bank pair in use that nothing takes. -/
theorem allocRun_some {s : State} {j len : Nat} (use : Use)
    (h : (s.pick.2.taken.filter fun r => decide (r.1 < (j + 1) * 2 ^ 17 ∧ j * 2 ^ 17 < r.1 + r.2)) = []) (hj : s.pairLive j = true) (hl : len ≤ 2 ^ 17) :
    ∃ x, s.allocRun j len use = some x := by
  unfold State.allocRun
  generalize (2 ^ 17 : Nat) = n at h hl ⊢
  obtain ⟨a, ha⟩ := freePlace_some (s := s.pick.2) (lo := j * n) (hi := (j + 1) * n) (len := len) s.pick.1 h
    (by rw [Nat.add_mul, Nat.one_mul]; exact Nat.add_le_add_left hl _)
  rw [if_neg (by simp [hj])]
  dsimp only
  rw [ha]
  exact ⟨_, rfl⟩

/-- A node in service whose partition 0 has a page, swept by 8 requests, in a zero run with its tags and write generation 1. -/
def hot (p : Page) : State :=
  { paged { p with sweeps := 8, desc := { p.desc with tagRoot := 2164570076#32 } } with
    side := (List.range 5).map fun i => (i, sideWords (i == 4) (List.replicate 512 0#8) 0x30FCEDC0#32 1#16) }

/-- The page as it stands there. -/
def hotPage : Page := { page 0 with sweeps := 8, desc := { (page 0).desc with tagRoot := 2164570076#32 } }

/-- A grain whose side words are those of its bytes passes its checks. -/
theorem run_checks {s : State} {g : Nat} {m : Bool} {w : BitVec 16} {b : List Byte} {t : Word32} (hg : s.grain g = b) (ht : crc32c b = t)
    (hs : s.sideOf g = sideWords m b t w) (hw : sideTag (sideWords m b t w) = t)
    (hv : m = true ∨ sideWord (sideWords m b t w) 2 = w) : s.checkGrain eccNone g m w = none := by
  have e : eccBad eccNone g = none := rfl
  unfold State.checkGrain
  dsimp only
  rw [hg, hs, ht, hw, e]
  dsimp only
  rcases hv with hv | hv
  · subst hv; rw [if_neg (by simp), if_neg (by simp)]
  · rw [hv]
    cases m
    · rw [if_neg (by simp), if_neg (by simp)]
    · rw [if_neg (by simp), if_neg (by simp)]

/-- A sealed run whose grains and root check out passes. -/
theorem checkRun_none {s : State} {d : Desc} (n g : Nat) (w : BitVec 16) (hn : runLen d.pfmt d.hdim = n) (hg : d.grain = g) (hw : d.wgen = w)
    (h : ∀ i < n, s.checkGrain eccNone (g + i) (i + 1 == n) w = none) (hl : s.grainLost g = false)
    (hr : (!d.tail && tagRoot (s.runTags d) != d.tagRoot) = false) : s.checkRun eccNone d = none := by
  have f : (List.range n).findSome? (fun i => (s.checkGrain eccNone (g + i) (i + 1 == n) w).map fun c => (c.1, g + i, c.2)) = none := by
    rw [List.findSome?_eq_none_iff]
    intro i hi
    rw [h i (List.mem_range.1 hi)]
    rfl
  unfold State.checkRun
  rw [hn, hg, hw]
  dsimp only
  rw [f]
  dsimp only
  rw [hl, hr]
  rfl

/-- The run of `hot` passes where its grains and their side words stand. -/
theorem hot_run {s : State}
    (e : ∀ i < 5, s.grain (0 + i) = List.replicate 512 0#8 ∧
      s.sideOf (0 + i) = sideWords (i + 1 == 5) (List.replicate 512 0#8) 0x30FCEDC0#32 1#16 ∧
      sideTag (sideWords (i + 1 == 5) (List.replicate 512 0#8) 0x30FCEDC0#32 1#16) = 0x30FCEDC0#32 ∧
      ((i + 1 == 5) = true ∨ sideWord (sideWords (i + 1 == 5) (List.replicate 512 0#8) 0x30FCEDC0#32 1#16) 2 = 1#16))
    (l : s.grainLost 0 = false) (r : (!hotPage.desc.tail && tagRoot (s.runTags hotPage.desc) != hotPage.desc.tagRoot) = false) :
    s.checkRun eccNone hotPage.desc = none :=
  checkRun_none 5 0 1#16 (by decide) (by decide) (by decide)
    (fun i hi => run_checks (e i hi).1 test_zero_grain_tag (e i hi).2.1 (e i hi).2.2.1 (e i hi).2.2.2) l r

theorem hot_checks : (hot (page 0)).checkRun eccNone hotPage.desc = none :=
  hot_run (by decide +kernel) (by decide +kernel) (by decide +kernel)

/-- A report of an uncorrectable column in grain 0. -/
def badColumn : EccReport := { ce := [], ue := [0] }

/-- A page with a migration, or with an old run. -/
def moved (m : Option Migr) (o : List (Nat × Nat)) : Page := { page 0 with migr := m, oldRuns := o }

/-- A migration to the run at grain 2 ^ 17. -/
def migr (c : Bool) : Migr := { newRun := 2 ^ 17, wgen := 2#16, copied := c, repair := none }

theorem witness_TiersAndPrograms_promote :
    let s := hot (page 0)
    s.serving = true ∧ s.page? pageRef = some hotPage ∧ hotPage.desc.tail = false ∧ hotPage.desc.inSram = false ∧
    s.mayMove pageRef hotPage = true ∧ s.mayPromote pageRef = true ∧ fld (s.tierCfg pageRef.part) 8 8 ≤ hotPage.sweeps ∧
    512 * runLen hotPage.desc.pfmt hotPage.desc.hdim ≤ s.sramFree pageRef.part ∧ s.checkRun eccNone hotPage.desc = none ∧
    (s.checkRun badColumn hotPage.desc).isSome = true :=
  ⟨by decide +kernel, by decide +kernel, by decide +kernel, by decide +kernel, by decide +kernel, by decide +kernel, by decide +kernel,
    by decide +kernel, hot_checks, by decide +kernel⟩

theorem witness_TiersAndPrograms_moves :
    (let p := { page 0 with desc := { (page 0).desc with inSram := true } }
     let s := paged p
     s.serving = true ∧ s.page? pageRef = some p ∧ p.promoted = true ∧ s.mayMove pageRef p = true ∧
      fld (s.tierCfg pageRef.part) 16 16 ≤ (s.tickOf (s.upTo 10000000).clk.ftime + 2 ^ 48 - p.sweepTick % 2 ^ 48) % 2 ^ 48 ∧ s.awake = true ∧
      s.readBy pageRef = false) ∧
    (let p := moved (some (migr true)) []
     let s := paged p
     s.serving = true ∧ s.page? pageRef = some p ∧ p.migr = some (migr true) ∧ (migr true).copied = true ∧
      s.runNamed p.desc.grain = false ∧ p.desc.contained = false) ∧
    (let p := { moved (some (migr false)) [] with desc := { (page 0).desc with contained := true } }
     let s := paged p
     s.serving = true ∧ s.page? pageRef = some p ∧ p.migr = some (migr false) ∧ (migr false).repair = none ∧ p.desc.contained = true) ∧
    (let p := moved (some (migr false)) []
     let s := paged p
     s.serving = true ∧ s.page? pageRef = some p ∧ p.migr = some (migr false) ∧ (migr false).copied = false ∧
      p.desc.contained = false ∧ s.rowTested p (migr false) = false ∧ (s.checkRun badColumn p.desc).isSome = true) ∧
    (let p := moved none [(2 ^ 17, 5)]
     let s := paged p
     s.awake = true ∧ s.page? pageRef = some p ∧ (2 ^ 17, 5) ∈ p.oldRuns ∧ s.runRead (2 ^ 17) = false) := by decide +kernel

theorem hot_checks_moved : (hot (moved (some (migr false)) [])).checkRun eccNone hotPage.desc = none :=
  hot_run (by decide +kernel) (by decide +kernel) (by decide +kernel)

theorem witness_TiersAndPrograms_copy :
    let p := { hotPage with migr := some (migr false) }
    let s := hot (moved (some (migr false)) [])
    s.serving = true ∧ s.page? pageRef = some p ∧ p.migr = some (migr false) ∧ (migr false).copied = false ∧ p.desc.contained = false ∧
    s.rowTested p (migr false) = false ∧ s.checkRun eccNone p.desc = none ∧
    ((migr false).newRun + 0 ∈ ({ eccNone with writeFails := [2 ^ 17] } : EccReport).writeFails ∧ 0 < runLen p.desc.pfmt p.desc.hdim ∧
      ∀ i, i < runLen p.desc.pfmt p.desc.hdim → (migr false).newRun + i ∉ eccNone.writeFails) :=
  ⟨by decide +kernel, by decide +kernel, by decide +kernel, by decide +kernel, by decide +kernel, by decide +kernel, hot_checks_moved,
    by decide +kernel, by decide +kernel, fun _ _ h => nomatch h⟩

/-- REBALANCE of that page to jet 1. -/
def rebalanceCmd : AgtanCmd := cmd true 0 (word 0 ++ leBytes 4 0 ++ leBytes 4 1)

/-- A node in service that has that page and nothing allocated. -/
def bare : State := { paged (page 0) with allocs := [] }

theorem witness_TiersAndPrograms_rebalance :
    Claims.Accepted opRebalance rebalanceCmd bare ∧
    (∃ v, bare.openSession (cmdPart rebalanceCmd) (leAt rebalanceCmd.body 0 4) = some v ∧
      bare.mayRebalance v pageRef (page 0) (leAt rebalanceCmd.body 12 4) = true) ∧ bare.out = [] ∧
    ({ base := false, part := cmdPart rebalanceCmd, owner := leAt rebalanceCmd.body 0 4, layer := leAt rebalanceCmd.body 4 1
       head := leAt rebalanceCmd.body 5 1, page := leAt rebalanceCmd.body 8 4 } : PageRef) = pageRef ∧
    bare.page? pageRef = some (page 0) ∧
    ∃ x, bare.allocRun (leAt rebalanceCmd.body 12 4) (runLen (page 0).desc.pfmt (page 0).desc.hdim) (.run pageRef) = some x := by
  have e : leAt rebalanceCmd.body 12 4 = 1 := by decide +kernel
  have n : runLen (page 0).desc.pfmt (page 0).desc.hdim = 5 := by decide
  have o : (bare.openSession (cmdPart rebalanceCmd) (leAt rebalanceCmd.body 0 4)).any
      (fun v => bare.mayRebalance v pageRef (page 0) (leAt rebalanceCmd.body 12 4)) = true := by decide +kernel
  rw [Option.any_eq_true] at o
  refine ⟨⟨by decide +kernel, by decide +kernel⟩, o, by decide +kernel, by decide +kernel, by decide +kernel, ?_⟩
  rw [e, n]
  exact allocRun_some (.run pageRef) (by decide +kernel) (by decide +kernel) (by norm_num)

/-- PROG_STAGE of the nine zero grains at grain 0, with a digest. -/
def progCmd (d : Digest) : AgtanCmd := cmd false 0 (word 0 ++ digestBytes d)

theorem zero_grain (i : Nat) (h : i < 9) : parted.grain (0 + i) = List.replicate 512 0#8 := by
  have : ∀ i < 9, parted.grain (0 + i) = List.replicate 512 0#8 := by decide +kernel
  exact this i h

theorem zero_checks : parted.firstBad 0 9 = none := firstBad_none fun i hi => by
  have h : ∀ i < 9, parted.badGrains.contains (0 + i) = false ∧ parted.grainLost (0 + i) = false ∧ parted.allocOf (0 + i) = none ∧
      sideTag (parted.sideOf (0 + i)) = 0x30FCEDC0#32 := by decide +kernel
  exact grain_checks (h i hi).1 (h i hi).2.1 (h i hi).2.2.1 (zero_grain i hi) (by rw [test_zero_grain_tag]; exact (h i hi).2.2.2)

/-- The checks of 14 R453 that a tenant's command passes in service. -/
theorem status_ok {s : State} {o : AgtanOp} {c : AgtanCmd} {p : Nat} (t : o.target c = some p) (m : o.mutual_ = false)
    (a : s.partOpen p = true) (b : s.boot.stage = 5) (mb : c.mb ≤ 16) (mb1 : c.mb ≠ 0) (te : o.tenant = true) (pa : o.pathOk c = true)
    (l : o.len c.len.toNat = true) (bl : c.body.length = c.len.toNat) (r : c.rsvd = 0#98) (ro : o.rsvdOk c.body = true)
    (pt : c.part.toNat = p) : s.agtanStatus o c = stOk := by
  unfold State.agtanStatus
  rw [t]
  simp [checks, m, a, b, mb, mb1, te, pa, l, bl, r, ro, pt]

/-- The checks of R453 let PROG_STAGE pass with any digest. -/
theorem prog_accepted (d : Digest) : Claims.Accepted opProgStage (progCmd d) parted := by
  have l : (word 0 ++ digestBytes d).length = 56 := by rfl
  have n : (progCmd d).len = 56#10 := by unfold progCmd cmd; rw [l]
  have r : opProgStage.rsvdOk (progCmd d).body = true := by
    show zeroBits 30 63 ((progCmd d).body.take 8) = true
    rw [show (progCmd d).body.take 8 = word 0 from rfl]
    decide +kernel
  exact ⟨rfl, status_ok (p := 0) rfl rfl (by decide +kernel) rfl (show 1 ≤ 16 by decide) (show 1 ≠ 0 by decide) rfl rfl (by rw [n]; decide)
    (by rw [n]; exact l) rfl r rfl⟩

theorem witness_TiersAndPrograms_prog :
    let c := progCmd (sha384 ((parted.readBytes (512 * 0) 4608).take 4288))
    Claims.Accepted opProgStage c parted ∧ inGroups (parted.pmap 0) 0 9 = true ∧ cmdPart c = 0 ∧ leAt c.body 0 4 = 0 ∧
    parted.firstBad 0 9 = none ∧ digestBytes (sha384 ((parted.readBytes (512 * 0) 4608).take 4288)) = c.body.drop 8 ∧
    ((parted.readBytes (512 * 0) 4608).drop 4288).all (· == 0#8) = true := by
  intro c
  have h : ∀ d, leAt (progCmd d).body 0 4 = 0 ∧ digestBytes d = (progCmd d).body.drop 8 := fun d => ⟨rfl, rfl⟩
  exact ⟨prog_accepted _, by decide +kernel, rfl, (h _).1, zero_checks, (h _).2, by decide +kernel⟩

/-! ### Witnesses: SPDM, messages, mailboxes, registers -/

/-- A node in service whose endpoint has an SPDM state. -/
def spoken (e : SpdmEp) (x : Spdm) : State := live.setSpdm e x

/-- An SPDM state of a phase with session 1, open or not, that keeps a response. -/
def talk (o : Bool) (k : Option (BitVec 16 × List Byte)) : Spdm :=
  { Spdm.init with phase := 3, session := some 1#32, isOpen := o, kept := k }

theorem witness_SpdmRequests :
    (∀ e ∈ [SpdmEp.mctp, .fn .pf, .fn (.vf 15)], live.spdmServed e = true ∧ (∀ n ≤ 3, (spoken e { Spdm.init with phase := n }).spdmServed e = true ∧
      ((spoken e { Spdm.init with phase := n }).spdm e).phase = n) ∧ seesIndex e 6 = true) ∧ live.spdmServed (.fn (.vf 16)) = false ∧
    (live.measurement 6 ≠ none ∧ live.measurement 5 ≠ none ∧ seesIndex (.fn (.vf 15)) 31 = true ∧ seesIndex (.fn (.vf 15)) 32 = false) ∧
    (true && true && true && false) = false := by
  refine ⟨?_, by decide +kernel, ?_, rfl⟩
  · intro e he
    rcases List.mem_cons.1 he with rfl | he
    · decide +kernel
    rcases List.mem_cons.1 he with rfl | he
    · decide +kernel
    rcases List.mem_cons.1 he with rfl | he
    · decide +kernel
    · exact nomatch he
  · exact ⟨fun h => by simp [State.measurement] at h, fun h => by simp [State.measurement] at h, by decide, by decide⟩

theorem witness_SpdmSessions :
    (let s := spoken .mctp { Spdm.init with phase := 3 }
     s.spdmServed .mctp = true ∧ 3 ≤ (s.spdm .mctp).phase ∧ (s.spdm .mctp).session = none) ∧
    (let s := spoken .mctp (talk false none)
     (s.spdm .mctp).session ≠ none ∧ (s.spdm .mctp).isOpen = false ∧ s.tenantKey .mctp = 0#384) ∧
    (let e : SpdmEp := .fn (.vf 0)
     let s := { spoken e (talk false none) with cfg := { live.cfg with maps := [(0, mapWord 1 ||| (1#1024 <<< 512))] } }
     s.spdmServed e = true ∧ (s.spdm e).session ≠ none ∧ (s.spdm e).isOpen = false ∧ s.tenantKey e = 1#384 ∧ (0#384 ≠ s.tenantKey e)) ∧
    (let s := spoken .mctp (talk true none)
     s.spdmServed .mctp = true ∧ (s.spdm .mctp).has 1#32 = true ∧ (s.spdm .mctp).has 2#32 = false) ∧
    (let s := spoken (.fn .pf) (talk true none)
     s.spdmServed (.fn .pf) = true ∧ (s.spdm (.fn .pf)).isOpen = true) ∧
    (let s := live.setIde 8 { live.ideStream 8 with secure := true }
     s.ownerServed = true ∧ 8 < 9 ∧ (s.ideStream 8).secure = true) := by decide +kernel

/-- A message of 18 bytes. -/
def note : List Byte := List.replicate 18 0#8

theorem witness_MessageCommands :
    (let s := spoken (.fn .pf) (talk true none)
     s.spdmServed (.fn .pf) = true ∧ (s.spdm (.fn .pf)).has 1#32 = true ∧ 18 ≤ note.length ∧ (s.spdm (.fn .pf)).kept = none) ∧
    (let s := spoken (.fn .pf) (talk true (some (0#16, [7#8])))
     s.spdmServed (.fn .pf) = true ∧ (s.spdm (.fn .pf)).has 1#32 = true ∧
      (s.spdm (.fn .pf)).kept = some ((messageCmd (spdmIndex (.fn .pf)) (.spdm (.fn .pf) 1#32) note).2.seq, [7#8])) ∧
    ((booted 2).awake = true ∧ 2 ≤ (booted 2).boot.stage ∧ ((booted 2).mbox 0).mctpSeq = none) ∧
    (let s := (booted 2).updMbox 0 fun x => { x with mctpSeq := some (0#16, [7#8]) }
     s.awake = true ∧ 2 ≤ s.boot.stage ∧ (s.mbox 0).mctpSeq = some ((messageCmd 0 .mctp note).2.seq, [7#8])) ∧
    35000000 < 35000001 := by decide +kernel

/-- A node in service that has accepted a command in a mailbox. -/
def posted (m : Nat) : State := live.updMbox m fun x => { x with state := 1, accepted := [(0x0001#16, cmd true 0 [])] }

theorem witness_MailboxHandshake :
    (live.ownerServed = true ∧ reaches .pf 16 = true ∧ reaches (.vf 15) 16 = true ∧ reaches (.vf 15) 15 = false ∧
      ((posted 16).mbox 16).state = 1 ∧ (live.mbox 16).state ≠ 1 ∧ (0#64).extractLsb' 0 16 = (live.mbox 16).seqTaken ∧
      (1#64).extractLsb' 0 16 ≠ (live.mbox 16).seqTaken) ∧
    (let s := { posted 0 with mbNext := 1 }
     16 < 17 ∧ 0 = (s.mbNext + 16) % 17 ∧ (s.mbox 0).accepted = [(0x0001#16, cmd true 0 [])] ∧ s.mailServed (cmd true 0 []) = true ∧
      ∀ j < 16, (s.mbox ((s.mbNext + j) % 17)).accepted = []) ∧
    ∀ j < 17, (live.mbox ((live.mbNext + j) % 17)).accepted = [] := by decide +kernel

theorem witness_Bar2Accesses :
    let a : BitVec 39 := BitVec.ofNat 39 (2 ^ 39 - 1)
    let l : List Byte := [1#8]
    let off := { live with cfg := { live.cfg with lock := 1#64 } }
    let bad := { live with badGrains := [2 ^ 30 - 1] }
    live.bar2Served a.toNat 1 = true ∧ live.bar2Served a.toNat 2 = false ∧ live.bar2Off = false ∧ off.bar2Served a.toNat 1 = true ∧
    off.bar2Off = true ∧ (∀ g ∈ grainsOf a.toNat 1, live.allocOf g = none) ∧ live.writeRefused eccNone 0 (List.replicate 512 0#8) = none ∧
    bad.writeRefused eccNone a.toNat l = some (0x03, 2 ^ 30 - 1, 0#64) ∧ bad.bar2Served a.toNat l.length = true ∧ bad.bar2Off = false ∧
    (∀ g ∈ grainsOf a.toNat 1, bad.allocOf g = none) ∧
    ((paged (page 0)).bar2Served 0 1 = true ∧ ∃ g ∈ grainsOf 0 1, ((paged (page 0)).allocOf g).isSome = true) := by decide +kernel

theorem witness_RegisterWrites :
    (live.ownerServed = true ∧ 16 ≤ 16 ∧ reaches (.vf 15) 16 = true ∧ reaches .pf 0 = true ∧ (511 ≠ 384 ∧ 511 ≠ 385)) ∧
    ((booted 0).ownerServed = false ∧ (4#26).toNat % 8 ≠ 0 ∧ reaches (.vf 0) ((0x2000#26).toNat / 0x1000) = false ∧
      0x11000 ≤ (0x11000#26).toNat ∧ Fn.vf 15 ≠ .pf ∧
      (0x300008#26).toNat ∉ [0x1F020, 0x200008, 0x300010, 0x300018, 0x300020, 0x300028]) ∧
    (live.awake = true ∧ State.reset.awake = false ∧ 128 ≤ 128 ∧ 8192 ≤ 8192) ∧
    ((0x1FFF8#18).toNat < 0x20000 ∧ 0x22000 ≤ (0x22000#18).toNat ∧ 0x20000 ≤ (0x20000#18).toNat ∧ (0x21FF8#18).toNat < 0x22000 ∧
      (live.jet 8191).idle = true ∧ ({ Jet.init with queue := [0] } : Jet).idle = false ∧ ({ Jet.init with isolated := true } : Jet).isolated = true ∧
      Jet.init.isolated = false) := by decide +kernel

/-! ### Witnesses: the jets -/

/-- A node in service, partition 0 of which has jet 511. -/
def jetted (x : Jet) : State := { parted with jets := [(511, x)] }

/-- A slot of a kernel with 8 entries of a kind, none of session 0. -/
def slotWord (k kind : Nat) : BitVec 512 :=
  BitVec.ofNat 512 (k + 7 * 2 ^ 23 + ((List.range 8).map fun i => (kind * 2 ^ 37 + 2 ^ 42) * 2 ^ (128 + 48 * i)).sum)

/-- A jet that runs slot 15, a register of which holds 7 and another 8. -/
def runs (v : BitVec 512) : Jet := { Jet.init with slots := [(15, v)], running := some 15, regs := [(1, 7#32), (2, 8#32)] }

/-- A segment of entry 7. -/
def seg (v d : Bool) : Seg := { entry := 7, isV := v, isBase := false, done := d, rows := [] }

theorem witness_JetSlotCommands :
    (let s := jetted Jet.init
     s.awake = true ∧ 511 < 8192 ∧ (s.jet 511).isolated = false ∧ (s.jet 511).slotFree (15 % 16) = true ∧ (s.jet 511).queue = [] ∧
      (s.jet 511).running = none ∧ (s.jet 511).ready = 0#16) ∧
    ((jetted (runs 0#512)).jet 511).slotFree (15 % 16) = false ∧
    (let s := jetted { Jet.init with queue := [15], progOk := true, slots := [(15, BitVec.ofNat 512 (2 * 2 ^ 8))] }
     s.awake = true ∧ 15 % 16 ∈ (s.jet 511).queue ∧ (s.jet 511).isolated = false ∧ (s.jet 511).running = none ∧ (s.jet 511).queue = [15] ∧
      commandOk ((s.jet 511).slot 15) ((s.jet 511).kernelLoaded (slKernel ((s.jet 511).slot 15))) (s.ownerOfGroup (jetGroup 511)) =
        true) ∧
    (let s := jetted { Jet.init with queue := [15], progOk := true, slots := [(15, BitVec.ofNat 512 5)] }
     (s.jet 511).queue = [15] ∧
      commandOk ((s.jet 511).slot 15) ((s.jet 511).kernelLoaded (slKernel ((s.jet 511).slot 15))) (s.ownerOfGroup (jetGroup 511)) =
        false) ∧
    (let s := jetted (runs 0#512)
     15 % 16 ∉ (s.jet 511).queue ∧ (s.jet 511).running = some (15 % 16) ∧ (s.jet 511).stopTaken = false) ∧
    (let s := jetted { Jet.init with ready := 0x8000#16 }
     s.awake = true ∧ (s.jet 511).ready.getLsbD (15 % 16) = true) := by decide +kernel

theorem witness_JetPairAndHangs :
    let a : OrdAccess := { kind := .pageWrite, tag := 0x10#5, grain := 512 * 2 ^ 17 - 1, cols := 1, bytes := [1#8] }
    (let s := jetted Jet.init
     s.awake = true ∧ (s.jet 511).yreq = false ∧ (s.jet 511).isolated = false ∧ (s.jet 511).segSince = true ∧ (s.jet 511).own = false ∧
      grainJet a.grain = 511 ∧ s.gateAdmits (jetChannel 511) a.tag (decide (a.kind = .hostRead)) = true ∧ ordWrites a.kind = true ∧
      a.bytes ≠ [] ∧ s.gateAdmits (jetChannel 511) 0x10#5 true = true ∧ ordWrites .hostRead = false ∧
      s.gateAdmits (jetChannel 511) 0x0F#5 true = false) ∧
    (let s := jetted { Jet.init with yreq := true, colsLeft := 1 }
     (s.jet 511).yreq = true ∧ (s.jet 511).own = false ∧ 1 ≤ (s.jet 511).colsLeft) ∧
    (let s := jetted { Jet.init with own := true, yreq := true }
     s.awake = true ∧ (s.jet 511).own = true ∧ (s.jet 511).yreq = true ∧ s.ownLimit 511 < 65536) ∧
    (let s := jetted (runs 0#512)
     s.awake = true ∧ (s.jet 511).running = some 15 ∧ s.sweepLimit 511 < 2 ^ 32) ∧
    (1000 < 1001 ∧ live.awake = true ∧ live.boot.computeDone = false) ∧
    (let s := { live with boot := { live.boot with computeDone := true } }
     s.awake = true ∧ s.boot.computeDone = true ∧ 8191 < 8192 ∧ (true && false) = false) := by decide +kernel

theorem witness_JetControl :
    let s := jetted (runs (slotWord 0 0))
    let t := jetted (runs (slotWord 16 0))
    let p := jetted { runs (slotWord 0 0) with stopPend := true }
    Claims.Runs 511 15 s ∧ Claims.Runs 511 15 t ∧ Claims.Runs 511 15 p ∧
    slotValue ((s.jet 511).slot 15) (6#18).toNat = some 0 ∧ 7 ≤ (7#18).toNat ∧
    ((s.jet 511).entryAt 15 1#4 = some 7 ∧ entryValue (slEntry ((s.jet 511).slot 15) 7) (3#18).toNat = some 1 ∧
      slNent ((s.jet 511).slot 15) ≤ ((s.jet 511).reg 2#4).toNat ∧ 4 ≤ (4#18).toNat) ∧
    (Claims.MayGo (s.jet 511) 15 1023#18 ∧ ¬ Claims.MayGo (s.jet 511) 15 1024#18) ∧
    (Claims.MayGo (t.jet 511) 15 1024#18 ∧ Claims.MayGo (t.jet 511) 15 16#18 ∧ ¬ Claims.MayGo (t.jet 511) 15 1023#18) ∧
    ((s.jet 511).reg 1#4 = (s.jet 511).reg 1#4 ∧ (s.jet 511).reg 1#4 ≠ (s.jet 511).reg 0#4 ∧ (s.jet 511).stopPend = false ∧
      (p.jet 511).stopPend = true ∧ (p.jet 511).stopTaken = false) ∧
    (0x3F#6).toNat ∉ jetOpcodes ∧ (1#4 : BitVec 4) ≠ 0#4 := by
  simp only [Claims.Runs, Claims.MayGo]; decide +kernel

theorem witness_JetSegments :
    let s (k : Nat) := jetted (runs (slotWord 0 k))
    let busy := jetted { runs (slotWord 0 0) with accBusy := true }
    let full (k : Nat) := jetted { runs (slotWord 0 k) with segs := [seg false true, seg true true], yreq := true }
    let reading := jetted { runs (slotWord 0 0) with segs := [seg false false], own := true }
    (∀ k ∈ [0, 1, 2], Claims.Runs 511 15 (s k) ∧ ((s k).jet 511).entryAt 15 1#4 = some 7 ∧ ((s k).jet 511).entryAt 15 2#4 = none ∧
      enKind (slEntry (((s k).jet 511).slot 15) 7) = k ∧ ((s k).jet 511).badMask.getLsbD 7 = false ∧ ((s k).jet 511).segs = [] ∧
      ((s k).jet 511).yreq = false ∧ ((s k).jet 511).bases = [] ∧ ((s k).jet 511).accBusy = false) ∧
    (Claims.Runs 511 15 busy ∧ (busy.jet 511).accBusy = true) ∧
    (∀ k ∈ [0, 2], Claims.Runs 511 15 (full k) ∧ ((full k).jet 511).entryAt 15 1#4 = some 7 ∧
      enKind (slEntry (((full k).jet 511).slot 15) 7) = k ∧ ((full k).jet 511).badMask.getLsbD 7 = false ∧
      2 ≤ ((full k).jet 511).segs.length ∧ ((full k).jet 511).yreq = true) ∧
    (Claims.Runs 511 15 reading ∧ (reading.jet 511).inFlight = some (seg false false) ∧ (reading.jet 511).own = true ∧
      slSkipbad ((reading.jet 511).slot 15) = false) ∧
    (rsFormat ≠ rsOk ∧ rsFormat ≠ rsStopped) := by
  simp only [Claims.Runs]; decide +kernel

theorem witness_JetAttention :
    let s (v d : Bool) := jetted { runs (slotWord 0 0) with segs := [seg v d] }
    let busy := jetted { runs (slotWord 0 0) with segs := [seg true true], accBusy := true }
    (∀ v ∈ [false, true], ∀ d ∈ [false, true], Claims.Runs 511 15 (s v d) ∧ ((s v d).jet 511).entryAt 15 1#4 = some 7 ∧
      ((s v d).jet 511).findSeg 7 v = some (seg v d) ∧ ((s v d).jet 511).findSeg 7 (!v) = none ∧ (seg v d).done = d ∧
      enKind (slEntry (((s v d).jet 511).slot 15) 7) ≠ 2 ∧ ((s v d).jet 511).accBusy = false) ∧
    (∀ g ∈ ((s true true).jet 511).segs, g.entry = 7 → g.isV = true → g.done = true) ∧
    (∃ g ∈ ((s true false).jet 511).segs, g.entry = 7 ∧ g.isV = true ∧ g.done = false) ∧
    (Claims.Runs 511 15 busy ∧ (busy.jet 511).accBusy = true ∧ (busy.jet 511).findSeg 7 true = some (seg true true)) ∧
    (let v := slotWord 0 0
     enSess (slEntry v 7) ≠ 0 / rowsPerSess v ∧ enValid (slEntry v 7) < 1 ∧
      slWindow (v ||| 0x100000000#512) = true ∧ outOfWindow 5 4 (slWinlen v) = true) := by
  simp only [Claims.Runs]; decide +kernel

theorem witness_JetSelfTest :
    let s := jetted (runs (slotWord 15 0))
    let t := jetted (runs (slotWord 16 0))
    let h := jetted { runs (slotWord 15 0) with regs := [(1, 16384#32)], pats := [(16384, 0xFF)] }
    (Claims.Runs 511 15 t ∧ 16 ≤ slKernel ((t.jet 511).slot 15)) ∧
    (let z := jetted (runs (slotWord 0 0))
     Claims.Runs 511 15 z ∧ slKernel ((z.jet 511).slot 15) ≠ 15 ∧ slKernel ((z.jet 511).slot 15) < 14) ∧
    (slKernel ((s.jet 511).slot 15) = 15 ∧ ((s.jet 511).reg 1#4).toNat < 16384 ∧ ((s.jet 511).reg 1#4).toNat < 8 ∧
      8 ≤ ((s.jet 511).reg 2#4).toNat) ∧
    (Claims.Runs 511 15 s ∧ slKernel ((s.jet 511).slot 15) < 16 ∧ s.rowHidden 511 ((s.jet 511).reg 1#4).toNat = false ∧
      (∀ g ∈ rowGrains 511 ((s.jet 511).reg 1#4).toNat, s.grain g = List.replicate 512 (BitVec.ofNat 8 ((256#18).toNat % 256))) ∧
      511 * 2 ^ 17 + 63 ∈ rowGrains 511 ((s.jet 511).reg 1#4).toNat ∧
      s.grain (511 * 2 ^ 17 + 63) ≠ List.replicate 512 (BitVec.ofNat 8 ((0xFF#18).toNat % 256))) ∧
    (Claims.Runs 511 15 h ∧ slKernel ((h.jet 511).slot 15) < 16 ∧ h.rowHidden 511 ((h.jet 511).reg 1#4).toNat = true ∧
      Tbl.get? (h.jet 511).pats ((h.jet 511).reg 1#4).toNat = some ((0xFF#18).toNat % 256) ∧
      Tbl.get? (h.jet 511).pats ((h.jet 511).reg 1#4).toNat ≠ some ((0#18).toNat % 256)) := by
  simp only [Claims.Runs]; decide +kernel

/-! ### Witnesses over frames: frames that open -/

theorem leBytes_length (n v : Nat) : (leBytes n v).length = n := by
  induction n generalizing v with
  | zero => rfl
  | succ n ih => simp [leBytes, ih]

theorem beBytes_length (n v : Nat) : (beBytes n v).length = n := by simp [beBytes, leBytes_length]

theorem zip_zip (b k : List Byte) (h : b.length ≤ k.length) :
    List.zipWith (· ^^^ ·) (List.zipWith (· ^^^ ·) b k) k = b := by
  induction b generalizing k with
  | nil => simp
  | cons x t ih =>
    cases k with
    | nil => simp at h
    | cons y u => simp [ih u (by simpa using h)]

/-- Counter mode turns its own output back, and keeps the length. -/
theorem ctr_ctr (rks : List (List Nat)) (n : BitVec 96) (k : Nat) : ∀ (m i : Nat) (l : List Byte), l.length ≤ k → k ≤ m →
    (gcmCtr rks n i (chunks 16 k l)).length = l.length ∧
    gcmCtr rks n i (chunks 16 m (gcmCtr rks n i (chunks 16 k l))) = l := by
  induction k with
  | zero =>
    intro m i l hl _
    have : l = [] := List.length_eq_zero_iff.1 (Nat.le_zero.1 hl)
    subst this
    cases m <;> simp [chunks, gcmCtr]
  | succ k ih =>
    intro m i l hl hm
    cases m with
    | zero => simp at hm
    | succ m =>
      cases l with
      | nil => simp [chunks, gcmCtr]
      | cons x t =>
        generalize hb : x :: t = b
        have hb0 : b.isEmpty = false := by subst hb; rfl
        have hlen : b.length ≤ k + 1 := by subst hb; exact hl
        have hpos : 0 < b.length := by subst hb; simp
        obtain ⟨h1, h2⟩ := ih m (i + 1) (b.drop 16) (by rw [List.length_drop]; omega) (by omega)
        have e : gcmCtr rks n i (chunks 16 (k + 1) b) =
            List.zipWith (· ^^^ ·) (b.take 16) (beBytes 16 (aes256 rks (n.toNat * 2 ^ 32 + i))) ++
              gcmCtr rks n (i + 1) (chunks 16 k (b.drop 16)) := by
          show gcmCtr rks n i (if b.isEmpty then [] else _) = _
          rw [hb0]; rfl
        have hk : (beBytes 16 (aes256 rks (n.toNat * 2 ^ 32 + i))).length = 16 := beBytes_length _ _
        have e2 : ∀ c : List Byte, c.isEmpty = false → gcmCtr rks n i (chunks 16 (m + 1) c) =
            List.zipWith (· ^^^ ·) (c.take 16) (beBytes 16 (aes256 rks (n.toNat * 2 ^ 32 + i))) ++
              gcmCtr rks n (i + 1) (chunks 16 m (c.drop 16)) := by
          intro c hc
          show gcmCtr rks n i (if c.isEmpty then [] else _) = _
          rw [hc]; rfl
        generalize beBytes 16 (aes256 rks (n.toNat * 2 ^ 32 + i)) = ks at e hk e2
        generalize gcmCtr rks n (i + 1) (chunks 16 k (b.drop 16)) = r at e h1 h2
        have hz : (List.zipWith (· ^^^ ·) (b.take 16) ks).length = min 16 b.length := by simp [hk]
        have hr : r.length = b.length - 16 := by rw [h1, List.length_drop]
        rw [e]
        refine ⟨by rw [List.length_append, hz, hr]; omega, ?_⟩
        rw [e2 _ (by rw [List.isEmpty_eq_false_iff, Ne, ← List.length_eq_zero_iff, List.length_append, hz]; omega)]
        have tk : (List.zipWith (· ^^^ ·) (b.take 16) ks ++ r).take 16 = List.zipWith (· ^^^ ·) (b.take 16) ks ∧
            (List.zipWith (· ^^^ ·) (b.take 16) ks ++ r).drop 16 = r := by
          rcases Nat.lt_or_ge b.length 16 with hb | hb
          · have : r = [] := List.length_eq_zero_iff.1 (by omega)
            subst this
            rw [List.append_nil]
            exact ⟨List.take_of_length_le (by omega), List.drop_eq_nil_of_le (by omega)⟩
          · rw [List.take_append_of_le_length (by omega), List.drop_append_of_le_length (by omega), List.take_of_length_le (by omega),
              List.drop_eq_nil_of_le (by omega)]
            exact ⟨rfl, rfl⟩
        rw [tk.1, tk.2, h2, zip_zip _ _ (by rw [hk, List.length_take]; omega), List.take_append_drop]

/-- What a key seals, it opens. -/
theorem seal_open (k : Key) (n : BitVec 96) (aad pt : List Byte) :
    gcmOpen k n aad (gcmSeal k n aad pt).1 (gcmSeal k n aad pt).2 = some pt ∧ (gcmSeal k n aad pt).1.length = pt.length := by
  obtain ⟨a, b⟩ := ctr_ctr (aesKeys k) n pt.length pt.length 2 pt (Nat.le_refl _) (Nat.le_refl _)
  refine ⟨?_, a⟩
  unfold gcmOpen gcmSeal
  dsimp only
  rw [if_pos rfl]
  unfold pieces
  rw [a, b]

/-- The header of a one-frame message of node 9 for node 4: opcode, class, key slot and window. -/
def head (op : BitVec 8) (c : BitVec 2) (k : BitVec 10) (w : BitVec 20) : Hdr :=
  { status := 0#8, first := true, last := true, acknow := false, void := false, sync := false, fwd := false, opcode := op, rclass := c
    ver := 1#4, dst := 4#13, src := 9#13, seq := 0#24, keySlot := k, attempt := 0#16, window := w, offset := 0#40, gen := 0#16, imm := 0#32
    stamp := 0#64, ptag := 0#32, ctlCtr := 0#32, rsvd := 0#44 }

/-- A frame on port 0 with a header and a payload, sealed with key 1 under extended sequence e. -/
def framed (h : Hdr) (e : Nat) (pt : List Byte) : Frame :=
  let z := gcmSeal 1#256 (if isCtl h then nonceCtl h.src h.dst (h.offset.extractLsb' 32 8 ++ h.ctlCtr) 0#8
    else nonceData h.src h.dst h.rclass (BitVec.ofNat 40 e) h.attempt 0#8) (hdrBytes h) pt
  { port := 0, size := 134 + pt.length, fcsOk := true, macOk := true, tpid := 0x8100#16, vid := 0#12, ipVer := 6#4, ipNext := 17#8
    ipDst := 4#128, udpDst := 0xC243#16, udpSum := .zero, hdr := h, body := z.1, tag := z.2 }

/-- The state after step 5 of a frame. -/
def greeted (s : State) (h : Hdr) : State :=
  let t := s.clearUnreachable h.src.toNat
  if h.rclass = 1#2 && h.src.toNat == t.twinNode then { t with twin := { t.twin with heardAt := t.clk.ftime } } else t

/-- Step 5 lets such a frame pass where its slot has key 1 under epoch 0. -/
theorem framed_opens {s : State} {h : Hdr} {e : Nat} {pt : List Byte}
    (hs : (!(s.rx h.src.toNat h.rclass.toNat).synced && !isVoidSync h && !isCtl h) = false) (hb : s.slotBound h = true)
    (hk : s.recvKeys h.keySlot.toNat = [(1#256, 0#8, false)]) (he : s.extOf h = e) :
    State.authenticate s (framed h e pt) = (greeted s h, some pt) := by
  have hh : (framed h e pt).hdr = h := rfl
  have ho : s.openFrame (framed h e pt) e = some (pt, false) := by
    unfold State.openFrame
    rw [hh]
    dsimp only
    rw [hk]
    unfold tryKeys
    have hn : ((decide (h.opcode = opAck) || decide (h.opcode = opNak)) && !h.void) = isCtl h := by
      unfold isCtl; rw [Bool.and_comm]; rfl
    rw [hn]
    show (match gcmOpen 1#256 (if isCtl h then _ else _) (hdrBytes h) (framed h e pt).body (framed h e pt).tag with
      | some pt => some (pt, false) | none => _) = _
    unfold framed
    dsimp only
    rw [(seal_open _ _ _ pt).1]
  unfold State.authenticate
  rw [hh]
  dsimp only
  rw [hs, hb, he, ho]
  rfl

/-- Such a frame passes steps 1 to 4 at node 4 of an unchanged configuration. -/
theorem framed_wire {s : State} {h : Hdr} {e : Nat} {pt : List Byte} (hv : s.vid = 0) (ha : s.address = 4#128) (hu : s.udpPort = 0xC243)
    (hl : pt.length ≤ 8192) (h1 : h.ver = 1#4) (hs : (h.void && h.sync && h.offset.toNat % 2 ^ 24 != h.seq.toNat) = false)
    (hi : s.idValid = true) (hn : s.nodeId = 4) (hd : h.dst = 4#13) (hr : h.src = 9#13) : s.wireFault (framed h e pt) = none := by
  have hb : (framed h e pt).body.length = pt.length := by unfold framed; exact (seal_open _ _ (hdrBytes h) pt).2
  have hh : (framed h e pt).hdr = h := rfl
  unfold State.wireFault
  rw [hh, hb, hv, ha, hu]
  dsimp only
  rw [h1, hs, hi, hn, hd, hr]
  unfold framed
  dsimp only
  have a : ¬ 134 + pt.length < 64 := by omega
  have b : ¬ 9216 < 134 + pt.length := by omega
  have c : ¬ 8192 < pt.length := by omega
  simp [a, b, c]

/-- A queue of 16 entries, used ones among them, of a type. -/
def ring16 (t used : Nat) : Queue := { Queue.init with ctx := BitVec.ofNat 256 (t + 4 * 2 ^ 8 + used * 2 ^ 96) }

/-- A flow from node 9 that has set its state, and expects 0. -/
def flow : RxFlow :=
  { synced := true, e := 0, inc := 0#32, msg := none, discard := false, unacked := 0, oldest := none, ackDue := false, since := none
    ackAfter := false, syncDue := none, keyDue := none, oosDue := false, refusal := none, oosNak := none, syncNak := none, keyNak := none }

/-- Node 4 of a pair with node 9, in service: port 0 up, key 1 in slots 0, 1 and 149, window 4095 of partition 0 open to node 9 over grain
0, queue 9 its FABRIC queue, queue 1 a COMPLETION queue with used entries, a landing area of 1 MiB, and four flows from node 9. -/
def wired (x : RxFlow) (used : Nat) : State :=
  let k : KeySlot := { KeySlot.init with st := .active, kOld := 1#256 }
  let s := pairNode 4 9
  { s with
    cfg := { s.cfg with
      nodeCfg := nodeCfgReset ||| 0x2004#64
      maps := parted.cfg.maps
      windows := [(4095, BitVec.ofNat 256 (0xF * 2 ^ 84 + 1 * 2 ^ 96))]
      srcSets := [(0, BitVec.ofNat 8192 (2 ^ 9))] }
    sec := { s.sec with keys := [(0, k), (1, k), (149, k)] }
    slc := { s.slc with queues := [(1, ring16 3 used), (9, ring16 1 used)] }
    allocs := [{ first := 2048, len := 2048, use := .landing 0 }]
    wt := { s.wt with ports := [(0, { s.port 0 with up := true, gbps := 1792 })], rx := [(36, x), (37, x), (38, x), (39, x)] } }

/-- Node 4 in service takes a frame of node 9 with n bytes up to step 5. -/
def arrives (s : State) (h : Hdr) (n : Nat) : Bool :=
  s.serving && (s.port 0).up && (s.port 0).held.isEmpty && s.vid == 0 && s.address == 4#128 && s.udpPort == 0xC243 && s.idValid &&
    s.nodeId == 4 && decide (n ≤ 8192) && h.ver == 1#4 && !(h.void && h.sync && h.offset.toNat % 2 ^ 24 != h.seq.toNat) &&
    h.dst == 4#13 && h.src == 9#13

/-- It takes the frame to the end of step 5. -/
def takes (s : State) (h : Hdr) (e n : Nat) : Bool :=
  arrives s h n && !(!(s.rx h.src.toNat h.rclass.toNat).synced && !isVoidSync h && !isCtl h) && s.slotBound h &&
    s.recvKeys h.keySlot.toNat == [(1#256, 0#8, false)] && s.extOf h == e

theorem framed_comes {s : State} {h : Hdr} {e : Nat} {pt : List Byte} (k : arrives s h pt.length = true) :
    Claims.Arrives (framed h e pt) s := by
  unfold arrives at k
  simp only [Bool.and_eq_true, beq_iff_eq, decide_eq_true_eq, Bool.not_eq_true', List.isEmpty_iff] at k
  obtain ⟨⟨⟨⟨⟨⟨⟨⟨⟨⟨⟨⟨k1, k2⟩, k3⟩, k4⟩, k5⟩, k6⟩, k7⟩, k8⟩, k9⟩, k10⟩, k11⟩, k12⟩, k13⟩ := k
  exact ⟨⟨k1, by show 0 < 24; decide, k2⟩, framed_wire k4 k5 k6 k9 k10 k11 k7 k8 k12 k13, fun _ _ => k3⟩

theorem framed_arrives {s : State} {h : Hdr} {e : Nat} {pt : List Byte} (k : takes s h e pt.length = true) :
    Claims.Arrives (framed h e pt) s ∧
      State.authenticate { s with out := [] } (framed h e pt) = (greeted { s with out := [] } h, some pt) := by
  unfold takes at k
  simp only [Bool.and_eq_true, beq_iff_eq, Bool.not_eq_true'] at k
  obtain ⟨⟨⟨⟨k0, k14⟩, k15⟩, k16⟩, k17⟩ := k
  exact ⟨framed_comes k0, framed_opens (s := { s with out := [] }) k14 k15 k16 k17⟩

/-- What a frame of 08 R253's flow needs to be the one that it expects, after step 5. -/
def expects (h : Hdr) (u : State) : Bool :=
  !isCtl h && !h.void && seqAhead (u.rx h.src.toNat h.rclass.toNat).e h.seq == 0 && !(u.rx h.src.toNat h.rclass.toNat).discard &&
    !(h.rclass == 1#2 && h.src.toNat == u.twinNode && u.pairEn && u.bond.contains 0 && !isVoidSync h &&
      decide (1 ≤ seqAhead (u.rx h.src.toNat h.rclass.toNat).e h.seq ∧ seqAhead (u.rx h.src.toNat h.rclass.toNat).e h.seq < 64))

theorem framed_expected {u : State} {h : Hdr} {e : Nat} {pt : List Byte} (k : expects h u = true) : Claims.Expected (framed h e pt) u := by
  unfold expects at k
  simp only [Bool.and_eq_true, beq_iff_eq, Bool.not_eq_true'] at k
  obtain ⟨⟨⟨⟨k1, k2⟩, k3⟩, k4⟩, k5⟩ := k
  exact ⟨k1, k2, k3, k4, k5⟩

theorem framed_inOrder {i : Instr} {s : State} {h : Hdr} {e : Nat} {pt : List Byte}
    (f : Claims.frameOf i s = some (framed h e pt)) (k : takes s h e pt.length = true)
    (x : expects h (greeted { s with out := [] } h) = true) :
    Claims.InOrder i (framed h e pt) s (greeted { s with out := [] } h) pt :=
  ⟨f, (framed_arrives k).1, (framed_arrives k).2, framed_expected x⟩

/-- The node just before a frame's steps 6 to 12. -/
def before (s : State) (h : Hdr) : State := greeted { s with out := [] } h

/-! ### Witnesses: receiving frames -/

/-- Is an end of steps 8 to 12 an acceptance, a refusal with a status, or a hold? -/
def isOk : RxRes → Bool | .ok _ => true | _ => false
def isBad (st : Nat) : RxRes → Bool | .bad a _ => a == st | _ => false
def isHold : RxRes → Bool | .hold => true | _ => false

theorem ok_of {r : RxRes} (h : isOk r = true) : ∃ v, r = .ok v := by
  cases r with
  | ok v => exact ⟨v, rfl⟩
  | bad st t => exact nomatch h
  | hold => exact nomatch h

theorem bad_of {st : Nat} {r : RxRes} (h : isBad st r = true) : ∃ v, r = .bad st v := by
  cases r with
  | ok v => exact nomatch h
  | bad a t => exact ⟨t, by rw [eq_of_beq h]⟩
  | hold => exact nomatch h

theorem hold_of {r : RxRes} (h : isHold r = true) : r = .hold := by
  cases r with
  | ok v => exact nomatch h
  | bad a t => exact nomatch h
  | hold => rfl

/-- A WRITE of window 4095; its last bytes as WRITE_IMM; a frame that is VOID. -/
def writeHdr : Hdr := head opWrite 3#2 149#10 4095#20
def immHdr : Hdr := head opWriteImm 3#2 149#10 4095#20
def voidHdr (s : Bool) : Hdr := { head opVoid 3#2 0#10 0#20 with void := true, sync := s }
/-- A MIRROR one ahead of E. -/
def aheadHdr : Hdr := { head opMirror 1#2 1#10 0#20 with seq := 1#24 }

/-- The node with the flows that have set their state. -/
abbrev node4 : State := wired flow 0

/-- The same node bonded to its twin, by port 0 as well as ports 7 and 8. -/
def bonded : State :=
  let s := node4
  let s := { s with cfg := { s.cfg with twinCfg := BitVec.ofNat 64 (9 + 2 ^ 13 + 2 ^ 32) } }
  s.each [0, 7, 8] fun s p => s.updPort p fun x =>
    { x with direct := true, peer := some { brdId := 1#8, brdPos := 1#3, port := p, maxGbps := 448 } }

theorem witness_FrameSteps_drops :
    (let f := framed writeHdr 0 []
     Claims.frameOf (.write f) State.reset = some f ∧ ¬ Claims.Served f.port State.reset) ∧
    (let f := { framed writeHdr 0 [] with fcsOk := false }
     Claims.frameOf (.write f) node4 = some f ∧ Claims.Served f.port node4 ∧ node4.wireFault f = some pcFcs ∧
      Claims.frameOf (.malformedFrame f) node4 = some f) ∧
    (let f := framed writeHdr 0 []
     let s := node4.updPort 0 fun x => { x with held := [f] }
     Claims.Served f.port s ∧ s.wireFault f = none ∧ f.hdr.rclass = 3#2 ∧ isCtl f.hdr = false ∧ (s.port f.port).held ≠ []) ∧
    (let f := framed writeHdr 0 []
     let s := wired { flow with synced := false } 0
     Claims.frameOf (.write f) s = some f ∧ Claims.Arrives f s ∧ ∃ u, State.authenticate { s with out := [] } f = (u, none)) :=
  ⟨⟨rfl, fun h => nomatch h.1⟩, ⟨rfl, ⟨by decide +kernel, by decide, by decide +kernel⟩, rfl, rfl⟩,
    ⟨⟨by decide +kernel, by decide, rfl⟩,
      framed_wire (by decide +kernel) (by decide +kernel) (by decide +kernel) (by decide) rfl rfl (by decide +kernel) (by decide +kernel) rfl rfl,
      rfl, rfl, fun h => nomatch h⟩,
    rfl, framed_comes (by decide +kernel), _, rfl⟩

theorem witness_FrameSteps_flow :
    (let h := head opAck 3#2 0#10 0#20
     let f := framed h 0 []
     Claims.frameOf (.ack f) node4 = some f ∧ Claims.Arrives f node4 ∧
      State.authenticate { node4 with out := [] } f = (before node4 h, some []) ∧ isCtl h = true) ∧
    (let h := voidHdr true
     let f := framed h 0 []
     let s := wired { flow with synced := false } 0
     Claims.frameOf (.voidSync f) s = some f ∧ Claims.Arrives f s ∧ State.authenticate { s with out := [] } f = (before s h, some []) ∧
      isCtl h = false ∧ isVoidSync h = true ∧ (Claims.flow f (before s h)).synced = false) ∧
    (let h := voidHdr false
     let f := framed h 0 []
     Claims.frameOf (.void f) node4 = some f ∧ Claims.Arrives f node4 ∧
      State.authenticate { node4 with out := [] } f = (before node4 h, some []) ∧ isCtl h = false ∧ h.void = true ∧ h.sync = false ∧
      seqAhead (Claims.flow f (before node4 h)).e h.seq = 0 ∧ (before node4 h).reorders f = false) ∧
    (∀ n ∈ [1#24, 0x7FFFFF#24], let h := { writeHdr with seq := n }
     let f := framed h n.toNat []
     Claims.frameOf (.write f) node4 = some f ∧ Claims.Arrives f node4 ∧
      State.authenticate { node4 with out := [] } f = (before node4 h, some []) ∧ isCtl h = false ∧ isVoidSync h = false ∧
      (before node4 h).reorders f = false ∧ 0 < seqAhead (Claims.flow f (before node4 h)).e h.seq ∧
      seqAhead (Claims.flow f (before node4 h)).e h.seq < 2 ^ 23) ∧
    (let h := { writeHdr with seq := 0x800000#24 }
     let f := framed h (2 ^ 40 - 2 ^ 23) []
     Claims.Arrives f node4 ∧ State.authenticate { node4 with out := [] } f = (before node4 h, some []) ∧ isCtl h = false ∧
      isVoidSync h = false ∧ (before node4 h).reorders f = false ∧ 2 ^ 23 ≤ seqAhead (Claims.flow f (before node4 h)).e h.seq) ∧
    (let f := framed aheadHdr 1 []
     let u := before bonded aheadHdr
     Claims.frameOf (.mirror f) bonded = some f ∧ Claims.Arrives f bonded ∧ State.authenticate { bonded with out := [] } f = (u, some []) ∧
      isCtl aheadHdr = false ∧ aheadHdr.void = false ∧ u.reorders f = true ∧ u.wt.reorder = []) := by
  refine ⟨⟨rfl, (framed_arrives (by decide +kernel)).1, (framed_arrives (by decide +kernel)).2, rfl⟩,
    ⟨rfl, (framed_arrives (by decide +kernel)).1, (framed_arrives (by decide +kernel)).2, rfl, rfl, by decide +kernel⟩,
    ⟨rfl, (framed_arrives (by decide +kernel)).1, (framed_arrives (by decide +kernel)).2, rfl, rfl, rfl, by decide +kernel,
      by decide +kernel⟩, ?_,
    ⟨(framed_arrives (by decide +kernel)).1, (framed_arrives (by decide +kernel)).2, rfl, rfl, by decide +kernel, by decide +kernel⟩,
    ⟨rfl, (framed_arrives (by decide +kernel)).1, (framed_arrives (by decide +kernel)).2, rfl, rfl, by decide +kernel, by decide +kernel⟩⟩
  intro n hn
  rcases List.mem_cons.1 hn with rfl | hn
  · exact ⟨rfl, (framed_arrives (by decide +kernel)).1, (framed_arrives (by decide +kernel)).2, rfl, rfl, by decide +kernel,
      by decide +kernel, by decide +kernel⟩
  · rw [List.mem_singleton.1 hn]
    exact ⟨rfl, (framed_arrives (by decide +kernel)).1, (framed_arrives (by decide +kernel)).2, rfl, rfl, by decide +kernel,
      by decide +kernel, by decide +kernel⟩

/-- A payload and a frame's header that open in order at a node for a command. -/
def ordered (i : Frame → Instr) (s : State) (h : Hdr) (pt : List Byte) : Prop :=
  Claims.InOrder (i (framed h 0 pt)) (framed h 0 pt) s (before s h) pt

theorem ordered_of {i : Frame → Instr} {s : State} {h : Hdr} {pt : List Byte}
    (f : Claims.frameOf (i (framed h 0 pt)) s = some (framed h 0 pt)) (k : takes s h 0 pt.length = true)
    (x : expects h (before s h) = true) : ordered i s h pt := framed_inOrder f k x

theorem witness_FrameSteps_steps :
    (ordered .write node4 writeHdr [] ∧ ∃ v, (before node4 writeHdr).rxSteps writeHdr [] = .ok v) ∧
    (let h := { writeHdr with gen := 1#16 }
     ordered .write node4 h [] ∧ (∃ v, (before node4 h).rxSteps h [] = .bad stRevoked v) ∧
      ((before node4 h).rx 9 3).refusal = none) ∧
    (let s := wired flow 16
     ordered .writeImm s immHdr [] ∧ (before s immHdr).rxSteps immHdr [] = .hold) :=
  ⟨⟨ordered_of rfl (by decide +kernel) (by decide +kernel), ok_of (by decide +kernel)⟩,
    ⟨ordered_of rfl (by decide +kernel) (by decide +kernel), bad_of (by decide +kernel), by decide +kernel⟩,
    ordered_of rfl (by decide +kernel) (by decide +kernel), hold_of (by decide +kernel)⟩

/-! ### Witnesses: writes, reads and mailbox commands over transport -/

/-- A write of one byte to a zero grain that passes its checks is not refused. -/
theorem byte_write {s : State} {w o : Nat} (b : Byte) (ha : s.windowAddr w o = 0) (h : s.grainFault eccNone 0 = none) :
    ∃ v, s.writeWindow w o [b] = some v := by
  have p : writeParts 0 [b] = [(0, 0, [b])] := rfl
  have r : s.writeRefused eccNone 0 [b] = none := by
    unfold State.writeRefused
    rw [p, List.findSome?_cons]
    dsimp only
    rw [h]
    rfl
  unfold State.writeWindow
  dsimp only
  rw [ha, r]
  exact ⟨_, rfl⟩

/-- Grain 0 is a zero grain in order. -/
def zero0 (s : State) : Bool :=
  !s.badGrains.contains 0 && !s.grainLost 0 && (s.allocOf 0).isNone && sideTag (s.sideOf 0) == 0x30FCEDC0#32 &&
    s.grain 0 == List.replicate 512 0#8

theorem zero0_fault {s : State} (h : zero0 s = true) : s.grainFault eccNone 0 = none := by
  unfold zero0 at h
  simp only [Bool.and_eq_true, Bool.not_eq_true', beq_iff_eq, Option.isNone_iff_eq_none] at h
  obtain ⟨⟨⟨⟨h1, h2⟩, h3⟩, h4⟩, h5⟩ := h
  exact grain_checks h1 h2 h3 h5 (by rw [test_zero_grain_tag]; exact h4)

/-- A header with the PTAG of a payload. -/
def tagged (h : Hdr) (pt : List Byte) : Hdr := { h with ptag := crc32c pt }

/-- Node 4 with grain 0 out of order. -/
def broken : State := { node4 with badGrains := [0] }

/-- The WRITE and the WRITE_IMM of one byte. -/
def write7 : Hdr := tagged writeHdr [7#8]
def imm7 (l : Bool) : Hdr := { tagged immHdr [7#8] with last := l }

theorem witness_WritesAndReads_writes :
    (ordered .write node4 write7 [7#8] ∧ Claims.Checked write7 [7#8] (before node4 write7) ∧
      ∃ v, (before node4 write7).writeWindow write7.window.toNat write7.offset.toNat [7#8] = some v) ∧
    (ordered .write broken write7 [7#8] ∧ Claims.Checked write7 [7#8] (before broken write7) ∧
      (before broken write7).writeWindow write7.window.toNat write7.offset.toNat [7#8] = none ∧
      ((before broken write7).rx 9 3).refusal = none) ∧
    (∀ l : Bool, ordered .writeImm node4 (imm7 l) [7#8] ∧ Claims.Checked (imm7 l) [7#8] (before node4 (imm7 l)) ∧
      (∃ v, (before node4 (imm7 l)).writeWindow (imm7 l).window.toNat (imm7 l).offset.toNat [7#8] = some v) ∧
      (before node4 (imm7 l)).cqFree (winCq ((before node4 (imm7 l)).window (imm7 l).window.toNat)) ≠ 0) ∧
    (let s := wired flow 16
     ordered .writeImm s (imm7 true) [7#8] ∧ Claims.Checked (imm7 true) [7#8] (before s (imm7 true)) ∧
      (∃ v, (before s (imm7 true)).writeWindow (imm7 true).window.toNat (imm7 true).offset.toNat [7#8] = some v) ∧
      (before s (imm7 true)).cqFree (winCq ((before s (imm7 true)).window (imm7 true).window.toNat)) = 0) ∧
    (ordered .writeImm broken (imm7 true) [7#8] ∧ Claims.Checked (imm7 true) [7#8] (before broken (imm7 true)) ∧
      (before broken (imm7 true)).writeWindow (imm7 true).window.toNat (imm7 true).offset.toNat [7#8] = none) := by
  simp only [Claims.Checked]
  refine ⟨⟨ordered_of rfl (by decide +kernel) (by decide +kernel), by decide +kernel,
      byte_write _ (by decide +kernel) (zero0_fault (by decide +kernel))⟩,
    ⟨ordered_of rfl (by decide +kernel) (by decide +kernel), by decide +kernel⟩, ?_,
    ⟨ordered_of rfl (by decide +kernel) (by decide +kernel), by decide +kernel,
      byte_write _ (by decide +kernel) (zero0_fault (by decide +kernel)), by decide +kernel⟩,
    ⟨ordered_of rfl (by decide +kernel) (by decide +kernel), by decide +kernel⟩⟩
  intro l
  cases l
  · exact ⟨ordered_of rfl (by decide +kernel) (by decide +kernel), by decide +kernel,
      byte_write _ (by decide +kernel) (zero0_fault (by decide +kernel)), by decide +kernel⟩
  · exact ⟨ordered_of rfl (by decide +kernel) (by decide +kernel), by decide +kernel,
      byte_write _ (by decide +kernel) (zero0_fault (by decide +kernel)), by decide +kernel⟩

/-- A command for mailbox 16 of partition 15 over transport; here partition 0's, mailbox 1. -/
def mailHdr : Hdr := tagged (head opWriteImm 0#2 149#10 0x10001#20) (List.replicate 16 0#8)

/-- A mailbox command of transport that waits. -/
def waiting : BitVec 16 × AgtanCmd := (0#16, { cmd true 0 [] with path := .wt 9#13 149#10 0x10001#20 0#32 })

/-- A message that node 4 forwarded, with its request tag. -/
def forwarded : Fwd :=
  { id := 0, cmd := none
    msg := some { id := 0, origin := .fabric 7#13 149#10 4095#20 0#16 0x100#32 false, opcode := opAppend, part := 0, queue := 9, ring := 0
                  payload := [], offset := 0, landAt := 0, waitAt := none, dlNs := none } }

/-- Its completion by the twin. -/
def doneHdr : Hdr := { head opWriteImm 2#2 149#10 4095#20 with imm := 0x100#32 }

/-- A READ_REQ of one byte, and its header. -/
def readBytes16 : List Byte := leBytes 16 1
def readHdr : Hdr := tagged (head opReadReq 3#2 149#10 4095#20) readBytes16

theorem witness_WritesAndReads_mail :
    (let s := node4.updMbox 1 fun x => { x with kept := [(9, 0#16, [])] }
     let pt := List.replicate 16 0#8
     ordered .writeImmMailbox s mailHdr pt ∧ Claims.Checked mailHdr pt (before s mailHdr) ∧
      (before s mailHdr).isForwardDone mailHdr = false ∧ mailHdr.fwd = false ∧
      (((before s mailHdr).mbox (mailHdr.window.toNat - 0x10000)).kept.find? fun k =>
        k.1 == mailHdr.src.toNat && k.2.1 == mailHdr.imm.extractLsb' 0 16) = some (9, 0#16, [])) ∧
    (∀ n ∈ [7, 8], let s := node4.updMbox 1 fun x => { x with accepted := List.replicate n waiting }
     let pt := List.replicate 16 0#8
     ordered .writeImmMailbox s mailHdr pt ∧ Claims.Checked mailHdr pt (before s mailHdr) ∧
      (before s mailHdr).isForwardDone mailHdr = false ∧
      (((before s mailHdr).mbox (mailHdr.window.toNat - 0x10000)).kept.find? fun k =>
        k.1 == mailHdr.src.toNat && k.2.1 == mailHdr.imm.extractLsb' 0 16) = none ∧
      ((((before s mailHdr).mbox (mailHdr.window.toNat - 0x10000)).accepted ++
        ((before s mailHdr).mbox (mailHdr.window.toNat - 0x10000)).parked).filter fun x => onTransport x.2).length = n ∧
      ((before s mailHdr).rx 9 0).refusal = none) ∧
    (let s := { node4 with twin := { node4.twin with forwards := [forwarded] } }
     ordered .forwardCompletion s doneHdr [] ∧ Claims.Checked doneHdr [] (before s doneHdr) ∧
      (before s doneHdr).isForwardDone doneHdr = true ∧ (before s doneHdr).forwardOf doneHdr = some forwarded) := by
  simp only [Claims.Checked]
  refine ⟨⟨ordered_of rfl (by decide +kernel) (by decide +kernel), by decide +kernel⟩, ?_,
    ⟨ordered_of rfl (by decide +kernel) (by decide +kernel), by decide +kernel⟩⟩
  intro n hn
  rcases List.mem_cons.1 hn with rfl | hn
  · exact ⟨ordered_of rfl (by decide +kernel) (by decide +kernel), by decide +kernel⟩
  · rw [List.mem_singleton.1 hn]
    exact ⟨ordered_of rfl (by decide +kernel) (by decide +kernel), by decide +kernel⟩

theorem witness_WritesAndReads_reads :
    (∀ n ∈ [15, 16], let s := wired flow n
     let u := before s readHdr
     ordered .readReq s readHdr readBytes16 ∧ Claims.Checked readHdr readBytes16 u ∧ u.ownerOfWindow readHdr.window.toNat = some 0 ∧
      (u.queue (u.fabricQueue 0 readHdr.src.toNat)).lands = true ∧ u.ownerOfQueue (u.fabricQueue 0 readHdr.src.toNat) = some 0 ∧
      qUsed (u.queue (u.fabricQueue 0 readHdr.src.toNat)).ctx = n ∧ qSize (u.queue (u.fabricQueue 0 readHdr.src.toNat)).ctx = 16 ∧
      u.landRoom 0 readBytes16.length = true) ∧
    (let f := framed immHdr 0 []
     let s := (wired flow 16).updPort 0 fun x => { x with held := [f], heldSince := some 0 }
     (s.upTo 1000000).serving = true ∧ ((s.upTo 1000000).port 0).held = [f] ∧ ((s.upTo 1000000).port 0).heldSince = some 0 ∧
      (s.upTo 1000000).waitsForCq f = true ∧ 0 + 1000000 ≤ (s.upTo 1000000).clk.ftime) ∧
    (let s := { node4 with slc := { node4.slc with reqs := [(0, request opReadReq [])] } }
     (s.upTo 500).serving = true ∧ (s.upTo 500).req? 0 = some (request opReadReq []) ∧ (request opReadReq []).complete = false ∧
      (request opReadReq []).msg.opcode = opReadReq ∧ (request opReadReq []).dlNs ≤ (s.upTo 500).clk.ftime) := by
  simp only [Claims.Checked]
  refine ⟨?_, ⟨by decide +kernel, rfl, rfl, by decide +kernel, by decide +kernel⟩, by decide +kernel⟩
  intro n hn
  rcases List.mem_cons.1 hn with rfl | hn
  · exact ⟨ordered_of rfl (by decide +kernel) (by decide +kernel), by decide +kernel⟩
  · rw [List.mem_singleton.1 hn]
    exact ⟨ordered_of rfl (by decide +kernel) (by decide +kernel), by decide +kernel⟩

/-! ### Witnesses: request frames, messages between nodes -/

/-- A frame of a request through window 4095. -/
def reqHdr (op : BitVec 8) : Hdr := head op 3#2 149#10 4095#20

/-- The message in hand that it goes on with. -/
def inHand (op : BitVec 8) : OpenMsg := { hdr := reqHdr op, payload := [], queue := 9, ring := 0, tagBad := false }

theorem witness_RequestFrames_opcodes :
    (ordered .attend node4 (reqHdr opAttend) [] ∧ ordered .append node4 (reqHdr opAppend) []) ∧
    (ordered .ingest node4 (reqHdr opIngest) [] ∧ ordered .commit node4 (reqHdr opCommit) []) :=
  ⟨⟨ordered_of rfl (by decide +kernel) (by decide +kernel), ordered_of rfl (by decide +kernel) (by decide +kernel)⟩,
    ordered_of rfl (by decide +kernel) (by decide +kernel), ordered_of rfl (by decide +kernel) (by decide +kernel)⟩

/-- The hypotheses on a FIRST frame of a request at a node with n entries in its queue, before its LAST checks. -/
def firstOk (s : State) (h : Hdr) (n : Nat) : Bool :=
  let u := before s h
  let q := u.fabricQueue 0 9
  u.frameFields h [] && (u.rx 9 3).msg.isNone && framingOk h [] none && u.ownerOfWindow h.window.toNat == some 0 && (u.queue q).lands &&
    u.ownerOfQueue q == some 0 && qUsed (u.queue q).ctx == n && qSize (u.queue q).ctx == 16 && u.landRoom 0 0 && (u.rx 9 3).refusal.isNone

/-- The status of its LAST checks. -/
def firstEnd (s : State) (h : Hdr) : Nat :=
  let u := before s h
  let q := u.fabricQueue 0 9
  ((u.claimRing q).2.takeLand 0 q (u.claimRing q).1 []).requestStatus 9
    { hdr := h, payload := [], queue := q, ring := (u.claimRing q).1, tagBad := !ptagOk h [] }

theorem witness_RequestFrames_first :
    (firstOk node4 (reqHdr opAttend) 0 = true ∧ firstEnd node4 (reqHdr opAttend) = stOk ∧ firstOk node4 (reqHdr opAppend) 0 = true ∧
      firstEnd node4 (reqHdr opAppend) = stOk ∧ firstOk node4 (reqHdr opIngest) 0 = true ∧ firstEnd node4 (reqHdr opIngest) = stOk ∧
      firstOk node4 (reqHdr opCommit) 0 = true ∧ firstEnd node4 (reqHdr opCommit) = stOk) ∧
    (let h := { reqHdr opAttend with ptag := 1#32 }
     ordered .attend node4 h [] ∧ firstOk node4 h 0 = true ∧ firstEnd node4 h = stTag ∧ h.last = true) ∧
    (let h := { reqHdr opAttend with last := false }
     ordered .attend node4 h [] ∧ firstOk node4 h 0 = true ∧ h.last = false) ∧
    (let s := wired flow 16
     ordered .attend s (reqHdr opAttend) [] ∧ firstOk s (reqHdr opAttend) 16 = true) :=
  ⟨by decide +kernel, ⟨ordered_of rfl (by decide +kernel) (by decide +kernel), by decide +kernel⟩,
    ⟨ordered_of rfl (by decide +kernel) (by decide +kernel), by decide +kernel⟩,
    ordered_of rfl (by decide +kernel) (by decide +kernel), by decide +kernel⟩

/-- The node with a message of an opcode in hand, its landing area full or not. -/
def halfway (op : BitVec 8) (full : Bool) : State :=
  let s := wired { flow with msg := some (inHand op) } 1
  { s.updQueue 9 fun q => { q with ring := [(0, false)], nextId := 1 } with
    slc := { (s.updQueue 9 fun q => { q with ring := [(0, false)], nextId := 1 }).slc with
      land := if full then [{ part := 0, queue := 9, ring := 0, off := 0, len := 1048576 }] else [] } }

/-- The hypotheses on a later frame. -/
def laterOk (s : State) (op : BitVec 8) (h : Hdr) (pt : List Byte) (room : Bool) : Bool :=
  let u := before s h
  u.frameFields h pt && (u.rx 9 3).msg == some (inHand op) && framingOk h pt (some (inHand op)) && (inHand op).queue != noQueue &&
    u.ownerOfQueue (inHand op).queue == some 0 && u.landRoom 0 pt.length == room && (u.rx 9 3).refusal.isNone

/-- The status of its LAST checks. -/
def laterEnd (s : State) (op : BitVec 8) (h : Hdr) (pt : List Byte) : Nat :=
  ((before s h).takeLand 0 9 0 pt).requestStatus 9
    { inHand op with payload := (inHand op).payload ++ pt, tagBad := (inHand op).tagBad || !ptagOk h pt }

/-- A later frame of one byte. -/
def lateHdr (op : BitVec 8) : Hdr := { tagged (reqHdr op) [7#8] with first := false }

theorem witness_RequestFrames_later :
    (let s := halfway opIngest false
     ordered .ingest s (lateHdr opIngest) [7#8] ∧ laterOk s opIngest (lateHdr opIngest) [7#8] true = true ∧
      laterEnd s opIngest (lateHdr opIngest) [7#8] = stOk) ∧
    (let s := halfway opAttend false
     let h := { lateHdr opAttend with ptag := 0#32 }
     ordered .attend s h [7#8] ∧ laterOk s opAttend h [7#8] true = true ∧ laterEnd s opAttend h [7#8] = stTag) ∧
    (let s := halfway opCommit false
     let h := { lateHdr opCommit with last := false }
     ordered .commit s h [7#8] ∧ laterOk s opCommit h [7#8] true = true ∧ h.last = false) ∧
    (let s := halfway opAppend true
     ordered .append s (lateHdr opAppend) [7#8] ∧ laterOk s opAppend (lateHdr opAppend) [7#8] false = true) ∧
    (let h := reqHdr opCancel
     let u := before node4 h
     ordered .cancel node4 h [] ∧ (u.frameWindow h [] = stOk ∧ u.frameFields h [] = true ∧ framingOk h [] (u.rx 9 3).msg = true ∧
      ptagOk h [] = true) ∧ h.last = true ∧ (u.rx 9 3).msg = none ∧ u.ownerOfWindow h.window.toNat = some 0) ∧
    live.serving = true :=
  ⟨⟨ordered_of rfl (by decide +kernel) (by decide +kernel), by decide +kernel⟩,
    ⟨ordered_of rfl (by decide +kernel) (by decide +kernel), by decide +kernel⟩,
    ⟨ordered_of rfl (by decide +kernel) (by decide +kernel), by decide +kernel⟩,
    ⟨ordered_of rfl (by decide +kernel) (by decide +kernel), by decide +kernel⟩,
    ⟨ordered_of rfl (by decide +kernel) (by decide +kernel), by decide +kernel⟩, by decide +kernel⟩

/-- The headers of the messages between the twins and of the directory, for a payload. -/
def hedgeHdr (l : Bool) (pt : List Byte) : Hdr := { tagged (head opHedge 0#2 149#10 4095#20) pt with last := l }
def mirrorHdr (l : Bool) (pt : List Byte) : Hdr := { tagged (head opMirror 1#2 1#10 0#20) pt with last := l }
def updateHdr (l : Bool) (pt : List Byte) : Hdr := { tagged (head opDirUpdate 0#2 0#10 0#20) pt with last := l }

/-- One record of kind 0, of a key's pair, for epoch 1 at 200 us. -/
def updateBytes : List Byte := leBytes 32 (1 + 200000 * 2 ^ 64 + 2 ^ 128) ++ word 0

/-- A message's header opens in order, passes steps 8 to 11, and nothing is in hand. -/
def whole (i : Frame → Instr) (h : Hdr) (pt : List Byte) : Prop :=
  ordered i node4 h pt ∧ Claims.Checked h pt (before node4 h) ∧ ((before node4 h).rx 9 h.rclass.toNat).msg = none ∧
    ((before node4 h).rx 9 h.rclass.toNat).refusal = none

theorem whole_of {i : Frame → Instr} {h : Hdr} {pt : List Byte}
    (f : Claims.frameOf (i (framed h 0 pt)) node4 = some (framed h 0 pt)) (k : takes node4 h 0 pt.length = true)
    (x : expects h (before node4 h) = true)
    (c : ((before node4 h).frameWindow h pt == stOk && (before node4 h).frameFields h pt &&
      framingOk h pt ((before node4 h).rx h.src.toNat h.rclass.toNat).msg && ptagOk h pt &&
      ((before node4 h).rx 9 h.rclass.toNat).msg.isNone && ((before node4 h).rx 9 h.rclass.toNat).refusal.isNone) = true) :
    whole i h pt := by
  simp only [Bool.and_eq_true, beq_iff_eq, Option.isNone_iff_eq_none] at c
  obtain ⟨⟨⟨⟨⟨a1, a2⟩, a3⟩, a4⟩, a5⟩, a6⟩ := c
  exact ⟨ordered_of f k x, ⟨a1, a2, a3, a4⟩, a5, a6⟩

theorem witness_MessageFrames_parts :
    whole .hedge (hedgeHdr false []) [] ∧ whole .mirror (mirrorHdr false []) [] ∧ whole .dirUpdate (updateHdr false []) [] ∧
    (hedgeHdr false []).last = false :=
  ⟨whole_of rfl (by decide +kernel) (by decide +kernel) (by decide +kernel),
    whole_of rfl (by decide +kernel) (by decide +kernel) (by decide +kernel),
    whole_of rfl (by decide +kernel) (by decide +kernel) (by decide +kernel), rfl⟩

theorem witness_MessageFrames_hedge :
    (let pt := List.replicate 64 0#8
     whole .hedge (hedgeHdr true pt) pt ∧ hgOk pt = true) ∧
    (whole .hedge (hedgeHdr true []) [] ∧ hgOk [] = false) ∧
    whole .hedgeClaim (head opHedgeClaim 0#2 149#10 0#20) [] :=
  ⟨⟨whole_of rfl (by decide +kernel) (by decide +kernel) (by decide +kernel), by decide +kernel⟩,
    ⟨whole_of rfl (by decide +kernel) (by decide +kernel) (by decide +kernel), by decide +kernel⟩,
    whole_of rfl (by decide +kernel) (by decide +kernel) (by decide +kernel)⟩

theorem witness_MessageFrames_twin :
    (whole .mirror (mirrorHdr true []) [] ∧ ((before node4 (mirrorHdr true [])).takeMirror (1 - 1) []).1 = stOk) ∧
    (let pt := List.replicate 32 0#8
     whole .mirror (mirrorHdr true pt) pt ∧ ((before node4 (mirrorHdr true pt)).takeMirror (1 - 1) pt).1 = stFormat) ∧
    whole .mirrorAck (tagged (head opMirrorAck 1#2 1#10 0#20) (word 1)) (word 1) :=
  ⟨⟨whole_of rfl (by decide +kernel) (by decide +kernel) (by decide +kernel), by decide +kernel⟩,
    ⟨whole_of rfl (by decide +kernel) (by decide +kernel) (by decide +kernel), by decide +kernel⟩,
    whole_of rfl (by decide +kernel) (by decide +kernel) (by decide +kernel)⟩

theorem witness_MessageFrames_directory :
    (whole .dirUpdate (updateHdr true updateBytes) updateBytes ∧
      ((before node4 (updateHdr true updateBytes)).takeDirUpdate updateBytes).2 = stOk) ∧
    (whole .dirUpdate (updateHdr true []) [] ∧ ((before node4 (updateHdr true [])).takeDirUpdate []).2 = stFormat) ∧
    whole .dirQuery (tagged (head opDirQuery 0#2 0#10 0#20) (word 0)) (word 0) ∧
    (let h := head 0x7F#8 0#2 149#10 4095#20
     ordered .undefinedOpcode node4 h [] ∧ (before node4 h).frameWindow h [] = stOk ∧ ((before node4 h).rx 9 0).refusal = none) :=
  ⟨⟨whole_of rfl (by decide +kernel) (by decide +kernel) (by decide +kernel), by decide +kernel⟩,
    ⟨whole_of rfl (by decide +kernel) (by decide +kernel) (by decide +kernel), by decide +kernel⟩,
    whole_of rfl (by decide +kernel) (by decide +kernel) (by decide +kernel),
    ordered_of rfl (by decide +kernel) (by decide +kernel), by decide +kernel⟩

/-! ### Witnesses: sender flows, ports -/

/-- A frame that answers a mailbox command, sent to node 9 on class 0 or waiting. -/
def txFrame : TxFrame :=
  { dst := 9#13, rclass := 0#2, pclass := 0, opcode := opWriteImm, first := true, last := true, fwd := false, status := 0#8
    keySlot := 149#10, window := 4095#20, gen := 0#16, offset := 0#40, imm := 0#32, pay := .bytes [], msg := 0, voided := false
    done := .response }

/-- Node 4 with a flow to node 9 on class 0 that has sent that frame, with expiries. -/
def sending (k : Nat) : State :=
  node4.setTx 9 0 { node4.tx 9 0 with
    next := 1, sent := [{ seq := 0, attempt := 1, keyNaks := 0, fr := txFrame }], timerAt := some 0, expiries := k, needSync := false }

/-- An ACK or NAK of node 9 on class 0. -/
def ctlHdr (op : BitVec 8) (q : BitVec 24) (st : BitVec 8) (sync : Bool) : Hdr :=
  { head op 0#2 0#10 0#20 with seq := q, status := st, sync := sync }

/-- It opens at a node. -/
def opensCtl (i : Frame → Instr) (s : State) (h : Hdr) : Prop :=
  Claims.frameOf (i (framed h 0 [])) s = some (framed h 0 []) ∧ Claims.Arrives (framed h 0 []) s ∧
    State.authenticate { s with out := [] } (framed h 0 []) = (before s h, some []) ∧ isCtl h = true

theorem opensCtl_of {i : Frame → Instr} {s : State} {h : Hdr} (f : Claims.frameOf (i (framed h 0 [])) s = some (framed h 0 []))
    (k : takes s h (s.extOf h) 0 = true) (c : isCtl h = true) (e : s.extOf h = 0) : opensCtl i s h :=
  ⟨f, (framed_arrives (by rw [e] at k; exact k)).1, (framed_arrives (by rw [e] at k; exact k)).2, c⟩

/-- Does an ACK or NAK name a sequence beyond NEXT? -/
def beyondOf (s : State) (h : Hdr) : Bool := ((before s h).tx 9 0).beyond (((before s h).tx 9 0).named h.seq)

theorem witness_SenderFlows_answers :
    (let h := ctlHdr opAck 0#24 0#8 false
     opensCtl .ack (sending 0) h ∧ beyondOf (sending 0) h = false) ∧
    (let h := ctlHdr opNak 0#24 0#8 false
     opensCtl .nak (sending 0) h ∧ beyondOf (sending 0) h = false ∧ h.sync = false ∧ h.status = 0#8 ∧
      ((before (sending 0) h).tx 9 0).backFrom = none) ∧
    (let h := ctlHdr opNak 0#24 0#8 true
     opensCtl .nak (sending 0) h ∧ beyondOf (sending 0) h = false ∧ h.sync = true) ∧
    (let h := ctlHdr opNak 0#24 (BitVec.ofNat 8 stKey) false
     opensCtl .nak (sending 0) h ∧ beyondOf (sending 0) h = false ∧ h.status ≠ 0#8 ∧ h.status.toNat = stKey) ∧
    (let h := ctlHdr opNak 0#24 (BitVec.ofNat 8 stTag) false
     opensCtl .nak (sending 0) h ∧ beyondOf (sending 0) h = false ∧ h.status ≠ 0#8 ∧ h.status.toNat ≠ stKey) :=
  ⟨⟨opensCtl_of rfl (by decide +kernel) rfl (by decide +kernel), by decide +kernel⟩,
    ⟨opensCtl_of rfl (by decide +kernel) rfl (by decide +kernel), by decide +kernel⟩,
    ⟨opensCtl_of rfl (by decide +kernel) rfl (by decide +kernel), by decide +kernel⟩,
    ⟨opensCtl_of rfl (by decide +kernel) rfl (by decide +kernel), by decide +kernel⟩,
    ⟨opensCtl_of rfl (by decide +kernel) rfl (by decide +kernel), by decide +kernel⟩⟩

theorem witness_SenderFlows_beyond :
    (let h := ctlHdr opAck 2#24 0#8 false
     (∃ e, Claims.Arrives (framed h e []) (sending 0) ∧
      State.authenticate { sending 0 with out := [] } (framed h e []) = (before (sending 0) h, some [])) ∧
      beyondOf (sending 0) h = true) ∧
    (let h := ctlHdr opNak 2#24 0#8 false
     (∃ e, Claims.Arrives (framed h e []) (sending 0) ∧
      State.authenticate { sending 0 with out := [] } (framed h e []) = (before (sending 0) h, some [])) ∧
      beyondOf (sending 0) h = true) :=
  ⟨⟨⟨2, framed_arrives (by decide +kernel)⟩, by decide +kernel⟩, ⟨2, framed_arrives (by decide +kernel)⟩, by decide +kernel⟩

theorem witness_SenderFlows_timers :
    (((sending 0).tx 9 0).una < 1 ∧ 1 ≤ ((sending 0).tx 9 0).next) ∧
    (let s := wired { flow with oldest := some 0 } 0
     (s.upTo 2000).serving = true ∧ ((s.upTo 2000).rx 9 (0#2).toNat).oldest = some 0 ∧ 0 + 2000 ≤ (s.upTo 2000).clk.ftime) ∧
    (∀ k ∈ [6, 7], (sending k).serving = true ∧ ((sending k).tx 9 (0#2).toNat).timerAt = some 0 ∧
      0 ≤ ((sending k).upTo 0).clk.ftime ∧ ((sending k).tx 9 (0#2).toNat).sent ≠ [] ∧ ((sending k).tx 9 (0#2).toNat).expiries = k) ∧
    (let s := { node4 with wt := { node4.wt with unreachable := [(9, 0)], probes := [(9, 0)] } }
     (s.upTo 1000000).serving = true ∧ (s.upTo 1000000).idValid = true ∧ (s.upTo 1000000).slot0 = true ∧
      (s.upTo 1000000).unreachable 9 = true ∧ Tbl.get? (s.upTo 1000000).wt.probes 9 = some 0 ∧
      0 + 1000000 ≤ (s.upTo 1000000).clk.ftime ∧ (s.upTo 1000000).pausedFor 9 0 = false) := by decide +kernel

/-- Node 4 with that frame in a class of port 0, and a flow that owes an ACK or not. -/
def loaded (c : Nat) (due : Bool) : State :=
  (wired { flow with ackDue := due } 0).updPort 0 fun x => { x with classes := [(c, [{ txFrame with pclass := c }])] }

/-- What PORT_TRANSMIT finds at a node: an ACK or NAK due, or the class that goes next and its head. -/
def duePick (s : State) : Bool :=
  (s.flushMirrorAck.wt.rx.find? fun x => x.2.ctlDue && s.flushMirrorAck.leavesBy (x.1 / 4) (x.1 % 4) 0).isSome
def classPick (s : State) : Option Nat := (((s.flushMirrorAck.dropUnkeyed 0).updPort 0 Port.refill).pickClass 0).1
def headPick (s : State) (c : Nat) : Bool :=
  let u := (s.flushMirrorAck.dropUnkeyed 0).updPort 0 Port.refill
  let g := (u.pickClass 0).2
  ((u.updPort 0 fun x => { x with pointer := g.ptr, arrived := g.arrived, deficit := g.deficit }).headOf 0 c).isSome

theorem witness_Ports_transmit :
    (let v := (loaded 0 true).upTo 0
     v.serving = true ∧ (v.port 0).up = true ∧ v.idValid = true ∧ v.slot0 = true ∧ duePick v = true) ∧
    (∀ c ∈ [0, 7], let v := (loaded c false).upTo 0
     v.serving = true ∧ (v.port 0).up = true ∧ v.idValid = true ∧ v.slot0 = true ∧ duePick v = false ∧ classPick v = some c ∧
      headPick v c = true) ∧
    (let v := node4.upTo 0
     v.serving = true ∧ (v.port 0).up = true ∧ v.idValid = true ∧ v.slot0 = true ∧ duePick v = false ∧ classPick v = none) := by
  decide +kernel

/-- A weir list of one entry. -/
def weirList : Weir := { hdr := BitVec.ofNat 128 (2 ^ 20), entries := [0xFFF00000000#64] }

theorem witness_Ports_events :
    (node4.awake = true ∧ 0 < 24 ∧ (node4.port 0).up = true ∧ (4#128 = node4.address) ∧ (5#128 ≠ node4.address) ∧ 63 < 64 ∧ 64 ≤ 9216 ∧
      9216 < 9217 ∧ Tbl.get? (node4.port 0).paused 7 = none) ∧
    (∀ l ∈ [some weirList, none], let s := node4.updPort 0 fun x => { x with weirNext := some (l, 0) }
     (s.upTo 0).serving = true ∧ ((s.upTo 0).port 0).weirNext = some (l, 0) ∧ 0 ≤ (s.upTo 0).clk.ftime) ∧
    (let s := node4.updPort 0 fun x => { x with weir := some (weirList, 0), gateUntil := some 0 }
     (s.upTo 0).serving = true ∧ ((s.upTo 0).port 0).weir = some (weirList, 0) ∧ ((s.upTo 0).port 0).gateUntil = some 0 ∧
      0 ≤ (s.upTo 0).clk.ftime) := by decide +kernel

/-! ### Witnesses: admission and changing requests -/

/-- A message of node 9 on queue 9. -/
def message (op : BitVec 8) (pl : List Byte) (gen : BitVec 16) (fwd : Bool) (wait : Option Nat) : Msg :=
  { id := 0, origin := .fabric 9#13 149#10 4095#20 gen 0x100#32 fwd, opcode := op, part := 0, queue := 9, ring := 0, payload := pl
    offset := 0, landAt := 0, waitAt := wait, dlNs := some 1000 }

/-- Node 4 with that message on queue 9 of a class. -/
def holding (c : Nat) (m : Msg) : State :=
  node4.setQueue 9 { ring16 1 1 with ctx := BitVec.ofNat 256 (1 + c * 2 ^ 4 + 4 * 2 ^ 8 + 2 ^ 96), landed := [m], ring := [(0, false)], nextId := 1 }

/-- The same node with a response share of 0. -/
def shareless (s : State) : State := { s with cfg := { s.cfg with slc := [(0, 0x20040000000000#64)] } }

/-- The same node with all of partition 0's response memory reserved. -/
def starved (s : State) : State := { s with slc := { s.slc with shareUse := [(0, (786432, 0))] } }

theorem witness_Admission_step :
    ∀ c ∈ [3, 7], let v := (holding c (message opReadReq readBytes16 0#16 false none)).upTo 0
     v.serving = true ∧ (Claims.admitPick 0 v).1 = some c ∧ v.nextQueue 0 c v.queueReady = some 9 ∧
      (v.queue 9).landed.head? = some (message opReadReq readBytes16 0#16 false none) := by decide +kernel

/-- APPEND to session 1, which node 4 does not write. -/
def other : List Byte := leBytes 32 1

theorem witness_Admission_ends :
    node4.admitChecks (message opReadReq readBytes16 1#16 false none) = stRevoked ∧
    (∀ b : Bool, let m := message opAppend other 0#16 b none
     node4.admitChecks m = stOk ∧ node4.writesOf m = false ∧ m.mayForward = !b) ∧
    node4.admitFormat (message opAppend other 0#16 true none) = true ∧
    (let m := message opAttend [] 0#16 false none
     node4.admitChecks m = stOk ∧ node4.writesOf m = true ∧ node4.admitFormat m = false) ∧
    (let m := message opReadReq readBytes16 0#16 false none
     node4.admitChecks m = stOk ∧ node4.writesOf m = true ∧ node4.admitFormat m = true ∧ m.dlNs = some 1000 ∧
      (shareless node4).admitChecks m = stOk ∧ (shareless node4).needTooBig m.part ((shareless node4).need m) = true ∧
      node4.needTooBig m.part (node4.need m) = false ∧ node4.needFree m.part (node4.need m) = true ∧
      (starved node4).needTooBig m.part ((starved node4).need m) = false ∧
      (starved node4).needFree m.part ((starved node4).need m) = false ∧ (starved node4).waitedOut m = false) ∧
    (let m := message opReadReq readBytes16 0#16 false (some 0)
     let v := (starved (holding 3 m)).upTo 10000000
     v.serving = true ∧ (v.queue 9).landed.head? = some m ∧ v.admitChecks m = stOk ∧ v.waitedOut m = true ∧
      v.needTooBig m.part (v.need m) = false ∧ v.needFree m.part (v.need m) = false) := by decide +kernel

/-- COMMIT of session 0 at a position with a path of one token. -/
def commitBody1 (pos : Nat) : List Byte := leBytes 32 (2 ^ 24 + pos * 2 ^ 64)

/-- A node with that request, or another opcode's. -/
def changing (op : BitVec 8) (pos : Nat) (s : State) : State :=
  { s with slc := { s.slc with reqs := [(0, request op (commitBody1 pos))] } }

/-- A token of zeros, in the format of the page. -/
def zeroTok : Token := { k := { codes := [], srec := [] }, v := { codes := [], srec := [] }, tag := 0#32 }

/-- Its tail page, and a session with one token of it and a provisional set of one, or one that is closing. -/
def tailPage : Page :=
  { page 0 with desc := { (page 0).desc with tail := true, validM1 := 0 }, copy := some (.tail [zeroTok]) }
def tailed (st : Nat) : State :=
  let s := hot (page 0)
  let h : LHead := { count := 1, pages := [(0, tailPage)], top := none, second := [], lists := [], stamp := 0 }
  { s.updSession 0 fun v => { v with heads := [(0, h)], state := st } with
    provs := [{ session := 0, pset := 0, layer := 0, head := 0, tree := 0xF#64, qpos := 1, toks := [zeroTok], expiry := 9, req := some 0, stamp := 0 }] }

/-- A token goes to a tail page that passes its checks. -/
theorem addAll_tail {s : State} {x pos k : Nat} {v : Session} {p : Page} {tok : Token} (hv : s.session? x = some v)
    (hf : s.headFault eccNone v 0 0 (pos / 16) = none) (hk : pos % 16 = k + 1) (hk2 : k + 2 < 16)
    (hp : s.page? { base := false, part := v.part, owner := x, layer := 0, head := 0, page := pos / 16 } = some p)
    (hl : pos / 16 < pageLimit) (hc : ∀ a b, s.checkRun eccNone { p.desc with validM1 := a, stamp := b } = none) :
    ∃ t, s.addAll eccNone false x 0 0 17 pos [tok] = .ok t := by
  have hm : min (16 - pos % 16) [tok].length = 1 := by rw [hk]; simp; omega
  have ha : ∃ t, s.addChunk eccNone false x 0 0 pos [tok] = .ok t := by
    unfold State.addChunk
    rw [hv]
    dsimp only
    rw [hf]
    dsimp only
    rw [if_neg (by omega), if_neg (by omega)]
    dsimp only
    rw [if_neg (by rw [Bool.false_and, Bool.false_and]; exact Bool.false_ne_true)]
    have ht : ∃ t, s.addTokens eccNone { base := false, part := v.part, owner := x, layer := 0, head := 0, page := pos / 16 } [tok] =
        .ok t := by
      unfold State.addTokens State.writeThrough
      rw [hp]
      dsimp only
      rw [hc]
      exact ⟨_, rfl⟩
    obtain ⟨t, ht⟩ := ht
    rw [ht]
    dsimp only
    rw [if_neg (by rw [hk]; simp; omega)]
    exact ⟨_, rfl⟩
  obtain ⟨t, ha⟩ := ha
  unfold State.addAll
  rw [hm]
  simp only [List.isEmpty_cons, Bool.false_eq_true, if_false, List.take_succ_cons, List.take_zero, List.drop_succ_cons, List.drop_zero]
  rw [ha]
  dsimp only
  unfold State.addAll
  exact ⟨t, rfl⟩

/-- A COMMIT of one token to one (layer, KV head) is applied where that token goes to its tail page. -/
theorem commit_one {s s1 : State} {x : Nat} {v : Session} {b : List Byte} {z : ProvSet} {tok : Token} (h1 : v.pairs = [(0, 0)])
    (h2 : s.setsOf x (cmPset b) = [z]) (h3 : z.layer = 0 ∧ z.head = 0) (h4 : cmLen b = 1) (h5 : z.toks[cmPath b 0]? = some tok)
    (h6 : (s.dropProvs fun z => z.session == x && z.pset == cmPset b).takeSram v.part (1 * s.tokensSram v (cmPos b) 1) = some s1)
    (h7 : ∃ t, s1.addAll eccNone false x 0 0 17 (cmPos b) [tok] = .ok t) : ∃ t l, s.applyCommit eccNone x v b = .ok (t, l) := by
  obtain ⟨t, h7⟩ := h7
  unfold State.applyCommit
  rw [h1, h2, h4]
  dsimp only [List.length_cons, List.length_nil, Nat.zero_add]
  rw [h6]
  dsimp only
  have e : (List.map (cmPath b) (List.range 1)).filterMap (fun c =>
      ([z].find? fun z => z.layer == 0 && z.head == 0).bind fun z => z.toks[c]?) = [tok] := by
    simp [h3.1, h3.2, h5]
  simp only [List.map_cons, List.map_nil, e, List.foldlM_cons, List.foldlM_nil]
  rw [h7]
  exact ⟨_, _, rfl⟩

theorem tailed_checks : (tailed 1).checkRun eccNone tailPage.desc = none :=
  checkRun_none 5 0 1#16 (by decide) (by decide) (by decide)
    (fun i hi => by
      have e : ∀ i < 5, (tailed 1).grain (0 + i) = List.replicate 512 0#8 ∧
          (tailed 1).sideOf (0 + i) = sideWords (i + 1 == 5) (List.replicate 512 0#8) 0x30FCEDC0#32 1#16 ∧
          sideTag (sideWords (i + 1 == 5) (List.replicate 512 0#8) 0x30FCEDC0#32 1#16) = 0x30FCEDC0#32 ∧
          ((i + 1 == 5) = true ∨ sideWord (sideWords (i + 1 == 5) (List.replicate 512 0#8) 0x30FCEDC0#32 1#16) 2 = 1#16) := by
        decide +kernel
      exact run_checks (e i hi).1 test_zero_grain_tag (e i hi).2.1 (e i hi).2.2.1 (e i hi).2.2.2)
    (by decide +kernel) rfl


/-- Free dynamic space is taken as it is. -/
theorem takeSram_free {s : State} {p n : Nat} (h : n ≤ s.sramFree p) : s.takeSram p n = some s := by
  have e : ∀ k, s.makeRoom p n k = s := by
    intro k
    cases k with
    | zero => rfl
    | succ k => unfold State.makeRoom; rw [if_pos h]
  unfold State.takeSram
  dsimp only
  rw [e, if_pos h]

/-- The node of a COMMIT that can be applied, and what it is without the provisional set. -/
def committing : State := { changing opCommit 1 (tailed 1) with out := [] }
def unprovided : State := committing.dropProvs fun z => z.session == cmSession (commitBody1 1) && z.pset == cmPset (commitBody1 1)
def tailSession : Session :=
  { skey := 0#64, part := 0, pfmt := 2, hdim := 0, group := 0, state := 1, layersM1 := 0, kvhM1 := 0, windowLen := 0, baseSeq := noneId
    dpfmt := 0, posTable := noneId, dirGrain := 0, seed := 0#32, stamp := 0
    heads := [(0, { count := 1, pages := [(0, tailPage)], top := none, second := [], lists := [], stamp := 0 })] }

theorem unprovided_grains : ∀ i < 5, unprovided.grain (0 + i) = List.replicate 512 0#8 ∧
    unprovided.sideOf (0 + i) = sideWords (i + 1 == 5) (List.replicate 512 0#8) 0x30FCEDC0#32 1#16 ∧
    sideTag (sideWords (i + 1 == 5) (List.replicate 512 0#8) 0x30FCEDC0#32 1#16) = 0x30FCEDC0#32 ∧
    ((i + 1 == 5) = true ∨ sideWord (sideWords (i + 1 == 5) (List.replicate 512 0#8) 0x30FCEDC0#32 1#16) 2 = 1#16) := by decide +kernel

theorem unprovided_run (a b : Nat) : unprovided.checkRun eccNone { tailPage.desc with validM1 := a, stamp := b } = none :=
  checkRun_none 5 0 1#16 rfl rfl rfl
    (fun i hi => run_checks (unprovided_grains i hi).1 test_zero_grain_tag (unprovided_grains i hi).2.1 (unprovided_grains i hi).2.2.1
      (unprovided_grains i hi).2.2.2) (by decide +kernel) rfl

/-- A grain of a page's run is checked as one. -/
theorem run_grain {s : State} {g n f : Nat} {r : PageRef} {p : Page} {w : BitVec 16} (h1 : s.badGrains.contains g = false)
    (h2 : s.grainLost g = false) (h3 : s.allocOf g = some { first := f, len := n, use := .run r }) (h4 : s.page? r = some p)
    (h5 : p.desc.wgen = w) (h6 : s.checkGrain eccNone g (g + 1 == f + n) w = none) : s.grainFault eccNone g = none := by
  unfold State.grainFault
  rw [h1, h2, h3]
  dsimp only
  rw [if_neg (by decide), h4]
  dsimp only
  rw [h5, h6]

theorem unprovided_check : unprovided.checkGrain eccNone 0 false 1#16 = none :=
  run_checks (m := false) (b := List.replicate 512 0#8) (t := 0x30FCEDC0#32) (by decide +kernel) test_zero_grain_tag
    (by decide +kernel) (by decide +kernel) (by decide +kernel)

theorem unprovided_grain : unprovided.grainFault eccNone 0 = none :=
  run_grain (n := 5) (f := 0) (r := pageRef) (p := tailPage) (w := 1#16) (by decide +kernel) (by decide +kernel) (by decide +kernel)
    (by decide +kernel) rfl (by rw [show ((0 + 1 == 0 + 5) : Bool) = false from rfl]; exact unprovided_check)

/-- The one metadata grain of a head that passes. -/
theorem head_fault {s : State} {v : Session} {n : Nat} (e : s.headGrains v 0 0 n = [0]) (g : s.grainFault eccNone 0 = none) :
    s.headFault eccNone v 0 0 n = none := by
  unfold State.headFault
  rw [e, List.findSome?_cons, g]
  rfl

theorem unprovided_head : unprovided.headFault eccNone tailSession 0 0 0 = none := head_fault (by decide +kernel) unprovided_grain

theorem witness_Admission_commit :
    (committing.serving = true ∧ committing.req? 0 = some (request opCommit (commitBody1 1)) ∧
      (request opCommit (commitBody1 1)).complete = false ∧ (request opCommit (commitBody1 1)).atomic = false ∧
      committing.setInUse 0 0 = false ∧ committing.openSession 0 0 = some tailSession ∧
      committing.commitCheck 0 tailSession (commitBody1 1) = true ∧ cmLen (commitBody1 1) ≠ 0 ∧ cmSession (commitBody1 1) = 0 ∧
      cmPset (commitBody1 1) = 0 ∧ committing.commitCheck 0 tailSession (commitBody1 2) = false) ∧
    (∃ t l, committing.applyCommit eccNone 0 tailSession (commitBody1 1) = .ok (t, l)) ∧
    (let s := changing opCommit 1 (tailed 2)
     s.serving = true ∧ s.req? 0 = some (request opCommit (commitBody1 1)) ∧ s.setInUse 0 0 = false ∧ s.openSession 0 0 = none) ∧
    (∀ op ∈ [opAppend, opIngest, opCommit], let v := (changing op 1 node4).upTo 500
     v.serving = true ∧ v.req? 0 = some (request op (commitBody1 1)) ∧ (request op (commitBody1 1)).msg.opcode = op ∧
      (request op (commitBody1 1)).dlNs ≤ v.clk.ftime) :=
  ⟨by decide +kernel,
    commit_one (s1 := unprovided) (z := { session := 0, pset := 0, layer := 0, head := 0, tree := 0xF#64, qpos := 1, toks := [zeroTok]
                                          expiry := 9, req := some 0, stamp := 0 })
      (tok := zeroTok) (by decide +kernel) (by decide +kernel) ⟨rfl, rfl⟩ (by decide +kernel) (by decide +kernel)
      (by
        have h : 1 * committing.tokensSram tailSession (cmPos (commitBody1 1)) 1 ≤ unprovided.sramFree 0 := by decide +kernel
        exact takeSram_free h)
      (by
        have e : cmPos (commitBody1 1) = 1 := by decide +kernel
        rw [e]
        exact addAll_tail (v := tailSession) (p := tailPage) (k := 0) (by decide +kernel) unprovided_head (by decide) (by decide)
          (by decide +kernel) (by decide) unprovided_run),
    by decide +kernel, by decide +kernel⟩

/-! ### Witnesses: sweeps and merges, twins, sideband -/

/-- An entry of a request for session 0, live, that waits for n commands and has an own part or not. -/
def entry (n : Nat) (own : List Swept) : Entry :=
  { spec := { session := 0, layer := 0, head := 0, cands := 1, prov := false, hdim := 0, group := 0, valid := 16, qpos := 16, tree := 0xF#64
              rsvd := false }
    queries := [[]], prov := [], own := own, jetPages := [], waiting := n, parts := [], reissue := [], omitDl := [], omitErr := []
    ended := none, sent := false, provHeld := false, provReq := false, hedge := none, formed := [], resv := 0 }

/-- The page of `paged` as a request swept it, and one that is not there. -/
def swept (n : Nat) : Swept := { pg := { pageRef with page := n }, toks := 16, desc := pageDesc 0, base := none }

/-- An ATTEND with that entry as its last. -/
def attending (y : Entry) : Req := { request opAttend [] with entries := [(255, y)], dlp := 2 }

/-- Its command on slot 15 of jet 511, which ended with a result. -/
def jetCmd : JetCmd :=
  { req := 0, jet := 511, slot := some 15, word := slotWord 0 0, pages := [(7, swept 0)], sess := [(255, 0)], rows := 1, query := [], bias := []
    rowFile := [] }
def collected (known : Bool) (result : Nat) : State :=
  let s := jetted { Jet.init with ready := 0x8000#16, slots := [(15, BitVec.ofNat 512 (0xFFFF * 2 ^ 72 + result * 2 ^ 124))] }
  { s with slc := { s.slc with reqs := [(0, attending (entry 1 []))], cmds := if known then [(65535, jetCmd)] else [] } }

theorem witness_SweepsAndMerges_collect :
    ((booted 4).serving = false ∧ live.serving = true ∧ (live.jet 511).ready.getLsbD 15 = false) ∧
    (let s := collected false 0
     s.serving = true ∧ (s.jet 511).ready.getLsbD 15 = true ∧ Tbl.get? s.slc.cmds (slTag ((s.jet 511).slot 15)) = none) ∧
    (∀ r ∈ [rsOk, rsStopped, rsResidue, rsAborted, rsTag, rsEcc, rsDecode, rsFormat, rsIllegal, rsBist], let s := collected true r
     s.serving = true ∧ (s.jet 511).ready.getLsbD 15 = true ∧ Tbl.get? s.slc.cmds (slTag ((s.jet 511).slot 15)) = some jetCmd ∧
      jetCmd.jet = 511 ∧ jetCmd.slot = some 15 ∧ slResult ((s.jet 511).slot 15) = r ∧
      s.req? jetCmd.req = some (attending (entry 1 []))) ∧
    (let s := collected true rsOk
     (attending (entry 1 [])).entry? 255 = some (entry 1 []) ∧ (entry 1 []).live = true ∧ jetCmd.ofUnit 1 ≠ [] ∧
      ∀ p ∈ jetCmd.ofUnit 1, ((s.jet 511).slot 15).getLsbD (88 + p.1) = false) := by decide +kernel

/-- A node with that ATTEND. -/
def merging (y : Entry) : State :=
  let s := paged (page 0)
  { s with slc := { s.slc with reqs := [(0, attending y)] } }

/-- The hypotheses of ENTRY_MERGE on the node of an entry, after what waits for isolated jets. -/
def mergeOk (y : Entry) (s : State) : Bool :=
  s.serving && s.divertAll.req? 0 == some (attending y) && (attending y).entry? 255 == some y && y.live && y.formed.isEmpty &&
    y.waiting == 0

/-- That node with the copies that the entry reads made whole. -/
def recovered (y : Entry) (s : State) : State :=
  s.divertAll.each (y.own ++ y.reissue.map fun w => w.2.2.2) fun t w =>
    (w.base.map Prod.fst).toList.foldl (fun t r => t.recoverCopy eccNone r) (t.recoverCopy eccNone w.pg)

/-- What the confluence's part of an entry is: a status, or else 256. -/
def partsEnd (s : State) (y : Entry) : Nat :=
  match s.session? 0 with
  | none => 257
  | some z => match ((recovered y s).confluenceParts eccNone z (attending y) y).2 with
    | .error st => st
    | .ok _ => 256

theorem witness_SweepsAndMerges_cut :
    (∀ d ∈ [0, 1], ∀ k ∈ [some 15, none], let x := { attending (entry 1 []) with dlNs := 5000000, dlp := d }
     let s := { collected true rsOk with slc := { (collected true rsOk).slc with reqs := [(0, x)] } }
     let c := { jetCmd with slot := k }
     (s.upTo 0).serving = true ∧ s.req? c.req = some x ∧ x.dlp = d ∧ c.slot = k ∧ s.clk.ftime < s.cutTime x c ∧
      (s.upTo 6000000).req? c.req = some x ∧ (s.upTo 6000000).cutTime x c ≤ (s.upTo 6000000).clk.ftime) ∧
    ((booted 4).upTo 0).serving = false := by decide +kernel

theorem witness_SweepsAndMerges_merge :
    (let y := entry 1 [swept 0]
     let v := (merging y).upTo 500
     v.serving = true ∧ v.req? 0 = some (attending y) ∧ (attending y).entry? 255 = some y ∧ y.live = true ∧ y.formed = [] ∧
      y.hasOwn = true ∧ (attending y).dlNs - v.mergeRes (attending y) y ≤ v.clk.ftime) ∧
    (let y := entry 1 []
     let v := (merging y).upTo 0
     v.req? 0 = some (attending y) ∧ (attending y).entry? 255 = some y ∧ y.hasOwn = false ∧ y.waiting ≠ 0 ∧
      v.divertAll.req? 0 = some (attending y)) ∧
    (let y := entry 0 []
     let s := { merging y with sessions := [] }
     mergeOk y (s.upTo 0) = true ∧ ((s.upTo 0).divertAll.session? y.spec.session) = none) ∧
    (let y := entry 0 [swept 1]
     mergeOk y ((merging y).upTo 0) = true ∧ partsEnd ((merging y).upTo 0) y < 256) ∧
    (let y := entry 0 []
     mergeOk y ((merging y).upTo 0) = true ∧ partsEnd ((merging y).upTo 0) y = 256) := by decide +kernel

theorem witness_SweepsAndMerges_answer :
    let y := entry 0 []
    let v := (merging y).upTo 0
    ∃ z t own re bad y', v.divertAll.session? y.spec.session = some z ∧
      (recovered y v).confluenceParts eccNone z (attending y) y = (t, .ok (own, re, bad)) ∧
      ((t.errPages (attending y) 0 255 bad).req? 0).bind (fun x => x.entry? 255) = some y' ∧ y'.live = true :=
  ⟨_, _, _, _, _, _, rfl, rfl, rfl, rfl⟩

theorem witness_SweepsAndMerges_hedge :
    let y := entry 1 []
    let s := { node4 with slc := { node4.slc with reqs := [(0, attending y)] } }
    let v := s.upTo 400
    let x := attending y
    v.req? 0 = some x ∧ Claims.MayHedge v 0 x ∧ x.msg.origin = .fabric 7#13 17#10 4095#20 0#16 0x100#32 false ∧ v.freeClaim = some 0 ∧
    ¬ Claims.MayHedge (v.setReq 0 { x with hedged := true }) 0 { x with hedged := true } := by
  intro y s v x
  refine ⟨by decide +kernel, ⟨by decide +kernel, ⟨_, _, _, _, _, _, rfl⟩, by decide +kernel, by decide +kernel, by decide +kernel,
    by decide +kernel, by decide +kernel, ⟨0, by decide +kernel⟩, (255, y), by decide +kernel, by decide +kernel, by decide +kernel,
    by decide +kernel, by decide +kernel⟩, rfl, by decide +kernel, ?_⟩
  intro h
  exact absurd h.2.2.2.2.2.1 (by decide)

/-- Node 4 in a twin state. -/
def twinIn (n : Nat) : State := { node4 with twin := { node4.twin with state := n } }

theorem ne_exists (d : Digest) : ∃ e : Digest, d ≠ e := by
  by_cases h : d = 0#384
  · exact ⟨1#384, by rw [h]; exact fun e => by simpa using congrArg (fun x : Digest => x.getLsbD 0) e⟩
  · exact ⟨0#384, h⟩

theorem witness_TwinStates :
    (let v := node4.upTo 5000
     v.serving = true ∧ v.twin.state = twPaired ∧ v.twin.sentAt + 5000 ≤ v.clk.ftime ∧ v.mirrorKey 0 = true) ∧
    (let c : Change := { stamp := 0, sentAt := 0, reply := .request 0 0 }
     let v := ({ node4 with twin := { node4.twin with changes := [c] } } : State).upTo 4540000
     v.serving = true ∧ v.twin.state = twPaired ∧ v.twin.changes = [c] ∧ c.sentAt + 4540000 ≤ v.clk.ftime) ∧
    (let v := node4.upTo 70000
     v.serving = true ∧ v.twin.state = twPaired ∧ v.twin.heardAt + 70000 ≤ v.clk.ftime) ∧
    (let v := (twinIn twJoining).upTo 100000000
     v.serving = true ∧ v.twin.state = twJoining ∧ v.twin.joinAt + 100000000 ≤ v.clk.ftime) ∧
    (∀ n ∈ [twPaired, twJoining, twSolo, twSrc, twDst], (twinIn n).serving = true ∧ (twinIn n).pairEn = true ∧ (twinIn n).twin.state = n) ∧
    (twinIn twJoining).twin.state ≠ twPaired ∧ (twinIn twSrc).mirrorBusy = false := by decide +kernel

theorem witness_TwinStates_digests : (∀ n, ∃ d, (twinIn n).cfgDigest ≠ d) ∧ ∀ n, ∃ d, (twinIn n).cfgDigest = d :=
  ⟨fun _ => ne_exists _, fun _ => ⟨_, rfl⟩⟩

/-- A node whose sideband target has taken a command word. -/
def spoke (c : BitVec 32) (l : BitVec 5) : State := { live with sb := { live.sb with inData := true, cmd := c, last := l } }

theorem witness_SidebandAndJtag :
    ((live.upTo 0).sbOn = true ∧ 32 ≤ 32 ∧ (live.upTo 0).sb.inData = false) ∧
    (((spoke 0#32 0#5).upTo 0).sbOn = true ∧ ((spoke 0#32 0#5).upTo 0).sb.inData = true ∧
      ((spoke 0#32 0#5).upTo 0).sb.cmd.getLsbD 31 = false) ∧
    (∀ b : Bool, let s := (spoke 0x80000007#32 (if b then 0x10#5 else 0#5)).upTo 0
     s.sbOn = true ∧ s.sb.inData = true ∧ s.sb.cmd.getLsbD 31 = true ∧ s.sb.last.getLsbD 4 = b) ∧
    ((1#32).getLsbD 0 = true ∧ (2#32).getLsbD 0 = false ∧ 11 ∉ [7, 8, 9, 10] ∧ 1 ≤ 31 ∧ 3 < 4) ∧
    (((spoke 0#32 0#5).upTo 1000000).sbOn = true ∧ ((spoke 0#32 0#5).upTo 1000000).sb.inData = true ∧
      ((spoke 0#32 0#5).upTo 1000000).sb.cmdAt + 1000000 ≤ ((spoke 0#32 0#5).upTo 1000000).clk.up) ∧
    State.reset.pins.rstLow = true ∧ live.pins.rstLow = false := by decide +kernel

end Sys2Proof.Tests
end

section
/-! Jets and their channels (02 R40, R41): the group, cistern and channel of a jet, in both directions. -/

namespace Sys2Proof.Machine

theorem jetCis_lt (j : Nat) : jetCis j < 8 := Nat.mod_lt _ (by decide)

theorem jetGroup_lt {j : Nat} (hj : j < 8192) : jetGroup j < 16 := Nat.div_lt_of_lt_mul hj

theorem jetChannel_lt {j : Nat} (hj : j < 8192) : jetChannel j < 128 := by
  have hcis := jetCis_lt j
  have hgroup := jetGroup_lt hj
  unfold jetChannel
  omega

theorem jetChannel_mod_sixteen {j : Nat} (hj : j < 8192) : jetChannel j % 16 = jetGroup j := by
  rw [jetChannel, Nat.mul_add_mod, Nat.mod_eq_of_lt (jetGroup_lt hj)]

theorem jetOf_lt {ch pair : Nat} (hch : ch < 128) (hpair : pair < 64) : jetOf ch pair < 8192 := by
  unfold jetOf
  omega

theorem jetGroup_jetOf {ch pair : Nat} (hch : ch < 128) (hpair : pair < 64) : jetGroup (jetOf ch pair) = ch % 16 := by
  unfold jetGroup jetOf
  omega

theorem jetCis_jetOf {ch pair : Nat} (hch : ch < 128) (hpair : pair < 64) : jetCis (jetOf ch pair) = ch / 16 := by
  unfold jetCis jetOf
  omega

theorem jetChannel_jetOf {ch pair : Nat} (hch : ch < 128) (hpair : pair < 64) : jetChannel (jetOf ch pair) = ch := by
  rw [jetChannel, jetCis_jetOf hch hpair, jetGroup_jetOf hch hpair, Nat.div_add_mod]

/-- The channels of the jets of a group, without their list; the jet of pair 0 shows that each channel is reached. -/
theorem exists_jet_of_group_channel_iff {g c : Nat} :
    (∃ j < 8192, jetGroup j = g ∧ jetChannel j = c) ↔ c < 128 ∧ c % 16 = g := by
  constructor
  · rintro ⟨j, hj, rfl, rfl⟩
    exact ⟨jetChannel_lt hj, jetChannel_mod_sixteen hj⟩
  · rintro ⟨hc, rfl⟩
    have hpair : 0 < 64 := by decide
    exact ⟨jetOf c 0, jetOf_lt hc hpair, jetGroup_jetOf hc hpair, jetChannel_jetOf hc hpair⟩

/-- The list of R41 by remainder: below 128, the numbers that leave g modulo 16. -/
theorem mem_groupChannels_iff {g c : Nat} (hg : g < 16) :
    c ∈ [g, 16 + g, 32 + g, 48 + g, 64 + g, 80 + g, 96 + g, 112 + g] ↔ c < 128 ∧ c % 16 = g := by
  simp only [List.mem_cons, List.not_mem_nil, or_false]
  omega

/-- Settles O8: a group's channels and the list of R41 are both the channels below 128 that leave g modulo 16. -/
theorem channelNumbering : Obligations.ChannelNumbering := by
  unfold Obligations.ChannelNumbering
  exact ⟨fun _ => rfl, fun _ _ hg => exists_jet_of_group_channel_iff.trans (mem_groupChannels_iff hg).symm⟩

end Sys2Proof.Machine
end

section
/-! The writers of a pair (10 R325): in solo mode the node is the writer of everything; of two nodes that are not, the order of
the node IDs decides, and every question of R325 comes down to `State.isLower`. -/

namespace Sys2Proof.Machine

theorem State.writes_of_solo {s : State} (hsolo : s.solo = true) (x : Nat) : s.writes x = true := by
  simp [State.writes, hsolo]

theorem State.writesBases_of_solo {s : State} (hsolo : s.solo = true) : s.writesBases = true := by
  simp [State.writesBases, hsolo]

theorem State.isLower_of_lt {s : State} (hlt : s.nodeId < s.twinNode) : s.isLower = true :=
  decide_eq_true hlt

theorem State.not_isLower_of_lt {s : State} (hlt : s.twinNode < s.nodeId) : s.isLower = false :=
  decide_eq_false hlt.asymm

section
variable {s : State} (htwin : s.twin.state ≠ twUnpaired) (hsolo : s.solo = false)
include htwin hsolo

theorem State.writes_even_eq_isLower {x : Nat} (heven : x % 2 = 0) : s.writes x = s.isLower := by
  simp [State.writes, htwin, hsolo, heven]

theorem State.writes_odd_eq_not_isLower {x : Nat} (hodd : x % 2 = 1) : s.writes x = !s.isLower := by
  simp [State.writes, htwin, hsolo, hodd]

theorem State.writesBases_eq_isLower : s.writesBases = s.isLower := by
  simp [State.writesBases, htwin, hsolo]

end

/-- Settles O7: exactly one node of the pair is the lower, and each writer is that node or the other one; solo mode overrides both. -/
theorem writersOfAPair : Obligations.WritersOfAPair := by
  unfold Obligations.WritersOfAPair
  refine ⟨fun s t x hs ht hsSolo htSolo hst hts hlt => ?_,
    fun _ x hsolo => ⟨State.writes_of_solo hsolo x, State.writesBases_of_solo hsolo⟩⟩
  have hlower : s.isLower = true := State.isLower_of_lt (hst ▸ hlt)
  have hupper : t.isLower = false := State.not_isLower_of_lt (hts ▸ hlt)
  refine ⟨fun heven => ⟨?_, ?_⟩, fun hodd => ⟨?_, ?_⟩, ?_, ?_⟩
  · rw [State.writes_even_eq_isLower hs hsSolo heven, hlower]
  · rw [State.writes_even_eq_isLower ht htSolo heven, hupper]
  · rw [State.writes_odd_eq_not_isLower hs hsSolo hodd, hlower, Bool.not_true]
  · rw [State.writes_odd_eq_not_isLower ht htSolo hodd, hupper, Bool.not_false]
  · rw [State.writesBases_eq_isLower hs hsSolo, hlower]
  · rw [State.writesBases_eq_isLower ht htSolo, hupper]

end Sys2Proof.Machine
end

section
/-! The step over all commands: a command's legal next states and its frame, from the law of its own meaning. -/

namespace Sys2Proof.Machine

/-- What every command keeps: the law of its meaning under Laws/Inv. -/
theorem exec_inv (i : Instr) {s : State} (h : s.Inv) : OutInv (exec i s) :=
  match i with
  | .powerOn .. => execPowerOn_inv h
  | .resetBall .. => execResetBall_inv h
  | .perst => execPerst_inv h
  | .railOutOfRange .. => execRailOutOfRange_inv h
  | .railsRecovered .. => execRailsRecovered_inv h
  | .clockAbsent .. => execClockAbsent_inv h
  | .thermalTrip .. => execThermalTrip_inv h
  | .thermalTripRelease .. => execThermalTripRelease_inv h
  | .dramHot .. => execDramHot_inv h
  | .watchdogExpiry .. => execWatchdogExpiry_inv h
  | .fatalEvent .. => execFatalEvent_inv h
  | .firmwareVerify .. => execFirmwareVerify_inv h
  | .clocksLocked .. => execClocksLocked_inv h
  | .channelTrainingDone .. => execChannelTrainingDone_inv h
  | .memoryTestDone .. => execMemoryTestDone_inv h
  | .laneTrainingDone .. => execLaneTrainingDone_inv h
  | .laneRetryTimer .. => execLaneRetryTimer_inv h
  | .computeStageDone .. => execComputeStageDone_inv h
  | .stageOverrun .. => execStageOverrun_inv h
  | .serviceOpen .. => execServiceOpen_inv h
  | .ptpMessage .. => execPtpMessage_inv h
  | .masterLost => execMasterLost_inv h
  | .ppsInEdge => execPpsInEdge_inv h
  | .ppsOutSecond .. => execPpsOutSecond_inv h
  | .powerSample .. => execPowerSample_inv h
  | .avsbusNoAck => execAvsbusNoAck_inv h
  | .nodeStatus .. => execNodeStatus_inv h
  | .attestReport .. => execAttestReport_inv h
  | .nodeReset .. => execNodeReset_inv h
  | .partitionReset .. => execPartitionReset_inv h
  | .partitionResetEnd .. => execPartitionResetEnd_inv h
  | .laneRetrain .. => execLaneRetrain_inv h
  | .laneRetrainDone .. => execLaneRetrainDone_inv h
  | .faultRead .. => execFaultRead_inv h
  | .peerClear .. => execPeerClear_inv h
  | .cfgCommit .. => execCfgCommit_inv h
  | .cfgAbort .. => execCfgAbort_inv h
  | .cfgStatus .. => execCfgStatus_inv h
  | .cfgDiscard .. => execCfgDiscard_inv h
  | .partMapStage .. => execPartMapStage_inv h
  | .partCfgStage .. => execPartCfgStage_inv h
  | .partStatus .. => execPartStatus_inv h
  | .lockStage .. => execLockStage_inv h
  | .admitWeightsStage .. => execAdmitWeightsStage_inv h
  | .nodeCfgStage .. => execNodeCfgStage_inv h
  | .twinCfgStage .. => execTwinCfgStage_inv h
  | .routeStage .. => execRouteStage_inv h
  | .twinStatus .. => execTwinStatus_inv h
  | .dirRead .. => execDirRead_inv h
  | .windowStage .. => execWindowStage_inv h
  | .windowRead .. => execWindowRead_inv h
  | .windowRevoke .. => execWindowRevoke_inv h
  | .windowRevokeDrained .. => execWindowRevokeDrained_inv h
  | .srcsetStage .. => execSrcsetStage_inv h
  | .weirStage .. => execWeirStage_inv h
  | .shaperStage .. => execShaperStage_inv h
  | .portWeightsStage .. => execPortWeightsStage_inv h
  | .queueSet .. => execQueueSet_inv h
  | .queueStop .. => execQueueStop_inv h
  | .queueStopped .. => execQueueStopped_inv h
  | .queueRead .. => execQueueRead_inv h
  | .keyInstall .. => execKeyInstall_inv h
  | .keySwitch .. => execKeySwitch_inv h
  | .keyDrop .. => execKeyDrop_inv h
  | .keyRetire .. => execKeyRetire_inv h
  | .keyRetired .. => execKeyRetired_inv h
  | .keyStatus .. => execKeyStatus_inv h
  | .keyAgeWarn .. => execKeyAgeWarn_inv h
  | .keyLifetimeExpiry .. => execKeyLifetimeExpiry_inv h
  | .sessionOpen .. => execSessionOpen_inv h
  | .sessionClose .. => execSessionClose_inv h
  | .sessionCloseRelease .. => execSessionCloseRelease_inv h
  | .sessionRead .. => execSessionRead_inv h
  | .baseBegin .. => execBaseBegin_inv h
  | .baseEnd .. => execBaseEnd_inv h
  | .baseUnload .. => execBaseUnload_inv h
  | .postabLoad .. => execPostabLoad_inv h
  | .postabUnload .. => execPostabUnload_inv h
  | .progStage .. => execProgStage_inv h
  | .statsRead .. => execStatsRead_inv h
  | .histRead .. => execHistRead_inv h
  | .rebalance .. => execRebalance_inv h
  | .mbDoorbell .. => execMbDoorbell_inv h
  | .mailboxTurn => execMailboxTurn_inv h
  | .spdmGetVersion .. => execSpdmGetVersion_inv h
  | .spdmGetCapabilities .. => execSpdmGetCapabilities_inv h
  | .spdmNegotiateAlgorithms .. => execSpdmNegotiateAlgorithms_inv h
  | .spdmGetDigests .. => execSpdmGetDigests_inv h
  | .spdmGetCertificate .. => execSpdmGetCertificate_inv h
  | .spdmChallenge .. => execSpdmChallenge_inv h
  | .spdmGetMeasurements .. => execSpdmGetMeasurements_inv h
  | .spdmKeyExchange .. => execSpdmKeyExchange_inv h
  | .spdmFinish .. => execSpdmFinish_inv h
  | .spdmKeyUpdate .. => execSpdmKeyUpdate_inv h
  | .spdmHeartbeat .. => execSpdmHeartbeat_inv h
  | .spdmEndSession .. => execSpdmEndSession_inv h
  | .vendorDefinedRequest .. => execVendorDefinedRequest_inv h
  | .mctpMailboxMessage .. => execMctpMailboxMessage_inv h
  | .pldmRequest .. => execPldmRequest_inv h
  | .smbusTimeout .. => execSmbusTimeout_inv h
  | .ideIntegrityFail .. => execIdeIntegrityFail_inv h
  | .bar2Read .. => execBar2Read_inv h
  | .bar2Write .. => execBar2Write_inv h
  | .hostDoorbell .. => execHostDoorbell_inv h
  | .completionDoorbell .. => execCompletionDoorbell_inv h
  | .hostSubmissionRead .. => execHostSubmissionRead_inv h
  | .firstClr .. => execFirstClr_inv h
  | .histClr .. => execHistClr_inv h
  | .registerWrite .. => execRegisterWrite_inv h
  | .go .. => execGo_inv h
  | .stop .. => execStop_inv h
  | .readyClear .. => execReadyClear_inv h
  | .microprogramWrite .. => execMicroprogramWrite_inv h
  | .slotStart .. => execSlotStart_inv h
  | .nop .. => execNop_inv h
  | .li .. => execLi_inv h
  | .add .. => execAdd_inv h
  | .gets .. => execGets_inv h
  | .gete .. => execGete_inv h
  | .beq .. => execBeq_inv h
  | .bne .. => execBne_inv h
  | .jmp .. => execJmp_inv h
  | .stopb .. => execStopb_inv h
  | .endSlot .. => execEndSlot_inv h
  | .failSlot .. => execFailSlot_inv h
  | .clrp .. => execClrp_inv h
  | .clra .. => execClra_inv h
  | .rdk .. => execRdk_inv h
  | .rdv .. => execRdv_inv h
  | .rdbk .. => execRdbk_inv h
  | .rdbv .. => execRdbv_inv h
  | .segmentReadDone .. => execSegmentReadDone_inv h
  | .qk .. => execQk_inv h
  | .exps .. => execExps_inv h
  | .pv .. => execPv_inv h
  | .emit .. => execEmit_inv h
  | .cpyrow .. => execCpyrow_inv h
  | .patw .. => execPatw_inv h
  | .patr .. => execPatr_inv h
  | .arrt .. => execArrt_inv h
  | .yreqRaise .. => execYreqRaise_inv h
  | .yreqDrop .. => execYreqDrop_inv h
  | .ordinaryAccess .. => execOrdinaryAccess_inv h
  | .ownLimitExpiry .. => execOwnLimitExpiry_inv h
  | .sweepLimitExpiry .. => execSweepLimitExpiry_inv h
  | .jetResponseTimeout .. => execJetResponseTimeout_inv h
  | .jetReset .. => execJetReset_inv h
  | .write .. => execWrite_inv h
  | .writeImm .. => execWriteImm_inv h
  | .writeImmMailbox .. => execWriteImmMailbox_inv h
  | .cqHoldExpiry .. => execCqHoldExpiry_inv h
  | .forwardCompletion .. => execForwardCompletion_inv h
  | .readReq .. => execReadReq_inv h
  | .readDeadline .. => execReadDeadline_inv h
  | .attend .. => execAttend_inv h
  | .append .. => execAppend_inv h
  | .ingest .. => execIngest_inv h
  | .commit .. => execCommit_inv h
  | .commitApply .. => execCommitApply_inv h
  | .cancel .. => execCancel_inv h
  | .sramCopyRelease .. => execSramCopyRelease_inv h
  | .appendDeadline .. => execAppendDeadline_inv h
  | .landingResume .. => execLandingResume_inv h
  | .admissionStep .. => execAdmissionStep_inv h
  | .admitWaitExpiry .. => execAdmitWaitExpiry_inv h
  | .slotCollect .. => execSlotCollect_inv h
  | .entryMerge .. => execEntryMerge_inv h
  | .cutTime .. => execCutTime_inv h
  | .confluenceDeadline .. => execConfluenceDeadline_inv h
  | .provSetExpiry .. => execProvSetExpiry_inv h
  | .hedgeEvaluate .. => execHedgeEvaluate_inv h
  | .hedge .. => execHedge_inv h
  | .hedgeClaim .. => execHedgeClaim_inv h
  | .mirror .. => execMirror_inv h
  | .mirrorAck .. => execMirrorAck_inv h
  | .mirrorKeepalive .. => execMirrorKeepalive_inv h
  | .writerApplyTimeout .. => execWriterApplyTimeout_inv h
  | .twinSilenceTimeout .. => execTwinSilenceTimeout_inv h
  | .joiningTimeout .. => execJoiningTimeout_inv h
  | .rejoin .. => execRejoin_inv h
  | .resyncComplete => execResyncComplete_inv h
  | .dirUpdate .. => execDirUpdate_inv h
  | .dirQuery .. => execDirQuery_inv h
  | .voidSync .. => execVoidSync_inv h
  | .void .. => execVoid_inv h
  | .ack .. => execAck_inv h
  | .nak .. => execNak_inv h
  | .ackTimerExpiry .. => execAckTimerExpiry_inv h
  | .retransmitTimerExpiry .. => execRetransmitTimerExpiry_inv h
  | .peerProbe .. => execPeerProbe_inv h
  | .linkDown .. => execLinkDown_inv h
  | .pfcFrame .. => execPfcFrame_inv h
  | .neighborSolicitation .. => execNeighborSolicitation_inv h
  | .echoRequest .. => execEchoRequest_inv h
  | .otherFrame .. => execOtherFrame_inv h
  | .portTransmit .. => execPortTransmit_inv h
  | .weirTakeover .. => execWeirTakeover_inv h
  | .weirEntryAdvance .. => execWeirEntryAdvance_inv h
  | .epochCommitTime .. => execEpochCommitTime_inv h
  | .epochDrainEnd .. => execEpochDrainEnd_inv h
  | .resourceScrubDone .. => execResourceScrubDone_inv h
  | .promote .. => execPromote_inv h
  | .demoteTimeout .. => execDemoteTimeout_inv h
  | .migrationSwap .. => execMigrationSwap_inv h
  | .oldRunRelease .. => execOldRunRelease_inv h
  | .scrubPass .. => execScrubPass_inv h
  | .selfTestVerdict .. => execSelfTestVerdict_inv h
  | .pairSparing .. => execPairSparing_inv h
  | .pairSpareSwitch .. => execPairSpareSwitch_inv h
  | .laneDegrade _ _ cause => execLaneDegrade_inv (a3 := cause) h
  | .tsvFault .. => execTsvFault_inv h
  | .sbCommandWord .. => execSbCommandWord_inv h
  | .sbDataWord .. => execSbDataWord_inv h
  | .sbWordDiscarded .. => execSbWordDiscarded_inv h
  | .sbDataTimeout .. => execSbDataTimeout_inv h
  | .resetKey .. => execResetKey_inv h
  | .errClr .. => execErrClr_inv h
  | .bypass => execBypass_inv h
  | .idcode => execIdcode_inv h
  | .samplePreload => execSamplePreload_inv h
  | .extest => execExtest_inv h
  | .extestPulse => execExtestPulse_inv h
  | .extestTrain => execExtestTrain_inv h
  | .reservedOpcode .. => execReservedOpcode_inv h
  | .undefinedOpcode .. => execUndefinedOpcode_inv h
  | .malformedFrame .. => execMalformedFrame_inv h
  | .clockReturn .. => execClockReturn_inv h
  | .pcieConfigRequest fn => execPcieConfigRequest_inv (a1 := fn) h
  | .ideKmMessage .. => execIdeKmMessage_inv h
  | .nodeResetDelayExpiry .. => execNodeResetDelayExpiry_inv h

/-- The frame of every command: the law of its meaning under Laws/Frame, whose list is the one that `touches` names. -/
theorem exec_keeps (i : Instr) {s0 s : State} (h : Keeps (touches i) s0 s) : OutKeeps (touches i) s0 (exec i s) :=
  match i, h with
  | .powerOn .., h => execPowerOn_keeps (List.Subset.refl _) h
  | .resetBall .., h => execResetBall_keeps (List.Subset.refl _) h
  | .perst, h => execPerst_keeps (List.Subset.refl _) h
  | .railOutOfRange .., h => execRailOutOfRange_keeps (List.Subset.refl _) h
  | .railsRecovered .., h => execRailsRecovered_keeps (List.Subset.refl _) h
  | .clockAbsent .., h => execClockAbsent_keeps (List.Subset.refl _) h
  | .thermalTrip .., h => execThermalTrip_keeps (List.Subset.refl _) h
  | .thermalTripRelease .., h => execThermalTripRelease_keeps (List.Subset.refl _) h
  | .dramHot .., h => execDramHot_keeps (List.Subset.refl _) h
  | .watchdogExpiry .., h => execWatchdogExpiry_keeps (List.Subset.refl _) h
  | .fatalEvent .., h => execFatalEvent_keeps (List.Subset.refl _) h
  | .firmwareVerify .., h => execFirmwareVerify_keeps (List.Subset.refl _) h
  | .clocksLocked .., h => execClocksLocked_keeps (List.Subset.refl _) h
  | .channelTrainingDone .., h => execChannelTrainingDone_keeps (List.Subset.refl _) h
  | .memoryTestDone .., h => execMemoryTestDone_keeps (List.Subset.refl _) h
  | .laneTrainingDone .., h => execLaneTrainingDone_keeps (List.Subset.refl _) h
  | .laneRetryTimer .., h => execLaneRetryTimer_keeps (List.Subset.refl _) h
  | .computeStageDone .., h => execComputeStageDone_keeps (List.Subset.refl _) h
  | .stageOverrun .., h => execStageOverrun_keeps (List.Subset.refl _) h
  | .serviceOpen .., h => execServiceOpen_keeps (List.Subset.refl _) h
  | .ptpMessage .., h => execPtpMessage_keeps (List.Subset.refl _) h
  | .masterLost, h => execMasterLost_keeps (List.Subset.refl _) h
  | .ppsInEdge, h => execPpsInEdge_keeps (List.Subset.refl _) h
  | .ppsOutSecond .., h => execPpsOutSecond_keeps (List.Subset.refl _) h
  | .powerSample .., h => execPowerSample_keeps (List.Subset.refl _) h
  | .avsbusNoAck, h => execAvsbusNoAck_keeps (List.Subset.refl _) h
  | .nodeStatus .., h => execNodeStatus_keeps (List.Subset.refl _) h
  | .attestReport .., h => execAttestReport_keeps (List.Subset.refl _) h
  | .nodeReset .., h => execNodeReset_keeps (List.Subset.refl _) h
  | .partitionReset .., h => execPartitionReset_keeps (List.Subset.refl _) h
  | .partitionResetEnd .., h => execPartitionResetEnd_keeps (List.Subset.refl _) h
  | .laneRetrain .., h => execLaneRetrain_keeps (List.Subset.refl _) h
  | .laneRetrainDone .., h => execLaneRetrainDone_keeps (List.Subset.refl _) h
  | .faultRead .., h => execFaultRead_keeps (List.Subset.refl _) h
  | .peerClear .., h => execPeerClear_keeps (List.Subset.refl _) h
  | .cfgCommit .., h => execCfgCommit_keeps (List.Subset.refl _) h
  | .cfgAbort .., h => execCfgAbort_keeps (List.Subset.refl _) h
  | .cfgStatus .., h => execCfgStatus_keeps (List.Subset.refl _) h
  | .cfgDiscard .., h => execCfgDiscard_keeps (List.Subset.refl _) h
  | .partMapStage .., h => execPartMapStage_keeps (List.Subset.refl _) h
  | .partCfgStage .., h => execPartCfgStage_keeps (List.Subset.refl _) h
  | .partStatus .., h => execPartStatus_keeps (List.Subset.refl _) h
  | .lockStage .., h => execLockStage_keeps (List.Subset.refl _) h
  | .admitWeightsStage .., h => execAdmitWeightsStage_keeps (List.Subset.refl _) h
  | .nodeCfgStage .., h => execNodeCfgStage_keeps (List.Subset.refl _) h
  | .twinCfgStage .., h => execTwinCfgStage_keeps (List.Subset.refl _) h
  | .routeStage .., h => execRouteStage_keeps (List.Subset.refl _) h
  | .twinStatus .., h => execTwinStatus_keeps (List.Subset.refl _) h
  | .dirRead .., h => execDirRead_keeps (List.Subset.refl _) h
  | .windowStage .., h => execWindowStage_keeps (List.Subset.refl _) h
  | .windowRead .., h => execWindowRead_keeps (List.Subset.refl _) h
  | .windowRevoke .., h => execWindowRevoke_keeps (List.Subset.refl _) h
  | .windowRevokeDrained .., h => execWindowRevokeDrained_keeps (List.Subset.refl _) h
  | .srcsetStage .., h => execSrcsetStage_keeps (List.Subset.refl _) h
  | .weirStage .., h => execWeirStage_keeps (List.Subset.refl _) h
  | .shaperStage .., h => execShaperStage_keeps (List.Subset.refl _) h
  | .portWeightsStage .., h => execPortWeightsStage_keeps (List.Subset.refl _) h
  | .queueSet .., h => execQueueSet_keeps (List.Subset.refl _) h
  | .queueStop .., h => execQueueStop_keeps (List.Subset.refl _) h
  | .queueStopped .., h => execQueueStopped_keeps (List.Subset.refl _) h
  | .queueRead .., h => execQueueRead_keeps (List.Subset.refl _) h
  | .keyInstall .., h => execKeyInstall_keeps (List.Subset.refl _) h
  | .keySwitch .., h => execKeySwitch_keeps (List.Subset.refl _) h
  | .keyDrop .., h => execKeyDrop_keeps (List.Subset.refl _) h
  | .keyRetire .., h => execKeyRetire_keeps (List.Subset.refl _) h
  | .keyRetired .., h => execKeyRetired_keeps (List.Subset.refl _) h
  | .keyStatus .., h => execKeyStatus_keeps (List.Subset.refl _) h
  | .keyAgeWarn .., h => execKeyAgeWarn_keeps (List.Subset.refl _) h
  | .keyLifetimeExpiry .., h => execKeyLifetimeExpiry_keeps (List.Subset.refl _) h
  | .sessionOpen .., h => execSessionOpen_keeps (List.Subset.refl _) h
  | .sessionClose .., h => execSessionClose_keeps (List.Subset.refl _) h
  | .sessionCloseRelease .., h => execSessionCloseRelease_keeps (List.Subset.refl _) h
  | .sessionRead .., h => execSessionRead_keeps (List.Subset.refl _) h
  | .baseBegin .., h => execBaseBegin_keeps (List.Subset.refl _) h
  | .baseEnd .., h => execBaseEnd_keeps (List.Subset.refl _) h
  | .baseUnload .., h => execBaseUnload_keeps (List.Subset.refl _) h
  | .postabLoad .., h => execPostabLoad_keeps (List.Subset.refl _) h
  | .postabUnload .., h => execPostabUnload_keeps (List.Subset.refl _) h
  | .progStage .., h => execProgStage_keeps (List.Subset.refl _) h
  | .statsRead .., h => execStatsRead_keeps (List.Subset.refl _) h
  | .histRead .., h => execHistRead_keeps (List.Subset.refl _) h
  | .rebalance .., h => execRebalance_keeps (List.Subset.refl _) h
  | .mbDoorbell .., h => execMbDoorbell_keeps (List.Subset.refl _) h
  | .mailboxTurn, h => execMailboxTurn_keeps (List.Subset.refl _) h
  | .spdmGetVersion .., h => execSpdmGetVersion_keeps (List.Subset.refl _) h
  | .spdmGetCapabilities .., h => execSpdmGetCapabilities_keeps (List.Subset.refl _) h
  | .spdmNegotiateAlgorithms .., h => execSpdmNegotiateAlgorithms_keeps (List.Subset.refl _) h
  | .spdmGetDigests .., h => execSpdmGetDigests_keeps (List.Subset.refl _) h
  | .spdmGetCertificate .., h => execSpdmGetCertificate_keeps (List.Subset.refl _) h
  | .spdmChallenge .., h => execSpdmChallenge_keeps (List.Subset.refl _) h
  | .spdmGetMeasurements .., h => execSpdmGetMeasurements_keeps (List.Subset.refl _) h
  | .spdmKeyExchange .., h => execSpdmKeyExchange_keeps (List.Subset.refl _) h
  | .spdmFinish .., h => execSpdmFinish_keeps (List.Subset.refl _) h
  | .spdmKeyUpdate .., h => execSpdmKeyUpdate_keeps (List.Subset.refl _) h
  | .spdmHeartbeat .., h => execSpdmHeartbeat_keeps (List.Subset.refl _) h
  | .spdmEndSession .., h => execSpdmEndSession_keeps (List.Subset.refl _) h
  | .vendorDefinedRequest .., h => execVendorDefinedRequest_keeps (List.Subset.refl _) h
  | .mctpMailboxMessage .., h => execMctpMailboxMessage_keeps (List.Subset.refl _) h
  | .pldmRequest .., h => execPldmRequest_keeps (List.Subset.refl _) h
  | .smbusTimeout .., h => execSmbusTimeout_keeps (List.Subset.refl _) h
  | .ideIntegrityFail .., h => execIdeIntegrityFail_keeps (List.Subset.refl _) h
  | .bar2Read .., h => execBar2Read_keeps (List.Subset.refl _) h
  | .bar2Write .., h => execBar2Write_keeps (List.Subset.refl _) h
  | .hostDoorbell .., h => execHostDoorbell_keeps (List.Subset.refl _) h
  | .completionDoorbell .., h => execCompletionDoorbell_keeps (List.Subset.refl _) h
  | .hostSubmissionRead .., h => execHostSubmissionRead_keeps (List.Subset.refl _) h
  | .firstClr .., h => execFirstClr_keeps (List.Subset.refl _) h
  | .histClr .., h => execHistClr_keeps (List.Subset.refl _) h
  | .registerWrite .., h => execRegisterWrite_keeps (List.Subset.refl _) h
  | .go .., h => execGo_keeps (List.Subset.refl _) h
  | .stop .., h => execStop_keeps (List.Subset.refl _) h
  | .readyClear .., h => execReadyClear_keeps (List.Subset.refl _) h
  | .microprogramWrite .., h => execMicroprogramWrite_keeps (List.Subset.refl _) h
  | .slotStart .., h => execSlotStart_keeps (List.Subset.refl _) h
  | .nop .., h => execNop_keeps (List.Subset.refl _) h
  | .li .., h => execLi_keeps (List.Subset.refl _) h
  | .add .., h => execAdd_keeps (List.Subset.refl _) h
  | .gets .., h => execGets_keeps (List.Subset.refl _) h
  | .gete .., h => execGete_keeps (List.Subset.refl _) h
  | .beq .., h => execBeq_keeps (List.Subset.refl _) h
  | .bne .., h => execBne_keeps (List.Subset.refl _) h
  | .jmp .., h => execJmp_keeps (List.Subset.refl _) h
  | .stopb .., h => execStopb_keeps (List.Subset.refl _) h
  | .endSlot .., h => execEndSlot_keeps (List.Subset.refl _) h
  | .failSlot .., h => execFailSlot_keeps (List.Subset.refl _) h
  | .clrp .., h => execClrp_keeps (List.Subset.refl _) h
  | .clra .., h => execClra_keeps (List.Subset.refl _) h
  | .rdk .., h => execRdk_keeps (List.Subset.refl _) h
  | .rdv .., h => execRdv_keeps (List.Subset.refl _) h
  | .rdbk .., h => execRdbk_keeps (List.Subset.refl _) h
  | .rdbv .., h => execRdbv_keeps (List.Subset.refl _) h
  | .segmentReadDone .., h => execSegmentReadDone_keeps (List.Subset.refl _) h
  | .qk .., h => execQk_keeps (List.Subset.refl _) h
  | .exps .., h => execExps_keeps (List.Subset.refl _) h
  | .pv .., h => execPv_keeps (List.Subset.refl _) h
  | .emit .., h => execEmit_keeps (List.Subset.refl _) h
  | .cpyrow .., h => execCpyrow_keeps (List.Subset.refl _) h
  | .patw .., h => execPatw_keeps (List.Subset.refl _) h
  | .patr .., h => execPatr_keeps (List.Subset.refl _) h
  | .arrt .., h => execArrt_keeps (List.Subset.refl _) h
  | .yreqRaise .., h => execYreqRaise_keeps (List.Subset.refl _) h
  | .yreqDrop .., h => execYreqDrop_keeps (List.Subset.refl _) h
  | .ordinaryAccess .., h => execOrdinaryAccess_keeps (List.Subset.refl _) h
  | .ownLimitExpiry .., h => execOwnLimitExpiry_keeps (List.Subset.refl _) h
  | .sweepLimitExpiry .., h => execSweepLimitExpiry_keeps (List.Subset.refl _) h
  | .jetResponseTimeout .., h => execJetResponseTimeout_keeps (List.Subset.refl _) h
  | .jetReset .., h => execJetReset_keeps (List.Subset.refl _) h
  | .write .., h => execWrite_keeps (List.Subset.refl _) h
  | .writeImm .., h => execWriteImm_keeps (List.Subset.refl _) h
  | .writeImmMailbox .., h => execWriteImmMailbox_keeps (List.Subset.refl _) h
  | .cqHoldExpiry .., h => execCqHoldExpiry_keeps (List.Subset.refl _) h
  | .forwardCompletion .., h => execForwardCompletion_keeps (List.Subset.refl _) h
  | .readReq .., h => execReadReq_keeps (List.Subset.refl _) h
  | .readDeadline .., h => execReadDeadline_keeps (List.Subset.refl _) h
  | .attend .., h => execAttend_keeps (List.Subset.refl _) h
  | .append .., h => execAppend_keeps (List.Subset.refl _) h
  | .ingest .., h => execIngest_keeps (List.Subset.refl _) h
  | .commit .., h => execCommit_keeps (List.Subset.refl _) h
  | .commitApply .., h => execCommitApply_keeps (List.Subset.refl _) h
  | .cancel .., h => execCancel_keeps (List.Subset.refl _) h
  | .sramCopyRelease .., h => execSramCopyRelease_keeps (List.Subset.refl _) h
  | .appendDeadline .., h => execAppendDeadline_keeps (List.Subset.refl _) h
  | .landingResume .., h => execLandingResume_keeps (List.Subset.refl _) h
  | .admissionStep .., h => execAdmissionStep_keeps (List.Subset.refl _) h
  | .admitWaitExpiry .., h => execAdmitWaitExpiry_keeps (List.Subset.refl _) h
  | .slotCollect .., h => execSlotCollect_keeps (List.Subset.refl _) h
  | .entryMerge .., h => execEntryMerge_keeps (List.Subset.refl _) h
  | .cutTime .., h => execCutTime_keeps (List.Subset.refl _) h
  | .confluenceDeadline .., h => execConfluenceDeadline_keeps (List.Subset.refl _) h
  | .provSetExpiry .., h => execProvSetExpiry_keeps (List.Subset.refl _) h
  | .hedgeEvaluate .., h => execHedgeEvaluate_keeps (List.Subset.refl _) h
  | .hedge .., h => execHedge_keeps (List.Subset.refl _) h
  | .hedgeClaim .., h => execHedgeClaim_keeps (List.Subset.refl _) h
  | .mirror .., h => execMirror_keeps (List.Subset.refl _) h
  | .mirrorAck .., h => execMirrorAck_keeps (List.Subset.refl _) h
  | .mirrorKeepalive .., h => execMirrorKeepalive_keeps (List.Subset.refl _) h
  | .writerApplyTimeout .., h => execWriterApplyTimeout_keeps (List.Subset.refl _) h
  | .twinSilenceTimeout .., h => execTwinSilenceTimeout_keeps (List.Subset.refl _) h
  | .joiningTimeout .., h => execJoiningTimeout_keeps (List.Subset.refl _) h
  | .rejoin .., h => execRejoin_keeps (List.Subset.refl _) h
  | .resyncComplete, h => execResyncComplete_keeps (List.Subset.refl _) h
  | .dirUpdate .., h => execDirUpdate_keeps (List.Subset.refl _) h
  | .dirQuery .., h => execDirQuery_keeps (List.Subset.refl _) h
  | .voidSync .., h => execVoidSync_keeps (List.Subset.refl _) h
  | .void .., h => execVoid_keeps (List.Subset.refl _) h
  | .ack .., h => execAck_keeps (List.Subset.refl _) h
  | .nak .., h => execNak_keeps (List.Subset.refl _) h
  | .ackTimerExpiry .., h => execAckTimerExpiry_keeps (List.Subset.refl _) h
  | .retransmitTimerExpiry .., h => execRetransmitTimerExpiry_keeps (List.Subset.refl _) h
  | .peerProbe .., h => execPeerProbe_keeps (List.Subset.refl _) h
  | .linkDown .., h => execLinkDown_keeps (List.Subset.refl _) h
  | .pfcFrame .., h => execPfcFrame_keeps (List.Subset.refl _) h
  | .neighborSolicitation .., h => execNeighborSolicitation_keeps (List.Subset.refl _) h
  | .echoRequest .., h => execEchoRequest_keeps (List.Subset.refl _) h
  | .otherFrame .., h => execOtherFrame_keeps (List.Subset.refl _) h
  | .portTransmit .., h => execPortTransmit_keeps (List.Subset.refl _) h
  | .weirTakeover .., h => execWeirTakeover_keeps (List.Subset.refl _) h
  | .weirEntryAdvance .., h => execWeirEntryAdvance_keeps (List.Subset.refl _) h
  | .epochCommitTime .., h => execEpochCommitTime_keeps (List.Subset.refl _) h
  | .epochDrainEnd .., h => execEpochDrainEnd_keeps (List.Subset.refl _) h
  | .resourceScrubDone .., h => execResourceScrubDone_keeps (List.Subset.refl _) h
  | .promote .., h => execPromote_keeps (List.Subset.refl _) h
  | .demoteTimeout .., h => execDemoteTimeout_keeps (List.Subset.refl _) h
  | .migrationSwap .., h => execMigrationSwap_keeps (List.Subset.refl _) h
  | .oldRunRelease .., h => execOldRunRelease_keeps (List.Subset.refl _) h
  | .scrubPass .., h => execScrubPass_keeps (List.Subset.refl _) h
  | .selfTestVerdict .., h => execSelfTestVerdict_keeps (List.Subset.refl _) h
  | .pairSparing .., h => execPairSparing_keeps (List.Subset.refl _) h
  | .pairSpareSwitch .., h => execPairSpareSwitch_keeps (List.Subset.refl _) h
  | .laneDegrade _ _ cause, h => execLaneDegrade_keeps (a3 := cause) (List.Subset.refl _) h
  | .tsvFault .., h => execTsvFault_keeps (List.Subset.refl _) h
  | .sbCommandWord .., h => execSbCommandWord_keeps (List.Subset.refl _) h
  | .sbDataWord .., h => execSbDataWord_keeps (List.Subset.refl _) h
  | .sbWordDiscarded .., h => execSbWordDiscarded_keeps (List.Subset.refl _) h
  | .sbDataTimeout .., h => execSbDataTimeout_keeps (List.Subset.refl _) h
  | .resetKey .., h => execResetKey_keeps (List.Subset.refl _) h
  | .errClr .., h => execErrClr_keeps (List.Subset.refl _) h
  | .bypass, h => execBypass_keeps (List.Subset.refl _) h
  | .idcode, h => execIdcode_keeps (List.Subset.refl _) h
  | .samplePreload, h => execSamplePreload_keeps (List.Subset.refl _) h
  | .extest, h => execExtest_keeps (List.Subset.refl _) h
  | .extestPulse, h => execExtestPulse_keeps (List.Subset.refl _) h
  | .extestTrain, h => execExtestTrain_keeps (List.Subset.refl _) h
  | .reservedOpcode .., h => execReservedOpcode_keeps (List.Subset.refl _) h
  | .undefinedOpcode .., h => execUndefinedOpcode_keeps (List.Subset.refl _) h
  | .malformedFrame .., h => execMalformedFrame_keeps (List.Subset.refl _) h
  | .clockReturn .., h => execClockReturn_keeps (List.Subset.refl _) h
  | .pcieConfigRequest fn, h => execPcieConfigRequest_keeps (a1 := fn) (List.Subset.refl _) h
  | .ideKmMessage .., h => execIdeKmMessage_keeps (List.Subset.refl _) h
  | .nodeResetDelayExpiry .., h => execNodeResetDelayExpiry_keeps (List.Subset.refl _) h

/-- No command faults or is refused: each meaning runs an effect on the state. -/
theorem exec_answers (i : Instr) (s : State) : ∃ t, exec i s = .next t := by
  cases i <;> exact ⟨_, rfl⟩

theorem pending_not_mem_touches (i : Instr) : Region.pending ∉ touches i := by
  cases i <;> exact of_decide_eq_true rfl

/-- A command answers a next state that keeps all but what it touches. -/
theorem exec_next_keeps (i : Instr) (s : State) : ∃ t, exec i s = .next t ∧ Keeps (touches i) s t := by
  obtain ⟨t, ht⟩ := exec_answers i s
  exact ⟨t, ht, exec_keeps i (Keeps.refl _ s) t ht⟩

theorem step_of_pending_eq_nil {s : State} (h : s.pending = []) : step s = .next s := by
  rw [step, h]

theorem step_of_pending_eq_cons {s : State} {i : Instr} {l : List Instr} (h : s.pending = i :: l) :
    step s = exec i { s with pending := l } := by
  rw [step, h]

theorem inv_withPending {s : State} (h : s.Inv) (l : List Instr) : State.Inv { s with pending := l } :=
  inv_same h rfl rfl rfl rfl rfl rfl rfl rfl

/-- Settles O3: an idle step keeps the state, any other one is its command's meaning, which keeps the legal states. -/
theorem stepKeepsInvariant : Obligations.StepKeepsInvariant := by
  unfold Obligations.StepKeepsInvariant
  intro s t hs ht
  cases hp : s.pending with
  | nil =>
    rw [step_of_pending_eq_nil hp] at ht
    cases ht
    exact hs
  | cons i l =>
    rw [step_of_pending_eq_cons hp] at ht
    exact exec_inv i (inv_withPending hs l) t ht

/-- Settles O4: every meaning runs an effect, whose frame is the list of `touches`; no list names the queue. -/
theorem commandFrames : Obligations.CommandFrames := by
  unfold Obligations.CommandFrames
  exact ⟨exec_next_keeps, pending_not_mem_touches⟩

/-- Settles O1: the step hands the queue's rest to the command's meaning, and no command touches the queue (O4). -/
theorem stepTakesFront : Obligations.StepTakesFront := by
  unfold Obligations.StepTakesFront
  refine ⟨fun i l s => rfl, fun s => step_of_pending_eq_nil, fun i l s => ?_⟩
  obtain ⟨t, ht, hkeeps⟩ := exec_next_keeps i { s with pending := l }
  exact ⟨t, ht, hkeeps.same .pending (pending_not_mem_touches i)⟩

/-- Settles O2, each part of the invariant being a value of the reset state. -/
theorem resetIsLegal : Obligations.ResetIsLegal := by
  unfold Obligations.ResetIsLegal
  refine ⟨?_, rfl, rfl, rfl, rfl⟩
  exact {
    mem := ⟨List.Pairwise.nil, fun _ hc => absurd hc List.not_mem_nil⟩
    stage := by decide
    twin := by decide
    level := by decide
    pwrCfg := by decide
    fltCtl := by decide
    hist := by decide
    turn := by decide }

end Sys2Proof.Machine
end

section
/-! Writing grains (O6). The table of side words keeps, beyond the grains, the words of each bank pair's blank grains: a write
to such a key is no write of a grain, and is where the statement, made for every number, fails. -/

namespace Sys2Proof.Machine

/-- The side words of an ordinary grain carry its write generation in word 2. -/
theorem sideWord_two_sideWords_false (b : List Byte) (tag : Word32) (wgen : BitVec 16) :
    sideWord (sideWords false b tag wgen) 2 = wgen := rfl

/-- In a table that lists nothing but the words of a pair's blank grains, those words are read at every grain of the pair. -/
theorem sideOf_eq_of_side_eq_pairKey {s : State} {k : Nat} {w : List (BitVec 16)} (hside : s.side = [(pairKey (grainJet k), w)])
    (hk : k ≠ pairKey (grainJet k)) : s.sideOf k = w := by
  simp [State.sideOf, blankSide, hside, Tbl.getD, Tbl.get?, hk.symm]

theorem side_putGrain_of_side_eq_nil {s : State} (hside : s.side = []) (g : Nat) {m : Bool} {w : BitVec 16} {b : List Byte}
    (hne : sideWords m b (crc32c b) w ≠ zeroSide) : (s.putGrain g m w b).side = [(g, sideWords m b (crc32c b) w)] := by
  rw [State.putGrain, hside]
  exact if_neg hne

/-- Refutes O6: after a write to 2^30, the key of pair 0's blank grains, the side words of grain 0 are those written. -/
theorem not_grainWrites : ¬ Obligations.GrainWrites := by
  unfold Obligations.GrainWrites
  rintro ⟨hwrites, -⟩
  obtain ⟨-, -, -, hside⟩ :=
    hwrites State.reset (pairKey 0) false 1#16 (List.replicate 512 0#8) eccNone List.length_replicate
  have hne : sideWords false (List.replicate 512 0#8) (crc32c (List.replicate 512 0#8)) 1#16 ≠ zeroSide := fun h => by
    have hword := congrArg (sideWord · 2) h
    rw [sideWord_two_sideWords_false] at hword
    exact absurd hword (by decide)
  have hzero : (0 : Nat) ≠ pairKey 0 := by decide
  have hwritten := sideOf_eq_of_side_eq_pairKey (k := 0) (side_putGrain_of_side_eq_nil (s := State.reset) rfl _ hne) hzero
  have hblank : State.reset.sideOf 0 = zeroSide := rfl
  exact hne (hwritten.symm.trans ((hside 0 hzero).trans hblank))

end Sys2Proof.Machine
end

section
/-! The transport header (08 R238) and the page descriptor (02 R54) read back (O5). -/

namespace Sys2Proof.Machine

/-! ### The header: first its words among the 384 bits, then the fields of each word -/

/-- The words of W0 to W11, W8 and W9 being the halves of STAMP. -/
theorem extractLsb'_of_words {w0 w1 w2 w3 w4 w5 w6 w7 : Word32} {stamp : BitVec 64} {w10 w11 : Word32} {v : BitVec 384}
    (hv : v = w0 ++ w1 ++ w2 ++ w3 ++ w4 ++ w5 ++ w6 ++ w7 ++ stamp ++ w10 ++ w11) :
    v.extractLsb' 352 32 = w0 ∧ v.extractLsb' 320 32 = w1 ∧ v.extractLsb' 288 32 = w2 ∧ v.extractLsb' 256 32 = w3 ∧
    v.extractLsb' 224 32 = w4 ∧ v.extractLsb' 192 32 = w5 ∧ v.extractLsb' 160 32 = w6 ∧ v.extractLsb' 128 32 = w7 ∧
    v.extractLsb' 96 32 = stamp.extractLsb' 32 32 ∧ v.extractLsb' 64 32 = stamp.extractLsb' 0 32 ∧
    v.extractLsb' 32 32 = w10 ∧ v.extractLsb' 0 32 = w11 := by
  subst hv
  refine ⟨?w0, ?w1, ?w2, ?w3, ?w4, ?w5, ?w6, ?w7, ?hi, ?lo, ?w10, ?w11⟩
  all_goals repeat rw [BitVec.extractLsb'_append_eq_of_le (by decide)]
  case w0 => exact BitVec.extractLsb'_eq_self
  case hi | lo => exact BitVec.extractLsb'_append_eq_of_add_le (by decide)
  all_goals exact BitVec.extractLsb'_append_eq_right

theorem getLsbD_append_of_le {v w i : Nat} (x : BitVec v) (y : BitVec w) (h : w ≤ i) :
    (x ++ y).getLsbD i = x.getLsbD (i - w) := by
  rw [BitVec.getLsbD_append, if_neg (Nat.not_lt.2 h)]

theorem getLsbD_append_ofBool_zero {v : Nat} (x : BitVec v) (b : Bool) : (x ++ BitVec.ofBool b).getLsbD 0 = b := by
  rw [BitVec.getLsbD_append, if_pos Nat.one_pos, BitVec.getLsbD_ofBool, decide_eq_true rfl, Bool.true_and]

/-- Neighbouring pieces of a word, the upper one starting where the lower one ends. -/
theorem extractLsb'_append_extractLsb' {n : Nat} (x : BitVec n) (start lo mid hi : Nat) (h : start = lo + mid) :
    x.extractLsb' start hi ++ x.extractLsb' lo mid = x.extractLsb' lo (hi + mid) :=
  BitVec.extractLsb'_append_extractLsb'_eq_extractLsb' h

/-- The RsvdZ bits of the twelve words, put together again. -/
theorem extractLsb'_rsvd (r : BitVec 44) :
    r.extractLsb' 36 8 ++ r.extractLsb' 24 12 ++ r.extractLsb' 18 6 ++ r.extractLsb' 10 8 ++ r.extractLsb' 7 3 ++
      r.extractLsb' 4 3 ++ r.extractLsb' 2 2 ++ r.extractLsb' 0 2 = r := by
  rw [extractLsb'_append_extractLsb' r 36 24 12 8 rfl, extractLsb'_append_extractLsb' r 24 18 6 _ rfl,
    extractLsb'_append_extractLsb' r 18 10 8 _ rfl, extractLsb'_append_extractLsb' r 10 7 3 _ rfl,
    extractLsb'_append_extractLsb' r 7 4 3 _ rfl, extractLsb'_append_extractLsb' r 4 2 2 _ rfl,
    extractLsb'_append_extractLsb' r 2 0 2 _ rfl]
  exact BitVec.extractLsb'_eq_self

theorem decodeHdr_encodeHdr (h : Hdr) : decodeHdr (encodeHdr h) = h := by
  obtain ⟨h0, h1, h2, h3, h4, h5, h6, h7, h8, h9, h10, h11⟩ := extractLsb'_of_words (v := encodeHdr h) rfl
  simp only [decodeHdr, Nat.reduceSub, Nat.reduceMul, h0, h1, h2, h3, h4, h5, h6, h7, h8, h9, h10, h11]
  clear h0 h1 h2 h3 h4 h5 h6 h7 h8 h9 h10 h11
  cases h
  simp only [Hdr.mk.injEq]
  refine ⟨?_, ?first, ?last, ?acknow, ?void, ?sync, ?fwd, ?_, ?_, ?ver, ?_, ?_, ?seq, ?_, ?attempt, ?window, ?offset, ?gen,
    True.intro, ?stamp, True.intro, True.intro, ?rsvd⟩
  case first | last | acknow | void | sync | fwd =>
    repeat rw [getLsbD_append_of_le _ _ (by decide)]
    exact getLsbD_append_ofBool_zero _ _
  case offset =>
    rw [BitVec.extractLsb'_append_eq_right]
    exact (extractLsb'_append_extractLsb' _ 32 0 32 8 rfl).trans BitVec.extractLsb'_eq_self
  case stamp => exact (extractLsb'_append_extractLsb' _ 32 0 32 32 rfl).trans BitVec.extractLsb'_eq_self
  case rsvd =>
    refine Eq.trans ?_ (extractLsb'_rsvd _)
    refine congrArg₂ _ (congrArg₂ _ (congrArg₂ _ (congrArg₂ _ (congrArg₂ _ (congrArg₂ _ (congrArg₂ _ ?w5 ?w4) ?w3) ?w2)
      ?w1Top) ?w1) ?w0Top) ?w0
    all_goals repeat rw [BitVec.extractLsb'_append_eq_of_le (by decide)]
    case w1Top => exact BitVec.extractLsb'_eq_self
    all_goals exact BitVec.extractLsb'_append_eq_right
  all_goals repeat rw [BitVec.extractLsb'_append_eq_of_le (by decide)]
  case ver | seq | attempt | window | gen => exact BitVec.extractLsb'_eq_self
  all_goals exact BitVec.extractLsb'_append_eq_right

/-! ### The descriptor: its bytes hold one number, and each field is a digit of it -/

theorem leNat_leBytes (n v : Nat) : leNat (leBytes n v) = v % 256 ^ n := by
  induction n generalizing v with
  | zero => simp [leBytes, leNat, Nat.mod_one]
  | succ n ih =>
    rw [leBytes, leNat, ih, BitVec.toNat_ofNat, Nat.pow_succ' (m := 256), Nat.mod_mul]

theorem length_leBytes (n v : Nat) : (leBytes n v).length = n := by
  induction n generalizing v with
  | zero => rfl
  | succ n ih => rw [leBytes, List.length_cons, ih]

theorem slice_zero_length (l : List Byte) : slice l 0 l.length = l := by
  simp [slice]

theorem leAt_leBytes (n v : Nat) : leAt (leBytes n v) 0 n = v % 256 ^ n := by
  have hslice := slice_zero_length (leBytes n v)
  rw [length_leBytes] at hslice
  rw [leAt, hslice, leNat_leBytes]

theorem b2n_lt_two (b : Bool) : b2n b < 2 := by cases b <;> decide

theorem decide_b2n_eq_one (b : Bool) : decide (b2n b = 1) = b := by cases b <;> rfl

theorem descOf_descBytes {d : Desc} (hgrain : d.grain < 2 ^ 30) (hpfmt : d.pfmt < 16) (hvalid : d.validM1 < 16)
    (hhdim : d.hdim < 8) (hcstate : d.cstate < 4) (hbase : d.baseIdx < 2 ^ 20) (hstamp : d.stamp < 2 ^ 64)
    (hpos : d.tokenPos < 2 ^ 32) : descOf (descBytes d) = d := by
  obtain ⟨grain, pfmt, validM1, hdim, cstate, tail, inSram, contained, wgen, tagRoot, baseIdx, stamp, tokenPos⟩ := d
  have htail := b2n_lt_two tail
  have hsram := b2n_lt_two inSram
  have hcont := b2n_lt_two contained
  have hwgen := wgen.isLt
  have hroot := tagRoot.isLt
  dsimp only at *
  simp only [descOf, descBytes, leAt_leBytes, field, bit, Nat.testBit_eq_decide_div_mod_eq, Nat.shiftRight_eq_div_pow,
    Desc.mk.injEq]
  refine ⟨?grain, ?pfmt, ?validM1, ?hdim, ?cstate, ?tail, ?inSram, ?contained, ?wgen, ?tagRoot, ?baseIdx, ?stamp, ?tokenPos⟩
  case grain | pfmt | validM1 | hdim | cstate | baseIdx | stamp | tokenPos => omega
  case tail => exact (congrArg (fun n => decide (n = 1)) (by omega)).trans (decide_b2n_eq_one tail)
  case inSram => exact (congrArg (fun n => decide (n = 1)) (by omega)).trans (decide_b2n_eq_one inSram)
  case contained => exact (congrArg (fun n => decide (n = 1)) (by omega)).trans (decide_b2n_eq_one contained)
  case wgen => exact (congrArg (BitVec.ofNat 16) (by omega)).trans (((BitVec.ofNat_toNat 16 wgen).trans (BitVec.setWidth_eq wgen)))
  case tagRoot => exact (congrArg (BitVec.ofNat 32) (by omega)).trans (((BitVec.ofNat_toNat 32 tagRoot).trans (BitVec.setWidth_eq tagRoot)))

/-- Settles O5: header words and descriptor fields are cut where they were joined. -/
theorem headerAndDescriptorRoundTrip : Obligations.HeaderAndDescriptorRoundTrip := by
  unfold Obligations.HeaderAndDescriptorRoundTrip
  exact ⟨decodeHdr_encodeHdr, fun _ => descOf_descBytes⟩

end Sys2Proof.Machine
end

section
/-! Resets of the node (O9 to O11): what NODE_FULL and NODE_RETAIN leave, and the events that lead to them. -/

namespace Sys2Proof.Machine

/-- A command's answer, from the equation that its effect obeys in the case at hand. The effect may run on a state other than
the one that the command meets, the clock having moved on. -/
theorem Answers.of_eq {i : Instr} {s u v : State} {f : State → State} {P : State → Prop} (h : exec i s = run u f)
    (he : f { u with out := [] } = v) (hp : P { v with pending := u.pending }) : Answers i s P := ⟨_, h, he ▸ hp⟩

/-! ### NODE_FULL -/

theorem full_nodeReset (s : State) (last : Nat) :
    Claims.Full s { State.nodeReset { s with out := [] } .full last with pending := s.pending } last :=
  ⟨(Config.freeWord s.draws).setWidth 32, rfl⟩

theorem doPowerOn_of_rstLow (st : Straps) {s : State} (h : s.pins.rstLow = true) :
    doPowerOn st s = State.nodeReset { s with pins := { s.pins with straps := st, railOk := 0x7F#7 } } .full 0 := if_pos h

theorem doResetBall_of_long {n : Nat} {s : State} (hawake : s.awake = true) (hn : 1000000 ≤ n) :
    doResetBall n s = s.nodeReset .full 1 := by
  rw [doResetBall, hawake, decide_eq_true hn]
  rfl

theorem doResetBall_of_short {n : Nat} (s : State) (hn : n < 1000000) : doResetBall n s = s := by
  rw [doResetBall, decide_eq_false (Nat.not_le.2 hn), Bool.and_false]
  rfl

theorem doRailsRecovered_of_held {n : Nat} {s : State} (hrst : s.pins.rstLow = false) (hhold : s.pins.railHold = true)
    (htrip : s.pins.tripped = false) (hn : 1000000 ≤ n) :
    doRailsRecovered n s = State.nodeReset { s with pins := { s.pins with railOk := 0x7F#7 } } .full 0 := by
  simp [doRailsRecovered, hrst, hhold, htrip, hn]

theorem doThermalTripRelease_of_cool {n c : Nat} {s : State} (htrip : s.pins.tripped = true) (hhold : s.pins.railHold = false)
    (hn : 1000000 ≤ n) (hc : c < 95) : doThermalTripRelease n c s = s.nodeReset .full 1 := by
  simp [doThermalTripRelease, htrip, hhold, hn, hc]

theorem doNodeResetDelayExpiry_of_due {s : State} {scope : NodeScope} {at' : Nat} (hawake : s.awake = true)
    (hdue : s.boot.resetDue = some (scope, at')) (hat : at' ≤ s.clk.up) :
    doNodeResetDelayExpiry s = s.nodeReset scope (if scope == .retain then 3 else 2) := by
  simp [doNodeResetDelayExpiry, hdue, hawake, hat]

/-- Settles O9: each cause runs the reset at NODE_FULL. -/
theorem fullResetCauses : Obligations.FullResetCauses := by
  unfold Obligations.FullResetCauses
  refine ⟨fun st s h => ?_, fun n s hawake hn => ?_, fun n s hn => ?_, fun n s hrst hhold htrip hn => ?_,
    fun n c s htrip hhold hn hc => ?_, fun now at' s hawake hdue hat => ?_⟩
  · exact Answers.of_eq rfl (doPowerOn_of_rstLow st h) (full_nodeReset _ 0)
  · exact Answers.of_eq rfl (doResetBall_of_long hawake hn) (full_nodeReset s 1)
  · show run s (doResetBall n) = _
    rw [run, doResetBall_of_short _ hn]
  · exact Answers.of_eq rfl (doRailsRecovered_of_held hrst hhold htrip hn) (full_nodeReset _ 0)
  · exact Answers.of_eq rfl (doThermalTripRelease_of_cool htrip hhold hn hc) (full_nodeReset s 1)
  · exact Answers.of_eq (u := s.upTo now) rfl (doNodeResetDelayExpiry_of_due hawake hdue hat) (full_nodeReset _ 2)

/-! ### NODE_RETAIN -/

theorem session?_afterRetain (s : State) (last x : Nat) :
    ((s.afterRetain last).session? x).map (fun v => (v.skey, v.part, v.state, v.stamp)) =
      (s.session? x).map fun v => (v.skey, v.part, v.state, v.stamp) := by
  have hsessions : (s.afterRetain last).sessions =
      Tbl.mapVals s.sessions fun _ v => { v with heads := Tbl.mapVals v.heads fun _ h => h.retained } := rfl
  rw [State.session?, hsessions, Tbl.get?_mapVals, Option.map_map]
  rfl

/-- What NODE_RETAIN leaves stays so whatever bring-up makes of the stage, of PCIe and of the transmitters afterwards. -/
theorem retained_nodeReset (s : State) (last : Nat) :
    Claims.Retained s { State.nodeReset { s with out := [] } .retain last with pending := s.pending } last :=
  ⟨rfl, rfl, rfl, rfl, rfl, rfl, rfl, rfl, rfl, rfl, rfl, session?_afterRetain { s with out := [] } last, rfl, rfl, rfl, rfl, rfl,
    rfl, rfl, rfl, rfl, rfl, rfl, rfl⟩

theorem stage_nodeReset (s : State) (scope : NodeScope) (last : Nat) : (s.nodeReset scope last).boot.stage = 0 := by
  cases scope <;> rfl

theorem doResetKey_of_key {s : State} (hawake : s.awake = true) (hon : s.sbOn = true) :
    (if s.sbOn then doResetKey 0xA5C3#32 s else s) = s.nodeReset .retain 3 := by
  rw [if_pos hon, doResetKey, hawake]
  rfl

theorem doResetKey_of_ne {v : Word32} (s : State) (hv : v ≠ 0xA5C3#32) : (if s.sbOn then doResetKey v s else s) = s := by
  simp [doResetKey, hv]

/-! ### The FATAL path -/

theorem get?_map_entry {α : Type} (t : Tbl α) (n k : Nat) (f : α → α) :
    Tbl.get? (t.map fun p => if p.1 = n then (p.1, f p.2) else p) k = (Tbl.get? t k).map fun v => if k = n then f v else v := by
  have hmap : (t.map fun p => if p.1 = n then (p.1, f p.2) else p) = Tbl.mapVals t fun k v => if k = n then f v else v := by
    refine List.map_congr_left fun p _ => ?_
    by_cases h : p.1 = n <;> simp [h]
  rw [hmap, Tbl.get?_mapVals]

/-- An event without a place folds into the newest record alone, and only when that has its code. -/
theorem foldSlot_of_place_none {s : State} {e : Event} {n : Nat} (hplace : e.place = none) (h : s.foldSlot e = some n) :
    s.flt.newest = some n ∧ ∃ r, Tbl.get? s.flt.hist n = some r ∧ r.code = e.code := by
  have htest : s.testSlot e = none := by simp [State.testSlot, hplace]
  rw [State.foldSlot, htest] at h
  obtain ⟨m, hm, hrec⟩ := Option.bind_eq_some_iff.1 (show s.newestSlot e = some n from h)
  split at hrec
  · cases hrec
  · rename_i r hr
    split at hrec
    · rename_i hsame
      cases hrec
      simp only [Bool.and_eq_true, beq_iff_eq] at hsame
      obtain ⟨⟨⟨⟨-, -⟩, hcode⟩, -⟩, -⟩ := hsame
      exact ⟨hm, r, hr, hcode⟩
    · cases hrec

/-- After an event without a place the newest record has its code, whether the event folded into it or entered it. -/
theorem fault_newest {s : State} {e : Event} (hplace : e.place = none) :
    ∃ f n r, s.fault e = { s with flt := f } ∧ f.newest = some n ∧ Tbl.get? f.hist n = some r ∧ r.code = e.code := by
  cases hfold : s.foldSlot e with
  | none =>
    obtain ⟨f, hf, hnew⟩ := State.fault_spec s e
    obtain ⟨n, r, hn, hr, hcode⟩ := hnew hfold
    exact ⟨f, n, r, hf, hn, hr, hcode⟩
  | some n =>
    obtain ⟨hnewest, r, hr, hcode⟩ := foldSlot_of_place_none hplace hfold
    obtain ⟨f, hf, hfnew, hfhist⟩ := State.countEvent_spec s e
    refine ⟨_, n, { r with repeats := satAdd 16 r.repeats 1 }, by rw [State.fault, hfold]; dsimp only; rw [hf], ?_, ?_, hcode⟩
    · exact hfnew.trans hnewest
    · refine (get?_map_entry f.hist n n fun v : FltRec => { v with repeats := satAdd 16 v.repeats 1 }).trans ?_
      rw [show f.hist = s.flt.hist from hfhist, hr, Option.map_some, if_pos rfl]

/-- The FATAL times of the last hour with that of an event now, and the fault block that holds its record. -/
def State.withFatal (s : State) (f : Flt) : State :=
  { s with flt := f, boot := { s.boot with
      fatalTimes := (s.boot.fatalTimes.filter fun x => decide (s.clk.up < x + hourNs)) ++ [s.clk.up] } }

theorem length_fatalTimes_withFatal (s : State) (f : Flt) : (s.withFatal f).boot.fatalTimes.length = s.fatal1h + 1 :=
  List.length_append

/-- HELD, with PCIe up for the owner mailbox and the transmitters silent. -/
def State.held (s : State) : State :=
  let v := s.toStage 6
  { v with boot := { v.boot with pcieUp := true }, pins := { v.pins with squelched := true } }

/-- The FATAL path: NODE_RETAIN of the state that has the record, and HELD from the third event of an hour on. -/
theorem fatal_eq (s : State) (code kind idx : Nat) :
    ∃ f n r, f.newest = some n ∧ Tbl.get? f.hist n = some r ∧ r.code = code ∧
      (s.fatal1h < 2 → s.fatal code kind idx = (s.withFatal f).nodeReset .retain 4) ∧
      (2 ≤ s.fatal1h → s.fatal code kind idx = ((s.withFatal f).nodeReset .retain 4).held) := by
  obtain ⟨f, n, r, hf, hn, hr, hcode⟩ := fault_newest (s := s)
    (e := { code := code, srcKind := kind, srcIndex := idx, part := none, addr := 0, syndrome := 0#64, place := none }) rfl
  have hlen := length_fatalTimes_withFatal s f
  refine ⟨f, n, r, hn, hr, hcode, fun h => ?_, fun h => ?_⟩
  all_goals unfold State.fatal; rw [hf]
  · exact if_pos (lt_of_eq_of_lt hlen (Nat.succ_lt_succ h))
  · exact if_neg fun h3 => Nat.not_lt.2 h (Nat.lt_of_succ_lt_succ (lt_of_eq_of_lt hlen.symm h3))

theorem retainedAfter_fatal {s : State} (code kind idx : Nat) (hfew : s.fatal1h < 2) :
    let t : State := { State.fatal { s with out := [] } code kind idx with pending := s.pending }
    t.boot.stage = 0 ∧ Claims.RetainedAfter code s t := by
  obtain ⟨f, n, r, hn, hr, hcode, hfatal, -⟩ := fatal_eq { s with out := [] } code kind idx
  rw [hfatal hfew]
  exact ⟨rfl, f, n, r, hn, hr, hcode, retained_nodeReset (s.withFatal f) 4⟩

theorem held_fatal {s : State} (code kind idx : Nat) (hmany : 2 ≤ s.fatal1h) :
    Claims.Held s { State.fatal { s with out := [] } code kind idx with pending := s.pending } := by
  obtain ⟨f, n, r, -, -, -, -, hfatal⟩ := fatal_eq { s with out := [] } code kind idx
  rw [hfatal hmany]
  exact ⟨rfl, rfl, rfl, rfl, rfl, rfl, rfl, rfl, rfl, rfl, rfl, rfl⟩

/-- HELD keeps nothing that the passing of time changes. -/
theorem held_of_upTo {s t : State} {now : Nat} (h : Claims.Held (s.upTo now) t) : Claims.Held s t := h

theorem doWatchdogExpiry_of_awake {s : State} (h : s.awake = true) : doWatchdogExpiry s = s.fatal 0x23 10 0 := if_pos h

theorem doFatalEvent_of_awake (c : FatalCode) (i : Nat) {s : State} (h : s.awake = true) :
    doFatalEvent c i s = s.fatal (fatalCode c).1 (fatalCode c).2 (if c == .gateMismatch then i else 0) := if_pos h

/-- Settles O10: RESET_KEY and the command run the reset at NODE_RETAIN, the FATAL path runs it on the recorded event. -/
theorem retainResetCauses : Obligations.RetainResetCauses := by
  unfold Obligations.RetainResetCauses
  refine ⟨fun s hawake hon => ?_, fun v s hv => ?_, fun now at' s hawake hdue hat => ?_, fun now s hawake hfew => ?_,
    fun c i now s hawake hfew => ?_⟩
  · exact Answers.of_eq rfl (doResetKey_of_key hawake hon) ⟨retained_nodeReset s 3, stage_nodeReset _ .retain 3⟩
  · show run s _ = _
    rw [run, doResetKey_of_ne _ hv]
  · exact Answers.of_eq (u := s.upTo now) rfl (doNodeResetDelayExpiry_of_due hawake hdue hat)
      ⟨retained_nodeReset (s.upTo now) 3, stage_nodeReset _ .retain 3⟩
  · exact Answers.of_eq (u := s.upTo now) rfl (doWatchdogExpiry_of_awake hawake) (retainedAfter_fatal _ _ _ hfew)
  · exact Answers.of_eq (u := s.upTo now) rfl (doFatalEvent_of_awake c i hawake) (retainedAfter_fatal _ _ _ hfew)

/-- Settles O11: both events take the FATAL path, which holds the node from the third event on. -/
theorem thirdFatalHeld : Obligations.ThirdFatalHeld := by
  unfold Obligations.ThirdFatalHeld
  intro s now hawake hmany
  have hheld := fun code kind idx => held_of_upTo (held_fatal (s := s.upTo now) code kind idx hmany)
  exact ⟨fun c i => Answers.of_eq (u := s.upTo now) rfl (doFatalEvent_of_awake c i hawake) (hheld _ _ _),
    Answers.of_eq (u := s.upTo now) rfl (doWatchdogExpiry_of_awake hawake) (hheld _ _ _)⟩

end Sys2Proof.Machine
end

section
/-! Rails, temperatures and reference clocks (O12, O13). -/

namespace Sys2Proof.Machine

/-! ### Rails and temperatures -/

/-- The pins with one rail out of range, and held in reset or not. -/
def Pins.railOut (x : Pins) (rail : Nat) (hold : Bool) : Pins :=
  { x with railOk := x.railOk &&& ~~~(BitVec.ofNat 7 (2 ^ rail)), railHold := x.railHold || hold, squelched := x.squelched || hold }

theorem doRailOutOfRange_eq {rail : Nat} (ns : Nat) {s : State} (hrst : s.pins.rstLow = false) (hrail : rail < 7) :
    doRailOutOfRange rail ns s =
      { s with sb := { s.sb with irq := s.sb.irq ||| 2#3 }, pins := s.pins.railOut rail (decide (10000 < ns)) } := by
  have hguard : ¬ ((s.pins.rstLow || decide (7 ≤ rail)) = true) := by simp [hrst, hrail]
  refine (if_neg hguard).trans ?_
  by_cases hns : 10000 < ns
  · simp [hns, State.raiseIrq, Pins.railOut]
  · simp [hns, State.raiseIrq, Pins.railOut]

theorem doThermalTrip_of_hot {c ns : Nat} {s : State} (hawake : s.awake = true) (hc : 112 ≤ c) (hns : 100000 ≤ ns) :
    doThermalTrip c ns s =
      { s with pins := { s.pins with tripped := true, squelched := true, ppsRise := none }
               boot := { s.boot with selfRefresh := true } } := by
  simp [doThermalTrip, hawake, hc, hns]

/-- The dice refreshed at the doubled rate, after a die's temperature is read. -/
def Pins.withDie (x : Pins) (ch c : Nat) : Pins :=
  { x with hotDies := if 85 < c then x.hotDies.filter (· != ch) ++ [ch] else x.hotDies.filter (· != ch) }

theorem mem_hotDies_withDie (x : Pins) (ch c d : Nat) :
    d ∈ (x.withDie ch c).hotDies ↔ if d = ch then 85 < c else d ∈ x.hotDies := by
  by_cases hc : 85 < c <;> by_cases hd : d = ch <;> simp [Pins.withDie, hc, hd]

theorem doDramHot_eq {ch c : Nat} {s : State} (hawake : s.awake = true) (hch : ch < 128) :
    doDramHot ch c s = { s with pins := s.pins.withDie ch c } := by
  simp [doDramHot, hawake, hch, Pins.withDie]

/-- Settles O12: each event's equation names the pins that it writes, and the rest of the state is as it was. -/
theorem railAndThermalEvents : Obligations.RailAndThermalEvents := by
  unfold Obligations.RailAndThermalEvents
  refine ⟨fun rail ns s hrst hrail => ?_, fun c ns s hawake hc hns => ?_, fun ch c s hawake hch => ?_⟩
  · refine Answers.of_eq rfl (doRailOutOfRange_eq ns hrst hrail) ⟨rfl, rfl, rfl, rfl, fun hns => ?_, rfl⟩
    simp [State.faultN, Pins.railOut, hns]
  · exact Answers.of_eq rfl (doThermalTrip_of_hot hawake hc hns) ⟨rfl, by simp [State.faultN], by simp [State.thermAlert],
      by simp [State.awake]⟩
  · refine Answers.of_eq rfl (doDramHot_eq hawake hch) ⟨?_, fun x hx => ?_, rfl⟩
    · exact (mem_hotDies_withDie s.pins ch c ch).trans (by simp)
    · exact (mem_hotDies_withDie s.pins ch c x).trans (by simp [hx])

/-! ### Reference clocks -/

theorem doClockAbsent_of_stage_one (c : RefClk) {s : State} (hawake : s.awake = true) (hstage : s.boot.stage = 1) :
    doClockAbsent c s = State.toFailed { s with pins := s.pins.withClock c false } 2 := by
  simp [doClockAbsent, hawake, hstage]

theorem doClockAbsent_pe_of_service {s : State} (hawake : s.awake = true) (hstage : s.boot.stage = 5) :
    doClockAbsent .pe s =
      let u := State.functionReset { s with pins := s.pins.withClock .pe false }
      { u with boot := { u.boot with pcieUp := false } } := by
  simp [doClockAbsent, hawake, hstage]

theorem doClockReturn_pe_of_stage {s : State} (hawake : s.awake = true) (hlo : 2 ≤ s.boot.stage) (hhi : s.boot.stage ≤ 5) :
    doClockReturn .pe s = { s with pins := { s.pins with clkPe := true }, boot := { s.boot with pcieUp := true } } := by
  simp [doClockReturn, hawake, hlo, hhi, Pins.withClock]

theorem doClockReturn_sd1 {s : State} (hawake : s.awake = true) :
    doClockReturn .sd1 s =
      State.each { s with pins := { s.pins with clkSd1 := true } } ((halfPorts .sd1).filter fun p => !(s.port p).up)
        State.retrainPort := by
  rw [doClockReturn, hawake]
  rfl

theorem clocksOk_withClock_false (x : Pins) (c : RefClk) : (x.withClock c false).clocksOk = false := by
  cases c <;> simp [Pins.withClock, Pins.clocksOk]

theorem pins_toStage (s : State) (n : Nat) : (s.toStage n).pins = s.pins :=
  (State.toStage_keeps (List.Subset.refl _) (Keeps.refl _ s)).same .pins (by decide)

theorem mem_toFailed (s : State) (cause : Nat) : (s.toFailed cause).mem = s.mem :=
  (State.toFailed_keeps (List.Subset.refl _) (Keeps.refl _ s)).same .mem (by decide)

theorem clocksOk_toFailed (s : State) (cause : Nat) : (s.toFailed cause).pins.clocksOk = s.pins.clocksOk := by
  simp only [State.toFailed, Pins.clocksOk, pins_toStage]

theorem each_retrainPort (l : List Nat) (s : State) :
    s.each l State.retrainPort =
      { s with boot := { s.boot with portsTried := s.boot.portsTried.filter fun p => !l.contains p } } := by
  induction l generalizing s with
  | nil => simp [State.each]
  | cons p l ih =>
    have hstep : s.each (p :: l) State.retrainPort = (s.retrainPort p).each l State.retrainPort := rfl
    have hcontains : ∀ a, (!l.contains a && a != p) = !(p :: l).contains a := fun a => by
      rw [List.contains_cons, Bool.not_or, Bool.and_comm]
      rfl
    rw [hstep, ih, State.retrainPort, List.filter_filter]
    simp only [hcontains]

theorem mem_halfPorts_sd1 {p : Nat} : p ∈ halfPorts .sd1 ↔ 12 ≤ p ∧ p < 24 := by
  simp only [halfPorts, List.mem_map, List.mem_range]
  constructor
  · rintro ⟨k, hk, rfl⟩
    omega
  · rintro ⟨hlo, hhi⟩
    exact ⟨p - 12, by omega, by omega⟩

theorem pins_functionReset (s : State) : s.functionReset.pins = s.pins :=
  (State.functionReset_keeps (List.Subset.refl _) (Keeps.refl _ s)).same .pins (by decide)

theorem doPcieConfigRequest_of_down {s : State} (hawake : s.awake = true) (hdown : s.boot.pcieUp = false)
    (hstage : s.boot.stage < 2) : doPcieConfigRequest s = s.emit .retryStatus := by
  have hnot : ¬ (2 ≤ s.boot.stage ∧ s.boot.stage ≤ 5) := fun h => absurd h.1 (by omega)
  rw [doPcieConfigRequest, hawake, hdown, decide_eq_false hnot]
  rfl

theorem doPcieConfigRequest_of_up {s : State} (hawake : s.awake = true) (hup : s.boot.pcieUp = true) :
    doPcieConfigRequest s = s.emit .configDone := by
  rw [doPcieConfigRequest, hawake, hup]
  rfl

/-- The ports that may train again once the second half's clock is back. -/
theorem mem_portsTried_of_sd1 (s : State) (p : Nat) :
    p ∈ (s.boot.portsTried.filter fun p => !((halfPorts .sd1).filter fun q => !(s.port q).up).contains p) ↔
      p ∈ s.boot.portsTried ∧ ¬ (12 ≤ p ∧ p < 24 ∧ (s.port p).up = false) := by
  have hhalf : (p < 24 → 12 ≤ p → (s.port p).up = true) ↔ ¬ (12 ≤ p ∧ p < 24 ∧ (s.port p).up = false) := by
    cases (s.port p).up <;> simp
    omega
  rw [← hhalf]
  simp [List.mem_filter, mem_halfPorts_sd1]
  intro _
  have hlo : 12 ≤ p ↔ ¬ p < 12 := not_lt.symm
  have hhi : 24 ≤ p ↔ ¬ p < 24 := not_lt.symm
  rw [hlo, hhi]
  tauto

/-- Settles O13. -/
theorem referenceClocks : Obligations.ReferenceClocks := by
  unfold Obligations.ReferenceClocks
  refine ⟨fun c s hawake hstage => ?_, fun s hawake hstage => ?_, fun s hawake hlo hhi => ?_, fun s hawake => ?_,
    fun f s hawake hdown hstage => ?_, fun f s hawake hup => ?_⟩
  · refine Answers.of_eq rfl (doClockAbsent_of_stage_one c hawake hstage) ⟨rfl, rfl, rfl, ?_, ?_⟩
    · dsimp only
      exact (clocksOk_toFailed _ 2).trans (clocksOk_withClock_false s.pins c)
    · dsimp only
      exact mem_toFailed _ 2
  · refine Answers.of_eq rfl (doClockAbsent_pe_of_service hawake hstage) ⟨rfl, ?_⟩
    dsimp only
    rw [pins_functionReset]
    rfl
  · exact Answers.of_eq rfl (doClockReturn_pe_of_stage hawake hlo hhi) rfl
  · refine Answers.of_eq rfl ((doClockReturn_sd1 (s := { s with out := [] }) hawake).trans (each_retrainPort _ _)) ⟨rfl, rfl, fun p => ?_⟩
    exact mem_portsTried_of_sd1 s p
  · show run s doPcieConfigRequest = _
    rw [run, doPcieConfigRequest_of_down (s := { s with out := [] }) hawake hdown hstage]
    rfl
  · show run s doPcieConfigRequest = _
    rw [run, doPcieConfigRequest_of_up (s := { s with out := [] }) hawake hup]
    rfl

end Sys2Proof.Machine
end

section
/-! Management commands: what an accepted one does, and where its response goes (O14, O16). -/

namespace Sys2Proof.Machine

/-! ### Accepted commands -/

/-- A command's answer, where the effect leaves the queue in place. -/
theorem Answers.of_kept {i : Instr} {s u v : State} {f : State → State} {P : State → Prop} (h : exec i s = run u f)
    (he : f { u with out := [] } = v) (hq : v.pending = u.pending) (hp : P v) : Answers i s P :=
  .of_eq h he (hq ▸ hp)

/-- What a command does, from the equation that its effect obeys in the case at hand. -/
theorem does_of_eq {i : Instr} {s : State} {f g : State → State} (h : exec i s = run s g)
    (he : g { s with out := [] } = f { s with out := [] }) : Claims.Does i s f := by
  unfold Claims.Does
  rw [h, run, he]

theorem agtan_of_accepted {o : AgtanOp} {c : AgtanCmd} {s : State} (hacc : Claims.Accepted o c s) (k : State → State) :
    State.agtan { s with out := [] } o c k = k { s with out := [] } :=
  State.agtan_ok hacc.1 hacc.2

/-- An accepted management command does what its own meaning says. -/
theorem does_of_accepted {i : Instr} {o : AgtanOp} {c : AgtanCmd} {s : State} {f k : State → State}
    (hacc : Claims.Accepted o c s) (h : exec i s = run s fun t => t.agtan o c k)
    (he : k { s with out := [] } = f { s with out := [] }) : Claims.Does i s f :=
  does_of_eq h ((agtan_of_accepted hacc k).trans he)

theorem Answers.of_accepted {i : Instr} {o : AgtanOp} {c : AgtanCmd} {s v : State} {k : State → State} {P : State → Prop}
    (hacc : Claims.Accepted o c s) (h : exec i s = run s fun t => t.agtan o c k) (he : k { s with out := [] } = v)
    (hq : v.pending = s.pending) (hp : P v) : Answers i s P :=
  .of_kept h ((agtan_of_accepted hacc k).trans he) hq hp

/-! ### Where a response goes (14 R449 to R451) -/

theorem State.respond_spdm {s : State} {op : BitVec 16} {c : AgtanCmd} {st : Nat} {b : List Byte} {e : SpdmEp}
    {n : BitVec 32} (h : c.path = .spdm e n) :
    s.respond op c st b =
      State.emit { s with sec := { s.sec with
        spdm := Tbl.modify s.sec.spdm (spdmIndex e) Spdm.init fun x => { x with kept := some (c.seq, s.respBytes op c.seq st b) } } }
        (.spdm e "VENDOR_DEFINED_RESPONSE" (s.respBytes op c.seq st b) 0) := by
  unfold State.respond
  rw [h]

@[simp] theorem mbox_emit (s : State) (e : Out) (m : Nat) : (s.emit e).mbox m = s.mbox m := rfl

@[simp] theorem mbox_signal (s : State) (fn : Fn) (v : BitVec 12) (m : Nat) : (s.signal fn v).mbox m = s.mbox m := rfl

/-- Settles O14, by the response's equation on each path. -/
theorem responsePaths : Obligations.ResponsePaths := by
  unfold Obligations.ResponsePaths
  refine ⟨fun c s f v hacc hpath => ?_, fun c s f v hacc hpath => ?_, fun c s e n hacc hpath => ?_, fun c s hacc hpath => ?_,
    fun c s src k w imm hacc hpath => ?_⟩
  · refine .of_accepted hacc rfl (State.respond_bar0 hpath) rfl ⟨rfl, fun m hm => ?_, ?_⟩
    · exact State.updMbox_other _ _ hm
    · exact State.updMbox_same _ _ _
  · refine .of_accepted hacc rfl (State.respond_bar0_irq hpath) rfl ⟨?_, ?_, rfl⟩
    · rw [mbox_signal, State.updMbox_same]
      rfl
    · rw [mbox_signal, State.updMbox_same]
      rfl
  · exact .of_accepted hacc rfl (State.respond_spdm hpath) rfl ⟨rfl, rfl⟩
  · refine .of_accepted hacc rfl (State.respond_mctp hpath) rfl ⟨_, rfl, ?_⟩
    rw [mbox_emit, State.updMbox_same]
  · exact does_of_accepted hacc rfl (State.respond_wt hpath)

/-! ### The commands that read the node (14 R456) -/

theorem ownWindow_of_owner {s : State} {c : AgtanCmd} {w : Nat} (hw : w < 65536) (hown : s.ownerOfWindow w = some (cmdPart c)) :
    s.ownWindow c w = true := by
  simp [State.ownWindow, hw, hown]

theorem ownQueue_of_owner {s : State} {c : AgtanCmd} {q : Nat} (hown : s.ownerOfQueue q = some (cmdPart c)) :
    s.ownQueue c q = true := by
  simp [State.ownQueue, hown]

/-- Settles O16: each read is its one response. -/
theorem nodeReads : Obligations.NodeReads := by
  unfold Obligations.NodeReads
  refine ⟨fun c s hacc => ?_, fun c s hacc => ?_, fun c s hacc => ?_, fun c s hacc hbit => ?_, fun c s hacc hbit => ?_,
    fun c s hacc hw hown => ?_, fun c s hacc hown => ?_, fun c s hacc => ?_⟩
  · exact does_of_accepted hacc rfl rfl
  · exact does_of_accepted hacc rfl rfl
  · exact does_of_accepted hacc rfl rfl
  · refine does_of_accepted hacc rfl ?_
    dsimp only
    rw [if_neg (ne_true_of_eq_false hbit)]
    rfl
  · refine does_of_accepted hacc rfl ?_
    dsimp only
    rw [if_pos hbit]
    rfl
  · exact does_of_accepted hacc rfl (if_pos (ownWindow_of_owner hw hown))
  · exact does_of_accepted hacc rfl (if_pos (ownQueue_of_owner hown))
  · exact does_of_accepted hacc rfl rfl

end Sys2Proof.Machine
end

section
/-! Staging, and the commit of a staging set (O17 to O19). -/

namespace Sys2Proof.Machine

/-! ### Staging commands (13 R431, 14 R456) -/

theorem stageSet_fresh (s : State) (n : Nat) : State.stageSet { s with out := [] } n = s.stageSet n := rfl

/-- A staging command that passes its own check stages its changes. -/
theorem stages_of_accepted {i : Instr} {o : AgtanOp} {c : AgtanCmd} {s : State} {l : List Staged} {ok : State → Bool}
    {op : BitVec 16} (hacc : Claims.Accepted o c s) (h : exec i s = run s fun t => t.stageCmd o c ok l) (hop : o.code = op)
    (hok : ok { s with out := [] } = true) : Claims.Stages i c s op l := by
  subst hop
  refine ⟨fun hopen => does_of_accepted hacc h ?_, fun hseal => does_of_accepted hacc h ?_⟩
  · have hitems := State.stageItems_open (s := { s with out := [] }) (l := l) hopen
    simp only [hok, hitems, hopen, stageSet_fresh]
    rfl
  · have hitems := State.stageItems_sealed (s := { s with out := [] }) (l := l) hseal
    simp only [hok, hitems]
    rfl

/-- Settles O17: each command is a staging command whose own check the hypotheses give. -/
theorem ownerStaging : Obligations.OwnerStaging := by
  unfold Obligations.OwnerStaging
  refine ⟨fun c s hacc hrsvd hentry => ?_, fun c s hacc htier hslc hlo hhi hwlo hwhi => ?_, fun c s hacc => ?_,
    fun c s hacc hpcps => ?_, fun c s hacc htwin => ?_, fun c s hacc => ?_⟩
  · exact stages_of_accepted hacc rfl rfl (Bool.and_eq_true_iff.2 ⟨hrsvd, hentry⟩)
  · refine stages_of_accepted hacc rfl rfl ?_
    simp only [Bool.and_eq_true, decide_eq_true_eq]
    exact ⟨⟨⟨htier, hslc⟩, hlo, hhi⟩, hwlo, hwhi⟩
  · exact stages_of_accepted hacc rfl rfl rfl
  · exact stages_of_accepted hacc rfl rfl hpcps
  · exact stages_of_accepted hacc rfl rfl htwin
  · exact stages_of_accepted hacc rfl rfl rfl

/-- A node in service with nothing configured. -/
def State.bareService : State :=
  { State.reset with
    pins := { Pins.init with rstLow := false }, boot := { Boot.init with stage := 5, pcieUp := true } }

/-- A WEIR_STAGE of a whole list for port 0, its one entry with every gate closed for 20 µs, which 09 R302 forbids. -/
def weirClosedCmd : AgtanCmd :=
  { mb := 0, path := .bar0 .pf 0#12 false, seq := 1#16, len := 32#10, part := 0#4, rsvd := 0#98
    body := leBytes 8 (2 ^ 16) ++ leBytes 16 (20000 * 2 ^ 64 + 2 ^ 96) ++ leBytes 8 (20000 * 2 ^ 32) }

theorem accepted_weirClosed : Claims.Accepted opWeirStage weirClosedCmd State.bareService := by
  constructor <;> rfl

/-- How many staging sets a command's next state holds. -/
def setCount : Host.Outcome State Fault Refusal → Nat
  | .next t => t.ep.sets.length
  | _ => 0

/-- Refutes O18: a part that is in its ranges but makes the port's list whole and out of order (09 R302) is refused FORMAT and
not staged. -/
theorem not_transportStaging : ¬ Obligations.TransportStaging := by
  unfold Obligations.TransportStaging
  rintro ⟨-, -, -, hweir, -, -⟩
  have hdoes := (hweir weirClosedCmd State.bareService accepted_weirClosed (by decide)).1 rfl
  exact absurd (congrArg setCount hdoes) (by decide)

/-! ### CFG_COMMIT, CFG_ABORT, CFG_DISCARD (13 R432, R438) -/

/-- The changes of a mailbox's set are ready to be committed on the base epoch named (13 R432 items 1 and 2). -/
def State.CommitReady (s : State) (c : AgtanCmd) : Prop :=
  s.boot.stage = 5 ∧ (s.stageSet c.mb).items ≠ [] ∧ (s.stageSet c.mb).isSealed = false ∧
    (leAt c.body 8 8 = 0 ∨ leAt c.body 8 8 = s.ep.epoch)

/-- The status of R432's remaining checks, in service. -/
def State.serviceCommitStatus (s : State) (n time : Nat) : Nat :=
  s.commitStatus (fun at_ => s.commitOkItems s.commitBase (s.stageSet n).items (some at_)) time

/-- The first checks of a commit that is ready let the remaining ones decide. -/
theorem checks_of_commitReady {s : State} {c : AgtanCmd} (hready : s.CommitReady c) (st : Nat) :
    checks [(!(s.stageSet c.mb).items.isEmpty && !(s.stageSet c.mb).isSealed &&
        (leAt c.body 8 8 == 0 || leAt c.body 8 8 == s.ep.epoch), stFormat), (st == stOk, st)] = st := by
  obtain ⟨-, hitems, hopen, hbase⟩ := hready
  have hfirst : (!(s.stageSet c.mb).items.isEmpty && !(s.stageSet c.mb).isSealed &&
      (leAt c.body 8 8 == 0 || leAt c.body 8 8 == s.ep.epoch)) = true := by
    simpa [hopen, List.isEmpty_iff, hitems] using hbase
  by_cases hst : st = stOk
  · simp [checks, hfirst, hst]
  · simp [checks, hfirst, hst]

theorem doCfgCommit_refused {c : AgtanCmd} {s : State} {st : Nat} (hacc : Claims.Accepted opCfgCommit c s)
    (hready : s.CommitReady c) (hst : s.serviceCommitStatus c.mb (leAt c.body 0 8) = st) (hne : st ≠ stOk) :
    doCfgCommit c s = s.respond 0x0010#16 c st [] := by
  have hserving : (s.boot.stage == 5) = true := beq_iff_eq.2 hready.1
  rw [State.serviceCommitStatus] at hst
  rw [doCfgCommit, State.agtan_ok hacc.1 hacc.2]
  simp only [hserving, if_true, hst, checks_of_commitReady hready, bne_iff_ne, ne_eq, hne, not_false_eq_true]
  rfl

theorem doCfgCommit_accepted {c : AgtanCmd} {s : State} (hacc : Claims.Accepted opCfgCommit c s) (hready : s.CommitReady c)
    (hst : s.serviceCommitStatus c.mb (leAt c.body 0 8) = stOk) :
    doCfgCommit c s =
      let p : Pend := { what := .set c.mb, time := leAt c.body 0 8,
                        weirAt := takeOvers (s.stageSet c.mb).items (leAt c.body 0 8) }
      let u := s.setStageSet c.mb { isSealed := true, items := (s.stageSet c.mb).items }
      State.respond { u with ep := { u.ep with pend := some p } } 0x0010#16 c stOk
        (commitBody (s.ep.epoch + 1) p.time p.weirAt) := by
  have hserving : (s.boot.stage == 5) = true := beq_iff_eq.2 hready.1
  rw [State.serviceCommitStatus] at hst
  rw [doCfgCommit, State.agtan_ok hacc.1 hacc.2]
  simp only [hserving, if_true, hst, checks_of_commitReady hready, bne_self_eq_false]
  rfl

section
variable {s : State} {n time : Nat} (hstage : s.boot.stage = 5)
  (hok : s.commitOkItems s.commitBase (s.stageSet n).items (some time) = true)
include hstage hok

theorem serviceCommitStatus_ok (hfar : time ≤ s.clk.ftime + 60000000000) (hnear : s.clk.ftime + 100000 ≤ time)
    (hlive : s.liveEpochs < 2) : s.serviceCommitStatus n time = stOk := by
  simp [State.serviceCommitStatus, State.commitStatus, hstage, checks, hok, hfar, hnear, hlive]

theorem serviceCommitStatus_past (hpast : time < s.clk.ftime + 100000) : s.serviceCommitStatus n time = stPast := by
  have hfar : time ≤ s.clk.ftime + 60000000000 := by omega
  simp [State.serviceCommitStatus, State.commitStatus, hstage, checks, hok, hfar, Nat.not_le.2 hpast]

theorem serviceCommitStatus_busy (hfar : time ≤ s.clk.ftime + 60000000000) (hnear : s.clk.ftime + 100000 ≤ time)
    (hlive : 2 ≤ s.liveEpochs) : s.serviceCommitStatus n time = stBusy := by
  simp [State.serviceCommitStatus, State.commitStatus, hstage, checks, hok, hfar, hnear, Nat.not_lt.2 hlive]

end

theorem doCfgAbort_of_pending {c : AgtanCmd} {s : State} {p : Pend} (hacc : Claims.Accepted opCfgAbort c s)
    (hpend : s.ep.pend = some p) (hwhat : p.what = .set c.mb) (htime : s.clk.ftime + 10000 ≤ p.time) :
    doCfgAbort c s = (State.setStageSet { s with ep := { s.ep with pend := none } } c.mb
      { isSealed := false, items := (s.stageSet c.mb).items }).respond 0x0011#16 c stOk [] := by
  have hown : (p.ofSet c.mb && decide (s.clk.ftime + 10000 ≤ p.time)) = true := by simp [Pend.ofSet, hwhat, htime]
  rw [doCfgAbort, State.agtan_ok hacc.1 hacc.2]
  simp only [hpend, hown, if_true]
  rfl

theorem doCfgDiscard_of_open {c : AgtanCmd} {s : State} (hacc : Claims.Accepted opCfgDiscard c s)
    (hopen : (s.stageSet c.mb).isSealed = false) :
    doCfgDiscard c s = (s.setStageSet c.mb { isSealed := false, items := [] }).respond 0x0013#16 c stOk [] := by
  rw [doCfgDiscard, State.agtan_ok hacc.1 hacc.2]
  simp only [hopen, Bool.false_eq_true, if_false]
  rfl

theorem doCfgDiscard_of_sealed {c : AgtanCmd} {s : State} (hacc : Claims.Accepted opCfgDiscard c s)
    (hseal : (s.stageSet c.mb).isSealed = true) : doCfgDiscard c s = s.respond 0x0013#16 c stFormat [] := by
  rw [doCfgDiscard, State.agtan_ok hacc.1 hacc.2]
  simp only [hseal, if_true]
  rfl

/-- Settles O19, by the status that R432's checks give in each case. -/
theorem commitCommands : Obligations.CommitCommands := by
  unfold Obligations.CommitCommands
  refine ⟨fun c s hacc hstage hitems hopen hbase hok hfar hnear hlive => ?_,
    fun c s hacc hstage hitems hopen hbase hok hpast => ?_, fun c s hacc hstage hitems hopen hbase hok hfar hnear hlive => ?_,
    fun c s p hacc hpend hwhat htime => ?_, fun c s hacc hopen => ?_, fun c s hacc hseal => ?_⟩
  · exact does_of_eq rfl (doCfgCommit_accepted (s := { s with out := [] }) hacc ⟨hstage, hitems, hopen, hbase⟩
      (serviceCommitStatus_ok (s := { s with out := [] }) hstage hok hfar hnear hlive))
  · exact does_of_eq rfl (doCfgCommit_refused (s := { s with out := [] }) hacc ⟨hstage, hitems, hopen, .inl hbase⟩
      (serviceCommitStatus_past (s := { s with out := [] }) hstage hok hpast) (by decide))
  · exact does_of_eq rfl (doCfgCommit_refused (s := { s with out := [] }) hacc ⟨hstage, hitems, hopen, .inl hbase⟩
      (serviceCommitStatus_busy (s := { s with out := [] }) hstage hok hfar hnear hlive) (by decide))
  · exact does_of_eq rfl (doCfgAbort_of_pending (s := { s with out := [] }) hacc hpend hwhat htime)
  · exact does_of_eq rfl (doCfgDiscard_of_open (s := { s with out := [] }) hacc hopen)
  · exact does_of_eq rfl (doCfgDiscard_of_sealed (s := { s with out := [] }) hacc hseal)

end Sys2Proof.Machine
end

section
/-! The pending epoch in force, and the end of its drain and of a scrub (O20, O21). -/

namespace Sys2Proof.Machine

/-- The state as a command's effect meets it: nothing sent yet. -/
def State.fresh (s : State) : State := { s with out := [] }

theorem does_of_fresh {i : Instr} {s : State} {f : State → State} (g : State → State) (h : exec i s = run s g)
    (he : g s.fresh = f s.fresh) : Claims.Does i s f := does_of_eq h he

/-- A command's answer, from what its effect makes of the state. -/
theorem Answers.of_fresh {i : Instr} {s : State} {P : State → Prop} (u : State) (f : State → State) (h : exec i s = run u f)
    (hq : (f u.fresh).pending = u.pending) (hp : P (f u.fresh)) : Answers i s P := .of_kept h rfl hq hp

/-! ### What taking changes into force leaves of the settings and the epoch -/

/-- The settings in force, the epoch, the pending epoch and those that wait for service are the same in two states. -/
structure SameCommit (s t : State) : Prop where
  cfg : t.cfg = s.cfg
  epoch : t.ep.epoch = s.ep.epoch
  pend : t.ep.pend = s.ep.pend
  early : t.ep.early = s.ep.early

theorem SameCommit.refl (s : State) : SameCommit s s := ⟨rfl, rfl, rfl, rfl⟩

theorem SameCommit.trans {s t u : State} (h : SameCommit s t) (h' : SameCommit t u) : SameCommit s u :=
  ⟨h'.cfg.trans h.cfg, h'.epoch.trans h.epoch, h'.pend.trans h.pend, h'.early.trans h.early⟩

theorem SameCommit.of_keeps {m : List Region} {s t : State} (h : Keeps m s t) (hcfg : .cfg ∉ m) (hep : .ep ∉ m) :
    SameCommit s t := by
  have hsame : t.ep = s.ep := h.same .ep hep
  exact ⟨h.same .cfg hcfg, congrArg Epochs.epoch hsame, congrArg Epochs.pend hsame, congrArg Epochs.early hsame⟩

theorem SameCommit.each {α : Type} {f : State → α → State} (hf : ∀ t x, SameCommit t (f t x)) (l : List α) (s : State) :
    SameCommit s (s.each l f) := by
  induction l generalizing s with
  | nil => exact .refl s
  | cons x l ih => exact (hf s x).trans (ih (f s x))

theorem sameCommit_applyMap (s : State) (old new : Settings) (p : Nat) : SameCommit s (s.applyMap old new p) := by
  have htake (t : State) (r : Resource) : SameCommit t ((t.writeGates r (gateOwned p)).takeTable p r) :=
    .of_keeps (m := [.mem, .side, .allocs, .badGrains, .sec])
      (State.takeTable_keeps (by decide) (State.writeGates_keeps (by decide) (.refl _ t))) (by decide) (by decide)
  unfold State.applyMap
  have hgates := SameCommit.each htake ((mapResources (new.mapOf p)).filter fun r => !(mapResources (old.mapOf p)).contains r) s
  split
  · exact hgates.trans ⟨rfl, rfl, rfl, rfl⟩
  · exact hgates.trans ⟨rfl, rfl, rfl, rfl⟩

theorem sameCommit_takeLanding (s : State) (old : Settings) (p : Nat) : SameCommit s (s.takeLanding old p) :=
  .of_keeps (State.takeLanding_keeps (List.Subset.refl _) (.refl _ s)) (by decide) (by decide)

theorem sameCommit_applyShaper (s : State) (old : Settings) (k : Nat) (v : Word64) : SameCommit s (s.applyShaper old k v) :=
  .of_keeps (State.applyShaper_keeps (List.Subset.refl _) (.refl _ s)) (by decide) (by decide)

theorem sameCommit_moveFlow (s : State) (dst c : Nat) : SameCommit s (s.moveFlow dst c) :=
  .of_keeps (State.moveFlow_keeps (List.Subset.refl _) (.refl _ s)) (by decide) (by decide)

theorem sameCommit_applyWeir (s : State) (weirAt : Tbl Nat) (p : Nat) : SameCommit s (s.applyWeir weirAt p) :=
  .of_keeps (State.applyWeir_keeps (List.Subset.refl _) (.refl _ s)) (by decide) (by decide)

theorem sameCommit_applyTwin (s : State) (old : Settings) : SameCommit s (s.applyTwin old) :=
  .of_keeps (State.applyTwin_keeps (List.Subset.refl _) (.refl _ s)) (by decide) (by decide)

theorem SameCommit.ite {c : Prop} [Decidable c] {s t u : State} (ht : SameCommit s t) (hu : SameCommit s u) :
    SameCommit s (if c then t else u) := by
  split <;> assumption

/-- The settings with staged changes, windows that change at a raised GEN. -/
def Settings.inForce (c : Settings) (l : List Staged) (now : Nat) : Settings :=
  { c.withItems l with windows := raisedWindows c.windows (c.withItems l).windows now }

/-- What the further effects of changes leave: the settings as they came into force, and the epoch. -/
theorem sameCommit_applyItems (s : State) (l : List Staged) (weirAt : Tbl Nat) :
    SameCommit { s with cfg := s.cfg.inForce l s.clk.ftime } (s.applyItems l weirAt) := by
  unfold State.applyItems
  refine .trans ?_ (sameCommit_applyTwin _ _)
  have hparts (t : State) (p : Nat) : SameCommit t (t.updPart p fun x => { x with scales := [] }) := ⟨rfl, rfl, rfl, rfl⟩
  refine .ite ?_ (.trans ?_ (.each hparts _ _))
  all_goals
    refine .trans ?_ (.each (fun t p => sameCommit_applyWeir t weirAt p) _ _)
    refine .trans ?_ (.each ?_ _ _)
    · exact .each (fun t p => (sameCommit_applyMap t _ _ p).trans (sameCommit_takeLanding _ _ p)) _ _
    intro t x
    cases x with
    | shaper k v => exact sameCommit_applyShaper t _ k v
    | route dst r =>
      refine .ite (.refl t) (.each (fun u c => .ite ?_ (.refl u)) _ _)
      exact sameCommit_moveFlow u dst c
    | lib p r => exact ⟨rfl, rfl, rfl, rfl⟩
    | _ => exact .refl t

/-! ### EPOCH_COMMIT_TIME (13 R436) -/

section
variable {s : State} {p : Pend} (hserving : s.serving = true) (hpend : s.ep.pend = some p) (htime : p.time ≤ s.clk.ftime)
include hserving hpend htime

theorem doEpochCommitTime_refused (hrefuse : s.commitRefused p = true) : doEpochCommitTime s = s.withdraw p := by
  simp [doEpochCommitTime, hpend, (Bool.and_eq_true_iff.1 hserving).1, beq_iff_eq.1 (Bool.and_eq_true_iff.1 hserving).2, htime,
    hrefuse]

theorem doEpochCommitTime_set {n : Nat} (hwhat : p.what = .set n) (hrefuse : s.commitRefused p = false) :
    doEpochCommitTime s =
      (((State.applyItems { s with ep := { s.ep with epoch := s.ep.epoch + 1, pend := none, draining := true } }
        (s.stageSet n).items p.weirAt).reopen n).writeImage) := by
  have hawake := (Bool.and_eq_true_iff.1 hserving).1
  have hstage := (Bool.and_eq_true_iff.1 hserving).2
  unfold doEpochCommitTime
  simp only [hpend, hawake, hstage, htime, hrefuse, hwhat]
  rfl

theorem doEpochCommitTime_dir {d : DirChange} (hwhat : p.what = .dir d) :
    doEpochCommitTime s =
      State.writeImage { s with
        ep := { s.ep with epoch := s.ep.epoch + 1, pend := none, draining := true }
        cfg := { s.cfg with dir := s.cfg.dir.apply d } } := by
  have hawake := (Bool.and_eq_true_iff.1 hserving).1
  have hstage := (Bool.and_eq_true_iff.1 hserving).2
  have hrefuse : s.commitRefused p = false := by simp [State.commitRefused, hwhat]
  unfold doEpochCommitTime
  simp only [hpend, hawake, hstage, htime, hrefuse, hwhat]
  rfl

end

theorem commitRefused_set {s : State} {p : Pend} {n : Nat} (hwhat : p.what = .set n) :
    s.commitRefused p = s.takesKeys (s.cfg.withItems (s.stageSet n).items) := by
  simp [State.commitRefused, hwhat, State.pendItems]

theorem withdraw_set {s : State} {p : Pend} {n : Nat} (hwhat : p.what = .set n) :
    s.withdraw p = State.setStageSet { s with ep := { s.ep with pend := none } } n
      { isSealed := false, items := (s.stageSet n).items } := by
  simp only [State.withdraw, hwhat]
  rfl

theorem stageSet_reopen (s : State) (n : Nat) : (s.reopen n).stageSet n = { isSealed := false, items := [] } :=
  Tbl.getD_set_same ..

/-- What a staging set's changes leave when they come into force. -/
theorem effect_of_commitSet {s : State} {p : Pend} {n : Nat} (hserving : s.serving = true) (hpend : s.ep.pend = some p)
    (htime : p.time ≤ s.clk.ftime) (hwhat : p.what = .set n) (hrefuse : s.commitRefused p = false) :
    (doEpochCommitTime s).cfg = s.cfg.inForce (s.stageSet n).items s.clk.ftime ∧
      (doEpochCommitTime s).stageSet n = { isSealed := false, items := [] } ∧
      (doEpochCommitTime s).ep.epoch = s.ep.epoch + 1 ∧ (doEpochCommitTime s).ep.pend = none ∧
      (doEpochCommitTime s).ep.images =
        [(0, { settings := (doEpochCommitTime s).cfg, epoch := (doEpochCommitTime s).ep.epoch, digestOk := true }),
          (1, { settings := (doEpochCommitTime s).cfg, epoch := (doEpochCommitTime s).ep.epoch, digestOk := true })] := by
  rw [doEpochCommitTime_set hserving hpend htime hwhat hrefuse]
  obtain ⟨hcfg, hepoch, hnone, -⟩ := sameCommit_applyItems
    { s with ep := { s.ep with epoch := s.ep.epoch + 1, pend := none, draining := true } } (s.stageSet n).items p.weirAt
  generalize State.applyItems _ _ _ = t at hcfg hepoch hnone
  exact ⟨hcfg, stageSet_reopen t n, hepoch, hnone, rfl⟩

/-- Settles O20. -/
theorem commitTakesEffect : Obligations.CommitTakesEffect := by
  unfold Obligations.CommitTakesEffect
  refine ⟨fun now n s p hserving hpend hwhat htime htake => ?_, fun now n s p hserving hpend hwhat htime htake => ?_,
    fun now s p d hserving hpend hwhat htime => ?_⟩
  · refine does_of_fresh (fun t => doEpochCommitTime (t.upTo now)) rfl ?_
    have hrefuse := (commitRefused_set (s := s.fresh.upTo now) hwhat).trans htake
    exact (doEpochCommitTime_refused (s := s.fresh.upTo now) hserving hpend htime hrefuse).trans (withdraw_set hwhat)
  · have hrefuse := (commitRefused_set (s := (s.upTo now).fresh) hwhat).trans htake
    refine Answers.of_fresh (s.upTo now) doEpochCommitTime rfl ?_
      (effect_of_commitSet (s := (s.upTo now).fresh) hserving hpend htime hwhat hrefuse)
    exact (doEpochCommitTime_keeps (List.Subset.refl _) (.refl _ (s.upTo now).fresh)).same .pending (by decide)
  · refine Answers.of_kept (u := s.upTo now) rfl (doEpochCommitTime_dir (s := (s.upTo now).fresh) hserving hpend htime hwhat) rfl ?_
    exact ⟨rfl, rfl, rfl, rfl, rfl⟩

/-! ### The end of a drain and of a scrub (13 R433, 11 R353) -/

/-- Closing the gates of released resources writes the gates alone. -/
theorem each_writeGates (l : List (Resource × Nat)) (s : State) :
    ∃ g, (s.each l fun t r => t.writeGates r.1 gateScrub) = { s with sec := { s.sec with gates := g } } := by
  induction l generalizing s with
  | nil => exact ⟨s.sec.gates, rfl⟩
  | cons r l ih =>
    obtain ⟨g, hg⟩ := ih (s.writeGates r.1 gateScrub)
    exact ⟨g, hg⟩

theorem doEpochDrainEnd_eq {s : State} (hawake : s.awake = true) (hdrain : s.ep.draining = true) (hreqs : s.drainReqs = 0) :
    ∃ g, doEpochDrainEnd s = { s with
      ep := { s.ep with draining := false, releasing := [] }
      sec := { s.sec with gates := g, scrubbing := s.sec.scrubbing ++ s.ep.releasing.map Prod.fst } } := by
  obtain ⟨g, hg⟩ := each_writeGates s.ep.releasing s
  refine ⟨g, ?_⟩
  simp only [doEpochDrainEnd, hawake, hdrain, hreqs, hg]
  rfl

/-- The scrub of a window block writes windows alone, whichever they are (their list is kept closed: the kernel must not count
it out). -/
theorem sec_scrub_windowBlock (s : State) (b : Nat) : (s.scrub (.windowBlock b)).sec = s.sec := by
  have hwindows (l : List Nat) : (State.sec { s with cfg := { s.cfg with
      windows := l.foldl (fun t w => Tbl.set t w (scrubbedWindow (Tbl.getD t w 0#256))) s.cfg.windows } }) = s.sec := rfl
  unfold State.scrub
  exact hwindows _

theorem scrubbing_scrub (s : State) (r : Resource) : (s.scrub r).sec.scrubbing = s.sec.scrubbing := by
  cases r with
  | channelGroup g =>
    have hkeeps : Keeps [.draws, .clk, .flt, .provs, .parts, .slc, .wt, .jets, .twin, .mem, .side, .allocCtr, .badGrains, .allocs]
        s (s.scrub (.channelGroup g)) :=
      State.each_keeps (fun t j ht => State.resetJetOf_keeps (by decide) ht)
        (State.freeAllocs_keeps (by decide) (State.zeroGroup_keeps (by decide) (.refl _ s)))
    exact congrArg Sec.scrubbing (hkeeps.same .sec (by decide))
  | slice n => rfl
  | cluster n => rfl
  | windowBlock b =>
    exact congrArg Sec.scrubbing (sec_scrub_windowBlock s b)
  | keySlot k => rfl
  | sessionBlock b => rfl

theorem doResourceScrubDone_eq {r : Resource} {s : State} (hawake : s.awake = true) (hr : r ∈ s.sec.scrubbing) :
    doResourceScrubDone r s =
      let t := (s.scrub r).writeGates r 0#64
      { t with sec := { t.sec with scrubbing := t.sec.scrubbing.filter (· != r) } } := by
  have hguard : (s.awake && s.sec.scrubbing.contains r) = true := by simpa [hawake] using hr
  exact if_pos hguard

theorem scrubbing_doResourceScrubDone {r : Resource} {s : State} (hawake : s.awake = true) (hr : r ∈ s.sec.scrubbing) :
    (doResourceScrubDone r s).sec.scrubbing = s.sec.scrubbing.filter (· != r) := by
  rw [doResourceScrubDone_eq hawake hr]
  exact congrArg (List.filter (· != r)) (scrubbing_scrub s r)

/-- The scrub of a channel group leaves its bytes zero and its allocations free, whatever its jets do. -/
theorem mem_scrub_channelGroup (s : State) (g : Nat) :
    (s.scrub (.channelGroup g)).mem = (s.zeroGroup g).mem ∧
      (s.scrub (.channelGroup g)).allocs = s.allocs.filter fun a => !(grainGroup a.first == g) := by
  have hkeeps : Keeps [.draws, .clk, .flt, .provs, .parts, .slc, .wt, .jets, .twin]
      ((s.zeroGroup g).freeAllocs fun a => grainGroup a.first == g) (s.scrub (.channelGroup g)) :=
    State.each_keeps (fun t j ht => State.resetJetOf_keeps (List.Subset.refl _) ht) (.refl _ _)
  exact ⟨hkeeps.same .mem (by decide), hkeeps.same .allocs (by decide)⟩

theorem readByte_zeroGroup (s : State) (g a : Nat) :
    (s.zeroGroup g).readByte a = if grainGroup (a / 512) = g then 0#8 else s.readByte a := by
  have hinside : (g * 2 ^ 26 ≤ a / 512 ∧ a / 512 < g * 2 ^ 26 + 2 ^ 26) ↔ grainGroup (a / 512) = g := by
    unfold grainGroup
    omega
  have hclear := Memory.readByte_clear s.mem (fun x => decide (g * 2 ^ 26 ≤ x / 512 ∧ x / 512 < g * 2 ^ 26 + 2 ^ 26)) a
  refine Eq.trans hclear ?_
  simp only [decide_eq_true_eq, hinside]
  rfl

/-- Settles O21. -/
theorem drainAndScrub : Obligations.DrainAndScrub := by
  unfold Obligations.DrainAndScrub
  refine ⟨fun now s hawake hdrain hreqs => ?_, fun r s hawake hr => ?_, fun g s hawake hg _ _ => ?_⟩
  · obtain ⟨gates, heq⟩ := doEpochDrainEnd_eq (s := (s.upTo now).fresh) hawake hdrain hreqs
    exact Answers.of_kept (u := s.upTo now) rfl heq rfl ⟨rfl, rfl, rfl, rfl⟩
  · have hpending := (doResourceScrubDone_keeps (a1 := r) (List.Subset.refl _) (.refl _ s.fresh)).same .pending (by decide)
    refine Answers.of_fresh s (doResourceScrubDone r) rfl hpending fun x => ?_
    rw [scrubbing_doResourceScrubDone (s := s.fresh) hawake hr, List.mem_filter, bne_iff_ne]
    rfl
  · have hpending := (doResourceScrubDone_keeps (a1 := .channelGroup g) (List.Subset.refl _) (.refl _ s.fresh)).same .pending
      (by decide)
    refine Answers.of_fresh s (doResourceScrubDone (.channelGroup g)) rfl hpending ?_
    rw [doResourceScrubDone_eq (s := s.fresh) hawake hg]
    obtain ⟨hmem, hallocs⟩ := mem_scrub_channelGroup s.fresh g
    refine ⟨fun a => ?_, fun x hx => ?_⟩
    · exact (congrArg (Memory.readByte · a) hmem).trans (readByte_zeroGroup s.fresh g a)
    · have hx' : x ∈ s.fresh.allocs.filter fun a => !(grainGroup a.first == g) := hallocs ▸ hx
      simpa using (List.mem_filter.1 hx').2

end Sys2Proof.Machine
end

section
/-! Bring-up, steps 1 to 5 (O22, O23). -/

namespace Sys2Proof.Machine

/-! ### Entering a stage -/

theorem toStage_boot (s : State) (n : Nat) : (s.toStage n).boot = { s.boot with stage := n, stageStart := s.clk.up } := by
  simp only [State.toStage]

theorem toStage_clk (s : State) (n : Nat) : (s.toStage n).clk = s.clk :=
  (State.toStage_keeps (List.Subset.refl _) (Keeps.refl _ s)).same .clk (by decide)

theorem toStage_mem (s : State) (n : Nat) : (s.toStage n).mem = s.mem :=
  (State.toStage_keeps (List.Subset.refl _) (Keeps.refl _ s)).same .mem (by decide)

theorem toStage_pending (s : State) (n : Nat) : (s.toStage n).pending = s.pending :=
  (State.toStage_keeps (List.Subset.refl _) (Keeps.refl _ s)).same .pending (by decide)

theorem toFailed_pending (s : State) (cause : Nat) : (s.toFailed cause).pending = s.pending :=
  (State.toFailed_keeps (List.Subset.refl _) (Keeps.refl _ s)).same .pending (by decide)

theorem faultN_toFailed (s : State) (cause : Nat) : (s.toFailed cause).faultN = true := by
  simp [State.toFailed, State.faultN, toStage_boot]

/-! ### Steps 1 and 2 -/

section
variable {a b : ImageCheck} {s : State} (hawake : s.awake = true) (hstage : s.boot.stage = 0)
include hawake hstage

theorem doFirmwareVerify_first (ha : s.imageOk a = true) : doFirmwareVerify a b s = s.runImage false a := by
  simp [doFirmwareVerify, hawake, hstage, ha]

theorem doFirmwareVerify_second (ha : s.imageOk a = false) (hb : s.imageOk b = true) :
    doFirmwareVerify a b s = s.runImage true b := by
  simp [doFirmwareVerify, hawake, hstage, ha, hb]

theorem doFirmwareVerify_none (ha : s.imageOk a = false) (hb : s.imageOk b = false) :
    doFirmwareVerify a b s = s.toFailed 1 := by
  simp [doFirmwareVerify, hawake, hstage, ha, hb]

end

theorem doClocksLocked_of_ok {s : State} (hawake : s.awake = true) (hstage : s.boot.stage = 1)
    (hok : s.pins.clocksOk = true) : doClocksLocked s = State.toStage { s with boot := { s.boot with pcieUp := true } } 2 := by
  simp [doClocksLocked, hawake, hstage, hok]

theorem doClocksLocked_of_absent {s : State} (hawake : s.awake = true) (hstage : s.boot.stage = 1)
    (hok : s.pins.clocksOk = false) : doClocksLocked s = s.toFailed 2 := by
  simp [doClocksLocked, hawake, hstage, hok]

/-! ### Step 3 -/

/-- Step 3 goes on while a channel has not ended it. -/
theorem endStep3_of_open {s : State} {k : Nat} (hk : k < 128) (hopen : s.channelDone k = false) : s.endStep3 = s := by
  have hall : (List.range 128).all s.channelDone = false := by
    rw [List.all_eq_false]
    exact ⟨k, List.mem_range.2 hk, by simp [hopen]⟩
  simp [State.endStep3, hall]

/-- Step 3 of a full reset ends when every channel has ended it. -/
theorem endStep3_of_done {s : State} (hall : ∀ k < 128, s.channelDone k = true) (hscope : s.boot.scope = .full)
    (hstage : s.boot.stage = 2) :
    s.endStep3 = State.toStage { s with boot := { s.boot with selfRefresh := false, step4At := s.clk.up } } 3 := by
  have hall' : (List.range 128).all s.channelDone = true := List.all_eq_true.2 fun k hk => hall k (List.mem_range.1 hk)
  have hfull : (s.boot.scope == NodeScope.retain) = false := by rw [hscope]; rfl
  unfold State.endStep3
  simp only [hall', hfull, hstage]
  rfl

section
variable {ch : Nat} {s : State} (hawake : s.awake = true) (hstage : s.boot.stage = 2) (hch : ch < 128)
  (htrained : ch ∉ s.boot.chTrained) (hlost : ch ∉ s.spares.lost)
include hawake hstage hch htrained hlost

theorem doChannelTrainingDone_passed : doChannelTrainingDone ch true s =
    State.endStep3 { s with boot := { s.boot with chTrained := s.boot.chTrained ++ [ch] } } := by
  simp [doChannelTrainingDone, hawake, hstage, hch, htrained, hlost]

theorem doChannelTrainingDone_retry (hfew : Tbl.getD s.boot.chFails ch 0 + 1 < s.boot.scope.lossAt) :
    doChannelTrainingDone ch false s =
      { s with boot := { s.boot with chFails := Tbl.set s.boot.chFails ch (Tbl.getD s.boot.chFails ch 0 + 1) } } := by
  simp [doChannelTrainingDone, hawake, hstage, hch, htrained, hlost, hfew]

theorem doChannelTrainingDone_lost (hmany : s.boot.scope.lossAt ≤ Tbl.getD s.boot.chFails ch 0 + 1) :
    doChannelTrainingDone ch false s = (State.loseChannel { s with boot := { s.boot with
      chFails := Tbl.set s.boot.chFails ch (Tbl.getD s.boot.chFails ch 0 + 1) } } ch).endStep3 := by
  simp [doChannelTrainingDone, hawake, hstage, hch, htrained, hlost, Nat.not_lt.2 hmany]

end

theorem fault_boot (s : State) (e : Event) : (s.fault e).boot = s.boot :=
  (State.fault_keeps (List.Subset.refl _) (Keeps.refl _ s)).same .boot (by decide)

theorem fault_spares (s : State) (e : Event) : (s.fault e).spares = s.spares :=
  (State.fault_keeps (List.Subset.refl _) (Keeps.refl _ s)).same .spares (by decide)

theorem containWhere_boot (s : State) (f : Nat → Bool) : (s.containWhere f).boot = s.boot :=
  (State.containWhere_keeps (List.Subset.refl _) (Keeps.refl _ s)).same .boot (by decide)

theorem containWhere_spares (s : State) (f : Nat → Bool) : (s.containWhere f).spares = s.spares :=
  (State.containWhere_keeps (List.Subset.refl _) (Keeps.refl _ s)).same .spares (by decide)

/-- What the loss of a channel leaves of step 3's record. -/
theorem boot_loseChannel {s : State} {ch : Nat} (hlost : ch ∉ s.spares.lost) :
    (s.loseChannel ch).spares.lost = s.spares.lost ++ [ch] ∧ (s.loseChannel ch).boot.chTrained = s.boot.chTrained ∧
      (s.loseChannel ch).boot.scope = s.boot.scope ∧ (s.loseChannel ch).boot.chTested = s.boot.chTested := by
  have hnot : ¬ s.spares.lost.contains ch = true := by simpa using hlost
  unfold State.loseChannel
  rw [if_neg hnot]
  simp only [containWhere_boot, containWhere_spares, fault_boot, fault_spares, true_and]

/-- The loss of a channel leaves every other channel where it is in step 3. -/
theorem channelDone_loseChannel {s : State} {ch k : Nat} (hlost : ch ∉ s.spares.lost) (hk : k ≠ ch) :
    (s.loseChannel ch).channelDone k = s.channelDone k := by
  obtain ⟨hl, htrained, hscope, htested⟩ := boot_loseChannel hlost
  simp [State.channelDone, hl, htrained, hscope, htested, hk]

theorem channelDone_append {s : State} {ch k : Nat} (hk : k ≠ ch) :
    State.channelDone { s with boot := { s.boot with chTrained := s.boot.chTrained ++ [ch] } } k = s.channelDone k := by
  simp [State.channelDone, hk]

theorem doMemoryTestDone_eq {ch : Nat} {bad : List BadRow} {s : State} (hawake : s.awake = true) (hstage : s.boot.stage = 2)
    (hscope : s.boot.scope = .full) (htrained : ch ∈ s.boot.chTrained) (htested : ch ∉ s.boot.chTested) :
    doMemoryTestDone ch bad s =
      let u := (s.zeroChannel ch).each (List.range 64) fun u pair => u.spareBadRows ch bad pair
      State.endStep3 { u with boot := { u.boot with chTested := u.boot.chTested ++ [ch] } } := by
  simp [doMemoryTestDone, hawake, hstage, hscope, htrained, htested]

/-- A test that finds no bad row brings no spare in. -/
theorem each_spareBadRows_nil (l : List Nat) (s : State) (ch : Nat) :
    (s.each l fun u pair => u.spareBadRows ch [] pair) = s := by
  induction l with
  | nil => rfl
  | cons p l ih => exact ih

theorem readByte_zeroChannel (s : State) (ch a : Nat) :
    (s.zeroChannel ch).readByte a = if grainChannel (a / 512) = ch then 0#8 else s.readByte a := by
  have hclear := Memory.readByte_clear s.mem (fun x => grainChannel (x / 512) == ch) a
  refine Eq.trans hclear ?_
  simp only [beq_iff_eq]
  rfl

/-- What the test of the last channel leaves, all others having ended step 3. -/
theorem effect_of_lastTest {ch : Nat} {s : State} (hawake : s.awake = true) (hstage : s.boot.stage = 2)
    (hscope : s.boot.scope = .full) (htrained : ch ∈ s.boot.chTrained) (htested : ch ∉ s.boot.chTested)
    (hothers : ∀ k < 128, k ≠ ch → s.channelDone k = true) :
    (doMemoryTestDone ch [] s).boot = { s.boot with
      chTested := s.boot.chTested ++ [ch], selfRefresh := false, step4At := s.clk.up, stage := 3, stageStart := s.clk.up } ∧
    (doMemoryTestDone ch [] s).mem = (s.zeroChannel ch).mem := by
  rw [doMemoryTestDone_eq hawake hstage hscope htrained htested]
  simp only [each_spareBadRows_nil]
  have hall : ∀ k < 128, State.channelDone { s.zeroChannel ch with
      boot := { s.boot with chTested := s.boot.chTested ++ [ch] } } k = true := by
    intro k hk
    by_cases hkc : k = ch
    · subst hkc
      simp [State.channelDone, htrained]
    · have hdone := hothers k hk hkc
      simp only [State.channelDone, List.contains_append] at hdone ⊢
      revert hdone
      simp [State.zeroChannel]
      tauto
  rw [endStep3_of_done (s := { s.zeroChannel ch with
      boot := { (s.zeroChannel ch).boot with chTested := (s.zeroChannel ch).boot.chTested ++ [ch] } }) hall hscope hstage]
  exact ⟨toStage_boot _ _, toStage_mem _ _⟩

/-- Settles O22. -/
theorem bootSteps : Obligations.BootSteps := by
  unfold Obligations.BootSteps
  refine ⟨fun a b now s hawake hstage ha => ?_, fun a b now s hawake hstage ha hb => ?_,
    fun a b now s hawake hstage ha hb => ?_, fun now s hawake hstage hok => ?_, fun now s hawake hstage hok => ?_,
    fun ch s k hawake hstage hch htrained hlost hk hkc hopen => ?_,
    fun ch s hawake hstage hch htrained hlost hfew => ?_,
    fun ch s k hawake hstage hch htrained hlost hmany hk hkc hopen => ?_,
    fun ch s hawake hstage hscope hch htested hlost htrained => ?_,
    fun ch bad s hawake hstage hscope htrained htested => ?_,
    fun ch s hawake hstage hscope htrained htested hothers => ?_⟩
  · exact does_of_fresh (fun t => doFirmwareVerify a b (t.upTo now)) rfl
      (doFirmwareVerify_first (s := s.fresh.upTo now) hawake hstage ha)
  · exact does_of_fresh (fun t => doFirmwareVerify a b (t.upTo now)) rfl
      (doFirmwareVerify_second (s := s.fresh.upTo now) hawake hstage ha hb)
  · refine Answers.of_kept (u := s.upTo now) rfl (doFirmwareVerify_none (s := (s.upTo now).fresh) hawake hstage ha hb)
      (toFailed_pending _ 1) ⟨rfl, rfl, faultN_toFailed _ 1⟩
  · refine Answers.of_kept (u := s.upTo now) rfl (doClocksLocked_of_ok (s := (s.upTo now).fresh) hawake hstage hok)
      (toStage_pending _ 2) ?_
    rw [toStage_boot, toStage_clk]
    exact ⟨rfl, rfl, rfl⟩
  · exact Answers.of_kept (u := s.upTo now) rfl (doClocksLocked_of_absent (s := (s.upTo now).fresh) hawake hstage hok)
      (toFailed_pending _ 2) ⟨rfl, rfl⟩
  · refine does_of_fresh (doChannelTrainingDone ch true) rfl ?_
    rw [doChannelTrainingDone_passed (s := s.fresh) hawake hstage hch htrained hlost]
    exact endStep3_of_open hk ((channelDone_append (s := s.fresh) hkc).trans hopen)
  · exact does_of_fresh (doChannelTrainingDone ch false) rfl
      (doChannelTrainingDone_retry (s := s.fresh) hawake hstage hch htrained hlost hfew)
  · refine does_of_fresh (doChannelTrainingDone ch false) rfl ?_
    rw [doChannelTrainingDone_lost (s := s.fresh) hawake hstage hch htrained hlost hmany]
    exact endStep3_of_open hk (Eq.trans (channelDone_loseChannel hlost hkc) hopen)
  · have hopen : State.channelDone { s.fresh with boot := { s.boot with chTrained := s.boot.chTrained ++ [ch] } } ch = false := by
      simp [State.channelDone, State.fresh, hscope, htested, hlost]
    exact Answers.of_kept rfl ((doChannelTrainingDone_passed (s := s.fresh) hawake hstage hch htrained hlost).trans
      (endStep3_of_open hch hopen)) rfl ⟨hstage, hopen⟩
  · exact does_of_fresh (doMemoryTestDone ch bad) rfl (doMemoryTestDone_eq (s := s.fresh) hawake hstage hscope htrained htested)
  · obtain ⟨hboot, hmem⟩ := effect_of_lastTest (s := s.fresh) hawake hstage hscope htrained htested hothers
    refine Answers.of_fresh s (doMemoryTestDone ch []) rfl
      ((doMemoryTestDone_keeps (List.Subset.refl _) (.refl _ s.fresh)).same .pending (by decide)) ?_
    rw [hboot]
    refine ⟨rfl, rfl, List.mem_append_right _ (List.mem_singleton_self ch), fun a => ?_⟩
    exact (congrArg (Memory.readByte · a) hmem).trans (readByte_zeroChannel s.fresh ch a)

/-! ### Step 4 (13 R420, R421) -/

section
variable {p : Nat} {s : State} (hawake : s.awake = true) (hlo : 3 ≤ s.boot.stage) (hhi : s.boot.stage ≤ 5) (hp : p < 24)
  (htried : p ∉ s.boot.portsTried) (hdown : (s.port p).up = false)
include hawake hlo hhi hp htried hdown

theorem doLaneTrainingDone_down (x : Option LinkId) : doLaneTrainingDone p false x s =
    State.endStep4 { s with boot := { s.boot with portsTried := s.boot.portsTried ++ [p] } } := by
  simp [doLaneTrainingDone, hawake, hlo, hhi, hp, htried, hdown]

variable (hspare : p ∉ s.spares.portsOut) (hclock : s.portClock p = true)
include hspare hclock

theorem doLaneTrainingDone_up (x : Option LinkId) (direct : Bool) (rate : Nat)
    (hdirect : (x.elim false fun i => s.directLink p i) = direct)
    (hrate : (x.elim 224 fun i => if direct then min i.maxGbps s.limits.2.2.2 else 224) = rate) :
    doLaneTrainingDone p true x s =
      (State.linkCameUp (State.updPort { s with boot := { s.boot with portsTried := s.boot.portsTried ++ [p] } } p fun y =>
        { y with up := true, direct := direct, gbps := 8 * rate, peer := x }) p).endStep4 := by
  subst hrate hdirect
  have hguard : ((!(s.awake && decide (3 ≤ s.boot.stage ∧ s.boot.stage ≤ 5 ∧ p < 24))) || s.boot.portsTried.contains p ||
      (s.port p).up) = false := by simp [hawake, hlo, hhi, hp, htried, hdown]
  have hspare' : s.spares.portsOut.contains p = false := by simpa using hspare
  have hclock' : State.portClock { s with boot := { s.boot with portsTried := s.boot.portsTried ++ [p] } } p = true := hclock
  unfold doLaneTrainingDone
  simp only [hguard, hspare', hclock']
  cases x <;> rfl

end

theorem doLaneRetryTimer_eq {p : Nat} {s : State} (hawake : s.awake = true) (hlo : 4 ≤ s.boot.stage) (hhi : s.boot.stage ≤ 5)
    (hdown : (s.port p).up = false) : doLaneRetryTimer p s = s.retrainPort p := by
  simp [doLaneRetryTimer, hawake, hlo, hhi, hdown]

/-! ### Step 5 (13 R412) -/

theorem get?_map_mk {α : Type} (f : Nat → α) (l : List Nat) (j : Nat) :
    Tbl.get? (l.map fun k => (k, f k)) j = if j ∈ l then some (f j) else none := by
  induction l with
  | nil => rfl
  | cons k l ih =>
    by_cases hk : k = j
    · subst hk
      simp [Tbl.get?]
    · simp [Tbl.get?, ih, hk, Ne.symm hk]

theorem doComputeStageDone_eq {jets arrays : List Nat} {s : State} (hawake : s.awake = true) (hstage : s.boot.stage = 4)
    (hdone : s.boot.computeDone = false) :
    doComputeStageDone jets arrays s =
      State.each (State.each { s with
        jets := (List.range 8192).map fun j => (j, s.clearedJet j)
        boot := { s.boot with computeDone := true, failedJets := jets.filter (· < 8192) } }
        (jets.filter (· < 8192)) State.failJet) (arrays.filter (· < 272)) State.loseArray := by
  simp [doComputeStageDone, hawake, hstage, hdone]

theorem fault_jets (s : State) (e : Event) : (s.fault e).jets = s.jets :=
  (State.fault_keeps (List.Subset.refl _) (Keeps.refl _ s)).same .jets (by decide)

theorem jet_fault (s : State) (e : Event) (j : Nat) : (s.fault e).jet j = s.jet j :=
  congrArg (Tbl.getD · j Jet.init) (fault_jets s e)

theorem jet_failJet_same (s : State) (j : Nat) : ((s.failJet j).jet j).isolated = true := by
  rw [State.failJet, jet_fault, State.isolateJet, State.updJet_same]
  rfl

theorem jet_failJet_other (s : State) {j k : Nat} (hk : k ≠ j) : (s.failJet j).jet k = s.jet k := by
  rw [State.failJet, jet_fault, State.isolateJet, State.updJet_other _ _ hk]

/-- The jets after some of them have failed their self-test. -/
theorem jet_each_failJet (l : List Nat) (s : State) (j : Nat) :
    (j ∈ l → ((s.each l State.failJet).jet j).isolated = true) ∧ (j ∉ l → (s.each l State.failJet).jet j = s.jet j) := by
  induction l using List.reverseRecOn generalizing s with
  | nil => exact ⟨fun h => absurd h List.not_mem_nil, fun _ => rfl⟩
  | append_singleton l k ih =>
    have hlast : s.each (l ++ [k]) State.failJet = (s.each l State.failJet).failJet k := List.foldl_append ..
    obtain ⟨hin, hout⟩ := ih s
    rw [hlast, List.mem_append, List.mem_singleton]
    by_cases hk : j = k
    · subst hk
      exact ⟨fun _ => jet_failJet_same _ j, fun h => absurd (Or.inr rfl) h⟩
    · rw [jet_failJet_other _ hk]
      exact ⟨fun h => hin (h.resolve_right hk), fun h => hout fun hl => h (.inl hl)⟩

theorem each_loseArray_keeps (s : State) (l : List Nat) : Keeps [.flt, .spares] s (s.each l State.loseArray) :=
  State.each_keeps (fun _ _ ht => State.loseArray_keeps (List.Subset.refl _) ht) (.refl _ s)

theorem each_failJet_keeps (s : State) (l : List Nat) : Keeps [.flt, .jets] s (s.each l State.failJet) :=
  State.each_keeps (fun _ _ ht => State.failJet_keeps (List.Subset.refl _) ht) (.refl _ s)

/-- What step 5 leaves: every jet loaded, those that failed isolated, memory as it was. -/
theorem effect_of_computeStage {jets arrays : List Nat} {s : State} (hawake : s.awake = true) (hstage : s.boot.stage = 4)
    (hdone : s.boot.computeDone = false) :
    (doComputeStageDone jets arrays s).boot = { s.boot with computeDone := true, failedJets := jets.filter (· < 8192) } ∧
      (doComputeStageDone jets arrays s).mem = s.mem ∧
      (∀ j ∈ jets, j < 8192 → ((doComputeStageDone jets arrays s).jet j).isolated = true) ∧
      ∀ j < 8192, j ∉ jets → (doComputeStageDone jets arrays s).jet j = s.clearedJet j := by
  rw [doComputeStageDone_eq hawake hstage hdone]
  have hloaded (n : Nat) (t : State) (ht : t.jets = (List.range n).map fun j => (j, s.clearedJet j)) (j : Nat) (hj : j < n) :
      t.jet j = s.clearedJet j := by
    simp [State.jet, Tbl.getD, ht, get?_map_mk, hj]
  generalize hv : ({ s with
      jets := (List.range 8192).map fun j => (j, s.clearedJet j)
      boot := { s.boot with computeDone := true, failedJets := jets.filter (· < 8192) } } : State) = v
  have hjets := hloaded 8192 v (by rw [← hv])
  have hboot : v.boot = { s.boot with computeDone := true, failedJets := jets.filter (· < 8192) } := by rw [← hv]
  have hmem : v.mem = s.mem := by rw [← hv]
  clear hv hloaded
  have hfail := each_failJet_keeps v (jets.filter (· < 8192))
  have harr := each_loseArray_keeps (v.each (jets.filter (· < 8192)) State.failJet) (arrays.filter (· < 272))
  have harrJets (j : Nat) : (State.each (v.each (jets.filter (· < 8192)) State.failJet) (arrays.filter (· < 272))
      State.loseArray).jet j = (v.each (jets.filter (· < 8192)) State.failJet).jet j :=
    congrArg (Tbl.getD · j Jet.init) (harr.same .jets (by decide))
  refine ⟨?_, ?_, fun j hj hlt => ?_, fun j hlt hj => ?_⟩
  · exact ((harr.same .boot (by decide)).trans (hfail.same .boot (by decide))).trans hboot
  · exact ((harr.same .mem (by decide)).trans (hfail.same .mem (by decide))).trans hmem
  · rw [harrJets]
    exact (jet_each_failJet _ v j).1 (List.mem_filter.2 ⟨hj, decide_eq_true hlt⟩)
  · rw [harrJets, (jet_each_failJet _ v j).2 fun h => hj (List.mem_filter.1 h).1]
    exact hjets j hlt

/-! ### Overruns (13 R415) -/

theorem boot_nodeReset (s : State) (scope : NodeScope) (last : Nat) :
    (s.nodeReset scope last).boot = s.boot.started scope last s.clk.up := by
  cases scope <;> rfl

theorem doStageOverrun_step4 {s : State} (hawake : s.awake = true) (hstage : s.boot.stage = 3)
    (hbound : s.boot.stageStart + 500000000 ≤ s.clk.up) : doStageOverrun s = s.toStage 4 := by
  have hms : s.boot.stageStart + 500 * msNs ≤ s.clk.up := hbound
  simp [doStageOverrun, State.stageBound, hstage, hawake, hms]

section
variable {b : Nat} {s : State} (hawake : s.awake = true) (hstage : s.boot.stage ≠ 3) (hb : s.stageBound = some b)
  (hbound : s.boot.stageStart + b ≤ s.clk.up)
include hawake hstage hb hbound

theorem doStageOverrun_first (hfirst : s.boot.overruns = 0) :
    doStageOverrun s =
      let t := s.nodeReset s.boot.scope 5
      { t with boot := { t.boot with overruns := 1 } } := by
  simp [doStageOverrun, hb, hstage, hawake, hbound, hfirst]

theorem doStageOverrun_again (hagain : s.boot.overruns ≠ 0) : doStageOverrun s = s.toFailed 3 := by
  simp [doStageOverrun, hb, hstage, hawake, hbound, hagain]

end

/-- Settles O23. -/
theorem linksAndCompute : Obligations.LinksAndCompute := by
  unfold Obligations.LinksAndCompute
  refine ⟨fun p x s hawake hlo hhi hp htried hdown => ?_,
    fun p x s hawake hlo hhi hp htried hdown hspare hclock hdirect => ?_,
    fun p x s hawake hlo hhi hp htried hdown hspare hclock hdirect => ?_, fun p now s hawake hlo hhi hdown => ?_,
    fun jets arrays now s hawake hstage hdone => ?_, fun now s hawake hstage hbound => ?_,
    fun now b s hawake hstage hb hfirst hbound => ?_, fun now b s hawake hstage hb hagain hbound => ?_⟩
  · exact does_of_fresh (doLaneTrainingDone p false x) rfl
      (doLaneTrainingDone_down (s := s.fresh) hawake hlo hhi hp htried hdown x)
  · exact does_of_fresh (doLaneTrainingDone p true (some x)) rfl
      (doLaneTrainingDone_up (s := s.fresh) hawake hlo hhi hp htried hdown hspare hclock (some x) true _ hdirect rfl)
  · have hdirect' : (x.elim false fun i => s.fresh.directLink p i) = false := by
      cases x with
      | none => rfl
      | some i => exact hdirect i rfl
    refine does_of_fresh (doLaneTrainingDone p true x) rfl
      (doLaneTrainingDone_up (s := s.fresh) hawake hlo hhi hp htried hdown hspare hclock x false 224 hdirect' ?_)
    cases x <;> rfl
  · refine Answers.of_kept (u := s.upTo now) rfl (doLaneRetryTimer_eq (s := (s.upTo now).fresh) hawake hlo hhi hdown) rfl
      ⟨?_, fun q hq => ?_, rfl⟩
    · simp [State.retrainPort]
    · simp [State.retrainPort, State.fresh, hq]
  · obtain ⟨hboot, hmem, hin, hout⟩ :=
      effect_of_computeStage (jets := jets) (arrays := arrays) (s := (s.upTo now).fresh) hawake hstage hdone
    refine Answers.of_fresh (s.upTo now) (doComputeStageDone jets arrays) rfl
      ((doComputeStageDone_keeps (List.Subset.refl _) (.refl _ (s.upTo now).fresh)).same .pending (by decide)) ?_
    rw [hboot]
    exact ⟨rfl, hstage, hmem, hin, hout⟩
  · exact does_of_fresh (fun t => doStageOverrun (t.upTo now)) rfl (doStageOverrun_step4 (s := s.fresh.upTo now) hawake hstage hbound)
  · refine Answers.of_eq (u := s.upTo now) rfl (doStageOverrun_first (s := (s.upTo now).fresh) hawake hstage hb hbound hfirst) ?_
    dsimp only
    rw [boot_nodeReset]
    exact ⟨rfl, rfl, rfl, rfl⟩
  · exact Answers.of_kept (u := s.upTo now) rfl (doStageOverrun_again (s := (s.upTo now).fresh) hawake hstage hb hbound hagain)
      (toFailed_pending _ 3) ⟨rfl, rfl, faultN_toFailed _ 3⟩

end Sys2Proof.Machine
end

section
/-! Service opens, and PERST# (O24). -/

namespace Sys2Proof.Machine

/-- A command that moves the clock on runs on the state at its time. (The effect stays a variable: to compare two runs of it, the
kernel need not run it.) -/
theorem run_upTo (s : State) (now : Nat) (f : State → State) : run s (fun t => f (t.upTo now)) = run (s.upTo now) f := rfl

/-! ### When service opens (13 R423) -/

theorem mayOpen_iff (s : State) : s.mayOpen = true ↔ Claims.Opens s := by
  have hbound : s.boot.step4At + 500 * msNs + 10000 * msNs = s.boot.step4At + 10500000000 := by
    simp [msNs, Nat.add_assoc]
  simp [State.mayOpen, Claims.Opens, hbound, and_assoc]

theorem doServiceOpen_of_not_opens {s : State} (h : ¬ Claims.Opens s) : doServiceOpen s = s := by
  have hnot : s.mayOpen = false := by simpa using mt (mayOpen_iff s).1 h
  simp [doServiceOpen, hnot]

/-- Fabric time as the opening of service finds it: in HOLDOVER with SYNC_FAULT without a lock. -/
def State.heldOver (s : State) : State :=
  { s with clk := { s.clk with holdover := s.clk.holdover || !s.clk.locked, syncFault := s.clk.syncFault || !s.clk.locked } }

theorem heldOver_eq (s : State) :
    (if s.clk.locked then s else { s with clk := { s.clk with holdover := true, syncFault := true } }) = s.heldOver := by
  cases hlocked : s.clk.locked with
  | false => simp [State.heldOver, hlocked]
  | true =>
    have hnot : (!s.clk.locked) = false := by simp [hlocked]
    rw [if_pos rfl, State.heldOver, hnot, Bool.or_false, Bool.or_false]

theorem boot_openWeirs_openEpoch (s : State) : s.openEpoch.openWeirs.boot = s.boot :=
  (State.openWeirs_keeps (m := [.clk, .flt, .mem, .side, .allocs, .badGrains, .parts, .cfg, .ep, .slc, .wt, .sec, .mboxes,
    .twin]) (by decide) (State.openEpoch_keeps (by decide) (.refl _ s))).same .boot (by decide)

/-- Service opens: the epoch accepted before it, the weir lists, the image or the pages, and then stage 5. -/
theorem doServiceOpen_of_opens {s : State} (h : Claims.Opens s) : doServiceOpen s =
    let t := s.heldOver.openEpoch.openWeirs
    let u := if s.boot.scope == .full || !s.ep.early.isEmpty then t.writeImage else t
    Claims.inService (if s.boot.scope == .retain then u.rebuildPages else u) := by
  have hopen := (mayOpen_iff s).2 h
  have hboot : s.heldOver.openEpoch.openWeirs.boot = s.boot := boot_openWeirs_openEpoch s.heldOver
  have himage : (if s.boot.scope == .full || !s.ep.early.isEmpty then s.heldOver.openEpoch.openWeirs.writeImage
      else s.heldOver.openEpoch.openWeirs).boot = s.boot := by
    split <;> exact hboot
  have hearly : s.heldOver.ep = s.ep := rfl
  unfold doServiceOpen
  simp only [hopen, heldOver_eq, hboot, hearly, himage]
  rfl

/-! ### No commit before service -/

theorem withItems_nil (c : Settings) : c.withItems [] = c := by
  have hports : weirPorts [] = [] := by simp [weirPorts, weirParts]
  simp [Settings.withItems, hports]

theorem openEpoch_heldOver {s : State} (hearly : s.ep.early = []) : s.heldOver.openEpoch = Claims.timed s := by
  have hearly' : s.heldOver.ep.early = [] := hearly
  unfold State.openEpoch
  simp only [hearly', List.flatMap_nil, withItems_nil, List.any_nil, Bool.false_and, List.isEmpty_nil, if_true]
  rfl

/-! ### Commits accepted before service (13 R437) -/

theorem sameCommit_reopen (s : State) (n : Nat) : SameCommit s (s.reopen n) := ⟨rfl, rfl, rfl, rfl⟩

theorem sameCommit_doEpochDrainEnd (s : State) : SameCommit s (doEpochDrainEnd s) := by
  unfold doEpochDrainEnd
  split
  · obtain ⟨g, hg⟩ := each_writeGates s.ep.releasing s
    simp only [hg]
    exact ⟨rfl, rfl, rfl, rfl⟩
  · exact .refl s

/-- Are the tick settings of the accepted epochs rejected (07 R215)? -/
def State.tickReject (s : State) : Bool :=
  let items := s.ep.early.flatMap fun p => s.pendItems p.what
  items.any isTick && !originOk (s.cfg.withItems items) (s.clk.withEpoch (s.cfg.withItems items).fepoch).ftime

/-- The clock with which the accepted epochs come into force. -/
def State.openingClk (s : State) : Clk :=
  if s.tickReject then s.clk.withEpoch s.cfg.fepoch
  else s.clk.withEpoch (s.cfg.withItems (s.ep.early.flatMap fun p => s.pendItems p.what)).fepoch

/-- The mailboxes whose sets the accepted epochs hold. -/
def State.earlySets (s : State) : List Nat :=
  s.ep.early.filterMap fun p => match p.what with | .set n => some n | .dir _ => none

/-- The settings and the clock of one further epoch come into force, and the sets of their changes are open again. -/
def State.applyEarly (s : State) (items : List Staged) (clk : Clk) : State :=
  doEpochDrainEnd ((State.applyItems { s with
    clk := clk
    ep := { s.ep with
      epoch := s.ep.epoch + 1, early := [], draining := true, tickRejected := s.ep.tickRejected || s.tickReject } }
    items (takeOvers items clk.ftime)).each s.earlySets State.reopen)

theorem openEpoch_of_early {s : State} (hearly : s.ep.early ≠ []) :
    s.openEpoch = s.applyEarly (Claims.opening s) s.openingClk := by
  have hsome : s.ep.early.isEmpty = false := by simpa using hearly
  unfold State.openEpoch
  rw [hsome]
  rfl

theorem applyEarly_clk (s : State) (items : List Staged) (clk : Clk) : (s.applyEarly items clk).clk = clk := by
  have hkeeps (t : State) (weirAt : Tbl Nat) :
      Keeps [.flt, .mem, .side, .allocs, .badGrains, .parts, .cfg, .ep, .slc, .wt, .sec, .mboxes, .twin] t
        (doEpochDrainEnd ((t.applyItems items weirAt).each s.earlySets State.reopen)) :=
    doEpochDrainEnd_keeps (by decide) (State.each_keeps (fun u n hu => State.reopen_keeps (by decide) hu)
      (State.applyItems_keeps (List.Subset.refl _) (.refl _ t)))
  exact (hkeeps _ _).same .clk (by decide)

theorem sameCommit_applyEarly (s : State) (items : List Staged) (clk : Clk) :
    SameCommit { s with
      cfg := s.cfg.inForce items clk.ftime, ep := { s.ep with epoch := s.ep.epoch + 1, early := [] } } (s.applyEarly items clk) := by
  unfold State.applyEarly
  refine .trans ?_ (sameCommit_doEpochDrainEnd _)
  refine .trans ?_ (.each sameCommit_reopen _ _)
  generalize hv : ({ s with
    clk := clk
    ep := { s.ep with
      epoch := s.ep.epoch + 1, early := [], draining := true, tickRejected := s.ep.tickRejected || s.tickReject } } : State) = v
  obtain ⟨hcfg, hepoch, hpend, hearly⟩ := sameCommit_applyItems v items (takeOvers items clk.ftime)
  subst hv
  exact ⟨hcfg, hepoch, hpend, hearly⟩

/-! ### The node in service -/

/-- What two steps keep, one after the other. -/
theorem keeps_trans {m m1 m2 : List Region} {s t u : State} (h1 : Keeps m1 s t) (h2 : Keeps m2 t u) (hm1 : m1 ⊆ m)
    (hm2 : m2 ⊆ m) : Keeps m s u := by
  refine ⟨fun p hp => ?_⟩
  have hst := h1.same p fun h => hp (hm1 h)
  have htu := h2.same p fun h => hp (hm2 h)
  cases p <;> exact Eq.trans htu hst

theorem inService_keeps (t : State) : Keeps [.boot, .twin, .sb] t (Claims.inService t) := by
  have hrecord (twin : Twin) (boot : Boot) : Keeps [.boot, .twin, .sb] t { t with twin := twin, boot := boot } := by
    refine ⟨fun p hp => ?_⟩
    cases p
    case boot => exact absurd (by decide) hp
    case twin => exact absurd (by decide) hp
    all_goals rfl
  exact State.toStage_keeps (by decide) (hrecord _ _)

/-- The state just before service is opened in it: the weir lists have taken over, and the image or the pages are made again. -/
def State.readyToOpen (s : State) : State :=
  let t := s.heldOver.openEpoch.openWeirs
  let u := if s.boot.scope == .full || !s.ep.early.isEmpty then t.writeImage else t
  if s.boot.scope == .retain then u.rebuildPages else u

theorem rebuildIf_keeps (b : Bool) (u : State) :
    Keeps [.flt, .mem, .side, .badGrains, .sessions, .parts, .slc, .wt, .sec, .twin] u (if b then u.rebuildPages else u) :=
  ite_keeps (State.rebuildPages_keeps (List.Subset.refl _) (.refl _ u)) (.refl _ u)

theorem readyToOpen_clk (s : State) : s.readyToOpen.clk = s.heldOver.openEpoch.clk := by
  have hweirs : s.heldOver.openEpoch.openWeirs.clk = s.heldOver.openEpoch.clk :=
    (State.openWeirs_keeps (List.Subset.refl _) (.refl _ _)).same .clk (by decide)
  refine Eq.trans ((rebuildIf_keeps _ _).same .clk (by decide)) ?_
  split
  · exact hweirs
  · exact hweirs

/-- Fabric time as service opens differs only in where it counts from. -/
theorem openEpoch_clk (s : State) : ∃ sec, s.openEpoch.clk = s.clk.withEpoch sec := by
  by_cases hearly : s.ep.early = []
  · refine ⟨s.cfg.fepoch, ?_⟩
    unfold State.openEpoch
    simp only [hearly, List.flatMap_nil, withItems_nil, List.any_nil, Bool.false_and, List.isEmpty_nil, if_true]
    rfl
  · rw [openEpoch_of_early hearly, applyEarly_clk, State.openingClk]
    split
    · exact ⟨_, rfl⟩
    · exact ⟨_, rfl⟩

theorem effect_of_open {s : State} (h : Claims.Opens s) :
    (doServiceOpen s).boot.stage = 5 ∧ (doServiceOpen s).boot.stageStart = s.clk.up ∧
      (s.clk.locked = false → (doServiceOpen s).clk.holdover = true ∧ (doServiceOpen s).clk.syncFault = true) ∧
      (doServiceOpen s).twin.state = (if (doServiceOpen s).pairEn then twJoining else twUnpaired) ∧
      (doServiceOpen s).twin.joinAt = (doServiceOpen s).clk.ftime := by
  have heq : doServiceOpen s = Claims.inService s.readyToOpen := doServiceOpen_of_opens h
  obtain ⟨sec, hclk⟩ := openEpoch_clk s.heldOver
  have hready : s.readyToOpen.clk = s.heldOver.clk.withEpoch sec := (readyToOpen_clk s).trans hclk
  rw [heq]
  generalize s.readyToOpen = t at hready
  have hkeeps := inService_keeps t
  have hclk' : (Claims.inService t).clk = t.clk := hkeeps.same .clk (by decide)
  have hcfg : (Claims.inService t).cfg = t.cfg := hkeeps.same .cfg (by decide)
  have htwin : (Claims.inService t).twin =
      { t.twin with state := if t.pairEn then twJoining else twUnpaired, joinAt := t.clk.ftime } :=
    (State.toStage_keeps (List.Subset.refl _) (.refl _ _)).same .twin (by decide)
  have hpair : (Claims.inService t).pairEn = t.pairEn := congrArg (fun c : Settings => c.twinCfg.getLsbD 13) hcfg
  refine ⟨rfl, ?_, fun hlocked => ?_, ?_, ?_⟩
  · have hstart : (Claims.inService t).boot.stageStart = t.clk.up := rfl
    rw [hstart, hready]
    rfl
  · rw [hclk', hready]
    simp [Clk.withEpoch, State.heldOver, hlocked]
  · rw [hpair, htwin]
  · rw [hclk', htwin]

/-- With commits accepted before service, their changes are in force as one further epoch, which both images hold. -/
theorem effect_of_earlyOpen {s : State} (h : Claims.Opens s) (hearly : s.ep.early ≠ []) :
    (doServiceOpen s).cfg = s.cfg.inForce (Claims.opening s) (doServiceOpen s).clk.ftime ∧
      (doServiceOpen s).ep.epoch = s.ep.epoch + 1 ∧ (doServiceOpen s).ep.early = [] ∧
      (doServiceOpen s).ep.images =
        [(0, { settings := (doServiceOpen s).cfg, epoch := (doServiceOpen s).ep.epoch, digestOk := true }),
          (1, { settings := (doServiceOpen s).cfg, epoch := (doServiceOpen s).ep.epoch, digestOk := true })] := by
  have hsome : s.ep.early.isEmpty = false := by simpa using hearly
  have heq : doServiceOpen s = Claims.inService
      (if s.boot.scope == .retain then s.heldOver.openEpoch.openWeirs.writeImage.rebuildPages
        else s.heldOver.openEpoch.openWeirs.writeImage) := by
    simp only [doServiceOpen_of_opens h, hsome, Bool.not_false, Bool.or_true, if_true]
  have hopen : s.heldOver.openEpoch = s.heldOver.applyEarly (Claims.opening s) s.heldOver.openingClk :=
    openEpoch_of_early (s := s.heldOver) hearly
  have hcommit := sameCommit_applyEarly s.heldOver (Claims.opening s) s.heldOver.openingClk
  have hclk := applyEarly_clk s.heldOver (Claims.opening s) s.heldOver.openingClk
  rw [heq, hopen]
  generalize State.applyEarly _ _ _ = t at hcommit hclk
  obtain ⟨hcfg, hepoch, -, hnone⟩ := hcommit
  have hweirs : Keeps [.wt] t t.openWeirs := State.openWeirs_keeps (List.Subset.refl _) (.refl _ t)
  have hlast := rebuildIf_keeps (s.boot.scope == .retain) t.openWeirs.writeImage
  generalize (if (s.boot.scope == NodeScope.retain) = true then _ else _) = u at hlast
  have hservice := inService_keeps u
  have hcfg' : (Claims.inService u).cfg = t.cfg :=
    ((hservice.same .cfg (by decide)).trans (hlast.same .cfg (by decide))).trans (hweirs.same .cfg (by decide))
  have hclk' : (Claims.inService u).clk = t.clk :=
    ((hservice.same .clk (by decide)).trans (hlast.same .clk (by decide))).trans (hweirs.same .clk (by decide))
  have hep' : (Claims.inService u).ep = t.openWeirs.writeImage.ep :=
    (hservice.same .ep (by decide)).trans (hlast.same .ep (by decide))
  have hwep : t.openWeirs.ep = t.ep := hweirs.same .ep (by decide)
  have hwcfg : t.openWeirs.cfg = t.cfg := hweirs.same .cfg (by decide)
  have himage : t.openWeirs.writeImage.ep = { t.ep with images :=
      [(0, { settings := t.cfg, epoch := t.ep.epoch, digestOk := true }),
        (1, { settings := t.cfg, epoch := t.ep.epoch, digestOk := true })] } := by
    simp only [State.writeImage, hwep, hwcfg]
  rw [hcfg', hclk', hep', himage]
  refine ⟨?_, hepoch, hnone, rfl⟩
  rw [hcfg, hclk]
  rfl

/-- After a full reset, with no commit before service. -/
theorem doServiceOpen_full {s : State} (h : Claims.Opens s) (hearly : s.ep.early = []) (hscope : s.boot.scope = .full) :
    doServiceOpen s = Claims.inService (Claims.timed s).openWeirs.writeImage := by
  have hfull : (s.boot.scope == NodeScope.full) = true := by rw [hscope]; rfl
  have hretain : (s.boot.scope == NodeScope.retain) = false := by rw [hscope]; rfl
  simp only [doServiceOpen_of_opens h, hfull, hretain, openEpoch_heldOver hearly, Bool.true_or, if_true, Bool.false_eq_true,
    if_false]

/-- After NODE_RETAIN, with no commit before service. -/
theorem doServiceOpen_retain {s : State} (h : Claims.Opens s) (hearly : s.ep.early = []) (hscope : s.boot.scope = .retain) :
    doServiceOpen s = Claims.inService (Claims.timed s).openWeirs.rebuildPages := by
  have hfull : (s.boot.scope == NodeScope.full) = false := by rw [hscope]; rfl
  have hretain : (s.boot.scope == NodeScope.retain) = true := by rw [hscope]; rfl
  have hnone : s.ep.early.isEmpty = true := by rw [hearly]; rfl
  simp only [doServiceOpen_of_opens h, hfull, hretain, hnone, openEpoch_heldOver hearly, Bool.not_true, Bool.or_self, if_true,
    Bool.false_eq_true, if_false]

theorem writeImage_keeps (t : State) : Keeps [.ep] t t.writeImage := State.writeImage_keeps (List.Subset.refl _) (.refl _ t)

theorem effect_of_plainOpen {s : State} (h : Claims.Opens s) (hearly : s.ep.early = []) (hscope : s.boot.scope = .full) :
    (doServiceOpen s).cfg = s.cfg ∧ (doServiceOpen s).ep.epoch = s.ep.epoch ∧ (doServiceOpen s).mem = s.mem ∧
      (doServiceOpen s).sessions = s.sessions ∧ (doServiceOpen s).allocs = s.allocs ∧ (doServiceOpen s).jets = s.jets := by
  have hweirs : Keeps [.wt] (Claims.timed s) (Claims.timed s).openWeirs :=
    State.openWeirs_keeps (List.Subset.refl _) (.refl _ _)
  have hservice := inService_keeps (Claims.timed s).openWeirs.writeImage
  have himage := writeImage_keeps (Claims.timed s).openWeirs
  have hep : (Claims.inService (Claims.timed s).openWeirs.writeImage).ep = (Claims.timed s).openWeirs.writeImage.ep :=
    hservice.same .ep (by decide)
  have hepoch : (Claims.timed s).openWeirs.ep.epoch = s.ep.epoch := congrArg Epochs.epoch (hweirs.same .ep (by decide))
  rw [doServiceOpen_full h hearly hscope]
  have hkeeps : Keeps [.boot, .twin, .sb, .ep, .wt] (Claims.timed s) (Claims.inService (Claims.timed s).openWeirs.writeImage) :=
    keeps_trans (keeps_trans (m := [.ep, .wt]) hweirs himage (by decide) (by decide)) hservice (by decide) (by decide)
  refine ⟨hkeeps.same .cfg (by decide), ?_, hkeeps.same .mem (by decide), hkeeps.same .sessions (by decide),
    hkeeps.same .allocs (by decide), hkeeps.same .jets (by decide)⟩
  rw [hep]
  exact hepoch

/-! ### PERST# (13 R426) -/

theorem doPerst_of_awake {s : State} (hawake : s.awake = true) (hstage : 2 ≤ s.boot.stage) :
    doPerst s = s.functionReset := by
  simp [doPerst, hawake, hstage]

theorem doPerst_of_early {s : State} (h : s.awake = false ∨ s.boot.stage < 2) : doPerst s = s := by
  have hnot : (s.awake && decide (2 ≤ s.boot.stage)) = false := by
    obtain h | h := h
    · simp [h]
    · simp [Nat.not_le.2 h]
  simp [doPerst, hnot]

/-- A mailbox at its Reset values. -/
theorem mbox_functionReset (s : State) (m : Nat) :
    (s.functionReset.mbox m).state = 0 ∧ (s.functionReset.mbox m).resp = [] ∧ (s.functionReset.mbox m).overrun = false ∧
      (s.functionReset.mbox m).seqDone = 0#16 ∧ (s.functionReset.mbox m).seqTaken = 0#16 := by
  unfold State.functionReset
  dsimp only [State.mbox, Tbl.getD]
  rw [Tbl.get?_mapVals]
  generalize Tbl.get? _ m = x
  cases x <;> exact ⟨rfl, rfl, rfl, rfl, rfl⟩

theorem spdm_functionReset (s : State) : ∀ x ∈ s.functionReset.sec.spdm, x.1 = 17 := by
  intro x hx
  unfold State.functionReset at hx
  dsimp only at hx
  simpa using (List.mem_filter.1 hx).2

theorem closeHostQueues_eq (s : State) : s.closeHostQueues =
    let shut (q : Queue) : Queue :=
      if qType q.ctx = 2 ∨ qType q.ctx = 3 then { q with ctx := setField q.ctx 0 2 0, landed := [], stopping := false } else q
    { s with slc := { s.slc with queues := Tbl.mapVals s.slc.queues fun _ q => shut q } } := by
  simp only [State.closeHostQueues, Bool.or_eq_true, decide_eq_true_eq]

theorem functionReset_eq (s : State) : s.functionReset =
      let hosts := (s.slc.reqs.filter fun x => x.2.msg.isHost && !x.2.complete).map Prod.fst
      let stops := (s.slc.queues.filter fun q => (qType q.2.ctx == 2 || qType q.2.ctx == 3) && q.2.stopping).map Prod.fst
      let shut (q : Queue) : Queue :=
        if qType q.ctx = 2 ∨ qType q.ctx = 3 then { q with ctx := setField q.ctx 0 2 0, landed := [], stopping := false } else q
      let u := { s with slc := { s.slc with queues := Tbl.mapVals s.slc.queues fun _ q => shut q } }
      let u := u.each hosts fun u r => u.endReq r stCancelled
      let u := u.unpark (fun op c => op == 0x0061#16 && stops.contains (leNat c.body)) stOk fun _ _ => []
      { u with
        mboxes := Tbl.mapVals u.mboxes fun _ m =>
          { m with resp := [], state := 0, overrun := false, result := 0#8, seqDone := 0#16, seqTaken := 0#16 }
        sec := { u.sec with spdm := u.sec.spdm.filter fun x => x.1 == 17, ide := [] } } := by
  unfold State.functionReset
  rw [closeHostQueues_eq]

/-- Whether service may open does not turn on what has been sent. -/
theorem opens_fresh (s : State) : Claims.Opens s.fresh ↔ Claims.Opens s := by
  have hclk : s.fresh.clk = s.clk := rfl
  have hboot : s.fresh.boot = s.boot := rfl
  have hawake : s.fresh.awake = s.awake := rfl
  rw [Claims.Opens, Claims.Opens, hclk, hboot, hawake]

theorem fresh_upTo (s : State) (now : Nat) : s.fresh.upTo now = (s.upTo now).fresh := rfl

/-- Settles O24. -/
theorem serviceAndPerst : Obligations.ServiceAndPerst := by
  unfold Obligations.ServiceAndPerst
  refine ⟨fun now s hnot => ?_, fun now s hopen hearly hscope => ?_, fun now s hopen hearly hscope => ?_,
    fun now s hopen hearly => ?_, fun now s hopen => ?_, fun now s hopen hearly hscope => ?_, fun s hawake hstage => ?_,
    fun s hawake hstage => ?_, fun s h => ?_⟩
  · have hnot' : ¬ Claims.Opens (s.upTo now).fresh := mt (opens_fresh _).1 hnot
    exact does_of_fresh (fun t => doServiceOpen (t.upTo now)) rfl (doServiceOpen_of_not_opens hnot')
  · have hopen' := (opens_fresh _).2 hopen
    exact does_of_fresh (fun t => doServiceOpen (t.upTo now)) rfl (doServiceOpen_full hopen' hearly hscope)
  · have hopen' := (opens_fresh _).2 hopen
    exact does_of_fresh (fun t => doServiceOpen (t.upTo now)) rfl (doServiceOpen_retain hopen' hearly hscope)
  · have hopen' := (opens_fresh _).2 hopen
    refine Answers.of_fresh (s.upTo now) doServiceOpen (run_upTo s now doServiceOpen)
      ((doServiceOpen_keeps (List.Subset.refl _) (.refl _ (s.upTo now).fresh)).same .pending (by decide)) ?_
    exact effect_of_earlyOpen hopen' hearly
  · have hopen' := (opens_fresh _).2 hopen
    refine Answers.of_fresh (s.upTo now) doServiceOpen (run_upTo s now doServiceOpen)
      ((doServiceOpen_keeps (List.Subset.refl _) (.refl _ (s.upTo now).fresh)).same .pending (by decide)) ?_
    exact effect_of_open hopen'
  · have hopen' := (opens_fresh _).2 hopen
    refine Answers.of_fresh (s.upTo now) doServiceOpen (run_upTo s now doServiceOpen)
      ((doServiceOpen_keeps (List.Subset.refl _) (.refl _ (s.upTo now).fresh)).same .pending (by decide)) ?_
    exact effect_of_plainOpen hopen' hearly hscope
  · exact does_of_fresh doPerst rfl ((doPerst_of_awake (s := s.fresh) hawake hstage).trans (functionReset_eq _))
  · refine Answers.of_fresh s doPerst rfl ((doPerst_keeps (List.Subset.refl _) (.refl _ s.fresh)).same .pending (by decide)) ?_
    rw [doPerst_of_awake (s := s.fresh) hawake hstage]
    have hkeeps := State.functionReset_keeps (List.Subset.refl _) (.refl _ s.fresh)
    exact ⟨rfl, spdm_functionReset s.fresh, hkeeps.same .mem (by decide), hkeeps.same .cfg (by decide),
      hkeeps.same .sessions (by decide), hkeeps.same .allocs (by decide), hkeeps.same .parts (by decide),
      hkeeps.same .ep (by decide), hkeeps.same .boot (by decide), mbox_functionReset s.fresh⟩
  · exact does_of_fresh doPerst rfl (doPerst_of_early (s := s.fresh) h)

end Sys2Proof.Machine
end

section
/-! The power manager and fabric time (O25, O26). -/

namespace Sys2Proof.Machine

/-! ### Power (13 R428, 15 R470) -/

theorem nextLevel_of_over {level p avg limit margin : Nat} {hot mayFall : Bool} (h : 5 * limit < 4 * p) :
    nextLevel level p avg limit margin hot mayFall = min (level + 8) 40 := if_pos h

theorem nextLevel_of_warm {level p avg limit margin : Nat} {hot mayFall : Bool} (h : ¬ 5 * limit < 4 * p)
    (hwarm : limit < avg + margin ∨ hot = true) : nextLevel level p avg limit margin hot mayFall = min (level + 1) 40 := by
  rw [nextLevel, if_neg h, if_pos (by simpa using hwarm)]

theorem nextLevel_of_cool {level p avg limit margin : Nat} {hot mayFall : Bool} (h : ¬ 5 * limit < 4 * p)
    (hcool : ¬ limit < avg + margin) (hhot : hot = false) :
    nextLevel level p avg limit margin hot mayFall = level ∨
      nextLevel level p avg limit margin hot mayFall = level - 1 ∧ mayFall = true := by
  rw [nextLevel, if_neg h, if_neg (by simpa [hhot] using hcool)]
  cases mayFall <;> simp

/-- One control step moves VDD_CORE by at most 10 mV. -/
theorem nextVdd_near (mv target : Nat) : nextVdd mv target ≤ mv + 10 ∧ mv ≤ nextVdd mv target + 10 := by
  unfold nextVdd
  dsimp only
  split
  · omega
  · split <;> omega

/-- May LEVEL fall at a sample: the load low for 4 ms, the last fall 1 ms ago, and no three AVSBus writes lost? -/
def State.mayFall (s : State) (avg tjC : Nat) : Bool :=
  let low := decide (avg + s.marginW + 40 < s.limitW) && decide (tjC + 5 < s.tjStep)
  (match (if low then some (s.pwr.lowSince.getD s.clk.up) else none) with
    | some t => decide (t + 4000000 ≤ s.clk.up) | none => false) &&
  (match s.pwr.loweredAt with | some t => decide (t + 1000000 ≤ s.clk.up) | none => true) && !s.pwr.noRaise

theorem noRaise_of_mayFall {s : State} {avg tjC : Nat} (h : s.mayFall avg tjC = true) : s.pwr.noRaise = false := by
  have hlast := (Bool.and_eq_true_iff.1 h).2
  simpa using hlast

/-- The samples that the average covers after one more. -/
def Pwr.sampled (x : Pwr) (w : Nat) : List Nat := (x.samples ++ [w]).drop (x.samples.length + 1 - 100)

/-- What a sample leaves in the power block and on the sensors. -/
theorem effect_of_powerSample {w j c : Nat} {s : State} (hawake : s.awake = true) (hstage : 1 ≤ s.boot.stage) :
    (doPowerSample w j c s).pwr.level = nextLevel s.pwr.level w (meanOf (s.pwr.sampled w)) s.limitW s.marginW
        (decide (s.tjStep < j)) (s.mayFall (meanOf (s.pwr.sampled w)) j) ∧
      (doPowerSample w j c s).pwr.samples = s.pwr.sampled w ∧ (doPowerSample w j c s).pwr.avg = meanOf (s.pwr.sampled w) ∧
      (doPowerSample w j c s).pwr.cfg = s.pwr.cfg ∧ (doPowerSample w j c s).boot = s.boot ∧
      (doPowerSample w j c s).pins.tjMax = 4 * j ∧ (doPowerSample w j c s).pins.tcisMax = 4 * c ∧
      ∃ target, (doPowerSample w j c s).pins.vddMv = nextVdd s.pins.vddMv target := by
  have hguard : ¬ (!(s.awake && decide (1 ≤ s.boot.stage))) = true := by simp [hawake, hstage]
  unfold doPowerSample
  rw [if_neg hguard]
  dsimp only
  by_cases hhot : (!s.tjHot && decide (s.tjStep < j)) = true
  · rw [if_pos hhot]
    exact ⟨rfl, rfl, rfl, rfl, rfl, rfl, rfl, _, rfl⟩
  · rw [if_neg hhot]
    exact ⟨rfl, rfl, rfl, rfl, rfl, rfl, rfl, _, rfl⟩

theorem doAvsbusNoAck_eq {s : State} (hawake : s.awake = true) (hstage : 1 ≤ s.boot.stage) :
    doAvsbusNoAck s = { s with pwr := { s.pwr with noRaise := true } } := by
  simp [doAvsbusNoAck, hawake, hstage]

/-- Settles O25, by the cases of the level's rule. -/
theorem powerLevels : Obligations.PowerLevels := by
  unfold Obligations.PowerLevels
  refine ⟨fun w j c now s hawake hstage => ?_, fun s hawake hstage => ?_⟩
  · refine Answers.of_fresh (s.upTo now) (doPowerSample w j c) (run_upTo s now _)
      ((doPowerSample_keeps (List.Subset.refl _) (.refl _ (s.upTo now).fresh)).same .pending (by decide)) ?_
    obtain ⟨hlevel, hsamples, havg, hcfg, hboot, htj, htcis, target, hvdd⟩ :=
      effect_of_powerSample (w := w) (j := j) (c := c) (s := (s.upTo now).fresh) hawake hstage
    obtain ⟨hup, hdown⟩ := nextVdd_near s.pins.vddMv target
    rw [hlevel, hsamples, havg, hcfg, hboot, htj, htcis, hvdd]
    refine ⟨nextLevel_of_over, fun h hwarm => nextLevel_of_warm h ?_, fun h hcool hhot => ?_, rfl, rfl, hup, hdown, rfl, rfl,
      rfl, rfl⟩
    · exact hwarm.imp_right fun hj => decide_eq_true hj
    · have hfall := nextLevel_of_cool (level := s.pwr.level)
        (mayFall := (s.upTo now).fresh.mayFall (meanOf (s.pwr.sampled w)) j) h hcool (decide_eq_false hhot)
      exact hfall.imp_right fun hfall => ⟨hfall.1, noRaise_of_mayFall (s := (s.upTo now).fresh) hfall.2⟩
  · exact does_of_fresh doAvsbusNoAck rfl (doAvsbusNoAck_eq (s := s.fresh) hawake hstage)

/-! ### Messages of a clock (07 R212) -/

section
variable {p : Nat} {s : State} (hawake : s.awake = true) (hlo : 3 ≤ s.boot.stage) (hhi : s.boot.stage ≤ 5)
  (hup : (s.port p).up = true)
include hawake hlo hhi hup

theorem doPtpMessage_announce (c : PtpClock) : doPtpMessage p (.announce c) s = s.announced p c := by
  simp [doPtpMessage, hawake, hlo, hhi, hup]

theorem doPtpMessage_master {m : PtpMsg} (hm : ∀ c, m ≠ .announce c) (hmaster : s.masterPort = some p) :
    doPtpMessage p m s = s.masterMessage p m := by
  cases m with
  | announce c => exact absurd rfl (hm c)
  | _ => simp [doPtpMessage, hawake, hlo, hhi, hup, hmaster]

end

theorem doPtpMessage_other {p : Nat} {m : PtpMsg} {s : State} (hm : ∀ c, m ≠ .announce c) (hmaster : s.masterPort ≠ some p) :
    doPtpMessage p m s = s := by
  cases m with
  | announce c => exact absurd rfl (hm c)
  | _ => simp [doPtpMessage, hmaster]

/-- The state with another clock. -/
def State.withClk (s : State) (c : Clk) : State := { s with clk := c }

/-- An announcement is heard, and time goes on as it was. -/
theorem announced_eq (s : State) (p : Nat) (c : PtpClock) :
    ∃ k : Clk, s.announced p c = s.withClk k ∧ k.heard = Tbl.set s.clk.heard p c ∧ k.ftime = s.clk.ftime ∧
      k.locked = s.clk.locked := by
  unfold State.announced
  dsimp only
  split
  · exact ⟨_, rfl, rfl, rfl, rfl⟩
  · exact ⟨_, rfl, rfl, rfl, rfl⟩

/-- A complete Sync without a path delay asks for it. -/
theorem syncDone_eq {s : State} (p : Nat) (hreq : s.clk.delayReq = none) (hpath : s.clk.pathNs = none) :
    s.syncDone p = (s.withClk { s.clk with
      delayReq := some (s.clk.delaySeq, s.clk.ptp), delaySeq := (s.clk.delaySeq + 1) % 65536 }).emit
        (.delayReq p s.clk.delaySeq) := by
  have hmeasure : s.clk.measure (s.boot.stage == 5) p = s.clk := by
    simp [Clk.measure, hpath]
  simp only [State.syncDone, hmeasure, State.askDelay, hreq]
  rfl

theorem masterMessage_followUp {s : State} {p q a b : Nat}
    (hsync : s.clk.sync = some { seq := q, cameNs := b, originNs := none }) :
    s.masterMessage p (.followUp q a) =
      (s.withClk { s.clk with sync := some { seq := q, cameNs := b, originNs := some a } }).syncDone p := by
  simp only [State.masterMessage, hsync]
  rfl

/-- A Sync whose times are both known, without a path delay: what is kept of it, and the request that goes out. -/
theorem effect_of_completeSync {s : State} (p : Nat) (y : Option PtpSync) (hreq : s.clk.delayReq = none)
    (hpath : s.clk.pathNs = none) :
    ∃ k : Clk, (s.withClk { s.clk with sync := y }).syncDone p = (s.withClk k).emit (.delayReq p s.clk.delaySeq) ∧
      k.sync = y ∧ k.delayReq = some (s.clk.delaySeq, s.clk.ptp) ∧ k.ftime = s.clk.ftime :=
  ⟨_, syncDone_eq (s := s.withClk { s.clk with sync := y }) p hreq hpath, rfl, rfl, rfl⟩

/-- The clock with the path delay of an answered request. -/
def Clk.delayed (c : Clk) (path : Int) : Clk := { c with delayReq := none, pathNs := some path }

theorem masterMessage_delayResp {s : State} {p q k a b c d : Nat} (hreq : s.clk.delayReq = some (q, c))
    (hsync : s.clk.sync = some { seq := k, cameNs := b, originNs := some a }) :
    s.masterMessage p (.delayResp q d) =
      s.withClk ((s.clk.delayed (((b - a : Int) + (d - c : Int)) / 2)).steer (s.boot.stage == 5) p (b - a - ((b - a : Int) + (d - c : Int)) / 2)) := by
  simp only [State.masterMessage, hreq, hsync, Option.bind_some, Option.map_some, if_true, Clk.measure, Clk.delayed]
  rfl

theorem steer_lock (c : Clk) (serving : Bool) (p : Nat) (o : Int) :
    (c.steer serving p o).locked = true ∧ (c.steer serving p o).holdover = false ∧ (c.steer serving p o).offsetNs = o := by
  unfold Clk.steer
  dsimp only
  split <;> exact ⟨rfl, rfl, rfl⟩

theorem steer_first {c : Clk} {serving : Bool} (hfirst : c.synced = false) (hserving : serving = false) (p : Nat) (o : Int) :
    (c.steer serving p o).slewNs = max o 0 ∧ (c.steer serving p o).syncFault = c.syncFault ∧
      (c.steer serving p o).ftime = if o < 0 then c.ftime + o.natAbs else c.ftime := by
  simp [Clk.steer, hfirst, hserving, Clk.unmeasured]

theorem steer_later {c : Clk} {serving : Bool} (hlater : c.synced = true ∨ serving = true) (p : Nat) (o : Int) :
    (c.steer serving p o).ftime = c.ftime ∧ (c.steer serving p o).slewNs = o ∧
      ((c.steer serving p o).syncFault = true ↔ c.syncFault = true ∨ (serving = true ∧ 1000000 < o.natAbs)) := by
  have hnot : (!c.synced && !serving) = false := by
    obtain h | h := hlater <;> simp [h]
  simp [Clk.steer, hnot]

theorem doMasterLost_of_locked {s : State} (hawake : s.awake = true) (hlocked : s.clk.locked = true) :
    doMasterLost s = { s with clk := { s.clk with
      heard := [], sync := none, delayReq := none, pathNs := none, locked := false, holdover := true } } := by
  simp [doMasterLost, hawake, hlocked, Clk.unmeasured]

theorem doPpsInEdge_of_awake {s : State} (hawake : s.awake = true) :
    doPpsInEdge s = { s with clk := { s.clk with ppsInAt := some s.clk.ftime } } := if_pos hawake

theorem doPpsOutSecond_eq {s : State} (hserving : s.serving = true) (hclk : s.clk.locked = true ∨ s.clk.holdover = true)
    (hsecond : s.clk.ptp % secNs = 0) : doPpsOutSecond s = { s with pins := { s.pins with ppsRise := some s.clk.up } } := by
  have hclk' : (s.clk.locked || s.clk.holdover) = true := by simpa using hclk
  simp [doPpsOutSecond, hserving, hclk', hsecond]

theorem ppsOut_of_rise {s : State} (hserving : s.serving = true) (hrise : s.pins.ppsRise = some s.clk.up) :
    s.ppsOut = true := by
  simp [State.ppsOut, hrise, hserving]

/-- Settles O26. -/
theorem fabricTime : Obligations.FabricTime := by
  unfold Obligations.FabricTime
  refine ⟨fun p c s hawake hlo hhi hup => ?_, fun p m s hm hmaster => ?_,
    fun p q a s hawake hlo hhi hup hmaster hreq hpath => ⟨?_, ?_, fun b hsync => ?_⟩,
    fun p q k a b c d s hawake hlo hhi hup hmaster hreq hsync => ?_, fun s hawake hlocked => ?_, fun s hawake => ?_,
    fun now s hserving hclk hsecond => ?_⟩
  · obtain ⟨k, heq, hheard, hftime, hlocked⟩ := announced_eq s.fresh p c
    refine Answers.of_kept rfl ((doPtpMessage_announce (s := s.fresh) hawake hlo hhi hup c).trans heq) rfl
      ⟨?_, fun q hq => ?_, hftime, hlocked, rfl⟩
    · exact (congrArg (Tbl.get? · p) hheard).trans (Tbl.get?_set_same ..)
    · exact (congrArg (Tbl.get? · q) hheard).trans (Tbl.get?_set_ne _ _ hq)
  · exact does_of_fresh (doPtpMessage p m) rfl (doPtpMessage_other (s := s.fresh) hm hmaster)
  · obtain ⟨k, heq, hsync, hdelay, hftime⟩ :=
      effect_of_completeSync (s := s.fresh) p (some { seq := q, cameNs := s.clk.ptp, originNs := some a }) hreq hpath
    refine Answers.of_kept rfl ((doPtpMessage_master (s := s.fresh) hawake hlo hhi hup (by simp) hmaster).trans heq) rfl ?_
    exact ⟨hsync, hdelay, rfl, hftime, rfl⟩
  · exact Answers.of_kept rfl (doPtpMessage_master (s := s.fresh) hawake hlo hhi hup (by simp) hmaster) rfl rfl
  · obtain ⟨k, heq, hsync', hdelay, hftime⟩ :=
      effect_of_completeSync (s := s.fresh) p (some { seq := q, cameNs := b, originNs := some a }) hreq hpath
    have hmsg := (masterMessage_followUp (s := s.fresh) (p := p) (a := a) hsync).trans heq
    refine Answers.of_kept rfl ((doPtpMessage_master (s := s.fresh) hawake hlo hhi hup (by simp) hmaster).trans hmsg) rfl ?_
    exact ⟨hsync', hdelay, rfl, hftime, rfl⟩
  · have hmsg := masterMessage_delayResp (s := s.fresh) (p := p) (d := d) hreq hsync
    refine Answers.of_kept rfl ((doPtpMessage_master (s := s.fresh) hawake hlo hhi hup (by simp) hmaster).trans hmsg) rfl ?_
    obtain ⟨hlocked, hholdover, hoffset⟩ := steer_lock (s.clk.delayed (((b - a : Int) + (d - c : Int)) / 2))
      (s.boot.stage == 5) p (b - a - ((b - a : Int) + (d - c : Int)) / 2)
    refine ⟨hlocked, hholdover, hoffset, fun hfirst hstage => ?_, fun hlater => ?_, rfl⟩
    · exact steer_first (c := s.clk.delayed (((b - a : Int) + (d - c : Int)) / 2)) hfirst
        (beq_eq_false_iff_ne.2 (Nat.ne_of_lt hstage)) p (b - a - ((b - a : Int) + (d - c : Int)) / 2)
    · obtain ⟨hftime, hslew, hfault⟩ := steer_later (c := s.clk.delayed (((b - a : Int) + (d - c : Int)) / 2))
        (serving := s.boot.stage == 5) (hlater.imp_right beq_iff_eq.2) p (b - a - ((b - a : Int) + (d - c : Int)) / 2)
      rw [beq_iff_eq] at hfault
      exact ⟨hftime, hslew, hfault⟩
  · exact does_of_fresh doMasterLost rfl (doMasterLost_of_locked (s := s.fresh) hawake hlocked)
  · exact does_of_fresh doPpsInEdge rfl (doPpsInEdge_of_awake (s := s.fresh) hawake)
  · refine Answers.of_kept (u := s.upTo now) (run_upTo s now doPpsOutSecond)
      (doPpsOutSecond_eq (s := (s.upTo now).fresh) hserving hclk hsecond) rfl ⟨?_, rfl⟩
    exact ppsOut_of_rise hserving rfl

end Sys2Proof.Machine
end

section
/-! Verdicts, spares and scrubs (O29). -/

namespace Sys2Proof.Machine

theorem testWaits_eq_false {s : State} {p : Place} (h : ∀ g, p = .row g → (s.jet (grainJet g)).isolated = false) :
    s.testWaits p = false := by
  cases p with
  | row g => exact h g rfl
  | _ => rfl

theorem doSelfTestVerdict_eq {p : Place} {ok : Bool} {s : State} {x : TestRun} (hawake : s.awake = true)
    (hwait : s.testWaits p = false) (htest : s.flt.tests.find? (fun y => decide (y.place = p)) = some x) :
    doSelfTestVerdict p ok s = s.verdict x ok := by
  simp [doSelfTestVerdict, hawake, hwait, htest]

/-! ### Pair sparing (12 R399, R400) -/

theorem fst_nextSparePair_fresh (s : State) (ch : Nat) (l : List Bool) :
    (s.fresh.nextSparePair ch l).1 = (s.nextSparePair ch l).1 := by
  have hspares : s.fresh.spares = s.spares := rfl
  unfold State.nextSparePair
  rw [hspares]
  dsimp only
  split <;> rfl

/-- The copy of one grain of a run to the spare pair, each check on the way (02 R50, 12 R399). -/
def State.copyToSpare (e : EccReport) (ch : Nat) (a : Alloc) (v : State) (g : Nat) : State :=
  let v := v.noteCorrected e 1 ch g
  if v.badGrains.contains g then v
  else match v.grainFault e g with
    | some c => v.failGrain c.1 1 ch g c.2
    | none => v.spareHeader a g e

section
variable {ch pair : Nat} {e : EccReport} {s : State} (hserving : s.serving = true) (hch : ch < 128) (hpair : pair < 64)
include hserving hch hpair

theorem doPairSparing_spare {l : List Bool} {k : Nat} (hlive : s.pairLive (jetOf ch pair) = true)
    (hk : (s.nextSparePair ch l).1 = some k) :
    doPairSparing ch pair l e s =
      let u := (s.nextSparePair ch l).2
      let u := { u with spares := { u.spares with sparing := Tbl.set u.spares.sparing (jetOf ch pair) k } }
      u.each (u.allocs.filter fun a => grainJet a.first == jetOf ch pair) fun u a =>
        u.each ((List.range a.len).map (a.first + ·)) (State.copyToSpare e ch a) := by
  have hnext : s.nextSparePair ch l = (some k, (s.nextSparePair ch l).2) := Prod.ext hk rfl
  have hguard : ¬ (!(s.serving && decide (ch < 128 ∧ pair < 64) && s.pairLive (jetOf ch pair))) = true := by
    simp [hserving, hch, hpair, hlive]
  unfold doPairSparing
  rw [if_neg hguard, hnext]
  rfl

theorem doPairSparing_retire (hlive : s.pairLive (jetOf ch pair) = true) (hused : Tbl.getD s.spares.pairsUsed ch 0 = 4) :
    doPairSparing ch pair [] e s =
      State.retirePair { s with spares := { s.spares with pairsUsed := Tbl.set s.spares.pairsUsed ch 4 } } (jetOf ch pair) := by
  have hnext : s.nextSparePair ch [] =
      (none, { s with spares := { s.spares with pairsUsed := Tbl.set s.spares.pairsUsed ch 4 } }) := by
    simp [State.nextSparePair, hused]
  have hguard : ¬ (!(s.serving && decide (ch < 128 ∧ pair < 64) && s.pairLive (jetOf ch pair))) = true := by
    simp [hserving, hch, hpair, hlive]
  have hfour : 4 ≤ Tbl.getD (Tbl.set s.spares.pairsUsed ch 4) ch 0 := by rw [Tbl.getD_set_same]
  unfold doPairSparing
  rw [if_neg hguard, hnext]
  exact if_pos hfour

theorem doPairSpareSwitch_eq {k : Nat} (hidle : (s.jet (jetOf ch pair)).idle = true)
    (hk : Tbl.get? s.spares.sparing (jetOf ch pair) = some k) :
    doPairSpareSwitch ch pair s =
      let j := jetOf ch pair
      let u := (s.mapPair j k).setJet j (s.clearedJet j)
      State.placeCmds { u with flt := { u.flt with tests := u.flt.tests.filter fun x => match x.place with
        | .row g => grainJet g != j
        | .jet k => k != j
        | _ => true } } j 16 := by
  have hguard : ¬ (!(s.serving && decide (ch < 128 ∧ pair < 64) && (s.jet (jetOf ch pair)).idle)) = true := by
    simp [hserving, hch, hpair, hidle]
  unfold doPairSpareSwitch
  simp only [hk]
  exact if_neg hguard

end

/-! ### The scrub (12 R388) -/

section
variable {g : Nat} {e : EccReport} {s : State} {a : Alloc} {r : PageRef} (hserving : s.serving = true) (hg : g < grainCount)
  (hgood : g ∉ s.badGrains) (hcontent : s.hasContent g = true) (halloc : s.allocOf g = some a) (huse : a.use = .run r)
include hserving hg hgood hcontent halloc huse

theorem doScrubPass_page {p : Page} (hpage : s.page? r = some p) (hgrain : p.desc.grain = a.first)
    (hnames : p.names a.first = true) (hcontained : p.desc.contained = false) :
    doScrubPass g e s = (s.scrubGrain g e).scrubHeader r p g e := by
  simp [doScrubPass, hserving, hg, hgood, hcontent, halloc, huse, hpage, hgrain, hnames, hcontained]

theorem doScrubPass_unnamed (hpage : s.page? r = none) :
    doScrubPass g e s = s.freeAllocs fun b => b.first == a.first := by
  simp [doScrubPass, hserving, hg, hgood, hcontent, halloc, huse, hpage]

end

/-- Settles O29. -/
theorem verdictsAndSpares : Obligations.VerdictsAndSpares := by
  unfold Obligations.VerdictsAndSpares
  refine ⟨fun p ok now s x hawake hwait htest => ?_, fun ch pair l e s k hserving hch hpair hlive hk => ?_,
    fun ch pair e s hserving hch hpair hlive hused => ?_, fun ch pair k s hserving hch hpair hidle hk => ?_,
    fun g e s a r p hserving hg hgood hcontent halloc huse hpage hgrain hnames hcontained => ?_,
    fun g e s a r hserving hg hgood hcontent halloc huse hpage => ?_⟩
  · exact does_of_fresh (fun t => doSelfTestVerdict p ok (t.upTo now)) rfl
      (doSelfTestVerdict_eq (s := s.fresh.upTo now) hawake (testWaits_eq_false (s := s.fresh.upTo now) hwait) htest)
  · exact does_of_fresh (doPairSparing ch pair l e) rfl (doPairSparing_spare (s := s.fresh) hserving hch hpair hlive
      ((fst_nextSparePair_fresh s ch l).trans hk))
  · exact does_of_fresh (doPairSparing ch pair [] e) rfl
      (doPairSparing_retire (s := s.fresh) hserving hch hpair hlive hused)
  · exact does_of_fresh (doPairSpareSwitch ch pair) rfl (doPairSpareSwitch_eq (s := s.fresh) hserving hch hpair hidle hk)
  · exact does_of_fresh (doScrubPass g e) rfl (doScrubPass_page (s := s.fresh) hserving hg hgood hcontent halloc huse hpage
      hgrain hnames hcontained)
  · exact does_of_fresh (doScrubPass g e) rfl
      (doScrubPass_unnamed (s := s.fresh) hserving hg hgood hcontent halloc huse hpage)

end Sys2Proof.Machine
end

section
/-! Revocation of windows, and the queue commands (O31, O32). -/

namespace Sys2Proof.Machine

/-! ### WINDOW_REVOKE (08 R274, R275) -/

/-- What WINDOW_REVOKE of a window leaves before it is parked. -/
def State.revokedBy (t : State) (c : AgtanCmd) (entry : BitVec 256) : State :=
  let w := field (leNat c.body) 0 20
  let n := Tbl.getD t.slc.revokes w 0 + 1
  { t with
    cfg := { t.cfg with windows := Tbl.set t.cfg.windows w entry }
    slc := { t.slc with revokes := Tbl.set t.slc.revokes w n, revWait := t.slc.revWait ++ [(c, n)] } }

section
variable {c : AgtanCmd} {s : State} (hacc : Claims.Accepted opWindowRevoke c s)
include hacc

theorem doWindowRevoke_open (hown : s.ownWindow c (field (leNat c.body) 0 20) = true) (hclose : bit (leNat c.body) 20 = false) :
    doWindowRevoke c s =
      (s.revokedBy c (winRaise (s.window (field (leNat c.body) 0 20)) s.clk.ftime)).park opWindowRevoke c := by
  rw [doWindowRevoke, State.agtan_ok hacc.1 hacc.2]
  simp only [hown, hclose, revokedWindow]
  rfl

theorem doWindowRevoke_close (hown : s.ownWindow c (field (leNat c.body) 0 20) = true) (hclose : bit (leNat c.body) 20 = true) :
    doWindowRevoke c s =
      (s.revokedBy c (setField (winRaise (s.window (field (leNat c.body) 0 20)) s.clk.ftime) 87 1 0)).writeImage.park
        opWindowRevoke c := by
  rw [doWindowRevoke, State.agtan_ok hacc.1 hacc.2]
  simp only [hown, hclose, revokedWindow]
  rfl

theorem doWindowRevoke_foreign (hown : s.ownWindow c (field (leNat c.body) 0 20) = false) :
    doWindowRevoke c s = s.respond 0x0042#16 c stFormat [] := by
  rw [doWindowRevoke, State.agtan_ok hacc.1 hacc.2]
  simp only [hown]
  rfl

end

/-- Was a request made on a window? -/
theorem originWindow_iff (o : Origin) (w : Nat) :
    (match o with
      | .fabric _ _ v _ _ _ | .hedge _ _ v _ _ _ _ => v.toNat == w
      | _ => false) = true ↔
      (∃ a k v g i z, o = .fabric a k v g i z ∧ v.toNat = w) ∨ ∃ a k v g c i z, o = .hedge a k v g c i z ∧ v.toNat = w := by
  cases o <;> simp

theorem windowBusy_iff (s : State) (w n : Nat) : s.windowBusy w n = true ↔
    ∃ x ∈ s.slc.reqs, x.2.complete = false ∧ x.2.revAt < n ∧
      ((∃ a k v g i z, x.2.msg.origin = .fabric a k v g i z ∧ v.toNat = w) ∨
        ∃ a k v g c i z, x.2.msg.origin = .hedge a k v g c i z ∧ v.toNat = w) := by
  simp only [State.windowBusy, List.any_eq_true, Bool.and_eq_true, Bool.not_eq_true', decide_eq_true_eq, and_assoc]
  refine exists_congr fun x => and_congr_right fun _ => and_congr_right fun _ => and_congr_right fun _ => ?_
  exact originWindow_iff x.2.msg.origin w

theorem doWindowRevokeDrained_of_serving {w : Nat} {s : State} (hserving : s.serving = true) :
    doWindowRevokeDrained w s =
      let l := s.slc.revWait.filter fun x => field (leNat x.1.body) 0 20 == w && !s.windowBusy w x.2
      State.unpark { s with slc := { s.slc with revWait := s.slc.revWait.filter fun x => !l.contains x } }
        (fun op c => op == 0x0042#16 && l.any fun x => decide (x.1 = c)) stOk fun t _ =>
          leBytes 8 (winGen (t.window w)).toNat ++ leBytes 8 (winStamp (t.window w)) := by
  rw [doWindowRevokeDrained, hserving]
  rfl

theorem doWindowRevokeDrained_of_not_serving {w : Nat} {s : State} (hserving : s.serving = false) :
    doWindowRevokeDrained w s = s := by
  rw [doWindowRevokeDrained, hserving]
  rfl

/-- Settles O31. -/
theorem windowRevocation : Obligations.WindowRevocation := by
  unfold Obligations.WindowRevocation
  refine ⟨fun c s hacc hown hclose => ?_, fun c s hacc hown hclose => ?_, fun c s hacc hown => ?_, fun w now s hserving => ?_,
    fun w n s => windowBusy_iff s w n, fun w now s hserving => ?_⟩
  · exact does_of_fresh (doWindowRevoke c) rfl (doWindowRevoke_open (s := s.fresh) hacc hown hclose)
  · exact does_of_fresh (doWindowRevoke c) rfl (doWindowRevoke_close (s := s.fresh) hacc hown hclose)
  · exact does_of_fresh (doWindowRevoke c) rfl (doWindowRevoke_foreign (s := s.fresh) hacc hown)
  · exact does_of_fresh (fun t => doWindowRevokeDrained w (t.upTo now)) rfl
      (doWindowRevokeDrained_of_serving (s := s.fresh.upTo now) hserving)
  · exact does_of_fresh (fun t => doWindowRevokeDrained w (t.upTo now)) rfl
      (doWindowRevokeDrained_of_not_serving (s := s.fresh.upTo now) hserving)

/-! ### QUEUE_SET and QUEUE_STOP (09 R281) -/

/-- The context that a QUEUE_SET brings. -/
def cmdContext (c : AgtanCmd) : BitVec 256 := BitVec.ofNat 256 (leNat (c.body.drop 8))

/-- The status of QUEUE_SET's own checks, in their order. -/
def State.queueSetStatus (s : State) (c : AgtanCmd) : Nat :=
  let q := leAt c.body 0 4
  let v := cmdContext c
  checks
    [(s.ownQueue c q && qType (s.queue q).ctx == 0 && contextOk v, stFormat),
     (!(qType v == 1) || (inGroups (s.pmap (cmdPart c)) (qRing v) (ringGrains v) && !s.inWindow (qRing v) (ringGrains v)),
       stFormat),
     (!(qType v == 1) || !s.allocated (qRing v) (ringGrains v), stNoRes)]

section
variable {c : AgtanCmd} {s : State} (hacc : Claims.Accepted opQueueSet c s)
include hacc

theorem doQueueSet_refused {st : Nat} (hst : s.queueSetStatus c = st) (hne : st ≠ stOk) :
    doQueueSet c s = s.respond 0x0060#16 c st [] := by
  subst hst
  rw [doQueueSet, State.agtan_ok hacc.1 hacc.2]
  exact if_pos (bne_iff_ne.2 hne)

theorem doQueueSet_accepted (hst : s.queueSetStatus c = stOk) :
    doQueueSet c s =
      State.respond (let t := s.updQueue (leAt c.body 0 4) fun x => x.setCtx (cmdContext c)
        if qType (cmdContext c) == 1 then
          t.addAlloc { first := qRing (cmdContext c), len := ringGrains (cmdContext c), use := .ring (leAt c.body 0 4) }
        else t) 0x0060#16 c stOk [] := by
  rw [doQueueSet, State.agtan_ok hacc.1 hacc.2]
  exact if_neg (by rw [bne_iff_ne, not_not]; exact hst)

theorem doQueueSet_plain (hst : s.queueSetStatus c = stOk) (htype : qType (cmdContext c) ≠ 1) :
    doQueueSet c s = (s.updQueue (leAt c.body 0 4) fun x => x.setCtx (cmdContext c)).respond 0x0060#16 c stOk [] := by
  rw [doQueueSet_accepted hacc hst, beq_eq_false_iff_ne.2 htype]
  rfl

theorem doQueueSet_fabric (hst : s.queueSetStatus c = stOk) (htype : qType (cmdContext c) = 1) :
    doQueueSet c s =
      ((s.updQueue (leAt c.body 0 4) fun x => x.setCtx (cmdContext c)).addAlloc
        { first := qRing (cmdContext c), len := ringGrains (cmdContext c), use := .ring (leAt c.body 0 4) }).respond
        0x0060#16 c stOk [] := by
  rw [doQueueSet_accepted hacc hst, beq_iff_eq.2 htype]
  rfl

end

section
variable {c : AgtanCmd} {s : State}

theorem queueSetStatus_format (h : s.ownQueue c (leAt c.body 0 4) = false ∨ qType (s.queue (leAt c.body 0 4)).ctx ≠ 0 ∨
    contextOk (cmdContext c) = false) : s.queueSetStatus c = stFormat := by
  have hfirst : (s.ownQueue c (leAt c.body 0 4) && qType (s.queue (leAt c.body 0 4)).ctx == 0 && contextOk (cmdContext c)) =
      false := by
    obtain h | h | h := h <;> simp [h]
  simp [State.queueSetStatus, checks, hfirst]

variable (hown : s.ownQueue c (leAt c.body 0 4) = true) (hfree : qType (s.queue (leAt c.body 0 4)).ctx = 0)
  (hctx : contextOk (cmdContext c) = true)
include hown hfree hctx

theorem queueSetStatus_plain (htype : qType (cmdContext c) ≠ 1) : s.queueSetStatus c = stOk := by
  simp [State.queueSetStatus, checks, hown, hfree, hctx, htype]

variable (htype : qType (cmdContext c) = 1)
include htype

theorem queueSetStatus_ring (hin : inGroups (s.pmap (cmdPart c)) (qRing (cmdContext c)) (ringGrains (cmdContext c)) = true)
    (hwin : s.inWindow (qRing (cmdContext c)) (ringGrains (cmdContext c)) = false) :
    s.queueSetStatus c = if s.allocated (qRing (cmdContext c)) (ringGrains (cmdContext c)) then stNoRes else stOk := by
  cases halloc : s.allocated (qRing (cmdContext c)) (ringGrains (cmdContext c)) <;>
    simp [State.queueSetStatus, checks, hown, hfree, hctx, htype, hin, hwin, halloc]

theorem queueSetStatus_outside (h : inGroups (s.pmap (cmdPart c)) (qRing (cmdContext c)) (ringGrains (cmdContext c)) = false ∨
    s.inWindow (qRing (cmdContext c)) (ringGrains (cmdContext c)) = true) : s.queueSetStatus c = stFormat := by
  have hsecond : (inGroups (s.pmap (cmdPart c)) (qRing (cmdContext c)) (ringGrains (cmdContext c)) &&
      !s.inWindow (qRing (cmdContext c)) (ringGrains (cmdContext c))) = false := by
    obtain h | h := h <;> simp [h]
  simp [State.queueSetStatus, checks, hown, hfree, hctx, htype, hsecond]

end

theorem doQueueStop_own {c : AgtanCmd} {s : State} (hacc : Claims.Accepted opQueueStop c s)
    (hown : s.ownQueue c (leNat c.body) = true) :
    doQueueStop c s = (s.updQueue (leNat c.body) fun x => { x with stopping := true }).park opQueueStop c := by
  rw [doQueueStop, State.agtan_ok hacc.1 hacc.2]
  exact if_pos hown

theorem doQueueStop_foreign {c : AgtanCmd} {s : State} (hacc : Claims.Accepted opQueueStop c s)
    (hown : s.ownQueue c (leNat c.body) = false) : doQueueStop c s = s.respond 0x0061#16 c stFormat [] := by
  rw [doQueueStop, State.agtan_ok hacc.1 hacc.2]
  exact if_neg (ne_true_of_eq_false hown)

theorem doQueueStopped_eq {q : Nat} {s : State} (hserving : s.serving = true) (hstop : (s.queue q).stopping = true)
    (hlanded : (s.queue q).landed = []) (hadmitted : qAdmitted (s.queue q).ctx = 0) (hring : (s.queue q).ring = []) :
    doQueueStopped q s =
      ((s.setQueue q { s.queue q with ctx := setField (s.queue q).ctx 0 2 0, stopping := false }).freeAllocs fun a =>
        match a.use with | .ring r => r == q | _ => false).unpark
        (fun op c => op == 0x0061#16 && leNat c.body == q) stOk fun _ _ => [] := by
  have hguard : (s.serving && (s.queue q).stopping && (s.queue q).landed.isEmpty && qAdmitted (s.queue q).ctx == 0 &&
      (s.queue q).ring.isEmpty) = true := by
    simp [hserving, hstop, hlanded, hadmitted, hring]
  exact if_pos hguard

/-- Settles O32, by the status of QUEUE_SET's checks in each case. -/
theorem queueCommands : Obligations.QueueCommands := by
  unfold Obligations.QueueCommands
  refine ⟨fun c s hacc hown hfree hctx htype => ?_, fun c s hacc hown hfree hctx htype hin hwin halloc => ?_,
    fun c s hacc h => ?_, fun c s hacc hown hfree hctx htype => ⟨fun h => ?_, fun hin hwin halloc => ?_⟩,
    fun c s hacc hown => ?_, fun c s hacc hown => ?_, fun q s hserving hstop hlanded hadmitted hring => ?_⟩
  · exact does_of_fresh (doQueueSet c) rfl (doQueueSet_plain (s := s.fresh) hacc
      (queueSetStatus_plain (s := s.fresh) hown hfree hctx htype) htype)
  · have hst := (queueSetStatus_ring (s := s.fresh) hown hfree hctx htype hin hwin).trans (if_neg (ne_true_of_eq_false halloc))
    exact does_of_fresh (doQueueSet c) rfl (doQueueSet_fabric (s := s.fresh) hacc hst htype)
  · exact does_of_fresh (doQueueSet c) rfl
      (doQueueSet_refused (s := s.fresh) hacc (queueSetStatus_format (s := s.fresh) h) (by decide))
  · exact does_of_fresh (doQueueSet c) rfl
      (doQueueSet_refused (s := s.fresh) hacc (queueSetStatus_outside (s := s.fresh) hown hfree hctx htype h) (by decide))
  · have hst := (queueSetStatus_ring (s := s.fresh) hown hfree hctx htype hin hwin).trans (if_pos halloc)
    exact does_of_fresh (doQueueSet c) rfl (doQueueSet_refused (s := s.fresh) hacc hst (by decide))
  · exact does_of_fresh (doQueueStop c) rfl (doQueueStop_own (s := s.fresh) hacc hown)
  · exact does_of_fresh (doQueueStop c) rfl (doQueueStop_foreign (s := s.fresh) hacc hown)
  · exact does_of_fresh (doQueueStopped q) rfl
      (doQueueStopped_eq (s := s.fresh) hserving hstop hlanded hadmitted hring)

end Sys2Proof.Machine
end

section
/-! Rings in host memory, and the key slots (O33 to O35). -/

namespace Sys2Proof.Machine

/-! ### Doorbells (09 R285) -/

/-- The doorbell distance of a ring: how far the new index lies ahead of the old. -/
def ringAhead (db : BitVec 32) (old : Nat) : Nat := (db.toNat % 65536 + 65536 - old) % 65536

section
variable {p q : Nat} {db : BitVec 32} {s : State} (hserving : s.serving = true) (hq : q < 1048576)
include hserving hq

theorem doDoorbell_prod (hown : s.ownerOfQueue q = some p) (htype : qType (s.queue q).ctx = 2)
    (hahead : ringAhead db (qProd (s.queue q).ctx) ≤ qSize (s.queue q).ctx) :
    doDoorbell (.vf p) q db s = s.updQueue q fun x => { x with ctx := setField x.ctx 96 16 (db.toNat % 65536) } := by
  rw [ringAhead] at hahead
  simp [doDoorbell, hserving, hq, fnPart, hown, htype, hahead]

theorem doDoorbell_cons (hown : s.ownerOfQueue q = some p) (htype : qType (s.queue q).ctx = 3)
    (hsize : ringAhead db (qCons (s.queue q).ctx) ≤ qSize (s.queue q).ctx)
    (hused : ringAhead db (qCons (s.queue q).ctx) ≤ qUsed (s.queue q).ctx) :
    doDoorbell (.vf p) q db s = s.updQueue q fun x => { x with ctx := setField x.ctx 112 16 (db.toNat % 65536) } := by
  rw [ringAhead] at hsize hused
  simp [doDoorbell, hserving, hq, fnPart, hown, htype, hsize, hused]

theorem doDoorbell_foreign {k : Nat} (hown : s.ownerOfQueue q = some k) (hne : p ≠ k) :
    doDoorbell (.vf p) q db s = s.countPart p pDbIgnored 1 := by
  simp [doDoorbell, hserving, hq, fnPart, hown, Ne.symm hne, State.dbIgnored]

end

/-! ### Submission entries (09 R286, R290) -/

/-- The ring entry of a HOST queue is taken. -/
def State.takeEntry (s : State) (q : Nat) : State :=
  s.updQueue q fun y => { y with ctx := setField y.ctx 112 16 (qCons (s.queue q).ctx + 1) }

section
variable {p q : Nat} {e : BitVec 512} {m : List Byte} {s : State} (hserving : s.serving = true)
  (hown : s.ownerOfQueue q = some p) (htype : qType (s.queue q).ctx = 2) (hstop : (s.queue q).stopping = false)
  (hused : 0 < qUsed (s.queue q).ctx) (hreset : p ∉ s.sec.resetting)
include hserving hown htype hstop hused hreset

theorem doHostSubmissionRead_eq : doHostSubmissionRead q e m s =
    if !s.subOk p e m then
      if s.ownerOfQueue (subCq e) == some p && qType (s.queue (subCq e)).ctx == 3 then
        (s.takeEntry q).refuseMsg ((s.takeEntry q).subMsg p q e m) stFormat
      else s.takeEntry q
    else
      State.updQueue { s.takeEntry q with slc := { (s.takeEntry q).slc with nextMsg := (s.takeEntry q).slc.nextMsg + 1 } } q
        fun y => { y with landed := y.landed ++ [(s.takeEntry q).subMsg p q e m] } := by
  have hguard : ¬ (!(s.serving && qType (s.queue q).ctx == 2 && !(s.queue q).stopping && decide (0 < qUsed (s.queue q).ctx)) ||
      s.sec.resetting.contains p) = true := by
    simp [hserving, htype, hstop, hused, hreset]
  unfold doHostSubmissionRead
  simp only [hown]
  exact if_neg hguard

theorem doHostSubmissionRead_lands (hok : s.subOk p e m = true) : doHostSubmissionRead q e m s =
    State.updQueue { s.takeEntry q with slc := { (s.takeEntry q).slc with nextMsg := (s.takeEntry q).slc.nextMsg + 1 } } q
      fun y => { y with landed := y.landed ++ [(s.takeEntry q).subMsg p q e m] } := by
  rw [doHostSubmissionRead_eq hserving hown htype hstop hused hreset, hok]
  rfl

theorem doHostSubmissionRead_refused (hok : s.subOk p e m = false) (hcq : s.ownerOfQueue (subCq e) = some p)
    (hcqType : qType (s.queue (subCq e)).ctx = 3) :
    doHostSubmissionRead q e m s = (s.takeEntry q).refuseMsg ((s.takeEntry q).subMsg p q e m) stFormat := by
  simp [doHostSubmissionRead_eq hserving hown htype hstop hused hreset, hok, hcq, hcqType]

theorem doHostSubmissionRead_dropped (hok : s.subOk p e m = false)
    (hcq : s.ownerOfQueue (subCq e) ≠ some p ∨ qType (s.queue (subCq e)).ctx ≠ 3) :
    doHostSubmissionRead q e m s = s.takeEntry q := by
  have hnot : (s.ownerOfQueue (subCq e) == some p && qType (s.queue (subCq e)).ctx == 3) = false := by
    obtain h | h := hcq <;> simp [h]
  rw [doHostSubmissionRead_eq hserving hown htype hstop hused hreset, hok, hnot]
  rfl

end

theorem subMsg_eq (s : State) (p q : Nat) (e : BitVec 512) (m : List Byte) : s.subMsg p q e m =
    { id := s.slc.nextMsg, origin := .host q (subCq e) (subAddr e) (subRespLen e) (subTag e), opcode := subOp e,
      part := p, queue := q, ring := 0, payload := if subOp e = opCancel then [] else m,
      offset := if subOp e = opCancel then (subTarget e).toNat else 0, landAt := s.clk.ftime, waitAt := none, dlNs := none } := by
  simp only [State.subMsg, beq_iff_eq]

/-- Settles O33. -/
theorem hostRings : Obligations.HostRings := by
  unfold Obligations.HostRings
  refine ⟨fun p q db s hserving hq hown hp htype hahead => ?_, fun p q db s hserving hq hown hp htype hsize hused => ?_,
    fun p k q db s hserving hq hown hp hne => ?_, fun q p e m s hserving hown htype hstop hused hreset hok => ?_,
    fun q p e m s hserving hown htype hstop hused hreset hok => ⟨fun hcq hcqType => ?_, fun hcq => ?_⟩⟩
  · exact does_of_fresh (doDoorbell (.vf p) q db) rfl (doDoorbell_prod (s := s.fresh) hserving hq hown htype hahead)
  · exact does_of_fresh (doDoorbell (.vf p) q db) rfl (doDoorbell_cons (s := s.fresh) hserving hq hown htype hsize hused)
  · exact does_of_fresh (doDoorbell (.vf p) q db) rfl (doDoorbell_foreign (s := s.fresh) hserving hq hown hne)
  · refine does_of_fresh (doHostSubmissionRead q e m) rfl ?_
    rw [doHostSubmissionRead_lands (s := s.fresh) hserving hown htype hstop hused hreset hok, subMsg_eq]
    rfl
  · exact does_of_fresh (doHostSubmissionRead q e m) rfl
      (doHostSubmissionRead_refused (s := s.fresh) hserving hown htype hstop hused hreset hok hcq hcqType)
  · exact does_of_fresh (doHostSubmissionRead q e m) rfl
      (doHostSubmissionRead_dropped (s := s.fresh) hserving hown htype hstop hused hreset hok hcq)

/-! ### KEY_INSTALL (11 R373, R374) -/

/-- The slot that a KEY_INSTALL leaves, if R374 has the transition. -/
def State.installed (s : State) (c : AgtanCmd) (new old : Key) : Option KeySlot :=
  (s.key (kbSlot c.body)).install (kbMode c.body) (kbPart c.body) (kbJob c.body) (kbEpoch c.body) new old s.clk.ftime

section
variable {c : AgtanCmd} {s : State} (hacc : Claims.Accepted opKeyInstall c s)
include hacc

theorem doKeyInstall_of_none (hnone : s.unwrap c = none) : doKeyInstall c s = s.respond 0x0070#16 c stKey [] := by
  rw [doKeyInstall, State.agtan_ok hacc.1 hacc.2]
  simp only [hnone]
  rfl

variable {new old : Key} (hsome : s.unwrap c = some (new, old))
include hsome

theorem doKeyInstall_bound {x : KeySlot} (hbound : Claims.Bound c s) (hx : s.installed c new old = some x) :
    doKeyInstall c s = (if kbMode c.body = 1 then s.setKey (kbSlot c.body) x
      else (s.setKey (kbSlot c.body) x).newSendKey (kbSlot c.body)).respond 0x0070#16 c stOk [] := by
  obtain ⟨hslot, hpart, hjob⟩ := hbound
  have hok : (s.slotOf c (kbSlot c.body) && kbPart c.body == (if kbSlot c.body = 0 then 0 else cmdPart c) &&
      jobOk (kbSlot c.body) (kbJob c.body)) = true := by
    rw [hslot, hjob, ← hpart]
    simp
  rw [State.installed] at hx
  rw [doKeyInstall, State.agtan_ok hacc.1 hacc.2]
  simp only [hsome, hx, hok]
  rfl

theorem doKeyInstall_unbound (h : s.installed c new old = none ∨ ¬ Claims.Bound c s) :
    doKeyInstall c s = s.respond 0x0070#16 c stFormat [] := by
  rw [doKeyInstall, State.agtan_ok hacc.1 hacc.2]
  simp only [hsome]
  rw [State.installed] at h
  cases hx : (s.key (kbSlot c.body)).install (kbMode c.body) (kbPart c.body) (kbJob c.body) (kbEpoch c.body) new old
      s.clk.ftime with
  | none => rfl
  | some x =>
    have hnot : (s.slotOf c (kbSlot c.body) && kbPart c.body == (if kbSlot c.body = 0 then 0 else cmdPart c) &&
        jobOk (kbSlot c.body) (kbJob c.body)) = false := by
      rw [← Bool.not_eq_true]
      intro hok
      simp only [Bool.and_eq_true, beq_iff_eq] at hok
      obtain h | h := h
      · rw [hx] at h
        cases h
      · exact h ⟨hok.1.1, hok.1.2, hok.2⟩
    simp only [hnot]
    rfl

end

section
variable {x : KeySlot} {mode part now : Nat} {job : Word32} {e : BitVec 8} {new old : Key}

theorem install_first (hmode : mode = 0) (hfree : x.st = .empty ∨ x.st = .retired) (hold : old = 0#256) :
    x.install mode part job e new old now = some { KeySlot.init with
      part := part, job := job, atOld := now, atNew := now, st := .active, epoch := e, kOld := new } := by
  have hfree' : (x.st == .empty || x.st == .retired) = true := by
    obtain h | h := hfree <;> rw [h] <;> rfl
  simp [KeySlot.install, hmode, hfree', hold]

theorem install_both (hmode : mode = 2) (hfree : x.st = .empty ∨ x.st = .retired) :
    x.install mode part job e new old now = some { KeySlot.init with
      part := part, job := job, atOld := now, atNew := now, st := .nextTx, epoch := e - 1#8, kOld := old, kNew := new } := by
  have hfree' : (x.st == .empty || x.st == .retired) = true := by
    obtain h | h := hfree <;> rw [h] <;> rfl
  simp [KeySlot.install, hmode, hfree']

theorem install_next (hmode : mode = 1) (hst : x.st = .active) (hold : old = 0#256) (hepoch : x.epoch + 1#8 = e) (hpart : x.part = part)
    (hjob : x.job = job) :
    x.install mode part job e new old now = some { x with st := .nextRx, kNew := new, atNew := now, newDead := false } := by
  have hguard : (x.st == .active && x.epoch + 1#8 == e && x.part == part && x.job == job && old == 0#256) = true := by
    simp only [hepoch, hpart, hjob, hold, beq_self_eq_true, Bool.and_true, hst]
  simp [KeySlot.install, hmode, hguard]

end

/-! ### KEY_SWITCH and KEY_DROP (11 R374) -/

section
variable {c : AgtanCmd} {s : State}

theorem doKeySwitch_eq (hacc : Claims.Accepted opKeySwitch c s) (hslot : s.slotOf c (leNat c.body) = true)
    (hst : (s.key (leNat c.body)).st = .nextRx) :
    doKeySwitch c s = ((s.setKey (leNat c.body) (s.key (leNat c.body)).switch).newSendKey (leNat c.body)).respond
      0x0071#16 c stOk [] := by
  rw [doKeySwitch, State.agtan_ok hacc.1 hacc.2]
  exact if_pos (by simp [hslot, hst])

theorem doKeySwitch_refused (hacc : Claims.Accepted opKeySwitch c s) (hst : (s.key (leNat c.body)).st ≠ .nextRx) :
    doKeySwitch c s = s.respond 0x0071#16 c stFormat [] := by
  rw [doKeySwitch, State.agtan_ok hacc.1 hacc.2]
  exact if_neg (by simp [hst])

theorem doKeyDrop_eq (hacc : Claims.Accepted opKeyDrop c s) (hslot : s.slotOf c (leNat c.body) = true)
    (hst : (s.key (leNat c.body)).st = .nextTx) :
    doKeyDrop c s = (s.setKey (leNat c.body) (s.key (leNat c.body)).drop).respond 0x0072#16 c stOk [] := by
  rw [doKeyDrop, State.agtan_ok hacc.1 hacc.2]
  exact if_pos (by simp [hslot, hst])

theorem doKeyDrop_refused (hacc : Claims.Accepted opKeyDrop c s) (hst : (s.key (leNat c.body)).st ≠ .nextTx) :
    doKeyDrop c s = s.respond 0x0072#16 c stFormat [] := by
  rw [doKeyDrop, State.agtan_ok hacc.1 hacc.2]
  exact if_neg (by simp [hst])

end

/-- Settles O34, by R374's transition in each case. -/
theorem keyTransitions : Obligations.KeyTransitions := by
  unfold Obligations.KeyTransitions
  refine ⟨fun c s new old hacc hbound hkey hmode hold hfree => ?_, fun c s new old hacc hbound hkey hmode hfree => ?_,
    fun c s new old hacc hbound hkey hmode hold hst hepoch hpart hjob => ?_, fun c s hacc hkey => ?_,
    fun c s new old hacc hkey h => ?_, fun c s hacc hslot hst => ?_, fun c s hacc hst => ?_, fun c s hacc hslot hst => ?_,
    fun c s hacc hst => ?_⟩
  · refine does_of_fresh (doKeyInstall c) rfl ((doKeyInstall_bound (s := s.fresh) hacc hkey hbound
      (install_first (x := s.key (kbSlot c.body)) hmode hfree hold)).trans ?_)
    rw [hmode]
    rfl
  · refine does_of_fresh (doKeyInstall c) rfl ((doKeyInstall_bound (s := s.fresh) hacc hkey hbound
      (install_both (x := s.key (kbSlot c.body)) hmode hfree)).trans ?_)
    rw [hmode]
    rfl
  · refine does_of_fresh (doKeyInstall c) rfl ((doKeyInstall_bound (s := s.fresh) hacc hkey hbound
      (install_next (x := s.key (kbSlot c.body)) hmode hst hold hepoch hpart hjob)).trans ?_)
    rw [hmode]
    rfl
  · exact does_of_fresh (doKeyInstall c) rfl (doKeyInstall_of_none (s := s.fresh) hacc hkey)
  · exact does_of_fresh (doKeyInstall c) rfl (doKeyInstall_unbound (s := s.fresh) hacc hkey h)
  · exact does_of_fresh (doKeySwitch c) rfl (doKeySwitch_eq (s := s.fresh) hacc hslot hst)
  · exact does_of_fresh (doKeySwitch c) rfl (doKeySwitch_refused (s := s.fresh) hacc hst)
  · exact does_of_fresh (doKeyDrop c) rfl (doKeyDrop_eq (s := s.fresh) hacc hslot hst)
  · exact does_of_fresh (doKeyDrop c) rfl (doKeyDrop_refused (s := s.fresh) hacc hst)

/-! ### The end of a slot's keys (11 R375, R376) -/

theorem doKeyRetire_eq {c : AgtanCmd} {s : State} (hacc : Claims.Accepted opKeyRetire c s)
    (hslot : s.slotOf c (leNat c.body) = true) (huse : (s.key (leNat c.body)).inUse = true) :
    doKeyRetire c s = (s.setKey (leNat c.body) ((s.key (leNat c.body)).retire s.clk.ftime)).park opKeyRetire c := by
  rw [doKeyRetire, State.agtan_ok hacc.1 hacc.2]
  exact if_pos (by simp [hslot, huse])

theorem doKeyRetired_eq {k : Nat} {s : State} (hawake : s.awake = true) (hst : (s.key k).st = .retiring)
    (h : s.slotBusy k = false ∨ (s.key k).retireAt + 64 * s.cfg.period + 9150000 ≤ s.clk.ftime) :
    doKeyRetired k s = ((s.setKey k (s.key k).retired).endSlotFrames k).unpark
      (fun op c => op == 0x0073#16 && leNat c.body == k) stOk fun _ _ => [] := by
  refine if_pos ?_
  simpa [hawake, hst] using h

theorem doKeyRetired_other {k : Nat} {s : State} (hst : (s.key k).st ≠ .retiring) : doKeyRetired k s = s :=
  if_neg (by simp [hst])

theorem doKeyStatus_eq {c : AgtanCmd} {s : State} (hacc : Claims.Accepted opKeyStatus c s)
    (hlo : 1 ≤ field (leNat c.body) 16 8) (hhi : field (leNat c.body) 16 8 ≤ 62)
    (hend : field (leNat c.body) 0 10 + field (leNat c.body) 16 8 ≤ 1024) :
    doKeyStatus c s = s.respond 0x0074#16 c stOk ((List.range (field (leNat c.body) 16 8)).flatMap fun i =>
      if c.mb = 0 ∨ field (leNat c.body) 0 10 + i = 0 ∨ s.ownerOfKey (field (leNat c.body) 0 10 + i) = some (c.mb - 1) then
        s.keyRecord (field (leNat c.body) 0 10 + i)
      else List.replicate 16 0#8) := by
  rw [doKeyStatus, State.agtan_ok hacc.1 hacc.2]
  refine (if_neg ?_).trans ?_
  · simp only [Bool.or_eq_true, decide_eq_true_eq]
    omega
  · simp only [State.seesKey, Bool.or_eq_true, beq_iff_eq, or_assoc]
    rfl

theorem doKeyAgeWarn_eq {k at' : Nat} {s : State} (hawake : s.awake = true) (hsend : (s.key k).sendAt = some at')
    (hwarn : (s.key k).ageWarn = false) (hage : at' + keyLife k * 4 / 5 ≤ s.clk.ftime) :
    doKeyAgeWarn k s = (s.setKey k { s.key k with ageWarn := true }).fault
      { code := Config.ageWarnCode, srcKind := 8, srcIndex := 0, part := s.ownerOfKey k, addr := 0, syndrome := 0#64,
        place := none } := by
  simp [doKeyAgeWarn, hawake, hsend, hwarn, hage]

theorem doKeyLifetimeExpiry_eq {k : Nat} {s : State} (hawake : s.awake = true)
    (huse : (s.key k).inUse = true ∨ (s.key k).st = .retiring) :
    doKeyLifetimeExpiry k s =
      let v := s.setKey k ((s.key k).expire (keyLife k) s.clk.ftime)
      if v.sendKey k = none then v.each (List.range 26) State.dropUnkeyed else v := by
  have hguard : (s.awake && ((s.key k).inUse || (s.key k).st == .retiring)) = true := by
    simpa [hawake] using huse
  refine (if_pos hguard).trans ?_
  simp only [Option.isNone_iff_eq_none]

/-- Settles O35. -/
theorem keyEnds : Obligations.KeyEnds := by
  unfold Obligations.KeyEnds
  refine ⟨fun c s hacc hslot huse => ?_, fun k now s hawake hst h => ?_, fun k now s hst => ?_,
    fun c s hacc hlo hhi hend => ?_, fun k now at' s hawake hsend hwarn hage => ?_, fun k now s hawake huse => ?_⟩
  · exact does_of_fresh (doKeyRetire c) rfl (doKeyRetire_eq (s := s.fresh) hacc hslot huse)
  · exact does_of_fresh (fun t => doKeyRetired k (t.upTo now)) rfl (doKeyRetired_eq (s := s.fresh.upTo now) hawake hst h)
  · exact does_of_fresh (fun t => doKeyRetired k (t.upTo now)) rfl (doKeyRetired_other (s := s.fresh.upTo now) hst)
  · exact does_of_fresh (doKeyStatus c) rfl (doKeyStatus_eq (s := s.fresh) hacc hlo hhi hend)
  · obtain ⟨f, n, r, hf, hnewest, hrec, hcode⟩ := fault_newest
      (s := (s.upTo now).fresh.setKey k { s.key k with ageWarn := true })
      (e := { code := Config.ageWarnCode, srcKind := 8, srcIndex := 0, part := s.ownerOfKey k, addr := 0, syndrome := 0#64,
              place := none }) rfl
    have heq := (doKeyAgeWarn_eq (s := (s.upTo now).fresh) hawake hsend hwarn hage).trans hf
    refine Answers.of_kept (u := s.upTo now) (run_upTo s now _) heq rfl ⟨?_, fun j hj => ?_, n, r, hnewest, hrec, hcode⟩
    · exact congrArg KeySlot.ageWarn (State.setKey_same (s.upTo now).fresh k { s.key k with ageWarn := true })
    · exact State.setKey_other (s.upTo now).fresh { s.key k with ageWarn := true } hj
  · exact does_of_fresh (fun t => doKeyLifetimeExpiry k (t.upTo now)) rfl
      (doKeyLifetimeExpiry_eq (s := s.fresh.upTo now) hawake huse)

end Sys2Proof.Machine
end

section
/-! The resident set (O37). -/

namespace Sys2Proof.Machine

/-- A state from which nothing has been sent yet is as a command's effect meets it. -/
theorem fresh_of_out {s : State} (h : s.out = []) : s.fresh = s := by
  rw [State.fresh, ← h]

/-- The writer that serves runs the command. -/
theorem asWriter_of_serves {s : State} {o : AgtanOp} {c : AgtanCmd} {keyed : Bool} {f : State → State}
    (hserves : Claims.Serves c s keyed) : s.asWriter o c keyed true f = f s := by
  obtain ⟨hkey, htwin⟩ := hserves
  rw [State.asWriter, hkey, htwin]
  rfl

/-- An accepted command of the resident set at its writer. -/
theorem agtan_asWriter {s : State} {o : AgtanOp} {c : AgtanCmd} {f : State → State} (hacc : Claims.Accepted o c s)
    (hserves : Claims.Serves c s false) (hwrites : s.writesBases = true) :
    (s.agtan o c fun t => t.asWriter o c false t.writesBases f) = f s := by
  rw [State.agtan_ok hacc.1 hacc.2, hwrites, asWriter_of_serves hserves]

section
variable {c : AgtanCmd} {s : State} (hserves : Claims.Serves c s false) (hwrites : s.writesBases = true)
include hserves hwrites

/-- The sequence that BASE_BEGIN makes: loading, at the indices reserved, with the seed drawn. -/
def State.begunBase (s : State) (c : AgtanCmd) (i : Nat) : BaseSeq :=
  let v := leNat c.body
  { loaded := false, pfmt := field v 8 4, hdim := field v 12 3, layersM1 := field v 16 8, kvhM1 := field v 24 6
    npages := field v 32 20, seed := (Config.freeWord s.draws).setWidth 32, firstIdx := i, stamp := s.clk.ftime, heads := [] }

theorem doBaseBegin_eq {i : Nat} (hacc : Claims.Accepted opBaseBegin c s)
    (hnew : Tbl.get? (s.part (cmdPart c)).bases (field (leNat c.body) 0 8) = none) (hpfmt : field (leNat c.body) 8 4 ≤ 4)
    (hdim : field (leNat c.body) 12 3 ≤ 5) (hlo : 1 ≤ field (leNat c.body) 32 20) (hhi : field (leNat c.body) 32 20 ≤ 262144)
    (hfree : s.freeIndices (cmdPart c)
      ((field (leNat c.body) 16 8 + 1) * (field (leNat c.body) 24 6 + 1) * field (leNat c.body) 32 20) = some i) :
    doBaseBegin c s = (State.updPart { s with draws := s.draws + 1 } (cmdPart c) fun q => { q with
      bases := Tbl.set q.bases (field (leNat c.body) 0 8) (s.begunBase c i) }).respond 0x0090#16 c stOk [] := by
  have hguard : ¬ ((Tbl.get? (s.part (cmdPart c)).bases (field (leNat c.body) 0 8)).isSome || decide (4 < field (leNat c.body) 8 4) ||
      decide (5 < field (leNat c.body) 12 3) || decide (field (leNat c.body) 32 20 = 0) ||
      decide (262144 < field (leNat c.body) 32 20)) = true := by
    rw [hnew]
    simp only [Option.isSome_none, Bool.false_or, Bool.or_eq_true, decide_eq_true_eq]
    omega
  rw [doBaseBegin, agtan_asWriter hacc hserves hwrites]
  dsimp only
  rw [if_neg hguard, hfree]
  rfl

section
variable {b : BaseSeq} (hacc : Claims.Accepted opBaseEnd c s)
  (hbase : Tbl.get? (s.part (cmdPart c)).bases (leNat c.body) = some b)
include hacc hbase

theorem doBaseEnd_whole (hloaded : b.loaded = false) (hwhole : b.whole = true) :
    doBaseEnd c s = (s.updBase (cmdPart c) (leNat c.body) fun b => { b with loaded := true, stamp := s.clk.ftime }).respond
      0x0091#16 c stOk (leBytes 4 b.firstIdx) := by
  rw [doBaseEnd, agtan_asWriter hacc hserves hwrites]
  dsimp only
  rw [hbase]
  exact if_neg (by simp [hloaded, hwhole])

theorem doBaseEnd_refused (h : b.loaded = true ∨ b.whole = false) :
    doBaseEnd c s = s.respond 0x0091#16 c stFormat [] := by
  rw [doBaseEnd, agtan_asWriter hacc hserves hwrites]
  dsimp only
  rw [hbase]
  exact if_pos (by simpa using h)

end

theorem doBaseUnload_eq (hacc : Claims.Accepted opBaseUnload c s)
    (hbase : (Tbl.get? (s.part (cmdPart c)).bases (leNat c.body)).isSome = true)
    (hnamed : (s.namedBySession (cmdPart c) fun v => v.baseSeq == leNat c.body) = false) :
    doBaseUnload c s =
      let u := (s.dropBase (cmdPart c) (leNat c.body)).noteUnload (cmdPart c) (leNat c.body) false
      u.commitChange (cmdPart c) [u.unloadRec (cmdPart c) (leNat c.body) false] (.mailbox 0x0092#16 c stOk []) := by
  rw [doBaseUnload, agtan_asWriter hacc hserves hwrites]
  refine if_neg ?_
  simp only [hnamed, Bool.or_false, Option.isNone_iff_eq_none]
  exact Option.isSome_iff_ne_none.1 hbase

theorem doPostabUnload_eq (hacc : Claims.Accepted opPostabUnload c s)
    (htable : (Tbl.get? (s.part (cmdPart c)).posTabs (leNat c.body)).isSome = true)
    (hnamed : (s.namedBySession (cmdPart c) fun v => v.posTable == leNat c.body) = false) :
    doPostabUnload c s =
      let u := (s.dropTable (cmdPart c) (leNat c.body)).noteUnload (cmdPart c) (leNat c.body) true
      u.commitChange (cmdPart c) [u.unloadRec (cmdPart c) (leNat c.body) true] (.mailbox 0x0094#16 c stOk []) := by
  rw [doPostabUnload, agtan_asWriter hacc hserves hwrites]
  refine if_neg ?_
  simp only [hnamed, Bool.or_false, Option.isNone_iff_eq_none]
  exact Option.isSome_iff_ne_none.1 htable

theorem doPostabLoad_eq {u : State} (hacc : Claims.Accepted opPostabLoad c s) (hnum : leAt c.body 0 1 ≤ 63)
    (hlo : 1 ≤ leAt c.body 8 4) (hhi : leAt c.body 8 4 ≤ 16385)
    (hnew : Tbl.get? (s.part (cmdPart c)).posTabs (leAt c.body 0 1) = none)
    (hin : inGroups (s.pmap (cmdPart c)) (leAt c.body 4 4) (leAt c.body 8 4) = true)
    (hgood : s.firstBad (leAt c.body 4 4) (leAt c.body 8 4) = none)
    (htable : tableOk (s.grain (leAt c.body 4 4)) (leAt c.body 8 4) = true)
    (hput : s.putTable (cmdPart c) (leAt c.body 0 1) (s.readBytes (512 * leAt c.body 4 4) (512 * leAt c.body 8 4)) = some u) :
    doPostabLoad c s = u.commitChange (cmdPart c) [{ u.mrec mkPostable (cmdPart c) with session := leAt c.body 0 1 }]
      (.mailbox 0x0093#16 c stOk []) := by
  have hguard : ¬ (decide (63 < leAt c.body 0 1) || decide (leAt c.body 8 4 = 0) || decide (16385 < leAt c.body 8 4) ||
      (Tbl.get? (s.part (cmdPart c)).posTabs (leAt c.body 0 1)).isSome ||
      !inGroups (s.pmap (cmdPart c)) (leAt c.body 4 4) (leAt c.body 8 4)) = true := by
    rw [hnew, hin]
    simp only [Option.isSome_none, Bool.not_true, Bool.or_false, Bool.or_eq_true, decide_eq_true_eq]
    omega
  rw [doPostabLoad, agtan_asWriter hacc hserves hwrites]
  dsimp only
  rw [if_neg hguard, hgood]
  dsimp only
  rw [htable, hput]
  rfl

end

/-- Settles O37. -/
theorem residentSet : Obligations.ResidentSet := by
  unfold Obligations.ResidentSet
  refine ⟨fun c s i hacc hserves hwrites hnew hpfmt hdim hlo hhi hfree => ?_,
    fun c s b hacc hserves hwrites hbase hloaded hwhole => ?_, fun c s b hacc hserves hwrites hbase h => ?_,
    fun c s hacc hserves hwrites hbase hnamed => ?_,
    fun c s u hacc hserves hwrites hnum hlo hhi hnew hin hgood htable hout hput => ?_,
    fun c s hacc hserves hwrites htable hnamed => ?_⟩
  · exact does_of_fresh (doBaseBegin c) rfl
      (doBaseBegin_eq (s := s.fresh) hserves hwrites hacc hnew hpfmt hdim hlo hhi hfree)
  · exact does_of_fresh (doBaseEnd c) rfl (doBaseEnd_whole (s := s.fresh) hserves hwrites hacc hbase hloaded hwhole)
  · exact does_of_fresh (doBaseEnd c) rfl (doBaseEnd_refused (s := s.fresh) hserves hwrites hacc hbase h)
  · exact does_of_fresh (doBaseUnload c) rfl (doBaseUnload_eq (s := s.fresh) hserves hwrites hacc hbase hnamed)
  · refine does_of_fresh (doPostabLoad c) rfl ?_
    rw [fresh_of_out hout]
    exact doPostabLoad_eq hserves hwrites hacc hnum hlo hhi hnew hin hgood htable hput
  · exact does_of_fresh (doPostabUnload c) rfl (doPostabUnload_eq (s := s.fresh) hserves hwrites hacc htable hnamed)

end Sys2Proof.Machine
end

section
/-! The tier manager and PROG_STAGE (O38). -/

namespace Sys2Proof.Machine

/-! ### Promotion and demotion (07 R204, R206) -/

section
variable {r : PageRef} {e : EccReport} {s : State} {p : Page} (hserving : s.serving = true) (hpage : s.page? r = some p)
include hserving hpage

/-- PROMOTE of a hot sealed page with room for its copy: the copy is checked on the way. -/
theorem doPromote_eq (htail : p.desc.tail = false) (hsram : p.desc.inSram = false) (hmove : s.mayMove r p = true)
    (hpromote : s.mayPromote r = true) (hhot : fld (s.tierCfg r.part) 8 8 ≤ p.sweeps)
    (hroom : 512 * runLen p.desc.pfmt p.desc.hdim ≤ s.sramFree r.part) :
    doPromote r e s =
      let t := s.noteRun e p.desc.grain (runLen p.desc.pfmt p.desc.hdim)
      match s.checkRun e p.desc with
      | some x => t.failPage r x
      | none => t.putPage r { p with
          desc := { p.desc with inSram := true }
          copy := some (.promoted (s.runBytes p.desc) p.desc.wgen (s.runTags p.desc)) } := by
  have hguard : (s.serving && !p.desc.tail && !p.desc.inSram && s.mayMove r p && s.mayPromote r && s.hot r p &&
      decide (512 * runLen p.desc.pfmt p.desc.hdim ≤ s.sramFree r.part)) = true := by
    simp [hserving, htail, hsram, hmove, hpromote, State.hot, hhot, hroom]
  unfold doPromote
  rw [hpage]
  exact if_pos hguard

theorem doDemoteTimeout_eq (hpromoted : p.promoted = true) (hmove : s.mayMove r p = true)
    (hidle : fld (s.tierCfg r.part) 16 16 ≤ tickSub (s.tickOf s.clk.ftime) p.sweepTick) :
    doDemoteTimeout r s = s.demote r := by
  simp [doDemoteTimeout, hpage, hserving, hpromoted, hmove, hidle]

end

theorem doSramCopyRelease_eq {r : PageRef} {s : State} (hawake : s.awake = true) (hread : s.readBy r = false) :
    doSramCopyRelease r s = s.updPage r fun p => { p with oldCopy := none } := by
  simp [doSramCopyRelease, hawake, hread]

/-! ### Rebalancing (07 R206 to R208) -/

/-- The page that a REBALANCE names. -/
def rebalancePage (c : AgtanCmd) : PageRef :=
  { base := false, part := cmdPart c, owner := leAt c.body 0 4, layer := leAt c.body 4 1, head := leAt c.body 5 1
    page := leAt c.body 8 4 }

theorem doRebalance_eq {c : AgtanCmd} {s u : State} {v : Session} {p : Page} {g : Nat} {w : BitVec 16}
    (hacc : Claims.Accepted opRebalance c s) (hopen : s.openSession (cmdPart c) (leAt c.body 0 4) = some v)
    (hpage : s.page? (rebalancePage c) = some p) (hmay : s.mayRebalance v (rebalancePage c) p (leAt c.body 12 4) = true)
    (halloc : s.allocRun (leAt c.body 12 4) (runLen p.desc.pfmt p.desc.hdim) (.run (rebalancePage c)) = some (g, w, u)) :
    doRebalance c s = (u.putPage (rebalancePage c) { p with
      migr := some { newRun := g, wgen := w, copied := false, repair := none } }).respond 0x00C0#16 c stOk [] := by
  rw [rebalancePage] at hpage hmay halloc
  rw [doRebalance, State.agtan_ok hacc.1 hacc.2]
  simp only [hopen, hpage, hmay, halloc]
  rfl

section
variable {r : PageRef} {e : EccReport} {s : State} {p : Page} {m : Migr} (hserving : s.serving = true)
  (hpage : s.page? r = some p) (hmigr : p.migr = some m)
include hserving hpage hmigr

/-- MIGRATION_SWAP of a page whose migration goes on: the copy, then the swap when no command names the old run. -/
theorem doMigrationSwap_eq (hgo : (m.repair.isNone && (p.desc.contained || !m.copied && s.rowTested p m)) = false) :
    doMigrationSwap r e s =
      let x := s.copyPage e r p m
      if x.2.2 && !x.1.runNamed p.desc.grain then x.1.swapRun r x.2.1 m else x.1 := by
  unfold doMigrationSwap
  simp only [hpage, hmigr, hserving, hgo]
  rfl

theorem doMigrationSwap_uncopied {u : State} {q : Page}
    (hgo : (m.repair.isNone && (p.desc.contained || !m.copied && s.rowTested p m)) = false)
    (hcopy : s.copyPage e r p m = (u, q, false)) : doMigrationSwap r e s = u := by
  rw [doMigrationSwap_eq hserving hpage hmigr hgo, hcopy]
  rfl

theorem doMigrationSwap_swaps {u : State} {q : Page}
    (hgo : (m.repair.isNone && (p.desc.contained || !m.copied && s.rowTested p m)) = false)
    (hcopy : s.copyPage e r p m = (u, q, true)) :
    doMigrationSwap r e s = if u.runNamed p.desc.grain then u else u.swapRun r q m := by
  rw [doMigrationSwap_eq hserving hpage hmigr hgo, hcopy]
  cases h : u.runNamed p.desc.grain <;> simp [h]

theorem doMigrationSwap_contained (hrepair : m.repair = none) (hcontained : p.desc.contained = true) :
    doMigrationSwap r e s = s.abandonMigr r := by
  simp [doMigrationSwap, hpage, hmigr, hserving, hrepair, hcontained]

end

section
variable {r : PageRef} {e : EccReport} {s : State} {p : Page} {m : Migr}

theorem copyPage_copied (hcopied : m.copied = true) : s.copyPage e r p m = (s, p, true) := if_pos hcopied

variable (hcopied : m.copied = false)
include hcopied

theorem copyPage_source {x : Nat × Nat × Word64} (hcheck : s.checkRun e p.desc = some x) :
    s.copyPage e r p m =
      (((s.noteRun e p.desc.grain (runLen p.desc.pfmt p.desc.hdim)).abandonMigr r).failPage r x, p, false) := by
  unfold State.copyPage
  rw [hcopied, hcheck]
  rfl

variable (hcheck : s.checkRun e p.desc = none)
include hcheck

theorem copyPage_checked : s.copyPage e r p m =
    let n := runLen p.desc.pfmt p.desc.hdim
    let u := s.noteRun e p.desc.grain n
    if (List.range n).any fun i => e.writeFails.contains (m.newRun + i) then (u.abandonMigr r, p, false)
    else
      let q := { p with migr := some { m with copied := true } }
      ((u.copyRun p.desc m).putPage r q, q, true) := by
  unfold State.copyPage
  rw [hcopied, hcheck]
  rfl

theorem copyPage_target (h : ∃ i, i < runLen p.desc.pfmt p.desc.hdim ∧ m.newRun + i ∈ e.writeFails) :
    s.copyPage e r p m = ((s.noteRun e p.desc.grain (runLen p.desc.pfmt p.desc.hdim)).abandonMigr r, p, false) := by
  rw [copyPage_checked hcopied hcheck]
  refine if_pos ?_
  simpa using h

theorem copyPage_ok (h : ∀ i, i < runLen p.desc.pfmt p.desc.hdim → m.newRun + i ∉ e.writeFails) :
    s.copyPage e r p m =
      let q := { p with migr := some { m with copied := true } }
      (((s.noteRun e p.desc.grain (runLen p.desc.pfmt p.desc.hdim)).copyRun p.desc m).putPage r q, q, true) := by
  rw [copyPage_checked hcopied hcheck]
  refine if_neg ?_
  simpa using h

end

theorem doOldRunRelease_eq {r : PageRef} {s : State} {p : Page} {o : Nat × Nat} (hawake : s.awake = true)
    (hpage : s.page? r = some p) (ho : o ∈ p.oldRuns) (hread : s.runRead o.1 = false) :
    doOldRunRelease r s =
      (s.freeAllocs fun a => (p.oldRuns.filter fun o => !s.runRead o.1).any fun o => a.first == o.1).putPage r
        { p with oldRuns := p.oldRuns.filter fun o => s.runRead o.1 } := by
  have hgone : (p.oldRuns.filter fun o => !s.runRead o.1).isEmpty = false := by
    rw [List.isEmpty_eq_false_iff_exists_mem]
    exact ⟨o, List.mem_filter.2 ⟨ho, by simp [hread]⟩⟩
  unfold doOldRunRelease
  simp only [hpage, hawake, hgone]
  rfl

/-! ### PROG_STAGE (14 R462) -/

theorem doProgStage_eq {c : AgtanCmd} {s : State} (hacc : Claims.Accepted opProgStage c s)
    (hin : inGroups (s.pmap (cmdPart c)) (leAt c.body 0 4) 9 = true) (hgood : s.firstBad (leAt c.body 0 4) 9 = none)
    (hdigest : digestBytes (sha384 ((s.readBytes (512 * leAt c.body 0 4) 4608).take 4288)) = c.body.drop 8)
    (hrest : ((s.readBytes (512 * leAt c.body 0 4) 4608).drop 4288).all (· == 0#8) = true) :
    doProgStage c s =
      let img := (s.readBytes (512 * leAt c.body 0 4) 4608).take 4288
      let l : Lib := { words := (pieces 4 img).map fun w => BitVec.ofNat 32 (leNat w), digest := sha384 img }
      let x := s.stageItems c.mb [.lib (cmdPart c) l]
      x.2.respond 0x00A0#16 c (if x.1 then stOk else stBusy) [] := by
  rw [doProgStage, State.agtan_ok hacc.1 hacc.2]
  simp only [hin, hgood, hdigest, hrest, beq_self_eq_true, Bool.and_self, if_true, Bool.not_true, Bool.false_eq_true, if_false]
  rfl

/-- Settles O38. -/
theorem tiersAndPrograms : Obligations.TiersAndPrograms := by
  unfold Obligations.TiersAndPrograms
  refine ⟨fun r e s p hserving hpage htail hsram hmove hpromote hhot hroom hcheck => ?_,
    fun r e s p x hserving hpage htail hsram hmove hpromote hhot hroom hcheck => ?_,
    fun r now s p hserving hpage hpromoted hmove hidle => ?_, fun r s hawake hread => ?_,
    fun c s v p g w u hacc hopen hout hpage hmay halloc => ?_,
    fun r e s p m hserving hpage hmigr hcopied hnamed h => ?_, fun r e s p m hserving hpage hmigr hrepair hcontained => ?_,
    fun r e s p m x hserving hpage hmigr hcopied hcontained htested hcheck => ?_,
    fun r e s p m hserving hpage hmigr hcopied hcontained htested hcheck => ⟨fun h => ?_, fun h => ?_⟩,
    fun r s p o hawake hpage ho hread => ?_, fun c s hacc hin hgood hdigest hrest => ?_⟩
  · refine does_of_fresh (doPromote r e) rfl
      ((doPromote_eq (s := s.fresh) hserving hpage htail hsram hmove hpromote hhot hroom).trans ?_)
    have hcheck' : s.fresh.checkRun e p.desc = none := hcheck
    rw [hcheck']
  · refine does_of_fresh (doPromote r e) rfl
      ((doPromote_eq (s := s.fresh) hserving hpage htail hsram hmove hpromote hhot hroom).trans ?_)
    have hcheck' : s.fresh.checkRun e p.desc = some x := hcheck
    rw [hcheck']
  · exact does_of_fresh (fun t => doDemoteTimeout r (t.upTo now)) (run_upTo s now (doDemoteTimeout r)).symm
      (doDemoteTimeout_eq (s := s.fresh.upTo now) hserving hpage hpromoted hmove hidle)
  · exact does_of_fresh (doSramCopyRelease r) rfl (doSramCopyRelease_eq (s := s.fresh) hawake hread)
  · refine does_of_fresh (doRebalance c) rfl ?_
    rw [fresh_of_out hout]
    exact doRebalance_eq hacc hopen hpage hmay halloc
  · have hgo : (m.repair.isNone && (p.desc.contained || !m.copied && s.fresh.rowTested p m)) = false := by
      rcases h with h | h
      · simp [Option.isNone_eq_false_iff.2 h]
      · simp [h, hcopied]
    exact does_of_fresh (doMigrationSwap r e) rfl
      ((doMigrationSwap_swaps (s := s.fresh) hserving hpage hmigr hgo (copyPage_copied hcopied)).trans
        (if_neg (ne_true_of_eq_false hnamed)))
  · exact does_of_fresh (doMigrationSwap r e) rfl
      (doMigrationSwap_contained (s := s.fresh) hserving hpage hmigr hrepair hcontained)
  · have hgo : (m.repair.isNone && (p.desc.contained || !m.copied && s.fresh.rowTested p m)) = false := by
      rw [show s.fresh.rowTested p m = false from htested, hcontained]
      simp
    exact does_of_fresh (doMigrationSwap r e) rfl
      (doMigrationSwap_uncopied (s := s.fresh) hserving hpage hmigr hgo (copyPage_source (s := s.fresh) hcopied hcheck))
  · have hgo : (m.repair.isNone && (p.desc.contained || !m.copied && s.fresh.rowTested p m)) = false := by
      rw [show s.fresh.rowTested p m = false from htested, hcontained]
      simp
    exact does_of_fresh (doMigrationSwap r e) rfl
      (doMigrationSwap_uncopied (s := s.fresh) hserving hpage hmigr hgo (copyPage_target (s := s.fresh) hcopied hcheck h))
  · have hgo : (m.repair.isNone && (p.desc.contained || !m.copied && s.fresh.rowTested p m)) = false := by
      rw [show s.fresh.rowTested p m = false from htested, hcontained]
      simp
    exact does_of_fresh (doMigrationSwap r e) rfl
      (doMigrationSwap_swaps (s := s.fresh) hserving hpage hmigr hgo (copyPage_ok (s := s.fresh) hcopied hcheck h))
  · exact does_of_fresh (doOldRunRelease r) rfl (doOldRunRelease_eq (s := s.fresh) hawake hpage ho hread)
  · exact does_of_fresh (doProgStage c) rfl (doProgStage_eq (s := s.fresh) hacc hin hgood hdigest hrest)

end Sys2Proof.Machine
end

section
/-! SPDM requests, sessions, IDE streams and the commands over messages (O39, O40, O41). -/

namespace Sys2Proof.Machine

/-! ### A request of a served endpoint (11 R363) -/

section
variable {e : SpdmEp} {s : State} {ok : Spdm → Bool} {f : Spdm → State}

theorem onSpdm_ok (hserved : s.spdmServed e = true) (hok : ok (s.spdm e) = true) : s.onSpdm e ok f = f (s.spdm e) := by
  simp [State.onSpdm, hserved, hok]

theorem onSpdm_error (hserved : s.spdmServed e = true) (hok : ok (s.spdm e) = false) :
    s.onSpdm e ok f = s.emit (.spdmError e) := by
  simp [State.onSpdm, hserved, hok]

theorem onSpdm_unserved (hserved : s.spdmServed e = false) : s.onSpdm e ok f = s := by
  simp [State.onSpdm, hserved]

end

theorem Spdm.ready_of_phase {x : Spdm} (h : 3 ≤ x.phase) : x.ready = true := decide_eq_true h

theorem doSpdmNegotiateAlgorithms_error {e : SpdmEp} {a : SpdmAlgs} {s : State} (hserved : s.spdmServed e = true)
    (halgs : (a.ecdsaP384 && a.sha384 && a.secp384r1 && a.aes256gcm) = false) :
    doSpdmNegotiateAlgorithms e a s = s.emit (.spdmError e) := by
  refine onSpdm_error hserved ?_
  simp only [Bool.and_assoc] at halgs ⊢
  rw [halgs, Bool.and_false]

/-- Settles O39. -/
theorem spdmRequests : Obligations.SpdmRequests := by
  unfold Obligations.SpdmRequests
  refine ⟨fun e s h => ?_, fun e v s h hphase hv => ?_, fun e a s h hphase h1 h2 h3 h4 => ?_, fun e a s h halgs => ?_,
    fun e s h hphase => ?_, fun e o n s h hphase => ?_, fun e k o n s h hbad => ?_, fun e n s h hphase => ?_,
    fun e i n s h hphase hi hsees => ?_, fun e n s h hphase => ?_, fun e s h => ?_⟩
  · exact does_of_fresh (doSpdmGetVersion e) rfl (onSpdm_ok (s := s.fresh) h rfl)
  · refine does_of_fresh (doSpdmGetCapabilities e v) rfl (onSpdm_ok (s := s.fresh) h ?_)
    simp only [Bool.and_eq_true, decide_eq_true_eq, Bool.or_eq_true, beq_iff_eq]
    exact ⟨hphase, hv⟩
  · refine does_of_fresh (doSpdmNegotiateAlgorithms e a) rfl (onSpdm_ok (s := s.fresh) h ?_)
    simp only [h1, h2, h3, h4, Bool.and_true, decide_eq_true_eq]
    exact hphase
  · exact does_of_fresh (doSpdmNegotiateAlgorithms e a) rfl (doSpdmNegotiateAlgorithms_error (s := s.fresh) h halgs)
  · exact does_of_fresh (doSpdmGetDigests e) rfl (onSpdm_ok (s := s.fresh) h (Spdm.ready_of_phase hphase))
  · refine does_of_fresh (doSpdmGetCertificate e 0 o n) rfl (onSpdm_ok (s := s.fresh) h ?_)
    exact Bool.and_eq_true_iff.2 ⟨Spdm.ready_of_phase hphase, rfl⟩
  · refine does_of_fresh (doSpdmGetCertificate e k o n) rfl (onSpdm_error (s := s.fresh) h ?_)
    rcases hbad with hphase | hk
    · have hready : (s.fresh.spdm e).ready = false := decide_eq_false (Nat.not_le.2 hphase)
      rw [hready, Bool.false_and]
    · simp [hk]
  · refine does_of_fresh (doSpdmChallenge e 0 n) rfl (onSpdm_ok (s := s.fresh) h ?_)
    exact Bool.and_eq_true_iff.2 ⟨Spdm.ready_of_phase hphase, rfl⟩
  · refine does_of_fresh (doSpdmGetMeasurements e i true n) rfl ((onSpdm_ok (s := s.fresh) h ?_).trans ?_)
    · refine Bool.and_eq_true_iff.2 ⟨Spdm.ready_of_phase hphase, ?_⟩
      rcases hsees with rfl | ⟨hsees, hmeas⟩
      · rfl
      · have hsome : (s.fresh.measurement i).isSome = true := Option.isSome_iff_ne_none.2 hmeas
        simp [hsees, hsome]
    · rw [if_neg hi]
      rfl
  · refine does_of_fresh (doSpdmGetMeasurements e 0 false n) rfl (onSpdm_ok (s := s.fresh) h ?_)
    exact Bool.and_eq_true_iff.2 ⟨Spdm.ready_of_phase hphase, rfl⟩
  · exact does_of_fresh (doSpdmGetVersion e) rfl (onSpdm_unserved (s := s.fresh) h)

/-! ### Sessions and IDE streams (11 R363, R370) -/

section
variable {e : SpdmEp} {s : State} {d : BitVec 384} (hserved : s.spdmServed e = true) (hsession : (s.spdm e).session ≠ none)
  (hopen : (s.spdm e).isOpen = false)
include hserved hsession hopen

theorem doSpdmFinish_eq {ok : Bool} :
    doSpdmFinish e ok d s =
      if ok && (s.tenantKey e == 0#384 || d == s.tenantKey e) then
        (s.setSpdm e { s.spdm e with isOpen := true, mutualAuth := s.tenantKey e != 0#384 }).spdmAnswer e "FINISH_RSP" []
      else (s.setSpdm e { s.spdm e with session := none, secret := 0#384 }).emit (.spdmError e) := by
  refine onSpdm_ok hserved ?_
  rw [hopen, Option.isSome_iff_ne_none.2 hsession]
  rfl

theorem doSpdmFinish_opens (hkey : s.tenantKey e = 0#384 ∨ d = s.tenantKey e) :
    doSpdmFinish e true d s =
      (s.setSpdm e { s.spdm e with isOpen := true, mutualAuth := s.tenantKey e != 0#384 }).emit (.spdm e "FINISH_RSP" [] 0) := by
  refine (doSpdmFinish_eq hserved hsession hopen).trans (if_pos ?_)
  simpa using hkey

theorem doSpdmFinish_ends {ok : Bool} (hkey : ok = false ∨ (s.tenantKey e ≠ 0#384 ∧ d ≠ s.tenantKey e)) :
    doSpdmFinish e ok d s = (s.setSpdm e { s.spdm e with session := none, secret := 0#384 }).emit (.spdmError e) := by
  refine (doSpdmFinish_eq hserved hsession hopen).trans (if_neg ?_)
  rcases hkey with rfl | ⟨hzero, hd⟩
  · simp
  · simp [hzero, hd]

end

section
variable {n : Nat} {s : State} {x : IdeStream}

theorem ideStream_setIde_same : (s.setIde n x).ideStream n = x := by simp [State.ideStream, State.setIde]

theorem ideStream_setIde_other {m : Nat} (h : m ≠ n) : (s.setIde n x).ideStream m = s.ideStream m :=
  Tbl.getD_set_ne _ _ _ h

theorem ideStream_fault (e : Event) : (s.fault e).ideStream = s.ideStream := by
  obtain ⟨f, hf, -⟩ := State.fault_spec s e
  rw [hf]
  rfl

end

/-- An integrity failure makes a Secure stream Insecure, keeps its key and the other streams, and is recorded. -/
theorem doIdeIntegrityFail_spec {n : Nat} {s : State} (howner : s.ownerServed = true) (hn : n < 9)
    (hsecure : (s.ideStream n).secure = true) :
    let t := doIdeIntegrityFail n s
    (t.ideStream n).secure = false ∧ (t.ideStream n).insecure = true ∧ (t.ideStream n).key = (s.ideStream n).key ∧
      (∀ m, m ≠ n → t.ideStream m = s.ideStream m) ∧
      ∃ i r, t.flt.newest = some i ∧ Tbl.get? t.flt.hist i = some r ∧ r.code = 0x1B := by
  intro t
  have ht : t = (s.setIde n { s.ideStream n with secure := false, insecure := true }).fault
      { code := 0x1B, srcKind := 11, srcIndex := 0, part := none, addr := 0, syndrome := 0#64, place := none } :=
    if_pos (by simp [howner, hn, hsecure])
  have hstream : t.ideStream = (s.setIde n { s.ideStream n with secure := false, insecure := true }).ideStream := by
    rw [ht, ideStream_fault]
  have hat : t.ideStream n = { s.ideStream n with secure := false, insecure := true } := by
    rw [hstream, ideStream_setIde_same]
  refine ⟨by rw [hat], by rw [hat], by rw [hat], fun m hm => by rw [hstream, ideStream_setIde_other hm], ?_⟩
  obtain ⟨f, i, r, hf, hi, hr, hcode⟩ := fault_newest
    (s := s.setIde n { s.ideStream n with secure := false, insecure := true })
    (e := { code := 0x1B, srcKind := 11, srcIndex := 0, part := none, addr := 0, syndrome := 0#64, place := none }) rfl
  rw [ht, hf]
  exact ⟨i, r, hi, hr, hcode⟩

/-- Settles O40. -/
theorem spdmSessions : Obligations.SpdmSessions := by
  unfold Obligations.SpdmSessions
  refine ⟨fun e r x s h hphase hnone => ?_, fun e d s h hsession hopen hkey => ?_, fun e ok d s h hsession hopen hkey => ?_,
    fun e n op g s h hhas h1 h3 => ?_, fun e n s h hhas => ?_, fun e n s h hhas => ?_, fun e n s h hhas => ?_,
    fun m s h hopen => ?_, fun n k s hn => if_pos hn, fun n s howner hn hsecure => ?_⟩
  · refine does_of_fresh (doSpdmKeyExchange e r x) rfl (onSpdm_ok (s := s.fresh) h ?_)
    exact Bool.and_eq_true_iff.2 ⟨Spdm.ready_of_phase hphase, Option.isNone_iff_eq_none.2 hnone⟩
  · exact does_of_fresh (doSpdmFinish e true d) rfl (doSpdmFinish_opens (s := s.fresh) h hsession hopen hkey)
  · exact does_of_fresh (doSpdmFinish e ok d) rfl (doSpdmFinish_ends (s := s.fresh) h hsession hopen hkey)
  · refine does_of_fresh (doSpdmKeyUpdate e n op g) rfl (onSpdm_ok (s := s.fresh) h ?_)
    exact Bool.and_eq_true_iff.2 ⟨hhas, decide_eq_true ⟨h1, h3⟩⟩
  · exact does_of_fresh (doSpdmHeartbeat e n) rfl (onSpdm_ok (s := s.fresh) h hhas)
  · exact does_of_fresh (doSpdmHeartbeat e n) rfl (onSpdm_error (s := s.fresh) h hhas)
  · exact does_of_fresh (doSpdmEndSession e n) rfl (onSpdm_ok (s := s.fresh) h hhas)
  · exact does_of_fresh (doIdeKmMessage (.fn .pf) m) rfl
      (onSpdm_ok (s := s.fresh) h (Bool.and_eq_true_iff.2 ⟨hopen, rfl⟩))
  · exact Answers.of_fresh s (doIdeIntegrityFail n) rfl
      ((doIdeIntegrityFail_keeps (List.Subset.refl _) (.refl _ s.fresh)).same .pending (by decide))
      (doIdeIntegrityFail_spec (s := s.fresh) howner hn hsecure)

/-! ### Commands over messages (14 R449) -/

section
variable {f : Fn} {n : BitVec 32} {b : List Byte} {s : State} (hserved : s.spdmServed (.fn f) = true)
  (hhas : (s.spdm (.fn f)).has n = true) (hlen : 18 ≤ b.length)
include hserved hhas hlen

theorem doVendorDefinedRequest_eq :
    doVendorDefinedRequest (.fn f) n b s =
      let c := messageCmd (spdmIndex (.fn f)) (.spdm (.fn f) n) b
      match (s.spdm (.fn f)).kept with
      | some (q, r) => if q = c.2.seq then s.spdmAnswer (.fn f) "VENDOR_DEFINED_RESPONSE" r else s.acceptCmd c
      | none => s.acceptCmd c := by
  refine (onSpdm_ok hserved ?_).trans rfl
  simp [hhas, hlen]

theorem doVendorDefinedRequest_new (hnew : ∀ q r, (s.spdm (.fn f)).kept = some (q, r) →
      q ≠ (messageCmd (spdmIndex (.fn f)) (.spdm (.fn f) n) b).2.seq) :
    doVendorDefinedRequest (.fn f) n b s = s.acceptCmd (messageCmd (spdmIndex (.fn f)) (.spdm (.fn f) n) b) := by
  rw [doVendorDefinedRequest_eq hserved hhas hlen]
  cases hkept : (s.spdm (.fn f)).kept with
  | none => rfl
  | some x => exact if_neg (hnew x.1 x.2 hkept)

theorem doVendorDefinedRequest_repeats {r : List Byte}
    (hkept : (s.spdm (.fn f)).kept = some ((messageCmd (spdmIndex (.fn f)) (.spdm (.fn f) n) b).2.seq, r)) :
    doVendorDefinedRequest (.fn f) n b s = s.emit (.spdm (.fn f) "VENDOR_DEFINED_RESPONSE" r 0) := by
  rw [doVendorDefinedRequest_eq hserved hhas hlen, hkept]
  exact if_pos rfl

end

section
variable {b : List Byte} {s : State} (hawake : s.awake = true) (hstage : 2 ≤ s.boot.stage) (hlen : 18 ≤ b.length)
include hawake hstage hlen

theorem doMctpMailboxMessage_eq :
    doMctpMailboxMessage b s =
      let c := messageCmd 0 .mctp b
      match (s.mbox 0).mctpSeq with
      | some (q, r) => if q = c.2.seq then s.emit (.mctp r) else s.acceptCmd c
      | none => s.acceptCmd c :=
  if_neg (by simp [hawake, hstage, hlen])

theorem doMctpMailboxMessage_new
    (hnew : ∀ q r, (s.mbox 0).mctpSeq = some (q, r) → q ≠ (messageCmd 0 .mctp b).2.seq) :
    doMctpMailboxMessage b s = s.acceptCmd (messageCmd 0 .mctp b) := by
  rw [doMctpMailboxMessage_eq hawake hstage hlen]
  cases hkept : (s.mbox 0).mctpSeq with
  | none => rfl
  | some x => exact if_neg (hnew x.1 x.2 hkept)

theorem doMctpMailboxMessage_repeats {r : List Byte}
    (hkept : (s.mbox 0).mctpSeq = some ((messageCmd 0 .mctp b).2.seq, r)) :
    doMctpMailboxMessage b s = s.emit (.mctp r) := by
  rw [doMctpMailboxMessage_eq hawake hstage hlen, hkept]
  exact if_pos rfl

end

/-- A sensor that is read while the node is awake (15 R483). -/
theorem doPldmRequest_awake {x : PldmSensor} {s : State} (hawake : s.awake = true) :
    doPldmRequest x s = match x with
      | .basin => s.emit (.pldm s.pins.tjMax)
      | .cistern => s.emit (.pldm s.pins.tcisMax)
      | .power => s.emit (.pldm s.pwr.avg)
      | .railVolt r =>
        if r < 7 then ({ s with draws := s.draws + 1 }).emit (.pldm (Config.railReading (2 * r) s.draws)) else s
      | .railAmp r =>
        if r < 7 then ({ s with draws := s.draws + 1 }).emit (.pldm (Config.railReading (2 * r + 1) s.draws)) else s := by
  unfold doPldmRequest
  rw [hawake]
  rfl

/-- Settles O41. -/
theorem messageCommands : Obligations.MessageCommands := by
  unfold Obligations.MessageCommands
  refine ⟨fun f n b s h hhas hlen hnew => ?_, fun f n b r s h hhas hlen hkept => ?_, fun b s hawake hstage hlen hnew => ?_,
    fun b r s hawake hstage hlen hkept => ?_, fun s hawake => ⟨?_, ?_, ?_, fun r hr => ⟨?_, ?_⟩⟩, fun n s hn => ?_⟩
  · exact does_of_fresh (doVendorDefinedRequest (.fn f) n b) rfl (doVendorDefinedRequest_new (s := s.fresh) h hhas hlen hnew)
  · exact does_of_fresh (doVendorDefinedRequest (.fn f) n b) rfl
      (doVendorDefinedRequest_repeats (s := s.fresh) h hhas hlen hkept)
  · exact does_of_fresh (doMctpMailboxMessage b) rfl (doMctpMailboxMessage_new (s := s.fresh) hawake hstage hlen hnew)
  · exact does_of_fresh (doMctpMailboxMessage b) rfl (doMctpMailboxMessage_repeats (s := s.fresh) hawake hstage hlen hkept)
  · exact does_of_fresh (doPldmRequest .basin) rfl (doPldmRequest_awake (s := s.fresh) hawake)
  · exact does_of_fresh (doPldmRequest .cistern) rfl (doPldmRequest_awake (s := s.fresh) hawake)
  · exact does_of_fresh (doPldmRequest .power) rfl (doPldmRequest_awake (s := s.fresh) hawake)
  · exact does_of_fresh (doPldmRequest (.railVolt r)) rfl ((doPldmRequest_awake (s := s.fresh) hawake).trans (if_pos hr))
  · exact does_of_fresh (doPldmRequest (.railAmp r)) rfl ((doPldmRequest_awake (s := s.fresh) hawake).trans (if_pos hr))
  · exact does_of_fresh (doSmbusTimeout n) rfl (if_pos hn)

end Sys2Proof.Machine
end

section
/-! The mailbox handshake, BAR2 and register writes (O42, O43, O44). -/

namespace Sys2Proof.Machine

/-! ### Doorbells (14 R447) -/

section
variable {f : Fn} {mb : Nat} {v : BitVec 64} {s : State}

theorem doMbDoorbell_unreached (h : reaches f mb = false) : doMbDoorbell f mb v s = s := by
  simp [doMbDoorbell, h]

variable (howner : s.ownerServed = true) (hreach : reaches f mb = true)
include howner hreach

theorem doMbDoorbell_eq :
    doMbDoorbell f mb v s =
      if (s.mbox mb).state = 1 then s.setMbox mb { s.mbox mb with overrun := true }
      else if v.extractLsb' 0 16 = (s.mbox mb).seqTaken then s.setMbox mb { s.mbox mb with state := 2 }
      else
        let c := areaCmd mb (.bar0 f (v.extractLsb' 16 12) (v.getLsbD 28)) (v.extractLsb' 0 16)
          (Memory.read (s.mbox mb).cmd 0 1024)
        s.setMbox mb { s.mbox mb with
          state := 1, seqTaken := v.extractLsb' 0 16, accepted := (s.mbox mb).accepted ++ [c] } := by
  unfold doMbDoorbell
  rw [howner, hreach]
  rfl

theorem doMbDoorbell_busy (hbusy : (s.mbox mb).state = 1) :
    doMbDoorbell f mb v s = s.setMbox mb { s.mbox mb with overrun := true } := by
  rw [doMbDoorbell_eq howner hreach, if_pos hbusy]

variable (hidle : (s.mbox mb).state ≠ 1)
include hidle

theorem doMbDoorbell_repeats (hseq : v.extractLsb' 0 16 = (s.mbox mb).seqTaken) :
    doMbDoorbell f mb v s = s.setMbox mb { s.mbox mb with state := 2 } := by
  rw [doMbDoorbell_eq howner hreach, if_neg hidle, if_pos hseq]

theorem doMbDoorbell_accepts (hseq : v.extractLsb' 0 16 ≠ (s.mbox mb).seqTaken) :
    doMbDoorbell f mb v s =
      let c := areaCmd mb (.bar0 f (v.extractLsb' 16 12) (v.getLsbD 28)) (v.extractLsb' 0 16)
        (Memory.read (s.mbox mb).cmd 0 1024)
      s.setMbox mb { s.mbox mb with
        state := 1, seqTaken := v.extractLsb' 0 16, accepted := (s.mbox mb).accepted ++ [c] } := by
  rw [doMbDoorbell_eq howner hreach, if_neg hidle, if_neg hseq]

end

/-! ### The turn of a mailbox (14 R448) -/

/-- A mailbox's part in the round robin: its oldest command, where that is served. -/
def mboxTurn (s : State) (i : Nat) : Option (Nat × (BitVec 16 × AgtanCmd)) :=
  match (s.mbox ((s.mbNext + i) % 17)).accepted with
  | c :: _ => if s.mailServed c.2 then some ((s.mbNext + i) % 17, c) else none
  | [] => none

theorem turnOf_eq (s : State) : s.turnOf = (List.range 17).findSome? (mboxTurn s) := rfl

theorem mboxTurn_empty {s : State} {i : Nat} (h : (s.mbox ((s.mbNext + i) % 17)).accepted = []) : mboxTurn s i = none := by
  rw [mboxTurn, h]

theorem mboxTurn_served {s : State} {i : Nat} {c : BitVec 16 × AgtanCmd} {l : List (BitVec 16 × AgtanCmd)}
    (h : (s.mbox ((s.mbNext + i) % 17)).accepted = c :: l) (hserved : s.mailServed c.2 = true) :
    mboxTurn s i = some ((s.mbNext + i) % 17, c) := by
  rw [mboxTurn, h]
  exact if_pos hserved

/-- The first of a range that has a value gives it. -/
theorem findSome?_range {α : Type} {f : Nat → Option α} {n i : Nat} {a : α} (hi : i < n) (hat : f i = some a)
    (hbefore : ∀ j < i, f j = none) : (List.range n).findSome? f = some a := by
  have hsplit : List.range n = List.range i ++ (i :: (List.range (n - i - 1)).map (i + 1 + ·)) := by
    have hn : n = i + (1 + (n - i - 1)) := by omega
    conv_lhs => rw [hn, List.range_add, List.range_add]
    simp [Function.comp_def, Nat.add_assoc]
  rw [hsplit, List.findSome?_append, List.findSome?_eq_none_iff.2 fun j hj => hbefore j (List.mem_range.1 hj)]
  simp [hat]

theorem doMailboxTurn_serves {s : State} {i : Nat} {c : BitVec 16 × AgtanCmd} {l : List (BitVec 16 × AgtanCmd)}
    (hi : i < 17) (hat : (s.mbox ((s.mbNext + i) % 17)).accepted = c :: l) (hserved : s.mailServed c.2 = true)
    (hbefore : ∀ j < i, (s.mbox ((s.mbNext + j) % 17)).accepted = []) :
    doMailboxTurn s =
      let m := (s.mbNext + i) % 17
      ({ s.updMbox m fun x => { x with accepted := l } with mbNext := (m + 1) % 17 }).runCmd c.1 c.2 := by
  have hturn : s.turnOf = some ((s.mbNext + i) % 17, c) :=
    (turnOf_eq s).trans (findSome?_range hi (mboxTurn_served hat hserved) fun j hj => mboxTurn_empty (hbefore j hj))
  unfold doMailboxTurn
  rw [hturn]
  dsimp only [State.updMbox]
  rw [hat]
  rfl

theorem doMailboxTurn_none {s : State} (h : ∀ j < 17, (s.mbox ((s.mbNext + j) % 17)).accepted = []) :
    doMailboxTurn s = s := by
  have hturn : s.turnOf = none :=
    (turnOf_eq s).trans (List.findSome?_eq_none_iff.2 fun j hj => mboxTurn_empty (h j (List.mem_range.1 hj)))
  unfold doMailboxTurn
  rw [hturn]

/-- Settles O42. -/
theorem mailboxHandshake : Obligations.MailboxHandshake := by
  unfold Obligations.MailboxHandshake
  refine ⟨fun f mb v s ho hr hbusy => ?_, fun f mb v s ho hr hidle hseq => ?_, fun f mb v s ho hr hidle hseq => ?_,
    fun f mb v s hr => ?_, fun s m c l i hi hm hat hserved hbefore => ?_, fun s h => ?_⟩
  · exact does_of_fresh (doMbDoorbell f mb v) rfl (doMbDoorbell_busy (s := s.fresh) ho hr hbusy)
  · exact does_of_fresh (doMbDoorbell f mb v) rfl (doMbDoorbell_repeats (s := s.fresh) ho hr hidle hseq)
  · exact does_of_fresh (doMbDoorbell f mb v) rfl (doMbDoorbell_accepts (s := s.fresh) ho hr hidle hseq)
  · exact does_of_fresh (f := id) (doMbDoorbell f mb v) rfl (doMbDoorbell_unreached (s := s.fresh) hr)
  · subst hm
    exact does_of_fresh doMailboxTurn rfl (doMailboxTurn_serves (s := s.fresh) hi hat hserved hbefore)
  · exact does_of_fresh (f := id) doMailboxTurn rfl (doMailboxTurn_none (s := s.fresh) h)

/-! ### BAR2 (14 R444) -/

section
variable {f : Fn} {a : BitVec 39} {n : Nat} {e : EccReport} {s : State}

theorem doBar2Read_unserved (h : s.bar2Served a.toNat n = false) : doBar2Read f a n e s = s := by
  simp [doBar2Read, h]

variable (hserved : s.bar2Served a.toNat n = true)
include hserved

theorem doBar2Read_vf (hf : f ≠ .pf) : doBar2Read f a n e s = s.emit .unsupportedRequest := by
  simp [doBar2Read, hserved, hf]

theorem doBar2Read_off (hoff : s.bar2Off = true) : doBar2Read .pf a n e s = s.bar2Blocked := by
  simp [doBar2Read, hserved, hoff]

theorem doBar2Read_pf (hon : s.bar2Off = false) :
    doBar2Read .pf a n e s =
      let gs := grainsOf a.toNat n
      let u := s.each gs fun t g => if (eccCorrected e g).isEmpty then t else t.noteCorrected e 1 (grainChannel g) g
      (u.each (s.rangeFaults e gs) State.failCheck).emit
        (.bar2Data (s.readBytes a.toNat n) (!(s.rangeFaults e gs).isEmpty)) := by
  unfold doBar2Read
  rw [hserved, hon]
  rfl

end

section
variable {f : Fn} {a : BitVec 39} {l : List Byte} {e : EccReport} {s : State}

theorem doBar2Write_unserved (h : s.bar2Served a.toNat l.length = false) : doBar2Write f a l e s = s := by
  simp [doBar2Write, h]

variable (hserved : s.bar2Served a.toNat l.length = true)
include hserved

theorem doBar2Write_vf (hf : f ≠ .pf) : doBar2Write f a l e s = s.emit .unsupportedRequest := by
  simp [doBar2Write, hserved, hf]

theorem doBar2Write_blocked
    (h : s.bar2Off = true ∨ ∃ g ∈ grainsOf a.toNat l.length, (s.allocOf g).isSome = true) :
    doBar2Write .pf a l e s = s.bar2Blocked := by
  have hblocked : (s.bar2Off || (grainsOf a.toNat l.length).any fun g => (s.allocOf g).isSome) = true := by simpa using h
  unfold doBar2Write
  dsimp only
  rw [hserved, hblocked]
  rfl

variable (hon : s.bar2Off = false) (hfree : ∀ g ∈ grainsOf a.toNat l.length, s.allocOf g = none)
include hon hfree

theorem doBar2Write_pf :
    doBar2Write .pf a l e s = match s.writeRefused e a.toNat l with
      | some x => s.partialRefused x
      | none => (s.writeGrains a.toNat l).mirrorBar2 a.toNat l.length := by
  have hopen : (s.bar2Off || (grainsOf a.toNat l.length).any fun g => (s.allocOf g).isSome) = false := by
    simpa [hon] using hfree
  unfold doBar2Write
  dsimp only
  rw [hserved, hopen]
  rfl

end

/-- Settles O43. -/
theorem bar2Accesses : Obligations.Bar2Accesses := by
  unfold Obligations.Bar2Accesses
  refine ⟨fun a n e s h hon => ?_, fun a n e s h hoff => ?_, fun f a n e s h hf => ?_, fun f a n e s h => ?_,
    fun a l e s h hon hfree hok => ?_, fun a l e s x h hon hfree hbad => ?_, fun a l e s h hblocked => ?_,
    fun f a l e s h hf => ?_, fun f a l e s h => ?_⟩
  · exact does_of_fresh (doBar2Read .pf a n e) rfl (doBar2Read_pf (s := s.fresh) h hon)
  · exact does_of_fresh (doBar2Read .pf a n e) rfl (doBar2Read_off (s := s.fresh) h hoff)
  · exact does_of_fresh (doBar2Read f a n e) rfl (doBar2Read_vf (s := s.fresh) h hf)
  · exact does_of_fresh (doBar2Read f a n e) rfl (doBar2Read_unserved (s := s.fresh) h)
  · have hok' : s.fresh.writeRefused e a.toNat l = none := hok
    refine does_of_fresh (doBar2Write .pf a l e) rfl ((doBar2Write_pf (s := s.fresh) h hon hfree).trans ?_)
    rw [hok']
  · have hbad' : s.fresh.writeRefused e a.toNat l = some x := hbad
    refine does_of_fresh (doBar2Write .pf a l e) rfl ((doBar2Write_pf (s := s.fresh) h hon hfree).trans ?_)
    rw [hbad']
  · exact does_of_fresh (doBar2Write .pf a l e) rfl (doBar2Write_blocked (s := s.fresh) h hblocked)
  · exact does_of_fresh (doBar2Write f a l e) rfl (doBar2Write_vf (s := s.fresh) h hf)
  · exact does_of_fresh (doBar2Write f a l e) rfl (doBar2Write_unserved (s := s.fresh) h)

/-! ### BAR0 registers (00 R6, 14 R443) -/

section
variable {f : Fn} {o : Nat} {v : Word64} {s : State}

theorem writeBar0_slot (howner : s.ownerServed = true) (halign : o % 8 = 0) (ho : o < 0x11000) :
    s.writeBar0 f o v = s.writeSlot f (o / 0x1000) (o % 0x1000) v := by
  simp [State.writeBar0, howner, halign, ho]

theorem writeBar0_pf (howner : s.ownerServed = true) (halign : o % 8 = 0) (ho : 0x11000 ≤ o) :
    s.writeBar0 .pf o v = s.writePf o v := by
  simp [State.writeBar0, howner, halign, Nat.not_lt.2 ho]

theorem writePf_other (h : o ∉ [0x1F020, 0x200008, 0x300010, 0x300018, 0x300020, 0x300028]) : s.writePf o v = s := by
  simp only [List.mem_cons, not_or, List.not_mem_nil, not_false_eq_true, and_true] at h
  simp [State.writePf, h]

theorem writePf_syncFault :
    s.writePf 0x300028 v = { s with clk := { s.clk with syncFault := s.clk.syncFault && !v.getLsbD 2 } } := by
  unfold State.writePf
  generalize v.getLsbD 2 = b
  cases b with
  | false => rw [Bool.not_false, Bool.and_true]; rfl
  | true => rw [Bool.not_true, Bool.and_false]; rfl

theorem writeSlot_unreached {mb : Nat} (h : reaches f mb = false) : s.writeSlot f mb o v = s := by
  simp [State.writeSlot, h]

/-- A write that has no effect: PCIe down, no whole register, a mailbox or a register that the function does not
reach, or an offset that only reads. -/
theorem writeBar0_ignored
    (h : s.ownerServed = false ∨ o % 8 ≠ 0 ∨ (o < 0x11000 ∧ reaches f (o / 0x1000) = false) ∨ (0x11000 ≤ o ∧ f ≠ .pf) ∨
      (0x11000 ≤ o ∧ o ∉ [0x1F020, 0x200008, 0x300010, 0x300018, 0x300020, 0x300028])) :
    s.writeBar0 f o v = s := by
  rcases h with h | h | ⟨ho, h⟩ | ⟨ho, h⟩ | ⟨ho, h⟩
  · simp [State.writeBar0, h]
  · simp [State.writeBar0, h]
  · simp [State.writeBar0, ho, writeSlot_unreached h]
  · simp [State.writeBar0, Nat.not_lt.2 ho, h]
  · simp [State.writeBar0, Nat.not_lt.2 ho, writePf_other h]

variable {m : Nat} (hreach : reaches f m = true)
include hreach

theorem writeSlot_area (ho : o < 0x400) :
    s.writeSlot f m o v = s.updMbox m fun x => { x with cmd := Memory.write x.cmd o (leBytes 8 v.toNat) } := by
  simp [State.writeSlot, hreach, ho]

theorem writeSlot_doorbell : s.writeSlot f m 0xC00 v = doMbDoorbell f m v s := by
  simp [State.writeSlot, hreach]

theorem writeSlot_status :
    s.writeSlot f m 0xC08 v = if v.getLsbD 2 then s.updMbox m fun x => { x with overrun := false } else s := by
  simp [State.writeSlot, hreach]

theorem writeSlot_readOnly (ho : 0x400 ≤ o) (hbell : o ≠ 0xC00) (hstatus : o ≠ 0xC08) : s.writeSlot f m o v = s := by
  simp [State.writeSlot, hreach, Nat.not_lt.2 ho, hbell, hstatus]

end

/-- A write within a mailbox slot reaches that mailbox. -/
theorem doRegisterWrite_mailbox {f : Fn} {m o : Nat} {v : Word64} {s : State} (howner : s.ownerServed = true) (hm : m ≤ 16)
    (halign : o % 8 = 0) (ho : o < 0x1000) :
    doRegisterWrite (.bar0 f (BitVec.ofNat 26 (4096 * m + o))) v s = s.writeSlot f m o v := by
  have hval : (BitVec.ofNat 26 (4096 * m + o)).toNat = 4096 * m + o := by
    rw [BitVec.toNat_ofNat]
    exact Nat.mod_eq_of_lt (by omega)
  have hdiv : (4096 * m + o) / 0x1000 = m := by omega
  have hmod : (4096 * m + o) % 0x1000 = o := by omega
  rw [doRegisterWrite, hval, writeBar0_slot howner (by omega) (by omega), hdiv, hmod]

theorem doRegisterWrite_twinStat {v : Word64} {s : State} (howner : s.ownerServed = true) :
    doRegisterWrite .twinStat v s = { s with twin := { s.twin with cfgMismatch := s.twin.cfgMismatch && !v.getLsbD 3 } } := by
  unfold doRegisterWrite
  dsimp only
  generalize v.getLsbD 3 = b
  rw [howner]
  cases b with
  | false => rw [Bool.not_false, Bool.and_true]; rfl
  | true => rw [Bool.not_true, Bool.and_false]; rfl

/-! ### The register space of a jet (03 R90) -/

section
variable {x : Jet} {v : Word64} {k : Nat}

theorem writeReg_slot (hk : k < 128) :
    x.writeReg (8 * k) v =
      if x.isolated then { x with refused := satAdd 64 x.refused 1 } else x.writeSlotWord (8 * k) v := by
  unfold Jet.writeReg
  rw [if_neg (by simp), if_pos (by omega)]

theorem writeReg_rowFile (hk : k < 512) :
    x.writeReg (0x1000 + 8 * k) v = { x with rowFile := Tbl.set x.rowFile k v } := by
  have hindex : (0x1000 + 8 * k - 0x1000) / 8 = k := by omega
  unfold Jet.writeReg
  rw [if_neg (by simp), if_neg (by omega), if_neg (by omega), if_neg (by omega), if_pos (by simp; omega), hindex]

theorem writeReg_staging (hk : k < 2048) :
    x.writeReg (0x4000 + 8 * k) v = { x with staging := Memory.write x.staging (8 * k) (leBytes 8 v.toNat) } := by
  have hindex : 0x4000 + 8 * k - 0x4000 = 8 * k := by omega
  unfold Jet.writeReg
  rw [if_neg (by simp), if_neg (by omega), if_neg (by omega), if_neg (by omega), if_neg (by simp; omega),
    if_pos (by simp; omega), hindex]

theorem writeReg_store (hk : k < 1024) (hidle : x.idle = true) :
    x.writeReg (0x20000 + 8 * k) v =
      { x with store := Tbl.set (Tbl.set x.store (2 * k) (v.extractLsb' 0 32)) (2 * k + 1) (v.extractLsb' 32 32) } := by
  have hindex : (0x20000 + 8 * k - 0x20000) / 4 = 2 * k := by omega
  unfold Jet.writeReg
  rw [if_neg (by simp), if_neg (by omega), if_neg (by omega), if_neg (by omega), if_neg (by simp; omega),
    if_neg (by simp; omega), if_pos (by simp [hidle]; omega)]
  dsimp only
  rw [hindex]

theorem writeReg_ignored {o : Nat}
    (h : o % 8 ≠ 0 ∨ (0x410 ≤ o ∧ o < 0x1000) ∨ (0x2000 ≤ o ∧ o < 0x4000) ∨ (0x8000 ≤ o ∧ o < 0x20000) ∨ 0x22000 ≤ o ∨
      (0x20000 ≤ o ∧ x.idle = false)) : x.writeReg o v = x := by
  unfold Jet.writeReg
  by_cases halign : o % 8 = 0
  · have hidle : ¬ (decide (0x20000 ≤ o) && decide (o < 0x22000) && x.idle) = true := by
      simp only [Bool.and_eq_true, decide_eq_true_eq, not_and, Bool.not_eq_true]
      intro h1
      rcases h with h | h | h | h | h | h
      · exact absurd halign h
      · omega
      · omega
      · omega
      · omega
      · exact h.2
    rw [if_neg (by simp [halign]), if_neg (by omega), if_neg (by omega), if_neg (by omega), if_neg (by simp; omega),
      if_neg (by simp; omega), if_neg hidle]
  · exact if_pos (by simpa using halign)

end

section
variable {j : Nat} {o : Nat} {v : Word64} {s : State}

theorem writeJet_off (h : s.awake = false ∨ 8192 ≤ j) : s.writeJet j o v = s := by
  have hoff : (s.awake && decide (j < 8192)) = false := by
    rcases h with h | h
    · simp [h]
    · simp [h]
  simp only [State.writeJet, State.onJet, Bool.and_assoc, hoff, Bool.false_eq_true, if_false]
  simp

variable (hawake : s.awake = true) (hj : j < 8192)
include hawake hj

theorem writeJet_register (h : o < 0x20000 ∨ 0x22000 ≤ o ∨ (s.jet j).idle = false) :
    s.writeJet j o v = s.setJet j ((s.jet j).writeReg o v) := by
  have hstore : ¬ (decide (0x20000 ≤ o) && decide (o < 0x22000) && s.awake && decide (j < 8192) && (s.jet j).idle) = true := by
    rcases h with h | h | h
    · simp [Nat.not_le.2 h]
    · simp [Nat.not_lt.2 h]
    · simp [h]
  refine (if_neg hstore).trans (if_pos ?_)
  simp [hawake, hj]

theorem writeJet_store (hlo : 0x20000 ≤ o) (hhi : o < 0x22000) (hidle : (s.jet j).idle = true) :
    s.writeJet j o v =
      ((s.updJet j fun x => x.writeReg o v).updJet j fun x => { x with progOk := storeOk x.store (s.jetStore j) }).libDone j := by
  simp [State.writeJet, State.onJet, hlo, hhi, hawake, hj, hidle]

end

/-- Settles O44. -/
theorem registerWrites : Obligations.RegisterWrites := by
  unfold Obligations.RegisterWrites
  refine ⟨fun v s h => ?_, fun v s h => ?_, fun v s h => ⟨?_, ?_, ?_⟩, fun v s h => ?_,
    fun f m k v s h hm hr => ⟨fun hk => ?_, ?_, ?_, fun h1 h2 h3 h4 => ?_⟩, fun f o v s h => ?_,
    fun v s => ⟨fun h => ?_, fun h => ?_⟩, fun ch v s => ⟨fun h => ?_, fun h => ?_, rfl⟩,
    fun j o v s hawake hj => ⟨fun h => ?_, fun hlo hhi hidle => ?_⟩, fun j o v s h => ?_,
    fun x v k => ⟨fun hk hi => ?_, fun hk hi => ?_, rfl, rfl, writeReg_rowFile, writeReg_staging, writeReg_store,
      fun o => writeReg_ignored⟩⟩
  · exact does_of_fresh (doRegisterWrite _ v) rfl (writeBar0_pf (s := s.fresh) h rfl (by decide))
  · exact does_of_fresh (doRegisterWrite _ v) rfl (writeBar0_pf (s := s.fresh) h rfl (by decide))
  · exact does_of_fresh (doRegisterWrite _ v) rfl (writeBar0_pf (s := s.fresh) h rfl (by decide))
  · exact does_of_fresh (doRegisterWrite _ v) rfl (writeBar0_pf (s := s.fresh) h rfl (by decide))
  · exact does_of_fresh (doRegisterWrite _ v) rfl (writeBar0_pf (s := s.fresh) h rfl (by decide))
  · exact does_of_fresh (doRegisterWrite _ v) rfl
      ((writeBar0_pf (s := s.fresh) h rfl (by decide)).trans writePf_syncFault)
  · exact does_of_fresh (doRegisterWrite _ v) rfl
      ((doRegisterWrite_mailbox (s := s.fresh) h hm (by omega) (by omega)).trans (writeSlot_area hr (by omega)))
  · exact does_of_fresh (doRegisterWrite _ v) rfl
      ((doRegisterWrite_mailbox (s := s.fresh) h hm rfl (by decide)).trans (writeSlot_doorbell hr))
  · exact does_of_fresh (doRegisterWrite _ v) rfl
      ((doRegisterWrite_mailbox (s := s.fresh) h hm rfl (by decide)).trans (writeSlot_status hr))
  · exact does_of_fresh (doRegisterWrite _ v) rfl
      ((doRegisterWrite_mailbox (s := s.fresh) h hm (by omega) (by omega)).trans
        (writeSlot_readOnly hr (by omega) (by omega) (by omega)))
  · exact does_of_fresh (doRegisterWrite _ v) rfl (writeBar0_ignored (s := s.fresh) h)
  · exact does_of_fresh (doRegisterWrite .twinStat v) rfl (doRegisterWrite_twinStat (s := s.fresh) h)
  · refine does_of_fresh (doRegisterWrite .twinStat v) rfl (if_neg ?_)
    have howner : s.fresh.ownerServed = false := h
    simp [howner]
  · refine does_of_fresh (doRegisterWrite (.jetSched ch) v) rfl (if_pos ?_)
    exact Bool.and_eq_true_iff.2 ⟨h.1, decide_eq_true h.2⟩
  · refine does_of_fresh (doRegisterWrite (.jetSched ch) v) rfl (if_neg ?_)
    have hawake : s.fresh.awake = false ∨ 128 ≤ ch := h
    rcases hawake with h | h
    · simp [h]
    · simp [h]
  · exact does_of_fresh (doRegisterWrite (.jet j o) v) rfl (writeJet_register (s := s.fresh) hawake hj h)
  · exact does_of_fresh (doRegisterWrite (.jet j o) v) rfl (writeJet_store (s := s.fresh) hawake hj hlo hhi hidle)
  · exact does_of_fresh (doRegisterWrite (.jet j o) v) rfl (writeJet_off (s := s.fresh) h)
  · rw [writeReg_slot hk, hi]
    rfl
  · rw [writeReg_slot hk, hi]
    rfl

end Sys2Proof.Machine
end

section
/-! Jets: the pair's sharing, hangs and resets (O46), control instructions (O47), segment reads (O48), attention (O49) and
self-test instructions (O50). -/

namespace Sys2Proof.Machine

/-! ### Sharing of the pair (03 R100 to R102, 11 R357) -/

section
variable {j : Nat} {s : State} (hawake : s.awake = true) (hj : j < 8192)
include hawake hj

theorem onJet_eq (f : Jet → Jet) : s.onJet j f = s.setJet j (f (s.jet j)) :=
  if_pos (by simp [hawake, hj])

theorem doYreqRaise_eq (hyreq : (s.jet j).yreq = false) (hisolated : (s.jet j).isolated = false)
    (hseg : (s.jet j).segSince = true) (hown : (s.jet j).own = false) :
    doYreqRaise j s = s.setJet j { s.jet j with yreq := true, colsLeft := s.yieldCols j } := by
  rw [doYreqRaise, onJet_eq hawake hj]
  simp [hyreq, hisolated, hseg, hown]

theorem doYreqDrop_eq (hyreq : (s.jet j).yreq = true) (hown : (s.jet j).own = false) :
    doYreqDrop j s = s.setJet j { s.jet j with
      yreq := false, yielded := (s.jet j).yielded && (s.jet j).inFlight.isNone, segSince := false, colsLeft := 0
      own := (s.jet j).inFlight.isSome } := by
  rw [doYreqDrop, onJet_eq hawake hj]
  simp [hyreq, hown]

section
variable {a : OrdAccess} (hgrain : grainJet a.grain = j) (hown : (s.jet j).own = false)
  (hcols : (s.jet j).yreq = false ∨ a.cols ≤ (s.jet j).colsLeft)
include hgrain hown hcols

/-- An access within the yield's columns comes to the gate of its channel. -/
theorem doOrdinaryAccess_eq :
    doOrdinaryAccess j a s =
      if !s.gateAdmits (jetChannel j) a.tag (decide (a.kind = .hostRead)) then s.gateRefuse (jetChannel j) (a.tag.toNat % 16)
      else
        let t := if ordWrites a.kind && !a.bytes.isEmpty then
            s.putGrain a.grain (s.isMeta a.grain) (s.wgenOf a.grain (s.isMeta a.grain)) (patch (s.grain a.grain) 0 a.bytes)
          else s
        t.updJet j fun y => { y with colsLeft := y.colsLeft - a.cols } := by
  refine if_pos ?_
  rcases hcols with h | h <;> simp [hawake, hj, hgrain, hown, h]

theorem doOrdinaryAccess_refused (hgate : s.gateAdmits (jetChannel j) a.tag (decide (a.kind = .hostRead)) = false) :
    doOrdinaryAccess j a s = s.gateRefuse (jetChannel j) (a.tag.toNat % 16) := by
  rw [doOrdinaryAccess_eq hawake hj hgrain hown hcols, hgate]
  rfl

variable (hgate : s.gateAdmits (jetChannel j) a.tag (decide (a.kind = .hostRead)) = true)
include hgate

theorem doOrdinaryAccess_writes (hwrites : ordWrites a.kind = true) (hbytes : a.bytes ≠ []) :
    doOrdinaryAccess j a s =
      (s.putGrain a.grain (s.isMeta a.grain) (s.wgenOf a.grain (s.isMeta a.grain)) (patch (s.grain a.grain) 0 a.bytes)).updJet j
        fun y => { y with colsLeft := y.colsLeft - a.cols } := by
  rw [doOrdinaryAccess_eq hawake hj hgrain hown hcols, hgate, hwrites, List.isEmpty_eq_false_iff.2 hbytes]
  rfl

theorem doOrdinaryAccess_reads (hreads : ordWrites a.kind = false) :
    doOrdinaryAccess j a s = s.setJet j { s.jet j with colsLeft := (s.jet j).colsLeft - a.cols } := by
  rw [doOrdinaryAccess_eq hawake hj hgrain hown hcols, hgate, hreads]
  rfl

end

variable (hcompute : s.boot.computeDone = true)
include hcompute

theorem doJetReset_eq (passed : Bool) : doJetReset j passed s = s.resetJet j passed :=
  if_pos (by simp [hawake, hcompute, hj])

end

/-- Settles O46. -/
theorem jetPairAndHangs : Obligations.JetPairAndHangs := by
  unfold Obligations.JetPairAndHangs
  refine ⟨fun j s ha hj hyreq hiso hseg hown => ?_, fun j s ha hj hyreq hown => ?_,
    fun j a s ha hj hg hown hcols hgate hw hb => ?_, fun j a s ha hj hg hown hcols hgate hr => ?_,
    fun j a s ha hj hg hown hcols hgate => ?_, fun j c s ha hj hown hyreq hc => ?_, fun j c n s ha hj hrun hc => ?_,
    fun j n s ha hj hn => ?_, fun j s ha hd hj => ?_, fun j a b s ha hd hj hab => ?_, fun j t => rfl⟩
  · exact does_of_fresh (doYreqRaise j) rfl (doYreqRaise_eq (s := s.fresh) ha hj hyreq hiso hseg hown)
  · exact does_of_fresh (doYreqDrop j) rfl (doYreqDrop_eq (s := s.fresh) ha hj hyreq hown)
  · exact does_of_fresh (doOrdinaryAccess j a) rfl (doOrdinaryAccess_writes (s := s.fresh) ha hj hg hown hcols hgate hw hb)
  · exact does_of_fresh (doOrdinaryAccess j a) rfl (doOrdinaryAccess_reads (s := s.fresh) ha hj hg hown hcols hgate hr)
  · exact does_of_fresh (doOrdinaryAccess j a) rfl (doOrdinaryAccess_refused (s := s.fresh) ha hj hg hown hcols hgate)
  · exact does_of_fresh (fun t =>
        if t.awake && decide (j < 8192) && (t.jet j).own && (t.jet j).yreq && decide (t.ownLimit j < c) then t.hangJet j else t)
      rfl (if_pos (by simp only [Bool.and_eq_true, decide_eq_true_eq]; exact ⟨⟨⟨⟨ha, hj⟩, hown⟩, hyreq⟩, hc⟩))
  · exact does_of_fresh (fun t =>
        if t.awake && decide (j < 8192) && (t.jet j).running.isSome && decide (t.sweepLimit j < c) then t.hangJet j else t)
      rfl (if_pos (by
        simp only [Bool.and_eq_true, decide_eq_true_eq]
        exact ⟨⟨⟨ha, hj⟩, Option.isSome_iff_exists.2 ⟨n, hrun⟩⟩, hc⟩))
  · exact does_of_fresh (fun t => if t.awake && decide (j < 8192) && decide (1000 < n) then t.hangJet j else t)
      rfl (if_pos (by simp only [Bool.and_eq_true, decide_eq_true_eq]; exact ⟨⟨ha, hj⟩, hn⟩))
  · exact does_of_fresh (doJetReset j true) rfl (doJetReset_eq (s := s.fresh) ha hj hd true)
  · refine does_of_fresh (doJetReset j false) ?_ ((doJetReset_eq (s := s.fresh) ha hj hd false).trans rfl)
    rw [← hab]
    rfl

/-! ### The running slot of a jet (03 R111) -/

section
variable {j n : Nat} {s : State}

theorem runs_fresh (hruns : Claims.Runs j n s) : Claims.Runs j n s.fresh := hruns

theorem jetRun_eq (hruns : Claims.Runs j n s) (f : Jet → Nat → State) : s.jetRun j f = f (s.jet j) n := by
  obtain ⟨hawake, hj, hisolated, hrunning⟩ := hruns
  simp [State.jetRun, hawake, hj, hisolated, hrunning]

theorem jet_setJet (j : Nat) (x : Jet) (s : State) : (s.setJet j x).jet j = x := by
  simp [State.setJet, State.jet]

theorem setJet_setJet (j : Nat) (x y : Jet) (s : State) : (s.setJet j x).setJet j y = s.setJet j y := by
  simp [State.setJet, Tbl.set_set]

/-- What R111's test of a target answers. -/
theorem goto_ok_iff (x : Jet) (n : Nat) (imm : BitVec 18) :
    (if x.partKernel n then decide (1024 ≤ (imm.setWidth 11).toNat) || (imm.setWidth 11).toNat == slKernel (x.slot n)
      else decide ((imm.setWidth 11).toNat < 1024)) = true ↔ Claims.MayGo x n imm := by
  unfold Claims.MayGo Jet.partKernel
  by_cases h : 16 ≤ slKernel (x.slot n) <;> simp [h]

theorem jetGoto_goes {imm : BitVec 18} (h : Claims.MayGo (s.jet j) n imm) :
    s.jetGoto j n imm = s.setJet j { s.jet j with pc := imm.setWidth 11 } :=
  if_pos ((goto_ok_iff _ _ _).2 h)

theorem jetGoto_illegal {imm : BitVec 18} (h : ¬ Claims.MayGo (s.jet j) n imm) :
    s.jetGoto j n imm = s.endJet j n rsIllegal (faultAt 0) :=
  if_neg fun hok => h ((goto_ok_iff _ _ _).1 hok)

end

/-- An instruction of a jet that runs a slot acts on that slot. -/
theorem does_of_jetRun {i : Instr} {j n : Nat} {s : State} {f : State → State} {g : State → Jet → Nat → State}
    (hruns : Claims.Runs j n s) (h : exec i s = run s fun t => t.jetRun j (g t))
    (he : g s.fresh (s.fresh.jet j) n = f s.fresh) : Claims.Does i s f :=
  does_of_fresh (fun t => t.jetRun j (g t)) h ((jetRun_eq (s := s.fresh) (runs_fresh hruns) (g s.fresh)).trans he)

/-! ### Control instructions (03 R111 to R113) -/

theorem Jet.reg_zero (x : Jet) : x.reg 0#4 = 0#32 := if_pos rfl

theorem Jet.setReg_zero (x : Jet) (v : Word32) : x.setReg 0#4 v = x := if_pos rfl

theorem Jet.reg_setReg_same {x : Jet} {a : BitVec 4} {v : Word32} (ha : a ≠ 0#4) : (x.setReg a v).reg a = v := by
  simp [Jet.reg, Jet.setReg, ha]

theorem Jet.reg_setReg_other {x : Jet} {a b : BitVec 4} {v : Word32} (hba : b ≠ a) : (x.setReg a v).reg b = x.reg b := by
  by_cases ha : a = 0#4
  · rw [Jet.setReg, if_pos ha]
  · have hne : b.toNat ≠ a.toNat := fun h => hba (BitVec.eq_of_toNat_eq h)
    simp [Jet.reg, Jet.setReg, ha, Tbl.getD_set_ne _ _ _ hne]

/-- There are seven slot values. -/
theorem slotValue_none {v : BitVec 512} {i : Nat} (h : 7 ≤ i) : slotValue v i = none :=
  List.getElem?_eq_none h

/-- There are four entry fields. -/
theorem entryValue_none {e : BitVec 48} {i : Nat} (h : 4 ≤ i) : entryValue e i = none :=
  List.getElem?_eq_none h

theorem Jet.entryAt_none {x : Jet} {n : Nat} {b : BitVec 4} (h : slNent (x.slot n) ≤ (x.reg b).toNat) :
    x.entryAt n b = none :=
  if_neg (Nat.not_lt.2 h)

section
variable {j n : Nat} {s : State} {imm : BitVec 18} (hruns : Claims.Runs j n s)
include hruns

theorem doGets_value {a : BitVec 4} {v : Nat} (hv : slotValue ((s.jet j).slot n) imm.toNat = some v) :
    doGets j a imm s = s.setJet j ((s.jet j).setReg a (BitVec.ofNat 32 v)).step := by
  rw [doGets, jetRun_eq hruns, hv]

theorem doGets_format {a : BitVec 4} (himm : 7 ≤ imm.toNat) : doGets j a imm s = s.endJet j n rsFormat (faultAt 0) := by
  rw [doGets, jetRun_eq hruns, slotValue_none himm]
  rfl

theorem doGete_value {a b : BitVec 4} {e v : Nat} (he : (s.jet j).entryAt n b = some e)
    (hv : entryValue (slEntry ((s.jet j).slot n) e) imm.toNat = some v) :
    doGete j a b imm s = s.setJet j ((s.jet j).setReg a (BitVec.ofNat 32 v)).step := by
  rw [doGete, jetRun_eq hruns, he]
  dsimp only
  rw [hv]

theorem doGete_format {a b : BitVec 4} (h : slNent ((s.jet j).slot n) ≤ ((s.jet j).reg b).toNat ∨ 4 ≤ imm.toNat) :
    doGete j a b imm s = s.endJet j n rsFormat (faultAt 0) := by
  rw [doGete, jetRun_eq hruns]
  rcases h with h | h
  · rw [Jet.entryAt_none h]
    rfl
  · cases (s.jet j).entryAt n b with
    | none => rfl
    | some e =>
      dsimp only
      rw [entryValue_none h]
      rfl

theorem doStopb_branches (hpend : (s.jet j).stopPend = true) (htaken : (s.jet j).stopTaken = false) :
    doStopb j imm s = (s.setJet j { s.jet j with stopPend := false, stopTaken := true }).jetGoto j n imm := by
  rw [doStopb, jetRun_eq hruns, hpend, htaken]
  rfl

theorem doStopb_goes (hpend : (s.jet j).stopPend = true) (htaken : (s.jet j).stopTaken = false)
    (hmay : Claims.MayGo (s.jet j) n imm) :
    doStopb j imm s = s.setJet j { s.jet j with pc := imm.setWidth 11, stopPend := false, stopTaken := true } := by
  have hjet := jet_setJet j { s.jet j with stopPend := false, stopTaken := true } s
  have hmay' : Claims.MayGo ((s.setJet j { s.jet j with stopPend := false, stopTaken := true }).jet j) n imm := by
    rw [hjet]
    exact hmay
  rw [doStopb_branches hruns hpend htaken, jetGoto_goes hmay', hjet, setJet_setJet]

theorem doStopb_illegal (hpend : (s.jet j).stopPend = true) (htaken : (s.jet j).stopTaken = false)
    (hmay : ¬ Claims.MayGo (s.jet j) n imm) :
    doStopb j imm s =
      (s.setJet j { s.jet j with stopPend := false, stopTaken := true }).endJet j n rsIllegal (faultAt 0) := by
  have hjet := jet_setJet j { s.jet j with stopPend := false, stopTaken := true } s
  have hmay' : ¬ Claims.MayGo ((s.setJet j { s.jet j with stopPend := false, stopTaken := true }).jet j) n imm := by
    rw [hjet]
    exact hmay
  rw [doStopb_branches hruns hpend htaken, jetGoto_illegal hmay']

theorem doStopb_on (h : (s.jet j).stopPend = false ∨ (s.jet j).stopTaken = true) :
    doStopb j imm s = s.setJet j { s.jet j with pc := (s.jet j).pc + 1#11 } := by
  rw [doStopb, jetRun_eq hruns]
  refine if_neg ?_
  rcases h with h | h <;> simp [h]

end

/-- Settles O47. -/
theorem jetControl : Obligations.JetControl := by
  unfold Obligations.JetControl
  refine ⟨fun x a b v => ⟨x.reg_zero, x.setReg_zero v, Jet.reg_setReg_same, Jet.reg_setReg_other⟩, fun j n s hr => ?_,
    fun j n a imm s hr => ?_, fun j n a b imm s hr => ?_, fun j n v a imm s hr hv => ?_, fun j n a imm s hr himm => ?_,
    fun j n e v a b imm s hr he hv => ?_, fun j n a b imm s hr h => ?_,
    fun j n imm s hr hgo => ⟨?_, fun a b hab => ?_, fun a b hab => ?_, fun hp ht => ?_⟩,
    fun j n imm s hr hgo => ⟨?_, fun a b hab => ?_, fun a b hab => ?_, fun hp ht => ?_⟩,
    fun j n imm s hr => ⟨fun a b hab => ?_, fun a b hab => ?_, fun h => ?_⟩, fun j n o s hr ho => ?_⟩
  · exact does_of_jetRun (g := fun t x _ => t.setJet j x.step) hr rfl rfl
  · exact does_of_jetRun (g := fun t x _ => t.setJet j (x.setReg a (sext18 imm)).step) hr rfl rfl
  · exact does_of_jetRun (g := fun t x _ => t.setJet j (x.setReg a (x.reg b + sext18 imm)).step) hr rfl rfl
  · exact does_of_fresh (doGets j a imm) rfl (doGets_value (s := s.fresh) hr hv)
  · exact does_of_fresh (doGets j a imm) rfl (doGets_format (s := s.fresh) hr himm)
  · exact does_of_fresh (doGete j a b imm) rfl (doGete_value (s := s.fresh) hr he hv)
  · exact does_of_fresh (doGete j a b imm) rfl (doGete_format (s := s.fresh) hr h)
  · exact does_of_jetRun (g := fun t _ n => t.jetGoto j n imm) hr rfl (jetGoto_goes (s := s.fresh) hgo)
  · exact does_of_jetRun (g := fun t x n => if x.reg a = x.reg b then t.jetGoto j n imm else t.setJet j x.step) hr rfl
      ((if_pos hab).trans (jetGoto_goes (s := s.fresh) hgo))
  · exact does_of_jetRun (g := fun t x n => if x.reg a = x.reg b then t.setJet j x.step else t.jetGoto j n imm) hr rfl
      ((if_neg hab).trans (jetGoto_goes (s := s.fresh) hgo))
  · exact does_of_fresh (doStopb j imm) rfl (doStopb_goes (s := s.fresh) hr hp ht hgo)
  · exact does_of_jetRun (g := fun t _ n => t.jetGoto j n imm) hr rfl (jetGoto_illegal (s := s.fresh) hgo)
  · exact does_of_jetRun (g := fun t x n => if x.reg a = x.reg b then t.jetGoto j n imm else t.setJet j x.step) hr rfl
      ((if_pos hab).trans (jetGoto_illegal (s := s.fresh) hgo))
  · exact does_of_jetRun (g := fun t x n => if x.reg a = x.reg b then t.setJet j x.step else t.jetGoto j n imm) hr rfl
      ((if_neg hab).trans (jetGoto_illegal (s := s.fresh) hgo))
  · exact does_of_fresh (doStopb j imm) rfl (doStopb_illegal (s := s.fresh) hr hp ht hgo)
  · exact does_of_jetRun (g := fun t x n => if x.reg a = x.reg b then t.jetGoto j n imm else t.setJet j x.step) hr rfl (if_neg hab)
  · exact does_of_jetRun (g := fun t x n => if x.reg a = x.reg b then t.setJet j x.step else t.jetGoto j n imm) hr rfl (if_pos hab)
  · exact does_of_fresh (doStopb j imm) rfl (doStopb_on (s := s.fresh) hr h)
  · exact does_of_jetRun
      (g := fun t _ n => if jetOpcodes.contains o.toNat then t else t.endJet j n rsIllegal (faultAt 0)) hr rfl
      (if_neg (by simpa using ho))

/-! ### A read after a yield (03 R100, R113) -/

/-- A node in service whose jet 0 runs slot 0 and has yielded its pair since its last segment. -/
def State.yieldedJet : State :=
  { State.bareService with jets := [(0, { Jet.init with running := some 0, yielded := true })] }

theorem runs_yieldedJet : Claims.Runs 0 0 State.yieldedJet := ⟨rfl, by decide, rfl, rfl⟩

/-- A page entry's read that need not wait clears YIELDED. -/
theorem doRead_starts {j n e : Nat} {a : BitVec 4} {isV : Bool} {s : State} (hruns : Claims.Runs j n s)
    (hentry : (s.jet j).entryAt n a = some e) (hkind : enKind (slEntry ((s.jet j).slot n) e) = 0)
    (hgood : (s.jet j).badMask.getLsbD e = false) (hsegs : (s.jet j).segs.length < 2) (hyreq : (s.jet j).yreq = false) :
    doRead isV j a s = s.setJet j { s.jet j with
      segs := (s.jet j).segs ++ [{ entry := e, isV := isV, isBase := false, done := false, rows := [] }]
      own := true, yielded := false, pc := (s.jet j).pc + 1#11 } := by
  have hfree : ¬ (decide (2 ≤ (s.jet j).segs.length) || (s.jet j).yreq) = true := by simp [hyreq, hsegs]
  simp only [doRead, jetRun_eq hruns, hentry, hkind, hgood]
  exact if_neg hfree

/-- S0 names the first entry, which every command has. -/
theorem Jet.entryAt_zero (x : Jet) (n : Nat) : x.entryAt n 0#4 = some 0 := by
  rw [Jet.entryAt, Jet.reg_zero]
  exact if_pos (Nat.succ_pos _)

theorem kind_yieldedJet : enKind (slEntry ((State.yieldedJet.jet 0).slot 0) 0) = 0 := by
  have hslot : (State.yieldedJet.jet 0).slot 0 = 0#512 := rfl
  rw [hslot]
  simp [enKind, slEntry, fld, field]

/-- YIELDED of jet 0 in a command's next state. -/
def nextYielded : Host.Outcome State Fault Refusal → Bool
  | .next t => (t.jet 0).yielded
  | _ => false

theorem nextYielded_rdk (a : BitVec 4) (s : State) :
    nextYielded (exec (.rdk 0 a) s) = ((doRead false 0 a s.fresh).jet 0).yielded := rfl

theorem nextYielded_setJet (x : Jet) (s : State) (l : List Instr) :
    nextYielded (.next { s.setJet 0 x with pending := l }) = x.yielded := congrArg Jet.yielded (jet_setJet 0 x s)

/-- Refutes O48: a segment's read that starts clears YIELDED, which the statement leaves as it was. -/
theorem not_jetSegments : ¬ Obligations.JetSegments := by
  unfold Obligations.JetSegments
  rintro ⟨-, -, -, -, -, -, hread, -⟩
  obtain ⟨hkept, -⟩ := hread 0 0 0 0#4 State.yieldedJet runs_yieldedJet (Jet.entryAt_zero _ _) kind_yieldedJet rfl (by decide) rfl
  have hstarts := doRead_starts (s := State.yieldedJet.fresh) (isV := false) runs_yieldedJet (Jet.entryAt_zero _ _)
    kind_yieldedJet rfl (by decide) rfl
  have hcleared := nextYielded_rdk 0#4 State.yieldedJet
  rw [hstarts, jet_setJet] at hcleared
  rw [hkept, nextYielded_setJet] at hcleared
  exact absurd hcleared (by decide)

/-! ### The attention instructions (03 R86 to R88, R106 to R108) -/

section
variable {j n e : Nat} {a : BitVec 4} {s : State} (hruns : Claims.Runs j n s) (hentry : (s.jet j).entryAt n a = some e)
include hruns hentry

theorem doQk_none (hseg : (s.jet j).findSeg e false = none) : doQk j a s = s.endJet j n rsFormat (faultAt e) := by
  simp only [doQk, jetRun_eq hruns, hentry, hseg]

theorem doQk_eq {g : Seg} (hseg : (s.jet j).findSeg e false = some g) :
    doQk j a s =
      if !g.done then s
      else
        let v := (s.jet j).slot n
        let r := ((s.jet j).score v e (if (s.jet j).badMask.getLsbD e then [] else g.rows)).go
        (s.setJet j (r.1.takeSeg g).step).addSat (slPart v) r.2 := by
  simp only [doQk, jetRun_eq hruns, hentry, hseg]

theorem doPv_none (hseg : (s.jet j).findSeg e true = none) : doPv j a s = s.endJet j n rsFormat (faultAt e) := by
  simp only [doPv, jetRun_eq hruns, hentry, hseg]

theorem doPv_eq {g : Seg} (hseg : (s.jet j).findSeg e true = some g) :
    doPv j a s =
      if !g.done || (s.jet j).accBusy then s
      else
        let v := (s.jet j).slot n
        let r := ((s.jet j).accumulate v e (if (s.jet j).badMask.getLsbD e then [] else g.rows)).go
        (s.setJet j { (r.1.takeSeg g).step with pagesDone := (s.jet j).pagesDone + 1 }).addSat (slPart v) r.2 := by
  simp only [doPv, jetRun_eq hruns, hentry, hseg]

theorem doExps_eq (hkind : enKind (slEntry ((s.jet j).slot n) e) ≠ 2) :
    doExps j a s =
      if (s.jet j).segs.any fun g => g.entry == e && g.isV && !g.done then s
      else
        let v := (s.jet j).slot n
        let r := ((s.jet j).exponentiate v e ((s.jet j).badMask.getLsbD e)).go
        (s.setJet j r.1.step).addSat (slPart v) r.2 := by
  simp only [doExps, jetRun_eq hruns, hentry, hkind, if_false]

end

/-- A token outside the row's session, beyond VALID_M1 or outside the window is not attended (03 R96, R106). -/
theorem attends_false {x : Jet} {v : BitVec 512} {e r t : Nat}
    (h : enSess (slEntry v e) ≠ r / rowsPerSess v ∨ enValid (slEntry v e) < t ∨
      (slWindow v = true ∧ outOfWindow (x.rowpos v r) (x.tokpos v e + t) (slWinlen v) = true)) :
    x.attends v e r t = false := by
  unfold Jet.attends
  rcases h with h | h | ⟨hw, ho⟩
  · simp [h]
  · simp [Nat.not_le.2 h]
  · simp [hw, ho]

section
variable {j n : Nat} {s : State} (hruns : Claims.Runs j n s)
include hruns

theorem doEmit_busy {b : Bool} (hbusy : (s.jet j).accBusy = true) : doEmit j b s = s := by
  rw [doEmit, jetRun_eq hruns]
  exact if_pos hbusy

theorem doEmit_eq {b : Bool} (hbusy : (s.jet j).accBusy = false) :
    doEmit j b s =
      if b then
        s.setJet j { s.jet j with
          accBusy := true
          accSlot := some n
          outM := (List.range (slRows ((s.jet j).slot n))).map fun r => (r, (s.jet j).maxAt r)
          outL := (List.range (slRows ((s.jet j).slot n))).map fun r => (r, (s.jet j).sumAt r) }.step
      else
        let y := Config.residueSyndrome s.draws
        (({ s with draws := s.draws + 1 }.fault
          { code := 0x10, srcKind := 0, srcIndex := s.jetSource j, part := s.ownerOfGroup (jetGroup j), addr := 0,
            syndrome := y, place := some (.jet j) }).endJet j n rsResidue { faultAt 0 with syndrome := y }).isolateJet j := by
  rw [doEmit, jetRun_eq hruns]
  exact if_neg (ne_true_of_eq_false hbusy)

end

/-- Settles O49. -/
theorem jetAttention : Obligations.JetAttention := by
  unfold Obligations.JetAttention
  refine ⟨fun j n e a g s hr he hseg hdone => ?_,
    fun j n e a s hr he => ⟨fun g hseg hdone => ?_, fun g hseg h => ?_, fun hseg => ?_, fun hseg => ?_⟩,
    fun x v e r t h => attends_false h, fun j n e a s hr he hkind hall => ?_, fun j n e a s hr he hkind hex => ?_,
    fun j n e a g s hr he hseg hdone hbusy => ?_, fun j n b s hr hbusy => ?_, fun j n s hr hbusy => ?_,
    fun j n s hr hbusy => ?_⟩
  · refine does_of_fresh (doQk j a) rfl ((doQk_eq (s := s.fresh) hr he hseg).trans ?_)
    rw [hdone]
    rfl
  · refine does_of_fresh (doQk j a) rfl ((doQk_eq (s := s.fresh) hr he hseg).trans ?_)
    rw [hdone]
    rfl
  · refine does_of_fresh (doPv j a) rfl ((doPv_eq (s := s.fresh) hr he hseg).trans (if_pos ?_))
    have h' : g.done = false ∨ (s.fresh.jet j).accBusy = true := h
    rcases h' with h | h <;> simp [h]
  · exact does_of_fresh (doQk j a) rfl (doQk_none (s := s.fresh) hr he hseg)
  · exact does_of_fresh (doPv j a) rfl (doPv_none (s := s.fresh) hr he hseg)
  · refine does_of_fresh (doExps j a) rfl ((doExps_eq (s := s.fresh) hr he hkind).trans (if_neg ?_))
    have hall' : ∀ g ∈ (s.fresh.jet j).segs, g.entry = e → g.isV = true → g.done = true := hall
    simpa using hall'
  · refine does_of_fresh (doExps j a) rfl ((doExps_eq (s := s.fresh) hr he hkind).trans (if_pos ?_))
    have hex' : ∃ g ∈ (s.fresh.jet j).segs, g.entry = e ∧ g.isV = true ∧ g.done = false := hex
    simpa [and_assoc] using hex'
  · refine does_of_fresh (doPv j a) rfl ((doPv_eq (s := s.fresh) hr he hseg).trans (if_neg ?_))
    have hbusy' : (s.fresh.jet j).accBusy = false := hbusy
    simp [hdone, hbusy']
  · exact does_of_fresh (doEmit j b) rfl (doEmit_busy (s := s.fresh) hr hbusy)
  · exact does_of_fresh (doEmit j true) rfl (doEmit_eq (s := s.fresh) hr hbusy)
  · exact does_of_fresh (doEmit j false) rfl (doEmit_eq (s := s.fresh) hr hbusy)

/-! ### The self-test instructions (03 R82, R111, R113) -/

section
variable {j n : Nat} {s : State} {kernels : List Nat} (hruns : Claims.Runs j n s) (f : Jet → Nat → State)
include hruns

/-- A kernel that may not execute a self-test instruction ends with ILLEGAL. -/
theorem jetTest_illegal (h : 16 ≤ slKernel ((s.jet j).slot n) ∨ slKernel ((s.jet j).slot n) ∉ kernels) :
    s.jetTest j kernels f = s.endJet j n rsIllegal (faultAt 0) := by
  rw [State.jetTest, jetRun_eq hruns]
  refine if_pos ?_
  rcases h with h | h <;> simp [Jet.partKernel, h]

theorem jetTest_eq (hkernel : slKernel ((s.jet j).slot n) < 16) (hmem : slKernel ((s.jet j).slot n) ∈ kernels) :
    s.jetTest j kernels f = f (s.jet j) n := by
  rw [State.jetTest, jetRun_eq hruns]
  refine if_neg ?_
  simp [Jet.partKernel, hmem, hkernel]

end

theorem endBist_eq (j n : Nat) (s : State) : s.endBist j n = Claims.bist j n s := rfl

section
variable {j n : Nat} {a b : BitVec 4} {imm : BitVec 18} {s : State} (hruns : Claims.Runs j n s)
include hruns

section
variable (hkernel : slKernel ((s.jet j).slot n) = 15)
include hkernel

theorem bankTest_eq (f : Jet → Nat → State) : s.jetTest j bankTest f = f (s.jet j) n := by
  refine jetTest_eq hruns f ?_ ?_
  · rw [hkernel]
    decide
  · rw [hkernel]
    decide

theorem doPatw_hidden (hhidden : s.rowHidden j ((s.jet j).reg a).toNat = true) :
    doPatw j a imm s = s.setJet j { s.jet j with
      pats := Tbl.set (s.jet j).pats ((s.jet j).reg a).toNat (imm.toNat % 256), pc := (s.jet j).pc + 1#11 } := by
  rw [doPatw, bankTest_eq hruns hkernel]
  exact if_pos hhidden

theorem doPatw_row (hrow : s.rowHidden j ((s.jet j).reg a).toNat = false) :
    doPatw j a imm s =
      let p : Byte := BitVec.ofNat 8 (imm.toNat % 256)
      (s.each (rowGrains j ((s.jet j).reg a).toNat) fun u g =>
        { u with mem := Memory.write u.mem (512 * g) (List.replicate 512 p), side := sidePut u.side g (patSide p) }).updJet j
        fun x => { x with pc := x.pc + 1#11 } := by
  rw [doPatw, bankTest_eq hruns hkernel]
  exact if_neg (ne_true_of_eq_false hrow)

theorem doCpyrow_format (h : 16384 ≤ ((s.jet j).reg a).toNat ∨ 8 ≤ ((s.jet j).reg b).toNat) :
    doCpyrow j a b s = s.endJet j n rsFormat (faultAt 0) := by
  rw [doCpyrow, bankTest_eq hruns hkernel]
  refine if_pos ?_
  rcases h with h | h <;> simp [h]

theorem doCpyrow_copies (hrow : ((s.jet j).reg a).toNat < 16384) (hspare : ((s.jet j).reg b).toNat < 8) :
    doCpyrow j a b s =
      let r := ((s.jet j).reg a).toNat
      let u := s.each (rowGrains j r) fun u g =>
        if sideTag (u.sideOf g) = crc32c (u.grain g) then u
        else u.failGrain 0x03 0 (s.jetSource j) g (crc32c (u.grain g) ++ sideTag (u.sideOf g))
      ({ u with spares := { u.spares with
        rowCopy := Tbl.set (Tbl.set u.spares.rowCopy (j * 2 ^ 17 + 8 * r) ((s.jet j).reg b).toNat) (j * 2 ^ 17 + 8 * r + 1)
          ((s.jet j).reg b).toNat } }).updJet j fun x => { x with pc := x.pc + 1#11 } := by
  rw [doCpyrow, bankTest_eq hruns hkernel]
  refine if_neg ?_
  simp [hrow, hspare]

end

/-- PATR in the kernels that may run it: the row is compared with the pattern. -/
theorem doPatr_eq {stuck : Bool} (hkernel : slKernel ((s.jet j).slot n) ∈ [14, 15]) :
    doPatr j a imm stuck s =
      let same := if s.rowHidden j ((s.jet j).reg a).toNat then
          Tbl.get? (s.jet j).pats ((s.jet j).reg a).toNat == some (imm.toNat % 256)
        else (rowGrains j ((s.jet j).reg a).toNat).all fun g =>
          s.grain g == List.replicate 512 (BitVec.ofNat 8 (imm.toNat % 256))
      if same && !stuck then s.setJet j (s.jet j).step else s.endBist j n := by
  have hlt : slKernel ((s.jet j).slot n) < 16 := by
    simp only [List.mem_cons, List.not_mem_nil, or_false] at hkernel
    omega
  exact jetTest_eq hruns _ hlt hkernel

section
variable (hkernel : slKernel ((s.jet j).slot n) ∈ [14, 15])
include hkernel

theorem doPatr_stuck : doPatr j a imm true s = s.endBist j n := by
  rw [doPatr_eq hruns hkernel]
  exact if_neg (by rw [Bool.not_true, Bool.and_false]; decide)

section
variable (hrow : s.rowHidden j ((s.jet j).reg a).toNat = false)
include hrow

theorem doPatr_same (hsame : ∀ g ∈ rowGrains j ((s.jet j).reg a).toNat,
      s.grain g = List.replicate 512 (BitVec.ofNat 8 (imm.toNat % 256))) :
    doPatr j a imm false s = s.setJet j { s.jet j with pc := (s.jet j).pc + 1#11 } := by
  have hall : ((rowGrains j ((s.jet j).reg a).toNat).all fun g =>
      s.grain g == List.replicate 512 (BitVec.ofNat 8 (imm.toNat % 256))) = true := by
    simpa only [List.all_eq_true, beq_iff_eq] using hsame
  rw [doPatr_eq hruns hkernel, hrow, hall]
  rfl

theorem doPatr_differs {g : Nat} {stuck : Bool} (hg : g ∈ rowGrains j ((s.jet j).reg a).toNat)
    (hdiff : s.grain g ≠ List.replicate 512 (BitVec.ofNat 8 (imm.toNat % 256))) :
    doPatr j a imm stuck s = s.endBist j n := by
  have hall : ((rowGrains j ((s.jet j).reg a).toNat).all fun g =>
      s.grain g == List.replicate 512 (BitVec.ofNat 8 (imm.toNat % 256))) = false := by
    rw [List.all_eq_false]
    exact ⟨g, hg, by simpa only [beq_iff_eq] using hdiff⟩
  rw [doPatr_eq hruns hkernel, hrow, hall]
  rfl

end

section
variable (hhidden : s.rowHidden j ((s.jet j).reg a).toNat = true)
include hhidden

theorem doPatr_hiddenSame (hpat : Tbl.get? (s.jet j).pats ((s.jet j).reg a).toNat = some (imm.toNat % 256)) :
    doPatr j a imm false s = s.setJet j { s.jet j with pc := (s.jet j).pc + 1#11 } := by
  rw [doPatr_eq hruns hkernel, hhidden, hpat]
  exact if_pos (by rw [if_pos rfl, beq_self_eq_true]; rfl)

theorem doPatr_hiddenDiffers (hpat : Tbl.get? (s.jet j).pats ((s.jet j).reg a).toNat ≠ some (imm.toNat % 256)) :
    doPatr j a imm false s = s.endBist j n := by
  rw [doPatr_eq hruns hkernel, hhidden]
  exact if_neg (by rw [if_pos rfl, beq_eq_false_iff_ne.2 hpat]; decide)

end

end

theorem doArrt_eq {passed : Bool} (hkernel : slKernel ((s.jet j).slot n) < 16) :
    doArrt j imm passed s = if passed then s.setJet j (s.jet j).step else s.endBist j n :=
  jetTest_eq hruns _ hkernel (List.mem_range.2 hkernel)

end

/-- Settles O50. -/
theorem jetSelfTest : Obligations.JetSelfTest := by
  unfold Obligations.JetSelfTest
  refine ⟨fun j n a b imm q s hr hk => ⟨?_, ?_, ?_, ?_⟩, fun j n a b imm q s hr hk => ⟨fun h => ⟨?_, ?_⟩, fun h => ?_⟩,
    fun j n a b s hr hk => ⟨fun ha hb => ?_, fun h => ?_⟩, fun j n a imm s hr hk hrow => ?_,
    fun j n a imm s hr hk hrow hsame => ?_, fun j n a imm s hr hk hrow => ⟨?_, fun h => ?_, fun h => ?_⟩,
    fun j n g a imm b s hr hk hrow hg hdiff => ?_, fun j n a imm s hr hk => ?_, fun j n imm s hr hk => ⟨?_, ?_⟩⟩
  · exact does_of_fresh (doCpyrow j a b) rfl (jetTest_illegal (s := s.fresh) hr _ (.inl hk))
  · exact does_of_fresh (doPatw j a imm) rfl (jetTest_illegal (s := s.fresh) hr _ (.inl hk))
  · exact does_of_fresh (doPatr j a imm q) rfl (jetTest_illegal (s := s.fresh) hr _ (.inl hk))
  · exact does_of_fresh (doArrt j imm q) rfl (jetTest_illegal (s := s.fresh) hr _ (.inl hk))
  · exact does_of_fresh (doCpyrow j a b) rfl (jetTest_illegal (s := s.fresh) hr _ (.inr (List.mem_singleton.not.2 h)))
  · exact does_of_fresh (doPatw j a imm) rfl (jetTest_illegal (s := s.fresh) hr _ (.inr (List.mem_singleton.not.2 h)))
  · refine does_of_fresh (doPatr j a imm q) rfl (jetTest_illegal (s := s.fresh) hr _ (.inr fun hmem => ?_))
    simp only [selfTests, List.mem_cons, List.not_mem_nil, or_false] at hmem
    have h' : slKernel ((s.fresh.jet j).slot n) < 14 := h
    omega
  · exact does_of_fresh (doCpyrow j a b) rfl (doCpyrow_copies (s := s.fresh) hr hk ha hb)
  · exact does_of_fresh (doCpyrow j a b) rfl (doCpyrow_format (s := s.fresh) hr hk h)
  · exact does_of_fresh (doPatw j a imm) rfl (doPatw_row (s := s.fresh) hr hk hrow)
  · exact does_of_fresh (doPatr j a imm false) rfl (doPatr_same (s := s.fresh) hr hk hrow hsame)
  · exact does_of_fresh (doPatw j a imm) rfl (doPatw_hidden (s := s.fresh) hr hk hrow)
  · exact does_of_fresh (doPatr j a imm false) rfl
      (doPatr_hiddenSame (s := s.fresh) hr (by rw [show slKernel ((s.fresh.jet j).slot n) = 15 from hk]; decide) hrow h)
  · exact does_of_fresh (doPatr j a imm false) rfl
      (doPatr_hiddenDiffers (s := s.fresh) hr (by rw [show slKernel ((s.fresh.jet j).slot n) = 15 from hk]; decide) hrow h)
  · exact does_of_fresh (doPatr j a imm b) rfl (doPatr_differs (s := s.fresh) hr hk hrow hg hdiff)
  · exact does_of_fresh (doPatr j a imm true) rfl (doPatr_stuck (s := s.fresh) hr hk)
  · exact does_of_fresh (doArrt j imm true) rfl (doArrt_eq (s := s.fresh) hr hk)
  · exact does_of_fresh (doArrt j imm false) rfl (doArrt_eq (s := s.fresh) hr hk)

end Sys2Proof.Machine
end

section
/-! Receiving frames (O51), and what the frames of each opcode do when they come in order (O52, O53, O54). -/

namespace Sys2Proof.Machine

/-! ### The steps of 08 R239 -/

theorem run_doFrame {mine : Bool} {g f : Frame} {s : State} (h : (if mine then some g else none) = some f) :
    run s (doFrame mine g) = run s fun t => t.receive f := by
  obtain ⟨hmine, hg⟩ := Option.ite_none_right_eq_some.1 h
  rw [hmine, Option.some.inj hg]
  rfl

/-- A frame command receives its frame. -/
theorem exec_of_frameOf {i : Instr} {f : Frame} {s : State} (h : Claims.frameOf i s = some f) :
    exec i s = run s fun t => t.receive f := by
  unfold Claims.frameOf at h
  split at h
  any_goals exact run_doFrame h
  cases h

section
variable {f : Frame} {s : State}

theorem receive_unserved (h : ¬ Claims.Served f.port s) : s.receive f = s := by
  refine if_pos ?_
  unfold Claims.Served at h
  simp only [Bool.not_eq_true', Bool.and_eq_false_iff, decide_eq_false_iff_not]
  by_cases hserving : s.serving = true
  · by_cases hport : f.port < 24
    · exact .inr (Bool.eq_false_iff.2 fun hup => h ⟨hserving, hport, hup⟩)
    · exact .inl (.inr hport)
  · exact .inl (.inl (Bool.eq_false_iff.2 hserving))

variable (hserved : Claims.Served f.port s)
include hserved

theorem receive_served :
    s.receive f = match s.wireFault f with
      | some n => s.countPort f.port n 1
      | none =>
        if f.hdr.rclass = 3#2 && !isCtl f.hdr && !(s.port f.port).held.isEmpty then s.holdFrame f
        else match s.rxFrame f with
          | none => s.holdFrame f
          | some t => if f.hdr.rclass = 1#2 then (t.drainReorder 64).paceMirror else t := by
  obtain ⟨hserving, hport, hup⟩ := hserved
  exact if_neg (by simp [hserving, hport, hup])

theorem receive_faulty {n : Nat} (hwire : s.wireFault f = some n) : s.receive f = s.countPort f.port n 1 := by
  rw [receive_served hserved, hwire]

theorem receive_behind (hwire : s.wireFault f = none) (hclass : f.hdr.rclass = 3#2) (hctl : isCtl f.hdr = false)
    (hheld : (s.port f.port).held ≠ []) : s.receive f = s.holdFrame f := by
  rw [receive_served hserved, hwire]
  exact if_pos (by simp [hclass, hctl, hheld])

end

section
variable {f : Frame} {s : State} (harrives : Claims.Arrives f s)
include harrives

theorem receive_arrives :
    s.receive f = match s.rxFrame f with
      | none => s.holdFrame f
      | some t => Claims.after f t := by
  obtain ⟨hserved, hwire, hfirst⟩ := harrives
  have hgo : ¬ (f.hdr.rclass = 3#2 && !isCtl f.hdr && !(s.port f.port).held.isEmpty) = true := by
    intro h
    simp only [Bool.and_eq_true, decide_eq_true_eq, Bool.not_eq_true', List.isEmpty_eq_false_iff] at h
    obtain ⟨⟨hclass, hctl⟩, hheld⟩ := h
    exact hheld (hfirst hclass hctl)
  rw [receive_served hserved, hwire]
  exact if_neg hgo

theorem receive_unauthentic {u : State} (hauth : s.authenticate f = (u, none)) : s.receive f = Claims.after f u := by
  rw [receive_arrives harrives, State.rxFrame, hauth]

section
variable {u : State} {pt : List Byte} (hauth : s.authenticate f = (u, some pt))
include hauth

theorem receive_takes {v : State} (hseq : u.rxSeq f pt = some v) : s.receive f = Claims.after f v := by
  rw [receive_arrives harrives, State.rxFrame, hauth]
  dsimp only
  rw [hseq]

theorem receive_holds (hseq : u.rxSeq f pt = none) : s.receive f = s.holdFrame f := by
  rw [receive_arrives harrives, State.rxFrame, hauth]
  dsimp only
  rw [hseq]

end

end

/-! ### Steps 6 and 7 (08 R253 to R257) -/

section
variable {f : Frame} {u : State} {pt : List Byte}

theorem rxSeq_ctl (hctl : isCtl f.hdr = true) :
    u.rxSeq f pt = some (if f.hdr.opcode = opAck then u.takeAck f.hdr.src.toNat f.hdr.rclass.toNat f.hdr
      else u.takeNak f.hdr.src.toNat f.hdr.rclass.toNat f.hdr) :=
  if_pos hctl

variable (hctl : isCtl f.hdr = false)
include hctl

theorem rxSeq_sync (hsync : isVoidSync f.hdr = true)
    (h : (Claims.flow f u).synced = false ∨ (Claims.flow f u).inc ≠ f.hdr.imm ∨
      (0 < seqAhead (Claims.flow f u).e f.hdr.seq ∧ seqAhead (Claims.flow f u).e f.hdr.seq < 2 ^ 23)) :
    u.rxSeq f pt = some (u.syncRx f.hdr) := by
  refine (if_neg (ne_true_of_eq_false hctl)).trans (if_pos ?_)
  simp only [Bool.and_eq_true, Bool.or_eq_true, Bool.not_eq_true', bne_iff_ne, decide_eq_true_eq]
  exact ⟨hsync, by rcases h with h | h | h; exacts [.inl (.inl h), .inl (.inr h), .inr h]⟩

/-- A frame that does not synchronise its flow goes by its place. -/
theorem rxSeq_placed
    (hsync : (isVoidSync f.hdr && (!(Claims.flow f u).synced || (Claims.flow f u).inc != f.hdr.imm ||
      decide (1 ≤ seqAhead (Claims.flow f u).e f.hdr.seq ∧ seqAhead (Claims.flow f u).e f.hdr.seq < 2 ^ 23))) = false) :
    u.rxSeq f pt =
      if u.reorders f then
        some (if u.wt.reorder.any fun g => g.hdr.seq == f.hdr.seq then u
              else { u with wt := { u.wt with reorder := u.wt.reorder ++ [f] } })
      else if seqAhead (Claims.flow f u).e f.hdr.seq = 0 then u.rxInOrder f.hdr pt
      else if seqAhead (Claims.flow f u).e f.hdr.seq < 2 ^ 23 then some (u.oosRx f.hdr)
      else some (u.dupRx f.hdr) :=
  (if_neg (ne_true_of_eq_false hctl)).trans (if_neg (ne_true_of_eq_false hsync))

theorem rxSeq_reorders (hvoid : f.hdr.void = false) (hreorders : u.reorders f = true)
    (hnew : ∀ g ∈ u.wt.reorder, g.hdr.seq ≠ f.hdr.seq) :
    u.rxSeq f pt = some { u with wt := { u.wt with reorder := u.wt.reorder ++ [f] } } := by
  have hany : ¬ (u.wt.reorder.any fun g => g.hdr.seq == f.hdr.seq) = true := by simpa using hnew
  rw [rxSeq_placed hctl (by simp [isVoidSync, hvoid]), hreorders, if_pos rfl, if_neg hany]

variable (hreorders : u.reorders f = false)
include hreorders

theorem rxSeq_inOrder
    (hsync : isVoidSync f.hdr = false ∨ ((Claims.flow f u).synced = true ∧ (Claims.flow f u).inc = f.hdr.imm))
    (he : seqAhead (Claims.flow f u).e f.hdr.seq = 0) : u.rxSeq f pt = u.rxInOrder f.hdr pt := by
  have hplaced : (isVoidSync f.hdr && (!(Claims.flow f u).synced || (Claims.flow f u).inc != f.hdr.imm ||
      decide (1 ≤ seqAhead (Claims.flow f u).e f.hdr.seq ∧ seqAhead (Claims.flow f u).e f.hdr.seq < 2 ^ 23))) = false := by
    rcases hsync with h | ⟨hsynced, hinc⟩
    · simp [h]
    · simp [hsynced, hinc, he]
  rw [rxSeq_placed hctl hplaced, hreorders, if_neg Bool.false_ne_true, if_pos he]

variable (hsync : isVoidSync f.hdr = false)
include hsync

theorem rxSeq_beyond (hlo : 0 < seqAhead (Claims.flow f u).e f.hdr.seq)
    (hhi : seqAhead (Claims.flow f u).e f.hdr.seq < 2 ^ 23) : u.rxSeq f pt = some (u.oosRx f.hdr) := by
  rw [rxSeq_placed hctl (by simp [hsync]), hreorders, if_neg Bool.false_ne_true, if_neg (Nat.pos_iff_ne_zero.1 hlo), if_pos hhi]

theorem rxSeq_below (h : 2 ^ 23 ≤ seqAhead (Claims.flow f u).e f.hdr.seq) : u.rxSeq f pt = some (u.dupRx f.hdr) := by
  have hpos : seqAhead (Claims.flow f u).e f.hdr.seq ≠ 0 := by omega
  rw [rxSeq_placed hctl (by simp [hsync]), hreorders, if_neg Bool.false_ne_true, if_neg hpos, if_neg (Nat.not_lt.2 h)]

end

section
variable {h : Hdr} {u : State} {pt : List Byte}

theorem rxInOrder_void (hvoid : h.void = true) :
    u.rxInOrder h pt =
      (let v := u.dropOpen h.src.toNat h.rclass.toNat
       some ((v.setRx h.src.toNat h.rclass.toNat { v.rx h.src.toNat h.rclass.toNat with
         discard := (u.rx h.src.toNat h.rclass.toNat).discard && !h.last && !h.sync }).acceptRx h
           (((u.rx h.src.toNat h.rclass.toNat).e + 1) % 2 ^ 40))) :=
  if_pos hvoid

theorem rxInOrder_message (hvoid : h.void = false) (hkeep : (u.rx h.src.toNat h.rclass.toNat).discard = false) :
    u.rxInOrder h pt = match u.rxSteps h pt with
      | .hold => none
      | .ok t => some (t.acceptRx h (((u.rx h.src.toNat h.rclass.toNat).e + 1) % 2 ^ 40))
      | .bad st t => some (if (u.rx h.src.toNat h.rclass.toNat).refusal.isSome then u else t.refuseRx h st) :=
  (if_neg (ne_true_of_eq_false hvoid)).trans (if_neg (ne_true_of_eq_false hkeep))

end

/-- The frame that its flow expects goes through steps 8 to 12. -/
theorem rxSeq_expected {f : Frame} {u : State} {pt : List Byte} (hexp : Claims.Expected f u) :
    u.rxSeq f pt = match u.rxSteps f.hdr pt with
      | .hold => none
      | .ok t => some (t.acceptRx f.hdr (((Claims.flow f u).e + 1) % 2 ^ 40))
      | .bad st t => some (if (Claims.flow f u).refusal.isSome then u else t.refuseRx f.hdr st) := by
  obtain ⟨hctl, hvoid, he, hkeep, hreorders⟩ := hexp
  have hsync : isVoidSync f.hdr = false := by rw [isVoidSync, hvoid, Bool.false_and]
  exact (rxSeq_inOrder hctl hreorders (.inl hsync) he).trans (rxInOrder_message hvoid hkeep)

/-! ### The next state of a frame command -/

section
variable {i : Instr} {f : Frame} {s : State} (hframe : Claims.frameOf i s = some f)
include hframe

theorem does_of_receive {g : State → State} (h : s.fresh.receive f = g s.fresh) : Claims.Does i s g :=
  does_of_fresh (fun t => t.receive f) (exec_of_frameOf hframe) h

/-- A frame command answers what its frame makes of the state. -/
theorem exec_eq_next_of_receive {v : State} (h : s.fresh.receive f = v) :
    exec i s = .next { v with pending := s.pending } := by
  rw [exec_of_frameOf hframe, ← h]
  rfl

end

/-- Settles O51. -/
theorem frameSteps : Obligations.FrameSteps := by
  unfold Obligations.FrameSteps
  intro i f s hframe
  refine ⟨fun hno => does_of_receive hframe (receive_unserved (s := s.fresh) hno),
    fun n hserved hwire => does_of_receive hframe (receive_faulty (s := s.fresh) hserved hwire),
    fun hserved hwire hclass hctl hheld => does_of_receive hframe (receive_behind (s := s.fresh) hserved hwire hclass hctl hheld),
    fun harr u hauth => exec_eq_next_of_receive hframe (receive_unauthentic (s := s.fresh) harr hauth),
    fun harr u pt hauth => ?_⟩
  have next {v : State} (hseq : u.rxSeq f pt = some v) : exec i s = .next { Claims.after f v with pending := s.pending } :=
    exec_eq_next_of_receive hframe (receive_takes (s := s.fresh) harr hauth hseq)
  refine ⟨fun hctl => next (rxSeq_ctl hctl), fun hctl hsync h => next (rxSeq_sync hctl hsync h),
    fun hctl hvoid hsync he hreorders => next ?_, fun hexp v hok => next ?_, fun hexp v st hbad hrefusal => next ?_,
    fun hexp hhold => ?_, fun hctl hsync hreorders hlo hhi => next (rxSeq_beyond hctl hreorders hsync hlo hhi),
    fun hctl hsync hreorders h => next (rxSeq_below hctl hreorders hsync h),
    fun hctl hvoid hreorders hnew => next (rxSeq_reorders hctl hvoid hreorders hnew)⟩
  · refine (rxSeq_inOrder hctl hreorders (hsync.imp_left fun h => ?_) he).trans (rxInOrder_void hvoid)
    rw [isVoidSync, h, Bool.and_false]
  · rw [rxSeq_expected hexp, hok]
  · rw [rxSeq_expected hexp, hbad]
    dsimp only
    rw [hrefusal]
    rfl
  · refine does_of_receive hframe (receive_holds (s := s.fresh) harr hauth ?_)
    rw [rxSeq_expected hexp, hhold]

/-! ### Frames in order -/

section
variable {i : Instr} {f : Frame} {s u : State} {pt : List Byte} (horder : Claims.InOrder i f s u pt)
include horder

theorem took_of_rxSteps {v : State} (h : u.rxSteps f.hdr pt = .ok v) : Claims.Took i f s u v := by
  obtain ⟨hframe, harr, hauth, hexp⟩ := horder
  refine exec_eq_next_of_receive hframe (receive_takes (s := s.fresh) harr hauth ?_)
  rw [rxSeq_expected hexp, h]

theorem refused_of_rxSteps {v : State} {st : Nat} (h : u.rxSteps f.hdr pt = .bad st v)
    (hrefusal : (Claims.flow f u).refusal = none) : Claims.Refused i f s v st := by
  obtain ⟨hframe, harr, hauth, hexp⟩ := horder
  refine exec_eq_next_of_receive hframe (receive_takes (s := s.fresh) harr hauth ?_)
  rw [rxSeq_expected hexp, h]
  dsimp only
  rw [hrefusal]
  rfl

theorem holds_of_rxSteps (h : u.rxSteps f.hdr pt = .hold) : Claims.Does i s fun t => t.holdFrame f := by
  obtain ⟨hframe, harr, hauth, hexp⟩ := horder
  refine does_of_receive hframe (receive_holds (s := s.fresh) harr hauth ?_)
  rw [rxSeq_expected hexp, h]

end

/-- The message in hand with a frame's payload. -/
def State.withFrame (u : State) (h : Hdr) (pt : List Byte) : OpenMsg :=
  match (u.rx h.src.toNat h.rclass.toNat).msg with
  | some m => { m with payload := m.payload ++ pt }
  | none => { hdr := h, payload := pt, queue := noQueue, ring := 0, tagBad := false }

/-- What step 12 does with a checked frame that is no request and no READ_REQ. -/
def State.rxEffect (u : State) (h : Hdr) (pt : List Byte) : RxRes :=
  if h.opcode = opWrite then
    (match u.writeWindow h.window.toNat h.offset.toNat pt with
     | some t => RxRes.ok t
     | none => .bad stTag (u.writeFailed h.window.toNat h.offset.toNat pt))
  else if h.opcode = opWriteImm then u.rxWriteImm h pt
  else if h.last then u.rxMessage (u.withFrame h pt).hdr (u.withFrame h pt).payload
  else .ok u

section
variable {h : Hdr} {u : State} {pt : List Byte}

theorem frameFields_defined (hfields : u.frameFields h pt = true) : definedOpcodes.contains h.opcode = true := by
  simp only [State.frameFields, Bool.and_eq_true] at hfields
  exact hfields.1.1.1.1.1.1.1.1.1.1

variable (hchecked : Claims.Checked h pt u)
include hchecked

theorem rxSteps_read (hread : h.opcode = opReadReq) : u.rxSteps h pt = u.rxRead h pt := by
  obtain ⟨hwindow, hfields, hframing, hptag⟩ := hchecked
  unfold State.rxSteps
  simp only [hwindow, hfields, hframing, hread]
  rfl

theorem rxSteps_checked (hreq : requestOpcodes.contains h.opcode = false) (hread : h.opcode ≠ opReadReq) :
    u.rxSteps h pt = match u.rxEffect h pt with
      | .ok t => .ok (Claims.opened h pt u t)
      | .bad st t => .bad st t
      | .hold => .hold := by
  obtain ⟨hwindow, hfields, hframing, hptag⟩ := hchecked
  unfold State.rxSteps
  simp only [hreq, hwindow, frameFields_defined hfields, hfields, hframing, hptag, hread]
  rfl

end

section
variable {h : Hdr} {u : State} {pt : List Byte}

theorem rxEffect_write (hop : h.opcode = opWrite) :
    u.rxEffect h pt = match u.writeWindow h.window.toNat h.offset.toNat pt with
      | some t => RxRes.ok t
      | none => .bad stTag (u.writeFailed h.window.toNat h.offset.toNat pt) :=
  if_pos hop

theorem rxEffect_writeImm (hop : h.opcode = opWriteImm) : u.rxEffect h pt = u.rxWriteImm h pt :=
  (if_neg (by rw [hop]; decide)).trans (if_pos hop)

variable (hwrite : h.opcode ≠ opWrite) (himm : h.opcode ≠ opWriteImm)
include hwrite himm

theorem rxEffect_more (hlast : h.last = false) : u.rxEffect h pt = .ok u :=
  (if_neg hwrite).trans ((if_neg himm).trans (if_neg (ne_true_of_eq_false hlast)))

theorem rxEffect_message (hlast : h.last = true) (hmsg : (u.rx h.src.toNat h.rclass.toNat).msg = none) :
    u.rxEffect h pt = u.rxMessage h pt := by
  refine (if_neg hwrite).trans ((if_neg himm).trans ((if_pos hlast).trans ?_))
  rw [State.withFrame, hmsg]

end

section
variable {i : Instr} {f : Frame} {s u : State} {pt : List Byte} (horder : Claims.InOrder i f s u pt)
  (hchecked : Claims.Checked f.hdr pt u) (hreq : requestOpcodes.contains f.hdr.opcode = false)
  (hread : f.hdr.opcode ≠ opReadReq)
include horder hchecked hreq hread

theorem took_of_rxEffect {v : State} (h : u.rxEffect f.hdr pt = .ok v) :
    Claims.Took i f s u (Claims.opened f.hdr pt u v) :=
  took_of_rxSteps horder (by rw [rxSteps_checked hchecked hreq hread, h])

theorem refused_of_rxEffect {v : State} {st : Nat} (h : u.rxEffect f.hdr pt = .bad st v)
    (hrefusal : (Claims.flow f u).refusal = none) : Claims.Refused i f s v st :=
  refused_of_rxSteps horder (by rw [rxSteps_checked hchecked hreq hread, h]) hrefusal

theorem holds_of_rxEffect (h : u.rxEffect f.hdr pt = .hold) : Claims.Does i s fun t => t.holdFrame f :=
  holds_of_rxSteps horder (by rw [rxSteps_checked hchecked hreq hread, h])

end

/-! ### The opcode of a command's frame -/

theorem opcode_of_isFrameOf {op : BitVec 8} {f : Frame} (h : isFrameOf op f = true) : f.hdr.opcode = op := by
  simp only [isFrameOf, Bool.and_eq_true, beq_iff_eq] at h
  exact h.2

/-- The condition under which a command takes a frame. -/
theorem mine_of_some {mine : Bool} {f g : Frame} (h : (if mine then some f else none) = some g) : mine = true :=
  (Option.ite_none_right_eq_some.1 h).1

theorem opcode_of_some {op : BitVec 8} {f g : Frame} (h : (if isFrameOf op f then some f else none) = some g) :
    f.hdr.opcode = op :=
  opcode_of_isFrameOf (mine_of_some h)

/-! ### WRITE and WRITE_IMM to a window (08 R267, R268) -/

section
variable {f : Frame} {s u : State} {pt : List Byte} (hchecked : Claims.Checked f.hdr pt u)
include hchecked

section
variable (horder : Claims.InOrder (.write f) f s u pt)
include horder

theorem write_took {v : State} (hwrite : u.writeWindow f.hdr.window.toNat f.hdr.offset.toNat pt = some v) :
    Claims.Took (.write f) f s u (Claims.opened f.hdr pt u v) := by
  have hop : f.hdr.opcode = opWrite := opcode_of_some horder.1
  exact took_of_rxEffect horder hchecked (by rw [hop]; decide) (by rw [hop]; decide) (by rw [rxEffect_write hop, hwrite])

theorem write_refused (hwrite : u.writeWindow f.hdr.window.toNat f.hdr.offset.toNat pt = none)
    (hrefusal : (Claims.flow f u).refusal = none) :
    Claims.Refused (.write f) f s (u.writeFailed f.hdr.window.toNat f.hdr.offset.toNat pt) stTag := by
  have hop : f.hdr.opcode = opWrite := opcode_of_some horder.1
  exact refused_of_rxEffect horder hchecked (by rw [hop]; decide) (by rw [hop]; decide)
    (by rw [rxEffect_write hop, hwrite]) hrefusal

end

end

/-- A WRITE_IMM of class 3 goes to a window. -/
theorem rxWriteImm_window {h : Hdr} {u : State} {pt : List Byte} (hclass : h.rclass = 3#2) :
    u.rxWriteImm h pt =
      let w := h.window.toNat
      if h.last && u.cqFree (winCq (u.window w)) == 0 then
        (match u.writeWindow w h.offset.toNat pt with
         | some _ => .hold
         | none => .bad stTag (u.writeFailed w h.offset.toNat pt))
      else
        match u.writeWindow w h.offset.toNat pt with
        | none => .bad stTag (u.writeFailed w h.offset.toNat pt)
        | some t => .ok (if h.last then t.deliverImm h else t) := by
  have hdone : ¬ u.isForwardDone h = true := by simp [State.isForwardDone, hclass]
  have hmail : ¬ h.rclass = 0#2 := by rw [hclass]; decide
  exact (if_neg hdone).trans (if_neg hmail)

section
variable {f : Frame} {s u : State} {pt : List Byte} (horder : Claims.InOrder (.writeImm f) f s u pt)
include horder

theorem writeImm_opcode : f.hdr.opcode = opWriteImm ∧ f.hdr.rclass = 3#2 := by
  have hmine := mine_of_some horder.1
  simp only [Bool.and_eq_true, beq_iff_eq] at hmine
  exact ⟨opcode_of_isFrameOf hmine.1, hmine.2⟩

theorem writeImm_request : requestOpcodes.contains f.hdr.opcode = false := by
  rw [(writeImm_opcode horder).1]
  decide

theorem writeImm_notRead : f.hdr.opcode ≠ opReadReq := by
  rw [(writeImm_opcode horder).1]
  decide

theorem writeImm_effect :
    u.rxEffect f.hdr pt =
      let w := f.hdr.window.toNat
      if f.hdr.last && u.cqFree (winCq (u.window w)) == 0 then
        (match u.writeWindow w f.hdr.offset.toNat pt with
         | some _ => .hold
         | none => .bad stTag (u.writeFailed w f.hdr.offset.toNat pt))
      else
        match u.writeWindow w f.hdr.offset.toNat pt with
        | none => .bad stTag (u.writeFailed w f.hdr.offset.toNat pt)
        | some t => .ok (if f.hdr.last then t.deliverImm f.hdr else t) :=
  (rxEffect_writeImm (writeImm_opcode horder).1).trans (rxWriteImm_window (writeImm_opcode horder).2)

theorem writeImm_effect_none (hwrite : u.writeWindow f.hdr.window.toNat f.hdr.offset.toNat pt = none) :
    u.rxEffect f.hdr pt = .bad stTag (u.writeFailed f.hdr.window.toNat f.hdr.offset.toNat pt) := by
  rw [writeImm_effect horder]
  simp only [hwrite, ite_self]

end

/-! ### Mailbox commands and forwards (14 R450, 10 R326) -/

section
variable {f : Frame} {s u : State} {pt : List Byte} (horder : Claims.InOrder (.writeImmMailbox f) f s u pt)
include horder

theorem mailbox_opcode : f.hdr.opcode = opWriteImm ∧ f.hdr.rclass = 0#2 := by
  have hmine := mine_of_some horder.1
  simp only [Bool.and_eq_true, beq_iff_eq] at hmine
  exact ⟨opcode_of_isFrameOf hmine.1, hmine.2⟩

theorem mailbox_request : requestOpcodes.contains f.hdr.opcode = false := by
  rw [(mailbox_opcode horder).1]
  decide

theorem mailbox_notRead : f.hdr.opcode ≠ opReadReq := by
  rw [(mailbox_opcode horder).1]
  decide

theorem mailbox_effect (hdone : u.isForwardDone f.hdr = false) : u.rxEffect f.hdr pt = u.takeMailbox f.hdr pt := by
  obtain ⟨hop, hclass⟩ := mailbox_opcode horder
  rw [rxEffect_writeImm hop]
  exact (if_neg (ne_true_of_eq_false hdone)).trans (if_pos hclass)

end

section
variable {h : Hdr} {u : State} {pt : List Byte} (hfwd : h.fwd = false)
include hfwd

theorem takeMailbox_again {k : Nat × BitVec 16 × List Byte}
    (hkept : (u.mbox (h.window.toNat - 0x10000)).kept.find?
      (fun k => k.1 == h.src.toNat && k.2.1 == h.imm.extractLsb' 0 16) = some k) :
    u.takeMailbox h pt = .ok (u.sendResp h.src h.keySlot h.window h.imm k.2.2) := by
  unfold State.takeMailbox
  simp only [hfwd, hkept]
  rfl

variable (hnew : (u.mbox (h.window.toNat - 0x10000)).kept.find?
  (fun k => k.1 == h.src.toNat && k.2.1 == h.imm.extractLsb' 0 16) = none)
include hnew

theorem takeMailbox_new :
    u.takeMailbox h pt =
      let mb := h.window.toNat - 0x10000
      let m := u.mbox mb
      if 8 ≤ ((m.accepted ++ m.parked).filter fun x => onTransport x.2).length then .bad stNoRes u
      else .ok (u.setMbox mb { m with accepted := m.accepted ++
        [parseCmd mb (.wt h.src h.keySlot h.window h.imm) (h.imm.extractLsb' 0 16) pt] }) := by
  unfold State.takeMailbox
  simp only [hfwd, hnew]
  rfl

end

/-! ### READ_REQ (08 R242, 09 R282) -/

/-- Does a queue have a ring entry and its partition landing room for a frame (09 R283)? -/
def State.landsNow (u : State) (p q n : Nat) : Bool :=
  decide (qUsed (u.queue q).ctx < qSize (u.queue q).ctx) && u.landRoom p n

theorem landsNow_of {u : State} {p q n : Nat} (hring : qUsed (u.queue q).ctx < qSize (u.queue q).ctx)
    (hroom : u.landRoom p n = true) : u.landsNow p q n = true := by
  simp [State.landsNow, hring, hroom]

theorem landsNow_false {u : State} {p q n : Nat}
    (h : qSize (u.queue q).ctx ≤ qUsed (u.queue q).ctx ∨ u.landRoom p n = false) : u.landsNow p q n = false := by
  rcases h with h | h
  · simp [State.landsNow, Nat.not_lt.2 h]
  · simp [State.landsNow, h]

section
variable {h : Hdr} {u : State} {pt : List Byte} {p : Nat} (howner : u.ownerOfWindow h.window.toNat = some p)
  (hlands : (u.queue (u.fabricQueue p h.src.toNat)).lands = true)
  (hqueue : u.ownerOfQueue (u.fabricQueue p h.src.toNat) = some p)
include howner hlands hqueue

theorem rxRead_eq (hptag : ptagOk h pt = true) :
    u.rxRead h pt =
      let q := u.fabricQueue p h.src.toNat
      if !u.landsNow p q pt.length then .hold
      else .ok (((u.claimRing q).2.takeLand p q (u.claimRing q).1 pt).landMsg h
        { hdr := h, payload := pt, queue := q, ring := (u.claimRing q).1, tagBad := false }) := by
  have hgood : ¬ (!(u.queue (u.fabricQueue p h.src.toNat)).lands ||
      u.ownerOfQueue (u.fabricQueue p h.src.toNat) != some p) = true := by simp [hlands, hqueue]
  unfold State.rxRead
  rw [howner]
  refine (if_neg hgood).trans ?_
  rw [hptag]
  rfl

end

/-! ### A held immediate, a read's deadline (09 R288, 07 R220) -/

theorem doCqHoldExpiry_eq {p a : Nat} {f : Frame} {l : List Frame} {s : State} (hserving : s.serving = true)
    (hheld : (s.port p).held = f :: l) (hsince : (s.port p).heldSince = some a) (hwaits : s.waitsForCq f = true)
    (hdue : a + 1000000 ≤ s.clk.ftime) :
    doCqHoldExpiry p s =
      let u := (s.unhold p).cqExpired f
      (u.drainHeld p (u.port p).held.length).paceIngress p := by
  unfold doCqHoldExpiry
  rw [hheld, hsince]
  exact if_pos (by simp [hserving, hwaits, hdue])

theorem doReadDeadline_eq {r : Nat} {x : Req} {s : State} (hserving : s.serving = true) (hreq : s.req? r = some x)
    (hopen : x.complete = false) (hop : x.msg.opcode = opReadReq) (hdl : x.dlNs ≤ s.clk.ftime) :
    doReadDeadline r s = s.endReq r stDeadline := by
  unfold doReadDeadline
  rw [hreq]
  exact if_pos (by simp [hserving, hopen, hop, hdl])

/-- Settles O52. -/
theorem writesAndReads : Obligations.WritesAndReads := by
  unfold Obligations.WritesAndReads
  refine ⟨fun f s u v pt ho hc hw => write_took hc ho hw, fun f s u pt ho hc hw hr => write_refused hc ho hw hr,
    fun f s u v pt ho hc hw => ⟨fun hlast => ?_, fun hlast hcq => ?_, fun hlast hcq => ?_⟩,
    fun f s u pt ho hc hw hr => refused_of_rxEffect ho hc (writeImm_request ho) (writeImm_notRead ho)
      (writeImm_effect_none ho hw) hr,
    fun f s u pt ho hc hdone hfwd => ?_, fun f g s u pt ho hc hdone hof => ?_, fun f p s u pt ho hc howner => ?_,
    fun p a w f l s hserving hheld hsince hwaits hdue => ?_, fun r w x s hserving hreq hopen hop hdl => ?_⟩
  · refine took_of_rxEffect ho hc (writeImm_request ho) (writeImm_notRead ho) ?_
    rw [writeImm_effect ho]
    simp only [hw, hlast]
    rfl
  · refine took_of_rxEffect ho hc (writeImm_request ho) (writeImm_notRead ho) ?_
    have hroom : (u.cqFree (winCq (u.window f.hdr.window.toNat)) == 0) = false := beq_eq_false_iff_ne.2 hcq
    rw [writeImm_effect ho]
    simp only [hw, hlast, hroom]
    rfl
  · refine holds_of_rxEffect ho hc (writeImm_request ho) (writeImm_notRead ho) ?_
    have hfull : (u.cqFree (winCq (u.window f.hdr.window.toNat)) == 0) = true := beq_iff_eq.2 hcq
    rw [writeImm_effect ho]
    simp only [hw, hlast, hfull]
    rfl
  · intro m q
    refine ⟨fun k hk => ?_, fun hnew hroom => ?_, fun hnew hfull hr => ?_⟩
    · exact took_of_rxEffect ho hc (mailbox_request ho) (mailbox_notRead ho)
        ((mailbox_effect ho hdone).trans (takeMailbox_again hfwd hk))
    · exact took_of_rxEffect ho hc (mailbox_request ho) (mailbox_notRead ho)
        ((mailbox_effect ho hdone).trans ((takeMailbox_new hfwd hnew).trans (if_neg (Nat.not_le.2 hroom))))
    · exact refused_of_rxEffect ho hc (mailbox_request ho) (mailbox_notRead ho)
        ((mailbox_effect ho hdone).trans ((takeMailbox_new hfwd hnew).trans (if_pos hfull))) hr
  · have hop : f.hdr.opcode = opWriteImm := by
      have hdone' := hdone
      simp only [State.isForwardDone, Bool.and_eq_true, beq_iff_eq] at hdone'
      exact hdone'.1.2
    refine took_of_rxEffect ho hc (by rw [hop]; decide) (by rw [hop]; decide) ?_
    rw [rxEffect_writeImm hop, State.rxWriteImm, hdone, State.relay, hof]
    rfl
  · intro q hlands hqueue
    have hsteps : u.rxSteps f.hdr pt = u.rxRead f.hdr pt := rxSteps_read hc (opcode_of_some ho.1)
    refine ⟨fun hring hroom => took_of_rxSteps ho ?_, fun hfull => holds_of_rxSteps ho ?_⟩
    · rw [hsteps, rxRead_eq howner hlands hqueue hc.2.2.2]
      exact if_neg (by rw [landsNow_of hring hroom]; decide)
    · rw [hsteps, rxRead_eq howner hlands hqueue hc.2.2.2]
      exact if_pos (by rw [landsNow_false hfull]; rfl)
  · exact does_of_fresh (fun t => doCqHoldExpiry p (t.upTo w)) rfl
      (doCqHoldExpiry_eq (s := s.fresh.upTo w) hserving hheld hsince hwaits hdue)
  · exact does_of_fresh (fun t => doReadDeadline r (t.upTo w)) rfl
      (doReadDeadline_eq (s := s.fresh.upTo w) hserving hreq hopen hop hdl)

end Sys2Proof.Machine
end

section
/-! The request frames (O53), the messages of the twin pair and the directory (O54), the sender's flows (O55). -/

namespace Sys2Proof.Machine

/-! ### Requests (08 R239, 09 R282, R283) -/

/-- What a frame of a request leaves once its room is taken: at LAST the message lands, or is refused. -/
def State.closeRequest (t : State) (h : Hdr) (m : OpenMsg) : RxRes :=
  if h.last then
    if t.requestStatus h.src.toNat m = stOk then .ok ((t.setOpen h.src.toNat h.rclass.toNat none).landMsg h m)
    else .bad (t.requestStatus h.src.toNat m) (t.setOpen h.src.toNat h.rclass.toNat (some m))
  else .ok (t.setOpen h.src.toNat h.rclass.toNat (some m))

theorem request_opcode {i : Instr} {f : Frame} {s : State} (hi : i ∈ [Instr.attend f, .append f, .ingest f, .commit f])
    (hframe : Claims.frameOf i s = some f) : requestOpcodes.contains f.hdr.opcode = true := by
  simp only [List.mem_cons, List.not_mem_nil, or_false] at hi
  rcases hi with rfl | rfl | rfl | rfl
  all_goals
    rw [opcode_of_some hframe]
    decide

section
variable {h : Hdr} {u : State} {pt : List Byte} (hfields : u.frameFields h pt = true)
include hfields

section
variable {p : Nat} (hmsg : (u.rx h.src.toNat h.rclass.toNat).msg = none) (hframing : framingOk h pt none = true)
  (howner : u.ownerOfWindow h.window.toNat = some p) (hlands : (u.queue (u.fabricQueue p h.src.toNat)).lands = true)
  (hqueue : u.ownerOfQueue (u.fabricQueue p h.src.toNat) = some p)
include hmsg hframing howner hlands hqueue

/-- A FIRST frame claims a ring entry of its source's queue and landing room, or waits. -/
theorem rxRequest_first :
    u.rxRequest h pt =
      let q := u.fabricQueue p h.src.toNat
      if !u.landsNow p q pt.length then .hold
      else ((u.claimRing q).2.takeLand p q (u.claimRing q).1 pt).closeRequest h
        { hdr := h, payload := pt, queue := q, ring := (u.claimRing q).1, tagBad := !ptagOk h pt } := by
  have hgood : ¬ (!(u.queue (u.fabricQueue p h.src.toNat)).lands ||
      u.ownerOfQueue (u.fabricQueue p h.src.toNat) != some p) = true := by simp [hlands, hqueue]
  unfold State.rxRequest
  simp only [hfields, hmsg, hframing, howner]
  exact if_neg hgood

end

/-- A later frame takes more room, or waits. -/
theorem rxRequest_later {p : Nat} {m : OpenMsg} (hmsg : (u.rx h.src.toNat h.rclass.toNat).msg = some m)
    (hframing : framingOk h pt (some m) = true) (hqueue : m.queue ≠ noQueue) (howner : u.ownerOfQueue m.queue = some p) :
    u.rxRequest h pt =
      if u.landRoom p pt.length then
        (u.takeLand p m.queue m.ring pt).closeRequest h
          { m with payload := m.payload ++ pt, tagBad := m.tagBad || !ptagOk h pt }
      else .hold := by
  unfold State.rxRequest
  simp only [hfields, hmsg, hframing, hqueue, howner]
  rfl

end

section
variable {i : Instr} {f : Frame} {s u v : State} {pt : List Byte} {m : OpenMsg} (horder : Claims.InOrder i f s u pt)
  (hsteps : u.rxSteps f.hdr pt = v.closeRequest f.hdr m)
include horder hsteps

/-- The three ends of a request's frame that finds room. -/
theorem request_closes :
    (f.hdr.last = true → v.requestStatus f.hdr.src.toNat m = stOk →
      Claims.Took i f s u ((v.setOpen f.hdr.src.toNat f.hdr.rclass.toNat none).landMsg f.hdr m)) ∧
    (f.hdr.last = true → v.requestStatus f.hdr.src.toNat m ≠ stOk → (Claims.flow f u).refusal = none →
      Claims.Refused i f s (v.setOpen f.hdr.src.toNat f.hdr.rclass.toNat (some m)) (v.requestStatus f.hdr.src.toNat m)) ∧
    (f.hdr.last = false → Claims.Took i f s u (v.setOpen f.hdr.src.toNat f.hdr.rclass.toNat (some m))) :=
  ⟨fun hlast hst => took_of_rxSteps horder (hsteps.trans ((if_pos hlast).trans (if_pos hst))),
    fun hlast hst => refused_of_rxSteps horder (hsteps.trans ((if_pos hlast).trans (if_neg hst))),
    fun hlast => took_of_rxSteps horder (hsteps.trans (if_neg (ne_true_of_eq_false hlast)))⟩

end

/-- Settles O53. -/
theorem requestFrames : Obligations.RequestFrames := by
  unfold Obligations.RequestFrames
  refine ⟨fun i f p s u pt hi ho hfields hmsg hframing howner => ?_,
    fun i f p m s u pt hi ho hfields hmsg hframing hqueue howner => ?_, fun f p s u pt ho hc hlast hmsg howner => ?_,
    fun p s hserving hp => ?_⟩
  · intro q m v hlands hqueue
    have hsteps : u.rxSteps f.hdr pt = u.rxRequest f.hdr pt := if_pos (request_opcode hi ho.1)
    have hfirst := hsteps.trans (rxRequest_first hfields hmsg hframing howner hlands hqueue)
    refine ⟨fun hring hroom => request_closes ho (hfirst.trans (if_neg ?_)),
      fun hfull => holds_of_rxSteps ho (hfirst.trans (if_pos ?_))⟩
    · rw [landsNow_of hring hroom]
      decide
    · rw [landsNow_false hfull]
      rfl
  · intro n v
    have hsteps : u.rxSteps f.hdr pt = u.rxRequest f.hdr pt := if_pos (request_opcode hi ho.1)
    have hlater := hsteps.trans (rxRequest_later hfields hmsg hframing hqueue howner)
    exact ⟨fun hroom => request_closes ho (hlater.trans (if_pos hroom)),
      fun hfull => holds_of_rxSteps ho (hlater.trans (if_neg (ne_true_of_eq_false hfull)))⟩
  · have hop : f.hdr.opcode = opCancel := opcode_of_some ho.1
    refine took_of_rxEffect ho hc (by rw [hop]; decide) (by rw [hop]; decide)
      ((rxEffect_message (by rw [hop]; decide) (by rw [hop]; decide) hlast hmsg).trans ?_)
    unfold State.rxMessage
    rw [hop, howner]
    rfl
  · refine does_of_fresh (doLandingResume p) rfl (if_pos ?_)
    exact Bool.and_eq_true_iff.2 ⟨hserving, decide_eq_true hp⟩

/-! ### The messages of the twin pair and the directory (10 R322 to R348, 13 R435) -/

section
variable {i : Instr} {f : Frame} {s u : State} {pt : List Byte} {op : BitVec 8} (horder : Claims.InOrder i f s u pt)
  (hchecked : Claims.Checked f.hdr pt u) (hop : f.hdr.opcode = op)
  (hother : op ∉ opWrite :: opWriteImm :: opReadReq :: requestOpcodes)
include horder hchecked hop hother

/-- A frame of a message that is not its last is kept with it. -/
theorem message_collects (hlast : f.hdr.last = false) : Claims.Took i f s u (Claims.opened f.hdr pt u u) := by
  subst hop
  simp only [List.mem_cons, not_or] at hother
  obtain ⟨hwrite, himm, hread, hreq⟩ := hother
  exact took_of_rxEffect horder hchecked (by simpa [requestOpcodes] using hreq) hread (rxEffect_more hwrite himm hlast)

variable (hlast : f.hdr.last = true) (hmsg : (Claims.flow f u).msg = none)
include hlast hmsg

theorem message_took {v : State} (h : u.rxMessage f.hdr pt = .ok v) : Claims.Took i f s u (Claims.opened f.hdr pt u v) := by
  subst hop
  simp only [List.mem_cons, not_or] at hother
  obtain ⟨hwrite, himm, hread, hreq⟩ := hother
  exact took_of_rxEffect horder hchecked (by simpa [requestOpcodes] using hreq) hread
    ((rxEffect_message hwrite himm hlast hmsg).trans h)

theorem message_refused {v : State} {st : Nat} (h : u.rxMessage f.hdr pt = .bad st v)
    (hrefusal : (Claims.flow f u).refusal = none) : Claims.Refused i f s v st := by
  subst hop
  simp only [List.mem_cons, not_or] at hother
  obtain ⟨hwrite, himm, hread, hreq⟩ := hother
  exact refused_of_rxEffect horder hchecked (by simpa [requestOpcodes] using hreq) hread
    ((rxEffect_message hwrite himm hlast hmsg).trans h) hrefusal

end

section
variable {h : Hdr} {u : State} {pt : List Byte}

theorem rxMessage_hedge (hop : h.opcode = opHedge) :
    u.rxMessage h pt = if hgOk pt then .ok (u.takeHedge h pt) else .bad stFormat u :=
  if_pos hop

theorem rxMessage_claim (hop : h.opcode = opHedgeClaim) : u.rxMessage h pt = .ok (u.takeClaim h) := by
  unfold State.rxMessage
  rw [hop]
  rfl

theorem rxMessage_mirror (hop : h.opcode = opMirror) :
    u.rxMessage h pt =
      if (u.takeMirror (h.keySlot.toNat - 1) pt).1 = stOk then .ok (u.takeMirror (h.keySlot.toNat - 1) pt).2
      else .bad (u.takeMirror (h.keySlot.toNat - 1) pt).1 u := by
  unfold State.rxMessage
  rw [hop]
  rfl

theorem rxMessage_mirrorAck (hop : h.opcode = opMirrorAck) : u.rxMessage h pt = .ok (u.takeMirrorAck pt) := by
  unfold State.rxMessage
  rw [hop]
  rfl

theorem rxMessage_dirUpdate (hop : h.opcode = opDirUpdate) :
    u.rxMessage h pt =
      if (u.takeDirUpdate pt).2 = stOk then .ok (u.takeDirUpdate pt).1
      else .bad (u.takeDirUpdate pt).2 (u.takeDirUpdate pt).1 := by
  unfold State.rxMessage
  rw [hop]
  rfl

theorem rxMessage_dirQuery (hop : h.opcode = opDirQuery) : u.rxMessage h pt = .ok (u.takeDirQuery h pt) := by
  unfold State.rxMessage
  rw [hop]
  rfl

end

/-- A frame of an undefined opcode is refused once its window has passed. -/
theorem rxSteps_undefined {h : Hdr} {u : State} {pt : List Byte} (hop : definedOpcodes.contains h.opcode = false)
    (hwindow : u.frameWindow h pt = stOk) : u.rxSteps h pt = .bad stFormat (u.count cBadOpcode 1) := by
  have hreq : requestOpcodes.contains h.opcode = false := by
    simp only [definedOpcodes, requestOpcodes, List.contains_eq_mem, List.mem_cons, List.not_mem_nil, or_false,
      decide_eq_false_iff_not, not_or] at hop ⊢
    simp [hop]
  unfold State.rxSteps
  simp only [hreq, hwindow, hop]
  rfl

/-- Settles O54. -/
theorem messageFrames : Obligations.MessageFrames := by
  unfold Obligations.MessageFrames
  refine ⟨fun i f s u pt hi ho hc hlast => ?_, fun f s u pt ho hc hlast hmsg => ?_, fun f s u pt ho hc hlast hmsg => ?_,
    fun f s u pt ho hc hlast hmsg => ?_, fun f s u pt ho hc hlast hmsg => ?_, fun f s u pt ho hc hlast hmsg => ?_,
    fun f s u pt ho hc hlast hmsg => ?_, fun f s u pt ho hwindow hr => ?_⟩
  · simp only [List.mem_cons, List.not_mem_nil, or_false] at hi
    rcases hi with rfl | rfl | rfl
    all_goals exact message_collects ho hc (opcode_of_some ho.1) (by decide) hlast
  · have hop : f.hdr.opcode = opHedge := opcode_of_some ho.1
    exact ⟨fun hok => message_took ho hc hop (by decide) hlast hmsg ((rxMessage_hedge hop).trans (if_pos hok)),
      fun hbad => message_refused ho hc hop (by decide) hlast hmsg
        ((rxMessage_hedge hop).trans (if_neg (ne_true_of_eq_false hbad)))⟩
  · have hop : f.hdr.opcode = opHedgeClaim := opcode_of_some ho.1
    exact message_took ho hc hop (by decide) hlast hmsg (rxMessage_claim hop)
  · have hop : f.hdr.opcode = opMirror := opcode_of_some ho.1
    exact ⟨fun hok => message_took ho hc hop (by decide) hlast hmsg ((rxMessage_mirror hop).trans (if_pos hok)),
      fun hbad => message_refused ho hc hop (by decide) hlast hmsg ((rxMessage_mirror hop).trans (if_neg hbad))⟩
  · have hop : f.hdr.opcode = opMirrorAck := opcode_of_some ho.1
    exact message_took ho hc hop (by decide) hlast hmsg (rxMessage_mirrorAck hop)
  · have hop : f.hdr.opcode = opDirUpdate := opcode_of_some ho.1
    exact ⟨fun hok => message_took ho hc hop (by decide) hlast hmsg ((rxMessage_dirUpdate hop).trans (if_pos hok)),
      fun hbad => message_refused ho hc hop (by decide) hlast hmsg ((rxMessage_dirUpdate hop).trans (if_neg hbad))⟩
  · have hop : f.hdr.opcode = opDirQuery := opcode_of_some ho.1
    exact message_took ho hc hop (by decide) hlast hmsg (rxMessage_dirQuery hop)
  · have hmine := mine_of_some ho.1
    simp only [Bool.and_eq_true, Bool.not_eq_true'] at hmine
    exact refused_of_rxSteps ho (rxSteps_undefined hmine.2 hwindow) hr

/-! ### The sender's flows (08 R255 to R264) -/

section
variable {f : Frame} {s u v : State} {pt : List Byte} (harrives : Claims.Arrives f s)
  (hauth : State.authenticate { s with out := [] } f = (u, some pt)) (hctl : isCtl f.hdr = true)
include harrives hauth hctl

theorem exec_ack (hframe : Claims.frameOf (.ack f) s = some f)
    (h : u.takeAck f.hdr.src.toNat f.hdr.rclass.toNat f.hdr = v) :
    exec (.ack f) s = .next { Claims.after f v with pending := s.pending } := by
  refine exec_eq_next_of_receive hframe (receive_takes (s := s.fresh) harrives hauth ((rxSeq_ctl hctl).trans ?_))
  rw [if_pos (opcode_of_some hframe), h]

theorem exec_nak (hframe : Claims.frameOf (.nak f) s = some f)
    (h : u.takeNak f.hdr.src.toNat f.hdr.rclass.toNat f.hdr = v) :
    exec (.nak f) s = .next { Claims.after f v with pending := s.pending } := by
  have hop : f.hdr.opcode = opNak := opcode_of_some hframe
  refine exec_eq_next_of_receive hframe (receive_takes (s := s.fresh) harrives hauth ((rxSeq_ctl hctl).trans ?_))
  rw [if_neg (by rw [hop]; decide), h]

end

section
variable {a c : Nat} {h : Hdr} {u : State}

theorem takeAck_beyond (hbeyond : (u.tx a c).beyond ((u.tx a c).named h.seq) = true) :
    u.takeAck a c h = u.count cBadAck 1 :=
  if_pos hbeyond

theorem takeNak_beyond (hbeyond : (u.tx a c).beyond ((u.tx a c).named h.seq) = true) :
    u.takeNak a c h = u.count cBadAck 1 :=
  if_pos hbeyond

variable (hwithin : (u.tx a c).beyond ((u.tx a c).named h.seq) = false)
include hwithin

theorem takeAck_within : u.takeAck a c h = u.ackTo a c ((u.tx a c).named h.seq) :=
  if_neg (ne_true_of_eq_false hwithin)

theorem takeNak_sync (hsync : h.sync = true) : u.takeNak a c h = u.nakSync a c :=
  (if_neg (ne_true_of_eq_false hwithin)).trans (if_pos hsync)

variable (hsync : h.sync = false)
include hsync

theorem takeNak_plain (hst : h.status = 0#8) (hback : (u.tx a c).backFrom = none) :
    u.takeNak a c h =
      (u.ackTo a c ((u.tx a c).named h.seq)).goBackTo a c ((u.tx a c).named h.seq) false := by
  refine (if_neg (ne_true_of_eq_false hwithin)).trans
    ((if_neg (ne_true_of_eq_false hsync)).trans ((if_pos hst).trans ?_))
  rw [hback]
  exact if_neg Bool.false_ne_true

variable (hst : h.status ≠ 0#8)
include hst

theorem takeNak_key (hkey : h.status.toNat = stKey) :
    u.takeNak a c h = u.nakKey a c ((u.tx a c).named h.seq) ((u.tx a c).named (h.imm.extractLsb' 0 24)) :=
  (if_neg (ne_true_of_eq_false hwithin)).trans
    ((if_neg (ne_true_of_eq_false hsync)).trans ((if_neg hst).trans (if_pos hkey)))

theorem takeNak_refusal (hkey : h.status.toNat ≠ stKey) :
    u.takeNak a c h =
      u.nakRefusal a c ((u.tx a c).named h.seq) ((u.tx a c).named (h.imm.extractLsb' 0 24)) h.status.toNat :=
  (if_neg (ne_true_of_eq_false hwithin)).trans
    ((if_neg (ne_true_of_eq_false hsync)).trans ((if_neg hst).trans (if_neg hkey)))

end

theorem tx_setTx (a c : Nat) (x : TxFlow) (s : State) : (s.setTx a c x).tx a c = x := by
  simp [State.tx, State.setTx]

/-- The end of an acknowledged frame: a read goes on with its next frames. -/
def State.endAcked (t : State) (x : Sent) : State :=
  match x.fr.done with
  | .release r _ => (t.endSent x.fr stOk false).pumpRead r true 128
  | _ => t.endSent x.fr stOk false

/-- An acknowledgement within the flow releases what it passes (08 R258). -/
theorem ackTo_spec {a c q : Nat} {u : State} (hlo : (u.tx a c).una < q) (hhi : q ≤ (u.tx a c).next) :
    ∃ v : State, u.ackTo a c q = v.each ((u.tx a c).sent.filter fun x => decide (x.seq < q)) State.endAcked ∧
      (v.tx a c).una = q ∧ (v.tx a c).expiries = 0 ∧ ∀ x ∈ (v.tx a c).sent, q ≤ x.seq ∧ x ∈ (u.tx a c).sent := by
  have hin : ¬ (decide (q ≤ (u.tx a c).una) || decide ((u.tx a c).next < q)) = true := by
    simp only [Bool.or_eq_true, decide_eq_true_eq]
    omega
  refine ⟨u.setTx a c { u.tx a c with
    una := q
    sent := (u.tx a c).sent.filter fun x => decide (q ≤ x.seq)
    expiries := 0
    timerAt := if ((u.tx a c).sent.filter fun x => decide (q ≤ x.seq)).isEmpty then none else some (u.clk.ftime + 20000)
    goBack := match (u.tx a c).goBack with
      | some g => if q < (u.tx a c).next then some (max g q) else none
      | none => none }, ?_, ?_, ?_, ?_⟩
  · exact if_neg hin
  · rw [tx_setTx]
  · rw [tx_setTx]
  · intro x hx
    rw [tx_setTx] at hx
    obtain ⟨hmem, hseq⟩ := List.mem_filter.1 hx
    exact ⟨of_decide_eq_true hseq, hmem⟩

theorem doAckTimerExpiry_due {a c x : Nat} {s : State} (hserving : s.serving = true) (hold : (s.rx a c).oldest = some x)
    (hdue : x + 2000 ≤ s.clk.ftime) : doAckTimerExpiry a c s = s.setRx a c { s.rx a c with ackDue := true } := by
  unfold doAckTimerExpiry
  dsimp only
  rw [hold]
  exact if_pos (by simp [hserving, hdue])

theorem doRetransmitTimerExpiry_eq {a c x : Nat} {s : State} (hserving : s.serving = true)
    (htimer : (s.tx a c).timerAt = some x) (hdue : x ≤ s.clk.ftime) (hsent : (s.tx a c).sent ≠ []) :
    doRetransmitTimerExpiry a c s =
      let f := s.tx a c
      let k := f.expiries + 1
      if 8 ≤ k then s.failPeer a
      else
        let v := s.setTx a c { f with expiries := k, timerAt := some (s.clk.ftime + 1000 * min (20 * 2 ^ k) 2000) }
        (if k = 3 then v.moveFlow a c else v).goBackTo a c f.una true := by
  unfold doRetransmitTimerExpiry
  dsimp only
  rw [htimer]
  exact if_neg (by simp [hserving, hdue, hsent])

theorem doPeerProbe_due {a x : Nat} {s : State} (hserving : s.serving = true) (hid : s.idValid = true)
    (hslot : s.slot0 = true) (hun : s.unreachable a = true) (hprobe : Tbl.get? s.wt.probes a = some x)
    (hdue : x + 1000000 ≤ s.clk.ftime) (hpause : s.pausedFor a 0 = false) :
    doPeerProbe a s =
      let u := { s with wt := { s.wt with probes := Tbl.set s.wt.probes a s.clk.ftime } }.pin a 0
      let f := u.tx a 0
      let h := u.syncHdr a 0 f.next f.syncAttempt
      let g := if 65534 ≤ f.syncAttempt then { f with una := f.next + 1, next := f.next + 1, syncAttempt := 0 }
        else { f with syncAttempt := f.syncAttempt + 1 }
      match u.egressOf a 0, u.sealData h f.next [] with
      | some p, some (ct, tag) => (u.setTx a 0 g).emit (.frame p h ct tag (u.lowerBytes p a (u.pcp 0) 0 f.entropy))
      | _, _ => u := by
  unfold doPeerProbe
  rw [hprobe]
  exact if_neg (by simp [hserving, hid, hslot, hun, hdue, hpause])

/-- Settles O55. -/
theorem senderFlows : Obligations.SenderFlows := by
  unfold Obligations.SenderFlows
  refine ⟨fun f s u pt hframe harr hauth hctl => ?_, fun f s u pt hframe harr hauth hctl => ?_, fun a c q u hlo hhi => ?_,
    fun a w x c s hserving hold hdue => ?_, fun a w x c s hserving htimer hdue hsent => ⟨fun h => ?_, fun h => ?_⟩,
    fun a w x s hserving hid hslot hun hprobe hdue hpause => ?_⟩
  · intro a c q
    exact ⟨fun h => exec_ack harr hauth hctl hframe (takeAck_within h),
      fun h => exec_ack harr hauth hctl hframe (takeAck_beyond h)⟩
  · intro a c q n
    exact ⟨fun h => exec_nak harr hauth hctl hframe (takeNak_beyond h),
      fun h hs => exec_nak harr hauth hctl hframe (takeNak_sync h hs),
      fun h hs hst hback => exec_nak harr hauth hctl hframe (takeNak_plain h hs hst hback),
      fun h hs hst hkey => exec_nak harr hauth hctl hframe (takeNak_key h hs hst hkey),
      fun h hs hst hkey => exec_nak harr hauth hctl hframe (takeNak_refusal h hs hst hkey)⟩
  · exact ackTo_spec hlo hhi
  · exact does_of_fresh (fun t => doAckTimerExpiry a c.toNat (t.upTo w)) rfl
      (doAckTimerExpiry_due (s := s.fresh.upTo w) hserving hold hdue)
  · exact does_of_fresh (fun t => doRetransmitTimerExpiry a c.toNat (t.upTo w)) rfl
      ((doRetransmitTimerExpiry_eq (s := s.fresh.upTo w) hserving htimer hdue hsent).trans (if_pos (Nat.succ_le_succ h)))
  · exact does_of_fresh (fun t => doRetransmitTimerExpiry a c.toNat (t.upTo w)) rfl
      ((doRetransmitTimerExpiry_eq (s := s.fresh.upTo w) hserving htimer hdue hsent).trans
        (if_neg (Nat.not_le.2 (Nat.succ_lt_succ h))))
  · exact does_of_fresh (fun t => doPeerProbe a (t.upTo w)) rfl
      (doPeerProbe_due (s := s.fresh.upTo w) hserving hid hslot hun hprobe hdue hpause)

end Sys2Proof.Machine
end

section
/-! Ports (O56), admission and the changing requests (O57). -/

namespace Sys2Proof.Machine

/-- What a command answers, by what its function makes of the state with nothing sent. -/
theorem next_of_fresh {i : Instr} {s v : State} (g : State → State) (h : exec i s = run s g) (he : g s.fresh = v) :
    exec i s = .next { v with pending := s.pending } := by
  rw [h, ← he]
  rfl

/-! ### Other frames and links (08 R235, R236, R265, R266) -/

section
variable {p : Nat} {s : State} (hawake : s.awake = true) (hp : p < 24) (hup : (s.port p).up = true)
include hawake hp hup

theorem doNeighborSolicitation_eq (a b : BitVec 128) :
    doNeighborSolicitation p a b s = if a = s.address then s.emit (.neighborAdvert p b a) else s.countPort p pcOther 1 :=
  if_neg (by simp [hawake, hp, hup])

theorem doEchoRequest_eq (a b : BitVec 128) (i q : BitVec 16) (l : List Byte) :
    doEchoRequest p a b i q l s = if a = s.address then s.emit (.echoReply p b i q l) else s.countPort p pcOther 1 :=
  if_neg (by simp [hawake, hp, hup])

theorem doOtherFrame_eq (n : Nat) :
    doOtherFrame p n s = s.countPort p (if n < 64 then pcRunt else if 9216 < n then pcOversize else pcOther) 1 :=
  if_pos (by simp [hawake, hp, hup])

theorem doPfcFrame_eq (k : BitVec 8) (xoff : Bool) :
    doPfcFrame p k xoff s = s.each (bitsOf k 8) fun t k => t.pausePcp p k xoff :=
  if_pos (by simp [hawake, hp, hup])

theorem linkDown_eq :
    (if s.awake && decide (p < 24) then s.linkLost p else s) =
      let u := s.updPort p fun x => { x with up := false, direct := false, peer := none }
      let u := (u.countPort p pcLinkDown 1).fault
        { code := 0x1A, srcKind := 4, srcIndex := 9 * p, part := none, addr := 0, syndrome := 0#64, place := none }
      let u := u.each (u.flowsOn p) fun t f => t.moveFlow f.1 f.2
      if u.bond.isEmpty && !s.bond.isEmpty then u.requeueFlow u.twinNode 1 else u := by
  rw [if_pos (Bool.and_eq_true_iff.2 ⟨hawake, decide_eq_true hp⟩), State.linkLost, if_pos hup]

end

theorem pausePcp_xoff {p k : Nat} {t : State} (h : Tbl.get? (t.port p).paused k = none) :
    t.pausePcp p k true = t.updPort p fun y => { y with paused := Tbl.set y.paused k t.clk.ftime } := by
  unfold State.pausePcp
  dsimp only
  rw [h]

/-! ### PORT_TRANSMIT (09 R296) -/

section
variable {p : Nat} {v : State} (hserving : v.serving = true) (hp : p < 24) (hup : (v.port p).up = true)
  (hid : v.idValid = true) (hslot : v.slot0 = true)
include hserving hp hup hid hslot

theorem portTransmit_guard : ¬ (!(v.serving && decide (p < 24) && (v.port p).up && v.idValid && v.slot0)) = true := by
  simp [hserving, hp, hup, hid, hslot]

theorem doPortTransmit_ctl {x : Nat × RxFlow}
    (hdue : v.flushMirrorAck.wt.rx.find? (fun x => x.2.ctlDue && v.flushMirrorAck.leavesBy (x.1 / 4) (x.1 % 4) p) = some x) :
    doPortTransmit p v = (v.flushMirrorAck.pin (x.1 / 4) (x.1 % 4)).sendCtl p (x.1 / 4) (x.1 % 4) := by
  unfold doPortTransmit
  rw [if_neg (portTransmit_guard hserving hp hup hid hslot)]
  dsimp only
  rw [hdue]

variable (hnone : v.flushMirrorAck.wt.rx.find?
    (fun x => x.2.ctlDue && v.flushMirrorAck.leavesBy (x.1 / 4) (x.1 % 4) p) = none)
  {u z : State} {g : Wrr} (hu : u = (v.flushMirrorAck.dropUnkeyed p).updPort p Port.refill) (hg : g = (u.pickClass p).2)
  (hz : z = u.updPort p fun x => { x with pointer := g.ptr, arrived := g.arrived, deficit := g.deficit })
include hnone hu hg hz

theorem doPortTransmit_idle (hpick : (u.pickClass p).1 = none) : doPortTransmit p v = z := by
  subst hu hg hz
  unfold doPortTransmit
  rw [if_neg (portTransmit_guard hserving hp hup hid hslot)]
  dsimp only
  rw [hnone]
  dsimp only
  rw [hpick]

theorem doPortTransmit_sends {c : Nat} {h : Head} (hpick : (u.pickClass p).1 = some c) (hhead : z.headOf p c = some h) :
    doPortTransmit p v = z.sendHead p h := by
  subst hu hg hz
  unfold doPortTransmit
  rw [if_neg (portTransmit_guard hserving hp hup hid hslot)]
  dsimp only
  rw [hnone]
  dsimp only
  rw [hpick]
  dsimp only
  rw [hhead]

end

/-! ### Weir lists (09 R303, R304) -/

/-- A port whose weir list, or none, takes over at a time. -/
def Port.takesWeir (x : Port) (next : Option Weir) (a : Nat) : Port :=
  match next with
  | some l => { x with
      weir := some (l, a), weirNext := none, gateIdx := 0, gateCycle := 0, gates := l.gatesAt 0
      gateUntil := some (entryEnd l a 0 0) }
  | none => { x with
      weir := none, weirNext := none, gateIdx := 0, gateCycle := 0, gates := 0xFFF#12, gateUntil := none }

section
variable {p : Nat} {s : State} (hserving : s.serving = true) (hp : p < 24)
include hserving hp

theorem doWeirTakeover_eq {next : Option Weir} {a : Nat} (hnext : (s.port p).weirNext = some (next, a))
    (ha : a ≤ s.clk.ftime) : doWeirTakeover p s = s.updPort p fun x => x.takesWeir next a := by
  unfold doWeirTakeover
  rw [hnext]
  exact if_neg (by simp [hserving, hp, ha])

theorem doWeirEntryAdvance_eq {l : Weir} {a b : Nat} (hweir : (s.port p).weir = some (l, a))
    (huntil : (s.port p).gateUntil = some b) (hb : b ≤ s.clk.ftime) :
    doWeirEntryAdvance p s = s.updPort p fun x =>
      let k := entryNext l a x.gateCycle x.gateIdx
      { x with gateCycle := k.1, gateIdx := k.2, gates := l.gatesAt k.2, gateUntil := some (entryEnd l a k.1 k.2) } := by
  unfold doWeirEntryAdvance
  rw [hweir, huntil]
  exact if_neg (by simp [hserving, hp, hb])

end

/-- Settles O56. -/
theorem ports : Obligations.Ports := by
  unfold Obligations.Ports
  refine ⟨fun p a b s hawake hp hup => ⟨fun ha => ?_, fun ha => ?_, fun i q l => ⟨fun ha => ?_, fun ha => ?_⟩,
      fun n => ⟨fun hn => ?_, fun hlo hhi => ?_, fun hn => ?_⟩, ?_⟩,
    fun p w k x s hawake hp hup => ?_, fun p k t h => pausePcp_xoff h,
    fun p w s v hv hserving hp hup hid hslot => ⟨fun x hdue => ?_, fun hnone => ?_⟩,
    fun p w a l s hserving hp hnext ha => ?_, fun p w a s hserving hp hnext ha => ?_,
    fun p w a b l s hserving hp hweir huntil hb => ?_⟩
  · exact does_of_fresh (doNeighborSolicitation p a b) rfl
      ((doNeighborSolicitation_eq (s := s.fresh) hawake hp hup a b).trans (if_pos ha))
  · exact does_of_fresh (doNeighborSolicitation p a b) rfl
      ((doNeighborSolicitation_eq (s := s.fresh) hawake hp hup a b).trans (if_neg ha))
  · exact does_of_fresh (doEchoRequest p a b i q l) rfl
      ((doEchoRequest_eq (s := s.fresh) hawake hp hup a b i q l).trans (if_pos ha))
  · exact does_of_fresh (doEchoRequest p a b i q l) rfl
      ((doEchoRequest_eq (s := s.fresh) hawake hp hup a b i q l).trans (if_neg ha))
  · refine does_of_fresh (doOtherFrame p n) rfl ((doOtherFrame_eq (s := s.fresh) hawake hp hup n).trans ?_)
    rw [if_pos hn]
  · refine does_of_fresh (doOtherFrame p n) rfl ((doOtherFrame_eq (s := s.fresh) hawake hp hup n).trans ?_)
    rw [if_neg (Nat.not_lt.2 hlo), if_neg (Nat.not_lt.2 hhi)]
  · refine does_of_fresh (doOtherFrame p n) rfl ((doOtherFrame_eq (s := s.fresh) hawake hp hup n).trans ?_)
    rw [if_neg (by omega), if_pos hn]
  · exact does_of_fresh (fun t => if t.awake && decide (p < 24) then t.linkLost p else t) rfl
      (linkDown_eq (s := s.fresh) hawake hp hup)
  · exact does_of_fresh (fun t => doPfcFrame p k x (t.upTo w)) rfl
      (doPfcFrame_eq (s := s.fresh.upTo w) hawake hp hup k x)
  · subst hv
    exact next_of_fresh (fun t => doPortTransmit p (t.upTo w)) rfl (doPortTransmit_ctl hserving hp hup hid hslot hdue)
  · subst hv
    intro u g z
    exact ⟨fun hpick => next_of_fresh (v := z) (fun t => doPortTransmit p (t.upTo w)) rfl
        (doPortTransmit_idle hserving hp hup hid hslot hnone (u := u) (g := g) (z := z) rfl rfl rfl hpick),
      fun c h hpick hhead => next_of_fresh (v := z.sendHead p h) (fun t => doPortTransmit p (t.upTo w)) rfl
        (doPortTransmit_sends hserving hp hup hid hslot hnone (u := u) (g := g) (z := z) rfl rfl rfl hpick hhead)⟩
  · exact does_of_fresh (fun t => doWeirTakeover p (t.upTo w)) rfl
      (doWeirTakeover_eq (s := s.fresh.upTo w) hserving hp hnext ha)
  · exact does_of_fresh (fun t => doWeirTakeover p (t.upTo w)) rfl
      (doWeirTakeover_eq (s := s.fresh.upTo w) hserving hp hnext ha)
  · exact does_of_fresh (fun t => doWeirEntryAdvance p (t.upTo w)) rfl
      (doWeirEntryAdvance_eq (s := s.fresh.upTo w) hserving hp hweir huntil hb)

/-! ### Admission (09 R291) -/

/-- The state in which queue q's oldest message of class c is taken, with the weighted group's state w noted. -/
def State.admitTurn (v : State) (p c q : Nat) (w : Wrr) : State :=
  { v with slc := { v.slc with
    admPtr := Tbl.set v.slc.admPtr p w.ptr
    admArr := if w.arrived then (v.slc.admArr.filter (· != p)) ++ [p] else v.slc.admArr.filter (· != p)
    admDef := w.deficit.foldl (fun (d : Tbl Nat) (x : Nat × Nat) => Tbl.set d (16 * p + x.1) x.2) v.slc.admDef
    lastQ := Tbl.set v.slc.lastQ (16 * p + c) q } }

/-- An admission step goes by the class that R291 picks. -/
theorem doAdmissionStep_eq {p : Nat} {e : EccReport} {v : State} (hserving : v.serving = true) (hp : p < 16) :
    doAdmissionStep p e v =
      match (Claims.admitPick p v).1.bind fun c => (v.nextQueue p c v.queueReady).bind fun q =>
        ((v.queue q).landed.head?).map fun m => (q, m) with
      | none => v
      | some (q, m) => (v.admitTurn p ((Claims.admitPick p v).1.getD 0) q (Claims.admitPick p v).2).admitStep e m :=
  if_neg (by simp [hserving, hp])

theorem doAdmissionStep_takes {p c q : Nat} {e : EccReport} {m : Msg} {v : State} (hserving : v.serving = true)
    (hp : p < 16) (hpick : (Claims.admitPick p v).1 = some c) (hqueue : v.nextQueue p c v.queueReady = some q)
    (hhead : (v.queue q).landed.head? = some m) :
    doAdmissionStep p e v = (v.admitTurn p c q (Claims.admitPick p v).2).admitStep e m := by
  rw [doAdmissionStep_eq hserving hp, hpick, Option.bind_some, hqueue, Option.bind_some, hhead]
  rfl

section
variable {e : EccReport} {m : Msg} {t : State}

theorem admitStep_refused (hchecks : t.admitChecks m ≠ stOk) : t.admitStep e m = t.refuseLanded m (t.admitChecks m) :=
  if_pos (bne_iff_ne.2 hchecks)

variable (hchecks : t.admitChecks m = stOk)
include hchecks

theorem admitStep_checked :
    t.admitStep e m =
      if !t.writesOf m && m.mayForward then (t.unland m).forwardMsg m
      else if !t.admitFormat m then t.refuseLanded m stFormat
      else if !t.writesOf m then t.refuseLanded m stNoSession
      else
        match t.msgDeadline m with
        | .error c => t.refuseLanded m c
        | .ok dl =>
          let n := t.need m
          if t.needTooBig m.part n then t.refuseLanded m stFormat
          else if t.needFree m.part n then t.admitMsg e m (dl.getD t.laterDeadline) n
          else if t.waitedOut { m with dlNs := dl } then t.refuseLanded m stNoRes
          else t.updQueue m.queue fun q => { q with landed := q.landed.map fun (x : Msg) =>
            if x.id = m.id then { m with dlNs := dl, waitAt := some (m.waitAt.getD t.clk.ftime) } else x } :=
  if_neg (by simp [hchecks])

theorem admitStep_forwards (hwrites : t.writesOf m = false) (hfwd : m.mayForward = true) :
    t.admitStep e m = (t.unland m).forwardMsg m := by
  rw [admitStep_checked hchecks, hwrites, hfwd]
  rfl

theorem admitStep_format (hkeep : t.writesOf m = true ∨ m.mayForward = false) (hformat : t.admitFormat m = false) :
    t.admitStep e m = t.refuseLanded m stFormat := by
  have hstays : ¬ (!t.writesOf m && m.mayForward) = true := by rcases hkeep with h | h <;> simp [h]
  rw [admitStep_checked hchecks, if_neg hstays, hformat]
  rfl

theorem admitStep_noSession (hwrites : t.writesOf m = false) (hfwd : m.mayForward = false) (hformat : t.admitFormat m = true) :
    t.admitStep e m = t.refuseLanded m stNoSession := by
  rw [admitStep_checked hchecks, hwrites, hfwd, hformat]
  rfl

variable (hwrites : t.writesOf m = true) (hformat : t.admitFormat m = true)
include hwrites hformat

theorem admitStep_deadline {c : Nat} (hdl : t.msgDeadline m = .error c) : t.admitStep e m = t.refuseLanded m c := by
  rw [admitStep_checked hchecks, hwrites, hformat, hdl]
  rfl

variable {d : Option Nat} (hdl : t.msgDeadline m = .ok d)
include hdl

theorem admitStep_reserves :
    t.admitStep e m =
      if t.needTooBig m.part (t.need m) then t.refuseLanded m stFormat
      else if t.needFree m.part (t.need m) then t.admitMsg e m (d.getD t.laterDeadline) (t.need m)
      else if t.waitedOut { m with dlNs := d } then t.refuseLanded m stNoRes
      else t.updQueue m.queue fun q => { q with landed := q.landed.map fun (x : Msg) =>
        if x.id = m.id then { m with dlNs := d, waitAt := some (m.waitAt.getD t.clk.ftime) } else x } := by
  rw [admitStep_checked hchecks, hwrites, hformat, hdl]
  rfl

theorem admitStep_tooBig (hbig : t.needTooBig m.part (t.need m) = true) : t.admitStep e m = t.refuseLanded m stFormat :=
  (admitStep_reserves hchecks hwrites hformat hdl).trans (if_pos hbig)

variable (hfits : t.needTooBig m.part (t.need m) = false)
include hfits

theorem admitStep_admits (hfree : t.needFree m.part (t.need m) = true) :
    t.admitStep e m = t.admitMsg e m (d.getD t.laterDeadline) (t.need m) :=
  (admitStep_reserves hchecks hwrites hformat hdl).trans ((if_neg (ne_true_of_eq_false hfits)).trans (if_pos hfree))

variable (hbusy : t.needFree m.part (t.need m) = false)
include hbusy

theorem admitStep_waits :
    t.admitStep e m =
      if t.waitedOut { m with dlNs := d } then t.refuseLanded m stNoRes
      else t.updQueue m.queue fun q => { q with landed := q.landed.map fun (x : Msg) =>
        if x.id = m.id then { m with dlNs := d, waitAt := some (m.waitAt.getD t.clk.ftime) } else x } :=
  (admitStep_reserves hchecks hwrites hformat hdl).trans
    ((if_neg (ne_true_of_eq_false hfits)).trans (if_neg (ne_true_of_eq_false hbusy)))

end

theorem doAdmitWaitExpiry_refuses {q : Nat} {m : Msg} {v : State} (hserving : v.serving = true)
    (hhead : (v.queue q).landed.head? = some m) (hwaited : v.waitedOut m = true)
    (hbusy : v.needFree m.part (v.need m) = false) : doAdmitWaitExpiry q v = v.refuseLanded m stNoRes := by
  unfold doAdmitWaitExpiry
  rw [hhead]
  exact if_pos (by simp [hserving, hwaited, hbusy])

/-! ### The changing requests (04 R146, R151; 07 R219) -/

section
variable {r : Nat} {q : Req} {v : State} (hserving : v.serving = true) (hreq : v.req? r = some q)
  (hopen : q.complete = false) (hatomic : q.atomic = false)
include hserving hreq hopen hatomic

section
variable (hop : q.msg.opcode = opCommit) (huse : v.setInUse (cmSession q.msg.payload) (cmPset q.msg.payload) = false)
include hop huse

theorem doCommitApply_eq :
    doCommitApply r v =
      let p := q.msg.payload
      let x := cmSession p
      if q.dlNs ≤ v.clk.ftime then v.finishReq r stDeadline
      else match v.openSession q.msg.part x with
      | none => v.finishReq r stNoSession
      | some z =>
        if !v.commitCheck x z p then v.finishReq r stFormat
        else if cmLen p = 0 then
          ((v.dropProvs fun z => z.session == x && z.pset == cmPset p).updReq r fun q => { q with atomic := true }).commitChange
            z.part [] (.request r stOk)
        else
          match v.applyCommit eccNone x z p with
          | .ok (t, recs) => (t.updReq r fun q => { q with atomic := true }).commitChange z.part recs (.request r stOk)
          | .error e => let (t, st) := v.refuseApply e; t.finishReq r st := by
  unfold doCommitApply
  rw [hreq]
  exact if_neg (by simp [hserving, hopen, hatomic, hop, huse])

theorem doCommitApply_late (hdl : q.dlNs ≤ v.clk.ftime) : doCommitApply r v = v.finishReq r stDeadline :=
  (doCommitApply_eq hserving hreq hopen hatomic hop huse).trans (if_pos hdl)

variable (hdl : v.clk.ftime < q.dlNs)
include hdl

theorem doCommitApply_noSession (hnone : v.openSession q.msg.part (cmSession q.msg.payload) = none) :
    doCommitApply r v = v.finishReq r stNoSession := by
  refine (doCommitApply_eq hserving hreq hopen hatomic hop huse).trans ((if_neg (Nat.not_le.2 hdl)).trans ?_)
  rw [hnone]

variable {x : Session} (hsession : v.openSession q.msg.part (cmSession q.msg.payload) = some x)
include hsession

theorem doCommitApply_format (hcheck : v.commitCheck (cmSession q.msg.payload) x q.msg.payload = false) :
    doCommitApply r v = v.finishReq r stFormat := by
  refine (doCommitApply_eq hserving hreq hopen hatomic hop huse).trans ((if_neg (Nat.not_le.2 hdl)).trans ?_)
  rw [hsession]
  exact if_pos (by rw [hcheck]; rfl)

theorem doCommitApply_applies (hcheck : v.commitCheck (cmSession q.msg.payload) x q.msg.payload = true)
    (hlen : cmLen q.msg.payload ≠ 0) {t : State} {l : List MRec}
    (happly : v.applyCommit eccNone (cmSession q.msg.payload) x q.msg.payload = .ok (t, l)) :
    doCommitApply r v =
      (t.updReq r fun q => { q with atomic := true }).commitChange x.part l (.request r stOk) := by
  refine (doCommitApply_eq hserving hreq hopen hatomic hop huse).trans ((if_neg (Nat.not_le.2 hdl)).trans ?_)
  rw [hsession]
  dsimp only
  rw [hcheck, if_neg (by decide), if_neg hlen, happly]

end

theorem doAppendDeadline_ends (hop : q.msg.opcode ∈ [opAppend, opIngest, opCommit]) (hdl : q.dlNs ≤ v.clk.ftime) :
    doAppendDeadline r v = v.finishReq r stDeadline := by
  unfold doAppendDeadline
  rw [hreq]
  refine if_pos ?_
  simp only [Bool.and_eq_true, Bool.not_eq_true', decide_eq_true_eq, List.contains_iff_mem]
  exact ⟨⟨⟨⟨hserving, hopen⟩, hatomic⟩, hop⟩, hdl⟩

end

/-- Settles O57. -/
theorem admission : Obligations.Admission := by
  unfold Obligations.Admission
  refine ⟨fun p w c q e m s v hv hserving hp hpick hqueue hhead => ?_,
    fun e m t => ⟨admitStep_refused, admitStep_forwards, admitStep_format, admitStep_noSession,
      fun c hc hw hf hdl => admitStep_deadline hc hw hf hdl, fun d hc hw hf hdl => ⟨admitStep_tooBig hc hw hf hdl,
        admitStep_admits hc hw hf hdl, fun hfits hbusy hout => ?_, fun hfits hbusy hin => ?_⟩⟩,
    fun q w m s v hv hserving hhead hwaited hbusy => ?_,
    fun r q x s v hv hserving hreq hopen hatomic hop huse hdl hsession => ⟨fun hcheck => ?_,
      fun hcheck hlen t l happly => ?_⟩,
    fun r q s hserving hreq hopen hatomic hop huse => ⟨fun hdl => ?_, fun hdl hnone => ?_⟩,
    fun r w q s v hv hserving hreq hopen hatomic hop hdl => ?_, fun x n w s hserving => ?_⟩
  · subst hv
    exact ⟨_, next_of_fresh (fun t => doAdmissionStep p e (t.upTo w)) rfl
      (doAdmissionStep_takes hserving hp hpick hqueue hhead), rfl⟩
  · exact (admitStep_waits hc hw hf hdl hfits hbusy).trans (if_pos hout)
  · exact (admitStep_waits hc hw hf hdl hfits hbusy).trans (if_neg (ne_true_of_eq_false hin))
  · subst hv
    exact next_of_fresh (fun t => doAdmitWaitExpiry q (t.upTo w)) rfl
      (doAdmitWaitExpiry_refuses hserving hhead hwaited hbusy)
  · subst hv
    exact next_of_fresh (doCommitApply r) rfl
      (doCommitApply_format (v := s.fresh) hserving hreq hopen hatomic hop huse hdl hsession hcheck)
  · subst hv
    exact next_of_fresh (doCommitApply r) rfl
      (doCommitApply_applies (v := s.fresh) hserving hreq hopen hatomic hop huse hdl hsession hcheck hlen happly)
  · exact does_of_fresh (doCommitApply r) rfl
      (doCommitApply_late (v := s.fresh) hserving hreq hopen hatomic hop huse hdl)
  · exact does_of_fresh (doCommitApply r) rfl
      (doCommitApply_noSession (v := s.fresh) hserving hreq hopen hatomic hop huse hdl hnone)
  · subst hv
    exact next_of_fresh (fun t => doAppendDeadline r (t.upTo w)) rfl
      (doAppendDeadline_ends hserving hreq hopen hatomic hop hdl)
  · exact does_of_fresh (fun t => doProvSetExpiry x n (t.upTo w)) rfl (if_pos hserving)

end Sys2Proof.Machine
end

section
/-! Sweeps, merges and hedges (O58). -/

namespace Sys2Proof.Machine

/-! ### SLOT_COLLECT (04 R140, 07 R227, 09 R293) -/

section
variable {j n : Nat} {s : State}

theorem doSlotCollect_unready (h : s.serving = false ∨ (s.jet j).ready.getLsbD n = false) : doSlotCollect j n s = s := by
  refine if_pos ?_
  rcases h with h | h <;> simp [h]

variable (hserving : s.serving = true) (hready : (s.jet j).ready.getLsbD n = true)
include hserving hready

theorem slotCollect_guard : ¬ (!(s.serving && (s.jet j).ready.getLsbD n)) = true := by
  rw [hserving, hready]
  decide

/-- A slot that holds no command of the sluice is just freed. -/
theorem doSlotCollect_foreign
    (h : ∀ c, Tbl.get? s.slc.cmds (slTag ((s.jet j).slot n)) = some c → c.jet ≠ j ∨ c.slot ≠ some n) :
    doSlotCollect j n s = Claims.freed j n s := by
  unfold doSlotCollect
  rw [if_neg (slotCollect_guard hserving hready)]
  dsimp only
  cases hcmd : Tbl.get? s.slc.cmds (slTag ((s.jet j).slot n)) with
  | none => rfl
  | some c =>
    refine if_pos ?_
    rcases h c hcmd with h | h <;> simp [h]

variable {c : JetCmd} (hcmd : Tbl.get? s.slc.cmds (slTag ((s.jet j).slot n)) = some c) (hjet : c.jet = j)
  (hslot : c.slot = some n)
include hcmd hjet hslot

theorem doSlotCollect_eq :
    doSlotCollect j n s =
      let res := slResult ((s.jet j).slot n)
      Claims.freed j n (State.dropCmd (
        if res = rsOk || res = rsStopped then
          s.each (List.range c.sess.length) fun u k =>
            u.takePart (s.jet j) n c k (c.sess.getD k (0, 0)).1 (c.sess.getD k (0, 0)).2
        else if res = rsResidue || res = rsAborted then s.reissueCmd (slTag ((s.jet j).slot n)) c
        else if res = rsTag || res = rsEcc || res = rsDecode then
          s.each c.live fun u p => u.errPage c.req p.2.1 p.2.2 (statusOfResult res)
        else s.each c.entries fun u e => u.failEntry c.req e stContained) (slTag ((s.jet j).slot n)) c) := by
  have hmine : ¬ (c.jet != j || c.slot != some n) = true := by simp [hjet, hslot]
  unfold doSlotCollect
  rw [if_neg (slotCollect_guard hserving hready)]
  dsimp only
  rw [hcmd]
  exact if_neg hmine

theorem doSlotCollect_good (hres : slResult ((s.jet j).slot n) = rsOk ∨ slResult ((s.jet j).slot n) = rsStopped) :
    doSlotCollect j n s =
      Claims.freed j n ((s.each (List.range c.sess.length) fun u k =>
        u.takePart (s.jet j) n c k (c.sess.getD k (0, 0)).1 (c.sess.getD k (0, 0)).2).dropCmd (slTag ((s.jet j).slot n)) c) := by
  have hgood : (slResult ((s.jet j).slot n) = rsOk || slResult ((s.jet j).slot n) = rsStopped) = true := by simpa using hres
  rw [doSlotCollect_eq hserving hready hcmd hjet hslot]
  dsimp only
  rw [if_pos hgood]

theorem doSlotCollect_reissues
    (hres : slResult ((s.jet j).slot n) = rsResidue ∨ slResult ((s.jet j).slot n) = rsAborted) :
    doSlotCollect j n s =
      Claims.freed j n ((s.reissueCmd (slTag ((s.jet j).slot n)) c).dropCmd (slTag ((s.jet j).slot n)) c) := by
  rw [doSlotCollect_eq hserving hready hcmd hjet hslot]
  rcases hres with h | h
  all_goals
    simp only [h]
    rfl

theorem doSlotCollect_checks (hres : slResult ((s.jet j).slot n) = rsTag ∨ slResult ((s.jet j).slot n) = rsEcc ∨
      slResult ((s.jet j).slot n) = rsDecode) :
    doSlotCollect j n s =
      Claims.freed j n ((s.each c.live fun u p =>
        u.errPage c.req p.2.1 p.2.2 (statusOfResult (slResult ((s.jet j).slot n)))).dropCmd (slTag ((s.jet j).slot n)) c) := by
  rw [doSlotCollect_eq hserving hready hcmd hjet hslot]
  rcases hres with h | h | h
  all_goals
    simp only [h]
    rfl

theorem doSlotCollect_other
    (hres : slResult ((s.jet j).slot n) ∉ [rsOk, rsStopped, rsResidue, rsAborted, rsTag, rsEcc, rsDecode]) :
    doSlotCollect j n s =
      Claims.freed j n ((s.each c.entries fun u e => u.failEntry c.req e stContained).dropCmd (slTag ((s.jet j).slot n)) c) := by
  simp only [List.mem_cons, List.not_mem_nil, or_false, not_or] at hres
  rw [doSlotCollect_eq hserving hready hcmd hjet hslot]
  simp [hres]

end

/-- A partial all of whose pages were swept is added to its entry. -/
theorem takePart_whole {u : State} {x : Jet} {n k e lo : Nat} {c : JetCmd} {q : Req} {y : Entry}
    (hreq : u.req? c.req = some q) (hentry : q.entry? e = some y) (hlive : y.live = true)
    (hok : slResult (x.slot n) = rsOk) (hpages : c.ofUnit k ≠ [])
    (hgood : ∀ p ∈ c.ofUnit k, (x.slot n).getLsbD (88 + p.1) = false) :
    u.takePart x n c k e lo =
      let got := (partOf x c k lo y.spec.rows (((c.ofUnit k).map fun p => p.2.2.desc.tokenPos).foldl max 0)).go
      (u.addSat (slPart c.word) got.2).updEntry c.req e fun y =>
        if y.live then { y with parts := y.parts ++ [got.1] } else y := by
  have hat : ((u.req? c.req).bind fun r => r.entry? e) = some y := by rw [hreq, Option.bind_some, hentry]
  have hnone : ((c.ofUnit k).filter fun p => !true && !(x.slot n).getLsbD (88 + p.1)) = [] := by simp
  have hbad : ((c.ofUnit k).filter fun p => (x.slot n).getLsbD (88 + p.1)) = [] := by simpa using hgood
  have hall : ((c.ofUnit k).filter fun p => true && !(x.slot n).getLsbD (88 + p.1)) = c.ofUnit k :=
    List.filter_eq_self.2 fun p hp => by simp [hgood p hp]
  unfold State.takePart
  simp only [hat, hlive, hok, beq_self_eq_true, Bool.true_or, hnone, hbad, hall, List.isEmpty_eq_false_iff.2 hpages]
  rfl

/-! ### Cuts (07 R221, R223) -/

section
variable {t : State} {g : Nat} {c : JetCmd} {x : Req} (hreq : t.req? c.req = some x)
include hreq

theorem cutCmd_early (htime : t.clk.ftime < t.cutTime x c) : t.cutCmd g c = t := by
  unfold State.cutCmd
  rw [hreq]
  exact if_pos htime

variable (htime : t.cutTime x c ≤ t.clk.ftime)
include htime

theorem cutCmd_come :
    t.cutCmd g c =
      if x.dlp = 1 then
        match c.slot with
        | some n => t.updJet c.jet fun y => y.stopSlot n
        | none => (t.each c.live fun t p => t.omitDl c.req p.2.1 p.2.2).dropCmd g c
      else t.each c.entries fun t e => t.cutEntry c.req e := by
  unfold State.cutCmd
  rw [hreq]
  exact if_neg (Nat.not_lt.2 htime)

theorem cutCmd_running (hdlp : x.dlp = 1) {k : Nat} (hslot : c.slot = some k) :
    t.cutCmd g c = t.updJet c.jet fun y => y.stopSlot k := by
  rw [cutCmd_come hreq htime, if_pos hdlp, hslot]

theorem cutCmd_waiting (hdlp : x.dlp = 1) (hslot : c.slot = none) :
    t.cutCmd g c = (t.each c.live fun t p => t.omitDl c.req p.2.1 p.2.2).dropCmd g c := by
  rw [cutCmd_come hreq htime, if_pos hdlp, hslot]

theorem cutCmd_ends (hdlp : x.dlp ≠ 1) : t.cutCmd g c = t.each c.entries fun t e => t.cutEntry c.req e := by
  rw [cutCmd_come hreq htime, if_neg hdlp]

end

theorem doCutTime_serving {j n : Nat} {v : State} (hserving : v.serving = true) :
    doCutTime j n v =
      v.each (v.slc.cmds.filter fun c => c.2.jet == j &&
        (match c.2.slot with | some k => k == n && !(v.jet j).ready.getLsbD n | none => true)) fun u c =>
        if (Tbl.get? u.slc.cmds c.1).isSome then u.cutCmd c.1 c.2 else u :=
  if_neg (by rw [hserving]; decide)

theorem doCutTime_idle {j n : Nat} {v : State} (hserving : v.serving = false) : doCutTime j n v = v :=
  if_pos (by rw [hserving]; rfl)

/-! ### Deadlines and merges of entries (04 R140, 07 R225, R229) -/

section
variable {r e : Nat} {v : State}

theorem doConfluenceDeadline_fails {x : Req} {y : Entry} (hserving : v.serving = true) (hreq : v.req? r = some x)
    (hentry : x.entry? e = some y) (hlive : y.live = true) (hformed : y.formed = []) (hown : y.hasOwn = true)
    (hdue : x.dlNs - v.mergeRes x y ≤ v.clk.ftime) : doConfluenceDeadline r e v = v.failEntry r e stDeadline := by
  unfold doConfluenceDeadline
  simp only [hreq, hentry]
  exact if_pos (by simp [hserving, hlive, hformed, hown, hdue])

theorem doConfluenceDeadline_waits (h : ∀ x y, v.req? r = some x → x.entry? e = some y →
      v.serving = false ∨ y.live = false ∨ y.formed ≠ [] ∨ y.hasOwn = false ∨ v.clk.ftime < x.dlNs - v.mergeRes x y) :
    doConfluenceDeadline r e v = v := by
  unfold doConfluenceDeadline
  cases hreq : v.req? r with
  | none => rfl
  | some x =>
    cases hentry : x.entry? e with
    | none => simp only [hentry]
    | some y =>
      simp only [hentry]
      refine if_neg ?_
      rcases h x y hreq hentry with h | h | h | h | h
      · simp [h]
      · simp [h]
      · simp [h]
      · simp [h]
      · simp [Nat.not_le.2 h]

end

section
variable {r e : Nat} {q : EccReport} {b : Bool} {d : State}

theorem mergeEntry_waits
    (h : ∀ x y, d.req? r = some x → x.entry? e = some y → y.live = false ∨ y.formed ≠ [] ∨ y.waiting ≠ 0) :
    d.mergeEntry r e q b = d := by
  unfold State.mergeEntry
  cases hreq : d.req? r with
  | none => rfl
  | some x =>
    cases hentry : x.entry? e with
    | none => simp only [hentry]
    | some y =>
      simp only [hentry]
      refine if_pos ?_
      rcases h x y hreq hentry with h | h | h <;> simp [h]

/-- What recovers the copies that an entry's own part and its reissued pages read. -/
def State.recoverPages (d : State) (q : EccReport) (y : Entry) : State :=
  d.each (y.own ++ y.reissue.map fun w => w.2.2.2) fun t w =>
    (w.base.map Prod.fst).toList.foldl (fun t r => t.recoverCopy q r) (t.recoverCopy q w.pg)

variable {x : Req} {y : Entry} (hreq : d.req? r = some x) (hentry : x.entry? e = some y) (hlive : y.live = true)
  (hformed : y.formed = []) (hwaiting : y.waiting = 0)
include hreq hentry hlive hformed hwaiting

theorem mergeEntry_noSession (hsession : d.session? y.spec.session = none) :
    d.mergeEntry r e q b = d.failEntry r e stNoSession := by
  have hgo : ¬ (!(y.live && y.formed.isEmpty && y.waiting == 0)) = true := by simp [hlive, hformed, hwaiting]
  unfold State.mergeEntry
  simp only [hreq, hentry]
  rw [if_neg hgo]
  simp only [hsession]

variable {z : Session} (hsession : d.session? y.spec.session = some z)
include hsession

/-- The merge goes by what the confluence finds. -/
theorem mergeEntry_eq {u : State} (hu : u = d.recoverPages q y) :
    d.mergeEntry r e q b =
      match u.confluenceParts q z x y with
      | (t, .error st) => t.failEntry r e st
      | (t, .ok (own, re, bad)) =>
        if !b then
          ({ t with draws := t.draws + 1 }.fault
            { code := 0x13, srcKind := 3, srcIndex := 0, part := some x.msg.part, addr := 0,
              syndrome := Config.residueSyndrome t.draws,
              place := (mapClusters (t.pmap x.msg.part)).head?.map fun c => .array c 0 }).failEntry r e stContained
        else
          match ((t.errPages x r e bad).req? r).bind fun x => x.entry? e with
          | none => t.errPages x r e bad
          | some y =>
            if !y.live then t.errPages x r e bad
            else
              let f := (t.errPages x r e bad).formResp x e y (own ++ (y.parts ++ re).foldl (fun l p => insertPart p l) [])
              f.1.answerEntry r e f.2 true := by
  have hgo : ¬ (!(y.live && y.formed.isEmpty && y.waiting == 0)) = true := by simp [hlive, hformed, hwaiting]
  subst hu
  unfold State.mergeEntry
  simp only [hreq, hentry]
  rw [if_neg hgo]
  simp only [hsession]
  rfl

section
variable {u t : State} (hu : u = d.recoverPages q y)
include hu

theorem mergeEntry_fails {st : Nat} (hparts : u.confluenceParts q z x y = (t, .error st)) :
    d.mergeEntry r e q b = t.failEntry r e st := by
  rw [mergeEntry_eq hreq hentry hlive hformed hwaiting hsession hu, hparts]

variable {own re : List Part} {bad : List (Swept × Nat)} (hparts : u.confluenceParts q z x y = (t, .ok (own, re, bad)))
include hparts

theorem mergeEntry_residue (hb : b = false) :
    d.mergeEntry r e q b =
      (({ t with draws := t.draws + 1 }).fault
        { code := 0x13, srcKind := 3, srcIndex := 0, part := some x.msg.part, addr := 0
          syndrome := Config.residueSyndrome t.draws
          place := (mapClusters (t.pmap x.msg.part)).head?.map fun c => .array c 0 }).failEntry r e stContained := by
  rw [mergeEntry_eq hreq hentry hlive hformed hwaiting hsession hu, hparts, hb]
  rfl

theorem mergeEntry_answers (hb : b = true) {y' : Entry}
    (hleft : ((t.errPages x r e bad).req? r).bind (fun x => x.entry? e) = some y') (hlive' : y'.live = true) :
    d.mergeEntry r e q b =
      let f := (t.errPages x r e bad).formResp x e y' (own ++ (y'.parts ++ re).foldl (fun l p => insertPart p l) [])
      f.1.answerEntry r e f.2 true := by
  rw [mergeEntry_eq hreq hentry hlive hformed hwaiting hsession hu, hparts, hb]
  simp only [hleft, hlive']
  rfl

theorem mergeEntry_ended (hb : b = true)
    (hleft : ∀ y', ((t.errPages x r e bad).req? r).bind (fun x => x.entry? e) = some y' → y'.live = false) :
    d.mergeEntry r e q b = t.errPages x r e bad := by
  rw [mergeEntry_eq hreq hentry hlive hformed hwaiting hsession hu, hparts, hb]
  cases hat : ((t.errPages x r e bad).req? r).bind (fun x => x.entry? e) with
  | none => simp only [hat]; rfl
  | some y' => simp only [hat, hleft y' hat]; rfl

end

end

/-! ### Hedges (10 R336) -/

/-- A hedge of a request's entries that are not complete, under claim c. -/
def State.sendHedge (v : State) (r c : Nat) (x : Req) (a : BitVec 13) (k : BitVec 10) (n : BitVec 20) (g : BitVec 16) :
    State :=
  let l := (x.entries.filter fun y => y.2.live && y.2.formed.isEmpty).map Prod.fst
  let t := (v.setReq r { x with hedged := true, claim := some c }).count cHedgeSent 1
  let t := { t with twin := { t.twin with
    claims := Tbl.set t.twin.claims c (l.map fun e => (e, clOpen))
    claimReq := Tbl.set t.twin.claimReq c r } }
  t.sendMsg
    { dst := BitVec.ofNat 13 v.twinNode, rclass := 0#2, pclass := 0, opcode := opHedge, fwd := false, keySlot := k,
      window := n, gen := g, offset := 0, imm := 0#32 }
    (hedgeHeader a.toNat c x.dlNs l ++ x.msg.payload) fun _ => .hedge c

/-- The condition of HEDGE_EVALUATE on a request of the fabric. -/
def State.hedgeDue (v : State) (r : Nat) (x : Req) : Bool :=
  v.serving && x.msg.opcode == opAttend && x.dlp == 2 && !x.complete && !x.hedged &&
    ((x.entries.filter fun e => e.2.live && e.2.formed.isEmpty).any fun e =>
      !v.cutCome r e.1 x && decide (x.dlNs < v.predict r x e.1 e.2)) && v.twin.state == twPaired

section
variable {r : Nat} {x : Req} {v : State}

/-- R336's conditions are what HEDGE_EVALUATE tests. -/
theorem mayHedge_iff :
    Claims.MayHedge v r x ↔ v.hedgeDue r x = true ∧ (∃ a k n g i z, x.msg.origin = .fabric a k n g i z) ∧
      ∃ c, v.freeClaim = some c := by
  simp only [Claims.MayHedge, State.hedgeDue, Bool.and_eq_true, beq_iff_eq, Bool.not_eq_true', List.any_eq_true,
    List.mem_filter, List.isEmpty_iff, decide_eq_true_eq]
  constructor
  · rintro ⟨h1, h2, h3, h4, h5, h6, h7, h8, y, hy, hl, hf, hc, hp⟩
    exact ⟨⟨⟨⟨⟨⟨⟨h1, h3⟩, h4⟩, h5⟩, h6⟩, y, ⟨hy, hl, hf⟩, hc, hp⟩, h7⟩, h2, h8⟩
  · rintro ⟨⟨⟨⟨⟨⟨⟨h1, h3⟩, h4⟩, h5⟩, h6⟩, y, ⟨hy, hl, hf⟩, hc, hp⟩, h7⟩, h2, h8⟩
    exact ⟨h1, h2, h3, h4, h5, h6, h7, h8, y, hy, hl, hf, hc, hp⟩

variable (hreq : v.req? r = some x)
include hreq

theorem doHedgeEvaluate_fabric {a : BitVec 13} {k : BitVec 10} {n : BitVec 20} {g : BitVec 16} {i : BitVec 32} {z : Bool}
    (horigin : x.msg.origin = .fabric a k n g i z) :
    doHedgeEvaluate r v =
      if !v.hedgeDue r x then v
      else match v.freeClaim with
        | none => v
        | some c => v.sendHedge r c x a k n g := by
  unfold doHedgeEvaluate
  simp only [hreq, horigin]
  generalize v.freeClaim = claim
  cases claim with
  | none => rfl
  | some c => rfl

theorem doHedgeEvaluate_sends {a : BitVec 13} {k : BitVec 10} {n : BitVec 20} {g : BitVec 16} {i : BitVec 32} {z : Bool}
    {c : Nat} (hmay : Claims.MayHedge v r x) (horigin : x.msg.origin = .fabric a k n g i z) (hclaim : v.freeClaim = some c) :
    doHedgeEvaluate r v = v.sendHedge r c x a k n g := by
  rw [doHedgeEvaluate_fabric hreq horigin, (mayHedge_iff.1 hmay).1, hclaim]
  rfl

end

theorem doHedgeEvaluate_sendsNone {r : Nat} {v : State} (h : ∀ x, v.req? r = some x → ¬ Claims.MayHedge v r x) :
    doHedgeEvaluate r v = v := by
  cases hreq : v.req? r with
  | none =>
    unfold doHedgeEvaluate
    rw [hreq]
  | some x =>
    cases horigin : x.msg.origin with
    | fabric a k n g i z =>
      rw [doHedgeEvaluate_fabric hreq horigin]
      cases hclaim : v.freeClaim with
      | none => exact ite_self v
      | some c =>
        refine if_pos ?_
        rw [Bool.not_eq_true', Bool.eq_false_iff]
        exact fun hdue => h x hreq (mayHedge_iff.2 ⟨hdue, ⟨a, k, n, g, i, z, horigin⟩, c, hclaim⟩)
    | host | hedge =>
      unfold doHedgeEvaluate
      rw [hreq]
      dsimp only
      rw [horigin]

/-- Settles O58. -/
theorem sweepsAndMerges : Obligations.SweepsAndMerges := by
  unfold Obligations.SweepsAndMerges
  refine ⟨fun j n s h => ?_, fun j n s hs hr h => ?_,
    fun j n c s hs hr hc hj hn => ⟨fun hres => ?_, fun hres => ?_, fun hres => ?_, fun hres => ?_⟩,
    fun u x n c k e lo q y hq he hl hok hp hg => takePart_whole hq he hl hok hp hg, fun j n w s hs => ?_,
    fun t g c x hx => ⟨cutCmd_early hx, fun ht hd k hk => cutCmd_running hx ht hd hk, cutCmd_waiting hx, cutCmd_ends hx⟩,
    fun j n r e w q b s hs => ⟨?_, ?_⟩, fun r e w x y s v hv hs hx hy hl hf ho hd => ?_, fun r e w s v hv h => ?_,
    fun r e w q b s d hs hd h => ?_, fun r e w q b x y s d hs hd hx hy hl hf hw => ?_,
    fun r w c x a k n g i z s v hv hx hm ho hc => ?_, fun r w s v hv h => ?_⟩
  · exact does_of_fresh (doSlotCollect j n) rfl (doSlotCollect_unready (s := s.fresh) h)
  · exact does_of_fresh (doSlotCollect j n) rfl (doSlotCollect_foreign (s := s.fresh) hs hr h)
  · exact does_of_fresh (doSlotCollect j n) rfl (doSlotCollect_good (s := s.fresh) hs hr hc hj hn hres)
  · exact does_of_fresh (doSlotCollect j n) rfl (doSlotCollect_reissues (s := s.fresh) hs hr hc hj hn hres)
  · exact does_of_fresh (doSlotCollect j n) rfl (doSlotCollect_checks (s := s.fresh) hs hr hc hj hn hres)
  · exact does_of_fresh (doSlotCollect j n) rfl (doSlotCollect_other (s := s.fresh) hs hr hc hj hn hres)
  · exact does_of_fresh (fun t => doCutTime j n (t.upTo w)) rfl (doCutTime_serving (v := s.fresh.upTo w) hs)
  · exact does_of_fresh (fun t => doCutTime j n (t.upTo w)) rfl (doCutTime_idle (v := s.fresh.upTo w) hs)
  · exact does_of_fresh (fun t => doEntryMerge r e q b (t.upTo w)) rfl (if_neg (ne_true_of_eq_false hs))
  · subst hv
    exact next_of_fresh (fun t => doConfluenceDeadline r e (t.upTo w)) rfl
      (doConfluenceDeadline_fails hs hx hy hl hf ho hd)
  · subst hv
    exact next_of_fresh (fun t => doConfluenceDeadline r e (t.upTo w)) rfl (doConfluenceDeadline_waits h)
  · subst hd
    exact next_of_fresh (fun t => doEntryMerge r e q b (t.upTo w)) rfl ((if_pos hs).trans (mergeEntry_waits h))
  · have hexec {v : State} (h : d.mergeEntry r e q b = v) : exec (.entryMerge r e w q b) s = .next { v with pending := s.pending } := by
      subst hd
      exact next_of_fresh (fun t => doEntryMerge r e q b (t.upTo w)) rfl ((if_pos hs).trans h)
    refine ⟨fun hnone => hexec (mergeEntry_noSession hx hy hl hf hw hnone), fun z hz => ?_⟩
    intro u
    exact ⟨fun t st hp => hexec (mergeEntry_fails hx hy hl hf hw hz (u := u) rfl hp),
      fun t own re bad hp hb => hexec (mergeEntry_residue hx hy hl hf hw hz (u := u) rfl hp hb),
      fun t own re bad hp hb => ⟨fun y' hleft hlive => hexec (mergeEntry_answers hx hy hl hf hw hz (u := u) rfl hp hb hleft hlive),
        fun hleft => hexec (mergeEntry_ended hx hy hl hf hw hz (u := u) rfl hp hb hleft)⟩⟩
  · subst hv
    exact next_of_fresh (fun t => doHedgeEvaluate r (t.upTo w)) rfl (doHedgeEvaluate_sends hx hm ho hc)
  · subst hv
    exact next_of_fresh (fun t => doHedgeEvaluate r (t.upTo w)) rfl (doHedgeEvaluate_sendsNone h)

end Sys2Proof.Machine
end

section
/-! The states of the twin pair, the sideband SPI target and JTAG (O59, O60). -/

namespace Sys2Proof.Machine

/-! ### Into solo mode and keepalive (10 R317, R327, R329, R330) -/

section
variable {s : State} (hserving : s.serving = true)
include hserving

theorem doMirrorKeepalive_sends {p : Nat} (hpaired : s.twin.state = twPaired) (hquiet : s.twin.sentAt + 5000 ≤ s.clk.ftime)
    (hp : p < 16) (hkey : s.mirrorKey p = true) (hlowest : ∀ q < p, s.mirrorKey q = false) :
    doMirrorKeepalive s = s.sendMirror p [] := by
  have hfind : ((List.range 16).find? fun q => s.mirrorKey q) = some p := by
    rw [List.find?_range_eq_some]
    exact ⟨hkey, List.mem_range.2 hp, fun q hq => by simp [hlowest q hq]⟩
  refine (if_pos (by simp [hserving, hpaired, hquiet])).trans ?_
  rw [hfind]

theorem doWriterApplyTimeout_enters (hpaired : s.twin.state = twPaired)
    (hlate : ∃ c ∈ s.twin.changes, c.sentAt + 4540000 ≤ s.clk.ftime) : doWriterApplyTimeout s = s.enterSolo :=
  if_pos (by simp [hserving, hpaired, hlate])

theorem doTwinSilenceTimeout_enters (hpaired : s.twin.state = twPaired) (hsilent : s.twin.heardAt + 70000 ≤ s.clk.ftime) :
    doTwinSilenceTimeout true false s = s.enterSolo :=
  if_pos (by simp [hserving, hpaired, hsilent])

theorem doJoiningTimeout_enters (hjoining : s.twin.state = twJoining)
    (hsilent : s.twin.joinAt + 100000000 ≤ s.clk.ftime) : doJoiningTimeout s = s.enterSolo :=
  if_pos (by simp [hserving, hjoining, hsilent])

/-! ### Rejoin and resync (10 R315, R333 to R335) -/

theorem doResyncComplete_enters (hdone : s.twin.state = twDst ∨ (s.twin.state = twSrc ∧ s.mirrorBusy = false)) :
    doResyncComplete s = s.enterPaired :=
  if_pos (by simpa [hserving] using hdone)

variable (hpair : s.pairEn = true) {d : Digest} {a : Nat}
include hpair

theorem doRejoin_differs {b : Bool} (hd : s.cfgDigest ≠ d) :
    doRejoin d a b s = if s.twin.state = twPaired then { s with twin := { s.twin with cfgMismatch := true } } else s :=
  (if_neg (by simp [hserving, hpair])).trans (if_pos (bne_iff_ne.2 (Ne.symm hd)))

theorem doRejoin_agrees (hd : s.cfgDigest = d) :
    doRejoin d a true s =
      if s.twin.state = twJoining then
        { s.discardAfter s.rejoinStamp with twin := { (s.discardAfter s.rejoinStamp).twin with state := twDst } }
      else if s.twin.state = twSolo || s.twin.state = twSrc then
        ({ s with twin := { s.twin with state := twSrc, s0 := s.clk.ftime, resyncA := a } }).sendResync a
      else s :=
  (if_neg (by simp [hserving, hpair])).trans ((if_neg (by simp [hd])).trans (if_neg (by decide)))

theorem doRejoin_joins (hd : s.cfgDigest = d) (hjoining : s.twin.state = twJoining) :
    doRejoin d a true s =
      { s.discardAfter s.rejoinStamp with twin := { (s.discardAfter s.rejoinStamp).twin with state := twDst } } :=
  (doRejoin_agrees hserving hpair hd).trans (if_pos hjoining)

theorem doRejoin_survives (hd : s.cfgDigest = d) (hstate : s.twin.state = twSolo ∨ s.twin.state = twSrc) :
    doRejoin d a true s = ({ s with twin := { s.twin with state := twSrc, s0 := s.clk.ftime, resyncA := a } }).sendResync a := by
  have hother : s.twin.state ≠ twJoining := by rcases hstate with h | h <;> rw [h] <;> decide
  exact (doRejoin_agrees hserving hpair hd).trans ((if_neg hother).trans (if_pos (by simpa using hstate)))

end

theorem doTwinSilenceTimeout_heard {a b : Bool} {s : State} (h : a = false ∨ b = true) : doTwinSilenceTimeout a b s = s := by
  refine if_neg ?_
  rcases h with rfl | rfl <;> simp

/-- Settles O59. -/
theorem twinStates : Obligations.TwinStates := by
  unfold Obligations.TwinStates
  refine ⟨fun w p s v hv hserving hpaired hquiet hp hkey hlowest => ?_, fun w s v hv hserving hpaired hlate => ?_,
    fun w s v hv hserving hpaired hsilent => ?_, fun w a b s h => ?_, fun w s v hv hserving hjoining hsilent => ?_,
    fun d a b s hserving hpair hd => ⟨fun hpaired => ?_, fun hother => ?_⟩,
    fun d a s hserving hpair hd => ⟨fun hjoining => ?_, fun hstate => ?_⟩, fun s hserving hdone => ?_⟩
  · subst hv
    exact next_of_fresh (fun t => doMirrorKeepalive (t.upTo w)) rfl
      (doMirrorKeepalive_sends hserving hpaired hquiet hp hkey hlowest)
  · subst hv
    exact next_of_fresh (fun t => doWriterApplyTimeout (t.upTo w)) rfl (doWriterApplyTimeout_enters hserving hpaired hlate)
  · subst hv
    exact next_of_fresh (fun t => doTwinSilenceTimeout true false (t.upTo w)) rfl
      (doTwinSilenceTimeout_enters hserving hpaired hsilent)
  · exact does_of_fresh (fun t => doTwinSilenceTimeout a b (t.upTo w)) rfl (doTwinSilenceTimeout_heard h)
  · subst hv
    exact next_of_fresh (fun t => doJoiningTimeout (t.upTo w)) rfl (doJoiningTimeout_enters hserving hjoining hsilent)
  · exact does_of_fresh (doRejoin d a b) rfl ((doRejoin_differs (s := s.fresh) hserving hpair hd).trans (if_pos hpaired))
  · exact does_of_fresh (doRejoin d a b) rfl ((doRejoin_differs (s := s.fresh) hserving hpair hd).trans (if_neg hother))
  · exact does_of_fresh (doRejoin d a true) rfl (doRejoin_joins (s := s.fresh) hserving hpair hd hjoining)
  · exact does_of_fresh (doRejoin d a true) rfl (doRejoin_survives (s := s.fresh) hserving hpair hd hstate)
  · exact does_of_fresh doResyncComplete rfl (doResyncComplete_enters (s := s.fresh) hserving hdone)

/-! ### Words of the sideband target (15 R485, R487) -/

section
variable {s : State} {word : Word32} {clocks : Nat} (hon : s.sbOn = true)
include hon

theorem sbWord_whole (hwhole : 32 ≤ clocks) :
    s.sbWord word clocks = if s.sb.inData then s.sbData word clocks else s.sbCommand word clocks := by
  have hclocks : clocks ≠ 0 := by omega
  exact (if_neg (by simp [hon, hclocks])).trans (if_neg (by omega))

theorem sbWord_command (hwhole : 32 ≤ clocks) (hidle : s.sb.inData = false) :
    s.sbWord word clocks = s.sbCommand word clocks :=
  (sbWord_whole hon hwhole).trans (if_neg (ne_true_of_eq_false hidle))

theorem sbWord_data (hwhole : 32 ≤ clocks) (hdata : s.sb.inData = true) : s.sbWord word clocks = s.sbData word clocks :=
  (sbWord_whole hon hwhole).trans (if_pos hdata)

theorem doErrClr_clears (hbit : word.getLsbD 0 = true) : doErrClr word s = { s with sb := { s.sb with errs := 0#32 } } :=
  if_pos (by rw [hon, hbit]; rfl)

theorem doSbDataTimeout_abandons (hdata : s.sb.inData = true) (hlate : s.sb.cmdAt + 1000000 ≤ s.clk.up) :
    doSbDataTimeout s = { s with sb := ({ s.sb with inData := false } : Machine.Sideband).flag 3 |>.bump 2 } :=
  if_pos (by simp [hon, hdata, hlate])

end

section
variable {s : State} {word : Word32} {clocks : Nat}

theorem doErrClr_kept (hbit : word.getLsbD 0 = false) : doErrClr word s = s := if_neg (by rw [hbit, Bool.and_false]; decide)

theorem sbData_read (hread : s.sb.cmd.getLsbD 31 = false) :
    s.sbData word clocks =
      { s with sb := (if s.sb.last.getLsbD 4 then { s.sb with inData := false }
        else ({ s.sb with inData := false } : Machine.Sideband).flag 0).overclock clocks }.emit (.miso s.sb.latched) := by
  unfold State.sbData
  rw [hread]
  cases s.sb.last.getLsbD 4 <;> rfl

theorem sbData_write (hwrite : s.sb.cmd.getLsbD 31 = true) (hgood : s.sb.last.getLsbD 4 = false) :
    s.sbData word clocks =
      { s with sb := (({ s.sb with inData := false } : Machine.Sideband).flag 0).overclock clocks }.sbWrite
        (fld s.sb.cmd 0 12) word := by
  unfold State.sbData
  rw [hwrite, hgood]
  rfl

theorem sbData_badWrite (hwrite : s.sb.cmd.getLsbD 31 = true) (hbad : s.sb.last.getLsbD 4 = true) :
    s.sbData word clocks =
      { s with sb := ({ s.sb with inData := false } : Machine.Sideband).overclock clocks } := by
  unfold State.sbData
  rw [hwrite, hbad]
  rfl

theorem sbWrite_readOnly {i : Nat} (hi : i ∉ [7, 8, 9, 10]) : s.sbWrite i word = s := by
  simp only [List.mem_cons, List.not_mem_nil, or_false, not_or] at hi
  obtain ⟨h7, h8, h9, h10⟩ := hi
  simp only [State.sbWrite, if_neg h7, if_neg h8, if_neg h9, if_neg h10]

end

/-! ### The error counts (15 R486) -/

theorem fld_setField_same {n lo w : Nat} (v : BitVec n) (x : Nat) (h : lo + w ≤ n) : fld (setField v lo w x) lo w = x % 2 ^ w := by
  apply Nat.eq_of_testBit_eq
  intro i
  simp only [fld, field, setField, Nat.testBit_mod_two_pow, Nat.testBit_shiftRight, BitVec.testBit_toNat,
    BitVec.getLsbD_or, BitVec.getLsbD_and, BitVec.getLsbD_not, BitVec.getLsbD_shiftLeft, BitVec.getLsbD_ofNat,
    Nat.testBit_two_pow_sub_one]
  by_cases hi : i < w
  · have hin : lo + i < n := by omega
    have hin' : i < n := by omega
    simp [hi, hin, hin']
  · simp [hi]

theorem fld_bump {b : Machine.Sideband} {n : Nat} (hn : n < 4) :
    fld (b.bump n).errs (8 * n) 8 = min (fld b.errs (8 * n) 8 + 1) 255 := by
  have hfield : fld (b.bump n).errs (8 * n) 8 = min (fld b.errs (8 * n) 8 + 1) (2 ^ 8 - 1) % 2 ^ 8 :=
    fld_setField_same _ _ (by omega)
  rw [hfield]
  omega

/-! ### JTAG (15 R488) -/

theorem loadExtest_low {s : State} (n : Nat) (h : s.pins.rstLow = true) : s.loadExtest n = s.loadIr n :=
  congrArg s.loadIr (if_pos h)

theorem loadExtest_high {s : State} (n : Nat) (h : s.pins.rstLow = false) : s.loadExtest n = s.loadIr 1 :=
  congrArg s.loadIr (if_neg (ne_true_of_eq_false h))

/-- Settles O60. -/
theorem sidebandAndJtag : Obligations.SidebandAndJtag := by
  unfold Obligations.SidebandAndJtag
  refine ⟨fun i hi x n w s hon hwhole => ?_, fun x u hon hbit => doErrClr_clears hon hbit,
    fun x u => ⟨rfl, rfl, fun i hi => sbWrite_readOnly hi⟩, fun n s hon hlow hhigh => ?_, fun w s hon hdata hlate => ?_,
    fun x s hon => ⟨fun hbit => ?_, fun hbit => ?_⟩, fun b n hn => fld_bump hn, fun s => ⟨rfl, rfl, rfl⟩,
    fun s hlow => ⟨?_, ?_, ?_⟩, fun s hhigh i hi => ?_, by decide, by decide, by decide, by decide⟩
  · have hrun : exec (i x n w) s = run s fun t => (t.upTo w).sbWord x n := by rcases hi with rfl | rfl <;> rfl
    refine ⟨fun hidle => ?_, fun hdata hread => ?_, fun hdata hwrite hgood => ?_, fun hdata hwrite hbad => ?_⟩
    · exact does_of_fresh _ hrun (sbWord_command (s := s.fresh.upTo w) hon hwhole hidle)
    · exact does_of_fresh _ hrun ((sbWord_data (s := s.fresh.upTo w) hon hwhole hdata).trans (sbData_read hread))
    · exact does_of_fresh _ hrun ((sbWord_data (s := s.fresh.upTo w) hon hwhole hdata).trans (sbData_write hwrite hgood))
    · exact does_of_fresh _ hrun ((sbWord_data (s := s.fresh.upTo w) hon hwhole hdata).trans (sbData_badWrite hwrite hbad))
  · exact does_of_fresh (fun t => if t.sbOn && decide (1 ≤ n ∧ n ≤ 31) then t.sbDiscard else t) rfl
      (if_pos (by rw [show s.fresh.sbOn = true from hon]; simp [hlow, hhigh]))
  · exact does_of_fresh (fun t => doSbDataTimeout (t.upTo w)) rfl (doSbDataTimeout_abandons hon hdata hlate)
  · exact does_of_fresh (doErrClr x) rfl (doErrClr_clears (s := s.fresh) hon hbit)
  · exact does_of_fresh (doErrClr x) rfl (doErrClr_kept hbit)
  · exact does_of_fresh (fun t => t.loadExtest 3) rfl (loadExtest_low (s := s.fresh) 3 hlow)
  · exact does_of_fresh (fun t => t.loadExtest 4) rfl (loadExtest_low (s := s.fresh) 4 hlow)
  · exact does_of_fresh (fun t => t.loadExtest 5) rfl (loadExtest_low (s := s.fresh) 5 hlow)
  · simp only [List.mem_cons, List.not_mem_nil, or_false] at hi
    rcases hi with rfl | rfl | rfl
    · exact does_of_fresh (fun t => t.loadExtest 3) rfl (loadExtest_high (s := s.fresh) 3 hhigh)
    · exact does_of_fresh (fun t => t.loadExtest 4) rfl (loadExtest_high (s := s.fresh) 4 hhigh)
    · exact does_of_fresh (fun t => t.loadExtest 5) rfl (loadExtest_high (s := s.fresh) 5 hhigh)

end Sys2Proof.Machine
end
